-- ==== Sys2Proof/Word.lean ====
section
/-! DEFINITION. The word and byte types of the GZL4 (R10, R11). -/

namespace Sys2Proof

/-- One byte: the smallest addressable unit of the local address space (R41). -/
abbrev Byte := BitVec 8

/-- One register: every register is 32 bits wide (R11). -/
abbrev Word := BitVec 32

end Sys2Proof
end

