-- ==== Sys2Proof/Machine/Map.lean ====
section
/-! DEFINITION. Sparse maps in one canonical form: a list of (key, value) pairs, keys strictly rising, no
entry equal to what an unlisted key reads as.  Memory, the register file and every indexed family of
state use it, so that equal contents are equal data. -/

namespace Sys2Proof.Machine

/-- A sparse map from Nat keys. -/
abbrev SMap (V : Type) := List (Nat × V)

/-- What key `k` reads as; `d` is what an unlisted key reads as. -/
def SMap.get {V : Type} (d : V) : SMap V → Nat → V
  | [], _ => d
  | (a, v) :: r, k => if a = k then v else if k < a then d else SMap.get d r k

/-- The entries after every leading key at most `k`. -/
def SMap.past {V : Type} (k : Nat) : SMap V → SMap V
  | [] => []
  | (a, v) :: r => if a ≤ k then SMap.past k r else (a, v) :: r

/-- Write `v` at key `k`, keeping the canonical form: writing `d` removes the entry. -/
def SMap.set {V : Type} [DecidableEq V] (d : V) : SMap V → Nat → V → SMap V
  | [], k, v => if v = d then [] else [(k, v)]
  | (a, w) :: r, k, v =>
    if k < a then (if v = d then (a, w) :: r else (k, v) :: (a, w) :: r)
    else if a = k then (if v = d then SMap.past k r else (k, v) :: r)
    else (a, w) :: SMap.set d r k v

/-- The entries from key `lo` on whose keys satisfy `p`; one that stands behind a greater key, as none does in the canonical
form, goes too. -/
def SMap.keep {V : Type} (p : Nat → Bool) : Nat → SMap V → SMap V
  | _, [] => []
  | lo, (a, v) :: r =>
    if a < lo then SMap.keep p lo r else if p a then (a, v) :: SMap.keep p (a + 1) r else SMap.keep p (a + 1) r

/-- Every key `k` with `lo ≤ k < hi` reads as unlisted again. -/
def SMap.clear {V : Type} (m : SMap V) (lo hi : Nat) : SMap V := SMap.keep (fun k => k < lo || hi ≤ k) 0 m

/-- Keys strictly rising from above `lo`, no entry equal to `d`. -/
def SMap.wfFrom {V : Type} [DecidableEq V] (d : V) : Nat → SMap V → Bool
  | _, [] => true
  | lo, (a, v) :: r => decide (lo ≤ a) && decide (v ≠ d) && SMap.wfFrom d (a + 1) r

/-- The canonical form: keys strictly rising, no entry equal to `d`. -/
def SMap.wf {V : Type} [DecidableEq V] (d : V) (m : SMap V) : Bool := SMap.wfFrom d 0 m

/-- Memory: (address, byte) pairs; an unlisted address reads as 0 (log entry 3). -/
abbrev Memory := List Host.Cell

/-- One byte of memory. -/
def Memory.read (m : Memory) (a : Nat) : Byte := SMap.get 0#8 m a

/-- Write one byte. -/
def Memory.write (m : Memory) (a : Nat) (b : Byte) : Memory := SMap.set 0#8 m a b

/-- The canonical form of memory. -/
def Memory.wf (m : Memory) : Bool := SMap.wf 0#8 m

end Sys2Proof.Machine
end

