-- ==== Sys2Proof/Machine/Bits.lean ====
section
/-! DEFINITION. Bit fields, byte order, signed and saturating arithmetic: the plain helpers every chapter's
operations use (R10: little-endian throughout unless a table says otherwise). -/

namespace Sys2Proof.Machine

/-- The field of `w` bits of `n` that starts at bit `lo`. -/
def bitsOf (n lo w : Nat) : Nat := n / 2 ^ lo % 2 ^ w

/-- `n` with the field of `w` bits at `lo` replaced by `v`. -/
def putBits (n lo w v : Nat) : Nat := n - bitsOf n lo w * 2 ^ lo + v % 2 ^ w * 2 ^ lo

/-- Bit `k` of `n`. -/
def bitAt (n k : Nat) : Bool := n / 2 ^ k % 2 == 1

/-- 1 for true, 0 for false. -/
def natOf (b : Bool) : Nat := if b then 1 else 0

/-- The `k` little-endian bytes of `n` (R10). -/
def leBytes : Nat → Nat → List Byte
  | 0, _ => []
  | k + 1, n => BitVec.ofNat 8 n :: leBytes k (n / 256)

/-- The number that little-endian bytes spell. -/
def leNat : List Byte → Nat
  | [] => 0
  | b :: r => b.toNat + 256 * leNat r

/-- The `k` big-endian bytes of `n` (network byte order, R290). -/
def beBytes (k n : Nat) : List Byte := (leBytes k n).reverse

/-- The number that big-endian bytes spell. -/
def beNat (l : List Byte) : Nat := leNat l.reverse

/-- The byte at offset `i` of a payload or record, 0 past its end. -/
def byteAt (l : List Byte) (i : Nat) : Nat := (l.getD i 0#8).toNat

/-- The little-endian field of `k` bytes at offset `off`. -/
def leAt (l : List Byte) (off k : Nat) : Nat := leNat ((l.drop off).take k)

/-- The bytes of `l` from `off`, `k` of them, zero past its end. -/
def slice (l : List Byte) (off k : Nat) : List Byte :=
  let x := (l.drop off).take k
  x ++ List.replicate (k - x.length) 0#8

/-- `l` with the bytes from `off` replaced by `v`; the list is not lengthened. -/
def splice (l : List Byte) (off : Nat) (v : List Byte) : List Byte :=
  l.take off ++ (v.take (l.length - off)) ++ l.drop (off + v.length)

/-- `k` zero bytes. -/
def zeros (k : Nat) : List Byte := List.replicate k 0#8

/-- `l` zero-padded or cut to `k` bytes. -/
def padTo (k : Nat) (l : List Byte) : List Byte := (l.take k) ++ zeros (k - l.length)

/-- The two's-complement value of the low `w` bits of `n`. -/
def sInt (w n : Nat) : Int :=
  let m := n % 2 ^ w
  if m < 2 ^ (w - 1) then (m : Int) else (m : Int) - ((2 ^ w : Nat) : Int)

/-- The low `w` bits of an integer. -/
def uOf (w : Nat) (i : Int) : Nat := (i % ((2 ^ w : Nat) : Int)).toNat

/-- `x` held between `lo` and `hi`. -/
def clampI (lo hi x : Int) : Int := if x < lo then lo else if hi < x then hi else x

/-- The least and greatest values of a signed field of `w` bits. -/
def sMin (w : Nat) : Int := -((2 ^ (w - 1) : Nat) : Int)
def sMax (w : Nat) : Int := ((2 ^ (w - 1) : Nat) : Int) - 1

/-- Saturate to a signed field of `w` bits. -/
def satS (w : Nat) (x : Int) : Int := clampI (sMin w) (sMax w) x

/-- The counter that stops at 2^32 − 1. -/
def satInc (n k : Nat) : Nat := if n + k < 2 ^ 32 then n + k else 2 ^ 32 - 1

/-- Floor division by a power of two of an integer (an arithmetic right shift). -/
def shrI (x : Int) (k : Nat) : Int := x / ((2 ^ k : Nat) : Int)

/-- Left shift of an integer. -/
def shlI (x : Int) (k : Nat) : Int := x * ((2 ^ k : Nat) : Int)

/-- The numbers 0 to n − 1. -/
def upTo (n : Nat) : List Nat := List.range n

/-- The set bits of a mask of `w` bits, in rising order. -/
def maskBits (w m : Nat) : List Nat := (upTo w).filter (fun k => bitAt m k)

/-- The first element of a list that satisfies `p`, with its index. -/
def findIdxFrom {α : Type} (p : α → Bool) : Nat → List α → Option (Nat × α)
  | _, [] => none
  | i, x :: r => if p x then some (i, x) else findIdxFrom p (i + 1) r

/-- Replace element `i` of a list. -/
def setAt {α : Type} : List α → Nat → α → List α
  | [], _, _ => []
  | _ :: r, 0, v => v :: r
  | x :: r, i + 1, v => x :: setAt r i v

/-- Remove element `i` of a list. -/
def removeAt {α : Type} : List α → Nat → List α
  | [], _ => []
  | _ :: r, 0 => r
  | x :: r, i + 1 => x :: removeAt r i

/-- Ceiling division. -/
def ceilDiv (a b : Nat) : Nat := (a + b - 1) / b

end Sys2Proof.Machine
end

