-- ==== Sys2Proof/Machine/Types.lean ====
section
/-! DEFINITION. The operand types of the commands: Bellpull headers, status codes, agents of an access, class 0
flits, event records and the like, each named by the rule of spec/ that lays it out. -/

namespace Sys2Proof.Machine

/-- Status codes (R507). -/
inductive Status
  | ok | busy | badOpcode | badLength | badPartition | denied | tooLong | timeout | incomplete
  | muted | fenced | noResource | signatureFail | rollback | staleEpoch
  deriving DecidableEq, Repr, Inhabited

/-- The numeric code of a status (R507). -/
def Status.code : Status → Nat
  | .ok => 0 | .busy => 1 | .badOpcode => 2 | .badLength => 3 | .badPartition => 4 | .denied => 5
  | .tooLong => 6 | .timeout => 7 | .incomplete => 8 | .muted => 9 | .fenced => 10
  | .noResource => 11 | .signatureFail => 12 | .rollback => 13 | .staleEpoch => 14

/-- The status of a numeric code; codes above 0x0E are reserved and never written (R507). -/
def Status.ofCode : Nat → Status
  | 0 => .ok | 1 => .busy | 2 => .badOpcode | 3 => .badLength | 4 => .badPartition | 5 => .denied
  | 6 => .tooLong | 7 => .timeout | 8 => .incomplete | 9 => .muted | 10 => .fenced
  | 11 => .noResource | 12 => .signatureFail | 13 => .rollback | _ => .staleEpoch

/-- A Bellpull command's header (R509) without its opcode.  `func` is the issuing PCIe function, or 0xFE for a
message over SMBus or MCTP (R521), which came on SMBus port `port`; `units` is UNITS; `part` and `flags` are the whole bytes at
offsets 6 and 7; `rsvd` is non-zero when some other reserved header field of the command is, or PAYLEN exceeds 64 × UNITS − 32. -/
structure Hdr where
  func  : Nat
  units : Nat
  part  : Nat
  tag   : Nat
  seq   : Nat
  flags : Nat
  rsvd  : Nat
  port  : Nat
  deriving DecidableEq, Repr, Inhabited

/-- Who makes an access: a PCIe function, an S-core of a region, Carillon, a request from the fabric carrying
a partition, or the Tabor (R40, R52, R596). -/
inductive Agent
  | func (f : Nat)
  | score (r : Nat)
  | carillon
  | fabric (part : Nat)
  | tabor
  deriving DecidableEq, Repr, Inhabited

/-- A Tattoo flit's payload (R64). -/
structure Tattoo where
  part    : Nat
  round   : Nat
  beat    : Nat
  flags   : Nat
  sent    : Nat
  filed   : Nat
  nreport : Nat
  deriving DecidableEq, Repr, Inhabited

/-- An alarm flit's payload (R251). -/
structure Alarm where
  cause    : Nat
  merged   : Nat
  first    : Nat
  time     : Nat
  partMask : Nat
  deriving DecidableEq, Repr, Inhabited

end Sys2Proof.Machine
end

