-- ==== Sys2Proof/Machine/Dev.lean ====
section
/-! DEFINITION. The state of the block apart from its register file: one structure per kind of unit.  Every
register of the spec's register tables lives in `Dev.regs` under its address; what stands here is the state
the spec gives the machine that no register shows. -/

namespace Sys2Proof.Machine

/-- A log record (R521); `data` is its 32 bytes of DATA. -/
structure LogRec where
  boot   : Nat
  seq    : Nat
  time   : Nat
  source : Nat
  kind   : Nat
  sev    : Nat
  flags  : Nat
  func   : Nat
  part   : Nat
  opcode : Nat
  status : Nat
  count  : Nat
  data   : List Byte
  deriving DecidableEq, Repr, Inhabited

/-- A Tocsin record (R500). -/
structure TocRec where
  kind   : Nat
  source : Nat
  part   : Nat
  origin : Nat
  time   : Nat
  data0  : Nat
  data1  : Nat
  deriving DecidableEq, Repr, Inhabited

/-- An event record (R195) with its emission beat (EBEAT16, 16 bits) and, for a FAR event, the FORMAT and DADDR
of its extension word (R196). -/
structure Event where
  dcore  : Nat
  ra     : Nat
  delay  : Nat
  grade  : Nat
  part   : Nat
  tkind  : Nat
  nrows  : Nat
  tag    : Nat
  ebeat  : Nat
  fmt    : Nat
  daddr  : Nat
  deriving DecidableEq, Repr, Inhabited

/-- A far row whose DDR5 reads are outstanding (R169): its format, byte address and grade, the bytes the channels will
return, and whether a burst of them is uncorrectable. -/
structure FarRow where
  fmt    : Nat
  addr   : Nat
  grade  : Nat
  data   : List Byte
  bad    : Bool
  /-- A read of it was discarded at the failed die bridge: its data never comes (R24, R614). -/
  lost   : Bool
  deriving DecidableEq, Repr, Inhabited

/-- An Integrate stopped by a full fire log (R128): its beat, the neuron waiting to fire, the groups visited so far
and the update slots used (those issued eight and four a cycle). -/
structure Stall where
  beat   : Nat
  next   : Nat
  groups : Nat
  slots8 : Nat
  slots4 : Nat
  deriving DecidableEq, Repr, Inhabited

/-- What an N-core at one physical site holds beside its registers and its core store. -/
structure NCore where
  /-- Profiles: 64 bytes of base record, then the 512-byte ladder (R107, R109); unlisted is invalid (R136). -/
  profiles  : SMap (List Byte)
  /-- Rules of 64 bytes (R313); unlisted is invalid (R356). -/
  rules     : SMap (List Byte)
  /-- The active bitmap (R111). -/
  active    : SMap Bool
  /-- The touch summary: bit of group g of row t at key 1024 t + g (R111). -/
  touch     : SMap Bool
  /-- The generator (R306). -/
  gen       : Nat
  /-- Per fire-log position: bit 0 its lookup was issued, bit 1 the post pass has read it (R127). -/
  flDone    : SMap Nat
  /-- The drain pointer P (R200), 48 bits. -/
  ptr       : Nat
  /-- The slot of beat P has closed while its Deliver waits for far rows (R201). -/
  closed    : Bool
  /-- The next entry of the open slot that Deliver takes, and the next row of that entry (R166). -/
  delEnt    : Nat
  delRow    : Nat
  /-- Row cycles of the Deliver in progress, and the wait cycles FW and RW reported for it (R168). -/
  delR      : Nat
  delWait   : Nat
  /-- Far rows outstanding (R169). -/
  farOut    : List FarRow
  /-- The slot of the Deliver in progress opened with no entry (R210). -/
  openEmpty : Bool
  /-- The beat whose Integrate was last completed, and the beat last reported FINAL (R58). -/
  integ     : Option Nat
  final     : Option Nat
  /-- Integrate stopped by a full fire log (R128). -/
  stall     : Option Stall
  /-- The scrubber's next word (R176). -/
  scrub     : Nat
  /-- Uncorrectable words in the present second: the second and their number (R608). -/
  uncSec    : Nat
  uncCnt    : Nat
  /-- Beats for which the core has kept its region from FINAL (R608). -/
  hang      : Nat
  /-- Harvest cycles spent in the present beat, and the beat they are of (R329). -/
  hSpent    : Nat
  hBeat     : Nat
  /-- Beats the running harvest has taken, and whether its window has closed with the overrun yet to be reported (R329,
  R334). -/
  hBeats    : Nat
  hOver     : Bool
  /-- Row-sweep quotas, oldest first: positions left and beats waited (R323, R324). -/
  sweeps    : List (Nat × Nat)
  /-- Beat at which an armed modulator value was last applied (R325). -/
  modAt     : Option Nat
  deriving DecidableEq, Repr, Inhabited

/-- A packet of events that a router is filling (R237): the router (0 and 1 the die routers, 16 + r a region router),
destination device and region, partition, emission beat (16 bits) and its records. -/
structure Pack where
  router : Nat
  dev    : Nat
  reg    : Nat
  part   : Nat
  ebeat  : Nat
  evs    : List Event
  deriving DecidableEq, Repr, Inhabited

/-- A tunnel datagram being gathered (R293): site, partition, emission beat and its records. -/
structure TunPack where
  site : Nat
  part : Nat
  beat : Nat
  recs : List Nat
  deriving DecidableEq, Repr, Inhabited

/-- Records held in the early buffer (R297): site, emission beat, records. -/
structure Early where
  site : Nat
  beat : Nat
  recs : List Nat
  deriving DecidableEq, Repr, Inhabited

/-- The PTP slave clock beside its registers (R300 to R302), times in ps: consecutive Sync intervals within bounds and the
offset they are compared with, the present offset from the master, the number of the next Delay_Req, the Sync (sequence,
receipt) that waits for its Follow_Up, the last Sync's origin and receipt, the Delay_Req whose answer is awaited (sequence,
departure), and the chosen master: its data set and its port identity. -/
structure Ptp where
  good    : Nat
  base    : Int
  off     : Int
  seq     : Nat
  sync    : Option (Nat × Int)
  last    : Option (Int × Int)
  delay   : Option (Nat × Int)
  quality : List Byte
  master  : List Byte
  deriving DecidableEq, Repr, Inhabited

/-- A far-window entry: its core (physical site), the near entry, and the number of the block it stands in
(R207, R211). -/
structure FarEnt where
  core : Nat
  ent  : Nat
  blk  : Nat
  deriving DecidableEq, Repr, Inhabited

/-- The far list of one due beat: its entries in filing order, and how many entries its newest block has taken. -/
structure FarList where
  ents : List FarEnt
  fill : Nat
  blk  : Nat
  deriving DecidableEq, Repr, Inhabited

/-- Who sent a message and is to be told its acknowledgement (R407): nobody, operation `id` of the S-core of region `r`, the
source of a fabric request that came to die `die`, a waiting CHAN_SEND, or a combining queue of the region (R414). -/
inductive Sender
  | nobody
  | score (r id : Nat)
  | fabric (die : Nat) (req : List Byte)
  | cmd (func tag seq : Nat)
  | comb (q : Nat)
  deriving DecidableEq, Repr, Inhabited

/-- A message entry of a channel or an input stage (R406): its 64 bytes and its sender. -/
structure Msg where
  data   : List Byte
  sender : Sender
  deriving DecidableEq, Repr, Inhabited

/-- A combining queue (R413): the lanes' sums (none is all zero), whether its result waits for room, contributions held. -/
structure CombQ where
  lanes : List Int
  wait  : Bool
  held  : List Msg
  deriving DecidableEq, Repr, Inhabited

/-- A word on its way over a mesh link (R274): the plane cycle of its arrival, the input it arrives at (1 N, 2 S, 3 E, 4 W),
its ERR mark and its 16 lanes. -/
structure PlWord where
  due   : Nat
  src   : Nat
  err   : Bool
  lanes : List Nat
  deriving DecidableEq, Repr, Inhabited

/-- What a region's services hold beside their registers. -/
structure Region where
  /-- The beat the region last started, and whether it has started one since START (R78). -/
  beat     : Nat
  started  : Bool
  /-- The far lists by due beat (R207), the oldest beat B whose closing has not yet brought the migration of B + 64
  (R209), and the next block number. -/
  far      : SMap FarList
  mig      : Nat
  nextBlk  : Nat
  /-- Readout events held while a buffer clears, and which buffer (R213). -/
  held     : List Event
  clearing : Option Nat
  /-- Whether each of the two frame buffers saturated (FRAME FLAGS bit 1, R220). -/
  frSat    : SMap Bool
  /-- Channels' entries and input stages (R406, R408). -/
  chan     : SMap (List Msg)
  stage    : SMap (List Msg)
  /-- Combining queues (R413). -/
  comb     : SMap CombQ
  /-- Plane: the cycle of the running program since its GO, and the words on their way to this node (R274). -/
  plCycle  : Nat
  plIn     : List PlWord
  /-- The words of bank 15 that port A has written plainly since the plane's last slot, each with the 8 bytes it held before,
  and the tick of those writes (R424). -/
  portA    : SMap (List Byte)
  portT    : Nat
  deriving DecidableEq, Repr, Inhabited

/-- An output-ring record waiting to be written (R220): its bytes, its kind and the emission beat and counting point of
a SPIKE. -/
inductive OutRec
  /-- SPIKE: record bytes, emission beat (16 bits), region router that counts it (R60). -/
  | spike (bytes : List Byte) (ebeat region : Nat)
  /-- FRAME of a beat, with its NSLOT slot words (R223). -/
  | frame (beat flags : Nat) (slots : List Nat)
  /-- BEATEND of a beat with its FLAGS (R220). -/
  | beatEnd (beat flags : Nat)
  /-- MUTE with its fault code and beat. -/
  | mute (code beat : Nat)
  deriving DecidableEq, Repr, Inhabited

/-- The checkpoint ring of a partition, held in the Keep (R345, R346, R358). -/
structure Ckpt where
  flags     : Nat
  every     : Nat
  nblocks   : Nat
  hostAddr  : Nat
  hostSize  : Nat
  quota     : Nat
  /-- Blocks per slot B and slots NSLOT of the ring. -/
  blocks    : Nat
  nslot     : Nat
  /-- Slot contents, header and payload; an unlisted slot holds nothing. -/
  slots     : SMap (List Byte)
  /-- Erases made of each block of the ring, by block number SLOT × B + j; a new layout of the ring keeps them. -/
  erases    : SMap Nat
  /-- RTC at the last commit (R349). -/
  commit    : Option Nat
  /-- A copy in progress: the slot, its SEQ, and whether a CKPT_NOW or an S-core asked for it. -/
  copy      : Option (Nat × Nat)
  /-- The image of the copy in progress, and whether its host export is still to be made (R352). -/
  image     : List Byte
  toHost    : Bool
  toKeep    : Bool
  abandoned : Nat
  skips     : Nat
  /-- The last checkpoint number, and the Season number whose saving has been decided (R344). -/
  seq       : Nat
  saved     : Option Nat
  deriving DecidableEq, Repr, Inhabited

/-- What the Tabor and Carillon hold for one partition beside its registers. -/
structure Part where
  /-- The timebase tick at which a beat start reset TAB_BCOUNT from the beat before it (R67). -/
  reset     : Option Nat
  /-- A START that waits for its first beat (R88, R89): the number it named. -/
  startAt   : Option Nat
  /-- A pending Muffle request: the beats it has waited (R92). -/
  muffle    : Option Nat
  /-- Beats unsettled and still open, each with the later beats started since (R71). -/
  openBeats : List (Nat × Nat)
  /-- The count at the period event of a leaping beat (R73, R81). -/
  leap      : Option Nat
  /-- The number of the last round (R64), the beat of the round that is outstanding, and whether the present beat has had its first
  Emit (R62). -/
  round     : Nat
  roundOut  : Option Nat
  emitted   : Bool
  /-- The span group's tree here: parent and children (R265, R271); the GATHER under way at a member and the REPORTs of its
  children so far (R268); the sums of a member's latest complete device-internal round. -/
  parent    : Option Nat
  kids      : List Nat
  gather    : Option Tattoo
  reps      : List (Nat × Tattoo)
  latest    : Option Tattoo
  /-- The last beat for which a RELEASE settlement notice came (R76). -/
  notice    : Option Nat
  /-- A resume asked for and waiting for the lead (R93). -/
  resume    : Bool
  /-- Facts of a beat by number: bit 0 Muted in it, bit 1 an overrun beat, bit 2 settled before beat + 2 (R216, R223). -/
  facts     : SMap Nat
  /-- SPIKE records written for a beat (R220). -/
  spikes    : SMap Nat
  /-- Output records waiting for room, oldest first; records lost since the last LOST and the beat of the last (R221). -/
  outq      : List OutRec
  lost      : Nat
  lostBeat  : Nat
  /-- The checkpoint ring (R345). -/
  ckpt      : Ckpt
  /-- Outputs held since a Mute until the next beat start after it (R604). -/
  held      : Bool
  /-- Ends of beats that wait for an earlier beat's BEATEND: the beat and its records (R223). -/
  heldEnds  : List (Nat × List OutRec)
  deriving DecidableEq, Repr, Inhabited

/-- A command that waits (R515), with what it waits for. -/
inductive WaitFor
  /-- BEAT_START until the first beat (R88). -/
  | start
  /-- BEAT_MUFFLE until the Muffle takes effect (R92). -/
  | muffle
  /-- BEAT_RESUME of a span or EXTLOCK partition until its first beat (R93). -/
  | resume
  /-- CHAN_RECV on a region's channel (R409). -/
  | chan (region chan : Nat)
  /-- CKPT_NOW until the commit (R349). -/
  | ckpt
  /-- MOD_SET until every core has applied it: the beat named (R357). -/
  | mod (beat : Nat)
  /-- COLL_ISSUE or COLL_SETUP of a group (R258, R283). -/
  | coll (group : Nat)
  /-- UPDATE or power commands that wait for a change of state; FENCE of a logical core (R609). -/
  | fence (core : Nat)
  /-- POWER_STATE until the change ends (R581). -/
  | power
  /-- GANG_FORM, DDR_RETRAIN or another command named by its opcode. -/
  | other (opcode : Nat)
  deriving DecidableEq, Repr, Inhabited

/-- A waiting command: its opcode, whether that names a partition and is read-only, its header and payload. -/
structure Waiting where
  opcode : Nat
  names  : Bool
  ro     : Bool
  hdr    : Hdr
  pl     : List Byte
  what   : WaitFor
  deriving DecidableEq, Repr, Inhabited

/-- A response that waits to be written to a response ring (R517, R519). -/
structure Resp where
  opcode : Nat
  hdr    : Hdr
  status : Status
  detail : Nat
  pl     : List Byte
  deriving DecidableEq, Repr, Inhabited

/-- A command taken and not yet completed (R514). -/
structure Outst where
  tag : Nat
  seq : Nat
  deriving DecidableEq, Repr, Inhabited

/-- Bellpull state of one PCIe function beside its doorbell block. -/
structure Fn where
  outst   : List Outst
  lastSeq : Option Nat
  resps   : List Resp
  /-- Messages of R512 that framing has put aside, and MSI-X: entry address, data, mask, pending (R455, R471). -/
  msixAddr : SMap Nat
  msixData : SMap Nat
  msixUnmasked : SMap Bool
  msixPend : SMap Bool
  /-- Vectors inside their moderation interval (R471). -/
  modRun  : SMap Bool
  /-- The function answers with Configuration Request Retry Status: FLR in progress (R474). -/
  flr     : Bool
  /-- The Max Read Request Size code (128 × 2^code bytes), Enable Relaxed Ordering and the completion-timeout range of the
  function's configuration space (R451). -/
  mrrs    : Nat
  relaxed : Bool
  cplTmo  : Nat
  deriving DecidableEq, Repr, Inhabited

/-- Carillon beside its registers. -/
structure Carillon where
  log      : List LogRec
  ff       : List LogRec
  supp     : SMap Nat
  suppKind : SMap Nat
  rate     : SMap Nat
  rateInt  : Nat
  jbuf     : List LogRec
  jSince   : Nat
  jSec     : Nat
  jAdm     : Nat
  journal  : List LogRec
  jPages   : Nat
  /-- MCFG per partition (R536); unlisted is 64 zero bytes. -/
  mcfg     : SMap (List Byte)
  /-- Replies to ARP, Neighbour Solicitation and echo made in the present second, per Ethernet port (R287). -/
  pings    : SMap Nat
  pingSec  : Nat
  fns      : SMap Fn
  waiting  : List Waiting
  /-- The boot directory (R538 to R541): the active slot, the trial slot and the timebase at which its time ends, and the
  update in progress (the image length); whether the inactive slot has been verified; the images the two slots hold and the
  ranges (offset, length) programmed since UPDATE_BEGIN. -/
  active   : Nat
  trial    : Option Nat
  trialEnd : Nat
  update   : Option Nat
  verified : Bool
  imgA     : List Byte
  imgB     : List Byte
  wrote    : List (Nat × Nat)
  /-- The part record with its signature as read from the Keep (R533), and the body digest MFW (R539). -/
  partRec  : List Byte
  mfw      : List Byte
  /-- Carillon's reference of the remap table (R36): the value of an entry as its difference (XOR) from the entry's number. -/
  remap    : SMap Nat
  restart  : Bool
  /-- Health of sensors out of range (R523), by index. -/
  sensOut  : SMap Bool
  /-- Management packets dropped at a full input buffer (R248). -/
  mgmtDrop : Nat
  /-- MCTP endpoint IDs and the index last written by SMBus command 0x11, per port (R545, R546). -/
  eid      : SMap Nat
  smbIdx   : SMap Nat
  /-- The Keep's stored configurations (R431, R563) and counters kept there: by key, 0 DDR configuration, 1 time, 2 PTP,
  3 Ethernet of W+, 4 of W−, 5 reserve counts, 6 boot count, 7 anti-rollback counter, 8 DDR training cache. -/
  keepCfg  : SMap (List Byte)
  deriving DecidableEq, Repr, Inhabited

/-- A T-core beside its registers and its buffer. -/
structure TCore where
  /-- Descriptors queued, oldest first (R396), each with whether the region's S-core pushed it by ENCODE and takes its
  completion record (R402). -/
  queue   : List (List Byte × Bool)
  /-- The head descriptor has been checked and runs (R375). -/
  running : Bool
  /-- ABORT has been asked for the running op (R393), and a plane word came with ERR since the last op completed (R390). -/
  abort   : Bool
  plErr   : Bool
  /-- Mute began while an OPTIM ran (R381). -/
  muteHit : Bool
  /-- The descriptor whose tiles leave on the plane since the last GO, and the tiles formed so far: their words of 16 lanes
  (R389). -/
  plane   : Option (List Byte)
  tiles   : SMap (List (List Nat))
  /-- The 16 generators (R368); with none listed they stand as the T-core's reset seeded them from the entropy source, which is
  drawn at the first op that needs them. -/
  gens    : SMap Nat
  /-- Words 0 to 14 of the descriptor being pushed (R396). -/
  push    : SMap Nat
  deriving DecidableEq, Repr, Inhabited

/-- An operation of an S-core (R402, R403): its number, its descriptor, the values of GD and GS it started with, whether it
is posted, the results of the accesses it has made, the pieces of the access in progress by offset, whether an
acknowledgement carried REFUSED, and whether a piece is held back: by the limit of outstanding requests (R252), or at a bank
whose handover has not ended (R422). -/
structure SOp where
  id      : Nat
  desc    : List Byte
  gd      : Nat
  gs      : Nat
  posted  : Bool
  log     : List (List Byte)
  pieces  : SMap (List Byte)
  refused : Bool
  held    : Bool
  deriving DecidableEq, Repr, Inhabited

/-- An S-core beside its registers (R399). -/
structure SCore where
  /-- Program memory: descriptors by index (R399); unlisted is 16 zero bytes. -/
  prog    : SMap (List Byte)
  /-- Operations not yet ended and the number of the next one; acknowledgements on their way: the counter, REFUSED, and
  whether the operation was posted (R403, R412). -/
  ops     : List SOp
  next    : Nat
  acks    : List (Nat × Bool × Bool)
  /-- The operation the S-core waits for; HALT came while it waits (R425). -/
  cur     : Option Nat
  halt    : Bool
  deriving DecidableEq, Repr, Inhabited

/-- A general timer beside its registers: capture queue (oldest first), the level of its trigger output and the timebase at
which a pulse ends (R485, R488). -/
structure TimerX where
  caps  : List Nat
  out   : Bool
  pulse : Nat
  deriving DecidableEq, Repr, Inhabited

/-- The fence in progress (R609, R612): logical core, failed site, spare (none before step 1 found one), the function
that asked, NORESUME, COMMITTED and the words written as zero. -/
structure Fence where
  core      : Nat
  failed    : Nat
  spare     : Option Nat
  noResume  : Bool
  committed : Bool
  zeroed    : Nat
  waitBeats : Nat
  deriving DecidableEq, Repr, Inhabited

/-- Pins and package state (R591, R615, R616, R643 to R655). -/
structure Pins where
  muteOut   : Bool
  /-- ALARM_N pulled low. -/
  alarm     : Bool
  /-- The I/O pins float (Ember). -/
  float     : Bool
  /-- GPIO level driven: unlisted floats. -/
  gpio      : SMap Nat
  /-- GPIO pins held at their safe level (R616). -/
  safeHeld  : SMap Bool
  thermtrip : Bool
  pwrEn     : Bool
  pwrgd     : Bool
  /-- PERST_N is asserted (R472, R473). -/
  perst     : Bool
  vid0      : Nat
  vid1      : Nat
  ppsOut    : Bool
  /-- The TAP's instruction code and whether debug access is enabled (R652). -/
  tap       : Nat
  /-- Straps sampled at PWRGD (R643). -/
  straps    : Nat
  deriving DecidableEq, Repr, Inhabited

/-- A fabric port beside its registers: its training has succeeded since its link last came up, and the payload of the
peer's last hello since then (R263, R556); the credits of its input buffer still to be returned, by VC (R241, R261); the coming
flits that lie in an uncorrectable codeword (R262); the times of the codewords and of the CRC failures that R264 counts. -/
structure LPort where
  trained : Bool
  hello   : Option (List Byte)
  owed    : SMap Nat
  mark    : Nat
  fecAt   : List Nat
  crcAt   : List Nat
  deriving DecidableEq, Repr, Inhabited

/-- A packet or class 0 flit waiting at an output (R241, R255): its VC, the port it leaves by, the input buffer it stands in (the
input, 8 and 9 the bridge directions, and the VC there; none for one made here), its ERR mark, its flits and how many have
gone. -/
structure Worm where
  vc   : Nat
  port : Nat
  src  : Option (Nat × Nat)
  err  : Bool
  data : List Byte
  sent : Nat
  deriving DecidableEq, Repr, Inhabited

/-- An output: port 0 to 7, or a bridge direction (8 from die 0, 9 from die 1): what waits, oldest first; by VC the flits that
stand in the peer's input buffer (R241); the VC served last (R242). -/
structure OPort where
  queue : List Worm
  used  : SMap Nat
  last  : Nat
  deriving DecidableEq, Repr, Inhabited

/-- A collective group's slot on this device (R257 to R260, R272, R273, R283): `asking` the devices whose reservation is
awaited; `parent` and `children` the tree's edges here; `lanes` the contributions combined so far, none before the first;
`got` the children heard in epoch `cur`; `broken` a collective in progress when an edge failed, which only its timer ends (R272);
`held` the early packets, with the port they came on. -/
structure Coll where
  used     : Bool
  rebuild  : Bool
  asking   : List Nat
  part     : Nat
  root     : Nat
  timeout  : Nat
  members  : List Nat
  depth    : Nat
  parent   : Option Nat
  children : List Nat
  epoch    : Nat
  issued   : Bool
  cur      : Nat
  op       : Nat
  count    : Nat
  lanes    : Option (List Nat)
  ncontrib : Nat
  got      : List Nat
  sat      : Bool
  nan      : Bool
  sentUp   : Bool
  broken   : Bool
  held     : List (Nat × List Byte)
  deriving DecidableEq, Repr, Inhabited

/-- A bulk transfer at its target (R254): the die it came to, source, partition, TAG, XFER, NPKT, and the SEQ of the packets
written. -/
structure Bulk where
  die    : Nat
  src    : Nat
  part   : Nat
  tag    : Nat
  xfer   : Nat
  npkt   : Nat
  got    : List Nat
  deriving DecidableEq, Repr, Inhabited

/-- A fabric request that waits for its reply (R252, R253): its TAG, whether it is a READ, its length, and whom its answer
serves: operation `id` of the S-core of region `region`, whose piece at `off` it fetches or writes, or whose message it carries
(R407).  The entry is the space reserved for the whole reply or the acknowledgement: a request is sent only with one of the 64
(R252). -/
structure Req where
  tag    : Nat
  read   : Bool
  len    : Nat
  region : Nat
  id     : Nat
  off    : Nat
  deriving DecidableEq, Repr, Inhabited

/-- An access by the new owner of a Commons bank that waits for the end of the handover (R422): a BAR2 read or write of a
function, or a request of the fabric of a TYPE that came to die router port `q`. -/
inductive HeldAcc
  | barRead (f off n : Nat)
  | barWrite (f off : Nat) (l : List Byte)
  | request (q type : Nat) (l : List Byte)
  deriving DecidableEq, Repr, Inhabited

/-- A DMA descriptor in progress (R467): its 32 bytes, its status so far, the bytes of host memory asked for, and the read
requests outstanding for it (R451). -/
structure DmaJob where
  desc  : List Byte
  st    : Nat
  asked : Nat
  reads : Nat
  deriving DecidableEq, Repr, Inhabited

/-- Calends beside the CAL block (R552 to R564): whether it runs, the
steps ended (DDR5, routes), the training that runs (0 power-up, 1 Ember exit, 2 cached and 3 full retraining), whether the hello wait and the election have
ended, its root's serial and whether
that is established, coordinates and dimensions where they are valid, the probes sent and back, the plan in use, and the
plan kept in the Keep. -/
structure Calends where
  on       : Bool
  ddr      : Bool
  ddrJob   : Option Nat
  routes   : Bool
  waited   : Bool
  elected  : Bool
  rootSer  : Nat
  rootEst  : Bool
  coords   : Option (Nat × Nat × Nat)
  dims     : Option (Nat × Nat × Nat)
  probes   : List (Nat × Option Nat)
  /-- The device ID of the root in force (R251, R560, R562): the plan's, and 0 where no plan names it. -/
  rootDev  : Nat
  plan     : List Byte
  kept     : List Byte
  deriving DecidableEq, Repr, Inhabited

/-- Power state beside the PWR block (R580 to R594): sleep (0 awake, 1 Vigil, 2 Ember), the operating point of the clocks
(0 Run, 1 Boost, 2 Lent), the timebase and RTC at entry to a sleep, a change in progress (its target, and 0 while the plane drains or 1 while VDD_CORE ramps),
the always-on SRAM, the CAR_CRTAIL writes held in Vigil by function (R584), whether a voltage monitor was outside its limits at the
last sample, the governor's milliseconds (readings held, hot, cool, below the power limit) with its last ten power
readings, and the domains that were ON before Vigil. -/
structure Pwr where
  asleep  : Nat
  prev    : Nat
  timeIn  : Nat
  rtcIn   : Nat
  change  : Option (Nat × Nat)
  sram    : SMap Byte
  tails   : SMap (Option Nat)
  volt    : Bool
  warm    : Nat
  hotMs   : Nat
  coolMs  : Nat
  plimMs  : Nat
  powers  : List Nat
  held    : List Nat
  deriving DecidableEq, Repr, Inhabited

/-- The trace FIFOs (R626 to R631), by die: the records held, the records of stalled engines that wait for room (DIAGNOSTIC),
the records dropped since the last DROP with the mask of their types; the sampling counters (key 16 × die + TYPE); the
microsecond of the rate cap and the records admitted in it; whether the lanes have started; the lane of the next record;
the low half of a MARK (R625). -/
structure TraceSt where
  fifo   : SMap (List (List Byte))
  held   : SMap (List (List Byte))
  drop   : SMap Nat
  types  : SMap Nat
  sample : SMap Nat
  capUs  : Nat
  capN   : Nat
  started : Bool
  lane   : Nat
  mark   : Nat
  deriving DecidableEq, Repr, Inhabited

/-- What leaves the block, in order (log entry 5). -/
inductive Output
  /-- A posted write to host memory: requester function, address, bytes (R454), with neither Relaxed Ordering nor No Snoop
  (R451). -/
  | hostWrite (func addr : Nat) (data : List Byte)
  /-- The data writes of a DMA descriptor, with their Relaxed Ordering attribute; No Snoop is never set (R451). -/
  | dmaWrite (func addr : Nat) (relaxed : Bool) (data : List Byte)
  /-- A read request to host memory: requester function, address, length (R451). -/
  | hostRead (func addr len : Nat)
  /-- An MSI-X message of a function's vector (R471). -/
  | msix (func vec addr data : Nat)
  /-- The completion of a host read (R458). -/
  | hostData (func : Nat) (data : List Byte)
  /-- A flit out of a fabric port, with its link tag (R261). -/
  | flit (port tag : Nat) (data : List Byte)
  /-- An Ethernet frame out of W+ (0) or W− (1). -/
  | frame (port : Nat) (data : List Byte)
  /-- An SMBus or MCTP reply on a port. -/
  | smbus (port : Nat) (data : List Byte)
  /-- A trace record of 16 bytes (R626), or a SYNC record. -/
  | trace (data : List Byte)
  /-- A pin driven: its name's code (log entry 5) and level. -/
  | pin (name level : Nat)
  deriving DecidableEq, Repr, Inhabited

end Sys2Proof.Machine
end

