-- ==== Sys2Proof/Syntax.lean ====
section
/-! DEFINITION. The commands of the GZL4: one constructor for each row of spec/opcode_table.json, with the operands
that the command or event carries from outside the block. -/

namespace Sys2Proof

open Sys2Proof.Machine

/-- A Tattoo flit as it comes in: the device it is from (its header's SRC, R238) and what it says (R64). -/
structure TattooIn where
  src : Nat
  t : Tattoo
  deriving DecidableEq, Repr, Inhabited

/-- What a port's link layer brought with a packet or flit (R262): the link tags since the last arrival, each with the ERR mark of its
flit, and the codewords the FEC corrected in them. -/
structure LinkIn where
  tags : List Nat
  corr : Nat
  deriving DecidableEq, Repr, Inhabited

/-- An uncorrectable codeword (R262): the port it came in on, the flits it overlaps, and the codewords corrected before it. -/
structure Codeword where
  port : Nat
  flits : Nat
  corr : Nat
  deriving DecidableEq, Repr, Inhabited

/-- A Peal copy: the device it is for and its event (R194). -/
structure PealCopy where
  dev : Nat
  ev : Event
  deriving DecidableEq, Repr, Inhabited

/-- A class 6 message about one link (R271): the port it came in on, and the port of the named device that failed. -/
structure LinkLost where
  port : Nat
  link : Nat
  deriving DecidableEq, Repr, Inhabited

/-- A device's link state as a class 6 message gives it (R552): the port it came in on, the ports UP, and its spanning partitions. -/
structure LinkState where
  port : Nat
  ports : Nat
  spans : List (Nat × Nat)
  deriving DecidableEq, Repr, Inhabited

/-- When a PTP message came (R301): the ticks since the last event, and the timestamp in 1/16 tick. -/
structure PtpStamp where
  dt : Nat
  ts : Nat
  deriving DecidableEq, Repr, Inhabited

/-- How far an Ethernet port's link came up (R284): `up` after training, else only auto-negotiation has ended. -/
structure EthLink where
  w : Nat
  up : Bool
  deriving DecidableEq, Repr, Inhabited

/-- One command, request or event of the opcode table. -/
inductive Instr
  /-- BEAT_CONFIG (R101): Bellpull command that sets a partition's beat mode, period, leap limit, span fields and epoch. -/
  | beatConfig (h : Hdr) (pl : List Byte)
  /-- BEAT_OFFSETS (R100): Bellpull command that writes TAB_CHOFF for the partition's regions. -/
  | beatOffsets (h : Hdr) (pl : List Byte)
  /-- BEAT_START (R100): Bellpull command that starts a partition from IDLE with a given first beat number. -/
  | beatStart (h : Hdr) (pl : List Byte)
  /-- BEAT_MUFFLE (R92): Bellpull command that requests a Muffle of the partition and completes when it takes effect, times out or is withdrawn. -/
  | beatMuffle (h : Hdr) (pl : List Byte)
  /-- BEAT_RESUME (R93): Bellpull command that resumes a Muffled partition or withdraws a pending Muffle. -/
  | beatResume (h : Hdr) (pl : List Byte)
  /-- BEAT_PERIOD (R80): Bellpull command that changes the partition's beat period. -/
  | beatPeriod (h : Hdr) (pl : List Byte)
  /-- BEAT_STATUS (R102): Bellpull command that returns the partition's beat status record. -/
  | beatStatus (h : Hdr) (pl : List Byte)
  /-- TIME_CONFIG (R83): Bellpull command that selects the time source, the PPS output and the TAI seconds. -/
  | timeConfig (h : Hdr) (pl : List Byte)
  /-- TIME_STATUS (R100): Bellpull command that returns TAB_TLSTAT and the phase error. -/
  | timeStatus (h : Hdr) (pl : List Byte)
  /-- TIME_RELOCK (R86): Bellpull command that steps the timebase to the source and relocks it. -/
  | timeRelock (h : Hdr) (pl : List Byte)
  /-- TAB_BCMD_START (R96): Register write of TAB_BCMD.START that starts the partition from IDLE. -/
  | tabBcmdStart (f : Nat) (p : Nat)
  /-- TAB_BCMD_MUFFLE (R90): Register write of TAB_BCMD.MUFFLE that requests a Muffle. -/
  | tabBcmdMuffle (f : Nat) (p : Nat)
  /-- TAB_BCMD_RESUME (R93): Register write of TAB_BCMD.RESUME that resumes from Muffle or withdraws a pending Muffle. -/
  | tabBcmdResume (f : Nat) (p : Nat)
  /-- TAB_BPERIOD_WRITE (R80): Write of a new beat period, which takes effect in the current beat. -/
  | tabBperiodWrite (f : Nat) (p : Nat) (v : Nat)
  /-- TAB_TLCTL_RELOCK (R86): Register write of RELOCK that steps the timebase and relocks it. -/
  | tabTlctlRelock (f : Nat)
  /-- TAB_TSET_WRITE (R480): Write of TAB_TSET_HI that steps the timebase to the 64-bit value at the next tick. -/
  | tabTsetWrite (f : Nat) (hi : Nat)
  /-- PERIOD_EVENT (R66): The beat tick count reaches TAB_BPERIOD and the period event fires. -/
  | periodEvent (p : Nat)
  /-- LEAP_LIMIT (R73): The tick count reaches TAB_BPERIOD + TAB_LEAPLIM and the leaping beat ends. -/
  | leapLimit (p : Nat)
  /-- REGION_BEAT_START (R78): A region starts its beat after its channel phase offset. -/
  | regionBeatStart (r : Nat)
  /-- READOUT_CLEAR_END (R213): The 128-cycle buffer clear ends and held READOUT events are added. -/
  | readoutClearEnd (r : Nat)
  /-- BEAT_COUNTS_CLOSE (R71): An unsettled beat's counts close after four later beats, adding to TAB_UNSETTLED. -/
  | beatCountsClose (p : Nat)
  /-- MUFFLE_TAKES_EFFECT (R90): The current beat settles with no open counts and no harvest, and the partition becomes MUFFLED. -/
  | muffleTakesEffect (p : Nat)
  /-- MUFFLE_TIMEOUT (R92): A Muffle request not in effect after 64 beats completes its command with TIMEOUT. -/
  | muffleTimeout (p : Nat)
  /-- EXTLOCK_FIRST_BEAT (R88): A waiting START of an EXTLOCK partition begins its first beat at a boundary reached while LOCKED. -/
  | extlockFirstBeat (p : Nat)
  /-- GATHER_RECEIVED (R268): A Tattoo GATHER flit reaches a counting point or span member, which answers with its counts. -/
  | gatherReceived (m : TattooIn)
  /-- REPORT_RECEIVED (R62): A Tattoo REPORT returns up the tree and its counts are summed. -/
  | reportReceived (p : Nat) (beat : Nat) (m : TattooIn)
  /-- RELEASE_RECEIVED (R74): A RELEASE flit reaches a span member, which starts the next beat or takes it as a settlement notice. -/
  | releaseReceived (t : Tattoo)
  /-- ROUND_ABANDON (R269): A round whose REPORTs are incomplete after 2 µs (10 µs for a span) is abandoned. -/
  | roundAbandon (p : Nat)
  /-- PPS_EDGE (R84): A PPS input edge is captured for acquisition, locking or tracking of the timebase. -/
  | ppsEdge (sec : Nat) (dt : Nat) (ref : Nat)
  /-- PPS_LOSS (R86): No PPS edge arrives for 2 s and the timebase enters HOLDOVER. -/
  | ppsLoss
  /-- PPS_OUTPUT_EDGE (R87): The PPS output emits a rising edge at each TAI second or timebase second. -/
  | ppsOutputEdge
  /-- PROFILE_LOAD (R108): Bellpull command that checks and loads a neuron profile and its ladder. -/
  | profileLoad (h : Hdr) (pl : List Byte)
  /-- PROFILE_READ (R137): Bellpull command that returns a profile base record and ladder. -/
  | profileRead (h : Hdr) (pl : List Byte)
  /-- NEURON_LOAD (R139): Bellpull command that writes neuron records. -/
  | neuronLoad (h : Hdr) (pl : List Byte)
  /-- NEURON_READ (R140): Bellpull command that returns neuron records, optionally caught up. -/
  | neuronRead (h : Hdr) (pl : List Byte)
  /-- NEURON_STATUS (R137): Bellpull command that returns the NEU registers of a core. -/
  | neuronStatus (h : Hdr) (pl : List Byte)
  /-- NCOUNT_WRITE (R144): Write of NEU_CFG.NCOUNT, ignored when the records would pass the REC area or fire log. -/
  | ncountWrite (f : Nat) (q : Nat) (v : Nat)
  /-- INTEGRATE (R111): After its slot drains, the neuron engine updates touched and active neurons of the beat. -/
  | integrate (q : Nat)
  /-- FIRE_LOG_STALL_END (R128): A stalled neuron engine resumes when a fire-log entry is released. -/
  | fireLogStallEnd (q : Nat) (cycles : Nat)
  /-- FINAL_REPORT (R58): An N-core reports FINAL once Integrate is done and all its lookups are issued. -/
  | finalReport (q : Nat)
  /-- PAGEMAP_SET (R143): Bellpull command that checks and installs a core's page map and zones. -/
  | pagemapSet (h : Hdr) (pl : List Byte)
  /-- PAGEMAP_READ (R183): Bellpull command that returns a core's page map. -/
  | pagemapRead (h : Hdr) (pl : List Byte)
  /-- ROW_LOAD (R185): Bellpull command that writes a synapse row image and removes its poison entry. -/
  | rowLoad (h : Hdr) (pl : List Byte)
  /-- ROW_READ (R183): Bellpull command that returns a row image. -/
  | rowRead (h : Hdr) (pl : List Byte)
  /-- SYN_STATUS (R183): Bellpull command that returns the SYN registers. -/
  | synStatus (h : Hdr) (pl : List Byte)
  /-- POISON_LIST (R183): Bellpull command that returns the poison table. -/
  | poisonList (h : Hdr) (pl : List Byte)
  /-- DELIVER (R168): The synapse engine drains the beat's near slot and adds contributions into rings. -/
  | deliver (q : Nat)
  /-- FAR_DATA_ARRIVAL (R166): Data of a far row arrives and the row is processed at the next row boundary. -/
  | farDataArrival (q : Nat) (k : Nat) (fw : Nat)
  /-- FAR_ROW_TIMEOUT (R170): A far row without data 8,192 cycles after issue is abandoned. -/
  | farRowTimeout (q : Nat) (k : Nat) (fw : Nat)
  /-- CORE_STORE_SCRUB (R176): The scrubber reads and corrects one core-store word every 64 cycles. -/
  | coreStoreScrub (q : Nat)
  /-- CORE_STORE_WRITE (R656): A write through the core-store window, partial writes read-modify-written. -/
  | coreStoreWrite (ag : Agent) (n : Nat) (off : Nat) (bytes : List Byte)
  /-- ALIAS_WRITE (R46): A bit-set or bit-clear alias write performs an indivisible read-modify-write. -/
  | aliasWrite (ag : Agent) (a : Nat) (bytes : List Byte)
  /-- COUNTER_LOW_READ (R15): A read of the low half of a 64-bit counter latches its high half for the function. -/
  | counterLowRead (f : Nat) (a : Nat)
  /-- REGISTER_WRITE (R11): A write to a register field that has no row of its own, by its access type. -/
  | registerWrite (ag : Agent) (a : Nat) (v : Nat)
  /-- AXON_RANGE (R232): Bellpull command that sets a partition's axon-table range on a die. -/
  | axonRange (h : Hdr) (pl : List Byte)
  /-- AXON_CORE_BASE (R232): Bellpull command that sets or invalidates a core's CBASE. -/
  | axonCoreBase (h : Hdr) (pl : List Byte)
  /-- AXON_LOAD (R192): Bellpull command that checks and writes axon entries. -/
  | axonLoad (h : Hdr) (pl : List Byte)
  /-- AXON_READ (R232): Bellpull command that returns axon entries. -/
  | axonRead (h : Hdr) (pl : List Byte)
  /-- ALMANAC_CONFIG (R234): Bellpull command that empties the Almanac and assigns far-window banks and late policy. -/
  | almanacConfig (h : Hdr) (pl : List Byte)
  /-- ALMANAC_READ (R233): Bellpull command that returns pending Almanac records. -/
  | almanacRead (h : Hdr) (pl : List Byte)
  /-- ALMANAC_LOAD (R233): Bellpull command that files pending records into the Almanac. -/
  | almanacLoad (h : Hdr) (pl : List Byte)
  /-- READOUT_CONFIG (R232): Bellpull command that sets the readout region, banks and export count. -/
  | readoutConfig (h : Hdr) (pl : List Byte)
  /-- READOUT_READ (R232): Bellpull command that returns slots of the last closed frame. -/
  | readoutRead (h : Hdr) (pl : List Byte)
  /-- EVENT_RINGS (R663): Bellpull command that configures and enables the partition's host event rings. -/
  | eventRings (h : Hdr) (pl : List Byte)
  /-- AXN_STATUS (R232): Bellpull command that returns a die's AXN registers. -/
  | axnStatus (h : Hdr) (pl : List Byte)
  /-- AXON_LOOKUP (R186): A fire-log entry reaches the die router and its axon entry is read to produce copies. -/
  | axonLookup (q : Nat)
  /-- PEAL_COPY_DROP (R194): A Peal copy that cannot move within 512 cycles is dropped and counted as filed. -/
  | pealCopyDrop (die : Nat) (c : PealCopy)
  /-- PACKET_COALESCE_EXPIRY (R237): COALESCE cycles pass since a packet's first record and the packet is sent. -/
  | packetCoalesceExpiry (k : Nat)
  /-- EVENT_RECORD_ARRIVAL (R660): An event record reaches its destination region router and is filed, spilled or dropped. -/
  | eventRecordArrival (ev : Event)
  /-- EVENT_DISPOSAL_TIMEOUT (R249): A record not disposed of within 256 cycles is dropped and counted as filed. -/
  | eventDisposalTimeout (ev : Event)
  /-- MIGRATION (R209): Once every core closed its slot of beat B, the router migrates the list of beat B + 64. -/
  | migration (r : Nat)
  /-- REFILL (R210): The router refills a draining slot from the far list of its beat. -/
  | refill (q : Nat) (stall : Nat)
  /-- INPUT_RECORD (R219): An input-ring record is read and accepted or rejected at the ingress router. -/
  | inputRecord (p : Nat) (rec : List Byte)
  /-- OUTPUT_RECORD_WRITE (R221): A SPIKE, FRAME, BEATEND, MUTE or LOST record is written to the output ring when room allows. -/
  | outputRecordWrite (p : Nat)
  /-- AXN_IRTAIL_WRITE (R217): Write of the input-ring producer index, the input doorbell. -/
  | axnIrtailWrite (f : Nat) (p : Nat) (v : Nat)
  /-- AXN_ORTAIL_WRITE (R220): Write of the output-ring consumer index, freeing records. -/
  | axnOrtailWrite (f : Nat) (p : Nat) (v : Nat)
  /-- EVENT_RING_CFG_WRITE (R229): Write of AXN_IRCFG or AXN_ORCFG that enables or disables a ring. -/
  | eventRingCfgWrite (f : Nat) (p : Nat) (k : Nat) (v : Nat)
  /-- FAB_STATUS (R282): Bellpull command that returns die FAB registers. -/
  | fabStatus (h : Hdr) (pl : List Byte)
  /-- PORT_CONTROL (R282): Bellpull command that disables, enables or retrains a port. -/
  | portControl (h : Hdr) (pl : List Byte)
  /-- PORT_STATUS (R282): Bellpull command that returns a port's registers. -/
  | portStatus (h : Hdr) (pl : List Byte)
  /-- ROUTE_READ (R282): Bellpull command that returns the direction tables. -/
  | routeRead (h : Hdr) (pl : List Byte)
  /-- COLL_SETUP (R283): Bellpull command that builds a collective group and reserves class 4 credits. -/
  | collSetup (h : Hdr) (pl : List Byte)
  /-- COLL_ISSUE (R258): Bellpull command that issues a collective under an epoch. -/
  | collIssue (h : Hdr) (pl : List Byte)
  /-- COLL_RELEASE (R282): Bellpull command that releases a collective group. -/
  | collRelease (h : Hdr) (pl : List Byte)
  /-- COLL_STATUS (R282): Bellpull command that returns a group's state and expected epoch. -/
  | collStatus (h : Hdr) (pl : List Byte)
  /-- RUDIMENT_LOAD (R278): Bellpull command that loads Rudiment entries into a node. -/
  | rudimentLoad (h : Hdr) (pl : List Byte)
  /-- RUDIMENT_CONFIG (R282): Bellpull command that sets the plane PERIOD and REPEAT. -/
  | rudimentConfig (h : Hdr) (pl : List Byte)
  /-- RUDIMENT_READ (R282): Bellpull command that returns Rudiment entries. -/
  | rudimentRead (h : Hdr) (pl : List Byte)
  /-- PACKET_FORWARD (R244): A router receives a packet, checks its CRC and forwards or discards it. -/
  | packetForward (port : Nat) (bytes : List Byte) (x : LinkIn)
  /-- CLASS0_FLIT_FORWARD (R256): A class 0 flit is received whole, checked and forwarded through the bypass. -/
  | class0FlitForward (port : Nat) (bytes : List Byte) (x : LinkIn)
  /-- ALARM_FLIT (R251): An alarm flit is merged into a waiting flit or carried to the root. -/
  | alarmFlit (a : Alarm)
  /-- READ_REQUEST (R40): A READ request reaches its target, is checked and answered. -/
  | readRequest (port : Nat) (bytes : List Byte)
  /-- WRITE_REQUEST (R40): A WRITE request reaches its target, is checked, written and acknowledged. -/
  | writeRequest (port : Nat) (bytes : List Byte)
  /-- READ_DATA (R253): A READ_DATA reply reaches its requester. -/
  | readData (port : Nat) (bytes : List Byte)
  /-- WRITE_ACK (R253): A WRITE_ACK reply reaches its requester. -/
  | writeAck (port : Nat) (bytes : List Byte)
  /-- ERROR_REPLY (R239): An ERROR reply reaches its requester. -/
  | errorReply (port : Nat) (bytes : List Byte)
  /-- REQUEST_TIMEOUT (R253): No reply within FAB_REQTMO completes the request with TIMEOUT. -/
  | requestTimeout (tag : Nat)
  /-- BULK_WRITE (R254): A BULK_WRITE packet reaches its target and is written. -/
  | bulkWrite (port : Nat) (bytes : List Byte)
  /-- BULK_ACK_TIMER (R254): 1 ms after a transfer's first packet the target sends BULK_ACK. -/
  | bulkAckTimer (k : Nat)
  /-- BULK_ACK (R254): A BULK_ACK reaches the bulk sender. -/
  | bulkAck (port : Nat) (bytes : List Byte)
  /-- COLL_UP (R258): A COLL_UP arrives; once all children have sent, contributions are combined and sent up. -/
  | collUp (port : Nat) (bytes : List Byte)
  /-- COLL_DOWN (R258): A COLL_DOWN arrives, is passed on and completes the member's collective. -/
  | collDown (port : Nat) (bytes : List Byte)
  /-- COLL_TIMEOUT (R259): A collective's timer expires and it completes with INCOMPLETE. -/
  | collTimeout (g : Nat)
  /-- EARLY_EPOCH_DROP (R259): A held early-epoch packet is dropped when its epoch is not issued within TIMEOUT. -/
  | earlyEpochDrop (g : Nat) (k : Nat)
  /-- PORT_TRAINING_END (R263): Port training succeeds or fails after 60 ms. -/
  | portTrainingEnd (port : Nat) (ok : Bool)
  /-- PORT_RETRAIN_TIMER (R263): A FAILED port retries training every 100 ms. -/
  | portRetrainTimer (port : Nat)
  /-- PORT_FAILURE (R264): A lock loss, FEC or CRC burst, or peer link-down takes an UP port to FAILED. -/
  | portFailure (port : Nat) (cause : Nat) (flits : Nat)
  /-- FEC_UNCORRECTABLE (R262): An uncorrectable codeword sets ERR on overlapping flits. -/
  | fecUncorrectable (c : Codeword)
  /-- LINK_FAILURE_SPREAD (R271): A class 6 failure message arrives and tables and trees are recomputed. -/
  | linkFailureSpread (dev : Nat) (x : LinkLost)
  /-- ROUTE_INSTALL (R271): Recomputed direction tables and trees are installed. -/
  | routeInstall
  /-- TREE_REBUILD_END (R273): A group's tree is rebuilt and every member's epoch is aligned. -/
  | treeRebuildEnd (g : Nat) (epoch : Nat)
  /-- PLANE_SLOT (R275): Each node executes its Rudiment entry for a slot, passing or adding words. -/
  | planeSlot (p : Nat)
  /-- FAB_PCTL_ENABLE (R263): Write of FAB_PCTL.ENABLE that enables or disables a port. -/
  | fabPctlEnable (f : Nat) (port : Nat) (b : Nat)
  /-- FAB_PCTL_TRAIN (R279): Write of FAB_PCTL.TRAIN that starts an adaptive or full retrain. -/
  | fabPctlTrain (f : Nat) (port : Nat) (t : Nat)
  /-- ETH_PORT_CONFIG (R285): Bellpull command that moves a W port between fabric and Ethernet mode. -/
  | ethPortConfig (h : Hdr) (pl : List Byte)
  /-- SITE_SET (R292): Bellpull command that writes a tunnel site entry. -/
  | siteSet (h : Hdr) (pl : List Byte)
  /-- SITE_READ (R305): Bellpull command that returns a site entry. -/
  | siteRead (h : Hdr) (pl : List Byte)
  /-- TUN_STATUS (R305): Bellpull command that returns TUN registers. -/
  | tunStatus (h : Hdr) (pl : List Byte)
  /-- PTP_CONFIG (R305): Bellpull command that sets PTP domain, priority, address and asymmetry. -/
  | ptpConfig (h : Hdr) (pl : List Byte)
  /-- PTP_STATUS (R305): Bellpull command that returns PTP registers. -/
  | ptpStatus (h : Hdr) (pl : List Byte)
  /-- ETHERNET_FRAME (R286): An Ethernet frame arrives and is kept or discarded by address and format. -/
  | ethernetFrame (w : Nat) (frame : List Byte) (fcs : Bool)
  /-- TUNNEL_DATAGRAM (R295): A tunnel datagram is checked, sequenced and presented, held early or discarded. -/
  | tunnelDatagram (w : Nat) (bytes : List Byte)
  /-- EARLY_PRESENT (R297): Held early records are presented at the start of local beat E. -/
  | earlyPresent (p : Nat)
  /-- TUNNEL_EGRESS_SEND (R293): Egress sends a datagram of TUNNEL copies for one site and beat. -/
  | tunnelEgressSend (k : Nat)
  /-- TUNNEL_COALESCE_EXPIRY (R293): COALESCE cycles pass since a datagram's first record and it is sent. -/
  | tunnelCoalesceExpiry (k : Nat)
  /-- PTP_MESSAGE (R302): A PTP event message is timestamped and drives the slave clock. -/
  | ptpMessage (w : Nat) (bytes : List Byte) (x : PtpStamp)
  /-- PTP_TIMEOUT (R302): Announce times out or no Sync arrives for 1 s and the clock enters HOLDOVER. -/
  | ptpTimeout
  /-- PTP_DELAY_REQ_SEND (R300): The slave clock sends Delay_Req at 16 per second. -/
  | ptpDelayReqSend (ts : Nat)
  /-- RULE_LOAD (R317): Bellpull command that checks and loads a plasticity rule. -/
  | ruleLoad (h : Hdr) (pl : List Byte)
  /-- RULE_READ (R357): Bellpull command that returns a rule. -/
  | ruleRead (h : Hdr) (pl : List Byte)
  /-- SEASON_CONFIG (R357): Bellpull command that sets Season length, harvest window, budget and flags. -/
  | seasonConfig (h : Hdr) (pl : List Byte)
  /-- MOD_SET (R326): Bellpull command that arms a modulator value for a beat on every core. -/
  | modSet (h : Hdr) (pl : List Byte)
  /-- SEED_SET (R357): Bellpull command that sets HRV_SEED. -/
  | seedSet (h : Hdr) (pl : List Byte)
  /-- REV_LOAD (R320): Bellpull command that writes reverse-index words and NDIR. -/
  | revLoad (h : Hdr) (pl : List Byte)
  /-- CKPT_CONFIG (R348): Bellpull command that configures the checkpoint ring and host export. -/
  | ckptConfig (h : Hdr) (pl : List Byte)
  /-- CKPT_NOW (R349): Bellpull command that takes a checkpoint at once, subject to pacing. -/
  | ckptNow (h : Hdr) (pl : List Byte)
  /-- CKPT_RESTORE (R351): Bellpull command that restores the newest valid checkpoint. -/
  | ckptRestore (h : Hdr) (pl : List Byte)
  /-- CKPT_STATUS (R358): Bellpull command that returns checkpoint status. -/
  | ckptStatus (h : Hdr) (pl : List Byte)
  /-- CKPT_QUOTA (R345): Bellpull command that grants a partition a Keep quota. -/
  | ckptQuota (h : Hdr) (pl : List Byte)
  /-- HRV_STATUS (R357): Bellpull command that returns HRV registers. -/
  | hrvStatus (h : Hdr) (pl : List Byte)
  /-- POST_PASS_ENTRY (R321): The harvest engine updates eligibility of the plastic inputs of one fired neuron. -/
  | postPassEntry (q : Nat)
  /-- HARVEST_ROW (R330): The harvest engine harvests one plastic row or passes one position. -/
  | harvestRow (q : Nat)
  /-- HARVEST_OVERRUN (R334): Harvest unfinished at beat W of the Season stops and is reported. -/
  | harvestOverrun (q : Nat)
  /-- ROW_SWEEP_VISIT (R324): The row sweep decays PRE of one plastic row and restamps LAST. -/
  | rowSweepVisit (q : Nat)
  /-- CHECKPOINT_COPY_START (R344): Once harvest and tend end in a saved Season, Carillon starts the checkpoint copy. -/
  | checkpointCopyStart (p : Nat)
  /-- CHECKPOINT_COMMIT (R345): The checkpoint payload is programmed and verified and its header committed. -/
  | checkpointCommit (p : Nat)
  /-- HOST_EXPORT (R352): The checkpoint image is written to the host buffer, header last. -/
  | hostExport (p : Nat)
  /-- GANG_FORM (R385): Bellpull command that forms a gang and casts power votes. -/
  | gangForm (h : Hdr) (pl : List Byte)
  /-- GANG_RELEASE (R398): Bellpull command that releases a gang and withdraws its votes. -/
  | gangRelease (h : Hdr) (pl : List Byte)
  /-- GANG_STATUS (R397): Bellpull command that returns a gang's state. -/
  | gangStatus (h : Hdr) (pl : List Byte)
  /-- TCORE_SUBMIT (R398): Bellpull command that queues an op descriptor on a T-core. -/
  | tcoreSubmit (h : Hdr) (pl : List Byte)
  /-- TCORE_STATUS (R397): Bellpull command that returns TCR registers. -/
  | tcoreStatus (h : Hdr) (pl : List Byte)
  /-- TCORE_ABORT (R393): Bellpull command that aborts a T-core's ops. -/
  | tcoreAbort (h : Hdr) (pl : List Byte)
  /-- TCORE_SEED (R397): Bellpull command that seeds T-core generators. -/
  | tcoreSeed (h : Hdr) (pl : List Byte)
  /-- TCR_DQPUSH_WRITE (R396): The write of the last descriptor word enqueues the op or drops it on a full queue. -/
  | tcrDqpushWrite (f : Nat) (r : Nat) (v : Nat)
  /-- TCR_CTL_ABORT (R393): Write of ABORT that ends the running op at a tile boundary and flushes the queue. -/
  | tcrCtlAbort (f : Nat) (r : Nat)
  /-- DESCRIPTOR_CHECK (R375): A descriptor reaching the queue head is checked and started or refused. -/
  | descriptorCheck (r : Nat)
  /-- MATMUL (R371): The T-core completes a matrix multiplication and writes its completion record. -/
  | matmul (r : Nat) (k : Nat)
  /-- CONV (R372): The T-core completes a convolution. -/
  | conv (r : Nat) (k : Nat)
  /-- BACKWARD (R379): The T-core completes a DGRAD or WGRAD op. -/
  | backward (r : Nat) (k : Nat)
  /-- OPTIM (R380): The T-core completes a momentum optimiser step. -/
  | optim (r : Nat) (k : Nat)
  /-- QUANT (R383): The T-core completes a quantisation op. -/
  | quant (r : Nat) (k : Nat)
  /-- ENCODE_OP (R382): The T-core completes an ENCODE op writing event records. -/
  | encodeOp (r : Nat) (k : Nat)
  /-- DECODE_OP (R383): The T-core completes a DECODE op. -/
  | decodeOp (r : Nat) (k : Nat)
  /-- GANG_GO (R387): 64 cycles after every member is ready, GO starts the gang's op and Rudiment program. -/
  | gangGo (p : Nat) (gid : Nat)
  /-- GANG_READY_TIMEOUT (R388): Not all members ready within 1 ms; ready members complete with TIMEOUT. -/
  | gangReadyTimeout (p : Nat) (gid : Nat)
  /-- SEQ_LOAD (R429): Bellpull command that loads S-core descriptors. -/
  | seqLoad (h : Hdr) (pl : List Byte)
  /-- SEQ_CONTROL (R429): Bellpull command that halts, runs or resets an S-core. -/
  | seqControl (h : Hdr) (pl : List Byte)
  /-- SEQ_STATUS (R429): Bellpull command that returns SEQ registers. -/
  | seqStatus (h : Hdr) (pl : List Byte)
  /-- CHAN_CONFIG (R411): Bellpull command that opens, closes or resets a channel and sets its reader. -/
  | chanConfig (h : Hdr) (pl : List Byte)
  /-- CHAN_SEND (R407): Bellpull command that sends a message to a channel or combining queue. -/
  | chanSend (h : Hdr) (pl : List Byte)
  /-- CHAN_RECV (R409): Bellpull command that pops a host-read channel, waiting up to its time. -/
  | chanRecv (h : Hdr) (pl : List Byte)
  /-- CHAN_RECV_TIMEOUT (R409): A CHAN_RECV wait expires and completes with TIMEOUT. -/
  | chanRecvTimeout (f : Nat) (tag : Nat)
  /-- QUE_STATUS (R429): Bellpull command that returns QUE registers. -/
  | queStatus (h : Hdr) (pl : List Byte)
  /-- CQ_CONFIG (R429): Bellpull command that enables, disables or clears a combining queue. -/
  | cqConfig (h : Hdr) (pl : List Byte)
  /-- COMMONS_OWN (R430): Bellpull command that hands a Commons bank to a new owner. -/
  | commonsOwn (h : Hdr) (pl : List Byte)
  /-- CMN_STATUS (R429): Bellpull command that returns CMN registers. -/
  | cmnStatus (h : Hdr) (pl : List Byte)
  /-- SEQ_CTL_RUN (R425): Register write that runs the S-core from SEQ_ENTRY. -/
  | seqCtlRun (ag : Agent) (r : Nat)
  /-- SEQ_CTL_HALT (R425): Register write that halts the S-core after the current descriptor. -/
  | seqCtlHalt (ag : Agent) (r : Nat)
  /-- SEQ_CTL_RESET (R425): Register write that halts and clears the S-core and resets its channels. -/
  | seqCtlReset (ag : Agent) (r : Nat)
  /-- NOP (R402): S-core descriptor that does nothing. -/
  | nop (r : Nat)
  /-- HALT (R402): S-core descriptor that stops the S-core and writes a Tocsin record. -/
  | halt (r : Nat)
  /-- SET (R402): S-core descriptor that sets GD to ADDR. -/
  | set (r : Nat)
  /-- ADD (R402): S-core descriptor that adds IMM to GS into GD. -/
  | add (r : Nat)
  /-- LOAD (R402): S-core descriptor that loads an 8-byte word into GD. -/
  | load (r : Nat)
  /-- STORE (R402): S-core descriptor that stores GD to memory. -/
  | store (r : Nat)
  /-- BRANCH (R402): S-core descriptor that jumps on a condition of GD. -/
  | branch (r : Nat)
  /-- LOOP (R402): S-core descriptor that decrements GD and jumps while non-zero. -/
  | loop (r : Nat)
  /-- MOVE (R402): S-core descriptor that copies a block of bytes. -/
  | move (r : Nat)
  /-- SEND (R402): S-core descriptor that sends 64 bytes to a queue input window. -/
  | send (r : Nat)
  /-- RECV (R402): S-core descriptor that pops a channel head, waiting when empty. -/
  | recv (r : Nat)
  /-- PEEK (R402): S-core descriptor that reads a channel's status. -/
  | peek (r : Nat)
  /-- CHCTL (R402): S-core descriptor that opens, closes or resets a channel. -/
  | chctl (r : Nat)
  /-- WAITC (R402): S-core descriptor that waits for a completion counter. -/
  | waitc (r : Nat)
  /-- WAITB (R402): S-core descriptor that waits for a beat number. -/
  | waitb (r : Nat)
  /-- EVSEND (R402): S-core descriptor that hands event records to the region router. -/
  | evsend (r : Nat)
  /-- TPUSH (R402): S-core descriptor that pushes op descriptors to T-cores. -/
  | tpush (r : Nat)
  /-- ENCODE (R402): S-core descriptor that runs an ENCODE op and sends its records. -/
  | encode (r : Nat)
  /-- DECODE (R402): S-core descriptor that copies the last frame and pushes a DECODE op. -/
  | decode (r : Nat)
  /-- TEND (R339): S-core descriptor that prunes and grows SPP entries from a tend block. -/
  | tend (r : Nat)
  /-- HSTEP (R402): S-core descriptor that waits for the region's harvest to finish. -/
  | hstep (r : Nat)
  /-- CKPT (R402): S-core descriptor that asks Carillon for CKPT_NOW. -/
  | ckpt (r : Nat)
  /-- MODSET (R402): S-core descriptor that arms HRV_MODNEXT on the region's cores. -/
  | modset (r : Nat)
  /-- OWN (R402): S-core descriptor that writes a bank's owner. -/
  | own (r : Nat)
  /-- RPUT (R418): S-core descriptor that puts a record into a Commons ring. -/
  | rput (r : Nat)
  /-- RGET (R419): S-core descriptor that takes the next record from a Commons ring. -/
  | rget (r : Nat)
  /-- SIGNAL (R402): S-core descriptor that writes a Tocsin record. -/
  | signal (r : Nat)
  /-- ACKNOWLEDGEMENT (R403): An acknowledgement reaches the S-core and advances its completion counter. -/
  | acknowledgement (r : Nat)
  /-- RECV_RESUME (R409): A waiting RECV resumes when an entry arrives. -/
  | recvResume (r : Nat)
  /-- WAITC_RESUME (R402): A waiting WAITC resumes when its counter condition holds. -/
  | waitcResume (r : Nat)
  /-- WAITB_RESUME (R402): A waiting WAITB resumes when the beat condition holds. -/
  | waitbResume (r : Nat)
  /-- HSTEP_RESUME (R402): A waiting HSTEP resumes when every core has HDONE or overran. -/
  | hstepResume (r : Nat)
  /-- CHANNEL_MESSAGE (R407): A 64-byte write to a channel input window is entered, held or dropped and acknowledged. -/
  | channelMessage (ag : Agent) (r : Nat) (ch : Nat) (bytes : List Byte)
  /-- CHANNEL_HOLD_EXPIRY (R408): A message held QUE_HOLD µs is dropped and acknowledged REFUSED. -/
  | channelHoldExpiry (r : Nat) (c : Nat) (k : Nat)
  /-- QUE_CHCTL_OPEN (R411): Register write that opens a channel. -/
  | queChctlOpen (ag : Agent) (r : Nat) (ch : Nat)
  /-- QUE_CHCTL_CLOSE (R411): Register write that closes a channel. -/
  | queChctlClose (ag : Agent) (r : Nat) (ch : Nat)
  /-- QUE_CHCTL_RESET (R411): Register write that resets a channel, discarding its entries. -/
  | queChctlReset (ag : Agent) (r : Nat) (ch : Nat)
  /-- COMBINING_CONTRIBUTION (R413): A contribution is added into a combining queue's lanes. -/
  | combiningContribution (ag : Agent) (r : Nat) (cq : Nat) (bytes : List Byte)
  /-- QUE_CQCFG_CLEAR (R415): Register write that zeroes a combining queue's accumulator and NGOT. -/
  | queCqcfgClear (ag : Agent) (r : Nat) (cq : Nat)
  /-- CMN_OWN_WRITE (R422): An owner field write hands a Commons bank over. -/
  | cmnOwnWrite (ag : Agent) (r : Nat) (bk : Nat) (v : Nat)
  /-- HANDOVER_END (R422): The old owner's queued accesses complete and the new owner's are released. -/
  | handoverEnd (r : Nat) (b : Nat)
  /-- DDR_CONFIG (R448): Bellpull command that stores the DDR5 configuration for the next Calends. -/
  | ddrConfig (h : Hdr) (pl : List Byte)
  /-- DDR_STATUS (R448): Bellpull command that returns MEM registers. -/
  | ddrStatus (h : Hdr) (pl : List Byte)
  /-- DDR_WINDOW (R435): Bellpull command that sets a partition's DDR5 window. -/
  | ddrWindow (h : Hdr) (pl : List Byte)
  /-- DDR_RETRAIN (R444): Bellpull command that retrains the channels cached or full. -/
  | ddrRetrain (h : Hdr) (pl : List Byte)
  /-- DDR_SCRUB (R448): Bellpull command that configures the patrol scrubber. -/
  | ddrScrub (h : Hdr) (pl : List Byte)
  /-- DDR_WINREAD (R448): Bellpull command that returns the partition's windows. -/
  | ddrWinread (h : Hdr) (pl : List Byte)
  /-- DDR_ACCESS (R439): A DDR5 access reaches its channel, is window-checked and served. -/
  | ddrAccess (die : Nat) (p : Nat) (a : Nat) (n : Nat) (data : Option (List Byte))
  /-- DDR_SCRUB_STEP (R440): The patrol scrubber reads and corrects a burst. -/
  | ddrScrubStep (a : Nat)
  /-- MR4_POLL (R441): Each millisecond the controller reads MR4 and sets the refresh interval. -/
  | mr4Poll (ch : Nat) (rate : Nat) (hot : Bool)
  /-- ZQ_CALIBRATION (R442): Every 128 ms ZQ calibration and DQS tracking run. -/
  | zqCalibration (ch : Nat)
  /-- DDR_TRAINING (R444): Channel training ends, cached or full. -/
  | ddrTraining (pass : Bool) (bad : Nat) (ms : Nat)
  /-- PERST_N_ASSERT (R473): PERST_N asserted resets all functions and disables channels and rings. -/
  | perstNAssert
  /-- PERST_N_RELEASE (R472): PERST_N released; the endpoint trains and answers configuration. -/
  | perstNRelease (width : Nat) (rate : Nat)
  /-- HOT_RESET (R473): Hot reset or link down resets the functions as PERST_N without PHY reset. -/
  | hotReset
  /-- FLR (R474): Function Level Reset Chokes and clears the function's partition. -/
  | flr (f : Nat)
  /-- FLR_COMPLETE (R474): The partition clear of an FLR completes within 50 ms. -/
  | flrComplete (f : Nat)
  /-- VF_ENABLE_CLEAR (R473): VF Enable written 0 resets every virtual function as an FLR. -/
  | vfEnableClear
  /-- D3HOT (R475): The physical function enters D3hot and stops its BAR access and rings. -/
  | d3hot
  /-- BAR0_ACCESS (R458): A BAR0 access reaches a register block or is refused. -/
  | bar0Access (f : Nat) (off : Nat) (len : Nat) (data : Option (List Byte))
  /-- BAR2_ACCESS (R460): A BAR2 aperture access is translated to a local address or refused. -/
  | bar2Access (f : Nat) (off : Nat) (len : Nat) (data : Option (List Byte))
  /-- BAR_READ_TIMEOUT (R463): A BAR read without data after 40 µs completes with zeros. -/
  | barReadTimeout (f : Nat) (len : Nat)
  /-- PCI_DMATAIL_WRITE (R462): Write of a DMA producer index, the channel doorbell. -/
  | pciDmatailWrite (f : Nat) (dc : Nat) (v : Nat)
  /-- PCI_DMACFG_WRITE (R468): Write of PCI_DMACFG that enables or stops a channel. -/
  | pciDmacfgWrite (f : Nat) (dc : Nat) (v : Nat)
  /-- PCI_AP_WRITE (R477): Write of an aperture or window register. -/
  | pciApWrite (f : Nat) (g : Nat) (k : Nat) (v : Nat)
  /-- DMA_DESCRIPTOR_START (R466): A channel checks a descriptor and starts moving data. -/
  | dmaDescriptorStart (dc : Nat) (desc : List Byte)
  /-- DMA_DESCRIPTOR_COMPLETE (R467): A descriptor's writes complete, DONE is written and the head advances. -/
  | dmaDescriptorComplete (dc : Nat) (pieces : List (Nat × List Byte)) (err : Nat)
  /-- IMOD_INTERVAL_END (R471): The moderation interval ends and a pending message is sent. -/
  | imodIntervalEnd (f : Nat) (vec : Nat)
  /-- TIMER_START (R482): Write of TAB_TnCMD.START that resets and runs a timer. -/
  | timerStart (f : Nat) (tm : Nat)
  /-- TIMER_STOP (R482): Write of TAB_TnCMD.STOP that freezes a timer. -/
  | timerStop (f : Nat) (tm : Nat)
  /-- TIMER_PERIOD_WRITE (R483): Write of TAB_TnPERIOD, possibly ending the lap at once. -/
  | timerPeriodWrite (f : Nat) (tm : Nat) (v : Nat)
  /-- TIMER_COMPARE_WRITE (R484): Write of a compare value taking effect at the next tick. -/
  | timerCompareWrite (f : Nat) (tm : Nat) (k : Nat) (v : Nat)
  /-- TIMER_PERIOD_EVENT (R481): A timer steps from PERIOD − 1 to 0 and its period event fires. -/
  | timerPeriodEvent (tm : Nat)
  /-- COMPARE_MATCH (R484): A timer count steps into its compare value. -/
  | compareMatch (tm : Nat) (k : Nat)
  /-- CAPTURE_EDGE (R487): A selected input edge is stamped into the capture queue or dropped. -/
  | captureEdge (tm : Nat) (rising : Bool)
  /-- TAB_TNCAP_LO_READ (R488): Read of the capture low half latching the high half. -/
  | tabTncapLoRead (f : Nat) (tm : Nat)
  /-- TAB_TNCAP_HI_READ (R488): Read of the capture high half, removing a valid head. -/
  | tabTncapHiRead (f : Nat) (tm : Nat)
  /-- TOC_CLAIM_READ (R495): Read of TOC_CLAIM that claims the top source and pushes its priority. -/
  | tocClaimRead (f : Nat) (k : Nat)
  /-- TOC_EOI_WRITE (R496): Write of TOC_EOI that pops the priority stack. -/
  | tocEoiWrite (f : Nat) (k : Nat)
  /-- TOC_PEND_WRITE (R492): Write to TOC_PEND that clears PEND and COUNT. -/
  | tocPendWrite (f : Nat) (k : Nat) (v : Nat)
  /-- TOC_RQ_READ (R501): Read of the last word of TOC_RQ or TOC_PRQ that removes the head record. -/
  | tocRqRead (f : Nat) (k : Nat)
  /-- CAR_CRTAIL_WRITE (R511): Write of the command ring producer index, the command doorbell. -/
  | carCrtailWrite (f : Nat) (v : Nat)
  /-- COMMAND_TAKE (R513): Carillon takes a command message, checks framing and header, and executes it. -/
  | commandTake (f : Nat) (bytes : List Byte)
  /-- RESPONSE_WRITE (R517): Carillon writes a response to the response ring when room allows. -/
  | responseWrite (f : Nat)
  /-- CAR_RING_CFG_WRITE (R550): Write of CAR_CRCFG or CAR_RRCFG enabling or disabling a Bellpull ring. -/
  | carRingCfgWrite (f : Nat) (k : Nat) (v : Nat)
  /-- CAR_RRTAIL_WRITE (R519): Write of the response consumer index, freeing room for waiting responses. -/
  | carRrtailWrite (f : Nat) (v : Nat)
  /-- SUMMARY (R526): Every 100 ms Carillon writes SUMMARY records for suppressed sources. -/
  | summary
  /-- JOURNAL_PAGE_PROGRAM (R530): A journal page is programmed when 63 records gather or after 10 s. -/
  | journalPageProgram
  /-- SENSOR_SAMPLE (R531): Each millisecond Carillon samples every sensor. -/
  | sensorSample (vals : List (Nat × Nat)) (out : List Nat)
  /-- WATCHDOG_EXPIRY (R544): The 100 ms watchdog expires; partitions Mute and Carillon restarts. -/
  | watchdogExpiry
  /-- IMAGE_DIGEST_CHECK (R544): Every 24 hours Carillon rechecks its running image digest. -/
  | imageDigestCheck (same : Bool)
  /-- CARILLON_RESTART (R542): Carillon restarts and resumes Bellpull from current indices. -/
  | carillonRestart
  /-- TRIAL_TIMEOUT (R541): An uncommitted trial ends and Carillon returns to the previous slot. -/
  | trialTimeout
  /-- ID_READ (R551): Bellpull command that returns the serial, public key and part record. -/
  | idRead (h : Hdr) (pl : List Byte)
  /-- ATTEST (R537): Bellpull command that returns a signed attestation report. -/
  | attest (h : Hdr) (pl : List Byte)
  /-- SENSOR_READ (R551): Bellpull command that returns sensor readings. -/
  | sensorRead (h : Hdr) (pl : List Byte)
  /-- LOG_READ (R551): Bellpull command that returns log records. -/
  | logRead (h : Hdr) (pl : List Byte)
  /-- FF_READ (R551): Bellpull command that returns the first-failure table. -/
  | ffRead (h : Hdr) (pl : List Byte)
  /-- FF_CLEAR (R551): Bellpull command that removes first-failure entries. -/
  | ffClear (h : Hdr) (pl : List Byte)
  /-- LOG_STATUS (R551): Bellpull command that returns log counters. -/
  | logStatus (h : Hdr) (pl : List Byte)
  /-- UPDATE_BEGIN (R540): Bellpull command that erases the inactive slot for an update. -/
  | updateBegin (h : Hdr) (pl : List Byte)
  /-- UPDATE_DATA (R540): Bellpull command that programs image data. -/
  | updateData (h : Hdr) (pl : List Byte)
  /-- UPDATE_VERIFY (R539): Bellpull command that verifies the inactive slot. -/
  | updateVerify (h : Hdr) (pl : List Byte)
  /-- UPDATE_ACTIVATE (R540): Bellpull command that marks the slot trial and restarts into it. -/
  | updateActivate (h : Hdr) (pl : List Byte)
  /-- UPDATE_COMMIT (R540): Bellpull command that makes the trial slot active and raises the counter. -/
  | updateCommit (h : Hdr) (pl : List Byte)
  /-- UPDATE_STATUS (R551): Bellpull command that returns update state. -/
  | updateStatus (h : Hdr) (pl : List Byte)
  /-- SMBUS_READ_TMAX (R545): SMBus command 0x10 returns the highest temperature. -/
  | smbusReadTmax (port : Nat) (pec : Bool)
  /-- SMBUS_READ_SENSOR (R545): SMBus command 0x11 returns the temperature of a written index. -/
  | smbusReadSensor (port : Nat) (idx : Nat) (pec : Bool)
  /-- SMBUS_READ_POWER (R545): SMBus command 0x12 returns CAR_POWER. -/
  | smbusReadPower (port : Nat) (pec : Bool)
  /-- SMBUS_READ_STATUS (R545): SMBus command 0x13 returns the status byte. -/
  | smbusReadStatus (port : Nat) (pec : Bool)
  /-- SET_ENDPOINT_ID (R546): MCTP control command that sets the endpoint ID. -/
  | setEndpointId (port : Nat) (eid : Nat)
  /-- GET_ENDPOINT_ID (R546): MCTP control command that returns the endpoint ID. -/
  | getEndpointId (port : Nat)
  /-- GET_MCTP_VERSION_SUPPORT (R546): MCTP control command that returns supported versions. -/
  | getMctpVersionSupport (port : Nat)
  /-- GET_MESSAGE_TYPE_SUPPORT (R546): MCTP control command that returns supported message types. -/
  | getMessageTypeSupport (port : Nat)
  /-- GET_VENDOR_MESSAGE_SUPPORT (R546): MCTP control command that returns vendor-defined message support. -/
  | getVendorMessageSupport (port : Nat)
  /-- MCTP_BELLPULL_MESSAGE (R547): A Bellpull message assembled over MCTP is served or denied. -/
  | mctpBellpullMessage (port : Nat) (bytes : List Byte)
  /-- CAL_STATUS (R570): Bellpull command that returns CAL registers. -/
  | calStatus (h : Hdr) (pl : List Byte)
  /-- PART_ASSIGN (R565): Bellpull command that assigns regions to a partition. -/
  | partAssign (h : Hdr) (pl : List Byte)
  /-- PART_REMOVE (R565): Bellpull command that removes regions from a partition and clears them. -/
  | partRemove (h : Hdr) (pl : List Byte)
  /-- PART_STATUS (R570): Bellpull command that returns a partition's regions and state. -/
  | partStatus (h : Hdr) (pl : List Byte)
  /-- PLAN_SET (R561): Bellpull command that stores a cabling plan. -/
  | planSet (h : Hdr) (pl : List Byte)
  /-- PLAN_READ (R570): Bellpull command that returns the stored plan. -/
  | planRead (h : Hdr) (pl : List Byte)
  /-- PLAN_CLEAR (R570): Bellpull command that removes the stored plan. -/
  | planClear (h : Hdr) (pl : List Byte)
  /-- POWER_GOOD (R552): PWRGD rises and Calends begins on the device. -/
  | powerGood (straps : Nat) (t1 : Nat) (t2 : Nat)
  /-- REGION_WAVE (R555): A timed wave initialises and retains the domains of two regions. -/
  | regionWave (wave : Nat)
  /-- HELLO_TIMER (R557): Every 1 ms a hello is sent on every port in training or UP. -/
  | helloTimer
  /-- HELLO (R559): A hello message arrives and updates root choice and port checks. -/
  | hello (port : Nat) (bytes : List Byte)
  /-- HELLO_WAIT_END (R557): The hello wait ends and election proceeds or the device goes standalone. -/
  | helloWaitEnd (ms : Nat)
  /-- ELECTION_QUIET (R559): The chosen root holds for 8 ms and election ends. -/
  | electionQuiet (ms : Nat)
  /-- COORDINATE_PROBE (R562): A class 6 probe is forwarded around a ring and returns to the root. -/
  | coordinateProbe (port : Nat) (root : Nat) (hops : Nat)
  /-- PROBE_TIMEOUT (R562): A probe not returned within 10 ms sets COORDFAIL. -/
  | probeTimeout (k : Nat)
  /-- READY (R552): DDR5, waves and routes have ended and the device becomes READY. -/
  | ready (ms : Nat)
  /-- POWER_STATE (R581): Bellpull command that sets the target operating state or enters Vigil or Ember. -/
  | powerState (h : Hdr) (pl : List Byte)
  /-- POWER_VOTE (R573): Bellpull command that casts a vote on domains. -/
  | powerVote (h : Hdr) (pl : List Byte)
  /-- POWER_STATUS (R598): Bellpull command that returns power state and domain levels. -/
  | powerStatus (h : Hdr) (pl : List Byte)
  /-- THERMAL_CONFIG (R598): Bellpull command that sets thermal thresholds and power limit. -/
  | thermalConfig (h : Hdr) (pl : List Byte)
  /-- POLICY_SET (R598): Bellpull command that sets UNASSOFF, NAPEN and NAPMIN. -/
  | policySet (h : Hdr) (pl : List Byte)
  /-- RTC_ALARM (R588): Bellpull command that sets the RTC alarm. -/
  | rtcAlarm (h : Hdr) (pl : List Byte)
  /-- AON_WRITE (R598): Bellpull command that writes retained host scratch. -/
  | aonWrite (h : Hdr) (pl : List Byte)
  /-- AON_READ (R598): Bellpull command that reads retained host scratch. -/
  | aonRead (h : Hdr) (pl : List Byte)
  /-- VOTE_WRITE (R596): Write of a PWR_VON or PWR_VRET word that changes a client's votes. -/
  | voteWrite (ag : Agent) (c : Nat) (word : Nat) (on : Bool) (v : Nat)
  /-- DOMAIN_LEVEL_CHANGE (R572): A domain's level change to ON, RET or OFF completes. -/
  | domainLevelChange (x : Nat)
  /-- PLANE_DRAIN_TIMEOUT (R581): A change to or from Lent waits 1 ms for the plane, then completes gang ops INCOMPLETE. -/
  | planeDrainTimeout
  /-- VOLTAGE_RAMP_END (R581): VDD_CORE ramp ends and the clocks switch. -/
  | voltageRampEnd
  /-- VIGIL_WAKE (R583): A Tocsin source or doorbell ends Vigil and the device is restored. -/
  | vigilWake (cause : Nat)
  /-- RTC_ALARM_MATCH (R588): The RTC steps into its alarm value, raising source 18 or ending Ember. -/
  | rtcAlarmMatch
  /-- BROWN_OUT (R590): An always-on draw above 20 mA in low-power mode resets the device. -/
  | brownOut
  /-- THERMTRIP (R594): A die sensor at 120 °C asserts THERMTRIP_N, Chokes all and powers off domains. -/
  | thermtrip
  /-- GOVERNOR_SAMPLE (R592): Each millisecond the governor compares temperature and power and adjusts the ceiling. -/
  | governorSample (volt : Option Nat)
  /-- NAP_VOTE_DROP (R578): A quad with nothing to do drops the Tabor vote to RET. -/
  | napVoteDrop (k : Nat)
  /-- NAP_VOTE_RAISE (R578): 600 ticks before the next beat the Tabor raises the quad vote to ON. -/
  | napVoteRaise (k : Nat)
  /-- PWRGD_FALL (R648): PWRGD low for 1 µs with PWR_EN high is a power loss. -/
  | pwrgdFall
  /-- FAULT_STATUS (R619): Bellpull command that returns fault registers. -/
  | faultStatus (h : Hdr) (pl : List Byte)
  /-- MUTE_SET (R603): Bellpull command that Mutes named partitions. -/
  | muteSet (h : Hdr) (pl : List Byte)
  /-- MUTE_CLEAR (R604): Bellpull command that clears Mute cause bits. -/
  | muteClear (h : Hdr) (pl : List Byte)
  /-- CHOKE (R606): Bellpull command that Chokes named partitions. -/
  | choke (h : Hdr) (pl : List Byte)
  /-- PART_SCRUB (R607): Bellpull command that clears a Choked partition and leaves it IDLE. -/
  | partScrub (h : Hdr) (pl : List Byte)
  /-- FENCE (R609): Bellpull command that fences a core or marks a unit in the fence list. -/
  | fence (h : Hdr) (pl : List Byte)
  /-- FENCE_LIST (R619): Bellpull command that returns the fence list. -/
  | fenceList (h : Hdr) (pl : List Byte)
  /-- FENCE_CLEAR (R610): Bellpull command that empties the fence list for the next Calends. -/
  | fenceClear (h : Hdr) (pl : List Byte)
  /-- FAULT_CONFIG (R619): Bellpull command that sets fault actions and thresholds. -/
  | faultConfig (h : Hdr) (pl : List Byte)
  /-- GPIO_SAFE (R616): Bellpull command that sets a GPIO safe level. -/
  | gpioSafe (h : Hdr) (pl : List Byte)
  /-- SPARE_RESERVE (R611): Bellpull command that sets region reserve counts. -/
  | spareReserve (h : Hdr) (pl : List Byte)
  /-- HANG_DETECT (R608): A core without FINAL for HANGBEATS beats is declared failed. -/
  | hangDetect (q : Nat)
  /-- FENCING (R609): Carillon copies a failed core to a spare and remaps it. -/
  | fencing
  /-- FENCE_WAIT_EXPIRY (R609): A Muffle not in effect after FENCEWAIT beats leads to a Choke. -/
  | fenceWaitExpiry
  /-- REMAP_COMPARE (R36): Every millisecond Carillon compares and repairs the remap copies. -/
  | remapCompare
  /-- ALARM_PACING (R602): At most one alarm flit leaves per microsecond, carrying merged alarms. -/
  | alarmPacing
  /-- BRIDGE_FAILURE (R614): The die bridge loses lock or fails checks and die 1 is Choked. -/
  | bridgeFailure (port : Nat) (flits : Nat)
  /-- JTAG_INSTRUCTION_LOAD (R652): A TAP instruction load, Choking all before EXTEST, CLAMP or HIGHZ act. -/
  | jtagInstructionLoad (k : Nat)
  /-- OBS_READ (R635): Bellpull command that returns activity counters. -/
  | obsRead (h : Hdr) (pl : List Byte)
  /-- OBS_CONTROL (R622): Bellpull command that freezes, unfreezes or clears counters. -/
  | obsControl (h : Hdr) (pl : List Byte)
  /-- TRACE_CONFIG (R627): Bellpull command that configures the trace port. -/
  | traceConfig (h : Hdr) (pl : List Byte)
  /-- TRACE_STATUS (R635): Bellpull command that returns trace registers. -/
  | traceStatus (h : Hdr) (pl : List Byte)
  /-- TRACE_MARK (R625): Bellpull command that emits a MARK record. -/
  | traceMark (h : Hdr) (pl : List Byte)
  /-- OBS_PCTL_FREEZE (R622): Register write that freezes a partition's counters at the next tick. -/
  | obsPctlFreeze (f : Nat) (p : Nat) (b : Nat)
  /-- OBS_PCTL_CLEAR (R622): Register write that zeroes a partition's counters at the next tick. -/
  | obsPctlClear (f : Nat) (p : Nat)
  /-- OBS_TMARK_HI_WRITE (R625): Write of OBS_TMARK_HI that emits a MARK record. -/
  | obsTmarkHiWrite (f : Nat) (v : Nat)
  /-- OBS_TCTL_WRITE (R630): Write of OBS_TCTL that enables or stops tracing. -/
  | obsTctlWrite (f : Nat) (v : Nat)
  /-- TRACE_START (R629): After 10 ms of idle the trace port sends its first SYNC pair. -/
  | traceStart
  /-- SYNC_PAIR (R629): Every 1 ms the trace port sends a SYNC pair. -/
  | syncPair
  /-- VDD_AON_VALID (R647): VDD_AON comes within its limits; the device drives PWR_EN high within 2 ms and requests VID code 44. -/
  | vddAonValid
  /-- VDD_AON_REMOVAL (R655): VDD_AON is removed, releasing the latched THERMTRIP_N and losing the RTC and retained SRAM. -/
  | vddAonRemoval
  /-- PPS_OUT_PULSE_END (R644): PPS_OUT returns low 100 ms after each edge of R87. -/
  | ppsOutPulseEnd
  /-- TRIGGER_OUTPUT_PULSE_END (R485): With OUTMODE 1 a timer's GPIO trigger output goes low 8 ticks after a CMP0 match. -/
  | triggerOutputPulseEnd (tm : Nat)
  /-- TRACE_RECORD_SEND (R629): The trace port sends a record from a die FIFO, freeing room so a DROP record can enter or a TRACE-stalled engine can resume. -/
  | traceRecordSend (die : Nat)
  /-- ETH_LINK_UP (R284): A W port in Ethernet mode finishes auto-negotiation and training and TUN_PSTAT becomes UP. -/
  | ethLinkUp (x : EthLink)
  /-- ETH_LINK_DOWN (R294): A W port in Ethernet mode loses its link and TUN_PSTAT leaves UP, so egress drops or uses the ALT port. -/
  | ethLinkDown (w : Nat)
  /-- PCIE_LINK_UP (R449): The PCIe link trains up again after a link down and PCI_LINKSTAT.DLUP is set. -/
  | pcieLinkUp (width : Nat) (rate : Nat)
  /-- LINK_STATE_MESSAGE (R552): A class 6 link-state message of Calends step 7, or of a joining link, is received and routes are computed from it. -/
  | linkStateMessage (dev : Nat) (x : LinkState)
  /-- GROUP_RESERVATION_MESSAGE (R283): A class 6 message from the issuing Carillon reserves or refuses a collective group's credits on a member device. -/
  | groupReservationMessage (kind : Nat) (src : Nat) (g : Nat) (part : Nat) (root : Nat) (tmo : Nat) (members : List Nat)
  /-- VF_ENABLE_SET (R454): VF Enable is written 1 in the SR-IOV capability and the virtual functions come into existence. -/
  | vfEnableSet (num : Nat)
  /-- D3HOT_EXIT (R475): The physical function returns from D3hot to D0 and its BAR accesses, Bellpull ring and channels 0 and 1 resume. -/
  | d3hotExit
  /-- TAP_RESET (R652): The TAP is reset by TRST_N or five TCK cycles with TMS high, ending any EXTEST, CLAMP or HIGHZ. -/
  | tapReset
  /-- RESERVED_OPCODE (R404): The S-core reaches a descriptor whose opcode is reserved and stops in FAULT with code 1. -/
  | reservedOpcode (r : Nat)
  deriving DecidableEq, Repr

end Sys2Proof
end

