-- ==== Sys2Proof/WellFormed.lean ====
section
/-! DEFINITION. What a well-formed command is: the ranges the spec gives its operands (16 functions, 16 partitions,
16 regions, 256 N-cores, two dies, eight ports a die, payloads of at most 16,383 units). -/

namespace Sys2Proof

open Sys2Proof.Machine

/-- A Bellpull header the rings can carry: functions 0 to 15 and the SMBus code 0xFE (R521), 8-bit PART, UNITS of 1 to 16,383, TAG of 16 bits, SEQ of 32 bits, FLAGS of 8 bits (R509), a payload of at most 64 × UNITS − 32 bytes. -/
def hdrWf (h : Hdr) (pl : List Byte) : Bool :=
  (h.func < 16 || h.func == 0xFE) && 1 ≤ h.units && h.units ≤ 16383 && h.part < 256 && h.tag < 65536 && h.seq < 4294967296 && h.flags < 256 &&
    pl.length + 32 ≤ 64 * h.units

/-- The link tags of an arriving packet (R261): besides those of idle units (VC 15) one for each flit, all of one VC, 0 to 11, the
first the head and the last the tail. -/
def tagsWf (tags : List Nat) (bytes : List Byte) : Bool :=
  let t := tags.filter (fun t => bitsOf t 12 4 != 15)
  let n := t.length
  bytes.length == 64 * n && 1 ≤ n && bitsOf (t.headD 0) 12 4 ≤ 11 && t.all (fun x => bitsOf x 12 4 == bitsOf (t.headD 0) 12 4) &&
    (upTo n).all (fun i => bitsOf (t.getD i 0) 10 2 == (if n = 1 then 3 else if i = 0 then 0 else if i + 1 = n then 2 else 1)) &&
    tags.all (fun x => x < 65536)

/-- The operand ranges of every command. -/
def Instr.wf : Instr → Bool
  | .beatConfig h pl => hdrWf h pl
  | .beatOffsets h pl => hdrWf h pl
  | .beatStart h pl => hdrWf h pl
  | .beatMuffle h pl => hdrWf h pl
  | .beatResume h pl => hdrWf h pl
  | .beatPeriod h pl => hdrWf h pl
  | .beatStatus h pl => hdrWf h pl
  | .timeConfig h pl => hdrWf h pl
  | .timeStatus h pl => hdrWf h pl
  | .timeRelock h pl => hdrWf h pl
  | .tabBcmdStart f p => decide (f < 16) && decide (p < 16)
  | .tabBcmdMuffle f p => decide (f < 16) && decide (p < 16)
  | .tabBcmdResume f p => decide (f < 16) && decide (p < 16)
  | .tabBperiodWrite f p v => decide (f < 16) && decide (p < 16) && decide (v < 4294967296)
  | .tabTlctlRelock f => decide (f < 16)
  | .tabTsetWrite f _ => decide (f < 16)
  | .periodEvent p => decide (p < 16)
  | .leapLimit p => decide (p < 16)
  | .regionBeatStart r => decide (r < 16)
  | .readoutClearEnd r => decide (r < 16)
  | .beatCountsClose p => decide (p < 16)
  | .muffleTakesEffect p => decide (p < 16)
  | .muffleTimeout p => decide (p < 16)
  | .extlockFirstBeat p => decide (p < 16)
  | .gatherReceived _ => true
  | .reportReceived _ _ _ => true
  | .releaseReceived _ => true
  | .roundAbandon p => decide (p < 16)
  | .ppsEdge _ _ _ => true
  | .ppsLoss => true
  | .ppsOutputEdge => true
  | .profileLoad h pl => hdrWf h pl
  | .profileRead h pl => hdrWf h pl
  | .neuronLoad h pl => hdrWf h pl
  | .neuronRead h pl => hdrWf h pl
  | .neuronStatus h pl => hdrWf h pl
  | .ncountWrite f q v => decide (f < 16) && decide (q < 256) && decide (v < 4294967296)
  | .integrate q => decide (q < 256)
  | .fireLogStallEnd q _ => decide (q < 256)
  | .finalReport q => decide (q < 256)
  | .pagemapSet h pl => hdrWf h pl
  | .pagemapRead h pl => hdrWf h pl
  | .rowLoad h pl => hdrWf h pl
  | .rowRead h pl => hdrWf h pl
  | .synStatus h pl => hdrWf h pl
  | .poisonList h pl => hdrWf h pl
  | .deliver q => decide (q < 256)
  | .farDataArrival q _ _ => decide (q < 256)
  | .farRowTimeout q _ _ => decide (q < 256)
  | .coreStoreScrub q => decide (q < 256)
  | .coreStoreWrite _ n _ _ => decide (n < 256)
  | .aliasWrite _ _ _ => true
  | .counterLowRead f _ => decide (f < 16)
  | .registerWrite _ _ v => decide (v < 4294967296)
  | .axonRange h pl => hdrWf h pl
  | .axonCoreBase h pl => hdrWf h pl
  | .axonLoad h pl => hdrWf h pl
  | .axonRead h pl => hdrWf h pl
  | .almanacConfig h pl => hdrWf h pl
  | .almanacRead h pl => hdrWf h pl
  | .almanacLoad h pl => hdrWf h pl
  | .readoutConfig h pl => hdrWf h pl
  | .readoutRead h pl => hdrWf h pl
  | .eventRings h pl => hdrWf h pl
  | .axnStatus h pl => hdrWf h pl
  | .axonLookup q => decide (q < 256)
  | .pealCopyDrop die _ => decide (die < 2)
  | .packetCoalesceExpiry _ => true
  | .eventRecordArrival _ => true
  | .eventDisposalTimeout _ => true
  | .migration r => decide (r < 16)
  | .refill q _ => decide (q < 256)
  | .inputRecord p _ => decide (p < 16)
  | .outputRecordWrite p => decide (p < 16)
  | .axnIrtailWrite f p v => decide (f < 16) && decide (p < 16) && decide (v < 4294967296)
  | .axnOrtailWrite f p v => decide (f < 16) && decide (p < 16) && decide (v < 4294967296)
  | .eventRingCfgWrite f p _ v => decide (f < 16) && decide (p < 16) && decide (v < 4294967296)
  | .fabStatus h pl => hdrWf h pl
  | .portControl h pl => hdrWf h pl
  | .portStatus h pl => hdrWf h pl
  | .routeRead h pl => hdrWf h pl
  | .collSetup h pl => hdrWf h pl
  | .collIssue h pl => hdrWf h pl
  | .collRelease h pl => hdrWf h pl
  | .collStatus h pl => hdrWf h pl
  | .rudimentLoad h pl => hdrWf h pl
  | .rudimentConfig h pl => hdrWf h pl
  | .rudimentRead h pl => hdrWf h pl
  | .packetForward port bytes x => decide (port < 8) && tagsWf x.tags bytes
  | .class0FlitForward port bytes x => decide (port < 8) && tagsWf x.tags bytes
  | .alarmFlit _ => true
  | .readRequest port _ => decide (port < 8)
  | .writeRequest port _ => decide (port < 8)
  | .readData port _ => decide (port < 8)
  | .writeAck port _ => decide (port < 8)
  | .errorReply port _ => decide (port < 8)
  | .requestTimeout _ => true
  | .bulkWrite port _ => decide (port < 8)
  | .bulkAckTimer _ => true
  | .bulkAck port _ => decide (port < 8)
  | .collUp port _ => decide (port < 8)
  | .collDown port _ => decide (port < 8)
  | .collTimeout _ => true
  | .earlyEpochDrop _ _ => true
  | .portTrainingEnd port _ => decide (port < 8)
  | .portRetrainTimer port => decide (port < 8)
  | .portFailure port _ _ => decide (port < 8)
  | .fecUncorrectable c => decide (c.port < 8)
  | .linkFailureSpread _ x => decide (x.port < 8)
  | .routeInstall => true
  | .treeRebuildEnd _ _ => true
  | .planeSlot p => decide (p < 16)
  | .fabPctlEnable f port _ => decide (f < 16) && decide (port < 8)
  | .fabPctlTrain f port _ => decide (f < 16) && decide (port < 8)
  | .ethPortConfig h pl => hdrWf h pl
  | .siteSet h pl => hdrWf h pl
  | .siteRead h pl => hdrWf h pl
  | .tunStatus h pl => hdrWf h pl
  | .ptpConfig h pl => hdrWf h pl
  | .ptpStatus h pl => hdrWf h pl
  | .ethernetFrame w _ _ => decide (w < 2)
  | .tunnelDatagram w _ => decide (w < 2)
  | .earlyPresent p => decide (p < 16)
  | .tunnelEgressSend _ => true
  | .tunnelCoalesceExpiry _ => true
  | .ptpMessage w _ _ => decide (w < 2)
  | .ptpTimeout => true
  | .ptpDelayReqSend _ => true
  | .ruleLoad h pl => hdrWf h pl
  | .ruleRead h pl => hdrWf h pl
  | .seasonConfig h pl => hdrWf h pl
  | .modSet h pl => hdrWf h pl
  | .seedSet h pl => hdrWf h pl
  | .revLoad h pl => hdrWf h pl
  | .ckptConfig h pl => hdrWf h pl
  | .ckptNow h pl => hdrWf h pl
  | .ckptRestore h pl => hdrWf h pl
  | .ckptStatus h pl => hdrWf h pl
  | .ckptQuota h pl => hdrWf h pl
  | .hrvStatus h pl => hdrWf h pl
  | .postPassEntry q => decide (q < 256)
  | .harvestRow q => decide (q < 256)
  | .harvestOverrun q => decide (q < 256)
  | .rowSweepVisit q => decide (q < 256)
  | .checkpointCopyStart p => decide (p < 16)
  | .checkpointCommit p => decide (p < 16)
  | .hostExport p => decide (p < 16)
  | .gangForm h pl => hdrWf h pl
  | .gangRelease h pl => hdrWf h pl
  | .gangStatus h pl => hdrWf h pl
  | .tcoreSubmit h pl => hdrWf h pl
  | .tcoreStatus h pl => hdrWf h pl
  | .tcoreAbort h pl => hdrWf h pl
  | .tcoreSeed h pl => hdrWf h pl
  | .tcrDqpushWrite f r v => decide (f < 16) && decide (r < 16) && decide (v < 4294967296)
  | .tcrCtlAbort f r => decide (f < 16) && decide (r < 16)
  | .descriptorCheck r => decide (r < 16)
  | .matmul r _ => decide (r < 16)
  | .conv r _ => decide (r < 16)
  | .backward r _ => decide (r < 16)
  | .optim r _ => decide (r < 16)
  | .quant r _ => decide (r < 16)
  | .encodeOp r _ => decide (r < 16)
  | .decodeOp r _ => decide (r < 16)
  | .gangGo p _ => decide (p < 16)
  | .gangReadyTimeout p _ => decide (p < 16)
  | .seqLoad h pl => hdrWf h pl
  | .seqControl h pl => hdrWf h pl
  | .seqStatus h pl => hdrWf h pl
  | .chanConfig h pl => hdrWf h pl
  | .chanSend h pl => hdrWf h pl
  | .chanRecv h pl => hdrWf h pl
  | .chanRecvTimeout f _ => decide (f < 16)
  | .queStatus h pl => hdrWf h pl
  | .cqConfig h pl => hdrWf h pl
  | .commonsOwn h pl => hdrWf h pl
  | .cmnStatus h pl => hdrWf h pl
  | .seqCtlRun _ r => decide (r < 16)
  | .seqCtlHalt _ r => decide (r < 16)
  | .seqCtlReset _ r => decide (r < 16)
  | .nop r => decide (r < 16)
  | .halt r => decide (r < 16)
  | .set r => decide (r < 16)
  | .add r => decide (r < 16)
  | .load r => decide (r < 16)
  | .store r => decide (r < 16)
  | .branch r => decide (r < 16)
  | .loop r => decide (r < 16)
  | .move r => decide (r < 16)
  | .send r => decide (r < 16)
  | .recv r => decide (r < 16)
  | .peek r => decide (r < 16)
  | .chctl r => decide (r < 16)
  | .waitc r => decide (r < 16)
  | .waitb r => decide (r < 16)
  | .evsend r => decide (r < 16)
  | .tpush r => decide (r < 16)
  | .encode r => decide (r < 16)
  | .decode r => decide (r < 16)
  | .tend r => decide (r < 16)
  | .hstep r => decide (r < 16)
  | .ckpt r => decide (r < 16)
  | .modset r => decide (r < 16)
  | .own r => decide (r < 16)
  | .rput r => decide (r < 16)
  | .rget r => decide (r < 16)
  | .signal r => decide (r < 16)
  | .acknowledgement r => decide (r < 16)
  | .recvResume r => decide (r < 16)
  | .waitcResume r => decide (r < 16)
  | .waitbResume r => decide (r < 16)
  | .hstepResume r => decide (r < 16)
  | .channelMessage _ r ch _ => decide (r < 16) && decide (ch < 32)
  | .channelHoldExpiry r _ _ => decide (r < 16)
  | .queChctlOpen _ r ch => decide (r < 16) && decide (ch < 32)
  | .queChctlClose _ r ch => decide (r < 16) && decide (ch < 32)
  | .queChctlReset _ r ch => decide (r < 16) && decide (ch < 32)
  | .combiningContribution _ r cq _ => decide (r < 16) && decide (cq < 8)
  | .queCqcfgClear _ r cq => decide (r < 16) && decide (cq < 8)
  | .cmnOwnWrite _ r bk v => decide (r < 16) && decide (bk < 16) && decide (v < 4294967296)
  | .handoverEnd r _ => decide (r < 16)
  | .ddrConfig h pl => hdrWf h pl
  | .ddrStatus h pl => hdrWf h pl
  | .ddrWindow h pl => hdrWf h pl
  | .ddrRetrain h pl => hdrWf h pl
  | .ddrScrub h pl => hdrWf h pl
  | .ddrWinread h pl => hdrWf h pl
  | .ddrAccess die p _ n _ => decide (die < 2) && decide (p < 16) && decide (n < 256)
  | .ddrScrubStep _ => true
  | .mr4Poll ch _ _ => decide (ch < 32)
  | .zqCalibration ch => decide (ch < 32)
  | .ddrTraining _ _ _ => true
  | .perstNAssert => true
  | .perstNRelease _ _ => true
  | .hotReset => true
  | .flr f => decide (f < 16)
  | .flrComplete f => decide (f < 16)
  | .vfEnableClear => true
  | .d3hot => true
  | .bar0Access f _ _ _ => decide (f < 16)
  | .bar2Access f _ _ _ => decide (f < 16)
  | .barReadTimeout f _ => decide (f < 16)
  | .pciDmatailWrite f dc v => decide (f < 16) && decide (dc < 32) && decide (v < 4294967296)
  | .pciDmacfgWrite f dc v => decide (f < 16) && decide (dc < 32) && decide (v < 4294967296)
  | .pciApWrite f _ _ v => decide (f < 16) && decide (v < 4294967296)
  | .dmaDescriptorStart dc _ => decide (dc < 32)
  | .dmaDescriptorComplete dc _ _ => decide (dc < 32)
  | .imodIntervalEnd f vec => decide (f < 16) && decide (vec < 64)
  | .timerStart f tm => decide (f < 16) && decide (tm < 16)
  | .timerStop f tm => decide (f < 16) && decide (tm < 16)
  | .timerPeriodWrite f tm v => decide (f < 16) && decide (tm < 16) && decide (v < 4294967296)
  | .timerCompareWrite f tm _ v => decide (f < 16) && decide (tm < 16) && decide (v < 4294967296)
  | .timerPeriodEvent tm => decide (tm < 16)
  | .compareMatch tm _ => decide (tm < 16)
  | .captureEdge tm _ => decide (tm < 16)
  | .tabTncapLoRead f tm => decide (f < 16) && decide (tm < 16)
  | .tabTncapHiRead f tm => decide (f < 16) && decide (tm < 16)
  | .tocClaimRead f _ => decide (f < 16)
  | .tocEoiWrite f _ => decide (f < 16)
  | .tocPendWrite f _ v => decide (f < 16) && decide (v < 4294967296)
  | .tocRqRead f _ => decide (f < 16)
  | .carCrtailWrite f v => decide (f < 16) && decide (v < 4294967296)
  | .commandTake f _ => decide (f < 16)
  | .responseWrite f => decide (f < 16)
  | .carRingCfgWrite f _ v => decide (f < 16) && decide (v < 4294967296)
  | .carRrtailWrite f v => decide (f < 16) && decide (v < 4294967296)
  | .summary => true
  | .journalPageProgram => true
  | .sensorSample _ _ => true
  | .watchdogExpiry => true
  | .imageDigestCheck _ => true
  | .carillonRestart => true
  | .trialTimeout => true
  | .idRead h pl => hdrWf h pl
  | .attest h pl => hdrWf h pl
  | .sensorRead h pl => hdrWf h pl
  | .logRead h pl => hdrWf h pl
  | .ffRead h pl => hdrWf h pl
  | .ffClear h pl => hdrWf h pl
  | .logStatus h pl => hdrWf h pl
  | .updateBegin h pl => hdrWf h pl
  | .updateData h pl => hdrWf h pl
  | .updateVerify h pl => hdrWf h pl
  | .updateActivate h pl => hdrWf h pl
  | .updateCommit h pl => hdrWf h pl
  | .updateStatus h pl => hdrWf h pl
  | .smbusReadTmax port _ => decide (port < 8)
  | .smbusReadSensor port _ _ => decide (port < 8)
  | .smbusReadPower port _ => decide (port < 8)
  | .smbusReadStatus port _ => decide (port < 8)
  | .setEndpointId port _ => decide (port < 8)
  | .getEndpointId port => decide (port < 8)
  | .getMctpVersionSupport port => decide (port < 8)
  | .getMessageTypeSupport port => decide (port < 8)
  | .getVendorMessageSupport port => decide (port < 8)
  | .mctpBellpullMessage port _ => decide (port < 8)
  | .calStatus h pl => hdrWf h pl
  | .partAssign h pl => hdrWf h pl
  | .partRemove h pl => hdrWf h pl
  | .partStatus h pl => hdrWf h pl
  | .planSet h pl => hdrWf h pl
  | .planRead h pl => hdrWf h pl
  | .planClear h pl => hdrWf h pl
  | .powerGood _ _ _ => true
  | .regionWave _ => true
  | .helloTimer => true
  | .hello port _ => decide (port < 8)
  | .helloWaitEnd _ => true
  | .electionQuiet _ => true
  | .coordinateProbe port _ _ => decide (port < 8)
  | .probeTimeout _ => true
  | .ready _ => true
  | .powerState h pl => hdrWf h pl
  | .powerVote h pl => hdrWf h pl
  | .powerStatus h pl => hdrWf h pl
  | .thermalConfig h pl => hdrWf h pl
  | .policySet h pl => hdrWf h pl
  | .rtcAlarm h pl => hdrWf h pl
  | .aonWrite h pl => hdrWf h pl
  | .aonRead h pl => hdrWf h pl
  | .voteWrite _ _ _ _ v => decide (v < 4294967296)
  | .domainLevelChange _ => true
  | .planeDrainTimeout => true
  | .voltageRampEnd => true
  | .vigilWake _ => true
  | .rtcAlarmMatch => true
  | .brownOut => true
  | .thermtrip => true
  | .governorSample _ => true
  | .napVoteDrop _ => true
  | .napVoteRaise _ => true
  | .pwrgdFall => true
  | .faultStatus h pl => hdrWf h pl
  | .muteSet h pl => hdrWf h pl
  | .muteClear h pl => hdrWf h pl
  | .choke h pl => hdrWf h pl
  | .partScrub h pl => hdrWf h pl
  | .fence h pl => hdrWf h pl
  | .fenceList h pl => hdrWf h pl
  | .fenceClear h pl => hdrWf h pl
  | .faultConfig h pl => hdrWf h pl
  | .gpioSafe h pl => hdrWf h pl
  | .spareReserve h pl => hdrWf h pl
  | .hangDetect q => decide (q < 256)
  | .fencing => true
  | .fenceWaitExpiry => true
  | .remapCompare => true
  | .alarmPacing => true
  | .bridgeFailure port _ => decide (port < 8)
  | .jtagInstructionLoad _ => true
  | .obsRead h pl => hdrWf h pl
  | .obsControl h pl => hdrWf h pl
  | .traceConfig h pl => hdrWf h pl
  | .traceStatus h pl => hdrWf h pl
  | .traceMark h pl => hdrWf h pl
  | .obsPctlFreeze f p _ => decide (f < 16) && decide (p < 16)
  | .obsPctlClear f p => decide (f < 16) && decide (p < 16)
  | .obsTmarkHiWrite f v => decide (f < 16) && decide (v < 4294967296)
  | .obsTctlWrite f v => decide (f < 16) && decide (v < 4294967296)
  | .traceStart => true
  | .syncPair => true
  | .vddAonValid => true
  | .vddAonRemoval => true
  | .ppsOutPulseEnd => true
  | .triggerOutputPulseEnd tm => decide (tm < 16)
  | .traceRecordSend die => decide (die < 2)
  | .ethLinkUp x => decide (x.w < 2)
  | .ethLinkDown w => decide (w < 2)
  | .pcieLinkUp _ _ => true
  | .linkStateMessage _ x => decide (x.port < 8)
  | .groupReservationMessage _ _ _ _ _ _ _ => true
  | .vfEnableSet _ => true
  | .d3hotExit => true
  | .tapReset => true
  | .reservedOpcode r => decide (r < 16)

end Sys2Proof
end

