-- ==== Sys2Proof/Decode.lean ====
section
/-! DEFINITION. The command a word of the opcode table's bits spells.  No row of the table gives bits (the commands
are register writes, ring messages and events), so no word spells a command. -/

namespace Sys2Proof

/-- The command that a word spells: none, since no row of spec/opcode_table.json gives bits. -/
def decodeTableWord (_nbits _w : Nat) : Option Instr := none

end Sys2Proof
end

