-- ==== Sys2Proof/Config.lean ====
section
/-! DEFINITION. What the spec leaves open as a value: constants without a body, so that no proof can see
what they are.  Each is applied to the model's own counter of free values (`Dev.nonce`) or to the
operands it depends on; assumption log entries name each of them. -/

namespace Sys2Proof.Config

/-- A number of the entropy source (R307, R368, R537) or another value the spec leaves open, one for each
value of the model's counter.  A user takes it modulo the width it needs. -/
opaque freeValue : Nat → Nat

/-- A byte of a location whose contents the spec calls undefined (R392, R444), by the
counter at the event and the address. -/
opaque freeByte : Nat → Nat → Byte

/-- The SRAM PUF response of the device (identity chapter, R535), from the serial number. -/
opaque pufResponse : Nat → List Byte

/-- ML-DSA-87 key generation of FIPS 204: the public key (2,592 bytes) of a 32-byte seed. -/
opaque mldsaPublicKey : List Byte → List Byte

/-- ML-DSA-87 signing: seed, message, 32 bytes of hedging entropy; 4,627 bytes (R537). -/
opaque mldsaSign : List Byte → List Byte → List Byte → List Byte

/-- ML-DSA-87 verification under a Finlor key held in the boot ROM (R534, R539):
key number (0 part record, 1 firmware), message, signature. -/
opaque mldsaVerify : Nat → List Byte → List Byte → Bool

/-- SHA3-512 (64 bytes), which the spec names and does not define. -/
opaque sha3_512 : List Byte → List Byte

/-- The part record with its signature that the Keep of this device was delivered with (R3, R533). -/
opaque partRecord : List Byte

/-- The firmware image that each flash slot was delivered with (R538). -/
opaque factoryImage : Nat → List Byte

/-- The trim of VDD_CORE in the part record, which is in Finlor's own format (R533, R580): die, operating point; a user takes it
modulo the number of codes the point's range admits. -/
opaque trimCode : Nat → Nat → Nat

/-- The size of the xSPI flash in bytes (R538, firmware chapter). -/
opaque flashBytes : Nat

/-- Finlor's PCI vendor identifier (R452). -/
opaque vendorId : Nat

/-- Where a byte of the Keep window stands in the Keep, whose layout the spec does not give (R45): the number of an item
(`Dev.keepItem`) and the byte of it; none for a byte that no item of the model's Keep holds. -/
opaque keepPlace : Nat → Option (Nat × Nat)

/-- A byte of a message of Carillon to another device, whose header and layout the spec does not give (R239, R271, R283, R552): by
the message's kind, its values and the byte's place (0 to 47 the message header, 48 on the message). -/
opaque mgmtByte : Nat → List Nat → Nat → Byte

/-- How many management packets Carillon's input buffer holds (R248). -/
opaque mgmtRoom : Nat

/-- The boot ROM image that MROM of R537 measures. -/
opaque bootRom : List Byte

end Sys2Proof.Config
end

