-- ==== Sys2Proof/Machine/Regs.lean ====
section
/-! DEFINITION. The register map: the address of every register of the spec's register tables, as an offset
into the register space (R51), and for each its reset value and the bits of each access type (R11). -/

namespace Sys2Proof.Machine

/-- Slot `c` of region `r` (R51). -/
def slotBase (r c : Nat) : Nat := 0x10000000 + 0x1000000 * r + 0x10000 * c

/-- The slot of the N-core at physical site number `n` (R51). -/
def nBase (n : Nat) : Nat := slotBase (n / 16) (n % 16)

/-- The Tocsin instances: 0 to 255 the N-cores, 256 + r the T-cores, 272 + r the S-cores, 288 the device
Tocsin (R51, R505). -/
def tocBase (i : Nat) : Nat :=
  if i < 256 then nBase i + 0x4000
  else if i < 272 then slotBase (i - 256) 0x10 + 0x4000
  else if i < 288 then slotBase (i - 272) 0x11 + 0x4000
  else 0x10000

/-- TAB_BCTL (R96). -/
def TAB_BCTL (p : Nat) : Nat := 0x1000 + 0x100 * p
/-- TAB_BPERIOD (R96). -/
def TAB_BPERIOD (p : Nat) : Nat := 0x1004 + 0x100 * p
/-- TAB_LEAPLIM (R96). -/
def TAB_LEAPLIM (p : Nat) : Nat := 0x1008 + 0x100 * p
/-- TAB_BSTAT (R96). -/
def TAB_BSTAT (p : Nat) : Nat := 0x100c + 0x100 * p
/-- TAB_BEATNO_LO (R96). -/
def TAB_BEATNO_LO (p : Nat) : Nat := 0x1010 + 0x100 * p
/-- TAB_BEATNO_HI (R96). -/
def TAB_BEATNO_HI (p : Nat) : Nat := 0x1014 + 0x100 * p
/-- TAB_EPOCH_LO (R96). -/
def TAB_EPOCH_LO (p : Nat) : Nat := 0x1018 + 0x100 * p
/-- TAB_EPOCH_HI (R96). -/
def TAB_EPOCH_HI (p : Nat) : Nat := 0x101c + 0x100 * p
/-- TAB_BCOUNT (R96). -/
def TAB_BCOUNT (p : Nat) : Nat := 0x1020 + 0x100 * p
/-- TAB_BLAST (R96). -/
def TAB_BLAST (p : Nat) : Nat := 0x1024 + 0x100 * p
/-- TAB_SETTLE (R96). -/
def TAB_SETTLE (p : Nat) : Nat := 0x1028 + 0x100 * p
/-- TAB_OVRCNT (R96). -/
def TAB_OVRCNT (p : Nat) : Nat := 0x102c + 0x100 * p
/-- TAB_LEAPCNT (R96). -/
def TAB_LEAPCNT (p : Nat) : Nat := 0x1030 + 0x100 * p
/-- TAB_LASTLEAP (R96). -/
def TAB_LASTLEAP (p : Nat) : Nat := 0x1034 + 0x100 * p
/-- TAB_UNSETTLED (R96). -/
def TAB_UNSETTLED (p : Nat) : Nat := 0x1038 + 0x100 * p
/-- TAB_LATEFILE (R96). -/
def TAB_LATEFILE (p : Nat) : Nat := 0x103c + 0x100 * p
/-- TAB_SPAN (R96). -/
def TAB_SPAN (p : Nat) : Nat := 0x1040 + 0x100 * p
/-- TAB_BCMD (R96). -/
def TAB_BCMD (p : Nat) : Nat := 0x1044 + 0x100 * p
/-- TAB_CHOFF (R99). -/
def TAB_CHOFF (r : Nat) : Nat := 0x2000 + 0x40 * r
/-- TAB_CHSTAT (R99). -/
def TAB_CHSTAT (r : Nat) : Nat := 0x2004 + 0x40 * r
/-- TAB_TLCTL (R99). -/
def TAB_TLCTL : Nat := 0x800
/-- TAB_TLSTAT (R99). -/
def TAB_TLSTAT : Nat := 0x804
/-- TAB_PHERR (R99). -/
def TAB_PHERR : Nat := 0x808
/-- TAB_FREQCORR (R99). -/
def TAB_FREQCORR : Nat := 0x80c
/-- TAB_TAISEC_LO (R99). -/
def TAB_TAISEC_LO : Nat := 0x810
/-- TAB_TAISEC_HI (R99). -/
def TAB_TAISEC_HI : Nat := 0x814
/-- NEU_CFG (R135). -/
def NEU_CFG (n : Nat) : Nat := nBase n
/-- NEU_STAT (R135). -/
def NEU_STAT (n : Nat) : Nat := nBase n + 0x4
/-- NEU_UPD_LO (R135). -/
def NEU_UPD_LO (n : Nat) : Nat := nBase n + 0x8
/-- NEU_UPD_HI (R135). -/
def NEU_UPD_HI (n : Nat) : Nat := nBase n + 0xc
/-- NEU_FIRE_LO (R135). -/
def NEU_FIRE_LO (n : Nat) : Nat := nBase n + 0x10
/-- NEU_FIRE_HI (R135). -/
def NEU_FIRE_HI (n : Nat) : Nat := nBase n + 0x14
/-- NEU_ACTIVE (R135). -/
def NEU_ACTIVE (n : Nat) : Nat := nBase n + 0x18
/-- NEU_SWEEP (R135). -/
def NEU_SWEEP (n : Nat) : Nat := nBase n + 0x1c
/-- NEU_FLHEAD (R135). -/
def NEU_FLHEAD (n : Nat) : Nat := nBase n + 0x20
/-- NEU_FLTAIL (R135). -/
def NEU_FLTAIL (n : Nat) : Nat := nBase n + 0x24
/-- NEU_FLCOUNT (R135). -/
def NEU_FLCOUNT (n : Nat) : Nat := nBase n + 0x28
/-- NEU_FLSTALL (R135). -/
def NEU_FLSTALL (n : Nat) : Nat := nBase n + 0x2c
/-- NEU_SATCNT (R135). -/
def NEU_SATCNT (n : Nat) : Nat := nBase n + 0x30
/-- NEU_PROFERRCNT (R135). -/
def NEU_PROFERRCNT (n : Nat) : Nat := nBase n + 0x34
/-- NEU_LASTINT (R135). -/
def NEU_LASTINT (n : Nat) : Nat := nBase n + 0x38
/-- NEU_PROFVALID_LO (R135). -/
def NEU_PROFVALID_LO (n : Nat) : Nat := nBase n + 0x40
/-- NEU_PROFVALID_HI (R135). -/
def NEU_PROFVALID_HI (n : Nat) : Nat := nBase n + 0x44
/-- SYN_STAT (R180). -/
def SYN_STAT (n : Nat) : Nat := nBase n + 0x1000
/-- SYN_PMREC (R180). -/
def SYN_PMREC (n : Nat) : Nat := nBase n + 0x1000 + 0x4
/-- SYN_PMRING (R180). -/
def SYN_PMRING (n : Nat) : Nat := nBase n + 0x1000 + 0x8
/-- SYN_PMREV (R180). -/
def SYN_PMREV (n : Nat) : Nat := nBase n + 0x1000 + 0xc
/-- SYN_PMALM (R180). -/
def SYN_PMALM (n : Nat) : Nat := nBase n + 0x1000 + 0x10
/-- SYN_PMROW (R180). -/
def SYN_PMROW (n : Nat) : Nat := nBase n + 0x1000 + 0x14
/-- SYN_FLBASE (R180). -/
def SYN_FLBASE (n : Nat) : Nat := nBase n + 0x1000 + 0x18
/-- SYN_BAND16 (R180). -/
def SYN_BAND16 (n : Nat) : Nat := nBase n + 0x1000 + 0x1c
/-- SYN_BAND8 (R180). -/
def SYN_BAND8 (n : Nat) : Nat := nBase n + 0x1000 + 0x20
/-- SYN_BAND4 (R180). -/
def SYN_BAND4 (n : Nat) : Nat := nBase n + 0x1000 + 0x24
/-- SYN_OPS_LO (R180). -/
def SYN_OPS_LO (n : Nat) : Nat := nBase n + 0x1000 + 0xc0
/-- SYN_OPS_HI (R180). -/
def SYN_OPS_HI (n : Nat) : Nat := nBase n + 0x1000 + 0xc4
/-- SYN_FARBURST_LO (R180). -/
def SYN_FARBURST_LO (n : Nat) : Nat := nBase n + 0x1000 + 0xc8
/-- SYN_FARBURST_HI (R180). -/
def SYN_FARBURST_HI (n : Nat) : Nat := nBase n + 0x1000 + 0xcc
/-- SYN_RINGSAT (R180). -/
def SYN_RINGSAT (n : Nat) : Nat := nBase n + 0x1000 + 0xd0
/-- SYN_DLYCLAMP (R180). -/
def SYN_DLYCLAMP (n : Nat) : Nat := nBase n + 0x1000 + 0xd4
/-- SYN_TGTDROP (R180). -/
def SYN_TGTDROP (n : Nat) : Nat := nBase n + 0x1000 + 0xd8
/-- SYN_ROWERR (R180). -/
def SYN_ROWERR (n : Nat) : Nat := nBase n + 0x1000 + 0xdc
/-- SYN_ROWINVAL (R180). -/
def SYN_ROWINVAL (n : Nat) : Nat := nBase n + 0x1000 + 0xe0
/-- SYN_POISONSKIP (R180). -/
def SYN_POISONSKIP (n : Nat) : Nat := nBase n + 0x1000 + 0xe4
/-- SYN_ECCCORR (R180). -/
def SYN_ECCCORR (n : Nat) : Nat := nBase n + 0x1000 + 0xe8
/-- SYN_ECCUNC (R180). -/
def SYN_ECCUNC (n : Nat) : Nat := nBase n + 0x1000 + 0xec
/-- SYN_FARTIMEOUT (R180). -/
def SYN_FARTIMEOUT (n : Nat) : Nat := nBase n + 0x1000 + 0xf0
/-- SYN_RINGDISCARD (R180). -/
def SYN_RINGDISCARD (n : Nat) : Nat := nBase n + 0x1000 + 0xf4
/-- SYN_BANKSTALL (R180). -/
def SYN_BANKSTALL (n : Nat) : Nat := nBase n + 0x1000 + 0xf8
/-- SYN_LASTDEL (R180). -/
def SYN_LASTDEL (n : Nat) : Nat := nBase n + 0x1000 + 0xfc
/-- SYN_ZCFG (R181). -/
def SYN_ZCFG (n z : Nat) : Nat := nBase n + 0x1000 + 0x40 + 0x10 * z
/-- SYN_ZROWS (R181). -/
def SYN_ZROWS (n z : Nat) : Nat := nBase n + 0x1000 + 0x44 + 0x10 * z
/-- SYN_ZFIRST (R181). -/
def SYN_ZFIRST (n z : Nat) : Nat := nBase n + 0x1000 + 0x48 + 0x10 * z
/-- SYN_POISON (R181). -/
def SYN_POISON (n k : Nat) : Nat := nBase n + 0x1000 + 0x100 + 0x4 * k
/-- SYN_POISONCNT (R181). -/
def SYN_POISONCNT (n : Nat) : Nat := nBase n + 0x1000 + 0x200
/-- AXN_STAT (R227). -/
def AXN_STAT (d : Nat) : Nat := 0x20000 + 0x10000 * d
/-- AXN_LOOKUP_LO (R227). -/
def AXN_LOOKUP_LO (d : Nat) : Nat := 0x20000 + 0x10000 * d + 0x8
/-- AXN_LOOKUP_HI (R227). -/
def AXN_LOOKUP_HI (d : Nat) : Nat := 0x20000 + 0x10000 * d + 0xc
/-- AXN_INVCNT (R227). -/
def AXN_INVCNT (d : Nat) : Nat := 0x20000 + 0x10000 * d + 0x10
/-- AXN_RANGECNT (R227). -/
def AXN_RANGECNT (d : Nat) : Nat := 0x20000 + 0x10000 * d + 0x14
/-- AXN_PEALDROP (R227). -/
def AXN_PEALDROP (d : Nat) : Nat := 0x20000 + 0x10000 * d + 0x18
/-- AXN_ECCCORR (R227). -/
def AXN_ECCCORR (d : Nat) : Nat := 0x20000 + 0x10000 * d + 0x1c
/-- AXN_ECCUNC (R227). -/
def AXN_ECCUNC (d : Nat) : Nat := 0x20000 + 0x10000 * d + 0x20
/-- AXN_PBASE (R227). -/
def AXN_PBASE (d p : Nat) : Nat := 0x20000 + 0x10000 * d + 0x100 + 0x8 * p
/-- AXN_PLIMIT (R227). -/
def AXN_PLIMIT (d p : Nat) : Nat := 0x20000 + 0x10000 * d + 0x104 + 0x8 * p
/-- AXN_PROUT (R227). -/
def AXN_PROUT (d p : Nat) : Nat := 0x20000 + 0x10000 * d + 0x180 + 0x4 * p
/-- AXN_CBASE (R227). -/
def AXN_CBASE (d k : Nat) : Nat := 0x20000 + 0x10000 * d + 0x200 + 0x4 * k
/-- AXN_IRBASE_LO (R228). -/
def AXN_IRBASE_LO (d p : Nat) : Nat := 0x20000 + 0x10000 * d + 0x8000 + 0x40 * p
/-- AXN_IRBASE_HI (R228). -/
def AXN_IRBASE_HI (d p : Nat) : Nat := 0x20000 + 0x10000 * d + 0x8004 + 0x40 * p
/-- AXN_IRCFG (R228). -/
def AXN_IRCFG (d p : Nat) : Nat := 0x20000 + 0x10000 * d + 0x8008 + 0x40 * p
/-- AXN_IRHEAD (R228). -/
def AXN_IRHEAD (d p : Nat) : Nat := 0x20000 + 0x10000 * d + 0x800c + 0x40 * p
/-- AXN_IRTAIL (R228). -/
def AXN_IRTAIL (d p : Nat) : Nat := 0x20000 + 0x10000 * d + 0x8010 + 0x40 * p
/-- AXN_INREJ (R228). -/
def AXN_INREJ (d p : Nat) : Nat := 0x20000 + 0x10000 * d + 0x8014 + 0x40 * p
/-- AXN_ORBASE_LO (R228). -/
def AXN_ORBASE_LO (d p : Nat) : Nat := 0x20000 + 0x10000 * d + 0x8020 + 0x40 * p
/-- AXN_ORBASE_HI (R228). -/
def AXN_ORBASE_HI (d p : Nat) : Nat := 0x20000 + 0x10000 * d + 0x8024 + 0x40 * p
/-- AXN_ORCFG (R228). -/
def AXN_ORCFG (d p : Nat) : Nat := 0x20000 + 0x10000 * d + 0x8028 + 0x40 * p
/-- AXN_ORHEAD (R228). -/
def AXN_ORHEAD (d p : Nat) : Nat := 0x20000 + 0x10000 * d + 0x802c + 0x40 * p
/-- AXN_ORTAIL (R228). -/
def AXN_ORTAIL (d p : Nat) : Nat := 0x20000 + 0x10000 * d + 0x8030 + 0x40 * p
/-- ALM_ODROP (R228). -/
def ALM_ODROP (d p : Nat) : Nat := 0x20000 + 0x10000 * d + 0x8034 + 0x40 * p
/-- ALM_NSTAT (R230). -/
def ALM_NSTAT (n : Nat) : Nat := nBase n + 0x2000
/-- ALM_NCAP (R230). -/
def ALM_NCAP (n : Nat) : Nat := nBase n + 0x2000 + 0x4
/-- ALM_NPTR (R230). -/
def ALM_NPTR (n : Nat) : Nat := nBase n + 0x2000 + 0x8
/-- ALM_NFILED_LO (R230). -/
def ALM_NFILED_LO (n : Nat) : Nat := nBase n + 0x2000 + 0x10
/-- ALM_NFILED_HI (R230). -/
def ALM_NFILED_HI (n : Nat) : Nat := nBase n + 0x2000 + 0x14
/-- ALM_NSPILL (R230). -/
def ALM_NSPILL (n : Nat) : Nat := nBase n + 0x2000 + 0x18
/-- ALM_NLATE (R230). -/
def ALM_NLATE (n : Nat) : Nat := nBase n + 0x2000 + 0x1c
/-- ALM_NLATEDLV (R230). -/
def ALM_NLATEDLV (n : Nat) : Nat := nBase n + 0x2000 + 0x20
/-- ALM_NSLOT (R230). -/
def ALM_NSLOT (n j : Nat) : Nat := nBase n + 0x2000 + 0x100 + 0x4 * j
/-- ALM_FCFG (R231). -/
def ALM_FCFG (r : Nat) : Nat := slotBase r 0x23
/-- ALM_LATECFG (R231). -/
def ALM_LATECFG (r : Nat) : Nat := slotBase r 0x23 + 0x4
/-- ALM_FSTAT (R231). -/
def ALM_FSTAT (r : Nat) : Nat := slotBase r 0x23 + 0x8
/-- ALM_FFREE (R231). -/
def ALM_FFREE (r : Nat) : Nat := slotBase r 0x23 + 0xc
/-- ALM_FLOW (R231). -/
def ALM_FLOW (r : Nat) : Nat := slotBase r 0x23 + 0x10
/-- ALM_FDROP (R231). -/
def ALM_FDROP (r : Nat) : Nat := slotBase r 0x23 + 0x14
/-- ALM_FOOW (R231). -/
def ALM_FOOW (r : Nat) : Nat := slotBase r 0x23 + 0x18
/-- ALM_FTURN (R231). -/
def ALM_FTURN (r : Nat) : Nat := slotBase r 0x23 + 0x1c
/-- AXN_RCFG (R231). -/
def AXN_RCFG (r : Nat) : Nat := slotBase r 0x24
/-- AXN_RSTAT (R231). -/
def AXN_RSTAT (r : Nat) : Nat := slotBase r 0x24 + 0x4
/-- AXN_RFRAME_LO (R231). -/
def AXN_RFRAME_LO (r : Nat) : Nat := slotBase r 0x24 + 0x8
/-- AXN_RFRAME_HI (R231). -/
def AXN_RFRAME_HI (r : Nat) : Nat := slotBase r 0x24 + 0xc
/-- AXN_RSAT (R231). -/
def AXN_RSAT (r : Nat) : Nat := slotBase r 0x24 + 0x10
/-- AXN_RLATE (R231). -/
def AXN_RLATE (r : Nat) : Nat := slotBase r 0x24 + 0x14
/-- FAB_DCFG (R279). -/
def FAB_DCFG (d : Nat) : Nat := 0x40000 + 0x10000 * d
/-- FAB_DSTAT (R279). -/
def FAB_DSTAT (d : Nat) : Nat := 0x40000 + 0x10000 * d + 0x4
/-- FAB_RTX (R279). -/
def FAB_RTX (d : Nat) : Nat := 0x40000 + 0x10000 * d + 0x8
/-- FAB_RTY (R279). -/
def FAB_RTY (d : Nat) : Nat := 0x40000 + 0x10000 * d + 0xc
/-- FAB_RTZ (R279). -/
def FAB_RTZ (d : Nat) : Nat := 0x40000 + 0x10000 * d + 0x10
/-- FAB_REQTMO (R279). -/
def FAB_REQTMO (d : Nat) : Nat := 0x40000 + 0x10000 * d + 0x14
/-- FAB_ADDRERR (R279). -/
def FAB_ADDRERR (d : Nat) : Nat := 0x40000 + 0x10000 * d + 0x18
/-- FAB_NOROUTE (R279). -/
def FAB_NOROUTE (d : Nat) : Nat := 0x40000 + 0x10000 * d + 0x1c
/-- FAB_CRCDISC (R279). -/
def FAB_CRCDISC (d : Nat) : Nat := 0x40000 + 0x10000 * d + 0x20
/-- FAB_REQTIMEOUT (R279). -/
def FAB_REQTIMEOUT (d : Nat) : Nat := 0x40000 + 0x10000 * d + 0x24
/-- FAB_LATEREPLY (R279). -/
def FAB_LATEREPLY (d : Nat) : Nat := 0x40000 + 0x10000 * d + 0x28
/-- FAB_STALEEP (R279). -/
def FAB_STALEEP (d : Nat) : Nat := 0x40000 + 0x10000 * d + 0x2c
/-- FAB_EARLYDROP (R279). -/
def FAB_EARLYDROP (d : Nat) : Nat := 0x40000 + 0x10000 * d + 0x30
/-- FAB_C0MERGE (R279). -/
def FAB_C0MERGE (d : Nat) : Nat := 0x40000 + 0x10000 * d + 0x34
/-- FAB_TATTOOTMO (R279). -/
def FAB_TATTOOTMO (d : Nat) : Nat := 0x40000 + 0x10000 * d + 0x38
/-- FAB_BRFLIT_LO (R279). -/
def FAB_BRFLIT_LO (d : Nat) : Nat := 0x40000 + 0x10000 * d + 0x40
/-- FAB_BRFLIT_HI (R279). -/
def FAB_BRFLIT_HI (d : Nat) : Nat := 0x40000 + 0x10000 * d + 0x44
/-- FAB_PCTL (R279). -/
def FAB_PCTL (d q : Nat) : Nat := 0x40000 + 0x10000 * d + 0x1000 + 0x100 * q
/-- FAB_PSTAT (R279). -/
def FAB_PSTAT (d q : Nat) : Nat := 0x40000 + 0x10000 * d + 0x1004 + 0x100 * q
/-- FAB_PPEER (R279). -/
def FAB_PPEER (d q : Nat) : Nat := 0x40000 + 0x10000 * d + 0x1008 + 0x100 * q
/-- FAB_PBURST (R279). -/
def FAB_PBURST (d q : Nat) : Nat := 0x40000 + 0x10000 * d + 0x100c + 0x100 * q
/-- FAB_PTXFLIT_LO (R279). -/
def FAB_PTXFLIT_LO (d q : Nat) : Nat := 0x40000 + 0x10000 * d + 0x1010 + 0x100 * q
/-- FAB_PTXFLIT_HI (R279). -/
def FAB_PTXFLIT_HI (d q : Nat) : Nat := 0x40000 + 0x10000 * d + 0x1014 + 0x100 * q
/-- FAB_PRXFLIT_LO (R279). -/
def FAB_PRXFLIT_LO (d q : Nat) : Nat := 0x40000 + 0x10000 * d + 0x1018 + 0x100 * q
/-- FAB_PRXFLIT_HI (R279). -/
def FAB_PRXFLIT_HI (d q : Nat) : Nat := 0x40000 + 0x10000 * d + 0x101c + 0x100 * q
/-- FAB_PFECCORR_LO (R279). -/
def FAB_PFECCORR_LO (d q : Nat) : Nat := 0x40000 + 0x10000 * d + 0x1020 + 0x100 * q
/-- FAB_PFECCORR_HI (R279). -/
def FAB_PFECCORR_HI (d q : Nat) : Nat := 0x40000 + 0x10000 * d + 0x1024 + 0x100 * q
/-- FAB_PFECUNC (R279). -/
def FAB_PFECUNC (d q : Nat) : Nat := 0x40000 + 0x10000 * d + 0x1028 + 0x100 * q
/-- FAB_PCRCERR (R279). -/
def FAB_PCRCERR (d q : Nat) : Nat := 0x40000 + 0x10000 * d + 0x102c + 0x100 * q
/-- FAB_PDISC (R279). -/
def FAB_PDISC (d q : Nat) : Nat := 0x40000 + 0x10000 * d + 0x1030 + 0x100 * q
/-- FAB_PLINKDOWN (R279). -/
def FAB_PLINKDOWN (d q : Nat) : Nat := 0x40000 + 0x10000 * d + 0x1034 + 0x100 * q
/-- FAB_RPMDROP (R280). -/
def FAB_RPMDROP (r : Nat) : Nat := slotBase r 0x20
/-- FAB_RUADROP (R280). -/
def FAB_RUADROP (r : Nat) : Nat := slotBase r 0x20 + 0x4
/-- FAB_RFCDROP (R280). -/
def FAB_RFCDROP (r : Nat) : Nat := slotBase r 0x20 + 0x8
/-- FAB_SCTL (R280). -/
def FAB_SCTL (r : Nat) : Nat := slotBase r 0x20 + 0x100
/-- FAB_SSTAT (R280). -/
def FAB_SSTAT (r : Nat) : Nat := slotBase r 0x20 + 0x104
/-- FAB_SMRD (R280). -/
def FAB_SMRD (r : Nat) : Nat := slotBase r 0x20 + 0x108
/-- FAB_SMWR (R280). -/
def FAB_SMWR (r : Nat) : Nat := slotBase r 0x20 + 0x10c
/-- FAB_SMISS (R280). -/
def FAB_SMISS (r : Nat) : Nat := slotBase r 0x20 + 0x110
/-- FAB_SSAT (R280). -/
def FAB_SSAT (r : Nat) : Nat := slotBase r 0x20 + 0x114
/-- TUN_CTL (R303). -/
def TUN_CTL : Nat := 0x60000
/-- TUN_STAT (R303). -/
def TUN_STAT : Nat := 0x60000 + 0x4
/-- TUN_LIMITS (R303). -/
def TUN_LIMITS : Nat := 0x60000 + 0x8
/-- TUN_TXCFG (R303). -/
def TUN_TXCFG : Nat := 0x60000 + 0xc
/-- TUN_TXEV_LO (R303). -/
def TUN_TXEV_LO : Nat := 0x60000 + 0x40
/-- TUN_TXEV_HI (R303). -/
def TUN_TXEV_HI : Nat := 0x60000 + 0x44
/-- TUN_RXEV_LO (R303). -/
def TUN_RXEV_LO : Nat := 0x60000 + 0x48
/-- TUN_RXEV_HI (R303). -/
def TUN_RXEV_HI : Nat := 0x60000 + 0x4c
/-- TUN_EGDROP (R303). -/
def TUN_EGDROP : Nat := 0x60000 + 0x50
/-- TUN_MUTEDROP (R303). -/
def TUN_MUTEDROP : Nat := 0x60000 + 0x54
/-- TUN_LINKDROP (R303). -/
def TUN_LINKDROP : Nat := 0x60000 + 0x58
/-- TUN_NOSITE (R303). -/
def TUN_NOSITE : Nat := 0x60000 + 0x5c
/-- TUN_HDRERR (R303). -/
def TUN_HDRERR : Nat := 0x60000 + 0x60
/-- TUN_FRAG (R303). -/
def TUN_FRAG : Nat := 0x60000 + 0x64
/-- TUN_DUP (R303). -/
def TUN_DUP : Nat := 0x60000 + 0x68
/-- TUN_SEQGAP (R303). -/
def TUN_SEQGAP : Nat := 0x60000 + 0x6c
/-- TUN_OOW (R303). -/
def TUN_OOW : Nat := 0x60000 + 0x70
/-- TUN_EARLY (R303). -/
def TUN_EARLY : Nat := 0x60000 + 0x74
/-- TUN_EARLYDROP (R303). -/
def TUN_EARLYDROP : Nat := 0x60000 + 0x78
/-- TUN_LATE (R303). -/
def TUN_LATE : Nat := 0x60000 + 0x7c
/-- TUN_LATEDLV (R303). -/
def TUN_LATEDLV : Nat := 0x60000 + 0x80
/-- TUN_IDLEDROP (R303). -/
def TUN_IDLEDROP : Nat := 0x60000 + 0x84
/-- TUN_NONTUN (R303). -/
def TUN_NONTUN : Nat := 0x60000 + 0x88
/-- TUN_PCFG (R303). -/
def TUN_PCFG (w : Nat) : Nat := 0x60000 + 0x100 + 0x80 * w
/-- TUN_PSTAT (R303). -/
def TUN_PSTAT (w : Nat) : Nat := 0x60000 + 0x104 + 0x80 * w
/-- TUN_MAC_LO (R303). -/
def TUN_MAC_LO (w : Nat) : Nat := 0x60000 + 0x108 + 0x80 * w
/-- TUN_MAC_HI (R303). -/
def TUN_MAC_HI (w : Nat) : Nat := 0x60000 + 0x10c + 0x80 * w
/-- TUN_IPV4 (R303). -/
def TUN_IPV4 (w : Nat) : Nat := 0x60000 + 0x110 + 0x80 * w
/-- TUN_IPV6_0 (R303). -/
def TUN_IPV6_0 (w : Nat) : Nat := 0x60000 + 0x120 + 0x80 * w
/-- TUN_IPV6_1 (R303). -/
def TUN_IPV6_1 (w : Nat) : Nat := 0x60000 + 0x124 + 0x80 * w
/-- TUN_IPV6_2 (R303). -/
def TUN_IPV6_2 (w : Nat) : Nat := 0x60000 + 0x128 + 0x80 * w
/-- TUN_IPV6_3 (R303). -/
def TUN_IPV6_3 (w : Nat) : Nat := 0x60000 + 0x12c + 0x80 * w
/-- TUN_PTPASYM (R303). -/
def TUN_PTPASYM (w : Nat) : Nat := 0x60000 + 0x130 + 0x80 * w
/-- TUN_FCSERR (R303). -/
def TUN_FCSERR (w : Nat) : Nat := 0x60000 + 0x138 + 0x80 * w
/-- TUN_RXDISC (R303). -/
def TUN_RXDISC (w : Nat) : Nat := 0x60000 + 0x13c + 0x80 * w
/-- TUN_PTPCFG (R303). -/
def TUN_PTPCFG : Nat := 0x60000 + 0x200
/-- TUN_PTPSTAT (R303). -/
def TUN_PTPSTAT : Nat := 0x60000 + 0x204
/-- TUN_PTPOFFS (R303). -/
def TUN_PTPOFFS : Nat := 0x60000 + 0x208
/-- TUN_PTPMPD (R303). -/
def TUN_PTPMPD : Nat := 0x60000 + 0x20c
/-- TUN_PTPGM_LO (R303). -/
def TUN_PTPGM_LO : Nat := 0x60000 + 0x210
/-- TUN_PTPGM_HI (R303). -/
def TUN_PTPGM_HI : Nat := 0x60000 + 0x214
/-- HRV_CTL (R354). -/
def HRV_CTL (n : Nat) : Nat := nBase n + 0x3000
/-- HRV_STAT (R354). -/
def HRV_STAT (n : Nat) : Nat := nBase n + 0x3000 + 0x4
/-- HRV_SEASON (R354). -/
def HRV_SEASON (n : Nat) : Nat := nBase n + 0x3000 + 0x8
/-- HRV_HWIN (R354). -/
def HRV_HWIN (n : Nat) : Nat := nBase n + 0x3000 + 0xc
/-- HRV_BUDGET (R354). -/
def HRV_BUDGET (n : Nat) : Nat := nBase n + 0x3000 + 0x10
/-- HRV_SCOUNT (R354). -/
def HRV_SCOUNT (n : Nat) : Nat := nBase n + 0x3000 + 0x14
/-- HRV_SEASONNO (R354). -/
def HRV_SEASONNO (n : Nat) : Nat := nBase n + 0x3000 + 0x18
/-- HRV_MODNEXT (R354). -/
def HRV_MODNEXT (n : Nat) : Nat := nBase n + 0x3000 + 0x1c
/-- HRV_MOD (R354). -/
def HRV_MOD (n : Nat) : Nat := nBase n + 0x3000 + 0x20
/-- HRV_SEED (R354). -/
def HRV_SEED (n : Nat) : Nat := nBase n + 0x3000 + 0x24
/-- HRV_REVCFG (R354). -/
def HRV_REVCFG (n : Nat) : Nat := nBase n + 0x3000 + 0x28
/-- HRV_SWEEP (R354). -/
def HRV_SWEEP (n : Nat) : Nat := nBase n + 0x3000 + 0x2c
/-- HRV_HPTR (R354). -/
def HRV_HPTR (n : Nat) : Nat := nBase n + 0x3000 + 0x30
/-- HRV_LASTHB (R354). -/
def HRV_LASTHB (n : Nat) : Nat := nBase n + 0x3000 + 0x34
/-- HRV_RULEVALID (R354). -/
def HRV_RULEVALID (n : Nat) : Nat := nBase n + 0x3000 + 0x38
/-- HRV_PSYN_LO (R354). -/
def HRV_PSYN_LO (n : Nat) : Nat := nBase n + 0x3000 + 0x40
/-- HRV_PSYN_HI (R354). -/
def HRV_PSYN_HI (n : Nat) : Nat := nBase n + 0x3000 + 0x44
/-- HRV_DSYN_LO (R354). -/
def HRV_DSYN_LO (n : Nat) : Nat := nBase n + 0x3000 + 0x48
/-- HRV_DSYN_HI (R354). -/
def HRV_DSYN_HI (n : Nat) : Nat := nBase n + 0x3000 + 0x4c
/-- HRV_HSYN_LO (R354). -/
def HRV_HSYN_LO (n : Nat) : Nat := nBase n + 0x3000 + 0x50
/-- HRV_HSYN_HI (R354). -/
def HRV_HSYN_HI (n : Nat) : Nat := nBase n + 0x3000 + 0x54
/-- HRV_HSKIP (R354). -/
def HRV_HSKIP (n : Nat) : Nat := nBase n + 0x3000 + 0x58
/-- HRV_OVRCNT (R354). -/
def HRV_OVRCNT (n : Nat) : Nat := nBase n + 0x3000 + 0x5c
/-- HRV_ESAT (R354). -/
def HRV_ESAT (n : Nat) : Nat := nBase n + 0x3000 + 0x60
/-- HRV_WCLAMP (R354). -/
def HRV_WCLAMP (n : Nat) : Nat := nBase n + 0x3000 + 0x64
/-- HRV_DLYCHG (R354). -/
def HRV_DLYCHG (n : Nat) : Nat := nBase n + 0x3000 + 0x68
/-- HRV_REVERR (R354). -/
def HRV_REVERR (n : Nat) : Nat := nBase n + 0x3000 + 0x6c
/-- HRV_RULEERR (R354). -/
def HRV_RULEERR (n : Nat) : Nat := nBase n + 0x3000 + 0x70
/-- TCR_CTL (R395). -/
def TCR_CTL (r : Nat) : Nat := slotBase r 0x10
/-- TCR_STAT (R395). -/
def TCR_STAT (r : Nat) : Nat := slotBase r 0x10 + 0x4
/-- TCR_DQSTAT (R395). -/
def TCR_DQSTAT (r : Nat) : Nat := slotBase r 0x10 + 0x8
/-- TCR_SEED (R395). -/
def TCR_SEED (r : Nat) : Nat := slotBase r 0x10 + 0xc
/-- TCR_GANG (R395). -/
def TCR_GANG (r : Nat) : Nat := slotBase r 0x10 + 0x10
/-- TCR_PLWR (R395). -/
def TCR_PLWR (r : Nat) : Nat := slotBase r 0x10 + 0x14
/-- TCR_PLBASE (R395). -/
def TCR_PLBASE (r : Nat) : Nat := slotBase r 0x10 + 0x18
/-- TCR_PLLIM (R395). -/
def TCR_PLLIM (r : Nat) : Nat := slotBase r 0x10 + 0x1c
/-- TCR_LAST (R395). -/
def TCR_LAST (r : Nat) : Nat := slotBase r 0x10 + 0x20
/-- TCR_LASTCYC (R395). -/
def TCR_LASTCYC (r : Nat) : Nat := slotBase r 0x10 + 0x24
/-- TCR_MACS_LO (R395). -/
def TCR_MACS_LO (r : Nat) : Nat := slotBase r 0x10 + 0x28
/-- TCR_MACS_HI (R395). -/
def TCR_MACS_HI (r : Nat) : Nat := slotBase r 0x10 + 0x2c
/-- TCR_BUSY_LO (R395). -/
def TCR_BUSY_LO (r : Nat) : Nat := slotBase r 0x10 + 0x30
/-- TCR_BUSY_HI (R395). -/
def TCR_BUSY_HI (r : Nat) : Nat := slotBase r 0x10 + 0x34
/-- TCR_OPCNT (R395). -/
def TCR_OPCNT (r : Nat) : Nat := slotBase r 0x10 + 0x38
/-- TCR_SATCNT (R395). -/
def TCR_SATCNT (r : Nat) : Nat := slotBase r 0x10 + 0x3c
/-- TCR_NANCNT (R395). -/
def TCR_NANCNT (r : Nat) : Nat := slotBase r 0x10 + 0x40
/-- TCR_ECCCORR (R395). -/
def TCR_ECCCORR (r : Nat) : Nat := slotBase r 0x10 + 0x44
/-- TCR_ECCUNC (R395). -/
def TCR_ECCUNC (r : Nat) : Nat := slotBase r 0x10 + 0x48
/-- TCR_PLERR (R395). -/
def TCR_PLERR (r : Nat) : Nat := slotBase r 0x10 + 0x4c
/-- TCR_DQDROP (R395). -/
def TCR_DQDROP (r : Nat) : Nat := slotBase r 0x10 + 0x50
/-- TCR_REJECT (R395). -/
def TCR_REJECT (r : Nat) : Nat := slotBase r 0x10 + 0x54
/-- TCR_DQPUSH (R395). -/
def TCR_DQPUSH (r i : Nat) : Nat := slotBase r 0x10 + 0x100 + 0x4 * i
/-- SEQ_CTL (R425). -/
def SEQ_CTL (r : Nat) : Nat := slotBase r 0x11
/-- SEQ_STAT (R425). -/
def SEQ_STAT (r : Nat) : Nat := slotBase r 0x11 + 0x4
/-- SEQ_ENTRY (R425). -/
def SEQ_ENTRY (r : Nat) : Nat := slotBase r 0x11 + 0x8
/-- SEQ_PC (R425). -/
def SEQ_PC (r : Nat) : Nat := slotBase r 0x11 + 0xc
/-- SEQ_FAULT (R425). -/
def SEQ_FAULT (r : Nat) : Nat := slotBase r 0x11 + 0x10
/-- SEQ_OUTST (R425). -/
def SEQ_OUTST (r : Nat) : Nat := slotBase r 0x11 + 0x14
/-- SEQ_CSTAT (R425). -/
def SEQ_CSTAT (r : Nat) : Nat := slotBase r 0x11 + 0x18
/-- SEQ_REFUSED (R425). -/
def SEQ_REFUSED (r : Nat) : Nat := slotBase r 0x11 + 0x1c
/-- SEQ_DESC_LO (R425). -/
def SEQ_DESC_LO (r : Nat) : Nat := slotBase r 0x11 + 0x20
/-- SEQ_DESC_HI (R425). -/
def SEQ_DESC_HI (r : Nat) : Nat := slotBase r 0x11 + 0x24
/-- SEQ_CCNT (R425). -/
def SEQ_CCNT (r k : Nat) : Nat := slotBase r 0x11 + 0x40 + 0x4 * k
/-- SEQ_Gi_LO (R425). -/
def SEQ_Gi_LO (r i : Nat) : Nat := slotBase r 0x11 + 0x100 + 0x8 * i
/-- SEQ_Gi_HI (R425). -/
def SEQ_Gi_HI (r i : Nat) : Nat := slotBase r 0x11 + 0x104 + 0x8 * i
/-- QUE_CHCTL (R426). -/
def QUE_CHCTL (r c : Nat) : Nat := slotBase r 0x22 + 0x10 * c
/-- QUE_CHSTAT (R426). -/
def QUE_CHSTAT (r c : Nat) : Nat := slotBase r 0x22 + 0x4 + 0x10 * c
/-- QUE_CHDROP (R426). -/
def QUE_CHDROP (r c : Nat) : Nat := slotBase r 0x22 + 0x8 + 0x10 * c
/-- QUE_CHRX (R426). -/
def QUE_CHRX (r c : Nat) : Nat := slotBase r 0x22 + 0xc + 0x10 * c
/-- QUE_CQCFG (R426). -/
def QUE_CQCFG (r q : Nat) : Nat := slotBase r 0x22 + 0x400 + 0x10 * q
/-- QUE_CQSTAT (R426). -/
def QUE_CQSTAT (r q : Nat) : Nat := slotBase r 0x22 + 0x404 + 0x10 * q
/-- QUE_CQDROP (R426). -/
def QUE_CQDROP (r q : Nat) : Nat := slotBase r 0x22 + 0x408 + 0x10 * q
/-- QUE_CQDONE (R426). -/
def QUE_CQDONE (r q : Nat) : Nat := slotBase r 0x22 + 0x40c + 0x10 * q
/-- QUE_HOLD (R426). -/
def QUE_HOLD (r : Nat) : Nat := slotBase r 0x22 + 0x500
/-- QUE_ADDRERR (R426). -/
def QUE_ADDRERR (r : Nat) : Nat := slotBase r 0x22 + 0x504
/-- QUE_CHIN (R426). -/
def QUE_CHIN (r c : Nat) : Nat := slotBase r 0x22 + 0x8000 + 0x40 * c
/-- QUE_CQIN (R426). -/
def QUE_CQIN (r q : Nat) : Nat := slotBase r 0x22 + 0x9000 + 0x40 * q
/-- QUE_CHHEAD (R426). -/
def QUE_CHHEAD (r c : Nat) : Nat := slotBase r 0x22 + 0xa000 + 0x40 * c
/-- CMN_OWN (R427). -/
def CMN_OWN (r b : Nat) : Nat := slotBase r 0x21 + 0x4 * b
/-- CMN_NOWN (R427). -/
def CMN_NOWN (r b : Nat) : Nat := slotBase r 0x21 + 0x40 + 0x4 * b
/-- CMN_NORD (R427). -/
def CMN_NORD (r b : Nat) : Nat := slotBase r 0x21 + 0x80 + 0x4 * b
/-- CMN_STAT (R427). -/
def CMN_STAT (r : Nat) : Nat := slotBase r 0x21 + 0xc0
/-- CMN_DPLOSS (R427). -/
def CMN_DPLOSS (r : Nat) : Nat := slotBase r 0x21 + 0xc4
/-- CMN_ECCCORR (R427). -/
def CMN_ECCCORR (r : Nat) : Nat := slotBase r 0x21 + 0xc8
/-- CMN_ECCUNC (R427). -/
def CMN_ECCUNC (r : Nat) : Nat := slotBase r 0x21 + 0xcc
/-- MEM_CFG (R446). -/
def MEM_CFG (d : Nat) : Nat := 0x70000 + 0x10000 * d
/-- MEM_STAT (R446). -/
def MEM_STAT (d : Nat) : Nat := 0x70000 + 0x10000 * d + 0x4
/-- MEM_CAPMB (R446). -/
def MEM_CAPMB (d : Nat) : Nat := 0x70000 + 0x10000 * d + 0x8
/-- MEM_TRAINMS (R446). -/
def MEM_TRAINMS (d : Nat) : Nat := 0x70000 + 0x10000 * d + 0xc
/-- MEM_SCRUB (R446). -/
def MEM_SCRUB (d : Nat) : Nat := 0x70000 + 0x10000 * d + 0x10
/-- MEM_WINERR (R446). -/
def MEM_WINERR (d : Nat) : Nat := 0x70000 + 0x10000 * d + 0x14
/-- MEM_WINLAST (R446). -/
def MEM_WINLAST (d : Nat) : Nat := 0x70000 + 0x10000 * d + 0x18
/-- MEM_CHSTAT (R446). -/
def MEM_CHSTAT (d k : Nat) : Nat := 0x70000 + 0x10000 * d + 0x100 + 0x40 * k
/-- MEM_CECNT0 (R446). -/
def MEM_CECNT0 (d k : Nat) : Nat := 0x70000 + 0x10000 * d + 0x104 + 0x40 * k
/-- MEM_CECNT1 (R446). -/
def MEM_CECNT1 (d k : Nat) : Nat := 0x70000 + 0x10000 * d + 0x108 + 0x40 * k
/-- MEM_UECNT0 (R446). -/
def MEM_UECNT0 (d k : Nat) : Nat := 0x70000 + 0x10000 * d + 0x10c + 0x40 * k
/-- MEM_UECNT1 (R446). -/
def MEM_UECNT1 (d k : Nat) : Nat := 0x70000 + 0x10000 * d + 0x110 + 0x40 * k
/-- MEM_ERRADDR_LO (R446). -/
def MEM_ERRADDR_LO (d k : Nat) : Nat := 0x70000 + 0x10000 * d + 0x114 + 0x40 * k
/-- MEM_ERRADDR_HI (R446). -/
def MEM_ERRADDR_HI (d k : Nat) : Nat := 0x70000 + 0x10000 * d + 0x118 + 0x40 * k
/-- MEM_RD_LO (R446). -/
def MEM_RD_LO (d k : Nat) : Nat := 0x70000 + 0x10000 * d + 0x120 + 0x40 * k
/-- MEM_RD_HI (R446). -/
def MEM_RD_HI (d k : Nat) : Nat := 0x70000 + 0x10000 * d + 0x124 + 0x40 * k
/-- MEM_WR_LO (R446). -/
def MEM_WR_LO (d k : Nat) : Nat := 0x70000 + 0x10000 * d + 0x128 + 0x40 * k
/-- MEM_WR_HI (R446). -/
def MEM_WR_HI (d k : Nat) : Nat := 0x70000 + 0x10000 * d + 0x12c + 0x40 * k
/-- MEM_WBASE (R446). -/
def MEM_WBASE (d p w : Nat) : Nat := 0x70000 + 0x10000 * d + 0x8000 + 0x20 * p + 0x8 * w
/-- MEM_WLIM (R446). -/
def MEM_WLIM (d p w : Nat) : Nat := 0x70000 + 0x10000 * d + 0x8004 + 0x20 * p + 0x8 * w
/-- PCI_LINKSTAT (R476). -/
def PCI_LINKSTAT : Nat := 0x90000
/-- PCI_STAT (R476). -/
def PCI_STAT : Nat := 0x90000 + 0x4
/-- PCI_BARERR (R476). -/
def PCI_BARERR : Nat := 0x90000 + 0x8
/-- PCI_RDTMO (R476). -/
def PCI_RDTMO : Nat := 0x90000 + 0xc
/-- PCI_LINKDOWN (R476). -/
def PCI_LINKDOWN : Nat := 0x90000 + 0x10
/-- PCI_FLRCNT (R476). -/
def PCI_FLRCNT : Nat := 0x90000 + 0x14
/-- PCI_IMOD (R476). -/
def PCI_IMOD (f : Nat) : Nat := 0x90000 + 0x100 + 0x4 * f
/-- PCI_DMABASE_LO (R476). -/
def PCI_DMABASE_LO (c : Nat) : Nat := 0x90000 + 0x1000 + 0x40 * c
/-- PCI_DMABASE_HI (R476). -/
def PCI_DMABASE_HI (c : Nat) : Nat := 0x90000 + 0x1004 + 0x40 * c
/-- PCI_DMACFG (R476). -/
def PCI_DMACFG (c : Nat) : Nat := 0x90000 + 0x1008 + 0x40 * c
/-- PCI_DMAHEAD (R476). -/
def PCI_DMAHEAD (c : Nat) : Nat := 0x90000 + 0x100c + 0x40 * c
/-- PCI_DMATAIL (R476). -/
def PCI_DMATAIL (c : Nat) : Nat := 0x90000 + 0x1010 + 0x40 * c
/-- PCI_DMASTAT (R476). -/
def PCI_DMASTAT (c : Nat) : Nat := 0x90000 + 0x1014 + 0x40 * c
/-- PCI_DMABYTES_LO (R476). -/
def PCI_DMABYTES_LO (c : Nat) : Nat := 0x90000 + 0x1018 + 0x40 * c
/-- PCI_DMABYTES_HI (R476). -/
def PCI_DMABYTES_HI (c : Nat) : Nat := 0x90000 + 0x101c + 0x40 * c
/-- PCI_DMAERRCNT (R476). -/
def PCI_DMAERRCNT (c : Nat) : Nat := 0x90000 + 0x1020 + 0x40 * c
/-- PCI_AP (R476). -/
def PCI_AP (f a : Nat) : Nat := 0x90000 + 0x2000 + 0x40 * f + 0x4 * a
/-- PCI_VFWIN (R476). -/
def PCI_VFWIN (f w : Nat) : Nat := 0x90000 + 0x3000 + 0x10 * f + 0x4 * w
/-- TAB_TIME_LO (R504). -/
def TAB_TIME_LO : Nat := 0x0
/-- TAB_TIME_HI (R504). -/
def TAB_TIME_HI : Nat := 0x4
/-- TAB_TSET_LO (R504). -/
def TAB_TSET_LO : Nat := 0x8
/-- TAB_TSET_HI (R504). -/
def TAB_TSET_HI : Nat := 0xc
/-- TAB_TBSTAT (R504). -/
def TAB_TBSTAT : Nat := 0x10
/-- TAB_TnCTL (R504). -/
def TAB_TnCTL (n : Nat) : Nat := 0x100 + 0x40 * n
/-- TAB_TnCMD (R504). -/
def TAB_TnCMD (n : Nat) : Nat := 0x104 + 0x40 * n
/-- TAB_TnCOUNT (R504). -/
def TAB_TnCOUNT (n : Nat) : Nat := 0x108 + 0x40 * n
/-- TAB_TnPERIOD (R504). -/
def TAB_TnPERIOD (n : Nat) : Nat := 0x10c + 0x40 * n
/-- TAB_TnCMP0 (R504). -/
def TAB_TnCMP0 (n : Nat) : Nat := 0x110 + 0x40 * n
/-- TAB_TnCMP1 (R504). -/
def TAB_TnCMP1 (n : Nat) : Nat := 0x114 + 0x40 * n
/-- TAB_TnSNAP (R504). -/
def TAB_TnSNAP (n : Nat) : Nat := 0x118 + 0x40 * n
/-- TAB_TnSTAT (R504). -/
def TAB_TnSTAT (n : Nat) : Nat := 0x11c + 0x40 * n
/-- TAB_TnCAP_LO (R504). -/
def TAB_TnCAP_LO (n : Nat) : Nat := 0x120 + 0x40 * n
/-- TAB_TnCAP_HI (R504). -/
def TAB_TnCAP_HI (n : Nat) : Nat := 0x124 + 0x40 * n
/-- TAB_TnCAPLOST (R504). -/
def TAB_TnCAPLOST (n : Nat) : Nat := 0x128 + 0x40 * n
/-- TOC_CTL (R505). -/
def TOC_CTL (i : Nat) : Nat := tocBase i
/-- TOC_STAT (R505). -/
def TOC_STAT (i : Nat) : Nat := tocBase i + 0x4
/-- TOC_ENABLE (R505). -/
def TOC_ENABLE (i : Nat) : Nat := tocBase i + 0x8
/-- TOC_MASK (R505). -/
def TOC_MASK (i : Nat) : Nat := tocBase i + 0xc
/-- TOC_PEND (R505). -/
def TOC_PEND (i : Nat) : Nat := tocBase i + 0x10
/-- TOC_CLAIM (R505). -/
def TOC_CLAIM (i : Nat) : Nat := tocBase i + 0x14
/-- TOC_EOI (R505). -/
def TOC_EOI (i : Nat) : Nat := tocBase i + 0x18
/-- TOC_STACK (R505). -/
def TOC_STACK (i : Nat) : Nat := tocBase i + 0x1c
/-- TOC_RQSTAT (R505). -/
def TOC_RQSTAT (i : Nat) : Nat := tocBase i + 0x20
/-- TOC_RQLOST (R505). -/
def TOC_RQLOST (i : Nat) : Nat := tocBase i + 0x24
/-- TOC_SRC (R505). -/
def TOC_SRC (i s : Nat) : Nat := tocBase i + 0x100 + 0x4 * s
/-- TOC_RQ (R505). -/
def TOC_RQ (i : Nat) : Nat := tocBase i + 0x800
/-- TOC_PRQSTAT (R505). -/
def TOC_PRQSTAT (i p : Nat) : Nat := tocBase i + 0x1000 + 0x40 * p
/-- TOC_PRQCOUNT (R505). -/
def TOC_PRQCOUNT (i p : Nat) : Nat := tocBase i + 0x1004 + 0x40 * p
/-- TOC_PRQLOST (R505). -/
def TOC_PRQLOST (i p : Nat) : Nat := tocBase i + 0x1008 + 0x40 * p
/-- TOC_PRQ (R505). -/
def TOC_PRQ (i p : Nat) : Nat := tocBase i + 0x1020 + 0x40 * p
/-- CAR_STAT (R548). -/
def CAR_STAT : Nat := 0xA0000
/-- CAR_FWVER (R548). -/
def CAR_FWVER : Nat := 0xA0000 + 0x4
/-- CAR_SVN (R548). -/
def CAR_SVN : Nat := 0xA0000 + 0x8
/-- CAR_ROLLBACK (R548). -/
def CAR_ROLLBACK : Nat := 0xA0000 + 0xc
/-- CAR_SERIAL_LO (R548). -/
def CAR_SERIAL_LO : Nat := 0xA0000 + 0x10
/-- CAR_SERIAL_HI (R548). -/
def CAR_SERIAL_HI : Nat := 0xA0000 + 0x14
/-- CAR_BOOT (R548). -/
def CAR_BOOT : Nat := 0xA0000 + 0x18
/-- CAR_LOGSEQ (R548). -/
def CAR_LOGSEQ : Nat := 0xA0000 + 0x20
/-- CAR_LOGSUPP (R548). -/
def CAR_LOGSUPP : Nat := 0xA0000 + 0x24
/-- CAR_JWRITTEN (R548). -/
def CAR_JWRITTEN : Nat := 0xA0000 + 0x28
/-- CAR_JSKIP (R548). -/
def CAR_JSKIP : Nat := 0xA0000 + 0x2c
/-- CAR_FFCOUNT (R548). -/
def CAR_FFCOUNT : Nat := 0xA0000 + 0x30
/-- CAR_FFLOST (R548). -/
def CAR_FFLOST : Nat := 0xA0000 + 0x34
/-- CAR_WDCNT (R548). -/
def CAR_WDCNT : Nat := 0xA0000 + 0x38
/-- CAR_SENS (R548). -/
def CAR_SENS (i : Nat) : Nat := 0xA0000 + 0x100 + 0x4 * i
/-- CAR_POWER (R548). -/
def CAR_POWER : Nat := 0xA0000 + 0x300
/-- CAR_TMAX (R548). -/
def CAR_TMAX : Nat := 0xA0000 + 0x304
/-- CAR_CRBASE_LO (R549). -/
def CAR_CRBASE_LO (f : Nat) : Nat := 0x100000 + 0x10000 * f
/-- CAR_CRBASE_HI (R549). -/
def CAR_CRBASE_HI (f : Nat) : Nat := 0x100000 + 0x10000 * f + 0x4
/-- CAR_CRCFG (R549). -/
def CAR_CRCFG (f : Nat) : Nat := 0x100000 + 0x10000 * f + 0x8
/-- CAR_CRHEAD (R549). -/
def CAR_CRHEAD (f : Nat) : Nat := 0x100000 + 0x10000 * f + 0xc
/-- CAR_CRTAIL (R549). -/
def CAR_CRTAIL (f : Nat) : Nat := 0x100000 + 0x10000 * f + 0x10
/-- CAR_RRBASE_LO (R549). -/
def CAR_RRBASE_LO (f : Nat) : Nat := 0x100000 + 0x10000 * f + 0x20
/-- CAR_RRBASE_HI (R549). -/
def CAR_RRBASE_HI (f : Nat) : Nat := 0x100000 + 0x10000 * f + 0x24
/-- CAR_RRCFG (R549). -/
def CAR_RRCFG (f : Nat) : Nat := 0x100000 + 0x10000 * f + 0x28
/-- CAR_RRHEAD (R549). -/
def CAR_RRHEAD (f : Nat) : Nat := 0x100000 + 0x10000 * f + 0x2c
/-- CAR_RRTAIL (R549). -/
def CAR_RRTAIL (f : Nat) : Nat := 0x100000 + 0x10000 * f + 0x30
/-- CAR_BSTAT (R549). -/
def CAR_BSTAT (f : Nat) : Nat := 0x100000 + 0x10000 * f + 0x40
/-- CAR_BOUT (R549). -/
def CAR_BOUT (f : Nat) : Nat := 0x100000 + 0x10000 * f + 0x44
/-- CAR_BCMDS (R549). -/
def CAR_BCMDS (f : Nat) : Nat := 0x100000 + 0x10000 * f + 0x48
/-- CAL_STAT (R568). -/
def CAL_STAT : Nat := 0xE0000
/-- CAL_GEN (R568). -/
def CAL_GEN : Nat := 0xE0000 + 0x4
/-- CAL_ROOT_LO (R568). -/
def CAL_ROOT_LO : Nat := 0xE0000 + 0x8
/-- CAL_ROOT_HI (R568). -/
def CAL_ROOT_HI : Nat := 0xE0000 + 0xc
/-- CAL_ROOTDEV (R568). -/
def CAL_ROOTDEV : Nat := 0xE0000 + 0x10
/-- CAL_HELLOWAIT (R568). -/
def CAL_HELLOWAIT : Nat := 0xE0000 + 0x14
/-- CAL_WAVE (R568). -/
def CAL_WAVE : Nat := 0xE0000 + 0x18
/-- CAL_T1 (R568). -/
def CAL_T1 : Nat := 0xE0000 + 0x20
/-- CAL_T2 (R568). -/
def CAL_T2 : Nat := 0xE0000 + 0x24
/-- CAL_T6 (R568). -/
def CAL_T6 : Nat := 0xE0000 + 0x28
/-- CAL_T8 (R568). -/
def CAL_T8 : Nat := 0xE0000 + 0x2c
/-- CAL_REELECT (R568). -/
def CAL_REELECT : Nat := 0xE0000 + 0x30
/-- CAL_REGPART (R568). -/
def CAL_REGPART (r : Nat) : Nat := 0xE0000 + 0x100 + 0x4 * r
/-- CAL_PORTSTAT (R568). -/
def CAL_PORTSTAT (q : Nat) : Nat := 0xE0000 + 0x200 + 0x4 * q
/-- PWR_STATE (R595). -/
def PWR_STATE : Nat := 0xB0000
/-- PWR_POLICY (R595). -/
def PWR_POLICY : Nat := 0xB0000 + 0x4
/-- PWR_THERM (R595). -/
def PWR_THERM : Nat := 0xB0000 + 0x8
/-- PWR_PLIMIT (R595). -/
def PWR_PLIMIT : Nat := 0xB0000 + 0xc
/-- PWR_GSTAT (R595). -/
def PWR_GSTAT : Nat := 0xB0000 + 0x10
/-- PWR_THROTCNT (R595). -/
def PWR_THROTCNT : Nat := 0xB0000 + 0x14
/-- PWR_AONCTL (R595). -/
def PWR_AONCTL : Nat := 0xB0000 + 0x18
/-- PWR_WAKE (R595). -/
def PWR_WAKE : Nat := 0xB0000 + 0x1c
/-- PWR_RTC_LO (R595). -/
def PWR_RTC_LO : Nat := 0xB0000 + 0x20
/-- PWR_RTC_HI (R595). -/
def PWR_RTC_HI : Nat := 0xB0000 + 0x24
/-- PWR_ALARM_LO (R595). -/
def PWR_ALARM_LO : Nat := 0xB0000 + 0x28
/-- PWR_ALARM_HI (R595). -/
def PWR_ALARM_HI : Nat := 0xB0000 + 0x2c
/-- PWR_NAPCFG (R595). -/
def PWR_NAPCFG : Nat := 0xB0000 + 0x30
/-- PWR_DSTAT (R595). -/
def PWR_DSTAT (d : Nat) : Nat := 0xB0000 + 0x100 + 0x4 * d
/-- PWR_NAPFILE (R595). -/
def PWR_NAPFILE (r : Nat) : Nat := 0xB0000 + 0x300 + 0x4 * r
/-- PWR_VON (R595). -/
def PWR_VON (c w : Nat) : Nat := 0xB0000 + 0x400 + 0x10 * c + 0x4 * w
/-- PWR_VRET (R595). -/
def PWR_VRET (c w : Nat) : Nat := 0xB0000 + 0x800 + 0x10 * c + 0x4 * w
/-- PWR_NAPCNT (R595). -/
def PWR_NAPCNT (q : Nat) : Nat := 0xB0000 + 0xc00 + 0x4 * q
/-- FLT_STAT (R617). -/
def FLT_STAT : Nat := 0xC0000
/-- FLT_CFG (R617). -/
def FLT_CFG : Nat := 0xC0000 + 0x4
/-- FLT_MUTEOUT (R617). -/
def FLT_MUTEOUT : Nat := 0xC0000 + 0x8
/-- FLT_ADDRERR (R617). -/
def FLT_ADDRERR : Nat := 0xC0000 + 0xc
/-- FLT_ALARMSENT (R617). -/
def FLT_ALARMSENT : Nat := 0xC0000 + 0x10
/-- FLT_ALARMMERGE (R617). -/
def FLT_ALARMMERGE : Nat := 0xC0000 + 0x14
/-- FLT_FENCECNT (R617). -/
def FLT_FENCECNT : Nat := 0xC0000 + 0x18
/-- FLT_CHOKEDROP (R617). -/
def FLT_CHOKEDROP : Nat := 0xC0000 + 0x1c
/-- FLT_RESERVE (R617). -/
def FLT_RESERVE : Nat := 0xC0000 + 0x20
/-- FLT_PMUTE (R617). -/
def FLT_PMUTE (p : Nat) : Nat := 0xC0000 + 0x100 + 0x4 * p
/-- FLT_PMUTECNT (R617). -/
def FLT_PMUTECNT (p : Nat) : Nat := 0xC0000 + 0x140 + 0x4 * p
/-- FLT_ACT (R617). -/
def FLT_ACT (k : Nat) : Nat := 0xC0000 + 0x200 + 0x4 * k
/-- FLT_GSAFE (R617). -/
def FLT_GSAFE (i : Nat) : Nat := 0xC0000 + 0x300 + 0x4 * i
/-- FLT_FENCED (R617). -/
def FLT_FENCED (w : Nat) : Nat := 0xC0000 + 0x400 + 0x4 * w
/-- OBS_BUSY_LO (R632). -/
def OBS_BUSY_LO (n e : Nat) : Nat := nBase n + 0x5000 + 0x80 * e
/-- OBS_BUSY_HI (R632). -/
def OBS_BUSY_HI (n e : Nat) : Nat := nBase n + 0x5000 + 0x4 + 0x80 * e
/-- OBS_STALL_LO (R632). -/
def OBS_STALL_LO (n e : Nat) : Nat := nBase n + 0x5000 + 0x8 + 0x80 * e
/-- OBS_STALL_HI (R632). -/
def OBS_STALL_HI (n e : Nat) : Nat := nBase n + 0x5000 + 0xc + 0x80 * e
/-- OBS_IDLE_LO (R632). -/
def OBS_IDLE_LO (n e : Nat) : Nat := nBase n + 0x5000 + 0x10 + 0x80 * e
/-- OBS_IDLE_HI (R632). -/
def OBS_IDLE_HI (n e : Nat) : Nat := nBase n + 0x5000 + 0x14 + 0x80 * e
/-- OBS_STALLNOW (R632). -/
def OBS_STALLNOW (n e : Nat) : Nat := nBase n + 0x5000 + 0x18 + 0x80 * e
/-- OBS_RSN (R632). -/
def OBS_RSN (n e k : Nat) : Nat := nBase n + 0x5000 + 0x40 + 0x80 * e + 0x4 * k
/-- OBS_TCTL (R633). -/
def OBS_TCTL : Nat := 0xD0000
/-- OBS_TSTAT (R633). -/
def OBS_TSTAT : Nat := 0xD0000 + 0x4
/-- OBS_TSRC (R633). -/
def OBS_TSRC : Nat := 0xD0000 + 0x8
/-- OBS_TPMASK (R633). -/
def OBS_TPMASK : Nat := 0xD0000 + 0xc
/-- OBS_TCORE (R633). -/
def OBS_TCORE : Nat := 0xD0000 + 0x10
/-- OBS_TNEURON (R633). -/
def OBS_TNEURON : Nat := 0xD0000 + 0x14
/-- OBS_TSAMPLE (R633). -/
def OBS_TSAMPLE : Nat := 0xD0000 + 0x18
/-- OBS_TCAP (R633). -/
def OBS_TCAP : Nat := 0xD0000 + 0x1c
/-- OBS_TSENT_LO (R633). -/
def OBS_TSENT_LO : Nat := 0xD0000 + 0x20
/-- OBS_TSENT_HI (R633). -/
def OBS_TSENT_HI : Nat := 0xD0000 + 0x24
/-- OBS_TDROP (R633). -/
def OBS_TDROP : Nat := 0xD0000 + 0x28
/-- OBS_TFIFO (R633). -/
def OBS_TFIFO : Nat := 0xD0000 + 0x2c
/-- OBS_TMARK_LO (R633). -/
def OBS_TMARK_LO : Nat := 0xD0000 + 0x40
/-- OBS_TMARK_HI (R633). -/
def OBS_TMARK_HI : Nat := 0xD0000 + 0x44
/-- OBS_TSTALL_LO (R633). -/
def OBS_TSTALL_LO (r : Nat) : Nat := 0xD0000 + 0x1000 + 0x40 * r
/-- OBS_TSTALL_HI (R633). -/
def OBS_TSTALL_HI (r : Nat) : Nat := 0xD0000 + 0x1004 + 0x40 * r
/-- OBS_TIDLE_LO (R633). -/
def OBS_TIDLE_LO (r : Nat) : Nat := 0xD0000 + 0x1008 + 0x40 * r
/-- OBS_TIDLE_HI (R633). -/
def OBS_TIDLE_HI (r : Nat) : Nat := 0xD0000 + 0x100c + 0x40 * r
/-- OBS_SBUSY_LO (R633). -/
def OBS_SBUSY_LO (r : Nat) : Nat := 0xD0000 + 0x1010 + 0x40 * r
/-- OBS_SBUSY_HI (R633). -/
def OBS_SBUSY_HI (r : Nat) : Nat := 0xD0000 + 0x1014 + 0x40 * r
/-- OBS_SSTALL_LO (R633). -/
def OBS_SSTALL_LO (r : Nat) : Nat := 0xD0000 + 0x1018 + 0x40 * r
/-- OBS_SSTALL_HI (R633). -/
def OBS_SSTALL_HI (r : Nat) : Nat := 0xD0000 + 0x101c + 0x40 * r
/-- OBS_SIDLE_LO (R633). -/
def OBS_SIDLE_LO (r : Nat) : Nat := 0xD0000 + 0x1020 + 0x40 * r
/-- OBS_SIDLE_HI (R633). -/
def OBS_SIDLE_HI (r : Nat) : Nat := 0xD0000 + 0x1024 + 0x40 * r
/-- OBS_RSTALLNOW (R633). -/
def OBS_RSTALLNOW (r : Nat) : Nat := 0xD0000 + 0x1028 + 0x40 * r
/-- OBS_PCTL (R633). -/
def OBS_PCTL (p : Nat) : Nat := 0xD0000 + 0x2000 + 0x40 * p
/-- OBS_PSPIKE_LO (R633). -/
def OBS_PSPIKE_LO (p : Nat) : Nat := 0xD0000 + 0x2008 + 0x40 * p
/-- OBS_PSPIKE_HI (R633). -/
def OBS_PSPIKE_HI (p : Nat) : Nat := 0xD0000 + 0x200c + 0x40 * p
/-- OBS_PSYNOP_LO (R633). -/
def OBS_PSYNOP_LO (p : Nat) : Nat := 0xD0000 + 0x2010 + 0x40 * p
/-- OBS_PSYNOP_HI (R633). -/
def OBS_PSYNOP_HI (p : Nat) : Nat := 0xD0000 + 0x2014 + 0x40 * p
/-- OBS_PFILED_LO (R633). -/
def OBS_PFILED_LO (p : Nat) : Nat := 0xD0000 + 0x2018 + 0x40 * p
/-- OBS_PFILED_HI (R633). -/
def OBS_PFILED_HI (p : Nat) : Nat := 0xD0000 + 0x201c + 0x40 * p
/-- OBS_DSPIKE_LO (R633). -/
def OBS_DSPIKE_LO : Nat := 0xD0000 + 0x3000
/-- OBS_DSPIKE_HI (R633). -/
def OBS_DSPIKE_HI : Nat := 0xD0000 + 0x3004
/-- OBS_DSYNOP_LO (R633). -/
def OBS_DSYNOP_LO : Nat := 0xD0000 + 0x3008
/-- OBS_DSYNOP_HI (R633). -/
def OBS_DSYNOP_HI : Nat := 0xD0000 + 0x300c
/-- FAB_DREMAP (R37). -/
def FAB_DREMAP (d n : Nat) : Nat := 0x40000 + 0x10000 * d + 0x400 + 0x4 * n
/-- FAB_REMAP (R37). -/
def FAB_REMAP (r n : Nat) : Nat := slotBase r 0x20 + 0x400 + 0x4 * n
/-- FAB_RUD (R280). -/
def FAB_RUD (r w : Nat) : Nat := slotBase r 0x20 + 0x2000 + 0x4 * w

/-- One row of a register table: offset in its block, the strides and counts of its copies, its reset value,
the masks of its RW, W1C and WO bits (every other bit is RO or
reserved, R11, R12), and whether it is the low half of a 64-bit counter (R15). -/
structure RegRow where
  off   : Nat
  dims  : List (Nat × Nat)
  reset : Nat
  rw    : Nat
  w1c   : Nat
  wo    : Nat
  pair  : Bool
  deriving DecidableEq, Repr

/-- Rows of the tab block. -/
def tabRows : List RegRow :=
  [⟨0x1000, [(0x100, 16)], 0x0, 0x111, 0x0, 0x0, false⟩,
   ⟨0x1004, [(0x100, 16)], 0x9c40, 0x1fffffff, 0x0, 0x0, false⟩,
   ⟨0x1008, [(0x100, 16)], 0xfa0, 0x1fffffff, 0x0, 0x0, false⟩,
   ⟨0x100c, [(0x100, 16)], 0x0, 0x0, 0x3e, 0x0, false⟩,
   ⟨0x1010, [(0x100, 16)], 0x0, 0xffffffff, 0x0, 0x0, true⟩,
   ⟨0x1014, [(0x100, 16)], 0x0, 0xffff, 0x0, 0x0, false⟩,
   ⟨0x1018, [(0x100, 16)], 0x0, 0xffffffff, 0x0, 0x0, true⟩,
   ⟨0x101c, [(0x100, 16)], 0x0, 0xffffffff, 0x0, 0x0, false⟩,
   ⟨0x1020, [(0x100, 16)], 0x0, 0x0, 0x0, 0x0, false⟩,
   ⟨0x1024, [(0x100, 16)], 0x0, 0x0, 0x0, 0x0, false⟩,
   ⟨0x1028, [(0x100, 16)], 0x0, 0x0, 0x0, 0x0, false⟩,
   ⟨0x102c, [(0x100, 16)], 0x0, 0x0, 0x0, 0x0, false⟩,
   ⟨0x1030, [(0x100, 16)], 0x0, 0x0, 0x0, 0x0, false⟩,
   ⟨0x1034, [(0x100, 16)], 0x0, 0x0, 0x0, 0x0, false⟩,
   ⟨0x1038, [(0x100, 16)], 0x0, 0x0, 0x0, 0x0, false⟩,
   ⟨0x103c, [(0x100, 16)], 0x0, 0x0, 0x0, 0x0, false⟩,
   ⟨0x1040, [(0x100, 16)], 0x1, 0x1ff03ff, 0x0, 0x0, false⟩,
   ⟨0x1044, [(0x100, 16)], 0x0, 0x0, 0x0, 0x7, false⟩,
   ⟨0x2000, [(0x40, 16)], 0x0, 0x3ffffff, 0x0, 0x0, false⟩,
   ⟨0x2004, [(0x40, 16)], 0x0, 0x0, 0x0, 0x0, false⟩] ++
  [⟨0x800, [], 0x0, 0x17, 0x0, 0x10000, false⟩,
   ⟨0x804, [], 0x0, 0x0, 0x0, 0x0, false⟩,
   ⟨0x808, [], 0x0, 0x0, 0x0, 0x0, false⟩,
   ⟨0x80c, [], 0x0, 0x0, 0x0, 0x0, false⟩,
   ⟨0x810, [], 0x0, 0xffffffff, 0x0, 0x0, false⟩,
   ⟨0x814, [], 0x0, 0xffffffff, 0x0, 0x0, false⟩,
   ⟨0x0, [], 0x0, 0x0, 0x0, 0x0, true⟩,
   ⟨0x4, [], 0x0, 0x0, 0x0, 0x0, false⟩,
   ⟨0x8, [], 0x0, 0x0, 0x0, 0xffffffff, false⟩,
   ⟨0xc, [], 0x0, 0x0, 0x0, 0xffffffff, false⟩,
   ⟨0x10, [], 0x0, 0x0, 0x1, 0x0, false⟩,
   ⟨0x100, [(0x40, 16)], 0x0, 0xf0ff03ff, 0x0, 0x0, false⟩,
   ⟨0x104, [(0x40, 16)], 0x0, 0x0, 0x0, 0x3, false⟩,
   ⟨0x108, [(0x40, 16)], 0x0, 0x0, 0x0, 0x0, false⟩,
   ⟨0x10c, [(0x40, 16)], 0xffffffff, 0xffffffff, 0x0, 0x0, false⟩,
   ⟨0x110, [(0x40, 16)], 0xffffffff, 0xffffffff, 0x0, 0x0, false⟩,
   ⟨0x114, [(0x40, 16)], 0xffffffff, 0xffffffff, 0x0, 0x0, false⟩,
   ⟨0x118, [(0x40, 16)], 0x0, 0x0, 0x0, 0x0, false⟩,
   ⟨0x11c, [(0x40, 16)], 0x0, 0x0, 0xfe, 0x0, false⟩,
   ⟨0x120, [(0x40, 16)], 0x0, 0x0, 0x0, 0x0, false⟩] ++
  [⟨0x124, [(0x40, 16)], 0x0, 0x0, 0x0, 0x0, false⟩,
   ⟨0x128, [(0x40, 16)], 0x0, 0x0, 0x0, 0x0, false⟩]
/-- Rows of the neu block. -/
def neuRows : List RegRow :=
  [⟨0x0, [], 0x0, 0xffff, 0x0, 0x0, false⟩,
   ⟨0x4, [], 0x0, 0x0, 0xf0, 0x0, false⟩,
   ⟨0x8, [], 0x0, 0x0, 0x0, 0x0, true⟩,
   ⟨0xc, [], 0x0, 0x0, 0x0, 0x0, false⟩,
   ⟨0x10, [], 0x0, 0x0, 0x0, 0x0, true⟩,
   ⟨0x14, [], 0x0, 0x0, 0x0, 0x0, false⟩,
   ⟨0x18, [], 0x0, 0x0, 0x0, 0x0, false⟩,
   ⟨0x1c, [], 0x0, 0x0, 0x0, 0x0, false⟩,
   ⟨0x20, [], 0x0, 0x0, 0x0, 0x0, false⟩,
   ⟨0x24, [], 0x0, 0x0, 0x0, 0x0, false⟩,
   ⟨0x28, [], 0x0, 0x0, 0x0, 0x0, false⟩,
   ⟨0x2c, [], 0x0, 0x0, 0x0, 0x0, false⟩,
   ⟨0x30, [], 0x0, 0x0, 0x0, 0x0, false⟩,
   ⟨0x34, [], 0x0, 0x0, 0x0, 0x0, false⟩,
   ⟨0x38, [], 0x0, 0x0, 0x0, 0x0, false⟩,
   ⟨0x40, [], 0x0, 0x0, 0x0, 0x0, false⟩,
   ⟨0x44, [], 0x0, 0x0, 0x0, 0x0, false⟩]
/-- Rows of the syn block. -/
def synRows : List RegRow :=
  [⟨0x0, [], 0x0, 0x0, 0x1b0, 0x0, false⟩,
   ⟨0x4, [], 0x400, 0x0, 0x0, 0x0, false⟩,
   ⟨0x8, [], 0x704, 0x0, 0x0, 0x0, false⟩,
   ⟨0xc, [], 0x10b, 0x0, 0x0, 0x0, false⟩,
   ⟨0x10, [], 0x40c, 0x0, 0x0, 0x0, false⟩,
   ⟨0x14, [], 0x2010, 0x0, 0x0, 0x0, false⟩,
   ⟨0x18, [], 0x7, 0x0, 0x0, 0x0, false⟩,
   ⟨0x1c, [], 0x3800, 0x0, 0x0, 0x0, false⟩,
   ⟨0x20, [], 0x0, 0x0, 0x0, 0x0, false⟩,
   ⟨0x24, [], 0x0, 0x0, 0x0, 0x0, false⟩,
   ⟨0xc0, [], 0x0, 0x0, 0x0, 0x0, true⟩,
   ⟨0xc4, [], 0x0, 0x0, 0x0, 0x0, false⟩,
   ⟨0xc8, [], 0x0, 0x0, 0x0, 0x0, true⟩,
   ⟨0xcc, [], 0x0, 0x0, 0x0, 0x0, false⟩,
   ⟨0xd0, [], 0x0, 0x0, 0x0, 0x0, false⟩,
   ⟨0xd4, [], 0x0, 0x0, 0x0, 0x0, false⟩,
   ⟨0xd8, [], 0x0, 0x0, 0x0, 0x0, false⟩,
   ⟨0xdc, [], 0x0, 0x0, 0x0, 0x0, false⟩,
   ⟨0xe0, [], 0x0, 0x0, 0x0, 0x0, false⟩,
   ⟨0xe4, [], 0x0, 0x0, 0x0, 0x0, false⟩] ++
  [⟨0xe8, [], 0x0, 0x0, 0x0, 0x0, false⟩,
   ⟨0xec, [], 0x0, 0x0, 0x0, 0x0, false⟩,
   ⟨0xf0, [], 0x0, 0x0, 0x0, 0x0, false⟩,
   ⟨0xf4, [], 0x0, 0x0, 0x0, 0x0, false⟩,
   ⟨0xf8, [], 0x0, 0x0, 0x0, 0x0, false⟩,
   ⟨0xfc, [], 0x0, 0x0, 0x0, 0x0, false⟩,
   ⟨0x40, [], 0x80002010, 0x0, 0x0, 0x0, false⟩,
   ⟨0x40, [(0x10, 8)], 0x0, 0x0, 0x0, 0x0, false⟩,
   ⟨0x44, [], 0xcccc, 0x0, 0x0, 0x0, false⟩,
   ⟨0x44, [(0x10, 8)], 0x0, 0x0, 0x0, 0x0, false⟩,
   ⟨0x48, [], 0xb333, 0x0, 0x0, 0x0, false⟩,
   ⟨0x48, [(0x10, 8)], 0x0, 0x0, 0x0, 0x0, false⟩,
   ⟨0x100, [(0x4, 64)], 0x0, 0x0, 0x0, 0x0, false⟩,
   ⟨0x200, [], 0x0, 0x0, 0x0, 0x0, false⟩]
/-- Rows of the axn block. -/
def axnRows : List RegRow :=
  [⟨0x0, [], 0x0, 0x0, 0xe, 0x0, false⟩,
   ⟨0x8, [], 0x0, 0x0, 0x0, 0x0, true⟩,
   ⟨0xc, [], 0x0, 0x0, 0x0, 0x0, false⟩,
   ⟨0x10, [], 0x0, 0x0, 0x0, 0x0, false⟩,
   ⟨0x14, [], 0x0, 0x0, 0x0, 0x0, false⟩,
   ⟨0x18, [], 0x0, 0x0, 0x0, 0x0, false⟩,
   ⟨0x1c, [], 0x0, 0x0, 0x0, 0x0, false⟩,
   ⟨0x20, [], 0x0, 0x0, 0x0, 0x0, false⟩,
   ⟨0x100, [(0x8, 16)], 0x0, 0x0, 0x0, 0x0, false⟩,
   ⟨0x104, [(0x8, 16)], 0x0, 0x0, 0x0, 0x0, false⟩,
   ⟨0x180, [(0x4, 16)], 0x0, 0x0, 0x0, 0x0, false⟩,
   ⟨0x200, [(0x4, 128)], 0x0, 0x0, 0x0, 0x0, false⟩,
   ⟨0x8000, [(0x40, 16)], 0x0, 0xfffff000, 0x0, 0x0, false⟩,
   ⟨0x8004, [(0x40, 16)], 0x0, 0xffffffff, 0x0, 0x0, false⟩,
   ⟨0x8008, [(0x40, 16)], 0xc, 0x8000001f, 0x0, 0x0, false⟩,
   ⟨0x800c, [(0x40, 16)], 0x0, 0x0, 0x0, 0x0, false⟩,
   ⟨0x8010, [(0x40, 16)], 0x0, 0xffffffff, 0x0, 0x0, false⟩,
   ⟨0x8014, [(0x40, 16)], 0x0, 0x0, 0x0, 0x0, false⟩,
   ⟨0x8020, [(0x40, 16)], 0x0, 0xfffff000, 0x0, 0x0, false⟩,
   ⟨0x8024, [(0x40, 16)], 0x0, 0xffffffff, 0x0, 0x0, false⟩] ++
  [⟨0x8028, [(0x40, 16)], 0xc, 0x8000001f, 0x0, 0x0, false⟩,
   ⟨0x802c, [(0x40, 16)], 0x0, 0x0, 0x0, 0x0, false⟩,
   ⟨0x8030, [(0x40, 16)], 0x0, 0xffffffff, 0x0, 0x0, false⟩,
   ⟨0x8034, [(0x40, 16)], 0x0, 0x0, 0x0, 0x0, false⟩]
/-- Rows of the almn block. -/
def almnRows : List RegRow :=
  [⟨0x0, [], 0x0, 0x0, 0xc, 0x0, false⟩,
   ⟨0x4, [], 0x200, 0x0, 0x0, 0x0, false⟩,
   ⟨0x8, [], 0x0, 0x0, 0x0, 0x0, false⟩,
   ⟨0x10, [], 0x0, 0x0, 0x0, 0x0, true⟩,
   ⟨0x14, [], 0x0, 0x0, 0x0, 0x0, false⟩,
   ⟨0x18, [], 0x0, 0x0, 0x0, 0x0, false⟩,
   ⟨0x1c, [], 0x0, 0x0, 0x0, 0x0, false⟩,
   ⟨0x20, [], 0x0, 0x0, 0x0, 0x0, false⟩,
   ⟨0x100, [(0x4, 64)], 0x0, 0x0, 0x0, 0x0, false⟩]
/-- Rows of the almf block. -/
def almfRows : List RegRow :=
  [⟨0x0, [], 0x0, 0x0, 0x0, 0x0, false⟩,
   ⟨0x4, [], 0x0, 0x1, 0x0, 0x0, false⟩,
   ⟨0x8, [], 0x0, 0x0, 0x2, 0x0, false⟩,
   ⟨0xc, [], 0x0, 0x0, 0x0, 0x0, false⟩,
   ⟨0x10, [], 0x0, 0x0, 0x0, 0x0, false⟩,
   ⟨0x14, [], 0x0, 0x0, 0x0, 0x0, false⟩,
   ⟨0x18, [], 0x0, 0x0, 0x0, 0x0, false⟩,
   ⟨0x1c, [], 0x0, 0x0, 0x0, 0x0, false⟩]
/-- Rows of the axr block. -/
def axrRows : List RegRow :=
  [⟨0x0, [], 0x0, 0x0, 0x0, 0x0, false⟩,
   ⟨0x4, [], 0x0, 0x0, 0x6, 0x0, false⟩,
   ⟨0x8, [], 0x0, 0x0, 0x0, 0x0, false⟩,
   ⟨0xc, [], 0x0, 0x0, 0x0, 0x0, false⟩,
   ⟨0x10, [], 0x0, 0x0, 0x0, 0x0, false⟩,
   ⟨0x14, [], 0x0, 0x0, 0x0, 0x0, false⟩]
/-- Rows of the fab block. -/
def fabRows : List RegRow :=
  [⟨0x0, [], 0x10000000, 0x3f000000, 0x0, 0x0, false⟩,
   ⟨0x4, [], 0x0, 0x0, 0x6, 0x0, false⟩,
   ⟨0x8, [], 0x0, 0x0, 0x0, 0x0, false⟩,
   ⟨0xc, [], 0x0, 0x0, 0x0, 0x0, false⟩,
   ⟨0x10, [], 0x0, 0x0, 0x0, 0x0, false⟩,
   ⟨0x14, [], 0x64, 0xffff, 0x0, 0x0, false⟩,
   ⟨0x18, [], 0x0, 0x0, 0x0, 0x0, false⟩,
   ⟨0x1c, [], 0x0, 0x0, 0x0, 0x0, false⟩,
   ⟨0x20, [], 0x0, 0x0, 0x0, 0x0, false⟩,
   ⟨0x24, [], 0x0, 0x0, 0x0, 0x0, false⟩,
   ⟨0x28, [], 0x0, 0x0, 0x0, 0x0, false⟩,
   ⟨0x2c, [], 0x0, 0x0, 0x0, 0x0, false⟩,
   ⟨0x30, [], 0x0, 0x0, 0x0, 0x0, false⟩,
   ⟨0x34, [], 0x0, 0x0, 0x0, 0x0, false⟩,
   ⟨0x38, [], 0x0, 0x0, 0x0, 0x0, false⟩,
   ⟨0x40, [], 0x0, 0x0, 0x0, 0x0, true⟩,
   ⟨0x44, [], 0x0, 0x0, 0x0, 0x0, false⟩,
   ⟨0x1000, [(0x100, 4)], 0x0, 0x1, 0x0, 0xc, false⟩,
   ⟨0x1004, [(0x100, 4)], 0x0, 0x0, 0x400, 0x0, false⟩,
   ⟨0x1008, [(0x100, 4)], 0x0, 0x0, 0x0, 0x0, false⟩] ++
  [⟨0x100c, [(0x100, 4)], 0x3e80010, 0xffffffff, 0x0, 0x0, false⟩,
   ⟨0x1010, [(0x100, 4)], 0x0, 0x0, 0x0, 0x0, true⟩,
   ⟨0x1014, [(0x100, 4)], 0x0, 0x0, 0x0, 0x0, false⟩,
   ⟨0x1018, [(0x100, 4)], 0x0, 0x0, 0x0, 0x0, true⟩,
   ⟨0x101c, [(0x100, 4)], 0x0, 0x0, 0x0, 0x0, false⟩,
   ⟨0x1020, [(0x100, 4)], 0x0, 0x0, 0x0, 0x0, true⟩,
   ⟨0x1024, [(0x100, 4)], 0x0, 0x0, 0x0, 0x0, false⟩,
   ⟨0x1028, [(0x100, 4)], 0x0, 0x0, 0x0, 0x0, false⟩,
   ⟨0x102c, [(0x100, 4)], 0x0, 0x0, 0x0, 0x0, false⟩,
   ⟨0x1030, [(0x100, 4)], 0x0, 0x0, 0x0, 0x0, false⟩,
   ⟨0x1034, [(0x100, 4)], 0x0, 0x0, 0x0, 0x0, false⟩,
   ⟨0x400, [(0x4, 256)], 0x0, 0x0, 0x0, 0x0, false⟩]
/-- Rows of the rfab block. -/
def rfabRows : List RegRow :=
  [⟨0x0, [], 0x0, 0x0, 0x0, 0x0, false⟩,
   ⟨0x4, [], 0x0, 0x0, 0x0, 0x0, false⟩,
   ⟨0x8, [], 0x0, 0x0, 0x0, 0x0, false⟩,
   ⟨0x100, [], 0x0, 0x0, 0x0, 0x0, false⟩,
   ⟨0x104, [], 0x0, 0x0, 0x7, 0x0, false⟩,
   ⟨0x108, [], 0x0, 0xfff, 0x0, 0x0, false⟩,
   ⟨0x10c, [], 0x0, 0xfff, 0x0, 0x0, false⟩,
   ⟨0x110, [], 0x0, 0x0, 0x0, 0x0, false⟩,
   ⟨0x114, [], 0x0, 0x0, 0x0, 0x0, false⟩,
   ⟨0x400, [(0x4, 256)], 0x0, 0x0, 0x0, 0x0, false⟩,
   ⟨0x2000, [(0x4, 2048)], 0x0, 0x0, 0x0, 0x0, false⟩]
/-- Rows of the tun block. -/
def tunRows : List RegRow :=
  [⟨0x0, [], 0xca120000, 0xffff0001, 0x0, 0x0, false⟩,
   ⟨0x4, [], 0x0, 0x0, 0xf, 0x0, false⟩,
   ⟨0x8, [], 0xfff05dc, 0xfff3fff, 0x0, 0x0, false⟩,
   ⟨0xc, [], 0x40000400, 0xff00ffff, 0x0, 0x0, false⟩,
   ⟨0x40, [], 0x0, 0x0, 0x0, 0x0, true⟩,
   ⟨0x44, [], 0x0, 0x0, 0x0, 0x0, false⟩,
   ⟨0x48, [], 0x0, 0x0, 0x0, 0x0, true⟩,
   ⟨0x4c, [], 0x0, 0x0, 0x0, 0x0, false⟩,
   ⟨0x50, [], 0x0, 0x0, 0x0, 0x0, false⟩,
   ⟨0x54, [], 0x0, 0x0, 0x0, 0x0, false⟩,
   ⟨0x58, [], 0x0, 0x0, 0x0, 0x0, false⟩,
   ⟨0x5c, [], 0x0, 0x0, 0x0, 0x0, false⟩,
   ⟨0x60, [], 0x0, 0x0, 0x0, 0x0, false⟩,
   ⟨0x64, [], 0x0, 0x0, 0x0, 0x0, false⟩,
   ⟨0x68, [], 0x0, 0x0, 0x0, 0x0, false⟩,
   ⟨0x6c, [], 0x0, 0x0, 0x0, 0x0, false⟩,
   ⟨0x70, [], 0x0, 0x0, 0x0, 0x0, false⟩,
   ⟨0x74, [], 0x0, 0x0, 0x0, 0x0, false⟩,
   ⟨0x78, [], 0x0, 0x0, 0x0, 0x0, false⟩,
   ⟨0x7c, [], 0x0, 0x0, 0x0, 0x0, false⟩] ++
  [⟨0x80, [], 0x0, 0x0, 0x0, 0x0, false⟩,
   ⟨0x84, [], 0x0, 0x0, 0x0, 0x0, false⟩,
   ⟨0x88, [], 0x0, 0x0, 0x0, 0x0, false⟩,
   ⟨0x100, [(0x80, 2)], 0x0, 0x0, 0x0, 0x0, false⟩,
   ⟨0x104, [(0x80, 2)], 0x0, 0x0, 0x0, 0x0, false⟩,
   ⟨0x108, [(0x80, 2)], 0x0, 0x0, 0x0, 0x0, false⟩,
   ⟨0x10c, [(0x80, 2)], 0x0, 0x0, 0x0, 0x0, false⟩,
   ⟨0x110, [(0x80, 2)], 0x0, 0x0, 0x0, 0x0, false⟩,
   ⟨0x120, [(0x80, 2)], 0x0, 0x0, 0x0, 0x0, false⟩,
   ⟨0x124, [(0x80, 2)], 0x0, 0x0, 0x0, 0x0, false⟩,
   ⟨0x128, [(0x80, 2)], 0x0, 0x0, 0x0, 0x0, false⟩,
   ⟨0x12c, [(0x80, 2)], 0x0, 0x0, 0x0, 0x0, false⟩,
   ⟨0x130, [(0x80, 2)], 0x0, 0xffffffff, 0x0, 0x0, false⟩,
   ⟨0x138, [(0x80, 2)], 0x0, 0x0, 0x0, 0x0, false⟩,
   ⟨0x13c, [(0x80, 2)], 0x0, 0x0, 0x0, 0x0, false⟩,
   ⟨0x200, [], 0x188000, 0x0, 0x0, 0x0, false⟩,
   ⟨0x204, [], 0x0, 0x0, 0x0, 0x0, false⟩,
   ⟨0x208, [], 0x0, 0x0, 0x0, 0x0, false⟩,
   ⟨0x20c, [], 0x0, 0x0, 0x0, 0x0, false⟩,
   ⟨0x210, [], 0x0, 0x0, 0x0, 0x0, false⟩] ++
  [⟨0x214, [], 0x0, 0x0, 0x0, 0x0, false⟩]
/-- Rows of the hrv block. -/
def hrvRows : List RegRow :=
  [⟨0x0, [], 0x0, 0xd, 0x0, 0x0, false⟩,
   ⟨0x4, [], 0x0, 0x0, 0x1f0, 0x0, false⟩,
   ⟨0x8, [], 0x3e8, 0xffff, 0x0, 0x0, false⟩,
   ⟨0xc, [], 0x100, 0xffff, 0x0, 0x0, false⟩,
   ⟨0x10, [], 0x800, 0xffffff, 0x0, 0x0, false⟩,
   ⟨0x14, [], 0x0, 0x0, 0x0, 0x0, false⟩,
   ⟨0x18, [], 0x0, 0x0, 0x0, 0x0, false⟩,
   ⟨0x1c, [], 0x0, 0xffff80ff, 0x0, 0x0, false⟩,
   ⟨0x20, [], 0x0, 0x0, 0x0, 0x0, false⟩,
   ⟨0x24, [], 0x1, 0xffffffff, 0x0, 0x0, false⟩,
   ⟨0x28, [], 0x0, 0x0, 0x0, 0x0, false⟩,
   ⟨0x2c, [], 0x0, 0x0, 0x0, 0x0, false⟩,
   ⟨0x30, [], 0x0, 0x0, 0x0, 0x0, false⟩,
   ⟨0x34, [], 0x0, 0x0, 0x0, 0x0, false⟩,
   ⟨0x38, [], 0x0, 0x0, 0x0, 0x0, false⟩,
   ⟨0x40, [], 0x0, 0x0, 0x0, 0x0, true⟩,
   ⟨0x44, [], 0x0, 0x0, 0x0, 0x0, false⟩,
   ⟨0x48, [], 0x0, 0x0, 0x0, 0x0, true⟩,
   ⟨0x4c, [], 0x0, 0x0, 0x0, 0x0, false⟩,
   ⟨0x50, [], 0x0, 0x0, 0x0, 0x0, true⟩] ++
  [⟨0x54, [], 0x0, 0x0, 0x0, 0x0, false⟩,
   ⟨0x58, [], 0x0, 0x0, 0x0, 0x0, false⟩,
   ⟨0x5c, [], 0x0, 0x0, 0x0, 0x0, false⟩,
   ⟨0x60, [], 0x0, 0x0, 0x0, 0x0, false⟩,
   ⟨0x64, [], 0x0, 0x0, 0x0, 0x0, false⟩,
   ⟨0x68, [], 0x0, 0x0, 0x0, 0x0, false⟩,
   ⟨0x6c, [], 0x0, 0x0, 0x0, 0x0, false⟩,
   ⟨0x70, [], 0x0, 0x0, 0x0, 0x0, false⟩]
/-- Rows of the tcr block. -/
def tcrRows : List RegRow :=
  [⟨0x0, [], 0x0, 0x9, 0x0, 0x2, false⟩,
   ⟨0x4, [], 0x0, 0x0, 0x7e0, 0x0, false⟩,
   ⟨0x8, [], 0x0, 0x0, 0x0, 0x0, false⟩,
   ⟨0xc, [], 0x1, 0xffffffff, 0x0, 0x0, false⟩,
   ⟨0x10, [], 0x0, 0x0, 0x0, 0x0, false⟩,
   ⟨0x14, [], 0x0, 0x7fff, 0x0, 0x0, false⟩,
   ⟨0x18, [], 0x0, 0x7fff, 0x0, 0x0, false⟩,
   ⟨0x1c, [], 0x8000, 0xffff, 0x0, 0x0, false⟩,
   ⟨0x20, [], 0x0, 0x0, 0x0, 0x0, false⟩,
   ⟨0x24, [], 0x0, 0x0, 0x0, 0x0, false⟩,
   ⟨0x28, [], 0x0, 0x0, 0x0, 0x0, true⟩,
   ⟨0x2c, [], 0x0, 0x0, 0x0, 0x0, false⟩,
   ⟨0x30, [], 0x0, 0x0, 0x0, 0x0, true⟩,
   ⟨0x34, [], 0x0, 0x0, 0x0, 0x0, false⟩,
   ⟨0x38, [], 0x0, 0x0, 0x0, 0x0, false⟩,
   ⟨0x3c, [], 0x0, 0x0, 0x0, 0x0, false⟩,
   ⟨0x40, [], 0x0, 0x0, 0x0, 0x0, false⟩,
   ⟨0x44, [], 0x0, 0x0, 0x0, 0x0, false⟩,
   ⟨0x48, [], 0x0, 0x0, 0x0, 0x0, false⟩,
   ⟨0x4c, [], 0x0, 0x0, 0x0, 0x0, false⟩] ++
  [⟨0x50, [], 0x0, 0x0, 0x0, 0x0, false⟩,
   ⟨0x54, [], 0x0, 0x0, 0x0, 0x0, false⟩,
   ⟨0x100, [(0x4, 16)], 0x0, 0x0, 0x0, 0xffffffff, false⟩]
/-- Rows of the seq block. -/
def seqRows : List RegRow :=
  [⟨0x0, [], 0x0, 0x0, 0x0, 0x7, false⟩,
   ⟨0x4, [], 0x0, 0x0, 0x0, 0x0, false⟩,
   ⟨0x8, [], 0x0, 0xfff, 0x0, 0x0, false⟩,
   ⟨0xc, [], 0x0, 0x0, 0x0, 0x0, false⟩,
   ⟨0x10, [], 0x0, 0x0, 0x0, 0x0, false⟩,
   ⟨0x14, [], 0x0, 0x0, 0x0, 0x0, false⟩,
   ⟨0x18, [], 0x0, 0x0, 0xff, 0x0, false⟩,
   ⟨0x1c, [], 0x0, 0x0, 0x0, 0x0, false⟩,
   ⟨0x20, [], 0x0, 0x0, 0x0, 0x0, true⟩,
   ⟨0x24, [], 0x0, 0x0, 0x0, 0x0, false⟩,
   ⟨0x40, [(0x4, 8)], 0x0, 0x0, 0x0, 0x0, false⟩,
   ⟨0x100, [(0x8, 16)], 0x0, 0xffffffff, 0x0, 0x0, false⟩,
   ⟨0x104, [(0x8, 16)], 0x0, 0xffffffff, 0x0, 0x0, false⟩]
/-- Rows of the que block. -/
def queRows : List RegRow :=
  [⟨0x0, [(0x10, 32)], 0x0, 0x8, 0x0, 0x7, false⟩,
   ⟨0x4, [(0x10, 32)], 0x10000, 0x0, 0x0, 0x0, false⟩,
   ⟨0x8, [(0x10, 32)], 0x0, 0x0, 0x0, 0x0, false⟩,
   ⟨0xc, [(0x10, 32)], 0x0, 0x0, 0x0, 0x0, false⟩,
   ⟨0x400, [(0x10, 8)], 0x1, 0x9f00ffff, 0x0, 0x40000000, false⟩,
   ⟨0x404, [(0x10, 8)], 0x0, 0x0, 0x10000, 0x0, false⟩,
   ⟨0x408, [(0x10, 8)], 0x0, 0x0, 0x0, 0x0, false⟩,
   ⟨0x40c, [(0x10, 8)], 0x0, 0x0, 0x0, 0x0, false⟩,
   ⟨0x500, [], 0x40, 0xfffff, 0x0, 0x0, false⟩,
   ⟨0x504, [], 0x0, 0x0, 0x0, 0x0, false⟩]
/-- Rows of the cmn block. -/
def cmnRows : List RegRow :=
  [⟨0x3c, [], 0x51, 0xff, 0x0, 0x0, false⟩,
   ⟨0x0, [(0x4, 16)], 0x1, 0xf, 0x0, 0x0, false⟩,
   ⟨0x40, [(0x4, 16)], 0x0, 0x0, 0x0, 0x0, false⟩,
   ⟨0x80, [(0x4, 16)], 0x0, 0x0, 0x0, 0x0, false⟩,
   ⟨0xc0, [], 0x0, 0x0, 0xf, 0x0, false⟩,
   ⟨0xc4, [], 0x0, 0x0, 0x0, 0x0, false⟩,
   ⟨0xc8, [], 0x0, 0x0, 0x0, 0x0, false⟩,
   ⟨0xcc, [], 0x0, 0x0, 0x0, 0x0, false⟩]
/-- Rows of the mem block. -/
def memRows : List RegRow :=
  [⟨0x0, [], 0x0, 0x0, 0x0, 0x0, false⟩,
   ⟨0x4, [], 0x0, 0x0, 0x38, 0x0, false⟩,
   ⟨0x8, [], 0x0, 0x0, 0x0, 0x0, false⟩,
   ⟨0xc, [], 0x0, 0x0, 0x0, 0x0, false⟩,
   ⟨0x10, [], 0x80000018, 0x800000ff, 0x0, 0x0, false⟩,
   ⟨0x14, [], 0x0, 0x0, 0x0, 0x0, false⟩,
   ⟨0x18, [], 0x0, 0x0, 0x0, 0x0, false⟩,
   ⟨0x100, [(0x40, 4)], 0x0, 0x0, 0x0, 0x0, false⟩,
   ⟨0x104, [(0x40, 4)], 0x0, 0x0, 0x0, 0x0, false⟩,
   ⟨0x108, [(0x40, 4)], 0x0, 0x0, 0x0, 0x0, false⟩,
   ⟨0x10c, [(0x40, 4)], 0x0, 0x0, 0x0, 0x0, false⟩,
   ⟨0x110, [(0x40, 4)], 0x0, 0x0, 0x0, 0x0, false⟩,
   ⟨0x114, [(0x40, 4)], 0x0, 0x0, 0x0, 0x0, false⟩,
   ⟨0x118, [(0x40, 4)], 0x0, 0x0, 0x0, 0x0, false⟩,
   ⟨0x120, [(0x40, 4)], 0x0, 0x0, 0x0, 0x0, true⟩,
   ⟨0x124, [(0x40, 4)], 0x0, 0x0, 0x0, 0x0, false⟩,
   ⟨0x128, [(0x40, 4)], 0x0, 0x0, 0x0, 0x0, true⟩,
   ⟨0x12c, [(0x40, 4)], 0x0, 0x0, 0x0, 0x0, false⟩,
   ⟨0x8000, [(0x20, 16), (0x8, 4)], 0x0, 0x0, 0x0, 0x0, false⟩,
   ⟨0x8004, [(0x20, 16), (0x8, 4)], 0x0, 0x0, 0x0, 0x0, false⟩]
/-- Rows of the pci block. -/
def pciRows : List RegRow :=
  [⟨0x0, [], 0x0, 0x0, 0x0, 0x0, false⟩,
   ⟨0x4, [], 0x0, 0x0, 0x1e, 0x0, false⟩,
   ⟨0x8, [], 0x0, 0x0, 0x0, 0x0, false⟩,
   ⟨0xc, [], 0x0, 0x0, 0x0, 0x0, false⟩,
   ⟨0x10, [], 0x0, 0x0, 0x0, 0x0, false⟩,
   ⟨0x14, [], 0x0, 0x0, 0x0, 0x0, false⟩,
   ⟨0x100, [(0x4, 16)], 0x0, 0x3ff, 0x0, 0x0, false⟩,
   ⟨0x1000, [(0x40, 32)], 0x0, 0xffffffe0, 0x0, 0x0, false⟩,
   ⟨0x1004, [(0x40, 32)], 0x0, 0xffffffff, 0x0, 0x0, false⟩,
   ⟨0x1008, [(0x40, 32)], 0xc, 0x8000001f, 0x0, 0x0, false⟩,
   ⟨0x100c, [(0x40, 32)], 0x0, 0x0, 0x0, 0x0, false⟩,
   ⟨0x1010, [(0x40, 32)], 0x0, 0xffffffff, 0x0, 0x0, false⟩,
   ⟨0x1014, [(0x40, 32)], 0x0, 0x0, 0x4, 0x0, false⟩,
   ⟨0x1018, [(0x40, 32)], 0x0, 0x0, 0x0, 0x0, true⟩,
   ⟨0x101c, [(0x40, 32)], 0x0, 0x0, 0x0, 0x0, false⟩,
   ⟨0x1020, [(0x40, 32)], 0x0, 0x0, 0x0, 0x0, false⟩,
   ⟨0x2000, [(0x40, 16), (0x4, 16)], 0x0, 0x8003ffff, 0x0, 0x0, false⟩,
   ⟨0x3000, [(0x10, 16), (0x4, 2)], 0x0, 0xc00f0fff, 0x0, 0x0, false⟩]
/-- Rows of the toc block. -/
def tocRows : List RegRow :=
  [⟨0x0, [], 0x0, 0x33, 0x0, 0x0, false⟩,
   ⟨0x4, [], 0x0, 0x0, 0xc, 0x0, false⟩,
   ⟨0x8, [], 0x0, 0xffffffff, 0x0, 0x0, false⟩,
   ⟨0xc, [], 0xffffffff, 0xffffffff, 0x0, 0x0, false⟩,
   ⟨0x10, [], 0x0, 0x0, 0xffffffff, 0x0, false⟩,
   ⟨0x14, [], 0x0, 0x0, 0x0, 0x0, false⟩,
   ⟨0x18, [], 0x0, 0x0, 0x0, 0x1, false⟩,
   ⟨0x1c, [], 0x0, 0x0, 0x0, 0x0, false⟩,
   ⟨0x20, [], 0x0, 0x0, 0x0, 0x0, false⟩,
   ⟨0x24, [], 0x0, 0x0, 0x0, 0x0, false⟩,
   ⟨0x100, [(0x4, 32)], 0x0, 0x3f74, 0x0, 0x0, false⟩]
/-- Rows of the car block. -/
def carRows : List RegRow :=
  [⟨0x0, [], 0x0, 0x0, 0x2, 0x0, false⟩,
   ⟨0x4, [], 0x0, 0x0, 0x0, 0x0, false⟩,
   ⟨0x8, [], 0x0, 0x0, 0x0, 0x0, false⟩,
   ⟨0xc, [], 0x0, 0x0, 0x0, 0x0, false⟩,
   ⟨0x10, [], 0x0, 0x0, 0x0, 0x0, false⟩,
   ⟨0x14, [], 0x0, 0x0, 0x0, 0x0, false⟩,
   ⟨0x18, [], 0x0, 0x0, 0x0, 0x0, false⟩,
   ⟨0x20, [], 0x0, 0x0, 0x0, 0x0, false⟩,
   ⟨0x24, [], 0x0, 0x0, 0x0, 0x0, false⟩,
   ⟨0x28, [], 0x0, 0x0, 0x0, 0x0, false⟩,
   ⟨0x2c, [], 0x0, 0x0, 0x0, 0x0, false⟩,
   ⟨0x30, [], 0x0, 0x0, 0x0, 0x0, false⟩,
   ⟨0x34, [], 0x0, 0x0, 0x0, 0x0, false⟩,
   ⟨0x38, [], 0x0, 0x0, 0x0, 0x0, false⟩,
   ⟨0x100, [(0x4, 104)], 0x0, 0x0, 0x0, 0x0, false⟩,
   ⟨0x300, [], 0x0, 0x0, 0x0, 0x0, false⟩,
   ⟨0x304, [], 0x0, 0x0, 0x0, 0x0, false⟩]
/-- Rows of the door block. -/
def doorRows : List RegRow :=
  [⟨0x0, [], 0x0, 0xfffff000, 0x0, 0x0, false⟩,
   ⟨0x4, [], 0x0, 0xffffffff, 0x0, 0x0, false⟩,
   ⟨0x8, [], 0xc, 0x8000001f, 0x0, 0x0, false⟩,
   ⟨0xc, [], 0x0, 0x0, 0x0, 0x0, false⟩,
   ⟨0x10, [], 0x0, 0xffffffff, 0x0, 0x0, false⟩,
   ⟨0x20, [], 0x0, 0xfffff000, 0x0, 0x0, false⟩,
   ⟨0x24, [], 0x0, 0xffffffff, 0x0, 0x0, false⟩,
   ⟨0x28, [], 0xc, 0x8000001f, 0x0, 0x0, false⟩,
   ⟨0x2c, [], 0x0, 0x0, 0x0, 0x0, false⟩,
   ⟨0x30, [], 0x0, 0xffffffff, 0x0, 0x0, false⟩,
   ⟨0x40, [], 0x0, 0x0, 0x6, 0x0, false⟩,
   ⟨0x44, [], 0x0, 0x0, 0x0, 0x0, false⟩,
   ⟨0x48, [], 0x0, 0x0, 0x0, 0x0, false⟩]
/-- Rows of the cal block. -/
def calRows : List RegRow :=
  [⟨0x0, [], 0x0, 0x0, 0x0, 0x0, false⟩,
   ⟨0x4, [], 0x0, 0x0, 0x0, 0x0, false⟩,
   ⟨0x8, [], 0x0, 0x0, 0x0, 0x0, false⟩,
   ⟨0xc, [], 0x0, 0x0, 0x0, 0x0, false⟩,
   ⟨0x10, [], 0x0, 0x0, 0x0, 0x0, false⟩,
   ⟨0x14, [], 0x2710, 0xffff, 0x0, 0x0, false⟩,
   ⟨0x18, [], 0x0, 0x0, 0x0, 0x0, false⟩,
   ⟨0x20, [], 0x0, 0x0, 0x0, 0x0, false⟩,
   ⟨0x24, [], 0x0, 0x0, 0x0, 0x0, false⟩,
   ⟨0x28, [], 0x0, 0x0, 0x0, 0x0, false⟩,
   ⟨0x2c, [], 0x0, 0x0, 0x0, 0x0, false⟩,
   ⟨0x30, [], 0x0, 0x0, 0x0, 0x0, false⟩,
   ⟨0x100, [(0x4, 16)], 0x0, 0x0, 0x0, 0x0, false⟩,
   ⟨0x200, [(0x4, 8)], 0x0, 0x0, 0x0, 0x0, false⟩]
/-- Rows of the pwr block. -/
def pwrRows : List RegRow :=
  [⟨0x0, [], 0x0, 0x0, 0x0, 0x0, false⟩,
   ⟨0x4, [], 0x2, 0x3, 0x0, 0x0, false⟩,
   ⟨0x8, [], 0x6400690, 0xffffffff, 0x0, 0x0, false⟩,
   ⟨0xc, [], 0x1adb0, 0xfffff, 0x0, 0x0, false⟩,
   ⟨0x10, [], 0x0, 0x0, 0x0, 0x0, false⟩,
   ⟨0x14, [], 0x0, 0x0, 0x0, 0x0, false⟩,
   ⟨0x18, [], 0x3, 0x0, 0x0, 0x0, false⟩,
   ⟨0x1c, [], 0x4, 0x0, 0x0, 0x0, false⟩,
   ⟨0x20, [], 0x0, 0x0, 0x0, 0x0, true⟩,
   ⟨0x24, [], 0x0, 0x0, 0x0, 0x0, false⟩,
   ⟨0x28, [], 0x0, 0xffffffff, 0x0, 0x0, false⟩,
   ⟨0x2c, [], 0x0, 0x8000ffff, 0x0, 0x0, false⟩,
   ⟨0x30, [], 0x640, 0xffff, 0x0, 0x0, false⟩,
   ⟨0x100, [(0x4, 120)], 0x0, 0x0, 0x0, 0x0, false⟩,
   ⟨0x300, [(0x4, 16)], 0x0, 0x0, 0x0, 0x0, false⟩,
   ⟨0x400, [(0x10, 35), (0x4, 4)], 0x0, 0xffffffff, 0x0, 0x0, false⟩,
   ⟨0x800, [(0x10, 35), (0x4, 4)], 0x0, 0xffffffff, 0x0, 0x0, false⟩,
   ⟨0xc00, [(0x4, 64)], 0x0, 0x0, 0x0, 0x0, false⟩]
/-- Rows of the flt block. -/
def fltRows : List RegRow :=
  [⟨0x0, [], 0x0, 0x0, 0x0, 0x0, false⟩,
   ⟨0x4, [], 0x80041008, 0x80ffffff, 0x0, 0x0, false⟩,
   ⟨0x8, [], 0xffff, 0xffff, 0x0, 0x0, false⟩,
   ⟨0xc, [], 0x0, 0x0, 0x0, 0x0, false⟩,
   ⟨0x10, [], 0x0, 0x0, 0x0, 0x0, false⟩,
   ⟨0x14, [], 0x0, 0x0, 0x0, 0x0, false⟩,
   ⟨0x18, [], 0x0, 0x0, 0x0, 0x0, false⟩,
   ⟨0x1c, [], 0x0, 0x0, 0x0, 0x0, false⟩,
   ⟨0x20, [], 0x0, 0x0, 0x0, 0x0, false⟩,
   ⟨0x100, [(0x4, 16)], 0x0, 0x0, 0x0, 0x0, false⟩,
   ⟨0x140, [(0x4, 16)], 0x0, 0x0, 0x0, 0x0, false⟩,
   ⟨0x220, [], 0x0, 0x3, 0x0, 0x0, false⟩,
   ⟨0x200, [(0x4, 11)], 0x1, 0x3, 0x0, 0x0, false⟩,
   ⟨0x300, [(0x4, 16)], 0x2, 0x1f3, 0x0, 0x0, false⟩,
   ⟨0x400, [(0x4, 8)], 0x0, 0x0, 0x0, 0x0, false⟩]
/-- Rows of the obsn block. -/
def obsnRows : List RegRow :=
  [⟨0x0, [(0x80, 3)], 0x0, 0x0, 0x0, 0x0, true⟩,
   ⟨0x4, [(0x80, 3)], 0x0, 0x0, 0x0, 0x0, false⟩,
   ⟨0x8, [(0x80, 3)], 0x0, 0x0, 0x0, 0x0, true⟩,
   ⟨0xc, [(0x80, 3)], 0x0, 0x0, 0x0, 0x0, false⟩,
   ⟨0x10, [(0x80, 3)], 0x0, 0x0, 0x0, 0x0, true⟩,
   ⟨0x14, [(0x80, 3)], 0x0, 0x0, 0x0, 0x0, false⟩,
   ⟨0x18, [(0x80, 3)], 0x0, 0x0, 0x0, 0x0, false⟩,
   ⟨0x40, [(0x80, 3), (0x4, 16)], 0x0, 0x0, 0x0, 0x0, false⟩]
/-- Rows of the obs block. -/
def obsRows : List RegRow :=
  [⟨0x0, [], 0x0, 0x3, 0x0, 0x0, false⟩,
   ⟨0x4, [], 0x0, 0x0, 0xe, 0x0, false⟩,
   ⟨0x8, [], 0x0, 0xffff, 0x0, 0x0, false⟩,
   ⟨0xc, [], 0x0, 0xffff, 0x0, 0x0, false⟩,
   ⟨0x10, [], 0xff00, 0xffff, 0x0, 0x0, false⟩,
   ⟨0x14, [], 0x7fff0000, 0x7fff7fff, 0x0, 0x0, false⟩,
   ⟨0x18, [], 0x0, 0xf, 0x0, 0x0, false⟩,
   ⟨0x1c, [], 0x12c, 0x1ff, 0x0, 0x0, false⟩,
   ⟨0x20, [], 0x0, 0x0, 0x0, 0x0, true⟩,
   ⟨0x24, [], 0x0, 0x0, 0x0, 0x0, false⟩,
   ⟨0x28, [], 0x0, 0x0, 0x0, 0x0, false⟩,
   ⟨0x2c, [], 0x0, 0x0, 0x0, 0x0, false⟩,
   ⟨0x40, [], 0x0, 0x0, 0x0, 0xffffffff, false⟩,
   ⟨0x44, [], 0x0, 0x0, 0x0, 0xffffffff, false⟩,
   ⟨0x1000, [(0x40, 16)], 0x0, 0x0, 0x0, 0x0, true⟩,
   ⟨0x1004, [(0x40, 16)], 0x0, 0x0, 0x0, 0x0, false⟩,
   ⟨0x1008, [(0x40, 16)], 0x0, 0x0, 0x0, 0x0, true⟩,
   ⟨0x100c, [(0x40, 16)], 0x0, 0x0, 0x0, 0x0, false⟩,
   ⟨0x1010, [(0x40, 16)], 0x0, 0x0, 0x0, 0x0, true⟩,
   ⟨0x1014, [(0x40, 16)], 0x0, 0x0, 0x0, 0x0, false⟩] ++
  [⟨0x1018, [(0x40, 16)], 0x0, 0x0, 0x0, 0x0, true⟩,
   ⟨0x101c, [(0x40, 16)], 0x0, 0x0, 0x0, 0x0, false⟩,
   ⟨0x1020, [(0x40, 16)], 0x0, 0x0, 0x0, 0x0, true⟩,
   ⟨0x1024, [(0x40, 16)], 0x0, 0x0, 0x0, 0x0, false⟩,
   ⟨0x1028, [(0x40, 16)], 0x0, 0x0, 0x0, 0x0, false⟩,
   ⟨0x2000, [(0x40, 16)], 0x0, 0x1, 0x0, 0x2, false⟩,
   ⟨0x2008, [(0x40, 16)], 0x0, 0x0, 0x0, 0x0, true⟩,
   ⟨0x200c, [(0x40, 16)], 0x0, 0x0, 0x0, 0x0, false⟩,
   ⟨0x2010, [(0x40, 16)], 0x0, 0x0, 0x0, 0x0, true⟩,
   ⟨0x2014, [(0x40, 16)], 0x0, 0x0, 0x0, 0x0, false⟩,
   ⟨0x2018, [(0x40, 16)], 0x0, 0x0, 0x0, 0x0, true⟩,
   ⟨0x201c, [(0x40, 16)], 0x0, 0x0, 0x0, 0x0, false⟩,
   ⟨0x3000, [], 0x0, 0x0, 0x0, 0x0, true⟩,
   ⟨0x3004, [], 0x0, 0x0, 0x0, 0x0, false⟩,
   ⟨0x3008, [], 0x0, 0x0, 0x0, 0x0, true⟩,
   ⟨0x300c, [], 0x0, 0x0, 0x0, 0x0, false⟩]
/-- Rows of the device Tocsin's partition queues (R505). -/
def prqRows : List RegRow :=
  [⟨0x1000, [(0x40, 16)], 0x0, 0x0, 0x40, 0x0, false⟩,
   ⟨0x1004, [(0x40, 16)], 0x0, 0x0, 0x0, 0x0, false⟩,
   ⟨0x1008, [(0x40, 16)], 0x0, 0x0, 0x0, 0x0, false⟩]

/-- Does offset `o` fall on a copy of a register with these strides? -/
def dimsHit : List (Nat × Nat) → Nat → Bool
  | [], o => o == 0
  | (s, c) :: r, o => decide (o / s < c) && dimsHit r (o % s)

/-- The row of a block that offset `o` falls on. -/
def findRow : List RegRow → Nat → Option RegRow
  | [], _ => none
  | x :: r, o => if x.off ≤ o && dimsHit x.dims (o - x.off) then some x else findRow r o

/-- The block rows and the offset in the block of a register-space offset (R51); `none` is reserved. -/
def blockRows (a : Nat) : Option (List RegRow × Nat) :=
  let o := a % 0x10000
  if a < 0x10000000 then
    match a / 0x10000 with
    | 0 => some (tabRows, o)
    | 1 => some (tocRows ++ prqRows, o)
    | 2 => some (axnRows, o)
    | 3 => some (axnRows.filter (fun r => r.off < 0x8000), o)
    | 4 => some (fabRows, o)
    | 5 => some (fabRows, o)
    | 6 => some (tunRows, o)
    | 7 => some (memRows, o)
    | 8 => some (memRows.filter (fun r => r.off < 0x8000), o)
    | 9 => some (pciRows, o)
    | 10 => some (carRows, o)
    | 11 => some (pwrRows, o)
    | 12 => some (fltRows, o)
    | 13 => some (obsRows, o)
    | 14 => some (calRows, o)
    | g => if 16 ≤ g && g < 32 then some (doorRows, o) else none
  else if a < 0x20000000 then
    let c := a / 0x10000 % 0x100
    if c < 16 then
      match o / 0x1000 with
      | 0 => some (neuRows, o)
      | 1 => some (synRows, o - 0x1000)
      | 2 => some (almnRows, o - 0x2000)
      | 3 => some (hrvRows, o - 0x3000)
      | 4 => some (tocRows, o - 0x4000)
      | 5 => some (obsnRows, o - 0x5000)
      | _ => none
    else
      match c with
      | 0x10 => if o < 0x4000 then some (tcrRows, o) else some (tocRows, o - 0x4000)
      | 0x11 => if o < 0x4000 then some (seqRows, o) else some (tocRows, o - 0x4000)
      | 0x20 => some (rfabRows, o)
      | 0x21 => some (cmnRows, o)
      | 0x22 => some (queRows, o)
      | 0x23 => some (almfRows, o)
      | 0x24 => some (axrRows, o)
      | _ => none
  else none

/-- The table row of the register at register-space offset `a`, with its own reset value. -/
def regRow (a : Nat) : Option RegRow :=
  match blockRows a with
  | none => none
  | some (rows, o) => findRow rows o

/-- Is `a` one of the two kinds of remap-table copy (R37, R279)? -/
def remapIndex (a : Nat) : Option Nat :=
  let o := a % 0x10000
  if 0x400 ≤ o && o < 0x800 &&
      (a / 0x10000 == 4 || a / 0x10000 == 5 || (0x10000000 ≤ a && a < 0x20000000 && a / 0x10000 % 0x100 == 0x20))
  then some ((o - 0x400) / 4) else none

/-- What a register nothing has written reads as: the reset value of its table (R12); remap entry n
resets to n (R37). -/
def regReset (a : Nat) : Word :=
  match remapIndex a with
  | some n => BitVec.ofNat 32 n
  | none =>
    match regRow a with
    | some r => BitVec.ofNat 32 r.reset
    | none => 0#32

end Sys2Proof.Machine
end

