-- ==== Sys2Proof/Machine/Block.lean ====
section
/-! DEFINITION. `Dev`: everything the spec gives the block, but the queue of waiting commands. -/

namespace Sys2Proof.Machine

/-- The whole device. -/
structure Dev where
  /-- Every register of the register tables, by its address in the register space (R51), held as its difference (XOR)
  from its reset value: an unlisted register reads as its reset value. -/
  regs    : SMap Nat
  /-- The local address space beside registers: core stores (by physical site), T-core buffers, Commons, DDR5 channels
  and axon DRAM, by local address (R41). -/
  mem     : Memory
  /-- ECC state of memory words, by byte address of the word: 1 a single-bit error, 2 an uncorrectable one (R172, R391,
  R420, R437, R188). -/
  ecc     : SMap Nat
  /-- Latched high halves of 64-bit counters: key 2^32 × function + address of the high half (R15). -/
  latch   : SMap Nat
  cores   : SMap NCore
  parts   : SMap Part
  regions : SMap Region
  /-- Sent and filed counts: key 8 × counting point + beat mod 8; points 0 to 255 the cores, 256 + r the region routers,
  272 + 16 d + p the die routers for partition p, 304 + 16 r + p the router of another partition's region r (R60, R61). -/
  sent    : SMap Nat
  filed   : SMap Nat
  /-- Packets of events being filled (R237), event records on their way to a region router of this device, and packets of
  other types that have arrived and wait to be acted on. -/
  packs   : List Pack
  net     : List Event
  inbox   : List (List Byte)
  /-- The site table of the tunnel (R291; an unlisted entry is zero), datagrams being gathered, the early buffer, and the
  PTP clock. -/
  sites    : SMap (List Byte)
  tunPacks : List TunPack
  early    : List Early
  ptp      : Ptp
  /-- The quads that nap: physical site number ÷ 4 (R578). -/
  naps    : List Nat
  /-- Tocsin record queues: instances by number, 289 + p the partition queues (R501). -/
  tocq    : SMap (List TocRec)
  /-- Sources of each Tocsin instance whose wake is held (R497): for Carillon by instance, for the region's S-core at
  512 + instance. -/
  tocWake : SMap Nat
  car     : Carillon
  tcores  : SMap TCore
  scores  : SMap SCore
  timers  : SMap TimerX
  pins    : Pins
  /-- The fence in progress, cores that wait for one, and the fence list of the Keep: (unit, region, site) (R609,
  R610). -/
  fence   : Option Fence
  failedQ : List (Nat × Bool)
  fenceList : List (Nat × Nat × Nat)
  /-- Entries that FENCE_CLEAR has removed and that hold until the next Calends (R610). -/
  fenceOld : List (Nat × Nat × Nat)
  /-- The alarm waiting to be sent, and the microsecond of the last alarm flit sent (R602). -/
  alarmQ  : Option Alarm
  alarmUs : Option Nat
  /-- Fraction of an RTC step that has passed, in units of 1 / 400,000,000 of a step (R588). -/
  rtcFrac : Nat
  /-- PPS: the timebase at the last capture, and whether the frequency correction is set (R84). -/
  ppsLast : Option Nat
  ppsCorr : Bool
  /-- Ticks of phase error that slewing has still to take out of the timebase (R85, R86, R302). -/
  slew    : Int
  /-- TAB_TAISEC has been written since Calends (R564). -/
  taiSet  : Bool
  /-- Devices of the fabric that link-state messages have named (R661, R552). -/
  fabDevs : List Nat
  /-- The span partitions that devices have announced: by device, each partition with its LEAD (R265; log entry 171). -/
  fabSpans : SMap (List (Nat × Nat))
  /-- Failed links, by key 8 × device + port: 1 where that end is not UP (R245, R271). -/
  links   : SMap Nat
  lports  : SMap LPort
  oports  : SMap OPort
  colls   : SMap Coll
  bulks   : List Bulk
  reqs    : List Req
  cal     : Calends
  pwr     : Pwr
  /-- The free value of DDR5 contents (R444; log entry 3): a DDR5 byte is held as its difference (XOR) from the free byte of
  this number at its address, and from 0 for number 0. -/
  ddrEpoch : Nat
  /-- Descriptors in progress of each DMA channel, oldest first (R467). -/
  dma     : SMap (List DmaJob)
  /-- Accesses to Commons banks held until a handover ends, oldest first (R422). -/
  heldAcc : List HeldAcc
  /-- The physical function is in D3hot (R475). -/
  d3hot   : Bool
  trace   : TraceSt
  /-- The TAG of the next fabric request (R239). -/
  nextTag : Nat
  /-- SR-IOV: VF Enable and NumVFs (R454). -/
  vfEnable : Bool
  numVfs  : Nat
  /-- The model's own counter of free values (log entry 2). -/
  nonce   : Nat
  /-- What has left the block, in order (log entry 5). -/
  out     : List Output
  deriving DecidableEq, Repr, Inhabited

end Sys2Proof.Machine
end

