-- ==== Sys2Proof/Machine/Ops.lean ====
section
/-! DEFINITION. The named operations over the device's state that every chapter uses: registers and their fields,
memory, counters, the log, the Tocsin, MSI-X vectors and free values. -/

namespace Sys2Proof.Machine

/-! ### Registers -/

/-- The value of the register at address `a` of the register space. -/
def Dev.rg (d : Dev) (a : Nat) : Nat := SMap.get 0 d.regs a ^^^ (regReset a).toNat

/-- `d` with the register at `a` holding the low 32 bits of `v`. -/
def Dev.setR (d : Dev) (a v : Nat) : Dev :=
  { d with regs := SMap.set 0 d.regs a (v % 2 ^ 32 ^^^ (regReset a).toNat) }

/-- The field of `w` bits at bit `lo` of the register at `a`. -/
def Dev.fld (d : Dev) (a lo w : Nat) : Nat := bitsOf (d.rg a) lo w

/-- `d` with that field set to `v`. -/
def Dev.setF (d : Dev) (a lo w v : Nat) : Dev := d.setR a (putBits (d.rg a) lo w v)

/-- Bit `k` of the register at `a`. -/
def Dev.flag (d : Dev) (a k : Nat) : Bool := bitAt (d.rg a) k

/-- `d` with bit `k` of the register at `a` set to `b`. -/
def Dev.setFlag (d : Dev) (a k : Nat) (b : Bool) : Dev := d.setF a k 1 (natOf b)

/-- Add `k` to a saturating 32-bit counter. -/
def Dev.bump (d : Dev) (a k : Nat) : Dev := d.setR a (satInc (d.rg a) k)

/-- The value of a register pair, low half at `a`, high half at `a + 4`. -/
def Dev.rg64 (d : Dev) (a : Nat) : Nat := d.rg a + 2 ^ 32 * d.rg (a + 4)

/-- Write a register pair. -/
def Dev.set64 (d : Dev) (a v : Nat) : Dev := (d.setR a (v % 2 ^ 32)).setR (a + 4) (v / 2 ^ 32)

/-- Add `k` to a saturating 64-bit counter pair. -/
def Dev.bump64 (d : Dev) (a k : Nat) : Dev := if k = 0 then d else d.set64 a (min (d.rg64 a + k) (2 ^ 64 - 1))

/-- Add `k` to a 64-bit counter pair that does not saturate: those of the neurons and rows, of the axons and the Almanac, and of
observation (R135, R181, R227, R230; log entry 187). -/
def Dev.count64 (d : Dev) (a k : Nat) : Dev := if k = 0 then d else d.set64 a ((d.rg64 a + k) % 2 ^ 64)

/-- Every register with `lo ≤ address < hi` at its reset value again (R12). -/
def Dev.resetRegs (d : Dev) (lo hi : Nat) : Dev :=
  { d with regs := SMap.clear d.regs lo hi
           latch := SMap.keep (fun k => k % 2 ^ 32 < lo || hi ≤ k % 2 ^ 32) 0 d.latch }

/-- The bytes of `n` registers from address `a`, as the status commands return them. -/
def Dev.regBytes (d : Dev) (a n : Nat) : List Byte := ((upTo n).map (fun k => leBytes 4 (d.rg (a + 4 * k)))).flatten

/-! ### Memory -/

/-- `k` bytes of memory from local address `a`. -/
def Dev.rdB (d : Dev) (a : Nat) : Nat → List Byte
  | 0 => []
  | k + 1 => d.mem.read a :: Dev.rdB d (a + 1) k

/-- Memory with bytes written from local address `a`. -/
def memWr (m : Memory) (a : Nat) : List Byte → Memory
  | [] => m
  | b :: r => memWr (m.write a b) (a + 1) r

/-- Write bytes from local address `a`. -/
def Dev.wrB (d : Dev) (a : Nat) (l : List Byte) : Dev := { d with mem := memWr d.mem a l }

/-- The little-endian number of `k` bytes at `a` (R10). -/
def Dev.rdN (d : Dev) (a k : Nat) : Nat := leNat (d.rdB a k)

/-- Write the number `v` as `k` little-endian bytes at `a`. -/
def Dev.wrN (d : Dev) (a k v : Nat) : Dev := d.wrB a (leBytes k v)

/-- Every byte with `lo ≤ address < hi` zero, with good check bits. -/
def Dev.zeroMem (d : Dev) (lo hi : Nat) : Dev := { d with mem := SMap.clear d.mem lo hi, ecc := SMap.clear d.ecc lo hi }

/-- The first byte of the core store of physical site `n` (R41, R43). -/
def csBase (n : Nat) : Nat := 0x010000000000 + 0x400000 * n
/-- The Commons of region `r`. -/
def cmnBase (r : Nat) : Nat := 0x014000000000 + 0x400000 * r
/-- The T-core buffer of region `r`. -/
def tcBase (r : Nat) : Nat := 0x018000000000 + 0x200000 * r
/-- The axon table of die `d`. -/
def axBase (d : Nat) : Nat := 0x01C000000000 + 0x4000000 * d

/-! ### Parts, regions and cores -/

/-- What a site holds after its core is initialised: no profile, no rule, nothing active, the generator at 1
(R136, R356; the generator's value is log entry 7). -/
def NCore.reset : NCore := { (default : NCore) with gen := 1 }

def Dev.core (d : Dev) (n : Nat) : NCore := SMap.get NCore.reset d.cores n
def Dev.setCore (d : Dev) (n : Nat) (c : NCore) : Dev := { d with cores := SMap.set NCore.reset d.cores n c }
def Dev.part (d : Dev) (p : Nat) : Part := SMap.get default d.parts p
def Dev.setPart (d : Dev) (p : Nat) (x : Part) : Dev := { d with parts := SMap.set default d.parts p x }
def Dev.region (d : Dev) (r : Nat) : Region := SMap.get default d.regions r
def Dev.setRegion (d : Dev) (r : Nat) (x : Region) : Dev := { d with regions := SMap.set default d.regions r x }

/-- The partition that owns region `r` (CAL_REGPART, R26). -/
def Dev.regPart (d : Dev) (r : Nat) : Option Nat :=
  if d.flag (CAL_REGPART r) 31 then some (d.fld (CAL_REGPART r) 0 4) else none

/-- Partition `p` owns region `r`. -/
def Dev.owns (d : Dev) (p r : Nat) : Bool := d.regPart r == some p

/-- The regions of partition `p`, rising. -/
def Dev.regionsOf (d : Dev) (p : Nat) : List Nat := (upTo 16).filter (d.owns p)

/-- The physical site of logical core `n` in the remap table of its region router (R32, R43), none where the entry is
invalid. -/
def Dev.physOf (d : Dev) (n : Nat) : Option Nat :=
  let a := FAB_REMAP (n / 16) n
  if d.flag a 31 then some (16 * (n / 16) + d.fld a 0 4) else none

/-- The logical cores of region `r` whose entries are valid, each with its physical site. -/
def Dev.coresOf (d : Dev) (r : Nat) : List (Nat × Nat) :=
  (upTo 16).filterMap (fun s => (d.physOf (16 * r + s)).map (fun q => (16 * r + s, q)))

/-- The physical sites of the usable cores of partition `p`. -/
def Dev.sitesOf (d : Dev) (p : Nat) : List Nat := ((d.regionsOf p).map (fun r => (d.coresOf r).map Prod.snd)).flatten

/-- The logical core of physical site `q`, where one maps to it. -/
def Dev.logOf (d : Dev) (q : Nat) : Option Nat :=
  ((d.coresOf (q / 16)).find? (fun c => c.2 == q)).map Prod.fst

/-- The die of a region. -/
def dieOf (r : Nat) : Nat := r / 8

/-- Fold an update over a list. -/
def Dev.forEach {α : Type} (d : Dev) (l : List α) (f : Dev → α → Dev) : Dev := l.foldl f d

/-- A fresh free value below `2 ^ w`. -/
def Dev.fresh (d : Dev) (w : Nat) : Nat × Dev :=
  (Config.freeValue d.nonce % 2 ^ w, { d with nonce := d.nonce + 1 })

/-- `n` free bytes. -/
def Dev.openBytes (d : Dev) (n : Nat) : Dev × List Byte :=
  ({ d with nonce := d.nonce + 1 }, (upTo n).map (Config.freeByte d.nonce))

/-- The 64-bit words that `n` bytes at `a` touch. -/
def wordsAt (a n : Nat) : List Nat := (upTo ((a + n + 7) / 8 - a / 8)).map (fun k => 8 * (a / 8 + k))

/-- What leaves the block. -/
def Dev.emit (d : Dev) (o : Output) : Dev := { d with out := d.out ++ [o] }

/-! ### The part record and the fence list (R4, R533, R610) -/

/-- Physical N-core `q` is marked good by the part record. -/
def Dev.siteGood (d : Dev) (q : Nat) : Bool := bitAt (byteAt d.car.partRec (24 + q / 8)) (q % 8)
/-- The fence list in force until the next Calends (R610). -/
def Dev.fencedNow (d : Dev) : List (Nat × Nat × Nat) := d.fenceList ++ d.fenceOld
/-- The T-core of region `r` is marked good and is not in the fence list. -/
def Dev.tcoreBad (d : Dev) (r : Nat) : Bool := ! bitAt (leAt d.car.partRec 56 2) r || d.fencedNow.any (fun x => x.1 == 1 && x.2.1 == r)
/-- The S-core likewise. -/
def Dev.scoreBad (d : Dev) (r : Nat) : Bool := ! bitAt (leAt d.car.partRec 58 2) r || d.fencedNow.any (fun x => x.1 == 2 && x.2.1 == r)
/-- Physical site `q` is in the fence list. -/
def Dev.siteFenced (d : Dev) (q : Nat) : Bool := d.fencedNow.any (fun x => (x.1 == 0 || x.1 == 3) && x.2.1 == q / 16 && x.2.2 == q % 16)
def Dev.serial (d : Dev) : Nat := leAt d.car.partRec 8 8
/-- Usable N-cores per region by grade (R1). -/
def Dev.usable (d : Dev) : Nat := 16 - min 2 (byteAt d.car.partRec 16)

/-! ### Time -/

/-- The timebase (R479). -/
def Dev.time (d : Dev) : Nat := d.rg64 TAB_TIME_LO
/-- TAB_TLSTAT.STATE: 0 FREE, 1 ACQUIRING, 2 LOCKED, 3 HOLDOVER. -/
def Dev.tlState (d : Dev) : Nat := d.fld TAB_TLSTAT 0 2
/-- TAB_BSTAT.STATE of partition `p`: 0 IDLE, 1 RUNNING, 2 MUFFLING, 3 MUFFLED, 4 CHOKED (R98). -/
def Dev.bstate (d : Dev) (p : Nat) : Nat := d.fld (TAB_BSTAT p) 16 3
/-- The beat number of partition `p`, 48 bits. -/
def Dev.beat (d : Dev) (p : Nat) : Nat := d.rg (TAB_BEATNO_LO p) + 2 ^ 32 * d.fld (TAB_BEATNO_HI p) 0 16
/-- Running or Muffling. -/
def Dev.running (d : Dev) (p : Nat) : Bool := d.bstate p == 1 || d.bstate p == 2
/-- Partition `p` is IDLE or MUFFLED. -/
def Dev.still (d : Dev) (p : Nat) : Bool := d.bstate p == 0 || d.bstate p == 3
/-- Any cause bit of partition `p` is set (R603). -/
def Dev.muted (d : Dev) (p : Nat) : Bool := d.fld (FLT_PMUTE p) 0 8 != 0
/-- Partition `p` is Choked (R606). -/
def Dev.choked (d : Dev) (p : Nat) : Bool := d.flag (FLT_PMUTE p) 9

/-! ### MSI-X (R454, R470, R471) -/

/-- A function after reset: no command, every vector masked, Max Read Request Size 512 bytes, Relaxed Ordering enabled
(R451; log entry 180). -/
def Fn.reset : Fn := { (default : Fn) with mrrs := 2, relaxed := true }
/-- The largest read request of a function, in bytes (R451). -/
def Fn.readSize (x : Fn) : Nat := 128 * 2 ^ min 5 x.mrrs
def Dev.fn (d : Dev) (f : Nat) : Fn := SMap.get Fn.reset d.car.fns f
def Dev.setFn (d : Dev) (f : Nat) (x : Fn) : Dev := { d with car := { d.car with fns := SMap.set Fn.reset d.car.fns f x } }

/-- Function `f` exists: the physical function, or a virtual function that SR-IOV enables (R454). -/
def Dev.fnExists (d : Dev) (f : Nat) : Bool := f == 0 || (d.vfEnable && f ≤ d.numVfs && f < 16)

/-- The requester function of what partition `p` issues (R454). -/
def Dev.requester (d : Dev) (p : Nat) : Nat := if d.fnExists p then p else 0

/-- Send the message of vector `v` of function `f`: a masked vector, or one inside its moderation interval, becomes
pending instead (R471). -/
def Dev.sendMsix (d : Dev) (f v : Nat) : Dev :=
  let x := d.fn f
  if ! SMap.get false x.msixUnmasked v || SMap.get false x.modRun v then
    d.setFn f { x with msixPend := SMap.set false x.msixPend v true }
  else
    let x := { x with msixPend := SMap.set false x.msixPend v false
                      modRun := if d.fld (PCI_IMOD f) 0 10 = 0 then x.modRun else SMap.set false x.modRun v true }
    (d.setFn f x).emit (.msix f v (SMap.get 0 x.msixAddr v) (SMap.get 0 x.msixData v))

/-- The endpoint answers with retry status: until Carillon has verified its firmware, or during an FLR (R472, R474). -/
def Dev.crsBit (d : Dev) : Dev :=
  let up := d.flag CAR_STAT 0 || d.car.restart
  d.setFlag PCI_STAT 0 (! d.pins.perst && (! up || (upTo 16).any (fun f => (d.fn f).flr)))

/-- Signal vector `v` of the function of partition `p`, or of the physical function where it does not exist. -/
def Dev.signal (d : Dev) (p v : Nat) : Dev := d.sendMsix (d.requester p) v

/-! ### Trace records (R624 to R631) -/

def Dev.fifo (d : Dev) (die : Nat) : List (List Byte) := SMap.get [] d.trace.fifo die
/-- Set a trace FIFO, with its occupancy in OBS_TFIFO. -/
def Dev.setFifo (d : Dev) (die : Nat) (l : List (List Byte)) : Dev :=
  { d with trace := { d.trace with fifo := SMap.set [] d.trace.fifo die l } }.setF OBS_TFIFO (16 * die) 13 l.length

/-- The 16 bytes of a trace record (R624). -/
def Dev.traceBytes (d : Dev) (ty : Nat) (part : Option Nat) (origin : Nat) (data : List Byte) : List Byte :=
  leBytes 1 ty ++ leBytes 1 (match part with | some p => p % 16 | none => 16) ++ leBytes 2 origin ++ leBytes 4 d.time ++
    padTo 8 data

/-- A record of a TYPE is dropped (R626). -/
def Dev.traceDrop (d : Dev) (die ty : Nat) : Dev :=
  let t := d.trace
  ({ d with trace := { t with drop := SMap.set 0 t.drop die (satInc (SMap.get 0 t.drop die) 1)
                              types := SMap.set 0 t.types die (SMap.get 0 t.types die ||| 2 ^ ty) } }.bump OBS_TDROP 1).setFlag OBS_TSTAT 1 true

/-- The DROP record enters once two places are free (R626). -/
def Dev.traceDropRec (d : Dev) (die : Nat) : Dev :=
  let t := d.trace
  let n := SMap.get 0 t.drop die
  if n = 0 || 4094 < (d.fifo die).length then d
  else
    let x := d.traceBytes 0x0F none 0x300 (leBytes 4 n ++ leBytes 2 (SMap.get 0 t.types die))
    { d with trace := { t with drop := SMap.set 0 t.drop die 0, types := SMap.set 0 t.types die 0 } }.setFifo die (d.fifo die ++ [x])

/-- The record finds room in its FIFO and under the cap of R628. -/
def Dev.traceRoom (d : Dev) (die : Nat) : Bool :=
  (d.fifo die).length < 4096 && SMap.get 0 d.trace.drop die == 0 &&
    (! d.flag OBS_TCTL 1 || d.trace.capUs ≠ d.time / 400 || d.trace.capN < d.fld OBS_TCAP 0 9)

/-- A record enters its FIFO. -/
def Dev.traceEnter (d : Dev) (die : Nat) (x : List Byte) : Dev :=
  let t := d.trace
  let us := d.time / 400
  { d with trace := { t with capUs := us, capN := if t.capUs = us then t.capN + 1 else 1 } }.setFifo die (d.fifo die ++ [x])

/-- A record passes the filters (R631); `lcore` and `neuron` are given where those filters apply. -/
def Dev.tracePass (d : Dev) (ty : Nat) (part lcore neuron : Option Nat) : Bool :=
  d.flag OBS_TSRC ty && part.all (fun p => d.flag OBS_TPMASK p) &&
    lcore.all (fun c => d.fld OBS_TCORE 0 8 ≤ c && c ≤ d.fld OBS_TCORE 8 8) &&
    neuron.all (fun i => d.fld OBS_TNEURON 0 15 ≤ i && i ≤ d.fld OBS_TNEURON 16 15)

/-- A trace record is produced on die `die` (R625 to R628, R631): SPIKE, TOP and SDESC wait for room in DIAGNOSTIC mode; the
others are dropped where there is none. -/
def Dev.traceRec (d : Dev) (die ty : Nat) (part : Option Nat) (origin : Nat) (lcore neuron : Option Nat) (data : List Byte) : Dev :=
  if ! d.flag OBS_TCTL 0 || d.pwr.asleep ≠ 0 || ! d.tracePass ty part lcore neuron then d
  else
    let k := 16 * die + ty
    let n := SMap.get 0 d.trace.sample k
    let d := { d with trace := { d.trace with sample := SMap.set 0 d.trace.sample k (n + 1) } }
    if n % 2 ^ d.fld OBS_TSAMPLE 0 4 ≠ 0 then d
    else
      let x := d.traceBytes ty part origin data
      let d := d.traceDropRec die
      if d.traceRoom die && (SMap.get [] d.trace.held die).isEmpty then d.traceEnter die x
      else if d.flag OBS_TCTL 1 && (ty == 1 || ty == 7 || ty == 8) then
        { d with trace := { d.trace with held := SMap.set [] d.trace.held die (SMap.get [] d.trace.held die ++ [x]) } }.setFlag OBS_TSTAT 2 true
      else d.traceDrop die ty

/-! ### The Tocsin (R490 to R503) -/

/-- The level at the top of the priority stack, 0 when it is empty (R494). -/
def Dev.tocCur (d : Dev) (i : Nat) : Nat :=
  let n := d.fld (TOC_STACK i) 24 4
  if n = 0 then 0 else d.fld (TOC_STACK i) (3 * (n - 1)) 3

/-- The sources that assert the output of instance `i` (R494), lowest first. -/
def Dev.tocReady (d : Dev) (i : Nat) : List Nat :=
  (upTo 32).filter (fun s => d.flag (TOC_ENABLE i) s && d.flag (TOC_PEND i) s && ! d.flag (TOC_MASK i) s &&
    d.tocCur i < d.fld (TOC_SRC i s) 4 3)

/-- The region of a core instance. -/
def tocRegion (i : Nat) : Nat := if i < 256 then i / 16 else (i - 256) % 16

/-- ORIGIN of an instance's records (R500). -/
def tocOrigin (i : Nat) : Nat :=
  if i < 256 then i else if i < 272 then 16 * (i - 256) + 0x100 else if i < 288 then 16 * (i - 272) + 0x200 else 0x300

/-- S-core of region `r` runs from SEQ_ENTRY, as SEQ_CTL.RUN does (R425); ignored in a region of no partition or of a Choked one
(R405). -/
def Dev.scoreRun (d : Dev) (r : Nat) : Dev :=
  if (d.regPart r).all d.choked then d else ((d.setR (SEQ_PC r) (d.fld (SEQ_ENTRY r) 0 12)).setF (SEQ_STAT r) 8 4 0).setF (SEQ_STAT r) 0 2 1

/-- What the output of instance `i` does when it becomes asserted (R490). -/
def Dev.tocDeliver (d : Dev) (i : Nat) : Dev :=
  let t := d.fld (TOC_CTL i) 0 2
  if i = 288 then if t = 2 then d.sendMsix 0 8 else d
  else
    let r := tocRegion i
    if t = 1 then
      if d.flag (TOC_CTL i) 4 && d.fld (SEQ_STAT r) 0 2 == 0 then d.scoreRun r else d
    else if t = 2 then
      match d.regPart r with
      | some p => d.signal p 4
      | none => d
    else d

/-- The sources of instance `i` whose wake is held, for Carillon and for the S-core (R497). -/
def Dev.tocHeld (d : Dev) (i : Nat) : Nat := SMap.get 0 d.tocWake i ||| SMap.get 0 d.tocWake (512 + i)

/-- The wakes of the sources in a mask are held no more. -/
def Dev.tocLetGo (d : Dev) (i m : Nat) : Dev :=
  let cut (w : SMap Nat) (k : Nat) : SMap Nat := SMap.set 0 w k (SMap.get 0 w k &&& ((2 ^ 32 - 1) ^^^ m))
  { d with tocWake := cut (cut d.tocWake i) (512 + i) }

/-- Bring TOC_STAT.IRQ, CUR and WAKE of instance `i` up to date, and deliver a rising edge of the output. -/
def Dev.tocUpdate (d : Dev) (i : Nat) : Dev :=
  let was := d.flag (TOC_STAT i) 0
  let now := ! (d.tocReady i).isEmpty
  let d := ((d.setF (TOC_STAT i) 8 3 (d.tocCur i)).setFlag (TOC_STAT i) 1
    (d.tocHeld i != 0)).setFlag (TOC_STAT i) 0 now
  if now && ! was then d.tocDeliver i else d

/-- The records a queue holds at most: 32 of a core, 256 of the device, 64 of a partition (R501). -/
def tocCap (k : Nat) : Nat := if k < 288 then 32 else if k = 288 then 256 else 64

def Dev.tocQueue (d : Dev) (k : Nat) : List TocRec := SMap.get [] d.tocq k

/-- Set the contents of queue `k` and its count register. -/
def Dev.setTocQueue (d : Dev) (k : Nat) (q : List TocRec) : Dev :=
  let d := { d with tocq := SMap.set [] d.tocq k q }
  if k < 289 then
    let d := (d.setF (TOC_RQSTAT k) 0 9 q.length).setFlag (TOC_PEND k) 0 (! q.isEmpty)
    if q.isEmpty then d.tocLetGo k 1 else d
  else d.setF (TOC_PRQCOUNT 288 (k - 289)) 0 7 q.length

/-- Write a record to queue `k`, or the LOST record of its reserve (R502). -/
def Dev.tocPush (d : Dev) (k : Nat) (x : TocRec) : Dev :=
  let q := d.tocQueue k
  let die := if k < 288 then dieOf (tocRegion k) else 0
  let tr (d : Dev) (s d0 : Nat) : Dev :=
    if 289 ≤ k then d
    else d.traceRec die 5 (if k = 288 && (s < 19 || 21 < s) then none else some x.part) x.origin none none
      (leBytes 1 s ++ zeros 3 ++ leBytes 4 d0)
  if q.length + 1 < tocCap k then tr (d.setTocQueue k (q ++ [x])) x.source x.data0
  else
    let d := if k < 289 then (d.setFlag (TOC_STAT k) 2 true).bump (TOC_RQLOST k) 1
      else (d.setFlag (TOC_PRQSTAT 288 (k - 289)) 6 true).bump (TOC_PRQLOST 288 (k - 289)) 1
    match q.getLast? with
    | some y =>
      if y.kind = 0x0F then
        d.setTocQueue k (q.dropLast ++ [{ y with data0 := satInc y.data0 1, data1 := x.time }])
      else tr (d.setTocQueue k (q ++ [{ x with kind := 0x0F, source := 0, data0 := 1, data1 := x.time }])) 0 1
    | none => d

/-- Write a record to the queue of partition `p`, and signal its vector 4 (R503). -/
def Dev.tocPushPart (d : Dev) (p : Nat) (x : TocRec) : Dev := (d.tocPush (289 + p) x).signal p 4

/-- An arrival of source `s` at instance `i` wakes the consumer the instance targets (R497). -/
def Dev.tocHold (d : Dev) (i s : Nat) : Dev :=
  let t := d.fld (TOC_CTL i) 0 2
  if t = 3 || (t = 1 && i != 288) then
    let k := if t = 3 then i else 512 + i
    { d with tocWake := SMap.set 0 d.tocWake k (putBits (SMap.get 0 d.tocWake k) s 1 1) }
  else d

/-- An arrival at an unmasked device source with VEC from 10 to 63 signals that vector (R499). -/
def Dev.tocVector (d : Dev) (i s : Nat) : Dev :=
  let v := d.fld (TOC_SRC i s) 8 6
  if i = 288 && ! d.flag (TOC_MASK i) s && 10 ≤ v then d.sendMsix 0 v else d

/-- A record enters the queue of instance `i`, which is an arrival of its source 0: COUNT counts records written (R492). -/
def Dev.rqArrive (d : Dev) (i : Nat) : Dev :=
  let d := d.setF (TOC_SRC i 0) 16 8 (min 255 (d.fld (TOC_SRC i 0) 16 8 + 1))
  if d.flag (TOC_ENABLE i) 0 then (d.tocHold i 0).tocVector i 0 else d

/-- Instance `i` writes a record of source `s` (R500 to R503). -/
def Dev.tocRecord (d : Dev) (i s part d0 d1 : Nat) : Dev :=
  let x : TocRec := { kind := 1, source := s, part := part, origin := tocOrigin i, time := d.time % 2 ^ 48,
                      data0 := d0 % 2 ^ 32, data1 := d1 % 2 ^ 64 }
  let old := (d.tocQueue i).length
  let d := d.tocPush i x
  let d := if old < (d.tocQueue i).length then d.rqArrive i else d
  if i = 288 then (if 19 ≤ s && s ≤ 21 then d.tocPushPart part x else d)
  else if d.flag (TOC_CTL i) 5 then
    match d.regPart (tocRegion i) with
    | some p => d.tocPushPart p x
    | none => d
  else d

/-- An arrival of source `s` at instance `i` (R491, R497 to R499); `always` marks the records written whatever ENABLE
holds. -/
def Dev.tocArrive (d : Dev) (i s part d0 d1 : Nat) (always : Bool) : Dev :=
  let en := d.flag (TOC_ENABLE i) s
  let a := TOC_SRC i s
  let e := if en then ((d.setFlag (TOC_PEND i) s true).setF a 16 8 (min 255 (d.fld a 16 8 + 1))).tocHold i s else d
  let e := if always || (en && d.flag a 2) then e.tocRecord i s part d0 d1 else e
  (if en then e.tocVector i s else e).tocUpdate i

/-! ### The log (R521 to R530) -/

/-- The 64 bytes of a log record (R521). -/
def LogRec.bytes (x : LogRec) : List Byte :=
  leBytes 4 x.boot ++ leBytes 4 x.seq ++ leBytes 8 x.time ++ leBytes 2 x.source ++ leBytes 2 x.kind ++
  leBytes 1 x.sev ++ leBytes 1 x.flags ++ leBytes 1 x.func ++ leBytes 1 x.part ++ leBytes 2 x.opcode ++
  leBytes 1 x.status ++ zeros 1 ++ leBytes 4 x.count ++ padTo 32 x.data

/-- Enter a record in the first-failure table, where its pair has no entry (R527, R528). -/
def Dev.firstFailure (d : Dev) (x : LogRec) : Dev :=
  if 256 ≤ d.car.ff.length then d.bump CAR_FFLOST 1
  else
    let d := { d with car := { d.car with ff := d.car.ff ++ [x] } }
    let d := d.setF CAR_FFCOUNT 0 9 d.car.ff.length
    let d := d.tocArrive 288 22 0 (x.source * 65536 + x.kind) 0 false
    d.sendMsix 0 9

/-- Records admitted to the journal in the present second (R530). -/
def Dev.jAdmitted (d : Dev) : Nat := if d.car.jSec = d.time / 400000000 then d.car.jAdm else 0

/-- Carillon with the record in the RAM log, and in the journal's buffer where it is admitted. -/
def Dev.logBooks (d : Dev) (x : LogRec) (ok : Bool) : Carillon :=
  let c := { d.car with log := (d.car.log ++ [x]).drop (d.car.log.length + 1 - 4096) }
  if ok then { c with jbuf := c.jbuf ++ [x], jSec := d.time / 400000000, jAdm := d.jAdmitted + 1,
                      jSince := if c.jbuf.isEmpty then d.time else c.jSince } else c

/-- Write the record to the RAM log, and to the journal where it is admitted (R521, R530). -/
def Dev.logWrite (d : Dev) (x : LogRec) (journal : Bool) : Dev :=
  let ok := journal && d.jAdmitted < 256
  let d := { d with car := d.logBooks (if ok then { x with flags := putBits x.flags 0 1 1 } else x) ok }
  let d := if journal && ! ok then d.bump CAR_JSKIP 1 else d
  let d := d.traceRec 0 6 (if x.part = 0xFF then none else some x.part) 0x300 none none
    (leBytes 2 x.kind ++ leBytes 1 x.sev ++ leBytes 1 x.func ++ leBytes 4 x.seq)
  d.setR CAR_LOGSEQ (d.rg CAR_LOGSEQ + 1)

/-- Add a suppressed record of COUNT `n` to its source's count and to CAR_LOGSUPP (R525). -/
def Dev.logSuppress (d : Dev) (source kind n : Nat) : Dev :=
  let c := d.car
  { d with car := { c with supp := SMap.set 0 c.supp source (SMap.get 0 c.supp source + n)
                           suppKind := SMap.set 0 c.suppKind source kind } }.bump CAR_LOGSUPP n

/-- A log record but for CMD: first-failure entry, then the rate limit of its source (R525, R527). -/
def Dev.log (d : Dev) (source kind sev part : Nat) (data : List Byte) (count : Nat := 1) : Dev :=
  let first := 2 ≤ sev && ! d.car.ff.any (fun y => y.source == source && y.kind == kind)
  let fl := (if d.tlState = 2 then 2 else 0) + (if first && d.car.ff.length < 256 then 4 else 0)
  let x : LogRec := { boot := d.rg CAR_BOOT, seq := d.rg CAR_LOGSEQ, time := d.time, source := source, kind := kind,
                      sev := sev, flags := fl, func := 0xFF, part := part, opcode := 0, status := 0, count := count,
                      data := padTo 32 data }
  let d := if first then d.firstFailure x else d
  let int := d.time / 400000
  let c := if d.car.rateInt = int then d.car else { d.car with rate := [], rateInt := int }
  let n := SMap.get 0 c.rate source
  if n < 16 then
    ({ d with car := { c with rate := SMap.set 0 c.rate source (n + 1) } }).logWrite
      { x with seq := d.rg CAR_LOGSEQ } (3 ≤ sev)
  else ({ d with car := c }).logSuppress source kind count

/-- The CMD record of a command (R521, R524): never suppressed, admitted to the journal where the command is
state-changing. -/
def Dev.logCmd (d : Dev) (opcode func part tag seq status : Nat) (pl : List Byte) (changing : Bool) : Dev :=
  d.logWrite { boot := d.rg CAR_BOOT, seq := d.rg CAR_LOGSEQ, time := d.time, source := 0, kind := 1, sev := 0,
               flags := if d.tlState = 2 then 2 else 0, func := func, part := part, opcode := opcode, status := status,
               count := 1, data := padTo 32 (leBytes 2 tag ++ zeros 2 ++ leBytes 4 seq ++ pl.take 24) } changing

/-- Log sources (R522). -/
def srcCore (q : Nat) : Nat := 0x1000 + q
def srcTcore (r : Nat) : Nat := 0x2000 + r
def srcScore (r : Nat) : Nat := 0x3000 + r
def srcRegion (r : Nat) : Nat := 0x4000 + r
def srcDie (k : Nat) : Nat := 0x5000 + k
def srcPort (q : Nat) : Nat := 0x6000 + q
def srcDdr (k : Nat) : Nat := 0x7000 + k
def srcFunc (f : Nat) : Nat := 0x8000 + f
def srcKeep : Nat := 0x9000
def srcSensor (i : Nat) : Nat := 0xA000 + i

/-! ### Sent and filed counts (R60, R61) -/

/-- The eight-slot key of a counting point's count for a beat. -/
def cntKey (point beat : Nat) : Nat := 8 * point + beat % 8

def Dev.addSent (d : Dev) (point beat k : Nat) : Dev :=
  { d with sent := SMap.set 0 d.sent (cntKey point beat) ((SMap.get 0 d.sent (cntKey point beat) + k) % 2 ^ 32) }

/-- The counting point of the router of region `r` for partition `p`: point 256 + r where the partition owns the region, and for
the drops of its events at another's region a count of its own (R60; log entry 33). -/
def Dev.routerPoint (d : Dev) (p r : Nat) : Nat := if d.owns p r then 256 + r else 304 + 16 * r + p

/-- The counting points of partition `p` on this device: its cores, every region router, its part of both die routers. -/
def Dev.points (d : Dev) (p : Nat) : List Nat :=
  ((d.regionsOf p).map (fun r => (d.coresOf r).map Prod.snd)).flatten ++ (upTo 16).map (d.routerPoint p) ++
    [272 + p, 288 + p]

/-- The sums of the sent and filed counts of a beat over a partition's points, modulo 2^32. -/
def Dev.sentSum (d : Dev) (p beat : Nat) : Nat :=
  ((d.points p).map (fun x => SMap.get 0 d.sent (cntKey x beat))).sum % 2 ^ 32
def Dev.filedSum (d : Dev) (p beat : Nat) : Nat :=
  ((d.points p).map (fun x => SMap.get 0 d.filed (cntKey x beat))).sum % 2 ^ 32

/-- The emission beat of an event whose EBEAT16 is `e`, for a partition at beat `n`: the number at most `n + 1` that
agrees with it modulo 2^16 (R196). -/
def emissionBeat (n e : Nat) : Nat :=
  let m := n + 1
  let δ := (m + 65536 - e % 65536) % 65536
  m - min m δ

/-- A beat's counts are open: it is the current beat or the next one, or an unsettled beat not yet closed (R71). -/
def Dev.beatOpen (d : Dev) (p e : Nat) : Bool :=
  let n := d.beat p
  e == n || e == n + 1 || (d.part p).openBeats.any (fun x => x.1 == e) || (e < n && ! d.running p)

/-- Count one copy filed at a counting point for emission beat `e` of partition `p`; a filing for a closed beat adds to
TAB_LATEFILE and sets LATE instead (R60, R71). -/
def Dev.file (d : Dev) (p point e : Nat) : Dev :=
  let d := if d.flag (OBS_PCTL p) 0 then d else d.count64 (OBS_PFILED_LO p) 1
  if d.beatOpen p e then
    { d with filed := SMap.set 0 d.filed (cntKey point e) ((SMap.get 0 d.filed (cntKey point e) + 1) % 2 ^ 32) }
  else (d.bump (TAB_LATEFILE p) 1).setFlag (TAB_BSTAT p) 4 true

end Sys2Proof.Machine
end

