-- ==== Sys2Proof/Machine/Link.lean ====
section
/-! DEFINITION. The links of the event plane: packets and class 0 flits with their CRCs, routing on the torus, and the output
ports with their virtual channels, credits and order of service (R235 to R248, R251, R255, R256, R261, R265, R270). -/

namespace Sys2Proof.Machine

/-! ### CRC-32 (R240) -/

def crcBit : Nat → Nat → Nat
  | 0, c => c
  | k + 1, c => crcBit k (if c % 2 = 1 then (c / 2) ^^^ 0xEDB88320 else c / 2)

/-- The CRC-32 of the IEEE 802.3 frame check sequence. -/
def crc32 (l : List Byte) : Nat := (l.foldl (fun c b => crcBit 8 (c ^^^ b.toNat)) 0xFFFFFFFF) ^^^ 0xFFFFFFFF

/-! ### Packets (R239) -/

/-- The header flit and payload flits of a packet whose header bytes 16 on are `tail`; the CRC is in place. -/
def packetOf (type cls dest dreg src part tag epoch : Nat) (tail payload : List Byte) : List Byte :=
  let n := ceilDiv payload.length 64
  let hd (crc : Nat) := leBytes 1 type ++ leBytes 1 cls ++ leBytes 2 (dest % 512 + dreg % 16 * 512) ++ leBytes 2 (src % 512) ++
    leBytes 1 n ++ leBytes 1 (part % 16) ++ leBytes 4 crc ++ leBytes 2 tag ++ leBytes 2 epoch ++ padTo 48 tail
  let pl := padTo (64 * n) payload
  let z := splice (hd 0) 1 (zeros 1)
  hd (crc32 (z ++ pl)) ++ pl

def pktType (l : List Byte) : Nat := byteAt l 0
def pktClass (l : List Byte) : Nat := byteAt l 1 % 8
def pktDest (l : List Byte) : Nat := leAt l 2 2 % 512
def pktReg (l : List Byte) : Nat := bitsOf (leAt l 2 2) 9 4
def pktSrc (l : List Byte) : Nat := leAt l 4 2 % 512
def pktPart (l : List Byte) : Nat := byteAt l 7 % 16
def pktTag (l : List Byte) : Nat := leAt l 12 2
def pktEpoch (l : List Byte) : Nat := leAt l 14 2
/-- Payload bytes. -/
def pktPay (l : List Byte) : List Byte := l.drop 64

/-- The CRC check of a packet (R240), its LEN in agreement with the flits that came. -/
def pktGood (l : List Byte) : Bool :=
  64 ≤ l.length && l.length == 64 * (1 + byteAt l 6) && byteAt l 6 ≤ 32 &&
    crc32 (splice (splice l 1 (zeros 1)) 8 (zeros 4)) == leAt l 8 4

/-! ### Class 0 flits (R64, R238, R251) -/

/-- The CRC of a class 0 flit (R238): bytes 0 to 3 with HOPS zero, and bytes 8 to 63. -/
def c0Crc (l : List Byte) : Nat := crc32 (leBytes 4 (putBits (leAt l 0 4) 22 4 0) ++ slice l 8 56)

/-- The class 0 flit of a KIND (1 Tattoo, 2 alarm) from `src` to `dest` with its 56 payload bytes. -/
def c0Flit (kind dest src : Nat) (payload : List Byte) : List Byte :=
  let w := leBytes 4 (kind % 16 + dest % 512 * 16 + src % 512 * 2 ^ 13)
  let z := w ++ zeros 4 ++ padTo 56 payload
  w ++ leBytes 4 (c0Crc z) ++ padTo 56 payload

def c0Kind (l : List Byte) : Nat := byteAt l 0 % 16
def c0Dest (l : List Byte) : Nat := bitsOf (leAt l 0 4) 4 9
def c0Src (l : List Byte) : Nat := bitsOf (leAt l 0 4) 13 9
def c0Hops (l : List Byte) : Nat := bitsOf (leAt l 0 4) 22 4
/-- A class 0 flit passes its check. -/
def c0Good (l : List Byte) : Bool := l.length == 64 && c0Crc l == leAt l 4 4
/-- TYPE of a class 0 flit's payload. -/
def c0Type (l : List Byte) : Nat := byteAt l 8

/-- Bytes 8 to 63 of a Tattoo flit (R64). -/
def Tattoo.bytes (t : Tattoo) (type : Nat) : List Byte :=
  leBytes 1 type ++ leBytes 1 (t.part % 16) ++ leBytes 2 t.round ++ leBytes 6 t.beat ++ leBytes 1 (t.flags % 32) ++ zeros 1 ++
    leBytes 8 t.sent ++ leBytes 8 t.filed ++ leBytes 2 t.nreport ++ zeros 26

/-- What a Tattoo flit carries. -/
def tattooOf (l : List Byte) : Tattoo :=
  { part := byteAt l 9 % 16, round := leAt l 10 2, beat := leAt l 12 6, flags := byteAt l 18 % 32, sent := leAt l 20 8,
    filed := leAt l 28 8, nreport := leAt l 36 2 }

/-- Bytes 8 to 63 of an alarm flit (R251). -/
def Alarm.bytes (a : Alarm) : List Byte :=
  leBytes 1 0x20 ++ leBytes 1 a.cause ++ leBytes 2 a.merged ++ leBytes 2 (a.first % 512) ++ leBytes 6 a.time ++
    leBytes 2 a.partMask ++ zeros 42

/-- What an alarm flit carries. -/
def alarmOf (l : List Byte) : Alarm :=
  { cause := byteAt l 9, merged := leAt l 10 2, first := leAt l 12 2 % 512, time := leAt l 14 6, partMask := leAt l 20 2 }

/-- Alarm `b` merged into the waiting alarm `a` (R251). -/
def Alarm.merge (a b : Alarm) : Alarm :=
  { a with cause := a.cause ||| b.cause, merged := min 65535 (a.merged + b.merged), partMask := a.partMask ||| b.partMask }

/-! ### The torus (R25, R243 to R247) -/

/-- This device's ID. -/
def Dev.devId (d : Dev) : Nat := d.fld (FAB_DCFG 0) 0 9

def coordOf (id dim : Nat) : Nat := id / 8 ^ dim % 8
def withCoord (id dim c : Nat) : Nat := id + c * 8 ^ dim - coordOf id dim * 8 ^ dim

/-- Register of die `die`'s direction table for a dimension. -/
def rtReg (die dim : Nat) : Nat := if dim = 0 then FAB_RTX die else if dim = 1 then FAB_RTY die else FAB_RTZ die

/-- The die and port number within the die of port 0 to 7. -/
def portDie (q : Nat) : Nat := q / 4
def portStat (q : Nat) : Nat := FAB_PSTAT (q / 4) (q % 4)
/-- FAB_PSTAT.STATE of port `q`: 0 DISABLED, 1 TRAINING, 2 UP, 3 FAILED, 4 ETHERNET. -/
def Dev.portState (d : Dev) (q : Nat) : Nat := d.fld (portStat q) 0 3
/-- The port is UP and passes the checks of R558 (JOINED): it carries traffic of the fabric. -/
def Dev.portUp (d : Dev) (q : Nat) : Bool := d.fld (portStat q) 0 3 == 2 && d.flag (CAL_PORTSTAT q) 0

/-- Devices in a dimension (FAB_DCFG.DIMS). -/
def Dev.dimSize (d : Dev) (dim : Nat) : Nat := 1 + d.fld (FAB_DCFG 0) (14 + 3 * dim) 3

/-- The device across port `q` of device `dev`: none in a dimension of size 1, and for a W port that the plan does not
pair. -/
def Dev.nbr (d : Dev) (dev q : Nat) : Option Nat :=
  let dim := min (q / 2) 2
  let n := d.dimSize dim
  if n = 1 || (6 ≤ q && ! d.flag (FAB_DCFG 1) 23) then none
  else
    let c := coordOf dev dim
    some (withCoord dev dim ((if q % 2 = 0 then c + 1 else c + n - 1) % n))

def Dev.present (d : Dev) (dev : Nat) : Bool := dev == d.devId || d.fabDevs.contains dev

/-- The end of a link at port `q` of `dev` is working. -/
def Dev.endUp (d : Dev) (dev q : Nat) : Bool :=
  if dev = d.devId then d.portUp q else d.fabDevs.contains dev && SMap.get 0 d.links (8 * dev + q) == 0

def opposite (q : Nat) : Nat := if q % 2 = 0 then q + 1 else q - 1

/-- The link at port `q` of `dev` works: both its ends do. -/
def Dev.linkWorks (d : Dev) (dev q : Nat) : Bool :=
  match d.nbr dev q with
  | none => false
  | some m => d.endUp dev q && d.endUp m (opposite q)

/-- The port over a tree edge to a neighbour. -/
def Dev.portTo (d : Dev) (m : Nat) : Option Nat := (upTo 8).find? (fun q => d.linkWorks d.devId q && d.nbr d.devId q == some m)

/-! ### Virtual channels and credits (R241, R255) -/

/-- The VC of a packet of a class and type, on the upper or lower channel of its pair (R241, R246). -/
def vcOf (cls type up : Nat) : Nat :=
  if cls = 0 then 0
  else if cls = 4 then (if type = 0x41 then 8 else 7)
  else if cls = 6 then 11
  else if cls = 5 then 9 + up % 2
  else 2 * cls - 1 + up % 2

/-- The flits an input reserves for a VC. -/
def vcMin (v : Nat) : Nat := if v = 0 then 17 else if v = 7 || v = 8 then 68 else 8
/-- The VC may draw on the shared pool of 287 flits: classes 1, 2, 3, 5 and 6. -/
def vcShares (v : Nat) : Bool := v ≠ 0 && v ≠ 7 && v ≠ 8

def Dev.oport (d : Dev) (q : Nat) : OPort := SMap.get default d.oports q
def Dev.setOport (d : Dev) (q : Nat) (x : OPort) : Dev := { d with oports := SMap.set default d.oports q x }
def Dev.lport (d : Dev) (q : Nat) : LPort := SMap.get default d.lports q
def Dev.setLport (d : Dev) (q : Nat) (x : LPort) : Dev := { d with lports := SMap.set default d.lports q x }

/-- Flits of the peer's shared pool that this output has taken. -/
def OPort.pool (x : OPort) : Nat := ((upTo 12).map (fun v => if vcShares v then SMap.get 0 x.used v - vcMin v else 0)).sum

/-- Free credit of an output for a VC: what the peer's buffer can still take of it. -/
def OPort.credit (x : OPort) (v : Nat) : Nat :=
  (vcMin v - SMap.get 0 x.used v) + (if vcShares v then 287 - x.pool else 0)

/-- `n` flits of VC `v` have gone to the peer's buffer. -/
def OPort.take (x : OPort) (v n : Nat) : OPort := { x with used := SMap.set 0 x.used v (SMap.get 0 x.used v + n) }
/-- The peer has returned `n` credits of VC `v`. -/
def OPort.give (x : OPort) (v n : Nat) : OPort := { x with used := SMap.set 0 x.used v (SMap.get 0 x.used v - n) }

/-- Flits of a waiting packet that have still to go. -/
def Worm.left (w : Worm) : Nat := w.data.length / 64 - w.sent

/-- The first packet waiting in each VC, in rising order of VC. -/
def OPort.heads (x : OPort) : List Worm := (upTo 12).filterMap (fun v => x.queue.find? (fun w => w.vc == v))

/-- What the output serves next (R242, R255): class 0, then class 4, then the packet under way, then the next VC in turn, among
those that have credit for `need w` flits. -/
def OPort.pick (x : OPort) (need : Worm → Nat) : Option Worm :=
  let ready := x.heads.filter (fun w => need w ≤ x.credit w.vc)
  let rest := ready.filter (fun w => vcShares w.vc)
  ((ready.find? (fun w => w.vc == 0)).or (x.queue.find? (fun w => (w.vc == 7 || w.vc == 8) && ready.contains w))).or
    ((rest.find? (fun w => w.vc == x.last && w.sent != 0)).or ((rest.find? (fun w => x.last < w.vc)).or rest.head?))

/-- `n` flits leave the input buffer of a packet: the credits go back over the bridge at once, and to a port's peer in later link
tags. -/
def Dev.leaveInput (d : Dev) (src : Option (Nat × Nat)) (n : Nat) : Dev :=
  match src with
  | none => d
  | some (q, v) =>
    if 8 ≤ q then d.setOport q ((d.oport q).give v n)
    else d.setLport q { d.lport q with owed := SMap.set 0 (d.lport q).owed v (SMap.get 0 (d.lport q).owed v + n) }

/-- The position field of flit `i` of `n` (R261). -/
def flitPos (i n : Nat) : Nat := if n = 1 then 3 else if i = 0 then 0 else if i + 1 = n then 2 else 1

/-- The link tag of a flit with the credits `n` of VC `cv` it returns (R261). -/
def linkTag (vc pos cv n err : Nat) : Nat := vc % 16 * 4096 + pos % 4 * 1024 + cv % 16 * 64 + n % 32 * 2 + err % 2

/-- The next flit of a waiting packet leaves on port `q` (R255, R261). -/
def Dev.sendFlit (d : Dev) (q : Nat) (w : Worm) : Dev :=
  let n := w.data.length / 64
  let last := w.sent + 1 == n
  let x := d.oport q
  let w' := { w with sent := w.sent + 1 }
  let queue := if last then x.queue.erase w else x.queue.replace w w'
  let d := d.setOport q { (x.take w.vc 1) with queue := queue, last := if vcShares w.vc then w.vc else x.last }
  let d := d.leaveInput w.src 1
  let p := d.lport q
  let c := (p.owed.head?).getD (0, 0)
  let k := min 31 c.2
  let d := if c.2 = 0 then d else d.setLport q { p with owed := SMap.set 0 p.owed c.1 (c.2 - k) }
  let d := if w.sent = 0 && w.vc ≠ 0 then
      d.traceRec (portDie q) 9 none 0x300 none none (w.data.take 2 ++ (w.data.drop 2).take 5 ++ leBytes 1 q) else d
  (d.bump64 (FAB_PTXFLIT_LO (q / 4) (q % 4)) 1).emit
    (.flit q (linkTag w.vc (flitPos w.sent n) c.1 k (natOf (w.err && last))) (slice w.data (64 * w.sent) 64))

/-- Port `q` serves its queue while credit lasts; `fuel` flits at most. -/
def Dev.servePort (q : Nat) : Nat → Dev → Dev
  | 0, d => d
  | fuel + 1, d => match (d.oport q).pick (fun _ => 1) with
    | none => d
    | some w => Dev.servePort q fuel (d.sendFlit q w)

/-- Bridge direction `k` (8 from die 0, 9 from die 1) passes on what the far half has credit for, whole packets at a time; `fuel`
packets at most (R236; log entry 169). -/
def Dev.serveBridge (k : Nat) : Nat → Dev → Dev
  | 0, d => d
  | fuel + 1, d => match (d.oport k).pick Worm.left with
    | none => d
    | some w =>
      let n := w.left
      let x := d.oport k
      let d := d.setOport k { (x.take w.vc n) with queue := x.queue.erase w, last := if vcShares w.vc then w.vc else x.last }
      let d := (d.leaveInput w.src n).bump64 (FAB_BRFLIT_LO (k - 8)) n
      let o := d.oport w.port
      Dev.serveBridge k fuel (d.setOport w.port { o with queue := o.queue ++ [{ w with src := some (k, w.vc) }] })

def OPort.flits (x : OPort) : Nat := (x.queue.map Worm.left).sum

/-- The bridge directions and the ports serve their queues until nothing more can go. -/
def Dev.pumpN : Nat → Dev → Dev
  | 0, d => d
  | fuel + 1, d =>
    let d := d.forEach [8, 9] (fun d k => Dev.serveBridge k (d.oport k).queue.length d)
    Dev.pumpN fuel (d.forEach (upTo 8) (fun d q => Dev.servePort q (d.oport q).flits d))

def Dev.pump (d : Dev) : Dev := Dev.pumpN ((d.oport 8).queue.length + (d.oport 9).queue.length + 1) d

/-- A packet made on die `die`, or standing in an input buffer of it, joins the queue of port `q`; between the dies it goes by the
bridge, where a failed bridge discards it (R236, R255, R614). -/
def Dev.enqueue (d : Dev) (die q : Nat) (w : Worm) : Dev :=
  let w := { w with port := q }
  if portDie q = die then
    let x := d.oport q
    (d.setOport q { x with queue := x.queue ++ [w] }).pump
  else if d.flag FLT_STAT 4 then (d.leaveInput w.src w.left).bump (FAB_PDISC (q / 4) (q % 4)) w.left
  else
    let x := d.oport (8 + die)
    (d.setOport (8 + die) { x with queue := x.queue ++ [w] }).pump

/-- Traffic of die `die` for the other die is discarded at the failed bridge: `flits` of it are counted at the die's first port
(R614; log entry 167). -/
def Dev.bridgeDrop (d : Dev) (die flits : Nat) : Dev := d.bump (FAB_PDISC die 0) flits

/-- What waits at output `k` is discarded, each flit counted at the port it was queued for (R270). -/
def Dev.discardOut (d : Dev) (k : Nat) : Dev :=
  let x := d.oport k
  let d := d.forEach x.queue (fun d w => (d.leaveInput w.src w.left).bump (FAB_PDISC (w.port % 8 / 4) (w.port % 4)) w.left)
  d.setOport k { x with queue := [] }

/-- Everything in flight on the fabric ports and on the die bridge is discarded (R606). -/
def Dev.discardFlight (d : Dev) : Dev := d.forEach (upTo 10) Dev.discardOut

/-! ### Class 0 at the outputs (R251, R256, R265) -/

/-- A Tattoo flit for port `q`: one of the same partition that still waits there gives way to it (R265; log entry 170). -/
def Dev.putTattoo (d : Dev) (die q : Nat) (src : Option (Nat × Nat)) (l : List Byte) : Dev :=
  let mine (w : Worm) : Bool := w.vc == 0 && c0Kind w.data == 1 && byteAt w.data 9 % 16 == byteAt l 9 % 16
  let x := d.oport q
  let d := d.forEach (x.queue.filter mine) (fun d w => d.leaveInput w.src 1)
  (d.setOport q { x with queue := x.queue.filter (fun w => ! mine w) }).enqueue die q { (default : Worm) with data := l, src := src }

/-- An alarm flit for port `q` from die `die` (R251): merged into one that waits there, the CRC formed again. -/
def Dev.putAlarm (d : Dev) (die q : Nat) (src : Option (Nat × Nat)) (l : List Byte) : Dev :=
  let mine (w : Worm) : Bool := w.vc == 0 && c0Kind w.data == 2
  let x := d.oport q
  match x.queue.find? mine with
  | some w =>
    let new := c0Flit 2 (c0Dest w.data) (c0Src w.data) ((alarmOf w.data).merge (alarmOf l)).bytes
    let new := splice new 0 (leBytes 4 (putBits (leAt new 0 4) 22 4 (c0Hops w.data)))
    ((d.leaveInput src 1).setOport q { x with queue := x.queue.map (fun y => if y == w then { w with data := new } else y) }).bump
      (FAB_C0MERGE (portDie q)) 1
  | none => d.enqueue die q { (default : Worm) with data := l, src := src }

/-! ### Routing and sending (R243 to R247) -/

/-- The link a packet of VC `v` takes in a dimension: the port of direction `dir` (1 plus, 2 minus); of a Z link and its paired W
link, the one with more free credit, and Z where they have the same (R243). -/
def Dev.linkOf (d : Dev) (dim dir v : Nat) : Option Nat :=
  let q := 2 * dim + (dir - 1)
  let pair := dim = 2 && d.flag (FAB_DCFG 1) 23 && d.portUp (q + 2)
  if dir = 0 || 3 ≤ dir then none
  else if d.portUp q then some (if pair && (d.oport q).credit v < (d.oport (q + 2)).credit v then q + 2 else q)
  else if pair then some (q + 2)
  else none

/-- Where a packet for device `dest` goes from die `die`: none where the device itself is its target, else the dimension, the
direction and whether the link it takes crosses the dateline.  `cur` is the dimension it is in with its direction, 3 for none. -/
def Dev.route (d : Dev) (die dest cur dirn : Nat) : Option (Nat × Nat × Nat) :=
  let own := d.devId
  match [0, 1, 2].filter (fun k => coordOf own k != coordOf dest k) with
  | [] => none
  | k :: _ =>
    let dir := if k = cur && dirn ≠ 0 then dirn else d.fld (rtReg die k) (2 * coordOf dest k) 2
    let n := 1 + d.fld (FAB_DCFG die) (14 + 3 * k) 3
    let c := coordOf own k
    some (k, dir, natOf ((dir = 1 && c + 1 = n) || (dir = 2 && c = 0)))

/-- A packet or flit with no way to its target is discarded (R247). -/
def Dev.noRoute (d : Dev) (die : Nat) : Dev := (d.bump (FAB_NOROUTE die) 1).setFlag (FAB_DSTAT die) 2 true

/-- Send a packet of this device, or one in transit from input `src`, onwards from die `die` (R236, R242 to R247). -/
def Dev.sendPacket (d : Dev) (die : Nat) (src : Option (Nat × Nat)) (err : Bool) (l : List Byte) : Dev :=
  let cur := match src with | some x => min (x.1 / 2) 2 | none => 3
  let dirn := if src.isSome then bitsOf (byteAt l 1) 4 2 else 0
  match d.route die (pktDest l) cur dirn with
  | none => d
  | some (dim, dir, dl) =>
    let cls := pktClass l
    let keep := if dim = cur then bitsOf (byteAt l 1) 3 1 else 0
    let up := if cls = 0 || cls = 4 || cls = 6 then 0 else max keep dl
    let vc := vcOf cls (pktType l) up
    match d.linkOf dim dir vc with
    | none => (d.leaveInput src (l.length / 64)).noRoute die
    | some q => d.enqueue die q { (default : Worm) with vc := vc, src := src, err := err,
                                                        data := splice l 1 (leBytes 1 (cls + 8 * up + 16 * dir)) }

/-- Send a class 4 or class 6 packet over port `q` to the device across it, from die `die`. -/
def Dev.sendHop (d : Dev) (die q : Nat) (l : List Byte) : Dev :=
  d.enqueue die q { (default : Worm) with vc := vcOf (pktClass l) (pktType l) 0, data := l }

/-- Carillon's MGMT packet of a kind to the device across port `q` (R239); its message header, and the message where the spec
gives no layout, are open bytes (log entry 16). -/
def Dev.mgmtPacket (d : Dev) (q kind : Nat) (args : List Nat) (msg : Option (List Byte)) : List Byte :=
  let head := (upTo 48).map (Config.mgmtByte kind args)
  let pay := match msg with | some l => l | none => (upTo 128).map (fun i => Config.mgmtByte kind args (48 + i))
  packetOf 0x60 6 (d.fld (FAB_PPEER (q / 4) (q % 4)) 0 9) 0 d.devId 0 0 0 head pay

/-- It goes out by that port. -/
def Dev.sendMgmt (d : Dev) (q kind : Nat) (args : List Nat) (msg : Option (List Byte)) : Dev :=
  d.sendHop 0 q (d.mgmtPacket q kind args msg)

/-- A message of Carillon to every device, over every port in use but `but` (R271, R552). -/
def Dev.spreadMgmt (d : Dev) (but : Option Nat) (kind : Nat) (args : List Nat) : Dev :=
  d.forEach ((upTo 8).filter (fun q => d.portUp q && but != some q)) (fun d q => d.sendMgmt q kind args none)

/-- A message of Carillon to device `dest`, towards which it takes the first link of the route. -/
def Dev.mgmtTo (d : Dev) (dest kind : Nat) (args : List Nat) : Dev :=
  match d.route 0 dest 3 0 with
  | none => d
  | some (dim, dir, _) => match d.linkOf dim dir 11 with
    | none => d.noRoute 0
    | some q => d.sendMgmt q kind args none

/-- A class 0 flit goes by dimension order towards its target (R246, R251, R256), where it ends. -/
def Dev.sendZero (d : Dev) (die : Nat) (src : Option (Nat × Nat)) (l : List Byte) : Dev :=
  match d.route die (c0Dest l) 3 0 with
  | none => d.leaveInput src 1
  | some (dim, dir, _) => match d.linkOf dim dir 0 with
    | none => (d.leaveInput src 1).noRoute die
    | some q => if c0Kind l = 2 then d.putAlarm die q src l else d.putTattoo die q src l

/-- A Tattoo flit to the neighbour `dest` in a span group's tree (R64, R265). -/
def Dev.sendTattoo (d : Dev) (type dest : Nat) (t : Tattoo) : Dev :=
  match d.portTo dest with
  | none => d
  | some q => d.putTattoo 0 q none (c0Flit 1 dest d.devId (t.bytes type))

end Sys2Proof.Machine
end

