-- ==== Sys2Proof/Machine/Seq.lean ====
section
/-! DEFINITION. The S-core's registers, its program counter and its stops (R399 to R405, R425), and access to the state of
T-cores and S-cores. -/

namespace Sys2Proof.Machine

def Dev.tcore (d : Dev) (r : Nat) : TCore := SMap.get default d.tcores r
def Dev.setTcore (d : Dev) (r : Nat) (x : TCore) : Dev := { d with tcores := SMap.set default d.tcores r x }
def Dev.score (d : Dev) (r : Nat) : SCore := SMap.get default d.scores r
def Dev.setScore (d : Dev) (r : Nat) (x : SCore) : Dev := { d with scores := SMap.set default d.scores r x }

/-- SEQ_STAT.STATE: 0 HALTED, 1 RUNNING, 2 WAITING, 3 FAULT. -/
def Dev.seqState (d : Dev) (r : Nat) : Nat := d.fld (SEQ_STAT r) 0 2
def Dev.setSeq (d : Dev) (r state wait : Nat) : Dev := (d.setF (SEQ_STAT r) 0 2 state).setF (SEQ_STAT r) 8 4 wait
def Dev.seqPc (d : Dev) (r : Nat) : Nat := d.fld (SEQ_PC r) 0 12
/-- Descriptor `k` of the program memory. -/
def Dev.progAt (d : Dev) (r k : Nat) : List Byte := padTo 16 (SMap.get [] (d.score r).prog k)
/-- The descriptor at the PC. -/
def Dev.seqDesc (d : Dev) (r : Nat) : List Byte := d.progAt r (d.seqPc r)
/-- General registers (R399). -/
def Dev.greg (d : Dev) (r i : Nat) : Nat := d.rg64 (SEQ_Gi_LO r i)
def Dev.setG (d : Dev) (r i v : Nat) : Dev := d.set64 (SEQ_Gi_LO r i) (v % 2 ^ 64)

/-- Fields of a descriptor (R400). -/
def dOpc (x : List Byte) : Nat := byteAt x 0
def dCsel (x : List Byte) : Nat := byteAt x 1 % 8
def dPost (x : List Byte) : Bool := bitAt (byteAt x 1) 3
def dGd (x : List Byte) : Nat := byteAt x 2 / 16
def dGs (x : List Byte) : Nat := byteAt x 2 % 16
def dCh (x : List Byte) : Nat := byteAt x 3 % 32
def dImm (x : List Byte) : Nat := leAt x 4 4
def dAddr (x : List Byte) : Nat := leAt x 8 8
/-- IMM sign-extended, modulo 2^64. -/
def dImm64 (x : List Byte) : Nat := uOf 64 (sInt 32 (dImm x))

/-- The S-core of region `r` stops in FAULT with a code (R404). -/
def Dev.seqFault (d : Dev) (r code pc : Nat) : Dev :=
  let d := (d.setR (SEQ_FAULT r) (code * 2 ^ 24 + pc % 4096)).setSeq r 3 0
  let d := d.setScore r { d.score r with cur := none, halt := false }
  d.tocArrive (272 + r) 2 ((d.regPart r).getD 0) code pc true

/-- The descriptor at the PC has been executed: the count of them, and the PC is `n`; a PC at or above 4,096 faults
(R404); a HALT asked for meanwhile takes effect (R425). -/
def Dev.seqGoto (d : Dev) (r n : Nat) : Dev :=
  let d := d.bump64 (SEQ_DESC_LO r) 1
  if 4096 ≤ n then d.seqFault r 4 (d.seqPc r)
  else
    let h := (d.score r).halt
    let d := d.setScore r { d.score r with cur := none, halt := false }
    (d.setF (SEQ_PC r) 0 12 n).setSeq r (if h then 0 else 1) 0

/-- On to the next descriptor. -/
def Dev.seqNext (d : Dev) (r : Nat) : Dev := d.seqGoto r (d.seqPc r + 1)

/-- The S-core waits at its present descriptor, for WAIT reason `w`. -/
def Dev.seqWait (d : Dev) (r w : Nat) : Dev := d.setSeq r 2 w

/-- The CKPT descriptor the S-core waits at ends with a status in GD (R402). -/
def Dev.seqStatus (d : Dev) (r code : Nat) : Dev :=
  if d.seqState r = 2 && dOpc (d.seqDesc r) = 0x15 then (d.setG r (dGd (d.seqDesc r)) code).seqNext r else d

/-- The S-core halts and what it has in flight is lost (R405). -/
def Dev.seqStop (d : Dev) (r : Nat) : Dev :=
  let d := d.setScore r { d.score r with ops := [], acks := [], cur := none, halt := false }
  let d := { d with reqs := d.reqs.filter (fun q => q.region != r)
                    car := { d.car with waiting := d.car.waiting.filter (fun w => w.hdr.func != 0x100 + r) } }
  (d.setSeq r 0 0).setR (SEQ_OUTST r) 0

/-- SEQ_CTL.HALT: halts after the current descriptor (R425). -/
def Dev.seqHalt (d : Dev) (r : Nat) : Dev :=
  if d.seqState r = 1 then d.setSeq r 0 0
  else if d.seqState r = 2 then d.setScore r { d.score r with halt := true }
  else d

/-- Operation `id` of the S-core of region `r` ends: its acknowledgement is on its way (R403, R412). -/
def Dev.opEnd (d : Dev) (r id : Nat) (refused : Bool) : Dev :=
  let x := d.score r
  match x.ops.find? (fun o => o.id == id) with
  | none => d
  | some o => d.setScore r { x with ops := x.ops.filter (fun o => o.id != id)
                                    acks := x.acks ++ [(dCsel o.desc, refused || o.refused, o.posted)] }

/-- The acknowledgement at the head of those on their way reaches the S-core (R403, R412): the counter rises; a posted
operation leaves the outstanding count; one waited for lets the S-core go on. -/
def Dev.acknowledge (d : Dev) (r : Nat) : Dev :=
  let x := d.score r
  match x.acks with
  | [] => d
  | (c, ref, posted) :: rest =>
    let d := d.setScore r { x with acks := rest }
    let d := d.setR (SEQ_CCNT r c) (d.rg (SEQ_CCNT r c) + 1)
    let d := if ref then ((d.setFlag (SEQ_CSTAT r) c true).bump (SEQ_REFUSED r) 1).tocArrive (272 + r) 4
        ((d.regPart r).getD 0) c 0 false else d
    if posted then
      let d := d.setF (SEQ_OUTST r) 0 7 (d.fld (SEQ_OUTST r) 0 7 - 1)
      if d.seqState r = 2 && d.fld (SEQ_STAT r) 8 4 = 5 then d.setSeq r 1 0 else d
    else if d.seqState r = 2 then d.seqNext r else d

end Sys2Proof.Machine
end

