-- ==== Sys2Proof/Machine/Power.lean ====
section
/-! DEFINITION. Power votes and domain levels (R571 to R577): the part every chapter's events touch. -/

namespace Sys2Proof.Machine

/-- Domain of quad `k` (0 to 3), T-core (4) or S-core (5) of region `r` (R571). -/
def domOf (r k : Nat) : Nat := 6 * r + k
def domPort (q : Nat) : Nat := 104 + q
def domTrace : Nat := 114
def domTunnel : Nat := 119
/-- The clients of R573. -/
def cliHost : Nat := 0
def cliPart (p : Nat) : Nat := 1 + p
def cliScore (r : Nat) : Nat := 17 + r
def cliPolicy : Nat := 33
def cliTabor : Nat := 34

/-- LEVEL of a domain: 0 OFF, 1 RET, 2 ON. -/
def Dev.domLevel (d : Dev) (x : Nat) : Nat := d.fld (PWR_DSTAT x) 30 2

/-- The vote of client `c` on domain `x`: ON prevails where both bits are set (R595). -/
def Dev.vote (d : Dev) (c x : Nat) : Nat :=
  if d.flag (PWR_VON c (x / 32)) (x % 32) then 2 else if d.flag (PWR_VRET c (x / 32)) (x % 32) then 1 else 0

/-- A Tocsin of region `r` holds its wake of the S-core (R497). -/
def Dev.scoreWoken (d : Dev) (r : Nat) : Bool := d.tocWake.any (fun w => 512 ≤ w.1 && tocRegion (w.1 - 512) == r)

/-- The highest vote held on domain `x`, from its vote counts (R573) and the wakes of R497. -/
def Dev.voted (d : Dev) (x : Nat) : Nat :=
  if d.fld (PWR_DSTAT x) 16 8 ≠ 0 || (x < 96 && x % 6 = 5 && d.scoreWoken (x / 6)) then 2 else if d.fld (PWR_DSTAT x) 8 8 ≠ 0 then 1 else 0

/-- A core of domain `x` has work in progress (R574). -/
def Dev.domBusy (d : Dev) (x : Nat) : Bool :=
  let r := x / 6
  let k := x % 6
  if 96 ≤ x then false
  else if k = 4 then d.flag (TCR_STAT r) 0 || d.fld (TCR_DQSTAT r) 4 4 ≠ 0
  else if k = 5 then d.fld (SEQ_STAT r) 0 2 ≠ 0
  else (upTo 4).any (fun j =>
    let q := 16 * r + 4 * k + j
    let c := d.core q
    ! c.farOut.isEmpty || c.stall.isSome || d.flag (HRV_STAT q) 0 || d.flag (HRV_STAT q) 1 ||
      ((match d.regPart r with
        | some p => d.running p
        | none => false) && (d.physOf ((d.logOf q).getD 256)).isSome && c.final != some (d.region r).beat))

/-- The domain starts to follow its votes: CHANGING is set where its level differs, BUSYHOLD where work holds it ON
(R572 to R575). -/
def Dev.domFollow (d : Dev) (x : Nat) : Dev :=
  let t := d.voted x
  let l := d.domLevel x
  let hold := l = 2 && t < 2 && d.domBusy x
  (d.setFlag (PWR_DSTAT x) 29 (t != l && ! hold)).setFlag (PWR_DSTAT x) 28 hold

/-- Client `c` votes `v` on domain `x` (0 NONE, 1 RET, 2 ON): the vote words and the counts of PWR_DSTAT. -/
def Dev.setVote (d : Dev) (c x v : Nat) : Dev :=
  let old := d.vote c x
  let d := (d.setFlag (PWR_VON c (x / 32)) (x % 32) (v == 2)).setFlag (PWR_VRET c (x / 32)) (x % 32) (v == 1)
  if old = v then d
  else
    let d := d.setF (PWR_DSTAT x) 16 8 (d.fld (PWR_DSTAT x) 16 8 + natOf (v == 2) - natOf (old == 2))
    let d := d.setF (PWR_DSTAT x) 8 8 (d.fld (PWR_DSTAT x) 8 8 + natOf (v == 1) - natOf (old == 1))
    d.domFollow x

/-- The domains client `c` may vote on (R573). -/
def Dev.mayVote (d : Dev) (c x : Nat) : Bool :=
  if 120 ≤ x then false
  else if c = 0 || c = 33 then true
  else if c = 34 then x < 96
  else if c < 17 then x < 96 && d.owns (c - 1) (x / 6)
  else x < 96 && x / 6 = c - 17 && (d.regPart (c - 17)).isSome

/-- The Tabor's votes on the domains of region `r` (R577): ON while its partition is RUNNING, MUFFLING or MUFFLED, but RET
on a napping quad (R578); NONE otherwise. -/
def Dev.taborVotes (d : Dev) (r : Nat) : Dev :=
  let on := match d.regPart r with
    | some p => d.running p || d.bstate p == 3
    | none => false
  d.forEach (upTo 6) (fun d k =>
    d.setVote cliTabor (domOf r k) (if ! on then 0 else if k < 4 && d.naps.contains (4 * r + k) then 1 else 2))

/-- The Tabor's votes for every region of partition `p`. -/
def Dev.taborPart (d : Dev) (p : Nat) : Dev := d.forEach (d.regionsOf p) Dev.taborVotes

end Sys2Proof.Machine
end

