-- ==== Sys2Proof/Machine/Bellpull.lean ====
section
/-! DEFINITION. What every Bellpull command shares: the checks of R513, the service limits of R534, R543 and R554,
the CMD record, the configuration measurement and the response (R507 to R520, R524, R536). -/

namespace Sys2Proof.Machine

/-- The issuer column of the command tables.  The physical function may issue what an owner may (R16; log entry 10). -/
inductive Issuer
  | any | owner | pf
  deriving DecidableEq, Repr

/-- What the command tables say of an opcode beside its effect. -/
structure CmdSpec where
  opcode : Nat
  issuer : Issuer
  /-- The opcode names the partition of the header's PART. -/
  names  : Bool
  /-- The name ends in READ, STATUS or LIST (R524). -/
  ro     : Bool
  /-- The payload length the opcode asks for. -/
  len    : List Byte → Bool
  /-- Reserved bits of the payload: the offset of the field's first byte, and the mask of its little-endian bytes. -/
  rsv    : List (Nat × Nat) := []
  /-- Needs a step of Calends after step 2 (R554). -/
  ready  : Bool := names
  /-- Served in recovery, and where the part record fails (R534, R543). -/
  recov  : Bool := false
  /-- Served over MCTP (R547). -/
  mctp   : Bool := false

/-- `n` reserved bytes at offset `off`. -/
def rsvd (off n : Nat) : List (Nat × Nat) := [(off, 256 ^ n - 1)]

/-- A reserved field is non-zero (R513). -/
def rsvdSet (pl : List Byte) (r : Nat × Nat) : Bool := leAt pl r.1 (r.2.log2 / 8 + 1) &&& r.2 != 0

/-- A payload of exactly `n` bytes. -/
def lenIs (n : Nat) (pl : List Byte) : Bool := pl.length == n

/-- How a command ends at once, or what it waits for. -/
inductive Ans
  | done (st : Status) (detail : Nat) (pl : List Byte)
  | wait (w : WaitFor)
  deriving DecidableEq, Repr

/-- The plain answer of a status with no payload. -/
def Ans.st (s : Status) : Ans := .done s 0 []

/-- Response bytes as they leave over a ring or MCTP (R509), zero-padded to whole units. -/
def respBytes (opcode : Nat) (h : Hdr) (st : Status) (detail : Nat) (pl : List Byte) : List Byte :=
  let units := ceilDiv (32 + pl.length) 64
  padTo (64 * units) (leBytes 2 opcode ++ leBytes 2 units ++ leBytes 2 h.tag ++ leBytes 1 h.part ++ leBytes 1 h.flags ++
    leBytes 4 h.seq ++ leBytes 4 pl.length ++ leBytes 1 st.code ++ zeros 3 ++ leBytes 4 detail ++ zeros 8 ++ pl)

/-- The limit a response must fit (R518, R546). -/
def Dev.respLimit (d : Dev) (h : Hdr) : Nat :=
  if h.func = 0xFE then 8192 else 2 ^ d.fld (CAR_RRCFG h.func) 0 5 - 64

/-- Units of a response (R509). -/
def Resp.units (x : Resp) : Nat := ceilDiv (32 + x.pl.length) 64

/-- Units of function `f`'s response ring, and the units of the pad that a message of `u` units needs there (R508, R510). -/
def Dev.rrUnits (d : Dev) (f : Nat) : Nat := 2 ^ d.fld (CAR_RRCFG f) 0 5 / 64
def Dev.rrPad (d : Dev) (f u : Nat) : Nat :=
  let n := d.rrUnits f
  let pos := d.rg (CAR_RRHEAD f) % n
  if n < pos + u then n - pos else 0

/-- The oldest waiting response of function `f` finds room in its ring (R519). -/
def Dev.rrFits (d : Dev) (f : Nat) : Bool :=
  match (d.fn f).resps with
  | [] => true
  | x :: _ =>
    let used := (d.rg (CAR_RRHEAD f) + 2 ^ 32 - d.rg (CAR_RRTAIL f)) % 2 ^ 32
    used + x.units + d.rrPad f x.units ≤ d.rrUnits f

/-- RRFULL reads 1 while a response lacks room (R519). -/
def Dev.rrUpdate (d : Dev) (f : Nat) : Dev := d.setFlag (CAR_BSTAT f) 3 (! d.rrFits f)

/-- Remove a command from those outstanding (R514). -/
def Dev.dropOutst (d : Dev) (f tag seq : Nat) : Dev :=
  let x := d.fn f
  let d := d.setFn f { x with outst := x.outst.filter (fun o => ! (o.tag == tag && o.seq == seq)) }
  d.setF (CAR_BOUT f) 0 7 (d.fn f).outst.length

/-- A completed command enters the configuration measurement of its partition (R536). -/
def Dev.measure (d : Dev) (opcode : Nat) (h : Hdr) (pl : List Byte) : Dev :=
  let p := h.part % 16
  let hd := leBytes 2 opcode ++ leBytes 2 h.units ++ leBytes 2 h.tag ++ leBytes 1 h.part ++ leBytes 1 h.flags ++ leBytes 4 h.seq ++
    leBytes 4 pl.length
  let m := Config.sha3_512 (padTo 64 (SMap.get [] d.car.mcfg p) ++ hd ++ pl)
  { d with car := { d.car with mcfg := SMap.set [] d.car.mcfg p m } }

/-- The CMD record of a command and the measurement of its partition: `st` is how it ended, `sent` the status of its response
(R518, R524, R536). -/
def Dev.book (d : Dev) (opcode : Nat) (names ro : Bool) (h : Hdr) (pl : List Byte) (st sent : Status) : Dev :=
  let d := d.logCmd opcode h.func (if names then h.part % 16 else 0xFF) h.tag h.seq sent.code pl (! ro)
  if names && ! ro && st == .ok then d.measure opcode h pl else d

/-- A response joins those that wait to be written (R517, R519); a disabled response ring takes none (R520). -/
def Dev.respond (d : Dev) (x : Resp) : Dev :=
  let f := x.hdr.func
  if d.flag (CAR_RRCFG f) 31 then (d.setFn f { d.fn f with resps := (d.fn f).resps ++ [x] }).rrUpdate f else d

/-- A command completes: its CMD record, the measurement of its partition, its response (R517, R518, R520, R524,
R536). -/
def Dev.complete (d : Dev) (opcode : Nat) (names ro : Bool) (h : Hdr) (pl : List Byte) (st : Status)
    (detail : Nat) (ans : List Byte) : Dev :=
  if 0x100 ≤ h.func then d.seqStatus (h.func - 0x100) st.code else
  let long := 64 * ceilDiv (32 + ans.length) 64 > d.respLimit h
  let x : Resp := { opcode := opcode, hdr := h, status := if long then .tooLong else st, detail := if long then 0 else detail,
                    pl := if long then [] else ans }
  let d := d.book opcode names ro h pl st x.status
  if h.func = 0xFE then d.emit (.smbus h.port (respBytes opcode h x.status x.detail x.pl))
  else (d.dropOutst h.func h.tag h.seq).respond x

/-- The checks of R513 in table order, with the service limits of R534, R543, R547 and R554. -/
def Dev.refuse (d : Dev) (c : CmdSpec) (h : Hdr) (pl : List Byte) : Option (Status × Nat) :=
  let p := h.part % 16
  if d.flag CAR_STAT 7 && ! (c.recov && (h.func = 0 || h.func = 0xFE)) then some (.badOpcode, 0)
  else if h.rsvd ≠ 0 || 16 ≤ h.part || 4 ≤ h.flags || ! c.len pl then some (.badLength, 0)
  else if (d.fn h.func).outst.any (fun o => o.tag == h.tag) then some (.busy, 0)
  else if h.func = 0xFE && ! c.mctp then some (.denied, 0)
  else if h.func ≠ 0 && h.func ≠ 0xFE && (c.issuer == .pf || (c.issuer == .owner && h.func ≠ p)) then
    some (.denied, 0)
  else if d.flag CAR_STAT 6 && ! c.recov then some (.signatureFail, 0)
  else if c.ready && d.fld CAL_STAT 0 3 ≠ 4 then some (.busy, 0)
  else if c.names && (d.regionsOf p).isEmpty then some (.badPartition, 0)
  else match c.rsv.find? (rsvdSet pl) with
    | some r => some (.denied, r.1)
    | none => none

/-- Carillon executes a command of the opcode `c` describes (R513, R515); while CAR_STAT.READY is 0 it serves none
(R542, R554). -/
def Dev.serve (d : Dev) (c : CmdSpec) (body : Dev → Hdr → List Byte → Dev × Ans) (h : Hdr) (pl : List Byte) : Dev :=
  if ! d.flag CAR_STAT 0 || 0x100 ≤ h.func then d else
  match d.refuse c h pl with
  | some (st, det) =>
    -- a command refused for its TAG leaves the one outstanding under it (R513)
    let o := (d.fn h.func).outst
    let d := d.complete c.opcode c.names c.ro h pl st det []
    (d.setFn h.func { (d.fn h.func) with outst := o }).setF (CAR_BOUT h.func) 0 7 o.length
  | none =>
    match body d h pl with
    | (d', .done st det ans) => d'.complete c.opcode c.names c.ro h pl st det ans
    | (d', .wait w) =>
      let x := d'.fn h.func
      let o : Outst := { tag := h.tag, seq := h.seq }
      let d' := d'.setFn h.func { x with outst := x.outst ++ [o] }
      let d' := d'.setF (CAR_BOUT h.func) 0 7 (d'.fn h.func).outst.length
      let wt : Waiting := { opcode := c.opcode, names := c.names, ro := c.ro, hdr := h, pl := pl, what := w }
      { d' with car := { d'.car with waiting := d'.car.waiting ++ [wt] } }

/-- Every waiting command that `sel` picks completes with the answer `f` gives. -/
def Dev.endWaiting (d : Dev) (sel : Waiting → Bool) (f : Waiting → Status × List Byte) : Dev :=
  let ws := d.car.waiting.filter sel
  let d := { d with car := { d.car with waiting := d.car.waiting.filter (fun w => ! sel w) } }
  d.forEach ws (fun d w => d.complete w.opcode w.names w.ro w.hdr w.pl (f w).1 0 (f w).2)

end Sys2Proof.Machine
end

