-- ==== Sys2Proof/Machine/Fault.lean ====
section
/-! DEFINITION. Raising a fault, Mute, Choke and the alarm (R599 to R607, R615, R616). -/

namespace Sys2Proof.Machine

/-- 32 bytes of DATA of a log record whose KIND the spec gives no DATA layout for (log entry 11). -/
def Dev.openData (d : Dev) : List Byte × Dev :=
  ((upTo 32).map (Config.freeByte d.nonce), { d with nonce := d.nonce + 1 })

/-- Fault codes (R599). -/
def fOverrun : Nat := 0x101
def fEccCore : Nat := 0x102
def fEccTcore : Nat := 0x103
def fEccCommons : Nat := 0x104
def fEccAxon : Nat := 0x105
def fEccDdr : Nat := 0x106
def fThermal : Nat := 0x107
def fVoltage : Nat := 0x108
def fWatchdog : Nat := 0x109
def fLink : Nat := 0x10A
def fCrcBurst : Nat := 0x10B
def fSignature : Nat := 0x10C
def fHarvest : Nat := 0x10D
def fManual : Nat := 0x10E
def fBridge : Nat := 0x10F
def fThermtrip : Nat := 0x110
def fCoreFail : Nat := 0x111
def fRemap : Nat := 0x112
def fSettle : Nat := 0x113
def fAddr : Nat := 0x114

/-- The cause bit of a fault code, none where its table row has none (R599). -/
def causeBit (code : Nat) : Option Nat :=
  if code = 0x101 then some 0
  else if 0x102 ≤ code && code ≤ 0x106 then some 1
  else if code = 0x107 || code = 0x108 || code = 0x110 then some 2
  else if code = 0x109 then some 3
  else if code = 0x10A || code = 0x10B then some 4
  else if code = 0x10C then some 5
  else if code = 0x10D then some 6
  else if code = 0x10E || code = 0x10F then some 7
  else none

/-- What a fault does: 0 record only, 1 Mute, 2 Mute and Choke, 3 Choke (THERMTRIP) (R599, R600). -/
def Dev.faultAction (d : Dev) (code : Nat) : Nat :=
  if 0x102 ≤ code && code ≤ 0x10C then
    let a := d.fld (FLT_ACT (code - 0x102)) 0 2
    if a = 3 then 1 else a
  else if code = 0x101 || code = 0x10D || code = 0x10E then 1
  else if code = 0x10F then 2
  else if code = 0x110 then 3
  else 0

/-- The severity of a fault's record (R601). -/
def faultSev (code action : Nat) : Nat :=
  if code = 0x109 || code = 0x10C || code = 0x10F || code = 0x110 then 4 else if 1 ≤ action then 3 else 2

/-- A mask of partitions. -/
def partMask (ps : List Nat) : Nat := ((upTo 16).map (fun p => if ps.contains p then 2 ^ p else 0)).sum

/-- The device ID of the root that Calends elected (R251, R560). -/
def Dev.rootId (d : Dev) : Nat := if d.flag CAL_STAT 6 then d.devId else d.cal.rootDev

/-- Send an alarm flit now (R602): it goes towards the root, and ends at once where this device is the root (R251). -/
def Dev.sendAlarm (d : Dev) (a : Alarm) : Dev :=
  ({ d with alarmQ := none, alarmUs := some (d.time / 400) }.bump FLT_ALARMSENT 1).sendZero 0 none
    (c0Flit 2 d.rootId d.devId a.bytes)

/-- Raise an alarm: sent at once, or merged into the next flit where one waits or was sent in this microsecond (R251,
R602). -/
def Dev.raiseAlarm (d : Dev) (cause : Nat) (ps : List Nat) : Dev :=
  let a : Alarm := { cause := cause, merged := 1, first := d.devId, time := d.time % 2 ^ 48, partMask := partMask ps }
  match d.alarmQ with
  | some w => { d with alarmQ := some (w.merge a) }.bump FLT_ALARMMERGE 1
  | none => if d.alarmUs == some (d.time / 400) then { d with alarmQ := some a } else d.sendAlarm a

/-- A checkpoint copy in progress is abandoned (R350), and the commands that wait for it end INCOMPLETE. -/
def Dev.ckptAbandon (d : Dev) (p : Nat) : Dev :=
  let x := d.part p
  match x.ckpt.copy with
  | none => d
  | some _ =>
    let d := d.setPart p { x with ckpt := { x.ckpt with copy := none, image := [], toHost := false, toKeep := false,
                                                          abandoned := x.ckpt.abandoned + 1 } }
    d.endWaiting (fun w => w.what == .ckpt && w.hdr.part % 16 == p) (fun _ => (.incomplete, []))

/-- Note a fact of a beat: bit 0 Muted in it, bit 1 an overrun beat, bit 2 settled before beat + 2. -/
def Dev.setFact (d : Dev) (p beat k : Nat) : Dev :=
  let x := d.part p
  d.setPart p { x with facts := SMap.set 0 x.facts beat (SMap.get 0 x.facts beat ||| 2 ^ k) }

/-- Partition `p` enters Mute (R603). -/
def Dev.muteEnter (d : Dev) (p code : Nat) : Dev :=
  let d := (d.bump (FLT_PMUTECNT p) 1).setFlag (FLT_PMUTE p) 8 true
  let d := d.tocArrive 288 21 p code 0 true
  let d := d.signal p 5
  let d := d.ckptAbandon p
  let d := if d.running p then
      (d.setFact p (d.beat p) 0).forEach (d.sitesOf p) (fun d q => d.setFlag (HRV_STAT q) 3 true)
    else d
  let d := d.forEach (d.regionsOf p) (fun d r => d.setTcore r { d.tcore r with muteHit := true })
  let x := d.part p
  d.setPart p { x with outq := x.outq ++ [.mute code (d.beat p)], held := true }

/-- Set a cause bit of partition `p` (R603, R605). -/
def Dev.mute (d : Dev) (p bit code : Nat) : Dev :=
  let was := d.muted p
  let d := (d.setFlag (FLT_PMUTE p) bit true).setF (FLT_PMUTE p) 16 16 code
  if was then d else d.muteEnter p code

/-- Bits of an element of a T-core format (R362). -/
def fmtBits (f : Nat) : Nat := if f = 1 || f = 7 then 4 else if f = 5 || f = 6 then 6 else if f = 8 || f = 9 then 32 else 8
/-- Bytes of a row of `l` elements (R363). -/
def rowLen (f l : Nat) : Nat := (l * fmtBits f + 7) / 8
/-- The block length of an SMODE for a row of `l` elements (R364). -/
def smodeBlock (s l : Nat) : Nat := if s = 1 then 32 else if s = 2 then 64 else if s = 3 then 128 else max l 1
/-- Scale bytes of a row (R364). -/
def smodeCount (s l : Nat) : Nat := if s = 0 then 0 else ceilDiv l (smodeBlock s l)

/-- Where the running op of region `r` writes: buffer ranges (offset, length). -/
def Dev.opWrites (d : Dev) (r : Nat) : List (Nat × Nat) :=
  let x := d.tcore r
  match x.running, x.queue with
  | true, q :: _ =>
    let m := leAt q.1 8 2
    let n := leAt q.1 10 2
    -- the rows of the tensor at `off`, without the gaps between them, and its scale bytes; none of one sent to the plane
    let rows (off : Nat) : List (Nat × Nat) :=
      let mode := byteAt q.1 (off + 5)
      if bitsOf mode 4 2 = 1 then []
      else (upTo m).map (fun i => (leAt q.1 off 4 % 2 ^ 21 + i * (leAt q.1 (off + 8) 4 % 2 ^ 21), rowLen (byteAt q.1 (off + 4)) n)) ++
        (if mode % 8 = 0 then [] else [(leAt q.1 (off + 12) 4 % 2 ^ 21, m * smodeCount (mode % 8) n)])
    if byteAt q.1 0 = 6 then
      [(leAt q.1 48 4 % 2 ^ 21, 64 + 8 * d.rdN (tcBase r + 64 * (leAt q.1 6 2 % 2 ^ 15) + 4) 4)]
    else rows 48 ++ (if byteAt q.1 0 = 4 then rows 32 else [])
  | _, _ => []

/-- The buffer locations the running op was writing hold undefined data (R392): free bytes. -/
def Dev.openBuf (d : Dev) (r : Nat) : Dev :=
  let d := d.forEach (d.opWrites r) (fun d w =>
    d.wrB (tcBase r + w.1) ((upTo (min w.2 (2 ^ 21 - w.1))).map (fun i => Config.freeByte d.nonce (w.1 + i))))
  { d with nonce := d.nonce + 1 }

/-- A region's T-core and S-core stop (R392, R405): the queue is discarded without completion records, the S-core
halts and its posted operations are lost. -/
def Dev.stopRegion (d : Dev) (r : Nat) : Dev :=
  let od := d.openBuf r
  let d := od.setTcore r { (od.tcore r) with queue := [], running := false, abort := false, push := [], plane := none, tiles := [] }
  let d := d.setFlag (FAB_SCTL r) 31 false
  let d := ((d.setFlag (TCR_STAT r) 0 false).setFlag (TCR_STAT r) 1 false).setF (TCR_DQSTAT r) 4 4 0
  (d.setFlag (TCR_STAT r) 3 false).seqStop r

/-- The descriptors in progress of DMA channel `c`, oldest first, with BUSY of PCI_DMASTAT. -/
def Dev.setDma (d : Dev) (c : Nat) (l : List DmaJob) : Dev :=
  { d with dma := SMap.set [] d.dma c l }.setFlag (PCI_DMASTAT c) 0 (! l.isEmpty)

/-- The oldest descriptor in progress of channel `c` completes with a status and the bytes it moved (R467): its bytes 20 to 31
with DONE, the consumer index, the vector of its IRQ. -/
def Dev.dmaDone (d : Dev) (c : Nat) (st : Status) (n : Nat) : Dev :=
  match SMap.get [] d.dma c with
  | [] => d
  | j :: rest =>
    let x := j.desc
    let i := d.rg (PCI_DMAHEAD c)
    let ring := d.fld (PCI_DMABASE_LO c) 5 27 * 32 + 2 ^ 32 * d.rg (PCI_DMABASE_HI c)
    let at_ := ring + 32 * (i % (2 ^ d.fld (PCI_DMACFG c) 0 5 / 32)) + 20
    let f := d.requester (c / 2)
    let d := d.emit (.hostWrite f at_ (leBytes 1 (byteAt x 20 % 128 + 128) ++ leBytes 1 st.code ++ zeros 2 ++ leBytes 4 n ++ zeros 4))
    let d := ((d.setR (PCI_DMAHEAD c) (i + 1)).bump64 (PCI_DMABYTES_LO c) n).setDma c rest
    if bitAt (byteAt x 20) 0 then d.signal (c / 2) (1 + c % 2) else d

/-- A DMA channel stops (R468): ENABLE reads 0, the descriptor in progress completes with INCOMPLETE, later ones are left
untouched. -/
def Dev.stopDma (d : Dev) (c : Nat) : Dev :=
  if d.flag (PCI_DMACFG c) 31 then ((d.setFlag (PCI_DMACFG c) 31 false).dmaDone c .incomplete 0).setDma c [] else d

/-- Choke partition `p` (R94, R606): engines, DMA and collectives stop, CHOKED and cause bit 7 are set, a pending
Muffle and the waiting commands of the partition end (R92). -/
def Dev.choke (d : Dev) (p code : Nat) : Dev :=
  let d := d.mute p 7 code
  let d := d.setFlag (FLT_PMUTE p) 9 true
  let d := d.ckptAbandon p
  let d := (d.setF (TAB_BSTAT p) 16 3 4).setF (TAB_BSTAT p) 12 2 0
  let d := d.setPart p { (d.part p) with startAt := none, muffle := none, leap := none, roundOut := none,
                                         resume := false }
  let d := { d with naps := d.naps.filter (fun q => ! d.owns p (q / 4)) }
  let d := (d.forEach (d.regionsOf p) Dev.stopRegion).taborPart p
  let d := (d.stopDma (2 * p)).stopDma (2 * p + 1)
  let d := { d with colls := d.colls.map (fun (g : Nat × Coll) => if g.2.part = p && g.2.issued then
    (g.1, { g.2 with issued := false, lanes := none, got := [], sentUp := false, epoch := (g.2.epoch + 1) % 65536 })
    else g) }
  d.endWaiting (fun w => w.hdr.part % 16 == p && (match w.what with
      | .start => true | .muffle => true | .resume => true | .coll _ => true | .mod _ => true | _ => false))
    (fun _ => (.incomplete, []))

/-- The partitions that hold regions. -/
def Dev.allParts (d : Dev) : List Nat := (upTo 16).filter (fun p => ! (d.regionsOf p).isEmpty)

/-- Partitions are Choked together; a Choke of every partition also discards what is in flight on the fabric ports and on the die
bridge (R270, R606). -/
def Dev.chokeAll (d : Dev) (ps : List Nat) (code : Nat) : Dev :=
  let every := ! ps.isEmpty && d.allParts.all ps.contains
  let d := d.forEach ps (fun d p => d.choke p code)
  if every then { d.discardFlight with packs := [], net := [], inbox := [], tunPacks := [] } else d

/-- A fault (R599 to R606): its record, its Mute and Choke of every partition it affects, vector 5, its alarm. -/
def Dev.fault (d : Dev) (code : Nat) (ps : List Nat) (source : Nat) : Dev :=
  let act := d.faultAction code
  let sev := faultSev code act
  let bit := (causeBit code).getD 7
  let od := d.openData
  let d := od.2.log source code sev (match ps with | [p] => p | _ => 0xFF) od.1
  let d := d.forEach ps (fun d p =>
    let was := d.muted p
    let d := if act = 0 then d.setF (FLT_PMUTE p) 16 16 code else d.mute p bit code
    if act = 0 || was then d.signal p 5 else d)
  let d := if 2 ≤ act then d.chokeAll ps code else d
  if 3 ≤ sev then d.raiseAlarm (2 ^ bit) ps else d

/-- A refused access or an address error: counted, and reported as an ADDR fault (R42, R657). -/
def Dev.addrErr (d : Dev) : Dev := (d.bump FLT_ADDRERR 1).fault fAddr [] 0

end Sys2Proof.Machine
end

