-- ==== Sys2Proof/Machine/Mem.lean ====
section
/-! DEFINITION. DDR5 memory: the interleave, partition windows, bursts with their ECC (R431 to R439). -/

namespace Sys2Proof.Machine

/-- The fitted capacity C in bytes (R432); 0 while DDR5 is disabled. -/
def Dev.ddrCap (d : Dev) : Nat := d.fld (MEM_CAPMB 0) 0 20 * 2 ^ 20

/-- Channel and subchannel of a DDR5 address (R433). -/
def Dev.ddrSub (d : Dev) (a : Nat) : Nat × Nat :=
  if d.fld (MEM_CFG 0) 0 2 = 0 then
    let s := a / 256 % 16
    (s / 2, s % 2)
  else
    let half := d.ddrCap / 2
    let die := if a < half then 0 else 1
    let s := (a - die * half) / 256 % 8
    (4 * die + s / 2, s % 2)

/-- The free byte of an address of DDR5 under the present contents (R444). -/
def Dev.ddrBase (d : Dev) (a : Nat) : Byte := if d.ddrEpoch = 0 then 0#8 else Config.freeByte d.ddrEpoch a

/-- `k` bytes of DDR5 from `a`. -/
def Dev.ddrGet (d : Dev) (a k : Nat) : List Byte := (upTo k).map (fun i => d.mem.read (a + i) ^^^ d.ddrBase (a + i))

/-- Write bytes of DDR5 at `a`. -/
def Dev.ddrPut (d : Dev) (a : Nat) (l : List Byte) : Dev :=
  d.wrB a ((upTo l.length).map (fun i => l.getD i 0#8 ^^^ d.ddrBase (a + i)))

/-- DDR5 contents become undefined (R444). -/
def Dev.ddrLose (d : Dev) : Dev :=
  { (d.zeroMem 0 0x8000000000) with ddrEpoch := d.nonce + 1, nonce := d.nonce + 2 }

/-- `n` bytes at `a` lie inside one window of partition `p` (R435). -/
def Dev.inWindow (d : Dev) (p a n : Nat) : Bool :=
  (upTo 4).any (fun w =>
    d.flag (MEM_WBASE 0 p w) 31 && d.fld (MEM_WBASE 0 p w) 0 19 * 2 ^ 20 ≤ a &&
      a + n ≤ (d.fld (MEM_WLIM 0 p w) 0 19 + 1) * 2 ^ 20)

/-- A window error of partition `p` at the die router of die `die` (R31, R435). -/
def Dev.winError (d : Dev) (die p : Nat) : Dev :=
  ((d.bump (MEM_WINERR die) 1).setR (MEM_WINLAST die) p).setFlag (MEM_STAT die) 4 true

/-- The partitions with a window over a burst. -/
def Dev.windowParts (d : Dev) (a : Nat) : List Nat := (upTo 16).filter (fun p => d.inWindow p (64 * (a / 64)) 64)

/-- An uncorrectable burst has been read (R437). -/
def Dev.ddrUnc (d : Dev) (b : Nat) (ps : List Nat) : Dev :=
  let cs := d.ddrSub b
  let die := cs.1 / 4
  let k := cs.1 % 4
  let d := d.bump (if cs.2 = 0 then MEM_UECNT0 die k else MEM_UECNT1 die k) 1
  let d := (d.setR (MEM_ERRADDR_LO die k) (b % 2 ^ 32)).setR (MEM_ERRADDR_HI die k) (b / 2 ^ 32)
  (d.setFlag (MEM_STAT die) 3 true).fault fEccDdr ps (srcDdr cs.1)

/-- Read the burst at `b`: its 64 bytes, none where it is uncorrectable (R436, R437). -/
def Dev.ddrBurst (d : Dev) (b : Nat) (ps : List Nat) : Dev × Option (List Byte) :=
  let b := 64 * (b / 64)
  let cs := d.ddrSub b
  let die := cs.1 / 4
  let k := cs.1 % 4
  let d := d.bump64 (MEM_RD_LO die k) 1
  match SMap.get 0 d.ecc b with
  | 0 => (d, some (d.ddrGet b 64))
  | 1 => (d.bump (if cs.2 = 0 then MEM_CECNT0 die k else MEM_CECNT1 die k) 1, some (d.ddrGet b 64))
  | _ => (d.ddrUnc b ps, none)

/-- Read `n` bytes at `a`, burst by burst; zeros for an uncorrectable burst, and whether all were good. -/
def Dev.ddrRead (d : Dev) (a n : Nat) (ps : List Nat) : Dev × List Byte × Bool :=
  if n = 0 then (d, [], true)
  else
    let r := (upTo ((a + n - 1) / 64 - a / 64 + 1)).foldl
      (fun (x : Dev × List Byte × Bool) k =>
        match x.1.ddrBurst (64 * (a / 64 + k)) ps with
        | (d, some l) => (d, x.2.1 ++ l, x.2.2)
        | (d, none) => (d, x.2.1 ++ zeros 64, false)) (d, [], true)
    (r.1, slice r.2.1 (a % 64) n, r.2.2)

/-- Write part or all of one burst (R438, R439): a part of an uncorrectable burst leaves it poisoned. -/
def Dev.ddrWriteBurst (d : Dev) (a : Nat) (l : List Byte) (ps : List Nat) : Dev :=
  let b := 64 * (a / 64)
  let cs := d.ddrSub b
  let die := cs.1 / 4
  let k := cs.1 % 4
  if a = b && l.length = 64 then
    ({ (d.ddrPut a l) with ecc := SMap.set 0 d.ecc b 0 }).bump64 (MEM_WR_LO die k) 1
  else
    let r := d.ddrBurst b ps
    let d := (r.1.ddrPut a l).bump64 (MEM_WR_LO die k) 1
    { d with ecc := SMap.set 0 d.ecc b (if r.2.isSome then 0 else 2) }

/-- Write bytes at `a`, burst by burst; `fuel` bursts at most. -/
def Dev.ddrWrite (d : Dev) (a : Nat) (l : List Byte) (ps : List Nat) : Nat → Dev
  | 0 => d
  | fuel + 1 =>
    if l.isEmpty then d
    else
      let k := 64 - a % 64
      Dev.ddrWrite (d.ddrWriteBurst a (l.take k) ps) (a + k) (l.drop k) ps fuel

/-! ### Commons words (R420) -/

/-- A read of the Commons word at `a` by any engine of region `r`: a single-bit error is written back corrected, an
uncorrectable word reads as zero. -/
def Dev.cmnFix (d : Dev) (r a : Nat) : Dev × List Byte :=
  let w := 8 * (a / 8)
  match SMap.get 0 d.ecc w with
  | 0 => (d, d.rdB w 8)
  | 1 => ({ d with ecc := SMap.set 0 d.ecc w 0 }.bump (CMN_ECCCORR r) 1, d.rdB w 8)
  | _ => (((d.bump (CMN_ECCUNC r) 1).setFlag (CMN_STAT r) 3 true).fault fEccCommons (d.regPart r).toList (srcRegion r), zeros 8)

/-- Read `n` bytes at `a` of the Commons of region `r`. -/
def Dev.cmnRd (d : Dev) (r a n : Nat) : Dev × List Byte :=
  let x := (upTo ((a + n + 7) / 8 - a / 8)).foldl
    (fun (x : Dev × List Byte) k => let y := x.1.cmnFix r (8 * (a / 8 + k)); (y.1, x.2 ++ y.2)) (d, [])
  (x.1, slice x.2 (a % 8) n)

/-- The 64-bit words that a write of `n` bytes at `a` covers in part. -/
def partWords (a n : Nat) : List Nat :=
  ((upTo ((a + n + 7) / 8 - a / 8)).map (fun k => 8 * (a / 8 + k))).filter (fun w => ! (a ≤ w && w + 8 ≤ a + n))

/-- Write bytes at `a`: a whole word takes new check bits, a part of a corrected word too; a part of an uncorrectable
word leaves it uncorrectable (log entry 14). -/
def Dev.cmnWr (d : Dev) (a : Nat) (l : List Byte) : Dev :=
  let d' := d.wrB a l
  d'.forEach (upTo ((a + l.length + 7) / 8 - a / 8)) (fun d k =>
    let w := 8 * (a / 8 + k)
    if (a ≤ w && w + 8 ≤ a + l.length) || SMap.get 0 d.ecc w < 2 then { d with ecc := SMap.set 0 d.ecc w 0 } else d)

/-- Write bytes at `a` of the Commons of region `r`: a word written in part is read first, with what that finds (R420). -/
def Dev.cmnPut (d : Dev) (r a : Nat) (l : List Byte) : Dev :=
  (d.forEach (partWords a l.length) (fun d w => (d.cmnFix r w).1)).cmnWr a l

/-- Port A writes `n` bytes at offset `o` of the Commons of region `r` plainly: the words of bank 15 it touches keep, for the
plane's slot in the same cycle, the data they held (R424; log entry 174). -/
def Dev.notePortA (d : Dev) (r o n : Nat) : Dev :=
  if o / 0x40000 ≠ 15 then d
  else
    let g := d.region r
    let t := d.time
    let old := if g.portT = t then g.portA else []
    d.setRegion r { g with portT := t, portA := (wordsAt (cmnBase r + o) n).foldl (fun m w =>
      if SMap.get [] m w = [] then SMap.set [] m w (d.rdB w 8) else m) old }

end Sys2Proof.Machine
end

