-- ==== Sys2Proof/Machine/Net.lean ====
section
/-! DEFINITION. Event records and their packing into packets (R195, R196, R237). -/

namespace Sys2Proof.Machine

/-! ### Event records -/

/-- The 64-bit record of an event (R195). -/
def Event.word (e : Event) : Nat :=
  e.dcore % 256 * 2 ^ 56 + e.ra % 2 ^ 17 * 2 ^ 39 + e.delay % 4096 * 2 ^ 27 + e.grade % 256 * 2 ^ 19 + e.part % 16 * 2 ^ 15 +
    e.tkind % 4 * 2 ^ 13 + e.nrows % 4 * 2 ^ 11 + e.tag % 2048

/-- The extension word of a FAR event (R196). -/
def Event.ext (e : Event) : Nat := e.fmt % 8 * 2 ^ 61 + e.daddr % 2 ^ 36 * 2 ^ 25

/-- The words an event takes in a packet. -/
def Event.words (e : Event) : Nat := if e.tkind = 1 then 2 else 1

def Event.bytes (e : Event) : List Byte := leBytes 8 e.word ++ (if e.tkind = 1 then leBytes 8 e.ext else [])

/-- The event a record spells, of the emission beat `eb`. -/
def Event.ofWord (w x eb : Nat) : Event :=
  { dcore := bitsOf w 56 8, ra := bitsOf w 39 17, delay := bitsOf w 27 12, grade := bitsOf w 19 8, part := bitsOf w 15 4,
    tkind := bitsOf w 13 2, nrows := bitsOf w 11 2, tag := bitsOf w 0 11, ebeat := eb,
    fmt := if bitsOf w 13 2 = 1 then bitsOf x 61 3 else 0, daddr := if bitsOf w 13 2 = 1 then bitsOf x 25 36 else 0 }

/-- The events of a packet's words. -/
def eventsOf (eb : Nat) : List Nat → List Event
  | [] => []
  | [w] => [Event.ofWord w 0 eb]
  | w :: x :: r => if bitsOf w 13 2 = 1 then Event.ofWord w x eb :: eventsOf eb r else Event.ofWord w 0 eb :: eventsOf eb (x :: r)

/-! ### Packing (R237) -/

/-- The die of a packing router. -/
def routerDie (k : Nat) : Nat := if k < 16 then k else dieOf (k - 16)

/-- Send a filled packet: its records go to their region router on this device, or leave as an EVENTS packet. -/
def Dev.sendPack (d : Dev) (x : Pack) : Dev :=
  let die := routerDie x.router
  let words := (x.evs.map Event.words).sum
  if x.dev = d.devId then
    if die ≠ dieOf x.reg && d.flag FLT_STAT 4 then d.bridgeDrop die (1 + ceilDiv (8 * words) 64) else
    let d := if die = dieOf x.reg then d else d.bump64 (FAB_BRFLIT_LO die) (1 + ceilDiv (8 * words) 64)
    { d with net := d.net ++ x.evs }
  else
    d.sendPacket die none false
      (packetOf 0x01 1 x.dev x.reg d.devId x.part 0 0 (leBytes 2 x.ebeat ++ leBytes 2 words) (x.evs.map Event.bytes).flatten)

def Pack.takes (x : Pack) (router dev : Nat) (e : Event) : Bool :=
  x.router == router && x.dev == dev && x.reg == e.dcore / 16 && x.part == e.part && x.ebeat == e.ebeat

/-- Pack one record at a router (R237): a packet of 256 words leaves at once. -/
def Dev.packEvent (d : Dev) (router dev : Nat) (e : Event) : Dev :=
  let new (d : Dev) : Dev :=
    { d with packs := d.packs ++ [{ router := router, dev := dev, reg := e.dcore / 16, part := e.part, ebeat := e.ebeat,
                                    evs := [e] }] }
  match d.packs.find? (fun x => x.takes router dev e) with
  | none => new d
  | some x =>
    let n := (x.evs.map Event.words).sum + e.words
    let rest := d.packs.filter (fun y => ! y.takes router dev e)
    let x' := { x with evs := x.evs ++ [e] }
    if 256 < n then new ({ d with packs := rest }.sendPack x)
    else if n = 256 then { d with packs := rest }.sendPack x'
    else { d with packs := d.packs.map (fun y => if y.takes router dev e then x' else y) }

/-- COALESCE cycles have passed for packet `k` of those being filled (R237). -/
def Dev.coalesce (d : Dev) (k : Nat) : Dev :=
  match d.packs[k]? with
  | some x => { d with packs := removeAt d.packs k }.sendPack x
  | none => d

/-- Send every packet that `sel` picks. -/
def Dev.flushPacks (d : Dev) (sel : Pack → Bool) : Dev :=
  let go := d.packs.filter sel
  { d with packs := d.packs.filter (fun x => ! sel x) }.forEach go Dev.sendPack

/-- An event record that has reached its region router leaves the records on their way. -/
def Dev.takeEvent (d : Dev) (e : Event) : Dev := { d with net := d.net.erase e }

end Sys2Proof.Machine
end

