-- ==== Sys2Proof/Machine/Time.lean ====
section
/-! DEFINITION. The passing of ticks (R66, R479, R481) and what follows the state at every instant: the Mute and pin
outputs (R603, R615, R616) and the phases of beats and regions (R98, R99). -/

namespace Sys2Proof.Machine

/-- Partition `p` leads its span group, or is in none. -/
def Dev.isLead (d : Dev) (p : Nat) : Bool := ! d.flag (TAB_BCTL p) 8 || d.fld (TAB_SPAN p) 16 9 == d.devId

/-- Partition `p` is a member of a lockstep span, whose beats the lead starts (R74, R75). -/
def Dev.follows (d : Dev) (p : Nat) : Bool := d.flag (TAB_BCTL p) 0 && ! d.isLead p

/-- Partition `p` is in a span group of more than this device. -/
def Dev.spans (d : Dev) (p : Nat) : Bool := d.flag (TAB_BCTL p) 8 && 1 < d.fld (TAB_SPAN p) 0 10

/-- The children of this device in the tree of the span group of `p` (R265). -/
def Dev.spanKids (d : Dev) (p : Nat) : List Nat := if d.spans p then (d.part p).kids else []

/-- A Tattoo flit goes to every child in the tree (R62, R75, R76). -/
def Dev.sendDown (d : Dev) (type p : Nat) (t : Tattoo) : Dev :=
  d.forEach (d.spanKids p) (fun d m => d.sendTattoo type m t)

/-- A Tattoo with no sums. -/
def bareTattoo (p round beat flags : Nat) : Tattoo :=
  { part := p, round := round % 65536, beat := beat, flags := flags, sent := 0, filed := 0, nreport := 0 }

/-- The beats of partition `p` that rounds have still to prove settled, oldest first: those open after an overrun, and the present
beat from its first Emit (R62, R71); of a Muffled partition that waits to resume, its last beat (R93). -/
def Dev.roundBeats (d : Dev) (p : Nat) : List Nat :=
  let x := d.part p
  if d.running p then
    x.openBeats.map Prod.fst ++ (if x.emitted && ! d.flag (TAB_BSTAT p) 8 then [d.beat p] else [])
  else if d.bstate p == 3 && x.resume then [d.beat p] else []

/-- The next round of partition `p` begins, for the beat after the one the last round served, in turn (R62; log entry 172): the
lead of a span group sends GATHER to its children. -/
def Dev.nextRound (d : Dev) (p : Nat) : Dev :=
  let x := d.part p
  let l := d.roundBeats p
  let after := match x.roundOut with
    | some b => (l.dropWhile (· != b)).drop 1
    | none => []
  match after.head?.or l.head? with
  | none => d.setPart p { x with roundOut := none }
  | some n =>
    let d := d.setPart p { x with round := x.round + 1, roundOut := some n }
    if d.isLead p then (d.setPart p { (d.part p) with reps := [] }).sendDown 0x10 p (bareTattoo p (x.round + 1) n 0) else d

/-- The rounds of the present beat begin with its first Emit (R62). -/
def Dev.firstRound (d : Dev) (p : Nat) : Dev :=
  if d.running p && ! d.flag (TAB_BSTAT p) 8 then
    let d := d.setPart p { (d.part p) with emitted := true }
    if (d.part p).roundOut.isNone then d.nextRound p else d
  else d

/-- The count at which the present beat of `p` waits for its next event: the period, or the end of its leap; a member of a
lockstep span counts on until RELEASE. -/
def Dev.beatCap (d : Dev) (p : Nat) : Nat :=
  if d.follows p then 2 ^ 32 - 1 else
  match (d.part p).leap with
  | some b => b + d.fld (TAB_LEAPLIM p) 0 29
  | none => d.fld (TAB_BPERIOD p) 0 29 - 1

/-- The RTC (R588), 48 bits. -/
def Dev.rtc (d : Dev) : Nat := d.rg PWR_RTC_LO + 2 ^ 32 * d.fld PWR_RTC_HI 0 16

/-- The RTC steps once per 1 / 32,768 s while `k` ticks of 2.5 ns pass. -/
def Dev.rtcPass (d : Dev) (k : Nat) : Dev :=
  let x := d.rtcFrac + 32768 * k
  let n := (d.rtc + x / 400000000) % 2 ^ 48
  { ((d.setR PWR_RTC_LO n).setR PWR_RTC_HI (n / 2 ^ 32)) with rtcFrac := x % 400000000 }

/-- The count at which a running timer meets its next event: the lesser of its compare values ahead of it, or its period
(R481, R484). -/
def Dev.timerNext (d : Dev) (n : Nat) : Nat :=
  let c := d.rg (TAB_TnCOUNT n)
  let per := d.rg (TAB_TnPERIOD n)
  let ahead (v : Nat) : Nat := if c < v && v < per then v else per
  min (ahead (d.rg (TAB_TnCMP0 n))) (ahead (d.rg (TAB_TnCMP1 n)))

/-- `k` ticks pass: the timebase, the beat counts of running partitions and the running timers; a count that reaches
the tick of its own event stays there until that event comes (log entry 4).  In Vigil and Ember the RTC alone goes on (R506). -/
def Dev.advance (d : Dev) (k : Nat) : Dev :=
  if d.pwr.asleep ≠ 0 then d.rtcPass k
  else
  let d := (d.set64 TAB_TIME_LO ((d.time + k) % 2 ^ 64)).rtcPass k
  let d := d.forEach (upTo 16) (fun d p =>
    if d.running p then
      let c := d.rg (TAB_BCOUNT p)
      d.setR (TAB_BCOUNT p) (max c (min (c + k) (d.beatCap p)))
    else d)
  d.forEach (upTo 16) (fun d n =>
    if d.flag (TAB_TnSTAT n) 0 then
      let c := d.rg (TAB_TnCOUNT n)
      d.setR (TAB_TnCOUNT n) (max c (min (c + k) (d.timerNext n - 1)))
    else d)

/-- The phase of a core in its region's beat: 0 Deliver, 1 Integrate, 2 Emit, 3 Settle (R98). -/
def Dev.corePhase (d : Dev) (q beat : Nat) : Nat :=
  let c := d.core q
  if c.final == some beat then 3 else if c.integ == some beat then 2 else if c.ptr == (beat + 1) % 2 ^ 48 then 1 else 0

/-- The latest phase all of these cores have reached; 0 for none. -/
def Dev.phaseOf (d : Dev) (qs : List Nat) (beat : Nat) : Nat :=
  if qs.isEmpty then 0 else (qs.map (fun q => d.corePhase q beat)).foldl min 3

/-- Bring the PHASE fields up to date (R98, R99). -/
def Dev.phases (d : Dev) : Dev :=
  d.forEach (upTo 16) (fun d r =>
    match d.regPart r with
    | some p =>
      let d := (d.setFlag (TAB_CHSTAT r) 31 true).setF (TAB_CHSTAT r) 16 4 p
      if d.running p then
        let ph := d.phaseOf ((d.coresOf r).map Prod.snd) (d.region r).beat
        let d := d.setF (TAB_CHSTAT r) 12 2 ph
        if r == (d.regionsOf p).headD 16 then d.setF (TAB_BSTAT p) 12 2 (d.phaseOf (d.sitesOf p) (d.beat p)) else d
      else d
    | none => d.setR (TAB_CHSTAT r) 0)

/-- The partitions that are Muted. -/
def Dev.mutedParts (d : Dev) : List Nat := (upTo 16).filter d.muted

/-- MUTE_OUT is driven high (R615). -/
def Dev.muteOutLevel (d : Dev) : Bool :=
  (upTo 16).any (fun p => d.flag FLT_MUTEOUT p && (d.muted p || d.choked p))

/-- ALARM_N is pulled low (R615). -/
def Dev.alarmLevel (d : Dev) : Bool :=
  d.flag FLT_STAT 4 ||
    (upTo 16).any (fun p => d.flag (FLT_PMUTE p) 2 || d.flag (FLT_PMUTE p) 3 || d.flag (FLT_PMUTE p) 5)

/-- The MUTED bits of the partitions agree with their cause bits (R603). -/
def Dev.muteBits (d : Dev) : Dev :=
  d.forEach (upTo 16) (fun d p => d.setFlag (FLT_PMUTE p) 8 (d.muted p))

/-- The GPIO pins held at a safe level: EN is 1 and the partition is Muted, or its outputs wait for the beat start
after the Mute (R616). -/
def Dev.safePins (d : Dev) : SMap Bool :=
  (upTo 16).foldl (fun m i =>
    let p := d.fld (FLT_GSAFE i) 4 4
    SMap.set false m i (d.flag (FLT_GSAFE i) 8 && (d.muted p || (d.part p).held))) []

/-- The level GPIO pin `i` is driven to: the safe level where one holds (3 keeps the present level), else the OR of the
timers that name it (R485, R616); 2 floats. -/
def Dev.gpioLevel (d : Dev) (safe : SMap Bool) (i : Nat) : Nat :=
  if SMap.get false safe i then
    let v := d.fld (FLT_GSAFE i) 0 2
    if v = 3 then SMap.get 2 d.pins.gpio i else v
  else
    let t := (upTo 16).filter (fun n => d.fld (TAB_TnCTL n) 18 2 != 0 && d.fld (TAB_TnCTL n) 20 4 == i)
    if t.isEmpty then 2 else natOf (t.any (fun n => (SMap.get default d.timers n).out))

/-- The levels of all GPIO pins. -/
def Dev.gpioPins (d : Dev) (safe : SMap Bool) : SMap Nat :=
  (upTo 16).foldl (fun m i => SMap.set 2 m i (d.gpioLevel safe i)) []

/-- Domains follow their votes and their work at every instant (R572 to R575). -/
def Dev.domsFollow (d : Dev) : Dev :=
  d.forEach (upTo 120) (fun d x => if d.rg (PWR_DSTAT x) = 0 && d.voted x = 0 then d else d.domFollow x)

/-- FLT_STAT bits 2 to 0 and the pins of R485, R615 and R616; in Ember they float (R591). -/
def Dev.outputs (d : Dev) : Dev :=
  let safe := d.safePins
  let mo := d.muteOutLevel
  let al := d.alarmLevel
  { d.setF FLT_STAT 0 3 (natOf (! d.mutedParts.isEmpty) + 2 * natOf mo + 4 * natOf al) with
    pins := { d.pins with muteOut := mo, alarm := al, safeHeld := safe, gpio := d.gpioPins safe,
                          float := d.pins.float || d.pwr.asleep == 2 } }

/-- What follows the state at every instant: the phases, CHANGING and BUSYHOLD, MUTED bits, FLT_STAT and the pins. -/
def Dev.finish (d : Dev) : Dev := d.phases.domsFollow.muteBits.outputs

end Sys2Proof.Machine
end

