-- ==== Sys2Proof/Machine/Trace.lean ====
section
/-! DEFINITION. Trace records entering the trace FIFOs (R624 to R628) and the activity totals of partitions and device
(R620 to R622). -/

namespace Sys2Proof.Machine

/-- One spike of partition `p`: the partition total, unless frozen, and the device total (R621, R622). -/
def Dev.countSpike (d : Dev) (p : Nat) : Dev :=
  (if d.flag (OBS_PCTL p) 0 then d else d.count64 (OBS_PSPIKE_LO p) 1).count64 OBS_DSPIKE_LO 1

/-- `k` synaptic operations of partition `p`. -/
def Dev.countSynops (d : Dev) (p k : Nat) : Dev :=
  (if d.flag (OBS_PCTL p) 0 then d else d.count64 (OBS_PSYNOP_LO p) k).count64 OBS_DSYNOP_LO k

/-- The counters of the engine `e` (0 synapse, 1 neuron, 2 harvest) of core `q` are frozen with its partition (R622). -/
def Dev.obsFrozen (d : Dev) (q : Nat) : Bool :=
  match d.regPart (q / 16) with
  | some p => d.flag (OBS_PCTL p) 0
  | none => false

/-- `k` busy cycles of an N-core engine (R620). -/
def Dev.obsBusy (d : Dev) (q e k : Nat) : Dev := if d.obsFrozen q then d else d.count64 (OBS_BUSY_LO q e) k

/-- `k` stall cycles of an N-core engine for a reason (R620, R621). -/
def Dev.obsStall (d : Dev) (q e reason k : Nat) : Dev :=
  if d.obsFrozen q then d else (d.count64 (OBS_STALL_LO q e) k).bump (OBS_RSN q e reason) k

/-- A spike of neuron `i` of core `q` in beat `n` was appended to the fire log: totals and trace (R625, R626). -/
def Dev.spikeSeen (d : Dev) (q p i n : Nat) (g : Int) : Dev :=
  let lc := (d.logOf q).getD q
  (d.countSpike p).traceRec (dieOf (q / 16)) 1 (some p) q (some lc) (some i)
    (leBytes 2 i ++ leBytes 1 (uOf 8 g) ++ leBytes 1 lc ++ leBytes 2 n)

end Sys2Proof.Machine
end

