-- ==== Sys2Proof/Machine/Store.lean ====
section
/-! DEFINITION. The core store of an N-core: page map, neuron records, dendrite rings, check bits (R141 to R149, R172
to R175, R608). -/

namespace Sys2Proof.Machine

/-! ### Areas of the page map (R142, R145) -/

/-- First byte (in the local address space) and byte length of a page-map area register of core `q`. -/
def Dev.areaBase (d : Dev) (q reg : Nat) : Nat := csBase q + 65536 * d.fld reg 0 6
def Dev.areaLen (d : Dev) (reg : Nat) : Nat := 65536 * d.fld reg 8 6
def Dev.recAddr (d : Dev) (q i : Nat) : Nat := d.areaBase q (SYN_PMREC q) + 16 * i
def Dev.ringBase (d : Dev) (q : Nat) : Nat := d.areaBase q (SYN_PMRING q)
def Dev.flBase (d : Dev) (q : Nat) : Nat := csBase q + 0x8000 * d.fld (SYN_FLBASE q) 0 7
def Dev.ncount (d : Dev) (q : Nat) : Nat := d.fld (NEU_CFG q) 0 16

/-- The ring size of neuron `i` and the byte address of its ring; size 1 means INSLOT (R146). -/
def Dev.ringOf (d : Dev) (q i : Nat) : Nat × Nat :=
  let b16 := d.fld (SYN_BAND16 q) 0 16
  let b8 := d.fld (SYN_BAND8 q) 0 16
  let b4 := d.fld (SYN_BAND4 q) 0 16
  let rb := d.ringBase q
  if i < b16 then (16, rb + 32 * i)
  else if i < b16 + b8 then (8, rb + 32 * b16 + 16 * (i - b16))
  else if i < b16 + b8 + b4 then (4, rb + 32 * b16 + 16 * b8 + 8 * (i - b16 - b8))
  else (1, 0)

/-! ### Check bits (R172, R175, R608) -/

/-- An N-core is declared failed (R608): the fault record, and a fence where AUTOFENCE asks for one. -/
def Dev.coreFailed (d : Dev) (q : Nat) : Dev :=
  let ps := match d.regPart (q / 16) with | some p => [p] | none => []
  let d := d.fault fCoreFail ps (srcCore q)
  match d.logOf q with
  | some n => if d.flag FLT_CFG 31 && ! d.failedQ.any (fun x => x.1 == n) then { d with failedQ := d.failedQ ++ [(n, false)] } else d
  | none => d

/-- One uncorrectable core-store word of core `q`: its counters, the ECC_CORE fault, and the failure of the core at the
threshold of one second (R173, R175, R608). -/
def Dev.eccUnc (d : Dev) (q : Nat) : Dev :=
  let d := ((d.bump (SYN_ECCUNC q) 1).setFlag (SYN_STAT q) 4 true)
  let ps := match d.regPart (q / 16) with | some p => [p] | none => []
  let d := (d.tocArrive q 4 (ps.headD 0) 0 0 false).fault fEccCore ps (srcCore q)
  let c := d.core q
  let sec := d.time / 400000000
  let n := if c.uncSec = sec then c.uncCnt + 1 else 1
  let d := d.setCore q { c with uncSec := sec, uncCnt := n }
  if n = d.fld FLT_CFG 16 8 then d.coreFailed q else d

/-- A read of the aligned word at `a` by an engine of core `q` that corrects a single-bit error (R172); an
uncorrectable word of a ring or a record is written as zero with good check bits (R175). -/
def Dev.fixWord (d : Dev) (q a : Nat) : Dev :=
  let a := 8 * (a / 8)
  match SMap.get 0 d.ecc a with
  | 0 => d
  | 1 => { d with ecc := SMap.set 0 d.ecc a 0 }.bump (SYN_ECCCORR q) 1
  | _ => ({ d with ecc := SMap.set 0 d.ecc a 0 }.wrN a 8 0).eccUnc q

/-- Every word of the `n` bytes at `a` has no uncorrectable error. -/
def Dev.cleanAt (d : Dev) (a n : Nat) : Bool :=
  (upTo ((a + n + 7) / 8 - a / 8)).all (fun k => SMap.get 0 d.ecc (8 * (a / 8 + k)) < 2)

/-- Bytes at `a` with every word that holds an uncorrectable error replaced by free bytes. -/
def Dev.readOpen (d : Dev) (a n : Nat) : Dev × List Byte :=
  if d.cleanAt a n then (d, d.rdB a n)
  else
    let x := d.openBytes n
    (x.1, (upTo n).map (fun i => if SMap.get 0 d.ecc (8 * ((a + i) / 8)) < 2 then d.mem.read (a + i) else x.2.getD i 0#8))

/-- Correct the single-bit errors of the words of `n` bytes at `a` (R172). -/
def Dev.fixSingles (d : Dev) (q a n : Nat) : Dev :=
  d.forEach (upTo ((a + n + 7) / 8 - a / 8)) (fun d k =>
    let w := 8 * (a / 8 + k)
    if SMap.get 0 d.ecc w = 1 then { d with ecc := SMap.set 0 d.ecc w 0 }.bump (SYN_ECCCORR q) 1 else d)

/-- A write of one word or less through the core-store window, or by Carillon: a whole aligned word takes new check
bits; a part of a word merges into it (R656). -/
def Dev.csWriteWord (d : Dev) (q a : Nat) (l : List Byte) : Dev :=
  let w := 8 * (a / 8)
  if a = w && l.length = 8 then { (d.wrB a l) with ecc := SMap.set 0 d.ecc w 0 }
  else
    let e := SMap.get 0 d.ecc w
    let d := d.wrB a l
    if e = 1 then { d with ecc := SMap.set 0 d.ecc w 0 }.bump (SYN_ECCCORR q) 1
    else if 2 ≤ e then (d.bump (SYN_ECCUNC q) 1).setFlag (SYN_STAT q) 4 true
    else d

/-- Write bytes into the core store of site `q`, word by word (R656); `fuel` is the byte count. -/
def Dev.csWrite (d : Dev) (q a : Nat) (l : List Byte) : Nat → Dev
  | 0 => d
  | fuel + 1 =>
    if l.isEmpty then d
    else
      let k := 8 - a % 8
      Dev.csWrite (d.csWriteWord q a (l.take k)) q (a + k) (l.drop k) fuel

/-! ### Profiles and records -/

/-- The 576 bytes of profile `k` of core `q`: base record and ladder; empty for an invalid one. -/
def Dev.profile (d : Dev) (q k : Nat) : List Byte := SMap.get [] (d.core q).profiles k

/-- VALID of a profile base record. -/
def profValid (pb : List Byte) : Bool := bitAt (byteAt pb 1) 0
def profKind (pb : List Byte) : Nat := byteAt pb 0
def profRing (pb : List Byte) : Nat := byteAt pb 2 % 4

/-- The ring size a RING code stands for (R147). -/
def ringSize (code : Nat) : Nat := if code = 0 then 16 else if code = 1 then 8 else if code = 2 then 4 else 1

/-- The bit at which INSLOT of a record lies, by kind (R105). -/
def inslotBit (kind : Nat) : Nat :=
  if kind = 0 then 88 else if kind = 2 then 56 else if kind = 3 then 48 else 16

/-- Fields of a record, a 128-bit number (R105). -/
def recStamp (x : Nat) : Nat := bitsOf x 0 16
def recPost (x : Nat) : Nat := bitsOf x 104 8
def recProf (x : Nat) : Nat := bitsOf x 112 6
def recRefr (x : Nat) : Nat := bitsOf x 120 4
def recAct (x : Nat) : Bool := bitAt x 124
def recPend (x : Nat) : Bool := bitAt x 125

def Dev.readRec (d : Dev) (q i : Nat) : Nat := d.rdN (d.recAddr q i) 16
def Dev.writeRec (d : Dev) (q i x : Nat) : Dev := d.wrN (d.recAddr q i) 16 x
/-- The two words of record `i` as the engines read them (R172, R175). -/
def Dev.fixRec (d : Dev) (q i : Nat) : Dev := (d.fixWord q (d.recAddr q i)).fixWord q (d.recAddr q i + 8)

/-- Set or clear a neuron's bit in the active bitmap, with NEU_ACTIVE (R111). -/
def Dev.setActive (d : Dev) (q i : Nat) (b : Bool) : Dev :=
  let c := d.core q
  let a := SMap.set false c.active i b
  (d.setCore q { c with active := a }).setF (NEU_ACTIVE q) 0 16 a.length

/-- Set bit `g` of touch-summary row `row` (R111, R165). -/
def Dev.setTouch (d : Dev) (q row g : Nat) : Dev :=
  let c := d.core q
  d.setCore q { c with touch := SMap.set false c.touch (1024 * row + g) true }

/-- The fire log is emptied (R662). -/
def Dev.emptyFireLog (d : Dev) (q : Nat) : Dev :=
  let c := d.core q
  ((((d.setCore q { c with flDone := [], stall := none }).setFlag (NEU_STAT q) 0 false).setFlag (HRV_STAT q) 1 false).setR (NEU_FLHEAD q) (d.rg (NEU_FLTAIL q))).setR (NEU_FLCOUNT q) 0

/-- Clear the INSLOT of record `i` where its profile is valid and it has no ring (R149, R184, R659); answers 1 where it
was not zero. -/
def Dev.clearInslot (d : Dev) (q i : Nat) : Nat × Dev :=
  let x := d.readRec q i
  let pb := d.profile q (recProf x)
  if profValid pb && profRing pb = 3 then
    let b := inslotBit (profKind pb)
    (if bitsOf x b 16 = 0 then 0 else 1, d.writeRec q i (putBits x b 16 0))
  else (0, d)

/-- The bytes of the ring slots of core `q`: the rings of the three bands, from the start of the RING area (R146). -/
def Dev.ringBytes (d : Dev) (q : Nat) : Nat :=
  32 * d.fld (SYN_BAND16 q) 0 16 + 16 * d.fld (SYN_BAND8 q) 0 16 + 8 * d.fld (SYN_BAND4 q) 0 16

/-- Clear every ring slot, every INSLOT of a record with a valid profile and the touch summary; answers the number of
slots that were not zero (R149). -/
def Dev.clearRings (d : Dev) (q : Nat) : Nat × Dev :=
  let lo := d.ringBase q
  let hi := lo + d.ringBytes q
  let cells := (SMap.keep (fun a => lo ≤ a && a < hi) 0 d.mem).map (fun c => c.1 / 2)
  let n := (cells.foldl (fun a x => if a.headD 0 == x then a else x :: a) ([] : List Nat)).length
  let d := d.zeroMem lo hi
  let d := d.setCore q { (d.core q) with touch := [] }
  (upTo (d.ncount q)).foldl (fun a i => let r := a.2.clearInslot q i; (a.1 + r.1, r.2)) (n, d)

/-- Clear the area's ring slots and INSLOTs after a new page map (R184). -/
def Dev.clearRingArea (d : Dev) (q : Nat) : Dev :=
  let lo := d.ringBase q
  let d := d.zeroMem lo (lo + d.areaLen (SYN_PMRING q))
  d.forEach (upTo (d.ncount q)) (fun d i => (d.clearInslot q i).2)

end Sys2Proof.Machine
end

