-- ==== Sys2Proof/Machine/Neuron.lean ====
section
/-! DEFINITION. The neuron engine (R104 to R140): profiles and ladders, catch-up, one beat of each kind, the active
list, the sweep, the restamp, the fire log and Integrate. -/

namespace Sys2Proof.Machine

/-! ### Rounding -/

/-- Round `n / den` to the nearest integer, ties away from zero (R110, rnd32 and rnd64). -/
def rndAway (n : Int) (den : Nat) : Int :=
  let m := n.natAbs
  let r : Nat := (2 * m + den) / (2 * den)
  if n < 0 then -(r : Int) else (r : Int)

/-- tz(n / den): truncation toward zero. -/
def tz (n : Int) (den : Nat) : Int := Int.tdiv n den

/-- 1.0 in Q2.30. -/
def q30 : Int := 1073741824

/-- Product of two Q2.30 codes, rounded (rnd32). -/
def mulQ (a b : Int) : Int := rndAway (a * b) 1073741824

/-- A saturation to `w` signed bits with 1 where it changed the value (R114). -/
def satC (w : Nat) (x : Int) : Int × Nat := let y := satS w x; (y, if y = x then 0 else 1)

/-- A saturation to 0..65,535. -/
def satU (x : Int) : Int × Nat := let y := clampI 0 65535 x; (y, if y = x then 0 else 1)

/-! ### The ladder (R109, R110) -/

/-- One step of a real ladder: the six entries from exact numerators over `den`. -/
def ladderReal (kind : Nat) (a ce ci ca be bi : Int) (den : Nat) : List Byte :=
  let q (x : Int) := leBytes 4 (uOf 32 (rndAway (x * q30) den))
  let w (x : Int) := leBytes 8 (uOf 64 (rndAway (x * (4 * q30)) den))
  if kind = 3 then q a ++ zeros 28
  else q a ++ q ce ++ q ci ++ (if kind = 1 then q ca else leBytes 4 0x40000000) ++ w be ++ w bi

/-- The sixteen steps of an LIF, ALIF or SD ladder, by exact squaring. -/
def ladderLif (kind : Nat) (a ce ci ca be bi : Int) (den : Nat) : Nat → List Byte
  | 0 => []
  | k + 1 => ladderReal kind a ce ci ca be bi den ++
      ladderLif kind (a * a) (ce * ce) (ci * ci) (ca * ca) (be * (a + ce)) (bi * (a + ci)) (den * den) k

/-- The sixteen steps of an RF ladder. -/
def ladderRf (cr ci : Int) (den : Nat) : Nat → List Byte
  | 0 => []
  | k + 1 => leBytes 4 (uOf 32 (rndAway (cr * q30) den)) ++ leBytes 4 (uOf 32 (rndAway (ci * q30) den)) ++ zeros 24 ++
      ladderRf (cr * cr - ci * ci) (2 * cr * ci) (den * den) k

/-- A signed 32-bit code of a profile. -/
def profQ (pb : List Byte) (off : Nat) : Int := sInt 32 (leAt pb off 4)

/-- The ladder Carillon derives from a base record (R110). -/
def ladderOf (pb : List Byte) : List Byte :=
  let k := profKind pb
  let den := 1073741824
  if k = 2 then ladderRf (profQ pb 36) (profQ pb 40) den 16
  else if k = 4 then zeros 512
  else if k = 3 then ladderLif 3 (profQ pb 20) 0 0 0 0 0 den 16
  else ladderLif k (profQ pb 20) (profQ pb 24) (profQ pb 28) (profQ pb 32) (profQ pb 24) (profQ pb 28) den 16

/-- Entries of ladder step `k` in the 576 bytes of a profile. -/
def lad32 (pr : List Byte) (k off : Nat) : Int := sInt 32 (leAt pr (64 + 32 * k + off) 4)
def lad64 (pr : List Byte) (k off : Nat) : Int := sInt 64 (leAt pr (64 + 32 * k + off) 8)

/-! ### Profile checks (R108) -/

def inUnit (x : Int) : Bool := 0 ≤ x && x ≤ q30

def profileOk (pb : List Byte) : Bool :=
  let k := profKind pb
  let fl := byteAt pb 1
  let theta := sInt 24 (leAt pb 8 3)
  let vres := sInt 24 (leAt pb 12 3)
  let usesTheta := k ≠ 3
  let usesV := k ≤ 2
  pb.length = 64 && k ≤ 4 &&
  (! usesTheta || (1 ≤ theta && (k ≠ 2 || theta ≤ 524287) && byteAt pb 11 = 0)) &&
  (! usesV || (vres < theta && byteAt pb 15 = 0)) &&
  (! (k ≤ 1 || k = 3) || inUnit (profQ pb 20)) && (! (k ≤ 1) || (inUnit (profQ pb 24) && inUnit (profQ pb 28))) &&
  (k ≠ 1 || inUnit (profQ pb 32)) &&
  (k ≠ 2 || profQ pb 36 * profQ pb 36 + profQ pb 40 * profQ pb 40 ≤ q30 * q30) &&
  (k ≠ 1 || profRing pb ≠ 3) &&
  (k ≠ 4 || (byteAt pb 3 = 0 && leAt pb 16 2 = 0 && ! bitAt fl 2)) &&
  fl < 64 && byteAt pb 2 < 4 && (k = 3 || byteAt pb 3 < 16) && byteAt pb 4 < 8 && (k = 3 || byteAt pb 5 < 32) &&
  (k ≠ 1 || byteAt pb 6 < 8) && (k ≠ 3 || byteAt pb 6 < 32) && byteAt pb 7 = 0 && (k = 4 || byteAt pb 47 < 2) &&
  (pb.drop 48).all (· == 0#8)

/-! ### The generator (R306) and traces (R309, R310) -/

/-- One draw: the 16-bit value and the new state. -/
def draw (x : Nat) : Nat × Nat :=
  let x := (x ^^^ (x * 2 ^ 13)) % 2 ^ 32
  let x := x ^^^ (x / 2 ^ 17)
  let x := (x ^^^ (x * 2 ^ 5)) % 2 ^ 32
  (x / 2 ^ 16, x)

/-- The decay factor over `delta` beats: bits of `delta` from `k` of 16 on. -/
def traceFactor (delta : Nat) : Nat → Nat → Nat → Nat → Nat
  | 0, _, f, _ => f
  | n + 1, k, f, sq => traceFactor delta n (k + 1) (if bitAt delta k then f * sq / 65536 else f) (sq * sq / 65536)

/-- `trace_update` of R310 with the generator's state: the new trace and state. -/
def traceUpdate (x par delta : Nat) (spike stoch : Bool) (gen : Nat) : Nat × Nat :=
  let delta := delta % 65536
  let p := x * traceFactor delta 16 0 65536 (par % 65536)
  let y := p / 65536
  let dr := if stoch && delta ≠ 0 then draw gen else (65535, gen)
  let y := if stoch && delta ≠ 0 && dr.1 < p % 65536 then y + 1 else y
  let inc := bitsOf par 16 8
  let y := if spike then (if bitAt par 24 then inc else min 255 (y + inc)) else y
  (y, dr.2)

/-! ### Catch-up (R115 to R117) -/

/-- Composed LIF coefficients over the set bits of `delta` from bit `k`. -/
def composeLif (pr : List Byte) (delta : Nat) : Nat → Nat → Int → Int → Int → Int → Int → Int →
    Int × Int × Int × Int × Int × Int
  | 0, _, a, ce, ci, ca, be, bi => (a, ce, ci, ca, be, bi)
  | n + 1, k, a, ce, ci, ca, be, bi =>
    if bitAt delta k then
      let la := lad32 pr k 0
      let be' := rndAway (la * be + lad64 pr k 16 * ce) 1073741824
      let bi' := rndAway (la * bi + lad64 pr k 24 * ci) 1073741824
      composeLif pr delta n (k + 1) (mulQ la a) (mulQ (lad32 pr k 4) ce) (mulQ (lad32 pr k 8) ci)
        (mulQ (lad32 pr k 12) ca) be' bi'
    else composeLif pr delta n (k + 1) a ce ci ca be bi

/-- Number of set bits. -/
def popcount : Nat → Nat → Nat
  | 0, _ => 0
  | n + 1, x => x % 2 + popcount n (x / 2)

/-- State of a record as numbers: V/X, IE/Y, II, A/Q. -/
structure NState where
  v  : Int
  ie : Int
  ii : Int
  a  : Int
  deriving DecidableEq, Repr

def unpack (kind x : Nat) : NState :=
  if kind = 2 then ⟨sInt 20 (bitsOf x 16 20), sInt 20 (bitsOf x 36 20), 0, 0⟩
  else if kind = 3 then ⟨sInt 24 (bitsOf x 16 24), 0, 0, sInt 8 (bitsOf x 40 8)⟩
  else if kind = 4 then ⟨0, 0, 0, 0⟩
  else ⟨sInt 24 (bitsOf x 16 24), sInt 24 (bitsOf x 40 24), sInt 24 (bitsOf x 64 24),
        if kind = 1 then (bitsOf x 88 16 : Int) else 0⟩

/-- The record of a state: reserved bits zero (R105, R106); `inslot` where the profile has no ring. -/
def pack (kind : Nat) (s : NState) (ring inslot stamp post prof refr : Nat) (act pend : Bool) : Nat :=
  let slot := if ring = 3 then inslot % 65536 else 0
  let body :=
    if kind = 2 then uOf 20 s.v * 2 ^ 16 + uOf 20 s.ie * 2 ^ 36 + slot * 2 ^ 56
    else if kind = 3 then uOf 24 s.v * 2 ^ 16 + uOf 8 s.a * 2 ^ 40 + slot * 2 ^ 48
    else if kind = 4 then slot * 2 ^ 16
    else uOf 24 s.v * 2 ^ 16 + uOf 24 s.ie * 2 ^ 40 + uOf 24 s.ii * 2 ^ 64 + (if kind = 1 then uOf 16 s.a else slot) * 2 ^ 88
  stamp % 65536 + body + (if kind = 4 then 0 else post % 256) * 2 ^ 104 + prof % 64 * 2 ^ 112 + refr % 16 * 2 ^ 120 +
    natOf act * 2 ^ 124 + natOf (pend && kind = 3) * 2 ^ 125

/-- What a catch-up leaves: the state, REFR, saturations, and update slots (R115 to R117, R129). -/
structure Caught where
  s    : NState
  refr : Nat
  sat  : Nat
  slots : Nat
  deriving DecidableEq, Repr

def slotsFor (p : Nat) : Nat := if p ≤ 4 then 1 else if p ≤ 8 then 2 else if p ≤ 12 then 3 else 4

/-- Product of ladder entries at `off` over the set bits of `delta`. -/
def composeOne (pr : List Byte) (off delta : Nat) : Nat → Nat → Int → Int
  | 0, _, a => a
  | n + 1, k, a => composeOne pr off delta n (k + 1) (if bitAt delta k then mulQ (lad32 pr k off) a else a)

/-- The composed complex factor of an RF record (R116). -/
def composeRf (pr : List Byte) (delta : Nat) : Nat → Nat → Int → Int → Int × Int
  | 0, _, r, i => (r, i)
  | n + 1, k, r, i =>
    if bitAt delta k then
      let lr := lad32 pr k 0
      let li := lad32 pr k 4
      composeRf pr delta n (k + 1) (rndAway (lr * r - li * i) 1073741824) (rndAway (li * r + lr * i) 1073741824)
    else composeRf pr delta n (k + 1) r i

/-- Catch-up of LIF and ALIF records (R115). -/
def catchLif (pr : List Byte) (kind : Nat) (s : NState) (refr delta : Nat) : Caught :=
  let h := min refr delta
  let u (x : Int) := if kind = 1 then satU x else (0, 0)
  let r1 : NState × Nat :=
    if 0 < h then
      let e := satC 24 (tz (composeOne pr 4 h 16 0 q30 * s.ie) 1073741824)
      let i := satC 24 (tz (composeOne pr 8 h 16 0 q30 * s.ii) 1073741824)
      let a := u (tz (composeOne pr 12 h 16 0 q30 * s.a) 1073741824)
      (⟨sInt 24 (leAt pr 12 3), e.1, i.1, a.1⟩, e.2 + i.2 + a.2)
    else (s, 0)
  let s := r1.1
  let dl := delta - h
  let r2 : NState × Nat :=
    if 0 < dl then
      let c := composeLif pr dl 16 0 q30 q30 q30 q30 0 0
      let v := satC 24 (tz (c.1 * s.v * 4 + c.2.2.2.2.1 * s.ie + c.2.2.2.2.2 * s.ii) 4294967296)
      let e := satC 24 (tz (c.2.1 * s.ie) 1073741824)
      let i := satC 24 (tz (c.2.2.1 * s.ii) 1073741824)
      let a := u (tz (c.2.2.2.1 * s.a) 1073741824)
      (⟨v.1, e.1, i.1, a.1⟩, v.2 + e.2 + i.2 + a.2)
    else (s, 0)
  { s := r2.1, refr := refr - h, sat := r1.2 + r2.2, slots := slotsFor (popcount 16 dl) + (if 0 < h then 1 else 0) }

/-- Catch-up of any record over `delta` beats (R115 to R117). -/
def catchUp (pr : List Byte) (s : NState) (refr delta : Nat) : Caught :=
  let kind := profKind pr
  if kind = 2 then
    let c := composeRf pr delta 16 0 q30 0
    let x := satC 20 (tz (c.1 * s.v - c.2 * s.ie) 1073741824)
    let y := satC 20 (tz (c.2 * s.v + c.1 * s.ie) 1073741824)
    if delta = 0 then ⟨s, refr, 0, 1⟩
    else { s := ⟨x.1, y.1, 0, 0⟩, refr := refr - delta, sat := x.2 + y.2, slots := slotsFor (popcount 16 delta) }
  else if kind = 3 then
    let x := satC 24 (tz (composeOne pr 0 delta 16 0 q30 * s.v) 1073741824)
    { s := { s with v := x.1 }, refr := 0, sat := x.2, slots := slotsFor (popcount 16 delta) }
  else if kind = 4 then { s := s, refr := 0, sat := 0, slots := slotsFor (popcount 16 delta) }
  else catchLif pr kind s refr delta

/-! ### One beat (R119, R120) -/

/-- What a beat does to a caught-up state: the state, REFR, saturations, the spike's grade where it fires, and PEND. -/
structure Beat1 where
  s    : NState
  refr : Nat
  sat  : Nat
  fire : Option Int
  pend : Bool
  clamped : Bool
  deriving DecidableEq, Repr

/-- The grade of an overshoot (R120). -/
def gradeOf (pr : List Byte) (e : Int) : Int :=
  if bitAt (byteAt pr 1) 1 then clampI 1 127 (shrI e (byteAt pr 5 % 32) + 1) else 1

def beatLif (pr : List Byte) (kind : Nat) (c : Caught) (u : Int) (refractory : Bool) : Beat1 :=
  let fl := byteAt pr 1
  let e := if 0 < u then satC 24 (c.s.ie + u) else (c.s.ie, 0)
  let i := if u < 0 then satC 24 (c.s.ii + u) else (c.s.ii, 0)
  let s : NState := { c.s with ie := e.1, ii := i.1 }
  let n := c.sat + e.2 + i.2
  if refractory then { s := s, refr := c.refr, sat := n, fire := none, pend := false, clamped := false }
  else
    let v1 := satC 24 (s.v + u)
    let v2 := satC 24 (v1.1 + sInt 16 (leAt pr 16 2) * ((2 ^ (byteAt pr 4 % 8) : Nat) : Int))
    let n := n + v1.2 + v2.2
    let theta0 := sInt 24 (leAt pr 8 3)
    let theta := if kind = 1 then theta0 + s.a * ((2 ^ (byteAt pr 6 % 8) : Nat) : Int) else theta0
    if theta ≤ v2.1 then
      let ov := v2.1 - theta
      let v := if bitAt fl 2 then satC 24 ov else (sInt 24 (leAt pr 12 3), 0)
      let a := if kind = 1 then satU (s.a + (leAt pr 18 2 : Int)) else (s.a, 0)
      { s := { s with v := v.1, a := a.1 }, refr := byteAt pr 3 % 16, sat := n + v.2 + a.2, fire := some (gradeOf pr ov),
        pend := false, clamped := false }
    else { s := { s with v := v2.1 }, refr := c.refr, sat := n, fire := none, pend := false, clamped := false }

def beatRf (pr : List Byte) (c : Caught) (u : Int) (refractory : Bool) : Beat1 :=
  let fl := byteAt pr 1
  let x := if bitAt fl 4 then (c.s.v, 0) else satC 20 (c.s.v + u)
  let y := if bitAt fl 4 then satC 20 (c.s.ie + u) else (c.s.ie, 0)
  let n := c.sat + x.2 + y.2
  let theta := sInt 24 (leAt pr 8 3)
  if ! refractory && theta ≤ y.1 then
    let ov := y.1 - theta
    let y' := if bitAt fl 2 then (ov, 0) else satC 20 (sInt 24 (leAt pr 12 3))
    { s := ⟨x.1, y'.1, 0, 0⟩, refr := byteAt pr 3 % 16, sat := n + y'.2, fire := some (gradeOf pr ov), pend := false,
      clamped := false }
  else { s := ⟨x.1, y.1, 0, 0⟩, refr := c.refr, sat := n, fire := none, pend := false, clamped := false }

def beatSd (pr : List Byte) (c : Caught) (u : Int) : Beat1 :=
  let x := satC 24 (c.s.v + u)
  let k := byteAt pr 6 % 32
  let r := if k = 0 then x.1 else shrI (x.1 + ((2 ^ (k - 1) : Nat) : Int)) k
  let qq := clampI (-127) 127 r
  let g := clampI (-127) 127 (qq - c.s.a)
  let s : NState := { c.s with v := x.1 }
  if qq = c.s.a then { s := s, refr := 0, sat := c.sat + x.2, fire := none, pend := false, clamped := false }
  else
    let q' := c.s.a + g
    { s := { s with a := q' }, refr := 0, sat := c.sat + x.2, fire := some g, pend := decide (q' ≠ qq),
      clamped := decide (q' ≠ qq) }

def beatRly (pr : List Byte) (c : Caught) (u : Int) : Beat1 :=
  let theta := sInt 24 (leAt pr 8 3)
  { s := c.s, refr := 0, sat := c.sat, pend := false, clamped := false,
    fire := if theta ≤ u then some (gradeOf pr (u - theta)) else none }

/-- The current beat of a caught-up record (R119). -/
def beatOne (pr : List Byte) (c : Caught) (u : Int) (refractory : Bool) : Beat1 :=
  let kind := profKind pr
  if kind = 2 then beatRf pr c u refractory
  else if kind = 3 then beatSd pr c u
  else if kind = 4 then beatRly pr c u
  else beatLif pr kind c u refractory

/-- The condition of the active list (R122). -/
def actOf (pr : List Byte) (s : NState) (pend : Bool) : Bool :=
  let kind := profKind pr
  let theta := sInt 24 (leAt pr 8 3)
  if kind = 0 then leAt pr 16 2 ≠ 0 || 0 < s.ie
  else if kind = 1 then leAt pr 16 2 ≠ 0 || 0 < s.ie || (0 < s.a && theta ≤ s.v)
  else if kind = 2 then bitAt (byteAt pr 1) 3 || theta ≤ (s.v.natAbs : Int) + (s.ie.natAbs : Int)
  else if kind = 3 then (profQ pr 20 < q30 && s.a ≠ 0) || pend
  else false

/-- POSTTR, which RLY profiles ignore (R311). -/
def postTr (pr : List Byte) : Bool := bitAt (byteAt pr 1) 5 && profKind pr ≠ 4

/-! ### The engine -/

/-- Note saturations (R114). -/
def Dev.noteSat (d : Dev) (q n : Nat) : Dev :=
  if n = 0 then d
  else
    let d := (d.bump (NEU_SATCNT q) n).setFlag (NEU_STAT q) 4 true
    d.forEach (upTo n) (fun d _ => d.tocArrive q 3 ((d.regPart (q / 16)).getD 0) 0 0 false)

/-- The input of neuron `i` for beat `n`: its ring slot, or INSLOT (R112, R148). -/
def Dev.inputOf (d : Dev) (q i n x : Nat) (pr : List Byte) : Nat :=
  let r := d.ringOf q i
  if r.1 = 1 then (if profValid pr then bitsOf x (inslotBit (profKind pr)) 16 else 0)
  else d.rdN (r.2 + 2 * (n % r.1)) 2

/-- Append a fire-log entry (R126). -/
def Dev.fireAppend (d : Dev) (q i n prof : Nat) (grade : Int) (post clamped : Bool) : Dev :=
  let d := if post then d.setFlag (HRV_STAT q) 1 true else d
  let t := d.fld (NEU_FLTAIL q) 0 12
  let e := leBytes 2 i ++ leBytes 1 (uOf 8 grade) ++ leBytes 1 (natOf post + 2 * natOf clamped) ++ leBytes 2 (n % 65536) ++
    leBytes 1 prof ++ zeros 1
  let d := d.wrB (d.flBase q + 8 * t) e
  let d := { d with ecc := SMap.set 0 d.ecc (d.flBase q + 8 * t) 0 }
  let d := d.setCore q { (d.core q) with flDone := SMap.set 0 (d.core q).flDone t 0 }
  ((d.setR (NEU_FLTAIL q) ((t + 1) % 4096)).setR (NEU_FLCOUNT q) (d.rg (NEU_FLCOUNT q) + 1)).count64 (NEU_FIRE_LO q) 1

/-- Outcome of visiting a neuron: the slots its update took (eight-wide and four-wide), or a stall. -/
inductive Visit
  | skipped | updated (s8 s4 : Nat) | stalled
  deriving DecidableEq, Repr

/-- Visit neuron `i` in Integrate of beat `n` (R111 to R123, R128). -/
def Dev.visit (d : Dev) (q p i n : Nat) : Dev × Visit :=
  if d.ncount q ≤ i then (d, .skipped) else
  let d := d.fixRec q i
  let x := d.readRec q i
  let pr := d.profile q (recProf x)
  let ring := d.ringOf q i
  let slotA := ring.2 + 2 * (n % ring.1)
  let d := if ring.1 = 1 then d else d.fixWord q slotA
  let inp := d.inputOf q i n x pr
  if inp = 0 && ! SMap.get false (d.core q).active i then (d, .skipped)
  else if ! profValid pr then
    let d := if ring.1 = 1 then d else d.wrN slotA 2 0
    let d := (d.bump (NEU_PROFERRCNT q) 1).setFlag (NEU_STAT q) 6 true
    (d.tocArrive q 1 p 0 0 false, .skipped)
  else
    let kind := profKind pr
    let delta := (n + 65536 - recStamp x) % 65536
    let refractory := 1 ≤ delta && delta ≤ recRefr x
    let c := catchUp pr (unpack kind x) (recRefr x) delta
    let u := sInt 16 inp * ((2 ^ (byteAt pr 4 % 8) : Nat) : Int)
    let b := beatOne pr c u refractory
    if b.fire.isSome && d.rg (NEU_FLCOUNT q) = 4096 then
      ((d.setFlag (NEU_STAT q) 5 true).tocArrive q 2 p 0 0 false, .stalled)
    else
      let co := d.core q
      let tr := if postTr pr then traceUpdate (recPost x) (leAt pr 44 4) delta b.fire.isSome true co.gen else (0, co.gen)
      let d := d.setCore q { co with gen := tr.2 }
      let act := actOf pr b.s b.pend
      let d := d.writeRec q i (pack kind b.s (profRing pr) 0 n tr.1 (recProf x) b.refr act b.pend)
      let d := if ring.1 = 1 then d else d.wrN slotA 2 0
      let d := (d.setActive q i act).noteSat q b.sat
      let d := d.count64 (NEU_UPD_LO q) 1
      let d := if b.pend then d.setTouch q ((n + 1) % 16) (i / 32) else d
      let d := match b.fire with
        | some g => (d.fireAppend q i n (recProf x) g (postTr pr) b.clamped).spikeSeen q p i n g
        | none => d
      (d, if kind = 2 then .updated 0 c.slots else .updated c.slots 0)

/-- Visit the listed neurons in order; a full fire log stops the engine (R128), with NEU_STAT.BUSY set (R135). -/
def Dev.visits (q p n groups : Nat) : List Nat → Nat → Nat → Dev → Dev
  | [], s8, s4, d =>
    let cyc := 40 + max groups (ceilDiv (s8 + 2 * s4) 8)
    let d := (d.setR (NEU_LASTINT q) cyc).obsBusy q 1 cyc
    let c := d.core q
    let row := n % 16
    (d.setCore q { c with integ := some n, stall := none, touch := SMap.clear c.touch (1024 * row) (1024 * row + 1024) }).setFlag
      (NEU_STAT q) 0 false
  | i :: r, s8, s4, d =>
    match d.visit q p i n with
    | (d, .skipped) => Dev.visits q p n groups r s8 s4 d
    | (d, .updated a b) => Dev.visits q p n groups r (s8 + a) (s4 + b) d
    | (d, .stalled) =>
      (d.setCore q { (d.core q) with stall := some { beat := n, next := i, groups := groups, slots8 := s8, slots4 := s4 } }).setFlag
        (NEU_STAT q) 0 true

/-- Remove equal neighbours of a sorted list. -/
def dedup : List Nat → List Nat
  | [] => []
  | [a] => [a]
  | a :: b :: r => if a = b then dedup (b :: r) else a :: dedup (b :: r)

/-- Insert into a sorted list without repeats. -/
def insertNat (a : Nat) : List Nat → List Nat
  | [] => [a]
  | b :: r => if a < b then a :: b :: r else if a = b then b :: r else b :: insertNat a r

/-- The groups Integrate of beat `n` visits: touched, or with an active neuron (R111). -/
def Dev.groupsOf (d : Dev) (q n : Nat) : List Nat :=
  let c := d.core q
  let row := n % 16
  let t := (c.touch.filter (fun x => 1024 * row ≤ x.1 && x.1 < 1024 * row + 1024)).map (fun x => x.1 - 1024 * row)
  (dedup (c.active.map (fun x => x.1 / 32))).foldl (fun l g => insertNat g l) t

/-- The neurons of a list of groups, rising. -/
def neuronsOf (gs : List Nat) : List Nat := (gs.map (fun g => (upTo 32).map (fun k => 32 * g + k))).flatten

/-- INTEGRATE (R57, R111): after the slot of the core's beat is drained and before it is integrated. -/
def Dev.integrate (d : Dev) (q : Nat) : Dev :=
  match d.regPart (q / 16) with
  | none => d
  | some p =>
    let c := d.core q
    let n := (c.ptr + 2 ^ 48 - 1) % 2 ^ 48
    if ! d.running p || ! (d.logOf q).isSome || c.integ == some n || c.integ.isNone || c.stall.isSome ||
        ! (d.region (q / 16)).started then d
    else
      let gs := d.groupsOf q n
      let d := Dev.visits q p n gs.length (neuronsOf gs) 0 0 d
      if n = d.beat p then d.firstRound p else d

/-- A stalled engine goes on when an entry is released, after `cycles` arithmetic cycles (R128). -/
def Dev.stallEnd (d : Dev) (q cycles : Nat) : Dev :=
  match (d.core q).stall, d.regPart (q / 16) with
  | some s, some p =>
    if d.rg (NEU_FLCOUNT q) = 4096 || ! d.running p then d
    else
      let d := (d.bump (NEU_FLSTALL q) cycles).obsStall q 1 7 cycles
      let gs := d.groupsOf q s.beat
      let d := d.setCore q { (d.core q) with stall := none }
      Dev.visits q p s.beat s.groups ((neuronsOf gs).filter (fun i => s.next ≤ i)) s.slots8 s.slots4 d
  | _, _ => d

/-- One position of the stale sweep of beat `n` (R124, R311). -/
def Dev.sweepOne (d : Dev) (q i n : Nat) : Dev :=
  let d := d.fixRec q i
  let x := d.readRec q i
  let pr := d.profile q (recProf x)
  if ! profValid pr || recAct x then d
  else
    let kind := profKind pr
    let t := (n + 65535) % 65536
    let delta := (t + 65536 - recStamp x) % 65536
    let c := catchUp pr (unpack kind x) (recRefr x) delta
    let co := d.core q
    let tr := if postTr pr then traceUpdate (recPost x) (leAt pr 44 4) delta false true co.gen else (0, co.gen)
    let d := d.setCore q { co with gen := tr.2 }
    let d := d.writeRec q i (pack kind c.s (profRing pr) (bitsOf x (inslotBit kind) 16) t tr.1 (recProf x) c.refr false (recPend x))
    (d.noteSat q c.sat).count64 (NEU_UPD_LO q) 1

/-- The stale sweep of beat `n`: ceil(NCOUNT / 16,384) positions (R124). -/
def Dev.staleSweep (d : Dev) (q n : Nat) : Dev :=
  let nc := d.ncount q
  d.forEach (upTo (ceilDiv nc 16384)) (fun d _ =>
    let i := d.fld (NEU_SWEEP q) 0 16
    let i := if nc ≤ i then 0 else i
    (d.sweepOne q i n).setR (NEU_SWEEP q) (if i + 1 < nc then i + 1 else 0))

/-- Restamp of one record before beat `f` (R125, R311, R659). -/
def Dev.restampOne (d : Dev) (q i f : Nat) (zeroPost : Bool) : Dev :=
  let d := d.fixRec q i
  let x := d.readRec q i
  let pr := d.profile q (recProf x)
  let x := putBits x 0 16 ((f + 65535) % 65536)
  if ! profValid pr then
    let x := putBits x 124 1 0
    (d.writeRec q i (if zeroPost then putBits x 104 8 0 else x)).setActive q i false
  else
    let kind := profKind pr
    let s := unpack kind x
    let act := actOf pr s (recPend x)
    let post := if zeroPost then 0 else recPost x
    (d.writeRec q i (pack kind s (profRing pr) (bitsOf x (inslotBit kind) 16) (recStamp x) post (recProf x) (recRefr x) act
      (recPend x))).setActive q i act

/-- Restamp every record of a core (R125). -/
def Dev.restamp (d : Dev) (q f : Nat) (zeroPost : Bool) : Dev :=
  let d := d.setCore q { (d.core q) with active := [] }
  (d.setR (NEU_ACTIVE q) 0).forEach (upTo (d.ncount q)) (fun d i => d.restampOne q i f zeroPost)

/-! ### Release of fire-log entries (R127) -/

/-- Release entries from the head while the oldest is done: looked up, and read by the post pass where POST is set. -/
def Dev.flRelease (d : Dev) (q : Nat) : Nat → Dev
  | 0 => d
  | k + 1 =>
    let hd := d.fld (NEU_FLHEAD q) 0 12
    let st := SMap.get 0 (d.core q).flDone hd
    let post := bitAt (d.mem.read (d.flBase q + 8 * hd + 3)).toNat 0
    if d.rg (NEU_FLCOUNT q) = 0 || ! bitAt st 0 || (post && ! bitAt st 1) then d
    else
      let c := d.core q
      let d := d.setCore q { c with flDone := SMap.set 0 c.flDone hd 0 }
      Dev.flRelease ((d.setR (NEU_FLHEAD q) ((hd + 1) % 4096)).setR (NEU_FLCOUNT q) (d.rg (NEU_FLCOUNT q) - 1)) q k

/-- Mark bit `k` of a fire-log entry and release what is done. -/
def Dev.flMark (d : Dev) (q pos k : Nat) : Dev :=
  let c := d.core q
  (d.setCore q { c with flDone := SMap.set 0 c.flDone pos (SMap.get 0 c.flDone pos ||| 2 ^ k) }).flRelease q 4096

/-! ### Commands (R137 to R140) -/

/-- Which sites a command's LCORE names: DENIED outside the partition, FENCED where the entry is invalid (R137). -/
def Dev.lcore (d : Dev) (p lc : Nat) : Except Status Nat :=
  if 256 ≤ lc || ! d.owns p (lc / 16) then .error .denied
  else match d.physOf lc with
    | some q => .ok q
    | none => .error .fenced

/-- A command that names one core. -/
def Dev.onCore (d : Dev) (p lc : Nat) (f : Nat → Dev × Ans) : Dev × Ans :=
  match d.lcore p lc with
  | .error s => (d, .st s)
  | .ok q => f q

/-- Every record of core `q` that names profile `k` has the ring size of its band. -/
def Dev.ringsAgree (d : Dev) (q k ring : Nat) : Bool :=
  (upTo (d.ncount q)).all (fun i => recProf (d.readRec q i) ≠ k || (d.ringOf q i).1 = ringSize ring)

def neuSpec (op : Nat) (len : List Byte → Bool) (ro : Bool) (rsv : List (Nat × Nat)) : CmdSpec :=
  { opcode := op, issuer := .owner, names := true, ro := ro, len := len, rsv := rsv }

def cProfileLoad : CmdSpec := neuSpec 0x0201 (lenIs 72) false (rsvd 3 5)

/-- Load one profile into one core (R138). -/
def Dev.loadProfile (d : Dev) (q k : Nat) (pb : List Byte) : Dev :=
  let c := d.core q
  let v := profValid pb
  let d := d.setCore q { c with profiles := SMap.set [] c.profiles k (pb ++ ladderOf pb) }
  if k < 32 then d.setFlag (NEU_PROFVALID_LO q) k v else d.setFlag (NEU_PROFVALID_HI q) (k - 32) v

def Dev.profileLoad (d : Dev) (h : Hdr) (pl : List Byte) : Dev × Ans :=
  let p := h.part
  let lc := leAt pl 0 2
  let k := byteAt pl 2
  let pb := pl.drop 8
  let qs : Except Status (List Nat) := if lc = 0xFFFF then .ok (d.sitesOf p) else (d.lcore p lc).map (fun q => [q])
  match qs with
  | .error s => (d, .st s)
  | .ok qs =>
    if ! d.still p then (d.forEach qs (fun d q => d.setFlag (NEU_STAT q) 7 true), .st .busy)
    else if 64 ≤ k || ! profileOk pb || (profValid pb && ! qs.all (fun q => d.ringsAgree q k (profRing pb))) then
      (d, .st .denied)
    else (d.forEach qs (fun d q => d.loadProfile q k pb), .st .ok)

def cProfileRead : CmdSpec := neuSpec 0x0202 (lenIs 8) true (rsvd 3 5)

def Dev.profileRead (d : Dev) (h : Hdr) (pl : List Byte) : Dev × Ans :=
  d.onCore h.part (leAt pl 0 2) (fun q =>
    if 64 ≤ byteAt pl 2 then (d, .st .denied) else (d, .done .ok 0 (padTo 576 (d.profile q (byteAt pl 2)))))

def cNeuronLoad : CmdSpec :=
  neuSpec 0x0203 (fun pl => 24 ≤ pl.length && pl.length == 8 + 16 * leAt pl 4 2 && leAt pl 4 2 ≠ 0) false (rsvd 6 2)

/-- A record may name a valid profile only with the ring size of its band (R147). -/
def Dev.recordFits (d : Dev) (q i x : Nat) : Bool :=
  let pr := d.profile q (recProf x)
  ! profValid pr || (d.ringOf q i).1 = ringSize (profRing pr)

def Dev.neuronLoad (d : Dev) (h : Hdr) (pl : List Byte) : Dev × Ans :=
  d.onCore h.part (leAt pl 0 2) (fun q =>
    let i0 := leAt pl 2 2
    let n := leAt pl 4 2
    if ! d.still h.part then (d.setFlag (NEU_STAT q) 7 true, .st .busy)
    else if d.ncount q < i0 + n || ! (upTo n).all (fun k => d.recordFits q (i0 + k) (leAt pl (8 + 16 * k) 16)) then
      (d, .st .denied)
    else (d.csWrite q (d.recAddr q i0) (pl.drop 8) (pl.length), .st .ok))

def cNeuronRead : CmdSpec := neuSpec 0x0204 (lenIs 8) true ([(6, 0xFE)] ++ rsvd 7 1)

/-- The record caught up to beat `n` without input, as NEURON_READ with CURRENT returns it (R140). -/
def Dev.currentRec (d : Dev) (q i n : Nat) : Nat :=
  let x := d.readRec q i
  let pr := d.profile q (recProf x)
  if ! profValid pr then x
  else
    let kind := profKind pr
    let delta := (n % 65536 + 65536 - recStamp x) % 65536
    let c := catchUp pr (unpack kind x) (recRefr x) delta
    let post := if postTr pr then (traceUpdate (recPost x) (leAt pr 44 4) delta false false 0).1 else 0
    pack kind c.s (profRing pr) (bitsOf x (inslotBit kind) 16) n post (recProf x) c.refr (recAct x) (recPend x)

/-- NEURON_READ (R140): the records are read as the engines read them (R172, R175, R656). -/
def Dev.neuronRead (d : Dev) (h : Hdr) (pl : List Byte) : Dev × Ans :=
  d.onCore h.part (leAt pl 0 2) (fun q =>
    let i0 := leAt pl 2 2
    let n := leAt pl 4 2
    let cur := bitAt (byteAt pl 6) 0
    if cur && d.bstate h.part ≠ 3 then (d, .st .busy)
    else if d.ncount q < i0 + n then (d, .st .denied)
    else
      let d := d.forEach (upTo n) (fun d k => d.fixRec q (i0 + k))
      let rec' (i : Nat) := if cur then d.currentRec q i (d.beat h.part) else d.readRec q i
      (d, .done .ok 0 ((upTo n).map (fun k => leBytes 16 (rec' (i0 + k)))).flatten))

def cNeuronStatus : CmdSpec := neuSpec 0x0205 (lenIs 8) true (rsvd 2 6)

def Dev.neuronStatus (d : Dev) (h : Hdr) (pl : List Byte) : Dev × Ans :=
  d.onCore h.part (leAt pl 0 2) (fun q => (d, .done .ok 0 (d.regBytes (NEU_CFG q) 16)))

/-- The write of NEU_CFG (R133, R135, R144). -/
def Dev.ncountWrite (d : Dev) (q v : Nat) : Dev :=
  let n := v % 65536
  let base := 65536 * d.fld (SYN_PMREC q) 0 6
  let fl := 0x8000 * d.fld (SYN_FLBASE q) 0 7
  let len := d.areaLen (SYN_PMREC q)
  let quiet := match d.regPart (q / 16) with
    | some p => d.still p
    | none => true
  if ! quiet || 32768 < n || len < 16 * n || (base ≤ fl && fl < base + len && fl < base + 16 * n) then
    d.setFlag (NEU_STAT q) 7 true
  else d.setF (NEU_CFG q) 0 16 n

end Sys2Proof.Machine
end

