-- ==== Sys2Proof/Machine/Rows.lean ====
section
/-! DEFINITION. Synapse rows: zones and row addresses, delivery of one row with its contributions and its plastic
updates, poisoned rows, and the page map's commands (R143 to R185, R312 to R319). -/

namespace Sys2Proof.Machine

/-! ### Formats and zones (R150 to R153) -/

def fmtHeader (f : Nat) : Nat := if f ≤ 4 then 8 else 16
def fmtBody (f : Nat) : Nat := if f = 0 then 32 else if f = 1 || f = 2 then 64 else if f = 3 || f = 5 then 128 else 0
def fmtUnits (f : Nat) : Nat := if f = 0 then 1 else if f = 1 || f = 2 then 2 else if f = 3 || f = 5 then 4 else 0
def fmtSparse (f : Nat) : Bool := f == 4 || f == 6
def fmtEntry (f : Nat) : Nat := if f = 4 then 4 else 6
def fmtMax (f : Nat) : Nat := if f = 4 then 1022 else 680
def fmtPlastic (f : Nat) : Bool := f == 5 || f == 6

/-- Is there a zone of 2^`n` rows at most: the largest j with roundup32(j H) + j B ≤ Z, found bit by bit (R151). -/
def rowsOf (hh b z : Nat) : Nat → Nat → Nat
  | 0, j => j
  | n + 1, j =>
    let k := j + 2 ^ n
    rowsOf hh b z n (if (k * hh + 31) / 32 * 32 + k * b ≤ z then k else j)

/-- The zone that holds the unit `ra` of core `q`. -/
def Dev.zoneOf (d : Dev) (q ra : Nat) : Option Nat :=
  (upTo 8).find? (fun z =>
    let c := SYN_ZCFG q z
    let b := 2048 * d.fld c 0 6
    d.flag c 31 && b ≤ ra && ra < b + 2048 * d.fld c 8 6)

/-- ROWS of the packed zone `z` of core `q` (R151): SYN_ZROWS shows its low 16 bits (R181). -/
def Dev.zoneRows (d : Dev) (q z : Nat) : Nat :=
  let c := SYN_ZCFG q z
  let f := d.fld c 16 3
  if fmtSparse f || f = 7 then 0 else rowsOf (fmtHeader f) (fmtBody f) (65536 * d.fld c 8 6) 17 0

/-- Where a row lies: format, address of its header, address of its body or entries, and the end of its zone. -/
structure RowLoc where
  fmt  : Nat
  hdr  : Nat
  body : Nat
  lim  : Nat
  deriving DecidableEq, Repr

/-- Resolve a row address (R152, R153); none where it names no row start. -/
def Dev.resolve (d : Dev) (q ra : Nat) : Option RowLoc :=
  match d.zoneOf q ra with
  | none => none
  | some z =>
    let c := SYN_ZCFG q z
    let f := d.fld c 16 3
    let zb := csBase q + 65536 * d.fld c 0 6
    let lim := zb + 65536 * d.fld c 8 6
    if f = 7 then none
    else if fmtSparse f then some ⟨f, csBase q + 32 * ra, csBase q + 32 * ra + fmtHeader f, lim⟩
    else
      let first := d.fld (SYN_ZFIRST q z) 0 17
      let u := fmtUnits f
      let j := (ra - first) / u
      if ra < first || (ra - first) % u ≠ 0 || d.zoneRows q z ≤ j then none
      else some ⟨f, zb + fmtHeader f * j, csBase q + 32 * ra, lim⟩

/-- Header fields. -/
def hdrFlags (h : List Byte) : Nat := byteAt h 4
def hdrCount (h : List Byte) : Nat := leAt h 2 2
def hdrScale (f : Nat) (h : List Byte) : Nat := (if fmtSparse f then byteAt h 5 else byteAt h 3) % 8
def hdrRule (f : Nat) (h : List Byte) : Nat := (if f = 6 then byteAt h 6 else byteAt h 2) % 16
def hdrPre (f : Nat) (h : List Byte) : Nat := if f = 6 then byteAt h 7 else byteAt h 5
def hdrLast (f : Nat) (h : List Byte) : Nat := if f = 6 then leAt h 8 2 else leAt h 6 2
/-- The header after a delivery: PRE, LAST, NEVER 0 (R312). -/
def hdrDeliver (f : Nat) (h : List Byte) (pre last : Nat) : List Byte :=
  let h := splice h 4 (leBytes 1 (putBits (hdrFlags h) 1 1 0))
  if f = 6 then splice (splice h 7 (leBytes 1 pre)) 8 (leBytes 2 last)
  else splice (splice h 5 (leBytes 1 pre)) 6 (leBytes 2 last)

/-- One synapse of a row (R156 to R159). -/
structure Syn where
  target : Nat
  weight : Int
  delay  : Nat
  elig   : Int
  age    : Nat
  deriving DecidableEq, Repr

/-- Synapse `l` of a row, from its header and its body or entries. -/
def synOf (f : Nat) (h b : List Byte) (l : Nat) : Syn :=
  let tb := leAt h 0 2 % 32768
  if f = 0 then
    let x := byteAt b (l / 2)
    ⟨tb + l, sInt 4 (if l % 2 = 0 then x else x / 16), byteAt h 2 % 16, 0, 0⟩
  else if f = 1 then ⟨tb + l, sInt 4 (byteAt b l), byteAt b l / 16, 0, 0⟩
  else if f = 2 then ⟨tb + l, sInt 8 (byteAt b l), byteAt h 2 % 16, 0, 0⟩
  else if f = 3 then ⟨tb + l, sInt 8 (byteAt b (2 * l)), byteAt b (2 * l + 1) % 16, 0, 0⟩
  else if f = 5 then
    let x := leAt b (2 * l) 2
    ⟨tb + l, sInt 4 x, bitsOf x 4 4, sInt 8 (x / 256), 0⟩
  else if f = 4 then
    let x := leAt b (4 * l) 4
    ⟨tb + bitsOf x 0 14, sInt 8 (bitsOf x 14 8), bitsOf x 22 4, 0, 0⟩
  else
    let x := leAt b (6 * l) 6
    ⟨tb + bitsOf x 0 14, sInt 8 (bitsOf x 14 8), bitsOf x 22 4, sInt 8 (bitsOf x 26 8), bitsOf x 34 8⟩

/-- The bytes of one synapse of a plastic row, with weight, delay, eligibility and age (R156, R159). -/
def synBytes (f : Nat) (old : List Byte) (w : Int) (dl : Nat) (e : Int) (age : Nat) : List Byte :=
  if f = 5 then leBytes 2 (uOf 4 w + 16 * (dl % 16) + 256 * uOf 8 e)
  else
    let x := leNat old
    leBytes 6 (putBits (putBits (putBits (putBits x 14 8 (uOf 8 w)) 22 4 dl) 26 8 (uOf 8 e)) 34 8 age)

/-- Bytes of one synapse in the body. -/
def synSize (f : Nat) : Nat := if f = 5 then 2 else 6

/-! ### Rules (R313 to R316) -/

def ruleValid (r : List Byte) : Bool := bitAt (byteAt r 0) 0
def Dev.rule (d : Dev) (q k : Nat) : List Byte := SMap.get [] (d.core q).rules k

/-- What the factor codes of a term stand for (R315). -/
structure Env where
  pre   : Int
  post  : Int
  md    : Int
  w     : Int
  e     : Int
  grade : Int
  deriving DecidableEq, Repr

def factor (c : Nat) (v : Env) : Int :=
  if c = 0 then 1 else if c = 1 then v.pre else if c = 2 then v.post else if c = 3 then v.md
  else if c = 4 then v.w else if c = 5 then v.e else if c = 6 then v.grade else 0

/-- Terms of group `g` of a rule. -/
def ruleTerms (r : List Byte) (g : Nat) : List Nat :=
  ((upTo (min 8 (byteAt r 1 % 16))).map (fun t => leAt r (16 + 4 * t) 4)).filter (fun x => x / 2 ^ 30 == g)

/-- The exact sum of a group's terms (R316). -/
def groupSum (r : List Byte) (g : Nat) (v : Env) : Int :=
  ((ruleTerms r g).map (fun x => sInt 16 x * factor (bitsOf x 27 3) v * factor (bitsOf x 24 3) v)).sum

/-- `group_result` of R316 of an exact sum `s`, with the generator's state. -/
def roundGroup (r : List Byte) (sh : Nat) (s : Int) (gen : Nat) : Int × Nat :=
  if sh = 0 then (s, gen)
  else if ! bitAt (byteAt r 0) 2 then (shrI (s + ((2 ^ (sh - 1) : Nat) : Int)) sh, gen)
  else
    let frac := (s - shlI (shrI s sh) sh).toNat
    let dr := draw gen
    let up := if sh ≤ 16 then dr.1 / 2 ^ (16 - sh) < frac else dr.1 < frac / 2 ^ (sh - 16)
    (shrI s sh + (natOf up : Int), dr.2)

/-- The result of a group; a group without terms draws nothing (R316). -/
def groupResult (r : List Byte) (g sh : Nat) (v : Env) (gen : Nat) : Int × Nat :=
  if (ruleTerms r g).isEmpty then (0, gen) else roundGroup r sh (groupSum r g v) gen

/-! ### Contributions (R162 to R165, R659) -/

/-- Add `c` to the input of neuron `i` for beat `b` of ring size `s` (R162, R165). -/
def Dev.addSlot (d : Dev) (q i b : Nat) (ring : Nat × Nat) (c : Int) : Dev :=
  let put (d : Dev) (old : Nat) (wr : Dev → Nat → Dev) : Dev :=
    let x := sInt 16 old + c
    let y := satS 16 x
    let d := wr d (uOf 16 y)
    if x = y then d else d.bump (SYN_RINGSAT q) 1
  let d :=
    if ring.1 = 1 then
      let d := d.fixRec q i
      let x := d.readRec q i
      let k := inslotBit (profKind (d.profile q (recProf x)))
      put d (bitsOf x k 16) (fun d v => d.writeRec q i (putBits x k 16 v))
    else
      let a := ring.2 + 2 * (b % ring.1)
      let d := d.fixWord q a
      put d (d.rdN a 2) (fun d v => d.wrN a 2 v)
  d.setTouch q (b % 16) (i / 32)

/-- The contribution of one synapse delivered in beat `n` with grade `g` (R162 to R164, R659). -/
def Dev.contribute (d : Dev) (q n : Nat) (g : Int) (scale : Nat) (y : Syn) : Dev :=
  if y.weight = 0 then d
  else if d.ncount q ≤ y.target then d.bump (SYN_TGTDROP q) 1
  else
    let ring := d.ringOf q y.target
    let d := if ring.1 = 1 then d.fixRec q y.target else d
    if ring.1 = 1 && ! profValid (d.profile q (recProf (d.readRec q y.target))) then d.bump (SYN_TGTDROP q) 1
    else
      let dd := min y.delay (ring.1 - 1)
      let d := if ring.1 ≤ y.delay then (d.bump (SYN_DLYCLAMP q) 1).setFlag (SYN_STAT q) 7 true else d
      d.addSlot q y.target (n + dd) ring (g * y.weight * ((2 ^ scale : Nat) : Int))

/-- The eligibility update of one synapse at delivery (R318): the new body bytes with the device. -/
def Dev.eligDeliver (d : Dev) (q n : Nat) (g : Int) (f : Nat) (r : List Byte) (pre : Nat) (b : List Byte) (l : Nat)
    (y : Syn) : Dev × List Byte :=
  if (f = 5 && y.weight = 0) || (f = 6 && y.age = 255) || d.ncount q ≤ y.target then (d, b)
  else
    let d := d.fixRec q y.target
    let x := d.readRec q y.target
    let tr := leAt (d.profile q (recProf x)) 44 4
    let post := (traceUpdate (recPost x) tr ((n % 65536 + 65536 - recStamp x) % 65536) false false 0).1
    let c := d.core q
    let md := sInt 8 (d.fld (HRV_MOD q) 0 8)
    let res := groupResult r 0 (byteAt r 2 % 32)
      { pre := pre, post := post, md := md, w := y.weight, e := y.elig, grade := g } c.gen
    let d := d.setCore q { c with gen := res.2 }
    let e := satS 8 (y.elig + res.1)
    let d := if e = y.elig + res.1 then d else (d.bump (HRV_ESAT q) 1).setFlag (HRV_STAT q) 5 true
    let off := synSize f * l
    (d, splice b off (synBytes f (slice b off (synSize f)) y.weight y.delay e y.age))

/-- Deliver the synapses `ls` of a row. -/
def Dev.deliverSyns (q n : Nat) (g : Int) (f scale : Nat) (h : List Byte) (rule : Option (List Byte × Nat)) :
    List Nat → Dev → List Byte → Dev × List Byte
  | [], d, b => (d, b)
  | l :: ls, d, b =>
    let y := synOf f h b l
    let d := d.contribute q n g scale y
    match rule with
    | none => Dev.deliverSyns q n g f scale h rule ls d b
    | some (r, pre) =>
      let db := d.eligDeliver q n g f r pre b l y
      Dev.deliverSyns q n g f scale h rule ls db.1 db.2

/-- Largest number of equal members in a list of ring banks. -/
def bankMax (l : List Nat) : Nat := (l.map (fun x => (l.filter (· == x)).length)).foldl max 0

/-- Cycles of sparse entries, in groups of 16 (R167): `fuel` groups at most. -/
def sparseCycles : Nat → List Nat → Nat
  | 0, _ => 0
  | k + 1, l => if l.isEmpty then 0 else bankMax (l.take 16) + sparseCycles k (l.drop 16)

/-- Deliver one row whose header `h` and body `b` are read (R162 to R168, R312, R318, R319); answers the header and
body to write back for a plastic row. -/
def Dev.deliverRow (d : Dev) (q p n : Nat) (g : Int) (f : Nat) (h b : List Byte) : Dev × Option (List Byte × List Byte) :=
  let cnt := if fmtSparse f then hdrCount h else 64
  let ls := upTo cnt
  let banks := if fmtSparse f then ls.map (fun l => (synOf f h b l).target % 64) else []
  let sc := sparseCycles 64 banks
  let cyc := if f = 3 then 2 else if f = 5 then 3 else if f = 4 then sc else if f = 6 then sc + ceilDiv cnt 16 else 1
  let lost := if fmtSparse f then sc - ceilDiv cnt 16 else 0
  let d := (((d.bump (SYN_BANKSTALL q) lost).obsStall q 0 4 lost)).obsBusy q 0 (cyc - lost)
  let d := (d.count64 (SYN_OPS_LO q) cnt).countSynops p cnt
  let c := d.core q
  let d := d.setCore q { c with delR := c.delR + cyc }
  if ! fmtPlastic f then ((Dev.deliverSyns q n g f (hdrScale f h) h none ls d b).1, none)
  else
    let r := d.rule q (hdrRule f h)
    if ! ruleValid r then
      let d := (d.bump (HRV_RULEERR q) 1).setFlag (HRV_STAT q) 8 true
      ((Dev.deliverSyns q n g f (hdrScale f h) h none ls d b).1, none)
    else
      let par := leAt r 4 4
      let c := d.core q
      let pre := if bitAt (hdrFlags h) 1 then (0, c.gen)
        else traceUpdate (hdrPre f h) par ((n % 65536 + 65536 - hdrLast f h) % 65536) false true c.gen
      let d := d.setCore q { c with gen := pre.2 }
      let d := d.bump64 (HRV_DSYN_LO q) cnt
      let db := Dev.deliverSyns q n g f (hdrScale f h) h (some (r, pre.1)) ls d b
      let pre' := (traceUpdate pre.1 par 0 true false 0).1
      (db.1, some (hdrDeliver f h pre' (n % 65536), db.2))

/-! ### Poisoned rows (R173, R174) -/

/-- `ra` is listed in the poison table of core `q`. -/
def Dev.poisonAt (d : Dev) (q ra : Nat) : Option Nat :=
  (upTo 64).find? (fun k => d.flag (SYN_POISON q k) 31 && d.fld (SYN_POISON q k) 0 17 == ra)

/-- List a poisoned row (R173, R174). -/
def Dev.poison (d : Dev) (q ra : Nat) : Dev :=
  match (upTo 64).find? (fun k => ! d.flag (SYN_POISON q k) 31) with
  | some k => (d.setR (SYN_POISON q k) (2 ^ 31 + ra)).setR (SYN_POISONCNT q) (d.rg (SYN_POISONCNT q) + 1)
  | none =>
    (d.setFlag (SYN_STAT q) 5 true).tocArrive q 5 ((d.regPart (q / 16)).getD 0) 0 0 false

/-- Remove the poison entry of `ra`, if any (R174). -/
def Dev.unpoison (d : Dev) (q ra : Nat) : Dev :=
  match d.poisonAt q ra with
  | some k => (d.setR (SYN_POISON q k) 0).setR (SYN_POISONCNT q) (d.rg (SYN_POISONCNT q) - 1)
  | none => d

/-- Deliver the near row at `ra` (R152 to R154, R173). -/
def Dev.nearRow (d : Dev) (q p n : Nat) (g : Int) (ra : Nat) : Dev :=
  if (d.poisonAt q ra).isSome then d.bump (SYN_POISONSKIP q) 1
  else
    let rowErr (d : Dev) := (d.bump (SYN_ROWERR q) 1).setFlag (SYN_STAT q) 8 true
    match d.resolve q ra with
    | none => rowErr d
    | some loc =>
      let hn := fmtHeader loc.fmt
      let d := d.fixSingles q loc.hdr hn
      if ! d.cleanAt loc.hdr hn then (d.eccUnc q).poison q ra
      else
        let h := d.rdB loc.hdr hn
        if ! bitAt (hdrFlags h) 0 then d.bump (SYN_ROWINVAL q) 1
        else
          let cnt := hdrCount h
          let bn := if fmtSparse loc.fmt then fmtEntry loc.fmt * cnt else fmtBody loc.fmt
          if fmtSparse loc.fmt && (cnt = 0 || fmtMax loc.fmt < cnt || loc.lim < loc.body + bn) then rowErr d
          else
            let d := d.fixSingles q loc.body bn
            if ! d.cleanAt loc.body bn then (d.eccUnc q).poison q ra
            else
              match d.deliverRow q p n g loc.fmt h (d.rdB loc.body bn) with
              | (d, none) => d
              | (d, some (h', b')) => (d.wrB loc.hdr h').wrB loc.body b'

/-! ### Page map (R143, R151, R184) -/

/-- The fields of a PAGEMAP_SET payload. -/
def pmBase (pl : List Byte) (k : Nat) : Nat := byteAt pl (4 + 2 * k)
def pmCount (pl : List Byte) (k : Nat) : Nat := byteAt pl (5 + 2 * k)
/-- Pages of area `k` (0 REC, 1 RING, 2 REV, 3 ALM, 4 ROW). -/
def pmPages (pl : List Byte) (k : Nat) : List Nat := (upTo (pmCount pl k)).map (pmBase pl k + ·)
def pmZone (pl : List Byte) (z off : Nat) : Nat := byteAt pl (32 + 4 * z + off)
def pmZoneValid (pl : List Byte) (z : Nat) : Bool := bitAt (pmZone pl z 0) 7
def pmZonePages (pl : List Byte) (z : Nat) : List Nat := (upTo (pmZone pl z 2)).map (pmZone pl z 1 + ·)
def disjoint (a b : List Nat) : Bool := a.all (fun x => ! b.contains x)

/-- Rows of a packed zone of the payload (R151). -/
def pmZoneRows (pl : List Byte) (z : Nat) : Nat :=
  let f := pmZone pl z 0 % 8
  if fmtSparse f || f = 7 then 0 else rowsOf (fmtHeader f) (fmtBody f) (65536 * pmZone pl z 2) 17 0

/-- The checks of R143. -/
def pageMapOk (pl : List Byte) (ncount : Nat) : Bool :=
  let ks := upTo 5
  let fl := byteAt pl 14
  let b16 := leAt pl 16 2
  let b8 := leAt pl 18 2
  let b4 := leAt pl 20 2
  let flPage := fl / 2
  let zs := (upTo 8).filter (pmZoneValid pl)
  ks.all (fun k => pmBase pl k + pmCount pl k ≤ 48) &&
  pmCount pl 0 ≤ 8 && pmCount pl 1 ≤ 16 && pmCount pl 2 ≤ 16 && 1 ≤ pmCount pl 3 && pmCount pl 3 ≤ 16 &&
  1 ≤ pmCount pl 4 && pmCount pl 4 ≤ 47 &&
  ks.all (fun k => ks.all (fun j => j ≤ k || disjoint (pmPages pl k) (pmPages pl j))) &&
  fl ≤ 95 && [1, 2, 3, 4].all (fun k => ! (pmPages pl k).contains flPage) &&
  (! (pmPages pl 0).contains flPage || 65536 * pmBase pl 0 + 16 * ncount ≤ 0x8000 * fl) &&
  32 * b16 + 16 * b8 + 8 * b4 ≤ 65536 * pmCount pl 1 && b16 + b8 + b4 ≤ 4096 * pmCount pl 0 &&
  zs.all (fun z => (pmZonePages pl z).all (fun x => (pmPages pl 4).contains x) && pmZone pl z 0 % 8 ≠ 7 &&
    1 ≤ pmZone pl z 2 && (fmtSparse (pmZone pl z 0 % 8) || 1 ≤ pmZoneRows pl z)) &&
  zs.all (fun z => zs.all (fun y => y ≤ z || disjoint (pmZonePages pl z) (pmZonePages pl y)))

/-- Install a page map on core `q` (R151, R184). -/
def Dev.setPageMap (d : Dev) (q : Nat) (pl : List Byte) : Dev :=
  let area (k : Nat) := 256 * pmCount pl k + pmBase pl k
  let d := ((d.setR (SYN_PMREC q) (area 0)).setR (SYN_PMRING q) (area 1)).setR (SYN_PMREV q) (area 2)
  let d := ((d.setR (SYN_PMALM q) (area 3)).setR (SYN_PMROW q) (area 4)).setR (SYN_FLBASE q) (byteAt pl 14)
  let d := ((d.setR (SYN_BAND16 q) (leAt pl 16 2)).setR (SYN_BAND8 q) (leAt pl 18 2)).setR (SYN_BAND4 q) (leAt pl 20 2)
  let d := d.forEach (upTo 8) (fun d z =>
    let f := pmZone pl z 0 % 8
    let v := pmZoneValid pl z
    let rows := if v then pmZoneRows pl z else 0
    let first := if fmtSparse f then 2048 * pmZone pl z 1
      else 2048 * pmZone pl z 1 + (rows * fmtHeader f + 31) / 32
    let d := d.setR (SYN_ZCFG q z) (natOf v * 2 ^ 31 + f * 65536 + (pmZone pl z 2 % 64) * 256 + pmZone pl z 1 % 64)
    (d.setR (SYN_ZROWS q z) (rows % 65536)).setR (SYN_ZFIRST q z) (if v then first else 0))
  let d := d.setR (ALM_NCAP q) (min 2048 (128 * pmCount pl 3))
  (d.clearRingArea q).emptyFireLog q

def synRsv : List (Nat × Nat) :=
  rsvd 2 2 ++ rsvd 15 1 ++ rsvd 22 10 ++ ((upTo 8).map (fun z => [(32 + 4 * z, 0x78), (35 + 4 * z, 255)])).flatten

def cPagemapSet : CmdSpec := neuSpec 0x0301 (lenIs 64) false synRsv

/-- A page map may leave no record that names a valid profile with another ring size (R147): the bands as the payload
sets them, the records of the new REC area. -/
def Dev.bandsAgree (d : Dev) (q : Nat) (pl : List Byte) : Bool :=
  let b16 := leAt pl 16 2
  let b8 := leAt pl 18 2
  let b4 := leAt pl 20 2
  (upTo (d.ncount q)).all (fun i =>
    let s := if i < b16 then 16 else if i < b16 + b8 then 8 else if i < b16 + b8 + b4 then 4 else 1
    let pr := d.profile q (recProf (d.rdN (csBase q + 65536 * pmBase pl 0 + 16 * i) 16))
    ! profValid pr || ringSize (profRing pr) = s)

def Dev.pagemapSet (d : Dev) (h : Hdr) (pl : List Byte) : Dev × Ans :=
  let lc := leAt pl 0 2
  let qs : Except Status (List Nat) := if lc = 0xFFFF then .ok (d.sitesOf h.part) else (d.lcore h.part lc).map (fun q => [q])
  match qs with
  | .error s => (d, .st s)
  | .ok qs =>
    if d.bstate h.part ≠ 0 then (d, .st .busy)
    else if ! qs.all (fun q => pageMapOk pl (d.ncount q) && d.bandsAgree q pl) then
      (d, .st .denied)
    else (d.forEach qs (fun d q => d.setPageMap q pl), .st .ok)

def cPagemapRead : CmdSpec := neuSpec 0x0302 (lenIs 8) true (rsvd 2 6)

def Dev.pagemapRead (d : Dev) (h : Hdr) (pl : List Byte) : Dev × Ans :=
  d.onCore h.part (leAt pl 0 2) (fun q =>
    let area (a : Nat) := leBytes 1 (d.fld a 0 6) ++ leBytes 1 (d.fld a 8 6)
    let zone (z : Nat) :=
      let c := SYN_ZCFG q z
      leBytes 1 (d.fld c 31 1 * 128 + d.fld c 16 3) ++ leBytes 1 (d.fld c 0 6) ++ leBytes 1 (d.fld c 8 6) ++ zeros 1
    (d, .done .ok 0 (pl.take 2 ++ zeros 2 ++ area (SYN_PMREC q) ++ area (SYN_PMRING q) ++ area (SYN_PMREV q) ++
      area (SYN_PMALM q) ++ area (SYN_PMROW q) ++ leBytes 1 (d.rg (SYN_FLBASE q)) ++ zeros 1 ++
      leBytes 2 (d.rg (SYN_BAND16 q)) ++ leBytes 2 (d.rg (SYN_BAND8 q)) ++ leBytes 2 (d.rg (SYN_BAND4 q)) ++ zeros 10 ++
      ((upTo 8).map zone).flatten)))

/-! ### Words read by their area (R172 to R176, R656) -/

/-- The area of the page map a byte offset of the core store lies in. -/
def Dev.inArea (d : Dev) (reg off : Nat) : Bool :=
  65536 * d.fld reg 0 6 ≤ off && off < 65536 * d.fld reg 0 6 + d.areaLen reg

/-- Units of the sparse row of format `f` whose header is at `a`, in a zone that ends at `lim`; 0 where no valid row is known to
start there (R153). -/
def Dev.sparseUnits (d : Dev) (f a lim : Nat) : Nat :=
  let hn := fmtHeader f
  let h := d.rdB a hn
  let n := hn + fmtEntry f * hdrCount h
  if ! d.cleanAt a hn || ! bitAt (hdrFlags h) 0 || hdrCount h = 0 || fmtMax f < hdrCount h || lim < a + n then 0 else ceilDiv n 32

/-- The sparse row that unit `t` belongs to, walking the zone from unit `u` (R153, R176): none for a unit of no row.  A header that
cannot be read is a row by itself (log entry 181). -/
def Dev.sparseRow (d : Dev) (q f lim t : Nat) : Nat → Nat → Option Nat
  | 0, _ => none
  | fuel + 1, u =>
    let n := d.sparseUnits f (csBase q + 32 * u) lim
    if t < u then none
    else if t < u + n then some u
    else if t = u then (if d.cleanAt (csBase q + 32 * u) (fmtHeader f) then none else some u)
    else Dev.sparseRow d q f lim t fuel (u + max 1 n)

/-- The row address of the row that a byte of the ROW area belongs to (R151, R153, R176). -/
def Dev.rowAt (d : Dev) (q off : Nat) : Option Nat :=
  match d.zoneOf q (off / 32) with
  | none => none
  | some z =>
    let c := SYN_ZCFG q z
    let f := d.fld c 16 3
    if fmtSparse f then
      d.sparseRow q f (csBase q + 65536 * (d.fld c 0 6 + d.fld c 8 6)) (off / 32) (2048 * d.fld c 8 6) (2048 * d.fld c 0 6)
    else
      let first := d.fld (SYN_ZFIRST q z) 0 17
      let zb := 65536 * d.fld c 0 6
      let j := if off / 32 < first then (off - zb) / fmtHeader f else (off / 32 - first) / fmtUnits f
      if j < d.zoneRows q z then some (first + fmtUnits f * j) else none

/-- A read of the word at byte offset `off` of the core store of core `q`, by the scrubber or through the core-store window: a
single-bit error is corrected, an uncorrectable word handled as its area wants (R172, R173, R175, R176, R320). -/
def Dev.scrubAt (d : Dev) (q off : Nat) : Dev :=
  let a := csBase q + off
  match SMap.get 0 d.ecc a with
  | 0 => d
  | 1 => d.fixWord q a
  | _ =>
    if d.inArea (SYN_PMREV q) off then d.eccUnc q
    else if d.inArea (SYN_PMROW q) off then
      let d := d.eccUnc q
      match d.rowAt q off with
      | some ra => if (d.poisonAt q ra).isSome then d else d.poison q ra
      | none => d
    else d.fixWord q a

/-- Carillon reads `n` bytes at `a` of the store of core `q`: errors are handled as their area wants (R656), and the bytes of a word
that stays uncorrectable are free (log entry 182). -/
def Dev.storeRead (d : Dev) (q a n : Nat) : Dev × List Byte :=
  (d.forEach (wordsAt (a - csBase q) n) (fun d w => d.scrubAt q w)).readOpen a n

/-! ### Row commands (R161, R183, R185) -/

def cRowLoad : CmdSpec :=
  neuSpec 0x0303 (fun pl => 12 ≤ pl.length && pl.length == 12 + leAt pl 8 4) false (rsvd 2 2 ++ [(6, 0xFE)] ++ rsvd 7 1)

/-- Reserved fields of a row image are zero (R155 to R159, R185). -/
def imageClean (f : Nat) (img : List Byte) : Bool :=
  let b (i : Nat) := byteAt img i
  leAt img 0 2 < 32768 &&
  (if f = 4 then b 4 < 2 && b 5 < 8 && leAt img 6 2 = 0 &&
      (upTo (leAt img 2 2)).all (fun e => leAt img (8 + 4 * e) 4 < 2 ^ 26)
    else if f = 6 then b 4 < 4 && b 5 < 8 && b 6 < 16 && leAt img 10 6 = 0 &&
      (upTo (leAt img 2 2)).all (fun e => leAt img (16 + 6 * e) 6 < 2 ^ 42)
    else if f = 5 then b 2 < 16 && b 3 < 8 && b 4 < 4 && leAt img 8 8 = 0
    else b 3 < 8 && b 4 < 2 && leAt img 5 3 = 0 && (if f = 0 || f = 2 then b 2 < 16 else b 2 = 0) &&
      (f ≠ 3 || (upTo 64).all (fun l => b (9 + 2 * l) < 16)))

/-- A plastic row that has no history yet (R353): NEVER set, PRE and LAST 0, every eligibility 0. -/
def imageFresh (f : Nat) (img : List Byte) : List Byte :=
  let h := hdrDeliver f (img.take 16) 0 0
  let h := splice h 4 (leBytes 1 (putBits (hdrFlags h) 1 1 1))
  let n := if f = 5 then 64 else hdrCount img
  h ++ (upTo n).foldl (fun b l =>
    let y := synOf f h b l
    splice b (synSize f * l) (synBytes f (slice b (synSize f * l) (synSize f)) y.weight y.delay 0 y.age)) (img.drop 16)

/-- ROW_LOAD (R174, R185). -/
def Dev.rowLoad (d : Dev) (h : Hdr) (pl : List Byte) : Dev × Ans :=
  d.onCore h.part (leAt pl 0 2) (fun q =>
    let ra := leAt pl 4 4
    let img := pl.drop 12
    match d.resolve q ra with
    | none => (d, .st .denied)
    | some loc =>
      let hn := fmtHeader loc.fmt
      let cnt := hdrCount img
      let want := if fmtSparse loc.fmt then hn + fmtEntry loc.fmt * cnt else hn + fmtBody loc.fmt
      let ok := img.length = want && imageClean loc.fmt img &&
        (! fmtSparse loc.fmt || ((! bitAt (hdrFlags img) 0 || (1 ≤ cnt && cnt ≤ fmtMax loc.fmt)) &&
          loc.body + fmtEntry loc.fmt * cnt ≤ loc.lim))
      if ! ok then (d, .st .denied)
      else
        let img := if fmtPlastic loc.fmt then imageFresh loc.fmt img else img
        let d := d.csWrite q loc.hdr (img.take hn) hn
        let d := d.csWrite q loc.body (img.drop hn) img.length
        (d.unpoison q ra, .st .ok))

def cRowRead : CmdSpec := neuSpec 0x0304 (lenIs 8) true (rsvd 2 2)

def Dev.rowRead (d : Dev) (h : Hdr) (pl : List Byte) : Dev × Ans :=
  d.onCore h.part (leAt pl 0 2) (fun q =>
    match (if 2 ^ 17 ≤ leAt pl 4 4 then none else d.resolve q (leAt pl 4 4)) with
    | none => (d, .st .denied)
    | some loc =>
      let x := d.storeRead q loc.hdr (fmtHeader loc.fmt)
      let cnt := hdrCount x.2
      let n := if fmtSparse loc.fmt then fmtEntry loc.fmt * cnt else fmtBody loc.fmt
      if fmtSparse loc.fmt && (fmtMax loc.fmt < cnt || loc.lim < loc.body + n) then (x.1, .st .denied)
      else
        let y := x.1.storeRead q loc.body n
        (y.1, .done .ok 0 (x.2 ++ y.2)))

def cSynStatus : CmdSpec := neuSpec 0x0305 (lenIs 8) true (rsvd 2 6)

def Dev.synStatus (d : Dev) (h : Hdr) (pl : List Byte) : Dev × Ans :=
  d.onCore h.part (leAt pl 0 2) (fun q => (d, .done .ok 0 (d.regBytes (SYN_STAT q) 64)))

def cPoisonList : CmdSpec := neuSpec 0x0306 (lenIs 8) true (rsvd 2 6)

def Dev.poisonList (d : Dev) (h : Hdr) (pl : List Byte) : Dev × Ans :=
  d.onCore h.part (leAt pl 0 2) (fun q =>
    (d, .done .ok 0 (leBytes 4 (d.rg (SYN_POISONCNT q)) ++ d.regBytes (SYN_POISON q 0) 64)))

/-- One step of the scrubber: one word, in address order (R176). -/
def Dev.scrubStep (d : Dev) (q : Nat) : Dev :=
  let c := d.core q
  let off := 8 * c.scrub
  (d.setCore q { c with scrub := if off + 8 < 0x300000 then c.scrub + 1 else 0 }).scrubAt q off

end Sys2Proof.Machine
end

