-- ==== Sys2Proof/Machine/Almanac.lean ====
section
/-! DEFINITION. The Almanac: near slots, the far window, late arrivals, migration and refill; readout slots; the arrival
of event records (R200 to R216, R579, R660). -/

namespace Sys2Proof.Machine

/-! ### Due beats (R200) -/

/-- δ of R200: the signed distance of a 16-bit beat from `n`. -/
def beatDelta (eb n : Nat) : Int :=
  (((eb % 65536 + 65536 - n % 65536 + 32768) % 65536 : Nat) : Int) - 32768

/-- A 48-bit beat number plus a signed distance. -/
def beatAdd (n : Nat) (k : Int) : Nat := uOf 48 ((n : Int) + k)

/-- The signed distance of beat `a` from beat `b`. -/
def beatSub (a b : Nat) : Int := sInt 48 (a + 2 ^ 48 - b % 2 ^ 48)

/-! ### Near slots (R204 to R206) -/

/-- C of core `q` (R204). -/
def Dev.nearCap (d : Dev) (q : Nat) : Nat := d.fld (ALM_NCAP q) 0 12
def Dev.nearCount (d : Dev) (q j : Nat) : Nat := d.fld (ALM_NSLOT q j) 0 12
/-- Address of entry `k` of near slot `j`. -/
def Dev.nearAddr (d : Dev) (q j k : Nat) : Nat := d.areaBase q (SYN_PMALM q) + 8 * (j * d.nearCap q + k)

/-- The near entry of an event (R205). -/
def Event.entry (e : Event) : Nat :=
  if e.tkind = 1 then 2 * 2 ^ 62 + e.fmt % 8 * 2 ^ 59 + e.daddr % 2 ^ 36 * 2 ^ 23 + e.grade % 256 * 2 ^ 15
  else 2 ^ 62 + e.nrows % 4 * 2 ^ 60 + e.ra % 2 ^ 17 * 2 ^ 43 + e.grade % 256 * 2 ^ 35 + e.tag % 2048 * 2 ^ 24

/-- Put an entry into near slot `j` of core `q`, which has room. -/
def Dev.nearPut (d : Dev) (q j ent : Nat) : Dev :=
  let k := d.nearCount q j
  let a := d.nearAddr q j k
  let d := { (d.wrN a 8 ent) with ecc := SMap.set 0 d.ecc a 0 }
  d.setF (ALM_NSLOT q j) 0 12 (k + 1)

/-! ### The far window (R207, R208, R211) -/

/-- The number of entries of core `q` in the far list of beat `b` of its region. -/
def Dev.farCount (d : Dev) (q b : Nat) : Nat :=
  ((SMap.get default (d.region (q / 16)).far b).ents.filter (fun x => x.core == q)).length

/-- LISTED of the near slot that beat `b` uses, where `b` is in the near window (R230). -/
def Dev.relist (d : Dev) (q b : Nat) : Dev :=
  let a := beatSub b (d.core q).ptr
  if 0 ≤ a && a ≤ 63 then d.setFlag (ALM_NSLOT q (b % 64)) 31 (d.farCount q b != 0) else d

/-- The oldest beat whose list the router has not finished: no usable core has its slot open (R208). -/
def Dev.farMin (d : Dev) (r : Nat) : Nat :=
  match d.coresOf r with
  | [] => (d.region r).beat
  | c :: cs =>
    let e (q : Nat) := (d.core q).ptr + natOf (d.core q).closed
    cs.foldl (fun m x => if beatSub (e x.2) m < 0 then e x.2 else m) (e c.2)

/-- A filing finds no free block (R207, R208). -/
def Dev.farDrop (d : Dev) (r : Nat) : Dev := (d.bump (ALM_FDROP r) 1).setFlag (ALM_FSTAT r) 1 true

/-- File an entry of core `q` in the far list of beat `b` (R207, R208); answers whether it was filed. -/
def Dev.farPut (d : Dev) (q b ent : Nat) : Dev × Bool :=
  let r := q / 16
  if ! d.flag (ALM_FCFG r) 31 then (d.farDrop r, false)
  else if 4096 ≤ beatSub b (d.farMin r) then (d.bump (ALM_FOOW r) 1, false)
  else
    let x := d.region r
    let l := SMap.get default x.far b
    let fresh := l.ents.isEmpty || 32 ≤ l.fill
    let free := d.fld (ALM_FFREE r) 0 16
    if fresh && free = 0 then (d.farDrop r, false)
    else
      let l' : FarList := if fresh then { ents := l.ents ++ [{ core := q, ent := ent, blk := x.nextBlk }], fill := 1, blk := x.nextBlk }
        else { l with ents := l.ents ++ [{ core := q, ent := ent, blk := l.blk }], fill := l.fill + 1 }
      let d := d.setRegion r { x with far := SMap.set default x.far b l', nextBlk := x.nextBlk + natOf fresh }
      let d := if fresh then
          (d.setF (ALM_FFREE r) 0 16 (free - 1)).setF (ALM_FLOW r) 0 16 (min (free - 1) (d.fld (ALM_FLOW r) 0 16))
        else d
      (d.relist q b, true)

/-- The blocks of a list. -/
def FarList.blocks (l : FarList) : Nat := (l.ents.foldl (fun a x => if a.contains x.blk then a else x.blk :: a) []).length

/-- Replace the far list of beat `b`: blocks whose last entry has gone are free (R211). -/
def Dev.setFar (d : Dev) (r b : Nat) (ents : List FarEnt) : Dev :=
  let x := d.region r
  let l := SMap.get default x.far b
  let live := ents.any (fun y => y.blk == l.blk)
  let l' : FarList := if ents.isEmpty then default else { ents := ents, fill := if live then l.fill else 32, blk := l.blk }
  (d.setRegion r { x with far := SMap.set default x.far b l' }).setF (ALM_FFREE r) 0 16
    (d.fld (ALM_FFREE r) 0 16 + (l.blocks - l'.blocks))

/-- Take at most `n` entries of core `q` out of the list of beat `b`, in order. -/
def takeFar (q : Nat) : List FarEnt → Nat → List Nat × List FarEnt
  | [], _ => ([], [])
  | x :: r, n =>
    if x.core = q && 0 < n then let y := takeFar q r (n - 1); (x.ent :: y.1, y.2)
    else let y := takeFar q r n; (y.1, x :: y.2)

/-- Move entries of core `q` from the far list of beat `b` into its near slot until the slot is full (R209, R210). -/
def Dev.farToNear (d : Dev) (q b : Nat) : Dev :=
  let l := SMap.get default (d.region (q / 16)).far b
  let y := takeFar q l.ents (d.nearCap q - d.nearCount q (b % 64))
  let d := d.setFar (q / 16) b y.2
  (d.forEach y.1 (fun d e => d.nearPut q (b % 64) e)).relist q b

/-! ### Filing (R201 to R203, R206, R579) -/

/-- The quad of core `q` naps. -/
def Dev.napping (d : Dev) (q : Nat) : Bool := d.naps.contains (q / 4)

/-- File an entry due in beat `b`, `a` beats after the drain pointer; answers whether the N-core filed it. -/
def Dev.placeEntry (d : Dev) (q b ent : Nat) (a : Int) : Dev × Bool :=
  if d.napping q then
    let x := d.farPut q b ent
    (if x.2 then x.1.bump (PWR_NAPFILE (q / 16)) 1 else x.1, false)
  else if a ≤ 63 then
    if d.nearCount q (b % 64) < d.nearCap q then ((d.nearPut q (b % 64) ent).count64 (ALM_NFILED_LO q) 1, true)
    else
      let x := d.farPut q b ent
      (if x.2 then (x.1.bump (ALM_NSPILL q) 1).setFlag (ALM_NSTAT q) 2 true else x.1, false)
  else ((d.farPut q b ent).1, false)

/-- A ROW or FAR event reaches its core (R200 to R203, R206). -/
def Dev.fileEvent (d : Dev) (q : Nat) (e : Event) : Dev :=
  let c := d.core q
  let δ := beatDelta e.ebeat c.ptr
  let a := δ + 1 + (e.delay : Int)
  let eb := beatAdd c.ptr δ
  let rp := d.routerPoint e.part (q / 16)
  if a < 0 || (a = 0 && c.closed) then
    let d := (d.bump (ALM_NLATE q) 1).setFlag (ALM_NSTAT q) 3 true
    if ! d.flag (ALM_LATECFG (q / 16)) 0 then d.file e.part q eb
    else
      let d := d.bump (ALM_NLATEDLV q) 1
      let x := d.placeEntry q ((c.ptr + natOf c.closed) % 2 ^ 48) e.entry (natOf c.closed)
      x.1.file e.part (if x.2 then q else rp) eb
  else if 4096 ≤ a then (d.bump (ALM_FOOW (q / 16)) 1).file e.part rp eb
  else
    let x := d.placeEntry q (beatAdd c.ptr a) e.entry a
    x.1.file e.part (if x.2 then q else rp) eb

/-! ### Readout (R212 to R216) -/

/-- The readout region of partition `p`, where AXN_PROUT is valid. -/
def Dev.readoutRegion (d : Dev) (p : Nat) : Option Nat :=
  if d.flag (AXN_PROUT 0 p) 31 then some (d.fld (AXN_PROUT 0 p) 0 4) else none

/-- Address of a slot of frame buffer `b`. -/
def Dev.frameAddr (d : Dev) (r b slot : Nat) : Nat :=
  cmnBase r + 0x40000 * (d.fld (AXN_RCFG r) 17 4 + b % 2) + 4 * slot

/-- Add a READOUT event into its slot (R212). -/
def Dev.readoutAdd (d : Dev) (r : Nat) (e : Event) (eb : Nat) : Dev :=
  let a := d.frameAddr r eb (e.ra % 65536)
  let x := d.cmnRd r a 4
  let s := sInt 32 (leNat x.2) + sInt 8 e.grade * sInt 12 e.delay
  let y := satS 32 s
  let d := (x.1.notePortA r (a - cmnBase r) 4).cmnWr a (leBytes 4 (uOf 32 y))
  let d := if y = s then d else
    let g := d.region r
    ((d.bump (AXN_RSAT r) 1).setFlag (AXN_RSTAT r) 2 true).setRegion r { g with frSat := SMap.set false g.frSat (eb % 2) true }
  d.file e.part (256 + r) eb

/-- A READOUT event is dropped at the combiner (R214, R215). -/
def Dev.readoutDrop (d : Dev) (r : Nat) (e : Event) (eb : Nat) : Dev :=
  ((d.bump (AXN_RLATE r) 1).setFlag (AXN_RSTAT r) 1 true).file e.part (256 + r) eb

/-- A READOUT event reaches the combiner of its partition's readout region (R212 to R214). -/
def Dev.readoutEvent (d : Dev) (r : Nat) (e : Event) : Dev :=
  let n := d.beat e.part
  let δ := beatDelta e.ebeat n
  let eb := beatAdd n δ
  if δ ≤ -2 then d.readoutDrop r e eb
  else
    let g := d.region r
    if g.clearing == some (eb % 2) then d.setRegion r { g with held := g.held ++ [e] } else d.readoutAdd r e eb

/-- The clear of a buffer begins at the start of beat `n` (R213); the buffer reads as zero from now on. -/
def Dev.readoutClear (d : Dev) (r n : Nat) : Dev :=
  if ! d.flag (AXN_RCFG r) 31 then d
  else
    let a := d.frameAddr r n 0
    let d := d.zeroMem a (a + 0x40000)
    let g := d.region r
    (d.setRegion r { g with clearing := some (n % 2), frSat := SMap.set false g.frSat (n % 2) false }).setFlag (AXN_RSTAT r) 0 true

/-- The clear ends after its 128 cycles, and the held events are added (R213). -/
def Dev.readoutClearEnd (d : Dev) (r : Nat) : Dev :=
  let g := d.region r
  if (d.regPart r).any d.choked then d else
  let d := (d.setRegion r { g with clearing := none, held := [] }).setFlag (AXN_RSTAT r) 0 false
  d.forEach g.held (fun d e =>
    if d.flag (AXN_RCFG r) 31 && d.owns e.part r then d.readoutEvent r e else d)

/-! ### Arrival (R660, R249) -/

/-- The FILE trace record of an event disposed of in region `r` (R625). -/
def Dev.traceFile (d : Dev) (r : Nat) (e : Event) : Dev :=
  d.traceRec (dieOf r) 2 (some e.part) (16 * r) (some (e.dcore % 256)) none (leBytes 8 e.word)

/-- An event record reaches its destination region router (R28, R29, R195, R215, R606, R660). -/
def Dev.eventArrives (d : Dev) (e : Event) : Dev :=
  let d := d.takeEvent e
  let r := e.dcore % 256 / 16
  let pt := d.routerPoint e.part r
  let n := d.beat e.part
  let eb := beatAdd n (beatDelta e.ebeat n)
  let d := d.traceFile r e
  match d.regPart r with
  | none => (d.bump (FAB_RUADROP r) 1).file e.part pt eb
  | some p =>
    if e.part ≠ p || e.tkind = 3 then (d.bump (FAB_RPMDROP r) 1).file e.part pt eb
    else if d.choked p then d.bump FLT_CHOKEDROP 1
    else if e.tkind = 2 then
      if d.readoutRegion p ≠ some r || ! d.flag (AXN_RCFG r) 31 then d.readoutDrop r e eb else d.readoutEvent r e
    else match d.physOf (e.dcore % 256) with
      | none => (d.bump (FAB_RFCDROP r) 1).file e.part pt eb
      | some q => d.fileEvent q e

/-- A record not disposed of within 256 cycles is dropped as R208 states (R249). -/
def Dev.eventTimeout (d : Dev) (e : Event) : Dev :=
  let d := d.takeEvent e
  let r := e.dcore % 256 / 16
  let n := d.beat e.part
  ((d.traceFile r e).farDrop r).file e.part (d.routerPoint e.part r) (beatAdd n (beatDelta e.ebeat n))

/-! ### Migration and refill (R209, R210) -/

/-- The engines of region `r` have not been stopped by a Choke (R226, R606). -/
def Dev.engineRuns (d : Dev) (r : Nat) : Bool := ! (d.regPart r).any d.choked

/-- The router migrates the list of beat B + 64 once every usable core has closed its slot of B (R209); entries of a
napping core keep the migration open (R579). -/
def Dev.migrate (d : Dev) (r : Nat) : Dev :=
  let x := d.region r
  let b := x.mig
  if ! d.engineRuns r || (d.coresOf r).isEmpty || beatSub (d.farMin r) b ≤ 0 then d
  else
    let due := (b + 64) % 2 ^ 48
    let qs := (d.coresOf r).map Prod.snd
    let d := d.forEach (qs.filter (fun q => ! d.napping q)) (fun d q => d.farToNear q due)
    if qs.any (fun q => d.napping q && d.farCount q due != 0 && d.nearCount q (due % 64) < d.nearCap q) then
      d.setFlag (ALM_FSTAT r) 0 true
    else
      ((d.setRegion r { (d.region r) with mig := (b + 1) % 2 ^ 48 }).bump (ALM_FTURN r) 1).setFlag (ALM_FSTAT r) 0 false

/-- The router refills the slot of the beat in Deliver (R210); `w` is the wait of the engine for the first entry where the
slot opened empty, in arithmetic cycles, at most 64 network cycles (R168). -/
def Dev.refill (d : Dev) (q w : Nat) : Dev :=
  let c := d.core q
  let j := c.ptr % 64
  if ! d.engineRuns (q / 16) || ! d.flag (ALM_NSTAT q) 0 || c.closed || d.nearCap q / 2 ≤ d.nearCount q j || d.farCount q c.ptr = 0 || d.napping q then d
  else
    let w := min w (if d.pwr.prev = 2 then 16 else 32)
    let d := if c.openEmpty then
        (d.setCore q { c with openEmpty := false, delWait := c.delWait + w }).obsStall q 0 5 w
      else d
    d.farToNear q c.ptr

/-! ### Start, resume and emptying (R225, R226, R234) -/

/-- The drain pointer of core `q` becomes `b`, its slot open. -/
def Dev.setPtr (d : Dev) (q b : Nat) : Dev :=
  let d := d.setCore q { (d.core q) with ptr := b, closed := false, delEnt := 0, delRow := 0, delR := 0, delWait := 0,
                                         openEmpty := false }
  let d := (d.setF (ALM_NPTR q) 0 16 b).setFlag (ALM_NSTAT q) 0 false
  d.relist q (beatAdd b 63)

/-- LISTED of every near slot of core `q`. -/
def Dev.relistAll (d : Dev) (q : Nat) : Dev :=
  d.forEach (upTo 64) (fun d k => d.relist q (beatAdd (d.core q).ptr k))

/-- The far lists of region `r` numbered from its first beat `f`: a list head is one of 4,096, for D mod 4,096 (R207). -/
def Dev.rekeyFar (d : Dev) (r f : Nat) : Dev :=
  let x := d.region r
  let key (b : Nat) := (f + (b + 4096 - f % 4096) % 4096) % 2 ^ 48
  let far := x.far.foldl (fun m c => SMap.set default m (key c.1) c.2) ([] : SMap FarList)
  d.setRegion r { x with far := far, mig := f }

/-- The entries of core `q` due before beat `f` when a resume skips beats: its near slots of beats `m + 1` to `f - 1`
and its far entries due there leave their places (R225). -/
def Dev.takeSkipped (d : Dev) (q m f : Nat) : Dev × List Nat :=
  let span := (beatSub f m - 1).toNat
  let js := (upTo (min span 64)).map (fun k => (m + 1 + k) % 64)
  let near := (js.map (fun j => (upTo (d.nearCount q j)).map (fun k => d.rdN (d.nearAddr q j k) 8))).flatten
  let d := d.forEach js (fun d j => d.setF (ALM_NSLOT q j) 0 12 0)
  let bs := ((d.region (q / 16)).far.map Prod.fst).filter (fun b => beatSub b f < 0)
  bs.foldl (fun (a : Dev × List Nat) b =>
    let l := SMap.get default (a.1.region (q / 16)).far b
    let y := takeFar q l.ents l.ents.length
    (a.1.setFar (q / 16) b y.2, a.2 ++ y.1)) (d, near)

/-- The late arrivals of a resume at beat `f` after Muffled beat `m` (R225). -/
def Dev.resumeNear (d : Dev) (q m f : Nat) : Dev :=
  let x := d.takeSkipped q m f
  let d := x.1.setPtr q f
  let d := d.forEach x.2 (fun d e =>
    let d := (d.bump (ALM_NLATE q) 1).setFlag (ALM_NSTAT q) 3 true
    if ! d.flag (ALM_LATECFG (q / 16)) 0 then d
    else ((d.bump (ALM_NLATEDLV q) 1).placeEntry q f e 0).1)
  d.relistAll q

/-- Empty the near window of core `q`. -/
def Dev.emptyNear (d : Dev) (q : Nat) : Dev :=
  d.forEach (upTo 64) (fun d j => d.setR (ALM_NSLOT q j) 0)

/-- Empty the far window of region `r` and give it `n` banks from `bank` (R207, R234). -/
def Dev.setFarWindow (d : Dev) (r bank n : Nat) : Dev :=
  let d := d.setRegion r { (d.region r) with far := [], nextBlk := 0 }
  let d := d.setR (ALM_FCFG r) (natOf (n ≠ 0) * 2 ^ 31 + n % 16 * 16 + bank % 16)
  (d.setR (ALM_FFREE r) (if n = 0 then 0 else 512 * n - 64)).setR (ALM_FLOW r) (if n = 0 then 0 else 512 * n - 64)

/-! ### Commands (R232 to R234) -/

def almSpec (op : Nat) (len : List Byte → Bool) (ro : Bool) (rsv : List (Nat × Nat)) : CmdSpec :=
  { opcode := op, issuer := .owner, names := true, ro := ro, len := len, rsv := rsv }

def cAlmanacConfig : CmdSpec := almSpec 0x0405 (lenIs 8) false ([(2, 0xFE)] ++ rsvd 3 5)

/-- Banks `b` to `b + n - 1` of region `r` can be handed to owner code `code`: none is bank 15 or held by the other
service (R421; log entry 15). -/
def Dev.banksFree (d : Dev) (r b n code : Nat) : Bool :=
  (upTo n).all (fun k =>
    let o := d.fld (CMN_OWN r (b + k)) 0 4
    b + k < 15 && (o = code || o ≤ 2))

/-- The banks of region `r` held by owner `code` fall to NONE, and those from `b` on are handed to it (log entry 15). -/
def Dev.giveBanks (d : Dev) (r b n code : Nat) : Dev :=
  let d := d.forEach (upTo 15) (fun d k => if d.fld (CMN_OWN r k) 0 4 = code then d.setF (CMN_OWN r k) 0 4 0 else d)
  d.forEach (upTo n) (fun d k => d.setF (CMN_OWN r (b + k)) 0 4 code)

def Dev.almanacConfig (d : Dev) (h : Hdr) (pl : List Byte) : Dev × Ans :=
  let p := h.part
  let b := byteAt pl 0
  let n := byteAt pl 1
  if ! d.still p then (d, .st .busy)
  else if 8 < n || ! (d.regionsOf p).all (fun r => d.banksFree r b n 3) then (d, .st .denied)
  else
    (d.forEach (d.regionsOf p) (fun d r =>
      let d := d.forEach ((d.coresOf r).map Prod.snd) Dev.emptyNear
      let d := (d.giveBanks r b n 3).setFarWindow r b n
      d.setFlag (ALM_LATECFG r) 0 (bitAt (byteAt pl 2) 0)), .st .ok)

def cAlmanacRead : CmdSpec := almSpec 0x0406 (lenIs 12) true (rsvd 2 2)

/-- A pending record (R233). -/
def pendRec (ent due far : Nat) : List Byte := leBytes 8 ent ++ leBytes 6 due ++ leBytes 1 far ++ zeros 1

/-- The pending records of core `q`: near entries before far entries, each in due-beat order (R233). -/
def Dev.pendings (d : Dev) (q : Nat) : List (List Byte) :=
  let ptr := (d.core q).ptr
  let near := ((upTo 64).map (fun k =>
    let b := (ptr + k) % 2 ^ 48
    (upTo (d.nearCount q (b % 64))).map (fun i => pendRec (d.rdN (d.nearAddr q (b % 64) i) 8) b 0))).flatten
  let far := ((d.region (q / 16)).far.map (fun l =>
    (l.2.ents.filter (fun x => x.core == q)).map (fun x => pendRec x.ent l.1 1))).flatten
  near ++ far

def Dev.almanacRead (d : Dev) (h : Hdr) (pl : List Byte) : Dev × Ans :=
  d.onCore h.part (leAt pl 0 2) (fun q =>
    if d.bstate h.part ≠ 3 then (d, .st .busy)
    else
      let l := d.pendings q
      let out := (l.drop (leAt pl 4 4)).take (leAt pl 8 4)
      (d, .done .ok 0 (leBytes 4 l.length ++ leBytes 4 out.length ++ out.flatten)))

def cAlmanacLoad : CmdSpec :=
  almSpec 0x0407 (fun pl => 8 ≤ pl.length && pl.length == 8 + 16 * leAt pl 4 4) false (rsvd 2 2)

/-- File the pending records of a payload for core `q` (R233); none where a block is lacking. -/
def Dev.loadPendings (q m : Nat) : List (List Byte) → Dev → Option Dev
  | [], d => some d
  | x :: r, d =>
    let due := leAt x 8 6
    let a := beatSub due ((m + 1) % 2 ^ 48)
    let y := d.placeEntry q due (leAt x 0 8) a
    if y.2 || d.farCount q due < y.1.farCount q due then Dev.loadPendings q m r y.1 else none

/-- Reserved bits of a pending record: of its FLAGS, its last byte and its near entry (R205, R233). -/
def pendRsvd (x : List Byte) : Bool :=
  let e := leAt x 0 8
  2 ≤ byteAt x 14 || byteAt x 15 ≠ 0 || (bitsOf e 62 2 = 1 && bitsOf e 0 24 ≠ 0) || (bitsOf e 62 2 = 2 && bitsOf e 0 15 ≠ 0)

def Dev.almanacLoad (d : Dev) (h : Hdr) (pl : List Byte) : Dev × Ans :=
  d.onCore h.part (leAt pl 0 2) (fun q =>
    let m := d.beat h.part
    let recs := (upTo (leAt pl 4 4)).map (fun k => (pl.drop (8 + 16 * k)).take 16)
    if d.bstate h.part ≠ 3 then (d, .st .busy)
    else if recs.any pendRsvd || ! recs.all (fun x => let a := beatSub (leAt x 8 6) m; 1 ≤ a && a ≤ 4096) then (d, .st .denied)
    else match Dev.loadPendings q m recs d with
      | none => (d, .st .noResource)
      | some d' => (d', .st .ok))

def cReadoutConfig : CmdSpec := almSpec 0x0408 (lenIs 8) false (rsvd 2 2)

def Dev.readoutConfig (d : Dev) (h : Hdr) (pl : List Byte) : Dev × Ans :=
  let p := h.part
  let r := byteAt pl 0
  let b := byteAt pl 1
  let n := leAt pl 4 4
  let ring := 2 ^ d.fld (AXN_ORCFG 0 p) 0 5
  if ! d.still p then (d, .st .busy)
  else if 16 ≤ r || ! d.owns p r || b % 2 = 1 || ! d.banksFree r b 2 4 || 65536 < n || ring < 16 * (1 + ceilDiv n 4 + 4) + 64 then
    (d, .st .denied)
  else
    let d := d.forEach (d.regionsOf p) (fun d x => (d.giveBanks x 0 0 4).setR (AXN_RCFG x) 0)
    let d := d.giveBanks r b 2 4
    let d := d.setR (AXN_RCFG r) (2 ^ 31 + b * 2 ^ 17 + n)
    let a := d.frameAddr r 0 0
    let d := d.zeroMem a (a + 0x80000)
    let d := (d.setR (AXN_RFRAME_LO r) 0).setR (AXN_RFRAME_HI r) 0
    ((d.setR (AXN_PROUT 0 p) (2 ^ 31 + r)).setR (AXN_PROUT 1 p) (2 ^ 31 + r), .st .ok)

def cReadoutRead : CmdSpec := almSpec 0x0409 (lenIs 8) true []

def Dev.readoutRead (d : Dev) (h : Hdr) (pl : List Byte) : Dev × Ans :=
  match d.readoutRegion h.part with
  | none => (d, .st .denied)
  | some r =>
    let f := leAt pl 0 4
    let n := leAt pl 4 4
    if 65536 < f + n then (d, .st .denied)
    else
      let x := d.cmnRd r (d.frameAddr r (d.rg (AXN_RFRAME_LO r)) f) (4 * n)
      (x.1, .done .ok 0 (leBytes 4 (d.rg (AXN_RFRAME_LO r)) ++ leBytes 4 (d.rg (AXN_RFRAME_HI r)) ++ x.2))

end Sys2Proof.Machine
end

