-- ==== Sys2Proof/Machine/Synapse.lean ====
section
/-! DEFINITION. Deliver of a beat (R57, R58, R166 to R171, R191, R210). -/

namespace Sys2Proof.Machine

/-- Length in bytes of the far row whose image is at `a`: of a sparse row by the COUNT that stands in its header, the
header alone where VALID is 0 or COUNT is out of range (R153, R160). -/
def Dev.farLen (d : Dev) (f a : Nat) : Nat :=
  let hn := fmtHeader f
  let h := d.ddrGet a hn
  let cnt := hdrCount h
  if ! fmtSparse f then hn + fmtBody f
  else if ! bitAt (hdrFlags h) 0 || cnt = 0 || fmtMax f < cnt then hn
  else hn + fmtEntry f * cnt

/-- The failed die bridge lies between core `q` and the burst at `b` of DDR5 (R24, R614). -/
def Dev.burstCut (d : Dev) (q b : Nat) : Bool := d.flag FLT_STAT 4 && (d.ddrSub b).1 / 4 != dieOf (q / 16)

/-- Issue the reads of a far row for core `q` of partition `p` (R169, R170, R435). -/
def Dev.farIssue (d : Dev) (q p ent : Nat) : Dev :=
  let f := bitsOf ent 59 3
  let a := 8 * bitsOf ent 23 36
  let g := bitsOf ent 15 8
  if f = 7 then (d.bump (SYN_ROWERR q) 1).setFlag (SYN_STAT q) 8 true
  else
    let len := if d.inWindow p a (fmtHeader f) then d.farLen f a else if fmtSparse f then fmtHeader f else fmtHeader f + fmtBody f
    let b0 := a / 64
    let n := (a + len - 1) / 64 - b0 + 1
    let lost := (upTo n).any (fun k => d.inWindow p (64 * (b0 + k)) 64 && d.burstCut q (64 * (b0 + k)))
    let r := (upTo n).foldl (fun (x : Dev × List Byte × Bool) k =>
      let d := x.1.count64 (SYN_FARBURST_LO q) 1
      let b := 64 * (b0 + k)
      if d.inWindow p b 64 && d.burstCut q b then (d.bridgeDrop (dieOf (q / 16)) 1, x.2.1 ++ zeros 64, x.2.2)
      else if d.inWindow p b 64 then
        match d.ddrBurst b [p] with
        | (d, some l) => (d, x.2.1 ++ l, x.2.2)
        | (d, none) => (d, x.2.1 ++ zeros 64, true)
      else (d.winError (dieOf (q / 16)) p, x.2.1 ++ zeros 64, x.2.2)) (d, [], false)
    let c := r.1.core q
    r.1.setCore q { c with farOut := c.farOut ++ [{ fmt := f, addr := a, grade := g, data := slice r.2.1 (a % 64) len,
                                                    bad := r.2.2, lost := lost }] }

/-- The rows a near entry names (R191, R205): a multi-row entry has them in a packed zone alone. -/
def Dev.entryRows (d : Dev) (q ent : Nat) : Nat :=
  if bitsOf ent 62 2 ≠ 1 then 1
  else match d.resolve q (bitsOf ent 43 17) with
    | some loc => if fmtSparse loc.fmt then 1 else bitsOf ent 60 2 + 1
    | none => 1

/-- Deliver row `k` of those one near entry names (R166, R191, R205). -/
def Dev.deliverEntry (d : Dev) (q p n ent k : Nat) : Dev :=
  let kind := bitsOf ent 62 2
  if kind = 1 then
    let ra := bitsOf ent 43 17
    let g := sInt 8 (bitsOf ent 35 8)
    if bitsOf ent 60 2 = 0 then d.nearRow q p n g ra
    else match d.resolve q ra with
      | none => (d.bump (SYN_ROWERR q) 1).setFlag (SYN_STAT q) 8 true
      | some loc =>
        if fmtSparse loc.fmt then (d.bump (SYN_ROWERR q) 1).setFlag (SYN_STAT q) 8 true
        else d.nearRow q p n g (ra + fmtUnits loc.fmt * k)
  else if kind = 2 then d.farIssue q p ent
  else (d.bump (SYN_ROWERR q) 1).setFlag (SYN_STAT q) 8 true

/-- The next row of core `q`'s open slot, that of beat `n`: in slot order, and the rows of an entry rising (R166). -/
def Dev.deliverNext (d : Dev) (q p n : Nat) : Dev :=
  let c := d.core q
  let a := d.nearAddr q (n % 64) c.delEnt
  let d := d.fixWord q a
  let ent := d.rdN a 8
  let m := d.entryRows q ent
  let d := d.deliverEntry q p n ent c.delRow
  d.setCore q (if c.delRow + 1 < m then { (d.core q) with delRow := c.delRow + 1 }
    else { (d.core q) with delEnt := c.delEnt + 1, delRow := 0 })

/-- The engine takes the rows of its slot one after another; while a far row is outstanding it stops at each boundary between rows,
where the data of that row may come (R166; log entry 183). -/
def Dev.drain (q p n : Nat) : Nat → Dev → Dev
  | 0, d => d
  | k + 1, d =>
    if d.nearCount q (n % 64) ≤ (d.core q).delEnt then d
    else
      let d := d.deliverNext q p n
      if (d.core q).farOut.isEmpty then Dev.drain q p n k d else d

/-- The end of Deliver once the slot has closed and no far row is outstanding (R168, R200). -/
def Dev.deliverEnd (d : Dev) (q : Nat) : Dev :=
  let c := d.core q
  if c.closed && c.farOut.isEmpty then
    let d := (d.setR (SYN_LASTDEL q) (8 + c.delR + c.delWait)).obsBusy q 0 8
    ((d.setFlag (SYN_STAT q) 0 false).setFlag (SYN_STAT q) 1 false).setPtr q ((c.ptr + 1) % 2 ^ 48)
  else (d.setFlag (SYN_STAT q) 0 (d.flag (ALM_NSTAT q) 0 || c.closed)).setFlag (SYN_STAT q) 1 (! c.farOut.isEmpty)

/-- Core `q` is usable and may deliver the beat at its drain pointer: it has reported FINAL for the one before, and its
region has started this one (R58). -/
def Dev.mayDeliver (d : Dev) (q p : Nat) : Bool :=
  let g := d.region (q / 16)
  let c := d.core q
  d.running p && g.started && (d.logOf q).isSome && 0 ≤ beatSub g.beat c.ptr && ! c.closed &&
    c.final == some ((c.ptr + 2 ^ 48 - 1) % 2 ^ 48)

/-- DELIVER: the engine drains what its slot holds (R166 to R168), to its end or, while a far row is outstanding, by one row.  The
stale sweep opens the slot (R124); entries left in the far list wait for the refill (R210), far rows for their data (R169). -/
def Dev.deliver (d : Dev) (q : Nat) : Dev :=
  match d.regPart (q / 16) with
  | none => d
  | some p =>
    let n := (d.core q).ptr
    if ! d.mayDeliver q p then d
    else
      let j := n % 64
      let d := if d.flag (ALM_NSTAT q) 0 then d
        else
          let d := (d.staleSweep q n).setFlag (ALM_NSTAT q) 0 true
          d.setCore q { (d.core q) with openEmpty := d.nearCount q j == 0 }
      let d := Dev.drain q p n (4 * d.nearCount q j) d
      if (d.core q).delEnt < d.nearCount q j then d.deliverEnd q
      else
        let d := (d.setF (ALM_NSLOT q j) 0 12 0).setCore q { (d.core q) with delEnt := 0, delRow := 0 }
        let d := if d.farCount q n = 0 then (d.setCore q { (d.core q) with closed := true }).setFlag (ALM_NSTAT q) 0 false else d
        d.deliverEnd q

/-- A far row is written back in the bursts it was read from (R171): a burst outside the partition's windows takes nothing and is
counted (R31, R435). -/
def Dev.farWrite (q p : Nat) : Nat → Nat → List Byte → Dev → Dev
  | 0, _, _, d => d
  | fuel + 1, a, l, d =>
    if l.isEmpty then d
    else
      let k := 64 - a % 64
      let d := if d.inWindow p (64 * (a / 64)) 64 && d.burstCut q a then d.bridgeDrop (dieOf (q / 16)) 2
        else if d.inWindow p (64 * (a / 64)) 64 then d.ddrWriteBurst a (l.take k) [p] else d.winError (dieOf (q / 16)) p
      Dev.farWrite q p fuel (a + k) (l.drop k) d

/-- The bytes of a far row with `l` written at `b`. -/
def FarRow.patch (x : FarRow) (b : Nat) (l : List Byte) : FarRow :=
  { x with data := (upTo x.data.length).map (fun i => if b ≤ x.addr + i then (l[x.addr + i - b]?).getD (x.data.getD i 0#8)
                                                      else x.data.getD i 0#8) }

/-- Process a far row whose data is here (R166, R171, R173).  Another event for the row whose data is outstanding meets the row as
this one leaves it (R312, R337). -/
def Dev.farRow (d : Dev) (q p n : Nat) (x : FarRow) : Dev :=
  let hn := fmtHeader x.fmt
  let h := x.data.take hn
  let cnt := hdrCount h
  if x.bad then (d.bump (SYN_ECCUNC q) 1).setFlag (SYN_STAT q) 4 true
  else if ! bitAt (hdrFlags h) 0 then d.bump (SYN_ROWINVAL q) 1
  else if fmtSparse x.fmt && (cnt = 0 || fmtMax x.fmt < cnt) then (d.bump (SYN_ROWERR q) 1).setFlag (SYN_STAT q) 8 true
  else
    match d.deliverRow q p n (sInt 8 x.grade) x.fmt h (x.data.drop hn) with
    | (d, none) => d
    | (d, some (h', b')) =>
      let d := Dev.farWrite q p (x.data.length + 2) x.addr (h' ++ b') d
      d.setCore q { (d.core q) with farOut := (d.core q).farOut.map (fun y => y.patch x.addr (h' ++ b')) }

/-- The data of outstanding far row `k` of core `q` arrives (R166, R168); `fw` is the number of cycles the engine had no
row ready for it. -/
def Dev.farArrives (d : Dev) (q k fw : Nat) : Dev :=
  let c := d.core q
  match c.farOut[k]?, d.regPart (q / 16) with
  | some x, some p =>
    if ! d.running p || x.lost then d
    else
      let d := d.setCore q { c with farOut := removeAt c.farOut k, delWait := c.delWait + fw }
      let d := (d.obsStall q 0 3 fw).farRow q p c.ptr x
      d.deliverEnd q
  | _, _ => d

/-- Outstanding far row `k` has had no data for 8,192 cycles (R170). -/
def Dev.farTimeout (d : Dev) (q k fw : Nat) : Dev :=
  let c := d.core q
  match c.farOut[k]? with
  | some _ =>
    if ! d.engineRuns (q / 16) then d else
    let d := d.setCore q { c with farOut := removeAt c.farOut k, delWait := c.delWait + fw }
    ((d.bump (SYN_FARTIMEOUT q) 1).obsStall q 0 3 fw).deliverEnd q
  | none => d

end Sys2Proof.Machine
end

