-- ==== Sys2Proof/Machine/TunOut.lean ====
section
/-! DEFINITION. Tunnel egress: site entries, acceptance of TUNNEL copies, and the datagrams they leave in (R288, R290,
R291, R293, R294). -/

namespace Sys2Proof.Machine

/-! ### Sites (R291) -/

/-- The 64 bytes of site entry `s`. -/
def Dev.site (d : Dev) (s : Nat) : List Byte := padTo 64 (SMap.get [] d.sites s)
def Dev.setSite (d : Dev) (s : Nat) (e : List Byte) : Dev := { d with sites := SMap.set [] d.sites s e }
def siteValid (e : List Byte) : Bool := bitAt (byteAt e 0) 0
def siteV6 (e : List Byte) : Bool := bitAt (byteAt e 0) 1
def sitePart (e : List Byte) : Nat := byteAt e 1 % 16
def sitePort (e : List Byte) : Nat := byteAt e 0 / 8 % 2

/-- W port `w` is an Ethernet port whose link is UP. -/
def Dev.ethUp (d : Dev) (w : Nat) : Bool := d.flag (TUN_PCFG w) 0 && d.fld (TUN_PSTAT w) 0 2 == 3

/-- The port egress uses for a site: its PORT, or the other one where ALT allows it (R291); none once the die bridge has
failed (R614). -/
def Dev.sitePortUp (d : Dev) (e : List Byte) : Option Nat :=
  let w := sitePort e
  if d.flag FLT_STAT 4 then none
  else if d.ethUp w then some w
  else if bitAt (byteAt e 0) 4 && d.ethUp (1 - w) then some (1 - w)
  else none

/-! ### Datagrams (R288, R290) -/

/-- The ones' complement sum of big-endian 16-bit words. -/
def onesSum : List Byte → Nat → Nat
  | [], acc => acc
  | [a], acc => (acc + 256 * a.toNat) % 65536 + (acc + 256 * a.toNat) / 65536
  | a :: b :: r, acc =>
    let s := acc + 256 * a.toNat + b.toNat
    onesSum r (s % 65536 + s / 65536)

def onesFold (n : Nat) : Nat := let m := n % 65536 + n / 65536; m % 65536 + m / 65536

/-- The Internet checksum of a list of bytes. -/
def inetSum (l : List Byte) : Nat := 65535 - onesFold (onesSum l 0)

/-- The addresses of port `w`, in network byte order. -/
def Dev.portMac (d : Dev) (w : Nat) : List Byte := beBytes 2 (d.fld (TUN_MAC_HI w) 0 16) ++ beBytes 4 (d.rg (TUN_MAC_LO w))
def Dev.portV4 (d : Dev) (w : Nat) : List Byte := beBytes 4 (d.rg (TUN_IPV4 w))
def Dev.portV6 (d : Dev) (w : Nat) : List Byte :=
  beBytes 4 (d.rg (TUN_IPV6_0 w)) ++ beBytes 4 (d.rg (TUN_IPV6_1 w)) ++ beBytes 4 (d.rg (TUN_IPV6_2 w)) ++
    beBytes 4 (d.rg (TUN_IPV6_3 w))

/-- A tunnel record (R290). -/
def tunRec (rdie raxon grade : Nat) : Nat := rdie % 2 * 2 ^ 63 + raxon % 2 ^ 22 * 2 ^ 41 + grade % 256 * 2 ^ 33

/-- The Ethernet frame of a datagram from port `w` to a site (R288, R290). -/
def Dev.datagram (d : Dev) (w : Nat) (e : List Byte) (beat : Nat) (recs : List Nat) : List Byte :=
  let pay := beBytes 2 0x1000 ++ beBytes 2 (leAt e 2 2 % 4096) ++ beBytes 6 beat ++ beBytes 4 (leAt e 48 4) ++
    beBytes 2 recs.length ++ (recs.map (beBytes 8)).flatten
  let ulen := 8 + pay.length
  let sp := d.fld TUN_CTL 16 16
  let hop := d.fld TUN_TXCFG 24 8
  let dscp := byteAt e 8 % 64
  let udp (c : Nat) := beBytes 2 sp ++ beBytes 2 (leAt e 6 2) ++ beBytes 2 ulen ++ beBytes 2 c ++ pay
  let src := if siteV6 e then d.portV6 w else d.portV4 w
  let dst := if siteV6 e then (e.drop 32).take 16 else (e.drop 44).take 4
  let pseudo := if siteV6 e then src ++ dst ++ beBytes 4 ulen ++ beBytes 4 17 else src ++ dst ++ beBytes 2 17 ++ beBytes 2 ulen
  let c0 := inetSum (pseudo ++ udp 0)
  let c := if c0 = 0 then 65535 else c0
  let ip := if siteV6 e then
      beBytes 4 (0x60000000 + dscp * 4 * 2 ^ 20) ++ beBytes 2 ulen ++ beBytes 1 17 ++ beBytes 1 hop ++ src ++ dst
    else
      let h (s : Nat) := beBytes 1 0x45 ++ beBytes 1 (dscp * 4) ++ beBytes 2 (20 + ulen) ++ beBytes 2 0 ++ beBytes 2 0x4000 ++
        beBytes 1 hop ++ beBytes 1 17 ++ beBytes 2 s ++ src ++ dst
      h (inetSum (h 0))
  let mac := if w = 0 then (e.drop 12).take 6 else (e.drop 18).take 6
  let vlan := if bitAt (byteAt e 0) 2 then beBytes 2 0x8100 ++ beBytes 2 (leAt e 4 2) else []
  mac ++ d.portMac w ++ vlan ++ beBytes 2 (if siteV6 e then 0x86DD else 0x0800) ++ ip ++ udp c

/-- The records one datagram to a site may hold (R288, R293). -/
def Dev.datagramMax (d : Dev) (e : List Byte) : Nat :=
  min 1024 ((d.fld TUN_LIMITS 0 14 - (if siteV6 e then 40 else 20) - 8 - 16) / 8)

/-- Send a gathered datagram; SEQTX of its site advances (R293).  One whose port has gone down is lost there. -/
def Dev.sendTun (d : Dev) (x : TunPack) : Dev :=
  let e := d.site x.site
  match d.sitePortUp e with
  | none => d.bump TUN_LINKDROP x.recs.length
  | some w =>
    let f := d.datagram w e x.beat x.recs
    let d := d.setSite x.site (splice e 48 (leBytes 4 (leAt e 48 4 + 1)))
    (d.bump64 TUN_TXEV_LO x.recs.length).emit (.frame w f)

/-- The egress buffer holds 256 KiB of records. -/
def Dev.egressFull (d : Dev) : Bool := 262144 < 8 * ((d.tunPacks.map (fun x => x.recs.length)).sum + 1)

/-- A TUNNEL copy of partition `p` emitted in beat `beat` reaches egress (R293, R294): dropped with its counter or
accepted, it counts as filed at the die 1 router. -/
def Dev.egress (d : Dev) (p site rdie raxon grade beat : Nat) : Dev :=
  let e := d.site site
  let d := d.file p (288 + p) beat
  if d.muted p then d.bump TUN_MUTEDROP 1
  else if ! siteValid e || sitePart e ≠ p then d.bump TUN_NOSITE 1
  else if (d.sitePortUp e).isNone || ! d.flag TUN_CTL 0 then d.bump TUN_LINKDROP 1
  else if d.egressFull then d.bump TUN_EGDROP 1
  else
    let r := tunRec rdie raxon grade
    let mine (x : TunPack) : Bool := x.site == site && x.beat == beat && x.part == p
    let new (d : Dev) : Dev := { d with tunPacks := d.tunPacks ++ [{ site := site, part := p, beat := beat, recs := [r] }] }
    match d.tunPacks.find? mine with
    | none => new d
    | some x =>
      if d.datagramMax e ≤ x.recs.length then
        new ({ d with tunPacks := d.tunPacks.filter (fun y => ! mine y) }.sendTun x)
      else { d with tunPacks := d.tunPacks.map (fun y => if mine y then { y with recs := y.recs ++ [r] } else y) }

/-- Send the gathered datagrams that `sel` picks. -/
def Dev.flushTun (d : Dev) (sel : TunPack → Bool) : Dev :=
  let go := d.tunPacks.filter sel
  { d with tunPacks := d.tunPacks.filter (fun x => ! sel x) }.forEach go Dev.sendTun

/-- COALESCE cycles have passed for gathered datagram `k` (R293). -/
def Dev.tunCoalesce (d : Dev) (k : Nat) : Dev :=
  match d.tunPacks[k]? with
  | some x => { d with tunPacks := removeAt d.tunPacks k }.sendTun x
  | none => d

end Sys2Proof.Machine
end

