-- ==== Sys2Proof/Machine/Axon.lean ====
section
/-! DEFINITION. The axon tables: lookups, Peals and copies; FINAL; the host event rings; the 0x04xx commands on axon
tables and rings (R58, R59, R186 to R199, R217 to R229, R232, R663). -/

namespace Sys2Proof.Machine

/-! ### Entries (R188, R190) -/

def axKind (x : Nat) : Nat := bitsOf x 60 4

/-- Address of entry `i` of die `die`. -/
def axAddr (die i : Nat) : Nat := axBase die + 8 * i

/-- `i` lies in the range of partition `p` in the table of die `die`. -/
def Dev.inRange (d : Dev) (die p i : Nat) : Bool :=
  d.flag (AXN_PBASE die p) 31 && d.fld (AXN_PBASE die p) 0 22 ≤ i && i ≤ d.fld (AXN_PLIMIT die p) 0 22

/-- Read entry `i` (R188); none where it is uncorrectable. -/
def Dev.axRead (d : Dev) (die p i : Nat) : Dev × Option Nat :=
  let d := d.count64 (AXN_LOOKUP_LO die) 1
  let a := axAddr die i
  match SMap.get 0 d.ecc a with
  | 0 => (d, some (d.rdN a 8))
  | 1 => ({ d with ecc := SMap.set 0 d.ecc a 0 }.bump (AXN_ECCCORR die) 1, some (d.rdN a 8))
  | _ => (((d.bump (AXN_ECCUNC die) 1).setFlag (AXN_STAT die) 3 true).fault fEccAxon [p] (srcDie die), none)

/-- A copy that a lookup produces. -/
inductive Copy
  /-- A record for a region router of a device. -/
  | event (dev : Nat) (e : Event)
  | output (stream user : Nat)
  | tunnel (site rdie raxon : Nat)
  deriving DecidableEq, Repr

/-- The fields of an entry are as R190 has them: its reserved bits are zero and the FORMAT of a FAR entry is not 7 (R192). -/
def entryClean (x : Nat) : Bool :=
  match axKind x with
  | 0 => bitsOf x 0 60 = 0
  | 1 => ! bitAt x 0
  | 2 => bitsOf x 0 28 = 0 && 1 ≤ bitsOf x 28 10
  | 3 => ! bitAt x 0 && bitsOf x 49 3 ≠ 7
  | 4 => bitsOf x 0 25 = 0
  | 5 => bitsOf x 32 20 = 0
  | 6 => bitsOf x 0 32 = 0
  | _ => false

/-- The copy of one direct entry for a spike of partition `p`, grade `g`; none for a kind that yields none here, or a malformed entry
(R190, R192, R195). -/
def Dev.copyOf (d : Dev) (die p g x : Nat) : Option Copy :=
  let e : Event := { dcore := 0, ra := 0, delay := 0, grade := g, part := p, tkind := 0, nrows := 0, tag := 0, ebeat := 0,
                     fmt := 0, daddr := 0 }
  if ! entryClean x then none else
  match axKind x with
  | 1 => some (.event (bitsOf x 51 9) { e with dcore := bitsOf x 43 8, ra := bitsOf x 26 17, nrows := bitsOf x 24 2,
                                               delay := bitsOf x 12 12, tag := bitsOf x 1 11 })
  | 3 => some (.event d.devId { e with tkind := 1, dcore := bitsOf x 52 8, fmt := bitsOf x 49 3, daddr := bitsOf x 13 36,
                                       delay := bitsOf x 1 12 })
  | 4 => some (.tunnel (bitsOf x 48 12) (bitsOf x 47 1) (bitsOf x 25 22))
  | 5 => some (.output (bitsOf x 52 8) (bitsOf x 0 32))
  | 6 =>
    if d.flag (AXN_PROUT die p) 31 then
      some (.event d.devId { e with tkind := 2, dcore := 16 * d.fld (AXN_PROUT die p) 0 4, ra := bitsOf x 44 16,
                                    delay := bitsOf x 32 12 })
    else none
  | _ => none

/-- An index outside the range, an entry that yields no copy (R187, R193). -/
def Dev.axRangeErr (d : Dev) (die : Nat) : Dev := (d.bump (AXN_RANGECNT die) 1).setFlag (AXN_STAT die) 2 true
def Dev.axInvalid (d : Dev) (die : Nat) : Dev := (d.bump (AXN_INVCNT die) 1).setFlag (AXN_STAT die) 1 true

/-- One Peal element (R193). -/
def Dev.pealElement (d : Dev) (die p g i : Nat) : Dev × List Copy :=
  if ! d.inRange die p i then (d.axRangeErr die, [])
  else match d.axRead die p i with
    | (d, none) => (d, [])
    | (d, some x) => match d.copyOf die p g x with
      | some c => (d, [c])
      | none => (d.axInvalid die, [])

/-- The copies of entry `i` of die `die` for a spike of partition `p` and grade `g` (R186 to R193). -/
def Dev.lookup (d : Dev) (die p g i : Nat) : Dev × List Copy :=
  if ! d.inRange die p i then (d.axRangeErr die, [])
  else match d.axRead die p i with
    | (d, none) => (d, [])
    | (d, some x) =>
      if axKind x = 2 then
        if ! entryClean x then (d.axInvalid die, [])
        else (upTo (bitsOf x 28 10)).foldl (fun (a : Dev × List Copy) k =>
          let y := a.1.pealElement die p g (bitsOf x 38 22 + k)
          (y.1, a.2 ++ y.2)) (d, [])
      else match d.copyOf die p g x with
        | some c => (d, [c])
        | none => (d.axInvalid die, [])

/-- The die router's share of the sent count: the copies minus one (R61). -/
def Dev.addCopies (d : Dev) (die p beat n : Nat) : Dev :=
  if n = 1 then d else d.addSent (272 + 16 * die + p) beat (2 ^ 32 + n - 1)

/-- A SPIKE record (R220). -/
def spikeRec (stream g lcore neuron beat user : Nat) : List Byte :=
  leBytes 1 1 ++ leBytes 1 stream ++ leBytes 1 g ++ leBytes 1 lcore ++ leBytes 2 (neuron % 32768) ++ leBytes 6 beat ++ leBytes 4 user

def Dev.pushOut (d : Dev) (p : Nat) (o : OutRec) : Dev :=
  let x := d.part p
  d.setPart p { x with outq := x.outq ++ [o] }

/-- Send one copy of a spike of neuron `i` of logical core `n` on its way (R195, R198, R220, R293). -/
def Dev.sendCopy (d : Dev) (die p g n i beat : Nat) (c : Copy) : Dev :=
  match c with
  | .event dev e => d.packEvent die dev { e with ebeat := beat % 65536 }
  | .output stream user => d.pushOut p (.spike (spikeRec stream g n i beat user) (beat % 65536) (n / 16))
  | .tunnel site rdie raxon => d.egress p site rdie raxon g beat

/-! ### Lookups of fire-log entries (R186, R187) -/

/-- The first fire-log position of core `q` not looked up yet. -/
def Dev.nextLookup (d : Dev) (q : Nat) : Option Nat :=
  let hd := d.fld (NEU_FLHEAD q) 0 12
  ((upTo (d.rg (NEU_FLCOUNT q))).map (fun k => (hd + k) % 4096)).find? (fun k => ! bitAt (SMap.get 0 (d.core q).flDone k) 0)

/-- Every core of partition `p` on die `die` has ended Integrate of beat `n` and had its entries looked up (R237, R293). -/
def Dev.dieDone (d : Dev) (die p n : Nat) : Bool :=
  ((d.sitesOf p).filter (fun q => dieOf (q / 16) == die)).all (fun q =>
    (match (d.core q).integ with | some b => decide (0 ≤ beatSub b n) | none => false) && (d.nextLookup q).isNone)

/-- Packets and datagrams whose beat has had its last lookup leave (R237, R293). -/
def Dev.flushBeat (d : Dev) (p n : Nat) : Dev :=
  let d := d.forEach [0, 1] (fun d die =>
    if d.dieDone die p n then d.flushPacks (fun x => x.router == die && x.part == p && x.ebeat == n % 65536) else d)
  if d.dieDone 0 p n && d.dieDone 1 p n then d.flushTun (fun x => x.part == p && x.beat == n) else d

/-- The oldest fire-log entry of core `q` without a lookup reaches the axon table (R186, R187, R61). -/
def Dev.axonLookup (d : Dev) (q : Nat) : Dev :=
  match d.nextLookup q, d.logOf q, d.regPart (q / 16) with
  | some pos, some n, some p =>
    if d.choked p then d
    else
      let e := d.rdB (d.flBase q + 8 * pos) 8
      let i := leAt e 0 2 % 32768
      let g := byteAt e 2
      let now := (d.region (q / 16)).beat
      let beat := beatAdd now (beatDelta (leAt e 4 2) now)
      let die := dieOf (q / 16)
      let d := d.addSent q beat 1
      let d := d.flMark q pos 0
      let cb := AXN_CBASE die (n % 128)
      let r := if d.flag cb 31 then d.lookup die p g (d.fld cb 0 22 + i) else (d.axInvalid die, [])
      let d := r.1.addCopies die p beat r.2.length
      (d.forEach r.2 (fun d c => d.sendCopy die p g n i beat c)).flushBeat p beat
  | _, _, _ => d

/-- A Peal copy for device `dev` has not moved for 512 cycles at the router of die `die`: that copy alone is dropped and counts as
filed (R194). -/
def Dev.pealDrop (d : Dev) (die dev : Nat) (e : Event) : Dev :=
  let has (x : Pack) : Bool := x.router == die && x.dev == dev && x.evs.contains e
  let n := d.beat e.part
  let drop (d : Dev) : Dev :=
    (d.bump (AXN_PEALDROP die) 1).file e.part (272 + 16 * die + e.part) (beatAdd n (beatDelta e.ebeat n))
  match d.packs.find? has with
  | some x =>
    let x' := { x with evs := x.evs.erase e }
    drop { d with packs := if x'.evs.isEmpty then d.packs.erase x else d.packs.replace x x' }
  | none => if dev = d.devId && d.net.contains e then drop (d.takeEvent e) else d

/-! ### FINAL (R58, R59) -/

/-- Every usable core of the region has reported FINAL for beat `n` (R59). -/
def Dev.allFinalAt (d : Dev) (r n : Nat) : Bool :=
  (d.coresOf r).all (fun x => match (d.core x.2).final with | some b => decide (0 ≤ beatSub b n) | none => false)

/-- Core `q` reports FINAL for the beat it last integrated. -/
def Dev.finalReport (d : Dev) (q : Nat) : Dev :=
  match d.regPart (q / 16), d.logOf q, (d.core q).integ with
  | some p, some _, some n =>
    let die := dieOf (q / 16)
    if ! d.running p || (d.core q).final == some n || (d.nextLookup q).isSome then d
    else
      let d := d.flushBeat p n
      if d.packs.any (fun x => x.router == die && x.part == p && x.ebeat == n % 65536) then d
      else
        let d := d.setCore q { (d.core q) with final := some n, hang := 0 }
        if d.allFinalAt (q / 16) n then
          d.flushPacks (fun x => x.router == 16 + q / 16 && x.part == p && x.ebeat == n % 65536)
        else d
  | _, _, _ => d

/-! ### Output ring (R220 to R223) -/

/-- Size in records, and the free records, of the output ring of partition `p`: none while the ring or its DMA channel is
disabled (R220, R221, R468). -/
def Dev.orSize (d : Dev) (p : Nat) : Nat := 2 ^ d.fld (AXN_ORCFG 0 p) 0 5 / 16
def Dev.orFree (d : Dev) (p : Nat) : Nat :=
  if d.flag (AXN_ORCFG 0 p) 31 && d.flag (PCI_DMACFG (2 * p + 1)) 31 then
    d.orSize p - (d.rg (AXN_ORHEAD 0 p) + 2 ^ 32 - d.rg (AXN_ORTAIL 0 p)) % 2 ^ 32
  else 0

/-- Write records at the producer index; they lie in a row (R220). -/
def Dev.orWrite (d : Dev) (p : Nat) (l : List Byte) : Dev :=
  let i := d.rg (AXN_ORHEAD 0 p)
  let base := d.rg (AXN_ORBASE_LO 0 p) / 4096 * 4096 + 2 ^ 32 * d.rg (AXN_ORBASE_HI 0 p)
  let d := d.emit (.hostWrite (d.requester p) (base + 16 * (i % d.orSize p)) l)
  d.setR (AXN_ORHEAD 0 p) (i + l.length / 16)

/-- A record for the output ring is dropped (R221). -/
def Dev.orDrop (d : Dev) (p beat : Nat) : Dev :=
  let x := d.part p
  (d.setPart p { x with lost := satInc x.lost 1, lostBeat := beat }).bump (ALM_ODROP 0 p) 1

/-- A SPIKE counts as filed at the region router of the emitting core (R60, R221). -/
def Dev.fileSpike (d : Dev) (p r eb : Nat) : Dev :=
  let n := d.beat p
  d.file p (256 + r) (beatAdd n (beatDelta eb n))

/-- The next record of partition `p` for its output ring: a pending LOST first (R221 to R223); a BEATEND or
MUTE record signals vector 3 (R470); channel 1 stands still in D3hot (R475). -/
def Dev.outputRecord (d : Dev) (p : Nat) : Dev :=
  if p = 0 && d.d3hot then d else
  let x := d.part p
  let free := d.orFree p
  if 0 < x.lost && 1 ≤ free then
    (d.setPart p { x with lost := 0 }).orWrite p
      (leBytes 1 6 ++ zeros 3 ++ leBytes 4 x.lost ++ leBytes 6 x.lostBeat ++ zeros 2)
  else match x.outq with
    | [] => d
    | o :: rest =>
      let d := d.setPart p { x with outq := rest }
      match o with
      | .spike b eb r =>
        let beat := beatAdd (d.beat p) (beatDelta eb (d.beat p))
        if 5 ≤ free then
          let y := d.part p
          ((d.setPart p { y with spikes := SMap.set 0 y.spikes beat (SMap.get 0 y.spikes beat + 1) }).orWrite p b).fileSpike p r eb
        else (d.orDrop p beat).fileSpike p r eb
      | .frame beat fl slots =>
        let n := ceilDiv slots.length 4
        let pos := d.rg (AXN_ORHEAD 0 p) % d.orSize p
        let pad := if d.orSize p < pos + 1 + n then d.orSize p - pos else 0
        if pad + 1 + n + 4 ≤ free then
          let d := if pad = 0 then d else d.orWrite p (padTo (16 * pad) (leBytes 1 0x0F ++ zeros 3 ++ leBytes 4 pad))
          d.orWrite p (leBytes 1 2 ++ leBytes 1 fl ++ zeros 2 ++ leBytes 4 slots.length ++ leBytes 6 beat ++ zeros 2 ++
            padTo (16 * n) (slots.map (leBytes 4)).flatten)
        else d.orDrop p beat
      | .beatEnd beat fl =>
        if 1 ≤ free then
          let y := d.part p
          let n := SMap.get 0 y.spikes beat
          (d.setPart p { y with spikes := SMap.set 0 y.spikes beat 0, facts := SMap.set 0 y.facts beat 0 }).orWrite p
            (leBytes 1 4 ++ leBytes 1 fl ++ zeros 2 ++ leBytes 4 n ++ leBytes 6 beat ++ zeros 2) |>.signal p 3
        else d.orDrop p beat
      | .mute code beat =>
        if 1 ≤ free then
          (d.orWrite p (leBytes 1 5 ++ zeros 1 ++ leBytes 2 code ++ zeros 4 ++ leBytes 6 beat ++ zeros 2)).signal p 3
        else d.orDrop p beat

/-! ### Input ring (R217 to R219) -/

/-- An input record is rejected (R219). -/
def Dev.inputBad (d : Dev) (p : Nat) (rec : List Byte) (n : Nat) : Bool :=
  let w := leAt rec 0 8
  let k := bitsOf w 13 2
  let fl := byteAt rec 14
  let abs := bitAt fl 0 && k ≠ 2
  let dl := beatSub (leAt rec 8 6) n - 1
  k = 1 || k = 3 || (k = 2 && (d.readoutRegion p).isNone) || ! d.owns p (bitsOf w 60 4) ||
    (abs && (dl < 0 || 4095 < dl)) || 4 ≤ fl || byteAt rec 15 ≠ 0 || (k = 2 && (bitAt w 55 || bitsOf w 0 13 ≠ 0))

/-- An input record at the ingress router of region `r` (R218, R219): sent, or refused; a NOP does nothing. -/
def Dev.ingest (d : Dev) (r p : Nat) (rec : List Byte) : Dev × Bool :=
  let g := d.region r
  let final := ! (d.coresOf r).isEmpty && d.allFinalAt r g.beat
  let n := if final then (g.beat + 1) % 2 ^ 48 else g.beat
  if bitAt (byteAt rec 14) 1 then (d, true)
  else if d.inputBad p rec n then (d, false)
  else
    let e := { (Event.ofWord (leAt rec 0 8) 0 (n % 65536)) with part := p }
    let e := if bitAt (byteAt rec 14) 0 && e.tkind = 0 then { e with delay := (beatSub (leAt rec 8 6) n - 1).toNat } else e
    ((d.addSent (256 + r) n 1).packEvent (16 + r) d.devId e, true)

/-- The next input record of partition `p`, as host memory holds it (R217 to R219); none is read while channel 2p is
disabled (R468) or stopped by D3hot (R475). -/
def Dev.inputRecord (d : Dev) (p : Nat) (rec : List Byte) : Dev :=
  if ! d.flag (AXN_IRCFG 0 p) 31 || ! d.flag (PCI_DMACFG (2 * p)) 31 || d.rg (AXN_IRHEAD 0 p) = d.rg (AXN_IRTAIL 0 p) || d.bstate p ≠ 1 || (p = 0 && d.d3hot) then d
  else match d.regionsOf p with
    | [] => d
    | r :: _ =>
      let x := (d.setR (AXN_IRHEAD 0 p) (d.rg (AXN_IRHEAD 0 p) + 1)).ingest r p rec
      if x.2 then x.1 else x.1.bump (AXN_INREJ 0 p) 1

/-- The S-core of region `r` hands records of `size` bytes to its router (R402, R412): whether one was refused. -/
def Dev.evSend (d : Dev) (r size : Nat) (l : List Byte) : Dev × Bool :=
  match d.regPart r with
  | none => (d, true)
  | some p =>
    (upTo (l.length / size)).foldl (fun (x : Dev × Bool) i =>
      if d.bstate p ≠ 1 then (x.1, true)
      else
        let y := x.1.ingest r p (padTo 16 (slice l (size * i) size))
        (y.1, x.2 || ! y.2)) (d, false)

/-! ### Ring registers (R228, R229) -/

/-- Enable both indices of a ring from zero. -/
def Dev.ringOn (d : Dev) (p k v : Nat) : Dev :=
  if k = 0 then ((d.setR (AXN_IRCFG 0 p) v).setR (AXN_IRHEAD 0 p) 0).setR (AXN_IRTAIL 0 p) 0
  else ((d.setR (AXN_ORCFG 0 p) v).setR (AXN_ORHEAD 0 p) 0).setR (AXN_ORTAIL 0 p) 0

/-- A write of AXN_IRCFG (`k` 0) or AXN_ORCFG (`k` 1) of partition `p` (R229). -/
def Dev.ringCfg (d : Dev) (p k v : Nat) : Dev :=
  let a := if k = 0 then AXN_IRCFG 0 p else AXN_ORCFG 0 p
  let sz := v % 32
  if d.flag a 31 then (if bitAt v 31 then d else d.setFlag a 31 false)
  else if sz < 12 || 20 < sz then d
  else if bitAt v 31 then d.ringOn p k (2 ^ 31 + sz)
  else d.setR a sz

/-- Ring registers of partition `p` belong to function `p` and the physical function (R52, R227). -/
def Dev.ringCfgWrite (d : Dev) (f p k v : Nat) : Dev := if f ≠ 0 && f ≠ p then d.addrErr else d.ringCfg p k v
def Dev.irtailWrite (d : Dev) (f p v : Nat) : Dev := if f ≠ 0 && f ≠ p then d.addrErr else d.setR (AXN_IRTAIL 0 p) v
def Dev.ortailWrite (d : Dev) (f p v : Nat) : Dev := if f ≠ 0 && f ≠ p then d.addrErr else d.setR (AXN_ORTAIL 0 p) v

/-! ### Commands (R192, R232, R663) -/

def cAxonRange : CmdSpec :=
  { opcode := 0x0401, issuer := .pf, names := true, ro := false, len := lenIs 16, rsv := rsvd 1 3 ++ rsvd 12 4 }

def Dev.axonRange (d : Dev) (h : Hdr) (pl : List Byte) : Dev × Ans :=
  let p := h.part
  let die := byteAt pl 0
  let b := leAt pl 4 4
  let l := leAt pl 8 4
  let overlap := (upTo 16).any (fun k => k ≠ p && d.flag (AXN_PBASE die k) 31 && b ≤ d.fld (AXN_PLIMIT die k) 0 22 &&
    d.fld (AXN_PBASE die k) 0 22 ≤ l)
  if ! d.still p then (d, .st .busy)
  else if 2 ≤ die || 4194303 < l || l < b || overlap then (d, .st .denied)
  else ((d.setR (AXN_PBASE die p) (2 ^ 31 + b)).setR (AXN_PLIMIT die p) l, .st .ok)

def cAxonCoreBase : CmdSpec := almSpec 0x0402 (lenIs 8) false (rsvd 2 2)

def Dev.axonCoreBase (d : Dev) (h : Hdr) (pl : List Byte) : Dev × Ans :=
  let n := leAt pl 0 2
  let b := leAt pl 4 4
  if 256 ≤ n || ! d.owns h.part (n / 16) then (d, .st .denied)
  else if ! d.still h.part then (d, .st .busy)
  else if b = 0xFFFFFFFF then (d.setR (AXN_CBASE (n / 128) (n % 128)) 0, .st .ok)
  else if ! d.inRange (n / 128) h.part b then (d, .st .denied)
  else (d.setR (AXN_CBASE (n / 128) (n % 128)) (2 ^ 31 + b), .st .ok)

/-- The checks of one entry of AXON_LOAD (R192): a Peal's elements lie in the partition's range. -/
def Dev.axonOk (d : Dev) (die p x : Nat) : Bool :=
  entryClean x &&
    (axKind x ≠ 2 || (d.inRange die p (bitsOf x 38 22) && d.inRange die p (bitsOf x 38 22 + bitsOf x 28 10 - 1)))

def cAxonLoad : CmdSpec :=
  almSpec 0x0403 (fun pl => 16 ≤ pl.length && pl.length == 16 + 8 * leAt pl 8 4) false (rsvd 1 3 ++ rsvd 12 4)

def Dev.axonLoad (d : Dev) (h : Hdr) (pl : List Byte) : Dev × Ans :=
  let die := byteAt pl 0
  let f := leAt pl 4 4
  let n := leAt pl 8 4
  let x (k : Nat) := leAt pl (16 + 8 * k) 8
  if 2 ≤ die || (0 < n && (! d.inRange die h.part f || ! d.inRange die h.part (f + n - 1))) then (d, .st .denied)
  else match (upTo n).find? (fun k => ! d.axonOk die h.part (x k)) with
    | some k => (d, .done .denied (f + k) [])
    | none =>
      let a := axAddr die f
      let d := d.wrB a ((pl.drop 16).take (8 * n))
      ({ d with ecc := SMap.clear d.ecc a (a + 8 * n) }, .st .ok)

def cAxonRead : CmdSpec := almSpec 0x0404 (lenIs 16) true (rsvd 1 3 ++ rsvd 12 4)

def Dev.axonReadCmd (d : Dev) (h : Hdr) (pl : List Byte) : Dev × Ans :=
  let die := byteAt pl 0
  let f := leAt pl 4 4
  let n := leAt pl 8 4
  if 2 ≤ die || (0 < n && (! d.inRange die h.part f || ! d.inRange die h.part (f + n - 1))) then (d, .st .denied)
  else if 131072 < n then (d, .st .tooLong)
  else (d, .done .ok 0 (d.rdB (axAddr die f) (8 * n)))

def cEventRings : CmdSpec := almSpec 0x040A (lenIs 32) false (rsvd 9 7 ++ rsvd 25 7)

def Dev.eventRings (d : Dev) (h : Hdr) (pl : List Byte) : Dev × Ans :=
  let p := h.part
  let i := leAt pl 0 8
  let o := leAt pl 16 8
  let bad (s : Nat) : Bool := s < 12 || 20 < s
  if d.running p then (d, .st .busy)
  else if bad (byteAt pl 8) || bad (byteAt pl 24) || i % 4096 ≠ 0 || o % 4096 ≠ 0 then (d, .st .denied)
  else
    let d := (d.set64 (AXN_IRBASE_LO 0 p) i).set64 (AXN_ORBASE_LO 0 p) o
    ((d.ringOn p 0 (2 ^ 31 + byteAt pl 8)).ringOn p 1 (2 ^ 31 + byteAt pl 24), .st .ok)

def cAxnStatus : CmdSpec := { opcode := 0x040B, issuer := .pf, names := false, ro := true, len := lenIs 8, rsv := rsvd 1 7 }

def Dev.axnStatus (d : Dev) (_h : Hdr) (pl : List Byte) : Dev × Ans :=
  if 2 ≤ byteAt pl 0 then (d, .st .denied) else (d, .done .ok 0 (d.regBytes (AXN_STAT (byteAt pl 0)) 10))

end Sys2Proof.Machine
end

