-- ==== Sys2Proof/Machine/Harvest.lean ====
section
/-! DEFINITION. Seasons, the harvest engine, the post pass and the reverse index, the row sweep, the modulator (R306 to
R336, R353 to R357, R658). -/

namespace Sys2Proof.Machine

/-! ### Positions of plastic rows (R324) -/

/-- Insert a zone (base page, format, positions, zone number) by rising base. -/
def insertZone (z : Nat × Nat × Nat × Nat) : List (Nat × Nat × Nat × Nat) → List (Nat × Nat × Nat × Nat)
  | [] => [z]
  | y :: r => if z.1 ≤ y.1 then z :: y :: r else y :: insertZone z r

/-- The valid plastic zones of core `q` by ascending BASE. -/
def Dev.plasticZones (d : Dev) (q : Nat) : List (Nat × Nat × Nat × Nat) :=
  (upTo 8).foldl (fun l z =>
    let c := SYN_ZCFG q z
    let f := d.fld c 16 3
    if d.flag c 31 && fmtPlastic f then
      insertZone (d.fld c 0 6, f, if f = 5 then d.zoneRows q z else 2048 * d.fld c 8 6, z) l
    else l) []

/-- NPOS. -/
def Dev.npos (d : Dev) (q : Nat) : Nat := ((d.plasticZones q).map (fun z => z.2.2.1)).sum

/-- Format and unit address of position `k`. -/
def Dev.posRa (d : Dev) (q : Nat) : List (Nat × Nat × Nat × Nat) → Nat → Option (Nat × Nat)
  | [], _ => none
  | z :: r, k =>
    if k < z.2.2.1 then
      some (z.2.1, if z.2.1 = 5 then d.fld (SYN_ZFIRST q z.2.2.2) 0 17 + 4 * k else 2048 * z.1 + k)
    else Dev.posRa d q r (k - z.2.2.1)

/-- A plastic row as read: its units, the addresses and bytes of header and body. -/
structure PRow where
  fmt   : Nat
  ra    : Nat
  units : Nat
  hdr   : Nat
  body  : Nat
  h     : List Byte
  b     : List Byte
  deriving DecidableEq, Repr

/-- What stands at a position (R324, R658). A row whose header can be read counts all its units, whether or not its body can
be (log entry 184). -/
inductive PosIs
  /-- A unit that passes as one position. -/
  | passed
  /-- A row the poison table lists, skipped without reading. -/
  | listed (units : Nat)
  /-- A row found uncorrectable. -/
  | bad (units : Nat)
  | row (x : PRow)
  deriving DecidableEq, Repr

/-- Units of a sparse plastic row of `n` entries. -/
def sppUnits (n : Nat) : Nat := (16 + 6 * n + 31) / 32

/-- A row of a plastic format found uncorrectable by the harvest engine (R658). -/
def Dev.poisonRow (d : Dev) (q ra : Nat) : Dev := (d.eccUnc q).poison q ra

/-- The plastic row of format `f` that the bytes at `loc` hold: in an SPP zone a valid sparse row wholly inside the zone
(R153, R324). -/
def Dev.plasticRow (d : Dev) (f ra : Nat) (loc : RowLoc) : Option PRow :=
  let h := d.rdB loc.hdr (fmtHeader f)
  let cnt := hdrCount h
  let bn := if f = 6 then 6 * cnt else 128
  if f = 6 && (! bitAt (hdrFlags h) 0 || cnt = 0 || 680 < cnt || loc.lim < loc.body + bn) then none
  else some { fmt := f, ra := ra, units := if f = 6 then sppUnits cnt else 1, hdr := loc.hdr, body := loc.body,
              h := h, b := d.rdB loc.body bn }

/-- Units that the row at `ra` takes in the walk: all of its own where its header can be read and is a valid row's, else 1. -/
def Dev.rowUnits (d : Dev) (q f ra : Nat) : Nat :=
  match d.resolve q ra with
  | none => 1
  | some loc => if d.cleanAt loc.hdr (fmtHeader f) then ((d.plasticRow f ra loc).map PRow.units).getD 1 else 1

/-- Read the plastic row at `ra` (R153, R172, R658). -/
def Dev.readPlastic (d : Dev) (q f ra : Nat) : Dev × PosIs :=
  if (d.poisonAt q ra).isSome then (d, .listed (d.rowUnits q f ra))
  else match d.resolve q ra with
    | none => (d, .passed)
    | some loc =>
      let d := d.fixSingles q loc.hdr (fmtHeader f)
      if ! d.cleanAt loc.hdr (fmtHeader f) then (d.poisonRow q ra, .bad 1)
      else match d.plasticRow f ra loc with
        | none => (d, .passed)
        | some x =>
          let d := d.fixSingles q x.body x.b.length
          if ! d.cleanAt x.body x.b.length then (d.poisonRow q ra, .bad x.units) else (d, .row x)

def Dev.readPos (d : Dev) (q k : Nat) : Dev × PosIs :=
  match d.posRa q (d.plasticZones q) k with
  | none => (d, .passed)
  | some x => d.readPlastic q x.1 x.2

def PosIs.units : PosIs → Nat
  | .row x => x.units
  | .bad n => n
  | .listed n => n
  | .passed => 1

/-- Number of synapses of a row. -/
def PRow.count (x : PRow) : Nat := if x.fmt = 6 then hdrCount x.h else 64

/-- Rows from position `k` on that a harvest would visit (R334); `fuel` positions at most. -/
def Dev.rowsLeft (q npos : Nat) : Nat → Nat → Dev → Nat
  | 0, _, _ => 0
  | fuel + 1, k, d =>
    if npos ≤ k then 0
    else
      let y := (d.readPos q k).2
      let n := match y with
        | .row _ => 1
        | .bad _ => 1
        | _ => 0
      n + Dev.rowsLeft q npos fuel (k + y.units) d

/-! ### Work order (R323) -/

/-- The first fire-log position with POST that the post pass has not read. -/
def Dev.nextPost (d : Dev) (q : Nat) : Option Nat :=
  let hd := d.fld (NEU_FLHEAD q) 0 12
  ((upTo (d.rg (NEU_FLCOUNT q))).map (fun k => (hd + k) % 4096)).find? (fun k =>
    ! bitAt (SMap.get 0 (d.core q).flDone k) 1 && bitAt (d.mem.read (d.flBase q + 8 * k + 3)).toNat 0)

/-- The partition is Muted in the present beat of core `q`'s region (R335). -/
def Dev.muteBeat (d : Dev) (q p : Nat) : Bool := d.muted p || bitAt (SMap.get 0 (d.part p).facts (d.region (q / 16)).beat) 0

/-- The budget of the present beat is not spent (R329). -/
def Dev.inBudget (d : Dev) (q : Nat) : Bool :=
  let c := d.core q
  (if c.hBeat = (d.region (q / 16)).beat then c.hSpent else 0) < d.fld (HRV_BUDGET q) 0 24

/-- The first ready job of the harvest engine (R323): 1 a sweep quota, 2 the post pass, 3 a harvest row; 0 none. -/
def Dev.hrvJob (d : Dev) (q p : Nat) : Nat :=
  let c := d.core q
  if c.sweeps.any (fun s => 8 ≤ s.2) then 1
  else if (d.nextPost q).isSome then 2
  else if d.flag (HRV_STAT q) 0 && ! c.hOver && ! d.muteBeat q p && d.inBudget q then 3
  else if c.sweeps.isEmpty then 0 else 1

/-- The harvest engine of core `q` works for partition `p`: assigned, usable, not Choked. -/
def Dev.hrvPart (d : Dev) (q : Nat) : Option Nat :=
  match d.regPart (q / 16), d.logOf q with
  | some p, some _ => if d.choked p then none else some p
  | _, _ => none

/-! ### The post pass (R320 to R322) -/

/-- Word `w` of the REV area: none where it is not read or cannot be (R320). -/
def Dev.revWord (d : Dev) (q w : Nat) : Dev × Option Nat :=
  if d.areaLen (SYN_PMREV q) / 4 ≤ w then (d, none)
  else
    let a := d.areaBase q (SYN_PMREV q) + 4 * w
    let k := 8 * (a / 8)
    match SMap.get 0 d.ecc k with
    | 0 => (d, some (d.rdN a 4))
    | 1 => ({ d with ecc := SMap.set 0 d.ecc k 0 }.bump (SYN_ECCCORR q) 1, some (d.rdN a 4))
    | _ => (d.eccUnc q, none)

def Dev.revErr (d : Dev) (q : Nat) : Dev := (d.bump (HRV_REVERR q) 1).setFlag (HRV_STAT q) 6 true
def Dev.ruleErr (d : Dev) (q : Nat) : Dev := (d.bump (HRV_RULEERR q) 1).setFlag (HRV_STAT q) 8 true

/-- Set an eligibility with saturation (R318, R321). -/
def Dev.satElig (d : Dev) (q : Nat) (x : Int) : Int × Dev :=
  let e := satS 8 x
  (e, if e = x then d else (d.bump (HRV_ESAT q) 1).setFlag (HRV_STAT q) 5 true)

/-- One list word of neuron `i`, which fired in beat `nf` with grade `g` (R321, R658). -/
def Dev.postWord (d : Dev) (q i nf : Nat) (g : Int) (w : Nat) : Dev :=
  let ra := bitsOf w 15 17
  let l := bitsOf w 5 10
  if (d.poisonAt q ra).isSome then d
  else match d.resolve q ra with
    | none => d.revErr q
    | some loc =>
      let f := loc.fmt
      if ! fmtPlastic f then d.revErr q
      else
        let hn := fmtHeader f
        let sa := loc.body + synSize f * l
        let d := (d.fixSingles q loc.hdr hn).fixSingles q sa (synSize f)
        let h := d.rdB loc.hdr hn
        let cnt := hdrCount h
        if ! d.cleanAt loc.hdr hn then d.poisonRow q ra
        else if ! bitAt (hdrFlags h) 0 || (f = 6 && (cnt = 0 || 680 < cnt || loc.lim < loc.body + 6 * cnt)) ||
            (if f = 6 then cnt else 64) ≤ l then d.revErr q
        else if ! d.cleanAt sa (synSize f) then d.poisonRow q ra
        else
          let b := d.rdB sa (synSize f)
          let y := synOf f h (zeros (synSize f * l) ++ b) l
          if y.target ≠ i then d.revErr q
          else if f = 6 && y.age = 255 then d
          else
            let r := d.rule q (hdrRule f h)
            if ! ruleValid r then d.ruleErr q
            else
              let δ := (nf % 65536 + 65536 - hdrLast f h) % 65536
              let pre := if bitAt (hdrFlags h) 1 then 0
                else if 32768 ≤ δ then hdrPre f h
                else (traceUpdate (hdrPre f h) (leAt r 4 4) δ false false 0).1
              let d := d.fixRec q i
              let c := d.core q
              let res := groupResult r 1 (byteAt r 2 % 32)
                { pre := pre, post := recPost (d.readRec q i), md := sInt 8 (d.fld (HRV_MOD q) 0 8), w := y.weight, e := y.elig,
                  grade := g } c.gen
              let d := d.setCore q { c with gen := res.2 }
              let s := d.satElig q (y.elig + res.1)
              (s.2.wrB sa (synBytes f b y.weight y.delay s.1 y.age)).bump64 (HRV_PSYN_LO q) 1

/-- The list words of neuron `i`, from word `w` on (R320, R321). -/
def Dev.postList (q i nf : Nat) (g : Int) : Nat → Nat → Dev → Dev
  | 0, _, d => d
  | n + 1, w, d =>
    let d := if d.areaLen (SYN_PMREV q) / 4 ≤ w then d.revErr q
      else match d.revWord q w with
        | (d, none) => d.revErr q
        | (d, some x) => d.postWord q i nf g x
    Dev.postList q i nf g n (w + 1) d

/-- The post pass reads the oldest POST entry of the fire log (R321, R322). -/
def Dev.postPass (d : Dev) (q : Nat) : Dev :=
  match d.hrvPart q, d.nextPost q with
  | some p, some pos =>
    if d.hrvJob q p ≠ 2 then d
    else
      let e := d.rdB (d.flBase q + 8 * pos) 8
      let i := leAt e 0 2
      let nf := leAt e 4 2
      let y := if d.fld (HRV_REVCFG q) 0 16 ≤ i then (d, none) else d.revWord q i
      let n := match y.2 with | some w => bitsOf w 0 14 | none => 0
      let d := match y.2 with
        | some w => Dev.postList q i nf (sInt 8 (byteAt e 2)) (bitsOf w 0 14) (bitsOf w 14 18) y.1
        | none => y.1
      let d := (d.obsBusy q 2 (2 + 2 * n)).flMark q pos 1
      d.setFlag (HRV_STAT q) 1 (d.nextPost q).isSome
  | _, _ => d

/-! ### Harvest (R329 to R335) -/

/-- Harvest one synapse of a row under rule `r` (R330 to R332): the new bytes. -/
def Dev.harvestSyn (d : Dev) (q : Nat) (r : List Byte) (x : PRow) (l : Nat) (b : List Byte) : Dev × List Byte :=
  let f := x.fmt
  let y := synOf f x.h b l
  if f = 6 && y.age = 255 then (d, b)
  else
    let fl := byteAt r 0
    let lo := max (sInt 8 (byteAt r 8)) (if f = 6 then -128 else -8)
    let hi := min (sInt 8 (byteAt r 9)) (if f = 6 then 127 else 7)
    let v : Env := { pre := hdrPre f x.h, post := 0, md := sInt 8 (d.fld (HRV_MOD q) 8 8), w := y.weight, e := y.elig, grade := 0 }
    let s := groupSum r 2 v
    let room := if 0 < s then hi - y.weight else y.weight - lo
    let dd := if bitAt fl 1 then s * max room 0 else s
    let c := d.core q
    let dw := if (ruleTerms r 2).isEmpty then (0, c.gen) else roundGroup r (byteAt r 3 % 32) dd c.gen
    let w' := if dw.1 = 0 then y.weight else clampI lo hi (y.weight + dw.1)
    let d := if dw.1 ≠ 0 && w' ≠ y.weight + dw.1 then d.bump (HRV_WCLAMP q) 1 else d
    let e' := tz y.elig (2 ^ (byteAt r 10 % 16))
    let dl := if bitAt fl 3 then groupResult r 3 (byteAt r 11 % 32) v dw.2 else (0, dw.2)
    let delay' := if 0 < dl.1 then min 15 (y.delay + 1) else if dl.1 < 0 then y.delay - 1 else y.delay
    let d := if delay' = y.delay then d else d.bump (HRV_DLYCHG q) 1
    let age' := if f = 6 && bitAt fl 4 then
        (if (w'.natAbs) ≤ byteAt r 12 then min 254 (y.age + 1) else 0) else y.age
    let d := (d.setCore q { (d.core q) with gen := dl.2 }).bump64 (HRV_HSYN_LO q) 1
    let off := synSize f * l
    (d, splice b off (synBytes f (slice b off (synSize f)) w' delay' e' age'))

/-- Harvest one row; answers its cost (R330, R333, R658). -/
def Dev.harvestRowAt (d : Dev) (q : Nat) (x : PRow) : Dev × Nat :=
  let r := d.rule q (hdrRule x.fmt x.h)
  if ! bitAt (hdrFlags x.h) 0 then (d, 2)
  else if ! ruleValid r then (d.ruleErr q, 2)
  else
    let y := (upTo x.count).foldl (fun (a : Dev × List Byte) l => a.1.harvestSyn q r x l a.2) (d, x.b)
    (y.1.wrB x.body y.2, if x.fmt = 6 then 4 + ceilDiv x.count 2 else 20)

/-- The harvest of core `q` is complete (R329). -/
def Dev.harvestDone (d : Dev) (q : Nat) : Dev :=
  let c := d.core q
  ((((d.setFlag (HRV_STAT q) 0 false).setFlag (HRV_STAT q) 2 true).setFlag (HRV_STAT q) 3 false).setF (HRV_LASTHB q) 0 16
    (min 65535 c.hBeats)).tocArrive q 7 ((d.regPart (q / 16)).getD 0) 0 0 false

/-- The harvest engine harvests one row or passes one position (R329). -/
def Dev.harvestStep (d : Dev) (q : Nat) : Dev :=
  match d.hrvPart q with
  | none => d
  | some p =>
    if ! d.running p || d.hrvJob q p ≠ 3 then d
    else
      let k := d.fld (HRV_HPTR q) 0 17
      let y := d.readPos q k
      let z : Dev × Nat := match y.2 with
        | .row x => y.1.harvestRowAt q x
        | .bad _ => (y.1, 2)
        | _ => (y.1, 1)
      let d := z.1
      let c := d.core q
      let n := (d.region (q / 16)).beat
      let d := d.setCore q { c with hSpent := (if c.hBeat = n then c.hSpent else 0) + z.2, hBeat := n }
      let d := (d.obsBusy q 2 z.2).setF (HRV_HPTR q) 0 17 (k + y.2.units)
      if d.npos q ≤ k + y.2.units then d.harvestDone q else d

/-- The harvest of core `q` has not ended when beat W of the Season starts (R334). -/
def Dev.harvestOverrun (d : Dev) (q : Nat) : Dev :=
  match d.hrvPart q with
  | none => d
  | some p =>
    if ! (d.core q).hOver then d
    else
      let np := d.npos q
      let left := Dev.rowsLeft q np np (d.fld (HRV_HPTR q) 0 17) d
      let d := d.setCore q { (d.core q) with hOver := false }
      let d := (d.bump (HRV_HSKIP q) left).bump (HRV_OVRCNT q) 1
      let d := ((d.setFlag (HRV_STAT q) 4 true).setFlag (HRV_STAT q) 0 false).setFlag (HRV_STAT q) 3 false
      let season := (d.rg (HRV_SEASONNO q) + 2 ^ 32 - 1) % 2 ^ 32
      let d := d.tocArrive q 6 p left season true
      if d.flag (HRV_CTL q) 2 then d.fault fHarvest [p] (srcCore q) else d.raiseAlarm 0x40 [p]

/-! ### The row sweep (R324) -/

/-- Visit a row: PRE and LAST brought to beat `b`. -/
def Dev.sweepRow (d : Dev) (q b : Nat) (x : PRow) : Dev :=
  let r := d.rule q (hdrRule x.fmt x.h)
  if bitAt (hdrFlags x.h) 1 || ! ruleValid r then d
  else
    let c := d.core q
    let t := traceUpdate (hdrPre x.fmt x.h) (leAt r 4 4) ((b % 65536 + 65536 - hdrLast x.fmt x.h) % 65536) false true c.gen
    let h := if x.fmt = 6 then splice (splice x.h 7 (leBytes 1 t.1)) 8 (leBytes 2 b)
      else splice (splice x.h 5 (leBytes 1 t.1)) 6 (leBytes 2 b)
    (d.setCore q { c with gen := t.2 }).wrB x.hdr h

/-- One position of the oldest row-sweep quota (R323, R324). -/
def Dev.sweepVisit (d : Dev) (q : Nat) : Dev :=
  match d.hrvPart q, (d.core q).sweeps with
  | some p, s :: rest =>
    if d.hrvJob q p ≠ 1 then d
    else
      let np := d.npos q
      let k := d.fld (HRV_SWEEP q) 0 17 % max 1 np
      let y := d.readPos q k
      let d := match y.2 with
        | .row x => y.1.sweepRow q (d.region (q / 16)).beat x
        | _ => y.1
      let n := y.2.units
      let d := d.obsBusy q 2 (match y.2 with | .passed => 1 | _ => 3)
      let d := d.setF (HRV_SWEEP q) 0 17 ((k + n) % max 1 np)
      d.setCore q { (d.core q) with sweeps := if n < s.1 then (s.1 - n, s.2) :: rest else rest }
  | _, _ => d

/-! ### Beat starts of a core (R324 to R327, R329, R334) -/

/-- Apply an armed modulator value at the start of beat `n` (R325). -/
def Dev.applyMod (d : Dev) (q n : Nat) : Dev :=
  let m := d.rg (HRV_MODNEXT q)
  if bitAt m 15 && (n % 65536 + 65536 - bitsOf m 16 16) % 65536 < 32768 then
    let d := (d.setF (HRV_MOD q) 0 8 (bitsOf m 0 8)).setFlag (HRV_MODNEXT q) 15 false
    d.setCore q { (d.core q) with modAt := some n }
  else d

/-- The harvest of the Season that has ended starts (R329); a running copy of the checkpoint is abandoned (R350). -/
def Dev.harvestBegin (d : Dev) (q p : Nat) : Dev :=
  if ! d.flag (HRV_CTL q) 0 then d
  else
    let d := d.ckptAbandon p
    let d := d.setCore q { (d.core q) with hBeats := 1, hSpent := 0, hBeat := (d.region (q / 16)).beat, hOver := false }
    let d := (d.setFlag (HRV_STAT q) 0 true).setF (HRV_HPTR q) 0 17 0
    if d.npos q = 0 then d.harvestDone q else d

/-- What beat `n` of its region starts in core `q`; `first` the first beat after START. -/
def Dev.coreBeatStart (d : Dev) (q p n : Nat) (first : Bool) : Dev :=
  let c := d.core q
  let len := d.fld (HRV_SEASON q) 0 16
  let sc := d.fld (HRV_SCOUNT q) 0 16 + 1
  let turn := ! first && len ≤ sc
  -- the window of a harvest still running closes with beat W (R334)
  let w := min (d.fld (HRV_HWIN q) 0 16) len
  let d := if ! first && d.flag (HRV_STAT q) 0 && w ≤ sc then d.setCore q { c with hOver := true } else
    d.setCore q { c with hBeats := c.hBeats + natOf (d.flag (HRV_STAT q) 0) }
  let d := if turn then d.harvestOverrun q else d
  let d := if first then d
    else if turn then (d.setR (HRV_SCOUNT q) 0).setR (HRV_SEASONNO q) (d.rg (HRV_SEASONNO q) + 1)
    else d.setR (HRV_SCOUNT q) sc
  let d := if first || turn then (d.setF (HRV_MOD q) 8 8 (d.fld (HRV_MOD q) 0 8)).setFlag (HRV_STAT q) 2 false else d
  let d := d.applyMod q n
  let d := if turn then d.harvestBegin q p else d
  let d := d.setFlag (HRV_STAT q) 3 (d.muteBeat q p)
  let quota := ceilDiv (d.npos q) 16384
  let old := (d.core q).sweeps.map (fun s => (s.1, s.2 + 1))
  d.setCore q { (d.core q) with sweeps := if quota = 0 then old else old ++ [(quota, 0)] }

/-- The harvest state of core `q` at BEAT_START (R307, R327, R353). -/
def Dev.harvestReset (d : Dev) (q : Nat) : Dev :=
  let d := ((d.setR (HRV_SCOUNT q) 0).setR (HRV_SEASONNO q) 0).setR (HRV_STAT q) (putBits (d.rg (HRV_STAT q)) 0 4 0)
  let x := d.fresh 48
  let seed := if d.flag (HRV_CTL q) 3 then d.rg (HRV_SEED q) else x.1 % (2 ^ 32 - 1) + 1
  x.2.setCore q { (d.core q) with gen := seed, hBeats := 0, hSpent := 0, hOver := false, sweeps := [], modAt := none }

/-- Complete the MOD_SET commands of partition `p` once every core has applied its value (R357). -/
def Dev.modDone (d : Dev) (p : Nat) : Dev :=
  let qs := d.sitesOf p
  if qs.any (fun q => d.flag (HRV_MODNEXT q) 15) then d
  else
    let last := (qs.filterMap (fun q => (d.core q).modAt)).foldl (fun a b => if 0 ≤ beatSub b a then b else a)
      (((qs.filterMap (fun q => (d.core q).modAt)).head?).getD 0)
    d.endWaiting (fun w => match w.what with | .mod _ => w.hdr.part % 16 == p | _ => false)
      (fun w => match w.what with
        | .mod b => (if beatSub last b ≤ 0 then .ok else .incomplete, leBytes 8 last)
        | _ => (.ok, []))

/-! ### Register writes (R355) -/

/-- A write of `v` to HRV_CTL, HRV_SEASON, HRV_HWIN or HRV_SEED at `a` of core `q`. -/
def Dev.hrvWrite (d : Dev) (q a v : Nat) : Dev :=
  let quiet := match d.regPart (q / 16) with | some p => d.still p | none => true
  let bad := d.setFlag (HRV_STAT q) 7 true
  if a = HRV_CTL q then (if quiet then d.setR a (v % 16 / 4 * 4 + v % 2) else bad)
  else if a = HRV_SEED q then (if v % 2 ^ 32 = 0 then bad else d.setR a v)
  else if quiet && v % 65536 ≠ 0 then d.setR a (v % 65536) else bad

/-! ### Commands (R317, R357) -/

def hrvSpec (op : Nat) (len : List Byte → Bool) (ro : Bool) (rsv : List (Nat × Nat)) : CmdSpec :=
  { opcode := op, issuer := .owner, names := true, ro := ro, len := len, rsv := rsv }

/-- The checks of R317. -/
def ruleOk (r : List Byte) : Bool :=
  let n := byteAt r 1
  let t (k : Nat) := leAt r (16 + 4 * k) 4
  byteAt r 0 < 32 && n ≤ 8 &&
  (upTo 8).all (fun k =>
    let x := t k
    let f1 := bitsOf x 27 3
    let f2 := bitsOf x 24 3
    let late := 2 ≤ x / 2 ^ 30
    if n ≤ k then x = 0
    else f1 ≠ 7 && f2 ≠ 7 && bitsOf x 16 8 = 0 && ! (late && (f1 = 2 || f1 = 6 || f2 = 2 || f2 = 6))) &&
  sInt 8 (byteAt r 8) < sInt 8 (byteAt r 9) &&
  byteAt r 2 ≤ 24 && byteAt r 3 ≤ 24 && byteAt r 11 ≤ 24 && byteAt r 10 ≤ 8 &&
  byteAt r 7 < 2 && leAt r 13 3 = 0 && (r.drop 48).all (· == 0#8)

def cRuleLoad : CmdSpec := hrvSpec 0x0701 (lenIs 72) false (rsvd 3 5)

def Dev.ruleLoad (d : Dev) (h : Hdr) (pl : List Byte) : Dev × Ans :=
  let p := h.part
  let lc := leAt pl 0 2
  let k := byteAt pl 2
  let r := pl.drop 8
  let qs : Except Status (List Nat) := if lc = 0xFFFF then .ok (d.sitesOf p) else (d.lcore p lc).map (fun q => [q])
  match qs with
  | .error s => (d, .st s)
  | .ok qs =>
    if ! d.still p then (d, .st .busy)
    else if 16 ≤ k || ! ruleOk r then (d, .st .denied)
    else
      (d.forEach qs (fun d q =>
        let c := d.core q
        (d.setCore q { c with rules := SMap.set [] c.rules k r }).setFlag (HRV_RULEVALID q) k (ruleValid r)), .st .ok)

def cRuleRead : CmdSpec := hrvSpec 0x0702 (lenIs 8) true (rsvd 3 5)

def Dev.ruleRead (d : Dev) (h : Hdr) (pl : List Byte) : Dev × Ans :=
  d.onCore h.part (leAt pl 0 2) (fun q =>
    if 16 ≤ byteAt pl 2 then (d, .st .denied) else (d, .done .ok 0 (padTo 64 (d.rule q (byteAt pl 2)))))

/-- Ticks of NSLOT × EVERY × LENGTH × period below which a Keep configuration is refused (R348). -/
def keepTicks : Nat := 1262304000000

/-- A period and Season length under which the Keep checkpoint of `p` would wear its blocks too fast (R348). A command that
leaves the product as it is makes no test. -/
def Dev.ckptTooFast (d : Dev) (p per len : Nat) : Bool :=
  let c := (d.part p).ckpt
  bitAt c.flags 0 && c.nslot * c.every * len * per < keepTicks

/-- HRV_SEASON.LENGTH of partition `p`: of its first usable core. -/
def Dev.seasonLen (d : Dev) (p : Nat) : Nat :=
  match d.sitesOf p with
  | q :: _ => d.fld (HRV_SEASON q) 0 16
  | [] => 1000

def cSeasonConfig : CmdSpec := hrvSpec 0x0703 (lenIs 16) false ([(8, 0xF8)] ++ rsvd 9 7)

def Dev.seasonConfig (d : Dev) (h : Hdr) (pl : List Byte) : Dev × Ans :=
  let p := h.part
  let len := leAt pl 0 2
  let win := leAt pl 2 2
  let bud := leAt pl 4 4
  let fl := byteAt pl 8
  if ! d.still p then (d, .st .busy)
  else if len = 0 || win = 0 || bud = 0 || 2 ^ 24 ≤ bud || (len ≠ d.seasonLen p && d.ckptTooFast p (d.fld (TAB_BPERIOD p) 0 29) len) then (d, .st .denied)
  else
    (d.forEach (d.sitesOf p) (fun d q =>
      (((d.setR (HRV_SEASON q) len).setR (HRV_HWIN q) win).setR (HRV_BUDGET q) bud).setR (HRV_CTL q)
        (bitsOf fl 0 1 + 4 * bitsOf fl 1 1 + 8 * bitsOf fl 2 1)), .st .ok)

def cModSet : CmdSpec := hrvSpec 0x0704 (lenIs 8) false (rsvd 1 1)

def Dev.modSet (d : Dev) (h : Hdr) (pl : List Byte) : Dev × Ans :=
  let b := leAt pl 2 6
  (d.forEach (d.sitesOf h.part) (fun d q => d.setR (HRV_MODNEXT q) (b % 65536 * 65536 + 32768 + byteAt pl 0)), .wait (.mod b))

def cSeedSet : CmdSpec := hrvSpec 0x0705 (lenIs 8) false (rsvd 4 4)

def Dev.seedSet (d : Dev) (h : Hdr) (pl : List Byte) : Dev × Ans :=
  if ! d.still h.part then (d, .st .busy)
  else if leAt pl 0 4 = 0 then (d, .st .denied)
  else (d.forEach (d.sitesOf h.part) (fun d q => d.setR (HRV_SEED q) (leAt pl 0 4)), .st .ok)

def cRevLoad : CmdSpec :=
  hrvSpec 0x0706 (fun pl => 16 ≤ pl.length && pl.length == 16 + 4 * leAt pl 8 4) false (rsvd 12 4)

def Dev.revLoad (d : Dev) (h : Hdr) (pl : List Byte) : Dev × Ans :=
  d.onCore h.part (leAt pl 0 2) (fun q =>
    let nd := leAt pl 2 2
    let f := leAt pl 4 4
    let n := leAt pl 8 4
    let words := d.areaLen (SYN_PMREV q) / 4
    if ! d.still h.part then (d, .st .busy)
    else if words < nd || words < f + n then (d, .st .denied)
    else
      let l := (pl.drop 16).take (4 * n)
      ((d.csWrite q (d.areaBase q (SYN_PMREV q) + 4 * f) l l.length).setR (HRV_REVCFG q) nd, .st .ok))

def cHrvStatus : CmdSpec := hrvSpec 0x070C (lenIs 8) true (rsvd 2 6)

def Dev.hrvStatus (d : Dev) (h : Hdr) (pl : List Byte) : Dev × Ans :=
  d.onCore h.part (leAt pl 0 2) (fun q => (d, .done .ok 0 (d.regBytes (HRV_CTL q) 29)))

end Sys2Proof.Machine
end

