-- ==== Sys2Proof/Machine/Ckpt.lean ====
section
/-! DEFINITION. Saving and restoring learned weights (R344 to R352, R357, R358). -/

namespace Sys2Proof.Machine

/-! ### Images (R346, R347) -/

/-- A payload record (R347): kind, format, unit, offset and data. -/
def payRec (kind fmt unit off : Nat) (data : List Byte) : List Byte :=
  leBytes 1 kind ++ leBytes 1 fmt ++ leBytes 2 unit ++ leBytes 4 off ++ leBytes 8 data.length ++ zeros 16 ++
    padTo (32 * ceilDiv data.length 32) data

/-- What an image of partition `p` holds: kind, format, unit, offset, local address and length of each record. -/
def Dev.imageParts (d : Dev) (p : Nat) (axons : Bool) : List (Nat × Nat × Nat × Nat × Nat × Nat) :=
  let cores := ((d.regionsOf p).map d.coresOf).flatten
  (cores.map (fun c =>
    let q := c.2
    (d.plasticZones q).map (fun z =>
      let off := 65536 * z.1
      (1, z.2.1, c.1, off, csBase q + off, 65536 * d.fld (SYN_ZCFG q z.2.2.2) 8 6)) ++
    (if d.areaLen (SYN_PMREV q) = 0 then [] else
      [(2, 0, c.1, 65536 * d.fld (SYN_PMREV q) 0 6, d.areaBase q (SYN_PMREV q), d.areaLen (SYN_PMREV q))]))).flatten ++
  (if axons then
    (upTo 2).filterMap (fun die =>
      if d.flag (AXN_PBASE die p) 31 then
        let b := d.fld (AXN_PBASE die p) 0 22
        some (3, 0, die, b, axAddr die b, 8 * (d.fld (AXN_PLIMIT die p) 0 22 + 1 - b))
      else none)
   else [])

/-- Payload bytes of an image. -/
def Dev.imageLen (d : Dev) (p : Nat) (axons : Bool) : Nat :=
  ((d.imageParts p axons).map (fun x => 32 + 32 * ceilDiv x.2.2.2.2.2 32)).sum

/-- The 128-byte header and the payload of an image of partition `p` with checkpoint number `seq` (R346). -/
def Dev.imageOf (d : Dev) (p seq : Nat) : List Byte :=
  let ax := bitAt (d.part p).ckpt.flags 2
  let parts := d.imageParts p ax
  let pay := (parts.map (fun x => payRec x.1 x.2.1 x.2.2.1 x.2.2.2.1 (d.rdB x.2.2.2.2.1 x.2.2.2.2.2))).flatten
  let season := match d.sitesOf p with
    | q :: _ => (d.rg (HRV_SEASONNO q) + 2 ^ 32 - 1) % 2 ^ 32
    | [] => 0
  let hd := leBytes 4 0x544B4347 ++ leBytes 2 1 ++ leBytes 1 p ++ leBytes 1 (natOf ax) ++ leBytes 8 seq ++ leBytes 8 (d.beat p) ++
    leBytes 4 season ++ leBytes 4 parts.length ++ leBytes 8 pay.length ++ zeros 24
  hd ++ padTo 64 (Config.sha3_512 (hd ++ pay)) ++ pay

/-! ### Slots (R345) -/

/-- A slot's content is a checkpoint of partition `p` (R346, R351). -/
def slotNamed (p : Nat) (x : List Byte) : Bool :=
  leAt x 0 4 = 0x544B4347 && leAt x 4 2 = 1 && byteAt x 6 = p

/-- Its digest verifies. -/
def slotGood (x : List Byte) : Bool :=
  let pay := (x.drop 128).take (leAt x 32 8)
  (x.drop 64).take 64 == padTo 64 (Config.sha3_512 (x.take 64 ++ pay))

/-- The newest valid slot of partition `p`: its number and content. -/
def Dev.newestSlot (d : Dev) (p : Nat) : Option (Nat × List Byte) :=
  (d.part p).ckpt.slots.foldl (fun a c =>
    if slotNamed p c.2 && slotGood c.2 then
      match a with
      | none => some c
      | some b => if leAt b.2 8 8 < leAt c.2 8 8 then some c else a
    else a) none

/-- A Keep copy may start now (R349): an interval of 3,155.76 s ÷ NSLOT on the RTC has passed since the last commit. -/
def Dev.keepPaced (d : Dev) (p : Nat) : Bool :=
  let c := (d.part p).ckpt
  match c.commit with
  | none => true
  | some t => 315576 * 32768 ≤ ((d.rtc + 2 ^ 48 - t) % 2 ^ 48) * max 1 c.nslot * 100

/-- A TEND of partition `p` runs (R336): an S-core of it waits at a TEND descriptor. -/
def Dev.tendOn (d : Dev) (p : Nat) : Bool :=
  (d.regionsOf p).any (fun r => d.seqState r == 2 && dOpc (d.seqDesc r) == 0x13)

/-- A harvest of partition `p` is in progress (R336): some core harvests or some TEND runs. -/
def Dev.harvestOn (d : Dev) (p : Nat) : Bool :=
  (d.sitesOf p).any (fun q => d.flag (HRV_STAT q) 0) || d.tendOn p

/-- Start a copy (R345, R352): to the Keep, to the host, or both. -/
def Dev.ckptBegin (d : Dev) (p : Nat) (keep host : Bool) : Dev :=
  let x := d.part p
  let c := x.ckpt
  let slot := match d.newestSlot p with
    | some s => (s.1 + 1) % max 1 c.nslot
    | none => 0
  let seq := c.seq + 1
  let img := d.imageOf p seq
  let fits := 1 + ceilDiv (img.length - 128) 65536 ≤ c.blocks
  let keep := keep && fits
  if ! keep && ! host then d
  else
    d.setPart p { x with ckpt := { c with
      copy := some (slot, seq), image := img, toKeep := keep, toHost := host,
      slots := if keep then SMap.set [] c.slots slot [] else c.slots,
      erases := if keep then (upTo c.blocks).foldl (fun m j => let k := slot * c.blocks + j; SMap.set 0 m k (SMap.get 0 m k + 1)) c.erases
        else c.erases } }

/-- The commands of partition `p` that wait for a copy end. -/
def Dev.ckptEnd (d : Dev) (p seq : Nat) : Dev :=
  d.endWaiting (fun w => w.what == .ckpt && w.hdr.part % 16 == p) (fun _ => (.ok, leBytes 8 seq))

/-- Harvest and tend of a saved Season have ended: Carillon starts the copy (R344, R349). -/
def Dev.ckptStart (d : Dev) (p : Nat) : Dev :=
  let x := d.part p
  let c := x.ckpt
  match d.sitesOf p with
  | [] => d
  | q :: _ =>
    let n := d.rg (HRV_SEASONNO q)
    let ended := (d.sitesOf p).all (fun q => (d.flag (HRV_STAT q) 2 || d.flag (HRV_CTL q) 0) && d.rg (HRV_SEASONNO q) = n && ! d.flag (HRV_STAT q) 0 &&
      ! (d.core q).hOver)
    if c.flags % 4 = 0 || ! d.running p || n = 0 || n % max 1 c.every ≠ 0 || c.saved == some n || ! ended || d.tendOn p ||
        c.copy.isSome || d.muted p then d
    else
      let keep := bitAt c.flags 0
      let go := keep && d.keepPaced p
      let d := d.setPart p { x with ckpt := { c with saved := some n, skips := c.skips + natOf (keep && ! go) } }
      d.ckptBegin p go (bitAt c.flags 1)

/-- The payload is programmed and verified, and the header committed (R345, R349). -/
def Dev.ckptCommit (d : Dev) (p : Nat) : Dev :=
  let x := d.part p
  let c := x.ckpt
  match c.copy with
  | none => d
  | some (slot, seq) =>
    if ! c.toKeep then d
    else
      let d := d.setPart p { x with ckpt := { c with
        slots := SMap.set [] c.slots slot c.image, commit := some d.rtc, seq := seq, toKeep := false,
        copy := if c.toHost then c.copy else none, image := if c.toHost then c.image else [] } }
      d.ckptEnd p seq

/-- The image goes to the host buffer through channel 2p + 1, its header last (R352, R464). -/
def Dev.hostExport (d : Dev) (p : Nat) : Dev :=
  let x := d.part p
  let c := x.ckpt
  match c.copy with
  | none => d
  | some (_, seq) =>
    if ! c.toHost || c.toKeep || ! d.flag (PCI_DMACFG (2 * p + 1)) 31 || (p = 0 && d.d3hot) then d
    else
      let f := d.requester p
      let d := (d.emit (.hostWrite f (c.hostAddr + 128) (c.image.drop 128))).emit (.hostWrite f c.hostAddr (c.image.take 128))
      let d := d.setPart p { x with ckpt := { c with copy := none, image := [], toHost := false, seq := seq } }
      d.ckptEnd p seq

/-! ### Restore (R351) -/

/-- The records of a payload: kind, format, unit, offset, data; `n` at most. -/
def payRecs : Nat → List Byte → List (Nat × Nat × Nat × Nat × List Byte)
  | 0, _ => []
  | n + 1, l =>
    let len := leAt l 8 8
    (byteAt l 0, byteAt l 1, leAt l 2 2, leAt l 4 4, slice l 32 len) :: payRecs n (l.drop (32 + 32 * ceilDiv len 32))

/-- A record falls wholly in a zone of its format, in the REV area or in the axon range (R351). -/
def Dev.recordInside (d : Dev) (p : Nat) (x : Nat × Nat × Nat × Nat × List Byte) : Bool :=
  let len := x.2.2.2.2.length
  let off := x.2.2.2.1
  let u := x.2.2.1
  if x.1 = 3 then
    u < 2 && off % 1 = 0 && len % 8 = 0 && (len = 0 || (d.inRange u p off && d.inRange u p (off + len / 8 - 1)))
  else if ! d.owns p (u / 16) then false
  else match d.physOf u with
    | none => false
    | some q =>
      if x.1 = 1 then
        (d.plasticZones q).any (fun z => z.2.1 == x.2.1 && 65536 * z.1 ≤ off &&
          off + len ≤ 65536 * (z.1 + d.fld (SYN_ZCFG q z.2.2.2) 8 6))
      else x.1 = 2 && 65536 * d.fld (SYN_PMREV q) 0 6 ≤ off && off + len ≤ 65536 * d.fld (SYN_PMREV q) 0 6 + d.areaLen (SYN_PMREV q)

/-- Write one record in place. -/
def Dev.restoreRecord (d : Dev) (x : Nat × Nat × Nat × Nat × List Byte) : Dev :=
  let l := x.2.2.2.2
  if x.1 = 3 then
    let a := axAddr x.2.2.1 x.2.2.2.1
    let d := d.wrB a l
    { d with ecc := SMap.clear d.ecc a (a + l.length) }
  else match d.physOf x.2.2.1 with
    | none => d
    | some q => d.csWrite q (csBase q + x.2.2.2.1) l l.length

/-- A plastic row after a restore: NEVER set, PRE, LAST and eligibilities 0; weights, delays and AGE kept (R351). -/
def Dev.cleanRow (d : Dev) (x : PRow) : Dev :=
  let h := splice x.h 4 (leBytes 1 (putBits (hdrFlags x.h) 1 1 1))
  let h := if x.fmt = 6 then splice (splice h 7 (zeros 1)) 8 (zeros 2) else splice (splice h 5 (zeros 1)) 6 (zeros 2)
  let b := (upTo x.count).foldl (fun b l =>
    let y := synOf x.fmt x.h b l
    let o := synSize x.fmt * l
    splice b o (synBytes x.fmt (slice b o (synSize x.fmt)) y.weight y.delay 0 y.age)) x.b
  (d.wrB x.hdr h).wrB x.body b

/-- The plastic row at position `k` of core `q`, read from its bytes whether or not the poison table lists it. -/
def Dev.restoredRow (d : Dev) (q k : Nat) : Option PRow :=
  match d.posRa q (d.plasticZones q) k with
  | none => none
  | some x => (d.resolve q x.2).bind (d.plasticRow x.1 x.2)

/-- The plastic rows of core `q` in the byte range of a restored zone record, cleaned, the poison-listed ones too; `fuel`
positions at most. -/
def Dev.cleanRows (q lo hi npos : Nat) : Nat → Nat → Dev → Dev
  | 0, _, d => d
  | fuel + 1, k, d =>
    if npos ≤ k then d
    else match d.restoredRow q k with
      | some x =>
        Dev.cleanRows q lo hi npos fuel (k + x.units) (if lo ≤ 32 * x.ra && 32 * x.ra < hi then d.cleanRow x else d)
      | none => Dev.cleanRows q lo hi npos fuel (k + 1) d

def Dev.ckptRestore (d : Dev) (h : Hdr) (_pl : List Byte) : Dev × Ans :=
  let p := h.part
  let c := (d.part p).ckpt
  if ! (d.still p || d.bstate p = 4) then (d, .st .busy)
  else if ! c.slots.any (fun s => slotNamed p s.2) then (d, .st .noResource)
  else match d.newestSlot p with
    | none => (d, .st .signatureFail)
    | some s =>
      let recs := payRecs (leAt s.2 28 4) (s.2.drop 128)
      if ! recs.all (d.recordInside p) then (d, .st .denied)
      else
        let d := d.forEach recs Dev.restoreRecord
        let d := d.forEach (recs.filter (fun x => x.1 == 1)) (fun d x =>
          match d.physOf x.2.2.1 with
          | none => d
          | some q =>
            let n := d.npos q
            Dev.cleanRows q x.2.2.2.1 (x.2.2.2.1 + x.2.2.2.2.length) n n 0 d)
        let d := d.forEach (d.sitesOf p) (fun d q => (d.setR (HRV_SCOUNT q) 0).setR (HRV_SEASONNO q) 0)
        let d := if d.choked p then
            let d := (d.setFlag (FLT_PMUTE p) 9 false).setFlag (FLT_PMUTE p) 7 false
            d.setFlag (FLT_PMUTE p) 8 (d.muted p)
          else d
        ((d.setF (TAB_BSTAT p) 16 3 0).taborPart p, .done .ok 0 (leBytes 8 (leAt s.2 8 8)))

/-! ### Commands (R345, R348, R349, R357, R358) -/

def cCkptConfig : CmdSpec := hrvSpec 0x0707 (lenIs 32) false ([(0, 0xF8)] ++ rsvd 1 1 ++ rsvd 24 8)

def Dev.ckptConfig (d : Dev) (h : Hdr) (pl : List Byte) : Dev × Ans :=
  let p := h.part
  let x := d.part p
  let c := x.ckpt
  let fl := byteAt pl 0
  let ev := leAt pl 2 2
  let nb := leAt pl 4 4
  let ha := leAt pl 8 8
  let hs := leAt pl 16 8
  let pay := d.imageLen p (bitAt fl 2)
  let b := 1 + ceilDiv pay 65536
  let ns := nb / b
  if d.harvestOn p then (d, .st .busy)
  else if ev = 0 || (bitAt fl 0 && ns < 2) ||
      (bitAt fl 0 && ns * ev * d.seasonLen p * d.fld (TAB_BPERIOD p) 0 29 < keepTicks) ||
      (bitAt fl 1 && (hs < 128 + pay || ha % 64 ≠ 0)) then (d, .st .denied)
  else if c.quota < nb then (d, .st .noResource)
  else
    let same := b = c.blocks && ns = c.nslot
    (d.setPart p { x with ckpt := { c with
      flags := fl, every := ev, nblocks := nb, hostAddr := ha, hostSize := hs, blocks := b, nslot := ns,
      slots := if same then c.slots else [] } }, .st .ok)

def cCkptNow : CmdSpec := hrvSpec 0x0708 (lenIs 0) false []

/-- A CKPT_NOW or an S-core's CKPT of partition `p`: how it is refused, or a copy started (R349). -/
def Dev.ckptAsk (d : Dev) (p : Nat) : Dev × Option Status :=
  let c := (d.part p).ckpt
  if d.harvestOn p || c.copy.isSome || (bitAt c.flags 0 && ! d.keepPaced p) then (d, some .busy)
  else if c.flags % 4 = 0 || d.muted p then (d, some .incomplete)
  else
    let d := d.ckptBegin p (bitAt c.flags 0) (bitAt c.flags 1)
    (d, if (d.part p).ckpt.copy.isSome then none else some .incomplete)

def Dev.ckptNow (d : Dev) (h : Hdr) (_pl : List Byte) : Dev × Ans :=
  match d.ckptAsk h.part with
  | (d, some s) => (d, .st s)
  | (d, none) => (d, .wait .ckpt)

def cCkptRestore : CmdSpec := hrvSpec 0x0709 (lenIs 0) false []

def cCkptStatus : CmdSpec := hrvSpec 0x070A (lenIs 0) true []

def Dev.ckptStatus (d : Dev) (h : Hdr) (_pl : List Byte) : Dev × Ans :=
  let c := (d.part h.part).ckpt
  let s := d.newestSlot h.part
  let seq := match s with | some x => leAt x.2 8 8 | none => 0
  let beat := match s with | some x => leAt x.2 16 6 | none => 0
  let er := (c.erases.map Prod.snd).foldl max 0
  (d, .done .ok 0 (leBytes 1 c.flags ++ zeros 1 ++ leBytes 2 c.every ++ leBytes 4 c.blocks ++ leBytes 8 seq ++ leBytes 6 beat ++
    leBytes 2 c.nslot ++ leBytes 4 er ++ leBytes 2 (min 65535 c.abandoned) ++ leBytes 2 (min 65535 c.skips)))

def cCkptQuota : CmdSpec :=
  { opcode := 0x070B, issuer := .pf, names := false, ro := false, len := lenIs 8, rsv := rsvd 1 3, ready := true }

def Dev.ckptQuota (d : Dev) (_h : Hdr) (pl : List Byte) : Dev × Ans :=
  let p := byteAt pl 0
  let n := leAt pl 4 4
  let others := (((upTo 16).filter (· ≠ p)).map (fun k => (d.part k).ckpt.quota)).sum
  if 16 ≤ p then (d, .st .denied)
  else if bitAt (d.part p).ckpt.flags 0 then (d, .st .busy)
  else if 14336 < others + n then (d, .st .noResource)
  else
    let x := d.part p
    (d.setPart p { x with ckpt := { x.ckpt with quota := n } }, .st .ok)

end Sys2Proof.Machine
end

