-- ==== Sys2Proof/Machine/CoreBeat.lean ====
section
/-! DEFINITION. What starts, resumes and ends of beats do in cores and regions, and the records of ended beats (R78, R93,
R125, R149, R213, R216, R223, R225, R307, R326, R327, R662). -/

namespace Sys2Proof.Machine

/-- The partition of logical core `n`. -/
def Dev.logPart (d : Dev) (n : Nat) : Option Nat := d.regPart (n / 16)

/-- The beat before `f`. -/
def beatBefore (f : Nat) : Nat := (f + 2 ^ 48 - 1) % 2 ^ 48

/-- Region `r` before its first beat `f` (R225). -/
def Dev.startRegion (d : Dev) (r f : Nat) : Dev :=
  let d := d.rekeyFar r f
  d.setRegion r { (d.region r) with beat := beatBefore f, started := false, held := [], clearing := none }

/-- Core `q` before its first beat `f` (R125, R149, R307, R327, R662). -/
def Dev.startCore (d : Dev) (q f : Nat) : Dev :=
  let d := d.restamp q f true
  let d := (d.clearRings q).2
  let d := d.emptyFireLog q
  let d := d.harvestReset q
  let d := d.setCore q { (d.core q) with integ := some (beatBefore f), final := some (beatBefore f), farOut := [], hang := 0 }
  (d.setPtr q f).relistAll q

/-- Core `q` resumes with beat `f` after the Muffled beat `m` (R93, R125, R149, R225). -/
def Dev.resumeCore (d : Dev) (q f : Nat) (skip : Bool) : Dev :=
  let d := d.restamp q f false
  if skip then
    let x := d.clearRings q
    let d := x.2.bump (SYN_RINGDISCARD q) x.1
    let d := d.resumeNear q (beatBefore (d.core q).ptr) f
    d.setCore q { (d.core q) with integ := some (beatBefore f), final := some (beatBefore f), farOut := [] }
  else d

/-- Region `r` resumes with beat `f`. -/
def Dev.resumeRegion (d : Dev) (r f : Nat) (skip : Bool) : Dev :=
  if skip then d.setRegion r { (d.region r) with beat := beatBefore f, mig := f } else d

/-- The ticks by which region `r` of partition `p` starts a beat after the partition (R78). -/
def Dev.regionOffset (d : Dev) (p r : Nat) : Nat := min (d.fld (TAB_CHOFF r) 0 26) (d.fld (TAB_BPERIOD p) 0 29 / 8)

/-- The ticks up to the start of region `r`'s present beat pass. -/
def Dev.toOffset (d : Dev) (p r n : Nat) : Dev :=
  if n = d.beat p && d.rg (TAB_BCOUNT p) < d.regionOffset p r then d.advance (d.regionOffset p r - d.rg (TAB_BCOUNT p)) else d

/-- Region `r` starts its next beat at its channel offset, up to which ticks pass (R78; log entry 4). -/
def Dev.regionBeatStart (d : Dev) (r : Nat) : Dev :=
  match d.regPart r with
  | none => d
  | some p =>
    let g := d.region r
    if ! d.running p || beatSub (d.beat p) g.beat ≤ 0 then d
    else
      let n := (g.beat + 1) % 2 ^ 48
      let d := d.toOffset p r n
      let first := ! g.started
      let qs := (d.coresOf r).map Prod.snd
      -- a core that alone has kept the region from FINAL for another beat (R608)
      let late (d : Dev) (q : Nat) : Bool := ! first && (match (d.core q).final with
        | some b => decide (beatSub b g.beat < 0)
        | none => true)
      let d := d.forEach qs (fun d q =>
        if late d q && (qs.filter (· ≠ q)).all (fun x => ! late d x) then
          d.setCore q { (d.core q) with hang := (d.core q).hang + 1 } else d)
      let d := d.setRegion r { (d.region r) with beat := n, started := true }
      let d := d.forEach qs (fun d q => d.coreBeatStart q p n first)
      let d := d.modDone p
      if d.readoutRegion p == some r then d.readoutClear r n else d

/-- Frame `n` of partition `p` closes as beat `n` settles (R213, R216). -/
def Dev.closeFrames (d : Dev) (p n : Nat) : Dev :=
  match d.readoutRegion p with
  | none => d
  | some r =>
    let f := SMap.get 0 (d.part p).facts n
    let ok := bitAt f 2 && ! bitAt f 0
    (d.setR (AXN_RFRAME_LO r) (n % 2 ^ 32)).setR (AXN_RFRAME_HI r) (natOf ok * 2 ^ 31 + n / 2 ^ 32 % 65536)

/-- The records that end beat `n`: FRAME, where REXPORT asks for one, and BEATEND (R223). -/
def Dev.endRecords (d : Dev) (p n : Nat) (unsettled : Bool) : Dev × List OutRec :=
  let f := SMap.get 0 (d.part p).facts n
  let fr : Dev × List OutRec := match d.readoutRegion p with
    | none => (d, [])
    | some r =>
      let k := d.fld (AXN_RCFG r) 0 17
      if k = 0 then (d, [])
      else if bitAt f 2 then
        let x := d.cmnRd r (d.frameAddr r n 0) (4 * k)
        let slots := (upTo k).map (fun i => leAt x.2 (4 * i) 4)
        (x.1, [.frame n (natOf (! bitAt f 0) + 2 * natOf (SMap.get false (d.region r).frSat (n % 2))) slots])
      else (d, [.frame n 0 []])
  (fr.1, fr.2 ++ [.beatEnd n (natOf (bitAt f 0) + 2 * natOf (bitAt f 1) + 4 * natOf unsettled)])

end Sys2Proof.Machine
end

