-- ==== Sys2Proof/Machine/Num.lean ====
section
/-! DEFINITION. Number formats (R362) and arithmetic rounded once: a real value is an exact dyadic number, an integer
times a power of two; binary32 rounds to nearest even and an overflow gives the largest finite value (R258, R275,
R369). -/

namespace Sys2Proof.Machine

/-- The dyadic number `m` × 2^`e`. -/
structure Dy where
  m : Int
  e : Int
  deriving DecidableEq, Repr, Inhabited

/-- What an element of a format stands for. -/
inductive Num
  | fin (x : Dy) (negZero : Bool)
  | inf (neg : Bool)
  | nan
  deriving DecidableEq, Repr, Inhabited

def Dy.zero : Dy := ⟨0, 0⟩

/-- `x` as a multiple of 2^`k`, for `k` at most its exponent. -/
def Dy.at (x : Dy) (k : Int) : Int := x.m * ((2 ^ (x.e - k).toNat : Nat) : Int)

def Dy.add (x y : Dy) : Dy := let k := min x.e y.e; ⟨x.at k + y.at k, k⟩
def Dy.mul (x y : Dy) : Dy := ⟨x.m * y.m, x.e + y.e⟩
def Dy.neg (x : Dy) : Dy := ⟨-x.m, x.e⟩
def Dy.abs (x : Dy) : Dy := ⟨x.m.natAbs, x.e⟩
def Dy.lt (x y : Dy) : Bool := let k := min x.e y.e; decide (x.at k < y.at k)
/-- `x` × 2^`k`. -/
def Dy.scale (x : Dy) (k : Int) : Dy := ⟨x.m, x.e + k⟩

/-- floor(log2 |x|), for x not 0. -/
def Dy.log2 (x : Dy) : Int := (Nat.log2 x.m.natAbs : Int) + x.e

/-- |x| ÷ 2^`q`, its floor and the remainder in 256ths, and whether anything is left over beyond the floor: below, at or
above one half. -/
def Dy.steps (x : Dy) (q : Int) : Nat × Nat × Ordering :=
  let a := x.m.natAbs
  if q ≤ x.e then (a * 2 ^ (x.e - q).toNat, 0, .lt)
  else
    let w := (q - x.e).toNat
    let r := a % 2 ^ w
    (a / 2 ^ w, r * 256 / 2 ^ w, compare (2 * r) (2 ^ w))

/-- |x| ÷ 2^`q` rounded to the nearest integer, ties to even. -/
def Dy.roundEven (x : Dy) (q : Int) : Nat :=
  let s := x.steps q
  match s.2.2 with
  | .lt => s.1
  | .gt => s.1 + 1
  | .eq => s.1 + s.1 % 2

/-- The nearest integer to `x`, ties to even. -/
def Dy.toInt (x : Dy) : Int := let n : Int := x.roundEven 0; if x.m < 0 then -n else n

/-! ### binary32 -/

/-- The binary32 nearest to `x`, and whether it overflowed to the largest finite value. -/
def Dy.toF32 (x : Dy) : Nat × Bool :=
  let s := if x.m < 0 then 2 ^ 31 else 0
  if x.m = 0 then (0, false)
  else
    let q := max (x.log2 - 23) (-149)
    let bits := (q + 149).toNat * 2 ^ 23 + x.roundEven q
    if 0x7F800000 ≤ bits then (s + 0x7F7FFFFF, true) else (s + bits, false)

/-- What a binary32 stands for. -/
def f32 (w : Nat) : Num :=
  let e := bitsOf w 23 8
  let f := bitsOf w 0 23
  let neg := bitAt w 31
  if e = 255 then (if f = 0 then .inf neg else .nan)
  else
    let m : Int := if e = 0 then f else 2 ^ 23 + f
    .fin ⟨if neg then -m else m, (max e 1 : Int) - 150⟩ (neg && m == 0)

/-- A result of binary32 arithmetic: its bits, whether it overflowed, whether a NaN was met, and whether IEEE 754 gives
it no number (an infinity less an infinity, an infinity times zero). -/
structure FRes where
  bits : Nat
  sat  : Bool
  nan  : Bool
  isOpen : Bool
  deriving DecidableEq, Repr, Inhabited

def infBits (neg : Bool) : Nat := 0x7F800000 + (if neg then 2 ^ 31 else 0)

/-- A NaN input counts as zero. -/
def Num.clean : Num → Num × Bool
  | .nan => (.fin Dy.zero false, true)
  | x => (x, false)

/-- a + b in binary32, nearest even; overflow gives the largest finite value; a NaN input counts as zero (R258, R275). -/
def f32Add (a b : Nat) : FRes :=
  let x := (f32 a).clean
  let y := (f32 b).clean
  let nan := x.2 || y.2
  match x.1, y.1 with
  | .fin u zu, .fin v zv =>
    let r := (u.add v).toF32
    ⟨if zu && zv then 2 ^ 31 else r.1, r.2, nan, false⟩
  | .inf s, .inf t => if s == t then ⟨infBits s, false, nan, false⟩ else ⟨0, false, nan, true⟩
  | .inf s, _ => ⟨infBits s, false, nan, false⟩
  | _, .inf t => ⟨infBits t, false, nan, false⟩
  | _, _ => ⟨0, false, nan, false⟩

/-- a × b in binary32, likewise. -/
def f32Mul (a b : Nat) : FRes :=
  let x := (f32 a).clean
  let y := (f32 b).clean
  let nan := x.2 || y.2
  let neg := bitAt a 31 != bitAt b 31
  match x.1, y.1 with
  | .fin u _, .fin v _ =>
    let r := (u.mul v).toF32
    ⟨if (u.mul v).m = 0 && neg then 2 ^ 31 else r.1, r.2, nan, false⟩
  | .inf _, .inf _ => ⟨infBits neg, false, nan, false⟩
  | .inf _, .fin v _ => if v.m = 0 then ⟨0, false, nan, true⟩ else ⟨infBits neg, false, nan, false⟩
  | .fin u _, .inf _ => if u.m = 0 then ⟨0, false, nan, true⟩ else ⟨infBits neg, false, nan, false⟩
  | _, _ => ⟨0, false, nan, false⟩

/-- The 16 lanes of a 64-byte word. -/
def lanesOf (w : List Byte) : List Nat := (upTo 16).map (fun i => leAt w (4 * i) 4)

end Sys2Proof.Machine
end

