-- ==== Sys2Proof/Machine/Fabric.lean ====
section
/-! DEFINITION. Fabric ports, routes and trees, packets in transit, class 0 flits, collectives and the Rudiment's
commands (R235 to R283). -/

namespace Sys2Proof.Machine

/-! ### Ports (R263, R264, R270, R279) -/

def portCtl (q : Nat) : Nat := FAB_PCTL (q / 4) (q % 4)
/-- STATE of port `q`; a change arrives at the device Tocsin (R499). -/
def Dev.setPort (d : Dev) (q s : Nat) : Dev :=
  if d.portState q = s then d else (d.setF (portStat q) 0 3 s).tocArrive 288 24 0 q s false

/-- Carillon's policy vote on the domain of port `q` (R576). -/
def Dev.portVote (d : Dev) (q : Nat) : Dev :=
  d.setVote cliPolicy (domPort q) (if d.flag (portCtl q) 0 || d.portState q = 4 then 2 else 0)

/-- Packets that came in by port `q` and still wait elsewhere return no credit to it any longer. -/
def Dev.cutInput (d : Dev) (q : Nat) : Dev :=
  d.forEach (upTo 10) (fun d k =>
    let x := d.oport k
    d.setOport k { x with queue := x.queue.map (fun w => if w.src.any (fun a => a.1 == q) then { w with src := none } else w) })

/-- The link of port `q` is gone: what waits for it is discarded and its class 0 flits are lost (R270), no lane is in lock, and
nothing of its training, its peer or its credits holds any longer (log entry 173). -/
def Dev.linkGone (d : Dev) (q : Nat) : Dev :=
  ((((d.discardOut q).cutInput q).setOport q default).setLport q default).setR (CAL_PORTSTAT q) 0
    |>.setF (portStat q) 16 4 0

/-- FAB_PCTL.ENABLE of port `q` (R263). -/
def Dev.portEnable (d : Dev) (q : Nat) (on : Bool) : Dev :=
  let d := d.setFlag (portCtl q) 0 on
  let d := if d.portState q = 4 then d
    else if on then (if d.portState q = 0 then (d.setPort q 1).linkGone q else d)
    else (d.setPort q 0).linkGone q
  d.portVote q

/-- A retrain of port `q` (R263, R279); one that is DISABLED or an Ethernet port has none. -/
def Dev.portTrain (d : Dev) (q : Nat) : Dev :=
  if d.portState q = 0 || d.portState q = 4 then d else (d.setPort q 1).linkGone q

/-- A port becomes UP once its training has succeeded and its peer's hello has come (R263). -/
def Dev.portTry (d : Dev) (q : Nat) : Dev :=
  if (d.lport q).trained && (d.lport q).hello.isSome && (d.portState q = 1 || d.portState q = 3) then d.setPort q 2 else d

/-- Training of port `q` ends: success, or 60 ms without (R263).  A FAILED port stays so while it retries. -/
def Dev.trainingEnd (d : Dev) (q : Nat) (ok : Bool) : Dev :=
  if d.portState q ≠ 1 && d.portState q ≠ 3 then d
  else if ok then
    (((d.setFlag (portStat q) 9 true).setF (portStat q) 16 4 15).setLport q { (d.lport q) with trained := true }).portTry q
  else (d.setPort q 3).setLport q default

/-- A FAILED port tries again (R263): what the last attempt left is forgotten. -/
def Dev.retrainTimer (d : Dev) (q : Nat) : Dev := if d.portState q = 3 then d.linkGone q else d

/-- The partitions with TAB_BCTL.SPAN set (R599). -/
def Dev.spanParts (d : Dev) : List Nat := d.allParts.filter (fun p => d.flag (TAB_BCTL p) 8)

/-! ### The direction tables (R245, R271) -/

/-- The link of a dimension in a direction: Z and W are one where they are paired (R243). -/
def Dev.stepWorks (d : Dev) (dev dim dir : Nat) : Bool :=
  let q := 2 * dim + (dir - 1)
  d.linkWorks dev q || (dim = 2 && d.linkWorks dev (q + 2))

/-- `k` links in a row from `dev`, all working. -/
def Dev.pathWhole (d : Dev) (dim dir : Nat) : Nat → Nat → Bool
  | 0, _ => true
  | k + 1, dev =>
    let n := d.dimSize dim
    let c := coordOf dev dim
    d.stepWorks dev dim dir && d.pathWhole dim dir k (withCoord dev dim ((if dir = 1 then c + 1 else c + n - 1) % n))

/-- The direction-table entry for coordinate `k` of a dimension (R245). -/
def Dev.dirTo (d : Dev) (dim k : Nat) : Nat :=
  let n := d.dimSize dim
  let c := coordOf d.devId dim
  if k = c then 0
  else if n ≤ k then 3
  else
    let up := (k + n - c) % n
    let dn := (c + n - k) % n
    let wu := d.pathWhole dim 1 up d.devId
    let wd := d.pathWhole dim 2 dn d.devId
    if wu && (up ≤ dn || ! wd) then 1 else if wd then 2 else 3

/-- Compute the three direction tables and write them in both dies (R245, R271). -/
def Dev.installRoutes (d : Dev) : Dev :=
  let t (dim : Nat) : Nat := ((upTo 8).map (fun k => d.dirTo dim k * 4 ^ k)).sum
  let tx := t 0
  let ty := t 1
  let tz := t 2
  d.forEach [0, 1] (fun d die =>
    ((((d.setR (FAB_RTX die) tx).setR (FAB_RTY die) ty).setR (FAB_RTZ die) tz)).setFlag (FAB_DSTAT die) 0 false)

/-! ### Trees of collective groups (R257, R271 to R273) -/

/-- Breadth-first search from the root over working links between devices that `ok` admits: (device, parent) pairs; ports in
number order (log entry 17). -/
def Dev.bfs (d : Dev) (ok : Nat → Bool) : Nat → List Nat → List (Nat × Nat) → List (Nat × Nat)
  | 0, _, seen => seen
  | fuel + 1, front, seen =>
    let step := front.foldl (fun (a : List Nat × List (Nat × Nat)) u =>
      (upTo 8).foldl (fun (a : List Nat × List (Nat × Nat)) q =>
        match (if d.linkWorks u q then d.nbr u q else none) with
        | some v => if ! ok v || a.2.any (fun x => x.1 == v) then a else (a.1 ++ [v], a.2 ++ [(v, u)])
        | none => a) a) ([], seen)
    if step.1.isEmpty then step.2 else d.bfs ok fuel step.1 step.2

/-- The devices that a root reaches over working links between devices that `ok` admits, with their parents; 512 marks the
root. -/
def Dev.reach (d : Dev) (ok : Nat → Bool) (root : Nat) : List (Nat × Nat) := d.bfs ok 512 [root] [(root, 512)]

/-- The edges (child, parent) from a member up to the root. -/
def climb (seen : List (Nat × Nat)) (root : Nat) : Nat → Nat → List (Nat × Nat)
  | 0, _ => []
  | fuel + 1, u =>
    if u = root then [] else
    match seen.find? (fun x => x.1 == u) with
    | some x => x :: climb seen root fuel x.2
    | none => []

def addEdge (l : List (Nat × Nat)) (x : Nat × Nat) : List (Nat × Nat) := if l.contains x then l else l ++ [x]

/-- The tree of a group: none where a member cannot be reached; its edges and its depth. -/
def Dev.treeOf (d : Dev) (root : Nat) (members : List Nat) : Option (List (Nat × Nat) × Nat) :=
  let seen := d.reach (fun _ => true) root
  if ! d.present root || members.any (fun m => ! seen.any (fun x => x.1 == m)) then none
  else
    let paths := members.map (climb seen root 512)
    some (paths.flatten.foldl addEdge [], (paths.map List.length).foldl max 0)

def Dev.coll (d : Dev) (g : Nat) : Coll := SMap.get default d.colls g
def Dev.setColl (d : Dev) (g : Nat) (x : Coll) : Dev := { d with colls := SMap.set default d.colls g x }

/-- Place this device in the tree. -/
def Coll.place (x : Coll) (own : Nat) (t : List (Nat × Nat) × Nat) : Coll :=
  { x with parent := (t.1.find? (fun e => e.1 == own)).map Prod.snd
           children := (t.1.filter (fun e => e.2 == own)).map Prod.fst
           depth := t.2 }

/-- Every input of this device that `x` needs has a free reservation of class 4 (R241, R257). -/
def Dev.creditsFree (d : Dev) (x : Coll) : Bool :=
  let used (f : Coll → List Nat) (q : Nat) : Nat :=
    (((upTo 16).map d.coll).filter (fun c => c.used && (f c).any (fun m => d.portTo m == some q))).length
  x.children.all (fun m => match d.portTo m with | some q => used Coll.children q < 4 | none => false) &&
    x.parent.toList.all (fun m => match d.portTo m with | some q => used (fun c => c.parent.toList) q < 4 | none => false)

/-- The devices of a tree beside this one. -/
def treeOthers (own root : Nat) (t : List (Nat × Nat) × Nat) : List Nat :=
  ((root :: (t.1.map Prod.fst)).filter (· ≠ own)).foldl (fun l x => if l.contains x then l else l ++ [x]) []

/-- A group slot with nothing in it but its members and its tree. -/
def newColl (part root tmo : Nat) (members : List Nat) : Coll :=
  { (default : Coll) with used := true, part := part, root := root, timeout := tmo, members := members }

/-! ### Trees of span groups (R265, R271) -/

/-- The devices known to be in the span group of partition `p` under `lead`: this one, the lead, and those that have announced it
(log entry 171). -/
def Dev.spanMembers (d : Dev) (p lead : Nat) : List Nat :=
  ([d.devId, lead] ++ (d.fabSpans.filter (fun x => x.2.contains (p, lead))).map Prod.fst).foldl
    (fun l x => if l.contains x then l else l ++ [x]) []

/-- The group of `n` devices is not connected by working links between its members (R265): where all of them are known, over these
alone; where some have still to announce themselves, the known ones and enough others have to be joined (log entry 148). -/
def Dev.unconnected (d : Dev) (p lead n : Nat) : Bool :=
  let known := d.spanMembers p lead
  let seen := (d.reach (fun v => decide (known.length < n) || known.contains v) lead).map Prod.fst
  known.any (fun m => ! seen.contains m) || seen.length < n

/-- Place this device in the tree of the span group of partition `p`. -/
def Dev.spanTree (d : Dev) (p : Nat) : Dev :=
  let lead := d.fld (TAB_SPAN p) 16 9
  let own := d.devId
  let known := d.spanMembers p lead
  let seen := if d.spans p then d.reach known.contains lead else []
  d.setPart p { (d.part p) with
    parent := if lead = own then none else (seen.find? (fun x => x.1 == own)).map Prod.snd
    kids := (seen.filter (fun x => x.2 == own)).map Prod.fst }

/-- Every span group's tree is computed again. -/
def Dev.spanTrees (d : Dev) : Dev := d.forEach (upTo 16) Dev.spanTree

/-! ### Failures (R264, R270 to R273) -/

/-- Groups whose tree has an edge between `a` and `b` start to rebuild; a collective in progress is not repaired (R272). -/
def Dev.breakTrees (d : Dev) (a b : Nat) : Dev :=
  { d with colls := d.colls.map (fun (g : Nat × Coll) =>
      let x := g.2
      let hit := match d.treeOf x.root x.members with
        | some t => t.1.any (fun e => e == (a, b) || e == (b, a))
        | none => true
      if x.used && hit then (g.1, { x with rebuild := true, broken := x.issued }) else g) }

/-- REROUTE reads 1 in both dies. -/
def Dev.rerouting (d : Dev) : Dev := (d.setFlag (FAB_DSTAT 0) 0 true).setFlag (FAB_DSTAT 1) 0 true

/-- 64 codewords of port `q` could not be corrected within 1 ms (R264). -/
def Dev.fecBurst (d : Dev) (q : Nat) : Bool := 64 ≤ ((d.lport q).fecAt.filter (fun t => d.time < t + 400000)).length

/-- FAB_PCRCERR has risen by FAB_PBURST.COUNT within FAB_PBURST.WINDOW µs (R264). -/
def Dev.crcBurst (d : Dev) (q : Nat) : Bool :=
  let a := FAB_PBURST (q / 4) (q % 4)
  d.fld a 0 16 ≤ ((d.lport q).crcAt.filter (fun t => d.time < t + 400 * d.fld a 16 16)).length

/-- An UP port fails (R264): `cause` 0 lock, 1 FEC, 2 CRC burst, where their counts have risen so far, 3 the peer's link-down;
`flits` were inside its transmit pipeline (R270). -/
def Dev.portFailure (d : Dev) (q cause flits : Nat) : Dev :=
  if d.portState q ≠ 2 || (cause = 1 && ! d.fecBurst q) || (cause = 2 && ! d.crcBurst q) then d
  else
    let d := match d.nbr d.devId q with
      | some m => d.breakTrees d.devId m
      | none => d
    let d := (d.setPort q 3).linkGone q
    let d := (d.bump (FAB_PLINKDOWN (q / 4) (q % 4)) 1).bump (FAB_PDISC (q / 4) (q % 4)) flits
    let d := if cause = 2 then (d.setFlag (portStat q) 10 true).fault fCrcBurst d.spanParts (srcPort q) else d
    let d := d.fault fLink d.spanParts (srcPort q)
    d.rerouting.spreadMgmt none 1 [d.devId, q]

/-- A codeword of port `q` cannot be corrected (R262): the next `flits` flits to arrive lie in it. -/
def Dev.fecUnc (d : Dev) (q flits corr : Nat) : Dev :=
  let x := d.lport q
  let d := d.setLport q { x with mark := x.mark + flits, fecAt := x.fecAt.filter (fun t => d.time < t + 400000) ++ [d.time] }
  (d.bump (FAB_PFECUNC (q / 4) (q % 4)) 1).bump64 (FAB_PFECCORR_LO (q / 4) (q % 4)) corr

/-- Carillon acts on the oldest management packet that has arrived. -/
def Dev.takeMgmt (d : Dev) : Dev := { d with inbox := d.inbox.eraseP (fun l => pktClass l == 6) }

/-- A failure message of class 6 that came on port `from'`: port `q` of device `dev` has failed (R271).  It goes on to the other
neighbours where it is new here. -/
def Dev.failureSpread (d : Dev) (from' dev q : Nat) : Dev :=
  let d := d.takeMgmt
  let k := 8 * dev + q
  if dev = d.devId || SMap.get 0 d.links k = 1 then d
  else
    let d := match d.nbr dev q with
      | some m => d.breakTrees dev m
      | none => d
    { d with links := SMap.set 0 d.links k 1 }.rerouting.spreadMgmt (some from') 1 [dev, q]

/-- Recomputed tables and trees are installed (R271). -/
def Dev.routeInstall (d : Dev) : Dev :=
  let d := d.installRoutes.spanTrees
  d.forEach (upTo 16) (fun d g =>
    let x := d.coll g
    if ! x.used then d else
    match d.treeOf x.root x.members with
    | some t => d.setColl g (x.place d.devId t)
    | none => d)

/-- What a link-state message says of a device: its ports that are UP and its span partitions with their LEADs (R552; log entry
171). -/
def linkArgs (dev ports : Nat) (spans : List (Nat × Nat)) : List Nat := [dev, ports] ++ (spans.map (fun x => [x.1, x.2])).flatten

/-- This device's link state goes to every neighbour (R552). -/
def Dev.sendLinkState (d : Dev) : Dev :=
  d.spreadMgmt none 2 (linkArgs d.devId ((upTo 8).map (fun q => if d.portUp q then 2 ^ q else 0)).sum
    (d.spanParts.map (fun p => (p, d.fld (TAB_SPAN p) 16 9))))

/-- A link-state message of device `dev` comes on port `from'` (R552, R560): `ports` has bit q set for each port of it that is UP,
`spans` its span partitions.  It goes on to the other neighbours where it brings something new. -/
def Dev.linkState (d : Dev) (from' dev ports : Nat) (spans : List (Nat × Nat)) : Dev :=
  let d := d.takeMgmt
  if dev = d.devId || 512 ≤ dev then d
  else
    let links := (upTo 8).foldl (fun m q => SMap.set 0 m (8 * dev + q) (natOf (! bitAt ports q))) d.links
    let all := SMap.set [] d.fabSpans dev spans
    if d.fabDevs.contains dev && links == d.links && all == d.fabSpans then d
    else
      { d with fabDevs := if d.fabDevs.contains dev then d.fabDevs else d.fabDevs ++ [dev]
               links := links, fabSpans := all }.spanTrees.rerouting.spreadMgmt (some from') 2 (linkArgs dev ports spans)

/-! ### Packets in transit (R235 to R247, R255, R261, R262) -/

/-- VC of a link tag; 15 is an idle unit (R261). -/
def tagVc (t : Nat) : Nat := bitsOf t 12 4

/-- The VC of the packet that came with these link tags. -/
def tagsVc (tags : List Nat) : Nat := ((tags.map tagVc).find? (· != 15)).getD 0

/-- `n` flits arrive on port `q` with these link tags, idle units among them, and `corr` codewords corrected since the last arrival
(R261, R262): the credits the tags return are free again; whether a flit carries ERR. -/
def Dev.linkIn (d : Dev) (q : Nat) (tags : List Nat) (n corr : Nat) : Dev × Bool :=
  let x := d.lport q
  let d := (d.bump64 (FAB_PRXFLIT_LO (q / 4) (q % 4)) n).bump64 (FAB_PFECCORR_LO (q / 4) (q % 4)) corr
  let d := d.setLport q { x with mark := x.mark - n }
  let d := d.setOport q (tags.foldl (fun o t => o.give (bitsOf t 6 4) (bitsOf t 1 5)) (d.oport q))
  (d.pump, x.mark != 0 || tags.any (fun t => tagVc t != 15 && bitAt t 0))

/-- A CRC fails at the input of port `q` (R255, R256). -/
def Dev.crcFail (d : Dev) (q : Nat) : Dev :=
  let a := FAB_PBURST (q / 4) (q % 4)
  let x := d.lport q
  (d.setLport q { x with crcAt := x.crcAt.filter (fun t => d.time < t + 400 * d.fld a 16 16) ++ [d.time] }).bump
    (FAB_PCRCERR (q / 4) (q % 4)) 1

/-- A destination discards a packet (R255). -/
def Dev.crcDiscard (d : Dev) (die : Nat) : Dev := d.bump (FAB_CRCDISC die) 1

/-- A reply of this device to the source of request `l`. -/
def Dev.reply (d : Dev) (die : Nat) (l : List Byte) (type : Nat) (tail pl : List Byte) : Dev :=
  d.sendPacket die none false (packetOf type 3 (pktSrc l) 0 d.devId (pktPart l) (pktTag l) 0 tail pl)

def isRequest (type : Nat) : Bool := type == 0x20 || type == 0x21 || type == 0x50

/-- A reserved field of a request's header is not zero (R239): in ROUTE, DEST, SRC and PART, and the bytes its type does not use. -/
def requestRsvd (l : List Byte) : Bool :=
  byteAt l 1 / 64 != 0 || leAt l 2 2 / 2 ^ 13 != 0 || leAt l 4 2 / 2 ^ 9 != 0 || byteAt l 7 / 16 != 0 ||
    (if pktType l = 0x50 then leAt l 34 30 else leAt l 28 36) != 0

/-- A request has a reserved field set, or its fabric address names a device that is not present (R38, R39). -/
def Dev.badAddress (d : Dev) (l : List Byte) : Bool :=
  requestRsvd l || 2 ^ 57 ≤ leAt l 16 8 || ! d.present (bitsOf (leAt l 16 8) 48 9)

/-- An address error of a request at die `die` (R39): the request is discarded, its source told, the error counted. -/
def Dev.addressError (d : Dev) (die : Nat) (l : List Byte) : Dev :=
  let d := ((d.bump (FAB_ADDRERR die) 1).setFlag (FAB_DSTAT die) 1 true).bump FLT_ADDRERR 1
  let d := d.fault fAddr [] (srcDie die)
  d.reply die l 0x32 (leBytes 1 1) []

/-- A whole packet for this device leaves the input buffer: event records go on to their region, by the bridge where need be;
management packets wait for Carillon while its buffer has room (R248); others wait to be acted on. -/
def Dev.packetHere (d : Dev) (q : Nat) (l : List Byte) : Dev :=
  let die := portDie q
  let n := l.length / 64
  if pktType l = 0x01 then
    let cross := die != dieOf (pktReg l)
    if cross && d.flag FLT_STAT 4 then d.bump (FAB_PDISC die (q % 4)) n
    else
      let w := (upTo (leAt l 18 2)).map (fun i => leAt (pktPay l) (8 * i) 8)
      let d := if cross then d.bump64 (FAB_BRFLIT_LO die) n else d
      { d with net := d.net ++ eventsOf (leAt l 16 2) w }
  else if pktClass l = 6 && Config.mgmtRoom ≤ (d.inbox.filter (fun x => pktClass x == 6)).length then
    { d with car := { d.car with mgmtDrop := d.car.mgmtDrop + 1 } }
  else { d with inbox := d.inbox ++ [l] }

/-- A packet arrives on port `q` with the link tags of its flits (R240, R244 to R247, R255): it is for this device, or is sent
onwards. -/
def Dev.packetForward (d : Dev) (q : Nat) (tags : List Nat) (l : List Byte) (corr : Nat) : Dev :=
  let die := portDie q
  let n := l.length / 64
  let x := d.linkIn q tags n corr
  let src := some (q, tagsVc tags)
  let good := pktGood l
  let d := if good then x.1 else x.1.crcFail q
  let bad := x.2 || ! good
  let cls := pktClass l
  if pktDest l = d.devId || cls = 4 || cls = 6 then
    let d := d.leaveInput src n
    if bad then d.crcDiscard die else d.packetHere q l
  else if isRequest (pktType l) && ! bad && d.badAddress l then (d.leaveInput src n).addressError die l
  else d.sendPacket die src bad l

/-- A packet leaves those that wait to be acted on. -/
def Dev.takePacket (d : Dev) (l : List Byte) : Dev := { d with inbox := d.inbox.erase l }

/-- An alarm flit of another device (R251, R602): merged into the flit that waits at the output, or carried on to the root, where
it ends. -/
def Dev.alarmFlit (d : Dev) (a : Alarm) : Dev := d.sendZero 0 none (c0Flit 2 d.rootId a.first a.bytes)

/-! ### Collectives (R258 to R260, R272) -/

/-- COUNT of what a COLL_UP of an operation carries. -/
def upCount (op n : Nat) : Nat := if op = 1 || op = 2 || op = 3 then n else 0

/-- One lane combined (R258): the value and whether it saturated. -/
def Dev.collLane (d : Dev) (op a b : Nat) : Dev × Nat × Bool :=
  if op = 1 then
    let s := sInt 32 a + sInt 32 b
    let t := satS 32 s
    (d, uOf 32 t, s != t)
  else if op = 2 then
    let r := f32Add a b
    if r.isOpen then let v := d.fresh 32; (v.2, v.1, false) else (d, r.bits, r.sat)
  else (d, uOf 32 (max (sInt 32 a) (sInt 32 b)), false)

/-- Combine a contribution into group `g`, in arrival order (R258). -/
def Dev.collCombine (d : Dev) (g op : Nat) (lanes : List Nat) : Dev :=
  let isNan (v : Nat) : Bool := op == 2 && f32 v == .nan
  let x := d.coll g
  let nan := lanes.any isNan
  let lanes := lanes.map (fun v => if isNan v then 0 else v)
  match x.lanes with
  | none => d.setColl g { x with lanes := some lanes, op := op, nan := x.nan || nan }
  | some acc =>
    let r := (acc.zip lanes).foldl (fun (a : Dev × List Nat × Bool) p =>
      let y := a.1.collLane op p.1 p.2
      (y.1, a.2.1 ++ [y.2.1], a.2.2 || y.2.2)) (d, [], false)
    r.1.setColl g { x with lanes := some r.2.1, nan := x.nan || nan, sat := x.sat || r.2.2 }

/-- A COLL_UP or COLL_DOWN packet of an epoch to a neighbour in the tree. -/
def Dev.collSend (d : Dev) (g type dest op epoch n ncon : Nat) (lanes : List Nat) : Dev :=
  match d.portTo dest with
  | none => d.noRoute 0
  | some q => d.sendHop 0 q (packetOf type 4 dest 0 d.devId (d.coll g).part 0 epoch
      (leBytes 1 g ++ leBytes 1 op ++ leBytes 2 n ++ leBytes 2 ncon) (lanes.map (leBytes 4)).flatten)

/-- The response payload of a COLL_ISSUE that completes with OK (R282). -/
def collAnswer (x : Coll) (ncon : Nat) (lanes : List Nat) : List Byte :=
  leBytes 2 x.epoch ++ leBytes 2 ncon ++ leBytes 1 (natOf x.sat + 2 * natOf x.nan) ++ zeros 3 ++ (lanes.map (leBytes 4)).flatten

/-- The collective of group `g` completes here (R258, R259): EPOCH advances. -/
def Dev.collComplete (d : Dev) (g : Nat) (st : Status) (ncon : Nat) (lanes : List Nat) : Dev :=
  let x := d.coll g
  let pl := if st = .ok then collAnswer x ncon lanes else []
  let d := d.setColl g { x with issued := false, lanes := none, ncontrib := 0, got := [], sentUp := false, sat := false,
                                nan := false, broken := false, epoch := (x.epoch + 1) % 65536 }
  d.endWaiting (fun w => w.what == .coll g && w.opcode == 0x0506) (fun _ => (st, pl))

/-- The result of an epoch reaches this node: it goes on to the children, and a member that has issued completes (R258). -/
def Dev.collDown (d : Dev) (g op epoch ncon : Nat) (lanes : List Nat) : Dev :=
  let x := d.coll g
  let d := d.forEach x.children (fun d m => d.collSend g 0x41 m op epoch lanes.length ncon lanes)
  if x.issued then d.collComplete g .ok ncon lanes
  else d.setColl g { x with lanes := none, ncontrib := 0, got := [], sentUp := false }

/-- A node whose children have all sent, and that has issued or is a relay, sends up or, at the root, down (R258). -/
def Dev.collAdvance (d : Dev) (g : Nat) : Dev :=
  let x := d.coll g
  if x.sentUp || x.rebuild || x.broken || ! (x.issued || ! x.members.contains d.devId) || ! x.children.all (x.got.contains ·) then d
  else
    let lanes := x.lanes.getD []
    let d := d.setColl g { x with sentUp := true }
    match x.parent with
    | some m => d.collSend g 0x40 m x.op x.cur (upCount x.op lanes.length) x.ncontrib (if x.op = 4 then [] else lanes)
    | none => d.collDown g x.op x.cur x.ncontrib lanes

/-- A COLL_UP of the expected epoch is taken in. -/
def Dev.collTake (d : Dev) (g : Nat) (l : List Byte) : Dev :=
  let x := d.coll g
  let e := pktEpoch l
  let x := if x.cur ≠ e && ! x.issued then
      { x with cur := e, lanes := none, ncontrib := 0, got := [], sentUp := false, op := byteAt l 17 } else x
  let d := d.setColl g { x with got := x.got ++ [pktSrc l], ncontrib := x.ncontrib + leAt l 20 2,
                                op := if x.issued then x.op else byteAt l 17 }
  let n := leAt l 18 2
  let d := if n = 0 then d else d.collCombine g (d.coll g).op ((upTo n).map (fun i => leAt (pktPay l) (4 * i) 4))
  d.collAdvance g

/-- A class 4 packet's EPOCH against the expected one, modulo 2^16: below, equal, above (R259). -/
def epochSide (e x : Nat) : Ordering :=
  let k := (e + 65536 - x) % 65536
  if k = 0 then .eq else if k < 32768 then .gt else .lt

/-- A COLL_UP reaches this node (R258, R259); a relay expects no epoch of its own.  While the tree is rebuilt nothing goes on, and a
collective that lost an edge only ends by its timer (R272). -/
def Dev.collUp (d : Dev) (q : Nat) (l : List Byte) : Dev :=
  let d := d.takePacket l
  let g := byteAt l 16 % 16
  let x := d.coll g
  if ! pktGood l || pktType l ≠ 0x40 then d.crcDiscard (q / 4)
  else if ! x.used || x.rebuild || x.broken || ! x.children.contains (pktSrc l) then d
  else if ! x.members.contains d.devId then d.collTake g l
  else match epochSide (pktEpoch l) x.epoch with
    | .lt => d.bump (FAB_STALEEP (q / 4)) 1
    | .gt => d.setColl g { x with held := x.held ++ [(q, l)] }
    | .eq => d.collTake g l

/-- A COLL_DOWN reaches this node (R258, R259). -/
def Dev.collDownPkt (d : Dev) (q : Nat) (l : List Byte) : Dev :=
  let d := d.takePacket l
  let g := byteAt l 16 % 16
  let x := d.coll g
  let n := leAt l 18 2
  let lanes := (upTo n).map (fun i => leAt (pktPay l) (4 * i) 4)
  if ! pktGood l || pktType l ≠ 0x41 then d.crcDiscard (q / 4)
  else if ! x.used || x.rebuild || x.broken then d
  else if ! x.members.contains d.devId then d.collDown g (byteAt l 17) (pktEpoch l) (leAt l 20 2) lanes
  else match epochSide (pktEpoch l) x.epoch with
    | .lt => d.bump (FAB_STALEEP (q / 4)) 1
    | .gt => d.setColl g { x with held := x.held ++ [(q, l)] }
    | .eq => d.collDown g (byteAt l 17) (pktEpoch l) (leAt l 20 2) lanes

/-- Packets held for an epoch that the group has passed are discarded as stale, and with `take` those of the expected
epoch, which the member now issues, are taken in (R259). -/
def Dev.collHeld (d : Dev) (g : Nat) (take : Bool) : Dev :=
  let x := d.coll g
  let go (h : Nat × List Byte) : Bool := match epochSide (pktEpoch h.2) x.epoch with
    | .lt => true
    | .eq => take
    | .gt => false
  let d := d.setColl g { x with held := x.held.filter (fun h => ! go h) }
  d.forEach (x.held.filter go) (fun d h => if pktType h.2 = 0x40 then d.collUp h.1 h.2 else d.collDownPkt h.1 h.2)

/-- The timer of a collective that group `g` has issued expires (R259). -/
def Dev.collTimeout (d : Dev) (g : Nat) : Dev :=
  if (d.coll g).used && (d.coll g).issued then (d.collComplete g .incomplete 0 []).collHeld g false else d

/-- The tree of group `g` is rebuilt; `epoch` is the highest expected EPOCH of its members (R273). -/
def Dev.treeRebuilt (d : Dev) (g epoch : Nat) : Dev :=
  let x := d.coll g
  if x.used && x.rebuild then
    (d.setColl g { x with rebuild := false, epoch := epoch % 65536, lanes := none, ncontrib := 0, got := [], sentUp := false }).collHeld g false
  else d

/-- The `k`-th held early packet of group `g` is dropped (R259). -/
def Dev.earlyDrop (d : Dev) (g k : Nat) : Dev :=
  let x := d.coll g
  match x.held[k]? with
  | some h => (d.setColl g { x with held := removeAt x.held k }).bump (FAB_EARLYDROP (h.1 / 4)) 1
  | none => d

/-- A member's reservation, its release, or an answer to one (R257, R283): `kind` 0 reserve, 1 release, 2 reserved,
3 refused for credits, 4 refused for the slot; `src` the device it comes from.  A member that has reserved for a setup already
refused is told to release. -/
def Dev.groupMessage (d : Dev) (kind src g part root tmo : Nat) (members : List Nat) : Dev :=
  let d := d.takeMgmt
  let g := g % 16
  let x := d.coll g
  if kind = 0 then
    if x.used then d.mgmtTo src 2 [4, g]
    else match d.treeOf root members with
      | none => d.mgmtTo src 2 [4, g]
      | some t =>
        let y := (newColl part root tmo members).place d.devId t
        if d.creditsFree y then (d.setColl g y).mgmtTo src 2 [2, g] else d.mgmtTo src 2 [3, g]
  else if kind = 1 then d.setColl g default
  else if ! x.used then (if kind = 2 then d.mgmtTo src 2 [1, g] else d)
  else if ! x.asking.contains src then d
  else if kind = 2 then
    let y := { x with asking := x.asking.filter (· ≠ src) }
    if y.asking.isEmpty then
      let here := y.members.contains d.devId || y.parent.isSome || ! y.children.isEmpty
      (d.setColl g (if here then y else default)).endWaiting (fun w => w.what == .coll g && w.opcode == 0x0505)
        (fun _ => (.ok, []))
    else d.setColl g y
  else
    let others := match d.treeOf x.root x.members with
      | some t => treeOthers d.devId x.root t
      | none => []
    let d := d.forEach (others.filter (fun m => m ≠ src && ! x.asking.contains m)) (fun d m => d.mgmtTo m 2 [1, g])
    (d.setColl g default).endWaiting (fun w => w.what == .coll g && w.opcode == 0x0505)
      (fun _ => (if kind = 3 then .noResource else .denied, []))

/-! ### Commands (R282, R283) -/

def fabSpec (op : Nat) (len : List Byte → Bool) (ro : Bool) (rsv : List (Nat × Nat)) : CmdSpec :=
  { opcode := op, issuer := .pf, names := false, ro := ro, len := len, rsv := rsv }

def fabOwner (op : Nat) (len : List Byte → Bool) (ro : Bool) (rsv : List (Nat × Nat)) : CmdSpec :=
  { opcode := op, issuer := .owner, names := true, ro := ro, len := len, rsv := rsv }

def cFabStatus : CmdSpec := fabSpec 0x0501 (lenIs 8) true (rsvd 1 7)
def Dev.fabStatus (d : Dev) (_h : Hdr) (pl : List Byte) : Dev × Ans :=
  if 2 ≤ byteAt pl 0 then (d, .st .denied) else (d, .done .ok 0 (d.regBytes (FAB_DCFG (byteAt pl 0)) 18))

def cPortControl : CmdSpec := fabSpec 0x0502 (lenIs 8) false (rsvd 2 6)
def Dev.portControl (d : Dev) (_h : Hdr) (pl : List Byte) : Dev × Ans :=
  let q := byteAt pl 0
  let a := byteAt pl 1
  if 8 ≤ q || 4 ≤ a || d.portState q = 4 then (d, .st .denied)
  else if d.portState q = 1 then (d, .st .busy)
  else (if a = 0 then d.portEnable q false else if a = 1 then d.portEnable q true else d.portTrain q, .st .ok)

def cPortStatus : CmdSpec := fabSpec 0x0503 (lenIs 8) true (rsvd 1 7)
def Dev.portStatus (d : Dev) (_h : Hdr) (pl : List Byte) : Dev × Ans :=
  if 8 ≤ byteAt pl 0 then (d, .st .denied) else (d, .done .ok 0 (d.regBytes (portCtl (byteAt pl 0)) 14))

def cRouteRead : CmdSpec := fabSpec 0x0504 (lenIs 0) true []
def Dev.routeRead (d : Dev) (_h : Hdr) (_pl : List Byte) : Dev × Ans :=
  (d, .done .ok 0 (leBytes 4 (d.rg (FAB_DCFG 0)) ++ leBytes 2 (d.rg (FAB_RTX 0)) ++ leBytes 2 (d.rg (FAB_RTY 0)) ++
    leBytes 2 (d.rg (FAB_RTZ 0)) ++ zeros 2))

def cCollSetup : CmdSpec := { fabSpec 0x0505 (lenIs 72) false [] with ready := true }

def Dev.collSetup (d : Dev) (_h : Hdr) (pl : List Byte) : Dev × Ans :=
  let g := byteAt pl 0
  let p := byteAt pl 1
  let root := leAt pl 2 2
  let tmo := leAt pl 4 4
  let members := maskBits 512 (leAt pl 8 64)
  if 16 ≤ g || 16 ≤ p || 512 ≤ root || tmo = 0 || 65535 < tmo || (d.coll g).used then (d, .st .denied)
  else match d.treeOf root members with
    | none => (d, .st .denied)
    | some t =>
      let x := (newColl p root tmo members).place d.devId t
      if ! d.creditsFree x then (d, .st .noResource)
      else
        let others := treeOthers d.devId root t
        let here := members.contains d.devId || x.parent.isSome || ! x.children.isEmpty
        if others.isEmpty then (if here then d.setColl g x else d, .st .ok)
        else
          let d := d.forEach others (fun d m => d.mgmtTo m 2 ([0, g, p, root, tmo] ++ members))
          (d.setColl g { x with asking := others }, .wait (.coll g))

def cCollIssue : CmdSpec :=
  fabOwner 0x0506 (fun pl => 8 ≤ pl.length && pl.length == 8 + 4 * leAt pl 4 2) false (rsvd 6 2)

def Dev.collIssue (d : Dev) (h : Hdr) (pl : List Byte) : Dev × Ans :=
  let g := byteAt pl 0
  let op := byteAt pl 1
  let e := leAt pl 2 2
  let n := leAt pl 4 2
  let x := d.coll g
  if 16 ≤ g || 5 ≤ op || 256 < n || ! x.used || ! x.asking.isEmpty || x.part ≠ h.part || ! x.members.contains d.devId then
    (d, .st .denied)
  else if x.issued || x.rebuild then (d, .st .busy)
  else if e ≠ x.epoch then (d, .st .staleEpoch)
  else
    let d := d.collHeld g true
    let x := d.coll g
    let y := if x.cur = e then x else { x with cur := e, lanes := none, ncontrib := 0, got := [], sentUp := false }
    let y := { y with issued := true, op := op, count := n, ncontrib := y.ncontrib + 1, sentUp := false }
    let d := d.setColl g y
    let lanes := (upTo n).map (fun i => leAt pl (8 + 4 * i) 4)
    let d := if op = 0 || (op = 4 && x.root ≠ d.devId) then d else d.collCombine g op lanes
    -- a group of this device alone completes at once
    let y := d.coll g
    let d := d.collAdvance g
    if (d.coll g).issued then (d, .wait (.coll g))
    else (d, .done .ok 0 (collAnswer y y.ncontrib (y.lanes.getD [])))

def cCollRelease : CmdSpec := fabSpec 0x0507 (lenIs 8) false (rsvd 1 7)
def Dev.collRelease (d : Dev) (_h : Hdr) (pl : List Byte) : Dev × Ans :=
  let g := byteAt pl 0
  let x := d.coll g
  if 16 ≤ g || ! x.used then (d, .st .denied)
  else if x.issued || ! x.asking.isEmpty then (d, .st .busy)
  else
    let others := match d.treeOf x.root x.members with
      | some t => treeOthers d.devId x.root t
      | none => x.members.filter (· ≠ d.devId)
    ((d.forEach others (fun d m => d.mgmtTo m 2 [1, g])).setColl g default, .st .ok)

def cCollStatus : CmdSpec := fabOwner 0x0508 (lenIs 8) true (rsvd 1 7)
def Dev.collStatus (d : Dev) (h : Hdr) (pl : List Byte) : Dev × Ans :=
  let g := byteAt pl 0
  let x := d.coll g
  if 16 ≤ g || (h.func ≠ 0 && x.used && x.part ≠ h.func) then (d, .st .denied)
  else
    let st := if ! x.used || ! x.asking.isEmpty then 0 else if x.rebuild then 3 else if x.issued then 2 else 1
    (d, .done .ok 0 (leBytes 2 x.epoch ++ leBytes 1 st ++ zeros 1 ++ leBytes 2 x.root ++ leBytes 2 x.depth ++
      leBytes 4 x.timeout ++ zeros 4))

/-! ### Rudiment (R275, R278, R280) -/

/-- The mesh neighbour of region `r` over N (0), S (1), E (2) or W (3). -/
def meshNbr (r k : Nat) : Option Nat :=
  if k = 0 then (if 4 ≤ r then some (r - 4) else none)
  else if k = 1 then (if r < 12 then some (r + 4) else none)
  else if k = 2 then (if r % 4 < 3 then some (r + 1) else none)
  else if r % 4 = 0 then none else some (r - 1)

/-- An entry Carillon accepts for region `r` of partition `p` (R278). -/
def Dev.rudOk (d : Dev) (p r : Nat) (e : List Byte) : Bool :=
  let joins (k : Nat) : Bool := match meshNbr r k with | some m => d.owns p m | none => false
  let src (s : Nat) : Bool := s ≠ 7 && (s = 0 || 5 ≤ s || joins (s - 1))
  byteAt e 6 = 0 && byteAt e 7 = 0 &&
    (upTo 6).all (fun k =>
      let b := byteAt e k
      src (bitsOf b 0 3) && src (bitsOf b 3 3) && (bitsOf b 6 2 = 0 || 4 ≤ k || joins k))

def Dev.planeRuns (d : Dev) (r : Nat) : Bool := d.flag (FAB_SCTL r) 31

def cRudimentLoad : CmdSpec :=
  fabOwner 0x0509 (fun pl => 8 ≤ pl.length && pl.length == 8 + 8 * leAt pl 4 2) false (rsvd 1 1 ++ rsvd 6 2)

def Dev.rudimentLoad (d : Dev) (h : Hdr) (pl : List Byte) : Dev × Ans :=
  let r := byteAt pl 0
  let f := leAt pl 2 2
  let n := leAt pl 4 2
  let ents := (upTo n).map (fun i => slice pl (8 + 8 * i) 8)
  if 16 ≤ r || ! d.owns h.part r || 1024 < f + n then (d, .st .denied)
  else if d.planeRuns r then (d, .st .busy)
  else if ents.any (fun e => ! d.rudOk h.part r e) then (d, .st .denied)
  else ((d.forEach (upTo n) (fun d i =>
      let e := ents.getD i []
      (d.setR (FAB_RUD r (2 * (f + i))) (leAt e 0 4)).setR (FAB_RUD r (2 * (f + i) + 1)) (leAt e 4 4))), .st .ok)

def cRudimentConfig : CmdSpec := fabOwner 0x050A (lenIs 8) false []

def Dev.rudimentConfig (d : Dev) (h : Hdr) (pl : List Byte) : Dev × Ans :=
  let per := leAt pl 0 2
  let rs := maskBits 16 (leAt pl 2 2)
  let rep := leAt pl 4 4
  if per = 0 || 1024 < per || 65535 < rep || rs.any (fun r => ! d.owns h.part r) then (d, .st .denied)
  else if rs.any d.planeRuns then (d, .st .busy)
  else (d.forEach rs (fun d r => (d.setF (FAB_SCTL r) 16 10 (per - 1)).setF (FAB_SCTL r) 0 16 rep), .st .ok)

def cRudimentRead : CmdSpec := fabOwner 0x050B (lenIs 8) true (rsvd 1 1 ++ rsvd 6 2)

def Dev.rudimentRead (d : Dev) (h : Hdr) (pl : List Byte) : Dev × Ans :=
  let r := byteAt pl 0
  let f := leAt pl 2 2
  let n := leAt pl 4 2
  if 16 ≤ r || ! d.owns h.part r || 1024 < f + n then (d, .st .denied)
  else (d, .done .ok 0 (d.regBytes (FAB_SCTL r) 6 ++ d.regBytes (FAB_RUD r (2 * f)) (2 * n)))

/-! ### Register writes of the die FAB blocks (R52, R263, R279) -/

def Dev.pctlEnable (d : Dev) (f q b : Nat) : Dev := if f ≠ 0 then d.addrErr else d.portEnable q (b % 2 = 1)

/-- A write of FAB_PCTL.TRAIN: 1 and 2 start a retrain (R279). -/
def Dev.pctlTrain (d : Dev) (f q t : Nat) : Dev :=
  if f ≠ 0 then d.addrErr else if t % 4 = 1 || t % 4 = 2 then d.portTrain q else d

end Sys2Proof.Machine
end

