-- ==== Sys2Proof/Machine/State.lean ====
section
/-! DEFINITION. `State`: the device and the commands that wait for it; the reasons a step may stop; reset. -/

namespace Sys2Proof.Machine

open Sys2Proof

/-- The machine: the device and its queue of commands, first in, first out. -/
structure State where
  dev     : Dev
  pending : List Instr
  deriving DecidableEq, Repr

/-- The reasons a step ends in a fault.  No meaning of this model raises one: every error the spec describes is an
effect on State (a status, a counter, a log record, a fault of the fault chapter). -/
inductive Fault
  /-- Never raised; safe. -/
  | none
  deriving DecidableEq, Repr

/-- The reasons a step is refused. -/
inductive Refusal
  /-- Raised by the dispatcher for a row whose meaning is not written yet; safe, since nothing follows from it. -/
  | notModelled (mnemonic : String)
  deriving DecidableEq, Repr

/-- What a step answers. -/
abbrev Outcome := Host.Outcome State Fault Refusal

/-- The machine right after reset: every register at its table's reset value, memory with nothing listed, the queue
empty; the Keep and the flash as the device was delivered with; the pins and the fault status follow that state at once (R603, R615). -/
def State.reset : State := 
  { dev := ({ (default : Dev) with car := { (default : Carillon) with partRec := Config.partRecord, imgA := Config.factoryImage 0,
                                                                       imgB := Config.factoryImage 1 } } : Dev).finish
    pending := [] }

/-- The outcome of an effect on the device: what follows the state at every instant follows it (R98, R603, R615). -/
def State.run (f : Dev → Dev) (s : State) : Outcome := .next { s with dev := (f s.dev).finish }

end Sys2Proof.Machine
end

