-- ==== Sys2Proof/Machine/Beat.lean ====
section
/-! DEFINITION. The beat (R56 to R103): starts, ends, settlement, leaps, Muffle, span groups and time discipline. -/

namespace Sys2Proof.Machine

/-! ### Beat starts and ends -/

/-- 48-bit beat numbers. -/
def beatInc (n : Nat) : Nat := (n + 1) % 2 ^ 48

def Dev.setBeatNo (d : Dev) (p n : Nat) : Dev :=
  (d.setR (TAB_BEATNO_LO p) (n % 2 ^ 32)).setF (TAB_BEATNO_HI p) 0 16 (n / 2 ^ 32)

/-- The lead of a span group sends RELEASE for `beat` (R75, R76, R91). -/
def Dev.release (d : Dev) (p beat flags : Nat) : Dev :=
  if d.isLead p then d.sendDown 0x12 p (bareTattoo p (d.part p).round beat flags) else d

/-- Beat `n` of partition `p` starts; `ovr` as an overrun beat (R66, R67, R69, R71, R72, R604). -/
def Dev.beginBeat (d : Dev) (p n last : Nat) (ovr first : Bool) : Dev :=
  let prev := d.beat p
  let wasSettled := d.flag (TAB_BSTAT p) 8
  let d := ((d.setR (TAB_BLAST p) last).setR (TAB_BCOUNT p) 0).setBeatNo p n
  let d := ((d.setFlag (TAB_BSTAT p) 8 false).setFlag (TAB_BSTAT p) 0 ovr).setF (TAB_BSTAT p) 12 2 0
  let x := d.part p
  let ob := if first then [] else
    x.openBeats.map (fun b => (b.1, b.2 + 1)) ++ (if wasSettled then [] else [(prev, 1)])
  let d := d.setPart p { x with openBeats := ob, leap := none, emitted := false, reset := some d.time,
                                muffle := x.muffle.map (· + 1),
                                facts := SMap.set 0 x.facts n (if ovr then 2 else 0) }
  -- the counts of the slot that beat n + 2 will use start at zero (log entry 12)
  let d := d.forEach (d.points p) (fun d c =>
    { d with sent := SMap.set 0 d.sent (cntKey c (n + 2)) 0, filed := SMap.set 0 d.filed (cntKey c (n + 2)) 0 })
  let d := match d.fence with
    | some f => if (d.logPart f.core) == some p then { d with fence := some { f with waitBeats := f.waitBeats + 1 } } else d
    | none => d
  let d :=
    if ovr then
      let d := ((d.setFlag (TAB_BSTAT p) 1 true).bump (TAB_OVRCNT p) 1)
      let d := d.fault fOverrun [p] 0
      let d := d.setFact p n 0
      d.tocArrive 288 19 p 0 n true
    else
      let d := d.setFlag (FLT_PMUTE p) 0 false
      let d := d.setFlag (FLT_PMUTE p) 8 (d.muted p)
      if d.muted p then d.setFact p n 0
      else d.setPart p { (d.part p) with held := false }
  d.traceRec 0 3 (some p) 0x300 none none (leBytes 6 n ++ leBytes 1 (natOf ovr + 2 * natOf (d.muted p)))

/-- The first beat `f` of partition `p` after START (R97, R125, R149, R307, R327, R662).  A START that waits clears the four counters
here, as its first beat starts (log entry 176). -/
def Dev.startNow (d : Dev) (p f : Nat) : Dev :=
  let d := (((d.setR (TAB_OVRCNT p) 0).setR (TAB_LEAPCNT p) 0).setR (TAB_UNSETTLED p) 0).setR (TAB_LATEFILE p) 0
  let d := d.forEach (d.points p) (fun d c =>
    { d with sent := SMap.clear d.sent (8 * c) (8 * c + 8), filed := SMap.clear d.filed (8 * c) (8 * c + 8) })
  let d := d.forEach (d.regionsOf p) (fun d r => d.startRegion r f)
  let d := d.forEach (d.sitesOf p) (fun d q => d.startCore q f)
  let x := d.part p
  let d := d.setPart p { x with startAt := none, muffle := none, roundOut := none, gather := none, reps := [], latest := none, openBeats := [], facts := [], spikes := [], notice := none,
                                resume := false, heldEnds := [] }
  let d := (d.setF (TAB_BSTAT p) 16 3 1).taborPart p
  let d := d.beginBeat p f (d.rg (TAB_BLAST p)) false true
  let d := d.setPart p { (d.part p) with reset := none }
  let d := if d.flag (TAB_BCTL p) 0 then d.release p f 0 else d
  d.endWaiting (fun w => w.what == .start && w.hdr.part % 16 == p) (fun _ => (.ok, leBytes 8 f))

/-- A Muffled partition goes on with beat `f` (R93, R125, R149); TAB_BLAST takes the count at which the Muffled beat ended (R67). -/
def Dev.resumeNow (d : Dev) (p f : Nat) : Dev :=
  let m := d.beat p
  let skip := f != beatInc m
  let d := d.forEach (d.sitesOf p) (fun d q => d.resumeCore q f skip)
  let d := d.forEach (d.regionsOf p) (fun d r => d.resumeRegion r f skip)
  let d := d.setPart p { (d.part p) with resume := false, roundOut := none, reps := [] }
  let d := d.setF (TAB_BSTAT p) 16 3 1
  let d := d.beginBeat p f (d.rg (TAB_BCOUNT p)) false true
  let d := if d.flag (TAB_BCTL p) 0 then d.release p f 0 else d
  d.endWaiting (fun w => w.what == .resume && w.hdr.part % 16 == p) (fun _ => (.ok, leBytes 8 f))

/-- The leap of partition `p` ends with its beat (R73). -/
def Dev.endLeap (d : Dev) (p base : Nat) : Dev :=
  ((d.setR (TAB_LASTLEAP p) (d.rg (TAB_BCOUNT p) - base)).bump (TAB_LEAPCNT p) 1).setFlag (TAB_BSTAT p) 2 true

/-- Beat + 1 of a running partition starts; the lead of a lockstep span releases it (R75). -/
def Dev.nextBeat (d : Dev) (p last : Nat) (ovr : Bool) : Dev :=
  let n := beatInc (d.beat p)
  let d := d.beginBeat p n last ovr false
  if d.flag (TAB_BCTL p) 0 then d.release p n (if ovr then 2 else 0) else d

/-- The present beat counts as settled at its period event: settled here, or in a metered span's member by the notice
received (R65, R76). -/
def Dev.settledNow (d : Dev) (p : Nat) : Bool :=
  if d.flag (TAB_BCTL p) 8 && ! d.isLead p then (d.part p).notice == some (d.beat p) else d.flag (TAB_BSTAT p) 8

/-- Beat + 1 starts as an overrun beat in the tick after a leap has ended at count `c` (R69, R73). -/
def Dev.leapOver (d : Dev) (p base c : Nat) : Dev := (((d.setR (TAB_BCOUNT p) c).endLeap p base).advance 1).nextBeat p c true

/-- What the period event does (R65, R66, R69, R73); `count` is what TAB_BCOUNT holds in a leap that begins. -/
def Dev.periodFires (d : Dev) (p last count : Nat) : Dev :=
  if d.flag (TAB_BCTL p) 0 then
    if d.flag (TAB_BSTAT p) 8 then d.nextBeat p last false
    else if d.fld (TAB_LEAPLIM p) 0 29 = 0 then d.leapOver p count count
    else
      (d.setR (TAB_BCOUNT p) count).setPart p { (d.part p) with leap := some count }
  else d.nextBeat p last (! d.settledNow p)

/-- The period event of partition `p` (R66): ticks pass until the count has reached the period. -/
def Dev.periodEvent (d : Dev) (p : Nat) : Dev :=
  if ! d.running p || (d.part p).leap.isSome || d.follows p then d
  else
    let per := d.fld (TAB_BPERIOD p) 0 29
    let d := d.advance (per - d.rg (TAB_BCOUNT p))
    d.periodFires p (per - 1) per

/-- The leap limit (R73). -/
def Dev.leapLimit (d : Dev) (p : Nat) : Dev :=
  match (d.part p).leap with
  | none => d
  | some base =>
    let cap := d.beatCap p
    (d.advance (cap - d.rg (TAB_BCOUNT p))).leapOver p base cap

/-! ### Settlement (R60 to R63, R71, R223) -/

/-- The ends of beats that no earlier open beat holds back are queued for the output ring, in beat order (R223). -/
def Dev.flushEnds (d : Dev) (p : Nat) : List (Nat × List OutRec) → Dev
  | [] => d.setPart p { (d.part p) with heldEnds := [] }
  | e :: r =>
    if (d.part p).openBeats.any (fun b => b.1 < e.1) then d.setPart p { (d.part p) with heldEnds := e :: r }
    else Dev.flushEnds (d.forEach e.2 (fun d o => d.pushOut p o)) p r

/-- Beat `n` ends for the output ring: its FRAME and BEATEND wait for earlier beats. -/
def Dev.endBeatRecords (d : Dev) (p n : Nat) (unsettled : Bool) : Dev :=
  let x := d.endRecords p n unsettled
  let l := (x.1.part p).heldEnds
  x.1.flushEnds p (l.filter (fun e => e.1 < n) ++ [(n, x.2)] ++ l.filter (fun e => n < e.1))

/-! ### Muffle (R90, R91) -/

/-- The Muffle takes effect in beat `m` (R90). -/
def Dev.muffleNow (d : Dev) (p m : Nat) : Dev :=
  let d := (d.setF (TAB_BSTAT p) 16 3 3).setBeatNo p m
  let d := d.setPart p { (d.part p) with muffle := none, leap := none, roundOut := none }
  let d := d.release p m 4
  let d := d.tocArrive 288 20 p 0 m true
  d.endWaiting (fun w => w.what == .muffle && w.hdr.part % 16 == p) (fun _ => (.ok, leBytes 8 m))

/-- The Muffle of partition `p` takes effect where the conditions of R90 hold. -/
def Dev.muffleTakesEffect (d : Dev) (p : Nat) : Dev :=
  if d.bstate p == 2 && d.isLead p && d.flag (TAB_BSTAT p) 8 && (d.part p).openBeats.isEmpty && ! d.harvestOn p then
    d.muffleNow p (d.beat p)
  else d

/-- Request a Muffle of a running partition; one that is Muffling keeps its request (R90, R92). -/
def Dev.requestMuffle (d : Dev) (p : Nat) : Dev :=
  if d.bstate p == 1 then (d.setF (TAB_BSTAT p) 16 3 2).setPart p { (d.part p) with muffle := some 0 } else d

/-- Beat `n` is proved settled (R63, R71, R73, R75, R76): TAB_SETTLE takes the count, the lead of a metered span sends its notice, and
a leaping beat ends; the next one starts in the tick after, unless a Muffle takes effect (R90). -/
def Dev.settle (d : Dev) (p n : Nat) : Dev :=
  if n = d.beat p then
    if d.flag (TAB_BSTAT p) 8 then d else
    let d := d.traceRec 0 4 (some p) 0x300 none none (leBytes 6 n)
    let d := (d.setFlag (TAB_BSTAT p) 8 true).setR (TAB_SETTLE p) (d.rg (TAB_BCOUNT p))
    let d := d.setFact p n 2
    let d := d.closeFrames p n
    let d := d.endBeatRecords p n false
    let d := if d.flag (TAB_BCTL p) 0 then d else d.release p n 0
    match (d.part p).leap with
    | some base =>
      let c := d.rg (TAB_BCOUNT p)
      let d := (d.endLeap p base).muffleTakesEffect p
      if d.bstate p == 3 then d else (d.advance 1).nextBeat p c false
    | none => d
  else if (d.part p).openBeats.any (fun b => b.1 == n) then
    let d := d.traceRec 0 4 (some p) 0x300 none none (leBytes 6 n)
    let x := d.part p
    let d := d.setPart p { x with openBeats := x.openBeats.filter (fun b => b.1 != n) }
    let d := d.setR (TAB_SETTLE p) (d.rg (TAB_BCOUNT p))
    let d := if beatInc n = d.beat p then d.setFact p n 2 else d
    let d := d.closeFrames p n
    let d := d.endBeatRecords p n false
    if d.flag (TAB_BCTL p) 0 then d else d.release p n 0
  else d

/-! ### Rounds (R59, R62, R63, R91, R93, R267 to R269) -/

/-- Every usable core of the region has reported FINAL for a beat not before `n` (R59). -/
def Dev.regionFinal (d : Dev) (r n : Nat) : Bool :=
  (d.coresOf r).all (fun c => match (d.core c.2).final with
    | some b => b == n || (b != n && (b + 2 ^ 48 - n) % 2 ^ 48 < 2 ^ 47)
    | none => false)

/-- All counting points of partition `p` report FINAL for beat `n`. -/
def Dev.allFinal (d : Dev) (p n : Nat) : Bool := (d.regionsOf p).all (fun r => d.regionFinal r n)

/-- What a device-internal round finds here for beat `n` of partition `p` (R62, R64).  FLAGS bit 3 LEAP is never set (log entry
177). -/
def Dev.ownReport (d : Dev) (p n : Nat) : Tattoo :=
  { bareTattoo p 0 n (natOf (d.allFinal p n) + 2 * natOf (d.flag (TAB_BSTAT p) 0) + 4 * natOf (d.bstate p == 2) +
      16 * natOf (d.part p).resume) with sent := d.sentSum p n, filed := d.filedSum p n, nreport := 1 }

/-- The sum of two REPORTs (R62, R64, R91, R93): FINAL and RESUME where both have them, the other flags where either has. -/
def Tattoo.plus (a b : Tattoo) : Tattoo :=
  { a with flags := (a.flags &&& b.flags &&& 17) + ((a.flags ||| b.flags) &&& 14), sent := (a.sent + b.sent) % 2 ^ 64,
           filed := (a.filed + b.filed) % 2 ^ 64, nreport := a.nreport + b.nreport }

/-- A round of beat `n` ends at the Tabor that runs the rounds, with the sums `t` of all its REPORTs (R62, R63, R91, R93).  The filed
sum exceeds the sent sum where their difference modulo 2^32 is 2^31 or more (log entry 178). -/
def Dev.roundEnds (d : Dev) (p n : Nat) (t : Tattoo) : Dev :=
  let whole := ! d.spans p || t.nreport == d.fld (TAB_SPAN p) 0 10
  let d := if bitAt t.flags 2 then d.requestMuffle p else d
  if d.bstate p == 3 then
    if ! (d.part p).resume then d
    else if bitAt t.flags 4 && whole then d.resumeNow p (beatInc (d.beat p)) else d.nextRound p
  else if ! d.running p then d
  else if ! (n == d.beat p || (d.part p).openBeats.any (fun b => b.1 == n)) then d.nextRound p
  else
    let diff := (t.sent + 2 ^ 32 - t.filed % 2 ^ 32) % 2 ^ 32
    let d := if diff = 0 && bitAt t.flags 0 && whole then d.settle p n
      else if 2 ^ 31 ≤ diff then d.fault fSettle [p] 0 else d
    if d.running p then d.nextRound p else d

/-- A member of a span group whose children have all answered the GATHER answers it with the counts and the FINAL state of its latest
complete round and theirs (R268); where it has none of that beat, with what it finds now (log entry 172). -/
def Dev.answerGather (d : Dev) (p : Nat) : Dev :=
  let x := d.part p
  match x.gather, x.parent with
  | some g, some m =>
    if (d.spanKids p).all (fun k => x.reps.any (fun y => y.1 == k)) then
      let now := d.ownReport p g.beat
      let own := match x.latest with
        | some l => if l.beat = g.beat then { l with flags := putBits now.flags 0 1 l.flags } else now
        | none => now
      (d.setPart p { x with gather := none, reps := [] }).sendTattoo 0x11 m
        (x.reps.foldl (fun a y => a.plus y.2) { own with round := g.round })
    else d
  | _, _ => d

/-- A REPORT of a round comes from device `src` (R62, R268, R269); from this device it is the device-internal round's, whose sums are
those that stand here now.  One of an older ROUND is discarded. -/
def Dev.reportReceived (d : Dev) (src : Nat) (t : Tattoo) : Dev :=
  let p := t.part % 16
  let x := d.part p
  let own := d.devId
  let add (t : Tattoo) : List (Nat × Tattoo) := x.reps.filter (fun y => y.1 != src) ++ [(src, t)]
  if d.choked p || (src ≠ own && ! (d.spanKids p).contains src) then d
  else if src ≠ own && ! d.isLead p then
    match x.gather with
    | some g => if g.round = t.round && g.beat = t.beat then (d.setPart p { x with reps := add t }).answerGather p else d
    | none => d
  else if x.roundOut != some t.beat || t.round ≠ x.round % 65536 then d
  else if ! d.isLead p then (d.setPart p { x with latest := some (d.ownReport p t.beat) }).nextRound p
  else
    let l := add (if src = own then d.ownReport p t.beat else t)
    let d := d.setPart p { x with reps := l }
    if (own :: d.spanKids p).all (fun m => l.any (fun y => y.1 == m)) then
      d.roundEnds p t.beat (match l with
        | y :: r => r.foldl (fun a z => a.plus z.2) y.2
        | [] => default)
    else d

/-- A round is abandoned and the next begins (R269). -/
def Dev.roundAbandon (d : Dev) (p : Nat) : Dev :=
  if (d.part p).roundOut.isSome && ! d.choked p then
    (d.bump (FAB_TATTOOTMO (if (d.regionsOf p).headD 0 < 8 then 0 else 1)) 1).nextRound p
  else d

/-- A GATHER comes from device `src`, the parent in the tree, to a member of a span group (R62, R268): it goes on to the children, and
a leaf answers at once. -/
def Dev.gatherReceived (d : Dev) (src : Nat) (t : Tattoo) : Dev :=
  let p := t.part % 16
  let x := d.part p
  if d.spans p && ! d.isLead p && ! d.choked p && x.parent == some src then
    ((d.setPart p { x with gather := some t, reps := [] }).sendDown 0x10 p (bareTattoo p t.round t.beat 0)).answerGather p
  else d

/-- A beat's counts close unsettled after four later beats (R71). -/
def Dev.countsClose (d : Dev) (p : Nat) : Dev :=
  let x := d.part p
  match x.openBeats.find? (fun b => 4 ≤ b.2) with
  | none => d
  | some b =>
    let diff := (d.sentSum p b.1 + 2 ^ 32 - d.filedSum p b.1) % 2 ^ 32
    let d := d.bump (TAB_UNSETTLED p) (if diff < 2 ^ 31 then diff else 2 ^ 32 - diff)
    let d := d.setPart p { x with openBeats := x.openBeats.filter (fun o => o.1 != b.1) }
    d.endBeatRecords p b.1 true

/-! ### Muffle (R90 to R93) -/

/-- A Muffle request not in effect after 64 beats completes its commands with TIMEOUT and stays pending (R92). -/
def Dev.muffleTimeout (d : Dev) (p : Nat) : Dev :=
  match (d.part p).muffle with
  | some k => if 64 ≤ k then
      d.endWaiting (fun w => w.what == .muffle && w.hdr.part % 16 == p) (fun _ => (.timeout, [])) else d
  | none => d

/-- Withdraw a pending Muffle (R92). -/
def Dev.withdrawMuffle (d : Dev) (p : Nat) : Dev :=
  let d := (d.setF (TAB_BSTAT p) 16 3 1).setPart p { (d.part p) with muffle := none }
  d.endWaiting (fun w => w.what == .muffle && w.hdr.part % 16 == p) (fun _ => (.incomplete, []))

/-- The partition's start or resume waits: for an external boundary (R88, R89) or for the group (R74, R93). -/
def Dev.startWaits (d : Dev) (p : Nat) : Bool :=
  d.flag (TAB_BCTL p) 4 || (d.flag (TAB_BCTL p) 8 && d.flag (TAB_BCTL p) 0 && ! d.isLead p)

/-- The START of an IDLE partition (R88, R96). -/
def Dev.start (d : Dev) (p f : Nat) : Dev :=
  if d.startWaits p then d.setPart p { (d.part p) with startAt := some f } else d.startNow p f

/-- The resume of a Muffled partition, whose next beat starts in the tick after where it waits for nothing; the lead of a lockstep span gathers its members' RESUME (R93). -/
def Dev.resume (d : Dev) (p : Nat) : Dev :=
  if d.flag (TAB_BCTL p) 4 || (d.spans p && d.flag (TAB_BCTL p) 0) then
    let d := d.setPart p { (d.part p) with resume := true }
    if d.flag (TAB_BCTL p) 4 || ! d.isLead p then d else d.nextRound p
  else (d.advance 1).resumeNow p (beatInc (d.beat p))

/-- The beat number of a partition in external time, at the present boundary (R88). -/
def Dev.extBeat (d : Dev) (p : Nat) : Nat :=
  (d.time - d.rg64 (TAB_EPOCH_LO p)) / max 1 (d.fld (TAB_BPERIOD p) 0 29) % 2 ^ 48

/-- The first beat of an EXTLOCK partition that waits, at a boundary reached while LOCKED (R88, R89, R93): ticks pass
until that boundary. -/
def Dev.extFirstBeat (d : Dev) (p : Nat) : Dev :=
  let x := d.part p
  if ! d.flag (TAB_BCTL p) 4 || d.tlState ≠ 2 || ! (x.startAt.isSome && d.bstate p == 0 || x.resume && d.bstate p == 3) then d
  else
    let e := d.rg64 (TAB_EPOCH_LO p)
    let per := max 1 (d.fld (TAB_BPERIOD p) 0 29)
    let d := if d.time < e then d.advance (e - d.time) else d.advance ((per - (d.time - e) % per) % per)
    if d.bstate p == 0 then d.startNow p (d.extBeat p) else d.resumeNow p (d.extBeat p)

/-- What a RELEASE does at a member of a span group (R74 to R76, R91, R93). -/
def Dev.releaseHere (d : Dev) (p b flags : Nat) : Dev :=
  if bitAt flags 2 then (if d.running p then (d.settle p b).muffleNow p b else d)
  else if ! d.flag (TAB_BCTL p) 0 then
    if ! d.running p then d
    else if b = d.beat p then (d.setPart p { (d.part p) with notice := some b }).settle p b
    else d.settle p b
  else if d.bstate p == 0 then (if (d.part p).startAt.isSome then d.startNow p b else d)
  else if d.bstate p == 3 then (if b == beatInc (d.beat p) then d.resumeNow p b else d)
  else if d.running p && b == beatInc (d.beat p) then
    let ovr := bitAt flags 1
    let c := d.rg (TAB_BCOUNT p)
    let d := if ovr then d else d.settle p (d.beat p)
    d.beginBeat p b c ovr false
  else d

/-- A RELEASE reaches a member of a span group and goes on to its children. -/
def Dev.releaseReceived (d : Dev) (t : Tattoo) : Dev :=
  let p := t.part % 16
  if ! d.flag (TAB_BCTL p) 8 || d.isLead p || d.choked p then d
  else (d.sendDown 0x12 p (bareTattoo p t.round (t.beat % 2 ^ 48) t.flags)).releaseHere p (t.beat % 2 ^ 48) t.flags

/-! ### Class 0 flits that arrive (R238, R256, R262) -/

/-- A Tattoo flit for this device, by its TYPE (R64). -/
def Dev.tattooHere (d : Dev) (l : List Byte) : Dev :=
  if c0Type l = 0x10 then d.gatherReceived (c0Src l) (tattooOf l)
  else if c0Type l = 0x11 then d.reportReceived (c0Src l) (tattooOf l)
  else if c0Type l = 0x12 then d.releaseReceived (tattooOf l)
  else d

/-- A class 0 flit arrives on port `q`, with the link tags since the last arrival (R256, R262): one marked ERR, or that fails its
check, is discarded at this hop; a Tattoo for this device acts here; any other goes on by dimension order with HOPS one up. -/
def Dev.classZero (d : Dev) (q : Nat) (tags : List Nat) (l : List Byte) (corr : Nat) : Dev :=
  let x := d.linkIn q tags 1 corr
  let d := x.1
  let src := some (q, 0)
  if x.2 then d.leaveInput src 1
  else if ! c0Good l then (d.leaveInput src 1).crcFail q
  else if c0Kind l = 1 && c0Dest l = d.devId then (d.leaveInput src 1).tattooHere l
  else d.sendZero (portDie q) src (splice l 0 (leBytes 4 (putBits (leAt l 0 4) 22 4 (c0Hops l + 1))))

/-! ### The period (R68, R80 to R82) -/

def periodLegal (per : Nat) (span : Bool) : Bool := (if span then 8000 else 4000) ≤ per && per ≤ 400000000

/-- A period change must wait for IDLE or MUFFLED (R82). -/
def Dev.periodHeld (d : Dev) (p : Nat) : Bool :=
  (d.flag (TAB_BCTL p) 4 || (d.flag (TAB_BCTL p) 8 && d.flag (TAB_BCTL p) 0 && d.isLead p)) && ! d.still p

/-- A new period takes effect in the present beat (R80, R81), also in one that leaps: a count below it has its period event still
to come; one at or above it wraps in the next tick, and the period event fires there. -/
def Dev.newPeriod (d : Dev) (p per : Nat) : Dev :=
  let c := d.rg (TAB_BCOUNT p)
  let d := d.setF (TAB_BPERIOD p) 0 29 per
  if d.running p && ! d.follows p then
    let d := d.setPart p { (d.part p) with leap := none }
    if per ≤ c then
      let d := (d.advance 1).setFlag (TAB_BSTAT p) 3 true
      (d.setR (TAB_BCOUNT p) c).periodFires p c 0
    else d
  else d

/-- The register write of TAB_BPERIOD by function `f` (R68, R82). -/
def Dev.bperiodWrite (d : Dev) (f p v : Nat) : Dev :=
  if f ≠ 0 && f ≠ p then d.addrErr
  else if ! periodLegal (v % 2 ^ 29) (d.flag (TAB_BCTL p) 8) || d.periodHeld p then d.setFlag (TAB_BSTAT p) 5 true
  else d.newPeriod p (v % 2 ^ 29)

/-! ### Commands (R100 to R102) -/

def beatSpec (op : Nat) (len : Nat) (ro : Bool := false) (rsv : List (Nat × Nat) := []) : CmdSpec :=
  { opcode := op, issuer := .owner, names := true, ro := ro, len := lenIs len, rsv := rsv }

def cBeatConfig : CmdSpec :=
  beatSpec 0x0101 32 false ([(1, 0xFC), (3, 0xFE)] ++ rsvd 14 2 ++ rsvd 24 8)

def Dev.beatConfig (d : Dev) (h : Hdr) (pl : List Byte) : Dev × Ans :=
  let p := h.part
  let mode := byteAt pl 0
  let ext := bitAt (byteAt pl 1) 0
  let span := bitAt (byteAt pl 1) 1
  let lead := leAt pl 2 2
  let per := leAt pl 4 4
  let lim := leAt pl 8 4
  let ndev := leAt pl 12 2
  let own := d.devId
  let bad := 1 < mode || ! periodLegal per span || 2 ^ 29 ≤ lim || ndev = 0 || 512 < ndev || (ext && mode == 1) ||
    (span && mode == 0 && ! ext) || ! (lead == own || d.fabDevs.contains lead) || (ndev = 1 && lead ≠ own) || d.unconnected p lead ndev ||
    (h.func ≠ 0 && (span != d.flag (TAB_BCTL p) 8 || lead ≠ d.fld (TAB_SPAN p) 16 9 || ndev ≠ d.fld (TAB_SPAN p) 0 10))
  if ! d.still p then (d, .st .busy)
  else if bad then (d, .st .denied)
  else
    let d := d.setR (TAB_BCTL p) (mode + 16 * natOf ext + 256 * natOf span)
    let d := (d.setR (TAB_BPERIOD p) per).setR (TAB_LEAPLIM p) lim
    let d := d.setR (TAB_SPAN p) (65536 * lead + ndev)
    let d := (d.setR (TAB_EPOCH_LO p) (leAt pl 16 4)).setR (TAB_EPOCH_HI p) (leAt pl 20 4)
    let d := d.spanTree p
    (if span then d.sendLinkState else d, .st .ok)

def cBeatOffsets : CmdSpec := beatSpec 0x0102 64

/-- Entries of other partitions' regions are ignored, their reserved bits too (R100). -/
def Dev.beatOffsets (d : Dev) (h : Hdr) (pl : List Byte) : Dev × Ans :=
  if (d.regionsOf h.part).any (fun r => 4 ≤ byteAt pl (4 * r + 3)) then (d, .st .denied) else
  (d.forEach (d.regionsOf h.part) (fun d r => d.setF (TAB_CHOFF r) 0 26 (leAt pl (4 * r) 4)), .st .ok)

def cBeatStart : CmdSpec := beatSpec 0x0103 8

/-- The first beat number is taken modulo 2^48 (R56, R100). -/
def Dev.beatStart (d : Dev) (h : Hdr) (pl : List Byte) : Dev × Ans :=
  let p := h.part
  if d.bstate p ≠ 0 || (d.part p).startAt.isSome then (d, .st .busy)
  else
    let f := leAt pl 0 6
    let d := d.start p f
    if (d.part p).startAt.isSome then (d, .wait .start) else (d, .done .ok 0 (leBytes 8 f))

def cBeatMuffle : CmdSpec := beatSpec 0x0104 0

def Dev.beatMuffle (d : Dev) (h : Hdr) (_pl : List Byte) : Dev × Ans :=
  let p := h.part
  if d.bstate p == 3 then (d, .done .ok 0 (leBytes 8 (d.beat p)))
  else if d.running p then (d.requestMuffle p, .wait .muffle)
  else (d, .st .busy)

def cBeatResume : CmdSpec := beatSpec 0x0105 0

def Dev.beatResume (d : Dev) (h : Hdr) (_pl : List Byte) : Dev × Ans :=
  let p := h.part
  if d.bstate p == 4 then (d, .st .denied)
  else if d.bstate p == 2 then
    let d := d.withdrawMuffle p
    let v := d.fresh 48
    (v.2, .done .ok 0 (leBytes 8 v.1))
  else if d.bstate p ≠ 3 || (d.part p).resume then (d, .st .busy)
  else
    let d := d.resume p
    if (d.part p).resume then (d, .wait .resume) else (d, .done .ok 0 (leBytes 8 (d.beat p)))

def cBeatPeriod : CmdSpec := beatSpec 0x0106 4

def Dev.beatPeriod (d : Dev) (h : Hdr) (pl : List Byte) : Dev × Ans :=
  let p := h.part
  let per := leAt pl 0 4
  if d.periodHeld p then (d, .st .busy)
  else if ! periodLegal per (d.flag (TAB_BCTL p) 8) ||
      (per ≠ d.fld (TAB_BPERIOD p) 0 29 && d.ckptTooFast p per (d.seasonLen p)) then (d, .st .denied)
  else (d.newPeriod p per, .st .ok)

def cBeatStatus : CmdSpec := beatSpec 0x0107 0 true

def Dev.beatStatus (d : Dev) (h : Hdr) (_pl : List Byte) : Dev × Ans :=
  let p := h.part
  let s := d.rg (TAB_BSTAT p)
  let fl := bitsOf s 1 1 + 2 * bitsOf s 2 1 + 4 * bitsOf s 3 1 + 8 * d.fld (TAB_BCTL p) 4 1 + 16 * natOf (d.tlState == 2)
  (d, .done .ok 0 (leBytes 8 (d.beat p) ++ leBytes 1 (d.bstate p) ++ leBytes 1 fl ++ zeros 2 ++
    leBytes 4 (d.rg (TAB_SETTLE p)) ++ leBytes 4 (d.rg (TAB_OVRCNT p)) ++ leBytes 4 (d.rg (TAB_LEAPCNT p)) ++
    leBytes 4 (d.rg (TAB_LASTLEAP p)) ++ leBytes 4 (d.rg (TAB_UNSETTLED p))))

/-! ### Time discipline (R83 to R87) -/

/-- Change TAB_TLSTAT.STATE; a change arrives at device Tocsin source 17 (R499). -/
def Dev.setTlState (d : Dev) (s : Nat) : Dev :=
  if d.tlState = s then d else (d.setF TAB_TLSTAT 0 2 s).tocArrive 288 17 0 s 0 false

/-- The time source in force: values 5 to 7 are treated as 0 (R83). -/
def Dev.timeSrc (d : Dev) : Nat := if 4 < d.fld TAB_TLCTL 0 3 then 0 else d.fld TAB_TLCTL 0 3

/-- Select a time source (R83, R84). -/
def Dev.setTimeSource (d : Dev) (src : Nat) : Dev :=
  if d.fld TAB_TLCTL 0 3 = src then d
  else
    let d := d.setF TAB_TLCTL 0 3 src
    let d := { d with ppsLast := none, ppsCorr := false, slew := 0,
                      ptp := { d.ptp with good := 0, last := none, sync := none, delay := none, master := [], quality := [] } }
    let d := (d.setF TAB_TLSTAT 4 2 0).setF TUN_PTPSTAT 0 2 0
    let d := d.setFlag TAB_TLSTAT 8 false
    d.setTlState (if d.timeSrc = 0 then 0 else 1)

/-- The signed distance of a capture from the nearest second of the timebase, in ticks. -/
def Dev.phaseTicks (t : Nat) : Int :=
  let m := t % 400000000
  if m < 200000000 then (m : Int) else (m : Int) - 400000000

/-- Enter HOLDOVER and raise an alarm (R86). -/
def Dev.holdover (d : Dev) : Dev := ((d.setF TAB_TLSTAT 4 2 0).setTlState 3).raiseAlarm 0x80 []

/-- `dt` ticks of the corrected frequency pass: slewing adds to them or takes from them at most 10 ppm (R85). -/
def Dev.slewPass (d : Dev) (dt : Nat) : Dev :=
  let m : Int := (dt / 100000 : Nat)
  let s := clampI (-m) m d.slew
  { d.advance ((dt : Int) + s).toNat with slew := d.slew - s }

/-- A phase error of the timebase, in ticks ahead of the source, is to be slewed out (R85). -/
def Dev.slewOut (d : Dev) (off : Int) : Dev := { d with slew := -off }.setR TAB_PHERR (uOf 32 (off * 2500))

/-- The frequency correction is `ppb` parts per 10^9, within ±50 ppm (R84). -/
def Dev.setFreq (d : Dev) (ppb : Int) : Dev := d.setR TAB_FREQCORR (uOf 32 (clampI (-50000) 50000 ppb))

/-- What the correction has to rise by so that a second of the source, which now lasts `n` ticks, lasts 400,000,000 (R84). -/
def freqStep (n : Nat) : Int := (400000000 - (n : Int)) * 5 / 2

/-- A PPS edge `dt` ticks of the corrected frequency after the last event (R84 to R86).  The frequency is measured over the interval
since the edge before for SRC 1, and for SRC 2 by the `ref` ticks that 10,000,000 cycles of the 10 MHz input take.  While
TAB_TAISEC holds no value the Tabor stays in ACQUIRING (R564). -/
def Dev.ppsEdge (d : Dev) (dt ref : Nat) : Dev :=
  let before := d.slew
  let d := d.slewPass dt
  let slewed := before - d.slew
  let src := d.timeSrc
  let t := d.time
  let last := d.ppsLast
  let d := { d with ppsLast := some t }
  let old := sInt 32 (d.rg TAB_FREQCORR)
  -- the ticks of the last second of the source, what slewing moved them by left out
  let second : Option Nat := if src = 2 then some ref else last.map (fun l => ((t : Int) - l - slewed).toNat)
  if src ≠ 1 && src ≠ 2 then d
  else if d.tlState = 1 then
    if ! d.ppsCorr then
      match second with
      | some n => { d with ppsCorr := true, ppsLast := none }.setFreq (old + freqStep n)
      | none => d
    else if ! d.taiSet then d
    else
      let agree := match last with
        | some l => t ≤ l + 400000008 && l + 399999992 ≤ t
        | none => false
      let k := if agree then min 3 (d.fld TAB_TLSTAT 4 2 + 1) else 1
      let d := d.setF TAB_TLSTAT 4 2 k
      if k = 3 then
        let t' := d.rg64 TAB_TAISEC_LO * 400000000 % 2 ^ 64
        let d := { (d.set64 TAB_TIME_LO t') with ppsLast := some t', slew := 0 }
        ((d.setFlag TAB_TLSTAT 8 true).setR TAB_PHERR 0).setTlState 2
      else d
  else
    let off := Dev.phaseTicks t
    let near := -400 ≤ off && off ≤ 400
    if d.tlState = 2 then
      if near then
        let room : Int := match last with
          | some l => ((10 * (t - l) / 400000000 : Nat) : Int)
          | none => 0
        (d.setFreq (old + (match second with | some n => clampI (-room) room (freqStep n) | none => 0))).slewOut off
      else d.holdover
    else if d.tlState = 3 then
      if near then
        let k := min 3 (d.fld TAB_TLSTAT 4 2 + 1)
        let d := d.setF TAB_TLSTAT 4 2 k
        if k = 3 then (d.slewOut off).setTlState 2 else d
      else d.setF TAB_TLSTAT 4 2 0
    else d

/-- No PPS edge for 2 s (R86): ticks pass until 800,000,000 after the last edge. -/
def Dev.ppsLoss (d : Dev) : Dev :=
  if (d.timeSrc = 1 || d.timeSrc = 2) && d.tlState = 2 then
    (d.advance (d.ppsLast.getD d.time + 800000000 - d.time)).holdover else d

/-- The PPS output (R87): LOCKED, HOLDOVER and FREE drive it when enabled; ticks pass until the second. -/
def Dev.ppsOut (d : Dev) : Dev :=
  if d.flag TAB_TLCTL 4 && d.tlState ≠ 1 then
    let d := d.advance ((400000000 - d.time % 400000000) % 400000000)
    { d with pins := { d.pins with ppsOut := true } }.emit (.pin 1 1)
  else d

/-- Every partition with EXTLOCK set is IDLE or MUFFLED (R86, R480). -/
def Dev.extStill (d : Dev) : Bool := (upTo 16).all (fun p => ! d.flag (TAB_BCTL p) 4 || d.still p)

/-- RELOCK steps the timebase to the source and locks it (R86): after a PPS capture the timebase reads TAB_TAISEC seconds
plus the ticks since that capture; under PTP the offset measured is taken out. -/
def Dev.relock (d : Dev) : Dev :=
  let src := d.timeSrc
  let sec := d.rg64 TAB_TAISEC_LO * 400000000
  let pps := src = 1 || src = 2
  let t := if pps then sec + (d.time - d.ppsLast.getD d.time) else uOf 64 ((d.time : Int) - rndAway d.ptp.off 2500)
  let d := { (d.set64 TAB_TIME_LO (t % 2 ^ 64)) with ppsLast := if pps then some (sec % 2 ^ 64) else none, slew := 0 }
  let d := if src = 3 || src = 4 then d.setF TUN_PTPSTAT 0 2 (if d.ptp.master.isEmpty then 0 else 2) else d
  ((d.setFlag TAB_TLSTAT 8 true).setR TAB_PHERR 0).setTlState 2

/-- A source is selected that the timebase can be relocked to, and the timebase is in HOLDOVER (R86). -/
def Dev.canRelock (d : Dev) : Bool := d.tlState == 3

def cTimeConfig : CmdSpec :=
  { opcode := 0x0108, issuer := .pf, names := false, ro := false, len := lenIs 16, rsv := rsvd 2 6 }

def Dev.timeConfig (d : Dev) (_h : Hdr) (pl : List Byte) : Dev × Ans :=
  if 4 < byteAt pl 0 || 1 < byteAt pl 1 then (d, .st .denied)
  else
    let d := { (d.set64 TAB_TAISEC_LO (leAt pl 8 8)) with taiSet := true }
    let d := (d.setFlag TAB_TLCTL 4 (byteAt pl 1 == 1)).setTimeSource (byteAt pl 0)
    ({ d with car := { d.car with keepCfg := SMap.set [] d.car.keepCfg 1 pl } }, .st .ok)

def cTimeStatus : CmdSpec :=
  { opcode := 0x0109, issuer := .any, names := false, ro := true, len := lenIs 0 }

def Dev.timeStatus (d : Dev) (h : Hdr) (_pl : List Byte) : Dev × Ans :=
  (d, .done .ok 0 (leBytes 4 (d.rg TAB_TLSTAT) ++ leBytes 4 (if h.func = 0 then d.rg TAB_PHERR else 0)))

def cTimeRelock : CmdSpec :=
  { opcode := 0x010A, issuer := .pf, names := false, ro := false, len := lenIs 0 }

def Dev.timeRelock (d : Dev) (_h : Hdr) (_pl : List Byte) : Dev × Ans :=
  if ! d.extStill then (d, .st .busy)
  else if ! d.canRelock then (d, .st .denied)
  else (d.relock, .st .ok)

/-! ### Register writes of the Tabor -/

/-- TAB_BCMD written by function `f`: a virtual function writes its own partition's (R52, R95). -/
def Dev.bcmdAllowed (f p : Nat) : Bool := f == 0 || f == p

def Dev.bcmdStart (d : Dev) (f p : Nat) : Dev :=
  if ! Dev.bcmdAllowed f p then d.addrErr
  else if d.bstate p == 0 && (d.part p).startAt.isNone && ! (d.regionsOf p).isEmpty then d.start p (d.beat p) else d

def Dev.bcmdMuffle (d : Dev) (f p : Nat) : Dev :=
  if ! Dev.bcmdAllowed f p then d.addrErr else d.requestMuffle p

def Dev.bcmdResume (d : Dev) (f p : Nat) : Dev :=
  if ! Dev.bcmdAllowed f p then d.addrErr
  else if d.bstate p == 2 then d.withdrawMuffle p
  else if d.bstate p == 3 && ! (d.part p).resume then d.resume p else d

def Dev.tlctlRelock (d : Dev) (f : Nat) : Dev :=
  if f ≠ 0 then d.addrErr else if d.extStill && d.canRelock then d.relock else d

/-- TAB_TSET_HI written (R480): the step happens at the next tick. -/
def Dev.tsetHi (d : Dev) (f hi : Nat) : Dev :=
  if f ≠ 0 then d.addrErr
  else if d.timeSrc = 0 && d.extStill then d.set64 TAB_TIME_LO (d.rg TAB_TSET_LO + 2 ^ 32 * (hi % 2 ^ 32))
  else d.setFlag TAB_TBSTAT 0 true

/-! ### Meanings -/

def execBeatConfig (h : Hdr) (pl : List Byte) (s : State) : Outcome := s.run (·.serve cBeatConfig Dev.beatConfig h pl)
def execBeatOffsets (h : Hdr) (pl : List Byte) (s : State) : Outcome := s.run (·.serve cBeatOffsets Dev.beatOffsets h pl)
def execBeatStart (h : Hdr) (pl : List Byte) (s : State) : Outcome := s.run (·.serve cBeatStart Dev.beatStart h pl)
def execBeatMuffle (h : Hdr) (pl : List Byte) (s : State) : Outcome := s.run (·.serve cBeatMuffle Dev.beatMuffle h pl)
def execBeatResume (h : Hdr) (pl : List Byte) (s : State) : Outcome := s.run (·.serve cBeatResume Dev.beatResume h pl)
def execBeatPeriod (h : Hdr) (pl : List Byte) (s : State) : Outcome := s.run (·.serve cBeatPeriod Dev.beatPeriod h pl)
def execBeatStatus (h : Hdr) (pl : List Byte) (s : State) : Outcome := s.run (·.serve cBeatStatus Dev.beatStatus h pl)
def execTimeConfig (h : Hdr) (pl : List Byte) (s : State) : Outcome := s.run (·.serve cTimeConfig Dev.timeConfig h pl)
def execTimeStatus (h : Hdr) (pl : List Byte) (s : State) : Outcome := s.run (·.serve cTimeStatus Dev.timeStatus h pl)
def execTimeRelock (h : Hdr) (pl : List Byte) (s : State) : Outcome := s.run (·.serve cTimeRelock Dev.timeRelock h pl)
def execTabBcmdStart (f p : Nat) (s : State) : Outcome := s.run (·.bcmdStart f p)
def execTabBcmdMuffle (f p : Nat) (s : State) : Outcome := s.run (·.bcmdMuffle f p)
def execTabBcmdResume (f p : Nat) (s : State) : Outcome := s.run (·.bcmdResume f p)
def execTabBperiodWrite (f p v : Nat) (s : State) : Outcome := s.run (·.bperiodWrite f p v)
def execTabTlctlRelock (f : Nat) (s : State) : Outcome := s.run (·.tlctlRelock f)
def execTabTsetWrite (f hi : Nat) (s : State) : Outcome := s.run (·.tsetHi f hi)
def execPeriodEvent (p : Nat) (s : State) : Outcome := s.run (·.periodEvent p)
def execLeapLimit (p : Nat) (s : State) : Outcome := s.run (·.leapLimit p)
def execRegionBeatStart (r : Nat) (s : State) : Outcome := s.run (·.regionBeatStart r)
def execReadoutClearEnd (r : Nat) (s : State) : Outcome := s.run (·.readoutClearEnd r)
def execBeatCountsClose (p : Nat) (s : State) : Outcome := s.run (·.countsClose p)
def execMuffleTakesEffect (p : Nat) (s : State) : Outcome := s.run (·.muffleTakesEffect p)
def execMuffleTimeout (p : Nat) (s : State) : Outcome := s.run (·.muffleTimeout p)
def execExtlockFirstBeat (p : Nat) (s : State) : Outcome := s.run (·.extFirstBeat p)
def execGatherReceived (m : TattooIn) (s : State) : Outcome := s.run (·.gatherReceived m.src m.t)
/-- The REPORT is of partition `p` and beat `beat`; the flit gives the rest (R64). -/
def execReportReceived (p : Nat) (beat : Nat) (m : TattooIn) (s : State) : Outcome :=
  s.run (·.reportReceived m.src { m.t with part := p, beat := beat })
def execReleaseReceived (t : Tattoo) (s : State) : Outcome := s.run (·.releaseReceived t)
def execRoundAbandon (p : Nat) (s : State) : Outcome := s.run (·.roundAbandon p)
/-- The edge comes `sec` seconds and `dt` ticks of the corrected frequency after the last event (R84). -/
def execPpsEdge (sec : Nat) (dt : Nat) (ref : Nat) (s : State) : Outcome := s.run (·.ppsEdge (400000000 * sec + dt) ref)
def execPpsLoss (s : State) : Outcome := s.run (·.ppsLoss)
def execPpsOutputEdge (s : State) : Outcome := s.run (·.ppsOut)
def execClass0FlitForward (port : Nat) (bytes : List Byte) (x : LinkIn) (s : State) : Outcome :=
  s.run (·.classZero port x.tags bytes x.corr)

end Sys2Proof.Machine
end

