-- ==== Sys2Proof/Machine/CmdAxon.lean ====
section
/-! DEFINITION. The commands and events of the axon and Almanac chapter. -/

namespace Sys2Proof.Machine

/-- AXON_RANGE (R232): Bellpull command that sets a partition's axon-table range on a die. -/
def execAxonRange (h : Hdr) (pl : List Byte) (s : State) : Outcome := s.run (·.serve cAxonRange Dev.axonRange h pl)
/-- AXON_CORE_BASE (R232): Bellpull command that sets or invalidates a core's CBASE. -/
def execAxonCoreBase (h : Hdr) (pl : List Byte) (s : State) : Outcome := s.run (·.serve cAxonCoreBase Dev.axonCoreBase h pl)
/-- AXON_LOAD (R192): Bellpull command that checks and writes axon entries. -/
def execAxonLoad (h : Hdr) (pl : List Byte) (s : State) : Outcome := s.run (·.serve cAxonLoad Dev.axonLoad h pl)
/-- AXON_READ (R232): Bellpull command that returns axon entries. -/
def execAxonRead (h : Hdr) (pl : List Byte) (s : State) : Outcome := s.run (·.serve cAxonRead Dev.axonReadCmd h pl)
/-- ALMANAC_CONFIG (R234): Bellpull command that empties the Almanac and assigns far-window banks and late policy.
-/
def execAlmanacConfig (h : Hdr) (pl : List Byte) (s : State) : Outcome := s.run (·.serve cAlmanacConfig Dev.almanacConfig h pl)
/-- ALMANAC_READ (R233): Bellpull command that returns pending Almanac records. -/
def execAlmanacRead (h : Hdr) (pl : List Byte) (s : State) : Outcome := s.run (·.serve cAlmanacRead Dev.almanacRead h pl)
/-- ALMANAC_LOAD (R233): Bellpull command that files pending records into the Almanac. -/
def execAlmanacLoad (h : Hdr) (pl : List Byte) (s : State) : Outcome := s.run (·.serve cAlmanacLoad Dev.almanacLoad h pl)
/-- READOUT_CONFIG (R232): Bellpull command that sets the readout region, banks and export count. -/
def execReadoutConfig (h : Hdr) (pl : List Byte) (s : State) : Outcome := s.run (·.serve cReadoutConfig Dev.readoutConfig h pl)
/-- READOUT_READ (R232): Bellpull command that returns slots of the last closed frame. -/
def execReadoutRead (h : Hdr) (pl : List Byte) (s : State) : Outcome := s.run (·.serve cReadoutRead Dev.readoutRead h pl)
/-- EVENT_RINGS (R663): Bellpull command that configures and enables the partition's host event rings. -/
def execEventRings (h : Hdr) (pl : List Byte) (s : State) : Outcome := s.run (·.serve cEventRings Dev.eventRings h pl)
/-- AXN_STATUS (R232): Bellpull command that returns a die's AXN registers. -/
def execAxnStatus (h : Hdr) (pl : List Byte) (s : State) : Outcome := s.run (·.serve cAxnStatus Dev.axnStatus h pl)
/-- AXON_LOOKUP (R186): A fire-log entry reaches the die router and its axon entry is read to produce copies. -/
def execAxonLookup (q : Nat) (s : State) : Outcome := s.run (·.axonLookup q)
/-- PEAL_COPY_DROP (R194): A Peal copy that cannot move within 512 cycles is dropped and counted as filed. -/
def execPealCopyDrop (die : Nat) (c : PealCopy) (s : State) : Outcome := s.run (·.pealDrop die c.dev c.ev)
/-- PACKET_COALESCE_EXPIRY (R237): COALESCE cycles pass since a packet's first record and the packet is sent. -/
def execPacketCoalesceExpiry (k : Nat) (s : State) : Outcome := s.run (·.coalesce k)
/-- EVENT_RECORD_ARRIVAL (R660): An event record reaches its destination region router and is filed, spilled or
dropped. -/
def execEventRecordArrival (ev : Event) (s : State) : Outcome := s.run (·.eventArrives ev)
/-- EVENT_DISPOSAL_TIMEOUT (R249): A record not disposed of within 256 cycles is dropped and counted as filed. -/
def execEventDisposalTimeout (ev : Event) (s : State) : Outcome := s.run (·.eventTimeout ev)
/-- MIGRATION (R209): Once every core closed its slot of beat B, the router migrates the list of beat B + 64. -/
def execMigration (r : Nat) (s : State) : Outcome := s.run (·.migrate r)
/-- REFILL (R210): The router refills a draining slot from the far list of its beat. -/
def execRefill (q : Nat) (stall : Nat) (s : State) : Outcome := s.run (·.refill q stall)
/-- INPUT_RECORD (R219): An input-ring record is read and accepted or rejected at the ingress router. -/
def execInputRecord (p : Nat) (rec : List Byte) (s : State) : Outcome := s.run (·.inputRecord p rec)
/-- OUTPUT_RECORD_WRITE (R221): A SPIKE, FRAME, BEATEND, MUTE or LOST record is written to the output ring when room
allows. -/
def execOutputRecordWrite (p : Nat) (s : State) : Outcome := s.run (·.outputRecord p)
/-- AXN_IRTAIL_WRITE (R217): Write of the input-ring producer index, the input doorbell. -/
def execAxnIrtailWrite (f : Nat) (p : Nat) (v : Nat) (s : State) : Outcome := s.run (·.irtailWrite f p v)
/-- AXN_ORTAIL_WRITE (R220): Write of the output-ring consumer index, freeing records. -/
def execAxnOrtailWrite (f : Nat) (p : Nat) (v : Nat) (s : State) : Outcome := s.run (·.ortailWrite f p v)
/-- EVENT_RING_CFG_WRITE (R229): Write of AXN_IRCFG or AXN_ORCFG that enables or disables a ring. -/
def execEventRingCfgWrite (f : Nat) (p : Nat) (k : Nat) (v : Nat) (s : State) : Outcome := s.run (·.ringCfgWrite f p k v)

end Sys2Proof.Machine
end

