-- ==== Sys2Proof/Machine/Ddr.lean ====
section
/-! DEFINITION. DDR5: configuration, training, scrubbing, refresh polling and commands (R431 to R448). -/

namespace Sys2Proof.Machine

/-! ### Configuration and training (R431, R432, R443 to R445) -/

/-- A configuration is five bytes: SPEED, WIDTH, DENS, RANKS, ILV. -/
def ddrConfigOk (c : List Byte) : Bool :=
  byteAt c 0 < 5 && byteAt c 1 < 2 && byteAt c 2 < 3 && 1 ≤ byteAt c 3 && byteAt c 3 ≤ 2 && byteAt c 4 < 2

/-- The fitted capacity of a configuration in MiB (R432). -/
def ddrMib (c : List Byte) : Nat :=
  16 * byteAt c 3 * (if byteAt c 1 = 0 then 8 else 4) * (16 + 8 * byteAt c 2) * 128

/-- MEM_CFG of a configuration, ENABLE set (R446). -/
def ddrCfgReg (c : List Byte) : Nat :=
  2 ^ 31 + 2 ^ 20 * byteAt c 0 + 2 ^ 16 * byteAt c 2 + 2 ^ 12 * byteAt c 1 + 2 ^ 8 * (byteAt c 3 - 1) + byteAt c 4

/-- The stored configuration; empty where there is none. -/
def Dev.ddrStored (d : Dev) : List Byte := SMap.get [] d.car.keepCfg 0

/-- The training cache in the Keep is valid: it was made with the stored configuration (R445). -/
def Dev.ddrCacheOk (d : Dev) : Bool := ! d.ddrStored.isEmpty && SMap.get [] d.car.keepCfg 8 == d.ddrStored

def Dev.setKeep (d : Dev) (k : Nat) (l : List Byte) : Dev :=
  { d with car := { d.car with keepCfg := SMap.set [] d.car.keepCfg k l } }

/-- STATE of every channel: 0 OFF, 1 TRAINING, 2 READY, 3 SELFREF. -/
def Dev.ddrStates (d : Dev) (s : Nat) : Dev := d.forEach (upTo 8) (fun d c => d.setF (MEM_CHSTAT (c / 4) (c % 4)) 0 2 s)

/-- A register of both dies' MEM blocks. -/
def Dev.ddrBoth (d : Dev) (f : Nat → Nat) (v : Nat) : Dev := (d.setR (f 0) v).setR (f 1) v
def Dev.ddrFlag (d : Dev) (k : Nat) (b : Bool) : Dev := (d.setFlag (MEM_STAT 0) k b).setFlag (MEM_STAT 1) k b

/-- Training starts (R444): `job` 0 at power-up, 1 at an exit from Ember, 2 cached and 3 full retraining.  Without a stored
configuration DDR5 stays disabled and there is nothing to train. -/
def Dev.ddrStart (d : Dev) (job : Nat) : Dev :=
  if d.ddrStored.isEmpty then { d with cal := { d.cal with ddr := true } }
  else ({ d with cal := { d.cal with ddrJob := some job } }.ddrFlag 0 true).ddrStates 1

/-- Training ends (R444, R445) after `ms` milliseconds: `pass` says whether a cached training's verification passed on every
subchannel, `bad` has bit c set for each channel that failed the full training which followed it or was asked for. -/
def Dev.ddrTrained (d : Dev) (pass : Bool) (bad ms : Nat) : Dev :=
  match d.cal.ddrJob with
  | none => d
  | some j =>
    let cached := j ≠ 3 && d.ddrCacheOk && pass
    let bad := if cached then 0 else bad % 256
    let d := { d with cal := { d.cal with ddrJob := none, ddr := true } }
    let d := ((d.ddrFlag 0 false).ddrFlag 1 cached).ddrBoth MEM_TRAINMS ms
    let d := if cached && j ≠ 0 then d else d.ddrLose
    let d := if j = 1 && ! cached then d.ddrFlag 5 true else d
    let d := if bad = 0 then
        let d := if cached then d else d.setKeep 8 d.ddrStored
        ((d.ddrBoth MEM_CFG (ddrCfgReg d.ddrStored)).ddrBoth MEM_CAPMB (ddrMib d.ddrStored)).ddrStates 2
      else
        ((d.ddrBoth MEM_CFG 0).ddrBoth MEM_CAPMB 0).forEach (upTo 8)
          (fun d c => d.setF (MEM_CHSTAT (c / 4) (c % 4)) 0 2 (if bitAt bad c then 0 else 2))
    d.endWaiting (fun w => w.what == .other 0x0A04) (fun _ =>
      if bad = 0 then (.ok, leBytes 4 ms) else (.noResource, leBytes 4 ms))

/-! ### Accesses and maintenance (R435, R437 to R442) -/

/-- A DDR5 access for partition `p` reaches its channel (R31, R435, R437 to R439): outside the windows of its partition it is
a window error; a read of `n` bytes otherwise returns them, a write stores `l`. -/
def Dev.ddrAccess (d : Dev) (die p a n : Nat) (l : Option (List Byte)) : Dev :=
  let k := match l with | some l => l.length | none => n
  if ! d.inWindow p a k then d.winError die p
  else match l with
    | some l => d.ddrWrite a l [p] (l.length + 1)
    | none => (d.ddrRead a n [p]).1

/-- The patrol scrubber reads the burst at `a` and writes a corrected one back (R440). -/
def Dev.ddrScrubStep (d : Dev) (a : Nat) : Dev :=
  let b := 64 * (a / 64)
  let cs := d.ddrSub b
  if ! d.flag (MEM_SCRUB (cs.1 / 4)) 31 || d.ddrCap ≤ b then d
  else
    let r := d.ddrBurst b (d.windowParts b)
    match r.2 with
    | some l => if SMap.get 0 d.ecc b = 1 then r.1.ddrWriteBurst b l [] else r.1
    | none => r.1

/-- The controller of channel `c` reads MR4, which asks for refresh code `rate`; `hot` where it reports a temperature above
the component's operating range, which is the thermal alarm (R441). -/
def Dev.mr4Poll (d : Dev) (c rate : Nat) (hot : Bool) : Dev :=
  let d := d.setF (MEM_CHSTAT (c / 4) (c % 4)) 8 3 rate
  if hot then d.fault fThermal d.allParts (srcDdr c) else d

/-- ZQ calibration and oscillator tracking pause channel `c` for a time and change nothing else (R442). -/
def Dev.zqCalibrate (d : Dev) (_c : Nat) : Dev := d

/-! ### Commands (R448) -/

def ddrSpec (op : Nat) (len : List Byte → Bool) (ro : Bool) (rsv : List (Nat × Nat)) : CmdSpec :=
  { opcode := op, issuer := .pf, names := false, ro := ro, len := len, rsv := rsv }

def cDdrConfig : CmdSpec := ddrSpec 0x0A01 (lenIs 16) false (rsvd 5 11)
def Dev.ddrConfig (d : Dev) (_h : Hdr) (pl : List Byte) : Dev × Ans :=
  let c := pl.take 5
  if ! ddrConfigOk c || 512 * 1024 < ddrMib c then (d, .st .denied) else (d.setKeep 0 c, .st .ok)

def cDdrStatus : CmdSpec := ddrSpec 0x0A02 (lenIs 8) true (rsvd 1 7)

def Dev.ddrStatus (d : Dev) (_h : Hdr) (pl : List Byte) : Dev × Ans :=
  let k := byteAt pl 0
  if 2 ≤ k then (d, .st .denied) else (d, .done .ok 0 (d.regBytes (MEM_CFG k) 7 ++ d.regBytes (MEM_CHSTAT k 0) 64))

def cDdrWindow : CmdSpec := { ddrSpec 0x0A03 (lenIs 12) false (rsvd 3 1) with ready := true }
def Dev.ddrWindow (d : Dev) (_h : Hdr) (pl : List Byte) : Dev × Ans :=
  let p := byteAt pl 0
  let w := byteAt pl 1
  let v := byteAt pl 2
  let b := leAt pl 4 4
  let l := leAt pl 8 4
  let meets := (upTo 16).any (fun q => q ≠ p && (upTo 4).any (fun k =>
    d.flag (MEM_WBASE 0 q k) 31 && d.fld (MEM_WBASE 0 q k) 0 19 ≤ l && b ≤ d.fld (MEM_WLIM 0 q k) 0 19))
  if 16 ≤ p || 4 ≤ w || 2 ≤ v then (d, .st .denied)
  else if ! d.still p then (d, .st .busy)
  else if v = 1 && (l < b || d.rg (MEM_CAPMB 0) ≤ l || meets) then (d, .st .denied)
  else ((d.setR (MEM_WBASE 0 p w) (v * 2 ^ 31 + b % 2 ^ 19)).setR (MEM_WLIM 0 p w) (l % 2 ^ 19), .st .ok)

def cDdrRetrain : CmdSpec := ddrSpec 0x0A04 (lenIs 8) false (rsvd 1 7)
/-- A partition with a window is neither IDLE nor MUFFLED. -/
def Dev.windowBusy (d : Dev) : Bool :=
  (upTo 16).any (fun p => ! d.still p && (upTo 4).any (fun w => d.flag (MEM_WBASE 0 p w) 31))
def Dev.ddrRetrain (d : Dev) (_h : Hdr) (pl : List Byte) : Dev × Ans :=
  let a := byteAt pl 0
  if 2 ≤ a || d.ddrStored.isEmpty || (a = 0 && ! d.ddrCacheOk) then (d, .st .denied)
  else if d.windowBusy || d.cal.ddrJob.isSome then (d, .st .busy)
  else (d.ddrStart (2 + a), .wait (.other 0x0A04))

def cDdrScrub : CmdSpec := ddrSpec 0x0A05 (lenIs 8) false (rsvd 2 6)
def Dev.ddrScrub (d : Dev) (_h : Hdr) (pl : List Byte) : Dev × Ans :=
  if 2 ≤ byteAt pl 0 || byteAt pl 1 = 0 then (d, .st .denied)
  else (d.ddrBoth MEM_SCRUB (byteAt pl 0 * 2 ^ 31 + byteAt pl 1), .st .ok)

def cDdrWinread : CmdSpec := { ddrSpec 0x0A06 (lenIs 0) true [] with issuer := .owner, names := true, ready := true }
def Dev.ddrWinread (d : Dev) (h : Hdr) (_pl : List Byte) : Dev × Ans :=
  let p := h.part % 16
  (d, .done .ok 0 ((upTo 4).map (fun w => leBytes 4 (d.rg (MEM_WBASE 0 p w)) ++ leBytes 4 (d.rg (MEM_WLIM 0 p w)))).flatten)

end Sys2Proof.Machine
end

