-- ==== Sys2Proof/Machine/Queue.lean ====
section
/-! DEFINITION. Message channels, combining queues and the ownership of Commons banks (R406 to R415, R420 to R424), the
control of S-cores (R425), and the 0x09xx commands (R429, R430). -/

namespace Sys2Proof.Machine

/-! ### Channels (R406 to R412) -/

def Dev.chan (d : Dev) (r c : Nat) : List Msg := SMap.get [] (d.region r).chan c
def Dev.stage (d : Dev) (r c : Nat) : List Msg := SMap.get [] (d.region r).stage c
/-- STATE of a channel: 0 OPEN, 1 CLOSED. -/
def Dev.chState (d : Dev) (r c : Nat) : Nat := d.fld (QUE_CHSTAT r c) 16 2
/-- The host reads the channel. -/
def Dev.chHost (d : Dev) (r c : Nat) : Bool := d.flag (QUE_CHCTL r c) 3

def Dev.setChan (d : Dev) (r c : Nat) (l : List Msg) : Dev :=
  let x := d.region r
  (d.setRegion r { x with chan := SMap.set [] x.chan c l }).setF (QUE_CHSTAT r c) 0 5 l.length
/-- HELD shows the input stage, which holds 8; further messages wait in the router (R408). -/
def Dev.setStage (d : Dev) (r c : Nat) (l : List Msg) : Dev :=
  let x := d.region r
  (d.setRegion r { x with stage := SMap.set [] x.stage c l }).setF (QUE_CHSTAT r c) 12 4 (min 8 l.length)

def Dev.combq (d : Dev) (r q : Nat) : CombQ := SMap.get default (d.region r).comb q
def Dev.setCombq (d : Dev) (r q : Nat) (x : CombQ) : Dev :=
  let g := d.region r
  d.setRegion r { g with comb := SMap.set default g.comb q x }

/-- A message's sender is told its acknowledgement (R407): a fabric sender by a WRITE_ACK. -/
def Dev.ackMsg (d : Dev) (r : Nat) (refused : Bool) (s : Sender) : Dev :=
  match s with
  | .nobody => d
  | .score r' id =>
    { d with reqs := d.reqs.filter (fun q => ! (q.region == r' && q.id == id)) }.opEnd r' id refused
  | .fabric die req => d.reply die req 0x31 (leBytes 1 0 ++ leBytes 1 (natOf refused)) []
  | .cmd f tag seq =>
    d.endWaiting (fun w => w.opcode == 0x0905 && w.hdr.func == f && w.hdr.tag == tag && w.hdr.seq == seq)
      (fun _ => (.ok, leBytes 1 (natOf refused) ++ zeros 7))
  | .comb q => d.setCombq r q { d.combq r q with wait := false }

/-- A message is entered in a channel that has room. -/
def Dev.chanEnter (d : Dev) (r c : Nat) (m : Msg) : Dev :=
  let d := (d.setChan r c (d.chan r c ++ [m])).bump (QUE_CHRX r c) 1
  d.ackMsg r false m.sender

/-- A message is dropped and acknowledged with REFUSED. -/
def Dev.chanDrop (d : Dev) (r c : Nat) (m : Msg) : Dev := (d.bump (QUE_CHDROP r c) 1).ackMsg r true m.sender

/-- A message arrives at a channel (R406, R408, R411). -/
def Dev.chanArrive (d : Dev) (r c : Nat) (m : Msg) : Dev :=
  if d.chState r c ≠ 0 then d.chanDrop r c m
  else if (d.stage r c).isEmpty && (d.chan r c).length < 16 then d.chanEnter r c m
  else d.setStage r c (d.stage r c ++ [m])

/-- The head entry leaves a channel; the input stage moves up (R408, R410). -/
def Dev.chanPop (d : Dev) (r c : Nat) : Dev :=
  let d := d.setChan r c ((d.chan r c).drop 1)
  let d := d.setF (QUE_CHSTAT r c) 24 8 (d.fld (QUE_CHSTAT r c) 24 8 + 1)
  match d.stage r c with
  | [] => d
  | m :: rest => if d.chState r c = 0 then (d.setStage r c rest).chanEnter r c m else d

/-! ### Combining queues (R413 to R415) -/

def Dev.cqChan (d : Dev) (r q : Nat) : Nat := d.fld (QUE_CQCFG r q) 24 5

/-- The 16 sums of a queue. -/
def CombQ.sums (x : CombQ) : List Int := x.lanes ++ List.replicate (16 - x.lanes.length) 0

/-- A contribution is added; the last one enters the result into the result channel (R413, R414). -/
def Dev.combAdd (d : Dev) (r q : Nat) (m : Msg) : Dev :=
  let x := d.combq r q
  let exact := (upTo 16).map (fun i => x.sums.getD i 0 + sInt 32 (leAt m.data (4 * i) 4))
  let lanes := exact.map (satS 32)
  let d := if lanes = exact then d else d.setFlag (QUE_CQSTAT r q) 16 true
  let n := d.fld (QUE_CQSTAT r q) 0 16 + 1
  let d := d.ackMsg r false m.sender
  if n < d.fld (QUE_CQCFG r q) 0 16 then
    (d.setCombq r q { d.combq r q with lanes := lanes }).setF (QUE_CQSTAT r q) 0 16 n
  else
    let d := (d.setCombq r q { d.combq r q with lanes := [], wait := true }).setF (QUE_CQSTAT r q) 0 16 0
    let d := (d.bump (QUE_CQDONE r q) 1).tocArrive (272 + r) 5 ((d.regPart r).getD 0) q 0 false
    d.chanArrive r (d.cqChan r q) { data := (lanes.map (fun v => leBytes 4 (uOf 32 v))).flatten, sender := .comb q }

/-- A contribution arrives: one to a disabled queue is dropped; while a result waits for room it is held (R414, R415). -/
def Dev.combArrive (d : Dev) (r q : Nat) (m : Msg) : Dev :=
  if ! d.flag (QUE_CQCFG r q) 31 then (d.bump (QUE_CQDROP r q) 1).ackMsg r true m.sender
  else if (d.combq r q).wait then d.setCombq r q { d.combq r q with held := (d.combq r q).held ++ [m] }
  else d.combAdd r q m

/-- The contributions queue `q` holds are added while no result waits. -/
def Dev.combDrain (r q : Nat) : Nat → Dev → Dev
  | 0, d => d
  | k + 1, d =>
    let x := d.combq r q
    match x.held with
    | [] => d
    | m :: rest => if x.wait then d else combDrain r q k ((d.setCombq r q { x with held := rest }).combArrive r q m)

/-- The combining queues of a region go on after a channel has moved. -/
def Dev.combsGo (d : Dev) (r : Nat) : Dev :=
  d.forEach (upTo 8) (fun d q => Dev.combDrain r q (d.combq r q).held.length d)

/-- A waiting CHAN_RECV of a channel takes its head; on a channel that is closed and empty it ends, and on one that the S-core reads
now it ends with DENIED (R409, R429). -/
def Dev.recvServe (d : Dev) (r c : Nat) : Dev :=
  match d.car.waiting.find? (fun w => w.what == .chan r c) with
  | none => d
  | some w =>
    let mine (y : Waiting) : Bool := y.hdr.func == w.hdr.func && y.hdr.tag == w.hdr.tag && y.what == .chan r c
    if ! d.chHost r c then d.endWaiting mine (fun _ => (.denied, [])) else
    match d.chan r c with
    | m :: _ => (d.chanPop r c).endWaiting mine (fun _ => (.ok, m.data))
    | [] => if d.chState r c = 0 then d else d.endWaiting mine (fun _ => (.incomplete, []))

/-- What follows the movement of a channel: combining queues, a waiting CHAN_RECV, and the queues again. -/
def Dev.chanGo (d : Dev) (r c : Nat) : Dev := ((d.combsGo r).recvServe r c).combsGo r

/-- A 64-byte write to a channel's input window; any other width is dropped and counted (R407). -/
def Dev.chanMessage (d : Dev) (r c : Nat) (data : List Byte) (s : Sender) : Dev :=
  if data.length ≠ 64 then d.bump (QUE_ADDRERR r) 1 else (d.chanArrive r c { data := data, sender := s }).chanGo r c

/-- A 64-byte write to a combining queue's input window. -/
def Dev.combMessage (d : Dev) (r q : Nat) (data : List Byte) (s : Sender) : Dev :=
  if data.length ≠ 64 then d.bump (QUE_ADDRERR r) 1
  else (d.combArrive r q { data := data, sender := s }).chanGo r (d.cqChan r q)

/-- Message `k` of those that wait at channel `c`, or (from 32 on) at combining queue `c` − 32, has waited QUE_HOLD µs
(R408, R414). -/
def Dev.holdExpiry (d : Dev) (r c k : Nat) : Dev :=
  if c < 32 then
    match (d.stage r c)[k]? with
    | some m => ((d.setStage r c (removeAt (d.stage r c) k)).chanDrop r c m).chanGo r c
    | none => d
  else
    let x := d.combq r (c - 32)
    match x.held[k]? with
    | some m => (d.setCombq r (c - 32) { x with held := removeAt x.held k }).chanDrop r (d.cqChan r (c - 32)) m
    | none => d

/-- OPEN (R411). -/
def Dev.chanOpen (d : Dev) (r c : Nat) : Dev := d.setF (QUE_CHSTAT r c) 16 2 0
/-- CLOSE: the messages of the input stage are dropped, the entries stay readable (R411). -/
def Dev.chanClose (d : Dev) (r c : Nat) : Dev :=
  let ms := d.stage r c
  let d := (d.setF (QUE_CHSTAT r c) 16 2 1).setStage r c []
  (d.forEach ms (fun d m => d.chanDrop r c m)).chanGo r c
/-- RESET: the entries are discarded too, and the channel is CLOSED (R411). -/
def Dev.chanReset (d : Dev) (r c : Nat) : Dev :=
  let n := (d.chan r c).length
  ((d.setChan r c []).bump (QUE_CHDROP r c) n).chanClose r c

/-- The S-core of region `r` is reset: every channel whose reader it is is reset (R411). -/
def Dev.readerReset (d : Dev) (r : Nat) : Dev :=
  d.forEach ((upTo 32).filter (fun c => ! d.chHost r c)) (fun d c => d.chanReset r c)

/-- The function that reads the channels of region `r` is reset: they close (R411, R473). -/
def Dev.hostReaderReset (d : Dev) (r : Nat) : Dev :=
  d.forEach ((upTo 32).filter (d.chHost r)) (fun d c => d.chanClose r c)

/-- What combining queue `q` holds back is dropped and acknowledged with REFUSED, and its sums with it. -/
def Dev.combEmpty (d : Dev) (r q : Nat) : Dev :=
  let ms := (d.combq r q).held
  let d := (d.setCombq r q default).setF (QUE_CQSTAT r q) 0 16 0
  d.forEach ms (fun d m => d.chanDrop r (d.cqChan r q) m)

/-- CLEAR of a combining queue (R415). -/
def Dev.combClear (d : Dev) (r q : Nat) : Dev :=
  (d.setCombq r q { d.combq r q with lanes := [] }).setF (QUE_CQSTAT r q) 0 16 0

/-! ### Commons ownership (R421 to R423) -/

/-- Owner codes (R421). -/
def ownScore : Nat := 1
def ownRouter : Nat := 2
/-- The owner field of a bank, or of port B of bank 15. -/
def Dev.bankOwner (d : Dev) (r b : Nat) (portB : Bool) : Nat := d.fld (CMN_OWN r b) (if portB then 4 else 0) 4
/-- Codes a register write or a command may give a bank or a port. -/
def ownCode (portB : Bool) (code : Nat) : Bool := code == 0 || code == 2 || code == (if portB then 5 else 1)

/-- The owner field takes a code; PEND is set until the old owner's accesses have completed (R422). -/
def Dev.handover (d : Dev) (r b : Nat) (portB : Bool) (code : Nat) : Dev :=
  (d.setF (CMN_OWN r b) (if portB then 4 else 0) 4 code).setFlag (CMN_OWN r b) 31 true

/-- A write of an owner field by agent `who` (1 the S-core, 2 the router): of the current owner, or a claim of a bank that
NONE owns (R422). -/
def Dev.ownWrite (d : Dev) (r b who : Nat) (portB : Bool) (code : Nat) : Dev :=
  let o := d.bankOwner r b portB
  if (o = who || o = 0) && ownCode portB code then d.handover r b portB code else d.setFlag (CMN_STAT r) 1 true

/-- A write of CMN_OWNb: both fields for bank 15, of which one written with the value it has is no handover. -/
def Dev.ownReg (d : Dev) (r b who v : Nat) : Dev :=
  let a := v % 16
  let pb := v / 16 % 16
  let bChange := b = 15 && pb ≠ d.bankOwner r 15 true
  let d' := if bChange && a = d.bankOwner r b false then d else d.ownWrite r b who false a
  if bChange then d'.ownWrite r 15 who true pb else d'

/-- The old owner's accesses have completed (R422); what waited for that goes on in `Dev.handoverGo`. -/
def Dev.handoverEnd (d : Dev) (r b : Nat) : Dev := d.setFlag (CMN_OWN r b) 31 false

/-- An access by a non-owner: `n` reads or writes (R423). -/
def Dev.nonOwner (d : Dev) (r b : Nat) (write : Bool) : Dev :=
  ((d.bump (if write then CMN_NOWN r b else CMN_NORD r b) 1).setFlag (CMN_STAT r) 0 true).setF (CMN_STAT r) 8 4 b

/-- Agent `who` owns bank `b`: the router too through port B of bank 15. -/
def Dev.ownsBank (d : Dev) (r b who : Nat) : Bool :=
  d.bankOwner r b false == who || (b == 15 && who == ownRouter && d.bankOwner r b true == ownRouter)

/-! ### S-core control (R425) -/

/-- SEQ_CTL.RESET: halts, clears G, counters and outstanding operations; resets the channels the S-core reads (R411). -/
def Dev.seqReset (d : Dev) (r : Nat) : Dev :=
  let d := (d.seqStop r).forEach (upTo 16) (fun d i => d.setG r i 0)
  (d.forEach (upTo 8) (fun d k => d.setR (SEQ_CCNT r k) 0)).readerReset r

/-! ### The 0x09xx commands (R429) -/

def queSpec (op : Nat) (len : List Byte → Bool) (ro : Bool) (rsv : List (Nat × Nat)) : CmdSpec :=
  { opcode := op, issuer := .owner, names := true, ro := ro, len := len, rsv := rsv }

/-- What a command on region `r`'s S-core refuses first. -/
def Dev.seqRefuse (d : Dev) (p r : Nat) : Option Status :=
  if 16 ≤ r || ! d.owns p r then some .denied else if d.scoreBad r then some .fenced else none

def cSeqLoad : CmdSpec :=
  queSpec 0x0901 (fun pl => 8 ≤ pl.length && pl.length == 8 + 16 * leAt pl 4 2) false (rsvd 1 1 ++ rsvd 6 2)
def Dev.seqLoad (d : Dev) (h : Hdr) (pl : List Byte) : Dev × Ans :=
  let r := byteAt pl 0
  let f := leAt pl 2 2
  let n := leAt pl 4 2
  match d.seqRefuse h.part r with
  | some s => (d, .st s)
  | none =>
    if 4096 < f + n then (d, .st .denied)
    else if d.seqState r ≠ 0 then (d, .st .busy)
    else
      let x := d.score r
      let prog := (upTo n).foldl (fun m i =>
        let b := slice pl (8 + 16 * i) 16
        SMap.set [] m (f + i) (if b.all (· == 0#8) then [] else b)) x.prog
      (d.setScore r { x with prog := prog }, .st .ok)

def cSeqControl : CmdSpec := queSpec 0x0902 (lenIs 8) false (rsvd 4 4)
def Dev.seqControl (d : Dev) (h : Hdr) (pl : List Byte) : Dev × Ans :=
  let r := byteAt pl 0
  let a := byteAt pl 1
  match d.seqRefuse h.part r with
  | some s => (d, .st s)
  | none =>
    if 3 ≤ a || 4096 ≤ leAt pl 2 2 then (d, .st .denied)
    else if a = 0 then (d.seqHalt r, .st .ok)
    else if a = 1 then ((d.setF (SEQ_ENTRY r) 0 12 (leAt pl 2 2)).scoreRun r, .st .ok)
    else (d.seqReset r, .st .ok)

def cSeqStatus : CmdSpec := queSpec 0x0903 (lenIs 8) true (rsvd 1 7)
def Dev.seqStatusCmd (d : Dev) (h : Hdr) (pl : List Byte) : Dev × Ans :=
  match d.seqRefuse h.part (byteAt pl 0) with
  | some s => (d, .st s)
  | none => (d, .done .ok 0 (d.regBytes (SEQ_CTL (byteAt pl 0)) 96))

def cChanConfig : CmdSpec := queSpec 0x0904 (lenIs 8) false (rsvd 4 4)
def Dev.chanConfig (d : Dev) (h : Hdr) (pl : List Byte) : Dev × Ans :=
  let r := byteAt pl 0
  let c := byteAt pl 1
  let a := byteAt pl 2
  if 16 ≤ r || ! d.owns h.part r || 32 ≤ c || 3 ≤ a || 2 ≤ byteAt pl 3 then (d, .st .denied)
  else
    let d := (d.setFlag (QUE_CHCTL r c) 3 (byteAt pl 3 == 1)).recvServe r c
    (if a = 0 then d.chanClose r c else if a = 1 then d.chanOpen r c else d.chanReset r c, .st .ok)

/-- FLAGS of CHAN_SEND's response. -/
def refusedAns (b : Bool) : List Byte := leBytes 1 (natOf b) ++ zeros 7

/-- CHAN_SEND completes when its message is acknowledged (R407). -/
def cChanSend : CmdSpec := queSpec 0x0905 (lenIs 72) false (rsvd 3 5)
def Dev.chanSend (d : Dev) (h : Hdr) (pl : List Byte) : Dev × Ans :=
  let r := byteAt pl 0
  let i := byteAt pl 1
  let k := byteAt pl 2
  if 16 ≤ r || ! d.owns h.part r || 2 ≤ k || (if k = 0 then 32 else 8) ≤ i then (d, .st .denied)
  else
    let m := slice pl 8 64
    let cmd := Sender.cmd h.func h.tag h.seq
    if k = 0 then
      if d.chState r i ≠ 0 then (d.chanMessage r i m .nobody, .done .ok 0 (refusedAns true))
      else if (d.stage r i).isEmpty && (d.chan r i).length < 16 then (d.chanMessage r i m .nobody, .done .ok 0 (refusedAns false))
      else (d.chanMessage r i m cmd, .wait (.other 0x0905))
    else if ! d.flag (QUE_CQCFG r i) 31 then (d.combMessage r i m .nobody, .done .ok 0 (refusedAns true))
    else if (d.combq r i).wait then (d.combMessage r i m cmd, .wait (.other 0x0905))
    else (d.combMessage r i m .nobody, .done .ok 0 (refusedAns false))

def cChanRecv : CmdSpec := queSpec 0x0906 (lenIs 8) false (rsvd 2 2)
def Dev.chanRecv (d : Dev) (h : Hdr) (pl : List Byte) : Dev × Ans :=
  let r := byteAt pl 0
  let c := byteAt pl 1
  if 16 ≤ r || ! d.owns h.part r || 32 ≤ c || 1000000 < leAt pl 4 4 || ! d.chHost r c then (d, .st .denied)
  else match d.chan r c with
    | m :: _ => ((d.chanPop r c).combsGo r, .done .ok 0 m.data)
    | [] =>
      if d.chState r c ≠ 0 then (d, .st .incomplete)
      else if leAt pl 4 4 = 0 then (d, .st .timeout)
      else (d, .wait (.chan r c))

/-- The CHAN_RECV of function `f` with a tag has waited its time (R409). -/
def Dev.recvTimeout (d : Dev) (f tag : Nat) : Dev :=
  d.endWaiting (fun w => w.opcode == 0x0906 && w.hdr.func == f && w.hdr.tag == tag) (fun _ => (.timeout, []))

def cQueStatus : CmdSpec := queSpec 0x0907 (lenIs 8) true (rsvd 1 7)
def Dev.queStatus (d : Dev) (h : Hdr) (pl : List Byte) : Dev × Ans :=
  let r := byteAt pl 0
  if 16 ≤ r || ! d.owns h.part r then (d, .st .denied) else (d, .done .ok 0 (d.regBytes (QUE_CHCTL r 0) 322))

def cCqConfig : CmdSpec := queSpec 0x0908 (lenIs 8) false (rsvd 6 2)
def Dev.cqConfig (d : Dev) (h : Hdr) (pl : List Byte) : Dev × Ans :=
  let r := byteAt pl 0
  let q := byteAt pl 1
  let a := byteAt pl 2
  if 16 ≤ r || ! d.owns h.part r || 8 ≤ q || 3 ≤ a || 32 ≤ byteAt pl 3 || leAt pl 4 2 = 0 then (d, .st .denied)
  else
    let d := (d.setF (QUE_CQCFG r q) 24 5 (byteAt pl 3)).setF (QUE_CQCFG r q) 0 16 (leAt pl 4 2)
    (if a = 2 then d.combClear r q else d.setFlag (QUE_CQCFG r q) 31 (a == 1), .st .ok)

def cCommonsOwn : CmdSpec := queSpec 0x0909 (lenIs 8) false (rsvd 4 4)
def Dev.commonsOwn (d : Dev) (h : Hdr) (pl : List Byte) : Dev × Ans :=
  let r := byteAt pl 0
  let b := byteAt pl 1
  let pb := byteAt pl 2 == 1
  let code := byteAt pl 3
  if 16 ≤ r || ! d.owns h.part r || 16 ≤ b || 2 ≤ byteAt pl 2 || (pb && b ≠ 15) || ! ownCode pb code ||
      d.bankOwner r b pb = 3 || d.bankOwner r b pb = 4 then (d, .st .denied)
  else if h.func ≠ 0 && d.seqState r ≠ 0 then (d, .st .busy)
  else (d.handover r b pb code, .st .ok)

def cCmnStatus : CmdSpec := queSpec 0x090A (lenIs 8) true (rsvd 1 7)
def Dev.cmnStatus (d : Dev) (h : Hdr) (pl : List Byte) : Dev × Ans :=
  let r := byteAt pl 0
  if 16 ≤ r || ! d.owns h.part r then (d, .st .denied) else (d, .done .ok 0 (d.regBytes (CMN_OWN r 0) 52))

end Sys2Proof.Machine
end

