-- ==== Sys2Proof/Machine/Tensor.lean ====
section
/-! DEFINITION. Narrow number formats, conversion, and what each op of a T-core computes (R359 to R384). -/

namespace Sys2Proof.Machine

/-! ### Formats (R362 to R364) -/

def fmtBias (f : Nat) : Int := if f = 3 then 7 else if f = 4 then 15 else if f = 5 then 3 else 1
def fmtMant (f : Nat) : Nat := if f = 3 || f = 6 then 3 else if f = 4 || f = 5 then 2 else 1
def fmtEmax (f : Nat) : Int := if f = 3 then 8 else if f = 4 then 15 else if f = 5 then 4 else if f = 6 || f = 7 then 2 else 0
def fmtInt (f : Nat) : Bool := f == 0 || f == 1
def fmtMx (f : Nat) : Bool := 2 ≤ f && f ≤ 7
/-- The largest finite value. -/
def nfMax (f : Nat) (uns : Bool) : Dy :=
  if f = 0 then ⟨if uns then 255 else 127, 0⟩ else if f = 1 then ⟨if uns then 15 else 7, 0⟩ else if f = 2 then ⟨127, -6⟩
  else if f = 3 then ⟨448, 0⟩ else if f = 4 then ⟨57344, 0⟩ else if f = 5 then ⟨28, 0⟩ else if f = 6 then ⟨15, -1⟩ else ⟨6, 0⟩
def nfMin (f : Nat) (uns : Bool) : Dy := if uns && fmtInt f then Dy.zero else (nfMax f uns).neg

/-- What a code of a format stands for. -/
def fmtNum (f : Nat) (uns : Bool) (c : Nat) : Num :=
  if f = 9 then f32 c
  else if f = 8 then .fin ⟨sInt 32 c, 0⟩ false
  else if f = 0 || f = 1 then .fin ⟨if uns then (c : Int) else sInt (fmtBits f) c, 0⟩ false
  else if f = 2 then .fin ⟨sInt 8 c, -6⟩ false
  else
    let m := fmtMant f
    let e := bitsOf c m (fmtBits f - 1 - m)
    let x := bitsOf c 0 m
    let neg := bitAt c (fmtBits f - 1)
    if f = 3 && e = 15 && x = 7 then .nan
    else if f = 4 && e = 31 then (if x = 0 then .inf neg else .nan)
    else
      let n : Int := if e = 0 then x else 2 ^ m + x
      .fin ⟨if neg then -n else n, (max e 1 : Int) - fmtBias f - m⟩ (neg && n == 0)

/-! ### Conversion (R365, R366) -/

/-- The shared exponent of a block (R365). -/
def sharedExp (xs : List Num) (f : Nat) : Int :=
  let mag (x : Num) : Dy := match x with
    | .fin v _ => v.abs
    | .inf _ => ⟨2 ^ 24 - 1, 104⟩
    | .nan => Dy.zero
  let m := xs.foldl (fun (a : Dy) x => if a.lt (mag x) then mag x else a) Dy.zero
  if m.m = 0 then 0 else clampI (-127) 127 (m.log2 - fmtEmax f)

/-- A converted element: its code, and what it set. -/
structure Nar where
  code : Nat
  sat  : Bool
  nan  : Bool
  deriving DecidableEq, Repr, Inhabited

/-- The code of sign × n × 2^q, where q is the step of the magnitude's binade; zero has no sign. -/
def fmtCode (f : Nat) (neg : Bool) (n : Nat) (q : Int) : Nat :=
  if n = 0 then 0
  else if f ≤ 2 then uOf (fmtBits f) (if neg then -(n : Int) else n)
  else (if neg then 2 ^ (fmtBits f - 1) else 0) + ((q - (1 - fmtBias f - fmtMant f)).toNat * 2 ^ fmtMant f + n)

/-- `to_narrow` (R366); `draw` is a draw8 for stochastic rounding. -/
def toNarrow (x : Num) (f : Nat) (uns : Bool) (sexp : Int) (draw : Option Nat) : Nar :=
  let step (v : Dy) : Int :=
    if f = 0 || f = 1 then 0 else if f = 2 then -6
    else (if v.m = 0 then 1 - fmtBias f else max v.log2 (1 - fmtBias f)) - fmtMant f
  let put (v : Dy) (n : Nat) : Nat := fmtCode f (decide (v.m < 0)) n (step v)
  match x with
  | .nan => ⟨0, false, true⟩
  | .inf neg =>
    let v := if neg then nfMin f uns else nfMax f uns
    ⟨put v (v.roundEven (step v)), true, false⟩
  | .fin y _ =>
    let v := y.scale (-sexp)
    if (nfMax f uns).lt v then ⟨put (nfMax f uns) ((nfMax f uns).roundEven (step (nfMax f uns))), true, false⟩
    else if v.lt (nfMin f uns) then ⟨put (nfMin f uns) ((nfMin f uns).roundEven (step (nfMin f uns))), true, false⟩
    else match draw with
      | none => ⟨put v (v.roundEven (step v)), false, false⟩
      | some r => let s := v.steps (step v); ⟨put v (s.1 + natOf (r < s.2.1)), false, false⟩

/-- The binary32 of a number, for arithmetic (R369, R383). -/
def Num.f32 (x : Num) : Nat :=
  match x with
  | .fin v z => if z then 2 ^ 31 else v.toF32.1
  | .inf n => infBits n
  | .nan => 0x7FC00000

/-! ### Generators (R368) -/

/-- `k` updates of a generator. -/
def genStep : Nat → Nat → Nat
  | 0, x => x
  | k + 1, x => genStep k (draw x).2

/-- draw8 number `e` of an op whose 16 generators start at `g`. -/
def draw8 (g : SMap Nat) (e : Nat) : Nat := bitsOf (genStep (e / 64 + 1) (SMap.get 0 g (e % 64 / 4))) (8 * (e % 4)) 8

/-! ### Descriptors (R370, R373) -/

/-- A tensor descriptor. -/
structure Tens where
  addr   : Nat
  fmt    : Nat
  smode  : Nat
  plane  : Nat
  stride : Nat
  saddr  : Nat
  rsv    : Bool
  deriving DecidableEq, Repr, Inhabited

def tensAt (x : List Byte) (off : Nat) : Tens :=
  let m := byteAt x (off + 5)
  { addr := leAt x off 4 % 2 ^ 21, fmt := byteAt x (off + 4), smode := m % 8, plane := bitsOf m 4 2,
    stride := leAt x (off + 8) 4 % 2 ^ 21, saddr := leAt x (off + 12) 4 % 2 ^ 21,
    rsv := bitAt m 3 || 64 ≤ m || leAt x (off + 6) 2 ≠ 0 || 2 ^ 21 ≤ leAt x off 4 || 2 ^ 21 ≤ leAt x (off + 8) 4 ||
      2 ^ 21 ≤ leAt x (off + 12) 4 }

/-- An op descriptor with its parameter block. -/
structure TOp where
  op   : Nat
  fl   : Nat
  gang : Nat
  cq   : Nat
  tag  : Nat
  m    : Nat
  n    : Nat
  k    : Nat
  a    : Tens
  b    : Tens
  c    : Tens
  par  : List Byte
  pv   : Bool
  deriving DecidableEq, Repr, Inhabited

def Dev.topOf (d : Dev) (r : Nat) (x : List Byte) : TOp :=
  let pw := leAt x 6 2
  { op := byteAt x 0, fl := byteAt x 1, gang := byteAt x 2, cq := byteAt x 3, tag := leAt x 4 2, m := leAt x 8 2,
    n := leAt x 10 2, k := leAt x 12 4, a := tensAt x 16, b := tensAt x 32, c := tensAt x 48,
    par := if bitAt pw 15 then d.rdB (tcBase r + 64 * (pw % 2 ^ 15)) 64 else zeros 64, pv := bitAt pw 15 }

def TOp.flag (o : TOp) (k : Nat) : Bool := bitAt o.fl k
/-- Ops of the array: MATMUL, CONV and BACKWARD. -/
def TOp.array (o : TOp) : Bool := 1 ≤ o.op && o.op ≤ 3
/-- The transpositions in force: BACKWARD's are set by its MODE (R378). -/
def TOp.transA (o : TOp) : Bool := if o.op = 3 then o.flag 7 else o.flag 0
def TOp.transB (o : TOp) : Bool := o.op == 3 || o.flag 1
/-- A binary32 parameter that is 1.0 by default. -/
def TOp.scale (o : TOp) : Nat := if o.pv then leAt o.par 0 4 else 0x3F800000
/-- CONV geometry: H, W, CIN, R, S, STRIDE, PAD, DIL. -/
def TOp.cH (o : TOp) : Nat := leAt o.par 16 2
def TOp.cW (o : TOp) : Nat := leAt o.par 18 2
def TOp.cin (o : TOp) : Nat := leAt o.par 20 2
def TOp.cR (o : TOp) : Nat := byteAt o.par 22
def TOp.cS (o : TOp) : Nat := byteAt o.par 23
def TOp.cStr (o : TOp) : Nat := byteAt o.par 24
def TOp.cPad (o : TOp) : Nat := byteAt o.par 25
def TOp.cDil (o : TOp) : Nat := byteAt o.par 26
/-- The output length of a convolution of length `l` with `t` taps (R372); 0 where the kernel does not fit. -/
def TOp.outLen (o : TOp) (l t : Nat) : Nat :=
  if l + 2 * o.cPad < o.cDil * (t - 1) + 1 || o.cStr = 0 then 0 else (l + 2 * o.cPad - o.cDil * (t - 1) - 1) / o.cStr + 1

/-- Rows and row length of A, B and C as stored (R370, R372, R382). -/
def TOp.dimA (o : TOp) : Nat × Nat :=
  if o.op = 2 then (o.cH * o.cW, o.cin) else if o.array then (if o.transA then (o.k, o.m) else (o.m, o.k)) else (o.m, o.n)
def TOp.dimB (o : TOp) : Nat × Nat := if o.array then (if o.transB then (o.k, o.n) else (o.n, o.k)) else (o.m, o.n)

/-! ### Reading tensors -/

/-- The code of element `j` of row `i` of a tensor. -/
def Dev.tCode (d : Dev) (r : Nat) (t : Tens) (i j : Nat) : Nat :=
  let bit := j * fmtBits t.fmt
  bitsOf (d.rdN (tcBase r + t.addr + i * t.stride + bit / 8) 5) (bit % 8) (fmtBits t.fmt)

/-- The scale code of the block of element `j` of row `i`, a row having `l` elements. -/
def Dev.tScale (d : Dev) (r : Nat) (t : Tens) (l i j : Nat) : Nat :=
  if t.smode = 0 then 127
  else if t.smode = 4 then d.rdN (tcBase r + t.saddr + i) 1
  else d.rdN (tcBase r + t.saddr + i * smodeCount t.smode l + j / smodeBlock t.smode l) 1

/-- An element as an op reads it (R367): its value without the scale, the scale's exponent, SAT and NAN. -/
structure Elt where
  v   : Dy
  s   : Int
  sat : Bool
  nan : Bool
  deriving DecidableEq, Repr, Inhabited

def eltZero : Elt := ⟨Dy.zero, 0, false, false⟩

/-- A code with its scale code as an op reads it: a NaN is zero, an E5M2 infinity is ±57,344, a block of scale 0xFF is zero. -/
def eltOf (f : Nat) (uns : Bool) (code sc : Nat) : Elt :=
  if sc = 255 then ⟨Dy.zero, 0, false, true⟩
  else match fmtNum f uns code with
    | .fin v _ => ⟨v, (sc : Int) - 127, false, false⟩
    | .inf neg => ⟨⟨if neg then -57344 else 57344, 0⟩, (sc : Int) - 127, true, false⟩
    | .nan => ⟨Dy.zero, (sc : Int) - 127, false, true⟩

def Dev.tElt (d : Dev) (r : Nat) (t : Tens) (uns : Bool) (l i j : Nat) : Elt :=
  eltOf t.fmt uns (d.tCode r t i j) (d.tScale r t l i j)

/-- An element as a number for conversion: an FP32 one keeps its infinity (R366). -/
def Dev.tNum (d : Dev) (r : Nat) (t : Tens) (uns : Bool) (l i j : Nat) : Num × Bool × Bool :=
  if t.fmt = 9 then
    match f32 (d.tCode r t i j) with
    | .nan => (.fin Dy.zero false, false, true)
    | x => (x, false, false)
  else
    let e := d.tElt r t uns l i j
    (.fin (e.v.scale e.s) false, e.sat, e.nan)

/-! ### The array (R369, R372, R375, R377) -/

/-- An operand of the array: element k of reduction row `i`, and the number of its block along the reduction. -/
structure Opd where
  el  : Nat → Nat → Elt
  blk : Nat → Nat

/-- A block of 32 re-encoded along the reduction in format `f` (R375): element `j` of it; `num` gives its elements. -/
def reElt (f : Nat) (num : Nat → Num × Bool × Bool) (draw : Option (Nat → Nat)) (lo j : Nat) : Elt :=
  let se := sharedExp ((upTo 32).map (fun i => (num (lo + i)).1)) f
  let x := num j
  let c := toNarrow x.1 f false se (draw.map (fun g => g j))
  let e := eltOf f false c.code (se + 127).toNat
  { e with sat := e.sat || c.sat || x.2.1, nan := e.nan || c.nan || x.2.2 }

/-- An operand of MATMUL or BACKWARD: `t` stored with rows of `l`; `tr` transposed; `base` the number of its first draw. -/
def Dev.opd (d : Dev) (r : Nat) (t : Tens) (uns tr : Bool) (l k : Nat) (draw : Option (SMap Nat)) (base : Nat) : Opd :=
  if tr && fmtInt t.fmt then { el := fun i j => d.tElt r t uns l j i, blk := fun _ => 0 }
  else if tr || t.fmt = 9 then
    let f := if t.fmt = 9 then 4 else t.fmt
    { el := fun i j => reElt f (fun q => if tr then d.tNum r t uns l q i else d.tNum r t uns l i q)
        (draw.map (fun g q => draw8 g (base + i * k + q))) (32 * (j / 32)) j
      blk := fun j => j / 32 }
  else { el := fun i j => d.tElt r t uns l i j, blk := fun j => j / smodeBlock t.smode l }

/-- CONV's A: reduction element (r, s, c) of output position `i`, in that order; padded positions are zero (R372). -/
def Dev.opdConv (d : Dev) (r : Nat) (o : TOp) : Opd :=
  let cin := max o.cin 1
  let wo := max (o.outLen o.cW o.cS) 1
  { el := fun i j =>
      let y := i / wo * o.cStr + j / cin / max o.cS 1 * o.cDil
      let x := i % wo * o.cStr + j / cin % max o.cS 1 * o.cDil
      if y < o.cPad || x < o.cPad || o.cH ≤ y - o.cPad || o.cW ≤ x - o.cPad then eltZero
      else d.tElt r o.a (o.flag 5) o.cin ((y - o.cPad) * o.cW + (x - o.cPad)) (j % cin)
    blk := fun j => 2 ^ 16 * (j / cin) + j % cin / smodeBlock o.a.smode o.cin }

/-- An accumulator: its 32 bits, SAT, NAN. -/
structure Acc where
  bits : Nat
  sat  : Bool
  nan  : Bool
  deriving DecidableEq, Repr, Inhabited

/-- The integer path: exact sums, with the zero-point correction, added with saturation (R369, R377). -/
def accInt (a b : Opd) (zp : Option (Int × Int)) (m n k : Nat) (init : Int) (nan : Bool) : Acc :=
  let s := (upTo k).foldl (fun (s : Int × Int) j =>
    let x := (a.el m j).v.m
    (s.1 + x * (b.el n j).v.m, s.2 + x)) (0, 0)
  let e := init + s.1 + (match zp with | some (zw, corr) => corr - zw * s.2 | none => 0)
  ⟨uOf 32 (satS 32 e), satS 32 e != e, nan⟩

/-- The MX path: each joint block summed exactly, scaled, rounded once to binary32 and added in binary32 (R369). -/
def accMx (a b : Opd) (m n k init : Nat) (nan : Bool) : Acc :=
  let flush (c : Acc) (s : Dy) : Acc :=
    let r := s.toF32
    let t := f32Add c.bits r.1
    ⟨t.bits, c.sat || r.2 || t.sat, c.nan || t.nan⟩
  let key (j : Nat) : Nat × Nat := (a.blk j, b.blk j)
  let r := (upTo k).foldl (fun (z : Acc × Dy) j =>
    let x := a.el m j
    let y := b.el n j
    let z := if j ≠ 0 && key j != key (j - 1) then (flush z.1 z.2, Dy.zero) else z
    let c := z.1
    ({ c with sat := c.sat || x.sat || y.sat, nan := c.nan || x.nan || y.nan },
      z.2.add ((x.v.mul y.v).scale (x.s + y.s)))) (⟨init, false, nan⟩, Dy.zero)
  flush r.1 r.2

def TOp.intPath (o : TOp) : Bool := fmtInt o.a.fmt && fmtInt o.b.fmt

/-- Draws the array's re-encodings take before those of C. -/
def TOp.drawsA (o : TOp) : Nat := if o.op ≠ 2 && ((o.transA && ! fmtInt o.a.fmt) || o.a.fmt = 9) then o.m * o.k else 0
def TOp.drawsB (o : TOp) : Nat := if (o.op ≠ 2 && o.transB && ! fmtInt o.b.fmt) || o.b.fmt = 9 then o.n * o.k else 0

/-- The accumulator of row `m`, column `n` of an array op. -/
def Dev.accAt (d : Dev) (r : Nat) (o : TOp) (g : SMap Nat) (m n : Nat) : Acc :=
  let dr := if o.flag 3 then some g else none
  let a := if o.op = 2 then d.opdConv r o else d.opd r o.a (o.flag 5) o.transA o.dimA.2 o.k dr 0
  let b := if o.op = 2 then d.opd r o.b false false o.k o.k none 0 else d.opd r o.b false o.transB o.dimB.2 o.k dr o.drawsA
  let init := if o.flag 2 then d.tCode r o.c m n else 0
  let isNan := f32 init == .nan
  let old : Int := match f32 init with
    | .fin v _ => v.toInt
    | .inf neg => if neg then -(2 ^ 40) else 2 ^ 40
    | .nan => 0
  if o.intPath then
    let z := tcBase r + leAt o.par 8 4 % 2 ^ 21 + 8 * n
    let zp := if o.flag 4 then some (sInt 32 (d.rdN z 4), sInt 32 (d.rdN (z + 4) 4)) else none
    accInt a b zp m n o.k (if o.c.fmt = 9 then old else sInt 32 init) (o.c.fmt = 9 && isNan)
  else accMx a b m n o.k (if isNan then 0 else init) isNan

/-! ### Writing C (R374, R366) -/

/-- What a row of C becomes: its bytes, its scale bytes, SAT, NAN. -/
structure CRow where
  bytes  : List Byte
  scales : List Byte
  sat    : Bool
  nan    : Bool
  deriving DecidableEq, Repr, Inhabited

/-- Pack codes along a row (R363). -/
def packCodes (f : Nat) (cs : List Nat) : List Byte :=
  leBytes (rowLen f cs.length) (cs.foldr (fun c a => c + a * 2 ^ fmtBits f) 0)

/-- Numbers converted into a row of format `f` (R365, R366). -/
def narrowRow (f smode : Nat) (uns : Bool) (draw : Option (Nat → Nat)) (xs : List Num) : CRow :=
  let bl := smodeBlock smode xs.length
  let se (b : Nat) : Int := if smode = 0 then 0 else sharedExp ((xs.drop (b * bl)).take bl) f
  let ys := (upTo xs.length).map (fun j => toNarrow (xs.getD j .nan) f uns (se (j / bl)) (draw.map (fun g => g j)))
  { bytes := packCodes f (ys.map Nar.code)
    scales := (upTo (smodeCount smode xs.length)).map (fun b => BitVec.ofNat 8 (se b + 127).toNat)
    sat := ys.any Nar.sat, nan := ys.any Nar.nan }

/-- The product of two binary32 values as a number to be converted; `fv` is the value where IEEE 754 gives none. -/
def mulNum (x y fv : Nat) : Num × Bool × Bool :=
  let r := f32Mul x y
  (f32 (if r.isOpen then fv else r.bits), r.sat, r.nan)

/-- Columns `lo` to `hi - 1` of row `m` of C of an array op (R374). -/
def Dev.arrayRow (d : Dev) (r : Nat) (o : TOp) (g : SMap Nat) (fv : Nat → Nat) (lo hi m : Nat) : CRow :=
  let as := (upTo (hi - lo)).map (fun j => d.accAt r o g m (lo + j))
  let sat := as.any Acc.sat
  let nan := as.any Acc.nan
  let fl (x : Acc) : Nat := if o.intPath then ((⟨sInt 32 x.bits, 0⟩ : Dy)).toF32.1 else x.bits
  if o.c.fmt = 8 then ⟨packCodes 8 (as.map Acc.bits), [], sat, nan⟩
  else if o.c.fmt = 9 then ⟨packCodes 9 (as.map fl), [], sat, nan⟩
  else
    let ps := (upTo (hi - lo)).map (fun j => mulNum (fl (as.getD j default)) o.scale (fv (m * o.n + lo + j)))
    let w := narrowRow o.c.fmt o.c.smode (o.flag 6)
      (if o.flag 3 then some (fun j => draw8 g (o.drawsA + o.drawsB + m * o.n + lo + j)) else none) (ps.map Prod.fst)
    { w with sat := w.sat || sat || ps.any (fun p => p.2.1), nan := w.nan || nan || ps.any (fun p => p.2.2) }

/-- Row `m` of C of QUANT or DECODE (R383). -/
def Dev.quantRow (d : Dev) (r : Nat) (o : TOp) (g : SMap Nat) (fv : Nat → Nat) (m : Nat) : CRow :=
  let xs := (upTo o.n).map (fun n => d.tNum r o.a (o.flag 5) o.n m n)
  let ps := (upTo o.n).map (fun n => mulNum (Num.f32 (xs.getD n (.nan, false, false)).1) o.scale (fv (m * o.n + n)))
  let w := narrowRow o.c.fmt o.c.smode (o.flag 6)
    (if o.flag 3 then some (fun j => draw8 g (m * o.n + j)) else none) (ps.map Prod.fst)
  { w with sat := w.sat || ps.any (fun p => p.2.1) || xs.any (fun x => x.2.1),
           nan := w.nan || ps.any (fun p => p.2.2) || xs.any (fun x => x.2.2) }

/-! ### What an op reads and writes, step by step (R361, R384) -/

/-- What one step of an op answers: what it writes by buffer offset, SAT, NAN, and of ENCODE the records written and the
events found. -/
structure TRes where
  writes : List (Nat × List Byte)
  sat    : Bool
  nan    : Bool
  count  : Nat
  events : Nat
  deriving DecidableEq, Repr, Inhabited

/-- A step that writes nothing. -/
def TRes.none : TRes := ⟨[], false, false, 0, 0⟩
/-- What the steps so far and one more have reported. -/
def TRes.join (a b : TRes) : TRes := ⟨[], a.sat || b.sat, a.nan || b.nan, a.count + b.count, a.events + b.events⟩

/-- The writes of columns `lo` on of rows of C. -/
def rowWrites (t : Tens) (l lo : Nat) (rows : List (Nat × CRow)) : List (Nat × List Byte) :=
  (rows.map (fun x =>
    let sa := if t.smode = 4 then t.saddr + x.1 else t.saddr + x.1 * smodeCount t.smode l + lo / smodeBlock t.smode l
    (t.addr + x.1 * t.stride + lo * fmtBits t.fmt / 8, x.2.bytes) :: (if t.smode = 0 then [] else [(sa, x.2.scales)]))).flatten

/-- Elements of a block of OPTIM: 32, or C's block where that is longer (R380). -/
def TOp.optimUnit (o : TOp) : Nat := if o.c.smode = 0 then 32 else max 32 (smodeBlock o.c.smode o.n)
/-- N-tiles of an array op. -/
def TOp.tiles (o : TOp) : Nat := ceilDiv o.n 64
/-- Steps of an op: N-tiles of the array, blocks of OPTIM, rows of the others (log entry 186). -/
def TOp.steps (o : TOp) : Nat := if o.array then o.tiles else if o.op = 4 then o.m * ceilDiv o.n o.optimUnit else o.m

/-- Columns that are written together: a tile, or the tiles that share a block of C. -/
def TOp.group (o : TOp) : Nat := if o.c.smode = 3 then 128 else if o.c.smode = 4 then max o.n 1 else 64

/-- N-tile `t` of MATMUL, CONV or BACKWARD (R384): its columns of C are written after its last pass, those of a block of C that
spans tiles with the block's last tile. -/
def Dev.arrayStep (d : Dev) (r : Nat) (o : TOp) (g : SMap Nat) (fv : Nat → Nat) (t : Nat) (last : Bool) : TRes :=
  let lo := o.group * (64 * t / o.group)
  let hi := min o.n (64 * (t + 1))
  if hi ≠ o.n && hi % o.group ≠ 0 && ! last then .none
  else
    let rows := (upTo o.m).map (fun m => (m, d.arrayRow r o g fv lo hi m))
    { writes := if o.c.plane = 1 then [] else rowWrites o.c o.n lo rows, sat := rows.any (fun x => x.2.sat),
      nan := rows.any (fun x => x.2.nan), count := 0, events := 0 }

/-- Row `t` of QUANT or DECODE. -/
def Dev.quantStep (d : Dev) (r : Nat) (o : TOp) (g : SMap Nat) (fv : Nat → Nat) (t : Nat) : TRes :=
  let w := d.quantRow r o g fv t
  { writes := rowWrites o.c o.n 0 [(t, w)], sat := w.sat, nan := w.nan, count := 0, events := 0 }

/-- What ENCODE makes of row `t` of A (R382): of each element g, its column, SAT and NAN. -/
def Dev.encodeCells (d : Dev) (r : Nat) (o : TOp) (fv : Nat → Nat) (t : Nat) : List (Int × Nat × Bool × Bool) :=
  (upTo o.n).map (fun j =>
    let x := d.tNum r o.a false o.n t j
    let p := mulNum (Num.f32 x.1) o.scale (fv (t * o.n + j))
    let gr : Int := match p.1 with
      | .fin v _ => clampI (-127) 127 v.toInt
      | .inf neg => if neg then -127 else 127
      | .nan => 0
    (gr, j, x.2.1 || p.2.1, x.2.2 || p.2.2))

/-- The events among them. -/
def TOp.events (o : TOp) (cs : List (Int × Nat × Bool × Bool)) : List (Int × Nat × Bool × Bool) :=
  cs.filter (fun c => (bitAt (byteAt o.par 9) 0 || 1 ≤ c.1) && (byteAt o.par 8 : Int) ≤ c.1.natAbs)

/-- Row `t` of ENCODE, of which `n` records have been written (R382). -/
def Dev.encodeStep (d : Dev) (r : Nat) (o : TOp) (fv : Nat → Nat) (t n : Nat) : TRes :=
  let cells := d.encodeCells r o fv t
  let ev := o.events cells
  let put := ev.take (leAt o.par 4 4 - n)
  let rec1 (c : Int × Nat × Bool × Bool) : List Byte :=
    leBytes 8 (putBits (d.rdN (tcBase r + o.b.addr + c.2.1 * o.b.stride) 8) 19 8 (uOf 8 c.1))
  { writes := if put.isEmpty then [] else [(o.c.addr + 64 + 8 * n, (put.map rec1).flatten)]
    sat := cells.any (fun c => c.2.2.1), nan := cells.any (fun c => c.2.2.2), count := put.length, events := ev.length }

/-- One weight of OPTIM (R380): the new momentum and weight, SAT, NAN. -/
def optimStep (o : TOp) (a b w : Nat) (fv : Nat) : Nat × Nat × Bool × Bool :=
  let beta := leAt o.par 0 4
  let eta := leAt o.par 4 4
  let lam := leAt o.par 8 4
  let clip := leAt o.par 12 4
  let val (x : Nat) : Dy := match f32 x with | .fin v _ => v | .inf n => ⟨if n then -1 else 1, 200⟩ | .nan => Dy.zero
  let ok (r : FRes) : Nat := if r.isOpen then fv else r.bits
  let neg (x : Nat) : Nat := if bitAt x 31 then x - 2 ^ 31 else x + 2 ^ 31
  let g := if Dy.zero.lt (val clip) then
      (if (val clip).lt (val a) then clip else if (val a).lt (val clip).neg then neg clip else a) else a
  let p := f32Mul lam w
  let g' := f32Add g (ok p)
  let q := f32Mul beta b
  let m := f32Add (ok q) (ok g')
  let s := f32Mul eta (ok m)
  let w' := f32Add w (neg (ok s))
  (ok m, ok w', p.sat || g'.sat || q.sat || m.sat || s.sat || w'.sat, p.nan || g'.nan || q.nan || m.nan || s.nan || w'.nan)

/-- Block `q` of OPTIM, in row-major order (R380): its row, first element and length. -/
def TOp.optimBlock (o : TOp) (q : Nat) : Nat × Nat × Nat :=
  let per := ceilDiv o.n o.optimUnit
  let lo := q % per * o.optimUnit
  (q / per, lo, min o.optimUnit (o.n - lo))

/-- Block `q` of OPTIM: B and C of it in place. -/
def Dev.optimBlockStep (d : Dev) (r : Nat) (o : TOp) (g : SMap Nat) (fv : Nat → Nat) (q : Nat) : TRes :=
  let i := (o.optimBlock q).1
  let lo := (o.optimBlock q).2.1
  let cells := (upTo (o.optimBlock q).2.2).map (fun t =>
    let x := d.tNum r o.a false o.n i (lo + t)
    let b := d.tNum r o.b false o.n i (lo + t)
    let w := d.tNum r o.c (o.flag 6) o.n i (lo + t)
    let s := optimStep o (Num.f32 x.1) (Num.f32 b.1) (Num.f32 w.1) (fv (i * o.n + lo + t))
    (s.1, s.2.1, s.2.2.1 || x.2.1 || b.2.1 || w.2.1, s.2.2.2 || x.2.2 || b.2.2 || w.2.2))
  let nb := narrowRow 2 1 false none (cells.map (fun c => f32 c.1))
  let nw := if o.c.fmt = 9 then ⟨packCodes 9 (cells.map (fun c => c.2.1)), [], false, false⟩
    else narrowRow o.c.fmt o.c.smode (o.flag 6)
      (if o.flag 3 then some (fun t => draw8 g (i * o.n + lo + t)) else none) (cells.map (fun c => f32 c.2.1))
  { writes := rowWrites o.b o.n lo [(i, nb)] ++ rowWrites o.c o.n lo [(i, nw)]
    sat := nb.sat || nw.sat || cells.any (fun c => c.2.2.1), nan := nb.nan || nw.nan || cells.any (fun c => c.2.2.2),
    count := 0, events := 0 }

/-- Step `t` of an op; `last` where no step follows, `n` the records ENCODE has written. -/
def Dev.opStep (d : Dev) (r : Nat) (o : TOp) (g : SMap Nat) (fv : Nat → Nat) (t : Nat) (last : Bool) (n : Nat) : TRes :=
  if o.array then d.arrayStep r o g fv t last
  else if o.op = 4 then d.optimBlockStep r o g fv t
  else if o.op = 6 then d.encodeStep r o fv t n
  else d.quantStep r o g fv t

/-- The bytes of elements `lo` to `hi - 1` of row `i` of a tensor with rows of `l`, and of their scales: (offset, length). -/
def Tens.seg (x : Tens) (l i lo hi : Nat) : List (Nat × Nat) :=
  let b := fmtBits x.fmt
  let bl := smodeBlock x.smode l
  (x.addr + i * x.stride + lo * b / 8, (hi * b + 7) / 8 - lo * b / 8) ::
    (if x.smode = 0 then []
     else if x.smode = 4 then [(x.saddr + i, 1)]
     else [(x.saddr + i * smodeCount x.smode l + lo / bl, (hi - 1) / bl - lo / bl + 1)])

/-- CONV reads a pixel of line (or column) `y` for some of its `outs` outputs along that side, with `taps` taps (R372). -/
def TOp.pixelUsed (o : TOp) (y outs taps : Nat) : Bool :=
  (upTo taps).any (fun k => k * o.cDil ≤ y + o.cPad && (y + o.cPad - k * o.cDil) % max o.cStr 1 = 0 &&
    (y + o.cPad - k * o.cDil) / max o.cStr 1 < outs)

/-- The buffer ranges that step `t` of an op reads: (offset, length); `par` is the unit of the parameter block, `n` the records
ENCODE has written (R391). -/
def Dev.opReads (d : Dev) (r : Nat) (o : TOp) (fv : Nat → Nat) (par t n : Nat) : List (Nat × Nat) :=
  let lo := 64 * t
  let hi := min o.n (64 * (t + 1))
  (if o.pv then [(64 * par, 64)] else []) ++
  (if o.array then
    (if o.op = 2 then
      (((upTo (o.cH * o.cW)).filter (fun p => o.pixelUsed (p / o.cW) (o.outLen o.cH o.cR) o.cR &&
        o.pixelUsed (p % o.cW) (o.outLen o.cW o.cS) o.cS)).map (fun p => o.a.seg o.cin p 0 o.cin)).flatten
     else ((upTo o.dimA.1).map (fun i => o.a.seg o.dimA.2 i 0 o.dimA.2)).flatten) ++
    (if o.op ≠ 2 && o.transB then ((upTo o.k).map (fun q => o.b.seg o.n q lo hi)).flatten
     else ((upTo (hi - lo)).map (fun j => o.b.seg o.k (lo + j) 0 o.k)).flatten) ++
    (if o.flag 2 then ((upTo o.m).map (fun i => o.c.seg o.n i lo hi)).flatten else []) ++
    (if o.flag 4 then [(leAt o.par 8 4 % 2 ^ 21 + 8 * lo, 8 * (hi - lo))] else [])
   else if o.op = 4 then
    let b := o.optimBlock t
    [o.a, o.b, o.c].flatMap (fun x => x.seg o.n b.1 b.2.1 (b.2.1 + b.2.2))
   else o.a.seg o.n t 0 o.n ++
    (if o.op = 6 then ((o.events (d.encodeCells r o fv t)).take (leAt o.par 4 4 - n)).map (fun c => (o.b.addr + c.2.1 * o.b.stride, 8))
     else []))

/-! ### Checks (R375) and timing (R384) -/

def TOp.kt (o : TOp) : Nat := if fmtBits o.a.fmt = 4 && fmtBits o.b.fmt = 4 then 128 else 64
/-- Arithmetic cycles of an op of which `tiles` steps are done. -/
def TOp.cycles (o : TOp) (tiles : Nat) : Nat :=
  if o.array then
    let re := (if o.drawsA = 0 then 0 else ceilDiv o.drawsA 64) + (if o.drawsB = 0 then 0 else ceilDiv o.drawsB 64)
    32 + ceilDiv o.k o.kt * min tiles o.tiles * max o.m 64 + 40 + (if o.op = 3 then re else 0)
  else if o.op = 4 then
    let b := o.optimBlock tiles
    32 + ceilDiv (min (b.1 * o.n + b.2.1) (o.m * o.n)) 16
  else (32 + ceilDiv (min tiles o.m * o.n) 64) * (if o.c.smode = 4 then 2 else 1)
/-- MACs of the array. -/
def TOp.macs (o : TOp) (tiles : Nat) : Nat := if o.array then o.m * min o.n (64 * tiles) * o.k else 0

/-- A tensor of `rows` rows of `l` elements lies inside the buffer. -/
def Tens.inside (t : Tens) (rows l : Nat) : Bool :=
  t.addr + (rows - 1) * t.stride + rowLen t.fmt l ≤ 2 ^ 21 && (t.smode == 0 || t.saddr + rows * smodeCount t.smode l ≤ 2 ^ 21)
/-- A row packed whole (R363). -/
def packedWhole (f l : Nat) : Bool := (fmtBits f ≠ 4 || l % 2 = 0) && (fmtBits f ≠ 6 || l % 4 = 0)
/-- SMODE matches the format (R364). -/
def Tens.smodeOk (t : Tens) : Bool := t.smode ≤ 4 && (fmtMx t.fmt == (t.smode != 0))
/-- An operand's blocks along the reduction are whole; `enc` for BACKWARD, whose FP32 operands are re-encoded along it. -/
def wholeBlocks (t : Tens) (enc tr : Bool) (l k : Nat) : Bool :=
  if (tr && fmtMx t.fmt) || (enc && t.fmt = 9) then k % 32 == 0 else ! fmtMx t.fmt || tr || l % smodeBlock t.smode l == 0

/-- Reserved bytes of the parameter block (R373). -/
def TOp.parRsv (o : TOp) : Bool :=
  let z (a b : Nat) : Bool := (slice o.par a (b - a)).all (· == 0#8)
  ! o.pv || (if o.op = 2 then z 12 16 && z 27 64 else if o.array then z 12 16 && z 27 64
    else if o.op = 4 then z 16 64 else if o.op = 6 then byteAt o.par 9 < 2 && z 10 64 else z 4 64)

/-- The checks of R375, first failing first: BAD_OPCODE, BAD_LENGTH, DENIED; `gid` is the core's gang, `per` the plane's
PERIOD and `rho` the clock ratio (R389). A tensor descriptor that the op does not use is ignored (R371). -/
def TOp.check (o : TOp) (gid : Option Nat) (per rho : Nat) (muted : Bool) : Option Status :=
  let a := o.dimA
  let b := o.dimB
  let usesB := o.array || o.op = 4 || o.op = 6
  if o.op = 0 || 8 ≤ o.op then some .badOpcode
  else if o.m = 0 || o.n = 0 || o.k % 2 ^ 24 = 0 ||
      (o.op = 2 && (o.m ≠ o.outLen o.cH o.cR * o.outLen o.cW o.cS || o.k % 2 ^ 24 ≠ o.cR * o.cS * o.cin)) ||
      (o.array && ! (wholeBlocks o.a (o.op == 3) o.transA a.2 (o.k % 2 ^ 24) && wholeBlocks o.b (o.op == 3) (o.op ≠ 2 && o.transB) b.2 (o.k % 2 ^ 24))) ||
      ! packedWhole o.a.fmt a.2 || (usesB && o.op ≠ 6 && ! packedWhole o.b.fmt b.2) || (o.op ≠ 6 && ! packedWhole o.c.fmt o.n) ||
      (o.array && o.c.plane = 1 && bitAt o.gang 7 && (per < 4 * o.m || per < rho * ceilDiv (o.k % 2 ^ 24) o.kt * max o.m 64)) then some .badLength
  else if ! o.a.inside a.1 a.2 || (usesB && o.op ≠ 6 && ! o.b.inside b.1 b.2) ||
      (o.op = 6 && 2 ^ 21 < o.b.addr + (o.n - 1) * o.b.stride + 8) ||
      (if o.op = 6 then 2 ^ 21 < o.c.addr + 64 + 8 * leAt o.par 4 4 else o.c.plane ≠ 1 && ! o.c.inside o.m o.n) ||
      (o.array && o.flag 4 && 2 ^ 21 < leAt o.par 8 4 + 8 * o.n) then some .denied
  else if o.a.rsv || (usesB && o.b.rsv) || o.c.rsv || 10 ≤ o.a.fmt || (usesB && 10 ≤ o.b.fmt) || 10 ≤ o.c.fmt || 2 ^ 24 ≤ o.k ||
      bitsOf o.gang 4 3 ≠ 0 || bitsOf o.cq 5 2 ≠ 0 || ! o.parRsv || o.a.plane ≠ 0 || (usesB && o.b.plane ≠ 0) || 2 ≤ o.c.plane ||
      ! o.a.smodeOk || (usesB && o.op ≠ 6 && ! o.b.smodeOk) || (o.op ≠ 6 && ! o.c.smodeOk) ||
      (o.array && o.pv && 2 ^ 21 ≤ leAt o.par 8 4) || (o.op = 6 && (byteAt o.par 8 = 0 || 127 < byteAt o.par 8)) ||
      (o.op = 2 && (15 < o.cR || 15 < o.cS || 4 < o.cStr || 7 < o.cPad || o.cDil = 0 || 4 < o.cDil)) then some .denied
  else if (o.op = 1 || o.op = 2) && ! (o.intPath || (fmtMx o.a.fmt && fmtMx o.b.fmt)) then some .denied
  else if o.op = 3 && ! ((fmtMx o.a.fmt || o.a.fmt = 9) && (fmtMx o.b.fmt || o.b.fmt = 9)) then some .denied
  else if (o.flag 4 && o.array && ! o.intPath) || (o.op ≠ 1 && o.op ≠ 3 && (o.flag 0 || o.flag 1)) then some .denied
  else if o.array && ((o.c.fmt = 8 && ! o.intPath) || (o.flag 2 && o.c.fmt < 8) || (o.op = 3 && o.c.fmt ≠ 9 && o.c.fmt ≠ 4) ||
      (o.c.plane = 1 && o.c.fmt ≠ (if o.intPath then 8 else 9))) then some .denied
  else if ((o.op = 5 || o.op = 7) && 8 ≤ o.c.fmt) || (o.op = 7 && o.a.fmt ≠ 8) || (o.op = 6 && o.a.fmt ≠ 8 && o.a.fmt ≠ 9) ||
      (o.op = 4 && ((o.a.fmt ≠ 9 && o.a.fmt ≠ 4) || o.b.fmt ≠ 2 || o.b.smode ≠ 1 || o.c.fmt = 8)) then some .denied
  else if (! o.array && o.c.plane = 1) || (o.c.plane = 1 && ! bitAt o.gang 7) || (bitAt o.gang 7 && gid ≠ some (o.gang % 16)) then some .denied
  else if muted && o.op = 4 then some .muted
  else none

end Sys2Proof.Machine
end

