-- ==== Sys2Proof/Machine/Tcore.lean ====
section
/-! DEFINITION. T-cores: the descriptor queue, checks, completion, gangs, the plane's words and the 0x08xx commands
(R359 to R398), and the scheduled plane (R274 to R277). -/

namespace Sys2Proof.Machine

/-- Set the queue of a T-core, with COUNT and QNE. -/
def Dev.setTq (d : Dev) (r : Nat) (q : List (List Byte × Bool)) : Dev :=
  ((d.setTcore r { d.tcore r with queue := q }).setF (TCR_DQSTAT r) 4 4 q.length).setFlag (TCR_STAT r) 1 (! q.isEmpty)

/-- A descriptor is pushed (R396); `fromScore` marks the S-core's ENCODE. -/
def Dev.tcPush (d : Dev) (r : Nat) (x : List Byte) (fromScore : Bool) : Dev :=
  let q := (d.tcore r).queue
  if 8 ≤ q.length then
    ((d.bump (TCR_DQDROP r) 1).setFlag (TCR_STAT r) 10 true).tocArrive (256 + r) 6 ((d.regPart r).getD 0) 0 0 false
  else (d.setTq r (q ++ [(x, fromScore)])).domFollow (domOf r 4)

/-- A write of descriptor word `i` to TCR_DQPUSH; word 15 enqueues (R396). -/
def Dev.dqpush (d : Dev) (r i v : Nat) : Dev :=
  let t := d.tcore r
  let p := SMap.set 0 t.push i (v % 2 ^ 32)
  if i = 15 then
    (d.setTcore r { t with push := [] }).tcPush r (((upTo 16).map (fun k => leBytes 4 (SMap.get 0 p k))).flatten) false
  else d.setTcore r { t with push := p }

/-- The core's gang, where it is a member of one. -/
def Dev.gangOf (d : Dev) (r : Nat) : Option Nat := if d.flag (TCR_GANG r) 31 then some (d.fld (TCR_GANG r) 24 4) else none
/-- The members of gang `g` of partition `p`, rising. -/
def Dev.gangMembers (d : Dev) (p g : Nat) : List Nat := (d.regionsOf p).filter (fun r => d.gangOf r == some g)
/-- The head descriptor of a T-core. -/
def Dev.tcHead (d : Dev) (r : Nat) : List Byte := padTo 64 (((d.tcore r).queue.headD ([], false)).1)
/-- The head is a GANGED descriptor. -/
def Dev.headGanged (d : Dev) (r : Nat) : Bool := ! (d.tcore r).queue.isEmpty && bitAt (byteAt (d.tcHead r) 2) 7
/-- The head is a GANGED descriptor waiting for GO. -/
def Dev.gangWaits (d : Dev) (r : Nat) : Bool := d.flag (TCR_STAT r) 3
/-- The ratio of the network clock to the arithmetic clock (R389, R580). -/
def Dev.rho (d : Dev) : Nat := if d.pwr.prev = 2 then 4 else 2
def Dev.planePeriod (d : Dev) (r : Nat) : Nat := d.fld (FAB_SCTL r) 16 10 + 1
/-- A scheduled-plane program of the partition runs. -/
def Dev.partPlane (d : Dev) (p : Nat) : Bool := (d.regionsOf p).any d.planeRuns
/-- The engine counters of region `r` are frozen with its partition (R622). -/
def Dev.regFrozen (d : Dev) (r : Nat) : Bool := (d.regPart r).any (fun p => d.flag (OBS_PCTL p) 0)

/-! ### Completion (R376) -/

/-- What a completion record carries beside its descriptor. -/
structure TDone where
  st     : Status
  sat    : Bool
  nan    : Bool
  pl     : Bool
  ecc    : Bool
  cycles : Nat
  count  : Nat
  macs   : Nat
  deriving DecidableEq, Repr, Inhabited

def TDone.plain (st : Status) : TDone := ⟨st, false, false, false, false, 0, 0, 0⟩

/-- The 64 bytes of the record. -/
def TDone.bytes (t : TDone) (x : List Byte) (r : Nat) : List Byte :=
  padTo 64 (slice x 4 2 ++ slice x 0 1 ++ leBytes 1 t.st.code ++
    leBytes 1 (natOf t.sat + 2 * natOf t.nan + 4 * natOf t.pl + 8 * natOf t.ecc) ++ leBytes 1 r ++ zeros 2 ++ leBytes 4 t.cycles ++
    leBytes 4 t.count ++ leBytes 8 t.macs)

/-- The S-core's ENCODE consumes its completion record (R402): the WRITTEN records go to the router, GD takes the status, and the
acknowledgement of the EVSEND is on its way. -/
def Dev.encodeDone (d : Dev) (r : Nat) (x : List Byte) (st : Status) : Dev :=
  match (d.score r).cur with
  | none => d
  | some id =>
    let a := tcBase r + leAt x 48 4 % 2 ^ 21
    let l := if byteAt x 0 = 6 && st.code ≠ 2 && st.code ≠ 3 && st.code ≠ 5 then d.rdB (a + 64) (8 * d.rdN a 8) else []
    let y := d.evSend r 8 l
    (y.1.setG r (dGd (y.1.seqDesc r)) st.code).opEnd r id y.2

/-- The head descriptor completes: counters, status, Tocsin sources 1 to 4, trace, and its record, to its channel or to the
S-core whose ENCODE waits for it. -/
def Dev.tcDone (d : Dev) (r : Nat) (t : TDone) : Dev :=
  match (d.tcore r).queue with
  | [] => d
  | q :: rest =>
    let x := padTo 64 q.1
    let p := (d.regPart r).getD 0
    let d := (d.setTcore r { d.tcore r with running := false, abort := false, muteHit := false }).setTq r rest
    let d := (d.setFlag (TCR_STAT r) 0 false).setFlag (TCR_STAT r) 3 false
    let d := (d.setR (TCR_LAST r) (t.st.code * 2 ^ 16 + leAt x 4 2)).setR (TCR_LASTCYC r) t.cycles
    let d := if d.regFrozen r then d else
      ((((d.bump64 (TCR_MACS_LO r) t.macs).bump64 (TCR_BUSY_LO r) t.cycles).bump (TCR_OPCNT r) 1).bump (TCR_SATCNT r) (natOf t.sat)).bump
        (TCR_NANCNT r) (natOf t.nan)
    let d := if t.sat then d.setFlag (TCR_STAT r) 6 true else d
    let d := if t.nan then d.setFlag (TCR_STAT r) 7 true else d
    let d := d.tocArrive (256 + r) 1 p 0 0 false
    let d := if t.st = .ok then d else d.tocArrive (256 + r) 2 p t.st.code (leAt x 4 2) false
    let d := if t.sat || t.nan then d.tocArrive (256 + r) 3 p 0 0 false else d
    let d := d.traceRec (dieOf r) 7 (some p) (tocOrigin (256 + r)) none none
      (slice x 4 2 ++ slice x 0 1 ++ leBytes 1 t.st.code ++ leBytes 1 1)
    let d := if q.2 then d.encodeDone r x t.st
      else if bitAt (byteAt x 3) 7 then d
      else d.chanMessage r (byteAt x 3 % 32) (t.bytes x r) .nobody
    d.domFollow (domOf r 4)

/-- The head descriptor ends without having done its work; a word that has come with ERR makes it INCOMPLETE with PLERR
(R390). -/
def Dev.tcStop (d : Dev) (r : Nat) (st : Status) : Dev :=
  let t := d.tcore r
  (d.setTcore r { t with plErr := false }).tcDone r { TDone.plain (if t.plErr then .incomplete else st) with pl := t.plErr }

/-- Each of the descriptors in the queue completes INCOMPLETE (R393); `k` at most. -/
def Dev.tcFlush (r : Nat) : Nat → Dev → Dev
  | 0, d => d
  | k + 1, d => if (d.tcore r).queue.isEmpty then d else tcFlush r k (d.tcStop r .incomplete)

/-- ABORT (R393): a running op ends at its next tile boundary, and the queue after it; ignored while a ganged op runs. -/
def Dev.tcAbort (d : Dev) (r : Nat) : Dev :=
  let t := d.tcore r
  if t.running then
    if d.headGanged r then d.setFlag (TCR_STAT r) 5 true else d.setTcore r { t with abort := true }
  else Dev.tcFlush r 8 d

/-! ### Start (R375, R386 to R388) -/

/-- The generators of a T-core are seeded (R368): from TCR_SEED where FIXSEED is 1, else from the entropy source; a zero seed is
replaced by 1. -/
def Dev.tcSeed (d : Dev) (r : Nat) (fix : Bool) : Dev :=
  (d.forEach (upTo 16) (fun d i =>
    let x := d.fresh 32
    let y := if fix then (d.rg (TCR_SEED r), d) else x
    let t := y.2.tcore r
    y.2.setTcore r { t with gens := SMap.set 0 t.gens i (if y.1 = 0 then 1 else y.1) }))

/-- The 16 generators before an op that draws: seeded from the entropy source since the T-core's reset, where nothing else has
seeded them, and updated in every cycle since (R368), a free number of times. -/
def Dev.tcGens (d : Dev) (r : Nat) (o : TOp) : Dev :=
  if o.flag 3 then
    let d := if (d.tcore r).gens.isEmpty then d.tcSeed r false else d
    let x := d.fresh 32
    let t := x.2.tcore r
    x.2.setTcore r { t with gens := (upTo 16).foldl (fun m i => SMap.set 0 m i (genStep x.1 (SMap.get 0 t.gens i))) t.gens }
  else d

/-- The op at the head of the queue starts. -/
def Dev.tcStart (d : Dev) (r : Nat) : Dev :=
  let x := d.tcHead r
  let d := d.tcGens r (d.topOf r x)
  ((d.setTcore r { d.tcore r with running := true, muteHit := false }).setFlag (TCR_STAT r) 0 true).traceRec (dieOf r) 7
    (some ((d.regPart r).getD 0)) (tocOrigin (256 + r)) none none (slice x 4 2 ++ slice x 0 1 ++ zeros 2)

/-- The head descriptor is checked (R375): refused, set waiting for GO, or started. -/
def Dev.descCheck (d : Dev) (r : Nat) : Dev :=
  let t := d.tcore r
  if t.queue.isEmpty || t.running || d.gangWaits r || ! d.flag (TCR_CTL r) 0 || d.domLevel (domOf r 4) ≠ 2 ||
      (d.regPart r).any d.choked then d
  else
    let p := (d.regPart r).getD 0
    let x := d.tcHead r
    let o := d.topOf r x
    match o.check (d.gangOf r) (d.planePeriod r) d.rho (d.muted p) with
    | some st =>
      let d' := (d.bump (TCR_REJECT r) 1).tcDone r (.plain st)
      if bitAt o.gang 7 && d.gangOf r == some (o.gang % 16) then
        d'.forEach ((d'.gangMembers p (o.gang % 16)).filter (fun m => m != r && d'.gangWaits m))
          (fun d m => d.tcStop m .incomplete)
      else d'
    | none =>
      if bitAt o.gang 7 then d.setFlag (TCR_STAT r) 3 true
      else d.tcStart r

/-- GO of gang `g` (R387): every member holds its descriptor and no plane program of the partition runs; the members' ops
start, and every node of the partition starts slot 0. -/
def Dev.gangGo (d : Dev) (p g : Nat) : Dev :=
  let ms := d.gangMembers p g
  if ms.isEmpty || ! ms.all d.gangWaits || d.partPlane p then d
  else
    let d := d.forEach ms (fun d r =>
      let x := d.tcHead r
      let d := d.setTcore r { d.tcore r with tiles := [], plane := if (tensAt x 48).plane = 1 then some x else none }
      (d.setFlag (TCR_STAT r) 3 false).tcStart r)
    d.forEach (d.regionsOf p) (fun d r =>
      (d.setRegion r { d.region r with plCycle := 0, plIn := [] }).setFlag (FAB_SCTL r) 31 true)

/-- Not every member was ready within 1 ms of the first (R388). -/
def Dev.gangTimeout (d : Dev) (p g : Nat) : Dev :=
  let ms := d.gangMembers p g
  if ms.all d.gangWaits then d else d.forEach (ms.filter d.gangWaits) (fun d r => d.tcStop r .timeout)

/-! ### Ops (R371) -/

/-- The words with bad check bits in ranges of the buffer of region `r`. -/
def Dev.badWords (d : Dev) (r : Nat) (rs : List (Nat × Nat)) : List (Nat × Nat) :=
  d.ecc.filter (fun w => rs.any (fun x => tcBase r + x.1 < w.1 + 8 && w.1 < tcBase r + x.1 + x.2))

/-- Single-bit errors of the words an op reads are corrected (R391). -/
def Dev.tcCorrect (d : Dev) (r : Nat) (ws : List (Nat × Nat)) : Dev :=
  d.forEach (ws.filter (fun w => w.2 == 1)) (fun d w => ({ d with ecc := SMap.set 0 d.ecc w.1 0 }).bump (TCR_ECCCORR r) 1)

/-- The tile words of tile `t` of a plane op (R389): word 4m + j holds columns 16j to 16j + 15 of row m; a column past N is a
free value. -/
def Dev.tileWords (d : Dev) (r : Nat) (o : TOp) (g : SMap Nat) (t : Nat) : List (List Nat) :=
  ((upTo o.m).map (fun m => (upTo 4).map (fun j => (upTo 16).map (fun i =>
    let n := 64 * t + 16 * j + i
    if n < o.n then (d.accAt r o g m n).bits else Config.freeValue d.nonce / 2 ^ (32 * i) % 2 ^ 32)))).flatten

/-- The tiles of a plane op that have not left yet are formed before its operands may change. -/
def Dev.formTiles (d : Dev) (r : Nat) (o : TOp) (g : SMap Nat) : Dev :=
  match (d.tcore r).plane with
  | none => d
  | some _ =>
    let t := d.tcore r
    let ts := (upTo o.tiles).foldl (fun m k =>
      if (SMap.get [] m k).isEmpty then SMap.set [] m k (d.tileWords r o g k) else m) t.tiles
    { (d.setTcore r { t with tiles := ts }) with nonce := d.nonce + 1 }

/-- Write bytes at offset `o` of the buffer of region `r`: a word written in part is read first, with what that finds (R391). -/
def Dev.bufPut (d : Dev) (r o : Nat) (l : List Byte) : Dev :=
  (d.tcCorrect r ((d.badWords r [(o, l.length)]).filter (fun w => (partWords (tcBase r + o) l.length).contains w.1))).cmnWr
    (tcBase r + o) l

/-- The steps of an op from step `lim` less the count on: each reads its words when it needs them, as the steps before it left
them (R361). Answers what the steps reported, the steps done, and whether an uncorrectable word stopped the op (R391). -/
def Dev.opRun (r : Nat) (o : TOp) (g : SMap Nat) (fv : Nat → Nat) (par lim : Nat) : Nat → Dev → TRes → Dev × TRes × Nat × Bool
  | 0, d, a => (d, a, lim, false)
  | k + 1, d, a =>
    let t := lim - (k + 1)
    let bad := d.badWords r (d.opReads r o fv par t a.count)
    let d := d.tcCorrect r bad
    if bad.any (fun w => w.2 == 2) then (d, a, t, true)
    else
      let x := d.opStep r o g fv t (k == 0) a.count
      Dev.opRun r o g fv par lim k (d.forEach x.writes (fun d w => d.bufPut r w.1 w.2)) (a.join x)

/-- The running op of region `r` completes, if it is op `op` (R376, R380 to R384, R391, R393); `k` is the number of steps
(tiles, blocks of OPTIM, rows) that were done where ABORT or Mute ends it early. -/
def Dev.opComplete (d : Dev) (r op k : Nat) : Dev :=
  let t := d.tcore r
  let x := d.tcHead r
  let o := d.topOf r x
  if ! t.running || t.queue.isEmpty || o.op ≠ op then d
  else
    let p := (d.regPart r).getD 0
    let mute := op = 4 && (t.muteHit || d.muted p)
    let lim := if t.abort || mute then min k o.steps else o.steps
    let fv (i : Nat) : Nat := Config.freeValue d.nonce / 2 ^ (32 * i) % 2 ^ 32
    let y := Dev.opRun r o t.gens fv (leAt x 6 2 % 2 ^ 15) lim lim d .none
    let res := y.2.1
    let tiles := y.2.2.1
    let unc := y.2.2.2
    let d := if op = 6 then y.1.bufPut r o.c.addr (leBytes 8 res.count ++ leBytes 8 (res.events - res.count) ++ zeros 48) else y.1
    let d := d.formTiles r o t.gens
    let d := ({ d with nonce := d.nonce + 1 }).setTcore r { d.tcore r with plErr := false }
    let d := if unc then
        (((d.bump (TCR_ECCUNC r) 1).setFlag (TCR_STAT r) 8 true).tocArrive (256 + r) 4 p 0 0 false).fault fEccTcore
          (d.regPart r).toList (srcTcore r)
      else d
    let st : Status := if mute then .muted else if unc || t.abort || t.plErr then .incomplete else .ok
    let d := d.tcDone r { st := st, sat := res.sat, nan := res.nan, pl := t.plErr, ecc := unc, cycles := o.cycles tiles,
                          count := res.count, macs := o.macs tiles }
    if t.abort then Dev.tcFlush r 8 d else d

/-- A gang op that still runs after the plane has been waited for completes INCOMPLETE on every member (R581). -/
def Dev.gangCut (d : Dev) : Dev :=
  d.forEach ((upTo 16).filter (fun r => (d.tcore r).running && d.headGanged r)) (fun d r => d.tcStop r .incomplete)

/-! ### The scheduled plane (R274 to R277, R389, R390) -/

/-- A word on the plane: its lanes and ERR. -/
structure PWord where
  lanes : List Nat
  err   : Bool
  deriving DecidableEq, Repr, Inhabited

/-- The T source of region `r` in plane cycle `c` (R389), none where it is not VALID. -/
def Dev.tSource (d : Dev) (r c : Nat) : Dev × Option PWord :=
  match (d.tcore r).plane with
  | none => (d, none)
  | some x =>
    let o := d.topOf r x
    let skew := d.fld (TCR_GANG r) 16 8
    let lat := d.rho * (72 + ceilDiv o.k o.kt * max o.m 64)
    let per := d.planePeriod r
    if c < skew + lat then (d, none)
    else
      let u := c - skew - lat
      let t := u / per
      let w := u % per
      if o.tiles ≤ t || 4 * o.m ≤ w then (d, none)
      else
        let d := if (SMap.get [] (d.tcore r).tiles t).isEmpty then
            { (d.setTcore r { d.tcore r with tiles := SMap.set [] (d.tcore r).tiles t (d.tileWords r o (d.tcore r).gens t) }) with
              nonce := d.nonce + 1 }
          else d
        (d, some ⟨(SMap.get [] (d.tcore r).tiles t).getD w [], false⟩)

/-- The unit of bank 15 at a pointer. -/
def unitAt (r p : Nat) : Nat := cmnBase r + 15 * 0x40000 + 64 * (p % 4096)

/-- What word `w` of bank 15 of region `r` held before port A's plain write of it in the present cycle; empty where there was none
(R424). -/
def Dev.portAOld (d : Dev) (r w : Nat) : List Byte :=
  let g := d.region r
  if g.portT = d.time then SMap.get [] g.portA w else []

/-- The M source (R276), with a word that port A writes in the same cycle as it was before (R424): from a port B that PLANE does not own a zero word (R423). -/
def Dev.mSource (d : Dev) (r : Nat) : Dev × PWord :=
  let p := d.fld (FAB_SMRD r) 0 12
  let d := d.setF (FAB_SMRD r) 0 12 ((p + 1) % 4096)
  if d.bankOwner r 15 true = 5 then
    let x := d.cmnRd r (unitAt r p) 64
    (x.1, ⟨lanesOf (((upTo 8).map (fun i =>
      let old := d.portAOld r (unitAt r p + 8 * i)
      if old.isEmpty then slice x.2 (8 * i) 8 else old)).flatten), false⟩)
  else (d.nonOwner r 15 false, ⟨List.replicate 16 0, false⟩)

/-- Two words added lane by lane: the sum, how many lanes saturated, and whether a NaN was met (R275); `fv` gives the lanes
whose sum IEEE 754 leaves without a value (log entry 48). -/
def PWord.add (op : Nat) (fv : Nat → Nat) (a b : PWord) : PWord × Nat × Bool :=
  let f (i : Nat) : Nat × Bool × Bool :=
    let x := a.lanes.getD i 0
    let y := b.lanes.getD i 0
    if op = 2 then
      let e := sInt 32 x + sInt 32 y
      (uOf 32 (satS 32 e), satS 32 e != e, false)
    else
      let z := f32Add x y
      (if z.isOpen then fv i else z.bits, z.sat, z.nan)
  let l := (upTo 16).map f
  (⟨l.map Prod.fst, a.err || b.err⟩, (l.filter (fun v => v.2.1)).length, l.any (fun v => v.2.2))

/-- A word that reaches the T-core of region `r` (R390). -/
def Dev.plToT (d : Dev) (r : Nat) (w : PWord) : Dev :=
  let p := d.fld (TCR_PLWR r) 0 15
  let d := if w.err then
      ((d.bump (TCR_PLERR r) 1).setFlag (TCR_STAT r) 9 true |>.setTcore r { d.tcore r with plErr := true }).tocArrive (256 + r) 5
        ((d.regPart r).getD 0) 0 0 false
    else d.cmnWr (tcBase r + 64 * p) ((w.lanes.map (leBytes 4)).flatten)
  d.setF (TCR_PLWR r) 0 15 (if p + 1 = d.fld (TCR_PLLIM r) 0 16 then d.fld (TCR_PLBASE r) 0 15 else p + 1)

/-- A word written to M (R276, R277, R423): one with ERR is dropped, and so are its 64-bit words that port A writes plainly in the
same cycle (R424). -/
def Dev.plToM (d : Dev) (r : Nat) (w : PWord) : Dev :=
  let p := d.fld (FAB_SMWR r) 0 12
  let d := d.setF (FAB_SMWR r) 0 12 ((p + 1) % 4096)
  if d.bankOwner r 15 true ≠ 5 then d.nonOwner r 15 true
  else if w.err then d
  else
    let l := (w.lanes.map (leBytes 4)).flatten
    d.forEach (upTo 8) (fun d i =>
      if (d.portAOld r (unitAt r p + 8 * i)).isEmpty then d.cmnWr (unitAt r p + 8 * i) (slice l (8 * i) 8)
      else (d.bump (CMN_DPLOSS r) 1).setFlag (CMN_STAT r) 2 true)

/-- Slots a word takes over the link `k` of region `r` (R274). -/
def linkSlots (r k : Nat) : Nat := if (r / 4 = 1 && k = 1) || (r / 4 = 2 && k = 0) then 8 else 2
/-- The input of the far node that link `k` reaches: N to S, S to N, E to W, W to E. -/
def farInput (k : Nat) : Nat := if k = 0 then 2 else if k = 1 then 1 else if k = 2 then 4 else 3

/-- What a node's entry drives in one slot: (output, word), with the lanes that saturated, NAN, and whether a source is
missing. -/
def nodeOut (e : List Byte) (fv : Nat → Nat) (src : Nat → Option PWord) : List (Nat × PWord × Nat × Bool × Bool) :=
  (upTo 6).filterMap (fun k =>
    let b := byteAt e k
    let op := bitsOf b 6 2
    let none16 : PWord := ⟨List.replicate 16 0, true⟩
    let a := src (bitsOf b 0 3)
    if op = 0 then none
    else if op = 1 then some (k, a.getD none16, 0, false, a.isNone)
    else
      let c := src (bitsOf b 3 3)
      let s := PWord.add op (fun i => fv (16 * k + i)) (a.getD none16) (c.getD none16)
      some (k, s.1, s.2.1, s.2.2, a.isNone || c.isNone))

/-- The Rudiment entry of region `r` for slot `s`. -/
def Dev.rudAt (d : Dev) (r s : Nat) : List Byte := leBytes 4 (d.rg (FAB_RUD r (2 * s))) ++ leBytes 4 (d.rg (FAB_RUD r (2 * s + 1)))

/-- The entry selects source `k`. -/
def entryUses (e : List Byte) (k : Nat) : Bool :=
  (upTo 6).any (fun i => let b := byteAt e i; let op := bitsOf b 6 2; (1 ≤ op && bitsOf b 0 3 == k) || (2 ≤ op && bitsOf b 3 3 == k))

/-- Node `r` executes its entry of the present slot (R275 to R277). -/
def Dev.nodeSlot (d : Dev) (r : Nat) : Dev :=
  let c := (d.region r).plCycle
  let e := d.rudAt r (c % d.planePeriod r)
  let ins := (d.region r).plIn.filter (fun w => w.due == c)
  let ts := if entryUses e 5 then d.tSource r c else (d, none)
  let ms : Dev × Option PWord := if entryUses e 6 then (let x := ts.1.mSource r; (x.1, some x.2)) else (ts.1, none)
  let src (k : Nat) : Option PWord :=
    if k = 5 then ts.2 else if k = 6 then ms.2
    else (ins.find? (fun w => w.src == k)).map (fun w => (⟨w.lanes, w.err⟩ : PWord))
  let fv (i : Nat) : Nat := Config.freeValue ms.1.nonce / 2 ^ (32 * i) % 2 ^ 32
  ({ ms.1 with nonce := ms.1.nonce + 1 } : Dev).forEach (nodeOut e fv src) (fun d o =>
    let w := o.2.1
    let d := if o.2.2.1 = 0 then d else (d.bump (FAB_SSAT r) o.2.2.1).setFlag (FAB_SSTAT r) 0 true
    let d := if o.2.2.2.1 then d.setFlag (FAB_SSTAT r) 1 true else d
    let d := if o.2.2.2.2 then (d.bump (FAB_SMISS r) 1).setFlag (FAB_SSTAT r) 2 true else d
    if o.1 = 4 then d.plToT r w
    else if o.1 = 5 then d.plToM r w
    else match meshNbr r o.1 with
      | none => d
      | some m =>
        let y := d.region m
        d.setRegion m { y with plIn := y.plIn ++ [⟨c + linkSlots r o.1, farInput o.1, w.err, w.lanes⟩] })

/-- Node `r` moves to the next cycle; after its last period it stops (R274). -/
def Dev.nodeNext (d : Dev) (r : Nat) : Dev :=
  let x := d.region r
  let c := x.plCycle + 1
  let rep := d.fld (FAB_SCTL r) 0 16
  if rep ≠ 0 && rep * d.planePeriod r ≤ c then
    ((d.setRegion r { x with plCycle := 0, plIn := [], portA := [] }).setTcore r { d.tcore r with plane := none, tiles := [] }).setFlag (FAB_SCTL r) 31 false
  else d.setRegion r { x with plCycle := c, plIn := x.plIn.filter (fun w => c ≤ w.due), portA := [] }

/-- One network cycle of the scheduled plane of partition `p`. -/
def Dev.planeSlot (d : Dev) (p : Nat) : Dev :=
  let ns := (d.regionsOf p).filter d.planeRuns
  (d.forEach ns Dev.nodeSlot).forEach ns Dev.nodeNext

/-! ### The 0x08xx commands (R397, R398) -/

def tcSpec (op : Nat) (len : List Byte → Bool) (ro : Bool) (rsv : List (Nat × Nat)) : CmdSpec :=
  { opcode := op, issuer := .owner, names := true, ro := ro, len := len, rsv := rsv }

/-- What a command on region `r`'s T-core refuses first. -/
def Dev.tcRefuse (d : Dev) (p r : Nat) : Option Status :=
  if 16 ≤ r || ! d.owns p r then some .denied else if d.tcoreBad r then some .fenced else none

def cGangForm : CmdSpec :=
  tcSpec 0x0801 (fun pl => 8 ≤ pl.length && pl.length == 8 + 4 * byteAt pl 1) false
    (rsvd 4 4 ++ (upTo 16).map (fun i => (8 + 4 * i + 3, 255)))

def Dev.gangForm (d : Dev) (h : Hdr) (pl : List Byte) : Dev × Ans :=
  let p := h.part
  let g := byteAt pl 0
  let n := byteAt pl 1
  let gk := byteAt pl 2
  let gn := byteAt pl 3
  let ms := (upTo n).map (fun i => (byteAt pl (8 + 4 * i), byteAt pl (9 + 4 * i), byteAt pl (10 + 4 * i)))
  let rs := ms.map Prod.fst
  if 16 ≤ g || n = 0 || 16 < n || gk * gn ≠ n || rs.any (fun r => 16 ≤ r || ! d.owns p r) || ! rs.Nodup ||
      ! (d.gangMembers p g).isEmpty || ms.any (fun m => gk ≤ m.2.1 / 16 || gn ≤ m.2.1 % 16) || ! (ms.map (fun m => m.2.1)).Nodup then
    (d, .st .denied)
  else if rs.any d.tcoreBad then (d, .st .fenced)
  else if rs.any (fun r => (d.tcore r).running || (d.gangOf r).isSome) then (d, .st .busy)
  else if rs.any (fun r => d.flag FLT_STAT 4 && dieOf r ≠ 0) then (d, .st .noResource)
  else
    let d := d.forEach ms (fun d m =>
      let v := 2 ^ 31 + g * 2 ^ 24 + m.2.2 * 2 ^ 16 + m.2.1 / 16 * 2 ^ 12 + m.2.1 % 16 * 2 ^ 8 + (gk - 1) * 2 ^ 4 + (gn - 1)
      ((d.setR (TCR_GANG m.1) v).setFlag (TCR_STAT m.1) 2 true).setVote (cliPart p) (domOf m.1 4) 2)
    (d, .st .ok)

def cGangRelease : CmdSpec := tcSpec 0x0802 (lenIs 8) false (rsvd 1 7)
def Dev.gangRelease (d : Dev) (h : Hdr) (pl : List Byte) : Dev × Ans :=
  let ms := d.gangMembers h.part (byteAt pl 0)
  if 16 ≤ byteAt pl 0 || ms.isEmpty then (d, .st .denied)
  else if ms.any (fun r => (d.tcore r).queue.any (fun q => bitAt (byteAt q.1 2) 7)) then (d, .st .busy)
  else (d.forEach ms (fun d r => ((d.setR (TCR_GANG r) 0).setFlag (TCR_STAT r) 2 false).setVote (cliPart h.part) (domOf r 4) 0), .st .ok)

def cGangStatus : CmdSpec := tcSpec 0x0803 (lenIs 8) true (rsvd 1 7)
def Dev.gangStatus (d : Dev) (h : Hdr) (pl : List Byte) : Dev × Ans :=
  let g := byteAt pl 0
  let ms := d.gangMembers h.part g
  if 16 ≤ g then (d, .st .denied)
  else
    match ms with
    | [] => (d, .done .ok 0 (zeros 4))
    | m :: _ =>
      let st := if ms.any (fun r => (d.tcore r).running && d.headGanged r) then 3 else if ms.any d.gangWaits then 2 else 1
      (d, .done .ok 0 (leBytes 1 (d.fld (TCR_GANG m) 4 4 + 1) ++ leBytes 1 (d.fld (TCR_GANG m) 0 4 + 1) ++ leBytes 1 ms.length ++
        leBytes 1 st ++ (ms.map (fun r => leBytes 1 r ++ leBytes 1 (16 * d.fld (TCR_GANG r) 12 4 + d.fld (TCR_GANG r) 8 4) ++
          leBytes 1 (d.fld (TCR_GANG r) 16 8) ++ zeros 1)).flatten))

def cTcoreSubmit : CmdSpec := tcSpec 0x0804 (lenIs 72) false (rsvd 1 7)
def Dev.tcoreSubmit (d : Dev) (h : Hdr) (pl : List Byte) : Dev × Ans :=
  let r := byteAt pl 0
  match d.tcRefuse h.part r with
  | some s => (d, .st s)
  | none => if 8 ≤ (d.tcore r).queue.length then (d, .st .busy) else (d.tcPush r (slice pl 8 64) false, .st .ok)

def cTcoreStatus : CmdSpec := tcSpec 0x0805 (lenIs 8) true (rsvd 1 7)
def Dev.tcoreStatus (d : Dev) (h : Hdr) (pl : List Byte) : Dev × Ans :=
  match d.tcRefuse h.part (byteAt pl 0) with
  | some s => (d, .st s)
  | none => (d, .done .ok 0 (d.regBytes (TCR_CTL (byteAt pl 0)) 22))

def cTcoreAbort : CmdSpec := tcSpec 0x0806 (lenIs 8) false (rsvd 1 7)
def Dev.tcoreAbort (d : Dev) (h : Hdr) (pl : List Byte) : Dev × Ans :=
  let r := byteAt pl 0
  match d.tcRefuse h.part r with
  | some s => (d, .st s)
  | none => if (d.tcore r).running && d.headGanged r then (d, .st .busy) else (d.tcAbort r, .st .ok)

def cTcoreSeed : CmdSpec := tcSpec 0x0807 (lenIs 8) false (rsvd 3 1)
def Dev.tcoreSeed (d : Dev) (h : Hdr) (pl : List Byte) : Dev × Ans :=
  let rs := maskBits 16 (leAt pl 0 2)
  if rs.any (fun r => ! d.owns h.part r) || 2 ≤ byteAt pl 2 then (d, .st .denied)
  else if rs.any d.tcoreBad then (d, .st .fenced)
  else if rs.any (fun r => (d.tcore r).running) then (d, .st .busy)
  else
    (d.forEach rs (fun d r =>
      ((d.setFlag (TCR_CTL r) 3 (byteAt pl 2 == 1)).setR (TCR_SEED r) (leAt pl 4 4)).tcSeed r (byteAt pl 2 == 1)), .st .ok)

end Sys2Proof.Machine
end

