-- ==== Sys2Proof/Machine/Clear.lean ====
section
/-! DEFINITION. Clearing a partition (R474, R565, R607): core stores, Commons, T-core buffers, axon ranges, profiles, rules,
queues and what else a tenant leaves behind. -/

namespace Sys2Proof.Machine

/-- The core at physical site `q` is cleared (R474): its store zero, no profile, rule, fire log or poison entry, nothing active;
NEU_CFG.NCOUNT, the page map and the other configuration registers keep their values, and so do the counters. -/
def Dev.clearCore (d : Dev) (q : Nat) : Dev :=
  let d := d.zeroMem (csBase q) (csBase q + 0x400000)
  let d := d.setCore q { NCore.reset with gen := (d.core q).gen, uncSec := (d.core q).uncSec, uncCnt := (d.core q).uncCnt }
  let d := (d.setF (NEU_ACTIVE q) 0 16 0).emptyFireLog q
  let d := d.forEach (upTo 64) (fun d k => d.setR (SYN_POISON q k) 0)
  let d := (d.setR (SYN_POISONCNT q) 0).emptyNear q
  let d := ((d.setR (NEU_PROFVALID_LO q) 0).setR (NEU_PROFVALID_HI q) 0).setR (HRV_RULEVALID q) 0
  let d := ((d.setF (ALM_NPTR q) 0 16 0).setFlag (ALM_NSTAT q) 0 false).setF (SYN_STAT q) 0 2 0
  d.setF (HRV_STAT q) 0 4 0

/-- The services of region `r` are cleared: Commons, T-core buffer, far window, readout, channels and queues; every message held is
acknowledged with REFUSED (R407, R411). -/
def Dev.clearServices (d : Dev) (r : Nat) : Dev :=
  let d := (d.stopRegion r).zeroMem (cmnBase r) (cmnBase r + 0x400000)
  let d := d.zeroMem (tcBase r) (tcBase r + 0x200000)
  let d := d.setFarWindow r (d.fld (ALM_FCFG r) 0 4) (d.fld (ALM_FCFG r) 4 4)
  let d := d.setRegion r { d.region r with held := [], clearing := none, frSat := [], plCycle := 0, plIn := [], portA := [], portT := 0 }
  let d := d.forEach (upTo 8) (fun d q => d.combEmpty r q)
  let d := d.forEach (upTo 32) (fun d c => d.chanReset r c)
  d.setFlag (AXN_RSTAT r) 0 false

/-- Region `r` is cleared with the stores its logical cores map to. -/
def Dev.clearRegion (d : Dev) (r : Nat) : Dev := (d.forEach ((d.coresOf r).map Prod.snd) Dev.clearCore).clearServices r

/-- The axon-table range of partition `p` on each die is filled with zero (R474). -/
def Dev.clearAxons (d : Dev) (p : Nat) : Dev :=
  d.forEach (upTo 2) (fun d k =>
    if d.flag (AXN_PBASE k p) 31 then
      d.zeroMem (axBase k + 8 * d.fld (AXN_PBASE k p) 0 22) (axBase k + 8 * (d.fld (AXN_PLIMIT k p) 0 22 + 1))
    else d)

/-- What the Tabor and the routers hold for partition `p` is emptied, and its counts are discarded (R474, R607). -/
def Dev.clearTabor (d : Dev) (p : Nat) : Dev :=
  let x := d.part p
  let d := d.setPart p { (default : Part) with ckpt := x.ckpt, held := x.held, round := x.round }
  let ks := ((d.points p).map (fun a => (upTo 8).map (fun b => 8 * a + b))).flatten
  let d := { d with sent := SMap.keep (fun k => ! ks.contains k) 0 d.sent, filed := SMap.keep (fun k => ! ks.contains k) 0 d.filed,
                    packs := d.packs.filter (fun x => x.part != p), net := d.net.filter (fun e => e.part != p),
                    tunPacks := d.tunPacks.filter (fun x => x.part != p) }
  ((d.setF (TAB_BSTAT p) 16 3 0).setF (TAB_BSTAT p) 12 2 0).taborPart p

/-- Steps 2 and 3 of R474: partition `p` is cleared and left IDLE, neither Choked nor Muted by cause bit 7 (R607). -/
def Dev.clearPart (d : Dev) (p : Nat) : Dev :=
  let d := (d.forEach (d.regionsOf p) Dev.clearRegion).clearAxons p
  let d := { d with tocq := SMap.set [] d.tocq (289 + p) [] }
  let d := d.setF (TOC_PRQCOUNT 288 p) 0 7 0
  let d := ((d.setFlag (FLT_PMUTE p) 9 false).setFlag (FLT_PMUTE p) 7 false)
  (d.setFlag (FLT_PMUTE p) 8 (d.muted p)).clearTabor p

/-- The gang of a member that goes away ends, as GANG_RELEASE does (R565, R610). -/
def Dev.gangEnd (d : Dev) (p r : Nat) : Dev :=
  match d.gangOf r with
  | none => d
  | some g =>
    d.forEach (d.gangMembers p g) (fun d m => ((d.setR (TCR_GANG m) 0).setFlag (TCR_STAT m) 2 false).setVote (cliPart p) (domOf m 4) 0)

/-- The votes of partition `p` and of the S-core of region `r` on the region's domains return to NONE (R573). -/
def Dev.dropVotes (d : Dev) (p r : Nat) : Dev :=
  d.forEach (upTo 6) (fun d k => (d.setVote (cliPart p) (domOf r k) 0).setVote (cliScore r) (domOf r k) 0)

end Sys2Proof.Machine
end

