-- ==== Sys2Proof/Machine/Fence.lean ====
section
/-! DEFINITION. The remap tables and fencing (R4, R34 to R37, R55, R608 to R613). -/

namespace Sys2Proof.Machine

/-! ### Remap tables (R32 to R37) -/

/-- The value of entry `n` for a physical site of its region, or for none (R37). -/
def remapVal (n : Nat) (site : Option Nat) : Nat :=
  match site with
  | some s => 2 ^ 31 + 16 * (n / 16) + s % 16
  | none => n

/-- Entry `n` of router copy `k`: 0 to 15 the region routers, 16 and 17 the die routers. -/
def remapAt (k n : Nat) : Nat := if k < 16 then FAB_REMAP k n else FAB_DREMAP (k - 16) n

/-- Carillon's reference of entry `n` (R36, R37). -/
def Dev.remapRef (d : Dev) (n : Nat) : Nat := SMap.get 0 d.car.remap n ^^^ n

/-- Every copy of entry `n` is written (R35, R36). -/
def Dev.spreadRemap (d : Dev) (n v : Nat) : Dev := d.forEach (upTo 18) (fun d k => d.setR (remapAt k n) v)

/-- Carillon changes entry `n`: its reference and every copy (R35). -/
def Dev.setRemap (d : Dev) (n v : Nat) : Dev :=
  { d with car := { d.car with remap := SMap.set 0 d.car.remap n (v ^^^ n) } }.spreadRemap n v

/-- The sites of region `r` marked good and not fenced, in ascending order (R34). -/
def Dev.goodSites (d : Dev) (r : Nat) : List Nat :=
  (upTo 16).filter (fun s => d.siteGood (16 * r + s) && ! d.siteFenced (16 * r + s))

/-- The reserve count of region `r` in the Keep (R611). -/
def Dev.reserve (d : Dev) (r : Nat) : Nat := bitsOf (leNat (SMap.get [] d.car.keepCfg 5)) (2 * r) 2

/-- The logical cores of region `r` that R34 makes valid. -/
def Dev.validCores (d : Dev) (r : Nat) : Nat := min (d.goodSites r).length (d.usable - d.reserve r)

/-- The site R34 gives slot `s` of region `r`. -/
def Dev.mapSite (d : Dev) (r s : Nat) : Option Nat := if s < d.validCores r then (d.goodSites r)[s]? else none

/-- Carillon fills the entries of region `r` (R34). -/
def Dev.fillRemap (d : Dev) (r : Nat) : Dev :=
  (d.setR FLT_RESERVE (putBits (d.rg FLT_RESERVE) (2 * r) 2 (d.reserve r))).forEach (upTo 16)
    (fun d s => d.setRemap (16 * r + s) (remapVal (16 * r + s) (d.mapSite r s)))

/-- The spare sites of region `r` (R4). -/
def Dev.spares (d : Dev) (r : Nat) : List Nat :=
  (d.goodSites r).filter (fun s => ! (d.coresOf r).any (fun c => c.2 == 16 * r + s))

/-- FLT_FENCED shows the sites of the fence list (R609, R617). -/
def Dev.showFenced (d : Dev) : Dev :=
  d.forEach (upTo 8) (fun d w =>
    d.setR (FLT_FENCED w) (((upTo 32).map (fun b => if d.siteFenced (32 * w + b) then 2 ^ b else 0)).sum))

/-- Enter a unit in the fence list, which holds up to 256 entries (R610). -/
def Dev.fenceAdd (d : Dev) (e : Nat × Nat × Nat) : Dev :=
  if d.fenceList.contains e || 256 ≤ d.fenceList.length then d else { d with fenceList := d.fenceList ++ [e] }.showFenced

/-! ### Copying a core (R609) -/

/-- The core store of the failed site copied to the spare: a corrected word is copied corrected, an uncorrectable one
written as zero; with the number of those. -/
def Dev.copyStore (d : Dev) (a b : Nat) : Dev × Nat :=
  let lo := csBase a
  let hi := lo + 0x300000
  let bad := (SMap.keep (fun a => lo ≤ a && a < hi) 0 d.ecc).filter (fun e => 2 ≤ e.2)
  let m := SMap.clear d.mem (csBase b) (csBase b + 0x300000)
  let src := SMap.keep (fun a => lo ≤ a && a < hi && ! bad.any (fun e => e.1 == 8 * (a / 8))) 0 d.mem
  ({ d with mem := src.foldl (fun (m : Memory) (c : Host.Cell) => m.write (csBase b + (c.1 - lo)) c.2) m
            ecc := SMap.clear d.ecc (csBase b) (csBase b + 0x300000) }, bad.length)

/-- The counters and event bits of an N-core's registers, which start at zero on the spare. -/
def coreCounters (q : Nat) : List Nat :=
  [NEU_STAT q, NEU_UPD_LO q, NEU_UPD_HI q, NEU_FIRE_LO q, NEU_FIRE_HI q, NEU_FLSTALL q, NEU_SATCNT q, NEU_PROFERRCNT q, NEU_LASTINT q,
   SYN_STAT q, SYN_OPS_LO q, SYN_OPS_HI q, SYN_FARBURST_LO q, SYN_FARBURST_HI q, SYN_RINGSAT q, SYN_DLYCLAMP q, SYN_TGTDROP q,
   SYN_ROWERR q, SYN_ROWINVAL q, SYN_POISONSKIP q, SYN_ECCCORR q, SYN_ECCUNC q, SYN_FARTIMEOUT q, SYN_RINGDISCARD q, SYN_BANKSTALL q,
   SYN_LASTDEL q, ALM_NSTAT q, ALM_NFILED_LO q, ALM_NFILED_HI q, ALM_NSPILL q, ALM_NLATE q, ALM_NLATEDLV q,
   HRV_STAT q, HRV_PSYN_LO q, HRV_PSYN_HI q, HRV_DSYN_LO q, HRV_DSYN_HI q, HRV_HSYN_LO q, HRV_HSYN_HI q, HRV_HSKIP q, HRV_OVRCNT q,
   HRV_ESAT q, HRV_WCLAMP q, HRV_DLYCHG q, HRV_REVERR q, HRV_RULEERR q]

/-- The engine state and the core Tocsin's configuration copied to the spare (R609). -/
def Dev.copyEngines (d : Dev) (a b : Nat) : Dev :=
  let lo := nBase a
  let src := SMap.keep (fun a => lo ≤ a && a < lo + 0x4000) 0 d.regs
  let d := d.resetRegs (nBase b) (nBase b + 0x10000)
  let d := { d with regs := src.foldl (fun (m : SMap Nat) (c : Nat × Nat) => SMap.set 0 m (nBase b + (c.1 - lo)) c.2) d.regs }
  let d := d.forEach (coreCounters b) (fun d r => d.setR r 0)
  let d := ((d.setR (TOC_CTL b) (d.rg (TOC_CTL a))).setR (TOC_ENABLE b) (d.rg (TOC_ENABLE a))).setR (TOC_MASK b) (d.rg (TOC_MASK a))
  let d := d.forEach (upTo 32) (fun d s => d.setR (TOC_SRC b s) (putBits (d.rg (TOC_SRC a s)) 16 8 0))
  let d := { d with tocq := SMap.set [] d.tocq b [], tocWake := SMap.set 0 (SMap.set 0 d.tocWake b 0) (512 + b) 0 }
  d.setCore b { d.core a with uncSec := 0, uncCnt := 0, hang := 0, scrub := 0 }

/-- A failed site is held in reset (R609). -/
def Dev.holdReset (d : Dev) (q : Nat) : Dev :=
  { (d.resetRegs (nBase q) (nBase q + 0x10000)).setCore q NCore.reset with
    tocq := SMap.set [] d.tocq q [], tocWake := SMap.set 0 (SMap.set 0 d.tocWake q 0) (512 + q) 0 }

/-- Far-window entries of the failed site go to the spare. -/
def Dev.moveFar (d : Dev) (r a b : Nat) : Dev :=
  let g := d.region r
  d.setRegion r { g with far := g.far.map (fun (x : Nat × FarList) =>
    (x.1, { x.2 with ents := x.2.ents.map (fun e => if e.core = a then { e with core := b } else e) })) }

/-! ### The fence (R609, R612) -/

/-- The core's partition still runs. -/
def Dev.fenceRuns (d : Dev) (f : Fence) : Bool :=
  match d.logPart f.core with
  | some p => d.running p
  | none => false

/-- The remap entry of logical core `n` may be changed: the partition that owns its region is Muffled or Choked, or there is none
(R35, R609). -/
def Dev.entryFree (d : Dev) (n : Nat) : Bool :=
  match d.logPart n with
  | some p => d.bstate p == 3 || d.bstate p == 4
  | none => true

/-- Carillon takes up the fence of logical core `n`: the lowest spare is chosen, and the Muffle of its partition requested. -/
def Dev.fenceBegin (d : Dev) (n : Nat) (noResume : Bool) : Dev :=
  match d.physOf n with
  | none => d
  | some q =>
    let r := n / 16
    let f : Fence := { core := n, failed := q, spare := ((d.spares r).head?).map (16 * r + ·), noResume := noResume, committed := false,
                       zeroed := 0, waitBeats := 0 }
    let run := d.fenceRuns f
    let d := { d with fence := some f }.setFlag FLT_STAT 3 true
    match d.logPart n with
    | some p => if run then d.requestMuffle p else d
    | none => d

/-- The fence ends with a status; a FENCE command that asked for it is answered. -/
def Dev.fenceEnd (d : Dev) (f : Fence) (st : Status) : Dev :=
  let d := { d with fence := none, failedQ := d.failedQ.filter (fun x => x.1 != f.core) }.setFlag FLT_STAT 3 false
  let site := (f.spare.getD f.failed) % 16
  d.endWaiting (fun w => w.what == .fence f.core) (fun _ =>
    (st, if st = .noResource then [] else leBytes 4 f.zeroed ++ leBytes 2 site ++ zeros 2))

/-- Step 5 and step 6: every copy of the entry is rewritten, the failed site held in reset and listed, the partition
resumed. -/
def Dev.fenceCommit (d : Dev) (f : Fence) (q : Nat) : Dev :=
  let n := f.core
  let d := d.setRemap n (remapVal n (some q))
  let d := (d.holdReset f.failed).fenceAdd (0, f.failed / 16, f.failed % 16)
  let p := d.logPart n
  let choked := p.any d.choked
  let d := match p with
    | some p => if ! choked && ! f.noResume && d.bstate p == 3 then d.resume p else d
    | none => d
  (d.bump FLT_FENCECNT 1).fenceEnd f (if choked then .incomplete else .ok)

/-- Carillon goes on with fencing: it takes up the next failed core, or, once the partition no longer runs, copies the core and
marks the record COMMITTED, then commits it.  While the partition is IDLE the entry may not be changed, and the fence waits (R35;
log entry 168). -/
def Dev.fencing (d : Dev) : Dev :=
  match d.fence with
  | none =>
    match d.failedQ with
    | [] => d
    | x :: rest => if (d.physOf x.1).isSome then d.fenceBegin x.1 x.2 else { d with failedQ := rest }
  | some f =>
    if d.fenceRuns f then
      match d.logPart f.core with
      | some p => d.requestMuffle p
      | none => d
    else match f.spare with
      | none => d.fenceEnd f .noResource
      | some q =>
        if ! d.entryFree f.core then d
        else if f.committed then d.fenceCommit f q
        else
          let c := d.copyStore f.failed q
          let d := (c.1.copyEngines f.failed q).moveFar (f.core / 16) f.failed q
          { d with fence := some { f with committed := true, zeroed := c.2 } }

/-- The Muffle of a fence has not taken effect after FENCEWAIT beats: the partition is Choked (R55, R609). -/
def Dev.fenceWait (d : Dev) : Dev :=
  match d.fence with
  | none => d
  | some f =>
    match d.logPart f.core with
    | none => d
    | some p => if d.running p && d.fld FLT_CFG 8 8 ≤ f.waitBeats then d.choke p fCoreFail else d

/-- A fence that a Carillon restart interrupted goes on from its record (R612): the copies of its entry are rewritten; an
uncommitted fence repeats its copy. -/
def Dev.fenceRestart (d : Dev) : Dev :=
  match d.fence with
  | none => d
  | some f =>
    match f.spare with
    | none => d
    | some q => d.spreadRemap f.core (remapVal f.core (some (if f.committed then q else f.failed)))

/-- The fence record at a Calends after power loss or Ember (R612). -/
def Dev.fenceCalends (d : Dev) : Dev :=
  match d.fence with
  | none => d
  | some f =>
    let d' := { d with fence := none, failedQ := [] }
    if f.committed then { d' with fenceList := if d.fenceList.length < 256 then d.fenceList ++ [(0, f.failed / 16, f.failed % 16)]
                                                 else d.fenceList } else d'

/-- What Carillon compares entry `n` with (R36, R612): its reference, or while a fence record names the core the old entry until
COMMITTED and the new one after. -/
def Dev.remapWant (d : Dev) (n : Nat) : Nat :=
  match d.fence with
  | some f => if f.core = n then remapVal n (if f.committed then f.spare else some f.failed) else d.remapRef n
  | none => d.remapRef n

/-- Carillon compares the copies of the remap table with its reference (R36): a copy that differs is rewritten, and a fault record
raised for it. -/
def Dev.remapCompare (d : Dev) : Dev :=
  d.forEach (upTo 256) (fun d n =>
    let want := d.remapWant n
    d.forEach ((upTo 18).filter (fun k => d.rg (remapAt k n) != want))
      (fun d k => (d.setR (remapAt k n) want).fault fRemap [] (if k < 16 then srcRegion k else srcDie (k - 16))))

/-- HANG_DETECT (R608): a core that alone has kept its region from FINAL for HANGBEATS beats has failed. -/
def Dev.hangDetect (d : Dev) (q : Nat) : Dev :=
  let c := d.core q
  if d.fld FLT_CFG 0 8 ≤ c.hang && 0 < c.hang then (d.setCore q { c with hang := 0 }).coreFailed q else d

end Sys2Proof.Machine
end

