-- ==== Sys2Proof/Machine/TunIn.lean ====
section
/-! DEFINITION. Ethernet ports, tunnel ingress and the site table's commands (R284 to R299, R304, R305). -/

namespace Sys2Proof.Machine

/-! ### Frames (R286, R287) -/

/-- Where a frame's EtherType stands: behind the addresses, or behind one 802.1Q tag. -/
def etherAt (f : List Byte) : Nat := if beNat (slice f 12 2) = 0x8100 then 16 else 12
def etherType (f : List Byte) : Nat := beNat (slice f (etherAt f) 2)
/-- What follows the EtherType. -/
def etherPay (f : List Byte) : List Byte := f.drop (etherAt f + 2)

def isZero (l : List Byte) : Bool := l.all (· == 0#8)

/-- A frame the port discards and counts (R286): outside 64 to 9,216 bytes with its FCS, double-tagged (an outer service tag 0x88A8
counts as a second tag; log entry 179), or PAUSE or priority flow control. -/
def frameBad (f : List Byte) : Bool :=
  let outer := beNat (slice f 12 2)
  let inner := beNat (slice f 16 2)
  f.length + 4 < 64 || 9216 < f.length + 4 || outer = 0x88A8 || (outer = 0x8100 && (inner = 0x8100 || inner = 0x88A8)) ||
    etherType f = 0x8808

/-- Port `w` keeps a frame to this destination (R286). -/
def Dev.keeps (d : Dev) (w : Nat) (m : List Byte) : Bool :=
  m == d.portMac w || m == List.replicate 6 0xFF#8 ||
    m == (if d.flag TUN_PTPCFG 1 then beBytes 6 0x0180C200000E else beBytes 6 0x011B19000000) ||
    (m.take 3 == beBytes 3 0x3333FF && ! isZero (d.portV6 w) && m.drop 3 == (d.portV6 w).drop 13)

/-- The frame that answers `f` on port `w` with the EtherType payload `pl`: to its sender, in its VLAN. -/
def Dev.answer (d : Dev) (w : Nat) (f pl : List Byte) : Dev :=
  d.emit (.frame w ((f.drop 6).take 6 ++ d.portMac w ++ (f.drop 12).take (etherAt f - 12) ++ beBytes 2 (etherType f) ++ pl))

/-- The ICMPv6 checksum over its pseudo-header. -/
def icmp6Sum (src dst m : List Byte) : Nat := inetSum (src ++ dst ++ beBytes 4 m.length ++ beBytes 4 58 ++ m)

/-- The answer Carillon owes to an ARP request, a Neighbour Solicitation or an echo request for a configured address of
port `w` (R287; the message formats are PRESUMED, log entry 18). -/
def Dev.answerOf (d : Dev) (w : Nat) (f : List Byte) : Option (List Byte) :=
  let p := etherPay f
  let t := etherType f
  let v4 := d.portV4 w
  let v6 := d.portV6 w
  if t = 0x0806 then
    if p.take 8 == beBytes 8 0x0001080006040001 && ! isZero v4 && (p.drop 24).take 4 == v4 then
      some (beBytes 8 0x0001080006040002 ++ d.portMac w ++ v4 ++ (p.drop 8).take 10)
    else none
  else if t = 0x0800 then
    let n := beNat (slice p 2 2)
    let m := (p.take n).drop 20
    if byteAt p 0 = 0x45 && byteAt p 9 = 1 && ! isZero v4 && (p.drop 16).take 4 == v4 && byteAt m 0 = 8 then
      let r := splice (splice m 0 (zeros 1)) 2 (zeros 2)
      let h := splice (slice p 0 10 ++ zeros 2 ++ v4 ++ slice p 12 4) 8 (leBytes 1 64)
      some (splice h 10 (beBytes 2 (inetSum h)) ++ splice r 2 (beBytes 2 (inetSum r)))
    else none
  else if t = 0x86DD then
    let n := beNat (slice p 4 2)
    let m := (p.drop 40).take n
    let src := slice p 8 16
    let hd (len : Nat) : List Byte := beBytes 4 0x60000000 ++ beBytes 2 len ++ beBytes 1 58 ++ beBytes 1 255 ++ v6 ++ src
    let fin (x : List Byte) : List Byte := hd x.length ++ splice x 2 (beBytes 2 (icmp6Sum v6 src x))
    if byteAt p 6 ≠ 58 || isZero v6 then none
    else if byteAt m 0 = 128 && slice p 24 16 == v6 then some (fin (splice (splice m 0 (leBytes 1 129)) 2 (zeros 2)))
    else if byteAt m 0 = 135 && slice m 8 16 == v6 then
      some (fin (leBytes 1 136 ++ zeros 3 ++ beBytes 4 0x60000000 ++ v6 ++ leBytes 1 2 ++ leBytes 1 1 ++ d.portMac w))
    else none
  else none

/-- A frame to the tunnel: UDP to TUN_CTL.UDPPORT. -/
def Dev.isTunnel (d : Dev) (f : List Byte) : Bool :=
  let p := etherPay f
  let port := d.fld TUN_CTL 16 16
  d.flag TUN_CTL 0 &&
    ((etherType f = 0x0800 && byteAt p 9 = 17 && beNat (slice p (4 * (byteAt p 0 % 16) + 2) 2) = port) ||
      (etherType f = 0x86DD && byteAt p 6 = 17 && beNat (slice p 42 2) = port))

/-- An Ethernet frame, without its FCS, arrives on W port `w` (R286, R287). -/
def Dev.ethernetFrame (d : Dev) (w : Nat) (f : List Byte) (fcs : Bool) : Dev :=
  if ! d.ethUp w then d
  else if ! fcs then d.bump (TUN_FCSERR w) 1
  else if frameBad f then d.bump (TUN_RXDISC w) 1
  else if ! d.keeps w (f.take 6) || etherType f = 0x88F7 || d.isTunnel f then d
  else match d.answerOf w f with
    | some pl =>
      let sec := d.time / 400000000
      let c := if d.car.pingSec = sec then d.car else { d.car with pings := [], pingSec := sec }
      let k := SMap.get 0 c.pings w
      if k < 1000 then { d with car := { c with pings := SMap.set 0 c.pings w (k + 1) } }.answer w f pl
      else { d with car := c }
    | none => d.bump TUN_NONTUN 1

/-! ### Tunnel datagrams (R289 to R299) -/

/-- A tunnel datagram taken apart: source address, UDP payload; or why it is discarded: false a fragment, true a header
error. -/
def Dev.unwrap (d : Dev) (w : Nat) (f : List Byte) : Except Bool (List Byte × List Byte) :=
  let p := etherPay f
  let port := d.fld TUN_CTL 16 16
  let udpOk (src dst u : List Byte) (v6 : Bool) : Bool :=
    let len := beNat (slice u 4 2)
    let pseudo := src ++ dst ++ (if v6 then beBytes 4 len ++ beBytes 4 17 else beBytes 2 17 ++ beBytes 2 len)
    8 ≤ len && len ≤ u.length && beNat (slice u 2 2) = port &&
      ((! v6 && beNat (slice u 6 2) = 0) || inetSum (pseudo ++ u.take len) = 0)
  let body (u : List Byte) : List Byte := (u.take (beNat (slice u 4 2))).drop 8
  if etherType f = 0x0800 then
    let hl := 4 * (byteAt p 0 % 16)
    let tot := beNat (slice p 2 2)
    let src := slice p 12 4
    let dst := slice p 16 4
    let u := (p.take tot).drop hl
    if beNat (slice p 6 2) % 0x4000 ≠ 0 then .error false
    else if byteAt p 0 / 16 ≠ 4 || hl < 20 || p.length < tot || tot < hl || inetSum (p.take hl) ≠ 0 || byteAt p 9 ≠ 17 ||
        isZero (d.portV4 w) || dst ≠ d.portV4 w || ! udpOk src dst u false then .error true
    else .ok (zeros 12 ++ src, body u)
  else if etherType f = 0x86DD then
    let src := slice p 8 16
    let dst := slice p 24 16
    let u := (p.drop 40).take (beNat (slice p 4 2))
    if byteAt p 6 = 44 then .error false
    else if byteAt p 0 / 16 ≠ 6 || byteAt p 6 ≠ 17 || isZero (d.portV6 w) || dst ≠ d.portV6 w || ! udpOk src dst u true then
      .error true
    else .ok (src, body u)
  else .error true

/-- The tunnel header and its records are whole (R290). -/
def tunnelOk (u : List Byte) : Bool :=
  let n := beNat (slice u 14 2)
  byteAt u 0 = 0x10 && byteAt u 1 = 0 && byteAt u 2 / 16 = 0 && 1 ≤ n && n ≤ 1024 && u.length == 16 + 8 * n &&
    (upTo n).all (fun k => beNat (slice u (16 + 8 * k) 8) % 2 ^ 33 == 0)

/-- The sequence check of a site (R295): none for a duplicate; the entry with its new SEQRX and RXMAP, and how many numbers
left the window unmarked. -/
def seqCheck (e : List Byte) (seq : Nat) : Option (List Byte × Nat) :=
  let rx := leAt e 52 4
  let map := leAt e 56 8
  let k := (seq + 2 ^ 32 - rx) % 2 ^ 32
  if k = 0 || 2 ^ 31 ≤ k then
    let j := (2 ^ 32 - k) % 2 ^ 32
    if 63 < j || bitAt map j then none else some (splice e 56 (leBytes 8 (map + 2 ^ j)), 0)
  else
    let gone := min k 64
    let un := ((upTo gone).filter (fun i => ! bitAt map (63 - i))).length + (k - gone)
    some (splice (splice e 52 (leBytes 4 seq)) 56 (leBytes 8 ((map * 2 ^ gone + 1) % 2 ^ 64)), un)

/-- One copy that a presented record produces, emitted remotely in beat `e`, in the local beat `n` (R199, R298). -/
def Dev.ingressCopy (d : Dev) (p n e : Nat) (lateNext : Bool) (g : Nat) (c : Copy) : Dev :=
  let pt := 288 + p
  match c with
  | .tunnel _ _ _ => d
  | .output stream user =>
    let v := d.fresh 24
    (v.2.addSent pt n 1).pushOut p (.spike (spikeRec stream g (v.1 % 256) (v.1 / 256) n user) (n % 65536) (32 + p))
  | .event dev ev =>
    let d := d.addSent pt n 1
    let ev := { ev with ebeat := n % 65536 }
    if ev.tkind = 2 then d.packEvent 1 dev ev
    else
      let l := beatSub e n + (ev.delay : Int)
      if 0 ≤ l then d.packEvent 1 dev { ev with delay := l.toNat }
      else
        let d := (d.bump TUN_LATE 1).setFlag TUN_STAT 2 true
        if lateNext then (d.bump TUN_LATEDLV 1).packEvent 1 dev { ev with delay := 0 } else d.file p pt n

/-- Present the records of a datagram of site `s` (R199, R298). -/
def Dev.presentRecs (d : Dev) (s e : Nat) (recs : List Nat) : Dev :=
  let ent := d.site s
  let p := sitePart ent
  let n := d.beat p
  let d := d.bump64 TUN_RXEV_LO recs.length
  d.forEach recs (fun d w =>
    let g := bitsOf w 33 8
    let r := d.lookup (bitsOf w 63 1) p g (bitsOf w 41 22)
    r.1.forEach r.2 (fun d c => d.ingressCopy p n e (bitAt (byteAt ent 0) 5) g c))

/-- A tunnel datagram reaches ingress on W port `w` (R289, R290, R295 to R298); no frame does that the port does not keep (R286). -/
def Dev.tunnelDatagram (d : Dev) (w : Nat) (f : List Byte) : Dev :=
  if ! d.ethUp w || ! d.flag TUN_CTL 0 || frameBad f || ! d.keeps w (f.take 6) then d
  else match d.unwrap w f with
    | .error false => d.bump TUN_FRAG 1
    | .error true => (d.bump TUN_HDRERR 1).setFlag TUN_STAT 0 true
    | .ok (src, u) =>
      if ! tunnelOk u then (d.bump TUN_HDRERR 1).setFlag TUN_STAT 0 true
      else
        let s := beNat (slice u 2 2)
        let e := beNat (slice u 4 6)
        let n := beNat (slice u 14 2)
        let recs := (upTo n).map (fun k => beNat (slice u (16 + 8 * k) 8))
        let ent := d.site s
        let p := sitePart ent
        if ! siteValid ent || slice ent 32 16 ≠ src then d.bump TUN_NOSITE n
        else match seqCheck ent (beNat (slice u 10 4)) with
          | none => d.bump TUN_DUP 1
          | some (ent', gap) =>
            let d := d.setSite s ent'
            let d := if gap = 0 then d else (d.bump TUN_SEQGAP gap).setFlag TUN_STAT 1 true
            let k := beatSub e (d.beat p)
            if d.bstate p ≠ 1 then d.bump TUN_IDLEDROP n
            else if 2 < k || (d.fld TUN_LIMITS 16 12 : Int) < -k then (d.bump TUN_OOW n).setFlag TUN_STAT 3 true
            else if 0 < k then
              if 65536 < 8 * ((d.early.map (fun x => x.recs.length)).sum + n) then d.bump TUN_EARLYDROP n
              else { d with early := d.early ++ [({ site := s, beat := e, recs := recs } : Early)] }.bump TUN_EARLY n
            else d.presentRecs s e recs

/-- The early records of partition `p` whose beat has started are presented (R297). -/
def Dev.earlyPresent (d : Dev) (p : Nat) : Dev :=
  let now (x : Early) : Bool := sitePart (d.site x.site) == p && beatSub x.beat (d.beat p) ≤ 0
  let go := d.early.filter now
  { d with early := d.early.filter (fun x => ! now x) }.forEach go (fun d x => d.presentRecs x.site x.beat x.recs)

/-- Egress sends gathered datagram `k` where its beat's lookups have ended or it is full (R293). -/
def Dev.egressSend (d : Dev) (k : Nat) : Dev :=
  match d.tunPacks[k]? with
  | some x =>
    if d.datagramMax (d.site x.site) ≤ x.recs.length || (d.dieDone 0 x.part x.beat && d.dieDone 1 x.part x.beat) then
      d.tunCoalesce k
    else d
  | none => d

/-! ### Links of Ethernet ports (R284, R294) -/

/-- The link of port `w` comes up (R284).  Where TUN_PCFG.AN is 1, `up` tells whether link training has ended too or
auto-negotiation alone, after which training runs. -/
def Dev.ethLinkUp (d : Dev) (w : Nat) (up : Bool) : Dev :=
  if ! d.flag (TUN_PCFG w) 0 then d
  else if up then d.setF (TUN_PSTAT w) 0 2 3
  else if d.fld (TUN_PSTAT w) 0 2 = 1 then d.setF (TUN_PSTAT w) 0 2 2
  else d
/-- The link of port `w` is lost; with AN, auto-negotiation begins again (R284, R294). -/
def Dev.ethLinkDown (d : Dev) (w : Nat) : Dev :=
  if d.flag (TUN_PCFG w) 0 then d.setF (TUN_PSTAT w) 0 2 (natOf (d.flag (TUN_PCFG w) 3)) else d

/-- Carillon's policy vote on the tunnel MAC (R576). -/
def Dev.tunnelVote (d : Dev) : Dev :=
  d.setVote cliPolicy domTunnel (if d.flag (TUN_PCFG 0) 0 || d.flag (TUN_PCFG 1) 0 then 2 else 0)

/-- Set the addresses of port `w` from configuration bytes: 4 bytes IPv4, 16 bytes IPv6, each little-endian (R10, R305). -/
def Dev.setAddrs (d : Dev) (w : Nat) (a : List Byte) : Dev :=
  let d := d.setR (TUN_IPV4 w) (leAt a 0 4)
  (((d.setR (TUN_IPV6_0 w) (leAt a 16 4)).setR (TUN_IPV6_1 w) (leAt a 12 4)).setR (TUN_IPV6_2 w)
    (leAt a 8 4)).setR (TUN_IPV6_3 w) (leAt a 4 4)

/-- The MAC addresses of the part record: bytes 64 to 69 are those of W+, 70 to 75 of W−, first byte first (R304, R533). -/
def Dev.loadMacs (d : Dev) : Dev :=
  d.forEach [0, 1] (fun d w =>
    let m := slice d.car.partRec (64 + 6 * w) 6
    (d.setR (TUN_MAC_HI w) (beNat (m.take 2))).setR (TUN_MAC_LO w) (beNat (m.drop 2)))

/-- Port `w` takes the mode of an ETH_PORT_CONFIG payload (R284, R285). -/
def Dev.ethMode (d : Dev) (w : Nat) (pl : List Byte) : Dev :=
  let q := 6 + w
  let an := byteAt pl 3
  if byteAt pl 1 = 1 then
    let d := (d.setR (TUN_PCFG w) (1 + 8 * an + 16 * byteAt pl 2)).setF (TUN_PSTAT w) 0 2 an
    let d := ((d.setFlag (FAB_DCFG 0) 23 false).setFlag (FAB_DCFG 1) 23 false).linkGone q
    (((d.setPort q 4).setAddrs w (pl.drop 4)).portVote q).tunnelVote
  else
    let d := (d.setR (TUN_PCFG w) 0).setF (TUN_PSTAT w) 0 2 0
    let d := if d.portState q = 4 then (d.setPort q (if d.flag (portCtl q) 0 then 1 else 0)).linkGone q else d
    (d.portVote q).tunnelVote

/-! ### Commands (R305) -/

def cEthPortConfig : CmdSpec := fabSpec 0x0601 (lenIs 32) false (rsvd 24 8)

def Dev.ethPortConfig (d : Dev) (_h : Hdr) (pl : List Byte) : Dev × Ans :=
  let w := byteAt pl 0
  if 2 ≤ w || 2 ≤ byteAt pl 1 || 6 ≤ byteAt pl 2 || 2 ≤ byteAt pl 3 || d.fld TAB_TLCTL 0 3 = 3 + w then (d, .st .denied)
  else if ! d.flag (TUN_PCFG w) 0 && byteAt pl 1 = 1 && d.portState (6 + w) ≠ 0 && d.portState (6 + w) ≠ 3 then (d, .st .busy)
  else
    let d := d.ethMode w pl
    ({ d with car := { d.car with keepCfg := SMap.set [] d.car.keepCfg (3 + w) pl } }, .st .ok)

def cSiteSet : CmdSpec := fabSpec 0x0602 (lenIs 72) false (rsvd 2 6)

/-- The reserved and state fields of a site entry are zero (R291, R292). -/
def siteClean (e : List Byte) : Bool :=
  byteAt e 0 < 64 && byteAt e 1 < 16 && leAt e 2 2 < 4096 && byteAt e 8 < 64 && isZero (slice e 9 3) && isZero (slice e 24 8) &&
    isZero (slice e 48 16) && (siteV6 e || isZero (slice e 32 12))

def Dev.siteSet (d : Dev) (_h : Hdr) (pl : List Byte) : Dev × Ans :=
  let s := leAt pl 0 2
  let e := slice pl 8 64
  let p := sitePart e
  let old := d.site (s % 4096)
  if 4096 ≤ s || ! siteClean e || (d.regionsOf p).isEmpty || ! d.flag (TAB_BCTL p) 4 || ! d.flag (TUN_PCFG (sitePort e)) 0 then
    (d, .st .denied)
  else if siteValid old && ! d.still (sitePart old) then (d, .st .busy)
  else (d.setSite s e, .st .ok)

def cSiteRead : CmdSpec := { fabSpec 0x0603 (lenIs 8) true (rsvd 2 6) with issuer := .any }

def Dev.siteRead (d : Dev) (h : Hdr) (pl : List Byte) : Dev × Ans :=
  let s := leAt pl 0 2
  let e := d.site s
  if 4096 ≤ s || (h.func ≠ 0 && ! (siteValid e && sitePart e = h.func)) then (d, .st .denied) else (d, .done .ok 0 e)

def cTunStatus : CmdSpec := fabSpec 0x0604 (lenIs 0) true []
def Dev.tunStatus (d : Dev) (_h : Hdr) (_pl : List Byte) : Dev × Ans := (d, .done .ok 0 (d.regBytes TUN_CTL 36))

def cPtpConfig : CmdSpec := fabSpec 0x0605 (lenIs 8) false []

/-- TUN_PTPCFG and TUN_PTPASYM from a PTP_CONFIG payload. -/
def Dev.ptpMode (d : Dev) (pl : List Byte) : Dev :=
  (d.setR TUN_PTPCFG (65536 * byteAt pl 0 + 256 * byteAt pl 1 + 2 * (byteAt pl 2 % 2))).setR (TUN_PTPASYM (byteAt pl 3)) (leAt pl 4 4)

def Dev.ptpConfig (d : Dev) (_h : Hdr) (pl : List Byte) : Dev × Ans :=
  let w := byteAt pl 3
  if byteAt pl 0 < 24 || 43 < byteAt pl 0 || 2 ≤ byteAt pl 2 || 2 ≤ w || ! d.flag (TUN_PCFG w) 0 then (d, .st .denied)
  else
    let d := d.ptpMode pl
    ({ d with car := { d.car with keepCfg := SMap.set [] d.car.keepCfg 2 pl } }, .st .ok)

def cPtpStatus : CmdSpec := { fabSpec 0x0606 (lenIs 0) true [] with issuer := .any }
def Dev.ptpStatus (d : Dev) (h : Hdr) (_pl : List Byte) : Dev × Ans :=
  (d, .done .ok 0 (if h.func = 0 then d.regBytes TUN_PTPCFG 6 else zeros 24))

end Sys2Proof.Machine
end

