-- ==== Sys2Proof/Machine/Ptp.lean ====
section
/-! DEFINITION. The PTP slave clock (R300 to R302).  The message formats and the comparison of masters are those of IEEE
1588-2019 and ITU-T G.8275.1, which the spec names (log entry 19). -/

namespace Sys2Proof.Machine

/-- The Ethernet port PTP runs on, none unless TAB_TLCTL.SRC selects it. -/
def Dev.ptpPort (d : Dev) : Option Nat :=
  let s := d.timeSrc
  if s = 3 || s = 4 then some (s - 3) else none

/-- A timestamp field of 10 bytes (seconds, nanoseconds) with a correction field in 2^-16 ns, in ps. -/
def ptpTime (l : List Byte) (corr : Int) : Int :=
  (beNat (slice l 0 6) * 1000000000000 + beNat (slice l 6 4) * 1000 : Nat) + shrI (corr * 1000) 16

/-- The fixed latency of port `w` in the part record, ps (R301, R533). -/
def Dev.ptpLat (d : Dev) (w : Nat) (egress : Bool) : Int := (leAt d.car.partRec (144 + 8 * w + 4 * natOf egress) 4 : Nat)

/-- A local timestamp in 1/16 ticks of 156.25 ps, in ps, without the fixed latency (an arrival stood at the port that much earlier, a
departure that much later) and the asymmetry of the port (R301). -/
def Dev.localTime (d : Dev) (w ts : Nat) (egress : Bool) : Int :=
  (ts : Int) * 625 / 4 + (if egress then d.ptpLat w true else -(d.ptpLat w false)) - sInt 32 (d.rg (TUN_PTPASYM w))

def Dev.setPtpState (d : Dev) (s : Nat) : Dev := d.setF TUN_PTPSTAT 0 2 s

/-- The frequency correction follows the master's Syncs, `dm` ps apart there and `dl` ps here: at once in ACQUIRING (R302),
by at most 0.01 ppm per second while LOCKED (R85), and not at all in HOLDOVER (R86). -/
def Dev.ptpRate (d : Dev) (dm dl : Int) : Dev :=
  if dl ≤ 0 then d
  else
    let old := sInt 32 (d.rg TAB_FREQCORR)
    let by' := (dm - dl) * 1000000000 / dl
    if d.tlState = 1 then d.setR TAB_FREQCORR (uOf 32 (clampI (-50000) 50000 (old + by')))
    else if d.tlState = 2 then
      let room := min 100000000000 (d.ptp.base + dl)
      let step := if room < 100000000000 then 0 else clampI (-1) 1 by'
      { d.setR TAB_FREQCORR (uOf 32 (clampI (-50000) 50000 (old + step))) with
        ptp := { d.ptp with base := if step = 0 then room else 0 } }
    else d

/-- A Sync's origin `t1` and receipt `t2` drive the clock (R302): once LOCKED, and on the way back from HOLDOVER, the offset is taken
out by slewing. -/
def Dev.ptpSync (d : Dev) (t1 t2 : Int) : Dev :=
  let x := d.ptp
  let off := t2 - t1 - sInt 32 (d.rg TUN_PTPMPD)
  let d := (d.setR TUN_PTPOFFS (uOf 32 (satS 32 off))).setR TAB_PHERR (uOf 32 (satS 32 off))
  let d := match x.last with
    | some (a, b) => d.ptpRate (t1 - a) (t2 - b)
    | none => d
  let d := { d with ptp := { d.ptp with last := some (t1, t2), off := off } }
  if d.tlState = 1 then
    let near := 0 < x.good && -50000 ≤ off - x.base && off - x.base ≤ 50000
    let k := if near then x.good + 1 else 1
    let d := { d with ptp := { d.ptp with good := k, base := if near then x.base else off } }
    if 64 < k then
      let d := d.set64 TAB_TIME_LO (uOf 64 ((d.time : Int) - rndAway off 2500))
      let d := { d with ptp := { d.ptp with good := 0, last := none, off := 0, base := 0 }, slew := 0 }
      ((d.setFlag TAB_TLSTAT 8 true).setPtpState 2).setTlState 2
    else d
  else if d.tlState = 2 then { d with slew := -(rndAway off 2500) }
  else if d.tlState = 3 then
    let k := if -1000000 ≤ off && off ≤ 1000000 then x.good + 1 else 0
    let d := { d with ptp := { d.ptp with good := k } }
    if 64 ≤ k then ({ d with ptp := { d.ptp with good := 0 }, slew := -(rndAway off 2500) }.setPtpState 2).setTlState 2 else d
  else d

/-- The data set of an Announce that masters are compared by: clock class, accuracy, variance, priority 2, local priority, then the
identity, which a clock class of at most 127 leaves out, and steps removed. -/
def Dev.announceRank (d : Dev) (m : List Byte) : List Byte :=
  slice m 48 5 ++ leBytes 1 (d.fld TUN_PTPCFG 8 8) ++ (if byteAt m 48 ≤ 127 then zeros 8 else slice m 53 8) ++ slice m 61 2

/-- The port identity of W port `w`. -/
def Dev.ptpId (d : Dev) (w : Nat) : List Byte :=
  let mac := d.portMac w
  mac.take 3 ++ [0xFF#8, 0xFE#8] ++ mac.drop 3 ++ beBytes 2 (w + 1)

/-- Byte lists compared in order. -/
def bytesLt : List Byte → List Byte → Bool
  | [], _ => false
  | _, [] => false
  | a :: r, b :: s => if a.toNat < b.toNat then true else if b.toNat < a.toNat then false else bytesLt r s

/-- A PTP message `m` (from its common header on) arrives on port `w`, `dt` ticks of the corrected frequency after the last event,
timestamped `ts` in 1/16 ticks (R85, R300 to R302). -/
def Dev.ptpMessage (d : Dev) (dt w : Nat) (m : List Byte) (ts : Nat) : Dev :=
  let d := d.slewPass dt
  if d.ptpPort ≠ some w || byteAt m 4 ≠ d.fld TUN_PTPCFG 16 8 || m.length < 34 then d
  else
    let x := d.ptp
    let type := byteAt m 0 % 16
    let src := slice m 20 10
    let seq := beNat (slice m 30 2)
    let corr := sInt 64 (beNat (slice m 8 8))
    if type = 0xB then
      let rank := d.announceRank m
      if x.master.isEmpty || (src ≠ x.master && bytesLt rank x.quality) || src = x.master then
        let d := { d with ptp := { x with master := src, quality := rank } }
        let d := (d.setR TUN_PTPGM_HI (beNat (slice m 53 4))).setR TUN_PTPGM_LO (beNat (slice m 57 4))
        if d.fld TUN_PTPSTAT 0 2 = 0 then d.setPtpState 1 else d
      else d
    else if src ≠ x.master then d
    else if type = 0 then
      let t2 := d.localTime w ts false
      if bitAt (byteAt m 6) 1 then { d with ptp := { x with sync := some (seq, t2 - shrI (corr * 1000) 16) } }
      else d.ptpSync (ptpTime (slice m 34 10) corr) t2
    else if type = 8 then
      match x.sync with
      | some (s, t2) =>
        if s = seq then { d with ptp := { x with sync := none } }.ptpSync (ptpTime (slice m 34 10) corr) t2 else d
      | none => d
    else if type = 9 then
      match x.delay, x.last with
      | some (s, t3), some (t1, t2) =>
        if s = seq && slice m 44 10 == d.ptpId w then
          let t4 := ptpTime (slice m 34 10) (-corr)
          { d with ptp := { x with delay := none } }.setR TUN_PTPMPD (uOf 32 (satS 32 (((t2 - t1) + (t4 - t3)) / 2)))
        else d
      | _, _ => d
    else d

/-- Announce times out, or no Sync arrives for 1 s (R302). -/
def Dev.ptpTimeout (d : Dev) : Dev :=
  if d.ptpPort.isNone then d
  else if d.tlState = 2 then
    ({ d with ptp := { d.ptp with good := 0, last := none, sync := none, master := [], quality := [] } }.setPtpState 3).holdover
  else { d with ptp := { d.ptp with good := 0, last := none, sync := none, master := [], quality := [] } }.setPtpState
    (if d.tlState = 3 then 3 else 0)

/-- The slave clock sends Delay_Req (R300); it leaves at `ts`, in 1/16 ticks. -/
def Dev.ptpDelayReq (d : Dev) (ts : Nat) : Dev :=
  match d.ptpPort with
  | none => d
  | some w =>
    let x := d.ptp
    if x.master.isEmpty || ! d.ethUp w then d
    else
      let dst := if d.flag TUN_PTPCFG 1 then beBytes 6 0x0180C200000E else beBytes 6 0x011B19000000
      let mac := d.portMac w
      let m := beBytes 1 1 ++ beBytes 1 0x12 ++ beBytes 2 44 ++ beBytes 1 (d.fld TUN_PTPCFG 16 8) ++ zeros 15 ++ d.ptpId w ++
        beBytes 2 x.seq ++ beBytes 1 1 ++ beBytes 1 0x7F ++ zeros 10
      { d with ptp := { x with seq := (x.seq + 1) % 65536, delay := some (x.seq, d.localTime w ts true) } }.emit
        (.frame w (dst ++ mac ++ beBytes 2 0x88F7 ++ m))

end Sys2Proof.Machine
end

