-- ==== Sys2Proof/Machine/Calends.lean ====
section
/-! DEFINITION. Calends: power-up to a running fabric (R552 to R570), with the boot ROM's choice of image (R534, R535, R539,
R541, R543). -/

namespace Sys2Proof.Machine

/-! ### What power loss leaves (R597, R567, R585, R648) -/

/-- Everything volatile goes (R567, R585, R590, R648): the Keep, the flash and what has left the block stay; with `aon` the
RTC and its alarm stay too, and with `sram` the retained SRAM.  A commit whose RTC is lost is marked by 2^48, and is counted from
the end of Calends (R349). -/
def Dev.lose (d : Dev) (aon sram : Bool) : Dev :=
  let c := d.car
  let keep := SMap.keep (fun a => [PWR_RTC_LO, PWR_RTC_HI, PWR_ALARM_LO, PWR_ALARM_HI].contains a) 0 d.regs
  { (default : Dev) with
    regs := if aon then keep else []
    rtcFrac := if aon then d.rtcFrac else 0
    car := { (default : Carillon) with journal := c.journal, jPages := c.jPages, active := c.active, trial := c.trial,
                                       imgA := c.imgA, imgB := c.imgB, partRec := c.partRec, keepCfg := c.keepCfg }
    parts := (upTo 16).foldl (fun m p => SMap.set default m p { (default : Part) with ckpt := { (d.part p).ckpt with
      copy := none, image := [], toHost := false, toKeep := false, saved := none,
      commit := if aon then (d.part p).ckpt.commit else (d.part p).ckpt.commit.map (fun _ => 2 ^ 48) } }) []
    fence := d.fence
    failedQ := []
    fenceList := d.fenceList
    cal := { (default : Calends) with kept := d.cal.kept }
    pwr := { (default : Pwr) with asleep := d.pwr.asleep, timeIn := d.pwr.timeIn, rtcIn := d.pwr.rtcIn,
                                  sram := if sram then d.pwr.sram else [] }
    pins := { (default : Pins) with thermtrip := d.pins.thermtrip, pwrEn := d.pins.pwrEn, pwrgd := d.pins.pwrgd,
                                    vid0 := d.pins.vid0, vid1 := d.pins.vid1 }
    ddrEpoch := d.ddrEpoch
    mem := SMap.keep (fun a => a < 0x8000000000) 0 d.mem
    ecc := SMap.keep (fun a => a < 0x8000000000) 0 d.ecc
    nonce := d.nonce
    out := d.out }

/-! ### Images (R538, R539, R541) -/

/-- The image that flash slot `s` holds (0 slot A, 1 slot B). -/
def Dev.image (d : Dev) (s : Nat) : List Byte := if s = 0 then d.car.imgA else d.car.imgB
def imgFwver (x : List Byte) : Nat := leAt x 8 4
def imgSvn (x : List Byte) : Nat := leAt x 12 4
def imgLen (x : List Byte) : Nat := leAt x 16 8
def imgBody (x : List Byte) : List Byte := slice x 4864 (imgLen x)

/-- The anti-rollback counter of the boot directory. -/
def Dev.rollback (d : Dev) : Nat := leNat (SMap.get [] d.car.keepCfg 7)

/-- MAGIC, VERSION, signature and body digest of an image (R539). -/
def imageSigned (x : List Byte) : Bool :=
  leAt x 0 4 == 0x4D495746 && leAt x 4 2 == 1 && decide (imgLen x ≤ 2 ^ 24) && decide (4864 + imgLen x ≤ x.length) &&
    Config.mldsaVerify 1 (slice x 0 128) (slice x 128 4627) && Config.sha3_512 (imgBody x) == slice x 32 64

/-- An image is valid (R539). -/
def Dev.imageValid (d : Dev) (s : Nat) : Bool := imageSigned (d.image s) && decide (d.rollback ≤ imgSvn (d.image s))

/-- An UPDATE record. -/
def Dev.updateRec (d : Dev) (sev : Nat) : Dev := let o := d.openData; o.2.log 0 4 sev 0xFF o.1

/-- The boot ROM loads a slot (R539): the one named where it is valid, else the other, else recovery (R543). -/
def Dev.bootImage (d : Dev) (want : Nat) : Dev :=
  let go (d : Dev) (s : Nat) : Dev :=
    let x := d.image s
    let d := ((d.setFlag CAR_STAT 3 (s == 1)).setR CAR_FWVER (imgFwver x)).setR CAR_SVN (imgSvn x)
    let d := { d with car := { d.car with mfw := slice x 32 64 } }
    let o := d.openData
    o.2.log 0 3 0 0xFF o.1
  if d.imageValid want then go d want
  else if d.imageValid (1 - want) then (go d (1 - want)).updateRec 0
  else (d.setFlag CAR_STAT 7 true).updateRec 0

/-- A trial that a watchdog expiry, a power loss or its time ends is cleared (R541). -/
def Dev.endTrial (d : Dev) : Dev :=
  match d.car.trial with
  | none => d
  | some _ => ({ d with car := { d.car with trial := none, trialEnd := 0 } }.setFlag CAR_STAT 4 false).updateRec 3

/-! ### The part record and identity (R533 to R535) -/

def Dev.partLen (d : Dev) : Nat := leAt d.car.partRec 6 2
/-- The part record verifies under Finlor's key (R534). -/
def Dev.partOk (d : Dev) : Bool :=
  leAt d.car.partRec 0 4 == 0x44435250 &&
    Config.mldsaVerify 0 (d.car.partRec.take d.partLen) (slice d.car.partRec d.partLen 4627)

/-- The ASCII string of the seed. -/
def idString : List Byte := [0x47#8, 0x52#8, 0x45#8, 0x4E#8, 0x41#8, 0x4B#8, 0x2D#8, 0x49#8, 0x44#8]

/-- The seed of the device's key pair and its public key (identity chapter). -/
def Dev.seed (d : Dev) : List Byte := (Config.sha3_512 (Config.pufResponse d.serial ++ idString ++ leBytes 8 d.serial)).take 32
def Dev.publicKey (d : Dev) : List Byte := padTo 2592 (Config.mldsaPublicKey d.seed)

/-! ### Policy votes (R576) -/

/-- The part record marks some core of region domain `x` good (R555, R576). -/
def Dev.domGood (d : Dev) (x : Nat) : Bool :=
  let r := x / 6
  let k := x % 6
  if k < 4 then (upTo 4).any (fun j => d.siteGood (16 * r + 4 * k + j))
  else bitAt (leAt d.car.partRec (if k = 4 then 56 else 58) 2) r

/-- Carillon's policy vote on the domains of region `r`. -/
def Dev.regionPolicy (d : Dev) (r : Nat) : Dev :=
  let v := if (d.regPart r).isNone && d.flag PWR_POLICY 0 then 0 else 1
  d.forEach (upTo 6) (fun d k => d.setVote cliPolicy (domOf r k) (if d.domGood (domOf r k) then v else 0))

/-- Carillon's policy votes on the domains that are no region's. -/
def Dev.devicePolicy (d : Dev) : Dev :=
  let d := d.forEach (upTo 8) (fun d c => d.setVote cliPolicy (96 + c) 2)
  let d := d.forEach (upTo 8) Dev.portVote
  let d := d.forEach [112, 115, 116, 117, 118] (fun d x => d.setVote cliPolicy x 2)
  ((d.setVote cliPolicy 113 0).setVote cliPolicy domTrace (if d.flag OBS_TCTL 0 then 2 else 0)).tunnelVote

/-! ### The cabling plan (R561, R562) -/

def planCount (x : List Byte) : Nat := leAt x 12 2
def planEntry (x : List Byte) (e : Nat) : List Byte := slice x (64 + 16 * e) 16
def planSerial (x : List Byte) (e : Nat) : Nat := leAt (planEntry x e) 0 8
def planCoords (x : List Byte) (e : Nat) : Nat × Nat × Nat :=
  let y := planEntry x e
  (byteAt y 8, byteAt y 9, byteAt y 10)
def planDims (x : List Byte) : Nat × Nat × Nat := (byteAt x 8, byteAt x 9, byteAt x 10)

/-- No value stands twice. -/
def allDiffer {α : Type} [BEq α] : List α → Bool
  | [] => true
  | a :: r => ! r.contains a && allDiffer r

/-- The length of a plan and its COUNT agree. -/
def planLen (x : List Byte) : Bool := 1 ≤ planCount x && planCount x ≤ 512 && x.length == 128 + 16 * planCount x

/-- A plan is valid: the checks of R561, with its MAGIC, VERSION and DIGEST. -/
def planValid (x : List Byte) : Bool :=
  let n := planCount x
  let m := planDims x
  let zero (l : List Byte) : Bool := l.all (· == 0#8)
  let dim (k : Nat) : Bool := 1 ≤ k && k ≤ 8
  planLen x && leAt x 0 4 == 0x4E414C50 && leAt x 4 2 == 1 && byteAt x 6 < 2 && byteAt x 7 == 0 && byteAt x 11 == 0 &&
    zero (slice x 14 50) && dim m.1 && dim m.2.1 && dim m.2.2 &&
    (upTo n).all (fun e => zero (slice (planEntry x e) 11 5) &&
      decide ((planCoords x e).1 < m.1) && decide ((planCoords x e).2.1 < m.2.1) && decide ((planCoords x e).2.2 < m.2.2)) &&
    allDiffer ((upTo n).map (planSerial x)) && allDiffer ((upTo n).map (planCoords x)) &&
    Config.sha3_512 (x.take (64 + 16 * n)) == slice x (64 + 16 * n) 64

/-- A device's ID from its coordinates (R25). -/
def devOf (c : Nat × Nat × Nat) : Nat := c.1 + 8 * c.2.1 + 64 * c.2.2

/-- The coordinates a plan gives a serial number. -/
def planPlace (x : List Byte) (serial : Nat) : Option (Nat × Nat × Nat) :=
  ((upTo (planCount x)).find? (fun e => planSerial x e == serial)).map (planCoords x)

/-- The coordinate beside `c` modulo `n`, in the direction of port `q`. -/
def stepOf (q c n : Nat) : Nat := if q % 2 = 0 then (c + 1) % n else (c + n - 1) % n

/-- The serial number the plan places across port `q` of this device: none in a dimension of size 1 or over unpaired W
ports. -/
def Dev.planPeer (d : Dev) (q : Nat) : Option Nat :=
  let x := d.cal.plan
  match planPlace x d.serial with
  | none => none
  | some c =>
    let m := planDims x
    let dim := min (q / 2) 2
    let n := if dim = 0 then m.1 else if dim = 1 then m.2.1 else m.2.2
    if n ≤ 1 || (6 ≤ q && byteAt x 6 % 2 = 0) then none
    else
      let t := if dim = 0 then (stepOf q c.1 n, c.2.1, c.2.2) else if dim = 1 then (c.1, stepOf q c.2.1 n, c.2.2)
        else (c.1, c.2.1, stepOf q c.2.2 n)
      ((upTo (planCount x)).find? (fun e => planCoords x e == t)).map (planSerial x)

/-! ### Hellos and the root (R556 to R560) -/

/-- The hello this device sends on port `q` (R556). -/
def Dev.helloOf (d : Dev) (q : Nat) : List Byte :=
  let c := d.cal
  let plan := ! c.plan.isEmpty
  leBytes 1 1 ++ leBytes 1 q ++
    leBytes 1 (natOf plan + 2 * natOf c.rootEst + 4 * natOf c.coords.isSome + 8 * natOf c.dims.isSome) ++
    leBytes 1 (d.fld CAL_ROOTDEV 8 8) ++ leBytes 4 (d.rg CAL_GEN) ++ leBytes 8 d.serial ++ leBytes 8 c.rootSer ++
    leBytes 2 ((c.coords.map devOf).getD 0) ++
    leBytes 2 (match c.dims with | some m => (m.1 - 1) + 8 * (m.2.1 - 1) + 64 * (m.2.2 - 1) | none => 0) ++ zeros 4 ++
    (if plan then (Config.sha3_512 c.plan).take 32 else zeros 32)

/-- A hello leaves on a port in TRAINING or UP (R557). -/
def Dev.sendHello (d : Dev) (q : Nat) : Dev :=
  if d.portState q = 1 || d.portState q = 2 then
    d.sendMgmt q 0 [] (some (d.helloOf q)) else d

/-- A hello leaves at once on every port on which a field of it differs from that of `old` (R557). -/
def Dev.helloChange (old d : Dev) : Dev :=
  if ! d.cal.on then d else d.forEach (upTo 8) (fun d q => if old.helloOf q == d.helloOf q then d else d.sendHello q)

def helloFlag (x : List Byte) (k : Nat) : Bool := bitAt (byteAt x 2) k
def helloSerial (x : List Byte) : Nat := leAt x 8 8
def helloRoot (x : List Byte) : Nat := leAt x 16 8

/-- The checks of R558 on the hello `x` of port `q`: CAL_PORTSTAT. -/
def Dev.portChecks (d : Dev) (q : Nat) (x : List Byte) : Nat :=
  let plan := ! d.cal.plan.isEmpty
  let loop := helloSerial x == d.serial
  let mis := helloFlag x 0 != plan || slice x 32 32 != slice (d.helloOf q) 32 32
  let cab := plan && ! (d.planPeer q == some (helloSerial x) && byteAt x 1 == opposite q)
  natOf (! loop && ! mis && ! cab && ! d.flag CAL_STAT 3) + 2 * natOf loop + 4 * natOf mis + 8 * natOf cab

/-- The roots this device hears of: serial, established, distance from here (R559). -/
def Dev.rootsHeard (d : Dev) : List (Nat × Bool × Nat) :=
  (upTo 8).filterMap (fun q =>
    match (d.lport q).hello with
    | some x => if d.portUp q then some (helloRoot x, helloFlag x 1, min 255 (byteAt x 3 + 1)) else none
    | none => none)

/-- Choose the root again (R559, R560): the lowest established one, else the lowest; where every path to an established root
is gone, the new one is established at once. -/
def Dev.chooseRoot (d : Dev) : Dev :=
  let c := d.cal
  let heard := d.rootsHeard
  let own := (d.serial, c.rootSer == d.serial && c.rootEst, 0)
  let lost := c.rootEst && c.rootSer != d.serial && ! heard.any (fun x => x.1 == c.rootSer)
  let all := own :: heard
  let est := all.filter (fun x => x.2.1)
  let from' := if est.isEmpty then all else est
  let root := (from'.map Prod.fst).foldl min (match from' with | x :: _ => x.1 | [] => d.serial)
  let dist := if root = d.serial then 0
    else ((all.filter (fun x => x.1 == root)).map (fun x => x.2.2)).foldl min 255
  let moved := root != c.rootSer
  -- without a plan the root is at (0, 0, 0) (R562)
  let dev := ((planPlace c.plan root).map devOf).getD 0
  let d := { d with cal := { c with rootSer := root, rootEst := ! est.isEmpty || lost, rootDev := dev } }
  let d := if moved && c.waited then d.setR CAL_GEN (d.rg CAL_GEN + 1) else d
  let d := if moved && d.fld CAL_STAT 0 3 = 4 then d.bump CAL_REELECT 1 else d
  let d := ((d.set64 CAL_ROOT_LO root).setF CAL_ROOTDEV 8 8 dist).setFlag CAL_STAT 6 (root == d.serial)
  d.setFlag CAL_STAT 7 (! est.isEmpty || lost)

/-- The dimensions a hello publishes. -/
def helloDims (x : List Byte) : Nat × Nat × Nat :=
  let m := leAt x 26 2
  (m % 8 + 1, m / 8 % 8 + 1, m / 64 % 8 + 1)

/-- What the neighbours' hellos say of this device's coordinates without a plan (R562): in each dimension, one more than the
neighbour across the minus port holds. -/
def Dev.derived (d : Dev) : List (Nat × Nat × Nat) :=
  [0, 1, 2].filterMap (fun dim =>
    match (d.lport (2 * dim + 1)).hello with
    | some x =>
      if d.portUp (2 * dim + 1) && helloFlag x 2 && helloFlag x 3 then
        let m := helloDims x
        let id := leAt x 24 2 % 512
        let c := (id % 8, id / 8 % 8, id / 64)
        let n := if dim = 0 then m.1 else if dim = 1 then m.2.1 else m.2.2
        if n = 1 then none
        else some (if dim = 0 then ((c.1 + 1) % n, c.2.1, c.2.2) else if dim = 1 then (c.1, (c.2.1 + 1) % n, c.2.2)
          else (c.1, c.2.1, (c.2.2 + 1) % n))
      else none
    | none => none)

/-- The device becomes standalone (R557, R562): device ID 0, one device in every dimension, no fabric port used. -/
def Dev.standalone (d : Dev) (fail : Bool) : Dev :=
  let d := (d.setFlag CAL_STAT 3 true).setFlag CAL_STAT 4 (d.flag CAL_STAT 4 || fail)
  let d := d.forEach (upTo 8) (fun d q => d.setFlag (CAL_PORTSTAT q) 0 false)
  { d with cal := { d.cal with waited := true, elected := true, rootSer := d.serial, coords := some (0, 0, 0), dims := some (1, 1, 1) } }

/-- Step 6 ends where the root is elected and the coordinates are known (R552): FAB_DCFG is written and link state sent. -/
def Dev.stepSix (d : Dev) : Dev :=
  match d.cal.elected && d.fld CAL_STAT 0 3 < 3, d.cal.coords, d.cal.dims with
  | true, some c, some m =>
    let d := (d.setF CAL_STAT 0 3 3).setF CAL_ROOTDEV 8 8 (if d.flag CAL_STAT 3 then 0 else d.fld CAL_ROOTDEV 8 8)
    let w := ! d.cal.plan.isEmpty && bitAt (byteAt d.cal.plan 6) 0 && ! d.flag CAL_STAT 3
    let d := d.forEach [0, 1] (fun d k =>
      ((d.setF (FAB_DCFG k) 0 9 (devOf c)).setF (FAB_DCFG k) 14 9 ((m.1 - 1) + 8 * (m.2.1 - 1) + 64 * (m.2.2 - 1))).setFlag
        (FAB_DCFG k) 23 (w && ! (d.flag (TUN_PCFG 0) 0 || d.flag (TUN_PCFG 1) 0)))
    if d.flag CAL_STAT 3 then d
    else d.rerouting.sendLinkState
  | _, _, _ => d

/-- Coordinates without a plan (R562): a device other than the root derives them from its neighbours; two different ones fail. -/
def Dev.deriveCoords (d : Dev) : Dev :=
  if ! d.cal.elected || ! d.cal.plan.isEmpty || d.flag CAL_STAT 6 || d.flag CAL_STAT 3 then d
  else
    let l := d.derived
    match l with
    | [] => d
    | c :: _ =>
      if l.any (· != c) || d.cal.coords.any (· != c) then (d.standalone true).stepSix
      else
        let m := ((upTo 6).filterMap (fun q => match (d.lport q).hello with
          | some x => if d.portUp q && helloFlag x 3 then some (helloDims x) else none
          | none => none)).head?
        { d with cal := { d.cal with coords := some c, dims := m } }.stepSix

/-- Link state goes out for a port that has joined after READY (R560, R271). -/
def Dev.joining (old d : Dev) (q : Nat) : Dev :=
  if d.fld CAL_STAT 0 3 = 4 && d.portUp q && ! old.portUp q then
    d.rerouting.sendLinkState
  else d

/-- A hello arrives on port `q` (R556 to R560). -/
def Dev.hello (d : Dev) (q : Nat) (x : List Byte) : Dev :=
  let d := d.takeMgmt
  if ! d.cal.on || x.length ≠ 64 || byteAt x 0 ≠ 1 || ! (d.lport q).trained || (d.portState q ≠ 1 && d.portState q ≠ 2) then d
  else
    let n := (d.setLport q { d.lport q with hello := some x }).portTry q
    let n := n.setR (CAL_PORTSTAT q) (d.portChecks q x)
    let n := n.setR (FAB_PPEER (q / 4) (q % 4)) (if helloFlag x 2 then leAt x 24 2 % 512 else 0)
    let n := n.setR CAL_GEN (max (n.rg CAL_GEN) (leAt x 4 4))
    let n := if n.flag CAL_STAT 3 then n else n.chooseRoot.deriveCoords
    Dev.helloChange d (Dev.joining d n q)

/-- After a port has failed, the root is chosen again among those still heard of (R560). -/
def Dev.rootAgain (d : Dev) : Dev := if d.cal.on && ! d.flag CAL_STAT 3 then Dev.helloChange d d.chooseRoot else d

/-! ### The steps (R552 to R557, R562) -/

/-- The ports the plan names; without a plan, all eight that are enabled. -/
def Dev.wantedPorts (d : Dev) : List Nat :=
  if d.cal.plan.isEmpty then (upTo 8).filter (fun q => d.portState q ≠ 4) else (upTo 8).filter (fun q => (d.planPeer q).isSome)

/-- Step 4 ends when every port's training has (R552). -/
def Dev.stepFour (d : Dev) : Dev :=
  if d.cal.on && d.fld CAL_STAT 0 3 = 1 && d.wantedPorts.all (fun q => d.portState q ≠ 1 || (d.lport q).trained) then
    d.setF CAL_STAT 0 3 2 else d

/-- Step 1 and step 2 at power-good (R552): the boot ROM verifies the part record and the image, identity, remap tables, the
fence record, the configurations of R563, policy votes; then DDR5, ports and waves start.  `straps` are the straps of
R643 (bits 0 and 1 the address of SMBus port 0, 2 and 3 that of port 1, bit 4 STRAP_DBG, bit 5 STRAP_RCV); `t1` and `t2` are
the milliseconds the two steps took. -/
def Dev.calendsStart (d : Dev) (ember : Bool) (straps t1 t2 : Nat) : Dev :=
  let d := { d with pins := { d.pins with straps := straps % 64, float := false }, pwr := { d.pwr with asleep := 0 } }
  let boot := leNat (SMap.get [] d.car.keepCfg 6) + 1
  let d := (d.setKeep 6 (leBytes 4 boot)).setR CAR_BOOT boot
  let d := d.setR CAR_ROLLBACK d.rollback
  let d := d.endTrial
  let d := if bitAt straps 5 then d.setFlag CAR_STAT 7 true else d.bootImage d.car.active
  let d := ((d.setFlag CAR_STAT 6 (! d.partOk)).setFlag CAR_STAT 0 true).crsBit
  if d.flag CAR_STAT 6 || d.flag CAR_STAT 7 then d
  else
    let d := { d with cal := { d.cal with on := true, rootSer := d.serial,
                                          plan := if planValid d.cal.kept then d.cal.kept else [] } }
    let d := (((d.setF CAL_STAT 0 3 1).setR CAL_T1 t1).setR CAL_T2 t2).setFlag PWR_GSTAT 3 true
    let d := (d.set64 CAR_SERIAL_LO d.serial).setFlag CAL_STAT 5 (! d.cal.plan.isEmpty)
    let d := { d with pins := { d.pins with vid0 := 36 + Config.trimCode 0 0 % 17, vid1 := 36 + Config.trimCode 1 0 % 17 } }
    let d := if Config.sha3_512 d.publicKey == slice d.car.partRec 80 64 then d
      else let o := d.openData; (o.2.setFlag CAR_STAT 5 true).log 0 6 4 0xFF o.1
    let d := (d.loadMacs.fenceCalends.showFenced).forEach (upTo 16) Dev.fillRemap
    let cfg (k : Nat) : List Byte := SMap.get [] d.car.keepCfg k
    let d := if (cfg 1).isEmpty then d else (d.setFlag TAB_TLCTL 4 (byteAt (cfg 1) 1 == 1)).setTimeSource (byteAt (cfg 1) 0)
    let d := [0, 1].foldl (fun d w => if (cfg (3 + w)).isEmpty then d else d.ethMode w (cfg (3 + w))) d
    let d := if (cfg 2).isEmpty then d else d.ptpMode (cfg 2)
    let d := d.devicePolicy.chooseRoot
    let d := d.forEach d.wantedPorts (fun d q => d.portEnable q true)
    let d := d.ddrStart (if ember then 1 else 0)
    d.stepFour

/-- PWRGD rises (R552, R567, R586, R647, R648): in Ember with PWR_EN low it has no effect. -/
def Dev.powerGood (d : Dev) (straps t1 t2 : Nat) : Dev :=
  if d.pins.pwrgd || d.pins.thermtrip || (d.pwr.asleep = 2 && ! d.pins.pwrEn) then d
  else
    let ember := d.pwr.asleep = 2
    let d := { d with pins := { d.pins with pwrgd := true } }
    let d := if ember then d.setR PWR_WAKE 1 else d.ddrLose
    d.calendsStart ember straps t1 t2

/-- Region wave `w` (R555): regions w and w + 8 are initialised and placed in retention. -/
def Dev.regionWave (d : Dev) (w : Nat) : Dev :=
  if ! d.cal.on || d.flag CAL_WAVE w then d
  else d.forEach [w, w + 8] (fun d r =>
    let d := (d.zeroMem (csBase (16 * r)) (csBase (16 * r) + 16 * 0x400000)).zeroMem (tcBase r) (tcBase r + 0x200000)
    let d := d.setScore r { d.score r with prog := [] }
    let d := (d.setFlag CAL_WAVE r true).regionPolicy r
    d.forEach (upTo 6) (fun d k =>
      if d.domGood (domOf r k) && d.voted (domOf r k) = 1 then (d.setF (PWR_DSTAT (domOf r k)) 30 2 1).setFlag (PWR_DSTAT (domOf r k)) 29 false
      else d))

/-- Every millisecond a hello leaves on every port in training or UP (R557). -/
def Dev.helloTimer (d : Dev) : Dev := if d.cal.on then d.forEach (upTo 8) Dev.sendHello else d

/-- The hello wait ends `ms` milliseconds after step 4 began, where one of the conditions of R557 holds. -/
def Dev.helloWaitEnd (d : Dev) (ms : Nat) : Dev :=
  let st (q : Nat) : Nat := d.portState q
  let en := (upTo 8).filter (fun q => d.flag (portCtl q) 0 && st q ≠ 4)
  let up := en.any (fun q => st q = 2)
  let plan := ! d.cal.plan.isEmpty
  let all := if plan then d.wantedPorts.all (fun q => st q = 2) else up && en.all (fun q => st q = 2 || st q = 3)
  if ! d.cal.on || d.cal.waited || d.fld CAL_STAT 0 3 ≠ 2 then d
  else if all || d.fld CAL_HELLOWAIT 0 16 ≤ ms then { d with cal := { d.cal with waited := true } }
  else if ! plan && ! up && 200 ≤ ms then Dev.helloChange d (d.standalone false).stepSix
  else d

/-- The root's probes out of its plus ports (R562): none in a dimension whose plus port is not UP or has failed a check. -/
def Dev.sendProbes (d : Dev) : Dev :=
  let go := [0, 1, 2].filter (fun k => d.portUp (2 * k))
  let d := { d with cal := { d.cal with probes := [0, 1, 2].map (fun k => (k, if go.contains k then none else some 1)) } }
  d.forEach go (fun d k => d.sendMgmt (2 * k) 3 [d.serial, 1] none)

/-- The root's dimensions are known once every probe is back. -/
def Dev.probesDone (d : Dev) : Dev :=
  match d.cal.probes.map Prod.snd with
  | [some x, some y, some z] => { d with cal := { d.cal with coords := some (0, 0, 0), dims := some (x, y, z), probes := [] } }.stepSix
  | _ => d

/-- The chosen root has not changed for 8 ms after the hello wait, `ms` milliseconds after power-good (R559, R562). -/
def Dev.electionQuiet (d : Dev) (ms : Nat) : Dev :=
  if ! d.cal.on || ! d.cal.waited || d.cal.elected then d
  else
    let n := { d with cal := { d.cal with elected := true } }.setR CAL_T6 ms
    let n := if ! n.cal.plan.isEmpty then
        match planPlace n.cal.plan n.serial with
        | some c => { n with cal := { n.cal with coords := some c, dims := some (planDims n.cal.plan) } }.stepSix
        | none => (n.standalone true).stepSix
      else if n.flag CAL_STAT 6 then n.sendProbes.probesDone
      else n.deriveCoords
    Dev.helloChange d n

/-- A probe of root `root` arrives on port `q`, sent `hops` times so far (R562): the root's own is back; another's goes on out
of the same plus port. -/
def Dev.probe (d : Dev) (q root hops : Nat) : Dev :=
  let d := d.takeMgmt
  let k := q / 2
  if ! d.cal.on || 6 ≤ q || q % 2 = 0 then d
  else if root = d.serial then
    if d.cal.probes.contains (k, none) then
      Dev.helloChange d ({ d with cal := { d.cal with probes := d.cal.probes.map (fun (x : Nat × Option Nat) =>
        if x.1 = k then (k, some (min 8 (max 1 hops))) else x) } }.probesDone)
    else d
  else if d.portUp (2 * k) then d.sendMgmt (2 * k) 3 [root, hops + 1] none else d

/-- A probe of dimension `k` has not returned within 10 ms (R562). -/
def Dev.probeTimeout (d : Dev) (k : Nat) : Dev :=
  if d.cal.probes.contains (k, none) then
    Dev.helloChange d ({ d with cal := { d.cal with probes := [] } }.standalone true).stepSix else d

/-- Routes are installed in step 7 (R552). -/
def Dev.routesStep (d : Dev) : Dev :=
  let d := d.routeInstall
  if d.fld CAL_STAT 0 3 = 3 then { d with cal := { d.cal with routes := true } } else d

/-- READY `ms` milliseconds after power-good (R552, R560): steps 3, 5 and 7 have ended; the root is established. -/
def Dev.calReady (d : Dev) (ms : Nat) : Dev :=
  if d.fld CAL_STAT 0 3 ≠ 3 || ! d.cal.ddr || ! d.cal.routes || d.fld CAL_WAVE 0 16 ≠ 65535 then d
  else
    let n := (d.setF CAL_STAT 0 3 4).setR CAL_T8 ms
    let n := if n.flag CAL_STAT 6 then { n with cal := { n.cal with rootEst := true } }.setFlag CAL_STAT 7 true else n
    let n := n.forEach (upTo 16) (fun d p =>
      let x := d.part p
      if x.ckpt.commit = some (2 ^ 48) then d.setPart p { x with ckpt := { x.ckpt with commit := some d.rtc } } else d)
    Dev.helloChange d n

/-! ### Partitions (R565) -/

/-- Region `r` is unusable: it is in the fence list, or no entry of its remap table is valid (R613). -/
def Dev.regionBad (d : Dev) (r : Nat) : Bool :=
  d.fenceList.any (fun x => x.1 == 3 && x.2.1 == r) || (d.coresOf r).isEmpty

/-- Region `r` joins partition `p` (R565). -/
def Dev.joinRegion (d : Dev) (p r : Nat) : Dev :=
  let new := (d.regionsOf p).isEmpty
  let d := d.setR (CAL_REGPART r) (2 ^ 31 + p)
  let d := d.forEach (upTo 6) (fun d k =>
    if d.domGood (domOf r k) then d.setF (PWR_DSTAT (domOf r k)) 30 2 2 else d)
  let d := (d.regionPolicy r).taborVotes r
  if new then
    let d := { d with car := { d.car with mcfg := SMap.set [] d.car.mcfg p [] } }
    if d.choked p then d else (d.setF (TAB_BSTAT p) 16 3 0).setF (TAB_BSTAT p) 12 2 0
  else if d.running p then
    let f := beatInc (d.beat p)
    (d.startRegion r f).forEach ((d.coresOf r).map Prod.snd) (fun d q => d.startCore q f)
  else d

/-- Region `r` leaves partition `p` (R565). -/
def Dev.leaveRegion (d : Dev) (p r : Nat) : Dev :=
  let d := if d.readoutRegion p == some r then
      let d := d.setR (AXN_RCFG r) 0
      d.forEach [0, 1] (fun d k => d.setR (AXN_PROUT k p) 0)
    else d
  let d := ((d.gangEnd p r).clearRegion r).dropVotes p r
  let d := d.setR (CAL_REGPART r) 0
  (d.regionPolicy r).taborVotes r

/-! ### Commands (R570) -/

def calSpec (op : Nat) (len : List Byte → Bool) (ro : Bool) (rsv : List (Nat × Nat)) : CmdSpec :=
  { opcode := op, issuer := .pf, names := false, ro := ro, len := len, rsv := rsv }

def cCalStatus : CmdSpec := { calSpec 0x0F01 (lenIs 0) true [] with issuer := .any }
def Dev.calStatus (d : Dev) (h : Hdr) (_pl : List Byte) : Dev × Ans :=
  (d, .done .ok 0 (if h.func = 0 then d.regBytes CAL_STAT 16 else leBytes 4 (d.rg CAL_STAT) ++ zeros 60))

def cPartAssign : CmdSpec := { calSpec 0x0F02 (lenIs 8) false (rsvd 1 1 ++ rsvd 4 4) with ready := true }
def Dev.partAssign (d : Dev) (_h : Hdr) (pl : List Byte) : Dev × Ans :=
  let p := byteAt pl 0
  let rs := maskBits 16 (leAt pl 2 2)
  let other := rs.filter (fun r => (d.regPart r).any (· != p))
  if 16 ≤ p then (d, .st .denied)
  else if other.any (fun r => (d.regPart r).any d.running) then (d, .st .busy)
  else if ! other.isEmpty || rs.any d.regionBad then (d, .st .denied)
  else (d.forEach (rs.filter (fun r => (d.regPart r).isNone)) (fun d r => d.joinRegion p r), .st .ok)

def cPartRemove : CmdSpec := { calSpec 0x0F03 (lenIs 8) false (rsvd 1 1 ++ rsvd 4 4) with ready := true }
def Dev.partRemove (d : Dev) (_h : Hdr) (pl : List Byte) : Dev × Ans :=
  let p := byteAt pl 0
  let rs := maskBits 16 (leAt pl 2 2)
  if 16 ≤ p || rs.any (fun r => d.regPart r != some p) then (d, .st .denied)
  else if d.bstate p ≠ 3 then (d, .st .busy)
  else (d.forEach rs (fun d r => d.leaveRegion p r), .st .ok)

def cPartStatus : CmdSpec := { calSpec 0x0F04 (lenIs 8) true (rsvd 1 7) with issuer := .any, ready := true }
def Dev.partStatus (d : Dev) (h : Hdr) (pl : List Byte) : Dev × Ans :=
  let p := byteAt pl 0
  if 16 ≤ p || (h.func ≠ 0 && h.func ≠ p) then (d, .st .denied)
  else (d, .done .ok 0 (leBytes 2 (partMask (d.regionsOf p)) ++ leBytes 1 (d.bstate p) ++ leBytes 1 (natOf (d.muted p)) ++ zeros 4))

def cPlanSet : CmdSpec := calSpec 0x0F05 (fun pl => 144 ≤ pl.length && pl.length ≤ 8320 && planLen pl) false []
def Dev.planSet (d : Dev) (_h : Hdr) (pl : List Byte) : Dev × Ans :=
  if planValid pl then ({ d with cal := { d.cal with kept := pl } }, .st .ok) else (d, .st .denied)

def cPlanRead : CmdSpec := calSpec 0x0F06 (lenIs 0) true []
def Dev.planRead (d : Dev) (_h : Hdr) (_pl : List Byte) : Dev × Ans := (d, .done .ok 0 d.cal.kept)

def cPlanClear : CmdSpec := calSpec 0x0F07 (lenIs 0) false []
def Dev.planClear (d : Dev) (_h : Hdr) (_pl : List Byte) : Dev × Ans := ({ d with cal := { d.cal with kept := [] } }, .st .ok)

end Sys2Proof.Machine
end

