-- ==== Sys2Proof/Machine/CmdCalends.lean ====
section
/-! DEFINITION. The commands and events of the Calends chapter. -/

namespace Sys2Proof.Machine

/-- CAL_STATUS (R570): Bellpull command that returns CAL registers. -/
def execCalStatus (h : Hdr) (pl : List Byte) (s : State) : Outcome := s.run (·.serve cCalStatus Dev.calStatus h pl)
/-- PART_ASSIGN (R565): Bellpull command that assigns regions to a partition. -/
def execPartAssign (h : Hdr) (pl : List Byte) (s : State) : Outcome := s.run (·.serve cPartAssign Dev.partAssign h pl)
/-- PART_REMOVE (R565): Bellpull command that removes regions from a partition and clears them. -/
def execPartRemove (h : Hdr) (pl : List Byte) (s : State) : Outcome := s.run (·.serve cPartRemove Dev.partRemove h pl)
/-- PART_STATUS (R570): Bellpull command that returns a partition's regions and state. -/
def execPartStatus (h : Hdr) (pl : List Byte) (s : State) : Outcome := s.run (·.serve cPartStatus Dev.partStatus h pl)
/-- PLAN_SET (R561): Bellpull command that stores a cabling plan. -/
def execPlanSet (h : Hdr) (pl : List Byte) (s : State) : Outcome := s.run (·.serve cPlanSet Dev.planSet h pl)
/-- PLAN_READ (R570): Bellpull command that returns the stored plan. -/
def execPlanRead (h : Hdr) (pl : List Byte) (s : State) : Outcome := s.run (·.serve cPlanRead Dev.planRead h pl)
/-- PLAN_CLEAR (R570): Bellpull command that removes the stored plan. -/
def execPlanClear (h : Hdr) (pl : List Byte) (s : State) : Outcome := s.run (·.serve cPlanClear Dev.planClear h pl)
/-- POWER_GOOD (R552): PWRGD rises and Calends begins on the device. -/
def execPowerGood (straps : Nat) (t1 : Nat) (t2 : Nat) (s : State) : Outcome := s.run (·.powerGood straps t1 t2)
/-- REGION_WAVE (R555): A timed wave initialises and retains the domains of two regions. -/
def execRegionWave (wave : Nat) (s : State) : Outcome := s.run (·.regionWave wave)
/-- HELLO_TIMER (R557): Every 1 ms a hello is sent on every port in training or UP. -/
def execHelloTimer (s : State) : Outcome := s.run (·.helloTimer)
/-- HELLO (R559): A hello message arrives and updates root choice and port checks. -/
def execHello (port : Nat) (bytes : List Byte) (s : State) : Outcome := s.run (·.hello port bytes)
/-- HELLO_WAIT_END (R557): The hello wait ends and election proceeds or the device goes standalone. -/
def execHelloWaitEnd (ms : Nat) (s : State) : Outcome := s.run (·.helloWaitEnd ms)
/-- ELECTION_QUIET (R559): The chosen root holds for 8 ms and election ends. -/
def execElectionQuiet (ms : Nat) (s : State) : Outcome := s.run (·.electionQuiet ms)
/-- COORDINATE_PROBE (R562): A class 6 probe is forwarded around a ring and returns to the root. -/
def execCoordinateProbe (port : Nat) (root : Nat) (hops : Nat) (s : State) : Outcome := s.run (·.probe port root hops)
/-- PROBE_TIMEOUT (R562): A probe not returned within 10 ms sets COORDFAIL. -/
def execProbeTimeout (k : Nat) (s : State) : Outcome := s.run (·.probeTimeout k)
/-- READY (R552): DDR5, waves and routes have ended and the device becomes READY. -/
def execReady (ms : Nat) (s : State) : Outcome := s.run (·.calReady ms)

end Sys2Proof.Machine
end

