-- ==== Sys2Proof/Machine/PowerCtl.lean ====
section
/-! DEFINITION. Power votes, domain levels, napping, operating points, Vigil, Ember, the RTC and the thermal governor (R571 to
R598), and the supplies of the package (R646 to R649, R655). -/

namespace Sys2Proof.Machine

/-! ### Domain levels (R572 to R575) -/

/-- What domain `x` holds is lost as its supply goes (R572). -/
def Dev.domLose (d : Dev) (x : Nat) : Dev :=
  let r := x / 6
  let k := x % 6
  let wipe (d : Dev) (c : Nat) : Dev := d.resetRegs (slotBase r c) (slotBase r c + 0x10000)
  if x < 96 then
    if k < 4 then
      d.forEach (upTo 4) (fun d j =>
        let q := 16 * r + 4 * k + j
        { ((wipe d (4 * k + j)).zeroMem (csBase q) (csBase q + 0x400000)).setCore q NCore.reset with
          tocq := SMap.set [] d.tocq q [], tocWake := SMap.set 0 (SMap.set 0 d.tocWake q 0) (512 + q) 0 })
    else if k = 4 then
      { ((wipe d 16).zeroMem (tcBase r) (tcBase r + 0x200000)).setTcore r default with
        tocq := SMap.set [] d.tocq (256 + r) [], tocWake := SMap.set 0 (SMap.set 0 d.tocWake (256 + r) 0) (768 + r) 0 }
    else
      let d := (d.seqStop r).readerReset r
      { (wipe d 17).setScore r default with
        tocq := SMap.set [] d.tocq (272 + r) [], tocWake := SMap.set 0 (SMap.set 0 d.tocWake (272 + r) 0) (784 + r) 0 }
  else if x < 104 then d.ddrLose
  else if x < 112 then d.linkGone (x - 104)
  else if x = 117 || x = 118 then d.zeroMem (axBase (x - 117)) (axBase (x - 117) + 0x4000000)
  else d

/-- The level of domain `x` changes to what is voted (R572, R573); one that BUSYHOLD holds stays ON; a raise that came
meanwhile follows (R575). -/
def Dev.levelChange (d : Dev) (x : Nat) : Dev :=
  let d := d.domFollow x
  if ! d.flag (PWR_DSTAT x) 29 || d.pwr.asleep ≠ 0 then d
  else
    let t := d.voted x
    let d := if t = 0 then d.domLose x else d
    (d.setF (PWR_DSTAT x) 30 2 t).domFollow x

/-- Bit `x` of a vote word of client `c` is written (R595, R596): a vote outside the client's column is not stored. -/
def Dev.voteBit (d : Dev) (c x : Nat) (on b : Bool) : Dev :=
  if ! d.mayVote c x then d
  else
    let old := d.vote c x
    let a := if on then PWR_VON c (x / 32) else PWR_VRET c (x / 32)
    let d := d.setFlag a (x % 32) b
    let v := d.vote c x
    if v = old then d
    else
      let d := d.setF (PWR_DSTAT x) 16 8 (d.fld (PWR_DSTAT x) 16 8 + natOf (v == 2) - natOf (old == 2))
      let d := d.setF (PWR_DSTAT x) 8 8 (d.fld (PWR_DSTAT x) 8 8 + natOf (v == 1) - natOf (old == 1))
      d.domFollow x

/-- Agent `ag` may write the words of client `c` (R596). -/
def voteMine (ag : Agent) (c : Nat) : Bool :=
  match ag with
  | .func f => (f == 0 && c == 0) || c == 1 + f
  | .score r => c == 17 + r
  | _ => false

/-- A write of word `w` of client `c`: its ON votes or its RET votes (R575, R596). -/
def Dev.voteWrite (d : Dev) (ag : Agent) (c w : Nat) (on : Bool) (v : Nat) : Dev :=
  if ! voteMine ag c || 4 ≤ w then d
  else d.forEach (upTo 32) (fun d b => d.voteBit c (32 * w + b) on (bitAt v b))

/-! ### Napping (R577 to R579) -/

/-- The usable cores of quad `k` (physical site ÷ 4). -/
def Dev.quadCores (d : Dev) (k : Nat) : List Nat := ((d.coresOf (k / 4)).map Prod.snd).filter (fun q => q / 4 == k)

/-- Core `q` has nothing to do until beat `n` + 1 (R578). -/
def Dev.coreQuiet (d : Dev) (q n : Nat) : Bool :=
  let c := d.core q
  let j := (n + 1) % 64
  c.final == some n && d.fld (NEU_ACTIVE q) 0 16 == 0 && d.nearCount q j == 0 && ! d.flag (ALM_NSLOT q j) 31 &&
    ! d.flag (HRV_STAT q) 0 && ! d.flag (HRV_STAT q) 1 && c.sweeps.isEmpty

/-- The Tabor drops its vote on quad `k` to RET (R578). -/
def Dev.napDrop (d : Dev) (k : Nat) : Dev :=
  let r := k / 4
  match d.regPart r with
  | none => d
  | some p =>
    let n := (d.region r).beat
    -- the region's next start, counted in the partition's present beat: that of n, or n + 1 before the region's own start
    let raise := (if n == d.beat p then d.fld (TAB_BPERIOD p) 0 29 else 0) + d.fld (TAB_CHOFF r) 0 29 - 600
    let now := d.rg (TAB_BCOUNT p)
    if d.flag PWR_POLICY 1 && d.running p && ! d.naps.contains k && ! (d.quadCores k).isEmpty && (n == d.beat p || (n + 1) % 2 ^ 48 == d.beat p) &&
        (d.quadCores k).all (fun q => d.coreQuiet q n) && now + d.fld PWR_NAPCFG 0 16 ≤ raise then
      ({ d with naps := d.naps ++ [k] }.bump (PWR_NAPCNT k) 1).taborVotes r
    else d

/-- The Tabor raises its vote on quad `k` 600 ticks before the region's next beat (R578). -/
def Dev.napRaise (d : Dev) (k : Nat) : Dev :=
  if d.naps.contains k then { d with naps := d.naps.filter (· != k) }.taborVotes (k / 4) else d

/-! ### Operating points (R580, R581) -/

/-- The rank of an operating point code (0 Run, 1 Boost, 2 Lent): Lent below Run below Boost. -/
def pointRank (c : Nat) : Nat := if c = 2 then 0 else if c = 0 then 1 else 2
def lowerPoint (a b : Nat) : Nat := if pointRank a ≤ pointRank b then a else b
def stepDown (c : Nat) : Nat := if c = 1 then 0 else 2
def stepUp (c : Nat) : Nat := if c = 2 then 0 else 1

/-- The trimmed VID code of an operating point on a die, within the range of R580. -/
def vidCode (die c : Nat) : Nat :=
  let t := Config.trimCode die c
  if c = 2 then 16 + t % 13 else if c = 0 then 36 + t % 17 else 60 + t % 11

def Dev.setVid (d : Dev) (c : Nat) : Dev := { d with pins := { d.pins with vid0 := vidCode 0 c, vid1 := vidCode 1 c } }

/-- A scheduled-plane program runs somewhere. -/
def Dev.anyPlane (d : Dev) : Bool := (upTo 16).any d.planeRuns

/-- The voltage ramp of a change to point `t` begins: on a lowering the clocks have switched first. -/
def Dev.beginRamp (d : Dev) (t : Nat) : Dev :=
  let d := if pointRank t < pointRank d.pwr.prev then { d with pwr := { d.pwr with prev := t } } else d
  { d with pwr := { d.pwr with change := some (t, 1) } }

/-- The state in force follows target and ceiling (R581). -/
def Dev.followPoint (d : Dev) : Dev :=
  let t := lowerPoint (d.fld PWR_STATE 4 3) (d.fld PWR_STATE 8 3)
  if d.pwr.change.isSome || d.pwr.asleep ≠ 0 || 3 ≤ d.fld PWR_STATE 0 3 || t = d.pwr.prev then d
  else
    let d := d.setF PWR_STATE 0 3 5
    if (t = 2 || d.pwr.prev = 2) && d.anyPlane then { d with pwr := { d.pwr with change := some (t, 0) } } else d.beginRamp t

/-- A change to or from Lent has waited 1 ms for the plane (R581). -/
def Dev.planeDrain (d : Dev) : Dev :=
  match d.pwr.change with
  | some (t, 0) => d.gangCut.beginRamp t
  | _ => d

/-- VDD_CORE has reached the value of the new point (R581); a change that only waited for the plane goes through its ramp once
no program runs. -/
def Dev.rampEnd (d : Dev) : Dev :=
  match d.pwr.change with
  | some (t, k) =>
    if k = 0 && d.anyPlane then d
    else
      let d := { d with pwr := { d.pwr with prev := t, change := none } }.setVid t
      let d := d.setF PWR_STATE 0 3 t
      let pl := leBytes 4 (d.rg PWR_STATE)
      (d.endWaiting (fun w => w.what == .power) (fun _ => (.ok, pl))).followPoint
  | none => d

/-! ### Vigil and Ember (R582 to R587) -/

/-- The gathered journal records are programmed as one page (R529, R530): 63 records, KIND 0 padding; the block to be filled
is erased first. -/
def Dev.journalPage (d : Dev) : Dev :=
  let c := d.car
  let page := c.jbuf.take 63
  if page.isEmpty then d
  else
    let pad := page ++ List.replicate (63 - page.length) (default : LogRec)
    let j := if c.jPages % 16 = 0 && 63 * 16 * 1024 ≤ c.journal.length then c.journal.drop (63 * 16) else c.journal
    { d with car := { c with journal := j ++ pad, jPages := c.jPages + 1, jbuf := c.jbuf.drop 63, jSince := d.time } }.bump
      CAR_JWRITTEN page.length

/-- Every command that waits is completed before a sleep or a restart (R542, R582, R585). -/
def Dev.endAll (d : Dev) : Dev := d.endWaiting (fun _ => true) (fun _ => (.incomplete, []))

/-- Every rank goes into self-refresh (R443). -/
def Dev.selfRefresh (d : Dev) : Dev :=
  (d.ddrFlag 2 true).forEach (upTo 8) (fun d c =>
    if d.fld (MEM_CHSTAT (c / 4) (c % 4)) 0 2 = 2 then d.setF (MEM_CHSTAT (c / 4) (c % 4)) 0 2 3 else d)

def Dev.endRefresh (d : Dev) : Dev :=
  (d.ddrFlag 2 false).forEach (upTo 8) (fun d c =>
    if d.fld (MEM_CHSTAT (c / 4) (c % 4)) 0 2 = 3 then d.setF (MEM_CHSTAT (c / 4) (c % 4)) 0 2 2 else d)

/-- The device enters Vigil (R582). -/
def Dev.enterVigil (d : Dev) : Dev :=
  let on := (upTo 120).filter (fun x => d.domLevel x = 2 && x ≠ 112)
  let d := d.selfRefresh.forEach on (fun d x => (d.setF (PWR_DSTAT x) 30 2 1).setFlag (PWR_DSTAT x) 29 false)
  let d := (d.forEach (upTo 8) Dev.linkGone).forEach [0, 1] Dev.ethLinkDown
  let d := (d.setFlag CAR_STAT 0 false).setFlag OBS_TSTAT 0 false
  { d with pwr := { d.pwr with asleep := 1, timeIn := d.time, rtcIn := d.rtc, held := on, change := none }
           trace := { d.trace with started := false } }

/-- The device enters Ember (R585, R587, R649). -/
def Dev.enterEmber (d : Dev) : Dev :=
  let d := d.selfRefresh
  let d := { d with pwr := { d.pwr with asleep := 2, timeIn := d.time, rtcIn := d.rtc } }
  let d := d.lose true true
  { d.setR PWR_AONCTL 0 with pins := { d.pins with pwrEn := false, pwrgd := false, float := true } }

/-- A sleep that POWER_STATE has started is entered once every response has been written (R582, R585). -/
def Dev.sleepNow (d : Dev) : Dev :=
  let s := d.fld PWR_STATE 0 3
  if d.pwr.asleep ≠ 0 || (upTo 16).any (fun f => ! (d.fn f).resps.isEmpty) then d
  else if s = 3 then d.enterVigil
  else if s = 4 then d.journalPage.enterEmber
  else d

/-- A wake of Carillon ends Vigil (R583): `cause` 2 a Tocsin source, 3 a command doorbell. -/
def Dev.vigilWake (d : Dev) (cause : Nat) : Dev :=
  let toc := d.fld (TOC_CTL 288) 0 2 = 3 && d.rg (TOC_ENABLE 288) &&& d.rg (TOC_PEND 288) ≠ 0
  if d.pwr.asleep ≠ 1 || (cause ≠ 3 && ! toc) || (cause = 3 && d.pwr.tails.isEmpty) then d
  else
    let gone := (d.rtc + 2 ^ 48 - d.pwr.rtcIn) % 2 ^ 48 * 400000000 / 32768
    let held := d.pwr.held
    let tails := d.pwr.tails
    let point := if d.pwr.prev = 1 then 0 else d.pwr.prev
    let d := (d.setR PWR_WAKE (if cause = 3 then 3 else 2)).set64 TAB_TIME_LO ((d.time + gone) % 2 ^ 64)
    let d := { d with pwr := { d.pwr with asleep := 0, held := [], tails := [], prev := point, warm := 0, hotMs := 0, coolMs := 0,
                                          plimMs := 0, powers := [] } }
    let d := ((d.setF PWR_STATE 0 3 point).setFlag PWR_GSTAT 3 true).setF PWR_STATE 8 3 (lowerPoint (d.fld PWR_STATE 8 3) 0)
    let d := (d.setVid point).endRefresh.forEach held (fun d x => (d.setF (PWR_DSTAT x) 30 2 2).domFollow x)
    -- the time source is entered again as if it had just been selected (R84, R506)
    let src := d.fld TAB_TLCTL 0 3
    let d := if src = 0 then d else (d.setF TAB_TLCTL 0 3 0).setTimeSource src
    let d := d.forEach (upTo 8) (fun d q => if d.portState q = 0 || d.portState q = 4 then d else (d.setPort q 1).linkGone q)
    let d := d.setFlag CAR_STAT 0 true
    d.forEach tails (fun d (x : Nat × Option Nat) => match x.2 with
      | some v => d.setR (CAR_CRTAIL x.1) v
      | none => d)

/-- The RTC steps into its alarm (R586, R588). -/
def Dev.rtcAlarm (d : Dev) : Dev :=
  if ! d.flag PWR_ALARM_HI 31 then d
  else
    let d := (d.setR PWR_RTC_LO (d.rg PWR_ALARM_LO)).setR PWR_RTC_HI (d.fld PWR_ALARM_HI 0 16)
    let d := { d with rtcFrac := 0 }.setFlag PWR_ALARM_HI 31 false
    if d.pwr.asleep = 2 then { d.setR PWR_AONCTL 3 with pins := { d.pins with pwrEn := true } }
    else d.tocArrive 288 18 0 0 0 false

/-- A draw above 20 mA in low-power mode (R590, R649): the whole device resets. -/
def Dev.brownOut (d : Dev) : Dev :=
  if d.flag PWR_AONCTL 0 || d.pwr.asleep ≠ 2 then d
  else
    let d := (d.lose false false).ddrLose
    { d with pwr := { d.pwr with asleep := 0, timeIn := 0, rtcIn := 0 }, pins := { d.pins with pwrEn := false } }

/-! ### The governor and THERMTRIP (R592 to R594, R655) -/

/-- A die sensor reads 120 °C or more (R594, R606, R655). -/
def Dev.thermTrip (d : Dev) : Dev :=
  let d := { d with pins := { d.pins with thermtrip := true } }
  if d.pwr.asleep = 2 then d
  else
    let d := d.fault fThermtrip d.allParts 0
    d.forEach (upTo 120) (fun d x => ((d.domLose x).setF (PWR_DSTAT x) 30 2 0).setFlag (PWR_DSTAT x) 29 false)

def Dev.setLimit (d : Dev) (c : Nat) : Dev := d.setF PWR_STATE 8 3 c

/-- The ceiling goes one step down, counted where it can. -/
def Dev.throttle (d : Dev) : Dev :=
  if d.fld PWR_STATE 8 3 = 2 then d else (d.setLimit (stepDown (d.fld PWR_STATE 8 3))).bump PWR_THROTCNT 1

/-- One step up, but not above Run while the governor warms up (R593). -/
def Dev.unthrottle (d : Dev) : Dev :=
  let c := stepUp (d.fld PWR_STATE 8 3)
  d.setLimit (if d.flag PWR_GSTAT 3 then lowerPoint c 0 else c)

/-- CAR_TMAX against HOT and ALARM (R592). -/
def Dev.governHeat (d : Dev) : Dev :=
  let t := sInt 16 (d.fld CAR_TMAX 0 16)
  let hot := sInt 16 (d.fld PWR_THERM 16 16)
  let al := sInt 16 (d.fld PWR_THERM 0 16)
  let w := d.pwr
  let was := d.flag PWR_GSTAT 2
  let d := (d.setFlag PWR_GSTAT 1 (decide (hot ≤ t))).setFlag PWR_GSTAT 2 (decide (al ≤ t))
  let d := if hot ≤ t then
      { (if w.hotMs % 10 = 0 then d.throttle else d) with pwr := { w with hotMs := w.hotMs + 1, coolMs := 0 } }
    else if t < hot - 80 then
      if w.coolMs + 1 = 100 then { (if d.flag PWR_GSTAT 0 then d else d.unthrottle) with pwr := { w with hotMs := 0, coolMs := 0 } }
      else { d with pwr := { w with hotMs := 0, coolMs := w.coolMs + 1 } }
    else { d with pwr := { w with hotMs := 0, coolMs := 0 } }
  if al ≤ t && ! was then (d.fault fThermal d.allParts (srcSensor (d.fld CAR_TMAX 16 6))).tocArrive 288 23 0 (d.fld CAR_TMAX 16 6) 0 false else d

/-- The mean of CAR_POWER over 10 ms against PLIMIT (R592). -/
def Dev.governPower (d : Dev) : Dev :=
  let l := (d.pwr.powers ++ [d.rg CAR_POWER]).drop (d.pwr.powers.length + 1 - 10)
  let lim := d.fld PWR_PLIMIT 0 20
  let sum := l.sum
  if l.length = 10 && 10 * lim < sum then
    { (d.throttle.setFlag PWR_GSTAT 0 true) with pwr := { d.pwr with powers := [], plimMs := 0 } }
  else if d.flag PWR_GSTAT 0 && l.length = 10 && 100 * sum < 950 * lim then
    if d.pwr.plimMs + 1 = 100 then { (d.unthrottle.setFlag PWR_GSTAT 0 false) with pwr := { d.pwr with powers := l, plimMs := 0 } }
    else { d with pwr := { d.pwr with powers := l, plimMs := d.pwr.plimMs + 1 } }
  else { d with pwr := { d.pwr with powers := l, plimMs := 0 } }

/-- The governor's millisecond (R592, R593); `volt` is the voltage monitor found outside its limits, where one is. -/
def Dev.governor (d : Dev) (volt : Option Nat) : Dev :=
  if d.pwr.asleep ≠ 0 || ! d.cal.on then d
  else
    let d := d.governHeat.governPower
    let d := match volt with
      | some i => if d.pwr.volt then d else (d.fault fVoltage d.allParts (srcSensor i)).tocArrive 288 23 0 i 0 false
      | none => d
    let d := { d with pwr := { d.pwr with volt := volt.isSome, warm := d.pwr.warm + natOf (d.pwr.warm < 100) } }
    let d := if d.pwr.warm = 100 && d.flag PWR_GSTAT 3 then
        let d := d.setFlag PWR_GSTAT 3 false
        if d.fld PWR_STATE 8 3 = 0 && ! d.flag PWR_GSTAT 1 then d.setLimit 1 else d
      else d
    d.followPoint

/-! ### Supplies (R646 to R649, R655) -/

/-- VDD_AON comes within its limits, or the device starts again after a brown-out (R646, R647, R649). -/
def Dev.aonValid (d : Dev) : Dev :=
  if d.pins.pwrEn || d.pwr.asleep = 2 then d else { d with pins := { d.pins with pwrEn := true, vid0 := 44, vid1 := 44 } }

/-- VDD_AON is removed (R587, R655). -/
def Dev.aonRemoved (d : Dev) : Dev :=
  let d := (d.lose false false).ddrLose
  { d with pwr := default, pins := default }

/-- PWRGD has been low for 1 µs (R587, R648): power loss while PWR_EN is high, nothing in Ember. -/
def Dev.pwrgdFall (d : Dev) : Dev :=
  if ! d.pins.pwrgd then d
  else if ! d.pins.pwrEn then { d with pins := { d.pins with pwrgd := false } }
  else
    let d := (d.lose true false).ddrLose
    { d with pwr := { d.pwr with asleep := 0, timeIn := 0, rtcIn := 0 }, pins := { d.pins with pwrgd := false } }

/-! ### Commands (R598) -/

def pwrSpec (op : Nat) (len : List Byte → Bool) (ro : Bool) (rsv : List (Nat × Nat)) : CmdSpec :=
  { opcode := op, issuer := .pf, names := false, ro := ro, len := len, rsv := rsv }

def cPowerState : CmdSpec := pwrSpec 0x0B01 (lenIs 8) false (rsvd 1 7)
def Dev.powerState (d : Dev) (_h : Hdr) (pl : List Byte) : Dev × Ans :=
  let t := byteAt pl 0
  let reg (d : Dev) : List Byte := leBytes 4 (d.rg PWR_STATE)
  if 5 ≤ t then (d, .st .denied)
  else if d.pwr.change.isSome || 3 ≤ d.fld PWR_STATE 0 3 then (d, .done .busy 0 (reg d))
  else if 3 ≤ t then
    if (upTo 16).any d.running then (d, .done .busy 0 (reg d))
    else
      let d := d.endAll.setF PWR_STATE 0 3 t
      (d, .done .ok 0 (reg d))
  else
    let d := (d.setF PWR_STATE 4 3 t).followPoint
    if d.pwr.change.isSome then (d, .wait .power) else (d, .done .ok 0 (reg d))

/-- The issuer column of these three names the header's partition. -/
def cPowerVote : CmdSpec := { pwrSpec 0x0B02 (lenIs 24) false (rsvd 1 7) with issuer := .owner }
def Dev.powerVote (d : Dev) (h : Hdr) (pl : List Byte) : Dev × Ans :=
  let p := h.part % 16
  let c := if h.func = 0 && p = 0 then cliHost else cliPart p
  let v := byteAt pl 0
  let xs := maskBits 128 (leAt pl 8 16)
  if 3 ≤ v || xs.any (fun x => ! d.mayVote c x) then (d, .st .denied)
  else (d.forEach xs (fun d x => d.setVote c x v), .st .ok)

def cPowerStatus : CmdSpec := { pwrSpec 0x0B03 (lenIs 0) true [] with issuer := .owner }
def Dev.powerStatus (d : Dev) (h : Hdr) (_pl : List Byte) : Dev × Ans :=
  let see (x : Nat) : Bool := h.func == 0 || (x < 96 && d.owns h.func (x / 6))
  (d, .done .ok 0 (leBytes 4 (d.rg PWR_STATE) ++ leBytes 4 (d.rg PWR_GSTAT) ++ leBytes 4 (if h.func = 0 then d.rg CAR_POWER else 0) ++
    zeros 4 ++ ((upTo 120).map (fun x => leBytes 1 (if see x then d.domLevel x else 0))).flatten))

def cThermalConfig : CmdSpec := pwrSpec 0x0B04 (lenIs 8) false []
def Dev.thermalConfig (d : Dev) (_h : Hdr) (pl : List Byte) : Dev × Ans :=
  let hot := leAt pl 0 2
  let al := leAt pl 2 2
  let lim := leAt pl 4 4
  if sInt 16 al ≤ sInt 16 hot || 1680 < sInt 16 al || lim < 20000 || 110000 < lim then (d, .st .denied)
  else ((d.setR PWR_THERM (65536 * hot + al)).setR PWR_PLIMIT lim, .st .ok)

def cPolicySet : CmdSpec := pwrSpec 0x0B05 (lenIs 8) false (rsvd 1 1 ++ rsvd 4 4)
def Dev.policySet (d : Dev) (_h : Hdr) (pl : List Byte) : Dev × Ans :=
  if 4 ≤ byteAt pl 0 then (d, .st .denied)
  else (((d.setR PWR_POLICY (byteAt pl 0)).setR PWR_NAPCFG (leAt pl 2 2)).forEach (upTo 16) Dev.regionPolicy, .st .ok)

def cRtcAlarm : CmdSpec := pwrSpec 0x0B06 (lenIs 16) false ([(6, 255), (7, 255)] ++ rsvd 9 7)
def Dev.rtcAlarmCmd (d : Dev) (_h : Hdr) (pl : List Byte) : Dev × Ans :=
  let a := leAt pl 0 6
  let d := (d.setR PWR_ALARM_LO (a % 2 ^ 32)).setR PWR_ALARM_HI (a / 2 ^ 32 + 2 ^ 31 * natOf (byteAt pl 8 != 0))
  (d, .done .ok 0 (leBytes 8 d.rtc))

/-- Host scratch of the retained SRAM (R587, R598). -/
def aonRange (off len : Nat) : Bool := 0x1000 ≤ off && off ≤ 0xFFF8 && off % 8 == 0 && off + len ≤ 0x10000

def cAonWrite : CmdSpec :=
  pwrSpec 0x0B07 (fun pl => 8 ≤ pl.length && leAt pl 4 4 % 8 == 0 && pl.length == 8 + leAt pl 4 4) false []
def Dev.aonWrite (d : Dev) (_h : Hdr) (pl : List Byte) : Dev × Ans :=
  let off := leAt pl 0 4
  let l := pl.drop 8
  if ! aonRange off l.length then (d, .st .denied)
  else ({ d with pwr := { d.pwr with sram := memWr d.pwr.sram off l } }, .st .ok)

def cAonRead : CmdSpec := pwrSpec 0x0B08 (lenIs 8) true []
def Dev.aonRead (d : Dev) (_h : Hdr) (pl : List Byte) : Dev × Ans :=
  let off := leAt pl 0 4
  let len := leAt pl 4 4
  if ! aonRange off len || len % 8 ≠ 0 then (d, .st .denied)
  else (d, .done .ok 0 ((upTo len).map (fun i => Memory.read d.pwr.sram (off + i))))

end Sys2Proof.Machine
end

