-- ==== Sys2Proof/Machine/FaultCtl.lean ====
section
/-! DEFINITION. The commands and events of the fault chapter (R602 to R619), and the TAP (R652). -/

namespace Sys2Proof.Machine

/-- At most one alarm flit leaves in a microsecond (R602): the one that waits leaves in a later one. -/
def Dev.alarmPacing (d : Dev) : Dev :=
  match d.alarmQ with
  | some a => if d.alarmUs == some (d.time / 400) then d else d.sendAlarm a
  | none => d

/-- The die bridge has failed (R614): what waits at it is discarded, with `flits` more that were between the dies for port `q`. -/
def Dev.bridgeFailure (d : Dev) (q flits : Nat) : Dev :=
  let d := (d.setFlag FLT_STAT 4 true).bump (FAB_PDISC (q / 4) (q % 4)) flits
  let d := (d.discardOut 8).discardOut 9
  d.fault fBridge (d.allParts.filter (fun p => (d.regionsOf p).any (8 ≤ ·))) 0

/-! ### The TAP (R652) -/

/-- A TAP instruction is loaded: 0 IDCODE, 1 BYPASS, 2 SAMPLE/PRELOAD, 3 EXTEST, 4 CLAMP, 5 HIGHZ (log entry 21). -/
def Dev.tapLoad (d : Dev) (i : Nat) : Dev :=
  let set (d : Dev) (k : Nat) : Dev := { d with pins := { d.pins with tap := k } }
  if i < 3 then set d i
  else if 5 < i || (d.pins.pwrgd && ! bitAt d.pins.straps 4) then set d 1
  else set (if d.pins.pwrgd then d.chokeAll d.allParts fManual else d) i

/-- The TAP is reset: EXTEST, CLAMP and HIGHZ end. -/
def Dev.tapReset (d : Dev) : Dev := { d with pins := { d.pins with tap := 0 } }

/-! ### Commands (R619) -/

def fltSpec (op : Nat) (len : List Byte → Bool) (ro : Bool) (rsv : List (Nat × Nat)) : CmdSpec :=
  { opcode := op, issuer := .pf, names := false, ro := ro, len := len, rsv := rsv }
def fltOwner (op : Nat) (len : List Byte → Bool) (ro : Bool) (rsv : List (Nat × Nat)) : CmdSpec :=
  { fltSpec op len ro rsv with issuer := .owner }

def cFaultStatus : CmdSpec := fltOwner 0x0C01 (lenIs 0) true []
def Dev.faultStatus (d : Dev) (h : Hdr) (_pl : List Byte) : Dev × Ans :=
  (d, .done .ok 0 ((if h.func = 0 then d.regBytes FLT_STAT 8 else zeros 32) ++
    ((upTo 16).map (fun p => leBytes 4 (if h.func = 0 || h.func = p then d.rg (FLT_PMUTE p) else 0))).flatten))

/-- The partitions a PMASK names, none where a virtual function names another's (R619). -/
def pmaskOf (h : Hdr) (pl : List Byte) : Option (List Nat) :=
  let ps := maskBits 16 (leAt pl 0 2)
  if h.func ≠ 0 && ps.any (· != h.func) then none else some ps

def cMuteSet : CmdSpec := fltOwner 0x0C02 (lenIs 8) false (rsvd 2 6)
def Dev.muteSet (d : Dev) (h : Hdr) (pl : List Byte) : Dev × Ans :=
  match pmaskOf h pl with
  | none => (d, .st .denied)
  | some ps => (if ps.isEmpty then d else d.fault fManual ps 0, .st .ok)

/-- Some named bit of partition `p` may not be cleared now (R604). -/
def Dev.muteHeld (d : Dev) (p bits : Nat) : Bool :=
  (bits &&& 0xD2 != 0 && (d.choked p || (d.flag FLT_STAT 4 && (d.regionsOf p).any (8 ≤ ·)))) ||
    (bitAt bits 2 && (d.flag PWR_GSTAT 2 || d.pwr.volt))

def cMuteClear : CmdSpec := fltOwner 0x0C03 (lenIs 8) false (rsvd 3 5)
def Dev.muteClear (d : Dev) (h : Hdr) (pl : List Byte) : Dev × Ans :=
  let bits := byteAt pl 2
  match pmaskOf h pl with
  | none => (d, .st .denied)
  | some ps =>
    let left (d : Dev) : List Byte := leBytes 2 (partMask (ps.filter d.muted)) ++ zeros 6
    if h.func ≠ 0 && bits &&& 0x2C ≠ 0 then (d, .st .denied)
    else if ps.any (fun p => d.muteHeld p bits) then (d, .done .busy 0 (left d))
    else
      let d := d.forEach ps (fun d p => d.setF (FLT_PMUTE p) 0 8 (d.fld (FLT_PMUTE p) 0 8 &&& (0xFF - (bits - bits % 2))))
      (d, .done .ok 0 (left d))

def cChoke : CmdSpec := fltOwner 0x0C04 (lenIs 8) false (rsvd 2 6)
def Dev.chokeCmd (d : Dev) (h : Hdr) (pl : List Byte) : Dev × Ans :=
  match pmaskOf h pl with
  | none => (d, .st .denied)
  | some ps => (d.chokeAll ps fManual, .st .ok)

def cPartScrub : CmdSpec := { fltOwner 0x0C05 (lenIs 0) false [] with names := true, ready := true }
def Dev.partScrub (d : Dev) (h : Hdr) (_pl : List Byte) : Dev × Ans :=
  let p := h.part % 16
  if d.choked p then (d.clearPart p, .st .ok) else (d, .st .busy)

def cFence : CmdSpec := { fltSpec 0x0C06 (lenIs 8) false (rsvd 4 4) with ready := true }
/-- FENCE of a unit that is no N-core, or of a region (R610, R613). -/
def Dev.fenceUnit (d : Dev) (unit r : Nat) : Dev :=
  let d := if unit = 3 then d.forEach (upTo 16) (fun d s => d.fenceAdd (3, r, s)) else d.fenceAdd (unit, r, 0)
  match d.regPart r with
  | some p => (d.gangEnd p r).choke p fCoreFail
  | none => d
def Dev.fenceCmd (d : Dev) (_h : Hdr) (pl : List Byte) : Dev × Ans :=
  let n := leAt pl 0 2
  let unit := byteAt pl 2
  let fl := byteAt pl 3
  if 4 ≤ unit || 2 ≤ fl || (if unit = 0 then 256 ≤ n else 16 ≤ n) then (d, .st .denied)
  else if unit ≠ 0 then
    if 256 < d.fenceList.length + (if unit = 3 then 16 else 1) then (d, .st .noResource)
    else (d.fenceUnit unit n, .done .ok 0 (zeros 8))
  else match d.physOf n with
    | none => (d, .st .fenced)
    | some q =>
      if d.fence.isSome then (d, .st .busy)
      else if 256 ≤ d.fenceList.length then (d, .st .noResource)
      else if ! (d.spares (n / 16)).isEmpty && ! d.entryFree n && ! (d.logPart n).any d.running then (d, .st .busy)
      else ((d.fault fCoreFail (d.logPart n).toList (srcCore q)).fenceBegin n (fl == 1), .wait (.fence n))

def cFenceList : CmdSpec := fltSpec 0x0C07 (lenIs 0) true []
def Dev.fenceListCmd (d : Dev) (_h : Hdr) (_pl : List Byte) : Dev × Ans :=
  (d, .done .ok 0 (leBytes 2 d.fenceList.length ++ zeros 6 ++
    (d.fenceList.map (fun e => leBytes 1 e.1 ++ leBytes 1 e.2.1 ++ leBytes 1 e.2.2 ++ zeros 1)).flatten))

def cFenceClear : CmdSpec := fltSpec 0x0C08 (lenIs 0) false []
def Dev.fenceClear (d : Dev) (_h : Hdr) (_pl : List Byte) : Dev × Ans :=
  ({ d with fenceOld := d.fenceOld ++ d.fenceList, fenceList := [] }, .st .ok)

def cFaultConfig : CmdSpec := fltSpec 0x0C09 (lenIs 24) false (rsvd 6 2 ++ rsvd 19 5)
def Dev.faultConfig (d : Dev) (_h : Hdr) (pl : List Byte) : Dev × Ans :=
  if 2 ≤ byteAt pl 0 || byteAt pl 1 = 0 || (upTo 11).any (fun k => 2 < byteAt pl (8 + k)) then (d, .st .denied)
  else
    let d := d.setR FLT_CFG (2 ^ 31 * byteAt pl 0 + 2 ^ 16 * byteAt pl 1 + 2 ^ 8 * byteAt pl 2 + byteAt pl 3)
    ((d.setR FLT_MUTEOUT (leAt pl 4 2)).forEach (upTo 11) (fun d k => d.setR (FLT_ACT k) (byteAt pl (8 + k))), .st .ok)

def cGpioSafe : CmdSpec := fltSpec 0x0C0A (lenIs 8) false (rsvd 4 4)
def Dev.gpioSafe (d : Dev) (_h : Hdr) (pl : List Byte) : Dev × Ans :=
  if 16 ≤ byteAt pl 0 || 2 ≤ byteAt pl 1 || 16 ≤ byteAt pl 2 || 4 ≤ byteAt pl 3 then (d, .st .denied)
  else (d.setR (FLT_GSAFE (byteAt pl 0)) (256 * byteAt pl 1 + 16 * byteAt pl 2 + byteAt pl 3), .st .ok)

def cSpareReserve : CmdSpec := fltSpec 0x0C0B (lenIs 8) false (rsvd 3 5)
def Dev.spareReserve (d : Dev) (_h : Hdr) (pl : List Byte) : Dev × Ans :=
  let rs := maskBits 16 (leAt pl 0 2)
  let k := byteAt pl 2
  if 4 ≤ k || rs.any (fun r => min (d.goodSites r).length (d.usable - k) = 0) then (d, .st .denied)
  else
    let v := rs.foldl (fun v r => putBits v (2 * r) 2 k) (leNat (SMap.get [] d.car.keepCfg 5))
    let d := (d.setKeep 5 (leBytes 4 v)).setR FLT_RESERVE v
    (d.forEach (rs.filter (fun r => (d.regPart r).isNone)) Dev.fillRemap, .st .ok)

end Sys2Proof.Machine
end

