-- ==== Sys2Proof/Machine/Timers.lean ====
section
/-! DEFINITION. General timers, their captures and the Tocsin's registers (R481 to R503), the ends of pin pulses (R485,
R644). -/

namespace Sys2Proof.Machine

/-! ### Timers (R481 to R486) -/

def Dev.timer (d : Dev) (n : Nat) : TimerX := SMap.get default d.timers n
def Dev.setTimer (d : Dev) (n : Nat) (x : TimerX) : Dev := { d with timers := SMap.set default d.timers n x }
def Dev.timerOwner (d : Dev) (n : Nat) : Nat := d.fld (TAB_TnCTL n) 28 4
/-- Function `f` reaches the registers of timer `n` (R486). -/
def Dev.timerMine (d : Dev) (f n : Nat) : Bool := f == 0 || d.timerOwner n == f

/-- Timer `n` sets STAT bits; a bit whose IE bit is 1 is an arrival at device source n + 1 (R499). -/
def Dev.timerSet (d : Dev) (n bits : Nat) : Dev :=
  let d := d.setR (TAB_TnSTAT n) (d.rg (TAB_TnSTAT n) ||| bits)
  let c := TAB_TnCTL n
  if (bitAt bits 1 && d.flag c 1) || (bitAt bits 2 && d.flag c 2) || (bitAt bits 3 && d.flag c 3) || (bitAt bits 5 && d.flag c 4) then
    d.tocArrive 288 (n + 1) (d.timerOwner n) bits 0 false
  else d

/-- The trigger output of timer `n` after a period event or a CMP0 match (R485); for OUTMODE 3 with both in one tick the
level is free. -/
def Dev.timerOut (d : Dev) (n : Nat) (per cmp : Bool) : Dev :=
  let x := d.timer n
  let m := d.fld (TAB_TnCTL n) 18 2
  if m = 1 && cmp then d.setTimer n { x with out := true, pulse := d.time + 8 }
  else if m = 2 && cmp then d.setTimer n { x with out := ! x.out }
  else if m = 3 && per && cmp then
    let v := d.fresh 1
    v.2.setTimer n { x with out := v.1 == 1 }
  else if m = 3 && (per || cmp) then d.setTimer n { x with out := per }
  else d

/-- The count of timer `n` steps into `v`, by a period event or not: matches, STAT bits, output (R481, R484). -/
def Dev.timerStep (d : Dev) (n v : Nat) (per : Bool) (bits : Nat) : Dev :=
  let d := d.setR (TAB_TnCOUNT n) v
  let hit (a : Nat) : Bool := d.rg a == v && v < d.rg (TAB_TnPERIOD n)
  let c0 := hit (TAB_TnCMP0 n)
  let c1 := hit (TAB_TnCMP1 n)
  let d := if per && d.flag (TAB_TnCTL n) 0 then d.setFlag (TAB_TnSTAT n) 0 false else d
  (d.timerOut n per c0).timerSet n (bits + 2 * natOf per + 4 * natOf c0 + 8 * natOf c1)

/-- START (R482). -/
def Dev.timerStart (d : Dev) (f n : Nat) : Dev :=
  if ! d.timerMine f n then d.addrErr
  else
    let d := (d.setR (TAB_TnSNAP n) (d.rg (TAB_TnCOUNT n))).setFlag (TAB_TnSTAT n) 0 false
    ((d.advance 1).setR (TAB_TnCOUNT n) 0).setFlag (TAB_TnSTAT n) 0 true

/-- STOP (R482). -/
def Dev.timerStop (d : Dev) (f n : Nat) : Dev :=
  if ! d.timerMine f n then d.addrErr else (d.setFlag (TAB_TnSTAT n) 0 false).advance 1

/-- A write of TAB_TnPERIOD (R483). -/
def Dev.timerPeriod (d : Dev) (f n v : Nat) : Dev :=
  let v := v % 2 ^ 32
  if ! d.timerMine f n then d.addrErr
  else if v < 2 then d.setFlag (TAB_TnSTAT n) 7 true
  else
    let c := d.rg (TAB_TnCOUNT n)
    let d := d.setR (TAB_TnPERIOD n) v
    if d.flag (TAB_TnSTAT n) 0 && v ≤ c then (d.advance 1).timerStep n 0 true 16 else d

/-- A write of TAB_TnCMP0 (`k` 0) or TAB_TnCMP1 (R484). -/
def Dev.timerCompare (d : Dev) (f n k v : Nat) : Dev :=
  if ! d.timerMine f n then d.addrErr else d.setR (if k = 0 then TAB_TnCMP0 n else TAB_TnCMP1 n) v

/-- A write of TAB_TnCTL: only the physical function changes OWNER, and only while the timer is stopped (R486). -/
def Dev.timerCtl (d : Dev) (f n v : Nat) : Dev :=
  let own := if f = 0 then bitsOf v 28 4 else d.timerOwner n
  if own ≠ d.timerOwner n && d.flag (TAB_TnSTAT n) 0 then d.setFlag (TAB_TnSTAT n) 7 true
  else d.setR (TAB_TnCTL n) (putBits (v &&& 0xF0FF3FF) 28 4 own)

/-- The period event of a running timer whose next event it is: time passes up to it (R481). -/
def Dev.timerPeriodEvent (d : Dev) (n : Nat) : Dev :=
  let per := d.rg (TAB_TnPERIOD n)
  if d.flag (TAB_TnSTAT n) 0 && d.timerNext n = per then
    (d.advance (per - d.rg (TAB_TnCOUNT n))).timerStep n 0 true 0
  else d

/-- The count of a running timer steps into compare value `k`, its next event (R484). -/
def Dev.compareMatch (d : Dev) (n k : Nat) : Dev :=
  let v := d.rg (if k = 0 then TAB_TnCMP0 n else TAB_TnCMP1 n)
  let c := d.rg (TAB_TnCOUNT n)
  if d.flag (TAB_TnSTAT n) 0 && c < v && v < d.rg (TAB_TnPERIOD n) && d.timerNext n = v then
    (d.advance (v - c)).timerStep n v false 0
  else d

/-- The trigger pulse of OUTMODE 1 ends 8 ticks after its match (R485). -/
def Dev.pulseEnd (d : Dev) (n : Nat) : Dev :=
  let x := d.timer n
  if d.fld (TAB_TnCTL n) 18 2 = 1 && x.out then (d.advance (x.pulse - d.time)).setTimer n { x with out := false } else d

/-- PPS_OUT goes low 100 ms after its edge (R644). -/
def Dev.ppsPulseEnd (d : Dev) : Dev :=
  if d.pins.ppsOut then
    let d := d.advance (40000000 - d.time % 400000000)
    { d with pins := { d.pins with ppsOut := false } }.emit (.pin 1 0)
  else d

/-! ### Captures (R487 to R489) -/

/-- Timer `n` meets an edge of its CAPSRC input. -/
def Dev.capture (d : Dev) (n : Nat) (rising : Bool) : Dev :=
  let e := d.fld (TAB_TnCTL n) 16 2
  if e = 0 || 17 < d.fld (TAB_TnCTL n) 5 5 || (e = 1 && ! rising) || (e = 2 && rising) then d
  else
    let x := d.timer n
    if 8 ≤ x.caps.length then (d.bump (TAB_TnCAPLOST n) 1).setFlag (TAB_TnSTAT n) 6 true
    else
      let w := 2 ^ 63 + natOf rising * 2 ^ 62 + d.time % 2 ^ 48
      ((d.setTimer n { x with caps := x.caps ++ [w] }).setF (TAB_TnSTAT n) 16 4 (x.caps.length + 1)).timerSet n 32

/-- The latch of function `f` for the register at `a` (R15). -/
def Dev.latched (d : Dev) (f a : Nat) : Nat := SMap.get 0 d.latch (2 ^ 32 * f + a)
def Dev.setLatch (d : Dev) (f a v : Nat) : Dev := { d with latch := SMap.set 0 d.latch (2 ^ 32 * f + a) v }

/-- A read of TAB_TnCAP_LO latches the high half of the head (R488). -/
def Dev.capLo (d : Dev) (f n : Nat) : Dev × Nat :=
  let w := (d.timer n).caps.headD 0
  (d.setLatch f (TAB_TnCAP_HI n) (w / 2 ^ 32), w % 2 ^ 32)

/-- A read of TAB_TnCAP_HI returns the latch; with VALID it removes the head (R488). -/
def Dev.capHi (d : Dev) (f n : Nat) : Dev × Nat :=
  let v := d.latched f (TAB_TnCAP_HI n)
  let x := d.timer n
  (if bitAt v 31 then (d.setTimer n { x with caps := x.caps.drop 1 }).setF (TAB_TnSTAT n) 16 4 (x.caps.length - 1) else d, v)

/-- What a function reads goes back to it (R458). -/
def Dev.answerRead (x : Dev × Nat) (f : Nat) : Dev := x.1.emit (.hostData f (leBytes 4 x.2))

def Dev.capLoRead (d : Dev) (f n : Nat) : Dev := Dev.answerRead (if d.timerMine f n then d.capLo f n else (d, 0)) f
def Dev.capHiRead (d : Dev) (f n : Nat) : Dev := Dev.answerRead (if d.timerMine f n then d.capHi f n else (d, 0)) f

/-! ### The Tocsin's registers (R490 to R503) -/

/-- The source a claim would take: the highest PRIO, then the lowest number (R495). -/
def Dev.tocBest (d : Dev) (i : Nat) : Option Nat :=
  (d.tocReady i).foldl (fun b s => match b with
    | none => some s
    | some t => if d.fld (TOC_SRC i t) 4 3 < d.fld (TOC_SRC i s) 4 3 then some s else b) none

/-- What TOC_CLAIM reads as (R495, R505). -/
def Dev.claimValue (d : Dev) (i : Nat) : Nat :=
  match d.tocBest i with
  | none => 0
  | some s => 2 ^ 31 + d.fld (TOC_SRC i s) 16 8 * 2 ^ 16 + d.fld (TOC_SRC i s) 4 3 * 2 ^ 8 + s

/-- PEND and COUNT of source `s` are cleared; source 0 stays pending while records remain (R492). -/
def Dev.tocClear (d : Dev) (i s : Nat) : Dev :=
  if s = 0 && ! (d.tocQueue i).isEmpty then d
  else ((d.setFlag (TOC_PEND i) s false).setF (TOC_SRC i s) 16 8 0).tocLetGo i (2 ^ s)

/-- A claim (R495). -/
def Dev.claim (d : Dev) (i : Nat) : Dev × Nat :=
  match d.tocBest i with
  | none => (d, 0)
  | some s =>
    let n := d.fld (TOC_STACK i) 24 4
    let v := d.claimValue i
    let pr := d.fld (TOC_SRC i s) 4 3
    let d := ((d.tocClear i s).setF (TOC_STACK i) (3 * n) 3 pr).setF (TOC_STACK i) 24 4 (n + 1)
    (d.tocUpdate i, v)

/-- A write of TOC_EOI with its bit 1 (R496). -/
def Dev.eoi (d : Dev) (i : Nat) : Dev :=
  let n := d.fld (TOC_STACK i) 24 4
  if n = 0 then d.setFlag (TOC_STAT i) 3 true
  else ((d.setF (TOC_STACK i) (3 * (n - 1)) 3 0).setF (TOC_STACK i) 24 4 (n - 1)).tocUpdate i

/-- A write of `v` to TOC_PEND (R492). -/
def Dev.pendClear (d : Dev) (i v : Nat) : Dev :=
  (d.forEach ((maskBits 32 v).filter (fun s => d.flag (TOC_PEND i) s)) (fun d s => d.tocClear i s)).tocUpdate i

/-- The 32 bytes of a Tocsin record (R500). -/
def TocRec.bytes (x : TocRec) : List Byte :=
  leBytes 1 x.kind ++ leBytes 1 (x.source % 32) ++ leBytes 1 (x.part % 16) ++ zeros 1 ++ leBytes 2 x.origin ++ zeros 2 ++
    leBytes 8 (x.time % 2 ^ 48) ++ leBytes 4 x.data0 ++ zeros 4 ++ leBytes 8 x.data1

/-- Word `w` of the window on the head record of queue `k` (R501). -/
def Dev.tocHead (d : Dev) (k w : Nat) : Nat :=
  match d.tocQueue k with
  | [] => 0
  | x :: _ => leAt x.bytes (4 * w) 4

/-- The last word of the window of queue `k` is read: the head leaves (R501). -/
def Dev.tocPop (d : Dev) (k : Nat) : Dev × Nat :=
  let v := d.tocHead k 7
  let q := d.tocQueue k
  if q.isEmpty then (d, 0)
  else
    let d := d.setTocQueue k (q.drop 1)
    (if k < 289 then d.tocUpdate k else d, v)

end Sys2Proof.Machine
end

