-- ==== Sys2Proof/Machine/Carillon.lean ====
section
/-! DEFINITION. Carillon: ring registers, the log's summaries, sensors, watchdog and restarts, identity, updates, SMBus and
MCTP, and the 0x0Exx commands (R508 to R551). -/

namespace Sys2Proof.Machine

/-! ### The doorbell block (R508, R511, R519, R550) -/

/-- Function `f` exists and its BAR accesses reach the device: no FLR, reset or D3hot stops them (R473 to R475). -/
def Dev.barOpen (d : Dev) (f : Nat) : Bool :=
  d.fnExists f && ! (d.fn f).flr && ! d.pins.perst && ! (f == 0 && d.d3hot)

/-- The responses of function `f` that wait are discarded (R520). -/
def Dev.dropResps (d : Dev) (f : Nat) : Dev := (d.setFn f { d.fn f with resps := [] }).rrUpdate f

/-- A write of CAR_CRCFG (`k` 0) or CAR_RRCFG (`k` 1) of function `f` (R550). -/
def Dev.bellCfg (d : Dev) (f k v : Nat) : Dev :=
  let a := if k = 0 then CAR_CRCFG f else CAR_RRCFG f
  if d.flag a 31 then
    if bitAt v 31 then d
    else
      let d := d.setFlag a 31 false
      if k = 0 then d else d.dropResps f
  else if v % 32 < 12 || 20 < v % 32 then d
  else
    let d := d.setF a 0 5 v
    if ! bitAt v 31 then d
    else
      let d := (d.setFlag a 31 true).setFlag (CAR_BSTAT f) 4 false
      if k = 0 then
        ((d.setR (CAR_CRHEAD f) 0).setR (CAR_CRTAIL f) 0).setFn f { d.fn f with lastSeq := none }
      else ((d.setR (CAR_RRHEAD f) 0).setR (CAR_RRTAIL f) 0).rrUpdate f

/-- A write of CAR_CRTAIL, the command doorbell: in Vigil it is held until the exit (R511, R584). -/
def Dev.crtail (d : Dev) (f v : Nat) : Dev :=
  if d.pwr.asleep = 1 then { d with pwr := { d.pwr with tails := SMap.set none d.pwr.tails f (some (v % 2 ^ 32)) } }
  else d.setR (CAR_CRTAIL f) v

/-- A write of CAR_RRTAIL frees room (R519). -/
def Dev.rrtail (d : Dev) (f v : Nat) : Dev := (d.setR (CAR_RRTAIL f) v).rrUpdate f

/-- A write of a ring base register is ignored while its ring is enabled (R550). -/
def Dev.bellBase (d : Dev) (f k a v : Nat) : Dev :=
  if d.flag (if k = 0 then CAR_CRCFG f else CAR_RRCFG f) 31 then d else d.setR a v

/-- The rows of these writes by function `f` through its BAR0. -/
def Dev.crtailWrite (d : Dev) (f v : Nat) : Dev := if d.pwr.asleep ≤ 1 && d.barOpen f then d.crtail f v else d
def Dev.rrtailWrite (d : Dev) (f v : Nat) : Dev := if d.pwr.asleep = 0 && d.barOpen f then d.rrtail f v else d
def Dev.bellCfgWrite (d : Dev) (f k v : Nat) : Dev := if d.pwr.asleep = 0 && d.barOpen f then d.bellCfg f k v else d

/-- Carillon writes the oldest waiting response of function `f` (R510, R517, R519): pad, payload and header, then
CAR_RRHEAD, then vector 0 unless NOIRQ is set. -/
def Dev.writeResp (d : Dev) (f : Nat) : Dev :=
  match (d.fn f).resps with
  | [] => d
  | x :: rest =>
    if d.pwr.asleep ≠ 0 || (f = 0 && d.d3hot) || ! d.flag (CAR_RRCFG f) 31 then d
    else if ! d.rrFits f then d.rrUpdate f
    else
      let base := d.rg64 (CAR_RRBASE_LO f)
      let pad := d.rrPad f x.units
      let head := d.rg (CAR_RRHEAD f)
      let n := d.rrUnits f
      let d := if pad = 0 then d else d.emit (.hostWrite f (base + 64 * (head % n)) (zeros 2 ++ leBytes 2 pad ++ zeros 28))
      let head := (head + pad) % 2 ^ 32
      let d := d.emit (.hostWrite f (base + 64 * (head % n)) (respBytes x.opcode x.hdr x.status x.detail x.pl))
      let d := (d.setR (CAR_RRHEAD f) (head + x.units)).setFn f { d.fn f with resps := rest }
      let d := if bitAt x.hdr.flags 1 then d else d.sendMsix f 0
      (d.rrUpdate f).sleepNow

/-! ### The log (R525, R526) -/

/-- SUMMARY records of the sources with suppressed records (R526). -/
def Dev.summary (d : Dev) : Dev :=
  d.forEach d.car.supp (fun d (x : Nat × Nat) =>
    let k := SMap.get 0 d.car.suppKind x.1
    let d := { d with car := { d.car with supp := SMap.set 0 d.car.supp x.1 0, suppKind := SMap.set 0 d.car.suppKind x.1 0 } }
    d.log x.1 2 0 0xFF (leBytes 2 k) x.2)

/-! ### Sensors (R531, R532) -/

/-- A reading of sensor `i`. -/
def Dev.sens (d : Dev) (i : Nat) : Nat := d.fld (CAR_SENS i) 0 16
/-- Sensor `i` exists, and is a temperature sensor (R532). -/
def isSensor (i : Nat) : Bool := i < 37 || (64 ≤ i && i < 104)
def isTemp (i : Nat) : Bool := i < 37
/-- The monitored voltage of the rail of current sensor 96 + k, in mV: the mean of its points. -/
def Dev.railMv (d : Dev) (k : Nat) : Nat :=
  let pts := match k with
    | 0 => [64, 65, 66, 67, 68, 69, 70, 71]
    | 1 => [72, 73, 74, 75, 76, 77, 78, 79]
    | 2 => [80, 81, 82, 83, 95]
    | 3 => [84, 85, 86, 87, 93, 94]
    | 4 => [88]
    | 5 => [89]
    | 6 => [90]
    | _ => [91]
  (pts.map d.sens).sum / pts.length

/-- CAR_TMAX: the hottest temperature sensor, the lowest index of equals. -/
def Dev.hottest (d : Dev) : Nat :=
  (upTo 37).foldl (fun b i => if sInt 16 (d.sens b) < sInt 16 (d.sens i) then i else b) 0

/-- Every sensor is sampled (R531): `vals` the readings by index, `out` the sensors outside their configured range, whose
changes are logged (R523). -/
def Dev.sensorSample (d : Dev) (vals : List (Nat × Nat)) (out : List Nat) : Dev :=
  if d.pwr.asleep ≠ 0 || ! d.flag CAR_STAT 0 then d
  else
    let d := d.forEach (vals.filter (fun x => isSensor x.1)) (fun d x => d.setR (CAR_SENS x.1) (x.2 % 65536))
    let d := d.setR CAR_POWER (((upTo 8).map (fun k => d.sens (96 + k) * d.railMv k)).sum / 1000)
    let d := d.setR CAR_TMAX (d.hottest * 65536 + d.sens d.hottest)
    d.forEach ((upTo 104).filter isSensor) (fun d i =>
      let o := out.contains i
      if SMap.get false d.car.sensOut i = o then d
      else
        let d := { d with car := { d.car with sensOut := SMap.set false d.car.sensOut i o } }
        let x := d.openData
        x.2.log (srcSensor i) 8 0 0xFF x.1)

/-- Function `f`, or SMBus and MCTP, reads sensor `i`: a virtual function reads those of its regions (R532). -/
def Dev.sensSeen (d : Dev) (f i : Nat) : Nat :=
  if f = 0 || f = 0xFE || (i < 32 && d.regPart (i / 2) == some f) then d.rg (CAR_SENS i) else 0

/-! ### Restarts (R541 to R544) -/

/-- A restart begins: every started command ends INCOMPLETE and READY reads 0 (R542). -/
def Dev.restartBegin (d : Dev) : Dev :=
  let d := d.endAll.setFlag CAR_STAT 0 false
  { d with car := { d.car with restart := true } }

/-- The restart ends: the boot ROM loads the directory's slot, an interrupted fence is put right, and Bellpull goes on from
the present indices (R539, R542, R612). -/
def Dev.restartEnd (d : Dev) : Dev :=
  if ! d.car.restart || d.pwr.asleep ≠ 0 then d
  else
    let d := { d with car := { d.car with restart := false } }
    let d := (d.setFlag CAR_STAT 7 false).bootImage (d.car.trial.getD d.car.active)
    let run := natOf (d.flag CAR_STAT 3)
    let d := d.setFlag CAR_STAT 4 (! d.flag CAR_STAT 7 && d.car.trial == some run)
    d.fenceRestart.setFlag CAR_STAT 0 true

/-- What a watchdog expiry and a failed digest do (R544): every partition is Muted by the fault of `code`, a WATCHDOG record
of SEV FATAL, CAR_WDCNT, and a restart into the same slot or out of a trial. -/
def Dev.watchdog (d : Dev) (code : Nat) : Dev :=
  if ! d.flag CAR_STAT 0 || d.pwr.asleep ≠ 0 then d
  else
    let d := d.fault code d.allParts 0
    let x := d.openData
    let d := ((x.2.log 0 7 4 0xFF x.1).bump CAR_WDCNT 1).setFlag CAR_STAT 1 true
    d.endTrial.restartBegin

/-- The digest of the running image is computed again (R544). -/
def Dev.digestCheck (d : Dev) (same : Bool) : Dev := if same then d else d.watchdog fSignature

/-- A trial not committed within its time ends (R541). -/
def Dev.trialTimeout (d : Dev) : Dev :=
  if d.car.trial.isNone || d.pwr.asleep ≠ 0 then d else ((d.advance (d.car.trialEnd - d.time)).endTrial).restartBegin

/-! ### The 0x0Exx commands (R551) -/

def carSpec (op : Nat) (len : List Byte → Bool) (ro : Bool) (rsv : List (Nat × Nat)) : CmdSpec :=
  { opcode := op, issuer := .pf, names := false, ro := ro, len := len, rsv := rsv }

/-- The part record with its signature (R533). -/
def Dev.partBytes (d : Dev) : List Byte := slice d.car.partRec 0 (d.partLen + 4627)

def cIdRead : CmdSpec :=
  { carSpec 0x0E01 (lenIs 0) true [] with issuer := .any, recov := true, mctp := true }
def Dev.idRead (d : Dev) (_h : Hdr) (_pl : List Byte) : Dev × Ans :=
  (d, .done .ok 0 (leBytes 8 d.serial ++ leBytes 1 (natOf (d.flag CAR_STAT 5)) ++ zeros 3 ++
    leBytes 4 (d.partLen + 4627) ++ d.publicKey ++ d.partBytes))

/-- ATTEST names a partition for SCOPE 0, and is served over MCTP with device scope (R547). -/
def cAttest (pl : List Byte) : CmdSpec :=
  { carSpec 0x0E02 (lenIs 72) false (rsvd 1 7) with
    issuer := .any, names := byteAt pl 0 == 0, ready := byteAt pl 0 == 0, mctp := byteAt pl 0 == 1 }
/-- Bytes 0 to 383 of an attestation report (R537). -/
def Dev.report (d : Dev) (part : Option Nat) (nonce : List Byte) : List Byte :=
  leBytes 4 0x52545441 ++ leBytes 2 1 ++ leBytes 1 (part.getD 0xFF) ++
    leBytes 1 (natOf (d.flag CAR_STAT 3) + 2 * natOf (d.flag CAR_STAT 4) + 4 * natOf (bitAt d.pins.straps 4)) ++
    leBytes 8 d.serial ++ leBytes 8 d.time ++ leBytes 4 d.rollback ++ leBytes 4 (d.rg CAR_FWVER) ++ padTo 64 nonce ++
    padTo 64 (Config.sha3_512 Config.bootRom) ++ padTo 64 d.car.mfw ++ padTo 64 (Config.sha3_512 d.partBytes) ++
    (match part with
      | some p => padTo 64 (SMap.get [] d.car.mcfg p)
      | none => zeros 64) ++ zeros 32
def Dev.attest (d : Dev) (h : Hdr) (pl : List Byte) : Dev × Ans :=
  let sc := byteAt pl 0
  if 2 ≤ sc || (sc = 1 && h.func ≠ 0 && h.func ≠ 0xFE) then (d, .st .denied)
  else if d.flag CAR_STAT 5 then (d, .st .signatureFail)
  else
    let x := d.openData
    let r := d.report (if sc = 0 then some h.part else none) (slice pl 8 64)
    (x.2, .done .ok 0 (r ++ padTo 4627 (Config.mldsaSign d.seed r x.1)))

def cSensorRead : CmdSpec :=
  { carSpec 0x0E03 (lenIs 8) true (rsvd 2 6) with issuer := .any, recov := true, mctp := true }
def Dev.sensorRead (d : Dev) (h : Hdr) (pl : List Byte) : Dev × Ans :=
  let a := byteAt pl 0
  let n := byteAt pl 1
  if n = 0 || 104 < a + n then (d, .st .badLength)
  else (d, .done .ok 0 (((upTo n).map (fun i => leBytes 4 (d.sensSeen h.func (a + i)))).flatten))

def cLogRead : CmdSpec := { carSpec 0x0E04 (lenIs 16) true (rsvd 1 3) with recov := true }
def Dev.logRead (d : Dev) (_h : Hdr) (pl : List Byte) : Dev × Ans :=
  let b := leAt pl 4 4
  let n := leAt pl 8 4
  if 2 ≤ byteAt pl 0 then (d, .st .denied)
  else
    let all := if byteAt pl 0 = 0 then d.car.log else d.car.journal.filter (fun x => x.kind != 0)
    let xs := (all.filter (fun x => b < x.boot || (x.boot == b && n ≤ x.seq))).take (leAt pl 12 4)
    (d, .done .ok 0 (leBytes 4 xs.length ++ zeros 4 ++ (xs.map LogRec.bytes).flatten))

def cFfRead : CmdSpec := { carSpec 0x0E05 (lenIs 0) true [] with recov := true, mctp := true }
def Dev.ffRead (d : Dev) (_h : Hdr) (_pl : List Byte) : Dev × Ans :=
  (d, .done .ok 0 (leBytes 4 d.car.ff.length ++ zeros 4 ++ (d.car.ff.map LogRec.bytes).flatten))

def cFfClear : CmdSpec := carSpec 0x0E06 (lenIs 8) false (rsvd 2 6)
def Dev.ffClear (d : Dev) (_h : Hdr) (pl : List Byte) : Dev × Ans :=
  let i := leAt pl 0 2
  let ff := if i = 0xFFFF then [] else removeAt d.car.ff i
  if i ≠ 0xFFFF && d.car.ff.length ≤ i then (d, .st .denied)
  else ({ d with car := { d.car with ff := ff } }.setF CAR_FFCOUNT 0 9 ff.length, .st .ok)

def cLogStatus : CmdSpec := { carSpec 0x0E07 (lenIs 0) true [] with recov := true, mctp := true }
def Dev.logStatus (d : Dev) (_h : Hdr) (_pl : List Byte) : Dev × Ans := (d, .done .ok 0 (d.regBytes CAR_BOOT 8))

/-- The slot that is not running (R540). -/
def Dev.idleSlot (d : Dev) : Nat := 1 - natOf (d.flag CAR_STAT 3)
/-- The largest image a slot takes. -/
def slotMax : Nat := Config.flashBytes / 2 - 2 ^ 20
def Dev.setImage (d : Dev) (s : Nat) (x : List Byte) : Dev :=
  { d with car := if s = 0 then { d.car with imgA := x } else { d.car with imgB := x } }

def updSpec (op : Nat) (len : List Byte → Bool) (ro : Bool) (rsv : List (Nat × Nat)) : CmdSpec :=
  { carSpec op len ro rsv with recov := true }

def cUpdateBegin : CmdSpec := updSpec 0x0E08 (lenIs 8) false []
def Dev.updateBegin (d : Dev) (_h : Hdr) (pl : List Byte) : Dev × Ans :=
  let n := leAt pl 0 8
  if d.car.update.isSome || d.car.trial.isSome then (d, .st .busy)
  else if slotMax < n then (d, .st .denied)
  else
    let d := (d.setImage d.idleSlot []).setFlag CAR_STAT 2 true
    ({ d with car := { d.car with update := some n, verified := false, wrote := [] } }.updateRec 0, .st .ok)

def cUpdateData : CmdSpec :=
  updSpec 0x0E09 (fun pl => 16 ≤ pl.length && pl.length == 16 + leAt pl 8 4 && 1 ≤ leAt pl 8 4 && leAt pl 8 4 ≤ 65536) false (rsvd 12 4)
def Dev.updateData (d : Dev) (_h : Hdr) (pl : List Byte) : Dev × Ans :=
  let off := leAt pl 0 8
  let n := leAt pl 8 4
  match d.car.update with
  | none => (d, .st .busy)
  | some len =>
    if off % 256 ≠ 0 || len < off + n then (d, .st .denied)
    else
      let img := d.image d.idleSlot
      let img := splice (padTo (max img.length (off + n)) img) off (slice pl 16 n)
      let d := d.setImage d.idleSlot img
      ({ d with car := { d.car with verified := false, wrote := d.car.wrote ++ [(off, n)] } }.updateRec 0, .st .ok)

/-- The ranges written cover bytes `a` to `n` − 1; `k` bounds the search. -/
def wroteAll (w : List (Nat × Nat)) (n : Nat) : Nat → Nat → Bool
  | 0, a => n ≤ a
  | k + 1, a =>
    if n ≤ a then true
    else match w.find? (fun x => x.1 ≤ a && a < x.1 + x.2) with
      | some x => wroteAll w n k (x.1 + x.2)
      | none => false

def cUpdateVerify : CmdSpec := updSpec 0x0E0A (lenIs 0) false []
def Dev.updateVerify (d : Dev) (_h : Hdr) (_pl : List Byte) : Dev × Ans :=
  let x := d.image d.idleSlot
  match d.car.update with
  | none => (d, .st .incomplete)
  | some n =>
    if ! wroteAll d.car.wrote n d.car.wrote.length 0 then (d, .st .incomplete)
    else if ! imageSigned x then (d, .st .signatureFail)
    else if imgSvn x < d.rollback then (d, .st .rollback)
    else ({ d with car := { d.car with verified := true } }.updateRec 0, .done .ok 0 (leBytes 4 (imgFwver x) ++ leBytes 4 (imgSvn x)))

def cUpdateActivate : CmdSpec := updSpec 0x0E0B (lenIs 8) false (rsvd 4 4)
def Dev.updateActivate (d : Dev) (_h : Hdr) (pl : List Byte) : Dev × Ans :=
  let s := leAt pl 0 4
  if ! d.car.verified || s = 0 || 3600 < s then (d, .st .denied)
  else
    let d := { d with car := { d.car with trial := some d.idleSlot, trialEnd := d.time + s * 400000000, update := none,
                                          verified := false, wrote := [], restart := true } }
    ((d.setFlag CAR_STAT 2 false).updateRec 0, .st .ok)

/-- UPDATE_ACTIVATE's restart, once the command has completed. -/
def Dev.activated (d : Dev) : Dev := if d.car.restart && d.flag CAR_STAT 0 then d.restartBegin else d

def cUpdateCommit : CmdSpec := updSpec 0x0E0C (lenIs 0) false []
def Dev.updateCommit (d : Dev) (_h : Hdr) (_pl : List Byte) : Dev × Ans :=
  if ! d.flag CAR_STAT 4 then (d, .st .denied)
  else
    let n := max d.rollback (d.rg CAR_SVN)
    let d := ((d.setKeep 7 (leBytes 4 n)).setR CAR_ROLLBACK n).setFlag CAR_STAT 4 false
    ({ d with car := { d.car with active := d.car.trial.getD d.car.active, trial := none, trialEnd := 0 } }.updateRec 0,
      .done .ok 0 (leBytes 4 n))

def cUpdateStatus : CmdSpec := { updSpec 0x0E0D (lenIs 0) true [] with mctp := true }
def Dev.updateStatus (d : Dev) (_h : Hdr) (_pl : List Byte) : Dev × Ans :=
  let st := if d.car.trial.isSome then 3 else if d.car.verified then 2 else if d.car.update.isSome then 1 else 0
  let left := if d.car.trial.isSome then (d.car.trialEnd - d.time) / 400000000 else 0
  let both (f : List Byte → Nat) : List Byte := leBytes 4 (f d.car.imgA) ++ leBytes 4 (f d.car.imgB)
  (d, .done .ok 0 (leBytes 1 st ++ leBytes 1 (natOf (d.flag CAR_STAT 3)) ++ zeros 2 ++ leBytes 4 left ++ both imgFwver ++
    both imgSvn))

/-! ### SMBus and MCTP (R545 to R547) -/

/-- The port answers: the device is powered and awake. -/
def Dev.smbus (d : Dev) (port : Nat) (pec : Bool) (l : List Byte) : Dev :=
  if ! pec || d.pwr.asleep = 2 || 2 ≤ port then d else d.emit (.smbus port l)

/-- Command 0x10: the highest temperature. -/
def Dev.smbTmax (d : Dev) (port : Nat) (pec : Bool) : Dev := d.smbus port pec (leBytes 2 (d.fld CAR_TMAX 0 16))

/-- Command 0x11: the temperature of the index written; the value for an index without a temperature sensor is free. -/
def Dev.smbSensor (d : Dev) (port idx : Nat) (pec : Bool) : Dev :=
  if ! pec || d.pwr.asleep = 2 || 2 ≤ port then d
  else
    let d := { d with car := { d.car with smbIdx := SMap.set 0 d.car.smbIdx port (idx % 256) } }
    if isTemp (idx % 256) then d.smbus port pec (leBytes 2 (d.sens (idx % 256)))
    else
      let v := d.fresh 16
      v.2.smbus port pec (leBytes 2 v.1)

/-- Command 0x12: CAR_POWER. -/
def Dev.smbPower (d : Dev) (port : Nat) (pec : Bool) : Dev := d.smbus port pec (leBytes 4 (d.rg CAR_POWER))

/-- Command 0x13: the status byte. -/
def Dev.smbStatus (d : Dev) (port : Nat) (pec : Bool) : Dev :=
  d.smbus port pec (leBytes 1 (natOf (d.flag CAR_STAT 0) + 2 * natOf (d.flag FLT_STAT 0) + 4 * natOf (d.flag FLT_STAT 2) +
    8 * natOf (d.flag CAR_STAT 7) + 16 * natOf (d.flag CAR_STAT 5)))

/-- Set Endpoint ID from the bus owner (R546). -/
def Dev.setEid (d : Dev) (port eid : Nat) : Dev :=
  if eid = 0 || 255 ≤ eid then d.smbus port true (leBytes 1 2)
  else { d with car := { d.car with eid := SMap.set 0 d.car.eid port eid } }.smbus port true (leBytes 1 0 ++ zeros 1 ++ leBytes 1 eid ++ zeros 1)

/-- Get Endpoint ID. -/
def Dev.getEid (d : Dev) (port : Nat) : Dev :=
  d.smbus port true (leBytes 1 0 ++ leBytes 1 (SMap.get 0 d.car.eid port) ++ zeros 2)

/-- Get MCTP Version Support: one version entry, whose value the spec does not give. -/
def Dev.mctpVersion (d : Dev) (port : Nat) : Dev :=
  let v := d.fresh 32
  v.2.smbus port true (leBytes 1 0 ++ leBytes 1 1 ++ leBytes 4 v.1)

/-- Get Message Type Support: the vendor-defined type identified by a PCI vendor identifier. -/
def Dev.mctpTypes (d : Dev) (port : Nat) : Dev := d.smbus port true (leBytes 1 0 ++ leBytes 1 1 ++ leBytes 1 0x7E)

/-- Get Vendor Defined Message Support: Finlor's PCI vendor identifier; the command set's version is not given. -/
def Dev.mctpVendor (d : Dev) (port : Nat) : Dev :=
  let v := d.fresh 16
  v.2.smbus port true (leBytes 1 0 ++ leBytes 1 0xFF ++ leBytes 1 0 ++ beBytes 2 Config.vendorId ++ leBytes 2 v.1)

end Sys2Proof.Machine
end

