-- ==== Sys2Proof/Machine/CmdCarillon.lean ====
section
/-! DEFINITION. The ring writes, commands and events of the Carillon chapter, but the taking of a command. -/

namespace Sys2Proof.Machine

/-- CAR_CRTAIL_WRITE (R511): Write of the command ring producer index, the command doorbell. -/
def execCarCrtailWrite (f : Nat) (v : Nat) (s : State) : Outcome := s.run (·.crtailWrite f v)
/-- RESPONSE_WRITE (R517): Carillon writes a response to the response ring when room allows. -/
def execResponseWrite (f : Nat) (s : State) : Outcome := s.run (·.writeResp f)
/-- CAR_RING_CFG_WRITE (R550): Write of CAR_CRCFG or CAR_RRCFG enabling or disabling a Bellpull ring. -/
def execCarRingCfgWrite (f : Nat) (k : Nat) (v : Nat) (s : State) : Outcome := s.run (·.bellCfgWrite f k v)
/-- CAR_RRTAIL_WRITE (R519): Write of the response consumer index, freeing room for waiting responses. -/
def execCarRrtailWrite (f : Nat) (v : Nat) (s : State) : Outcome := s.run (·.rrtailWrite f v)
/-- SUMMARY (R526): Every 100 ms Carillon writes SUMMARY records for suppressed sources. -/
def execSummary (s : State) : Outcome := s.run (·.summary)
/-- SENSOR_SAMPLE (R531): Each millisecond Carillon samples every sensor. -/
def execSensorSample (vals : List (Nat × Nat)) (out : List Nat) (s : State) : Outcome := s.run (·.sensorSample vals out)
/-- WATCHDOG_EXPIRY (R544): The 100 ms watchdog expires; partitions Mute and Carillon restarts. -/
def execWatchdogExpiry (s : State) : Outcome := s.run (·.watchdog fWatchdog)
/-- IMAGE_DIGEST_CHECK (R544): Every 24 hours Carillon rechecks its running image digest. -/
def execImageDigestCheck (same : Bool) (s : State) : Outcome := s.run (·.digestCheck same)
/-- CARILLON_RESTART (R542): Carillon restarts and resumes Bellpull from current indices. -/
def execCarillonRestart (s : State) : Outcome := s.run (·.restartEnd)
/-- TRIAL_TIMEOUT (R541): An uncommitted trial ends and Carillon returns to the previous slot. -/
def execTrialTimeout (s : State) : Outcome := s.run (·.trialTimeout)
/-- ID_READ (R551): Bellpull command that returns the serial, public key and part record. -/
def execIdRead (h : Hdr) (pl : List Byte) (s : State) : Outcome := s.run (·.serve cIdRead Dev.idRead h pl)
/-- ATTEST (R537): Bellpull command that returns a signed attestation report. -/
def execAttest (h : Hdr) (pl : List Byte) (s : State) : Outcome := s.run (·.serve (cAttest pl) Dev.attest h pl)
/-- SENSOR_READ (R551): Bellpull command that returns sensor readings. -/
def execSensorRead (h : Hdr) (pl : List Byte) (s : State) : Outcome := s.run (·.serve cSensorRead Dev.sensorRead h pl)
/-- LOG_READ (R551): Bellpull command that returns log records. -/
def execLogRead (h : Hdr) (pl : List Byte) (s : State) : Outcome := s.run (·.serve cLogRead Dev.logRead h pl)
/-- FF_READ (R551): Bellpull command that returns the first-failure table. -/
def execFfRead (h : Hdr) (pl : List Byte) (s : State) : Outcome := s.run (·.serve cFfRead Dev.ffRead h pl)
/-- FF_CLEAR (R551): Bellpull command that removes first-failure entries. -/
def execFfClear (h : Hdr) (pl : List Byte) (s : State) : Outcome := s.run (·.serve cFfClear Dev.ffClear h pl)
/-- LOG_STATUS (R551): Bellpull command that returns log counters. -/
def execLogStatus (h : Hdr) (pl : List Byte) (s : State) : Outcome := s.run (·.serve cLogStatus Dev.logStatus h pl)
/-- UPDATE_BEGIN (R540): Bellpull command that erases the inactive slot for an update. -/
def execUpdateBegin (h : Hdr) (pl : List Byte) (s : State) : Outcome := s.run (·.serve cUpdateBegin Dev.updateBegin h pl)
/-- UPDATE_DATA (R540): Bellpull command that programs image data. -/
def execUpdateData (h : Hdr) (pl : List Byte) (s : State) : Outcome := s.run (·.serve cUpdateData Dev.updateData h pl)
/-- UPDATE_VERIFY (R539): Bellpull command that verifies the inactive slot. -/
def execUpdateVerify (h : Hdr) (pl : List Byte) (s : State) : Outcome := s.run (·.serve cUpdateVerify Dev.updateVerify h pl)
/-- UPDATE_ACTIVATE (R540): Bellpull command that marks the slot trial and restarts into it. -/
def execUpdateActivate (h : Hdr) (pl : List Byte) (s : State) : Outcome := s.run (·.serve cUpdateActivate Dev.updateActivate h pl |>.activated)
/-- UPDATE_COMMIT (R540): Bellpull command that makes the trial slot active and raises the counter. -/
def execUpdateCommit (h : Hdr) (pl : List Byte) (s : State) : Outcome := s.run (·.serve cUpdateCommit Dev.updateCommit h pl)
/-- UPDATE_STATUS (R551): Bellpull command that returns update state. -/
def execUpdateStatus (h : Hdr) (pl : List Byte) (s : State) : Outcome := s.run (·.serve cUpdateStatus Dev.updateStatus h pl)
/-- SMBUS_READ_TMAX (R545): SMBus command 0x10 returns the highest temperature. -/
def execSmbusReadTmax (port : Nat) (pec : Bool) (s : State) : Outcome := s.run (·.smbTmax port pec)
/-- SMBUS_READ_SENSOR (R545): SMBus command 0x11 returns the temperature of a written index. -/
def execSmbusReadSensor (port : Nat) (idx : Nat) (pec : Bool) (s : State) : Outcome := s.run (·.smbSensor port idx pec)
/-- SMBUS_READ_POWER (R545): SMBus command 0x12 returns CAR_POWER. -/
def execSmbusReadPower (port : Nat) (pec : Bool) (s : State) : Outcome := s.run (·.smbPower port pec)
/-- SMBUS_READ_STATUS (R545): SMBus command 0x13 returns the status byte. -/
def execSmbusReadStatus (port : Nat) (pec : Bool) (s : State) : Outcome := s.run (·.smbStatus port pec)
/-- SET_ENDPOINT_ID (R546): MCTP control command that sets the endpoint ID. -/
def execSetEndpointId (port : Nat) (eid : Nat) (s : State) : Outcome := s.run (·.setEid port eid)
/-- GET_ENDPOINT_ID (R546): MCTP control command that returns the endpoint ID. -/
def execGetEndpointId (port : Nat) (s : State) : Outcome := s.run (·.getEid port)
/-- GET_MCTP_VERSION_SUPPORT (R546): MCTP control command that returns supported versions. -/
def execGetMctpVersionSupport (port : Nat) (s : State) : Outcome := s.run (·.mctpVersion port)
/-- GET_MESSAGE_TYPE_SUPPORT (R546): MCTP control command that returns supported message types. -/
def execGetMessageTypeSupport (port : Nat) (s : State) : Outcome := s.run (·.mctpTypes port)
/-- GET_VENDOR_MESSAGE_SUPPORT (R546): MCTP control command that returns vendor-defined message support. -/
def execGetVendorMessageSupport (port : Nat) (s : State) : Outcome := s.run (·.mctpVendor port)

end Sys2Proof.Machine
end

