-- ==== Sys2Proof/Machine/CmdDdr.lean ====
section
/-! DEFINITION. The commands and events of the DDR5 chapter. -/

namespace Sys2Proof.Machine

/-- DDR_CONFIG (R448): Bellpull command that stores the DDR5 configuration for the next Calends. -/
def execDdrConfig (h : Hdr) (pl : List Byte) (s : State) : Outcome := s.run (·.serve cDdrConfig Dev.ddrConfig h pl)
/-- DDR_STATUS (R448): Bellpull command that returns MEM registers. -/
def execDdrStatus (h : Hdr) (pl : List Byte) (s : State) : Outcome := s.run (·.serve cDdrStatus Dev.ddrStatus h pl)
/-- DDR_WINDOW (R435): Bellpull command that sets a partition's DDR5 window. -/
def execDdrWindow (h : Hdr) (pl : List Byte) (s : State) : Outcome := s.run (·.serve cDdrWindow Dev.ddrWindow h pl)
/-- DDR_RETRAIN (R444): Bellpull command that retrains the channels cached or full. -/
def execDdrRetrain (h : Hdr) (pl : List Byte) (s : State) : Outcome := s.run (·.serve cDdrRetrain Dev.ddrRetrain h pl)
/-- DDR_SCRUB (R448): Bellpull command that configures the patrol scrubber. -/
def execDdrScrub (h : Hdr) (pl : List Byte) (s : State) : Outcome := s.run (·.serve cDdrScrub Dev.ddrScrub h pl)
/-- DDR_WINREAD (R448): Bellpull command that returns the partition's windows. -/
def execDdrWinread (h : Hdr) (pl : List Byte) (s : State) : Outcome := s.run (·.serve cDdrWinread Dev.ddrWinread h pl)
/-- DDR_ACCESS (R439): A DDR5 access reaches its channel, is window-checked and served. -/
def execDdrAccess (die : Nat) (p : Nat) (a : Nat) (n : Nat) (data : Option (List Byte)) (s : State) : Outcome := s.run (·.ddrAccess die p a n data)
/-- DDR_SCRUB_STEP (R440): The patrol scrubber reads and corrects a burst. -/
def execDdrScrubStep (a : Nat) (s : State) : Outcome := s.run (·.ddrScrubStep a)
/-- MR4_POLL (R441): Each millisecond the controller reads MR4 and sets the refresh interval. -/
def execMr4Poll (ch : Nat) (rate : Nat) (hot : Bool) (s : State) : Outcome := s.run (·.mr4Poll ch rate hot)
/-- ZQ_CALIBRATION (R442): Every 128 ms ZQ calibration and DQS tracking run. -/
def execZqCalibration (ch : Nat) (s : State) : Outcome := s.run (·.zqCalibrate ch)
/-- DDR_TRAINING (R444): Channel training ends, cached or full. -/
def execDdrTraining (pass : Bool) (bad : Nat) (ms : Nat) (s : State) : Outcome := s.run (·.ddrTrained pass bad ms)

end Sys2Proof.Machine
end

