-- ==== Sys2Proof/Machine/Obs.lean ====
section
/-! DEFINITION. Counters and the trace port: freezing and clearing, the trace link, and the 0x0Dxx commands (R620 to R635). -/

namespace Sys2Proof.Machine

/-! ### Counters (R622) -/

/-- FREEZE of partition `p`, at the next tick. -/
def Dev.obsFreeze (d : Dev) (p : Nat) (b : Bool) : Dev := (d.advance 1).setFlag (OBS_PCTL p) 0 b

/-- Registers `a`, `a` + 4, … of a count `n` become zero. -/
def Dev.zeroRegs (d : Dev) (a n : Nat) : Dev := d.forEach (upTo n) (fun d k => d.setR (a + 4 * k) 0)

/-- CLEAR of partition `p`, at the next tick: its engine, region and partition counters. -/
def Dev.obsClear (d : Dev) (p : Nat) : Dev :=
  let d := (d.advance 1).zeroRegs (OBS_PSPIKE_LO p) 6
  d.forEach (d.regionsOf p) (fun d r =>
    let d := ((d.zeroRegs (OBS_TSTALL_LO r) 10).setR (TCR_BUSY_LO r) 0).setR (TCR_BUSY_HI r) 0
    d.forEach (upTo 16) (fun d k => d.forEach (upTo 3) (fun d e =>
      (d.zeroRegs (OBS_BUSY_LO (16 * r + k) e) 6).zeroRegs (OBS_RSN (16 * r + k) e 1) 15)))

/-- Function `f` reaches the counters of partition `p` (R623). -/
def Dev.obsMine (f p : Nat) : Bool := f == 0 || f == p

/-- A write of OBS_PCTL.FREEZE. -/
def Dev.pctlFreeze (d : Dev) (f p b : Nat) : Dev := if Dev.obsMine f p then d.obsFreeze p (b == 1) else d.addrErr
/-- A write of OBS_PCTL.CLEAR. -/
def Dev.pctlClear (d : Dev) (f p : Nat) : Dev := if Dev.obsMine f p then d.obsClear p else d.addrErr

/-! ### The trace port (R626 to R630) -/

/-- Records of stalled engines enter while there is room (R627). -/
def Dev.traceHeld (die : Nat) : Nat → Dev → Dev
  | 0, d => d
  | k + 1, d =>
    match SMap.get [] d.trace.held die with
    | [] => d
    | x :: rest =>
      if d.traceRoom die then
        traceHeld die k ({ d with trace := { d.trace with held := SMap.set [] d.trace.held die rest } }.traceEnter die x)
      else d

/-- A pair of SYNC records, one per lane (R629). -/
def Dev.syncPair (d : Dev) : Dev :=
  let x := d.traceBytes 0x0E none 0x300 (leBytes 8 d.time)
  let d := ((d.emit (.trace x)).emit (.trace x)).count64 OBS_TSENT_LO 2
  { d with trace := { d.trace with lane := 0 } }

/-- The lanes send: 10 ms of idle have passed since ENABLE (R629). -/
def Dev.traceStart (d : Dev) : Dev :=
  if d.flag OBS_TCTL 0 && ! d.trace.started && d.pwr.asleep = 0 then
    ({ d with trace := { d.trace with started := true } }.setFlag OBS_TSTAT 0 true).syncPair
  else d

/-- The SYNC pair of each 400,000 ticks. -/
def Dev.syncTime (d : Dev) : Dev := if d.trace.started && d.flag OBS_TCTL 0 && d.pwr.asleep = 0 then d.syncPair else d

/-- The lanes go idle once tracing is off and the FIFOs are empty (R630). -/
def Dev.traceIdle (d : Dev) : Dev :=
  if d.flag OBS_TCTL 0 || ! (d.fifo 0).isEmpty || ! (d.fifo 1).isEmpty then d
  else { d with trace := { d.trace with started := false } }.setFlag OBS_TSTAT 0 false

/-- The port sends the oldest record of a die's FIFO; a DROP record is followed by a SYNC pair (R626, R629). -/
def Dev.traceSend (d : Dev) (die : Nat) : Dev :=
  match d.fifo die with
  | [] => d
  | x :: rest =>
    if ! d.trace.started || d.pwr.asleep ≠ 0 then d
    else
      let d := ((d.setFifo die rest).emit (.trace x)).count64 OBS_TSENT_LO 1
      let d := { d with trace := { d.trace with lane := 1 - d.trace.lane } }
      let d := if byteAt x 0 = 0x0F then d.syncPair else d
      let d := d.traceDropRec die
      (d.traceHeld die (SMap.get [] d.trace.held die).length).traceIdle

/-- ENABLE of the trace port is set or cleared: Carillon's vote for its domain (R576, R630). -/
def Dev.traceEnable (d : Dev) (b : Bool) : Dev :=
  ((d.setFlag OBS_TCTL 0 b).setVote cliPolicy domTrace (if b then 2 else 0)).traceIdle

/-- A write of OBS_TCTL: MODE changes only while ENABLE is 0 (R627). -/
def Dev.tctl (d : Dev) (v : Nat) : Dev :=
  let d := if bitAt v 1 = d.flag OBS_TCTL 1 then d
    else if d.flag OBS_TCTL 0 then d.setFlag OBS_TSTAT 3 true
    else d.setFlag OBS_TCTL 1 (bitAt v 1)
  d.traceEnable (bitAt v 0)

/-- A MARK record of 64 bits (R625). -/
def Dev.markRec (d : Dev) (v : Nat) : Dev := d.traceRec 0 0x0A none 0x300 none none (leBytes 8 v)

/-- The register writes; the trace configuration is the physical function's (R623). -/
def Dev.tctlWrite (d : Dev) (f v : Nat) : Dev := if f = 0 then d.tctl v else d.addrErr
def Dev.tmarkHi (d : Dev) (f v : Nat) : Dev :=
  if f = 0 then d.markRec (d.trace.mark + v % 2 ^ 32 * 2 ^ 32) else d.addrErr

/-! ### Commands (R635) -/

def obsSpec (op : Nat) (len : List Byte → Bool) (ro : Bool) (rsv : List (Nat × Nat)) : CmdSpec :=
  { opcode := op, issuer := .pf, names := false, ro := ro, len := len, rsv := rsv }

def cObsRead : CmdSpec :=
  { opcode := 0x0D01, issuer := .owner, names := true, ro := true, len := lenIs 8, rsv := rsvd 1 1 ++ rsvd 4 4 }
/-- OBS_READ: what R623 lets the issuer see. -/
def Dev.obsRead (d : Dev) (h : Hdr) (pl : List Byte) : Dev × Ans :=
  let u := leAt pl 2 2
  let pf := h.func = 0
  match byteAt pl 0 with
  | 0 =>
    if 256 ≤ u || ! (pf || d.owns h.part (u / 16)) then (d, .st .denied)
    else match d.physOf u with
      | some q => (d, .done .ok 0 (d.regBytes (OBS_BUSY_LO q 0) 96))
      | none => (d, .st .fenced)
  | 1 => if 16 ≤ u || ! (pf || d.owns h.part u) then (d, .st .denied) else (d, .done .ok 0 (d.regBytes (OBS_TSTALL_LO u) 12))
  | 2 => if 16 ≤ u || ! (pf || h.part = u) then (d, .st .denied) else (d, .done .ok 0 (d.regBytes (OBS_PCTL u) 8))
  | 3 => if pf then (d, .done .ok 0 (d.regBytes OBS_DSPIKE_LO 4)) else (d, .st .denied)
  | _ => (d, .st .denied)

def cObsControl : CmdSpec :=
  { opcode := 0x0D02, issuer := .owner, names := true, ro := false, len := lenIs 8, rsv := rsvd 1 7 }
def Dev.obsControl (d : Dev) (h : Hdr) (pl : List Byte) : Dev × Ans :=
  let a := byteAt pl 0
  if 3 ≤ a then (d, .st .denied)
  else
    let d := if a = 2 then d.obsClear h.part else d.obsFreeze h.part (a == 0)
    (d, .done .ok 0 (leBytes 8 d.time))

def cTraceConfig : CmdSpec := obsSpec 0x0D03 (lenIs 32) false (rsvd 13 1 ++ rsvd 16 16)
def Dev.traceConfig (d : Dev) (_h : Hdr) (pl : List Byte) : Dev × Ans :=
  let rate := leAt pl 14 2
  if 2 ≤ byteAt pl 0 || 2 ≤ byteAt pl 1 || 0x8000 ≤ leAt pl 8 2 || 0x8000 ≤ leAt pl 10 2 || 16 ≤ byteAt pl 12 ||
      rate = 0 || 390 < rate then (d, .st .denied)
  else if d.flag OBS_TCTL 0 && (byteAt pl 1 == 1) ≠ d.flag OBS_TCTL 1 then (d, .st .busy)
  else
    let d := ((d.setFlag OBS_TCTL 1 (byteAt pl 1 == 1)).setR OBS_TSRC (leAt pl 2 2)).setR OBS_TPMASK (leAt pl 4 2)
    let d := d.setR OBS_TCORE (byteAt pl 6 + 256 * byteAt pl 7)
    let d := (d.setR OBS_TNEURON (leAt pl 8 2 + 65536 * leAt pl 10 2)).setR OBS_TSAMPLE (byteAt pl 12)
    ((d.setR OBS_TCAP rate).traceEnable (byteAt pl 0 == 1), .st .ok)

def cTraceStatus : CmdSpec := obsSpec 0x0D04 (lenIs 0) true []
def Dev.traceStatus (d : Dev) (_h : Hdr) (_pl : List Byte) : Dev × Ans := (d, .done .ok 0 (d.regBytes OBS_TCTL 12))

def cTraceMark : CmdSpec := obsSpec 0x0D05 (lenIs 8) false []
def Dev.traceMark (d : Dev) (_h : Hdr) (pl : List Byte) : Dev × Ans :=
  if d.flag OBS_TCTL 0 then (d.markRec (leAt pl 0 8), .st .ok) else (d, .st .busy)

end Sys2Proof.Machine
end

