-- ==== Sys2Proof/Machine/Pci.lean ====
section
/-! DEFINITION. The writes of the PCIe block's registers (R459, R468, R471, R476, R477). -/

namespace Sys2Proof.Machine

/-- A write of PCI_DMACFG of channel `c`: while ENABLE is 1 only clearing it takes effect, and stops the channel; setting it zeroes
both indices (R468, R477). -/
def Dev.dmaCfg (d : Dev) (c v : Nat) : Dev :=
  if d.flag (PCI_DMACFG c) 31 then (if bitAt v 31 then d else d.stopDma c)
  else if v % 32 < 12 || 20 < v % 32 then d
  else
    let d := d.setF (PCI_DMACFG c) 0 5 v
    if bitAt v 31 then ((d.setFlag (PCI_DMACFG c) 31 true).setR (PCI_DMAHEAD c) 0).setR (PCI_DMATAIL c) 0 else d

/-- A write of a ring base register of channel `c` is ignored while ENABLE is 1 (R477). -/
def Dev.dmaBase (d : Dev) (c a v : Nat) : Dev := if d.flag (PCI_DMACFG c) 31 then d else d.setR a v

/-- A write of PCI_DMATAIL: the doorbell of channel `c` (R462, R476). -/
def Dev.dmaTail (d : Dev) (c v : Nat) : Dev := d.setR (PCI_DMATAIL c) v

/-- A write of aperture `a` of function `f`: the physical function's BASE is aligned to 4 GiB (R459, R477). -/
def Dev.apWrite (d : Dev) (f a v : Nat) : Dev :=
  if f = 0 && v % 4 ≠ 0 then d.setFlag PCI_STAT 2 true else d.setR (PCI_AP f a) (v &&& 0x8003FFFF)

/-- A write of window `w` of function `f` (R457, R476). -/
def Dev.winWrite (d : Dev) (f w v : Nat) : Dev := d.setR (PCI_VFWIN f w) (v &&& 0xC00F0FFF)

/-- A refused BAR access is counted (R458, R460, R461). -/
def Dev.barErr (d : Dev) : Dev := (d.bump PCI_BARERR 1).setFlag PCI_STAT 2 true

/-- A BAR read that has no data completes with zeros and is counted (R463, R584). -/
def Dev.readTimeout (d : Dev) : Dev := (d.bump PCI_RDTMO 1).setFlag PCI_STAT 3 true

/-- The channel's registers belong to the function of its partition and the physical function (R476). -/
def dmaMine (f c : Nat) : Bool := f == 0 || f == c / 2

/-- The rows of these writes by function `f`. -/
def Dev.dmaCfgWrite (d : Dev) (f c v : Nat) : Dev := if dmaMine f c then d.dmaCfg c v else d.addrErr
def Dev.dmaTailWrite (d : Dev) (f c v : Nat) : Dev := if dmaMine f c then d.dmaTail c v else d.addrErr
/-- Aperture `k` (0 to 15) or window `k` − 16 of function `g`, written by function `f`. -/
def Dev.apRow (d : Dev) (f g k v : Nat) : Dev :=
  if f ≠ 0 && f ≠ g then d.addrErr
  else if k < 16 then d.apWrite g k v
  else if g = 0 then d
  else d.winWrite g (k - 16) v

/-- The moderation interval of vector `v` of function `f` ends: a pending message is sent (R471). -/
def Dev.imodEnd (d : Dev) (f v : Nat) : Dev :=
  let x := d.fn f
  if ! SMap.get false x.modRun v then d
  else
    let d := d.setFn f { x with modRun := SMap.set false x.modRun v false }
    if SMap.get false x.msixPend v && SMap.get false x.msixUnmasked v then d.sendMsix f v else d

end Sys2Proof.Machine
end

