-- ==== Sys2Proof/Machine/RegBus.lean ====
section
/-! DEFINITION. The register bus: whose registers an agent reaches, what a read returns and does, what a write does (R11 to
R17, R35, R48, R51 to R53, R657). Addresses are offsets in the register space. -/

namespace Sys2Proof.Machine

/-! ### Rights (R16, R17, R40, R52) -/

/-- What an agent reaches: everything, what one partition reaches, or nothing. -/
inductive Rights
  | full
  | part (p : Nat)
  | none
  deriving DecidableEq, Repr

/-- The rights of an agent (R16, R40, R401). -/
def Dev.rights (d : Dev) : Agent → Rights
  | .func f => if f = 0 then .full else .part f
  | .score r => match d.regPart r with
    | some p => .part p
    | none => .none
  | .fabric p => .part p
  | .carillon => .full
  | .tabor => .full

/-- The function in whose name an agent acts. -/
def Dev.actor (d : Dev) (ag : Agent) : Nat :=
  match ag with
  | .func f => f
  | _ => match d.rights ag with
    | .part p => p
    | _ => 0

/-- The fields of global block `g` at offset `o` that are partition-visible to partition `p` (R52, R95, R228, R446, R476, R486,
R505, R532, R549, R568, R595, R617, R623). -/
def Dev.seesGlobal (d : Dev) (p g o : Nat) : Bool :=
  if g = 0 then
    (0x100 ≤ o && o < 0x500 && d.timerOwner ((o - 0x100) / 0x40) == p) || o == 0x804 ||
      (0x1000 ≤ o && o < 0x2000 && o / 0x100 == 0x10 + p && o % 0x100 != 0x40) ||
      (0x2000 ≤ o && o < 0x2400 && d.owns p ((o - 0x2000) / 0x40))
  else if g = 1 then o / 0x40 == 0x40 + p
  else if g = 2 || g = 3 then
    (0x100 ≤ o && o < 0x180 && (o - 0x100) / 8 == p) || o == 0x180 + 4 * p ||
      (0x200 ≤ o && o < 0x400 && d.owns p (8 * (g - 2) + (o - 0x200) / 64)) || (0x8000 ≤ o && (o - 0x8000) / 0x40 == p)
  else if g = 7 then 0x8000 ≤ o && (o - 0x8000) / 0x20 == p
  else if g = 9 then
    o == 0 || o == 0x100 + 4 * p || (0x1000 ≤ o && o < 0x1800 && (o - 0x1000) / 0x80 == p) ||
      (0x2000 ≤ o && o < 0x2400 && (o - 0x2000) / 0x40 == p) || (0x3000 ≤ o && o < 0x3100 && (o - 0x3000) / 0x10 == p)
  else if g = 0xA then o == 0 || (0x100 ≤ o && o < 0x180 && d.owns p ((o - 0x100) / 8))
  else if g = 0xB then
    o == 0 || o == 0x10 || (0x100 ≤ o && o < 0x280 && d.owns p ((o - 0x100) / 24)) || (0x300 ≤ o && o < 0x340 && d.owns p ((o - 0x300) / 4)) ||
      (0x400 ≤ o && o < 0xC00 && o % 0x400 / 0x10 == 1 + p) || (0xC00 ≤ o && o < 0xD00 && d.owns p ((o - 0xC00) / 16))
  else if g = 0xC then o == 0x100 + 4 * p || o == 0x140 + 4 * p
  else if g = 0xD then
    (0x1000 ≤ o && o < 0x1400 && d.owns p ((o - 0x1000) / 0x40)) || (0x2000 ≤ o && o < 0x2400 && (o - 0x2000) / 0x40 == p)
  else if g = 0xE then o == 0 || (0x100 ≤ o && o < 0x140 && d.owns p ((o - 0x100) / 4))
  else g == 0x10 + p

/-- Partition `p` reaches the register at `a` (R52). -/
def Dev.sees (d : Dev) (p a : Nat) : Bool :=
  if 0x10000000 ≤ a then a < 0x20000000 && d.owns p ((a - 0x10000000) / 0x1000000) else d.seesGlobal p (a / 0x10000) (a % 0x10000)

/-- The vote words of an S-core (R596). -/
def scoreVotes (ag : Agent) (a : Nat) : Bool :=
  match ag with
  | .score r => a / 0x10000 == 0xB && 0x400 ≤ a % 0x10000 && a % 0x10000 < 0xC00 && a % 0x400 / 0x10 == 17 + r
  | _ => false

/-- An agent reaches the register at `a`. -/
def Dev.reaches (d : Dev) (ag : Agent) (a : Nat) : Bool :=
  match d.rights ag with
  | .full => true
  | .part p => d.sees p a || scoreVotes ag a
  | .none => false

/-- An agent may write the register at `a`: of CAR_STAT a virtual function has only the read (R548). -/
def Dev.reachesW (d : Dev) (ag : Agent) (a : Nat) : Bool :=
  d.reaches ag a && (d.rights ag == .full || ! (a / 0x10000 == 0xA))

/-- The address lies in a listed block (R51). -/
def regListed (a : Nat) : Bool :=
  if a < 0x10000000 then a / 0x10000 ≤ 0xE || (0x10 ≤ a / 0x10000 && a / 0x10000 < 0x20)
  else
    let c := a / 0x10000 % 0x100
    a < 0x20000000 && (c ≤ 0x11 || (0x20 ≤ c && c ≤ 0x24))

/-- The register belongs to a core whose domain is OFF or whose site the part record marks bad (R53). -/
def Dev.regDead (d : Dev) (a : Nat) : Bool :=
  if a < 0x10000000 || 0x20000000 ≤ a then false
  else
    let r := (a - 0x10000000) / 0x1000000
    let c := a / 0x10000 % 0x100
    if c < 16 then ! d.siteGood (16 * r + c) || d.domLevel (domOf r (c / 4)) == 0
    else if c = 0x10 then ! bitAt (leAt d.car.partRec 56 2) r || d.domLevel (domOf r 4) == 0
    else if c = 0x11 then ! bitAt (leAt d.car.partRec 58 2) r || d.domLevel (domOf r 5) == 0
    else false

/-- The die that holds the register at `a` (R23, R51). -/
def regDie (a : Nat) : Nat :=
  if a < 0x10000000 then natOf ([3, 5, 6, 8].contains (a / 0x10000)) else dieOf ((a - 0x10000000) / 0x1000000)

/-- The die bridge has failed and lies between an agent and the register at `a` (R24, R614).  A request from the fabric is
tested at the die router it came to (`Dev.bridgeCut`). -/
def Dev.cutOff (d : Dev) (ag : Agent) (a : Nat) : Bool :=
  d.flag FLT_STAT 4 && (match ag with
    | .fabric _ => false
    | .score r => regDie a != dieOf r
    | _ => regDie a != 0)

/-! ### Reads -/

/-- The bits of a register that a read shows: WO bits read as zero (R11). -/
def Dev.regShow (d : Dev) (a : Nat) : Nat :=
  match regRow a with
  | some x => d.rg a &&& ((2 ^ 32 - 1) ^^^ x.wo)
  | none => 0

/-- `a` is the low half of a 64-bit counter (R15). -/
def regPair (a : Nat) : Bool :=
  match regRow a with
  | some x => x.pair
  | none => false

/-- The Tocsin instance of a block of Tocsin registers at `a`, with the offset in it (R505). -/
def tocAt (a : Nat) : Option (Nat × Nat) :=
  let o := a % 0x10000
  if a < 0x10000000 then (if a / 0x10000 = 1 then some (288, o) else none)
  else if 0x20000000 ≤ a || o < 0x4000 || 0x5000 ≤ o then none
  else
    let r := (a - 0x10000000) / 0x1000000
    let c := a / 0x10000 % 0x100
    if c < 16 then some (16 * r + c, o - 0x4000)
    else if c = 0x10 then some (256 + r, o - 0x4000)
    else if c = 0x11 then some (272 + r, o - 0x4000)
    else none

/-- The record queue whose window lies at offset `o` of instance `i`, with the word of the window. -/
def tocWindow (i o : Nat) : Option (Nat × Nat) :=
  if 0x800 ≤ o && o < 0x820 then some (i, (o - 0x800) / 4)
  else if i = 288 && 0x1000 ≤ o && o < 0x1400 && 0x20 ≤ o % 0x40 then some (289 + (o - 0x1000) / 0x40, (o % 0x40 - 0x20) / 4)
  else none

/-- What the register at `a` reads as now, with no side effect (R47, R460). -/
def Dev.regPeek (d : Dev) (a : Nat) : Nat :=
  match tocAt a with
  | some (i, 0x14) => d.claimValue i
  | some (i, o) => match tocWindow i o with
    | some (k, w) => d.tocHead k w
    | none => d.regShow a
  | none =>
    let o := a % 0x10000
    let r := (a - 0x10000000) / 0x1000000
    if a < 0x10000000 && 0x100 ≤ a && a < 0x500 && (a % 0x40 = 0x20 || a % 0x40 = 0x24) then
      let w := (d.timer ((a - 0x100) / 0x40)).caps.headD 0
      if a % 0x40 = 0x20 then w % 2 ^ 32 else w / 2 ^ 32
    else if 0x10000000 ≤ a && a / 0x10000 % 0x100 = 0x22 && 0xA000 ≤ o && o < 0xA800 then
      match d.chan r ((o - 0xA000) / 64) with
      | m :: _ => leAt m.data (o % 64) 4
      | [] => 0
    else match (upTo 16).find? (fun p => a == TAB_BCOUNT p) with
      -- in the tick of a beat start the count of the beat before it (R67)
      | some p => if (d.part p).reset = some d.time && d.rg a = 0 then d.rg (TAB_BLAST p) else d.rg a
      | none => d.regShow a

/-- The side effects of a read and its value: claims, queue windows, capture queues, latches (R15, R488, R495, R501). -/
def Dev.regTake (d : Dev) (ag : Agent) (a : Nat) : Dev × Nat :=
  let f := d.actor ag
  let isCap := 0x100 ≤ a && a < 0x500 && (a % 0x40 = 0x20 || a % 0x40 = 0x24)
  match tocAt a with
  | some (i, o) =>
    if o = 0x14 then d.claim i
    else match tocWindow i o with
      | some (k, 7) => d.tocPop k
      | _ => (d, d.regPeek a)
  | none =>
    if isCap then (if a % 0x40 = 0x20 then d.capLo f ((a - 0x100) / 0x40) else d.capHi f ((a - 0x100) / 0x40))
    else match ag with
      | .func _ =>
        if regPair a then (d.setLatch f (a + 4) (d.rg (a + 4)), d.regPeek a)
        else if a % 4 = 0 && 4 ≤ a && regPair (a - 4) then (d, d.latched f a)
        else (d, d.regPeek a)
      | _ => (d, d.regPeek a)

/-- A 4-byte read of the register at `a` by an agent; `plain` is false through an alias window (R11, R42, R47, R52, R53). -/
def Dev.regRead (d : Dev) (ag : Agent) (a : Nat) (plain : Bool) : Dev × Nat :=
  if ! regListed a then (d.addrErr, 0)
  else if ! d.reaches ag a || d.regDead a || d.cutOff ag a then (d, 0)
  else if plain then d.regTake ag a
  else (d, d.regPeek a)

/-! ### Writes -/

/-- The remap, page-map and zone registers: a function's write of them is ignored and counted (R35, R142, R657). -/
def carillonOnly (a : Nat) : Bool :=
  let o := a % 0x10000
  (remapIndex a).isSome ||
    (0x10000000 ≤ a && a / 0x10000 % 0x100 < 16 && ((0x1004 ≤ o && o < 0x1028) || (0x1040 ≤ o && o < 0x10C0)))

/-- The agent is a PCIe function. -/
def Agent.isFunc : Agent → Bool
  | .func _ => true
  | _ => false

/-- The value the register at `a` takes when `v` is written (R11): RW bits are stored, W1C bits written 1 are cleared. -/
def Dev.regNew (d : Dev) (a v : Nat) : Nat :=
  match regRow a with
  | some x =>
    let old := d.rg a
    let c := old &&& v &&& x.w1c
    (old ^^^ c) ^^^ (old &&& x.rw) ^^^ (v &&& x.rw)
  | none => d.rg a

/-- The write of a register that has no rule of its own. -/
def Dev.regSet (d : Dev) (a v : Nat) : Dev := d.setR a (d.regNew a v)

/-- Apply an effect where a bit is written 1. -/
def Dev.onBit (d : Dev) (v k : Nat) (f : Dev → Dev) : Dev := if bitAt v k then f d else d

/-- A partition's beat registers (R82, R89, R96, R97, R661): offset `x` of partition `p`. -/
def Dev.tabPartWrite (d : Dev) (f p x v : Nat) (full : Bool) : Dev :=
  let a := TAB_BCTL p + x
  let bad := d.setFlag (TAB_BSTAT p) 5 true
  if x = 0 then
    let mode := bitAt v 0
    let ext := bitAt v 4
    let span := bitAt v 8
    if ! d.still p || (ext && mode) || (span && ! mode && ! ext) || (! full && span != d.flag a 8) ||
        (span && ! periodLegal (d.fld (TAB_BPERIOD p) 0 29) true) then bad
    else d.regSet a v
  else if x = 4 then d.bperiodWrite f p v
  else if x = 0x10 || x = 0x14 || x = 0x18 || x = 0x1C then (if d.still p then d.regSet a v else bad)
  else if x = 0x40 then
    let lead := bitsOf v 16 9
    let ndev := bitsOf v 0 10
    let own := d.fld (FAB_DCFG 0) 0 9
    if ! d.still p || ndev = 0 || 512 < ndev || ! (lead == own || d.fabDevs.contains lead) || (ndev == 1 && lead != own) then bad
    else d.regSet a v
  else if x = 0x44 then ((d.onBit v 0 (·.bcmdStart f p)).onBit v 1 (·.bcmdMuffle f p)).onBit v 2 (·.bcmdResume f p)
  else d.regSet a v

/-- Block TAB (R96, R99, R480 to R486, R504). -/
def Dev.tabWrite (d : Dev) (f a v : Nat) (full : Bool) : Dev :=
  if a = TAB_TSET_LO then d.setR a v
  else if a = TAB_TSET_HI then d.tsetHi f v
  else if 0x100 ≤ a && a < 0x500 then
    let n := (a - 0x100) / 0x40
    let x := a % 0x40
    if x = 0 then d.timerCtl (if full then 0 else 16) n v
    else if x = 4 then (d.onBit v 0 (·.timerStart f n)).onBit v 1 (·.timerStop f n)
    else if x = 0xC then d.timerPeriod f n v
    else if x = 0x10 then d.timerCompare f n 0 v
    else if x = 0x14 then d.timerCompare f n 1 v
    else d.regSet a v
  else if a = TAB_TLCTL then
    (((d.setFlag a 4 (bitAt v 4)).setTimeSource (v % 8))).onBit v 16 (·.tlctlRelock f)
  else if a = TAB_TAISEC_LO || a = TAB_TAISEC_HI then { (d.regSet a v) with taiSet := true }
  else if 0x1000 ≤ a && a < 0x2000 then d.tabPartWrite f ((a - 0x1000) / 0x100) (a % 0x100) v full
  else d.regSet a v

/-- A Tocsin instance (R490 to R496, R505); the device Tocsin takes no target 1. -/
def Dev.tocWrite (d : Dev) (i o a v : Nat) : Dev :=
  if o = 0x10 then d.pendClear i v
  else if o = 0x18 then d.onBit v 0 (·.eoi i)
  else if i = 288 && o = 0 && v % 4 = 1 then d
  else (d.regSet a v).tocUpdate i

/-- Block QUE (R411, R415, R426): offset `o` of region `r`. -/
def Dev.queWrite (d : Dev) (r o a v : Nat) : Dev :=
  if o < 0x200 && o % 0x10 = 0 then
    let c := o / 0x10
    ((((d.setFlag a 3 (bitAt v 3)).recvServe r c).onBit v 2 (·.chanReset r c)).onBit v 1 (·.chanClose r c)).onBit v 0 (·.chanOpen r c)
  else if 0x400 ≤ o && o < 0x480 && o % 0x10 = 0 then
    let keep := if v % 65536 = 0 then putBits v 0 16 (d.fld a 0 16) else v
    (d.regSet a keep).onBit v 30 (·.combClear r ((o - 0x400) / 0x10))
  else if o = 0x500 && v % 2 ^ 20 = 0 then d
  else d.regSet a v

/-- Who an agent is to the banks of region `r`'s Commons: its own S-core, or what comes through the region router (R421). -/
def bankAgent (ag : Agent) (r : Nat) : Nat :=
  match ag with
  | .score k => if k = r then ownScore else ownRouter
  | _ => ownRouter

/-- A region block (R51): slot `c`, offset `o` of region `r`. -/
def Dev.slotWrite (d : Dev) (ag : Agent) (r c o a v : Nat) : Dev :=
  let q := 16 * r + c
  if c < 16 then
    if o = 0 then d.ncountWrite q v
    else if a = HRV_CTL q || a = HRV_SEASON q || a = HRV_HWIN q || a = HRV_SEED q then d.hrvWrite q a v
    else d.regSet a v
  else if c = 0x10 then
    if o = 0 then (d.regSet a v).onBit v 1 (·.tcAbort r)
    else if 0x100 ≤ o && o < 0x140 then d.dqpush r ((o - 0x100) / 4) v
    else d.regSet a v
  else if c = 0x11 then
    if o = 0 then ((d.onBit v 2 (·.seqReset r)).onBit v 1 (·.seqHalt r)).onBit v 0 (·.scoreRun r)
    else if 0x100 ≤ o && o < 0x180 && d.seqState r ≠ 0 then d
    else d.regSet a v
  else if c = 0x21 && o < 0x40 then d.ownReg r (o / 4) (bankAgent ag r) v
  else if c = 0x22 then
    if (0x8000 ≤ o && o < 0x8800) || (0x9000 ≤ o && o < 0x9200) then d.bump (QUE_ADDRERR r) 1 else d.queWrite r o a v
  else d.regSet a v

/-- The AXN block's host rings (R229). -/
def Dev.axnWrite (d : Dev) (a v : Nat) : Dev :=
  let o := a % 0x10000
  let p := (o - 0x8000) / 0x40
  let x := o % 0x40
  if o < 0x8000 then d.regSet a v
  else if x = 8 then d.ringCfg p 0 v
  else if x = 0x28 then d.ringCfg p 1 v
  else if (x = 0 || x = 4) && d.flag (AXN_IRCFG 0 p) 31 then d
  else if (x = 0x20 || x = 0x24) && d.flag (AXN_ORCFG 0 p) 31 then d
  else d.regSet a v

/-- The PCI block (R459, R468, R477). -/
def Dev.pciWrite (d : Dev) (a v : Nat) : Dev :=
  let o := a % 0x10000
  let c := (o - 0x1000) / 0x40
  if 0x1000 ≤ o && o < 0x1800 then
    if o % 0x40 = 8 then d.dmaCfg c v
    else if o % 0x40 < 8 then d.dmaBase c a (d.regNew a v)
    else d.regSet a v
  else if 0x2000 ≤ o && o < 0x2400 then d.apWrite ((o - 0x2000) / 0x40) (o % 0x40 / 4) v
  else d.regSet a v

/-- The doorbell block of function `f` (R511, R519, R520, R549, R550). -/
def Dev.doorWrite (d : Dev) (f a v : Nat) : Dev :=
  let o := a % 0x10000
  if o = 0 || o = 4 then d.bellBase f 0 a (d.regNew a v)
  else if o = 0x20 || o = 0x24 then d.bellBase f 1 a (d.regNew a v)
  else if o = 8 then d.bellCfg f 0 v
  else if o = 0x28 then d.bellCfg f 1 v
  else if o = 0x10 then d.crtail f v
  else if o = 0x30 then d.rrtail f v
  else d.regSet a v

/-- A global block (R51). -/
def Dev.globalWrite (d : Dev) (ag : Agent) (a v : Nat) : Dev :=
  let o := a % 0x10000
  let f := d.actor ag
  let full := d.rights ag == .full
  match a / 0x10000 with
  | 0 => d.tabWrite f a v full
  | 2 => d.axnWrite a v
  | 4 | 5 =>
    if 0x1000 ≤ o && o % 0x100 = 0 then
      let q := 4 * (a / 0x10000 - 4) + (o - 0x1000) / 0x100
      let d := if bitAt v 0 = d.flag a 0 then d else d.portEnable q (bitAt v 0)
      d.pctlTrain 0 q (bitsOf v 2 2)
    else d.regSet a v
  | 7 | 8 => d.regSet a (if o = 0x10 && v % 256 = 0 then putBits v 0 8 (d.fld a 0 8) else v)
  | 9 => d.pciWrite a v
  | 0xB =>
    if o = 4 || o = 0x30 then (d.regSet a v).forEach (upTo 16) Dev.regionPolicy
    else if 0x400 ≤ o && o < 0xC00 then d.voteWrite ag (o % 0x400 / 0x10) (o % 0x10 / 4) (o < 0x800) v
    else d.regSet a v
  | 0xC => if o = 4 then d.regSet a (if bitsOf v 16 8 = 0 then putBits v 16 8 (d.fld a 16 8) else v) else d.regSet a v
  | 0xD =>
    if o = 0 then d.tctl v
    else if o = 0x1C && (v % 512 = 0 || 390 < v % 512) then d
    else if o = 0x40 then { d with trace := { d.trace with mark := v % 2 ^ 32 } }
    else if o = 0x44 then d.markRec (d.trace.mark + v % 2 ^ 32 * 2 ^ 32)
    else if 0x2000 ≤ o && o < 0x3000 && o % 0x40 = 0 then
      let p := (o - 0x2000) / 0x40
      (d.obsFreeze p (bitAt v 0)).onBit v 1 (·.obsClear p)
    else d.regSet a v
  | 0xE => if o = 0x14 && v % 65536 = 0 then d else d.regSet a v
  | g => if 16 ≤ g && g < 32 then d.doorWrite (g - 16) a v else d.regSet a v

/-- The effect of a write that the rights allow, by block. -/
def Dev.regPut (d : Dev) (ag : Agent) (a v : Nat) : Dev :=
  match tocAt a with
  | some (i, o) => d.tocWrite i o a v
  | none =>
    if a < 0x10000000 then d.globalWrite ag a v
    else d.slotWrite ag ((a - 0x10000000) / 0x1000000) (a / 0x10000 % 0x100) (a % 0x10000) a v

/-- A 4-byte write of `v` to the register at `a` by an agent (R11, R42, R52, R53, R657). -/
def Dev.regWrite (d : Dev) (ag : Agent) (a v : Nat) : Dev :=
  let v := v % 2 ^ 32
  if ! regListed a || ! d.reachesW ag a || d.regDead a || (ag.isFunc && carillonOnly a) then d.addrErr
  else if d.cutOff ag a then d
  else d.regPut ag a v

/-- An alias write of `v` to the register at `a`: it acts on RW bits alone (R46, R48). -/
def Dev.regAlias (d : Dev) (ag : Agent) (a v : Nat) (setBits : Bool) : Dev :=
  if ! regListed a || ! d.reachesW ag a || d.regDead a || (ag.isFunc && carillonOnly a) then d.addrErr
  else if d.cutOff ag a then d
  else
    let rw := match regRow a with
      | some x => x.rw
      | none => 0
    let old := d.rg a &&& rw
    let m := v % 2 ^ 32 &&& rw
    if m = 0 then d else d.regPut ag a (if setBits then old ||| m else old ^^^ (old &&& m))

/-- A register read by function `f`, whose 4 bytes go back to it (R458). -/
def Dev.registerRead (d : Dev) (f a : Nat) : Dev := Dev.answerRead (d.regRead (.func f) a true) f

/-- A write of a register's RW fields as they are, with further bits of `v` written 1. -/
def Dev.regBits (d : Dev) (ag : Agent) (a v : Nat) : Dev :=
  d.regWrite ag a (v ||| (match regRow a with | some x => d.rg a &&& x.rw | none => 0))

end Sys2Proof.Machine
end

