-- ==== Sys2Proof/Machine/Bus.lean ====
section
/-! DEFINITION. The local address space (R41 to R50): what an access by an agent reaches, what it reads and what it writes. -/

namespace Sys2Proof.Machine

/-- What a local address lies in (R41). -/
inductive Target
  | ddr
  /-- The store of logical core `n` at an offset. -/
  | core (n off : Nat)
  /-- The Commons of a region, plain (0) or through the bit-set (1) or bit-clear (2) alias. -/
  | commons (kind r off : Nat)
  | buffer (r off : Nat)
  | axon (die off : Nat)
  /-- The register space, plain or through an alias. -/
  | reg (kind off : Nat)
  | keep (off : Nat)
  | reserved
  deriving DecidableEq, Repr

/-- Decode a 48-bit local address (R41, R42). -/
def target (a : Nat) : Target :=
  let o := a % 0x100000000
  match a / 0x100000000 with
  | 0x100 => if o < 0x40000000 && o % 0x400000 < 0x300000 then .core (o / 0x400000) (o % 0x400000) else .reserved
  | 0x140 => if o < 0x4000000 then .commons 0 (o / 0x400000) (o % 0x400000) else .reserved
  | 0x141 => if o < 0x4000000 then .commons 1 (o / 0x400000) (o % 0x400000) else .reserved
  | 0x142 => if o < 0x4000000 then .commons 2 (o / 0x400000) (o % 0x400000) else .reserved
  | 0x180 => if o < 0x2000000 then .buffer (o / 0x200000) (o % 0x200000) else .reserved
  | 0x1C0 => if o < 0x8000000 && o % 0x4000000 < 0x2000000 then .axon (o / 0x4000000) (o % 0x4000000) else .reserved
  | 0x200 => if o < 0x20000000 then .reg 0 o else .reserved
  | 0x201 => if o < 0x20000000 then .reg 1 o else .reserved
  | 0x202 => if o < 0x20000000 then .reg 2 o else .reserved
  | 0x300 => if o < 0x40000000 then .keep o else .reserved
  | _ => if a < 0x8000000000 then .ddr else .reserved

/-- Partition `p` reaches `n` bytes of a target (R31, R45, R461); registers are checked by the register bus. -/
def Dev.partMay (d : Dev) (p : Nat) (t : Target) (a n : Nat) : Bool :=
  match t with
  | .ddr => d.inWindow p a n
  | .core c _ => d.owns p (c / 16)
  | .commons _ r _ => d.owns p r
  | .buffer r _ => d.owns p r
  | .axon k o => d.flag (AXN_PBASE k p) 31 && 8 * d.fld (AXN_PBASE k p) 0 22 ≤ o && o + n ≤ 8 * (d.fld (AXN_PLIMIT k p) 0 22 + 1)
  | .reg _ _ => true
  | .keep _ => false
  | .reserved => true

/-- An agent reaches `n` bytes of a target. -/
def Dev.may (d : Dev) (ag : Agent) (t : Target) (a n : Nat) : Bool :=
  match d.rights ag with
  | .full => true
  | .part p => d.partMay p t a n
  | .none => false

/-- The store of the physical site `q` can be reached: its domain is not OFF. -/
def Dev.storeOn (d : Dev) (q : Nat) : Bool := d.domLevel (domOf (q / 16) (q % 16 / 4)) != 0

/-- A refused access to DDR5 by an agent other than a function is a window error at its die router (R31, R435). -/
def Dev.refused (d : Dev) (ag : Agent) (die : Nat) (t : Target) : Dev :=
  match t, ag, d.rights ag with
  | .ddr, .func _, _ => d
  | .ddr, _, .part p => d.winError die p
  | _, _, _ => d

/-- The die that holds a target at local address `a`, none for the Keep and for reserved addresses (R23, R41, R433). -/
def Dev.targetDie (d : Dev) (t : Target) (a : Nat) : Option Nat :=
  match t with
  | .ddr => some ((d.ddrSub a).1 / 4)
  | .core c _ => some (c / 128)
  | .commons _ r _ => some (dieOf r)
  | .buffer r _ => some (dieOf r)
  | .axon k _ => some k
  | .reg _ o => some (regDie o)
  | .keep _ => none
  | .reserved => none

/-- The die bridge has failed and lies between die `die` and a target (R24, R614). -/
def Dev.bridgeCut (d : Dev) (die : Nat) (t : Target) (a : Nat) : Bool :=
  d.flag FLT_STAT 4 && (d.targetDie t a).any (· != die)

/-- The bytes reached in one access: a unit of 256 KiB, and with a failed die bridge one interleave unit of DDR5 (R433). -/
def Dev.unitSize (d : Dev) : Nat := if d.flag FLT_STAT 4 then 256 else 0x40000

/-- The T-core of region `r` is bad or its domain OFF: an access to its buffer reads zero, and its write is dropped and counted
(R53, R657). -/
def Dev.tcGone (d : Dev) (r : Nat) : Bool := d.regDead (0x10000000 + 0x1000000 * r + 0x100000)

/-- What item `k` of the Keep holds (log entry 113): 1 the part record with its signature, 2 the cabling plan, 3 the fence
list, 4 the journal, 16 + c a stored configuration or count, 64 (p + 1) + s slot `s` of partition `p`'s checkpoint ring. -/
def Dev.keepItem (d : Dev) (k : Nat) : List Byte :=
  if k = 1 then d.car.partRec
  else if k = 2 then d.cal.kept
  else if k = 3 then (d.fenceList.map (fun e => leBytes 1 e.1 ++ leBytes 1 e.2.1 ++ leBytes 1 e.2.2 ++ zeros 1)).flatten
  else if k = 4 then (d.car.journal.map LogRec.bytes).flatten
  else if 16 ≤ k && k < 64 then SMap.get [] d.car.keepCfg (k - 16)
  else if 64 ≤ k && k < 64 * 17 then SMap.get [] (d.part (k / 64 - 1)).ckpt.slots (k % 64)
  else []

/-- The byte at offset `o` of the Keep window: helper data (item 0) reads zero (R45), held contents as they are, and the rest as
a free byte. -/
def Dev.keepByte (d : Dev) (open_ : Nat → Byte) (o : Nat) : Byte :=
  match Config.keepPlace o with
  | some (0, _) => 0#8
  | some (k, i) => match (d.keepItem k)[i]? with
    | some b => b
    | none => open_ o
  | none => open_ o

/-- DDR5 beyond the fitted capacity is reserved (R41, R42). -/
def Dev.beyond (d : Dev) (t : Target) (a n : Nat) : Bool :=
  match t with
  | .ddr => d.ddrCap < a + n
  | .reserved => true
  | _ => false

/-- Registers read four bytes at a time from offset `o`; `k` of them. -/
def Dev.regReads (ag : Agent) (plain : Bool) : Nat → Nat → Dev → Dev × List Byte
  | 0, _, d => (d, [])
  | k + 1, o, d =>
    let x := d.regRead ag o plain
    let y := Dev.regReads ag plain k (o + 4) x.1
    (y.1, leBytes 4 x.2 ++ y.2)

/-- Words of die `k`'s axon table are read: a single-bit error is written back corrected, an uncorrectable one is a fault. -/
def Dev.axonFix (d : Dev) (k : Nat) (ws : List Nat) : Dev :=
  d.forEach ws (fun d w => match SMap.get 0 d.ecc w with
    | 0 => d
    | 1 => { d with ecc := SMap.set 0 d.ecc w 0 }.bump (AXN_ECCCORR k) 1
    | _ => ((d.bump (AXN_ECCUNC k) 1).setFlag (AXN_STAT k) 3 true).fault fEccAxon [] (srcDie k))

/-- Read `n` bytes at `a` that lie in one 256 KiB unit of the address space: the bytes, and whether the access was allowed. -/
def Dev.readUnit (d : Dev) (ag : Agent) (die a n : Nat) : Dev × List Byte × Bool :=
  let t := target a
  if ! d.may ag t a n then (d.refused ag die t, zeros n, false)
  else if d.beyond t a n then (d.addrErr, zeros n, true)
  else if d.bridgeCut die t a then (d.bridgeDrop die 1, zeros n, true)
  else match t with
  | .ddr => let x := d.ddrRead a n (d.windowParts a); (x.1, x.2.1, true)
  | .core c o => match d.physOf c with
    | none => (d, zeros n, true)
    | some q =>
      if d.storeOn q then
        let d := d.forEach (wordsAt o n) (fun d w => d.scrubAt q w)
        let x := d.readOpen (csBase q + o) n
        (x.1, x.2, true)
      else (d, zeros n, true)
  | .commons _ r o =>
    let b := o / 0x40000
    if d.ownsBank r b (bankAgent ag r) then let x := d.cmnRd r (cmnBase r + o) n; (x.1, x.2, true)
    else (d.nonOwner r b false, zeros n, true)
  | .buffer r o =>
    if d.tcGone r then (d, zeros n, true) else
    let d := d.tcCorrect r (d.badWords r [(o, n)])
    let x := d.readOpen (tcBase r + o) n
    (x.1, x.2, true)
  | .axon k o =>
    let d := d.axonFix k (wordsAt (axBase k + o) n)
    let x := d.readOpen (axBase k + o) n
    (x.1, x.2, true)
  | .reg k o =>
    if a % 4 = 0 && n % 4 = 0 then let x := Dev.regReads ag (k == 0) (n / 4) o d; (x.1, x.2, d.reaches ag o)
    else (d, zeros n, true)
  | .keep o => ({ d with nonce := d.nonce + 1 }, (upTo n).map (fun i => d.keepByte (Config.freeByte d.nonce) (o + i)), true)
  | .reserved => (d, zeros n, true)

/-- Write bytes at `a` of a memory of 64-bit words whose check bits the model holds by word (R360, R439): a part of an
uncorrectable word leaves it uncorrectable (log entry 14). -/
def Dev.wordsWrite (d : Dev) (a : Nat) (l : List Byte) : Dev := d.cmnWr a l

/-- An alias write to a Commons word (R46, R47). -/
def Dev.aliasCommons (d : Dev) (r o : Nat) (l : List Byte) (setBits : Bool) : Dev :=
  let x := d.cmnRd r (cmnBase r + o) l.length
  let old := leNat x.2
  let v := leNat l
  x.1.cmnWr (cmnBase r + o) (leBytes l.length (if setBits then old ||| v else old ^^^ (old &&& v)))

/-- The queue input window that offset `o` of the register space lies in: region, whether it is a combining queue, its number
(R426). -/
def queueWindow (o : Nat) : Option (Nat × Bool × Nat) :=
  let r := (o - 0x10000000) / 0x1000000
  let x := o % 0x10000
  if 0x10000000 ≤ o && o < 0x20000000 && o / 0x10000 % 0x100 = 0x22 then
    if 0x8000 ≤ x && x < 0x8800 then some (r, false, (x - 0x8000) / 64)
    else if 0x9000 ≤ x && x < 0x9200 then some (r, true, (x - 0x9000) / 64)
    else none
  else none

/-- A write to a queue input window: one aligned write of 64 bytes is a message (R407). -/
def Dev.windowWrite (d : Dev) (ag : Agent) (o : Nat) (l : List Byte) (s : Sender) (w : Nat × Bool × Nat) : Dev :=
  if ! d.reachesW ag o then d.addrErr
  else if o % 64 ≠ 0 || l.length ≠ 64 then d.bump (QUE_ADDRERR w.1) 1
  else if w.2.1 then d.combMessage w.1 w.2.2 l s
  else d.chanMessage w.1 w.2.2 l s

/-- Registers written four bytes at a time from offset `o`; `k` of them. -/
def Dev.regWrites (ag : Agent) : Nat → Nat → List Byte → Dev → Dev
  | 0, _, _, d => d
  | k + 1, o, l, d => Dev.regWrites ag k (o + 4) (l.drop 4) (d.regWrite ag o (leAt l 0 4))

/-- Write bytes at `a` that lie in one 256 KiB unit, for a sender that a message is acknowledged to; whether the access was
allowed. -/
def Dev.writeUnit (d : Dev) (ag : Agent) (die a : Nat) (l : List Byte) (s : Sender) : Dev × Bool :=
  let t := target a
  let n := l.length
  if ! d.may ag t a n then (match t with | .keep _ => d.addrErr | _ => d.refused ag die t, false)
  else if d.beyond t a n then (d.addrErr, true)
  else if d.bridgeCut die t a then (d.bridgeDrop die (1 + ceilDiv n 64), true)
  else match t with
  | .ddr => (d.ddrWrite a l (d.windowParts a) n, true)
  | .core c o => match d.physOf c with
    | none => (d.bump (FAB_RFCDROP (c / 16)) 1, true)
    | some q => (if d.storeOn q then d.csWrite q (csBase q + o) l n else d.addrErr, true)
  | .commons k r o =>
    let b := o / 0x40000
    if k ≠ 0 && ! (a % n = 0 && (n = 4 || n = 8)) then (d.addrErr, true)
    else if ! d.ownsBank r b (bankAgent ag r) then (d.nonOwner r b true, true)
    else (if k = 0 then (d.notePortA r o n).cmnPut r (cmnBase r + o) l else d.aliasCommons r o l (k == 1), true)
  | .buffer r o =>
    if d.tcGone r then (d.addrErr, true)
    else (d.bufPut r o l, true)
  | .axon k o => ((d.axonFix k (partWords (axBase k + o) n)).wordsWrite (axBase k + o) l, true)
  | .reg k o =>
    let ok := d.reachesW ag o
    if k ≠ 0 then (if a % 4 = 0 && n = 4 then d.regAlias ag o (leNat l) (k == 1) else d.addrErr, ok)
    else match queueWindow o with
      | some w => (d.windowWrite ag o l s w, ok)
      | none => (if a % 4 = 0 && n % 4 = 0 then Dev.regWrites ag (n / 4) o l d else d, ok)
  | .keep _ => (d.addrErr, true)
  | .reserved => (d, true)

/-- `a` lies in an alias window (R46). -/
def isAlias (a : Nat) : Bool :=
  match target a with
  | .commons k _ _ => k != 0
  | .reg k _ => k != 0
  | _ => false

/-- Read `n` bytes at `a`, unit by unit; the bytes, and whether every access was allowed. -/
def Dev.busReadN (ag : Agent) (die : Nat) : Nat → Nat → Nat → Dev → Dev × List Byte × Bool
  | 0, _, _, d => (d, [], true)
  | fuel + 1, a, n, d =>
    if n = 0 then (d, [], true)
    else
      let k := min n (d.unitSize - a % d.unitSize)
      let x := d.readUnit ag die a k
      let y := Dev.busReadN ag die fuel (a + k) (n - k) x.1
      (y.1, x.2.1 ++ y.2.1, x.2.2 && y.2.2)

def Dev.busRead (d : Dev) (ag : Agent) (die a n : Nat) : Dev × List Byte × Bool :=
  Dev.busReadN ag die (n / 256 + 2) a n d

/-- Write bytes at `a`, unit by unit; an alias write is one access whatever its width (R47). -/
def Dev.busWriteN (ag : Agent) (die : Nat) (s : Sender) : Nat → Nat → List Byte → Dev → Dev × Bool
  | 0, _, _, d => (d, true)
  | fuel + 1, a, l, d =>
    if l.isEmpty then (d, true)
    else
      let k := if isAlias a then l.length else min l.length (d.unitSize - a % d.unitSize)
      let x := d.writeUnit ag die a (l.take k) s
      let y := Dev.busWriteN ag die s fuel (a + k) (l.drop k) x.1
      (y.1, x.2 && y.2)

def Dev.busWrite (d : Dev) (ag : Agent) (die a : Nat) (l : List Byte) (s : Sender) : Dev × Bool :=
  Dev.busWriteN ag die s (l.length / 256 + 2) a l d

/-- An access of `n` bytes at `a` would be served by a Commons bank that the agent owns and whose handover has not ended: it is held
(R422). -/
def Dev.pendAt (d : Dev) (ag : Agent) (a n : Nat) : Bool :=
  match target a with
  | .commons _ r o =>
    (upTo 16).any (fun b => o / 0x40000 ≤ b && b ≤ (o + n - 1) / 0x40000 && d.flag (CMN_OWN r b) 31 &&
      d.ownsBank r b (bankAgent ag r)) && d.may ag (target a) a n
  | _ => false

/-- Hold an access until a handover ends. -/
def Dev.holdAcc (d : Dev) (x : HeldAcc) : Dev := { d with heldAcc := d.heldAcc ++ [x] }

/-! ### The rows of chapter 1 -/

/-- A read of the low half of a 64-bit counter by function `f` (R15). -/
def Dev.counterLow (d : Dev) (f a : Nat) : Dev := if a % 4 = 0 && regPair a then d.registerRead f a else d

/-- A register write by an agent (R11). -/
def Dev.registerWrite (d : Dev) (ag : Agent) (a v : Nat) : Dev := if a % 4 = 0 then d.regWrite ag a v else d

/-- A write through the core-store window of logical core `n` by an agent (R43, R44, R656). -/
def Dev.coreStoreWrite (d : Dev) (ag : Agent) (n off : Nat) (l : List Byte) : Dev :=
  (d.busWrite ag 0 (csBase (n % 256) + off % 0x400000) l .nobody).1

/-- A write through an alias window at local address `a` (R46 to R50). -/
def Dev.aliasWrite (d : Dev) (ag : Agent) (a : Nat) (l : List Byte) : Dev :=
  match target a with
  | .commons k _ _ => if k = 0 then d else (d.busWrite ag 0 a l .nobody).1
  | .reg k _ => if k = 0 then d else (d.busWrite ag 0 a l .nobody).1
  | _ => d

end Sys2Proof.Machine
end

