-- ==== Sys2Proof/Machine/Request.lean ====
section
/-! DEFINITION. Fabric requests and bulk transfers at their target (R31, R39, R40, R250 to R254, R407, R606). -/

namespace Sys2Proof.Machine

/-- The ADDR and LENGTH of a request. -/
def rqAddr (l : List Byte) : Nat := leAt l 16 8
def rqLen (l : List Byte) : Nat := leAt l 24 4

/-- Some word or burst of `n` bytes at local address `a` holds an uncorrectable error. -/
def Dev.holdsUnc (d : Dev) (a n : Nat) : Bool :=
  match target a with
  | .ddr => (upTo ((a + n + 63) / 64 - a / 64)).any (fun k => 2 ≤ SMap.get 0 d.ecc (64 * (a / 64 + k)))
  | .core c o => match d.physOf c with
    | some q => d.storeOn q && ! d.cleanAt (csBase q + o) n
    | none => false
  | .commons _ r o => ! d.cleanAt (cmnBase r + o) n
  | .buffer r o => ! d.cleanAt (tcBase r + o) n
  | .axon k o => ! d.cleanAt (axBase k + o) n
  | _ => false

/-- What every request meets first at its target on die `die`: `f` serves it.  A damaged packet is discarded (R255); a Choked
partition's request gets an ERROR of STATUS 2 (R606); a reserved bit, a device that is not present, or a LENGTH outside R239 is an
address error (R39). -/
def Dev.atTarget (d : Dev) (q type : Nat) (l : List Byte) (f : Dev → Dev) : Dev :=
  let die := q / 4
  let d := d.takePacket l
  if ! pktGood l || pktType l ≠ type then d.crcDiscard die
  else if d.choked (pktPart l) then (d.bump FLT_CHOKEDROP 1).reply die l 0x32 (leBytes 1 2) []
  else if d.badAddress l || rqLen l = 0 || 2048 < rqLen l || (type ≠ 0x20 && (pktPay l).length < rqLen l) then
    d.addressError die l
  else f d

/-- A READ reaches its target (R40). -/
def Dev.readRequest (d : Dev) (q : Nat) (l : List Byte) : Dev :=
  d.atTarget q 0x20 l fun d =>
    let die := q / 4
    let a := rqAddr l % 2 ^ 48
    let bad := d.holdsUnc a (rqLen l)
    if d.pendAt (.fabric (pktPart l)) a (rqLen l) then d.holdAcc (.request q 0x20 l) else
    match d.busRead (.fabric (pktPart l)) die a (rqLen l) with
    | (d, _, false) => d.reply die l 0x32 (leBytes 1 2) []
    | (d, data, true) => d.reply die l 0x30 (leBytes 1 (if bad then 3 else 0) ++ zeros 3 ++ leBytes 4 (rqLen l)) data

/-- The write goes to a queue input window (R407). -/
def toWindow (a : Nat) : Bool :=
  match target a with
  | .reg 0 o => (queueWindow o).isSome
  | _ => false

/-- A WRITE reaches its target (R40): a message is acknowledged when it is entered or dropped (R407), and a write of a window that
is no message not at all. -/
def Dev.writeRequest (d : Dev) (q : Nat) (l : List Byte) : Dev :=
  d.atTarget q 0x21 l fun d =>
    let die := q / 4
    let a := rqAddr l % 2 ^ 48
    if d.pendAt (.fabric (pktPart l)) a (rqLen l) then d.holdAcc (.request q 0x21 l) else
    match d.busWrite (.fabric (pktPart l)) die a ((pktPay l).take (rqLen l)) (.fabric die l) with
    | (d, false) => d.reply die l 0x32 (leBytes 1 2) []
    | (d, true) => if toWindow a then d else d.reply die l 0x31 (zeros 2) []

/-! ### Bulk transfers (R254) -/

def Bulk.is (b : Bulk) (l : List Byte) : Bool :=
  b.src == pktSrc l && b.part == pktPart l && b.tag == pktTag l && b.xfer == leAt l 28 2

/-- BULK_ACK of a transfer: STATUS 4 where packets are missing. -/
def Dev.bulkEnd (d : Dev) (b : Bulk) : Dev :=
  let d := { d with bulks := d.bulks.filter (fun x => x != b) }
  let tail := leBytes 1 (if b.got.length < b.npkt then 4 else 0) ++ zeros 11 ++ leBytes 2 b.xfer ++ zeros 2 ++ leBytes 2 b.got.length
  d.sendPacket b.die none false (packetOf 0x33 3 b.src 0 d.devId b.part b.tag 0 tail [])

/-- A BULK_WRITE packet is written when it arrives; the last one is acknowledged. -/
def Dev.bulkWrite (d : Dev) (q : Nat) (l : List Byte) : Dev :=
  d.atTarget q 0x50 l fun d =>
    if d.pendAt (.fabric (pktPart l)) (rqAddr l % 2 ^ 48) (rqLen l) then d.holdAcc (.request q 0x50 l) else
    let x := d.busWrite (.fabric (pktPart l)) (q / 4) (rqAddr l % 2 ^ 48) ((pktPay l).take (rqLen l)) .nobody
    let d := x.1
    let b := (d.bulks.find? (fun b => b.is l)).getD
      { die := q / 4, src := pktSrc l, part := pktPart l, tag := pktTag l, xfer := leAt l 28 2, npkt := leAt l 32 2, got := [] }
    let seq := leAt l 30 2
    let b' := if x.2 && ! b.got.contains seq then { b with got := b.got ++ [seq] } else b
    let d := { d with bulks := d.bulks.filter (fun y => y != b) ++ [b'] }
    if b'.npkt ≤ b'.got.length then d.bulkEnd b' else d

/-- 1 ms after the first packet of transfer `k` of those in progress. -/
def Dev.bulkTimer (d : Dev) (k : Nat) : Dev :=
  match d.bulks[k]? with
  | some b => d.bulkEnd b
  | none => d

end Sys2Proof.Machine
end

