-- ==== Sys2Proof/Machine/Tend.lean ====
section
/-! DEFINITION. Growth and pruning by TEND (R338 to R343). -/

namespace Sys2Proof.Machine

/-! ### The tend block (R338) -/

def tdCore (b : List Byte) : Nat := leAt b 0 2
def tdPrune (b : List Byte) : Bool := bitAt (byteAt b 2) 0
def tdGrow (b : List Byte) : Bool := bitAt (byteAt b 2) 1
def tdRetire (b : List Byte) : Bool := bitAt (byteAt b 2) 2
def tdRevive (b : List Byte) : Bool := bitAt (byteAt b 2) 3
def tdFirst (b : List Byte) : Nat := leAt b 4 4 % 2 ^ 17
def tdLast (b : List Byte) : Nat := leAt b 8 4 % 2 ^ 17

/-- A TEND at work: the device, the entries pruned and grown, the candidates and writes refused, and CURSOR. -/
structure Tending where
  d      : Dev
  pruned : Nat
  grown  : Nat
  failed : Nat
  cursor : Nat

/-! ### Rows -/

/-- Read the SPP row whose header stands at unit `ra` as the S-core reads it; one with VALID 0 only where `dead` admits it. -/
def Dev.sppRow (d : Dev) (q ra : Nat) (dead : Bool) : Dev × Option PRow :=
  match d.resolve q ra with
  | none => (d, none)
  | some loc =>
    if loc.fmt ≠ 6 then (d, none)
    else
      let d := d.forEach (wordsAt (32 * ra) 16) (fun d w => d.scrubAt q w)
      let h := d.rdB loc.hdr 16
      let n := hdrCount h
      if ! d.cleanAt loc.hdr 16 || (! bitAt (hdrFlags h) 0 && ! dead) || n = 0 || 680 < n || loc.lim < loc.body + 6 * n then
        (d, none)
      else
        let d := d.forEach (wordsAt (32 * ra + 16) (6 * n)) (fun d w => d.scrubAt q w)
        if ! d.cleanAt loc.body (6 * n) then (d, none)
        else (d, some { fmt := 6, ra := ra, units := sppUnits n, hdr := loc.hdr, body := loc.body, h := h, b := d.rdB loc.body (6 * n) })

/-- A dormant entry has weight 0 and AGE 255; every other is live. -/
def Syn.live (y : Syn) : Bool := ! (y.weight == 0 && y.age == 255)

/-- Entry `l` of a row. -/
def PRow.ent (x : PRow) (l : Nat) : Syn := synOf 6 x.h x.b l

/-- Number of live entries of the row as `b` holds it. -/
def PRow.alive (x : PRow) : Nat := ((upTo (hdrCount x.h)).filter (fun l => (x.ent l).live)).length

/-- The rows from unit `ra` to `last` that a walk meets; `fuel` units at most. -/
def Dev.sppLeft (q last : Nat) : Nat → Nat → Dev → Nat
  | 0, _, _ => 0
  | fuel + 1, ra, d =>
    if last < ra then 0
    else match (d.sppRow q ra false).2 with
      | some x => 1 + Dev.sppLeft q last fuel (ra + x.units) d
      | none => Dev.sppLeft q last fuel (ra + 1) d

/-- Write bytes of the core store as the S-core does (R656). -/
def Dev.tdWrite (d : Dev) (q a : Nat) (l : List Byte) : Dev := d.csWrite q a l l.length

/-! ### The reverse index (R320) -/

/-- Directory word of neuron `i`: none where it has no plastic inputs or its word cannot be read. -/
def Dev.revDir (d : Dev) (q i : Nat) : Dev × Option Nat :=
  if d.fld (HRV_REVCFG q) 0 16 ≤ i then (d, none) else d.revWord q i

/-- Write word `w` of the REV area. -/
def Dev.revPut (d : Dev) (q w v : Nat) : Dev := d.tdWrite q (d.areaBase q (SYN_PMREV q) + 4 * w) (leBytes 4 v)

/-- The first of `n` list words from word `w` on that names row `ra` and entry `l`. -/
def Dev.revFind (q ra l : Nat) : Nat → Nat → Dev → Dev × Option Nat
  | 0, _, d => (d, none)
  | n + 1, w, d =>
    match d.revWord q w with
    | (d, some x) => if bitsOf x 15 17 = ra && bitsOf x 5 10 = l then (d, some w) else Dev.revFind q ra l n (w + 1) d
    | (d, none) => Dev.revFind q ra l n (w + 1) d

/-- Remove the word of an entry from its target's list: the list's last word moves into its place (R340). -/
def Dev.revRemove (d : Dev) (q i ra l : Nat) : Dev :=
  match d.revDir q i with
  | (d, none) => d
  | (d, some x) =>
    let s := bitsOf x 14 18
    let n := bitsOf x 0 14
    match Dev.revFind q ra l n s d with
    | (d, none) => d
    | (d, some w) => match d.revWord q (s + n - 1) with
      | (d, none) => d
      | (d, some y) => (d.revPut q w y).revPut q i (putBits x 0 14 (n - 1))

/-- The word after the last that the list of neuron `i` may take. -/
def Dev.revLimit (d : Dev) (q i : Nat) : Dev × Nat :=
  let area := d.areaLen (SYN_PMREV q) / 4
  match d.revDir q (i + 1) with
  | (d, some y) => (d, min area (bitsOf y 14 18))
  | (d, none) => (d, if d.fld (HRV_REVCFG q) 0 16 ≤ i + 1 then area else 0)

/-- The list of neuron `i` has room for one word more: its directory word. -/
def Dev.revRoom (d : Dev) (q i : Nat) : Dev × Option Nat :=
  match d.revDir q i with
  | (d, none) => (d, none)
  | (d, some x) =>
    let y := d.revLimit q i
    (y.1, if bitsOf x 14 18 + bitsOf x 0 14 < y.2 && bitsOf x 0 14 < 16383 then some x else none)

/-- Append the word of an entry to the list whose directory word is `x`. -/
def Dev.revAppend (d : Dev) (q i x ra l : Nat) : Dev :=
  let n := bitsOf x 0 14
  (d.revPut q (bitsOf x 14 18 + n) (ra * 2 ^ 15 + l * 2 ^ 5)).revPut q i (putBits x 0 14 (n + 1))

/-! ### Pruning, retirement, growth and revival (R340 to R342) -/

/-- Write the axon entry AXIDX, where its VALID bit is set: one outside the partition's range is refused (R342). -/
def Tending.axon (t : Tending) (p q : Nat) (b word : List Byte) : Tending :=
  let x := leAt b 24 4
  let die := dieOf (q / 16)
  let i := x % 2 ^ 22
  if ! bitAt x 31 then t
  else if t.d.inRange die p i then { t with d := t.d.wordsWrite (axAddr die i) word }
  else { t with failed := t.failed + 1 }

/-- VALID of the header of row `x`. -/
def Dev.sppValid (d : Dev) (q : Nat) (x : PRow) (v : Bool) : Dev :=
  d.tdWrite q (x.hdr + 4) (leBytes 1 (putBits (hdrFlags x.h) 0 1 (natOf v)))

/-- Prune entry `l` of row `x` (R340). -/
def Tending.pruneEntry (t : Tending) (q : Nat) (x : PRow) (l : Nat) : Tending :=
  let y := x.ent l
  let old := slice x.b (6 * l) 6
  let d := t.d.tdWrite q (x.body + 6 * l) (synBytes 6 old 0 y.delay 0 y.age)
  let d := d.revRemove q y.target x.ra l
  { t with d := d.tdWrite q (x.body + 6 * l) (synBytes 6 old 0 y.delay 0 255), pruned := t.pruned + 1 }

/-- Prune the row's entries of AGE at or above KPRUNE, and retire a row that this leaves with no live entry. -/
def Tending.pruneRow (t : Tending) (p q : Nat) (b : List Byte) (x : PRow) : Tending :=
  let ls := (upTo (hdrCount x.h)).filter (fun l => (x.ent l).live && byteAt b 3 ≤ (x.ent l).age)
  let t := ls.foldl (fun t l => t.pruneEntry q x l) t
  if tdRetire b && ! ls.isEmpty && x.alive = ls.length then
    ({ t with d := t.d.sppValid q x false }).axon p q b (zeros 8)
  else t

/-- Prune from unit `ra` to LASTRA in address order. -/
def Tending.pruneFrom (p q : Nat) (b : List Byte) : Nat → Nat → Tending → Tending
  | 0, _, t => t
  | fuel + 1, ra, t =>
    if tdLast b < ra then t
    else match t.d.sppRow q ra false with
      | (d, none) => Tending.pruneFrom p q b fuel (ra + 1) { t with d := d }
      | (d, some x) => Tending.pruneFrom p q b fuel (ra + x.units) (({ t with d := d } : Tending).pruneRow p q b x)

/-- One candidate of the pool: grown, or refused (R341, R342). -/
def Tending.candidate (t : Tending) (p q : Nat) (b : List Byte) (e : Nat) : Tending :=
  let ra := e % 2 ^ 17
  let toff := bitsOf e 17 14
  let no (d : Dev) : Tending := { t with d := d, failed := t.failed + 1 }
  if ra < tdFirst b || tdLast b < ra then no t.d
  else match t.d.sppRow q ra (tdRevive b) with
    | (d, none) => no d
    | (d, some x) =>
      let n := hdrCount x.h
      let i := leAt x.h 0 2 % 32768 + toff
      let dead := ! bitAt (hdrFlags x.h) 0
      let taken := (upTo n).any (fun l => (x.ent l).live && (x.ent l).target == i)
      match (upTo n).find? (fun l => ! (x.ent l).live) with
      | none => no d
      | some l =>
        if d.ncount q ≤ i || taken || (dead && x.alive ≠ 0) then no d
        else match d.revRoom q i with
          | (d, none) => no d
          | (d, some dir) =>
            let a := x.body + 6 * l
            let word (w : Nat) : List Byte := leBytes 6 (toff + w * 2 ^ 14 + byteAt b 15 % 16 * 2 ^ 22)
            let d := ((d.tdWrite q a (word 0)).revAppend q i dir ra l).tdWrite q a (word (byteAt b 14))
            let t : Tending := { t with d := d, grown := t.grown + 1 }
            if dead then ({ t with d := t.d.sppValid q x true }).axon p q b (slice b 32 8) else t

/-- Take candidates from CURSOR on, until GROWMAX have grown or POOLN have been taken. -/
def Tending.grow (r p q : Nat) (b : List Byte) : Nat → Tending → Tending
  | 0, t => t
  | fuel + 1, t =>
    let n := leAt b 20 2
    if leAt b 12 2 ≤ t.grown then t
    else
      let c := t.cursor % n
      let x := t.d.busRead (.score r) (dieOf r) (cmnBase r + (leAt b 16 4 + 4 * c) % 0x400000) 4
      Tending.grow r p q b fuel (({ t with d := x.1, cursor := (c + 1) % n } : Tending).candidate p q b (leNat x.2.1))

/-- What TEND does to the rows of site `q` for the block `b` (R340 to R342). -/
def Dev.tendRows (d : Dev) (r p q : Nat) (b : List Byte) : Tending :=
  let t : Tending := { d := d, pruned := 0, grown := 0, failed := 0, cursor := leAt b 22 2 }
  let t := if tdPrune b then Tending.pruneFrom p q b (tdLast b + 1 - tdFirst b) (tdFirst b) t else t
  if tdGrow b then Tending.grow r p q b (leAt b 20 2) t else t

/-- The results in the tend block at local address `a` (R338). -/
def Tending.results (t : Tending) (r a : Nat) : Dev :=
  let d := (t.d.busWrite (.score r) (dieOf r) (a + 22) (leBytes 2 t.cursor) .nobody).1
  (d.busWrite (.score r) (dieOf r) (a + 40) (leBytes 4 t.pruned ++ leBytes 4 t.grown ++ leBytes 4 t.failed) .nobody).1

/-- How a TEND stands (R339). -/
inductive TendIs
  | waits
  | closed
  | goes
  deriving DecidableEq, Repr

/-- A TEND of site `q` that began in Season `s` may run: HDONE is set, no Muted beat, and the window of R334 is open. -/
def Dev.tendState (d : Dev) (p q s : Nat) : TendIs :=
  if d.rg (HRV_SEASONNO q) ≠ s || min (d.fld (HRV_HWIN q) 0 16) (d.fld (HRV_SEASON q) 0 16) ≤ d.fld (HRV_SCOUNT q) 0 16 then .closed
  else if ! d.flag (HRV_STAT q) 2 || d.muteBeat q p then .waits
  else .goes

end Sys2Proof.Machine
end

