-- ==== Sys2Proof/Machine/Score.lean ====
section
/-! DEFINITION. The S-core's descriptors (R399 to R405, R409, R412, R418, R419).  A descriptor that reaches memory is a small
program of accesses; one that goes to another device leaves as fabric requests, and the program goes on when they have been
answered (R252, R401). -/

namespace Sys2Proof.Machine

/-! ### Programs of accesses -/

/-- What a descriptor does: a read of `n` bytes, a write, a last write whose acknowledgement ends the operation, or an
effect on the device. -/
inductive Prog
  | rd (a n : Nat) (k : List Byte → Prog)
  | wr (a : Nat) (l : List Byte) (k : Prog)
  | send (a : Nat) (l : List Byte)
  | fin (f : Dev → Dev)

/-- Operation `id` of the S-core of region `r`. -/
def Dev.opOf (d : Dev) (r id : Nat) : Option SOp := (d.score r).ops.find? (fun o => o.id == id)

/-- Replace an operation. -/
def Dev.setOp (d : Dev) (r : Nat) (o : SOp) : Dev :=
  let x := d.score r
  d.setScore r { x with ops := x.ops.map (fun y => if y.id == o.id then o else y) }

/-- An operation that nothing acknowledges ends. -/
def Dev.opDrop (d : Dev) (r id : Nat) : Dev :=
  let x := d.score r
  d.setScore r { x with ops := x.ops.filter (fun o => o.id != id) }

/-- The pieces of an access of `n` bytes: offset and length, up to 2,048 bytes each (R401). -/
def pieceList (n : Nat) : List (Nat × Nat) := (upTo (ceilDiv n 2048)).map (fun i => (2048 * i, min 2048 (n - 2048 * i)))

/-- A piece of the access in progress has been answered. -/
def Dev.setPiece (d : Dev) (r id off : Nat) (l : List Byte) : Dev :=
  match d.opOf r id with
  | none => d
  | some o => d.setOp r { o with pieces := SMap.set [] o.pieces off l }

/-- A request of the S-core of region `r` is outstanding: a piece at offset `off` of operation `id`, of `n` bytes (R252). -/
def Dev.reqOut (d : Dev) (r id off n : Nat) (read : Bool) : Dev :=
  { d with nextTag := (d.nextTag + 1) % 65536
           reqs := d.reqs ++ [{ tag := d.nextTag, read := read, len := n, region := r, id := id, off := off }] }

/-- A fabric request of the S-core of region `r` for a piece at address `a` (R252, R401). -/
def Dev.sendReq (d : Dev) (r id off a n : Nat) (w : Option (List Byte)) : Dev :=
  let tag := d.nextTag
  let p := (d.regPart r).getD 0
  let dev := bitsOf a 48 9
  let tail := leBytes 8 a ++ leBytes 4 n
  let d := d.reqOut r id off n w.isNone
  match w with
  | none => d.sendPacket (dieOf r) none false (packetOf 0x20 2 dev 0 d.devId p tag 0 tail [])
  | some l => d.sendPacket (dieOf r) none false (packetOf 0x21 2 dev 0 d.devId p tag 0 tail l)

/-- Operation `id` has a piece that waits to be sent or served. -/
def Dev.holdOp (d : Dev) (r id : Nat) : Dev :=
  match d.opOf r id with
  | some o => d.setOp r { o with held := true }
  | none => d

/-- The S-core has 64 requests outstanding (R252). -/
def Dev.reqsFull (d : Dev) (r : Nat) : Bool := 64 ≤ (d.reqs.filter (fun q => q.region == r)).length

/-- A write of `n` bytes at `a` of this device touches a queue input window. -/
def inWindow64 (a n : Nat) : Bool :=
  match target (a % 2 ^ 48), target ((a + n - 1) % 2 ^ 48) with
  | .reg 0 o, .reg 0 o' => (upTo ((o' - o) / 64 + 2)).any (fun k => (queueWindow (min o' (o + 64 * k))).isSome)
  | _, _ => false

/-- Make the access of one piece, where it has neither been made nor requested: at most 64 requests are outstanding (R252), an access
to a bank whose handover has not ended waits (R422), and a write to a queue input window that is no message is never acknowledged
(R407). -/
def Dev.pieceGo (r id a : Nat) (w : Option (List Byte)) (d : Dev) (p : Nat × Nat) : Dev :=
  match d.opOf r id with
  | none => d
  | some o =>
    let x := (a + p.1) % 2 ^ 64
    let part := w.map (fun l => slice l p.1 p.2)
    if SMap.get [] o.pieces p.1 ≠ [] || d.reqs.any (fun q => q.region == r && q.id == id && q.off == p.1) then d
    else if 2 ^ 57 ≤ x || ! d.present (bitsOf x 48 9) then
      -- the first router discards the request and answers an address error (R39)
      let d := ((d.bump (FAB_ADDRERR (dieOf r)) 1).setFlag (FAB_DSTAT (dieOf r)) 1 true).bump FLT_ADDRERR 1
      let y := (d.fault fAddr [] (srcDie (dieOf r))).openBytes p.2
      y.1.setPiece r id p.1 y.2
    else if bitsOf x 48 9 = d.devId then
      if d.pendAt (.score r) (x % 2 ^ 48) p.2 then d.holdOp r id
      else if d.bridgeCut (dieOf r) (target (x % 2 ^ 48)) (x % 2 ^ 48) then
        -- the request is lost at the failed bridge and never answered (R24, R614)
        (d.bridgeDrop (dieOf r) (1 + (part.map (fun l => ceilDiv l.length 64)).getD 0)).reqOut r id p.1 p.2 part.isNone
      else match part with
      | none => let y := d.busRead (.score r) (dieOf r) (x % 2 ^ 48) p.2; y.1.setPiece r id p.1 y.2.1
      | some l =>
        let y := (d.busWrite (.score r) (dieOf r) (x % 2 ^ 48) l .nobody).1
        if inWindow64 x p.2 then y.reqOut r id p.1 p.2 false else y.setPiece r id p.1 [1#8]
    else if d.reqsFull r then d.holdOp r id
    else d.sendReq r id p.1 x p.2 part

/-- Make an access of an operation: its bytes once every piece has been answered. -/
def Dev.access (d : Dev) (r id a n : Nat) (w : Option (List Byte)) : Dev × Option (List Byte) :=
  let ps := pieceList n
  let d := d.forEach ps (Dev.pieceGo r id a w)
  match d.opOf r id with
  | none => (d, none)
  | some o =>
    if ps.all (fun p => SMap.get [] o.pieces p.1 != []) then
      let l := (ps.map (fun p => SMap.get [] o.pieces p.1)).flatten
      (d.setOp r { o with pieces := [], log := o.log ++ [l] }, some l)
    else (d, none)

/-- A 64-byte write at `a` is a message to a queue input window of this device that the S-core reaches (R407). -/
def Dev.isMessage (d : Dev) (r a n : Nat) : Bool :=
  n == 64 && bitsOf a 48 9 == d.devId && a < 2 ^ 57 &&
    (match target (a % 2 ^ 48) with
      | .reg 0 o => (queueWindow o).isSome && o % 64 == 0 && d.reachesW (.score r) o
      | _ => false)

/-- Run the program of an operation: the accesses already made are in `log`, oldest first. -/
def Dev.runProg (r id : Nat) : Prog → List (List Byte) → Dev → Dev
  | .fin f, _, d => f d
  | .rd a n k, [], d => match d.access r id a n none with
    | (d, some l) => Dev.runProg r id (k l) [] d
    | (d, none) => d
  | .rd _ _ k, l :: log, d => Dev.runProg r id (k l) log d
  | .wr a l k, [], d => match d.access r id a l.length (some l) with
    | (d, some _) => Dev.runProg r id k [] d
    | (d, none) => d
  | .wr _ _ k, _ :: log, d => Dev.runProg r id k log d
  | .send a l, _, d =>
    if d.isMessage r a l.length then
      if d.reqsFull r then d.holdOp r id
      else ((d.reqOut r id 0 64 false).busWrite (.score r) (dieOf r) (a % 2 ^ 48) l (.score r id)).1
    else match d.access r id a l.length (some l) with
      | (d, some _) => d.opEnd r id false
      | (d, none) => d

/-! ### Commons rings (R416 to R419) -/

/-- Fields of a ring's control block. -/
def rgBase (c : List Byte) : Nat := leAt c 0 4
def rgSize (c : List Byte) : Nat := 2 ^ byteAt c 4
def rgHead (c : List Byte) : Nat := leAt c 8 4
def rgTail (c : List Byte) : Nat := leAt c 12 4
/-- LOG2SIZE is one of R416. -/
def rgOk (c : List Byte) : Bool := 12 ≤ byteAt c 4 && byteAt c 4 ≤ 18

/-- The address of position `p` of the ring whose control block is at `g`. -/
def ringAt (g : Nat) (c : List Byte) (p : Nat) : Nat := g - g % 0x400000 + (rgBase c + p % rgSize c) % 0x400000

/-- A record header (R417). -/
def ringHdr (type units len : Nat) : List Byte := leBytes 1 type ++ zeros 1 ++ leBytes 2 units ++ leBytes 4 len

/-- RPUT of `n` bytes from `src` into the ring at `g`; `done` takes the status (R418). -/
def rputProg (g src n : Nat) (done : Nat → Prog) : Prog :=
  .rd g 64 fun c =>
    let size := rgSize c
    let units := ceilDiv (8 + n) 64
    let pos := rgHead c % size
    let left := (size - pos) / 64
    let pad := if left < units then left else 0
    let used := (rgHead c + 2 ^ 32 - rgTail c) % 2 ^ 32
    let w := if pad = 0 then pos else 0
    if ! rgOk c then done Status.denied.code
    else if size - 64 < 64 * units then done Status.tooLong.code
    else if size - used < 64 * (pad + units) then done Status.busy.code
    else
      .rd src n fun data =>
      .wr (ringAt g c (w + 8)) data <|
      .wr (ringAt g c w) (ringHdr 1 units n) <|
        let last : Prog := .wr (g + 8) (leBytes 4 (rgHead c + 64 * (pad + units))) (done 0)
        if pad = 0 then last else .wr (ringAt g c pos) (ringHdr 0 pad 0) last

/-- RGET from the ring at `g`, whose control block reads `c`, into `dst` (R419): `t` is TAIL; `done` takes GD, `bad` is the
fault of code 7.  `fuel` records are looked at. -/
def rgetProg (g dst : Nat) (c : List Byte) (done : Nat → Prog) (bad : Prog) : Nat → Nat → Prog
  | 0, _ => bad
  | fuel + 1, t =>
    if t = rgHead c then done (2 ^ 64 - 1)
    else
      .rd (ringAt g c t) 8 fun h =>
        let units := leAt h 2 2
        let t' := (t + 64 * units) % 2 ^ 32
        if 1 < byteAt h 0 || units = 0 || (rgHead c + 2 ^ 32 - t) % 2 ^ 32 < 64 * units then bad
        else if byteAt h 0 = 0 then .wr (g + 12) (leBytes 4 t') (rgetProg g dst c done bad fuel t')
        else
          .rd (ringAt g c (t + 8)) (leAt h 4 4) fun data =>
          .wr dst data <| .wr (g + 12) (leBytes 4 t') (done (leAt h 4 4))

/-! ### What a descriptor's operation does -/

/-- A descriptor that nothing acknowledges ends, with GD written. -/
def Dev.opGd (d : Dev) (r id v : Nat) : Dev :=
  let d := d.opDrop r id
  (d.setG r (dGd (d.seqDesc r)) v).seqNext r

/-- One that writes no G register. -/
def Dev.opNext (d : Dev) (r id : Nat) : Dev := (d.opDrop r id).seqNext r

/-- The S-core's T-core cannot be used: it is bad, fenced or OFF (R53, R610). -/
def Dev.tcOut (d : Dev) (r : Nat) : Bool := d.regDead (TCR_DQPUSH r 0) || d.tcoreBad r

/-- ENCODE has read its descriptor `x` (R382, R402): one that is no ENCODE descriptor is BAD_OPCODE (R20). -/
def Dev.encodeGo (d : Dev) (r id : Nat) (x : List Byte) : Dev :=
  if byteAt x 0 ≠ 6 then d.opGd r id Status.badOpcode.code
  else if d.tcOut r then d.opGd r id Status.fenced.code
  else if 8 ≤ (d.tcore r).queue.length then (d.tcPush r x true).opGd r id Status.busy.code
  else (d.tcPush r x true).seqWait r 6

/-- A descriptor goes to the T-core of region `r` as 16 writes, which a T-core that cannot be used drops, each counted (R53,
R657). -/
def Dev.tcDrop (d : Dev) (r : Nat) : Dev := d.forEach (upTo 16) (fun d k => d.regWrite (.score r) (TCR_DQPUSH r k) 0)

/-- DECODE has read its descriptor `x`: `n` slots of the partition's last closed frame go to A.ADDR, and the descriptor to the
T-core (R402). -/
def Dev.decodeGo (d : Dev) (r id n : Nat) (x : List Byte) : Dev :=
  match (d.regPart r).bind d.readoutRegion with
  | none => ((if d.tcOut r then d.tcDrop r else d.tcPush r x false).opGd r id 0)
  | some ro =>
    let beat := d.rg64 (AXN_RFRAME_LO ro)
    let off := leAt x 16 4 % 2 ^ 21
    let y := d.cmnRd ro (d.frameAddr ro beat 0) (4 * min n 65536)
    let d := y.1
    let d := if d.tcGone r then d.addrErr else d.wordsWrite (tcBase r + off) (y.2.take (2 ^ 21 - off))
    let d := if d.tcOut r then d.tcDrop r else d.tcPush r x false
    d.opGd r id beat

/-- TPUSH has read the descriptors: one for each region of the mask, rising, each as 16 register writes (R396). -/
def Dev.tpushGo (d : Dev) (r mask : Nat) (l : List Byte) : Dev :=
  let rs := maskBits 16 mask
  d.forEach (upTo rs.length) (fun d i =>
    d.forEach (upTo 16) (fun d k => d.regWrite (.score r) (TCR_DQPUSH (rs.getD i 0) k) (leAt l (64 * i + 4 * k) 4)))

/-- EVSEND has read its records (R402, R412). -/
def Dev.evsendGo (d : Dev) (r id size : Nat) (l : List Byte) : Dev :=
  let y := d.evSend r size l
  y.1.opEnd r id y.2

/-- The number of records of an EVSEND: a negative IMM is none. -/
def evCount (x : List Byte) : Nat := (sInt 32 (dImm x)).toNat

/-- The program of an operation (R402). -/
def progOf (r : Nat) (o : SOp) : Prog :=
  let x := o.desc
  let ea := (dAddr x + o.gs) % 2 ^ 64
  match dOpc x with
  | 0x04 => .rd ea 8 fun l => .fin fun d => d.opGd r o.id (leNat l)
  | 0x05 => .wr ea (leBytes 8 o.gd) (.fin fun d => d.opNext r o.id)
  | 0x08 => .rd o.gs (dImm x) fun l => .send o.gd l
  | 0x09 => .rd o.gs 64 fun l => .send o.gd l
  -- RECV: the message popped stands first among the accesses made
  | 0x0A => .rd 0 64 fun l => .wr o.gd l (.fin fun d => d.opNext r o.id)
  | 0x0F =>
    let size := if dCh x % 2 = 1 then 16 else 8
    .rd o.gs (size * evCount x) fun l => .fin fun d => d.evsendGo r o.id size l
  | 0x10 => .rd o.gs (64 * (maskBits 16 (dImm x)).length) fun l => .fin fun d => (d.tpushGo r (dImm x) l).opNext r o.id
  | 0x11 => .rd o.gs 64 fun l => .fin fun d => d.encodeGo r o.id l
  | 0x12 => .rd o.gs 64 fun l => .fin fun d => d.decodeGo r o.id (dImm x) l
  | 0x18 => rputProg o.gs (dAddr x) (dImm x) fun st => .fin fun d => d.opGd r o.id st
  | 0x19 => .rd o.gs 64 fun c =>
    let bad : Prog := .fin fun d => (d.opDrop r o.id).seqFault r 7 (d.seqPc r)
    if ! rgOk c then bad
    else rgetProg o.gs (dAddr x) c (fun v => .fin fun d => d.opGd r o.id v) bad
      ((rgHead c + 2 ^ 32 - rgTail c) % 2 ^ 32 / 64 + 1) (rgTail c)
  | _ => .fin fun d => d

/-- An operation goes on as far as its accesses have been answered. -/
def Dev.opGo (d : Dev) (r id : Nat) : Dev :=
  match d.opOf r id with
  | none => d
  | some o => Dev.runProg r id (progOf r o) o.log (d.setOp r { o with held := false })

/-- The operations of the S-core of region `r` that hold a piece back go on (R252, R422). -/
def Dev.opsGo (d : Dev) (r : Nat) : Dev :=
  d.forEach (((d.score r).ops.filter (fun o => o.held)).map (fun o => o.id)) (fun d id => d.opGo r id)

/-- Descriptor `x` starts an operation (R403): a posted one leaves the S-core free to go on. -/
def Dev.opStart (d : Dev) (r : Nat) (x : List Byte) (posted : Bool) (pre : List (List Byte)) : Dev :=
  let sc := d.score r
  let o : SOp := { id := sc.next, desc := x, gd := d.greg r (dGd x), gs := d.greg r (dGs x), posted := posted, log := pre,
                   pieces := [], refused := false, held := false }
  let d := d.setScore r { sc with ops := sc.ops ++ [o], next := sc.next + 1, cur := if posted then sc.cur else some o.id }
  let d := if posted then (d.setF (SEQ_OUTST r) 0 7 (d.fld (SEQ_OUTST r) 0 7 + 1)).seqNext r else d.seqWait r 0
  d.opGo r o.id

/-! ### Descriptors -/

/-- The fields a descriptor of each opcode uses (R402): bit 0 CSEL, 1 POST, 2 GD, 3 GS, 4 CH, 5 IMM, 6 ADDR. -/
def usedFields : List Nat :=
  [0, 32, 68, 44, 76, 76, 52, 36, 47, 15, 20, 20, 48, 5, 4, 59, 40, 13, 44, 12, 4, 4, 12, 48, 108, 76, 36]

/-- Every reserved field and every field the opcode does not use is zero (R400). -/
def descClean (x : List Byte) : Bool :=
  let u := usedFields.getD (dOpc x) 0
  let ok (k v : Nat) : Bool := bitAt u k || v == 0
  byteAt x 1 / 16 == 0 && byteAt x 3 / 32 == 0 && ok 0 (dCsel x) && ok 1 (natOf (dPost x)) && ok 2 (dGd x) && ok 3 (dGs x) &&
    ok 4 (dCh x) && ok 5 (dImm x) && ok 6 (dAddr x)

/-- The S-core of region `r` runs: RUNNING, its region assigned to a partition that is not Choked, its domain ON (R405, R425). -/
def Dev.scoreGoes (d : Dev) (r : Nat) : Bool :=
  d.seqState r == 1 && ! (d.regPart r).all d.choked && d.domLevel (domOf r 5) == 2 && ! d.scoreBad r && d.pwr.asleep == 0

/-- The descriptor at the PC has started (R625): its trace record. -/
def Dev.descSeen (d : Dev) (r : Nat) (x : List Byte) : Dev :=
  d.traceRec (dieOf r) 8 (d.regPart r) (tocOrigin (272 + r)) none none (leBytes 2 (d.seqPc r) ++ leBytes 1 (dOpc x))

/-- The S-core of region `r` comes to a descriptor of opcode `op` (R400, R404): nothing happens unless it runs and that
descriptor stands at its PC. -/
def Dev.desc (d : Dev) (r op : Nat) (f : Dev → List Byte → Dev) : Dev :=
  let x := d.seqDesc r
  if ! d.scoreGoes r || dOpc x ≠ op then d
  else
    let d := d.descSeen r x
    if descClean x then f d x else d.seqFault r 2 (d.seqPc r)

/-- A scalar opcode takes one arithmetic cycle (R402, R620). -/
def Dev.scalar (d : Dev) (r : Nat) : Dev := if d.regFrozen r then d else d.count64 (OBS_SBUSY_LO r) 1

def Dev.reservedOp (d : Dev) (r : Nat) : Dev :=
  let x := d.seqDesc r
  if ! d.scoreGoes r || dOpc x < 0x1B then d else (d.descSeen r x).seqFault r 1 (d.seqPc r)

def Dev.opNop (d : Dev) (r : Nat) : Dev := d.desc r 0 fun d _ => (d.scalar r).seqNext r

/-- HALT: the record carries IMM; the PC is the next descriptor. -/
def Dev.opHalt (d : Dev) (r : Nat) : Dev := d.desc r 1 fun d x =>
  let d := ((d.scalar r).bump64 (SEQ_DESC_LO r) 1).tocArrive (272 + r) 1 ((d.regPart r).getD 0) (dImm x) 0 true
  (d.setF (SEQ_PC r) 0 12 (d.seqPc r + 1)).setSeq r 0 0

def Dev.opSet (d : Dev) (r : Nat) : Dev := d.desc r 2 fun d x => ((d.scalar r).setG r (dGd x) (dAddr x)).seqNext r

def Dev.opAdd (d : Dev) (r : Nat) : Dev := d.desc r 3 fun d x =>
  ((d.scalar r).setG r (dGd x) (d.greg r (dGs x) + dImm64 x)).seqNext r

/-- LOAD and STORE: an address that is not 8-byte aligned faults (R404). -/
def Dev.opLoad (d : Dev) (r : Nat) : Dev := d.desc r 4 fun d x =>
  if (dAddr x + d.greg r (dGs x)) % 8 ≠ 0 then d.seqFault r 3 (d.seqPc r) else (d.scalar r).opStart r x false []

def Dev.opStore (d : Dev) (r : Nat) : Dev := d.desc r 5 fun d x =>
  if (dAddr x + d.greg r (dGs x)) % 8 ≠ 0 then d.seqFault r 3 (d.seqPc r) else (d.scalar r).opStart r x false []

/-- The condition of a BRANCH. -/
def branchTaken (c g : Nat) : Bool :=
  if c % 4 = 0 then true else if c % 4 = 1 then g == 0 else if c % 4 = 2 then g != 0 else bitAt g 63

def Dev.opBranch (d : Dev) (r : Nat) : Dev := d.desc r 6 fun d x =>
  (d.scalar r).seqGoto r (if branchTaken (dCh x) (d.greg r (dGd x)) then dImm x else d.seqPc r + 1)

def Dev.opLoop (d : Dev) (r : Nat) : Dev := d.desc r 7 fun d x =>
  let g := (d.greg r (dGd x) + 2 ^ 64 - 1) % 2 ^ 64
  ((d.scalar r).setG r (dGd x) g).seqGoto r (if g = 0 then d.seqPc r + 1 else dImm x)

/-- An acknowledged operation starts; a posted one that would make 65 outstanding waits (R403). -/
def Dev.ackedOp (d : Dev) (r : Nat) (x : List Byte) : Dev :=
  if dPost x && 64 ≤ d.fld (SEQ_OUTST r) 0 7 then d.seqWait r 5 else d.opStart r x (dPost x) []

def Dev.opMove (d : Dev) (r : Nat) : Dev := d.desc r 8 fun d x =>
  if d.greg r (dGs x) % 8 ≠ 0 || d.greg r (dGd x) % 8 ≠ 0 then d.seqFault r 3 (d.seqPc r)
  else if dImm x % 8 ≠ 0 || dImm x < 8 || 1048576 < dImm x then d.seqFault r 5 (d.seqPc r)
  else d.ackedOp r x

/-- SEND: WAIT reads 8 while the message is held (R408). -/
def Dev.opSend (d : Dev) (r : Nat) : Dev := d.desc r 9 fun d x =>
  if d.greg r (dGs x) % 64 ≠ 0 || d.greg r (dGd x) % 64 ≠ 0 then d.seqFault r 3 (d.seqPc r)
  else
    let d := d.ackedOp r x
    match (d.score r).cur with
    | some id => if ! dPost x && d.seqState r = 2 && (d.opOf r id).isSome && d.isMessage r (d.greg r (dGd x)) 64 then
        d.setF (SEQ_STAT r) 8 4 8 else d
    | none => d

/-- RECV takes the head of its channel. -/
def Dev.recvTake (d : Dev) (r : Nat) (x : List Byte) : Dev :=
  match d.chan r (dCh x) with
  | [] => d.seqWait r 1
  | m :: _ => ((d.chanPop r (dCh x)).chanGo r (dCh x)).opStart r x false [m.data]

/-- RECV (R404, R409). -/
def Dev.recvGo (d : Dev) (r : Nat) (x : List Byte) : Dev :=
  if d.greg r (dGd x) % 64 ≠ 0 then d.seqFault r 3 (d.seqPc r)
  else if d.chHost r (dCh x) then d.seqFault r 6 (d.seqPc r)
  else d.recvTake r x

def Dev.opRecv (d : Dev) (r : Nat) : Dev := d.desc r 0x0A fun d x => d.recvGo r x

/-- The S-core of region `r` waits at a descriptor of opcode `op` for WAIT reason `w`. -/
def Dev.waitsAt (d : Dev) (r op w : Nat) : Bool :=
  d.seqState r == 2 && d.fld (SEQ_STAT r) 8 4 == w && dOpc (d.seqDesc r) == op && d.domLevel (domOf r 5) == 2 && d.pwr.asleep == 0

def Dev.recvResume (d : Dev) (r : Nat) : Dev :=
  let x := d.seqDesc r
  if ! d.waitsAt r 0x0A 1 || ((d.chan r (dCh x)).isEmpty && ! d.chHost r (dCh x)) then d else d.recvGo r x

def Dev.opPeek (d : Dev) (r : Nat) : Dev := d.desc r 0x0B fun d x =>
  (d.setG r (dGd x) (d.rg (QUE_CHSTAT r (dCh x)))).seqNext r

def Dev.opChctl (d : Dev) (r : Nat) : Dev := d.desc r 0x0C fun d x =>
  (d.regBits (.score r) (QUE_CHCTL r (dCh x)) (dImm x % 8)).seqNext r

/-- WAITC's condition. -/
def Dev.waitcOk (d : Dev) (r : Nat) (x : List Byte) : Bool :=
  (d.rg (SEQ_CCNT r (dCsel x)) + 2 ^ 32 - d.greg r (dGd x) % 2 ^ 32) % 2 ^ 32 < 2 ^ 31

def Dev.opWaitc (d : Dev) (r : Nat) : Dev := d.desc r 0x0D fun d x =>
  if d.waitcOk r x then d.seqNext r else d.seqWait r 2

def Dev.waitcResume (d : Dev) (r : Nat) : Dev :=
  if d.waitsAt r 0x0D 2 && d.waitcOk r (d.seqDesc r) then d.seqNext r else d

/-- WAITB's condition. -/
def Dev.waitbOk (d : Dev) (r : Nat) (x : List Byte) : Bool :=
  (d.beat ((d.regPart r).getD 0) + 2 ^ 48 - d.greg r (dGd x) % 2 ^ 48) % 2 ^ 48 < 2 ^ 47

def Dev.opWaitb (d : Dev) (r : Nat) : Dev := d.desc r 0x0E fun d x =>
  if d.waitbOk r x then d.seqNext r else d.seqWait r 3

def Dev.waitbResume (d : Dev) (r : Nat) : Dev :=
  if d.waitsAt r 0x0E 3 && (d.regPart r).isSome && d.waitbOk r (d.seqDesc r) then d.seqNext r else d

def Dev.opEvsend (d : Dev) (r : Nat) : Dev := d.desc r 0x0F fun d x => d.ackedOp r x
def Dev.opTpush (d : Dev) (r : Nat) : Dev := d.desc r 0x10 fun d x => d.opStart r x false []
def Dev.opEncode (d : Dev) (r : Nat) : Dev := d.desc r 0x11 fun d x => d.opStart r x false []
def Dev.opDecode (d : Dev) (r : Nat) : Dev := d.desc r 0x12 fun d x => d.opStart r x false []

/-- A TEND whose block `b` was read from address `a` in Season `s` runs, ends or waits (R339). -/
def Dev.tendGo (d : Dev) (r id a s : Nat) (b : List Byte) : Dev :=
  match d.regPart r with
  | none => d
  | some p =>
    if 256 ≤ tdCore b || ! d.owns p (tdCore b / 16) then d.opGd r id Status.denied.code
    else match d.physOf (tdCore b) with
      | none => d.opGd r id Status.fenced.code
      | some q => match d.tendState p q s with
        | .waits => d
        | .closed =>
          let n := Dev.sppLeft q (tdLast b) (tdLast b + 1 - tdFirst b) (tdFirst b) d
          (({ d := d, pruned := 0, grown := 0, failed := n, cursor := leAt b 22 2 } : Tending).results r a).opGd r id
            Status.incomplete.code
        | .goes => ((d.tendRows r p q b).results r a).opGd r id 0

/-- TEND reads its block and begins; while the block's bank is being handed over, the descriptor stays at the PC (R422). -/
def Dev.tendStart (d : Dev) (r : Nat) (x : List Byte) : Dev :=
  let g := d.greg r (dGs x)
  let sc := d.score r
  if 2 ^ 57 ≤ g || bitsOf g 48 9 ≠ d.devId then (d.setG r (dGd x) Status.denied.code).seqNext r
  else if d.pendAt (.score r) (g % 2 ^ 48) 64 then d
  else
    let y := d.busRead (.score r) (dieOf r) (g % 2 ^ 48) 64
    let s := match d.physOf (tdCore y.2.1) with | some q => d.rg (HRV_SEASONNO q) | none => 0
    let o : SOp := { id := sc.next, desc := x, gd := 0, gs := g, posted := false, log := [leBytes 4 s, y.2.1], pieces := [],
                     refused := false, held := false }
    let d := y.1.setScore r { sc with ops := sc.ops ++ [o], next := sc.next + 1, cur := some sc.next }
    (d.seqWait r 7).tendGo r sc.next (g % 2 ^ 48) s y.2.1

/-- TEND; sent again while the S-core waits at it, it goes on where the core's harvest has ended meanwhile. -/
def Dev.opTend (d : Dev) (r : Nat) : Dev :=
  if d.waitsAt r 0x13 7 then
    match (d.score r).cur with
    | none => d
    | some id => match d.opOf r id with
      | none => d
      | some o => d.tendGo r id (o.gs % 2 ^ 48) (leNat (o.log.getD 0 [])) (o.log.getD 1 [])
  else d.desc r 0x13 fun d x => d.tendStart r x

/-- Every usable core of the region has ended or overrun the harvest of the Season. -/
def Dev.seasonEnded (d : Dev) (r : Nat) : Bool :=
  (d.coresOf r).all (fun c => ! d.flag (HRV_STAT c.2) 0 && ! (d.core c.2).hOver &&
    (d.flag (HRV_STAT c.2) 2 || (d.flag (HRV_CTL c.2) 0 && d.rg (HRV_SEASONNO c.2) ≠ 0)))

/-- HSTEP ends: GD is HRV_SEASONNO, a free value in a region with no usable core. -/
def Dev.hstepEnd (d : Dev) (r : Nat) : Dev :=
  let x := match d.coresOf r with
    | c :: _ => (d.rg (HRV_SEASONNO c.2), d)
    | [] => d.fresh 32
  (x.2.setG r (dGd (x.2.seqDesc r)) x.1).seqNext r

def Dev.opHstep (d : Dev) (r : Nat) : Dev := d.desc r 0x14 fun d _ =>
  if d.seasonEnded r then d.hstepEnd r else d.seqWait r 4

def Dev.hstepResume (d : Dev) (r : Nat) : Dev :=
  if d.waitsAt r 0x14 4 && d.seasonEnded r then d.hstepEnd r else d

/-- CKPT asks Carillon for CKPT_NOW and waits (R349). -/
def Dev.opCkpt (d : Dev) (r : Nat) : Dev := d.desc r 0x15 fun d x =>
  match d.regPart r with
  | none => d
  | some p => match d.ckptAsk p with
    | (d, some st) => (d.setG r (dGd x) st.code).seqNext r
    | (d, none) =>
      let h : Hdr := { func := 0x100 + r, units := 1, part := p, tag := 0, seq := 0, flags := 0, rsvd := 0, port := 0 }
      let w : Waiting := { opcode := 0x0708, names := true, ro := false, hdr := h, pl := [], what := .ckpt }
      { d with car := { d.car with waiting := d.car.waiting ++ [w] } }.seqWait r 7

def Dev.opModset (d : Dev) (r : Nat) : Dev := d.desc r 0x16 fun d x =>
  let v := d.greg r (dGd x) % 65536 * 65536 + 32768 + d.greg r (dGs x) % 256
  (d.forEach (d.coresOf r) (fun d c => d.regWrite (.score r) (HRV_MODNEXT c.2) v)).seqNext r

/-- OWN: port B exists for bank 15 alone. -/
def Dev.opOwn (d : Dev) (r : Nat) : Dev := d.desc r 0x17 fun d x =>
  let b := dCh x % 16
  let pb := bitAt (dImm x) 8
  (if pb && b ≠ 15 then d.setFlag (CMN_STAT r) 1 true else d.ownWrite r b ownScore pb (dImm x % 16)).seqNext r

def Dev.opRput (d : Dev) (r : Nat) : Dev := d.desc r 0x18 fun d x => d.opStart r x false []
def Dev.opRget (d : Dev) (r : Nat) : Dev := d.desc r 0x19 fun d x => d.opStart r x false []

def Dev.opSignal (d : Dev) (r : Nat) : Dev := d.desc r 0x1A fun d x =>
  (d.tocArrive (272 + r) 3 ((d.regPart r).getD 0) (dImm x) (d.greg r (dGd x)) true).seqNext r

/-! ### Answers to the S-core's requests (R252, R253) -/

/-- A request is outstanding no more: what another operation held back for want of it goes on (R252). -/
def Dev.reqGone (d : Dev) (q : Req) : Dev := { d with reqs := d.reqs.filter (fun y => y.tag != q.tag) }

/-- A request is answered with a STATUS and bytes.  A read refused for its rights reads zero (R31, R404); the bytes of any other
read that failed are free. -/
def Dev.reqAnswer (d : Dev) (q : Req) (st : Nat) (data : List Byte) (refused : Bool) : Dev :=
  let d := d.reqGone q
  let y := if ! q.read then (d, [1#8])
    else if st = 0 then (d, padTo q.len data)
    else if st = 2 then (d, zeros q.len)
    else d.openBytes q.len
  let d := y.1.setPiece q.region q.id q.off y.2
  let d := match d.opOf q.region q.id with
    | some o => d.setOp q.region { o with refused := o.refused || refused }
    | none => d
  (d.opGo q.region q.id).opsGo q.region

/-- Operation `id` completes with TIMEOUT (R253): GD takes the status where the descriptor returns one (ENCODE, RPUT); where GD
would have been data it is a free value; MOVE, SEND and EVSEND are acknowledged, and nothing else of the operation is done
(log entry 175). -/
def Dev.opTimeout (d : Dev) (r id : Nat) : Dev :=
  match d.opOf r id with
  | none => d
  | some o =>
    let op := dOpc o.desc
    if op = 0x11 || op = 0x18 then d.opGd r id Status.timeout.code
    else if op = 0x08 || op = 0x09 || op = 0x0F then d.opEnd r id false
    else if op = 0x04 || op = 0x12 || op = 0x19 then let x := d.fresh 64; x.2.opGd r id x.1
    else d.opNext r id

/-- No reply has come within FAB_REQTMO µs. -/
def Dev.reqTimeout (d : Dev) (tag : Nat) : Dev :=
  match d.reqs.find? (fun q => q.tag == tag) with
  | none => d
  | some q => (((d.bump (FAB_REQTIMEOUT (dieOf q.region)) 1).reqGone q).opTimeout q.region q.id).opsGo q.region

/-- A reply of type `type` reaches its requester on port `q`: READ_DATA, WRITE_ACK or ERROR.  One that no request waits for is
counted in FAB_LATEREPLY, and so is a BULK_ACK, since nothing here sends a bulk transfer (R254). -/
def Dev.replyArrives (d : Dev) (q type : Nat) (l : List Byte) : Dev :=
  let d := d.takePacket l
  if ! pktGood l || pktType l ≠ type then d.crcDiscard (q / 4)
  else match d.reqs.find? (fun x => x.tag == pktTag l && type != 0x33 && (type == 0x32 || x.read == (type == 0x30))) with
    | none => d.bump (FAB_LATEREPLY (q / 4)) 1
    | some x =>
      let st := byteAt l 16
      if type = 0x30 then d.reqAnswer x st ((pktPay l).take (leAt l 20 4)) false
      else if type = 0x31 then d.reqAnswer x st [] (bitAt (byteAt l 17) 0)
      else d.reqAnswer x (if st = 0 then 1 else st) [] false

end Sys2Proof.Machine
end

