-- ==== Sys2Proof/Machine/CmdDesc.lean ====
section
/-! DEFINITION. Fabric requests and their answers, and the descriptors of the S-core. -/

namespace Sys2Proof.Machine

/-- READ_REQUEST (R40): A READ request reaches its target, is checked and answered. -/
def execReadRequest (port : Nat) (bytes : List Byte) (s : State) : Outcome := s.run (·.readRequest port bytes)
/-- WRITE_REQUEST (R40): A WRITE request reaches its target, is checked, written and acknowledged. -/
def execWriteRequest (port : Nat) (bytes : List Byte) (s : State) : Outcome := s.run (·.writeRequest port bytes)
/-- READ_DATA (R253): A READ_DATA reply reaches its requester. -/
def execReadData (port : Nat) (bytes : List Byte) (s : State) : Outcome := s.run (·.replyArrives port 0x30 bytes)
/-- WRITE_ACK (R253): A WRITE_ACK reply reaches its requester. -/
def execWriteAck (port : Nat) (bytes : List Byte) (s : State) : Outcome := s.run (·.replyArrives port 0x31 bytes)
/-- ERROR_REPLY (R239): An ERROR reply reaches its requester. -/
def execErrorReply (port : Nat) (bytes : List Byte) (s : State) : Outcome := s.run (·.replyArrives port 0x32 bytes)
/-- REQUEST_TIMEOUT (R253): No reply within FAB_REQTMO completes the request with TIMEOUT. -/
def execRequestTimeout (tag : Nat) (s : State) : Outcome := s.run (·.reqTimeout tag)
/-- BULK_WRITE (R254): A BULK_WRITE packet reaches its target and is written. -/
def execBulkWrite (port : Nat) (bytes : List Byte) (s : State) : Outcome := s.run (·.bulkWrite port bytes)
/-- BULK_ACK_TIMER (R254): 1 ms after a transfer's first packet the target sends BULK_ACK. -/
def execBulkAckTimer (k : Nat) (s : State) : Outcome := s.run (·.bulkTimer k)
/-- BULK_ACK (R254): A BULK_ACK reaches the bulk sender. -/
def execBulkAck (port : Nat) (bytes : List Byte) (s : State) : Outcome := s.run (·.replyArrives port 0x33 bytes)
/-- NOP (R402): S-core descriptor that does nothing. -/
def execNop (r : Nat) (s : State) : Outcome := s.run (·.opNop r)
/-- HALT (R402): S-core descriptor that stops the S-core and writes a Tocsin record. -/
def execHalt (r : Nat) (s : State) : Outcome := s.run (·.opHalt r)
/-- SET (R402): S-core descriptor that sets GD to ADDR. -/
def execSet (r : Nat) (s : State) : Outcome := s.run (·.opSet r)
/-- ADD (R402): S-core descriptor that adds IMM to GS into GD. -/
def execAdd (r : Nat) (s : State) : Outcome := s.run (·.opAdd r)
/-- LOAD (R402): S-core descriptor that loads an 8-byte word into GD. -/
def execLoad (r : Nat) (s : State) : Outcome := s.run (·.opLoad r)
/-- STORE (R402): S-core descriptor that stores GD to memory. -/
def execStore (r : Nat) (s : State) : Outcome := s.run (·.opStore r)
/-- BRANCH (R402): S-core descriptor that jumps on a condition of GD. -/
def execBranch (r : Nat) (s : State) : Outcome := s.run (·.opBranch r)
/-- LOOP (R402): S-core descriptor that decrements GD and jumps while non-zero. -/
def execLoop (r : Nat) (s : State) : Outcome := s.run (·.opLoop r)
/-- MOVE (R402): S-core descriptor that copies a block of bytes. -/
def execMove (r : Nat) (s : State) : Outcome := s.run (·.opMove r)
/-- SEND (R402): S-core descriptor that sends 64 bytes to a queue input window. -/
def execSend (r : Nat) (s : State) : Outcome := s.run (·.opSend r)
/-- RECV (R402): S-core descriptor that pops a channel head, waiting when empty. -/
def execRecv (r : Nat) (s : State) : Outcome := s.run (·.opRecv r)
/-- PEEK (R402): S-core descriptor that reads a channel's status. -/
def execPeek (r : Nat) (s : State) : Outcome := s.run (·.opPeek r)
/-- CHCTL (R402): S-core descriptor that opens, closes or resets a channel. -/
def execChctl (r : Nat) (s : State) : Outcome := s.run (·.opChctl r)
/-- WAITC (R402): S-core descriptor that waits for a completion counter. -/
def execWaitc (r : Nat) (s : State) : Outcome := s.run (·.opWaitc r)
/-- WAITB (R402): S-core descriptor that waits for a beat number. -/
def execWaitb (r : Nat) (s : State) : Outcome := s.run (·.opWaitb r)
/-- EVSEND (R402): S-core descriptor that hands event records to the region router. -/
def execEvsend (r : Nat) (s : State) : Outcome := s.run (·.opEvsend r)
/-- TPUSH (R402): S-core descriptor that pushes op descriptors to T-cores. -/
def execTpush (r : Nat) (s : State) : Outcome := s.run (·.opTpush r)
/-- ENCODE (R402): S-core descriptor that runs an ENCODE op and sends its records. -/
def execEncode (r : Nat) (s : State) : Outcome := s.run (·.opEncode r)
/-- DECODE (R402): S-core descriptor that copies the last frame and pushes a DECODE op. -/
def execDecode (r : Nat) (s : State) : Outcome := s.run (·.opDecode r)
/-- TEND (R339): S-core descriptor that prunes and grows SPP entries from a tend block. -/
def execTend (r : Nat) (s : State) : Outcome := s.run (·.opTend r)
/-- HSTEP (R402): S-core descriptor that waits for the region's harvest to finish. -/
def execHstep (r : Nat) (s : State) : Outcome := s.run (·.opHstep r)
/-- CKPT (R402): S-core descriptor that asks Carillon for CKPT_NOW. -/
def execCkpt (r : Nat) (s : State) : Outcome := s.run (·.opCkpt r)
/-- MODSET (R402): S-core descriptor that arms HRV_MODNEXT on the region's cores. -/
def execModset (r : Nat) (s : State) : Outcome := s.run (·.opModset r)
/-- OWN (R402): S-core descriptor that writes a bank's owner. -/
def execOwn (r : Nat) (s : State) : Outcome := s.run (·.opOwn r)
/-- RPUT (R418): S-core descriptor that puts a record into a Commons ring. -/
def execRput (r : Nat) (s : State) : Outcome := s.run (·.opRput r)
/-- RGET (R419): S-core descriptor that takes the next record from a Commons ring. -/
def execRget (r : Nat) (s : State) : Outcome := s.run (·.opRget r)
/-- SIGNAL (R402): S-core descriptor that writes a Tocsin record. -/
def execSignal (r : Nat) (s : State) : Outcome := s.run (·.opSignal r)
/-- RESERVED_OPCODE (R404): The S-core reaches a descriptor whose opcode is reserved and stops in FAULT with code 1.
-/
def execReservedOpcode (r : Nat) (s : State) : Outcome := s.run (·.reservedOp r)
/-- RECV_RESUME (R409): A waiting RECV resumes when an entry arrives. -/
def execRecvResume (r : Nat) (s : State) : Outcome := s.run (·.recvResume r)
/-- WAITC_RESUME (R402): A waiting WAITC resumes when its counter condition holds. -/
def execWaitcResume (r : Nat) (s : State) : Outcome := s.run (·.waitcResume r)
/-- WAITB_RESUME (R402): A waiting WAITB resumes when the beat condition holds. -/
def execWaitbResume (r : Nat) (s : State) : Outcome := s.run (·.waitbResume r)
/-- HSTEP_RESUME (R402): A waiting HSTEP resumes when every core has HDONE or overran. -/
def execHstepResume (r : Nat) (s : State) : Outcome := s.run (·.hstepResume r)

end Sys2Proof.Machine
end

