-- ==== Sys2Proof/Machine/CmdFabric.lean ====
section
/-! DEFINITION. The commands and events of the fabric chapter. -/

namespace Sys2Proof.Machine

/-- FAB_STATUS (R282): Bellpull command that returns die FAB registers. -/
def execFabStatus (h : Hdr) (pl : List Byte) (s : State) : Outcome := s.run (·.serve cFabStatus Dev.fabStatus h pl)
/-- PORT_CONTROL (R282): Bellpull command that disables, enables or retrains a port. -/
def execPortControl (h : Hdr) (pl : List Byte) (s : State) : Outcome := s.run (·.serve cPortControl Dev.portControl h pl)
/-- PORT_STATUS (R282): Bellpull command that returns a port's registers. -/
def execPortStatus (h : Hdr) (pl : List Byte) (s : State) : Outcome := s.run (·.serve cPortStatus Dev.portStatus h pl)
/-- ROUTE_READ (R282): Bellpull command that returns the direction tables. -/
def execRouteRead (h : Hdr) (pl : List Byte) (s : State) : Outcome := s.run (·.serve cRouteRead Dev.routeRead h pl)
/-- COLL_SETUP (R283): Bellpull command that builds a collective group and reserves class 4 credits. -/
def execCollSetup (h : Hdr) (pl : List Byte) (s : State) : Outcome := s.run (·.serve cCollSetup Dev.collSetup h pl)
/-- COLL_ISSUE (R258): Bellpull command that issues a collective under an epoch. -/
def execCollIssue (h : Hdr) (pl : List Byte) (s : State) : Outcome := s.run (·.serve cCollIssue Dev.collIssue h pl)
/-- COLL_RELEASE (R282): Bellpull command that releases a collective group. -/
def execCollRelease (h : Hdr) (pl : List Byte) (s : State) : Outcome := s.run (·.serve cCollRelease Dev.collRelease h pl)
/-- COLL_STATUS (R282): Bellpull command that returns a group's state and expected epoch. -/
def execCollStatus (h : Hdr) (pl : List Byte) (s : State) : Outcome := s.run (·.serve cCollStatus Dev.collStatus h pl)
/-- RUDIMENT_LOAD (R278): Bellpull command that loads Rudiment entries into a node. -/
def execRudimentLoad (h : Hdr) (pl : List Byte) (s : State) : Outcome := s.run (·.serve cRudimentLoad Dev.rudimentLoad h pl)
/-- RUDIMENT_CONFIG (R282): Bellpull command that sets the plane PERIOD and REPEAT. -/
def execRudimentConfig (h : Hdr) (pl : List Byte) (s : State) : Outcome := s.run (·.serve cRudimentConfig Dev.rudimentConfig h pl)
/-- RUDIMENT_READ (R282): Bellpull command that returns Rudiment entries. -/
def execRudimentRead (h : Hdr) (pl : List Byte) (s : State) : Outcome := s.run (·.serve cRudimentRead Dev.rudimentRead h pl)
/-- PACKET_FORWARD (R244): A router receives a packet, checks its CRC and forwards or discards it. -/
def execPacketForward (port : Nat) (bytes : List Byte) (x : LinkIn) (s : State) : Outcome :=
  s.run (·.packetForward port x.tags bytes x.corr)
/-- ALARM_FLIT (R251): An alarm flit is merged into a waiting flit or carried to the root. -/
def execAlarmFlit (a : Alarm) (s : State) : Outcome := s.run (·.alarmFlit a)
/-- COLL_UP (R258): A COLL_UP arrives; once all children have sent, contributions are combined and sent up. -/
def execCollUp (port : Nat) (bytes : List Byte) (s : State) : Outcome := s.run (·.collUp port bytes)
/-- COLL_DOWN (R258): A COLL_DOWN arrives, is passed on and completes the member's collective. -/
def execCollDown (port : Nat) (bytes : List Byte) (s : State) : Outcome := s.run (·.collDownPkt port bytes)
/-- COLL_TIMEOUT (R259): A collective's timer expires and it completes with INCOMPLETE. -/
def execCollTimeout (g : Nat) (s : State) : Outcome := s.run (·.collTimeout g)
/-- EARLY_EPOCH_DROP (R259): A held early-epoch packet is dropped when its epoch is not issued within TIMEOUT. -/
def execEarlyEpochDrop (g : Nat) (k : Nat) (s : State) : Outcome := s.run (·.earlyDrop g k)
/-- PORT_TRAINING_END (R263): Port training succeeds or fails after 60 ms. -/
def execPortTrainingEnd (port : Nat) (ok : Bool) (s : State) : Outcome := s.run (·.trainingEnd port ok |>.stepFour)
/-- PORT_RETRAIN_TIMER (R263): A FAILED port retries training every 100 ms. -/
def execPortRetrainTimer (port : Nat) (s : State) : Outcome := s.run (·.retrainTimer port)
/-- PORT_FAILURE (R264): A lock loss, FEC or CRC burst, or peer link-down takes an UP port to FAILED. -/
def execPortFailure (port : Nat) (cause : Nat) (flits : Nat) (s : State) : Outcome := s.run (·.portFailure port cause flits |>.rootAgain)
/-- FEC_UNCORRECTABLE (R262): An uncorrectable codeword sets ERR on overlapping flits. -/
def execFecUncorrectable (c : Codeword) (s : State) : Outcome := s.run (·.fecUnc c.port c.flits c.corr)
/-- LINK_FAILURE_SPREAD (R271): A class 6 failure message arrives and tables and trees are recomputed. -/
def execLinkFailureSpread (dev : Nat) (x : LinkLost) (s : State) : Outcome := s.run (·.failureSpread x.port dev x.link)
/-- ROUTE_INSTALL (R271): Recomputed direction tables and trees are installed. -/
def execRouteInstall (s : State) : Outcome := s.run (·.routesStep)
/-- TREE_REBUILD_END (R273): A group's tree is rebuilt and every member's epoch is aligned. -/
def execTreeRebuildEnd (g : Nat) (epoch : Nat) (s : State) : Outcome := s.run (·.treeRebuilt g epoch)
/-- PLANE_SLOT (R275): Each node executes its Rudiment entry for a slot, passing or adding words. -/
def execPlaneSlot (p : Nat) (s : State) : Outcome := s.run (·.planeSlot p)
/-- FAB_PCTL_ENABLE (R263): Write of FAB_PCTL.ENABLE that enables or disables a port. -/
def execFabPctlEnable (f : Nat) (port : Nat) (b : Nat) (s : State) : Outcome := s.run (·.pctlEnable f port b)
/-- FAB_PCTL_TRAIN (R279): Write of FAB_PCTL.TRAIN that starts an adaptive or full retrain. -/
def execFabPctlTrain (f : Nat) (port : Nat) (t : Nat) (s : State) : Outcome := s.run (·.pctlTrain f port t)
/-- LINK_STATE_MESSAGE (R552): A class 6 link-state message of Calends step 7, or of a joining link, is received and
routes are computed from it. -/
def execLinkStateMessage (dev : Nat) (x : LinkState) (s : State) : Outcome :=
  s.run (·.linkState x.port dev x.ports x.spans)
/-- GROUP_RESERVATION_MESSAGE (R283): A class 6 message from the issuing Carillon reserves or refuses a collective
group's credits on a member device. -/
def execGroupReservationMessage (kind : Nat) (src : Nat) (g : Nat) (part : Nat) (root : Nat) (tmo : Nat) (members : List Nat) (s : State) : Outcome := s.run (·.groupMessage kind src g part root tmo members)

end Sys2Proof.Machine
end

