-- ==== Sys2Proof/Machine/CmdFault.lean ====
section
/-! DEFINITION. The commands and events of the fault chapter. -/

namespace Sys2Proof.Machine

/-- FAULT_STATUS (R619): Bellpull command that returns fault registers. -/
def execFaultStatus (h : Hdr) (pl : List Byte) (s : State) : Outcome := s.run (·.serve cFaultStatus Dev.faultStatus h pl)
/-- MUTE_SET (R603): Bellpull command that Mutes named partitions. -/
def execMuteSet (h : Hdr) (pl : List Byte) (s : State) : Outcome := s.run (·.serve cMuteSet Dev.muteSet h pl)
/-- MUTE_CLEAR (R604): Bellpull command that clears Mute cause bits. -/
def execMuteClear (h : Hdr) (pl : List Byte) (s : State) : Outcome := s.run (·.serve cMuteClear Dev.muteClear h pl)
/-- CHOKE (R606): Bellpull command that Chokes named partitions. -/
def execChoke (h : Hdr) (pl : List Byte) (s : State) : Outcome := s.run (·.serve cChoke Dev.chokeCmd h pl)
/-- PART_SCRUB (R607): Bellpull command that clears a Choked partition and leaves it IDLE. -/
def execPartScrub (h : Hdr) (pl : List Byte) (s : State) : Outcome := s.run (·.serve cPartScrub Dev.partScrub h pl)
/-- FENCE (R609): Bellpull command that fences a core or marks a unit in the fence list. -/
def execFence (h : Hdr) (pl : List Byte) (s : State) : Outcome := s.run (·.serve cFence Dev.fenceCmd h pl)
/-- FENCE_LIST (R619): Bellpull command that returns the fence list. -/
def execFenceList (h : Hdr) (pl : List Byte) (s : State) : Outcome := s.run (·.serve cFenceList Dev.fenceListCmd h pl)
/-- FENCE_CLEAR (R610): Bellpull command that empties the fence list for the next Calends. -/
def execFenceClear (h : Hdr) (pl : List Byte) (s : State) : Outcome := s.run (·.serve cFenceClear Dev.fenceClear h pl)
/-- FAULT_CONFIG (R619): Bellpull command that sets fault actions and thresholds. -/
def execFaultConfig (h : Hdr) (pl : List Byte) (s : State) : Outcome := s.run (·.serve cFaultConfig Dev.faultConfig h pl)
/-- GPIO_SAFE (R616): Bellpull command that sets a GPIO safe level. -/
def execGpioSafe (h : Hdr) (pl : List Byte) (s : State) : Outcome := s.run (·.serve cGpioSafe Dev.gpioSafe h pl)
/-- SPARE_RESERVE (R611): Bellpull command that sets region reserve counts. -/
def execSpareReserve (h : Hdr) (pl : List Byte) (s : State) : Outcome := s.run (·.serve cSpareReserve Dev.spareReserve h pl)
/-- HANG_DETECT (R608): A core without FINAL for HANGBEATS beats is declared failed. -/
def execHangDetect (q : Nat) (s : State) : Outcome := s.run (·.hangDetect q)
/-- FENCING (R609): Carillon copies a failed core to a spare and remaps it. -/
def execFencing (s : State) : Outcome := s.run (·.fencing)
/-- FENCE_WAIT_EXPIRY (R609): A Muffle not in effect after FENCEWAIT beats leads to a Choke. -/
def execFenceWaitExpiry (s : State) : Outcome := s.run (·.fenceWait)
/-- REMAP_COMPARE (R36): Every millisecond Carillon compares and repairs the remap copies. -/
def execRemapCompare (s : State) : Outcome := s.run (·.remapCompare)
/-- ALARM_PACING (R602): At most one alarm flit leaves per microsecond, carrying merged alarms. -/
def execAlarmPacing (s : State) : Outcome := s.run (·.alarmPacing)
/-- BRIDGE_FAILURE (R614): The die bridge loses lock or fails checks and die 1 is Choked. -/
def execBridgeFailure (port : Nat) (flits : Nat) (s : State) : Outcome := s.run (·.bridgeFailure port flits)
/-- JTAG_INSTRUCTION_LOAD (R652): A TAP instruction load, Choking all before EXTEST, CLAMP or HIGHZ act. -/
def execJtagInstructionLoad (k : Nat) (s : State) : Outcome := s.run (·.tapLoad k)
/-- TAP_RESET (R652): The TAP is reset by TRST_N or five TCK cycles with TMS high, ending any EXTEST, CLAMP or
HIGHZ. -/
def execTapReset (s : State) : Outcome := s.run (·.tapReset)

end Sys2Proof.Machine
end

