-- ==== Sys2Proof/Machine/CmdHarvest.lean ====
section
/-! DEFINITION. The commands and events of the harvest chapter. -/

namespace Sys2Proof.Machine

/-- RULE_LOAD (R317): Bellpull command that checks and loads a plasticity rule. -/
def execRuleLoad (h : Hdr) (pl : List Byte) (s : State) : Outcome := s.run (·.serve cRuleLoad Dev.ruleLoad h pl)
/-- RULE_READ (R357): Bellpull command that returns a rule. -/
def execRuleRead (h : Hdr) (pl : List Byte) (s : State) : Outcome := s.run (·.serve cRuleRead Dev.ruleRead h pl)
/-- SEASON_CONFIG (R357): Bellpull command that sets Season length, harvest window, budget and flags. -/
def execSeasonConfig (h : Hdr) (pl : List Byte) (s : State) : Outcome := s.run (·.serve cSeasonConfig Dev.seasonConfig h pl)
/-- MOD_SET (R326): Bellpull command that arms a modulator value for a beat on every core. -/
def execModSet (h : Hdr) (pl : List Byte) (s : State) : Outcome := s.run (·.serve cModSet Dev.modSet h pl)
/-- SEED_SET (R357): Bellpull command that sets HRV_SEED. -/
def execSeedSet (h : Hdr) (pl : List Byte) (s : State) : Outcome := s.run (·.serve cSeedSet Dev.seedSet h pl)
/-- REV_LOAD (R320): Bellpull command that writes reverse-index words and NDIR. -/
def execRevLoad (h : Hdr) (pl : List Byte) (s : State) : Outcome := s.run (·.serve cRevLoad Dev.revLoad h pl)
/-- CKPT_CONFIG (R348): Bellpull command that configures the checkpoint ring and host export. -/
def execCkptConfig (h : Hdr) (pl : List Byte) (s : State) : Outcome := s.run (·.serve cCkptConfig Dev.ckptConfig h pl)
/-- CKPT_NOW (R349): Bellpull command that takes a checkpoint at once, subject to pacing. -/
def execCkptNow (h : Hdr) (pl : List Byte) (s : State) : Outcome := s.run (·.serve cCkptNow Dev.ckptNow h pl)
/-- CKPT_RESTORE (R351): Bellpull command that restores the newest valid checkpoint. -/
def execCkptRestore (h : Hdr) (pl : List Byte) (s : State) : Outcome := s.run (·.serve cCkptRestore Dev.ckptRestore h pl)
/-- CKPT_STATUS (R358): Bellpull command that returns checkpoint status. -/
def execCkptStatus (h : Hdr) (pl : List Byte) (s : State) : Outcome := s.run (·.serve cCkptStatus Dev.ckptStatus h pl)
/-- CKPT_QUOTA (R345): Bellpull command that grants a partition a Keep quota. -/
def execCkptQuota (h : Hdr) (pl : List Byte) (s : State) : Outcome := s.run (·.serve cCkptQuota Dev.ckptQuota h pl)
/-- HRV_STATUS (R357): Bellpull command that returns HRV registers. -/
def execHrvStatus (h : Hdr) (pl : List Byte) (s : State) : Outcome := s.run (·.serve cHrvStatus Dev.hrvStatus h pl)
/-- POST_PASS_ENTRY (R321): The harvest engine updates eligibility of the plastic inputs of one fired neuron. -/
def execPostPassEntry (q : Nat) (s : State) : Outcome := s.run (·.postPass q)
/-- HARVEST_ROW (R330): The harvest engine harvests one plastic row or passes one position. -/
def execHarvestRow (q : Nat) (s : State) : Outcome := s.run (·.harvestStep q)
/-- HARVEST_OVERRUN (R334): Harvest unfinished at beat W of the Season stops and is reported. -/
def execHarvestOverrun (q : Nat) (s : State) : Outcome := s.run (·.harvestOverrun q)
/-- ROW_SWEEP_VISIT (R324): The row sweep decays PRE of one plastic row and restamps LAST. -/
def execRowSweepVisit (q : Nat) (s : State) : Outcome := s.run (·.sweepVisit q)
/-- CHECKPOINT_COPY_START (R344): Once harvest and tend end in a saved Season, Carillon starts the checkpoint copy.
-/
def execCheckpointCopyStart (p : Nat) (s : State) : Outcome := s.run (·.ckptStart p)
/-- CHECKPOINT_COMMIT (R345): The checkpoint payload is programmed and verified and its header committed. -/
def execCheckpointCommit (p : Nat) (s : State) : Outcome := s.run (·.ckptCommit p)
/-- HOST_EXPORT (R352): The checkpoint image is written to the host buffer, header last. -/
def execHostExport (p : Nat) (s : State) : Outcome := s.run (·.hostExport p)

end Sys2Proof.Machine
end

