-- ==== Sys2Proof/Machine/Host.lean ====
section
/-! DEFINITION. The host's accesses, DMA descriptors and the resets of the PCIe endpoint (R449 to R478). -/

namespace Sys2Proof.Machine

/-! ### BAR0 (R455 to R458) -/

/-- What an offset of BAR0 reaches. -/
inductive BarZero
  | reg (a : Nat)
  /-- The MSI-X table at a byte offset, and the pending-bit array. -/
  | table (off : Nat)
  | pba (off : Nat)
  | nothing
  deriving DecidableEq, Repr

/-- The register a window of function `f` presents at offset `o` (R457). -/
def Dev.windowReg (d : Dev) (f w o : Nat) : BarZero :=
  let a := PCI_VFWIN f w
  if ! d.flag a 31 then .nothing
  else if d.flag a 30 then .reg (slotBase (d.fld a 16 4) (d.fld a 0 6) + o)
  else .reg (0x10000 * d.fld a 0 12 + o)

/-- Decode an offset of function `f`'s BAR0 (R455, R456). -/
def Dev.barZero (d : Dev) (f off : Nat) : BarZero :=
  if f = 0 then
    if off < 0x200000 then .reg off
    else if 0xF00000 ≤ off && off < 0xF00400 then .table (off - 0xF00000)
    else if 0xF80000 ≤ off && off < 0xF80008 then .pba (off - 0xF80000)
    else if 0x1000000 ≤ off && off < 0x4000000 then
      let x := off - 0x1000000
      .reg (slotBase (x / 0x300000) (x % 0x300000 / 0x10000) + x % 0x10000)
    else .nothing
  else if off < 0x10000 then .reg (0x10000 * (16 + f) + off)
  else if off < 0x10040 then .reg (PCI_AP f 0 + (off - 0x10000))
  else if off < 0x10048 then .reg (PCI_VFWIN f 0 + (off - 0x10040))
  else if 0x11000 ≤ off && off < 0x11080 then .table (off - 0x11000)
  else if 0x11800 ≤ off && off < 0x11808 then .pba (off - 0x11800)
  else if 0x20000 ≤ off && off < 0x30000 then d.windowReg f 0 (off - 0x20000)
  else if 0x30000 ≤ off && off < 0x40000 then d.windowReg f 1 (off - 0x30000)
  else .nothing

/-- The 32-bit word at byte offset `o` of function `f`'s MSI-X table: address, data, mask (R470, R471). -/
def Dev.msixWord (d : Dev) (f o : Nat) : Nat :=
  let x := d.fn f
  let v := o / 16
  match o % 16 / 4 with
  | 0 => SMap.get 0 x.msixAddr v % 2 ^ 32
  | 1 => SMap.get 0 x.msixAddr v / 2 ^ 32
  | 2 => SMap.get 0 x.msixData v
  | _ => natOf (! SMap.get false x.msixUnmasked v)

/-- A write of that word; unmasking a vector sends its pending message, outside a moderation interval (R471). -/
def Dev.setMsixWord (d : Dev) (f o w : Nat) : Dev :=
  let x := d.fn f
  let v := o / 16
  let old := SMap.get 0 x.msixAddr v
  match o % 16 / 4 with
  | 0 => d.setFn f { x with msixAddr := SMap.set 0 x.msixAddr v (old / 2 ^ 32 * 2 ^ 32 + w / 4 * 4) }
  | 1 => d.setFn f { x with msixAddr := SMap.set 0 x.msixAddr v (old % 2 ^ 32 + 2 ^ 32 * w) }
  | 2 => d.setFn f { x with msixData := SMap.set 0 x.msixData v w }
  | _ =>
    let x := { x with msixUnmasked := SMap.set false x.msixUnmasked v (w % 2 == 0) }
    let d := d.setFn f x
    if w % 2 = 0 && SMap.get false x.msixPend v && ! SMap.get false x.modRun v then d.sendMsix f v else d

/-- The pending bits of vectors 32·k to 32·k + 31. -/
def Dev.pbaWord (d : Dev) (f k : Nat) : Nat :=
  ((upTo 32).map (fun b => natOf (SMap.get false (d.fn f).msixPend (32 * k + b)) * 2 ^ b)).sum

/-- One 4-byte read of BAR0. -/
def Dev.barRead4 (d : Dev) (f off : Nat) : Dev × Nat :=
  match d.barZero f off with
  | .reg a => d.regRead (.func f) a true
  | .table o => (d, d.msixWord f o)
  | .pba o => (d, d.pbaWord f (o / 4))
  | .nothing => (d, 0)

/-- One 4-byte write of BAR0. -/
def Dev.barWrite4 (d : Dev) (f off v : Nat) : Dev :=
  match d.barZero f off with
  | .reg a => match queueWindow a with
    | some w => d.windowWrite (.func f) a (leBytes 4 v) .nobody w
    | none => d.regWrite (.func f) a v
  | .table o => d.setMsixWord f o v
  | .pba _ => d
  | .nothing => d

/-- Words read one after another, the low one first (R458). -/
def Dev.barReads (f : Nat) : Nat → Nat → Dev → Dev × List Byte
  | 0, _, d => (d, [])
  | k + 1, off, d =>
    let x := d.barRead4 f off
    let y := Dev.barReads f k (off + 4) x.1
    (y.1, leBytes 4 x.2 ++ y.2)

/-- Words written one after another; a queue input window takes the access as one (R407, R458). -/
def Dev.barWrites (d : Dev) (f off : Nat) (l : List Byte) : Dev :=
  match d.barZero f off with
  | .reg a => match queueWindow a with
    | some w => d.windowWrite (.func f) a l .nobody w
    | none => d.forEach (upTo (l.length / 4)) (fun d k => d.barWrite4 f (off + 4 * k) (leAt l (4 * k) 4))
  | _ => d.forEach (upTo (l.length / 4)) (fun d k => d.barWrite4 f (off + 4 * k) (leAt l (4 * k) 4))

/-- The CAR_CRTAIL that a BAR0 offset reaches, by function. -/
def Dev.crtailAt (d : Dev) (f off : Nat) : Option Nat :=
  match d.barZero f off with
  | .reg a => (upTo 16).find? (fun g => a == CAR_CRTAIL g && (f == 0 || g == f))
  | _ => none

/-- Bytes that a host read returns. -/
def Dev.answer4 (x : Dev × List Byte) (f : Nat) : Dev := x.1.emit (.hostData f x.2)

/-- A BAR0 access of function `f` at a byte offset: a read of `n` bytes, or a write of the bytes given (R455 to R458, R584). -/
def Dev.bar0 (d : Dev) (f off n : Nat) (data : Option (List Byte)) : Dev :=
  let n := match data with | some l => l.length | none => n
  if ! d.barOpen f || d.pwr.asleep = 2 then d
  else if d.pwr.asleep = 1 then
    match data with
    | none => Dev.answer4 (d.readTimeout, zeros n) f
    | some l => match d.crtailAt f off with
      | some g => if n = 4 && off % 4 = 0 then d.crtail g (leNat l) else d
      | none => d
  else if ! (n = 4 || n = 8) || off % n ≠ 0 then
    match data with
    | none => Dev.answer4 (d.barErr, zeros n) f
    | some _ => d.barErr
  else match data with
    | none => Dev.answer4 (Dev.barReads f (n / 4) off d) f
    | some l => d.barWrites f off l

/-! ### BAR2 (R459 to R461) -/

/-- The local address that byte `off` of function `f`'s BAR2 maps to; none through an invalid aperture (R459). -/
def Dev.aperture (d : Dev) (f off : Nat) : Option Nat :=
  let size := if f = 0 then 2 ^ 32 else 2 ^ 30
  let a := PCI_AP f (off / size)
  if off / size < 16 && d.flag a 31 then some ((d.fld a 0 18 * 2 ^ 30 + off % size) % 2 ^ 48) else none

/-- `n` bytes at `a` reach a reserved address (R41, R42), which R460 counts in PCI_BARERR beside the address-error counter. -/
def Dev.reservedAt (d : Dev) (a n : Nat) : Bool :=
  match target a with
  | .reg k o => k != 0 && ! regListed o
  | t => d.beyond t a n

/-- A BAR2 access of function `f` (R459 to R461, R463, R584); one to a Commons bank whose handover has not ended waits (R422). -/
def Dev.bar2 (d : Dev) (f off n : Nat) (data : Option (List Byte)) : Dev :=
  let plainReg (a : Nat) : Bool := match target a with | .reg 0 _ => true | _ => false
  if ! d.barOpen f || d.pwr.asleep = 2 then d
  else match data with
    | none =>
      if d.pwr.asleep = 1 then Dev.answer4 (d.readTimeout, zeros n) f
      else match d.aperture f off with
        | none => Dev.answer4 (d.barErr, zeros n) f
        | some a =>
          if plainReg a then Dev.answer4 (d.barErr, zeros n) f
          else if d.pendAt (.func f) a n then d.holdAcc (.barRead f off n)
          else
            let x := d.busRead (.func f) 0 a n
            Dev.answer4 (if x.2.2 && ! d.reservedAt a n then x.1 else x.1.barErr, x.2.1) f
    | some l =>
      if d.pwr.asleep = 1 then d
      else match d.aperture f off with
        | none => d.barErr
        | some a =>
          if plainReg a then d.barErr
          else if d.pendAt (.func f) a l.length then d.holdAcc (.barWrite f off l)
          else
            let x := d.busWrite (.func f) 0 a l .nobody
            if x.2 && ! d.reservedAt a l.length then x.1 else x.1.barErr

/-- A BAR read whose data has not come within 40 µs (R463). -/
def Dev.barTimeout (d : Dev) (f n : Nat) : Dev := if d.barOpen f then Dev.answer4 (d.readTimeout, zeros n) f else d

/-! ### Identity (R451, R452) -/

/-- The 32-bit word at byte offset `off` of function `f`'s configuration space header (R452): vendor and device ID, revision and
class code, subsystem vendor and subsystem ID; other words are not given there. -/
def Dev.cfgWord (d : Dev) (f off : Nat) : Option Nat :=
  if ! d.fnExists f then none
  else if off = 0 then some (if f = 0 then Config.vendorId % 65536 + 0x0940 * 2 ^ 16 else 0xFFFF + 0xFFFF * 2 ^ 16)
  else if off = 8 then some (byteAt d.car.partRec 17 + 0x120000 * 2 ^ 8)
  else if off = 0x2C then some (leAt d.car.partRec 18 2 + leAt d.car.partRec 20 2 * 2 ^ 16)
  else none

/-- The VF Device ID of the SR-IOV capability (R452). -/
def vfDeviceId : Nat := 0x0941

/-- The device's outstanding non-posted requests are at most 256 (R451). -/
def maxReads : Nat := 256

/-! ### DMA descriptors (R465 to R469) -/

/-- Host memory of the descriptor is still to be asked for. -/
def DmaJob.wants (j : DmaJob) : Bool := j.st == 0 && j.asked < leAt j.desc 16 4

/-- The next read request of a descriptor: its address and length, no larger than `m` bytes, which it does not cross (R451). -/
def DmaJob.request (j : DmaJob) (m : Nat) : Nat × Nat :=
  let a := leAt j.desc 0 8 + j.asked
  (a, min (leAt j.desc 16 4 - j.asked) (m - a % m))

/-- Channel `c` issues the next read request of its oldest descriptor that wants one. -/
def Dev.dmaAsk (d : Dev) (c : Nat) : Dev :=
  let l := SMap.get [] d.dma c
  match l[l.findIdx DmaJob.wants]? with
  | none => d
  | some j =>
    let f := d.requester (c / 2)
    let x := j.request (d.fn f).readSize
    (d.setDma c (l.set (l.findIdx DmaJob.wants) { j with asked := j.asked + x.2, reads := j.reads + 1 })).emit (.hostRead f x.1 x.2)

/-- Read requests outstanding. -/
def Dev.readsOut (d : Dev) : Nat := (d.dma.map (fun e => (e.2.map DmaJob.reads).sum)).sum

/-- The channels from host to device issue read requests while fewer than 256 are outstanding (R451). -/
def Dev.dmaAsks : Nat → Dev → Dev
  | 0, d => d
  | k + 1, d =>
    match (upTo 16).find? (fun p => (SMap.get [] d.dma (2 * p)).any DmaJob.wants) with
    | some p => if maxReads ≤ d.readsOut then d else Dev.dmaAsks k (d.dmaAsk (2 * p))
    | none => d

/-- Those of the oldest descriptor of channel `c` that were still to come have followed as earlier ones were answered. -/
def Dev.dmaRest (c : Nat) : Nat → Dev → Dev
  | 0, d => d
  | k + 1, d => if (SMap.get [] d.dma c).head?.any DmaJob.wants then Dev.dmaRest c k (d.dmaAsk c) else d


/-- Two addresses lie in one target. -/
def sameTarget (a b : Nat) : Bool :=
  match target a, target b with
  | .ddr, .ddr => true
  | .core n _, .core m _ => n == m
  | .commons k r _, .commons l s _ => k == l && r == s
  | .buffer r _, .buffer s _ => r == s
  | .axon k _, .axon l _ => k == l
  | .reg k _, .reg l _ => k == l && k != 0
  | .keep _, .keep _ => true
  | _, _ => false

/-- The checks of R466 in table order. -/
def Dev.dmaCheck (d : Dev) (c : Nat) (x : List Byte) : Status :=
  let p := c / 2
  let a := leAt x 8 8
  let n := leAt x 16 4
  let t := target a
  let isKeep := match t with | .keep _ => true | _ => false
  let isReg := match t with | .reg _ o => ! d.reaches (.func p) o | _ => false
  if byteAt x 0 % 8 ≠ 0 || 2 ^ 48 ≤ a || n % 8 ≠ 0 || n < 8 || 16777216 < n || bitsOf (byteAt x 20) 2 5 ≠ 0 ||
      leAt x 22 2 ≠ 0 || leAt x 28 4 ≠ 0 then .badLength
  else if ! sameTarget a (a + n - 1) || (t == .ddr && d.ddrCap < a + n) || (p ≠ 0 && ! d.partMay p t a n) || isReg then .denied
  else if isKeep && (c % 2 = 0 || p ≠ 0) then .denied
  else if d.choked p then .muted
  else .ok

/-- Channel `c` moves: it is enabled, the device is awake, and it is not stopped by D3hot (R468, R475). -/
def Dev.dmaRuns (d : Dev) (c : Nat) : Bool :=
  d.flag (PCI_DMACFG c) 31 && d.pwr.asleep == 0 && ! (c < 2 && d.d3hot)

/-- Channel `c` takes its next descriptor, whose 32 bytes are `x`: up to four run, one with FENCE by itself (R466, R467); data from the
host is asked for (R451). -/
def Dev.dmaStart (d : Dev) (c : Nat) (x : List Byte) : Dev :=
  let l := SMap.get [] d.dma c
  let x := padTo 32 x
  if ! d.dmaRuns c || (d.rg (PCI_DMAHEAD c) + l.length) % 2 ^ 32 = d.rg (PCI_DMATAIL c) || 4 ≤ l.length ||
      (bitAt (byteAt x 20) 1 && ! l.isEmpty) then d
  else Dev.dmaAsks maxReads (d.setDma c (l ++ [{ desc := x, st := (d.dmaCheck c x).code,
                                                  asked := if c % 2 = 0 then 0 else leAt x 16 4, reads := 0 }]))

/-- An uncorrectable word or burst lies in the `n` bytes at `a` (R469). -/
def Dev.dirty (d : Dev) (a n : Nat) : Bool :=
  let b := match target a with
    | .core c o => match d.physOf c with
      | some q => csBase q + o
      | none => a
    | _ => a
  let w := if b < 0x8000000000 then 64 else 8
  d.ecc.any (fun e => 2 ≤ e.2 && b / w * w ≤ e.1 && e.1 < b + n)

/-- A link or data error of a descriptor is counted (R469). -/
def Dev.dmaErr (d : Dev) (c : Nat) : Dev :=
  ((d.bump (PCI_DMAERRCNT c) 1).setFlag (PCI_DMASTAT c) 2 true).setFlag PCI_STAT 1 true

/-- The oldest descriptor of channel `c` completes (R467, R469).  For a host read, `pieces` are the bytes that came, by offset,
and `err` is 0 where all came, 1 where a completion was poisoned and 2 where one was missing or refused.  It does not complete while
its Commons bank is being handed over (R422). -/
def Dev.dmaComplete (d : Dev) (c : Nat) (pieces : List (Nat × List Byte)) (err : Nat) : Dev :=
  match SMap.get [] d.dma c with
  | [] => d
  | j :: _ =>
    let x := j.desc
    let a := leAt x 8 8
    let n := leAt x 16 4
    let ag := Agent.func (c / 2)
    if ! d.dmaRuns c then d
    else if j.st ≠ 0 then d.dmaDone c (Status.ofCode j.st) 0
    else if d.pendAt ag a n then d
    else if c % 2 = 0 then
      let ps := pieces.filter (fun y => y.1 + y.2.length ≤ n)
      let got := (ps.map (fun y => y.2.length)).sum
      if err = 0 && got ≠ n then d
      else
        let d := if err = 0 then Dev.dmaRest c (n / 128 + 1) d else d
        let d := d.forEach ps (fun d y => (d.busWrite ag 0 (a + y.1) y.2 .nobody).1)
        let d := if err = 0 then d.dmaDone c .ok n
          else (d.dmaErr c).dmaDone c (if err = 1 then .incomplete else .timeout) got
        Dev.dmaAsks maxReads d
    else
      let bad := d.dirty a n
      let r := d.busRead ag 0 a n
      let f := d.requester (c / 2)
      let d := r.1.emit (.dmaWrite f (leAt x 0 8) (d.fn f).relaxed r.2.1)
      if bad then (d.dmaErr c).dmaDone c .incomplete n else d.dmaDone c .ok n

/-! ### Resets (R472 to R475) -/

/-- A channel is disabled by a reset: the work in flight is lost. -/
def Dev.dmaOff (d : Dev) (c : Nat) : Dev := (d.setFlag (PCI_DMACFG c) 31 false).setDma c []

/-- The channels, event rings and Bellpull rings of function and partition `p` are disabled (R473, R520). -/
def Dev.ringsOff (d : Dev) (p : Nat) : Dev :=
  let d := (d.dmaOff (2 * p)).dmaOff (2 * p + 1)
  let d := (d.setFlag (AXN_IRCFG 0 p) 31 false).setFlag (AXN_ORCFG 0 p) 31 false
  ((d.setFlag (CAR_CRCFG p) 31 false).setFlag (CAR_RRCFG p) 31 false).dropResps p

/-- Function `f` goes to its reset state: every vector masked, its apertures and windows invalid (R471, R473, R478). -/
def Dev.fnReset (d : Dev) (f : Nat) : Dev :=
  let x := d.fn f
  let d := d.setFn f { x with msixAddr := [], msixData := [], msixUnmasked := [], msixPend := [], modRun := [], flr := false,
                              mrrs := Fn.reset.mrrs, relaxed := Fn.reset.relaxed, cplTmo := Fn.reset.cplTmo }
  let d := d.forEach (upTo 16) (fun d a => d.setR (PCI_AP f a) 0)
  d.forEach (upTo 2) (fun d w => if f = 0 then d else d.setR (PCI_VFWIN f w) 0)

/-- Every function to its reset state, VF Enable 0, every channel and ring disabled (R473); message channels that the host reads
close (R411). -/
def Dev.endpointReset (d : Dev) : Dev :=
  let d := d.forEach (upTo 16) (fun d f => (d.ringsOff f).fnReset f)
  let d := d.forEach (upTo 16) Dev.hostReaderReset
  { d with vfEnable := false, numVfs := 0, d3hot := false }

/-- PERST_N is asserted: the PCI block is reset (R473, R478). -/
def Dev.perstAssert (d : Dev) : Dev :=
  let d := (d.endpointReset.resetRegs 0x90000 0xA0000).setFlag PCI_STAT 4 true
  { d with pins := { d.pins with perst := true } }

/-- The link is up with a width and a rate (R449, R476). -/
def Dev.linkUp (d : Dev) (width rate : Nat) : Dev :=
  if (width = 4 || width = 8 || width = 16) && 1 ≤ rate && rate ≤ 5 then
    ((d.setF PCI_LINKSTAT 16 5 width).setF PCI_LINKSTAT 8 4 rate).setFlag PCI_LINKSTAT 0 true
  else d

/-- PERST_N is released: the link trains, and configuration reads are answered, with retry status until Carillon has verified its
firmware (R472). -/
def Dev.perstRelease (d : Dev) (width rate : Nat) : Dev :=
  if d.pins.perst then ({ d with pins := { d.pins with perst := false } }.linkUp width rate).crsBit else d

/-- Hot reset or link down (R473): as PERST_N, without the PHY's reset; the block's own registers and counters stay. -/
def Dev.hotReset (d : Dev) : Dev :=
  if d.pins.perst then d
  else ((d.endpointReset.setR PCI_LINKSTAT 0).bump PCI_LINKDOWN 1).crsBit

/-- The link trains up again (R449). -/
def Dev.linkAgain (d : Dev) (width rate : Nat) : Dev :=
  if d.pins.perst || d.flag PCI_LINKSTAT 0 then d else d.linkUp width rate

/-- What an FLR of function `f` does to it and its partition (R473, R474). -/
def Dev.flrOne (d : Dev) (f : Nat) : Dev :=
  let d := ((d.choke f 0x010E).ringsOff f).fnReset f
  let d := d.clearPart f
  d.setFn f { d.fn f with flr := true }

/-- The virtual functions that exist. -/
def Dev.vfs (d : Dev) : List Nat := (upTo 16).filter (fun f => f != 0 && d.fnExists f)

/-- VF Enable written 0: each virtual function as by an FLR (R473). -/
def Dev.vfClear (d : Dev) : Dev :=
  let d := d.forEach d.vfs Dev.flrOne
  { d with vfEnable := false, numVfs := 0 }.crsBit

/-- An FLR of function `f`; that of the physical function resets the virtual functions too (R473, R474). -/
def Dev.flr (d : Dev) (f : Nat) : Dev :=
  if ! d.fnExists f || (d.fn f).flr || d.pins.perst then d
  else
    let d := d.bump PCI_FLRCNT 1
    if f = 0 then ({ (d.flrOne 0) with d3hot := false }).vfClear else (d.flrOne f).crsBit

/-- The FLR of function `f` completes: it answers again (R474). -/
def Dev.flrEnd (d : Dev) (f : Nat) : Dev := (d.setFn f { d.fn f with flr := false }).crsBit

/-- VF Enable written 1 with NumVFs `n`, 1 to 15 (R453, R454). -/
def Dev.vfSet (d : Dev) (n : Nat) : Dev :=
  if d.vfEnable || n = 0 || 15 < n then d else { d with vfEnable := true, numVfs := n }

/-- The physical function enters D3hot or returns from it (R475). -/
def Dev.setD3hot (d : Dev) (b : Bool) : Dev := { d with d3hot := b }

end Sys2Proof.Machine
end

