-- ==== Sys2Proof/Machine/CmdHost.lean ====
section
/-! DEFINITION. The accesses, registers and events of the host chapter, and the rows of the address map. -/

namespace Sys2Proof.Machine

/-- CORE_STORE_WRITE (R656): A write through the core-store window, partial writes read-modify-written. -/
def execCoreStoreWrite (ag : Agent) (n : Nat) (off : Nat) (bytes : List Byte) (s : State) : Outcome := s.run (·.coreStoreWrite ag n off bytes)
/-- ALIAS_WRITE (R46): A bit-set or bit-clear alias write performs an indivisible read-modify-write. -/
def execAliasWrite (ag : Agent) (a : Nat) (bytes : List Byte) (s : State) : Outcome := s.run (·.aliasWrite ag a bytes)
/-- COUNTER_LOW_READ (R15): A read of the low half of a 64-bit counter latches its high half for the function. -/
def execCounterLowRead (f : Nat) (a : Nat) (s : State) : Outcome := s.run (·.counterLow f a)
/-- REGISTER_WRITE (R11): A write to a register field that has no row of its own, by its access type. -/
def execRegisterWrite (ag : Agent) (a : Nat) (v : Nat) (s : State) : Outcome := s.run (·.registerWrite ag a v)
/-- PERST_N_ASSERT (R473): PERST_N asserted resets all functions and disables channels and rings. -/
def execPerstNAssert (s : State) : Outcome := s.run (·.perstAssert)
/-- PERST_N_RELEASE (R472): PERST_N released; the endpoint trains and answers configuration. -/
def execPerstNRelease (width : Nat) (rate : Nat) (s : State) : Outcome := s.run (·.perstRelease width rate)
/-- HOT_RESET (R473): Hot reset or link down resets the functions as PERST_N without PHY reset. -/
def execHotReset (s : State) : Outcome := s.run (·.hotReset)
/-- FLR (R474): Function Level Reset Chokes and clears the function's partition. -/
def execFlr (f : Nat) (s : State) : Outcome := s.run (·.flr f)
/-- FLR_COMPLETE (R474): The partition clear of an FLR completes within 50 ms. -/
def execFlrComplete (f : Nat) (s : State) : Outcome := s.run (·.flrEnd f)
/-- VF_ENABLE_SET (R454): VF Enable is written 1 in the SR-IOV capability and the virtual functions come into
existence. -/
def execVfEnableSet (num : Nat) (s : State) : Outcome := s.run (·.vfSet num)
/-- VF_ENABLE_CLEAR (R473): VF Enable written 0 resets every virtual function as an FLR. -/
def execVfEnableClear (s : State) : Outcome := s.run (·.vfClear)
/-- D3HOT (R475): The physical function enters D3hot and stops its BAR access and rings. -/
def execD3hot (s : State) : Outcome := s.run (·.setD3hot true)
/-- D3HOT_EXIT (R475): The physical function returns from D3hot to D0 and its BAR accesses, Bellpull ring and
channels 0 and 1 resume. -/
def execD3hotExit (s : State) : Outcome := s.run (·.setD3hot false)
/-- PCIE_LINK_UP (R449): The PCIe link trains up again after a link down and PCI_LINKSTAT.DLUP is set. -/
def execPcieLinkUp (width : Nat) (rate : Nat) (s : State) : Outcome := s.run (·.linkAgain width rate)
/-- BAR0_ACCESS (R458): A BAR0 access reaches a register block or is refused. -/
def execBar0Access (f : Nat) (off : Nat) (len : Nat) (data : Option (List Byte)) (s : State) : Outcome := s.run (·.bar0 f off len data)
/-- BAR2_ACCESS (R460): A BAR2 aperture access is translated to a local address or refused. -/
def execBar2Access (f : Nat) (off : Nat) (len : Nat) (data : Option (List Byte)) (s : State) : Outcome := s.run (·.bar2 f off len data)
/-- BAR_READ_TIMEOUT (R463): A BAR read without data after 40 µs completes with zeros. -/
def execBarReadTimeout (f : Nat) (len : Nat) (s : State) : Outcome := s.run (·.barTimeout f len)
/-- PCI_DMATAIL_WRITE (R462): Write of a DMA producer index, the channel doorbell. -/
def execPciDmatailWrite (f : Nat) (dc : Nat) (v : Nat) (s : State) : Outcome := s.run (·.dmaTailWrite f dc v)
/-- PCI_DMACFG_WRITE (R468): Write of PCI_DMACFG that enables or stops a channel. -/
def execPciDmacfgWrite (f : Nat) (dc : Nat) (v : Nat) (s : State) : Outcome := s.run (·.dmaCfgWrite f dc v)
/-- PCI_AP_WRITE (R477): Write of an aperture or window register. -/
def execPciApWrite (f : Nat) (g : Nat) (k : Nat) (v : Nat) (s : State) : Outcome := s.run (·.apRow f g k v)
/-- DMA_DESCRIPTOR_START (R466): A channel checks a descriptor and starts moving data. -/
def execDmaDescriptorStart (dc : Nat) (desc : List Byte) (s : State) : Outcome := s.run (·.dmaStart dc desc)
/-- DMA_DESCRIPTOR_COMPLETE (R467): A descriptor's writes complete, DONE is written and the head advances. -/
def execDmaDescriptorComplete (dc : Nat) (pieces : List (Nat × List Byte)) (err : Nat) (s : State) : Outcome := s.run (·.dmaComplete dc pieces err)
/-- IMOD_INTERVAL_END (R471): The moderation interval ends and a pending message is sent. -/
def execImodIntervalEnd (f : Nat) (vec : Nat) (s : State) : Outcome := s.run (·.imodEnd f vec)

end Sys2Proof.Machine
end

