-- ==== Sys2Proof/Machine/CmdNeuron.lean ====
section
/-! DEFINITION. The commands and events of the neuron and synapse chapters. -/

namespace Sys2Proof.Machine

/-- PROFILE_LOAD (R108): Bellpull command that checks and loads a neuron profile and its ladder. -/
def execProfileLoad (h : Hdr) (pl : List Byte) (s : State) : Outcome := s.run (·.serve cProfileLoad Dev.profileLoad h pl)
/-- PROFILE_READ (R137): Bellpull command that returns a profile base record and ladder. -/
def execProfileRead (h : Hdr) (pl : List Byte) (s : State) : Outcome := s.run (·.serve cProfileRead Dev.profileRead h pl)
/-- NEURON_LOAD (R139): Bellpull command that writes neuron records. -/
def execNeuronLoad (h : Hdr) (pl : List Byte) (s : State) : Outcome := s.run (·.serve cNeuronLoad Dev.neuronLoad h pl)
/-- NEURON_READ (R140): Bellpull command that returns neuron records, optionally caught up. -/
def execNeuronRead (h : Hdr) (pl : List Byte) (s : State) : Outcome := s.run (·.serve cNeuronRead Dev.neuronRead h pl)
/-- NEURON_STATUS (R137): Bellpull command that returns the NEU registers of a core. -/
def execNeuronStatus (h : Hdr) (pl : List Byte) (s : State) : Outcome := s.run (·.serve cNeuronStatus Dev.neuronStatus h pl)
/-- NCOUNT_WRITE (R144): Write of NEU_CFG.NCOUNT, ignored when the records would pass the REC area or fire log. -/
def execNcountWrite (f : Nat) (q : Nat) (v : Nat) (s : State) : Outcome := s.run (·.regWrite (.func f) (NEU_CFG q) v)
/-- INTEGRATE (R111): After its slot drains, the neuron engine updates touched and active neurons of the beat. -/
def execIntegrate (q : Nat) (s : State) : Outcome := s.run (·.integrate q)
/-- FIRE_LOG_STALL_END (R128): A stalled neuron engine resumes when a fire-log entry is released. -/
def execFireLogStallEnd (q : Nat) (cycles : Nat) (s : State) : Outcome := s.run (·.stallEnd q cycles)
/-- FINAL_REPORT (R58): An N-core reports FINAL once Integrate is done and all its lookups are issued. -/
def execFinalReport (q : Nat) (s : State) : Outcome := s.run (·.finalReport q)
/-- PAGEMAP_SET (R143): Bellpull command that checks and installs a core's page map and zones. -/
def execPagemapSet (h : Hdr) (pl : List Byte) (s : State) : Outcome := s.run (·.serve cPagemapSet Dev.pagemapSet h pl)
/-- PAGEMAP_READ (R183): Bellpull command that returns a core's page map. -/
def execPagemapRead (h : Hdr) (pl : List Byte) (s : State) : Outcome := s.run (·.serve cPagemapRead Dev.pagemapRead h pl)
/-- ROW_LOAD (R185): Bellpull command that writes a synapse row image and removes its poison entry. -/
def execRowLoad (h : Hdr) (pl : List Byte) (s : State) : Outcome := s.run (·.serve cRowLoad Dev.rowLoad h pl)
/-- ROW_READ (R183): Bellpull command that returns a row image. -/
def execRowRead (h : Hdr) (pl : List Byte) (s : State) : Outcome := s.run (·.serve cRowRead Dev.rowRead h pl)
/-- SYN_STATUS (R183): Bellpull command that returns the SYN registers. -/
def execSynStatus (h : Hdr) (pl : List Byte) (s : State) : Outcome := s.run (·.serve cSynStatus Dev.synStatus h pl)
/-- POISON_LIST (R183): Bellpull command that returns the poison table. -/
def execPoisonList (h : Hdr) (pl : List Byte) (s : State) : Outcome := s.run (·.serve cPoisonList Dev.poisonList h pl)
/-- DELIVER (R168): The synapse engine drains the beat's near slot and adds contributions into rings. -/
def execDeliver (q : Nat) (s : State) : Outcome := s.run (·.deliver q)
/-- FAR_DATA_ARRIVAL (R166): Data of a far row arrives and the row is processed at the next row boundary. -/
def execFarDataArrival (q : Nat) (k : Nat) (fw : Nat) (s : State) : Outcome := s.run (·.farArrives q k fw)
/-- FAR_ROW_TIMEOUT (R170): A far row without data 8,192 cycles after issue is abandoned. -/
def execFarRowTimeout (q : Nat) (k : Nat) (fw : Nat) (s : State) : Outcome := s.run (·.farTimeout q k fw)
/-- CORE_STORE_SCRUB (R176): The scrubber reads and corrects one core-store word every 64 cycles. -/
def execCoreStoreScrub (q : Nat) (s : State) : Outcome := s.run (·.scrubStep q)

end Sys2Proof.Machine
end

