-- ==== Sys2Proof/Machine/CmdObs.lean ====
section
/-! DEFINITION. The commands, register writes and events of the observation chapter. -/

namespace Sys2Proof.Machine

/-- OBS_READ (R635): Bellpull command that returns activity counters. -/
def execObsRead (h : Hdr) (pl : List Byte) (s : State) : Outcome := s.run (·.serve cObsRead Dev.obsRead h pl)
/-- OBS_CONTROL (R622): Bellpull command that freezes, unfreezes or clears counters. -/
def execObsControl (h : Hdr) (pl : List Byte) (s : State) : Outcome := s.run (·.serve cObsControl Dev.obsControl h pl)
/-- TRACE_CONFIG (R627): Bellpull command that configures the trace port. -/
def execTraceConfig (h : Hdr) (pl : List Byte) (s : State) : Outcome := s.run (·.serve cTraceConfig Dev.traceConfig h pl)
/-- TRACE_STATUS (R635): Bellpull command that returns trace registers. -/
def execTraceStatus (h : Hdr) (pl : List Byte) (s : State) : Outcome := s.run (·.serve cTraceStatus Dev.traceStatus h pl)
/-- TRACE_MARK (R625): Bellpull command that emits a MARK record. -/
def execTraceMark (h : Hdr) (pl : List Byte) (s : State) : Outcome := s.run (·.serve cTraceMark Dev.traceMark h pl)
/-- OBS_PCTL_FREEZE (R622): Register write that freezes a partition's counters at the next tick. -/
def execObsPctlFreeze (f : Nat) (p : Nat) (b : Nat) (s : State) : Outcome := s.run (·.pctlFreeze f p b)
/-- OBS_PCTL_CLEAR (R622): Register write that zeroes a partition's counters at the next tick. -/
def execObsPctlClear (f : Nat) (p : Nat) (s : State) : Outcome := s.run (·.pctlClear f p)
/-- OBS_TMARK_HI_WRITE (R625): Write of OBS_TMARK_HI that emits a MARK record. -/
def execObsTmarkHiWrite (f : Nat) (v : Nat) (s : State) : Outcome := s.run (·.tmarkHi f v)
/-- OBS_TCTL_WRITE (R630): Write of OBS_TCTL that enables or stops tracing. -/
def execObsTctlWrite (f : Nat) (v : Nat) (s : State) : Outcome := s.run (·.tctlWrite f v)
/-- TRACE_START (R629): After 10 ms of idle the trace port sends its first SYNC pair. -/
def execTraceStart (s : State) : Outcome := s.run (·.traceStart)
/-- SYNC_PAIR (R629): Every 1 ms the trace port sends a SYNC pair. -/
def execSyncPair (s : State) : Outcome := s.run (·.syncTime)
/-- TRACE_RECORD_SEND (R629): The trace port sends a record from a die FIFO, freeing room so a DROP record can enter
or a TRACE-stalled engine can resume. -/
def execTraceRecordSend (die : Nat) (s : State) : Outcome := s.run (·.traceSend die)

end Sys2Proof.Machine
end

