-- ==== Sys2Proof/Machine/CmdPower.lean ====
section
/-! DEFINITION. The commands and events of the power chapter. -/

namespace Sys2Proof.Machine

/-- POWER_STATE (R581): Bellpull command that sets the target operating state or enters Vigil or Ember. -/
def execPowerState (h : Hdr) (pl : List Byte) (s : State) : Outcome := s.run (·.serve cPowerState Dev.powerState h pl |>.sleepNow)
/-- POWER_VOTE (R573): Bellpull command that casts a vote on domains. -/
def execPowerVote (h : Hdr) (pl : List Byte) (s : State) : Outcome := s.run (·.serve cPowerVote Dev.powerVote h pl)
/-- POWER_STATUS (R598): Bellpull command that returns power state and domain levels. -/
def execPowerStatus (h : Hdr) (pl : List Byte) (s : State) : Outcome := s.run (·.serve cPowerStatus Dev.powerStatus h pl)
/-- THERMAL_CONFIG (R598): Bellpull command that sets thermal thresholds and power limit. -/
def execThermalConfig (h : Hdr) (pl : List Byte) (s : State) : Outcome := s.run (·.serve cThermalConfig Dev.thermalConfig h pl)
/-- POLICY_SET (R598): Bellpull command that sets UNASSOFF, NAPEN and NAPMIN. -/
def execPolicySet (h : Hdr) (pl : List Byte) (s : State) : Outcome := s.run (·.serve cPolicySet Dev.policySet h pl)
/-- RTC_ALARM (R588): Bellpull command that sets the RTC alarm. -/
def execRtcAlarm (h : Hdr) (pl : List Byte) (s : State) : Outcome := s.run (·.serve cRtcAlarm Dev.rtcAlarmCmd h pl)
/-- AON_WRITE (R598): Bellpull command that writes retained host scratch. -/
def execAonWrite (h : Hdr) (pl : List Byte) (s : State) : Outcome := s.run (·.serve cAonWrite Dev.aonWrite h pl)
/-- AON_READ (R598): Bellpull command that reads retained host scratch. -/
def execAonRead (h : Hdr) (pl : List Byte) (s : State) : Outcome := s.run (·.serve cAonRead Dev.aonRead h pl)
/-- VOTE_WRITE (R596): Write of a PWR_VON or PWR_VRET word that changes a client's votes. -/
def execVoteWrite (ag : Agent) (c : Nat) (word : Nat) (on : Bool) (v : Nat) (s : State) : Outcome := s.run (·.voteWrite ag c word on v)
/-- DOMAIN_LEVEL_CHANGE (R572): A domain's level change to ON, RET or OFF completes. -/
def execDomainLevelChange (x : Nat) (s : State) : Outcome := s.run (·.levelChange x)
/-- PLANE_DRAIN_TIMEOUT (R581): A change to or from Lent waits 1 ms for the plane, then completes gang ops
INCOMPLETE. -/
def execPlaneDrainTimeout (s : State) : Outcome := s.run (·.planeDrain)
/-- VOLTAGE_RAMP_END (R581): VDD_CORE ramp ends and the clocks switch. -/
def execVoltageRampEnd (s : State) : Outcome := s.run (·.rampEnd)
/-- VIGIL_WAKE (R583): A Tocsin source or doorbell ends Vigil and the device is restored. -/
def execVigilWake (cause : Nat) (s : State) : Outcome := s.run (·.vigilWake cause)
/-- RTC_ALARM_MATCH (R588): The RTC steps into its alarm value, raising source 18 or ending Ember. -/
def execRtcAlarmMatch (s : State) : Outcome := s.run (·.rtcAlarm)
/-- BROWN_OUT (R590): An always-on draw above 20 mA in low-power mode resets the device. -/
def execBrownOut (s : State) : Outcome := s.run (·.brownOut)
/-- THERMTRIP (R594): A die sensor at 120 °C asserts THERMTRIP_N, Chokes all and powers off domains. -/
def execThermtrip (s : State) : Outcome := s.run (·.thermTrip)
/-- GOVERNOR_SAMPLE (R592): Each millisecond the governor compares temperature and power and adjusts the ceiling. -/
def execGovernorSample (volt : Option Nat) (s : State) : Outcome := s.run (·.governor volt)
/-- NAP_VOTE_DROP (R578): A quad with nothing to do drops the Tabor vote to RET. -/
def execNapVoteDrop (k : Nat) (s : State) : Outcome := s.run (·.napDrop k)
/-- NAP_VOTE_RAISE (R578): 600 ticks before the next beat the Tabor raises the quad vote to ON. -/
def execNapVoteRaise (k : Nat) (s : State) : Outcome := s.run (·.napRaise k)
/-- PWRGD_FALL (R648): PWRGD low for 1 µs with PWR_EN high is a power loss. -/
def execPwrgdFall (s : State) : Outcome := s.run (·.pwrgdFall)
/-- JOURNAL_PAGE_PROGRAM (R530): A journal page is programmed when 63 records gather or after 10 s. -/
def execJournalPageProgram (s : State) : Outcome := s.run (·.journalPage)
/-- VDD_AON_VALID (R647): VDD_AON comes within its limits; the device drives PWR_EN high within 2 ms and requests
VID code 44. -/
def execVddAonValid (s : State) : Outcome := s.run (·.aonValid)
/-- VDD_AON_REMOVAL (R655): VDD_AON is removed, releasing the latched THERMTRIP_N and losing the RTC and retained
SRAM. -/
def execVddAonRemoval (s : State) : Outcome := s.run (·.aonRemoved)

end Sys2Proof.Machine
end

