-- ==== Sys2Proof/Machine/Held.lean ====
section
/-! DEFINITION. The end of a Commons handover: what the new owner's agents had waiting goes on (R422, R430). -/

namespace Sys2Proof.Machine

/-- A held access is made again. -/
def Dev.heldGo (d : Dev) (x : HeldAcc) : Dev :=
  match x with
  | .barRead f off n => d.bar2 f off n none
  | .barWrite f off l => d.bar2 f off l.length (some l)
  | .request q type l =>
    let d := { d with inbox := l :: d.inbox }
    if type = 0x20 then d.readRequest q l else if type = 0x21 then d.writeRequest q l else d.bulkWrite q l

/-- The old owner's accesses to a bank have completed, and the new owner's are released, in the order in which they came. -/
def Dev.handoverGo (d : Dev) (r b : Nat) : Dev :=
  let d' := { (d.handoverEnd r b) with heldAcc := [] }
  (d'.forEach d.heldAcc Dev.heldGo).forEach (upTo 16) Dev.opsGo

end Sys2Proof.Machine
end

