-- ==== Sys2Proof/Machine/CmdQueue.lean ====
section
/-! DEFINITION. The commands and events of the sequencer and queue chapter, but the descriptors. -/

namespace Sys2Proof.Machine

/-- SEQ_LOAD (R429): Bellpull command that loads S-core descriptors. -/
def execSeqLoad (h : Hdr) (pl : List Byte) (s : State) : Outcome := s.run (·.serve cSeqLoad Dev.seqLoad h pl)
/-- SEQ_CONTROL (R429): Bellpull command that halts, runs or resets an S-core. -/
def execSeqControl (h : Hdr) (pl : List Byte) (s : State) : Outcome := s.run (·.serve cSeqControl Dev.seqControl h pl)
/-- SEQ_STATUS (R429): Bellpull command that returns SEQ registers. -/
def execSeqStatus (h : Hdr) (pl : List Byte) (s : State) : Outcome := s.run (·.serve cSeqStatus Dev.seqStatusCmd h pl)
/-- CHAN_CONFIG (R411): Bellpull command that opens, closes or resets a channel and sets its reader. -/
def execChanConfig (h : Hdr) (pl : List Byte) (s : State) : Outcome := s.run (·.serve cChanConfig Dev.chanConfig h pl)
/-- CHAN_SEND (R407): Bellpull command that sends a message to a channel or combining queue. -/
def execChanSend (h : Hdr) (pl : List Byte) (s : State) : Outcome := s.run (·.serve cChanSend Dev.chanSend h pl)
/-- CHAN_RECV (R409): Bellpull command that pops a host-read channel, waiting up to its time. -/
def execChanRecv (h : Hdr) (pl : List Byte) (s : State) : Outcome := s.run (·.serve cChanRecv Dev.chanRecv h pl)
/-- QUE_STATUS (R429): Bellpull command that returns QUE registers. -/
def execQueStatus (h : Hdr) (pl : List Byte) (s : State) : Outcome := s.run (·.serve cQueStatus Dev.queStatus h pl)
/-- CQ_CONFIG (R429): Bellpull command that enables, disables or clears a combining queue. -/
def execCqConfig (h : Hdr) (pl : List Byte) (s : State) : Outcome := s.run (·.serve cCqConfig Dev.cqConfig h pl)
/-- COMMONS_OWN (R430): Bellpull command that hands a Commons bank to a new owner. -/
def execCommonsOwn (h : Hdr) (pl : List Byte) (s : State) : Outcome := s.run (·.serve cCommonsOwn Dev.commonsOwn h pl)
/-- CMN_STATUS (R429): Bellpull command that returns CMN registers. -/
def execCmnStatus (h : Hdr) (pl : List Byte) (s : State) : Outcome := s.run (·.serve cCmnStatus Dev.cmnStatus h pl)
/-- CHAN_RECV_TIMEOUT (R409): A CHAN_RECV wait expires and completes with TIMEOUT. -/
def execChanRecvTimeout (f : Nat) (tag : Nat) (s : State) : Outcome := s.run (·.recvTimeout f tag)
/-- CHANNEL_HOLD_EXPIRY (R408): A message held QUE_HOLD µs is dropped and acknowledged REFUSED. -/
def execChannelHoldExpiry (r : Nat) (c : Nat) (k : Nat) (s : State) : Outcome := s.run (·.holdExpiry r c k)
/-- HANDOVER_END (R422): The old owner's queued accesses complete and the new owner's are released. -/
def execHandoverEnd (r : Nat) (b : Nat) (s : State) : Outcome := s.run (·.handoverGo r b)
/-- ACKNOWLEDGEMENT (R403): An acknowledgement reaches the S-core and advances its completion counter. -/
def execAcknowledgement (r : Nat) (s : State) : Outcome := s.run (·.acknowledge r)

end Sys2Proof.Machine
end

