-- ==== Sys2Proof/Machine/CmdSeq.lean ====
section
/-! DEFINITION. The register writes of the S-core, channel, queue and bank registers, and the messages. -/

namespace Sys2Proof.Machine

/-- SEQ_CTL_RUN (R425): Register write that runs the S-core from SEQ_ENTRY. -/
def execSeqCtlRun (ag : Agent) (r : Nat) (s : State) : Outcome := s.run (·.regWrite ag (SEQ_CTL r) 1)
/-- SEQ_CTL_HALT (R425): Register write that halts the S-core after the current descriptor. -/
def execSeqCtlHalt (ag : Agent) (r : Nat) (s : State) : Outcome := s.run (·.regWrite ag (SEQ_CTL r) 2)
/-- SEQ_CTL_RESET (R425): Register write that halts and clears the S-core and resets its channels. -/
def execSeqCtlReset (ag : Agent) (r : Nat) (s : State) : Outcome := s.run (·.regWrite ag (SEQ_CTL r) 4)
/-- CHANNEL_MESSAGE (R407): A 64-byte write to a channel input window is entered, held or dropped and acknowledged.
-/
def execChannelMessage (ag : Agent) (r : Nat) (ch : Nat) (bytes : List Byte) (s : State) : Outcome := s.run (·.windowWrite ag (QUE_CHIN r ch) bytes .nobody (r, false, ch))
/-- QUE_CHCTL_OPEN (R411): Register write that opens a channel. -/
def execQueChctlOpen (ag : Agent) (r : Nat) (ch : Nat) (s : State) : Outcome := s.run (·.regBits ag (QUE_CHCTL r ch) 1)
/-- QUE_CHCTL_CLOSE (R411): Register write that closes a channel. -/
def execQueChctlClose (ag : Agent) (r : Nat) (ch : Nat) (s : State) : Outcome := s.run (·.regBits ag (QUE_CHCTL r ch) 2)
/-- QUE_CHCTL_RESET (R411): Register write that resets a channel, discarding its entries. -/
def execQueChctlReset (ag : Agent) (r : Nat) (ch : Nat) (s : State) : Outcome := s.run (·.regBits ag (QUE_CHCTL r ch) 4)
/-- COMBINING_CONTRIBUTION (R413): A contribution is added into a combining queue's lanes. -/
def execCombiningContribution (ag : Agent) (r : Nat) (cq : Nat) (bytes : List Byte) (s : State) : Outcome := s.run (·.windowWrite ag (QUE_CQIN r cq) bytes .nobody (r, true, cq))
/-- QUE_CQCFG_CLEAR (R415): Register write that zeroes a combining queue's accumulator and NGOT. -/
def execQueCqcfgClear (ag : Agent) (r : Nat) (cq : Nat) (s : State) : Outcome := s.run (·.regBits ag (QUE_CQCFG r cq) (2 ^ 30))
/-- CMN_OWN_WRITE (R422): An owner field write hands a Commons bank over. -/
def execCmnOwnWrite (ag : Agent) (r : Nat) (bk : Nat) (v : Nat) (s : State) : Outcome := s.run (·.regWrite ag (CMN_OWN r bk) v)

end Sys2Proof.Machine
end

