-- ==== Sys2Proof/Machine/Take.lean ====
section
/-! DEFINITION. The taking of Bellpull commands from a function's ring and from MCTP (R508 to R517, R547). -/

namespace Sys2Proof.Machine

/-- A command of the tables: what it is and what it does. -/
abbrev CmdRow := CmdSpec × (Dev → Hdr → List Byte → Dev × Ans)

/-- The commands of beat and time. -/
def beatCmds : List CmdRow :=
  [(cBeatConfig, Dev.beatConfig), (cBeatOffsets, Dev.beatOffsets), (cBeatStart, Dev.beatStart),
   (cBeatMuffle, Dev.beatMuffle), (cBeatResume, Dev.beatResume), (cBeatPeriod, Dev.beatPeriod),
   (cBeatStatus, Dev.beatStatus), (cTimeConfig, Dev.timeConfig), (cTimeStatus, Dev.timeStatus),
   (cTimeRelock, Dev.timeRelock)]
/-- The commands of neurons and synapse rows. -/
def neuronCmds : List CmdRow :=
  [(cProfileLoad, Dev.profileLoad), (cProfileRead, Dev.profileRead), (cNeuronLoad, Dev.neuronLoad),
   (cNeuronRead, Dev.neuronRead), (cNeuronStatus, Dev.neuronStatus), (cPagemapSet, Dev.pagemapSet),
   (cPagemapRead, Dev.pagemapRead), (cRowLoad, Dev.rowLoad), (cRowRead, Dev.rowRead),
   (cSynStatus, Dev.synStatus), (cPoisonList, Dev.poisonList)]
/-- The commands of axons and the Almanac. -/
def axonCmds : List CmdRow :=
  [(cAxonRange, Dev.axonRange), (cAxonCoreBase, Dev.axonCoreBase), (cAxonLoad, Dev.axonLoad),
   (cAxonRead, Dev.axonReadCmd), (cAlmanacConfig, Dev.almanacConfig), (cAlmanacRead, Dev.almanacRead),
   (cAlmanacLoad, Dev.almanacLoad), (cReadoutConfig, Dev.readoutConfig), (cReadoutRead, Dev.readoutRead),
   (cEventRings, Dev.eventRings), (cAxnStatus, Dev.axnStatus)]
/-- The commands of the fabric. -/
def fabricCmds : List CmdRow :=
  [(cFabStatus, Dev.fabStatus), (cPortControl, Dev.portControl), (cPortStatus, Dev.portStatus),
   (cRouteRead, Dev.routeRead), (cCollSetup, Dev.collSetup), (cCollIssue, Dev.collIssue),
   (cCollRelease, Dev.collRelease), (cCollStatus, Dev.collStatus), (cRudimentLoad, Dev.rudimentLoad),
   (cRudimentConfig, Dev.rudimentConfig), (cRudimentRead, Dev.rudimentRead)]
/-- The commands of the tunnel. -/
def tunnelCmds : List CmdRow :=
  [(cEthPortConfig, Dev.ethPortConfig), (cSiteSet, Dev.siteSet), (cSiteRead, Dev.siteRead),
   (cTunStatus, Dev.tunStatus), (cPtpConfig, Dev.ptpConfig), (cPtpStatus, Dev.ptpStatus)]
/-- The commands of harvest and checkpoints. -/
def harvestCmds : List CmdRow :=
  [(cRuleLoad, Dev.ruleLoad), (cRuleRead, Dev.ruleRead), (cSeasonConfig, Dev.seasonConfig), (cModSet, Dev.modSet),
   (cSeedSet, Dev.seedSet), (cRevLoad, Dev.revLoad), (cCkptConfig, Dev.ckptConfig), (cCkptNow, Dev.ckptNow),
   (cCkptRestore, Dev.ckptRestore), (cCkptStatus, Dev.ckptStatus), (cCkptQuota, Dev.ckptQuota),
   (cHrvStatus, Dev.hrvStatus)]
/-- The commands of T-cores. -/
def tcoreCmds : List CmdRow :=
  [(cGangForm, Dev.gangForm), (cGangRelease, Dev.gangRelease), (cGangStatus, Dev.gangStatus),
   (cTcoreSubmit, Dev.tcoreSubmit), (cTcoreStatus, Dev.tcoreStatus), (cTcoreAbort, Dev.tcoreAbort),
   (cTcoreSeed, Dev.tcoreSeed)]
/-- The commands of S-cores, queues and the Commons. -/
def queueCmds : List CmdRow :=
  [(cSeqLoad, Dev.seqLoad), (cSeqControl, Dev.seqControl), (cSeqStatus, Dev.seqStatusCmd),
   (cChanConfig, Dev.chanConfig), (cChanSend, Dev.chanSend), (cChanRecv, Dev.chanRecv),
   (cQueStatus, Dev.queStatus), (cCqConfig, Dev.cqConfig), (cCommonsOwn, Dev.commonsOwn),
   (cCmnStatus, Dev.cmnStatus)]
/-- The commands of DDR5. -/
def ddrCmds : List CmdRow :=
  [(cDdrConfig, Dev.ddrConfig), (cDdrStatus, Dev.ddrStatus), (cDdrWindow, Dev.ddrWindow),
   (cDdrRetrain, Dev.ddrRetrain), (cDdrScrub, Dev.ddrScrub), (cDdrWinread, Dev.ddrWinread)]
/-- The commands of Calends. -/
def calendsCmds : List CmdRow :=
  [(cCalStatus, Dev.calStatus), (cPartAssign, Dev.partAssign), (cPartRemove, Dev.partRemove),
   (cPartStatus, Dev.partStatus), (cPlanSet, Dev.planSet), (cPlanRead, Dev.planRead),
   (cPlanClear, Dev.planClear)]
/-- The commands of Carillon. -/
def carillonCmds : List CmdRow :=
  [(cIdRead, Dev.idRead), (cSensorRead, Dev.sensorRead), (cLogRead, Dev.logRead), (cFfRead, Dev.ffRead),
   (cFfClear, Dev.ffClear), (cLogStatus, Dev.logStatus), (cUpdateBegin, Dev.updateBegin),
   (cUpdateData, Dev.updateData), (cUpdateVerify, Dev.updateVerify), (cUpdateActivate, Dev.updateActivate),
   (cUpdateCommit, Dev.updateCommit), (cUpdateStatus, Dev.updateStatus)]
/-- The commands of power. -/
def powerCmds : List CmdRow :=
  [(cPowerState, Dev.powerState), (cPowerVote, Dev.powerVote), (cPowerStatus, Dev.powerStatus),
   (cThermalConfig, Dev.thermalConfig), (cPolicySet, Dev.policySet), (cRtcAlarm, Dev.rtcAlarmCmd),
   (cAonWrite, Dev.aonWrite), (cAonRead, Dev.aonRead)]
/-- The commands of faults. -/
def faultCmds : List CmdRow :=
  [(cFaultStatus, Dev.faultStatus), (cMuteSet, Dev.muteSet), (cMuteClear, Dev.muteClear), (cChoke, Dev.chokeCmd),
   (cPartScrub, Dev.partScrub), (cFence, Dev.fenceCmd), (cFenceList, Dev.fenceListCmd),
   (cFenceClear, Dev.fenceClear), (cFaultConfig, Dev.faultConfig), (cGpioSafe, Dev.gpioSafe),
   (cSpareReserve, Dev.spareReserve)]
/-- The commands of observation. -/
def obsCmds : List CmdRow :=
  [(cObsRead, Dev.obsRead), (cObsControl, Dev.obsControl), (cTraceConfig, Dev.traceConfig),
   (cTraceStatus, Dev.traceStatus), (cTraceMark, Dev.traceMark)]

/-- Every command but ATTEST, whose checks depend on its SCOPE. -/
def cmdTable : List CmdRow :=
  beatCmds ++ neuronCmds ++ axonCmds ++ fabricCmds ++ tunnelCmds ++ harvestCmds ++ tcoreCmds ++ queueCmds ++ ddrCmds ++
    calendsCmds ++ carillonCmds ++ powerCmds ++ faultCmds ++ obsCmds

/-- Carillon executes the command of an opcode (R513): a reserved one is BAD_OPCODE. -/
def Dev.obey (d : Dev) (op : Nat) (h : Hdr) (pl : List Byte) : Dev :=
  if op = 0x0E02 then d.serve (cAttest pl) Dev.attest h pl
  else match cmdTable.find? (fun c => c.1.opcode == op) with
    | some c => d.serve c.1 c.2 h pl
    | none => if d.flag CAR_STAT 0 then d.complete op false true h pl .badOpcode 0 [] else d

/-- The header of a message (R509) of function `f`, come on SMBus port `port`: `rsvd` collects the reserved fields and a PAYLEN
that exceeds the message. -/
def hdrOf (f port : Nat) (m : List Byte) : Hdr :=
  let u := leAt m 2 2
  let long := 64 * u < leAt m 12 4 + 32
  { func := f, units := u, part := byteAt m 6, tag := leAt m 4 2, seq := leAt m 8 4, flags := byteAt m 7,
    rsvd := leAt m 16 16 + natOf long, port := port }

/-- The payload of a message. -/
def payOf (m : List Byte) : List Byte := slice m 32 (min (leAt m 12 4) (64 * leAt m 2 2 - 32))

/-- Carillon may take a message from the command ring of function `f` (R511, R512, R514, R519, R543, R554, R581). -/
def Dev.mayTake (d : Dev) (f : Nat) : Bool :=
  d.flag CAR_STAT 0 && d.pwr.asleep == 0 && d.fld PWR_STATE 0 3 != 3 && d.fld PWR_STATE 0 3 != 4 && d.barOpen f &&
    d.flag (CAR_CRCFG f) 31 && ! d.flag (CAR_BSTAT f) 4 && d.rg (CAR_CRHEAD f) != d.rg (CAR_CRTAIL f) &&
    (d.fn f).resps.isEmpty && (d.fn f).outst.length < 64 && ! (d.flag CAR_STAT 7 && f != 0)

/-- The framing error of the message at CAR_CRHEAD, with the status of its response (R512). -/
def Dev.frameBad (d : Dev) (f u : Nat) : Option Status :=
  let n := 2 ^ d.fld (CAR_CRCFG f) 0 5 / 64
  let head := d.rg (CAR_CRHEAD f)
  if n - 1 < u then some .tooLong
  else if u = 0 || n < head % n + u || (d.rg (CAR_CRTAIL f) + 2 ^ 32 - head) % 2 ^ 32 < u then some .badLength
  else none

/-- A framing error (R512): a response with TAG and SEQ, a RINGERR record, and the ring stands still. -/
def Dev.frameError (d : Dev) (f : Nat) (h : Hdr) (op : Nat) (st : Status) : Dev :=
  let d := (d.setFlag (CAR_BSTAT f) 1 true).setFlag (CAR_BSTAT f) 4 true
  let x := d.openData
  let d := x.2.log (srcFunc f) 5 0 0xFF x.1
  if d.flag (CAR_RRCFG f) 31 then
    let r : Resp := { opcode := op, hdr := h, status := st, detail := 0, pl := [] }
    (d.setFn f { d.fn f with resps := (d.fn f).resps ++ [r] }).rrUpdate f
  else d

/-- The SEQ of a command is one more than that of the command before it (R516). -/
def Dev.seqSeen (d : Dev) (f s : Nat) : Dev :=
  let gap := match (d.fn f).lastSeq with
    | some y => (y + 1) % 2 ^ 32 != s
    | none => false
  let d := d.setFn f { d.fn f with lastSeq := some s }
  if gap then
    let x := (d.setFlag (CAR_BSTAT f) 2 true).openData
    x.2.log (srcFunc f) 9 0 0xFF x.1
  else d

/-- Carillon takes the message at CAR_CRHEAD of function `f`, which host memory holds as `m` (R511 to R516): a pad is skipped; a
command with FENCE set waits for those before it. -/
def Dev.takeCommand (d : Dev) (f : Nat) (m : List Byte) : Dev :=
  let h := hdrOf f 0 m
  let op := leAt m 0 2
  if ! d.mayTake f then d
  else match d.frameBad f h.units with
    | some st => d.frameError f h op st
    | none =>
      if op ≠ 0 && bitAt h.flags 0 && ! (d.fn f).outst.isEmpty then d
      else
        let d := d.setR (CAR_CRHEAD f) (d.rg (CAR_CRHEAD f) + h.units)
        if op = 0 then d
        else (((((d.bump (CAR_BCMDS f) 1).seqSeen f h.seq).obey op h (payOf m)).activated).sleepNow)

/-- A Bellpull message comes over MCTP on a port (R546, R547): at most 8,192 bytes. -/
def Dev.mctpMessage (d : Dev) (port : Nat) (m : List Byte) : Dev :=
  if d.pwr.asleep ≠ 0 || 8192 < m.length then d
  else d.obey (leAt m 0 2) (hdrOf 0xFE port m) (payOf m)

end Sys2Proof.Machine
end

