-- ==== Sys2Proof/Machine/CmdTake.lean ====
section
/-! DEFINITION. The taking of a Bellpull command from a ring or from MCTP. -/

namespace Sys2Proof.Machine

/-- COMMAND_TAKE (R513): Carillon takes a command message, checks framing and header, and executes it. -/
def execCommandTake (f : Nat) (bytes : List Byte) (s : State) : Outcome := s.run (·.takeCommand f bytes)
/-- MCTP_BELLPULL_MESSAGE (R547): A Bellpull message assembled over MCTP is served or denied. -/
def execMctpBellpullMessage (port : Nat) (bytes : List Byte) (s : State) : Outcome := s.run (·.mctpMessage port bytes)

end Sys2Proof.Machine
end

