-- ==== Sys2Proof/Machine/CmdTcore.lean ====
section
/-! DEFINITION. The commands and events of the T-core chapter. -/

namespace Sys2Proof.Machine

/-- GANG_FORM (R385): Bellpull command that forms a gang and casts power votes. -/
def execGangForm (h : Hdr) (pl : List Byte) (s : State) : Outcome := s.run (·.serve cGangForm Dev.gangForm h pl)
/-- GANG_RELEASE (R398): Bellpull command that releases a gang and withdraws its votes. -/
def execGangRelease (h : Hdr) (pl : List Byte) (s : State) : Outcome := s.run (·.serve cGangRelease Dev.gangRelease h pl)
/-- GANG_STATUS (R397): Bellpull command that returns a gang's state. -/
def execGangStatus (h : Hdr) (pl : List Byte) (s : State) : Outcome := s.run (·.serve cGangStatus Dev.gangStatus h pl)
/-- TCORE_SUBMIT (R398): Bellpull command that queues an op descriptor on a T-core. -/
def execTcoreSubmit (h : Hdr) (pl : List Byte) (s : State) : Outcome := s.run (·.serve cTcoreSubmit Dev.tcoreSubmit h pl)
/-- TCORE_STATUS (R397): Bellpull command that returns TCR registers. -/
def execTcoreStatus (h : Hdr) (pl : List Byte) (s : State) : Outcome := s.run (·.serve cTcoreStatus Dev.tcoreStatus h pl)
/-- TCORE_ABORT (R393): Bellpull command that aborts a T-core's ops. -/
def execTcoreAbort (h : Hdr) (pl : List Byte) (s : State) : Outcome := s.run (·.serve cTcoreAbort Dev.tcoreAbort h pl)
/-- TCORE_SEED (R397): Bellpull command that seeds T-core generators. -/
def execTcoreSeed (h : Hdr) (pl : List Byte) (s : State) : Outcome := s.run (·.serve cTcoreSeed Dev.tcoreSeed h pl)
/-- TCR_DQPUSH_WRITE (R396): The write of the last descriptor word enqueues the op or drops it on a full queue. -/
def execTcrDqpushWrite (f : Nat) (r : Nat) (v : Nat) (s : State) : Outcome := s.run (·.regWrite (.func f) (TCR_DQPUSH r 15) v)
/-- TCR_CTL_ABORT (R393): Write of ABORT that ends the running op at a tile boundary and flushes the queue. -/
def execTcrCtlAbort (f : Nat) (r : Nat) (s : State) : Outcome := s.run (·.regBits (.func f) (TCR_CTL r) 2)
/-- DESCRIPTOR_CHECK (R375): A descriptor reaching the queue head is checked and started or refused. -/
def execDescriptorCheck (r : Nat) (s : State) : Outcome := s.run (·.descCheck r)
/-- MATMUL (R371): The T-core completes a matrix multiplication and writes its completion record. -/
def execMatmul (r : Nat) (k : Nat) (s : State) : Outcome := s.run (·.opComplete r 1 k)
/-- CONV (R372): The T-core completes a convolution. -/
def execConv (r : Nat) (k : Nat) (s : State) : Outcome := s.run (·.opComplete r 2 k)
/-- BACKWARD (R379): The T-core completes a DGRAD or WGRAD op. -/
def execBackward (r : Nat) (k : Nat) (s : State) : Outcome := s.run (·.opComplete r 3 k)
/-- OPTIM (R380): The T-core completes a momentum optimiser step. -/
def execOptim (r : Nat) (k : Nat) (s : State) : Outcome := s.run (·.opComplete r 4 k)
/-- QUANT (R383): The T-core completes a quantisation op. -/
def execQuant (r : Nat) (k : Nat) (s : State) : Outcome := s.run (·.opComplete r 5 k)
/-- ENCODE_OP (R382): The T-core completes an ENCODE op writing event records. -/
def execEncodeOp (r : Nat) (k : Nat) (s : State) : Outcome := s.run (·.opComplete r 6 k)
/-- DECODE_OP (R383): The T-core completes a DECODE op. -/
def execDecodeOp (r : Nat) (k : Nat) (s : State) : Outcome := s.run (·.opComplete r 7 k)
/-- GANG_GO (R387): 64 cycles after every member is ready, GO starts the gang's op and Rudiment program. -/
def execGangGo (p : Nat) (gid : Nat) (s : State) : Outcome := s.run (·.gangGo p gid)
/-- GANG_READY_TIMEOUT (R388): Not all members ready within 1 ms; ready members complete with TIMEOUT. -/
def execGangReadyTimeout (p : Nat) (gid : Nat) (s : State) : Outcome := s.run (·.gangTimeout p gid)

end Sys2Proof.Machine
end

