-- ==== Sys2Proof/Machine/CmdTimers.lean ====
section
/-! DEFINITION. The register writes and events of the timer and Tocsin chapter. -/

namespace Sys2Proof.Machine

/-- TIMER_START (R482): Write of TAB_TnCMD.START that resets and runs a timer. -/
def execTimerStart (f : Nat) (tm : Nat) (s : State) : Outcome := s.run (·.timerStart f tm)
/-- TIMER_STOP (R482): Write of TAB_TnCMD.STOP that freezes a timer. -/
def execTimerStop (f : Nat) (tm : Nat) (s : State) : Outcome := s.run (·.timerStop f tm)
/-- TIMER_PERIOD_WRITE (R483): Write of TAB_TnPERIOD, possibly ending the lap at once. -/
def execTimerPeriodWrite (f : Nat) (tm : Nat) (v : Nat) (s : State) : Outcome := s.run (·.timerPeriod f tm v)
/-- TIMER_COMPARE_WRITE (R484): Write of a compare value taking effect at the next tick. -/
def execTimerCompareWrite (f : Nat) (tm : Nat) (k : Nat) (v : Nat) (s : State) : Outcome := s.run (·.timerCompare f tm k v)
/-- TIMER_PERIOD_EVENT (R481): A timer steps from PERIOD − 1 to 0 and its period event fires. -/
def execTimerPeriodEvent (tm : Nat) (s : State) : Outcome := s.run (·.timerPeriodEvent tm)
/-- COMPARE_MATCH (R484): A timer count steps into its compare value. -/
def execCompareMatch (tm : Nat) (k : Nat) (s : State) : Outcome := s.run (·.compareMatch tm k)
/-- CAPTURE_EDGE (R487): A selected input edge is stamped into the capture queue or dropped. -/
def execCaptureEdge (tm : Nat) (rising : Bool) (s : State) : Outcome := s.run (·.capture tm rising)
/-- TAB_TNCAP_LO_READ (R488): Read of the capture low half latching the high half. -/
def execTabTncapLoRead (f : Nat) (tm : Nat) (s : State) : Outcome := s.run (·.capLoRead f tm)
/-- TAB_TNCAP_HI_READ (R488): Read of the capture high half, removing a valid head. -/
def execTabTncapHiRead (f : Nat) (tm : Nat) (s : State) : Outcome := s.run (·.capHiRead f tm)
/-- TOC_CLAIM_READ (R495): Read of TOC_CLAIM that claims the top source and pushes its priority. -/
def execTocClaimRead (f : Nat) (k : Nat) (s : State) : Outcome := s.run (·.registerRead f (TOC_CLAIM k))
/-- TOC_EOI_WRITE (R496): Write of TOC_EOI that pops the priority stack. -/
def execTocEoiWrite (f : Nat) (k : Nat) (s : State) : Outcome := s.run (·.regWrite (.func f) (TOC_EOI k) 1)
/-- TOC_PEND_WRITE (R492): Write to TOC_PEND that clears PEND and COUNT. -/
def execTocPendWrite (f : Nat) (k : Nat) (v : Nat) (s : State) : Outcome := s.run (·.regWrite (.func f) (TOC_PEND k) v)
/-- TOC_RQ_READ (R501): Read of the last word of TOC_RQ or TOC_PRQ that removes the head record. -/
def execTocRqRead (f : Nat) (k : Nat) (s : State) : Outcome := s.run (·.registerRead f (if k < 289 then tocBase k + 0x81C else tocBase 288 + 0x1020 + 0x40 * (k - 289) + 0x1C))
/-- TRIGGER_OUTPUT_PULSE_END (R485): With OUTMODE 1 a timer's GPIO trigger output goes low 8 ticks after a CMP0
match. -/
def execTriggerOutputPulseEnd (tm : Nat) (s : State) : Outcome := s.run (·.pulseEnd tm)
/-- PPS_OUT_PULSE_END (R644): PPS_OUT returns low 100 ms after each edge of R87. -/
def execPpsOutPulseEnd (s : State) : Outcome := s.run (·.ppsPulseEnd)

end Sys2Proof.Machine
end

