-- ==== Sys2Proof/Machine/CmdTunnel.lean ====
section
/-! DEFINITION. The commands and events of the tunnel chapter. -/

namespace Sys2Proof.Machine

/-- ETH_PORT_CONFIG (R285): Bellpull command that moves a W port between fabric and Ethernet mode. -/
def execEthPortConfig (h : Hdr) (pl : List Byte) (s : State) : Outcome := s.run (·.serve cEthPortConfig Dev.ethPortConfig h pl)
/-- SITE_SET (R292): Bellpull command that writes a tunnel site entry. -/
def execSiteSet (h : Hdr) (pl : List Byte) (s : State) : Outcome := s.run (·.serve cSiteSet Dev.siteSet h pl)
/-- SITE_READ (R305): Bellpull command that returns a site entry. -/
def execSiteRead (h : Hdr) (pl : List Byte) (s : State) : Outcome := s.run (·.serve cSiteRead Dev.siteRead h pl)
/-- TUN_STATUS (R305): Bellpull command that returns TUN registers. -/
def execTunStatus (h : Hdr) (pl : List Byte) (s : State) : Outcome := s.run (·.serve cTunStatus Dev.tunStatus h pl)
/-- PTP_CONFIG (R305): Bellpull command that sets PTP domain, priority, address and asymmetry. -/
def execPtpConfig (h : Hdr) (pl : List Byte) (s : State) : Outcome := s.run (·.serve cPtpConfig Dev.ptpConfig h pl)
/-- PTP_STATUS (R305): Bellpull command that returns PTP registers. -/
def execPtpStatus (h : Hdr) (pl : List Byte) (s : State) : Outcome := s.run (·.serve cPtpStatus Dev.ptpStatus h pl)
/-- ETHERNET_FRAME (R286): An Ethernet frame arrives and is kept or discarded by address and format. -/
def execEthernetFrame (w : Nat) (frame : List Byte) (fcs : Bool) (s : State) : Outcome := s.run (·.ethernetFrame w frame fcs)
/-- TUNNEL_DATAGRAM (R295): A tunnel datagram is checked, sequenced and presented, held early or discarded. -/
def execTunnelDatagram (w : Nat) (bytes : List Byte) (s : State) : Outcome := s.run (·.tunnelDatagram w bytes)
/-- EARLY_PRESENT (R297): Held early records are presented at the start of local beat E. -/
def execEarlyPresent (p : Nat) (s : State) : Outcome := s.run (·.earlyPresent p)
/-- TUNNEL_EGRESS_SEND (R293): Egress sends a datagram of TUNNEL copies for one site and beat. -/
def execTunnelEgressSend (k : Nat) (s : State) : Outcome := s.run (·.egressSend k)
/-- TUNNEL_COALESCE_EXPIRY (R293): COALESCE cycles pass since a datagram's first record and it is sent. -/
def execTunnelCoalesceExpiry (k : Nat) (s : State) : Outcome := s.run (·.tunCoalesce k)
/-- PTP_MESSAGE (R302): A PTP event message is timestamped and drives the slave clock. -/
def execPtpMessage (w : Nat) (bytes : List Byte) (x : PtpStamp) (s : State) : Outcome := s.run (·.ptpMessage x.dt w bytes x.ts)
/-- PTP_TIMEOUT (R302): Announce times out or no Sync arrives for 1 s and the clock enters HOLDOVER. -/
def execPtpTimeout (s : State) : Outcome := s.run (·.ptpTimeout)
/-- PTP_DELAY_REQ_SEND (R300): The slave clock sends Delay_Req at 16 per second. -/
def execPtpDelayReqSend (ts : Nat) (s : State) : Outcome := s.run (·.ptpDelayReq ts)
/-- ETH_LINK_UP (R284): A W port in Ethernet mode finishes auto-negotiation and training and TUN_PSTAT becomes UP.
-/
def execEthLinkUp (x : EthLink) (s : State) : Outcome := s.run (·.ethLinkUp x.w x.up)
/-- ETH_LINK_DOWN (R294): A W port in Ethernet mode loses its link and TUN_PSTAT leaves UP, so egress drops or uses
the ALT port. -/
def execEthLinkDown (w : Nat) (s : State) : Outcome := s.run (·.ethLinkDown w)

end Sys2Proof.Machine
end

