-- ==== Sys2Proof/Machine/Dispatch.lean ====
section
/-! DEFINITION. One arm per command of the opcode table: a direct call of its meaning, or the command rejected by
name. -/

namespace Sys2Proof.Machine

open Sys2Proof

def exec (i : Instr) (s : State) : Host.Outcome State Fault Refusal :=
  match i with
  | .beatConfig h pl => Sys2Proof.Machine.execBeatConfig h pl s
  | .beatOffsets h pl => Sys2Proof.Machine.execBeatOffsets h pl s
  | .beatStart h pl => Sys2Proof.Machine.execBeatStart h pl s
  | .beatMuffle h pl => Sys2Proof.Machine.execBeatMuffle h pl s
  | .beatResume h pl => Sys2Proof.Machine.execBeatResume h pl s
  | .beatPeriod h pl => Sys2Proof.Machine.execBeatPeriod h pl s
  | .beatStatus h pl => Sys2Proof.Machine.execBeatStatus h pl s
  | .timeConfig h pl => Sys2Proof.Machine.execTimeConfig h pl s
  | .timeStatus h pl => Sys2Proof.Machine.execTimeStatus h pl s
  | .timeRelock h pl => Sys2Proof.Machine.execTimeRelock h pl s
  | .tabBcmdStart f p => Sys2Proof.Machine.execTabBcmdStart f p s
  | .tabBcmdMuffle f p => Sys2Proof.Machine.execTabBcmdMuffle f p s
  | .tabBcmdResume f p => Sys2Proof.Machine.execTabBcmdResume f p s
  | .tabBperiodWrite f p v => Sys2Proof.Machine.execTabBperiodWrite f p v s
  | .tabTlctlRelock f => Sys2Proof.Machine.execTabTlctlRelock f s
  | .tabTsetWrite f hi => Sys2Proof.Machine.execTabTsetWrite f hi s
  | .periodEvent p => Sys2Proof.Machine.execPeriodEvent p s
  | .leapLimit p => Sys2Proof.Machine.execLeapLimit p s
  | .regionBeatStart r => Sys2Proof.Machine.execRegionBeatStart r s
  | .readoutClearEnd r => Sys2Proof.Machine.execReadoutClearEnd r s
  | .beatCountsClose p => Sys2Proof.Machine.execBeatCountsClose p s
  | .muffleTakesEffect p => Sys2Proof.Machine.execMuffleTakesEffect p s
  | .muffleTimeout p => Sys2Proof.Machine.execMuffleTimeout p s
  | .extlockFirstBeat p => Sys2Proof.Machine.execExtlockFirstBeat p s
  | .gatherReceived m => Sys2Proof.Machine.execGatherReceived m s
  | .reportReceived p beat m => Sys2Proof.Machine.execReportReceived p beat m s
  | .releaseReceived t => Sys2Proof.Machine.execReleaseReceived t s
  | .roundAbandon p => Sys2Proof.Machine.execRoundAbandon p s
  | .ppsEdge sec dt ref => Sys2Proof.Machine.execPpsEdge sec dt ref s
  | .ppsLoss => Sys2Proof.Machine.execPpsLoss s
  | .ppsOutputEdge => Sys2Proof.Machine.execPpsOutputEdge s
  | .profileLoad h pl => Sys2Proof.Machine.execProfileLoad h pl s
  | .profileRead h pl => Sys2Proof.Machine.execProfileRead h pl s
  | .neuronLoad h pl => Sys2Proof.Machine.execNeuronLoad h pl s
  | .neuronRead h pl => Sys2Proof.Machine.execNeuronRead h pl s
  | .neuronStatus h pl => Sys2Proof.Machine.execNeuronStatus h pl s
  | .ncountWrite f q v => Sys2Proof.Machine.execNcountWrite f q v s
  | .integrate q => Sys2Proof.Machine.execIntegrate q s
  | .fireLogStallEnd q cycles => Sys2Proof.Machine.execFireLogStallEnd q cycles s
  | .finalReport q => Sys2Proof.Machine.execFinalReport q s
  | .pagemapSet h pl => Sys2Proof.Machine.execPagemapSet h pl s
  | .pagemapRead h pl => Sys2Proof.Machine.execPagemapRead h pl s
  | .rowLoad h pl => Sys2Proof.Machine.execRowLoad h pl s
  | .rowRead h pl => Sys2Proof.Machine.execRowRead h pl s
  | .synStatus h pl => Sys2Proof.Machine.execSynStatus h pl s
  | .poisonList h pl => Sys2Proof.Machine.execPoisonList h pl s
  | .deliver q => Sys2Proof.Machine.execDeliver q s
  | .farDataArrival q k fw => Sys2Proof.Machine.execFarDataArrival q k fw s
  | .farRowTimeout q k fw => Sys2Proof.Machine.execFarRowTimeout q k fw s
  | .coreStoreScrub q => Sys2Proof.Machine.execCoreStoreScrub q s
  | .coreStoreWrite ag n off bytes => Sys2Proof.Machine.execCoreStoreWrite ag n off bytes s
  | .aliasWrite ag a bytes => Sys2Proof.Machine.execAliasWrite ag a bytes s
  | .counterLowRead f a => Sys2Proof.Machine.execCounterLowRead f a s
  | .registerWrite ag a v => Sys2Proof.Machine.execRegisterWrite ag a v s
  | .axonRange h pl => Sys2Proof.Machine.execAxonRange h pl s
  | .axonCoreBase h pl => Sys2Proof.Machine.execAxonCoreBase h pl s
  | .axonLoad h pl => Sys2Proof.Machine.execAxonLoad h pl s
  | .axonRead h pl => Sys2Proof.Machine.execAxonRead h pl s
  | .almanacConfig h pl => Sys2Proof.Machine.execAlmanacConfig h pl s
  | .almanacRead h pl => Sys2Proof.Machine.execAlmanacRead h pl s
  | .almanacLoad h pl => Sys2Proof.Machine.execAlmanacLoad h pl s
  | .readoutConfig h pl => Sys2Proof.Machine.execReadoutConfig h pl s
  | .readoutRead h pl => Sys2Proof.Machine.execReadoutRead h pl s
  | .eventRings h pl => Sys2Proof.Machine.execEventRings h pl s
  | .axnStatus h pl => Sys2Proof.Machine.execAxnStatus h pl s
  | .axonLookup q => Sys2Proof.Machine.execAxonLookup q s
  | .pealCopyDrop die c => Sys2Proof.Machine.execPealCopyDrop die c s
  | .packetCoalesceExpiry k => Sys2Proof.Machine.execPacketCoalesceExpiry k s
  | .eventRecordArrival ev => Sys2Proof.Machine.execEventRecordArrival ev s
  | .eventDisposalTimeout ev => Sys2Proof.Machine.execEventDisposalTimeout ev s
  | .migration r => Sys2Proof.Machine.execMigration r s
  | .refill q stall => Sys2Proof.Machine.execRefill q stall s
  | .inputRecord p rec => Sys2Proof.Machine.execInputRecord p rec s
  | .outputRecordWrite p => Sys2Proof.Machine.execOutputRecordWrite p s
  | .axnIrtailWrite f p v => Sys2Proof.Machine.execAxnIrtailWrite f p v s
  | .axnOrtailWrite f p v => Sys2Proof.Machine.execAxnOrtailWrite f p v s
  | .eventRingCfgWrite f p k v => Sys2Proof.Machine.execEventRingCfgWrite f p k v s
  | .fabStatus h pl => Sys2Proof.Machine.execFabStatus h pl s
  | .portControl h pl => Sys2Proof.Machine.execPortControl h pl s
  | .portStatus h pl => Sys2Proof.Machine.execPortStatus h pl s
  | .routeRead h pl => Sys2Proof.Machine.execRouteRead h pl s
  | .collSetup h pl => Sys2Proof.Machine.execCollSetup h pl s
  | .collIssue h pl => Sys2Proof.Machine.execCollIssue h pl s
  | .collRelease h pl => Sys2Proof.Machine.execCollRelease h pl s
  | .collStatus h pl => Sys2Proof.Machine.execCollStatus h pl s
  | .rudimentLoad h pl => Sys2Proof.Machine.execRudimentLoad h pl s
  | .rudimentConfig h pl => Sys2Proof.Machine.execRudimentConfig h pl s
  | .rudimentRead h pl => Sys2Proof.Machine.execRudimentRead h pl s
  | .packetForward port bytes x => Sys2Proof.Machine.execPacketForward port bytes x s
  | .class0FlitForward port bytes x => Sys2Proof.Machine.execClass0FlitForward port bytes x s
  | .alarmFlit a => Sys2Proof.Machine.execAlarmFlit a s
  | .readRequest port bytes => Sys2Proof.Machine.execReadRequest port bytes s
  | .writeRequest port bytes => Sys2Proof.Machine.execWriteRequest port bytes s
  | .readData port bytes => Sys2Proof.Machine.execReadData port bytes s
  | .writeAck port bytes => Sys2Proof.Machine.execWriteAck port bytes s
  | .errorReply port bytes => Sys2Proof.Machine.execErrorReply port bytes s
  | .requestTimeout tag => Sys2Proof.Machine.execRequestTimeout tag s
  | .bulkWrite port bytes => Sys2Proof.Machine.execBulkWrite port bytes s
  | .bulkAckTimer k => Sys2Proof.Machine.execBulkAckTimer k s
  | .bulkAck port bytes => Sys2Proof.Machine.execBulkAck port bytes s
  | .collUp port bytes => Sys2Proof.Machine.execCollUp port bytes s
  | .collDown port bytes => Sys2Proof.Machine.execCollDown port bytes s
  | .collTimeout g => Sys2Proof.Machine.execCollTimeout g s
  | .earlyEpochDrop g k => Sys2Proof.Machine.execEarlyEpochDrop g k s
  | .portTrainingEnd port ok => Sys2Proof.Machine.execPortTrainingEnd port ok s
  | .portRetrainTimer port => Sys2Proof.Machine.execPortRetrainTimer port s
  | .portFailure port cause flits => Sys2Proof.Machine.execPortFailure port cause flits s
  | .fecUncorrectable c => Sys2Proof.Machine.execFecUncorrectable c s
  | .linkFailureSpread dev x => Sys2Proof.Machine.execLinkFailureSpread dev x s
  | .routeInstall => Sys2Proof.Machine.execRouteInstall s
  | .treeRebuildEnd g epoch => Sys2Proof.Machine.execTreeRebuildEnd g epoch s
  | .planeSlot p => Sys2Proof.Machine.execPlaneSlot p s
  | .fabPctlEnable f port b => Sys2Proof.Machine.execFabPctlEnable f port b s
  | .fabPctlTrain f port t => Sys2Proof.Machine.execFabPctlTrain f port t s
  | .ethPortConfig h pl => Sys2Proof.Machine.execEthPortConfig h pl s
  | .siteSet h pl => Sys2Proof.Machine.execSiteSet h pl s
  | .siteRead h pl => Sys2Proof.Machine.execSiteRead h pl s
  | .tunStatus h pl => Sys2Proof.Machine.execTunStatus h pl s
  | .ptpConfig h pl => Sys2Proof.Machine.execPtpConfig h pl s
  | .ptpStatus h pl => Sys2Proof.Machine.execPtpStatus h pl s
  | .ethernetFrame w frame fcs => Sys2Proof.Machine.execEthernetFrame w frame fcs s
  | .tunnelDatagram w bytes => Sys2Proof.Machine.execTunnelDatagram w bytes s
  | .earlyPresent p => Sys2Proof.Machine.execEarlyPresent p s
  | .tunnelEgressSend k => Sys2Proof.Machine.execTunnelEgressSend k s
  | .tunnelCoalesceExpiry k => Sys2Proof.Machine.execTunnelCoalesceExpiry k s
  | .ptpMessage w bytes x => Sys2Proof.Machine.execPtpMessage w bytes x s
  | .ptpTimeout => Sys2Proof.Machine.execPtpTimeout s
  | .ptpDelayReqSend ts => Sys2Proof.Machine.execPtpDelayReqSend ts s
  | .ruleLoad h pl => Sys2Proof.Machine.execRuleLoad h pl s
  | .ruleRead h pl => Sys2Proof.Machine.execRuleRead h pl s
  | .seasonConfig h pl => Sys2Proof.Machine.execSeasonConfig h pl s
  | .modSet h pl => Sys2Proof.Machine.execModSet h pl s
  | .seedSet h pl => Sys2Proof.Machine.execSeedSet h pl s
  | .revLoad h pl => Sys2Proof.Machine.execRevLoad h pl s
  | .ckptConfig h pl => Sys2Proof.Machine.execCkptConfig h pl s
  | .ckptNow h pl => Sys2Proof.Machine.execCkptNow h pl s
  | .ckptRestore h pl => Sys2Proof.Machine.execCkptRestore h pl s
  | .ckptStatus h pl => Sys2Proof.Machine.execCkptStatus h pl s
  | .ckptQuota h pl => Sys2Proof.Machine.execCkptQuota h pl s
  | .hrvStatus h pl => Sys2Proof.Machine.execHrvStatus h pl s
  | .postPassEntry q => Sys2Proof.Machine.execPostPassEntry q s
  | .harvestRow q => Sys2Proof.Machine.execHarvestRow q s
  | .harvestOverrun q => Sys2Proof.Machine.execHarvestOverrun q s
  | .rowSweepVisit q => Sys2Proof.Machine.execRowSweepVisit q s
  | .checkpointCopyStart p => Sys2Proof.Machine.execCheckpointCopyStart p s
  | .checkpointCommit p => Sys2Proof.Machine.execCheckpointCommit p s
  | .hostExport p => Sys2Proof.Machine.execHostExport p s
  | .gangForm h pl => Sys2Proof.Machine.execGangForm h pl s
  | .gangRelease h pl => Sys2Proof.Machine.execGangRelease h pl s
  | .gangStatus h pl => Sys2Proof.Machine.execGangStatus h pl s
  | .tcoreSubmit h pl => Sys2Proof.Machine.execTcoreSubmit h pl s
  | .tcoreStatus h pl => Sys2Proof.Machine.execTcoreStatus h pl s
  | .tcoreAbort h pl => Sys2Proof.Machine.execTcoreAbort h pl s
  | .tcoreSeed h pl => Sys2Proof.Machine.execTcoreSeed h pl s
  | .tcrDqpushWrite f r v => Sys2Proof.Machine.execTcrDqpushWrite f r v s
  | .tcrCtlAbort f r => Sys2Proof.Machine.execTcrCtlAbort f r s
  | .descriptorCheck r => Sys2Proof.Machine.execDescriptorCheck r s
  | .matmul r k => Sys2Proof.Machine.execMatmul r k s
  | .conv r k => Sys2Proof.Machine.execConv r k s
  | .backward r k => Sys2Proof.Machine.execBackward r k s
  | .optim r k => Sys2Proof.Machine.execOptim r k s
  | .quant r k => Sys2Proof.Machine.execQuant r k s
  | .encodeOp r k => Sys2Proof.Machine.execEncodeOp r k s
  | .decodeOp r k => Sys2Proof.Machine.execDecodeOp r k s
  | .gangGo p gid => Sys2Proof.Machine.execGangGo p gid s
  | .gangReadyTimeout p gid => Sys2Proof.Machine.execGangReadyTimeout p gid s
  | .seqLoad h pl => Sys2Proof.Machine.execSeqLoad h pl s
  | .seqControl h pl => Sys2Proof.Machine.execSeqControl h pl s
  | .seqStatus h pl => Sys2Proof.Machine.execSeqStatus h pl s
  | .chanConfig h pl => Sys2Proof.Machine.execChanConfig h pl s
  | .chanSend h pl => Sys2Proof.Machine.execChanSend h pl s
  | .chanRecv h pl => Sys2Proof.Machine.execChanRecv h pl s
  | .chanRecvTimeout f tag => Sys2Proof.Machine.execChanRecvTimeout f tag s
  | .queStatus h pl => Sys2Proof.Machine.execQueStatus h pl s
  | .cqConfig h pl => Sys2Proof.Machine.execCqConfig h pl s
  | .commonsOwn h pl => Sys2Proof.Machine.execCommonsOwn h pl s
  | .cmnStatus h pl => Sys2Proof.Machine.execCmnStatus h pl s
  | .seqCtlRun ag r => Sys2Proof.Machine.execSeqCtlRun ag r s
  | .seqCtlHalt ag r => Sys2Proof.Machine.execSeqCtlHalt ag r s
  | .seqCtlReset ag r => Sys2Proof.Machine.execSeqCtlReset ag r s
  | .nop r => Sys2Proof.Machine.execNop r s
  | .halt r => Sys2Proof.Machine.execHalt r s
  | .set r => Sys2Proof.Machine.execSet r s
  | .add r => Sys2Proof.Machine.execAdd r s
  | .load r => Sys2Proof.Machine.execLoad r s
  | .store r => Sys2Proof.Machine.execStore r s
  | .branch r => Sys2Proof.Machine.execBranch r s
  | .loop r => Sys2Proof.Machine.execLoop r s
  | .move r => Sys2Proof.Machine.execMove r s
  | .send r => Sys2Proof.Machine.execSend r s
  | .recv r => Sys2Proof.Machine.execRecv r s
  | .peek r => Sys2Proof.Machine.execPeek r s
  | .chctl r => Sys2Proof.Machine.execChctl r s
  | .waitc r => Sys2Proof.Machine.execWaitc r s
  | .waitb r => Sys2Proof.Machine.execWaitb r s
  | .evsend r => Sys2Proof.Machine.execEvsend r s
  | .tpush r => Sys2Proof.Machine.execTpush r s
  | .encode r => Sys2Proof.Machine.execEncode r s
  | .decode r => Sys2Proof.Machine.execDecode r s
  | .tend r => Sys2Proof.Machine.execTend r s
  | .hstep r => Sys2Proof.Machine.execHstep r s
  | .ckpt r => Sys2Proof.Machine.execCkpt r s
  | .modset r => Sys2Proof.Machine.execModset r s
  | .own r => Sys2Proof.Machine.execOwn r s
  | .rput r => Sys2Proof.Machine.execRput r s
  | .rget r => Sys2Proof.Machine.execRget r s
  | .signal r => Sys2Proof.Machine.execSignal r s
  | .acknowledgement r => Sys2Proof.Machine.execAcknowledgement r s
  | .recvResume r => Sys2Proof.Machine.execRecvResume r s
  | .waitcResume r => Sys2Proof.Machine.execWaitcResume r s
  | .waitbResume r => Sys2Proof.Machine.execWaitbResume r s
  | .hstepResume r => Sys2Proof.Machine.execHstepResume r s
  | .channelMessage ag r ch bytes => Sys2Proof.Machine.execChannelMessage ag r ch bytes s
  | .channelHoldExpiry r c k => Sys2Proof.Machine.execChannelHoldExpiry r c k s
  | .queChctlOpen ag r ch => Sys2Proof.Machine.execQueChctlOpen ag r ch s
  | .queChctlClose ag r ch => Sys2Proof.Machine.execQueChctlClose ag r ch s
  | .queChctlReset ag r ch => Sys2Proof.Machine.execQueChctlReset ag r ch s
  | .combiningContribution ag r cq bytes => Sys2Proof.Machine.execCombiningContribution ag r cq bytes s
  | .queCqcfgClear ag r cq => Sys2Proof.Machine.execQueCqcfgClear ag r cq s
  | .cmnOwnWrite ag r bk v => Sys2Proof.Machine.execCmnOwnWrite ag r bk v s
  | .handoverEnd r b => Sys2Proof.Machine.execHandoverEnd r b s
  | .ddrConfig h pl => Sys2Proof.Machine.execDdrConfig h pl s
  | .ddrStatus h pl => Sys2Proof.Machine.execDdrStatus h pl s
  | .ddrWindow h pl => Sys2Proof.Machine.execDdrWindow h pl s
  | .ddrRetrain h pl => Sys2Proof.Machine.execDdrRetrain h pl s
  | .ddrScrub h pl => Sys2Proof.Machine.execDdrScrub h pl s
  | .ddrWinread h pl => Sys2Proof.Machine.execDdrWinread h pl s
  | .ddrAccess die p a n data => Sys2Proof.Machine.execDdrAccess die p a n data s
  | .ddrScrubStep a => Sys2Proof.Machine.execDdrScrubStep a s
  | .mr4Poll ch rate hot => Sys2Proof.Machine.execMr4Poll ch rate hot s
  | .zqCalibration ch => Sys2Proof.Machine.execZqCalibration ch s
  | .ddrTraining pass bad ms => Sys2Proof.Machine.execDdrTraining pass bad ms s
  | .perstNAssert => Sys2Proof.Machine.execPerstNAssert s
  | .perstNRelease width rate => Sys2Proof.Machine.execPerstNRelease width rate s
  | .hotReset => Sys2Proof.Machine.execHotReset s
  | .flr f => Sys2Proof.Machine.execFlr f s
  | .flrComplete f => Sys2Proof.Machine.execFlrComplete f s
  | .vfEnableClear => Sys2Proof.Machine.execVfEnableClear s
  | .d3hot => Sys2Proof.Machine.execD3hot s
  | .bar0Access f off len data => Sys2Proof.Machine.execBar0Access f off len data s
  | .bar2Access f off len data => Sys2Proof.Machine.execBar2Access f off len data s
  | .barReadTimeout f len => Sys2Proof.Machine.execBarReadTimeout f len s
  | .pciDmatailWrite f dc v => Sys2Proof.Machine.execPciDmatailWrite f dc v s
  | .pciDmacfgWrite f dc v => Sys2Proof.Machine.execPciDmacfgWrite f dc v s
  | .pciApWrite f g k v => Sys2Proof.Machine.execPciApWrite f g k v s
  | .dmaDescriptorStart dc desc => Sys2Proof.Machine.execDmaDescriptorStart dc desc s
  | .dmaDescriptorComplete dc pieces err => Sys2Proof.Machine.execDmaDescriptorComplete dc pieces err s
  | .imodIntervalEnd f vec => Sys2Proof.Machine.execImodIntervalEnd f vec s
  | .timerStart f tm => Sys2Proof.Machine.execTimerStart f tm s
  | .timerStop f tm => Sys2Proof.Machine.execTimerStop f tm s
  | .timerPeriodWrite f tm v => Sys2Proof.Machine.execTimerPeriodWrite f tm v s
  | .timerCompareWrite f tm k v => Sys2Proof.Machine.execTimerCompareWrite f tm k v s
  | .timerPeriodEvent tm => Sys2Proof.Machine.execTimerPeriodEvent tm s
  | .compareMatch tm k => Sys2Proof.Machine.execCompareMatch tm k s
  | .captureEdge tm rising => Sys2Proof.Machine.execCaptureEdge tm rising s
  | .tabTncapLoRead f tm => Sys2Proof.Machine.execTabTncapLoRead f tm s
  | .tabTncapHiRead f tm => Sys2Proof.Machine.execTabTncapHiRead f tm s
  | .tocClaimRead f k => Sys2Proof.Machine.execTocClaimRead f k s
  | .tocEoiWrite f k => Sys2Proof.Machine.execTocEoiWrite f k s
  | .tocPendWrite f k v => Sys2Proof.Machine.execTocPendWrite f k v s
  | .tocRqRead f k => Sys2Proof.Machine.execTocRqRead f k s
  | .carCrtailWrite f v => Sys2Proof.Machine.execCarCrtailWrite f v s
  | .commandTake f bytes => Sys2Proof.Machine.execCommandTake f bytes s
  | .responseWrite f => Sys2Proof.Machine.execResponseWrite f s
  | .carRingCfgWrite f k v => Sys2Proof.Machine.execCarRingCfgWrite f k v s
  | .carRrtailWrite f v => Sys2Proof.Machine.execCarRrtailWrite f v s
  | .summary => Sys2Proof.Machine.execSummary s
  | .journalPageProgram => Sys2Proof.Machine.execJournalPageProgram s
  | .sensorSample vals out => Sys2Proof.Machine.execSensorSample vals out s
  | .watchdogExpiry => Sys2Proof.Machine.execWatchdogExpiry s
  | .imageDigestCheck same => Sys2Proof.Machine.execImageDigestCheck same s
  | .carillonRestart => Sys2Proof.Machine.execCarillonRestart s
  | .trialTimeout => Sys2Proof.Machine.execTrialTimeout s
  | .idRead h pl => Sys2Proof.Machine.execIdRead h pl s
  | .attest h pl => Sys2Proof.Machine.execAttest h pl s
  | .sensorRead h pl => Sys2Proof.Machine.execSensorRead h pl s
  | .logRead h pl => Sys2Proof.Machine.execLogRead h pl s
  | .ffRead h pl => Sys2Proof.Machine.execFfRead h pl s
  | .ffClear h pl => Sys2Proof.Machine.execFfClear h pl s
  | .logStatus h pl => Sys2Proof.Machine.execLogStatus h pl s
  | .updateBegin h pl => Sys2Proof.Machine.execUpdateBegin h pl s
  | .updateData h pl => Sys2Proof.Machine.execUpdateData h pl s
  | .updateVerify h pl => Sys2Proof.Machine.execUpdateVerify h pl s
  | .updateActivate h pl => Sys2Proof.Machine.execUpdateActivate h pl s
  | .updateCommit h pl => Sys2Proof.Machine.execUpdateCommit h pl s
  | .updateStatus h pl => Sys2Proof.Machine.execUpdateStatus h pl s
  | .smbusReadTmax port pec => Sys2Proof.Machine.execSmbusReadTmax port pec s
  | .smbusReadSensor port idx pec => Sys2Proof.Machine.execSmbusReadSensor port idx pec s
  | .smbusReadPower port pec => Sys2Proof.Machine.execSmbusReadPower port pec s
  | .smbusReadStatus port pec => Sys2Proof.Machine.execSmbusReadStatus port pec s
  | .setEndpointId port eid => Sys2Proof.Machine.execSetEndpointId port eid s
  | .getEndpointId port => Sys2Proof.Machine.execGetEndpointId port s
  | .getMctpVersionSupport port => Sys2Proof.Machine.execGetMctpVersionSupport port s
  | .getMessageTypeSupport port => Sys2Proof.Machine.execGetMessageTypeSupport port s
  | .getVendorMessageSupport port => Sys2Proof.Machine.execGetVendorMessageSupport port s
  | .mctpBellpullMessage port bytes => Sys2Proof.Machine.execMctpBellpullMessage port bytes s
  | .calStatus h pl => Sys2Proof.Machine.execCalStatus h pl s
  | .partAssign h pl => Sys2Proof.Machine.execPartAssign h pl s
  | .partRemove h pl => Sys2Proof.Machine.execPartRemove h pl s
  | .partStatus h pl => Sys2Proof.Machine.execPartStatus h pl s
  | .planSet h pl => Sys2Proof.Machine.execPlanSet h pl s
  | .planRead h pl => Sys2Proof.Machine.execPlanRead h pl s
  | .planClear h pl => Sys2Proof.Machine.execPlanClear h pl s
  | .powerGood straps t1 t2 => Sys2Proof.Machine.execPowerGood straps t1 t2 s
  | .regionWave wave => Sys2Proof.Machine.execRegionWave wave s
  | .helloTimer => Sys2Proof.Machine.execHelloTimer s
  | .hello port bytes => Sys2Proof.Machine.execHello port bytes s
  | .helloWaitEnd ms => Sys2Proof.Machine.execHelloWaitEnd ms s
  | .electionQuiet ms => Sys2Proof.Machine.execElectionQuiet ms s
  | .coordinateProbe port root hops => Sys2Proof.Machine.execCoordinateProbe port root hops s
  | .probeTimeout k => Sys2Proof.Machine.execProbeTimeout k s
  | .ready ms => Sys2Proof.Machine.execReady ms s
  | .powerState h pl => Sys2Proof.Machine.execPowerState h pl s
  | .powerVote h pl => Sys2Proof.Machine.execPowerVote h pl s
  | .powerStatus h pl => Sys2Proof.Machine.execPowerStatus h pl s
  | .thermalConfig h pl => Sys2Proof.Machine.execThermalConfig h pl s
  | .policySet h pl => Sys2Proof.Machine.execPolicySet h pl s
  | .rtcAlarm h pl => Sys2Proof.Machine.execRtcAlarm h pl s
  | .aonWrite h pl => Sys2Proof.Machine.execAonWrite h pl s
  | .aonRead h pl => Sys2Proof.Machine.execAonRead h pl s
  | .voteWrite ag c word on v => Sys2Proof.Machine.execVoteWrite ag c word on v s
  | .domainLevelChange x => Sys2Proof.Machine.execDomainLevelChange x s
  | .planeDrainTimeout => Sys2Proof.Machine.execPlaneDrainTimeout s
  | .voltageRampEnd => Sys2Proof.Machine.execVoltageRampEnd s
  | .vigilWake cause => Sys2Proof.Machine.execVigilWake cause s
  | .rtcAlarmMatch => Sys2Proof.Machine.execRtcAlarmMatch s
  | .brownOut => Sys2Proof.Machine.execBrownOut s
  | .thermtrip => Sys2Proof.Machine.execThermtrip s
  | .governorSample volt => Sys2Proof.Machine.execGovernorSample volt s
  | .napVoteDrop k => Sys2Proof.Machine.execNapVoteDrop k s
  | .napVoteRaise k => Sys2Proof.Machine.execNapVoteRaise k s
  | .pwrgdFall => Sys2Proof.Machine.execPwrgdFall s
  | .faultStatus h pl => Sys2Proof.Machine.execFaultStatus h pl s
  | .muteSet h pl => Sys2Proof.Machine.execMuteSet h pl s
  | .muteClear h pl => Sys2Proof.Machine.execMuteClear h pl s
  | .choke h pl => Sys2Proof.Machine.execChoke h pl s
  | .partScrub h pl => Sys2Proof.Machine.execPartScrub h pl s
  | .fence h pl => Sys2Proof.Machine.execFence h pl s
  | .fenceList h pl => Sys2Proof.Machine.execFenceList h pl s
  | .fenceClear h pl => Sys2Proof.Machine.execFenceClear h pl s
  | .faultConfig h pl => Sys2Proof.Machine.execFaultConfig h pl s
  | .gpioSafe h pl => Sys2Proof.Machine.execGpioSafe h pl s
  | .spareReserve h pl => Sys2Proof.Machine.execSpareReserve h pl s
  | .hangDetect q => Sys2Proof.Machine.execHangDetect q s
  | .fencing => Sys2Proof.Machine.execFencing s
  | .fenceWaitExpiry => Sys2Proof.Machine.execFenceWaitExpiry s
  | .remapCompare => Sys2Proof.Machine.execRemapCompare s
  | .alarmPacing => Sys2Proof.Machine.execAlarmPacing s
  | .bridgeFailure port flits => Sys2Proof.Machine.execBridgeFailure port flits s
  | .jtagInstructionLoad k => Sys2Proof.Machine.execJtagInstructionLoad k s
  | .obsRead h pl => Sys2Proof.Machine.execObsRead h pl s
  | .obsControl h pl => Sys2Proof.Machine.execObsControl h pl s
  | .traceConfig h pl => Sys2Proof.Machine.execTraceConfig h pl s
  | .traceStatus h pl => Sys2Proof.Machine.execTraceStatus h pl s
  | .traceMark h pl => Sys2Proof.Machine.execTraceMark h pl s
  | .obsPctlFreeze f p b => Sys2Proof.Machine.execObsPctlFreeze f p b s
  | .obsPctlClear f p => Sys2Proof.Machine.execObsPctlClear f p s
  | .obsTmarkHiWrite f v => Sys2Proof.Machine.execObsTmarkHiWrite f v s
  | .obsTctlWrite f v => Sys2Proof.Machine.execObsTctlWrite f v s
  | .traceStart => Sys2Proof.Machine.execTraceStart s
  | .syncPair => Sys2Proof.Machine.execSyncPair s
  | .vddAonValid => Sys2Proof.Machine.execVddAonValid s
  | .vddAonRemoval => Sys2Proof.Machine.execVddAonRemoval s
  | .ppsOutPulseEnd => Sys2Proof.Machine.execPpsOutPulseEnd s
  | .triggerOutputPulseEnd tm => Sys2Proof.Machine.execTriggerOutputPulseEnd tm s
  | .traceRecordSend die => Sys2Proof.Machine.execTraceRecordSend die s
  | .ethLinkUp x => Sys2Proof.Machine.execEthLinkUp x s
  | .ethLinkDown w => Sys2Proof.Machine.execEthLinkDown w s
  | .pcieLinkUp width rate => Sys2Proof.Machine.execPcieLinkUp width rate s
  | .linkStateMessage dev x => Sys2Proof.Machine.execLinkStateMessage dev x s
  | .groupReservationMessage kind src g part root tmo members => Sys2Proof.Machine.execGroupReservationMessage kind src g part root tmo members s
  | .vfEnableSet num => Sys2Proof.Machine.execVfEnableSet num s
  | .d3hotExit => Sys2Proof.Machine.execD3hotExit s
  | .tapReset => Sys2Proof.Machine.execTapReset s
  | .reservedOpcode r => Sys2Proof.Machine.execReservedOpcode r s

end Sys2Proof.Machine
end

