-- ==== Sys2Proof/Machine/Tick.lean ====
section
/-! DEFINITION. The passing of time on an empty queue. -/

namespace Sys2Proof.Machine

/-- The block idles (log entry 1): one tick of the timebase passes. -/
def idle (s : State) : Outcome := s.run (·.advance 1)

end Sys2Proof.Machine
end

