-- ==== Sys2Proof/Safety.lean ====
section
/-! DEFINITION. What a safe step is, and the words in which the claims speak of a command's effect: the outcome of a command,
what a Bellpull command needs to be executed and how it is answered, and what a command leaves as it was. -/

namespace Sys2Proof

open Sys2Proof.Machine

/-- A step that neither faults nor is refused. -/
def Safe (s : State) : Prop := ∃ t, step s = .next t

/-- The command answers a next state with the same queue, whose device satisfies `P`. -/
def Runs (c : Instr) (s : State) (P : Dev → Prop) : Prop :=
  ∃ t, Machine.exec c s = .next t ∧ t.pending = s.pending ∧ P t.dev

/-- The registers that follow the rest of the state at every instant (R98, R99, R572 to R575, R603, R615): FLT_STAT, and the
phase, MUTED, CHANGING and BUSYHOLD fields. -/
def FollowReg (a : Nat) : Prop :=
  a = FLT_STAT ∨ (∃ p, p < 16 ∧ (a = TAB_BSTAT p ∨ a = FLT_PMUTE p ∨ a = TAB_CHSTAT p)) ∨ ∃ x, x < 120 ∧ a = PWR_DSTAT x

/-- The registers that the books of a completed command touch (R514, R519, R521, R530, R626): the log's, the trace FIFO's, the
outstanding count and RRFULL of a function. -/
def BookReg (a : Nat) : Prop :=
  a = CAR_LOGSEQ ∨ a = CAR_JSKIP ∨ a = OBS_TSTAT ∨ a = OBS_TFIFO ∨ a = OBS_TDROP ∨ ∃ f, f < 16 ∧ (a = CAR_BOUT f ∨ a = CAR_BSTAT f)

/-- What a packet or flit on its way out touches (R236, R247, R251, R270, R279): the trace's books, and of each die the counts of
flits sent, merged and discarded, those over the bridge, NOROUTE and the status. -/
def LinkReg (a : Nat) : Prop :=
  BookReg a ∨ ∃ k, k < 2 ∧ (a = FAB_NOROUTE k ∨ a = FAB_DSTAT k ∨ a = FAB_C0MERGE k ∨ a = FAB_BRFLIT_LO k ∨ a = FAB_BRFLIT_HI k ∨
    ∃ q, q < 4 ∧ (a = FAB_PTXFLIT_LO k q ∨ a = FAB_PTXFLIT_HI k q ∨ a = FAB_PDISC k q))

/-- Registers of the device Tocsin, and those of the log, the trace and the faults: what an arrival there, a log record and a
fault that Chokes nothing, with the alarm it sends, touch (R491, R499 to R503, R521 to R528, R600 to R603), with MUTEWAIT of the cores (R335) and the S-core's,
which a checkpoint command of its own may end (R349). -/
def NoteReg (a : Nat) : Prop :=
  LinkReg a ∨ (0x10000 ≤ a ∧ a < 0x20000) ∨ (0xA0000 ≤ a ∧ a < 0xB0000) ∨ (0xC0000 ≤ a ∧ a < 0xD0000) ∨
    (∃ r, r < 16 ∧ slotBase r 0x11 ≤ a ∧ a < slotBase r 0x12) ∨ ∃ q, q < 256 ∧ a = HRV_STAT q

/-- The registers that count ticks (R66, R479, R481, R588). -/
def TickReg (a : Nat) : Prop :=
  a = TAB_TIME_LO ∨ a = TAB_TIME_HI ∨ a = PWR_RTC_LO ∨ a = PWR_RTC_HI ∨
    ∃ p, p < 16 ∧ (a = TAB_BCOUNT p ∨ a = TAB_TnCOUNT p)

/-- No word of the `n` bytes at `a` has an error. -/
abbrev NoError (d : Dev) (a n : Nat) : Prop :=
  ∀ k, k < (a + n + 7) / 8 - a / 8 → SMap.get 0 d.ecc (8 * (a / 8 + k)) = 0

/-- Every byte of memory reads as before. -/
def SameMem (d e : Dev) : Prop := ∀ a, e.mem.read a = d.mem.read a

/-- Every byte of memory at an address outside `w` reads as before. -/
def MemKeeps (d e : Dev) (w : Nat → Prop) : Prop := ∀ a, ¬ w a → e.mem.read a = d.mem.read a

/-- An address in the core store of physical site `q`, in the Commons of region `r`, in the T-core buffer of region `r`
(R41). -/
def InStore (q a : Nat) : Prop := csBase q ≤ a ∧ a < csBase q + 0x400000
def InCommons (r a : Nat) : Prop := cmnBase r ≤ a ∧ a < cmnBase r + 0x400000
def InBuffer (r a : Nat) : Prop := tcBase r ≤ a ∧ a < tcBase r + 0x200000

/-- The beats of the partitions other than `p` are as before. -/
def OtherBeats (d e : Dev) (p : Nat) : Prop :=
  ∀ q, q < 16 → q ≠ p → e.bstate q = d.bstate q ∧ e.beat q = d.beat q ∧ e.rg (TAB_BPERIOD q) = d.rg (TAB_BPERIOD q) ∧
    e.rg (TAB_OVRCNT q) = d.rg (TAB_OVRCNT q)

/-- Every register but those of `w` and those that follow the state reads as before. -/
def RegKeeps (d e : Dev) (w : Nat → Prop) : Prop := ∀ a, ¬ w a → ¬ FollowReg a → e.rg a = d.rg a

/-- Every register but those of `w` and those that follow the state reads as before; every byte of memory, and the ECC state of
every word, is as before. -/
def Keeps (d e : Dev) (w : Nat → Prop) : Prop :=
  RegKeeps d e w ∧ SameMem d e ∧ e.ecc = d.ecc

/-- The cores, the regions, the T-cores and the S-cores hold what they held beside their registers; the partitions other than `p` do. -/
def OtherUnits (d e : Dev) (p : Nat) : Prop :=
  e.cores = d.cores ∧ e.regions = d.regions ∧ e.tcores = d.tcores ∧ e.scores = d.scores ∧ ∀ q, q ≠ p → e.part q = d.part q

/-- The cores, the regions and the partitions hold what they held beside their registers. -/
def SameUnits (d e : Dev) : Prop :=
  e.cores = d.cores ∧ e.regions = d.regions ∧ e.parts = d.parts ∧ e.tcores = d.tcores ∧ e.scores = d.scores

/-- A write of the register at `a` by the agent is carried out (R42, R51 to R53, R657): the address is listed, the agent reaches it,
the register's core is there and ON, its die is reached, and it is none that Carillon alone writes. -/
abbrev WriteOk (d : Dev) (ag : Agent) (a : Nat) : Prop :=
  regListed a = true ∧ d.reachesW ag a = true ∧ d.regDead a = false ∧ d.cutOff ag a = false ∧ (ag.isFunc && carillonOnly a) = false

/-- The command names logical core `lc` of partition `p`, which stands at physical site `q` (R137). -/
abbrev NamesCore (d : Dev) (p lc q : Nat) : Prop := lc < 256 ∧ d.owns p (lc / 16) = true ∧ d.physOf lc = some q

/-- Carillon executes the command: READY is 1, no check of R513 turns it away, and the function's response ring is enabled. -/
abbrev Accepted (d : Dev) (c : CmdSpec) (h : Hdr) (pl : List Byte) : Prop :=
  d.flag CAR_STAT 0 = true ∧ h.func < 16 ∧ d.refuse c h pl = none ∧ d.flag (CAR_RRCFG h.func) 31 = true ∧
    12 ≤ d.fld (CAR_RRCFG h.func) 0 5

/-- An answer of `n` bytes fits the function's response ring (R518). -/
abbrev Fits (d : Dev) (h : Hdr) (n : Nat) : Prop := 64 * ceilDiv (32 + n) 64 ≤ d.respLimit h

/-- The function's queue of responses has grown by this one (R509, R517). -/
def Answered (d e : Dev) (op : Nat) (h : Hdr) (st : Status) (ans : List Byte) : Prop :=
  (e.fn h.func).resps = (d.fn h.func).resps ++ [{ opcode := op, hdr := h, status := st, detail := 0, pl := ans }]

/-- The same, where the command may also have ended others before it. -/
def AnsweredLast (e : Dev) (op : Nat) (h : Hdr) (st : Status) (ans : List Byte) : Prop :=
  ∃ l, (e.fn h.func).resps = l ++ [{ opcode := op, hdr := h, status := st, detail := 0, pl := ans }]

/-- A packet is on its way by port `q` (R236, R255): it waits for the port, there or at the die bridge, or its flits have left. -/
def SentOn (e : Dev) (q : Nat) (l : List Byte) : Prop :=
  (∃ k w, (k = q ∨ k = 8 ∨ k = 9) ∧ w ∈ (e.oport k).queue ∧ w.port = q ∧ w.data = l) ∨
    ∀ i, i < l.length / 64 → ∃ tag, Output.flit q tag (slice l (64 * i) 64) ∈ e.out

/-- The flits that come on port `q` with these link tags carry no error: no codeword marked them and none has ERR set (R261, R262). -/
abbrev FlitsOk (d : Dev) (q : Nat) (tags : List Nat) : Prop :=
  (d.lport q).mark = 0 ∧ ∀ t, t ∈ tags → tagVc t = 15 ∨ bitAt t 0 = false

/-- The registers that count what comes in by port `q` (R255, R262, R279), with those of what goes out. -/
def InReg (q a : Nat) : Prop :=
  LinkReg a ∨ a = FAB_PRXFLIT_LO (q / 4) (q % 4) ∨ a = FAB_PRXFLIT_HI (q / 4) (q % 4) ∨ a = FAB_PFECCORR_LO (q / 4) (q % 4) ∨
    a = FAB_PFECCORR_HI (q / 4) (q % 4)

/-- Port `o` carries a packet in direction `dir` of dimension `dim`: the port of that direction, or the W port paired with it
(R243). -/
abbrev Carries (d : Dev) (dim dir o : Nat) : Prop :=
  (dir = 1 ∨ dir = 2) ∧ d.portUp o = true ∧
    (o = 2 * dim + (dir - 1) ∨ dim = 2 ∧ d.flag (FAB_DCFG 1) 23 = true ∧ o = 2 * dim + (dir - 1) + 2)

/-- Carillon's message of a kind goes to device `dest` by the first link of its route that carries it (R239, R271, R283). -/
def MgmtTo (d e : Dev) (dest kind : Nat) (args : List Nat) : Prop :=
  ∀ dim dir dl, d.route 0 dest 3 0 = some (dim, dir, dl) → (∃ o, o < 8 ∧ Carries d dim dir o) → d.flag FLT_STAT 4 = false →
    ∃ o, Carries d dim dir o ∧ SentOn e o (d.mgmtPacket o kind args none)

/-- Carillon's message of a kind goes out by every port in use but `but` (R271, R552). -/
def MgmtAll (d e : Dev) (but kind : Nat) (args : List Nat) : Prop :=
  ∀ j, j < 8 → j ≠ but → d.portUp j = true → d.flag FLT_STAT 4 = false → SentOn e j (d.mgmtPacket j kind args none)

/-- A packet that this device makes on die `die` for device `dest`, and of which `P` holds, leaves by a link of its route (R243 to
R245). -/
def LeavesTo (d e : Dev) (die dest : Nat) (P : List Byte → Prop) : Prop :=
  ∀ dim dir dl, d.route die dest 3 0 = some (dim, dir, dl) → (∃ o, o < 8 ∧ Carries d dim dir o) → d.flag FLT_STAT 4 = false →
    ∃ o l, Carries d dim dir o ∧ SentOn e o l ∧ P l

/-- The command waits (R515): it stands among the waiting commands with what it waits for. -/
def Waits (d e : Dev) (c : CmdSpec) (h : Hdr) (pl : List Byte) (w : WaitFor) : Prop :=
  e.car.waiting = d.car.waiting ++ [{ opcode := c.opcode, names := c.names, ro := c.ro, hdr := h, pl := pl, what := w }]

/-- The S-core of region `r` runs and has come to the legal descriptor `x`, of opcode `op` (R399, R400, R425). -/
abbrev AtDesc (d : Dev) (r op : Nat) (x : List Byte) : Prop :=
  r < 16 ∧ d.scoreGoes r = true ∧ d.seqDesc r = x ∧ dOpc x = op ∧ descClean x = true

/-- A saturating 64-bit counter at `x` has counted `n` more (R12). -/
abbrev inc64 (x n : Nat) : Nat := if n = 0 then x else min (x + n) (2 ^ 64 - 1)

/-- A 64-bit counter at `x` that does not saturate has counted `n` more. -/
abbrev wrap64 (x n : Nat) : Nat := if n = 0 then x else (x + n) % 2 ^ 64

/-- The S-core has executed its descriptor and stands at descriptor `n` (R400, R425). -/
def WentTo (d e : Dev) (r n : Nat) : Prop :=
  e.seqPc r = n ∧ e.seqState r = (if (d.score r).halt then 0 else 1) ∧ e.rg64 (SEQ_DESC_LO r) = inc64 (d.rg64 (SEQ_DESC_LO r)) 1

/-- The S-core waits at its descriptor for reason `w` (R403). -/
def WaitsAt (d e : Dev) (r w : Nat) : Prop := e.seqPc r = d.seqPc r ∧ e.seqState r = 2 ∧ e.fld (SEQ_STAT r) 8 4 = w

/-- The number the S-core gives its next operation is in use by none. -/
abbrev FreshOp (d : Dev) (r : Nat) : Prop :=
  (∀ o, o ∈ (d.score r).ops → o.id ≠ (d.score r).next) ∧ ∀ q, q ∈ d.reqs → q.region = r → q.id ≠ (d.score r).next

/-- The 64-bit address `g` names `n` bytes of this device at local address `a`, in one Commons bank of region `r` that its
S-core owns and whose handover has ended, with no uncorrectable error, the die bridge working (R39, R40, R420 to R422). -/
abbrev OwnCommons (d : Dev) (r g a n : Nat) : Prop :=
  g = 2 ^ 48 * d.devId + a ∧ cmnBase r ≤ a ∧ a + n ≤ cmnBase r + 0x400000 ∧ a % 0x40000 + n ≤ 0x40000 ∧
    d.ownsBank r ((a - cmnBase r) / 0x40000) ownScore = true ∧ d.flag (CMN_OWN r ((a - cmnBase r) / 0x40000)) 31 = false ∧
    d.cleanAt a n = true ∧ d.flag FLT_STAT 4 = false

/-- The registers an S-core's descriptor touches beside what its operation writes: its own block, its count of scalar cycles, the
trace's. -/
def ScoreReg (r a : Nat) : Prop :=
  BookReg a ∨ (slotBase r 0x11 ≤ a ∧ a < slotBase r 0x12) ∨ a = OBS_SBUSY_LO r ∨ a = OBS_SBUSY_HI r

/-- No command waits, and no combining queue of the region holds a contribution. -/
abbrev QuietQueues (d : Dev) (r : Nat) : Prop := d.car.waiting = [] ∧ ∀ q, q < 8 → (d.combq r q).held = []

/-- A command that a check of R513 turns away completes with that check's status and DETAIL and an empty payload, and has no effect
but the books of a completion (R513, R517, R524). -/
def TurnedAway (c : Hdr → List Byte → Instr) (k : List Byte → CmdSpec) (ok : Dev → Prop) : Prop :=
  ∀ (s : State) (h : Hdr) (pl : List Byte) (st : Status) (det : Nat), ok s.dev → s.dev.flag CAR_STAT 0 = true → h.func < 16 →
    s.dev.flag (CAR_RRCFG h.func) 31 = true → 12 ≤ s.dev.fld (CAR_RRCFG h.func) 0 5 → s.dev.refuse (k pl) h pl = some (st, det) →
    Runs (c h pl) s (fun e =>
      (e.fn h.func).resps =
        (s.dev.fn h.func).resps ++ [{ opcode := (k pl).opcode, hdr := h, status := st, detail := det, pl := [] }] ∧
      Keeps s.dev e BookReg ∧ SameUnits s.dev e)

/-- A header field that R509 reserves is non-zero, or the payload has not the opcode's length (R513). -/
abbrev BadHead (c : CmdSpec) (h : Hdr) (pl : List Byte) : Prop :=
  h.rsvd ≠ 0 ∨ 16 ≤ h.part ∨ 4 ≤ h.flags ∨ c.len pl = false

/-- The function may not issue the command: it is the physical function's, or the partition is another's (R16, R17). -/
abbrev NoRight (c : CmdSpec) (h : Hdr) : Prop := h.func ≠ 0 ∧ (c.issuer = .pf ∨ (c.issuer = .owner ∧ h.func ≠ h.part))

/-- What follows the rest of the state after every step: the fault status, the MUTED bits, the regions' owners and the pins. -/
structure Follows (d : Dev) : Prop where
  /-- FLT_STAT bit 0: some partition is Muted (R603, R617). -/
  mutes : d.flag FLT_STAT 0 = true ↔ ∃ p, p < 16 ∧ d.muted p = true
  /-- FLT_STAT bits 1 and 2 show the pins (R615, R617). -/
  shows : d.flag FLT_STAT 1 = d.pins.muteOut ∧ d.flag FLT_STAT 2 = d.pins.alarm
  /-- FLT_PMUTEp.MUTED (R603). -/
  muted : ∀ p, p < 16 → d.flag (FLT_PMUTE p) 8 = d.muted p
  /-- TAB_CHSTAT shows the region's owner (R99). -/
  owner : ∀ r, r < 16 → d.flag (TAB_CHSTAT r) 31 = (d.regPart r).isSome ∧
    ∀ p, d.regPart r = some p → d.fld (TAB_CHSTAT r) 16 4 = p
  /-- A GPIO pin of a Muted partition is held at its safe level (R616). -/
  safe : ∀ i, i < 16 → d.flag (FLT_GSAFE i) 8 = true → d.muted (d.fld (FLT_GSAFE i) 4 4) = true → d.fld (FLT_GSAFE i) 0 2 ≠ 3 →
    SMap.get 2 d.pins.gpio i = d.fld (FLT_GSAFE i) 0 2

end Sys2Proof
end

