-- ==== Sys2Proof/Certificates/Slice0/Obligations.lean ====
section
/-! DEFINITION. The statements for the provers. -/

open Sys2Proof Sys2Proof.Machine

/-- BEAT_CONFIG of an IDLE or MUFFLED partition with fields R101 allows writes mode, EXTLOCK, SPAN, period, leap limit, span
  fields and EPOCH; BEAT_OFFSETS writes TAB_CHOFF of the partition's regions; BEAT_PERIOD writes TAB_BPERIOD; BEAT_STATUS
  answers the fields of R102. Each ends with OK, and leaves every other register, memory and the units as they were. -/
def Obligations.BeatConfigurationCommands : Prop :=
  -- BEAT_CONFIG (R101)
  (∀ (s : State) (h : Hdr) (pl : List Byte), Accepted s.dev cBeatConfig h pl → s.dev.still h.part = true → byteAt pl 0 ≤ 1 →
    periodLegal (leAt pl 4 4) (bitAt (byteAt pl 1) 1) = true → leAt pl 8 4 < 2 ^ 29 → (1 ≤ leAt pl 12 2 ∧ leAt pl 12 2 ≤ 512) →
    ((bitAt (byteAt pl 1) 0 = true → byteAt pl 0 = 0)) → ((bitAt (byteAt pl 1) 1 = true → byteAt pl 0 = 0 → bitAt (byteAt pl 1)
    0 = true)) → ((leAt pl 2 2 = s.dev.devId ∨ s.dev.fabDevs.contains (leAt pl 2 2) = true)) → ((leAt pl 12 2 = 1 → leAt pl 2 2
    = s.dev.devId)) → s.dev.unconnected h.part (leAt pl 2 2) (leAt pl 12 2) = false → ((h.func = 0 ∨ (bitAt (byteAt pl 1) 1 =
    s.dev.flag (TAB_BCTL h.part) 8 ∧ leAt pl 2 2 = s.dev.fld (TAB_SPAN h.part) 16 9 ∧ leAt pl 12 2 = s.dev.fld (TAB_SPAN h.part)
    0 10))) → Runs (.beatConfig h pl) s (fun e => e.rg (TAB_BCTL h.part) = byteAt pl 0 + 16 * natOf (bitAt (byteAt pl 1) 0) +
    256 * natOf (bitAt (byteAt pl 1) 1) ∧ e.rg (TAB_BPERIOD h.part) = leAt pl 4 4 ∧ e.rg (TAB_LEAPLIM h.part) = leAt pl 8 4 ∧
    e.rg (TAB_SPAN h.part) = 65536 * leAt pl 2 2 + leAt pl 12 2 ∧ e.rg (TAB_EPOCH_LO h.part) = leAt pl 16 4 ∧ e.rg (TAB_EPOCH_HI
    h.part) = leAt pl 20 4 ∧ Answered s.dev e 0x0101 h .ok [] ∧ (leAt pl 2 2 = s.dev.devId → (e.part h.part).parent = none) ∧
    (bitAt (byteAt pl 1) 1 = false → (e.part h.part).kids = [] ∧ e.oports = s.dev.oports) ∧ Keeps s.dev e (fun a => LinkReg a ∨
    a = TAB_BCTL h.part ∨ a = TAB_BPERIOD h.part ∨ a = TAB_LEAPLIM h.part ∨ a = TAB_SPAN h.part ∨ a = TAB_EPOCH_LO h.part ∨ a =
    TAB_EPOCH_HI h.part) ∧ OtherUnits s.dev e h.part)) ∧
  -- BEAT_OFFSETS (R79, R100)
  (∀ (s : State) (h : Hdr) (pl : List Byte), Accepted s.dev cBeatOffsets h pl → ((∀ r, r < 16 → s.dev.owns h.part r = true →
    byteAt pl (4 * r + 3) < 4)) → Runs (.beatOffsets h pl) s (fun e => (∀ r, r < 16 → s.dev.owns h.part r = true → e.fld
    (TAB_CHOFF r) 0 26 = leAt pl (4 * r) 4 % 2 ^ 26) ∧ Answered s.dev e 0x0102 h .ok [] ∧ Keeps s.dev e (fun a => BookReg a ∨ ∃
    r, r < 16 ∧ s.dev.owns h.part r = true ∧ a = TAB_CHOFF r) ∧ SameUnits s.dev e)) ∧
  -- BEAT_PERIOD, while the new period is still ahead of the count (R80, R82)
  (∀ (s : State) (h : Hdr) (pl : List Byte), Accepted s.dev cBeatPeriod h pl → s.dev.periodHeld h.part = false → periodLegal
    (leAt pl 0 4) (s.dev.flag (TAB_BCTL h.part) 8) = true → ((leAt pl 0 4 = s.dev.fld (TAB_BPERIOD h.part) 0 29 ∨
    s.dev.ckptTooFast h.part (leAt pl 0 4) (s.dev.seasonLen h.part) = false)) → ((s.dev.running h.part = false ∨ s.dev.rg
    (TAB_BCOUNT h.part) < leAt pl 0 4)) → Runs (.beatPeriod h pl) s (fun e => e.fld (TAB_BPERIOD h.part) 0 29 = leAt pl 0 4 ∧
    Answered s.dev e 0x0106 h .ok [] ∧ e.part h.part = (if s.dev.running h.part && ! s.dev.follows h.part then { s.dev.part
    h.part with leap := none } else s.dev.part h.part) ∧ Keeps s.dev e (fun a => BookReg a ∨ a = TAB_BPERIOD h.part) ∧
    OtherUnits s.dev e h.part)) ∧
  -- BEAT_STATUS (R102)
  (∀ (s : State) (h : Hdr) (pl : List Byte), Accepted s.dev cBeatStatus h pl → Runs (.beatStatus h pl) s (fun e => Answered
    s.dev e 0x0107 h .ok (leBytes 8 (s.dev.beat h.part) ++ leBytes 1 (s.dev.bstate h.part) ++ leBytes 1 (natOf (s.dev.flag
    (TAB_BSTAT h.part) 1) + 2 * natOf (s.dev.flag (TAB_BSTAT h.part) 2) + 4 * natOf (s.dev.flag (TAB_BSTAT h.part) 3) + 8 *
    natOf (s.dev.flag (TAB_BCTL h.part) 4) + 16 * natOf (s.dev.tlState == 2)) ++ zeros 2 ++ leBytes 4 (s.dev.rg (TAB_SETTLE
    h.part)) ++ leBytes 4 (s.dev.rg (TAB_OVRCNT h.part)) ++ leBytes 4 (s.dev.rg (TAB_LEAPCNT h.part)) ++ leBytes 4 (s.dev.rg
    (TAB_LASTLEAP h.part)) ++ leBytes 4 (s.dev.rg (TAB_UNSETTLED h.part))) ∧ Keeps s.dev e (fun a => BookReg a) ∧ SameUnits
    s.dev e))

/-- A START of an IDLE partition that needs no external boundary and no lead begins its first beat at once: RUNNING, the beat
  number named, count and the four run counters zero; one that needs them waits. A MUFFLE of a running partition makes it
  MUFFLING and waits; of a MUFFLED one answers its beat. A RESUME of a MUFFLED partition starts the next beat; of a MUFFLING one
  withdraws the Muffle. The TAB_BCMD bits do the same without an answer. -/
def Obligations.BeatStartMuffleAndResume : Prop :=
  -- BEAT_START that starts at once (R97, R100)
  (∀ (s : State) (h : Hdr) (pl : List Byte), Accepted s.dev cBeatStart h pl → s.dev.bstate h.part = 0 → (s.dev.part
    h.part).startAt = none → s.dev.startWaits h.part = false → Runs (.beatStart h pl) s (fun e => e.bstate h.part = 1 ∧ e.beat
    h.part = leAt pl 0 6 ∧ e.rg (TAB_BCOUNT h.part) = 0 ∧ e.rg (TAB_OVRCNT h.part) = 0 ∧ e.rg (TAB_LEAPCNT h.part) = 0 ∧ e.rg
    (TAB_UNSETTLED h.part) = 0 ∧ e.rg (TAB_LATEFILE h.part) = 0 ∧ AnsweredLast e 0x0103 h .ok (leBytes 8 (leAt pl 0 6)) ∧
    MemKeeps s.dev e (fun a => 0x010000000000 ≤ a) ∧ OtherBeats s.dev e h.part)) ∧
  -- BEAT_START that waits (R88, R100)
  (∀ (s : State) (h : Hdr) (pl : List Byte), Accepted s.dev cBeatStart h pl → s.dev.bstate h.part = 0 → (s.dev.part
    h.part).startAt = none → s.dev.startWaits h.part = true → Runs (.beatStart h pl) s (fun e => (e.part h.part).startAt = some
    (leAt pl 0 6) ∧ e.bstate h.part = 0 ∧ Waits s.dev e cBeatStart h pl .start ∧ Keeps s.dev e (fun a => BookReg a))) ∧
  -- BEAT_MUFFLE of a running partition (R92)
  (∀ (s : State) (h : Hdr) (pl : List Byte), Accepted s.dev cBeatMuffle h pl → s.dev.running h.part = true → Runs (.beatMuffle h
    pl) s (fun e => e.bstate h.part = 2 ∧ (e.part h.part).muffle.isSome = (s.dev.bstate h.part == 1 || (s.dev.part
    h.part).muffle.isSome) ∧ Waits s.dev e cBeatMuffle h pl .muffle ∧ Keeps s.dev e (fun a => BookReg a))) ∧
  -- BEAT_MUFFLE of a Muffled partition (R92)
  (∀ (s : State) (h : Hdr) (pl : List Byte), Accepted s.dev cBeatMuffle h pl → s.dev.bstate h.part = 3 → Runs (.beatMuffle h pl)
    s (fun e => Answered s.dev e 0x0104 h .ok (leBytes 8 (s.dev.beat h.part)) ∧ Keeps s.dev e (fun a => BookReg a) ∧ SameUnits
    s.dev e)) ∧
  -- BEAT_RESUME that resumes at once (R93)
  (∀ (s : State) (h : Hdr) (pl : List Byte), Accepted s.dev cBeatResume h pl → s.dev.bstate h.part = 3 → (s.dev.part
    h.part).resume = false → s.dev.flag (TAB_BCTL h.part) 4 = false → (s.dev.flag (TAB_BCTL h.part) 8 && s.dev.flag (TAB_BCTL
    h.part) 0 && decide (1 < s.dev.fld (TAB_SPAN h.part) 0 10)) = false → Runs (.beatResume h pl) s (fun e => e.bstate h.part =
    1 ∧ e.beat h.part = beatInc (s.dev.beat h.part) ∧ e.rg (TAB_BCOUNT h.part) = 0 ∧ AnsweredLast e 0x0105 h .ok (leBytes 8
    (beatInc (s.dev.beat h.part))) ∧ MemKeeps s.dev e (fun a => 0x010000000000 ≤ a) ∧ OtherBeats s.dev e h.part)) ∧
  -- BEAT_RESUME that withdraws a Muffle (R92, R93); the number it answers is free (the model's choice, log entry 32)
  (∀ (s : State) (h : Hdr) (pl : List Byte), Accepted s.dev cBeatResume h pl → s.dev.bstate h.part = 2 → Runs (.beatResume h pl)
    s (fun e => e.bstate h.part = 1 ∧ (e.part h.part).muffle = none ∧ (∃ n, n < 2 ^ 48 ∧ AnsweredLast e 0x0105 h .ok (leBytes 8
    n)))) ∧
  -- TAB_BCMD.START (R96, R97)
  (∀ (s : State) (f p : Nat), p < 16 → (f = 0 ∨ f = p) → s.dev.bstate p = 0 → (s.dev.part p).startAt = none → s.dev.regionsOf p
    ≠ [] → s.dev.startWaits p = false → Runs (.tabBcmdStart f p) s (fun e => e.bstate p = 1 ∧ e.beat p = s.dev.beat p % 2 ^ 48 ∧
    e.rg (TAB_BCOUNT p) = 0 ∧ e.rg (TAB_OVRCNT p) = 0 ∧ MemKeeps s.dev e (fun a => 0x010000000000 ≤ a) ∧ OtherBeats s.dev e p)) ∧
  -- TAB_BCMD.MUFFLE (R90, R96)
  (∀ (s : State) (f p : Nat), p < 16 → (f = 0 ∨ f = p) → s.dev.bstate p = 1 → Runs (.tabBcmdMuffle f p) s (fun e => e.bstate p =
    2 ∧ (e.part p).muffle = some 0 ∧ Keeps s.dev e (fun _ => False))) ∧
  -- TAB_BCMD.RESUME of a Muffled partition (R93, R96)
  (∀ (s : State) (f p : Nat), p < 16 → (f = 0 ∨ f = p) → s.dev.bstate p = 3 → (s.dev.part p).resume = false → s.dev.flag
    (TAB_BCTL p) 4 = false → (s.dev.flag (TAB_BCTL p) 8 && s.dev.flag (TAB_BCTL p) 0 && decide (1 < s.dev.fld (TAB_SPAN p) 0
    10)) = false → Runs (.tabBcmdResume f p) s (fun e => e.bstate p = 1 ∧ e.beat p = beatInc (s.dev.beat p) ∧ MemKeeps s.dev e
    (fun a => 0x010000000000 ≤ a) ∧ OtherBeats s.dev e p)) ∧
  -- TAB_BPERIOD written (R68, R80)
  (∀ (s : State) (f p v : Nat), p < 16 → (f = 0 ∨ f = p) → periodLegal (v % 2 ^ 29) (s.dev.flag (TAB_BCTL p) 8) = true →
    s.dev.periodHeld p = false → s.dev.rg (TAB_BCOUNT p) < v % 2 ^ 29 → Runs (.tabBperiodWrite f p v) s (fun e => e.fld
    (TAB_BPERIOD p) 0 29 = v % 2 ^ 29 ∧ e.part p = (if s.dev.running p && ! s.dev.follows p then { s.dev.part p with leap :=
    none } else s.dev.part p) ∧ Keeps s.dev e (fun a => a = TAB_BPERIOD p) ∧ OtherUnits s.dev e p))

/-- The period event of a settled beat starts the next beat with count 0 and TAB_BLAST the period less 1; of an unsettled
  metered beat it starts an overrun beat, counted, with the OVERRUN Mute; of an unsettled lockstep beat with a leap limit it
  begins a leap. The leap limit ends the leap in an overrun beat. A round inside the device that finds all points FINAL and
  equal sums settles the beat. -/
def Obligations.PeriodEventsAndLeaps : Prop :=
  -- PERIOD_EVENT of a settled beat (R65, R66, R73)
  (∀ (s : State) (p : Nat), p < 16 → s.dev.running p = true → (s.dev.part p).leap = none → s.dev.follows p = false →
    ((s.dev.flag (TAB_BCTL p) 0 = true → s.dev.flag (TAB_BSTAT p) 8 = true)) → ((s.dev.flag (TAB_BCTL p) 0 = false →
    s.dev.settledNow p = true)) → Runs (.periodEvent p) s (fun e => e.beat p = beatInc (s.dev.beat p) ∧ e.rg (TAB_BCOUNT p) = 0
    ∧ e.rg (TAB_BLAST p) = s.dev.fld (TAB_BPERIOD p) 0 29 - 1 ∧ e.flag (TAB_BSTAT p) 0 = false ∧ e.flag (TAB_BSTAT p) 8 = false
    ∧ e.bstate p = s.dev.bstate p ∧ e.rg (TAB_OVRCNT p) = s.dev.rg (TAB_OVRCNT p) ∧ OtherBeats s.dev e p ∧ SameMem s.dev e)) ∧
  -- PERIOD_EVENT of an unsettled beat with no leap to begin: an overrun beat (R69, R73)
  (∀ (s : State) (p : Nat), p < 16 → s.dev.running p = true → (s.dev.part p).leap = none → s.dev.follows p = false →
    ((s.dev.flag (TAB_BCTL p) 0 = true → s.dev.flag (TAB_BSTAT p) 8 = false ∧ s.dev.fld (TAB_LEAPLIM p) 0 29 = 0)) →
    ((s.dev.flag (TAB_BCTL p) 0 = false → s.dev.settledNow p = false)) → Runs (.periodEvent p) s (fun e => e.beat p = beatInc
    (s.dev.beat p) ∧ e.rg (TAB_BCOUNT p) = 0 ∧ e.flag (TAB_BSTAT p) 0 = true ∧ e.flag (TAB_BSTAT p) 1 = true ∧ e.rg (TAB_OVRCNT
    p) = satInc (s.dev.rg (TAB_OVRCNT p)) 1 % 2 ^ 32 ∧ e.flag (FLT_PMUTE p) 0 = true ∧ OtherBeats s.dev e p ∧ SameMem s.dev e)) ∧
  -- PERIOD_EVENT of an unsettled lockstep beat: the leap begins (R73)
  (∀ (s : State) (p : Nat), p < 16 → s.dev.running p = true → (s.dev.part p).leap = none → s.dev.follows p = false → s.dev.flag
    (TAB_BCTL p) 0 = true → s.dev.flag (TAB_BSTAT p) 8 = false → s.dev.fld (TAB_LEAPLIM p) 0 29 ≠ 0 → Runs (.periodEvent p) s
    (fun e => (e.part p).leap = some (s.dev.fld (TAB_BPERIOD p) 0 29) ∧ e.rg (TAB_BCOUNT p) = s.dev.fld (TAB_BPERIOD p) 0 29 ∧
    e.beat p = s.dev.beat p ∧ e.bstate p = s.dev.bstate p ∧ OtherBeats s.dev e p ∧ Keeps s.dev e (fun a => TickReg a))) ∧
  -- LEAP_LIMIT (R73)
  (∀ (s : State) (p base : Nat), p < 16 → (s.dev.part p).leap = some base → base < 2 ^ 29 → s.dev.follows p = false →
    s.dev.running p = true → Runs (.leapLimit p) s (fun e => e.beat p = beatInc (s.dev.beat p) ∧ e.rg (TAB_BCOUNT p) = 0 ∧ e.rg
    (TAB_LASTLEAP p) = s.dev.fld (TAB_LEAPLIM p) 0 29 ∧ e.rg (TAB_LEAPCNT p) = satInc (s.dev.rg (TAB_LEAPCNT p)) 1 % 2 ^ 32 ∧
    e.rg (TAB_OVRCNT p) = satInc (s.dev.rg (TAB_OVRCNT p)) 1 % 2 ^ 32 ∧ e.flag (TAB_BSTAT p) 0 = true ∧ e.flag (TAB_BSTAT p) 2 =
    true ∧ e.flag (FLT_PMUTE p) 0 = true ∧ (e.part p).leap = none ∧ OtherBeats s.dev e p ∧ SameMem s.dev e)) ∧
  -- REPORT_RECEIVED inside the device, of the present beat (R62, R63, R71)
  (∀ (s : State) (p : Nat) (t u : Tattoo), p < 16 → t = { u with part := t.part, beat := t.beat } → (t.part % 16 = p ∧
    (s.dev.part p).roundOut = some t.beat ∧ t.round = (s.dev.part p).round % 65536 ∧ t.beat = s.dev.beat p) → (s.dev.isLead p =
    true ∧ (s.dev.part p).reps = []) → s.dev.running p = true → s.dev.choked p = false → (s.dev.flag (TAB_BCTL p) 8 && decide (1
    < s.dev.fld (TAB_SPAN p) 0 10)) = false → s.dev.flag (TAB_BSTAT p) 8 = false → (s.dev.part p).leap = none → s.dev.allFinal p
    (s.dev.beat p) = true → s.dev.sentSum p (s.dev.beat p) = s.dev.filedSum p (s.dev.beat p) → Runs (.reportReceived t.part
    t.beat ⟨s.dev.devId, u⟩) s (fun e => e.flag (TAB_BSTAT p) 8 = true ∧ e.rg (TAB_SETTLE p) = s.dev.rg (TAB_BCOUNT p) % 2 ^ 32
    ∧ e.beat p = s.dev.beat p ∧ ((s.dev.part p).openBeats = [] → (e.part p).roundOut = none) ∧ OtherBeats s.dev e p)) ∧
  -- REPORT_RECEIVED of a span group at its lead: every member reports FINAL and the sums agree (R62, R63)
  (∀ (s : State) (p src : Nat) (t u own tot : Tattoo), p < 16 → t = { u with part := t.part, beat := t.beat } → s.dev.running p
    = true → s.dev.choked p = false → s.dev.spans p = true → s.dev.isLead p = true → (t.part % 16 = p ∧ (s.dev.part p).roundOut
    = some t.beat ∧ t.round = (s.dev.part p).round % 65536 ∧ t.beat = s.dev.beat p) → ((s.dev.part p).kids = [src] ∧ src ≠
    s.dev.devId ∧ (s.dev.part p).reps = [(s.dev.devId, own)]) → tot = own.plus t → (bitAt tot.flags 0 = true ∧ bitAt tot.flags 2
    = false) → tot.nreport = s.dev.fld (TAB_SPAN p) 0 10 → s.dev.flag (TAB_BSTAT p) 8 = false → (s.dev.part p).leap = none →
    tot.sent % 2 ^ 32 = tot.filed % 2 ^ 32 → Runs (.reportReceived t.part t.beat ⟨src, u⟩) s (fun e => e.flag (TAB_BSTAT p) 8 =
    true ∧ e.rg (TAB_SETTLE p) = s.dev.rg (TAB_BCOUNT p) % 2 ^ 32 ∧ e.beat p = s.dev.beat p ∧ OtherBeats s.dev e p)) ∧
  -- BEAT_COUNTS_CLOSE (R71)
  (∀ (s : State) (p : Nat) (b : Nat × Nat), p < 16 → (s.dev.part p).openBeats.find? (fun b => 4 ≤ b.2) = some b → Runs
    (.beatCountsClose p) s (fun e => (e.part p).openBeats = (s.dev.part p).openBeats.filter (fun o => o.1 != b.1) ∧ e.rg
    (TAB_UNSETTLED p) = satInc (s.dev.rg (TAB_UNSETTLED p)) (min ((s.dev.sentSum p b.1 + 2 ^ 32 - s.dev.filedSum p b.1) % 2 ^
    32) (2 ^ 32 - (s.dev.sentSum p b.1 + 2 ^ 32 - s.dev.filedSum p b.1) % 2 ^ 32)) % 2 ^ 32 ∧ e.beat p = s.dev.beat p ∧
    OtherBeats s.dev e p)) ∧
  -- REGION_BEAT_START (R78)
  (∀ (s : State) (r p : Nat), r < 16 → s.dev.regPart r = some p → s.dev.running p = true → 0 < beatSub (s.dev.beat p)
    (s.dev.region r).beat → Runs (.regionBeatStart r) s (fun e => (e.region r).beat = ((s.dev.region r).beat + 1) % 2 ^ 48 ∧
    (e.region r).started = true ∧ e.beat p = s.dev.beat p ∧ (s.dev.pwr.asleep = 0 → ((s.dev.region r).beat + 1) % 2 ^ 48 =
    s.dev.beat p → s.dev.regionOffset p r ≤ e.rg (TAB_BCOUNT p)))) ∧
  -- READOUT_CLEAR_END (R213)
  (∀ (s : State) (r : Nat), r < 16 → s.dev.engineRuns r = true → Runs (.readoutClearEnd r) s (fun e => (e.region r).clearing =
    none ∧ (e.region r).held = [] ∧ e.flag (AXN_RSTAT r) 0 = false ∧ MemKeeps s.dev e (fun a => cmnBase 0 ≤ a)))

/-- A Muffle takes effect once the beat is settled and nothing is open; after 64 beats its commands end with TIMEOUT. A member
  of a span group answers a GATHER with its sums, and follows RELEASE: it starts the beat it waits for, settles, or Muffles. A
  round that is abandoned is counted and the next begins. An EXTLOCK partition that waits starts at a boundary of its period. -/
def Obligations.MuffleAndSpanGroups : Prop :=
  -- MUFFLE_TAKES_EFFECT (R90)
  (∀ (s : State) (p : Nat), p < 16 → s.dev.bstate p = 2 → s.dev.isLead p = true → s.dev.flag (TAB_BSTAT p) 8 = true →
    (s.dev.part p).openBeats = [] → s.dev.harvestOn p = false → Runs (.muffleTakesEffect p) s (fun e => e.bstate p = 3 ∧ e.beat
    p = s.dev.beat p % 2 ^ 48 ∧ (e.part p).muffle = none ∧ OtherBeats s.dev e p ∧ SameMem s.dev e)) ∧
  -- MUFFLE_TIMEOUT (R92): the request stays pending
  (∀ (s : State) (p k : Nat), p < 16 → (s.dev.part p).muffle = some k → 64 ≤ k → Runs (.muffleTimeout p) s (fun e => (∀ w, w ∈
    e.car.waiting → ¬ (w.what = .muffle ∧ w.hdr.part % 16 = p)) ∧ (e.part p).muffle = some k ∧ e.bstate p = s.dev.bstate p ∧
    OtherBeats s.dev e p ∧ SameMem s.dev e)) ∧
  -- EXTLOCK_FIRST_BEAT of a START (R88, R89)
  (∀ (s : State) (p f : Nat), p < 16 → s.dev.flag (TAB_BCTL p) 4 = true → s.dev.tlState = 2 → (s.dev.part p).startAt = some f →
    s.dev.bstate p = 0 → s.dev.pwr.asleep = 0 → s.dev.rg64 (TAB_EPOCH_LO p) ≤ s.dev.time → s.dev.time + 2 ^ 29 < 2 ^ 64 → 0 <
    s.dev.fld (TAB_BPERIOD p) 0 29 → Runs (.extlockFirstBeat p) s (fun e => e.bstate p = 1 ∧ e.beat p = (s.dev.time - s.dev.rg64
    (TAB_EPOCH_LO p) + s.dev.fld (TAB_BPERIOD p) 0 29 - 1) / s.dev.fld (TAB_BPERIOD p) 0 29 % 2 ^ 48 ∧ (e.part p).startAt = none
    ∧ OtherBeats s.dev e p)) ∧
  -- GATHER_RECEIVED at a member with none below it: it answers (R62, R64, R268)
  (∀ (s : State) (src : Nat) (t : Tattoo), s.dev.spans (t.part % 16) = true → s.dev.isLead (t.part % 16) = false → s.dev.choked
    (t.part % 16) = false → (s.dev.part (t.part % 16)).parent = some src → (s.dev.part (t.part % 16)).kids = [] → (s.dev.part
    (t.part % 16)).latest = none → Runs (.gatherReceived ⟨src, t⟩) s (fun e => (e.part (t.part % 16)).gather = none ∧ (∀ q,
    s.dev.portTo src = some q → s.dev.flag FLT_STAT 4 = false → SentOn e q (c0Flit 1 src s.dev.devId (Tattoo.bytes {
    s.dev.ownReport (t.part % 16) t.beat with round := t.round } 0x11))) ∧ Keeps s.dev e (fun a => LinkReg a) ∧ OtherUnits s.dev
    e (t.part % 16))) ∧
  -- GATHER_RECEIVED at a member with members below it: it goes on to them (R62, R268)
  (∀ (s : State) (src : Nat) (t : Tattoo), s.dev.spans (t.part % 16) = true → s.dev.isLead (t.part % 16) = false → s.dev.choked
    (t.part % 16) = false → (s.dev.part (t.part % 16)).parent = some src → (s.dev.part (t.part % 16)).kids ≠ [] → Runs
    (.gatherReceived ⟨src, t⟩) s (fun e => (e.part (t.part % 16)).gather = some t ∧ (e.part (t.part % 16)).reps = [] ∧ (∀ m q, m
    ∈ (s.dev.part (t.part % 16)).kids → s.dev.portTo m = some q → s.dev.flag FLT_STAT 4 = false → SentOn e q (c0Flit 1 m
    s.dev.devId ((bareTattoo (t.part % 16) t.round t.beat 0).bytes 0x10))) ∧ Keeps s.dev e (fun a => LinkReg a) ∧ OtherUnits
    s.dev e (t.part % 16))) ∧
  -- RELEASE_RECEIVED by a lockstep member that waits for its START (R74)
  (∀ (s : State) (t : Tattoo) (f : Nat), s.dev.flag (TAB_BCTL (t.part % 16)) 8 = true → s.dev.flag (TAB_BCTL (t.part % 16)) 0 =
    true → s.dev.isLead (t.part % 16) = false → s.dev.choked (t.part % 16) = false → bitAt t.flags 2 = false → s.dev.bstate
    (t.part % 16) = 0 → (s.dev.part (t.part % 16)).startAt = some f → Runs (.releaseReceived t) s (fun e => e.bstate (t.part %
    16) = 1 ∧ e.beat (t.part % 16) = t.beat % 2 ^ 48 ∧ (e.part (t.part % 16)).startAt = none ∧ OtherBeats s.dev e (t.part %
    16))) ∧
  -- RELEASE_RECEIVED with the Muffle flag (R91)
  (∀ (s : State) (t : Tattoo), s.dev.flag (TAB_BCTL (t.part % 16)) 8 = true → s.dev.isLead (t.part % 16) = false → s.dev.choked
    (t.part % 16) = false → bitAt t.flags 2 = true → s.dev.running (t.part % 16) = true → Runs (.releaseReceived t) s (fun e =>
    e.bstate (t.part % 16) = 3 ∧ e.beat (t.part % 16) = t.beat % 2 ^ 48 ∧ OtherBeats s.dev e (t.part % 16))) ∧
  -- ROUND_ABANDON (R267, R269)
  (∀ (s : State) (p : Nat), p < 16 → s.dev.choked p = false → (s.dev.part p).roundOut.isSome = true → s.dev.roundBeats p ≠ [] →
    Runs (.roundAbandon p) s (fun e => (e.part p).round = (s.dev.part p).round + 1 ∧ (e.part p).roundOut.isSome = true ∧ e.rg
    (FAB_TATTOOTMO (if (s.dev.regionsOf p).headD 0 < 8 then 0 else 1)) = satInc (s.dev.rg (FAB_TATTOOTMO (if (s.dev.regionsOf
    p).headD 0 < 8 then 0 else 1))) 1 % 2 ^ 32 ∧ Keeps s.dev e (fun a => LinkReg a ∨ a = FAB_TATTOOTMO (if (s.dev.regionsOf
    p).headD 0 < 8 then 0 else 1)) ∧ OtherUnits s.dev e p))

/-- TIME_CONFIG selects the source, the PPS output and TAB_TAISEC; TIME_STATUS answers TAB_TLSTAT and the phase error. While
  LOCKED an edge within 1 us moves the frequency correction, by at most 0.01 ppm per second and within 50 ppm, and leaves the
  phase error to be slewed out; any other enters HOLDOVER, as 2 s without an edge do; the third agreeing capture locks the
  timebase to TAB_TAISEC. RELOCK from HOLDOVER steps the timebase and locks; a TSET in FREE sets it. -/
def Obligations.TimeDiscipline : Prop :=
  -- TIME_CONFIG (R83, R100)
  (∀ (s : State) (h : Hdr) (pl : List Byte), Accepted s.dev cTimeConfig h pl → byteAt pl 0 ≤ 4 → byteAt pl 1 ≤ 1 → Runs
    (.timeConfig h pl) s (fun e => e.fld TAB_TLCTL 0 3 = byteAt pl 0 ∧ e.flag TAB_TLCTL 4 = (byteAt pl 1 == 1) ∧ e.rg64
    TAB_TAISEC_LO = leAt pl 8 8 ∧ e.taiSet = true ∧ e.tlState = (if s.dev.fld TAB_TLCTL 0 3 = byteAt pl 0 then s.dev.tlState
    else if byteAt pl 0 = 0 then 0 else 1) ∧ SMap.get [] e.car.keepCfg 1 = pl ∧ Answered s.dev e 0x0108 h .ok [] ∧ Keeps s.dev e
    (fun a => NoteReg a ∨ a = TAB_TLCTL ∨ a = TAB_TLSTAT ∨ a = TAB_TAISEC_LO ∨ a = TAB_TAISEC_HI ∨ a = TUN_PTPSTAT) ∧ SameUnits
    s.dev e)) ∧
  -- TIME_STATUS (R100)
  (∀ (s : State) (h : Hdr) (pl : List Byte), Accepted s.dev cTimeStatus h pl → Runs (.timeStatus h pl) s (fun e => Answered
    s.dev e 0x0109 h .ok (leBytes 4 (s.dev.rg TAB_TLSTAT) ++ leBytes 4 (if h.func = 0 then s.dev.rg TAB_PHERR else 0)) ∧ Keeps
    s.dev e (fun a => BookReg a) ∧ SameUnits s.dev e)) ∧
  -- TIME_RELOCK in HOLDOVER (R86)
  (∀ (s : State) (h : Hdr) (pl : List Byte), Accepted s.dev cTimeRelock h pl → s.dev.extStill = true → s.dev.tlState = 3 → Runs
    (.timeRelock h pl) s (fun e => e.tlState = 2 ∧ e.flag TAB_TLSTAT 8 = true ∧ e.rg TAB_PHERR = 0 ∧ (s.dev.timeSrc = 1 ∨
    s.dev.timeSrc = 2 → e.time = (s.dev.rg64 TAB_TAISEC_LO * 400000000 + (s.dev.time - s.dev.ppsLast.getD s.dev.time)) % 2 ^ 64)
    ∧ Answered s.dev e 0x010A h .ok [] ∧ Keeps s.dev e (fun a => NoteReg a ∨ a = TAB_TLSTAT ∨ a = TAB_TIME_LO ∨ a = TAB_TIME_HI
    ∨ a = TAB_PHERR ∨ a = TUN_PTPSTAT))) ∧
  -- TAB_TLCTL.RELOCK in HOLDOVER (R86)
  (∀ (s : State), s.dev.extStill = true → s.dev.tlState = 3 → Runs (.tabTlctlRelock 0) s (fun e => e.tlState = 2 ∧ e.flag
    TAB_TLSTAT 8 = true ∧ e.rg TAB_PHERR = 0 ∧ (s.dev.timeSrc = 1 ∨ s.dev.timeSrc = 2 → e.time = (s.dev.rg64 TAB_TAISEC_LO *
    400000000 + (s.dev.time - s.dev.ppsLast.getD s.dev.time)) % 2 ^ 64) ∧ Keeps s.dev e (fun a => NoteReg a ∨ a = TAB_TLSTAT ∨ a
    = TAB_TIME_LO ∨ a = TAB_TIME_HI ∨ a = TAB_PHERR ∨ a = TUN_PTPSTAT))) ∧
  -- TAB_TSET_HI written in FREE (R480)
  (∀ (s : State) (hi : Nat), s.dev.timeSrc = 0 → s.dev.extStill = true → Runs (.tabTsetWrite 0 hi) s (fun e => e.rg TAB_TIME_LO
    = s.dev.rg TAB_TSET_LO % 2 ^ 32 ∧ e.rg TAB_TIME_HI = hi % 2 ^ 32 ∧ Keeps s.dev e (fun a => a = TAB_TIME_LO ∨ a =
    TAB_TIME_HI) ∧ SameUnits s.dev e)) ∧
  -- PPS_EDGE while LOCKED, within 1 us, SRC 1 (R84, R85)
  (∀ (s : State) (sec dt ref t l n : Nat) (off : Int), s.dev.timeSrc = 1 → s.dev.tlState = 2 → (t = (s.dev.slewPass (400000000 *
    sec + dt)).time ∧ off = Dev.phaseTicks t) → (-400 ≤ off ∧ off ≤ 400) → (s.dev.ppsLast = some l ∧ n = ((t : Int) - l -
    (s.dev.slew - (s.dev.slewPass (400000000 * sec + dt)).slew)).toNat) → Runs (.ppsEdge sec dt ref) s (fun e => e.rg
    TAB_FREQCORR = uOf 32 (clampI (-50000) 50000 (sInt 32 (s.dev.rg TAB_FREQCORR) + clampI (-(10 * (t - l) / 400000000 : Nat))
    (10 * (t - l) / 400000000 : Nat) (freqStep n))) ∧ e.rg TAB_PHERR = uOf 32 (off * 2500) ∧ e.slew = -off ∧ e.tlState = 2 ∧
    e.time = t ∧ e.ppsLast = some t ∧ Keeps s.dev e (fun a => TickReg a ∨ a = TAB_FREQCORR ∨ a = TAB_PHERR) ∧ SameUnits s.dev
    e)) ∧
  -- PPS_EDGE while LOCKED, within 1 us, SRC 2: the frequency by the 10 MHz input (R84, R85)
  (∀ (s : State) (sec dt ref t l : Nat) (off : Int), s.dev.timeSrc = 2 → s.dev.tlState = 2 → (t = (s.dev.slewPass (400000000 *
    sec + dt)).time ∧ off = Dev.phaseTicks t) → (-400 ≤ off ∧ off ≤ 400) → s.dev.ppsLast = some l → Runs (.ppsEdge sec dt ref) s
    (fun e => e.rg TAB_FREQCORR = uOf 32 (clampI (-50000) 50000 (sInt 32 (s.dev.rg TAB_FREQCORR) + clampI (-(10 * (t - l) /
    400000000 : Nat)) (10 * (t - l) / 400000000 : Nat) (freqStep ref))) ∧ e.rg TAB_PHERR = uOf 32 (off * 2500) ∧ e.slew = -off ∧
    e.tlState = 2 ∧ e.time = t ∧ e.ppsLast = some t ∧ Keeps s.dev e (fun a => TickReg a ∨ a = TAB_FREQCORR ∨ a = TAB_PHERR) ∧
    SameUnits s.dev e)) ∧
  -- PPS_EDGE while LOCKED, further off: HOLDOVER (R86)
  (∀ (s : State) (sec dt ref : Nat), (s.dev.timeSrc = 1 ∨ s.dev.timeSrc = 2) → s.dev.tlState = 2 → (Dev.phaseTicks
    (s.dev.slewPass (400000000 * sec + dt)).time < -400 ∨ 400 < Dev.phaseTicks (s.dev.slewPass (400000000 * sec + dt)).time) →
    Runs (.ppsEdge sec dt ref) s (fun e => e.tlState = 3 ∧ e.rg TAB_FREQCORR = s.dev.rg TAB_FREQCORR ∧ Keeps s.dev e (fun a =>
    TickReg a ∨ NoteReg a ∨ a = TAB_TLSTAT))) ∧
  -- PPS_EDGE, the third agreeing capture while ACQUIRING (R84, R564)
  (∀ (s : State) (sec dt ref t last : Nat), (s.dev.timeSrc = 1 ∨ s.dev.timeSrc = 2) → s.dev.tlState = 1 → (s.dev.ppsCorr = true
    ∧ s.dev.taiSet = true) → (t = (s.dev.slewPass (400000000 * sec + dt)).time ∧ s.dev.ppsLast = some last) → (t ≤ last +
    400000008 ∧ last + 399999992 ≤ t) → 2 ≤ s.dev.fld TAB_TLSTAT 4 2 → Runs (.ppsEdge sec dt ref) s (fun e => e.tlState = 2 ∧
    e.flag TAB_TLSTAT 8 = true ∧ e.time = s.dev.rg64 TAB_TAISEC_LO * 400000000 % 2 ^ 64 ∧ e.rg TAB_PHERR = 0 ∧ e.slew = 0 ∧
    Keeps s.dev e (fun a => TickReg a ∨ NoteReg a ∨ a = TAB_TLSTAT ∨ a = TAB_PHERR))) ∧
  -- PPS_LOSS (R86)
  (∀ (s : State), (s.dev.timeSrc = 1 ∨ s.dev.timeSrc = 2) → s.dev.tlState = 2 → Runs (.ppsLoss) s (fun e => e.tlState = 3 ∧ (∀
    l, s.dev.ppsLast = some l → s.dev.pwr.asleep = 0 → s.dev.time ≤ l + 800000000 → l + 800000000 < 2 ^ 64 → e.time = l +
    800000000) ∧ Keeps s.dev e (fun a => TickReg a ∨ NoteReg a ∨ a = TAB_TLSTAT))) ∧
  -- PPS_OUTPUT_EDGE (R87)
  (∀ (s : State), s.dev.flag TAB_TLCTL 4 = true → s.dev.tlState ≠ 1 → s.dev.pwr.asleep = 0 → s.dev.time + 400000000 < 2 ^ 64 →
    Runs (.ppsOutputEdge) s (fun e => e.pins.ppsOut = true ∧ e.out = s.dev.out ++ [.pin 1 1] ∧ e.time % 400000000 = 0 ∧
    s.dev.time ≤ e.time ∧ e.time < s.dev.time + 400000000 ∧ Keeps s.dev e (fun a => TickReg a) ∧ SameUnits s.dev e))

/-- PROFILE_LOAD writes the base record and the ladder derived from it into the cores it names and sets their PROFVALID bits;
  NEURON_LOAD writes the records' bytes and nothing else of memory; PROFILE_READ, NEURON_READ and NEURON_STATUS answer what is
  stored, NEURON_READ with CURRENT the caught-up records; NCOUNT is written where the records fit. -/
def Obligations.NeuronCommands : Prop :=
  -- PROFILE_LOAD into one core (R108, R138)
  (∀ (s : State) (h : Hdr) (pl : List Byte) (q : Nat), Accepted s.dev cProfileLoad h pl → NamesCore s.dev h.part (leAt pl 0 2) q
    → s.dev.still h.part = true → byteAt pl 2 < 64 → profileOk (pl.drop 8) = true → (profValid (pl.drop 8) = true →
    s.dev.ringsAgree q (byteAt pl 2) (profRing (pl.drop 8)) = true) → Runs (.profileLoad h pl) s (fun e => (e.core q).profiles =
    SMap.set [] (s.dev.core q).profiles (byteAt pl 2) (pl.drop 8 ++ ladderOf (pl.drop 8)) ∧ e.flag (if byteAt pl 2 < 32 then
    NEU_PROFVALID_LO q else NEU_PROFVALID_HI q) (byteAt pl 2 % 32) = profValid (pl.drop 8) ∧ (∀ k, k ≠ q → e.core k = s.dev.core
    k) ∧ Answered s.dev e 0x0201 h .ok [] ∧ Keeps s.dev e (fun a => BookReg a ∨ a = NEU_PROFVALID_LO q ∨ a = NEU_PROFVALID_HI
    q))) ∧
  -- PROFILE_LOAD into every usable core (R138)
  (∀ (s : State) (h : Hdr) (pl : List Byte), Accepted s.dev cProfileLoad h pl → leAt pl 0 2 = 0xFFFF → s.dev.still h.part = true
    → byteAt pl 2 < 64 → profileOk (pl.drop 8) = true → (profValid (pl.drop 8) = true → ∀ q, q ∈ s.dev.sitesOf h.part →
    s.dev.ringsAgree q (byteAt pl 2) (profRing (pl.drop 8)) = true) → Runs (.profileLoad h pl) s (fun e => (∀ q, q ∈
    s.dev.sitesOf h.part → SMap.get [] (e.core q).profiles (byteAt pl 2) = pl.drop 8 ++ ladderOf (pl.drop 8)) ∧ Answered s.dev e
    0x0201 h .ok [] ∧ SameMem s.dev e)) ∧
  -- PROFILE_READ (R137)
  (∀ (s : State) (h : Hdr) (pl : List Byte) (q : Nat), Accepted s.dev cProfileRead h pl → NamesCore s.dev h.part (leAt pl 0 2) q
    → byteAt pl 2 < 64 → Runs (.profileRead h pl) s (fun e => Answered s.dev e 0x0202 h .ok (padTo 576 (s.dev.profile q (byteAt
    pl 2))) ∧ Keeps s.dev e (fun a => BookReg a) ∧ SameUnits s.dev e)) ∧
  -- NEURON_LOAD (R139, R147)
  (∀ (s : State) (h : Hdr) (pl : List Byte) (q : Nat), Accepted s.dev cNeuronLoad h pl → NamesCore s.dev h.part (leAt pl 0 2) q
    → s.dev.still h.part = true → leAt pl 2 2 + leAt pl 4 2 ≤ s.dev.ncount q → (∀ k, k < leAt pl 4 2 → s.dev.recordFits q (leAt
    pl 2 2 + k) (leAt pl (8 + 16 * k) 16) = true) → Runs (.neuronLoad h pl) s (fun e => (∀ k, k < 16 * leAt pl 4 2 → e.mem.read
    (s.dev.recAddr q (leAt pl 2 2) + k) = pl.getD (8 + k) 0#8) ∧ MemKeeps s.dev e (fun a => s.dev.recAddr q (leAt pl 2 2) ≤ a ∧
    a < s.dev.recAddr q (leAt pl 2 2) + 16 * leAt pl 4 2) ∧ Answered s.dev e 0x0203 h .ok [] ∧ RegKeeps s.dev e (fun a =>
    BookReg a) ∧ SameUnits s.dev e)) ∧
  -- NEURON_READ of the stored records (R140)
  (∀ (s : State) (h : Hdr) (pl : List Byte) (q : Nat), Accepted s.dev cNeuronRead h pl → NamesCore s.dev h.part (leAt pl 0 2) q
    → bitAt (byteAt pl 6) 0 = false → leAt pl 2 2 + leAt pl 4 2 ≤ s.dev.ncount q → NoError s.dev (s.dev.recAddr q (leAt pl 2 2))
    (16 * leAt pl 4 2) → Fits s.dev h (16 * leAt pl 4 2) → Runs (.neuronRead h pl) s (fun e => Answered s.dev e 0x0204 h .ok
    ((upTo (leAt pl 4 2)).map (fun k => leBytes 16 (s.dev.readRec q (leAt pl 2 2 + k)))).flatten ∧ Keeps s.dev e (fun a =>
    BookReg a) ∧ SameUnits s.dev e)) ∧
  -- NEURON_READ with CURRENT, of a Muffled partition (R140)
  (∀ (s : State) (h : Hdr) (pl : List Byte) (q : Nat), Accepted s.dev cNeuronRead h pl → NamesCore s.dev h.part (leAt pl 0 2) q
    → bitAt (byteAt pl 6) 0 = true → s.dev.bstate h.part = 3 → leAt pl 2 2 + leAt pl 4 2 ≤ s.dev.ncount q → NoError s.dev
    (s.dev.recAddr q (leAt pl 2 2)) (16 * leAt pl 4 2) → Fits s.dev h (16 * leAt pl 4 2) → Runs (.neuronRead h pl) s (fun e =>
    Answered s.dev e 0x0204 h .ok ((upTo (leAt pl 4 2)).map (fun k => leBytes 16 (s.dev.currentRec q (leAt pl 2 2 + k)
    (s.dev.beat h.part)))).flatten ∧ Keeps s.dev e (fun a => BookReg a) ∧ SameUnits s.dev e)) ∧
  -- NEURON_READ of a record whose word has an error, which the read corrects or zeroes (R140, R172, R175)
  (∀ (s : State) (h : Hdr) (pl : List Byte) (q : Nat), Accepted s.dev cNeuronRead h pl → NamesCore s.dev h.part (leAt pl 0 2) q
    → bitAt (byteAt pl 6) 0 = false → leAt pl 4 2 = 1 → leAt pl 2 2 < s.dev.ncount q → SMap.get 0 s.dev.ecc (s.dev.recAddr q
    (leAt pl 2 2) + 8) = 0 → 0 < SMap.get 0 s.dev.ecc (s.dev.recAddr q (leAt pl 2 2)) → Fits s.dev h 16 → Runs (.neuronRead h
    pl) s (fun e => AnsweredLast e 0x0204 h .ok (leBytes 16 (if SMap.get 0 s.dev.ecc (s.dev.recAddr q (leAt pl 2 2)) = 1 then
    s.dev.readRec q (leAt pl 2 2) else 2 ^ 64 * (s.dev.readRec q (leAt pl 2 2) / 2 ^ 64))) ∧ SMap.get 0 e.ecc (s.dev.recAddr q
    (leAt pl 2 2)) = 0 ∧ e.rg (SYN_ECCCORR q) = (if SMap.get 0 s.dev.ecc (s.dev.recAddr q (leAt pl 2 2)) = 1 then satInc
    (s.dev.rg (SYN_ECCCORR q)) 1 % 2 ^ 32 else s.dev.rg (SYN_ECCCORR q)) ∧ e.rg (SYN_ECCUNC q) = (if SMap.get 0 s.dev.ecc
    (s.dev.recAddr q (leAt pl 2 2)) = 1 then s.dev.rg (SYN_ECCUNC q) else satInc (s.dev.rg (SYN_ECCUNC q)) 1 % 2 ^ 32))) ∧
  -- NEURON_STATUS (R137)
  (∀ (s : State) (h : Hdr) (pl : List Byte) (q : Nat), Accepted s.dev cNeuronStatus h pl → NamesCore s.dev h.part (leAt pl 0 2)
    q → Runs (.neuronStatus h pl) s (fun e => Answered s.dev e 0x0205 h .ok (s.dev.regBytes (NEU_CFG q) 16) ∧ Keeps s.dev e (fun
    a => BookReg a) ∧ SameUnits s.dev e)) ∧
  -- NCOUNT_WRITE where the records fit (R135, R144)
  (∀ (s : State) (f q v : Nat), q < 256 → WriteOk s.dev (.func f) (NEU_CFG q) → (∀ p, s.dev.regPart (q / 16) = some p →
    s.dev.still p = true) → (v % 65536 ≤ 32768 ∧ 16 * (v % 65536) ≤ s.dev.areaLen (SYN_PMREC q)) → (0x8000 * s.dev.fld
    (SYN_FLBASE q) 0 7 < 65536 * s.dev.fld (SYN_PMREC q) 0 6 ∨ 65536 * s.dev.fld (SYN_PMREC q) 0 6 + 16 * (v % 65536) ≤ 0x8000 *
    s.dev.fld (SYN_FLBASE q) 0 7) → Runs (.ncountWrite f q v) s (fun e => e.ncount q = v % 65536 ∧ Keeps s.dev e (fun a => a =
    NEU_CFG q) ∧ SameUnits s.dev e))

/-- Integrate ends with its beat noted or stopped at a full fire log, and goes on when an entry is released; FINAL is reported
  once lookups are issued and packets sent. Deliver empties the near slot, and with no far entry left closes it; a far row
  leaves the outstanding list when its data arrives or its time ends. The scrubber visits one word, corrects a single-bit error,
  and moves on. -/
def Obligations.NeuronAndRowEngines : Prop :=
  -- INTEGRATE (R57, R111, R128)
  (∀ (s : State) (q p n : Nat), q < 256 → s.dev.regPart (q / 16) = some p → s.dev.running p = true → (s.dev.logOf q).isSome =
    true → n = ((s.dev.core q).ptr + 2 ^ 48 - 1) % 2 ^ 48 → ((s.dev.core q).integ ≠ some n ∧ (s.dev.core q).integ ≠ none ∧
    (s.dev.core q).stall = none) → (s.dev.region (q / 16)).started = true → Runs (.integrate q) s (fun e => ((e.core q).integ =
    some n ∧ (e.core q).stall = none ∨ (e.core q).stall.isSome = true ∧ (e.core q).integ = (s.dev.core q).integ) ∧ (e.core
    q).ptr = (s.dev.core q).ptr)) ∧
  -- FIRE_LOG_STALL_END (R128)
  (∀ (s : State) (q p cycles : Nat) (st : Stall), q < 256 → (s.dev.core q).stall = some st → s.dev.regPart (q / 16) = some p →
    s.dev.running p = true → s.dev.rg (NEU_FLCOUNT q) ≠ 4096 → Runs (.fireLogStallEnd q cycles) s (fun e => e.rg (NEU_FLSTALL q)
    = satInc (s.dev.rg (NEU_FLSTALL q)) cycles % 2 ^ 32 ∧ ((e.core q).integ = some st.beat ∧ (e.core q).stall = none ∨ (e.core
    q).stall.isSome = true ∧ (e.core q).integ = (s.dev.core q).integ))) ∧
  -- FINAL_REPORT once its die has no packet of the beat left to send (R58)
  (∀ (s : State) (q p l n : Nat), q < 256 → s.dev.regPart (q / 16) = some p → s.dev.logOf q = some l → (s.dev.core q).integ =
    some n → s.dev.running p = true → (s.dev.core q).final ≠ some n → s.dev.nextLookup q = none → ((s.dev.flushBeat p
    n).packs.any (fun x => x.router == dieOf (q / 16) && x.part == p && x.ebeat == n % 65536)) = false → Runs (.finalReport q) s
    (fun e => (e.core q).final = some n ∧ (e.core q).hang = 0 ∧ (e.core q).integ = some n ∧ SameMem s.dev e)) ∧
  -- FINAL_REPORT of a device with no pack open (R58)
  (∀ (s : State) (q p l n : Nat), q < 256 → s.dev.regPart (q / 16) = some p → s.dev.logOf q = some l → (s.dev.core q).integ =
    some n → s.dev.running p = true → (s.dev.core q).final ≠ some n → s.dev.nextLookup q = none → (s.dev.packs = [] ∧
    s.dev.tunPacks = []) → Runs (.finalReport q) s (fun e => (e.core q).final = some n ∧ RegKeeps s.dev e (fun _ => False) ∧
    SameMem s.dev e)) ∧
  -- DELIVER (R166, R168, R200)
  (∀ (s : State) (q p : Nat), q < 256 → s.dev.regPart (q / 16) = some p → s.dev.mayDeliver q p = true → Runs (.deliver q) s (fun
    e => ((e.core q).farOut = [] → e.nearCount q ((s.dev.core q).ptr % 64) = 0) ∧ (s.dev.farCount q (s.dev.core q).ptr = 0 →
    (e.core q).farOut = [] → (e.core q).ptr = ((s.dev.core q).ptr + 1) % 2 ^ 48) ∧ (0 < s.dev.farCount q (s.dev.core q).ptr ∨
    (e.core q).farOut ≠ [] → (e.core q).ptr = (s.dev.core q).ptr))) ∧
  -- FAR_DATA_ARRIVAL (R166, R168)
  (∀ (s : State) (q p k fw : Nat) (x : FarRow), q < 256 → (s.dev.core q).farOut[k]? = some x → s.dev.regPart (q / 16) = some p →
    s.dev.running p = true → x.lost = false → Runs (.farDataArrival q k fw) s (fun e => (e.core q).farOut.length = (s.dev.core
    q).farOut.length - 1 ∧ (x.bad = true ∨ fmtPlastic x.fmt = false → (e.core q).farOut = removeAt (s.dev.core q).farOut k) ∧
    (x.bad = true → e.rg (SYN_ECCUNC q) = satInc (s.dev.rg (SYN_ECCUNC q)) 1 % 2 ^ 32 ∧ SameMem s.dev e) ∧ (x.bad = false →
    bitAt (hdrFlags (x.data.take (fmtHeader x.fmt))) 0 = false → e.rg (SYN_ROWINVAL q) = satInc (s.dev.rg (SYN_ROWINVAL q)) 1 %
    2 ^ 32 ∧ SameMem s.dev e))) ∧
  -- FAR_ROW_TIMEOUT (R170)
  (∀ (s : State) (q k fw : Nat) (x : FarRow), q < 256 → (s.dev.core q).farOut[k]? = some x → s.dev.engineRuns (q / 16) = true →
    Runs (.farRowTimeout q k fw) s (fun e => (e.core q).farOut = removeAt (s.dev.core q).farOut k ∧ e.rg (SYN_FARTIMEOUT q) =
    satInc (s.dev.rg (SYN_FARTIMEOUT q)) 1 % 2 ^ 32 ∧ SameMem s.dev e)) ∧
  -- CORE_STORE_SCRUB of a word with no uncorrectable error (R172, R176)
  (∀ (s : State) (q : Nat), q < 256 → SMap.get 0 s.dev.ecc (csBase q + 8 * (s.dev.core q).scrub) ≤ 1 → Runs (.coreStoreScrub q)
    s (fun e => (e.core q).scrub = (if 8 * (s.dev.core q).scrub + 8 < 0x300000 then (s.dev.core q).scrub + 1 else 0) ∧ SMap.get
    0 e.ecc (csBase q + 8 * (s.dev.core q).scrub) = 0 ∧ e.rg (SYN_ECCCORR q) = (if SMap.get 0 s.dev.ecc (csBase q + 8 *
    (s.dev.core q).scrub) = 1 then satInc (s.dev.rg (SYN_ECCCORR q)) 1 % 2 ^ 32 else s.dev.rg (SYN_ECCCORR q)) ∧ RegKeeps s.dev
    e (fun a => a = SYN_ECCCORR q) ∧ SameMem s.dev e)) ∧
  -- CORE_STORE_SCRUB of an uncorrectable word (R173, R175, R176)
  (∀ (s : State) (q : Nat), q < 256 → 2 ≤ SMap.get 0 s.dev.ecc (csBase q + 8 * (s.dev.core q).scrub) → Runs (.coreStoreScrub q)
    s (fun e => (e.core q).scrub = (if 8 * (s.dev.core q).scrub + 8 < 0x300000 then (s.dev.core q).scrub + 1 else 0) ∧ e.rg
    (SYN_ECCUNC q) = satInc (s.dev.rg (SYN_ECCUNC q)) 1 % 2 ^ 32 ∧ e.flag (SYN_STAT q) 4 = true))

/-- PAGEMAP_SET of an IDLE partition writes a core's area, zone and band registers; PAGEMAP_READ answers them. ROW_LOAD writes a
  row image's header and body where the row address resolves, and removes its poison; ROW_READ answers the stored image.
  SYN_STATUS and POISON_LIST answer the registers. -/
def Obligations.SynapseCommands : Prop :=
  -- PAGEMAP_SET of one core (R143, R151, R184)
  (∀ (s : State) (h : Hdr) (pl : List Byte) (q : Nat), Accepted s.dev cPagemapSet h pl → NamesCore s.dev h.part (leAt pl 0 2) q
    → s.dev.bstate h.part = 0 → pageMapOk pl (s.dev.ncount q) = true → s.dev.bandsAgree q pl = true → Runs (.pagemapSet h pl) s
    (fun e => e.rg (SYN_PMREC q) = 256 * pmCount pl 0 + pmBase pl 0 ∧ e.rg (SYN_PMRING q) = 256 * pmCount pl 1 + pmBase pl 1 ∧
    e.rg (SYN_PMREV q) = 256 * pmCount pl 2 + pmBase pl 2 ∧ e.rg (SYN_PMALM q) = 256 * pmCount pl 3 + pmBase pl 3 ∧ e.rg
    (SYN_PMROW q) = 256 * pmCount pl 4 + pmBase pl 4 ∧ e.rg (SYN_FLBASE q) = byteAt pl 14 ∧ e.rg (SYN_BAND16 q) = leAt pl 16 2 ∧
    e.rg (SYN_BAND8 q) = leAt pl 18 2 ∧ e.rg (SYN_BAND4 q) = leAt pl 20 2 ∧ e.rg (ALM_NCAP q) = min 2048 (128 * pmCount pl 3) ∧
    (∀ z, z < 8 → e.fld (SYN_ZROWS q z) 0 16 = (if pmZoneValid pl z then pmZoneRows pl z else 0) % 2 ^ 16) ∧ e.rg (NEU_FLCOUNT
    q) = 0 ∧ Answered s.dev e 0x0301 h .ok [] ∧ MemKeeps s.dev e (fun a => csBase q ≤ a))) ∧
  -- PAGEMAP_READ (R183)
  (∀ (s : State) (h : Hdr) (pl : List Byte) (q : Nat), Accepted s.dev cPagemapRead h pl → NamesCore s.dev h.part (leAt pl 0 2) q
    → Runs (.pagemapRead h pl) s (fun e => Answered s.dev e 0x0302 h .ok (pl.take 2 ++ zeros 2 ++ ([SYN_PMREC q, SYN_PMRING q,
    SYN_PMREV q, SYN_PMALM q, SYN_PMROW q].map (fun a => leBytes 1 (s.dev.fld a 0 6) ++ leBytes 1 (s.dev.fld a 8 6))).flatten ++
    leBytes 1 (s.dev.rg (SYN_FLBASE q)) ++ zeros 1 ++ leBytes 2 (s.dev.rg (SYN_BAND16 q)) ++ leBytes 2 (s.dev.rg (SYN_BAND8 q))
    ++ leBytes 2 (s.dev.rg (SYN_BAND4 q)) ++ zeros 10 ++ ((upTo 8).map (fun z => leBytes 1 (s.dev.fld (SYN_ZCFG q z) 31 1 * 128
    + s.dev.fld (SYN_ZCFG q z) 16 3) ++ leBytes 1 (s.dev.fld (SYN_ZCFG q z) 0 6) ++ leBytes 1 (s.dev.fld (SYN_ZCFG q z) 8 6) ++
    zeros 1)).flatten) ∧ Keeps s.dev e (fun a => BookReg a) ∧ SameUnits s.dev e)) ∧
  -- ROW_LOAD (R152, R174, R185)
  (∀ (s : State) (h : Hdr) (pl : List Byte) (q : Nat) (loc : RowLoc) (img : List Byte), Accepted s.dev cRowLoad h pl → NamesCore
    s.dev h.part (leAt pl 0 2) q → s.dev.resolve q (leAt pl 4 4) = some loc → img = (if fmtPlastic loc.fmt then imageFresh
    loc.fmt (pl.drop 12) else pl.drop 12) → (pl.drop 12).length = (if fmtSparse loc.fmt then fmtHeader loc.fmt + fmtEntry
    loc.fmt * hdrCount (pl.drop 12) else fmtHeader loc.fmt + fmtBody loc.fmt) → imageClean loc.fmt (pl.drop 12) = true →
    (fmtSparse loc.fmt = true → (bitAt (hdrFlags (pl.drop 12)) 0 = true → 1 ≤ hdrCount (pl.drop 12) ∧ hdrCount (pl.drop 12) ≤
    fmtMax loc.fmt) ∧ loc.body + fmtEntry loc.fmt * hdrCount (pl.drop 12) ≤ loc.lim) → (loc.hdr + fmtHeader loc.fmt ≤ loc.body ∨
    loc.body + (pl.length - 12) ≤ loc.hdr) → Runs (.rowLoad h pl) s (fun e => (∀ k, k < fmtHeader loc.fmt → e.mem.read (loc.hdr
    + k) = img.getD k 0#8) ∧ (∀ k, k < pl.length - 12 - fmtHeader loc.fmt → e.mem.read (loc.body + k) = img.getD (fmtHeader
    loc.fmt + k) 0#8) ∧ img.length = pl.length - 12 ∧ MemKeeps s.dev e (fun a => (loc.hdr ≤ a ∧ a < loc.hdr + fmtHeader loc.fmt)
    ∨ (loc.body ≤ a ∧ a < loc.body + (pl.length - 12 - fmtHeader loc.fmt))) ∧ (s.dev.poisonAt q (leAt pl 4 4) = none → e.rg
    (SYN_POISONCNT q) = s.dev.rg (SYN_POISONCNT q)) ∧ Answered s.dev e 0x0303 h .ok [] ∧ SameUnits s.dev e)) ∧
  -- ROW_READ of a packed row, or of a sparse one whose count is in range (R183)
  (∀ (s : State) (h : Hdr) (pl : List Byte) (q : Nat) (loc : RowLoc), Accepted s.dev cRowRead h pl → NamesCore s.dev h.part
    (leAt pl 0 2) q → leAt pl 4 4 < 2 ^ 17 → s.dev.resolve q (leAt pl 4 4) = some loc → (fmtSparse loc.fmt = true → 1 ≤ hdrCount
    (s.dev.rdB loc.hdr (fmtHeader loc.fmt)) ∧ hdrCount (s.dev.rdB loc.hdr (fmtHeader loc.fmt)) ≤ fmtMax loc.fmt ∧ loc.body +
    fmtEntry loc.fmt * hdrCount (s.dev.rdB loc.hdr (fmtHeader loc.fmt)) ≤ loc.lim) → NoError s.dev loc.hdr (fmtHeader loc.fmt) →
    NoError s.dev loc.body (if fmtSparse loc.fmt then fmtEntry loc.fmt * hdrCount (s.dev.rdB loc.hdr (fmtHeader loc.fmt)) else
    fmtBody loc.fmt) → Fits s.dev h (fmtHeader loc.fmt + (if fmtSparse loc.fmt then fmtEntry loc.fmt * hdrCount (s.dev.rdB
    loc.hdr (fmtHeader loc.fmt)) else fmtBody loc.fmt)) → Runs (.rowRead h pl) s (fun e => Answered s.dev e 0x0304 h .ok
    (s.dev.rdB loc.hdr (fmtHeader loc.fmt) ++ s.dev.rdB loc.body (if fmtSparse loc.fmt then fmtEntry loc.fmt * hdrCount
    (s.dev.rdB loc.hdr (fmtHeader loc.fmt)) else fmtBody loc.fmt)) ∧ Keeps s.dev e (fun a => BookReg a) ∧ SameUnits s.dev e)) ∧
  -- SYN_STATUS (R183)
  (∀ (s : State) (h : Hdr) (pl : List Byte) (q : Nat), Accepted s.dev cSynStatus h pl → NamesCore s.dev h.part (leAt pl 0 2) q →
    Runs (.synStatus h pl) s (fun e => Answered s.dev e 0x0305 h .ok (s.dev.regBytes (SYN_STAT q) 64) ∧ Keeps s.dev e (fun a =>
    BookReg a) ∧ SameUnits s.dev e)) ∧
  -- POISON_LIST (R174, R183)
  (∀ (s : State) (h : Hdr) (pl : List Byte) (q : Nat), Accepted s.dev cPoisonList h pl → NamesCore s.dev h.part (leAt pl 0 2) q
    → Runs (.poisonList h pl) s (fun e => Answered s.dev e 0x0306 h .ok (leBytes 4 (s.dev.rg (SYN_POISONCNT q)) ++
    s.dev.regBytes (SYN_POISON q 0) 64) ∧ Keeps s.dev e (fun a => BookReg a) ∧ SameUnits s.dev e))

/-- Adding c to the input of a neuron with a ring, whose slot word has no error, leaves in its slot of the beat the 16-bit
  saturated sum of what was there and c, counts a saturation in SYN_RINGSAT exactly when the sum was out of range, marks the
  neuron's group as touched, and leaves every other byte of memory. -/
def Obligations.ContributionsSaturate : Prop :=
  ∀ (d : Dev) (q i b n ring : Nat) (c : Int), 1 < n → ring % 2 = 0 → SMap.get 0 d.ecc (8 * ((ring + 2 * (b % n)) / 8)) = 0 →
    (d.addSlot q i b (n, ring) c).rdN (ring + 2 * (b % n)) 2 = uOf 16 (satS 16 (sInt 16 (d.rdN (ring + 2 * (b % n)) 2) + c)) ∧
    MemKeeps d (d.addSlot q i b (n, ring) c) (fun a => a = ring + 2 * (b % n) ∨ a = ring + 2 * (b % n) + 1) ∧ (d.addSlot q i b
    (n, ring) c).rg (SYN_RINGSAT q) = (if satS 16 (sInt 16 (d.rdN (ring + 2 * (b % n)) 2) + c) = sInt 16 (d.rdN (ring + 2 * (b %
    n)) 2) + c then d.rg (SYN_RINGSAT q) else satInc (d.rg (SYN_RINGSAT q)) 1 % 2 ^ 32) ∧ SMap.get false ((d.addSlot q i b (n,
    ring) c).core q).touch (1024 * (b % 16) + i / 32) = true


/-- For an LIF or ALIF record within its widths, catch-up and one beat leave V, IE and II in 24 signed bits and A in 0 to
  65,535, whatever the profile, the input and the time passed; while refractory, or of an input below threshold, no spike is
  emitted; a catch-up over no beat leaves the state. -/
def Obligations.NeuronUpdateInRange : Prop :=
  (∀ (pr : List Byte) (kind refr delta : Nat) (st : NState) (u : Int) (rf : Bool), kind ≤ 1 → sMin 24 ≤ st.v → st.v ≤ sMax 24 →
    sMin 24 ≤ st.ie → st.ie ≤ sMax 24 → sMin 24 ≤ st.ii → st.ii ≤ sMax 24 → 0 ≤ st.a → st.a ≤ 65535 → (kind = 0 → st.a = 0) →
    (sMin 24 ≤ (beatLif pr kind (catchLif pr kind st refr delta) u rf).s.v ∧ (beatLif pr kind (catchLif pr kind st refr delta) u
    rf).s.v ≤ sMax 24 ∧ sMin 24 ≤ (beatLif pr kind (catchLif pr kind st refr delta) u rf).s.ie ∧ (beatLif pr kind (catchLif pr
    kind st refr delta) u rf).s.ie ≤ sMax 24 ∧ sMin 24 ≤ (beatLif pr kind (catchLif pr kind st refr delta) u rf).s.ii ∧ (beatLif
    pr kind (catchLif pr kind st refr delta) u rf).s.ii ≤ sMax 24 ∧ 0 ≤ (beatLif pr kind (catchLif pr kind st refr delta) u
    rf).s.a ∧ (beatLif pr kind (catchLif pr kind st refr delta) u rf).s.a ≤ 65535)) ∧
  (∀ (pr : List Byte) (kind : Nat) (c : Caught) (u : Int), (beatLif pr kind c u true).fire = none) ∧
  (∀ (pr : List Byte) (kind refr : Nat) (st : NState), (catchLif pr kind st refr 0).s = st ∧ (catchLif pr kind st refr 0).refr =
    refr)


/-- AXON_RANGE, AXON_CORE_BASE and AXON_LOAD write the range, the core's base and the checked entries, AXON_READ and AXN_STATUS
  answer them. A lookup of an OUTPUT entry queues its SPIKE record, one of an EVENT entry of this device packs its record; an
  invalid entry or index is counted. A dropped Peal copy is counted; a packet whose COALESCE time ends leaves. -/
def Obligations.AxonTables : Prop :=
  -- AXON_RANGE (R232)
  (∀ (s : State) (h : Hdr) (pl : List Byte), Accepted s.dev cAxonRange h pl → s.dev.still h.part = true → byteAt pl 0 < 2 → leAt
    pl 4 4 ≤ leAt pl 8 4 → leAt pl 8 4 ≤ 4194303 → (∀ k, k < 16 → k ≠ h.part → s.dev.flag (AXN_PBASE (byteAt pl 0) k) 31 = true
    → s.dev.fld (AXN_PLIMIT (byteAt pl 0) k) 0 22 < leAt pl 4 4 ∨ leAt pl 8 4 < s.dev.fld (AXN_PBASE (byteAt pl 0) k) 0 22) →
    Runs (.axonRange h pl) s (fun e => e.rg (AXN_PBASE (byteAt pl 0) h.part) = 2 ^ 31 + leAt pl 4 4 ∧ e.rg (AXN_PLIMIT (byteAt
    pl 0) h.part) = leAt pl 8 4 ∧ Answered s.dev e 0x0401 h .ok [] ∧ Keeps s.dev e (fun a => BookReg a ∨ a = AXN_PBASE (byteAt
    pl 0) h.part ∨ a = AXN_PLIMIT (byteAt pl 0) h.part) ∧ SameUnits s.dev e)) ∧
  -- AXON_CORE_BASE (R232)
  (∀ (s : State) (h : Hdr) (pl : List Byte), Accepted s.dev cAxonCoreBase h pl → s.dev.still h.part = true → leAt pl 0 2 < 256 →
    s.dev.owns h.part (leAt pl 0 2 / 16) = true → (leAt pl 4 4 ≠ 0xFFFFFFFF → s.dev.inRange (leAt pl 0 2 / 128) h.part (leAt pl
    4 4) = true) → Runs (.axonCoreBase h pl) s (fun e => e.rg (AXN_CBASE (leAt pl 0 2 / 128) (leAt pl 0 2 % 128)) = (if leAt pl
    4 4 = 0xFFFFFFFF then 0 else 2 ^ 31 + leAt pl 4 4) ∧ Answered s.dev e 0x0402 h .ok [] ∧ Keeps s.dev e (fun a => BookReg a ∨
    a = AXN_CBASE (leAt pl 0 2 / 128) (leAt pl 0 2 % 128)) ∧ SameUnits s.dev e)) ∧
  -- AXON_LOAD (R192)
  (∀ (s : State) (h : Hdr) (pl : List Byte), Accepted s.dev cAxonLoad h pl → byteAt pl 0 < 2 → (0 < leAt pl 8 4 → s.dev.inRange
    (byteAt pl 0) h.part (leAt pl 4 4) = true ∧ s.dev.inRange (byteAt pl 0) h.part (leAt pl 4 4 + leAt pl 8 4 - 1) = true) → (∀
    k, k < leAt pl 8 4 → s.dev.axonOk (byteAt pl 0) h.part (leAt pl (16 + 8 * k) 8) = true) → Runs (.axonLoad h pl) s (fun e =>
    (∀ k, k < 8 * leAt pl 8 4 → e.mem.read (axAddr (byteAt pl 0) (leAt pl 4 4) + k) = pl.getD (16 + k) 0#8) ∧ MemKeeps s.dev e
    (fun a => axAddr (byteAt pl 0) (leAt pl 4 4) ≤ a ∧ a < axAddr (byteAt pl 0) (leAt pl 4 4) + 8 * leAt pl 8 4) ∧ (∀ k, k <
    leAt pl 8 4 → SMap.get 0 e.ecc (axAddr (byteAt pl 0) (leAt pl 4 4) + 8 * k) = 0) ∧ Answered s.dev e 0x0403 h .ok [] ∧
    RegKeeps s.dev e (fun a => BookReg a) ∧ SameUnits s.dev e)) ∧
  -- AXON_READ (R232)
  (∀ (s : State) (h : Hdr) (pl : List Byte), Accepted s.dev cAxonRead h pl → byteAt pl 0 < 2 → (0 < leAt pl 8 4 → s.dev.inRange
    (byteAt pl 0) h.part (leAt pl 4 4) = true ∧ s.dev.inRange (byteAt pl 0) h.part (leAt pl 4 4 + leAt pl 8 4 - 1) = true) →
    leAt pl 8 4 ≤ 131072 → Fits s.dev h (8 * leAt pl 8 4) → Runs (.axonRead h pl) s (fun e => Answered s.dev e 0x0404 h .ok
    (s.dev.rdB (axAddr (byteAt pl 0) (leAt pl 4 4)) (8 * leAt pl 8 4)) ∧ Keeps s.dev e (fun a => BookReg a) ∧ SameUnits s.dev
    e)) ∧
  -- AXN_STATUS (R232)
  (∀ (s : State) (h : Hdr) (pl : List Byte), Accepted s.dev cAxnStatus h pl → byteAt pl 0 < 2 → Runs (.axnStatus h pl) s (fun e
    => Answered s.dev e 0x040B h .ok (s.dev.regBytes (AXN_STAT (byteAt pl 0)) 10) ∧ Keeps s.dev e (fun a => BookReg a) ∧
    SameUnits s.dev e)) ∧
  -- AXON_LOOKUP of a direct entry with no error (R186, R190, R195, R220)
  (∀ (s : State) (q p n pos i g now beat x : Nat), q < 256 → s.dev.nextLookup q = some pos → s.dev.logOf q = some n →
    s.dev.regPart (q / 16) = some p → s.dev.choked p = false → s.dev.flag (AXN_CBASE (dieOf (q / 16)) (n % 128)) 31 = true →
    s.dev.inRange (dieOf (q / 16)) p (s.dev.fld (AXN_CBASE (dieOf (q / 16)) (n % 128)) 0 22 + i) = true → SMap.get 0 s.dev.ecc
    (axAddr (dieOf (q / 16)) (s.dev.fld (AXN_CBASE (dieOf (q / 16)) (n % 128)) 0 22 + i)) = 0 → i = s.dev.rdN (s.dev.flBase q +
    8 * pos) 2 % 32768 → g = (s.dev.mem.read (s.dev.flBase q + 8 * pos + 2)).toNat → now = (s.dev.region (q / 16)).beat → beat =
    beatAdd now (beatDelta (s.dev.rdN (s.dev.flBase q + 8 * pos + 4) 2) now) → x = s.dev.rdN (axAddr (dieOf (q / 16)) (s.dev.fld
    (AXN_CBASE (dieOf (q / 16)) (n % 128)) 0 22 + i)) 8 → Runs (.axonLookup q) s (fun e => e.rg64 (AXN_LOOKUP_LO (dieOf (q /
    16))) = wrap64 (s.dev.rg64 (AXN_LOOKUP_LO (dieOf (q / 16)))) 1 ∧ (axKind x = 5 → entryClean x = true → (e.part p).outq =
    (s.dev.part p).outq ++ [.spike (spikeRec (bitsOf x 52 8) g n i beat (bitsOf x 0 32)) (beat % 65536) (n / 16)]) ∧ (axKind x =
    1 → entryClean x = true → bitsOf x 51 9 = s.dev.devId → s.dev.flag FLT_STAT 4 = false → (∃ ev, ev ∈ e.net ++ (e.packs.map
    Pack.evs).flatten ∧ ev = ⟨bitsOf x 43 8, bitsOf x 26 17, bitsOf x 12 12, g, p, 0, bitsOf x 24 2, bitsOf x 1 11, beat %
    65536, 0, 0⟩)) ∧ (axKind x = 0 ∨ entryClean x = false → e.rg (AXN_INVCNT (dieOf (q / 16))) = satInc (s.dev.rg (AXN_INVCNT
    (dieOf (q / 16)))) 1 % 2 ^ 32) ∧ SameMem s.dev e)) ∧
  -- AXON_LOOKUP outside the partition's range (R187)
  (∀ (s : State) (q p n pos : Nat), q < 256 → s.dev.nextLookup q = some pos → s.dev.logOf q = some n → s.dev.regPart (q / 16) =
    some p → s.dev.choked p = false → s.dev.flag (AXN_CBASE (dieOf (q / 16)) (n % 128)) 31 = true → s.dev.inRange (dieOf (q /
    16)) p (s.dev.fld (AXN_CBASE (dieOf (q / 16)) (n % 128)) 0 22 + s.dev.rdN (s.dev.flBase q + 8 * pos) 2 % 32768) = false →
    Runs (.axonLookup q) s (fun e => e.rg (AXN_RANGECNT (dieOf (q / 16))) = satInc (s.dev.rg (AXN_RANGECNT (dieOf (q / 16)))) 1
    % 2 ^ 32 ∧ e.flag (AXN_STAT (dieOf (q / 16))) 2 = true ∧ SameMem s.dev e)) ∧
  -- PEAL_COPY_DROP of a copy that waits at the router: that copy alone goes (R194)
  (∀ (s : State) (die dev : Nat) (ev : Event), die < 2 → ev.part < 16 → (s.dev.packs.any (fun x => x.router == die && x.dev ==
    dev && x.evs.contains ev) = true ∨ dev = s.dev.devId ∧ s.dev.net.contains ev = true) → Runs (.pealCopyDrop die ⟨dev, ev⟩) s
    (fun e => ((e.packs.map Pack.evs).flatten ++ e.net).length + 1 = ((s.dev.packs.map Pack.evs).flatten ++ s.dev.net).length ∧
    e.packs.filter (fun x => ! (x.router == die && x.dev == dev)) = s.dev.packs.filter (fun x => ! (x.router == die && x.dev ==
    dev)) ∧ e.rg (AXN_PEALDROP die) = satInc (s.dev.rg (AXN_PEALDROP die)) 1 % 2 ^ 32 ∧ RegKeeps s.dev e (fun a => a =
    AXN_PEALDROP die ∨ a = OBS_PFILED_LO ev.part ∨ a = OBS_PFILED_HI ev.part ∨ a = TAB_LATEFILE ev.part) ∧ SameMem s.dev e)) ∧
  -- PEAL_COPY_DROP of a copy that has gone on (R194)
  (∀ (s : State) (die dev : Nat) (ev : Event), s.dev.packs.any (fun x => x.router == die && x.dev == dev && x.evs.contains ev) =
    false → (dev = s.dev.devId → s.dev.net.contains ev = false) → Runs (.pealCopyDrop die ⟨dev, ev⟩) s (fun e => e.packs =
    s.dev.packs ∧ e.net = s.dev.net ∧ Keeps s.dev e (fun _ => False) ∧ SameUnits s.dev e)) ∧
  -- PACKET_COALESCE_EXPIRY of a packet for this device (R237)
  (∀ (s : State) (k : Nat) (x : Pack), s.dev.packs[k]? = some x → x.dev = s.dev.devId → Runs (.packetCoalesceExpiry k) s (fun e
    => e.packs = removeAt s.dev.packs k ∧ e.net = (if routerDie x.router ≠ dieOf x.reg ∧ s.dev.flag FLT_STAT 4 = true then
    s.dev.net else s.dev.net ++ x.evs) ∧ SameMem s.dev e ∧ SameUnits s.dev e)) ∧
  -- PACKET_COALESCE_EXPIRY of a packet for another device, to which no link leads (R237, R247)
  (∀ (s : State) (k dim dir dl : Nat) (x : Pack), s.dev.packs[k]? = some x → x.dev ≠ s.dev.devId → routerDie x.router < 2 →
    s.dev.route (routerDie x.router) (x.dev % 512) 3 0 = some (dim, dir, dl) → s.dev.linkOf dim dir (vcOf 1 1 dl) = none → Runs
    (.packetCoalesceExpiry k) s (fun e => e.rg (FAB_NOROUTE (routerDie x.router)) = satInc (s.dev.rg (FAB_NOROUTE (routerDie
    x.router))) 1 % 2 ^ 32 ∧ e.flag (FAB_DSTAT (routerDie x.router)) 2 = true ∧ e.packs = removeAt s.dev.packs k ∧ e.net =
    s.dev.net ∧ RegKeeps s.dev e (fun a => LinkReg a) ∧ SameMem s.dev e ∧ SameUnits s.dev e)) ∧
  -- PACKET_COALESCE_EXPIRY of a packet for another device: the EVENTS packet leaves or waits at its port (R237, R239, R243)
  (∀ (s : State) (k dim dir dl j : Nat) (x : Pack), s.dev.packs[k]? = some x → x.dev ≠ s.dev.devId → routerDie x.router < 2 →
    s.dev.route (routerDie x.router) (x.dev % 512) 3 0 = some (dim, dir, dl) → s.dev.linkOf dim dir (vcOf 1 1 dl) = some j →
    s.dev.flag FLT_STAT 4 = false → Runs (.packetCoalesceExpiry k) s (fun e => e.packs = removeAt s.dev.packs k ∧ e.net =
    s.dev.net ∧ SentOn e j (splice (packetOf 1 1 x.dev x.reg s.dev.devId x.part 0 0 (leBytes 2 x.ebeat ++ leBytes 2 (x.evs.map
    Event.words).sum) (x.evs.map Event.bytes).flatten) 1 (leBytes 1 (1 + 8 * dl + 16 * dir))) ∧ RegKeeps s.dev e (fun a =>
    LinkReg a) ∧ SameMem s.dev e ∧ SameUnits s.dev e))

/-- ALMANAC_CONFIG empties the near and far windows of the partition's regions, gives the far window its banks and sets the late
  policy; ALMANAC_READ of a Muffled partition answers the pending records asked for, ALMANAC_LOAD files a record due in the near
  window in its slot. READOUT_CONFIG names the readout region, its banks and exports and clears both frames; READOUT_READ
  answers slots of the last closed frame. -/
def Obligations.AlmanacAndReadoutCommands : Prop :=
  -- ALMANAC_CONFIG (R234)
  (∀ (s : State) (h : Hdr) (pl : List Byte), Accepted s.dev cAlmanacConfig h pl → s.dev.still h.part = true → byteAt pl 1 ≤ 8 →
    (∀ r, r < 16 → s.dev.owns h.part r = true → s.dev.banksFree r (byteAt pl 0) (byteAt pl 1) 3 = true) → Runs (.almanacConfig h
    pl) s (fun e => (∀ r, r < 16 → s.dev.owns h.part r = true → e.rg (ALM_FCFG r) = (if byteAt pl 1 = 0 then 0 else 2 ^ 31) + 16
    * byteAt pl 1 + byteAt pl 0 % 16 ∧ e.rg (ALM_FFREE r) = (if byteAt pl 1 = 0 then 0 else 512 * byteAt pl 1 - 64) ∧ (e.region
    r).far = [] ∧ e.flag (ALM_LATECFG r) 0 = bitAt (byteAt pl 2) 0 ∧ ∀ x, x ∈ s.dev.coresOf r → ∀ j, j < 64 → e.nearCount x.2 j
    = 0) ∧ Answered s.dev e 0x0405 h .ok [] ∧ SameMem s.dev e)) ∧
  -- ALMANAC_READ (R233)
  (∀ (s : State) (h : Hdr) (pl : List Byte) (q : Nat), Accepted s.dev cAlmanacRead h pl → NamesCore s.dev h.part (leAt pl 0 2) q
    → s.dev.bstate h.part = 3 → Fits s.dev h (8 + (((s.dev.pendings q).drop (leAt pl 4 4)).take (leAt pl 8 4)).flatten.length) →
    Runs (.almanacRead h pl) s (fun e => Answered s.dev e 0x0406 h .ok (leBytes 4 (s.dev.pendings q).length ++ leBytes 4
    (((s.dev.pendings q).drop (leAt pl 4 4)).take (leAt pl 8 4)).length ++ (((s.dev.pendings q).drop (leAt pl 4 4)).take (leAt
    pl 8 4)).flatten) ∧ Keeps s.dev e (fun a => BookReg a) ∧ SameUnits s.dev e)) ∧
  -- ALMANAC_LOAD of one record due in the near window (R200, R205, R233)
  (∀ (s : State) (h : Hdr) (pl : List Byte) (q : Nat), Accepted s.dev cAlmanacLoad h pl → NamesCore s.dev h.part (leAt pl 0 2) q
    → s.dev.bstate h.part = 3 → leAt pl 4 4 = 1 → pendRsvd (pl.drop 8) = false → (1 ≤ beatSub (leAt pl 16 6) (s.dev.beat h.part)
    ∧ beatSub (leAt pl 16 6) (s.dev.beat h.part) ≤ 64) → s.dev.napping q = false → s.dev.nearCount q (leAt pl 16 6 % 64) <
    s.dev.nearCap q → Runs (.almanacLoad h pl) s (fun e => e.nearCount q (leAt pl 16 6 % 64) = s.dev.nearCount q (leAt pl 16 6 %
    64) + 1 ∧ e.rdN (s.dev.nearAddr q (leAt pl 16 6 % 64) (s.dev.nearCount q (leAt pl 16 6 % 64))) 8 = leAt pl 8 8 ∧ MemKeeps
    s.dev e (fun a => s.dev.nearAddr q (leAt pl 16 6 % 64) (s.dev.nearCount q (leAt pl 16 6 % 64)) ≤ a ∧ a < s.dev.nearAddr q
    (leAt pl 16 6 % 64) (s.dev.nearCount q (leAt pl 16 6 % 64)) + 8) ∧ Answered s.dev e 0x0407 h .ok [] ∧ RegKeeps s.dev e (fun
    a => BookReg a ∨ a = ALM_NSLOT q (leAt pl 16 6 % 64) ∨ a = ALM_NFILED_LO q ∨ a = ALM_NFILED_HI q) ∧ SameUnits s.dev e)) ∧
  -- ALMANAC_LOAD of no record (R233)
  (∀ (s : State) (h : Hdr) (pl : List Byte) (q : Nat), Accepted s.dev cAlmanacLoad h pl → NamesCore s.dev h.part (leAt pl 0 2) q
    → s.dev.bstate h.part = 3 → leAt pl 4 4 = 0 → Runs (.almanacLoad h pl) s (fun e => Answered s.dev e 0x0407 h .ok [] ∧ Keeps
    s.dev e (fun a => BookReg a) ∧ SameUnits s.dev e)) ∧
  -- READOUT_CONFIG (R212, R232)
  (∀ (s : State) (h : Hdr) (pl : List Byte), Accepted s.dev cReadoutConfig h pl → s.dev.still h.part = true → byteAt pl 0 < 16 →
    s.dev.owns h.part (byteAt pl 0) = true → byteAt pl 1 % 2 = 0 → s.dev.banksFree (byteAt pl 0) (byteAt pl 1) 2 4 = true → leAt
    pl 4 4 ≤ 65536 → 16 * (1 + ceilDiv (leAt pl 4 4) 4 + 4) + 64 ≤ 2 ^ s.dev.fld (AXN_ORCFG 0 h.part) 0 5 → Runs (.readoutConfig
    h pl) s (fun e => e.rg (AXN_RCFG (byteAt pl 0)) = 2 ^ 31 + byteAt pl 1 * 2 ^ 17 + leAt pl 4 4 ∧ (∀ r, r < 16 → r ≠ byteAt pl
    0 → s.dev.owns h.part r = true → e.rg (AXN_RCFG r) = 0) ∧ e.rg (AXN_PROUT 0 h.part) = 2 ^ 31 + byteAt pl 0 ∧ e.rg (AXN_PROUT
    1 h.part) = 2 ^ 31 + byteAt pl 0 ∧ e.rg64 (AXN_RFRAME_LO (byteAt pl 0)) = 0 ∧ e.fld (CMN_OWN (byteAt pl 0) (byteAt pl 1)) 0
    4 = 4 ∧ e.fld (CMN_OWN (byteAt pl 0) (byteAt pl 1 + 1)) 0 4 = 4 ∧ (∀ a, cmnBase (byteAt pl 0) + 0x40000 * byteAt pl 1 ≤ a →
    a < cmnBase (byteAt pl 0) + 0x40000 * byteAt pl 1 + 0x80000 → e.mem.read a = 0#8) ∧ MemKeeps s.dev e (fun a => cmnBase
    (byteAt pl 0) + 0x40000 * byteAt pl 1 ≤ a ∧ a < cmnBase (byteAt pl 0) + 0x40000 * byteAt pl 1 + 0x80000) ∧ Answered s.dev e
    0x0408 h .ok [])) ∧
  -- READOUT_READ of words with no ECC error (R214, R232)
  (∀ (s : State) (h : Hdr) (pl : List Byte) (r : Nat), Accepted s.dev cReadoutRead h pl → s.dev.readoutRegion h.part = some r →
    leAt pl 0 4 + leAt pl 4 4 ≤ 65536 → (∀ k, k < 4 * leAt pl 4 4 → SMap.get 0 s.dev.ecc (8 * ((s.dev.frameAddr r (s.dev.rg
    (AXN_RFRAME_LO r)) (leAt pl 0 4) + k) / 8)) = 0) → Fits s.dev h (8 + 4 * leAt pl 4 4) → Runs (.readoutRead h pl) s (fun e =>
    Answered s.dev e 0x0409 h .ok (leBytes 4 (s.dev.rg (AXN_RFRAME_LO r)) ++ leBytes 4 (s.dev.rg (AXN_RFRAME_HI r)) ++ s.dev.rdB
    (s.dev.frameAddr r (s.dev.rg (AXN_RFRAME_LO r)) (leAt pl 0 4)) (4 * leAt pl 4 4)) ∧ Keeps s.dev e (fun a => BookReg a) ∧
    SameUnits s.dev e))

/-- A ROW or FAR event due in the near window enters the next entry of its due beat's slot; one for another tenant's or no
  region, or late under the drop policy, is counted and changes no memory; a READOUT event adds its product into its slot with
  saturation. A record not disposed of in time is counted as dropped. Migration passes to the next beat; a refill fills the
  draining slot from its far list. -/
def Obligations.EventFiling : Prop :=
  -- EVENT_RECORD_ARRIVAL, filed near (R200 to R206)
  (∀ (s : State) (ev : Event) (q j : Nat) (x : Int), ev.part < 16 → s.dev.regPart (ev.dcore % 256 / 16) = some ev.part →
    s.dev.choked ev.part = false → ev.tkind ≤ 1 → s.dev.physOf (ev.dcore % 256) = some q → q < 256 → x = beatDelta ev.ebeat
    (s.dev.core q).ptr + 1 + (ev.delay : Int) → (0 ≤ x ∧ x ≤ 63) → (x = 0 → (s.dev.core q).closed = false) → s.dev.napping q =
    false → j = beatAdd (s.dev.core q).ptr x % 64 → s.dev.nearCount q j < s.dev.nearCap q → Runs (.eventRecordArrival ev) s (fun
    e => e.nearCount q j = s.dev.nearCount q j + 1 ∧ e.rdN (s.dev.nearAddr q j (s.dev.nearCount q j)) 8 = ev.entry ∧ e.rg64
    (ALM_NFILED_LO q) = wrap64 (s.dev.rg64 (ALM_NFILED_LO q)) 1 ∧ (e.region (q / 16)).far = (s.dev.region (q / 16)).far ∧
    MemKeeps s.dev e (fun a => s.dev.nearAddr q j (s.dev.nearCount q j) ≤ a ∧ a < s.dev.nearAddr q j (s.dev.nearCount q j) +
    8))) ∧
  -- EVENT_RECORD_ARRIVAL, late and dropped (R201, R203)
  (∀ (s : State) (ev : Event) (q : Nat) (x : Int), ev.part < 16 → s.dev.regPart (ev.dcore % 256 / 16) = some ev.part →
    s.dev.choked ev.part = false → ev.tkind ≤ 1 → s.dev.physOf (ev.dcore % 256) = some q → q < 256 → x = beatDelta ev.ebeat
    (s.dev.core q).ptr + 1 + (ev.delay : Int) → (x < 0 ∨ x = 0 ∧ (s.dev.core q).closed = true) → s.dev.flag (ALM_LATECFG (q /
    16)) 0 = false → Runs (.eventRecordArrival ev) s (fun e => e.rg (ALM_NLATE q) = satInc (s.dev.rg (ALM_NLATE q)) 1 % 2 ^ 32 ∧
    e.flag (ALM_NSTAT q) 3 = true ∧ SameMem s.dev e ∧ e.regions = s.dev.regions)) ∧
  -- EVENT_RECORD_ARRIVAL at a region of no partition or of another (R28, R29)
  (∀ (s : State) (ev : Event), ev.part < 16 → s.dev.regPart (ev.dcore % 256 / 16) ≠ some ev.part → Runs (.eventRecordArrival ev)
    s (fun e => e.rg (FAB_RUADROP (ev.dcore % 256 / 16)) = (if s.dev.regPart (ev.dcore % 256 / 16) = none then satInc (s.dev.rg
    (FAB_RUADROP (ev.dcore % 256 / 16))) 1 % 2 ^ 32 else s.dev.rg (FAB_RUADROP (ev.dcore % 256 / 16))) ∧ e.rg (FAB_RPMDROP
    (ev.dcore % 256 / 16)) = (if s.dev.regPart (ev.dcore % 256 / 16) = none then s.dev.rg (FAB_RPMDROP (ev.dcore % 256 / 16))
    else satInc (s.dev.rg (FAB_RPMDROP (ev.dcore % 256 / 16))) 1 % 2 ^ 32) ∧ SameMem s.dev e ∧ e.regions = s.dev.regions ∧
    e.cores = s.dev.cores)) ∧
  -- EVENT_RECORD_ARRIVAL of a READOUT event, into a word with no error (R212)
  (∀ (s : State) (ev : Event) (r : Nat) (x : Nat) (y : Int), ev.part < 16 → r = ev.dcore % 256 / 16 → s.dev.regPart r = some
    ev.part → s.dev.choked ev.part = false → ev.tkind = 2 → s.dev.readoutRegion ev.part = some r → s.dev.flag (AXN_RCFG r) 31 =
    true → -1 ≤ beatDelta ev.ebeat (s.dev.beat ev.part) → x = beatAdd (s.dev.beat ev.part) (beatDelta ev.ebeat (s.dev.beat
    ev.part)) → (s.dev.region r).clearing ≠ some (x % 2) → SMap.get 0 s.dev.ecc (8 * (s.dev.frameAddr r x (ev.ra % 65536) / 8))
    = 0 → y = sInt 32 (s.dev.rdN (s.dev.frameAddr r x (ev.ra % 65536)) 4) + sInt 8 ev.grade * sInt 12 ev.delay → Runs
    (.eventRecordArrival ev) s (fun e => e.rdN (s.dev.frameAddr r x (ev.ra % 65536)) 4 = uOf 32 (satS 32 y) ∧ e.rg (AXN_RSAT r)
    = (if satS 32 y = y then s.dev.rg (AXN_RSAT r) else satInc (s.dev.rg (AXN_RSAT r)) 1 % 2 ^ 32) ∧ MemKeeps s.dev e (fun a =>
    s.dev.frameAddr r x (ev.ra % 65536) ≤ a ∧ a < s.dev.frameAddr r x (ev.ra % 65536) + 4) ∧ e.cores = s.dev.cores)) ∧
  -- EVENT_DISPOSAL_TIMEOUT (R249)
  (∀ (s : State) (ev : Event), ev.part < 16 → Runs (.eventDisposalTimeout ev) s (fun e => e.rg (ALM_FDROP (ev.dcore % 256 / 16))
    = satInc (s.dev.rg (ALM_FDROP (ev.dcore % 256 / 16))) 1 % 2 ^ 32 ∧ e.flag (ALM_FSTAT (ev.dcore % 256 / 16)) 1 = true ∧ e.net
    = s.dev.net.erase ev ∧ SameMem s.dev e)) ∧
  -- MIGRATION (R209)
  (∀ (s : State) (r : Nat), r < 16 → s.dev.coresOf r ≠ [] → 0 < beatSub (s.dev.farMin r) (s.dev.region r).mig → s.dev.naps = []
    → s.dev.engineRuns r = true → Runs (.migration r) s (fun e => (e.region r).mig = ((s.dev.region r).mig + 1) % 2 ^ 48 ∧ e.rg
    (ALM_FTURN r) = satInc (s.dev.rg (ALM_FTURN r)) 1 % 2 ^ 32 ∧ e.flag (ALM_FSTAT r) 0 = false)) ∧
  -- REFILL (R210)
  (∀ (s : State) (q cycles : Nat), q < 256 → s.dev.flag (ALM_NSTAT q) 0 = true → (s.dev.core q).closed = false → s.dev.nearCount
    q ((s.dev.core q).ptr % 64) < s.dev.nearCap q / 2 → s.dev.napping q = false → s.dev.farCount q (s.dev.core q).ptr ≠ 0 →
    s.dev.engineRuns (q / 16) = true → Runs (.refill q cycles) s (fun e => e.nearCount q ((s.dev.core q).ptr % 64) = min
    (s.dev.nearCap q) (s.dev.nearCount q ((s.dev.core q).ptr % 64) + s.dev.farCount q (s.dev.core q).ptr) ∧ e.nearCount q
    ((s.dev.core q).ptr % 64) + e.farCount q (s.dev.core q).ptr = s.dev.nearCount q ((s.dev.core q).ptr % 64) + s.dev.farCount q
    (s.dev.core q).ptr ∧ (e.core q).ptr = (s.dev.core q).ptr))

/-- EVENT_RINGS of a partition not running writes both bases and enables both rings from index zero. Writing the indices moves
  them; enabling a disabled ring takes a size of 12 to 20 and zeroes its indices, a write without the enable bit disables it. An
  input record moves the consumer index; a rejected one is counted. An output record is written where room allows, else dropped
  and counted; a LOST record goes first. -/
def Obligations.HostEventRings : Prop :=
  -- EVENT_RINGS (R663)
  (∀ (s : State) (h : Hdr) (pl : List Byte), Accepted s.dev cEventRings h pl → s.dev.running h.part = false → (12 ≤ byteAt pl 8
    ∧ byteAt pl 8 ≤ 20) → (12 ≤ byteAt pl 24 ∧ byteAt pl 24 ≤ 20) → (leAt pl 0 8 % 4096 = 0 ∧ leAt pl 16 8 % 4096 = 0) → Runs
    (.eventRings h pl) s (fun e => e.rg64 (AXN_IRBASE_LO 0 h.part) = leAt pl 0 8 ∧ e.rg64 (AXN_ORBASE_LO 0 h.part) = leAt pl 16
    8 ∧ e.rg (AXN_IRCFG 0 h.part) = 2 ^ 31 + byteAt pl 8 ∧ e.rg (AXN_ORCFG 0 h.part) = 2 ^ 31 + byteAt pl 24 ∧ e.rg (AXN_IRHEAD
    0 h.part) = 0 ∧ e.rg (AXN_IRTAIL 0 h.part) = 0 ∧ e.rg (AXN_ORHEAD 0 h.part) = 0 ∧ e.rg (AXN_ORTAIL 0 h.part) = 0 ∧ Answered
    s.dev e 0x040A h .ok [] ∧ Keeps s.dev e (fun a => BookReg a ∨ (AXN_IRBASE_LO 0 h.part ≤ a ∧ a ≤ AXN_IRTAIL 0 h.part) ∨
    (AXN_ORBASE_LO 0 h.part ≤ a ∧ a ≤ AXN_ORTAIL 0 h.part)) ∧ SameUnits s.dev e)) ∧
  -- AXN_IRTAIL_WRITE (R52, R217, R227)
  (∀ (s : State) (f p v : Nat), p < 16 → (f = 0 ∨ f = p) → Runs (.axnIrtailWrite f p v) s (fun e => e.rg (AXN_IRTAIL 0 p) = v %
    2 ^ 32 ∧ Keeps s.dev e (fun a => a = AXN_IRTAIL 0 p) ∧ SameUnits s.dev e)) ∧
  -- AXN_ORTAIL_WRITE (R52, R220, R227)
  (∀ (s : State) (f p v : Nat), p < 16 → (f = 0 ∨ f = p) → Runs (.axnOrtailWrite f p v) s (fun e => e.rg (AXN_ORTAIL 0 p) = v %
    2 ^ 32 ∧ Keeps s.dev e (fun a => a = AXN_ORTAIL 0 p) ∧ SameUnits s.dev e)) ∧
  -- EVENT_RING_CFG_WRITE that enables a disabled ring (R229)
  (∀ (s : State) (f p k v : Nat), p < 16 → (f = 0 ∨ f = p) → k < 2 → bitAt v 31 = true → s.dev.flag (if k = 0 then AXN_IRCFG 0 p
    else AXN_ORCFG 0 p) 31 = false → (12 ≤ v % 32 ∧ v % 32 ≤ 20) → Runs (.eventRingCfgWrite f p k v) s (fun e => e.rg (if k = 0
    then AXN_IRCFG 0 p else AXN_ORCFG 0 p) = 2 ^ 31 + v % 32 ∧ e.rg (if k = 0 then AXN_IRHEAD 0 p else AXN_ORHEAD 0 p) = 0 ∧
    e.rg (if k = 0 then AXN_IRTAIL 0 p else AXN_ORTAIL 0 p) = 0 ∧ Keeps s.dev e (fun a => (k = 0 ∧ (a = AXN_IRCFG 0 p ∨ a =
    AXN_IRHEAD 0 p ∨ a = AXN_IRTAIL 0 p)) ∨ (k ≠ 0 ∧ (a = AXN_ORCFG 0 p ∨ a = AXN_ORHEAD 0 p ∨ a = AXN_ORTAIL 0 p))) ∧ SameUnits
    s.dev e)) ∧
  -- EVENT_RING_CFG_WRITE that disables a ring (R229)
  (∀ (s : State) (f p k v : Nat), p < 16 → (f = 0 ∨ f = p) → k < 2 → bitAt v 31 = false → s.dev.flag (if k = 0 then AXN_IRCFG 0
    p else AXN_ORCFG 0 p) 31 = true → Runs (.eventRingCfgWrite f p k v) s (fun e => e.flag (if k = 0 then AXN_IRCFG 0 p else
    AXN_ORCFG 0 p) 31 = false ∧ Keeps s.dev e (fun a => (k = 0 ∧ a = AXN_IRCFG 0 p) ∨ (k ≠ 0 ∧ a = AXN_ORCFG 0 p)) ∧ SameUnits
    s.dev e)) ∧
  -- INPUT_RECORD (R217, R219)
  (∀ (s : State) (p r n : Nat) (rec : List Byte), p < 16 → (s.dev.flag (AXN_IRCFG 0 p) 31 = true ∧ s.dev.flag (PCI_DMACFG (2 *
    p)) 31 = true) → s.dev.rg (AXN_IRHEAD 0 p) ≠ s.dev.rg (AXN_IRTAIL 0 p) → s.dev.bstate p = 1 → (p = 0 → s.dev.d3hot = false)
    → (s.dev.regionsOf p).head? = some r → (n = (if s.dev.coresOf r ≠ [] ∧ s.dev.allFinalAt r (s.dev.region r).beat = true then
    ((s.dev.region r).beat + 1) % 2 ^ 48 else (s.dev.region r).beat)) → Runs (.inputRecord p rec) s (fun e => e.rg (AXN_IRHEAD 0
    p) = (s.dev.rg (AXN_IRHEAD 0 p) + 1) % 2 ^ 32 ∧ e.rg (AXN_INREJ 0 p) = (if bitAt (byteAt rec 14) 1 = false ∧ s.dev.inputBad
    p rec n = true then satInc (s.dev.rg (AXN_INREJ 0 p)) 1 % 2 ^ 32 else s.dev.rg (AXN_INREJ 0 p)) ∧ RegKeeps s.dev e (fun a =>
    a = AXN_IRHEAD 0 p ∨ a = AXN_INREJ 0 p ∨ a = FAB_BRFLIT_LO (dieOf r) ∨ a = FAB_BRFLIT_HI (dieOf r) ∨ a = FAB_PDISC (dieOf r)
    0) ∧ SameMem s.dev e ∧ SameUnits s.dev e)) ∧
  -- OUTPUT_RECORD_WRITE of a SPIKE (R220, R221)
  (∀ (s : State) (p eb r : Nat) (b : List Byte) (rest : List OutRec), p < 16 → (p = 0 → s.dev.d3hot = false) → ((s.dev.part
    p).lost = 0 ∨ s.dev.orFree p = 0) → (s.dev.part p).outq = .spike b eb r :: rest → Runs (.outputRecordWrite p) s (fun e =>
    (e.part p).outq = rest ∧ e.rg (AXN_ORHEAD 0 p) = (if 5 ≤ s.dev.orFree p then (s.dev.rg (AXN_ORHEAD 0 p) + b.length / 16) % 2
    ^ 32 else s.dev.rg (AXN_ORHEAD 0 p)) ∧ e.rg (ALM_ODROP 0 p) = (if 5 ≤ s.dev.orFree p then s.dev.rg (ALM_ODROP 0 p) else
    satInc (s.dev.rg (ALM_ODROP 0 p)) 1 % 2 ^ 32) ∧ (e.part p).lost = (if 5 ≤ s.dev.orFree p then (s.dev.part p).lost else
    satInc (s.dev.part p).lost 1) ∧ (5 ≤ s.dev.orFree p → Output.hostWrite (s.dev.requester p) (s.dev.rg (AXN_ORBASE_LO 0 p) /
    4096 * 4096 + 2 ^ 32 * s.dev.rg (AXN_ORBASE_HI 0 p) + 16 * (s.dev.rg (AXN_ORHEAD 0 p) % s.dev.orSize p)) b ∈ e.out) ∧
    SameMem s.dev e)) ∧
  -- OUTPUT_RECORD_WRITE with records lost before and room (R221, R222)
  (∀ (s : State) (p : Nat), p < 16 → (p = 0 → s.dev.d3hot = false) → 0 < (s.dev.part p).lost → 1 ≤ s.dev.orFree p → Runs
    (.outputRecordWrite p) s (fun e => (e.part p).outq = (s.dev.part p).outq ∧ (e.part p).lost = 0 ∧ e.rg (AXN_ORHEAD 0 p) =
    (s.dev.rg (AXN_ORHEAD 0 p) + 1) % 2 ^ 32 ∧ Keeps s.dev e (fun a => a = AXN_ORHEAD 0 p)))

/-- The status commands answer the registers. PORT_CONTROL and writes of FAB_PCTL enable, disable and retrain a port: ENABLE is
  written, and STATE passes to DISABLED or TRAINING as R263 says. Training ends with a trained port or FAILED; a FAILED port
  forgets its peer when it retries; a failure of an UP port makes it FAILED, counts it, and starts the rerouting of both dies.
  -/
def Obligations.FabricPortCommandsAndEvents : Prop :=
  -- FAB_STATUS (R282)
  (∀ (s : State) (h : Hdr) (pl : List Byte), Accepted s.dev cFabStatus h pl → byteAt pl 0 < 2 → Runs (.fabStatus h pl) s (fun e
    => Answered s.dev e 0x0501 h .ok (s.dev.regBytes (FAB_DCFG (byteAt pl 0)) 18) ∧ Keeps s.dev e (fun a => BookReg a) ∧
    SameUnits s.dev e)) ∧
  -- PORT_STATUS (R282)
  (∀ (s : State) (h : Hdr) (pl : List Byte), Accepted s.dev cPortStatus h pl → byteAt pl 0 < 8 → Runs (.portStatus h pl) s (fun
    e => Answered s.dev e 0x0503 h .ok (s.dev.regBytes (FAB_PCTL (byteAt pl 0 / 4) (byteAt pl 0 % 4)) 14) ∧ Keeps s.dev e (fun a
    => BookReg a) ∧ SameUnits s.dev e)) ∧
  -- ROUTE_READ (R282)
  (∀ (s : State) (h : Hdr) (pl : List Byte), Accepted s.dev cRouteRead h pl → Runs (.routeRead h pl) s (fun e => Answered s.dev
    e 0x0504 h .ok (leBytes 4 (s.dev.rg (FAB_DCFG 0)) ++ leBytes 2 (s.dev.rg (FAB_RTX 0)) ++ leBytes 2 (s.dev.rg (FAB_RTY 0)) ++
    leBytes 2 (s.dev.rg (FAB_RTZ 0)) ++ zeros 2) ∧ Keeps s.dev e (fun a => BookReg a) ∧ SameUnits s.dev e)) ∧
  -- PORT_CONTROL (R263, R282)
  (∀ (s : State) (h : Hdr) (pl : List Byte) (q : Nat), Accepted s.dev cPortControl h pl → q = byteAt pl 0 → q < 8 → byteAt pl 1
    < 4 → (s.dev.portState q ≠ 4 ∧ s.dev.portState q ≠ 1) → Runs (.portControl h pl) s (fun e => (byteAt pl 1 = 0 → e.portState
    q = 0 ∧ e.flag (FAB_PCTL (q / 4) (q % 4)) 0 = false) ∧ (byteAt pl 1 = 1 → e.portState q = (if s.dev.portState q = 0 then 1
    else s.dev.portState q) ∧ e.flag (FAB_PCTL (q / 4) (q % 4)) 0 = true) ∧ (2 ≤ byteAt pl 1 → e.portState q = (if
    s.dev.portState q = 0 then 0 else 1) ∧ e.rg (FAB_PCTL (q / 4) (q % 4)) = s.dev.rg (FAB_PCTL (q / 4) (q % 4))) ∧ Answered
    s.dev e 0x0502 h .ok [] ∧ RegKeeps s.dev e (fun a => NoteReg a ∨ a = FAB_PCTL (q / 4) (q % 4) ∨ a = FAB_PSTAT (q / 4) (q %
    4) ∨ a = CAL_PORTSTAT q ∨ (∃ k, k < 4 ∧ (a = PWR_VON cliPolicy k ∨ a = PWR_VRET cliPolicy k))) ∧ SameMem s.dev e)) ∧
  -- FAB_PCTL_ENABLE by the physical function (R263)
  (∀ (s : State) (q b : Nat), q < 8 → Runs (.fabPctlEnable 0 q b) s (fun e => e.flag (FAB_PCTL (q / 4) (q % 4)) 0 = (b % 2 == 1)
    ∧ e.portState q = (if s.dev.portState q = 4 then 4 else if b % 2 = 0 then 0 else if s.dev.portState q = 0 then 1 else
    s.dev.portState q) ∧ SameMem s.dev e)) ∧
  -- FAB_PCTL_ENABLE by another function: counted, with no effect on the port (R42, R52)
  (∀ (s : State) (f q b : Nat), f ≠ 0 → q < 8 → Runs (.fabPctlEnable f q b) s (fun e => e.rg FLT_ADDRERR = satInc (s.dev.rg
    FLT_ADDRERR) 1 % 2 ^ 32 ∧ e.portState q = s.dev.portState q ∧ e.flag (FAB_PCTL (q / 4) (q % 4)) 0 = s.dev.flag (FAB_PCTL (q
    / 4) (q % 4)) 0)) ∧
  -- FAB_PCTL_TRAIN (R263, R279)
  (∀ (s : State) (q t : Nat), q < 8 → Runs (.fabPctlTrain 0 q t) s (fun e => e.portState q = (if s.dev.portState q = 0 ∨
    s.dev.portState q = 4 ∨ (t % 4 ≠ 1 ∧ t % 4 ≠ 2) then s.dev.portState q else 1) ∧ RegKeeps s.dev e (fun a => NoteReg a ∨ a =
    FAB_PSTAT (q / 4) (q % 4) ∨ a = CAL_PORTSTAT q) ∧ SameMem s.dev e)) ∧
  -- PORT_TRAINING_END (R263)
  (∀ (s : State) (q : Nat) (ok : Bool), q < 8 → (s.dev.portState q = 1 ∨ s.dev.portState q = 3) → Runs (.portTrainingEnd q ok) s
    (fun e => (ok = false → e.portState q = 3 ∧ e.lport q = default) ∧ (ok = true → (e.lport q).trained = true ∧ e.portState q =
    (if (s.dev.lport q).hello.isSome then 2 else s.dev.portState q)) ∧ RegKeeps s.dev e (fun a => NoteReg a ∨ a = FAB_PSTAT (q /
    4) (q % 4) ∨ a = CAL_STAT) ∧ SameMem s.dev e)) ∧
  -- PORT_RETRAIN_TIMER (R263)
  (∀ (s : State) (q : Nat), q < 8 → s.dev.portState q = 3 → Runs (.portRetrainTimer q) s (fun e => e.portState q = 3 ∧ e.lport q
    = default ∧ e.rg (CAL_PORTSTAT q) = 0 ∧ e.fld (FAB_PSTAT (q / 4) (q % 4)) 16 4 = 0 ∧ (e.oport q).queue = [] ∧ Keeps s.dev e
    (fun a => LinkReg a ∨ a = CAL_PORTSTAT q ∨ a = FAB_PSTAT (q / 4) (q % 4)) ∧ SameUnits s.dev e)) ∧
  -- PORT_FAILURE (R264, R270, R271)
  (∀ (s : State) (q cause flits : Nat), q < 8 → s.dev.portState q = 2 → (cause = 1 → s.dev.fecBurst q = true) → (cause = 2 →
    s.dev.crcBurst q = true) → Runs (.portFailure q cause flits) s (fun e => e.portState q = 3 ∧ e.lport q = default ∧ (e.oport
    q).queue = [] ∧ e.rg (FAB_PLINKDOWN (q / 4) (q % 4)) = satInc (s.dev.rg (FAB_PLINKDOWN (q / 4) (q % 4))) 1 % 2 ^ 32 ∧ e.flag
    (FAB_DSTAT 0) 0 = true ∧ e.flag (FAB_DSTAT 1) 0 = true ∧ MgmtAll s.dev e q 1 [s.dev.devId, q])) ∧
  -- PORT_FAILURE whose cause has not come (R264)
  (∀ (s : State) (q cause flits : Nat), (s.dev.portState q ≠ 2 ∨ cause = 1 ∧ s.dev.fecBurst q = false ∨ cause = 2 ∧
    s.dev.crcBurst q = false) → Runs (.portFailure q cause flits) s (fun e => e.portState q = s.dev.portState q ∧ e.rg
    (FAB_PLINKDOWN (q / 4) (q % 4)) = s.dev.rg (FAB_PLINKDOWN (q / 4) (q % 4)) ∧ SameMem s.dev e)) ∧
  -- FEC_UNCORRECTABLE (R262)
  (∀ (s : State) (q flits corr : Nat), q < 8 → Runs (.fecUncorrectable ⟨q, flits, corr⟩) s (fun e => e.rg (FAB_PFECUNC (q / 4)
    (q % 4)) = satInc (s.dev.rg (FAB_PFECUNC (q / 4) (q % 4))) 1 % 2 ^ 32 ∧ e.rg64 (FAB_PFECCORR_LO (q / 4) (q % 4)) = inc64
    (s.dev.rg64 (FAB_PFECCORR_LO (q / 4) (q % 4))) corr ∧ (e.lport q).mark = (s.dev.lport q).mark + flits ∧ Keeps s.dev e (fun a
    => a = FAB_PFECUNC (q / 4) (q % 4) ∨ a = FAB_PFECCORR_LO (q / 4) (q % 4) ∨ a = FAB_PFECCORR_HI (q / 4) (q % 4)) ∧ SameUnits
    s.dev e)) ∧
  -- LINK_FAILURE_SPREAD that is new here (R271)
  (∀ (s : State) (port dev q : Nat), dev ≠ s.dev.devId → SMap.get 0 s.dev.links (8 * dev + q) ≠ 1 → Runs (.linkFailureSpread dev
    ⟨port, q⟩) s (fun e => SMap.get 0 e.links (8 * dev + q) = 1 ∧ e.flag (FAB_DSTAT 0) 0 = true ∧ e.flag (FAB_DSTAT 1) 0 = true
    ∧ MgmtAll s.dev e port 1 [dev, q] ∧ Keeps s.dev e (fun a => LinkReg a) ∧ SameUnits s.dev e)) ∧
  -- LINK_FAILURE_SPREAD of what is known, or of this device (R271)
  (∀ (s : State) (port dev q : Nat), (dev = s.dev.devId ∨ SMap.get 0 s.dev.links (8 * dev + q) = 1) → Runs (.linkFailureSpread
    dev ⟨port, q⟩) s (fun e => e.links = s.dev.links ∧ e.colls = s.dev.colls ∧ e.oports = s.dev.oports ∧ Keeps s.dev e (fun _ =>
    False) ∧ SameUnits s.dev e)) ∧
  -- LINK_STATE_MESSAGE of a device that is new here (R552, R560)
  (∀ (s : State) (port dev ports : Nat) (spans : List (Nat × Nat)), dev ≠ s.dev.devId → dev < 512 → s.dev.fabDevs.contains dev =
    false → Runs (.linkStateMessage dev ⟨port, ports, spans⟩) s (fun e => e.fabDevs = s.dev.fabDevs ++ [dev] ∧ (∀ q, q < 8 →
    SMap.get 0 e.links (8 * dev + q) = natOf (! bitAt ports q)) ∧ SMap.get [] e.fabSpans dev = spans ∧ e.flag (FAB_DSTAT 0) 0 =
    true ∧ e.flag (FAB_DSTAT 1) 0 = true ∧ MgmtAll s.dev e port 2 (linkArgs dev ports spans) ∧ Keeps s.dev e (fun a => LinkReg
    a) ∧ e.cores = s.dev.cores ∧ e.regions = s.dev.regions ∧ e.tcores = s.dev.tcores ∧ e.scores = s.dev.scores ∧ (∀ p, { e.part
    p with parent := none, kids := [] } = { s.dev.part p with parent := none, kids := [] }))) ∧
  -- LINK_STATE_MESSAGE of a known device: its links and spans are as it says (R552, R560)
  (∀ (s : State) (port dev ports : Nat) (spans : List (Nat × Nat)), dev ≠ s.dev.devId → dev < 512 → s.dev.fabDevs.contains dev =
    true → Runs (.linkStateMessage dev ⟨port, ports, spans⟩) s (fun e => e.fabDevs = s.dev.fabDevs ∧ (∀ q, q < 8 → SMap.get 0
    e.links (8 * dev + q) = natOf (! bitAt ports q)) ∧ SMap.get [] e.fabSpans dev = spans ∧ Keeps s.dev e (fun a => LinkReg a))) ∧
  -- ROUTE_INSTALL (R245, R265, R271)
  (∀ (s : State), Runs (.routeInstall) s (fun e => (∀ die, die < 2 → (∀ k, k < 8 → e.fld (FAB_RTX die) (2 * k) 2 = s.dev.dirTo 0
    k ∧ e.fld (FAB_RTY die) (2 * k) 2 = s.dev.dirTo 1 k ∧ e.fld (FAB_RTZ die) (2 * k) 2 = s.dev.dirTo 2 k) ∧ e.flag (FAB_DSTAT
    die) 0 = false) ∧ (∀ g, g < 16 → (s.dev.coll g).used = true → (∃ t, t = s.dev.treeOf (s.dev.coll g).root (s.dev.coll
    g).members ∧ ∀ x, t = some x → (e.coll g).depth = x.2)) ∧ (∀ p, p < 16 → (s.dev.spans p = false → (e.part p).kids = []) ∧
    (s.dev.fld (TAB_SPAN p) 16 9 = s.dev.devId → (e.part p).parent = none)) ∧ Keeps s.dev e (fun a => ∃ die, die < 2 ∧ (a =
    FAB_RTX die ∨ a = FAB_RTY die ∨ a = FAB_RTZ die ∨ a = FAB_DSTAT die)) ∧ e.cores = s.dev.cores ∧ e.regions = s.dev.regions ∧
    e.tcores = s.dev.tcores ∧ e.scores = s.dev.scores ∧ (∀ p, { e.part p with parent := none, kids := [] } = { s.dev.part p with
    parent := none, kids := [] })))

/-- A packet counts its flits at its port. One for this device that passes its check delivers its events or waits to be acted
  on; one that fails is discarded and counted. One for another device leaves by the port that dimension order names, or is
  counted where no route leads; a request to an absent device is an address error. Class 0 flits do the same hop by hop, and
  alarm flits merge or go on. -/
def Obligations.PacketsAndFlits : Prop :=
  -- PACKET_FORWARD of a good packet for this device, but for management (R240, R244)
  (∀ (s : State) (q corr : Nat) (tags : List Nat) (l : List Byte), q < 8 → FlitsOk s.dev q tags → (pktDest l = s.dev.devId ∨
    pktClass l = 4) → pktGood l = true → pktType l ≠ 0x01 → pktClass l ≠ 6 → Runs (.packetForward q l ⟨tags, corr⟩) s (fun e =>
    e.inbox = s.dev.inbox ++ [l] ∧ e.net = s.dev.net ∧ e.rg64 (FAB_PRXFLIT_LO (q / 4) (q % 4)) = inc64 (s.dev.rg64
    (FAB_PRXFLIT_LO (q / 4) (q % 4))) (l.length / 64) ∧ e.rg64 (FAB_PFECCORR_LO (q / 4) (q % 4)) = inc64 (s.dev.rg64
    (FAB_PFECCORR_LO (q / 4) (q % 4))) corr ∧ Keeps s.dev e (fun a => InReg q a) ∧ SameUnits s.dev e)) ∧
  -- PACKET_FORWARD of a management packet: it waits for Carillon, or is dropped and counted where no room is left (R248)
  (∀ (s : State) (q corr : Nat) (tags : List Nat) (l : List Byte), q < 8 → FlitsOk s.dev q tags → pktGood l = true → pktType l ≠
    0x01 → pktClass l = 6 → Runs (.packetForward q l ⟨tags, corr⟩) s (fun e => e.inbox = (if Config.mgmtRoom ≤
    (s.dev.inbox.filter (fun x => pktClass x == 6)).length then s.dev.inbox else s.dev.inbox ++ [l]) ∧ e.car.mgmtDrop = (if
    Config.mgmtRoom ≤ (s.dev.inbox.filter (fun x => pktClass x == 6)).length then s.dev.car.mgmtDrop + 1 else
    s.dev.car.mgmtDrop) ∧ e.net = s.dev.net ∧ Keeps s.dev e (fun a => InReg q a) ∧ SameUnits s.dev e)) ∧
  -- PACKET_FORWARD of a good EVENTS packet for this device (R237, R239)
  (∀ (s : State) (q corr : Nat) (tags : List Nat) (l : List Byte), q < 8 → FlitsOk s.dev q tags → pktDest l = s.dev.devId →
    pktGood l = true → pktType l = 0x01 → (s.dev.flag FLT_STAT 4 = false ∨ q / 4 = dieOf (pktReg l)) → Runs (.packetForward q l
    ⟨tags, corr⟩) s (fun e => e.net = s.dev.net ++ eventsOf (leAt l 16 2) ((upTo (leAt l 18 2)).map (fun i => leAt l (64 + 8 *
    i) 8)) ∧ e.inbox = s.dev.inbox ∧ Keeps s.dev e (fun a => InReg q a) ∧ SameUnits s.dev e)) ∧
  -- PACKET_FORWARD of a packet for this device that fails its check (R255)
  (∀ (s : State) (q corr : Nat) (tags : List Nat) (l : List Byte), q < 8 → (pktDest l = s.dev.devId ∨ pktClass l = 4 ∨ pktClass
    l = 6) → (¬ FlitsOk s.dev q tags ∨ pktGood l = false) → Runs (.packetForward q l ⟨tags, corr⟩) s (fun e => e.rg (FAB_CRCDISC
    (q / 4)) = satInc (s.dev.rg (FAB_CRCDISC (q / 4))) 1 % 2 ^ 32 ∧ e.rg (FAB_PCRCERR (q / 4) (q % 4)) = (if pktGood l then
    s.dev.rg (FAB_PCRCERR (q / 4) (q % 4)) else satInc (s.dev.rg (FAB_PCRCERR (q / 4) (q % 4))) 1 % 2 ^ 32) ∧ e.net = s.dev.net
    ∧ e.inbox = s.dev.inbox ∧ Keeps s.dev e (fun a => InReg q a ∨ a = FAB_CRCDISC (q / 4) ∨ a = FAB_PCRCERR (q / 4) (q % 4)) ∧
    SameUnits s.dev e)) ∧
  -- PACKET_FORWARD of another device's packet that goes on, by the route's dimension and direction (R236, R243 to R247)
  (∀ (s : State) (q corr dim dir dl : Nat) (tags : List Nat) (l : List Byte), q < 8 → pktDest l ≠ s.dev.devId → (pktClass l ≠ 4
    ∧ pktClass l ≠ 6) → (isRequest (pktType l) = false ∨ pktGood l = false ∨ ¬ FlitsOk s.dev q tags ∨ s.dev.badAddress l =
    false) → s.dev.route (q / 4) (pktDest l) (min (q / 2) 2) (bitsOf (byteAt l 1) 4 2) = some (dim, dir, dl) → (∃ o, o < 8 ∧
    Carries s.dev dim dir o) → s.dev.flag FLT_STAT 4 = false → Runs (.packetForward q l ⟨tags, corr⟩) s (fun e => (∃ o, Carries
    s.dev dim dir o ∧ SentOn e o (splice l 1 (leBytes 1 (pktClass l + 8 * (if pktClass l = 0 then 0 else max (if dim = min (q /
    2) 2 then bitsOf (byteAt l 1) 3 1 else 0) dl) + 16 * dir)))) ∧ e.net = s.dev.net ∧ e.inbox = s.dev.inbox ∧ RegKeeps s.dev e
    (fun a => InReg q a ∨ a = FAB_PCRCERR (q / 4) (q % 4)) ∧ SameMem s.dev e ∧ SameUnits s.dev e)) ∧
  -- PACKET_FORWARD with no route (R244, R247)
  (∀ (s : State) (q corr dim dir dl : Nat) (tags : List Nat) (l : List Byte), q < 8 → pktDest l ≠ s.dev.devId → (pktClass l ≠ 4
    ∧ pktClass l ≠ 6) → (isRequest (pktType l) = false ∨ pktGood l = false ∨ ¬ FlitsOk s.dev q tags ∨ s.dev.badAddress l =
    false) → s.dev.route (q / 4) (pktDest l) (min (q / 2) 2) (bitsOf (byteAt l 1) 4 2) = some (dim, dir, dl) → (¬ ∃ o, o < 8 ∧
    Carries s.dev dim dir o) → Runs (.packetForward q l ⟨tags, corr⟩) s (fun e => e.rg (FAB_NOROUTE (q / 4)) = satInc (s.dev.rg
    (FAB_NOROUTE (q / 4))) 1 % 2 ^ 32 ∧ e.flag (FAB_DSTAT (q / 4)) 2 = true ∧ e.net = s.dev.net ∧ e.inbox = s.dev.inbox ∧
    RegKeeps s.dev e (fun a => InReg q a ∨ a = FAB_PCRCERR (q / 4) (q % 4)) ∧ SameMem s.dev e ∧ SameUnits s.dev e)) ∧
  -- PACKET_FORWARD of a request with a reserved field set or for a device that is none (R38, R39)
  (∀ (s : State) (q corr : Nat) (tags : List Nat) (l : List Byte), q < 8 → FlitsOk s.dev q tags → pktDest l ≠ s.dev.devId →
    (pktClass l ≠ 4 ∧ pktClass l ≠ 6) → isRequest (pktType l) = true → pktGood l = true → s.dev.badAddress l = true → Runs
    (.packetForward q l ⟨tags, corr⟩) s (fun e => e.rg (FAB_ADDRERR (q / 4)) = satInc (s.dev.rg (FAB_ADDRERR (q / 4))) 1 % 2 ^
    32 ∧ e.rg FLT_ADDRERR = satInc (s.dev.rg FLT_ADDRERR) 1 % 2 ^ 32 ∧ e.flag (FAB_DSTAT (q / 4)) 1 = true ∧ e.net = s.dev.net ∧
    e.inbox = s.dev.inbox ∧ SameMem s.dev e)) ∧
  -- CLASS0_FLIT_FORWARD of a flit that fails its check (R256, R262)
  (∀ (s : State) (q corr : Nat) (tags : List Nat) (l : List Byte), q < 8 → (¬ FlitsOk s.dev q tags ∨ c0Good l = false) → Runs
    (.class0FlitForward q l ⟨tags, corr⟩) s (fun e => e.rg (FAB_PCRCERR (q / 4) (q % 4)) = (if FlitsOk s.dev q tags then satInc
    (s.dev.rg (FAB_PCRCERR (q / 4) (q % 4))) 1 % 2 ^ 32 else s.dev.rg (FAB_PCRCERR (q / 4) (q % 4))) ∧ e.net = s.dev.net ∧
    e.inbox = s.dev.inbox ∧ Keeps s.dev e (fun a => InReg q a ∨ a = FAB_PCRCERR (q / 4) (q % 4)) ∧ SameUnits s.dev e)) ∧
  -- CLASS0_FLIT_FORWARD onwards with HOPS one up, where no alarm waits at the port (R238, R256)
  (∀ (s : State) (q corr dim dir dl o : Nat) (tags : List Nat) (l : List Byte), q < 8 → FlitsOk s.dev q tags → c0Good l = true →
    c0Kind l = 1 → s.dev.route (q / 4) (c0Dest l) 3 0 = some (dim, dir, dl) → (Carries s.dev dim dir o ∧ dim < 2) → s.dev.flag
    FLT_STAT 4 = false → Runs (.class0FlitForward q l ⟨tags, corr⟩) s (fun e => SentOn e o (splice l 0 (leBytes 4 (putBits (leAt
    l 0 4) 22 4 (c0Hops l + 1)))) ∧ RegKeeps s.dev e (fun a => InReg q a) ∧ SameMem s.dev e ∧ SameUnits s.dev e)) ∧
  -- ALARM_FLIT at the root, where it ends (R251)
  (∀ (s : State) (a : Alarm), s.dev.route 0 (s.dev.rootId % 512) 3 0 = none → Runs (.alarmFlit a) s (fun e => e.oports =
    s.dev.oports ∧ e.alarmQ = s.dev.alarmQ ∧ Keeps s.dev e (fun _ => False) ∧ SameUnits s.dev e)) ∧
  -- ALARM_FLIT onwards, by the link its route names (R251)
  (∀ (s : State) (x : Alarm) (dim dir dl o : Nat), s.dev.route 0 (s.dev.rootId % 512) 3 0 = some (dim, dir, dl) → (Carries s.dev
    dim dir o ∧ dim < 2) → s.dev.flag FLT_STAT 4 = false → (s.dev.oport o).queue.find? (fun w => w.vc == 0 && c0Kind w.data ==
    2) = none → Runs (.alarmFlit x) s (fun e => SentOn e o (c0Flit 2 s.dev.rootId x.first x.bytes) ∧ Keeps s.dev e (fun a =>
    LinkReg a) ∧ SameUnits s.dev e)) ∧
  -- ALARM_FLIT into one that waits at its port (R251)
  (∀ (s : State) (x : Alarm) (w : Worm) (dim dir dl o : Nat), s.dev.route 0 (s.dev.rootId % 512) 3 0 = some (dim, dir, dl) →
    (Carries s.dev dim dir o ∧ dim < 2 ∧ o < 8) → (s.dev.oport o).queue.find? (fun w => w.vc == 0 && c0Kind w.data == 2) = some
    w → (x.cause < 256 ∧ x.merged < 65536 ∧ x.first < 512 ∧ x.time < 2 ^ 48 ∧ x.partMask < 65536) → Runs (.alarmFlit x) s (fun e
    => ((e.oport o).queue.find? (fun w => w.vc == 0 && c0Kind w.data == 2)).map (fun w => alarmOf w.data) = some ((alarmOf
    w.data).merge x) ∧ (e.oport o).queue.length = (s.dev.oport o).queue.length ∧ e.rg (FAB_C0MERGE (o / 4)) = satInc (s.dev.rg
    (FAB_C0MERGE (o / 4))) 1 % 2 ^ 32 ∧ Keeps s.dev e (fun a => a = FAB_C0MERGE (o / 4)) ∧ SameUnits s.dev e))

/-- COLL_SETUP of a tree with free credits fills the group slot, at once or once every other device has answered. COLL_ISSUE of
  a group of this device alone answers its own contribution and advances EPOCH; else it waits for the children. A COLL_UP or
  COLL_DOWN of an earlier epoch is counted stale, of a later one held, of the expected one taken. A timeout ends the collective
  with INCOMPLETE and advances EPOCH. -/
def Obligations.Collectives : Prop :=
  -- COLL_SETUP of a group that lies on this device alone (R257, R283)
  (∀ (s : State) (h : Hdr) (pl : List Byte) (t : List (Nat × Nat) × Nat), Accepted s.dev cCollSetup h pl → byteAt pl 0 < 16 →
    byteAt pl 1 < 16 → leAt pl 2 2 < 512 → (1 ≤ leAt pl 4 4 ∧ leAt pl 4 4 ≤ 65535) → (s.dev.coll (byteAt pl 0)).used = false →
    s.dev.treeOf (leAt pl 2 2) (maskBits 512 (leAt pl 8 64)) = some t → s.dev.creditsFree ((newColl (byteAt pl 1) (leAt pl 2 2)
    (leAt pl 4 4) (maskBits 512 (leAt pl 8 64))).place s.dev.devId t) = true → treeOthers s.dev.devId (leAt pl 2 2) t = [] →
    (maskBits 512 (leAt pl 8 64)).contains s.dev.devId = true → Runs (.collSetup h pl) s (fun e => e.coll (byteAt pl 0) =
    (newColl (byteAt pl 1) (leAt pl 2 2) (leAt pl 4 4) (maskBits 512 (leAt pl 8 64))).place s.dev.devId t ∧ Answered s.dev e
    0x0505 h .ok [] ∧ Keeps s.dev e (fun a => BookReg a) ∧ SameUnits s.dev e)) ∧
  -- COLL_SETUP that asks other devices (R283)
  (∀ (s : State) (h : Hdr) (pl : List Byte) (t : List (Nat × Nat) × Nat), Accepted s.dev cCollSetup h pl → byteAt pl 0 < 16 →
    byteAt pl 1 < 16 → leAt pl 2 2 < 512 → (1 ≤ leAt pl 4 4 ∧ leAt pl 4 4 ≤ 65535) → (s.dev.coll (byteAt pl 0)).used = false →
    s.dev.treeOf (leAt pl 2 2) (maskBits 512 (leAt pl 8 64)) = some t → s.dev.creditsFree ((newColl (byteAt pl 1) (leAt pl 2 2)
    (leAt pl 4 4) (maskBits 512 (leAt pl 8 64))).place s.dev.devId t) = true → treeOthers s.dev.devId (leAt pl 2 2) t ≠ [] →
    Runs (.collSetup h pl) s (fun e => (e.coll (byteAt pl 0)).asking = treeOthers s.dev.devId (leAt pl 2 2) t ∧ (∀ m, m ∈
    treeOthers s.dev.devId (leAt pl 2 2) t → MgmtTo s.dev e m 2 ([0, byteAt pl 0, byteAt pl 1, leAt pl 2 2, leAt pl 4 4] ++
    maskBits 512 (leAt pl 8 64))) ∧ Waits s.dev e cCollSetup h pl (.coll (byteAt pl 0)) ∧ Keeps s.dev e (fun a => LinkReg a) ∧
    SameUnits s.dev e)) ∧
  -- COLL_ISSUE of SUM or MAX in a group of this device alone (R258, R282)
  (∀ (s : State) (h : Hdr) (pl : List Byte) (g : Nat), Accepted s.dev cCollIssue h pl → g = byteAt pl 0 → g < 16 → (byteAt pl 1
    = 1 ∨ byteAt pl 1 = 3) → leAt pl 4 2 ≤ 256 → ((s.dev.coll g).used = true ∧ (s.dev.coll g).asking = [] ∧ (s.dev.coll g).part
    = h.part ∧ (s.dev.coll g).members.contains s.dev.devId = true) → ((s.dev.coll g).issued = false ∧ (s.dev.coll g).rebuild =
    false ∧ (s.dev.coll g).broken = false ∧ (s.dev.coll g).epoch = leAt pl 2 2) → ((s.dev.coll g).parent = none ∧ (s.dev.coll
    g).children = [] ∧ (s.dev.coll g).held = []) → ((s.dev.coll g).lanes = none ∧ (s.dev.coll g).ncontrib = 0 ∧ (s.dev.coll
    g).sat = false ∧ (s.dev.coll g).nan = false) → Fits s.dev h (8 + 4 * leAt pl 4 2) → Runs (.collIssue h pl) s (fun e =>
    (e.coll g).epoch = (leAt pl 2 2 + 1) % 65536 ∧ (e.coll g).issued = false ∧ AnsweredLast e 0x0506 h .ok ((pl.drop 2).take 2
    ++ leBytes 2 1 ++ zeros 4 ++ pl.drop 8) ∧ SameMem s.dev e)) ∧
  -- COLL_ISSUE that waits for a child (R258)
  (∀ (s : State) (h : Hdr) (pl : List Byte) (g c : Nat), Accepted s.dev cCollIssue h pl → g = byteAt pl 0 → g < 16 → byteAt pl 1
    < 5 → leAt pl 4 2 ≤ 256 → ((s.dev.coll g).used = true ∧ (s.dev.coll g).asking = [] ∧ (s.dev.coll g).part = h.part ∧
    (s.dev.coll g).members.contains s.dev.devId = true) → ((s.dev.coll g).issued = false ∧ (s.dev.coll g).rebuild = false ∧
    (s.dev.coll g).epoch = leAt pl 2 2) → (s.dev.coll g).held = [] → (s.dev.coll g).children.contains c = true → (s.dev.coll
    g).got.contains c = false → Runs (.collIssue h pl) s (fun e => (e.coll g).issued = true ∧ (e.coll g).op = byteAt pl 1 ∧
    (e.coll g).count = leAt pl 4 2 ∧ (e.coll g).epoch = leAt pl 2 2 ∧ Waits s.dev e cCollIssue h pl (.coll g) ∧ Keeps s.dev e
    (fun a => BookReg a) ∧ SameUnits s.dev e)) ∧
  -- COLL_RELEASE (R282)
  (∀ (s : State) (h : Hdr) (pl : List Byte), Accepted s.dev cCollRelease h pl → byteAt pl 0 < 16 → ((s.dev.coll (byteAt pl
    0)).used = true ∧ (s.dev.coll (byteAt pl 0)).asking = [] ∧ (s.dev.coll (byteAt pl 0)).issued = false) → Runs (.collRelease h
    pl) s (fun e => e.coll (byteAt pl 0) = default ∧ Answered s.dev e 0x0507 h .ok [] ∧ (∀ t, s.dev.treeOf (s.dev.coll (byteAt
    pl 0)).root (s.dev.coll (byteAt pl 0)).members = some t → ∀ m, m ∈ treeOthers s.dev.devId (s.dev.coll (byteAt pl 0)).root t
    → MgmtTo s.dev e m 2 [1, byteAt pl 0]) ∧ Keeps s.dev e (fun a => LinkReg a) ∧ SameUnits s.dev e)) ∧
  -- COLL_STATUS (R282)
  (∀ (s : State) (h : Hdr) (pl : List Byte) (x : Coll), Accepted s.dev cCollStatus h pl → byteAt pl 0 < 16 → x = s.dev.coll
    (byteAt pl 0) → (h.func = 0 ∨ x.used = false ∨ x.part = h.func) → Runs (.collStatus h pl) s (fun e => Answered s.dev e
    0x0508 h .ok (leBytes 2 x.epoch ++ leBytes 1 (if x.used = false ∨ x.asking ≠ [] then 0 else if x.rebuild then 3 else if
    x.issued then 2 else 1) ++ zeros 1 ++ leBytes 2 x.root ++ leBytes 2 x.depth ++ leBytes 4 x.timeout ++ zeros 4) ∧ Keeps s.dev
    e (fun a => BookReg a) ∧ SameUnits s.dev e)) ∧
  -- COLL_UP: stale, early, or taken in at a member that has not issued (R258, R259)
  (∀ (s : State) (q g : Nat) (l : List Byte) (x : Coll), q < 8 → pktGood l = true → pktType l = 0x40 → g = byteAt l 16 % 16 → x
    = s.dev.coll g → (x.used = true ∧ x.children.contains (pktSrc l) = true ∧ x.members.contains s.dev.devId = true ∧ x.issued =
    false ∧ x.cur = x.epoch) → (x.rebuild = false ∧ x.broken = false) → Runs (.collUp q l) s (fun e => (epochSide (pktEpoch l)
    x.epoch = .lt → e.rg (FAB_STALEEP (q / 4)) = satInc (s.dev.rg (FAB_STALEEP (q / 4))) 1 % 2 ^ 32 ∧ e.coll g = x) ∧ (epochSide
    (pktEpoch l) x.epoch = .gt → (e.coll g).held = x.held ++ [(q, l)] ∧ (e.coll g).got = x.got) ∧ (pktEpoch l = x.epoch →
    (e.coll g).got = x.got ++ [pktSrc l] ∧ (e.coll g).ncontrib = x.ncontrib + leAt l 20 2 ∧ (e.coll g).epoch = x.epoch) ∧ Keeps
    s.dev e (fun a => a = FAB_STALEEP (q / 4)) ∧ SameUnits s.dev e)) ∧
  -- COLL_UP or COLL_DOWN that fails its check (R255)
  (∀ (s : State) (q : Nat) (l : List Byte), q < 8 → pktGood l = false → Runs (.collUp q l) s (fun e => e.rg (FAB_CRCDISC (q /
    4)) = satInc (s.dev.rg (FAB_CRCDISC (q / 4))) 1 % 2 ^ 32 ∧ e.colls = s.dev.colls ∧ Keeps s.dev e (fun a => a = FAB_CRCDISC
    (q / 4)) ∧ SameUnits s.dev e)) ∧
  -- COLL_DOWN to a member with no children that has issued (R258, R282)
  (∀ (s : State) (q g : Nat) (l : List Byte) (x : Coll), q < 8 → pktGood l = true → pktType l = 0x41 → g = byteAt l 16 % 16 → x
    = s.dev.coll g → (x.used = true ∧ x.children = [] ∧ x.members.contains s.dev.devId = true ∧ x.issued = true) → (x.rebuild =
    false ∧ x.broken = false) → pktEpoch l = x.epoch → Runs (.collDown q l) s (fun e => (e.coll g).epoch = (x.epoch + 1) % 65536
    ∧ (e.coll g).issued = false ∧ SameMem s.dev e)) ∧
  -- COLL_TIMEOUT (R259)
  (∀ (s : State) (g : Nat), ((s.dev.coll g).used = true ∧ (s.dev.coll g).issued = true ∧ (s.dev.coll g).members.contains
    s.dev.devId = true ∧ (s.dev.coll g).held = []) → Runs (.collTimeout g) s (fun e => (e.coll g).epoch = ((s.dev.coll g).epoch
    + 1) % 65536 ∧ (e.coll g).issued = false ∧ (e.coll g).lanes = none ∧ (e.coll g).got = [] ∧ SameMem s.dev e)) ∧
  -- EARLY_EPOCH_DROP (R259)
  (∀ (s : State) (g k q : Nat) (l : List Byte), (s.dev.coll g).held[k]? = some (q, l) → q < 8 → Runs (.earlyEpochDrop g k) s
    (fun e => (e.coll g).held = removeAt (s.dev.coll g).held k ∧ e.rg (FAB_EARLYDROP (q / 4)) = satInc (s.dev.rg (FAB_EARLYDROP
    (q / 4))) 1 % 2 ^ 32 ∧ Keeps s.dev e (fun a => a = FAB_EARLYDROP (q / 4)) ∧ SameUnits s.dev e)) ∧
  -- TREE_REBUILD_END (R273)
  (∀ (s : State) (g epoch : Nat), ((s.dev.coll g).used = true ∧ (s.dev.coll g).rebuild = true ∧ (s.dev.coll g).held = []) → Runs
    (.treeRebuildEnd g epoch) s (fun e => (e.coll g).rebuild = false ∧ (e.coll g).epoch = epoch % 65536 ∧ (e.coll g).lanes =
    none ∧ (e.coll g).got = [] ∧ Keeps s.dev e (fun _ => False) ∧ SameUnits s.dev e)) ∧
  -- GROUP_RESERVATION_MESSAGE that asks this device (R257, R283)
  (∀ (s : State) (src g part root tmo : Nat) (members : List Nat) (t : List (Nat × Nat) × Nat), g < 16 → (s.dev.coll g).used =
    false → s.dev.treeOf root members = some t → Runs (.groupReservationMessage 0 src g part root tmo members) s (fun e =>
    (s.dev.creditsFree ((newColl part root tmo members).place s.dev.devId t) = true → e.coll g = (newColl part root tmo
    members).place s.dev.devId t) ∧ (s.dev.creditsFree ((newColl part root tmo members).place s.dev.devId t) = false → e.coll g
    = s.dev.coll g) ∧ MgmtTo s.dev e src 2 [if s.dev.creditsFree ((newColl part root tmo members).place s.dev.devId t) then 2
    else 3, g] ∧ Keeps s.dev e (fun a => LinkReg a) ∧ SameUnits s.dev e)) ∧
  -- GROUP_RESERVATION_MESSAGE that asks for a slot in use (R283)
  (∀ (s : State) (src g part root tmo : Nat) (members : List Nat), g < 16 → (s.dev.coll g).used = true → Runs
    (.groupReservationMessage 0 src g part root tmo members) s (fun e => e.coll g = s.dev.coll g ∧ MgmtTo s.dev e src 2 [4, g] ∧
    Keeps s.dev e (fun a => LinkReg a) ∧ SameUnits s.dev e)) ∧
  -- GROUP_RESERVATION_MESSAGE of a member that has reserved for a setup already refused: it is told to release (R257, R283)
  (∀ (s : State) (src g part root tmo : Nat) (members : List Nat), g < 16 → (s.dev.coll g).used = false → Runs
    (.groupReservationMessage 2 src g part root tmo members) s (fun e => e.coll g = s.dev.coll g ∧ MgmtTo s.dev e src 2 [1, g] ∧
    Keeps s.dev e (fun a => LinkReg a) ∧ SameUnits s.dev e)) ∧
  -- GROUP_RESERVATION_MESSAGE that releases (R283)
  (∀ (s : State) (src g part root tmo : Nat) (members : List Nat), g < 16 → Runs (.groupReservationMessage 1 src g part root tmo
    members) s (fun e => e.coll g = default ∧ Keeps s.dev e (fun _ => False) ∧ SameUnits s.dev e)) ∧
  -- GROUP_RESERVATION_MESSAGE: the last device asked has reserved (R283)
  (∀ (s : State) (src g part root tmo : Nat) (members : List Nat), g < 16 → ((s.dev.coll g).used = true ∧ (s.dev.coll g).asking
    = [src] ∧ (s.dev.coll g).members.contains s.dev.devId = true) → Runs (.groupReservationMessage 2 src g part root tmo
    members) s (fun e => (e.coll g).used = true ∧ (e.coll g).asking = [] ∧ SameMem s.dev e)) ∧
  -- GROUP_RESERVATION_MESSAGE: a device asked has refused (R283)
  (∀ (s : State) (kind src g part root tmo : Nat) (members : List Nat), g < 16 → (kind = 3 ∨ kind = 4) → ((s.dev.coll g).used =
    true ∧ (s.dev.coll g).asking.contains src = true) → Runs (.groupReservationMessage kind src g part root tmo members) s (fun
    e => e.coll g = default ∧ (∀ t m, s.dev.treeOf (s.dev.coll g).root (s.dev.coll g).members = some t → m ∈ treeOthers
    s.dev.devId (s.dev.coll g).root t → m ≠ src → (s.dev.coll g).asking.contains m = false → MgmtTo s.dev e m 2 [1, g]) ∧
    SameMem s.dev e))

/-- RUDIMENT_LOAD writes the entries R278 allows into a region whose plane stands still, and RUDIMENT_READ answers them;
  RUDIMENT_CONFIG sets PERIOD and REPEAT of the regions it names. In a slot every running node executes its entry and moves to
  the next cycle; after its last period it stops with the cycle zero. -/
def Obligations.RudimentAndPlane : Prop :=
  -- RUDIMENT_LOAD (R278)
  (∀ (s : State) (h : Hdr) (pl : List Byte) (r : Nat), Accepted s.dev cRudimentLoad h pl → r = byteAt pl 0 → r < 16 → s.dev.owns
    h.part r = true → leAt pl 2 2 + leAt pl 4 2 ≤ 1024 → s.dev.flag (FAB_SCTL r) 31 = false → (∀ k, k < leAt pl 4 2 →
    s.dev.rudOk h.part r (slice pl (8 + 8 * k) 8) = true) → Runs (.rudimentLoad h pl) s (fun e => (∀ k, k < 2 * leAt pl 4 2 →
    e.rg (FAB_RUD r (2 * leAt pl 2 2 + k)) = leAt pl (8 + 4 * k) 4) ∧ Answered s.dev e 0x0509 h .ok [] ∧ Keeps s.dev e (fun a =>
    BookReg a ∨ (FAB_RUD r (2 * leAt pl 2 2) ≤ a ∧ a < FAB_RUD r (2 * leAt pl 2 2 + 2 * leAt pl 4 2))) ∧ SameUnits s.dev e)) ∧
  -- RUDIMENT_CONFIG (R282)
  (∀ (s : State) (h : Hdr) (pl : List Byte), Accepted s.dev cRudimentConfig h pl → (1 ≤ leAt pl 0 2 ∧ leAt pl 0 2 ≤ 1024) → leAt
    pl 4 4 ≤ 65535 → (∀ r, r < 16 → bitAt (leAt pl 2 2) r = true → s.dev.owns h.part r = true ∧ s.dev.flag (FAB_SCTL r) 31 =
    false) → Runs (.rudimentConfig h pl) s (fun e => (∀ r, r < 16 → bitAt (leAt pl 2 2) r = true → e.fld (FAB_SCTL r) 16 10 =
    leAt pl 0 2 - 1 ∧ e.fld (FAB_SCTL r) 0 16 = leAt pl 4 4) ∧ Answered s.dev e 0x050A h .ok [] ∧ Keeps s.dev e (fun a =>
    BookReg a ∨ ∃ r, r < 16 ∧ bitAt (leAt pl 2 2) r = true ∧ a = FAB_SCTL r) ∧ SameUnits s.dev e)) ∧
  -- RUDIMENT_READ (R282)
  (∀ (s : State) (h : Hdr) (pl : List Byte), Accepted s.dev cRudimentRead h pl → byteAt pl 0 < 16 → s.dev.owns h.part (byteAt pl
    0) = true → leAt pl 2 2 + leAt pl 4 2 ≤ 1024 → Fits s.dev h (24 + 8 * leAt pl 4 2) → Runs (.rudimentRead h pl) s (fun e =>
    Answered s.dev e 0x050B h .ok (s.dev.regBytes (FAB_SCTL (byteAt pl 0)) 6 ++ s.dev.regBytes (FAB_RUD (byteAt pl 0) (2 * leAt
    pl 2 2)) (2 * leAt pl 4 2)) ∧ Keeps s.dev e (fun a => BookReg a) ∧ SameUnits s.dev e)) ∧
  -- PLANE_SLOT, with no ECC error in memory (R274, R275)
  (∀ (s : State) (p r : Nat), r < 16 → s.dev.regPart r = some p → s.dev.flag (FAB_SCTL r) 31 = true → s.dev.ecc = [] → Runs
    (.planeSlot p) s (fun e => (s.dev.fld (FAB_SCTL r) 0 16 = 0 ∨ (s.dev.region r).plCycle + 1 < s.dev.fld (FAB_SCTL r) 0 16 *
    s.dev.planePeriod r → (e.region r).plCycle = (s.dev.region r).plCycle + 1 ∧ e.flag (FAB_SCTL r) 31 = true) ∧ (s.dev.fld
    (FAB_SCTL r) 0 16 ≠ 0 ∧ s.dev.fld (FAB_SCTL r) 0 16 * s.dev.planePeriod r ≤ (s.dev.region r).plCycle + 1 → (e.region
    r).plCycle = 0 ∧ (e.region r).plIn = [] ∧ e.flag (FAB_SCTL r) 31 = false) ∧ e.parts = s.dev.parts)) ∧
  -- PLANE_SLOT: what memory it writes (R276, R277)
  (∀ (s : State) (p : Nat), p < 16 → s.dev.ecc = [] → Runs (.planeSlot p) s (fun e => MemKeeps s.dev e (fun a => ∃ r, r < 16 ∧
    s.dev.regPart r = some p ∧ (InBuffer r a ∨ (cmnBase r + 15 * 0x40000 ≤ a ∧ a < cmnBase r + 0x400000)))))

/-- A write that an agent may not make is counted and changes no register of the block addressed; a plain register takes its RW
  bits and loses the W1C bits written 1. A read of the low half of a 64-bit counter answers it and latches the high half. A
  write through the core-store window stores its bytes at the mapped site; the alias windows set or clear bits of the Commons
  and of registers. -/
def Obligations.RegisterAndWindowAccesses : Prop :=
  -- REGISTER_WRITE that is refused (R42, R52, R53, R657)
  (∀ (s : State) (ag : Agent) (a v : Nat), a % 4 = 0 → (regListed a = false ∨ s.dev.reachesW ag a = false ∨ s.dev.regDead a =
    true ∨ (ag.isFunc = true ∧ carillonOnly a = true)) → Runs (.registerWrite ag a v) s (fun e => e.rg FLT_ADDRERR = satInc
    (s.dev.rg FLT_ADDRERR) 1 % 2 ^ 32 ∧ RegKeeps s.dev e (fun a => NoteReg a) ∧ SameMem s.dev e)) ∧
  -- REGISTER_WRITE of a plain register of an N-core (R11)
  (∀ (s : State) (ag : Agent) (r c q o v : Nat), r < 16 → c < 16 → (o < 0x4000 ∨ 0x5000 ≤ o) → (o < 0x10000 ∧ o % 4 = 0 ∧ o ≠ 0)
    → WriteOk s.dev ag (slotBase r c + o) → q = 16 * r + c → (slotBase r c + o ≠ HRV_CTL q ∧ slotBase r c + o ≠ HRV_SEASON q ∧
    slotBase r c + o ≠ HRV_HWIN q ∧ slotBase r c + o ≠ HRV_SEED q) → Runs (.registerWrite ag (slotBase r c + o) v) s (fun e =>
    e.rg (slotBase r c + o) = s.dev.regNew (slotBase r c + o) (v % 2 ^ 32) % 2 ^ 32 ∧ Keeps s.dev e (fun a => a = slotBase r c +
    o) ∧ SameUnits s.dev e)) ∧
  -- REGISTER_WRITE of a general register of a halted S-core (R11, R425)
  (∀ (s : State) (ag : Agent) (r k v : Nat), r < 16 → k < 32 → s.dev.seqState r = 0 → WriteOk s.dev ag (SEQ_Gi_LO r 0 + 4 * k) →
    Runs (.registerWrite ag (SEQ_Gi_LO r 0 + 4 * k) v) s (fun e => e.rg (SEQ_Gi_LO r 0 + 4 * k) = v % 2 ^ 32 ∧ Keeps s.dev e
    (fun a => a = SEQ_Gi_LO r 0 + 4 * k) ∧ SameUnits s.dev e)) ∧
  -- COUNTER_LOW_READ (R15)
  (∀ (s : State) (f a : Nat), (a % 4 = 0 ∧ regPair a = true ∧ regListed a = true) → (tocAt a = none ∧ (a < 0x100 ∨ 0x500 ≤ a)) →
    (s.dev.reaches (.func f) a = true ∧ s.dev.regDead a = false ∧ s.dev.cutOff (.func f) a = false) → Runs (.counterLowRead f a)
    s (fun e => SMap.get 0 e.latch (2 ^ 32 * f + (a + 4)) = s.dev.rg (a + 4) ∧ (Output.hostData f (leBytes 4 (s.dev.regPeek a)))
    ∈ e.out ∧ Keeps s.dev e (fun _ => False) ∧ SameUnits s.dev e)) ∧
  -- CORE_STORE_WRITE (R43, R656)
  (∀ (s : State) (ag : Agent) (n off q : Nat) (bytes : List Byte), n < 256 → off + bytes.length ≤ 0x300000 → s.dev.may ag (.core
    n off) 0 0 = true → s.dev.physOf n = some q → q < 256 → s.dev.storeOn q = true → (s.dev.flag FLT_STAT 4 = false ∨ n < 128) →
    Runs (.coreStoreWrite ag n off bytes) s (fun e => (∀ k, k < bytes.length → e.mem.read (csBase q + off + k) = bytes.getD k
    0#8) ∧ MemKeeps s.dev e (fun a => csBase q + off ≤ a ∧ a < csBase q + off + bytes.length) ∧ RegKeeps s.dev e (fun a => a =
    SYN_ECCCORR q ∨ a = SYN_ECCUNC q ∨ a = SYN_STAT q) ∧ SameUnits s.dev e)) ∧
  -- ALIAS_WRITE of a Commons word with no uncorrectable error (R46, R47)
  (∀ (s : State) (ag : Agent) (k r o : Nat) (bytes : List Byte), (k = 1 ∨ k = 2) → r < 16 → o < 0x400000 → (bytes.length = 4 ∨
    bytes.length = 8) → o % bytes.length = 0 → s.dev.may ag (.commons k r o) 0 0 = true → s.dev.ownsBank r (o / 0x40000)
    (bankAgent ag r) = true → (s.dev.flag FLT_STAT 4 = false ∨ r < 8) → SMap.get 0 s.dev.ecc (8 * ((cmnBase r + o) / 8)) ≤ 1 →
    Runs (.aliasWrite ag (0x014000000000 + 0x100000000 * k + 0x400000 * r + o) bytes) s (fun e => e.rdN (cmnBase r + o)
    bytes.length = (if k = 1 then s.dev.rdN (cmnBase r + o) bytes.length ||| leNat bytes else s.dev.rdN (cmnBase r + o)
    bytes.length ^^^ (s.dev.rdN (cmnBase r + o) bytes.length &&& leNat bytes)) ∧ MemKeeps s.dev e (fun a => cmnBase r + o ≤ a ∧
    a < cmnBase r + o + bytes.length) ∧ RegKeeps s.dev e (fun a => a = CMN_ECCCORR r) ∧ SameUnits s.dev e)) ∧
  -- ALIAS_WRITE of a general register of a halted S-core (R46, R48)
  (∀ (s : State) (ag : Agent) (kind r k : Nat) (bytes : List Byte), (kind = 1 ∨ kind = 2) → r < 16 → k < 32 → bytes.length = 4 →
    s.dev.seqState r = 0 → WriteOk s.dev ag (SEQ_Gi_LO r 0 + 4 * k) → (s.dev.flag FLT_STAT 4 = false ∨ r < 8) → Runs
    (.aliasWrite ag (0x020000000000 + 0x100000000 * kind + SEQ_Gi_LO r 0 + 4 * k) bytes) s (fun e => e.rg (SEQ_Gi_LO r 0 + 4 *
    k) % 2 ^ 32 = (if kind = 1 then s.dev.rg (SEQ_Gi_LO r 0 + 4 * k) ||| leNat bytes else s.dev.rg (SEQ_Gi_LO r 0 + 4 * k) ^^^
    (s.dev.rg (SEQ_Gi_LO r 0 + 4 * k) &&& leNat bytes)) % 2 ^ 32 ∧ Keeps s.dev e (fun a => a = SEQ_Gi_LO r 0 + 4 * k) ∧
    SameUnits s.dev e))

/-- A READ of the partition's Commons is answered by READ_DATA with the bytes stored, a WRITE stores its bytes and is
  acknowledged, a BULK_WRITE stores its packet; a request of a Choked partition changes nothing and is counted. A reply that no
  request waits for is counted as late; the one a LOAD waits for writes GD and lets the S-core go on; a request out of time is
  counted and leaves. -/
def Obligations.FabricRequestsAndReplies : Prop :=
  -- READ_REQUEST of Commons words with no uncorrectable error (R40)
  (∀ (s : State) (q r ad n : Nat) (l : List Byte), q < 8 → (pktGood l = true ∧ pktType l = 0x20) → s.dev.choked (pktPart l) =
    false → s.dev.badAddress l = false → (n = rqLen l ∧ 1 ≤ n ∧ n ≤ 2048) → ad = rqAddr l % 2 ^ 48 → r < 16 → (cmnBase r ≤ ad ∧
    ad % 0x40000 + n ≤ 0x40000 ∧ ad + n ≤ cmnBase r + 0x400000) → s.dev.owns (pktPart l) r = true → s.dev.ownsBank r ((ad -
    cmnBase r) / 0x40000) ownRouter = true → s.dev.flag (CMN_OWN r ((ad - cmnBase r) / 0x40000)) 31 = false → s.dev.cleanAt ad n
    = true → s.dev.flag FLT_STAT 4 = false → Runs (.readRequest q l) s (fun e => e.inbox = s.dev.inbox.erase l ∧ LeavesTo s.dev
    e (q / 4) (pktSrc l) (fun b => pktType b = 0x30 ∧ pktDest b = pktSrc l ∧ pktTag b = pktTag l ∧ byteAt b 16 = 0 ∧ (pktPay
    b).take n = s.dev.rdB ad n) ∧ SameMem s.dev e ∧ SameUnits s.dev e)) ∧
  -- WRITE_REQUEST to Commons words (R40)
  (∀ (s : State) (q r ad n : Nat) (l : List Byte), q < 8 → (pktGood l = true ∧ pktType l = 0x21) → s.dev.choked (pktPart l) =
    false → s.dev.badAddress l = false → (n = rqLen l ∧ 1 ≤ n ∧ n ≤ 2048 ∧ n ≤ (pktPay l).length) → ad = rqAddr l % 2 ^ 48 → r <
    16 → (cmnBase r ≤ ad ∧ ad % 0x40000 + n ≤ 0x40000 ∧ ad + n ≤ cmnBase r + 0x400000) → s.dev.owns (pktPart l) r = true →
    s.dev.ownsBank r ((ad - cmnBase r) / 0x40000) ownRouter = true → s.dev.flag (CMN_OWN r ((ad - cmnBase r) / 0x40000)) 31 =
    false → s.dev.cleanAt ad n = true → s.dev.flag FLT_STAT 4 = false → Runs (.writeRequest q l) s (fun e => e.inbox =
    s.dev.inbox.erase l ∧ (∀ k, k < n → e.mem.read (ad + k) = (pktPay l).getD k 0#8) ∧ MemKeeps s.dev e (fun a => ad ≤ a ∧ a <
    ad + n) ∧ LeavesTo s.dev e (q / 4) (pktSrc l) (fun b => pktType b = 0x31 ∧ pktDest b = pktSrc l ∧ pktTag b = pktTag l ∧
    byteAt b 16 = 0) ∧ ((ad - cmnBase r) / 0x40000 ≠ 15 → SameUnits s.dev e) ∧ e.cores = s.dev.cores ∧ e.parts = s.dev.parts ∧
    e.tcores = s.dev.tcores ∧ e.scores = s.dev.scores)) ∧
  -- READ_REQUEST of a Choked partition (R606)
  (∀ (s : State) (q : Nat) (l : List Byte), q < 8 → (pktGood l = true ∧ pktType l = 0x20) → s.dev.choked (pktPart l) = true →
    Runs (.readRequest q l) s (fun e => e.rg FLT_CHOKEDROP = satInc (s.dev.rg FLT_CHOKEDROP) 1 % 2 ^ 32 ∧ LeavesTo s.dev e (q /
    4) (pktSrc l) (fun b => pktType b = 0x32 ∧ pktDest b = pktSrc l ∧ pktTag b = pktTag l ∧ byteAt b 16 = 2) ∧ SameMem s.dev e ∧
    SameUnits s.dev e)) ∧
  -- WRITE_REQUEST of a Choked partition (R606)
  (∀ (s : State) (q : Nat) (l : List Byte), q < 8 → (pktGood l = true ∧ pktType l = 0x21) → s.dev.choked (pktPart l) = true →
    Runs (.writeRequest q l) s (fun e => e.rg FLT_CHOKEDROP = satInc (s.dev.rg FLT_CHOKEDROP) 1 % 2 ^ 32 ∧ LeavesTo s.dev e (q /
    4) (pktSrc l) (fun b => pktType b = 0x32 ∧ pktDest b = pktSrc l ∧ pktTag b = pktTag l ∧ byteAt b 16 = 2) ∧ SameMem s.dev e ∧
    SameUnits s.dev e)) ∧
  -- BULK_WRITE of a Choked partition (R606)
  (∀ (s : State) (q : Nat) (l : List Byte), q < 8 → (pktGood l = true ∧ pktType l = 0x50) → s.dev.choked (pktPart l) = true →
    Runs (.bulkWrite q l) s (fun e => e.rg FLT_CHOKEDROP = satInc (s.dev.rg FLT_CHOKEDROP) 1 % 2 ^ 32 ∧ e.bulks = s.dev.bulks ∧
    LeavesTo s.dev e (q / 4) (pktSrc l) (fun b => pktType b = 0x32 ∧ pktDest b = pktSrc l ∧ pktTag b = pktTag l ∧ byteAt b 16 =
    2) ∧ SameMem s.dev e ∧ SameUnits s.dev e)) ∧
  -- READ_REQUEST whose address is in error (R39, R657)
  (∀ (s : State) (q : Nat) (l : List Byte), q < 8 → (pktGood l = true ∧ pktType l = 0x20) → s.dev.choked (pktPart l) = false →
    s.dev.badAddress l = true → Runs (.readRequest q l) s (fun e => e.rg (FAB_ADDRERR (q / 4)) = satInc (s.dev.rg (FAB_ADDRERR
    (q / 4))) 1 % 2 ^ 32 ∧ e.rg FLT_ADDRERR = satInc (s.dev.rg FLT_ADDRERR) 1 % 2 ^ 32 ∧ e.flag (FAB_DSTAT (q / 4)) 1 = true ∧
    LeavesTo s.dev e (q / 4) (pktSrc l) (fun b => pktType b = 0x32 ∧ pktDest b = pktSrc l ∧ pktTag b = pktTag l ∧ byteAt b 16 =
    1) ∧ SameMem s.dev e ∧ e.bulks = s.dev.bulks)) ∧
  -- WRITE_REQUEST whose address is in error (R39, R657)
  (∀ (s : State) (q : Nat) (l : List Byte), q < 8 → (pktGood l = true ∧ pktType l = 0x21) → s.dev.choked (pktPart l) = false →
    s.dev.badAddress l = true → Runs (.writeRequest q l) s (fun e => e.rg (FAB_ADDRERR (q / 4)) = satInc (s.dev.rg (FAB_ADDRERR
    (q / 4))) 1 % 2 ^ 32 ∧ e.rg FLT_ADDRERR = satInc (s.dev.rg FLT_ADDRERR) 1 % 2 ^ 32 ∧ e.flag (FAB_DSTAT (q / 4)) 1 = true ∧
    LeavesTo s.dev e (q / 4) (pktSrc l) (fun b => pktType b = 0x32 ∧ pktDest b = pktSrc l ∧ pktTag b = pktTag l ∧ byteAt b 16 =
    1) ∧ SameMem s.dev e ∧ e.bulks = s.dev.bulks)) ∧
  -- BULK_WRITE whose address is in error (R39, R657)
  (∀ (s : State) (q : Nat) (l : List Byte), q < 8 → (pktGood l = true ∧ pktType l = 0x50) → s.dev.choked (pktPart l) = false →
    s.dev.badAddress l = true → Runs (.bulkWrite q l) s (fun e => e.rg (FAB_ADDRERR (q / 4)) = satInc (s.dev.rg (FAB_ADDRERR (q
    / 4))) 1 % 2 ^ 32 ∧ e.rg FLT_ADDRERR = satInc (s.dev.rg FLT_ADDRERR) 1 % 2 ^ 32 ∧ e.flag (FAB_DSTAT (q / 4)) 1 = true ∧
    LeavesTo s.dev e (q / 4) (pktSrc l) (fun b => pktType b = 0x32 ∧ pktDest b = pktSrc l ∧ pktTag b = pktTag l ∧ byteAt b 16 =
    1) ∧ SameMem s.dev e ∧ e.bulks = s.dev.bulks)) ∧
  -- BULK_WRITE to Commons words (R254)
  (∀ (s : State) (q r ad n : Nat) (l : List Byte), q < 8 → (pktGood l = true ∧ pktType l = 0x50) → s.dev.choked (pktPart l) =
    false → s.dev.badAddress l = false → (n = rqLen l ∧ 1 ≤ n ∧ n ≤ 2048 ∧ n ≤ (pktPay l).length) → ad = rqAddr l % 2 ^ 48 → r <
    16 → (cmnBase r ≤ ad ∧ ad % 0x40000 + n ≤ 0x40000 ∧ ad + n ≤ cmnBase r + 0x400000) → s.dev.owns (pktPart l) r = true →
    s.dev.ownsBank r ((ad - cmnBase r) / 0x40000) ownRouter = true → s.dev.flag (CMN_OWN r ((ad - cmnBase r) / 0x40000)) 31 =
    false → s.dev.cleanAt ad n = true → s.dev.flag FLT_STAT 4 = false → s.dev.bulks = [] → Runs (.bulkWrite q l) s (fun e => (∀
    k, k < n → e.mem.read (ad + k) = (pktPay l).getD k 0#8) ∧ MemKeeps s.dev e (fun a => ad ≤ a ∧ a < ad + n) ∧ (e.bulks.map
    Bulk.got = if leAt l 32 2 ≤ 1 then [] else [[leAt l 30 2]]) ∧ ((ad - cmnBase r) / 0x40000 ≠ 15 → SameUnits s.dev e) ∧
    e.cores = s.dev.cores ∧ e.parts = s.dev.parts ∧ e.tcores = s.dev.tcores ∧ e.scores = s.dev.scores)) ∧
  -- BULK_ACK_TIMER (R254)
  (∀ (s : State) (k : Nat) (b : Bulk), s.dev.bulks[k]? = some b → b.die < 2 → Runs (.bulkAckTimer k) s (fun e => e.bulks =
    s.dev.bulks.filter (fun x => x != b) ∧ LeavesTo s.dev e b.die (b.src % 512) (fun y => pktType y = 0x33 ∧ pktDest y = b.src %
    512 ∧ pktTag y = b.tag % 65536 ∧ byteAt y 16 = (if b.got.length < b.npkt then 4 else 0)) ∧ SameMem s.dev e ∧ SameUnits s.dev
    e)) ∧
  -- BULK_ACK, which no transfer of this device waits for (R254)
  (∀ (s : State) (q : Nat) (l : List Byte), q < 8 → (pktGood l = true ∧ pktType l = 0x33) → Runs (.bulkAck q l) s (fun e => e.rg
    (FAB_LATEREPLY (q / 4)) = satInc (s.dev.rg (FAB_LATEREPLY (q / 4))) 1 % 2 ^ 32 ∧ Keeps s.dev e (fun a => a = FAB_LATEREPLY
    (q / 4)) ∧ SameUnits s.dev e)) ∧
  -- READ_DATA that a LOAD waits for (R252, R253, R402)
  (∀ (s : State) (q r : Nat) (l : List Byte) (x : Req) (o : SOp), q < 8 → r < 16 → (pktGood l = true ∧ pktType l = 0x30 ∧ byteAt
    l 16 = 0 ∧ leAt l 20 4 = 8) → s.dev.reqs.find? (fun y => y.tag == pktTag l && y.read) = some x → (x.read = true ∧ x.region =
    r ∧ x.off = 0 ∧ x.len = 8) → s.dev.opOf r x.id = some o → (dOpc o.desc = 4 ∧ o.log = [] ∧ o.pieces = []) → (∀ y, y ∈
    (s.dev.score r).ops → y.held = false) → s.dev.seqPc r < 4095 → Runs (.readData q l) s (fun e => e.greg r (dGd (s.dev.seqDesc
    r)) = leAt l 64 8 ∧ e.seqPc r = s.dev.seqPc r + 1 ∧ e.reqs = s.dev.reqs.filter (fun y => y.tag != x.tag) ∧ Keeps s.dev e
    (fun a => ScoreReg r a))) ∧
  -- WRITE_ACK of a STORE (R252, R253, R402)
  (∀ (s : State) (q r : Nat) (l : List Byte) (x : Req) (o : SOp), q < 8 → r < 16 → (pktGood l = true ∧ pktType l = 0x31) →
    s.dev.reqs.find? (fun y => y.tag == pktTag l && y.read == false) = some x → (x.read = false ∧ x.region = r ∧ x.off = 0) →
    s.dev.opOf r x.id = some o → (dOpc o.desc = 5 ∧ o.log = [] ∧ o.pieces = []) → (∀ y, y ∈ (s.dev.score r).ops → y.held =
    false) → s.dev.seqPc r < 4095 → Runs (.writeAck q l) s (fun e => e.seqPc r = s.dev.seqPc r + 1 ∧ e.opOf r x.id = none ∧
    e.reqs = s.dev.reqs.filter (fun y => y.tag != x.tag) ∧ Keeps s.dev e (fun a => ScoreReg r a))) ∧
  -- ERROR_REPLY that no request waits for (R253)
  (∀ (s : State) (q : Nat) (l : List Byte), q < 8 → (pktGood l = true ∧ pktType l = 0x32) → s.dev.reqs.find? (fun y => y.tag ==
    pktTag l) = none → Runs (.errorReply q l) s (fun e => e.rg (FAB_LATEREPLY (q / 4)) = satInc (s.dev.rg (FAB_LATEREPLY (q /
    4))) 1 % 2 ^ 32 ∧ Keeps s.dev e (fun a => a = FAB_LATEREPLY (q / 4)) ∧ SameUnits s.dev e)) ∧
  -- ERROR_REPLY to a STORE refused for its rights (R31, R253)
  (∀ (s : State) (q r : Nat) (l : List Byte) (x : Req) (o : SOp), q < 8 → r < 16 → (pktGood l = true ∧ pktType l = 0x32) →
    s.dev.reqs.find? (fun y => y.tag == pktTag l) = some x → (x.read = false ∧ x.region = r ∧ x.off = 0) → s.dev.opOf r x.id =
    some o → (dOpc o.desc = 5 ∧ o.log = [] ∧ o.pieces = []) → (∀ y, y ∈ (s.dev.score r).ops → y.held = false) → s.dev.seqPc r <
    4095 → Runs (.errorReply q l) s (fun e => e.seqPc r = s.dev.seqPc r + 1 ∧ e.opOf r x.id = none ∧ SameMem s.dev e)) ∧
  -- REQUEST_TIMEOUT of a STORE (R253)
  (∀ (s : State) (tag r : Nat) (x : Req) (o : SOp), r < 16 → s.dev.reqs.find? (fun y => y.tag == tag) = some x → x.region = r →
    s.dev.opOf r x.id = some o → dOpc o.desc = 5 → (∀ y, y ∈ (s.dev.score r).ops → y.held = false) → s.dev.seqPc r < 4095 → Runs
    (.requestTimeout tag) s (fun e => e.rg (FAB_REQTIMEOUT (dieOf r)) = satInc (s.dev.rg (FAB_REQTIMEOUT (dieOf r))) 1 % 2 ^ 32
    ∧ e.seqPc r = s.dev.seqPc r + 1 ∧ e.opOf r x.id = none ∧ e.reqs = s.dev.reqs.filter (fun y => y.tag != x.tag) ∧ Keeps s.dev
    e (fun a => ScoreReg r a ∨ a = FAB_REQTIMEOUT (dieOf r)))) ∧
  -- REQUEST_TIMEOUT of an ENCODE or RPUT, whose GD takes the status TIMEOUT (R253)
  (∀ (s : State) (tag r : Nat) (x : Req) (o : SOp), r < 16 → s.dev.reqs.find? (fun y => y.tag == tag) = some x → x.region = r →
    s.dev.opOf r x.id = some o → (dOpc o.desc = 0x11 ∨ dOpc o.desc = 0x18) → (∀ y, y ∈ (s.dev.score r).ops → y.held = false) →
    s.dev.seqPc r < 4095 → Runs (.requestTimeout tag) s (fun e => e.rg (FAB_REQTIMEOUT (dieOf r)) = satInc (s.dev.rg
    (FAB_REQTIMEOUT (dieOf r))) 1 % 2 ^ 32 ∧ e.greg r (dGd (s.dev.seqDesc r)) = Status.timeout.code ∧ e.seqPc r = s.dev.seqPc r
    + 1 ∧ e.reqs = s.dev.reqs.filter (fun y => y.tag != x.tag) ∧ Keeps s.dev e (fun a => ScoreReg r a ∨ a = FAB_REQTIMEOUT
    (dieOf r))))

/-- ETH_PORT_CONFIG moves a W port to Ethernet or fabric mode; SITE_SET writes a site entry R292 allows and SITE_READ answers
  it; the status commands answer the registers. A gathered datagram leaves by its site's port with SEQTX advanced, or its
  records are counted lost where no port is UP. A link that comes up or goes down shows in TUN_PSTAT. -/
def Obligations.TunnelCommandsAndEgress : Prop :=
  -- ETH_PORT_CONFIG to Ethernet mode (R284, R285)
  (∀ (s : State) (h : Hdr) (pl : List Byte) (w : Nat), Accepted s.dev cEthPortConfig h pl → w = byteAt pl 0 → w < 2 → (byteAt pl
    1 = 1 ∧ byteAt pl 2 < 6 ∧ byteAt pl 3 < 2) → s.dev.fld TAB_TLCTL 0 3 ≠ 3 + w → (s.dev.flag (TUN_PCFG w) 0 = true ∨
    s.dev.portState (6 + w) = 0 ∨ s.dev.portState (6 + w) = 3) → Runs (.ethPortConfig h pl) s (fun e => e.rg (TUN_PCFG w) = 1 +
    8 * byteAt pl 3 + 16 * byteAt pl 2 ∧ e.fld (TUN_PSTAT w) 0 2 = byteAt pl 3 ∧ e.portState (6 + w) = 4 ∧ e.portV4 w = (slice
    pl 4 4).reverse ∧ e.portV6 w = (slice pl 8 16).reverse ∧ SMap.get [] e.car.keepCfg (3 + w) = pl ∧ Answered s.dev e 0x0601 h
    .ok [] ∧ SameMem s.dev e)) ∧
  -- ETH_PORT_CONFIG back to fabric mode (R284, R285)
  (∀ (s : State) (h : Hdr) (pl : List Byte) (w : Nat), Accepted s.dev cEthPortConfig h pl → w = byteAt pl 0 → w < 2 → (byteAt pl
    1 = 0 ∧ byteAt pl 2 < 6 ∧ byteAt pl 3 < 2) → s.dev.fld TAB_TLCTL 0 3 ≠ 3 + w → Runs (.ethPortConfig h pl) s (fun e => e.rg
    (TUN_PCFG w) = 0 ∧ e.fld (TUN_PSTAT w) 0 2 = 0 ∧ e.portState (6 + w) = (if s.dev.portState (6 + w) = 4 then (if s.dev.flag
    (FAB_PCTL 1 (2 + w)) 0 then 1 else 0) else s.dev.portState (6 + w)) ∧ Answered s.dev e 0x0601 h .ok [] ∧ SameMem s.dev e)) ∧
  -- SITE_SET (R292)
  (∀ (s : State) (h : Hdr) (pl : List Byte), Accepted s.dev cSiteSet h pl → leAt pl 0 2 < 4096 → siteClean (slice pl 8 64) =
    true → s.dev.regionsOf (sitePart (slice pl 8 64)) ≠ [] → s.dev.flag (TAB_BCTL (sitePart (slice pl 8 64))) 4 = true →
    s.dev.flag (TUN_PCFG (sitePort (slice pl 8 64))) 0 = true → (siteValid (s.dev.site (leAt pl 0 2)) = true → s.dev.still
    (sitePart (s.dev.site (leAt pl 0 2))) = true) → Runs (.siteSet h pl) s (fun e => e.site (leAt pl 0 2) = slice pl 8 64 ∧ (∀
    k, k ≠ leAt pl 0 2 → e.site k = s.dev.site k) ∧ Answered s.dev e 0x0602 h .ok [] ∧ Keeps s.dev e (fun a => BookReg a) ∧
    SameUnits s.dev e)) ∧
  -- SITE_READ (R305)
  (∀ (s : State) (h : Hdr) (pl : List Byte), Accepted s.dev cSiteRead h pl → leAt pl 0 2 < 4096 → (h.func = 0 ∨ (siteValid
    (s.dev.site (leAt pl 0 2)) = true ∧ sitePart (s.dev.site (leAt pl 0 2)) = h.func)) → Fits s.dev h (s.dev.site (leAt pl 0
    2)).length → Runs (.siteRead h pl) s (fun e => Answered s.dev e 0x0603 h .ok (s.dev.site (leAt pl 0 2)) ∧ Keeps s.dev e (fun
    a => BookReg a) ∧ SameUnits s.dev e)) ∧
  -- TUN_STATUS (R305)
  (∀ (s : State) (h : Hdr) (pl : List Byte), Accepted s.dev cTunStatus h pl → Runs (.tunStatus h pl) s (fun e => Answered s.dev
    e 0x0604 h .ok (s.dev.regBytes TUN_CTL 36) ∧ Keeps s.dev e (fun a => BookReg a) ∧ SameUnits s.dev e)) ∧
  -- TUNNEL_EGRESS_SEND of a datagram whose lookups have ended or that is full (R293)
  (∀ (s : State) (k w : Nat) (x : TunPack), s.dev.tunPacks[k]? = some x → s.dev.sitePortUp (s.dev.site x.site) = some w →
    (s.dev.datagramMax (s.dev.site x.site) ≤ x.recs.length ∨ (s.dev.dieDone 0 x.part x.beat = true ∧ s.dev.dieDone 1 x.part
    x.beat = true)) → Runs (.tunnelEgressSend k) s (fun e => e.tunPacks = removeAt s.dev.tunPacks k ∧ (Output.frame w
    (s.dev.datagram w (s.dev.site x.site) x.beat x.recs)) ∈ e.out ∧ e.site x.site = splice (s.dev.site x.site) 48 (leBytes 4
    (leAt (s.dev.site x.site) 48 4 + 1)) ∧ e.rg64 TUN_TXEV_LO = inc64 (s.dev.rg64 TUN_TXEV_LO) x.recs.length ∧ Keeps s.dev e
    (fun a => a = TUN_TXEV_LO ∨ a = TUN_TXEV_HI) ∧ SameUnits s.dev e)) ∧
  -- TUNNEL_COALESCE_EXPIRY with its port UP (R293)
  (∀ (s : State) (k w : Nat) (x : TunPack), s.dev.tunPacks[k]? = some x → s.dev.sitePortUp (s.dev.site x.site) = some w → Runs
    (.tunnelCoalesceExpiry k) s (fun e => e.tunPacks = removeAt s.dev.tunPacks k ∧ (Output.frame w (s.dev.datagram w (s.dev.site
    x.site) x.beat x.recs)) ∈ e.out ∧ Keeps s.dev e (fun a => a = TUN_TXEV_LO ∨ a = TUN_TXEV_HI) ∧ SameUnits s.dev e)) ∧
  -- TUNNEL_COALESCE_EXPIRY with no port UP (R294)
  (∀ (s : State) (k : Nat) (x : TunPack), s.dev.tunPacks[k]? = some x → s.dev.sitePortUp (s.dev.site x.site) = none → Runs
    (.tunnelCoalesceExpiry k) s (fun e => e.tunPacks = removeAt s.dev.tunPacks k ∧ e.rg TUN_LINKDROP = satInc (s.dev.rg
    TUN_LINKDROP) x.recs.length % 2 ^ 32 ∧ Keeps s.dev e (fun a => a = TUN_LINKDROP) ∧ SameUnits s.dev e)) ∧
  -- ETH_LINK_UP (R284)
  (∀ (s : State) (w : Nat), w < 2 → s.dev.flag (TUN_PCFG w) 0 = true → Runs (.ethLinkUp ⟨w, true⟩) s (fun e => s.dev.flag
    FLT_STAT 4 = false → e.ethUp w = true ∧ e.fld (TUN_PSTAT w) 0 2 = 3 ∧ Keeps s.dev e (fun a => a = TUN_PSTAT w) ∧ SameUnits
    s.dev e)) ∧
  -- ETH_LINK_UP of auto-negotiation alone, after which training runs (R284)
  (∀ (s : State) (w : Nat), w < 2 → s.dev.flag (TUN_PCFG w) 0 = true → Runs (.ethLinkUp ⟨w, false⟩) s (fun e => e.fld (TUN_PSTAT
    w) 0 2 = (if s.dev.fld (TUN_PSTAT w) 0 2 = 1 then 2 else s.dev.fld (TUN_PSTAT w) 0 2) ∧ Keeps s.dev e (fun a => a =
    TUN_PSTAT w) ∧ SameUnits s.dev e)) ∧
  -- ETH_LINK_DOWN, after which auto-negotiation begins again where AN is set (R284, R294)
  (∀ (s : State) (w : Nat), w < 2 → s.dev.flag (TUN_PCFG w) 0 = true → Runs (.ethLinkDown w) s (fun e => e.fld (TUN_PSTAT w) 0 2
    = (if s.dev.flag (TUN_PCFG w) 3 then 1 else 0) ∧ e.ethUp w = false ∧ Keeps s.dev e (fun a => a = TUN_PSTAT w) ∧ SameUnits
    s.dev e))

/-- A frame with a bad FCS or a forbidden format is counted; one Carillon owes an answer is answered, others not of the tunnel
  are counted. A datagram of unknown site, a duplicate, a late or early one is counted or held as R295 to R297 say, a present
  one counts its events and advances its site's sequence state. PTP messages, timeouts and requests drive the slave clock's
  registers. -/
def Obligations.TunnelIngressAndPtp : Prop :=
  -- ETHERNET_FRAME with a bad FCS (R286)
  (∀ (s : State) (w : Nat) (frame : List Byte), w < 2 → s.dev.ethUp w = true → Runs (.ethernetFrame w frame false) s (fun e =>
    e.rg (TUN_FCSERR w) = satInc (s.dev.rg (TUN_FCSERR w)) 1 % 2 ^ 32 ∧ Keeps s.dev e (fun a => a = TUN_FCSERR w) ∧ SameUnits
    s.dev e)) ∧
  -- ETHERNET_FRAME of a forbidden length, double tag or flow control (R286)
  (∀ (s : State) (w : Nat) (frame : List Byte), w < 2 → s.dev.ethUp w = true → frameBad frame = true → Runs (.ethernetFrame w
    frame true) s (fun e => e.rg (TUN_RXDISC w) = satInc (s.dev.rg (TUN_RXDISC w)) 1 % 2 ^ 32 ∧ Keeps s.dev e (fun a => a =
    TUN_RXDISC w) ∧ SameUnits s.dev e)) ∧
  -- ETHERNET_FRAME that Carillon answers, or that no unit takes (R287)
  (∀ (s : State) (w : Nat) (frame : List Byte), w < 2 → s.dev.ethUp w = true → frameBad frame = false → (s.dev.keeps w
    (frame.take 6) = true ∧ etherType frame ≠ 0x88F7 ∧ s.dev.isTunnel frame = false) → Runs (.ethernetFrame w frame true) s (fun
    e => (∀ x, s.dev.answerOf w frame = some x → (if s.dev.car.pingSec = s.dev.time / 400000000 then SMap.get 0 s.dev.car.pings
    w else 0) < 1000 → (Output.frame w ((frame.drop 6).take 6 ++ s.dev.portMac w ++ (frame.drop 12).take (etherAt frame - 12) ++
    beBytes 2 (etherType frame) ++ x)) ∈ e.out) ∧ e.rg TUN_NONTUN = (if s.dev.answerOf w frame = none then satInc (s.dev.rg
    TUN_NONTUN) 1 % 2 ^ 32 else s.dev.rg TUN_NONTUN) ∧ Keeps s.dev e (fun a => a = TUN_NONTUN) ∧ SameUnits s.dev e)) ∧
  -- TUNNEL_DATAGRAM in a frame the port does not keep, or discards (R286)
  (∀ (s : State) (w : Nat) (f : List Byte), w < 2 → (frameBad f = true ∨ s.dev.keeps w (f.take 6) = false) → Runs
    (.tunnelDatagram w f) s (fun e => e.net = s.dev.net ∧ e.early = s.dev.early ∧ e.sites = s.dev.sites ∧ Keeps s.dev e (fun _
    => False) ∧ SameUnits s.dev e)) ∧
  -- TUNNEL_DATAGRAM that is a fragment or has a header error (R290, R295)
  (∀ (s : State) (w : Nat) (f : List Byte) (b : Bool), w < 2 → (s.dev.ethUp w = true ∧ s.dev.flag TUN_CTL 0 = true) → (frameBad
    f = false ∧ s.dev.keeps w (f.take 6) = true) → s.dev.unwrap w f = .error b → Runs (.tunnelDatagram w f) s (fun e => e.rg
    TUN_FRAG = (if b then s.dev.rg TUN_FRAG else satInc (s.dev.rg TUN_FRAG) 1 % 2 ^ 32) ∧ e.rg TUN_HDRERR = (if b then satInc
    (s.dev.rg TUN_HDRERR) 1 % 2 ^ 32 else s.dev.rg TUN_HDRERR) ∧ e.net = s.dev.net ∧ e.early = s.dev.early ∧ Keeps s.dev e (fun
    a => a = TUN_FRAG ∨ a = TUN_HDRERR ∨ a = TUN_STAT) ∧ SameUnits s.dev e)) ∧
  -- TUNNEL_DATAGRAM of whole records (R295 to R298)
  (∀ (s : State) (w site n : Nat) (f src u : List Byte), w < 2 → (s.dev.ethUp w = true ∧ s.dev.flag TUN_CTL 0 = true) →
    (frameBad f = false ∧ s.dev.keeps w (f.take 6) = true) → s.dev.unwrap w f = .ok (src, u) → tunnelOk u = true → (site = beNat
    (slice u 2 2) ∧ n = beNat (slice u 14 2)) → Runs (.tunnelDatagram w f) s (fun e => (siteValid (s.dev.site site) = false ∨
    slice (s.dev.site site) 32 16 ≠ src → e.rg TUN_NOSITE = satInc (s.dev.rg TUN_NOSITE) n % 2 ^ 32 ∧ e.sites = s.dev.sites ∧
    e.net = s.dev.net) ∧ (siteValid (s.dev.site site) = true ∧ slice (s.dev.site site) 32 16 = src ∧ seqCheck (s.dev.site site)
    (beNat (slice u 10 4)) = none → e.rg TUN_DUP = satInc (s.dev.rg TUN_DUP) 1 % 2 ^ 32 ∧ e.sites = s.dev.sites ∧ e.net =
    s.dev.net))) ∧
  -- TUNNEL_DATAGRAM of a known site in sequence (R295 to R298)
  (∀ (s : State) (w site n g p : Nat) (f src u ent : List Byte), w < 2 → (s.dev.ethUp w = true ∧ s.dev.flag TUN_CTL 0 = true) →
    (frameBad f = false ∧ s.dev.keeps w (f.take 6) = true) → s.dev.unwrap w f = .ok (src, u) → tunnelOk u = true → (site = beNat
    (slice u 2 2) ∧ n = beNat (slice u 14 2)) → (siteValid (s.dev.site site) = true ∧ slice (s.dev.site site) 32 16 = src ∧ p =
    sitePart (s.dev.site site)) → seqCheck (s.dev.site site) (beNat (slice u 10 4)) = some (ent, g) → ent.length = 64 → Runs
    (.tunnelDatagram w f) s (fun e => e.site site = ent ∧ e.rg TUN_SEQGAP = (if g = 0 then s.dev.rg TUN_SEQGAP else satInc
    (s.dev.rg TUN_SEQGAP) g % 2 ^ 32) ∧ (s.dev.bstate p ≠ 1 → e.rg TUN_IDLEDROP = satInc (s.dev.rg TUN_IDLEDROP) n % 2 ^ 32 ∧
    e.net = s.dev.net) ∧ (s.dev.bstate p = 1 → 2 < beatSub (beNat (slice u 4 6)) (s.dev.beat p) → e.rg TUN_OOW = satInc
    (s.dev.rg TUN_OOW) n % 2 ^ 32 ∧ e.net = s.dev.net) ∧ (s.dev.bstate p = 1 → 0 < beatSub (beNat (slice u 4 6)) (s.dev.beat p)
    → beatSub (beNat (slice u 4 6)) (s.dev.beat p) ≤ 2 → 8 * ((s.dev.early.map (fun x => x.recs.length)).sum + n) ≤ 65536 →
    e.early.length = s.dev.early.length + 1 ∧ e.rg TUN_EARLY = satInc (s.dev.rg TUN_EARLY) n % 2 ^ 32) ∧ (s.dev.bstate p = 1 →
    beatSub (beNat (slice u 4 6)) (s.dev.beat p) ≤ 0 → -(s.dev.fld TUN_LIMITS 16 12 : Int) ≤ beatSub (beNat (slice u 4 6))
    (s.dev.beat p) → e.rg64 TUN_RXEV_LO = inc64 (s.dev.rg64 TUN_RXEV_LO) n))) ∧
  -- EARLY_PRESENT (R297)
  (∀ (s : State) (p : Nat), p < 16 → Runs (.earlyPresent p) s (fun e => e.early = s.dev.early.filter (fun x => ! (sitePart
    (s.dev.site x.site) == p && decide (beatSub x.beat (s.dev.beat p) ≤ 0))) ∧ e.rg64 TUN_RXEV_LO = inc64 (s.dev.rg64
    TUN_RXEV_LO) ((s.dev.early.filter (fun x => sitePart (s.dev.site x.site) == p && decide (beatSub x.beat (s.dev.beat p) ≤
    0))).map (fun x => x.recs.length)).sum)) ∧
  -- PTP_CONFIG (R305)
  (∀ (s : State) (h : Hdr) (pl : List Byte), Accepted s.dev cPtpConfig h pl → (24 ≤ byteAt pl 0 ∧ byteAt pl 0 ≤ 43) → byteAt pl
    2 < 2 → byteAt pl 3 < 2 → s.dev.flag (TUN_PCFG (byteAt pl 3)) 0 = true → Runs (.ptpConfig h pl) s (fun e => e.rg TUN_PTPCFG
    = 65536 * byteAt pl 0 + 256 * byteAt pl 1 + 2 * byteAt pl 2 ∧ e.rg (TUN_PTPASYM (byteAt pl 3)) = leAt pl 4 4 ∧ SMap.get []
    e.car.keepCfg 2 = pl ∧ Answered s.dev e 0x0605 h .ok [] ∧ Keeps s.dev e (fun a => BookReg a ∨ a = TUN_PTPCFG ∨ a =
    TUN_PTPASYM (byteAt pl 3)) ∧ SameUnits s.dev e)) ∧
  -- PTP_STATUS (R305)
  (∀ (s : State) (h : Hdr) (pl : List Byte), Accepted s.dev cPtpStatus h pl → Runs (.ptpStatus h pl) s (fun e => Answered s.dev
    e 0x0606 h .ok (if h.func = 0 then s.dev.regBytes TUN_PTPCFG 6 else zeros 24) ∧ Keeps s.dev e (fun a => BookReg a) ∧
    SameUnits s.dev e)) ∧
  -- PTP_MESSAGE: an Announce while no master is chosen (R300, R302)
  (∀ (s : State) (w dt ts : Nat) (m : List Byte), s.dev.ptpPort = some w → byteAt m 4 = s.dev.fld TUN_PTPCFG 16 8 → 34 ≤
    m.length → byteAt m 0 % 16 = 0xB → s.dev.ptp.master = [] → Runs (.ptpMessage w m ⟨dt, ts⟩) s (fun e => e.ptp.master = slice
    m 20 10 ∧ e.rg TUN_PTPGM_HI = beNat (slice m 53 4) ∧ e.rg TUN_PTPGM_LO = beNat (slice m 57 4) ∧ e.fld TUN_PTPSTAT 0 2 = (if
    s.dev.fld TUN_PTPSTAT 0 2 = 0 then 1 else s.dev.fld TUN_PTPSTAT 0 2) ∧ Keeps s.dev e (fun a => a = TUN_PTPGM_HI ∨ a =
    TUN_PTPGM_LO ∨ a = TUN_PTPSTAT ∨ TickReg a) ∧ SameUnits s.dev e)) ∧
  -- PTP_MESSAGE: a two-step Sync of the chosen master (R300, R301)
  (∀ (s : State) (w dt ts : Nat) (m : List Byte), s.dev.ptpPort = some w → byteAt m 4 = s.dev.fld TUN_PTPCFG 16 8 → 34 ≤
    m.length → (byteAt m 0 % 16 = 0 ∧ bitAt (byteAt m 6) 1 = true) → s.dev.ptp.master = slice m 20 10 → Runs (.ptpMessage w m
    ⟨dt, ts⟩) s (fun e => e.ptp.sync = some (beNat (slice m 30 2), s.dev.localTime w ts false - shrI (sInt 64 (beNat (slice m 8
    8)) * 1000) 16) ∧ Keeps s.dev e (fun a => TickReg a) ∧ SameUnits s.dev e)) ∧
  -- PTP_TIMEOUT (R302)
  (∀ (s : State), s.dev.ptpPort.isSome = true → Runs (.ptpTimeout) s (fun e => e.ptp.master = [] ∧ e.ptp.good = 0 ∧ e.ptp.last =
    none ∧ e.fld TUN_PTPSTAT 0 2 = (if s.dev.tlState = 2 ∨ s.dev.tlState = 3 then 3 else 0) ∧ e.tlState = (if s.dev.tlState = 2
    then 3 else s.dev.tlState) ∧ SameMem s.dev e)) ∧
  -- PTP_DELAY_REQ_SEND (R300)
  (∀ (s : State) (ts w : Nat), s.dev.ptpPort = some w → s.dev.ptp.master ≠ [] → s.dev.ethUp w = true → Runs (.ptpDelayReqSend
    ts) s (fun e => e.ptp.delay = some (s.dev.ptp.seq, s.dev.localTime w ts true) ∧ e.ptp.seq = (s.dev.ptp.seq + 1) % 65536 ∧
    e.out.length ≠ s.dev.out.length ∧ Keeps s.dev e (fun _ => False) ∧ SameUnits s.dev e))

/-- RULE_LOAD stores a rule that passes the checks in the cores it names and sets its RULEVALID bit; RULE_READ and HRV_STATUS
  answer what is stored. SEASON_CONFIG and SEED_SET write the registers of every core of a still partition, MOD_SET arms its
  value on every core and waits for the beat, REV_LOAD writes reverse-index words and NDIR. -/
def Obligations.HarvestCommands : Prop :=
  -- RULE_LOAD into one core (R317)
  (∀ (s : State) (h : Hdr) (pl : List Byte) (q : Nat), Accepted s.dev cRuleLoad h pl → NamesCore s.dev h.part (leAt pl 0 2) q →
    s.dev.still h.part = true → byteAt pl 2 < 16 → ruleOk (pl.drop 8) = true → Runs (.ruleLoad h pl) s (fun e => s.dev.rule q
    (byteAt pl 2) = SMap.get [] (s.dev.core q).rules (byteAt pl 2) ∧ e.rule q (byteAt pl 2) = pl.drop 8 ∧ (∀ k, k ≠ byteAt pl 2
    → e.rule q k = s.dev.rule q k) ∧ (∀ k, k ≠ q → e.core k = s.dev.core k) ∧ e.flag (HRV_RULEVALID q) (byteAt pl 2) = ruleValid
    (pl.drop 8) ∧ Answered s.dev e 0x0701 h .ok [] ∧ Keeps s.dev e (fun a => BookReg a ∨ a = HRV_RULEVALID q))) ∧
  -- RULE_LOAD into every usable core (R317)
  (∀ (s : State) (h : Hdr) (pl : List Byte), Accepted s.dev cRuleLoad h pl → leAt pl 0 2 = 0xFFFF → s.dev.still h.part = true →
    byteAt pl 2 < 16 → ruleOk (pl.drop 8) = true → Runs (.ruleLoad h pl) s (fun e => (∀ q, q ∈ s.dev.sitesOf h.part → e.rule q
    (byteAt pl 2) = pl.drop 8 ∧ e.flag (HRV_RULEVALID q) (byteAt pl 2) = ruleValid (pl.drop 8)) ∧ Answered s.dev e 0x0701 h .ok
    [] ∧ Keeps s.dev e (fun a => BookReg a ∨ ∃ q, q < 256 ∧ a = HRV_RULEVALID q))) ∧
  -- RULE_READ (R357)
  (∀ (s : State) (h : Hdr) (pl : List Byte) (q : Nat), Accepted s.dev cRuleRead h pl → NamesCore s.dev h.part (leAt pl 0 2) q →
    byteAt pl 2 < 16 → Runs (.ruleRead h pl) s (fun e => Answered s.dev e 0x0702 h .ok (padTo 64 (s.dev.rule q (byteAt pl 2))) ∧
    Keeps s.dev e (fun a => BookReg a) ∧ SameUnits s.dev e)) ∧
  -- SEASON_CONFIG (R348, R357)
  (∀ (s : State) (h : Hdr) (pl : List Byte), Accepted s.dev cSeasonConfig h pl → s.dev.still h.part = true → (0 < leAt pl 0 2 ∧
    0 < leAt pl 2 2 ∧ 0 < leAt pl 4 4 ∧ leAt pl 4 4 < 2 ^ 24) → (leAt pl 0 2 ≠ s.dev.seasonLen h.part → s.dev.ckptTooFast h.part
    (s.dev.fld (TAB_BPERIOD h.part) 0 29) (leAt pl 0 2) = false) → Runs (.seasonConfig h pl) s (fun e => (∀ q, q ∈ s.dev.sitesOf
    h.part → e.rg (HRV_SEASON q) = leAt pl 0 2 ∧ e.rg (HRV_HWIN q) = leAt pl 2 2 ∧ e.rg (HRV_BUDGET q) = leAt pl 4 4 ∧ e.rg
    (HRV_CTL q) = bitsOf (byteAt pl 8) 0 1 + 4 * bitsOf (byteAt pl 8) 1 1 + 8 * bitsOf (byteAt pl 8) 2 1) ∧ Answered s.dev e
    0x0703 h .ok [] ∧ Keeps s.dev e (fun a => BookReg a ∨ ∃ q, q < 256 ∧ (a = HRV_SEASON q ∨ a = HRV_HWIN q ∨ a = HRV_BUDGET q ∨
    a = HRV_CTL q)) ∧ SameUnits s.dev e)) ∧
  -- MOD_SET (R325, R326)
  (∀ (s : State) (h : Hdr) (pl : List Byte), Accepted s.dev cModSet h pl → Runs (.modSet h pl) s (fun e => (∀ q, q ∈
    s.dev.sitesOf h.part → e.rg (HRV_MODNEXT q) = leAt pl 2 2 * 65536 + 32768 + byteAt pl 0) ∧ Waits s.dev e cModSet h pl (.mod
    (leAt pl 2 6)) ∧ Keeps s.dev e (fun a => BookReg a ∨ ∃ q, q < 256 ∧ a = HRV_MODNEXT q) ∧ SameUnits s.dev e)) ∧
  -- SEED_SET (R306, R357)
  (∀ (s : State) (h : Hdr) (pl : List Byte), Accepted s.dev cSeedSet h pl → s.dev.still h.part = true → leAt pl 0 4 ≠ 0 → Runs
    (.seedSet h pl) s (fun e => (∀ q, q ∈ s.dev.sitesOf h.part → e.rg (HRV_SEED q) = leAt pl 0 4) ∧ Answered s.dev e 0x0705 h
    .ok [] ∧ Keeps s.dev e (fun a => BookReg a ∨ ∃ q, q < 256 ∧ a = HRV_SEED q) ∧ SameUnits s.dev e)) ∧
  -- REV_LOAD (R320, R357)
  (∀ (s : State) (h : Hdr) (pl : List Byte) (q : Nat), Accepted s.dev cRevLoad h pl → NamesCore s.dev h.part (leAt pl 0 2) q →
    s.dev.still h.part = true → leAt pl 2 2 ≤ s.dev.areaLen (SYN_PMREV q) / 4 → leAt pl 4 4 + leAt pl 8 4 ≤ s.dev.areaLen
    (SYN_PMREV q) / 4 → Runs (.revLoad h pl) s (fun e => e.rg (HRV_REVCFG q) = leAt pl 2 2 ∧ (∀ k, k < 4 * leAt pl 8 4 →
    e.mem.read (s.dev.areaBase q (SYN_PMREV q) + 4 * leAt pl 4 4 + k) = pl.getD (16 + k) 0#8) ∧ MemKeeps s.dev e (fun a =>
    s.dev.areaBase q (SYN_PMREV q) + 4 * leAt pl 4 4 ≤ a ∧ a < s.dev.areaBase q (SYN_PMREV q) + 4 * leAt pl 4 4 + 4 * leAt pl 8
    4) ∧ Answered s.dev e 0x0706 h .ok [] ∧ RegKeeps s.dev e (fun a => BookReg a ∨ a = HRV_REVCFG q ∨ a = SYN_ECCCORR q ∨ a =
    SYN_ECCUNC q ∨ a = SYN_STAT q) ∧ SameUnits s.dev e)) ∧
  -- HRV_STATUS (R357)
  (∀ (s : State) (h : Hdr) (pl : List Byte) (q : Nat), Accepted s.dev cHrvStatus h pl → NamesCore s.dev h.part (leAt pl 0 2) q →
    Runs (.hrvStatus h pl) s (fun e => Answered s.dev e 0x070C h .ok (s.dev.regBytes (HRV_CTL q) 29) ∧ Keeps s.dev e (fun a =>
    BookReg a) ∧ SameUnits s.dev e))

/-- The post pass reads one fire-log entry; the harvest engine takes one position and moves its pointer on, writing no more than
  the row's body; a harvest that overruns is counted and ends; the sweep moves its pointer on. Harvesting a synapse keeps its
  target and every other synapse, moves the delay by at most one, keeps the weight or clamps it to the rule's bounds, and decays
  the eligibility. -/
def Obligations.HarvestEngine : Prop :=
  -- POST_PASS_ENTRY of a neuron the reverse index does not list (R320 to R322)
  (∀ (s : State) (q p pos : Nat), q < 256 → s.dev.hrvPart q = some p → s.dev.nextPost q = some pos → s.dev.hrvJob q p = 2 →
    s.dev.fld (HRV_REVCFG q) 0 16 ≤ leAt (s.dev.rdB (s.dev.flBase q + 8 * pos) 8) 0 2 → Runs (.postPassEntry q) s (fun e =>
    (bitAt (SMap.get 0 (e.core q).flDone pos) 1 = true ∨ e.rg (NEU_FLCOUNT q) ≠ s.dev.rg (NEU_FLCOUNT q)) ∧ e.flag (HRV_STAT q)
    1 = (e.nextPost q).isSome ∧ Keeps s.dev e (fun a => a = NEU_FLHEAD q ∨ a = NEU_FLCOUNT q ∨ a = HRV_STAT q ∨ a = OBS_BUSY_LO
    q 2 ∨ a = OBS_BUSY_HI q 2))) ∧
  -- POST_PASS_ENTRY of a neuron with one list word, no ECC error, whose synapse is one of a packed plastic row (R316, R318, R321)
  (∀ (s : State) (q p pos i w l : Nat) (x : List Byte) (loc : RowLoc) (y : Syn), q < 256 → s.dev.hrvPart q = some p →
    s.dev.nextPost q = some pos → s.dev.hrvJob q p = 2 → s.dev.ecc = [] → x = s.dev.rdB (s.dev.flBase q + 8 * pos) 8 → (i = leAt
    x 0 2 ∧ i < s.dev.fld (HRV_REVCFG q) 0 16 ∧ 4 * i + 4 ≤ s.dev.areaLen (SYN_PMREV q)) → bitsOf (s.dev.rdN (s.dev.areaBase q
    (SYN_PMREV q) + 4 * i) 4) 0 14 = 1 → 4 * bitsOf (s.dev.rdN (s.dev.areaBase q (SYN_PMREV q) + 4 * i) 4) 14 18 + 4 ≤
    s.dev.areaLen (SYN_PMREV q) → w = s.dev.rdN (s.dev.areaBase q (SYN_PMREV q) + 4 * bitsOf (s.dev.rdN (s.dev.areaBase q
    (SYN_PMREV q) + 4 * i) 4) 14 18) 4 → (l = bitsOf w 5 10 ∧ l < 64) → s.dev.poisonAt q (bitsOf w 15 17) = none → s.dev.resolve
    q (bitsOf w 15 17) = some loc → loc.fmt = 5 → bitAt (hdrFlags (s.dev.rdB loc.hdr (fmtHeader 5))) 0 = true → y = synOf 5
    (s.dev.rdB loc.hdr (fmtHeader 5)) (s.dev.rdB loc.body 128) l → y.target = i → ruleValid (s.dev.rule q (hdrRule 5 (s.dev.rdB
    loc.hdr (fmtHeader 5)))) = true → ruleTerms (s.dev.rule q (hdrRule 5 (s.dev.rdB loc.hdr (fmtHeader 5)))) 1 = [] → Runs
    (.postPassEntry q) s (fun e => e.rg64 (HRV_PSYN_LO q) = inc64 (s.dev.rg64 (HRV_PSYN_LO q)) 1 ∧ e.rg (HRV_REVERR q) =
    s.dev.rg (HRV_REVERR q) ∧ synOf 5 (e.rdB loc.hdr (fmtHeader 5)) (e.rdB loc.body 128) l = y ∧ (e.core q).gen = (s.dev.core
    q).gen)) ∧
  -- HARVEST_ROW at a position that holds no row or a listed one (R324, R329)
  (∀ (s : State) (q p k : Nat) (u : Nat), q < 256 → s.dev.hrvPart q = some p → s.dev.hrvJob q p = 3 → s.dev.running p = true → k
    = s.dev.fld (HRV_HPTR q) 0 17 → (((s.dev.readPos q k).2 = .passed ∧ u = 1) ∨ (s.dev.readPos q k).2 = .listed u) → Runs
    (.harvestRow q) s (fun e => e.fld (HRV_HPTR q) 0 17 = (k + u) % 2 ^ 17 ∧ (s.dev.npos q ≤ k + u → e.flag (HRV_STAT q) 0 =
    false ∧ e.flag (HRV_STAT q) 2 = true) ∧ (k + u < s.dev.npos q → (e.core q).hSpent = (if (s.dev.core q).hBeat = (s.dev.region
    (q / 16)).beat then (s.dev.core q).hSpent else 0) + 1) ∧ SameMem s.dev e)) ∧
  -- HARVEST_ROW of a row found uncorrectable, which is listed and not harvested (R324, R329, R658)
  (∀ (s : State) (q p k n f ra : Nat), q < 256 → s.dev.hrvPart q = some p → s.dev.hrvJob q p = 3 → s.dev.running p = true → k =
    s.dev.fld (HRV_HPTR q) 0 17 → (s.dev.posRa q (s.dev.plasticZones q) k = some (f, ra) ∧ ra < 2 ^ 17) → (s.dev.readPos q k).2
    = .bad n → Runs (.harvestRow q) s (fun e => e.fld (HRV_HPTR q) 0 17 = (k + n) % 2 ^ 17 ∧ e.rg (SYN_ECCUNC q) = satInc
    (s.dev.rg (SYN_ECCUNC q)) 1 % 2 ^ 32 ∧ (e.poisonAt q ra).isSome = true ∨ e.flag (SYN_STAT q) 5 = true ∧ SameMem s.dev e)) ∧
  -- HARVEST_ROW of a row (R329, R330, R333)
  (∀ (s : State) (q p k : Nat) (x : PRow), q < 256 → s.dev.hrvPart q = some p → s.dev.hrvJob q p = 3 → s.dev.running p = true →
    k = s.dev.fld (HRV_HPTR q) 0 17 → (s.dev.readPos q k).2 = .row x → Runs (.harvestRow q) s (fun e => e.fld (HRV_HPTR q) 0 17
    = (k + x.units) % 2 ^ 17 ∧ (bitAt (hdrFlags x.h) 0 = false → SameMem s.dev e) ∧ (ruleValid (s.dev.rule q (hdrRule x.fmt
    x.h)) = false → SameMem s.dev e) ∧ (bitAt (hdrFlags x.h) 0 = true → ruleValid (s.dev.rule q (hdrRule x.fmt x.h)) = false →
    e.flag (HRV_STAT q) 8 = true) ∧ MemKeeps s.dev e (fun a => x.body ≤ a ∧ a < x.body + x.b.length))) ∧
  -- HARVEST_OVERRUN (R334)
  (∀ (s : State) (q p : Nat), q < 256 → s.dev.hrvPart q = some p → (s.dev.core q).hOver = true → Runs (.harvestOverrun q) s (fun
    e => (e.core q).hOver = false ∧ e.flag (HRV_STAT q) 4 = true ∧ e.flag (HRV_STAT q) 0 = false ∧ e.flag (HRV_STAT q) 3 = false
    ∧ e.rg (HRV_OVRCNT q) = satInc (s.dev.rg (HRV_OVRCNT q)) 1 % 2 ^ 32 ∧ e.rg (HRV_HSKIP q) = satInc (s.dev.rg (HRV_HSKIP q))
    (Dev.rowsLeft q (s.dev.npos q) (s.dev.npos q) (s.dev.fld (HRV_HPTR q) 0 17) s.dev) % 2 ^ 32)) ∧
  -- ROW_SWEEP_VISIT (R323, R324)
  (∀ (s : State) (q p k : Nat) (sw : Nat × Nat) (rest : List (Nat × Nat)), q < 256 → s.dev.hrvPart q = some p → s.dev.hrvJob q p
    = 1 → (s.dev.core q).sweeps = sw :: rest → k = s.dev.fld (HRV_SWEEP q) 0 17 % max 1 (s.dev.npos q) → Runs (.rowSweepVisit q)
    s (fun e => e.fld (HRV_SWEEP q) 0 17 = (k + (s.dev.readPos q k).2.units) % max 1 (s.dev.npos q) % 2 ^ 17 ∧ (e.core q).sweeps
    = (if (s.dev.readPos q k).2.units < sw.1 then (sw.1 - (s.dev.readPos q k).2.units, sw.2) :: rest else rest) ∧ (∀ x,
    (s.dev.readPos q k).2 = .row x → MemKeeps s.dev e (fun a => x.hdr ≤ a ∧ a < x.hdr + x.h.length)) ∧ ((∀ x, (s.dev.readPos q
    k).2 ≠ .row x) → SameMem s.dev e))) ∧
  -- one synapse at harvest (R330 to R332)
  (∀ (d : Dev) (q l : Nat) (r b : List Byte) (x : PRow), fmtPlastic x.fmt = true → synSize x.fmt * l + synSize x.fmt ≤ b.length
    → (x.fmt = 6 → (synOf 6 x.h b l).age ≠ 255) → max (sInt 8 (byteAt r 8)) (if x.fmt = 6 then -128 else -8) ≤ min (sInt 8
    (byteAt r 9)) (if x.fmt = 6 then 127 else 7) → ((synOf x.fmt x.h (d.harvestSyn q r x l b).2 l).target = (synOf x.fmt x.h b
    l).target ∧ (∀ k, k ≠ l → synOf x.fmt x.h (d.harvestSyn q r x l b).2 k = synOf x.fmt x.h b k) ∧ (synOf x.fmt x.h
    (d.harvestSyn q r x l b).2 l).elig = tz (synOf x.fmt x.h b l).elig (2 ^ (byteAt r 10 % 16)) ∧ ((synOf x.fmt x.h
    (d.harvestSyn q r x l b).2 l).weight = (synOf x.fmt x.h b l).weight ∨ max (sInt 8 (byteAt r 8)) (if x.fmt = 6 then -128 else
    -8) ≤ (synOf x.fmt x.h (d.harvestSyn q r x l b).2 l).weight ∧ (synOf x.fmt x.h (d.harvestSyn q r x l b).2 l).weight ≤ min
    (sInt 8 (byteAt r 9)) (if x.fmt = 6 then 127 else 7)) ∧ (synOf x.fmt x.h (d.harvestSyn q r x l b).2 l).delay ≤ (synOf x.fmt
    x.h b l).delay + 1 ∧ (synOf x.fmt x.h b l).delay ≤ (synOf x.fmt x.h (d.harvestSyn q r x l b).2 l).delay + 1 ∧ ((d.harvestSyn
    q r x l b).1.mem = d.mem)))

/-- CKPT_CONFIG and CKPT_QUOTA file their settings, CKPT_STATUS answers them. CKPT_NOW and the end of a saved Season start a
  copy into the slot after the newest valid one; the commit makes that slot hold the image and ends the commands that wait; the
  export writes payload and then header to the host. CKPT_RESTORE writes the records of the newest valid slot back and leaves
  the partition IDLE. -/
def Obligations.Checkpoints : Prop :=
  -- CKPT_CONFIG (R345, R348)
  (∀ (s : State) (h : Hdr) (pl : List Byte) (b : Nat), Accepted s.dev cCkptConfig h pl → s.dev.harvestOn h.part = false → b = 1
    + ceilDiv (s.dev.imageLen h.part (bitAt (byteAt pl 0) 2)) 65536 → leAt pl 2 2 ≠ 0 → (bitAt (byteAt pl 0) 0 = true → 2 ≤ leAt
    pl 4 4 / b ∧ keepTicks ≤ leAt pl 4 4 / b * leAt pl 2 2 * s.dev.seasonLen h.part * s.dev.fld (TAB_BPERIOD h.part) 0 29) →
    (bitAt (byteAt pl 0) 1 = true → 128 + s.dev.imageLen h.part (bitAt (byteAt pl 0) 2) ≤ leAt pl 16 8 ∧ leAt pl 8 8 % 64 = 0) →
    leAt pl 4 4 ≤ (s.dev.part h.part).ckpt.quota → Runs (.ckptConfig h pl) s (fun e => (e.part h.part).ckpt.flags = byteAt pl 0
    ∧ (e.part h.part).ckpt.every = leAt pl 2 2 ∧ (e.part h.part).ckpt.nblocks = leAt pl 4 4 ∧ (e.part h.part).ckpt.hostAddr =
    leAt pl 8 8 ∧ (e.part h.part).ckpt.hostSize = leAt pl 16 8 ∧ (e.part h.part).ckpt.blocks = b ∧ (e.part h.part).ckpt.nslot =
    leAt pl 4 4 / b ∧ (e.part h.part).ckpt.quota = (s.dev.part h.part).ckpt.quota ∧ (e.part h.part).ckpt.erases = (s.dev.part
    h.part).ckpt.erases ∧ (∀ k, k ≠ h.part → e.part k = s.dev.part k) ∧ Answered s.dev e 0x0707 h .ok [] ∧ Keeps s.dev e (fun a
    => BookReg a))) ∧
  -- CKPT_NOW with KEEP, where the image fits its slot (R345, R349)
  (∀ (s : State) (h : Hdr) (pl : List Byte), Accepted s.dev cCkptNow h pl → s.dev.harvestOn h.part = false → (s.dev.part
    h.part).ckpt.copy = none → bitAt (s.dev.part h.part).ckpt.flags 0 = true → s.dev.keepPaced h.part = true → s.dev.muted
    h.part = false → 1 + ceilDiv (s.dev.imageLen h.part (bitAt (s.dev.part h.part).ckpt.flags 2)) 65536 ≤ (s.dev.part
    h.part).ckpt.blocks → s.dev.newestSlot h.part = none → Runs (.ckptNow h pl) s (fun e => (e.part h.part).ckpt.copy = some (0,
    (s.dev.part h.part).ckpt.seq + 1) ∧ (e.part h.part).ckpt.toKeep = true ∧ (e.part h.part).ckpt.toHost = bitAt (s.dev.part
    h.part).ckpt.flags 1 ∧ (e.part h.part).ckpt.image = s.dev.imageOf h.part ((s.dev.part h.part).ckpt.seq + 1) ∧ SMap.get []
    (e.part h.part).ckpt.slots 0 = [] ∧ (∀ j, j < (s.dev.part h.part).ckpt.blocks → SMap.get 0 (e.part h.part).ckpt.erases j =
    SMap.get 0 (s.dev.part h.part).ckpt.erases j + 1) ∧ Waits s.dev e cCkptNow h pl .ckpt ∧ (∀ k, k ≠ h.part → e.part k =
    s.dev.part k) ∧ Keeps s.dev e (fun a => BookReg a))) ∧
  -- CKPT_NOW with HOST alone (R349, R352)
  (∀ (s : State) (h : Hdr) (pl : List Byte), Accepted s.dev cCkptNow h pl → s.dev.harvestOn h.part = false → (s.dev.part
    h.part).ckpt.copy = none → bitAt (s.dev.part h.part).ckpt.flags 0 = false → bitAt (s.dev.part h.part).ckpt.flags 1 = true →
    s.dev.muted h.part = false → Runs (.ckptNow h pl) s (fun e => (e.part h.part).ckpt.copy.map Prod.snd = some ((s.dev.part
    h.part).ckpt.seq + 1) ∧ (e.part h.part).ckpt.toKeep = false ∧ (e.part h.part).ckpt.toHost = true ∧ (e.part
    h.part).ckpt.slots = (s.dev.part h.part).ckpt.slots ∧ (e.part h.part).ckpt.image = s.dev.imageOf h.part ((s.dev.part
    h.part).ckpt.seq + 1) ∧ Waits s.dev e cCkptNow h pl .ckpt ∧ Keeps s.dev e (fun a => BookReg a))) ∧
  -- CKPT_RESTORE of a slot with one reverse-index record (R351)
  (∀ (s : State) (h : Hdr) (pl : List Byte) (x : Nat × List Byte) (f u off q : Nat) (data : List Byte), Accepted s.dev
    cCkptRestore h pl → (s.dev.still h.part = true ∨ s.dev.bstate h.part = 4) → s.dev.newestSlot h.part = some x → payRecs (leAt
    x.2 28 4) (x.2.drop 128) = [(2, f, u, off, data)] → s.dev.recordInside h.part (2, f, u, off, data) = true → s.dev.physOf u =
    some q → Runs (.ckptRestore h pl) s (fun e => (∀ k, k < data.length → e.mem.read (csBase q + off + k) = data.getD k 0#8) ∧
    MemKeeps s.dev e (fun a => csBase q + off ≤ a ∧ a < csBase q + off + data.length) ∧ (∀ k, k ∈ s.dev.sitesOf h.part → e.rg
    (HRV_SCOUNT k) = 0 ∧ e.rg (HRV_SEASONNO k) = 0) ∧ e.bstate h.part = 0 ∧ Answered s.dev e 0x0709 h .ok (leBytes 8 (leAt x.2 8
    8)))) ∧
  -- CKPT_STATUS (R357, R358)
  (∀ (s : State) (h : Hdr) (pl : List Byte), Accepted s.dev cCkptStatus h pl → Runs (.ckptStatus h pl) s (fun e => Answered
    s.dev e 0x070A h .ok (leBytes 1 (s.dev.part h.part).ckpt.flags ++ zeros 1 ++ leBytes 2 (s.dev.part h.part).ckpt.every ++
    leBytes 4 (s.dev.part h.part).ckpt.blocks ++ leBytes 8 (((s.dev.newestSlot h.part).map (fun x => leAt x.2 8 8)).getD 0) ++
    leBytes 6 (((s.dev.newestSlot h.part).map (fun x => leAt x.2 16 6)).getD 0) ++ leBytes 2 (s.dev.part h.part).ckpt.nslot ++
    leBytes 4 (((s.dev.part h.part).ckpt.erases.map Prod.snd).foldl max 0) ++ leBytes 2 (min 65535 (s.dev.part
    h.part).ckpt.abandoned) ++ leBytes 2 (min 65535 (s.dev.part h.part).ckpt.skips)) ∧ Keeps s.dev e (fun a => BookReg a) ∧
    SameUnits s.dev e)) ∧
  -- CKPT_QUOTA (R345)
  (∀ (s : State) (h : Hdr) (pl : List Byte), Accepted s.dev cCkptQuota h pl → byteAt pl 0 < 16 → bitAt (s.dev.part (byteAt pl
    0)).ckpt.flags 0 = false → (((upTo 16).filter (· ≠ byteAt pl 0)).map (fun k => (s.dev.part k).ckpt.quota)).sum + leAt pl 4 4
    ≤ 14336 → Runs (.ckptQuota h pl) s (fun e => (e.part (byteAt pl 0)).ckpt.quota = leAt pl 4 4 ∧ (∀ k, k ≠ byteAt pl 0 →
    e.part k = s.dev.part k) ∧ Answered s.dev e 0x070B h .ok [] ∧ Keeps s.dev e (fun a => BookReg a))) ∧
  -- CHECKPOINT_COPY_START with KEEP alone, before its interval has passed: the copy is skipped and counted (R344, R349)
  (∀ (s : State) (p n q0 : Nat) (qs : List Nat), s.dev.sitesOf p = q0 :: qs → n = s.dev.rg (HRV_SEASONNO q0) → ((s.dev.part
    p).ckpt.flags % 4 = 1 ∧ s.dev.running p = true ∧ s.dev.muted p = false) → (0 < n ∧ n % max 1 (s.dev.part p).ckpt.every = 0 ∧
    (s.dev.part p).ckpt.saved ≠ some n) → (∀ q, q ∈ s.dev.sitesOf p → s.dev.flag (HRV_STAT q) 2 = true ∧ s.dev.flag (HRV_STAT q)
    0 = false ∧ s.dev.rg (HRV_SEASONNO q) = n ∧ (s.dev.core q).hOver = false) → (s.dev.tendOn p = false ∧ (s.dev.part
    p).ckpt.copy = none) → s.dev.keepPaced p = false → Runs (.checkpointCopyStart p) s (fun e => (e.part p).ckpt.saved = some n
    ∧ (e.part p).ckpt.skips = (s.dev.part p).ckpt.skips + 1 ∧ (e.part p).ckpt.copy = none ∧ Keeps s.dev e (fun _ => False))) ∧
  -- CHECKPOINT_COPY_START of a saved Season whose harvest has ended, with HOST (R344, R352)
  (∀ (s : State) (p n q0 : Nat) (qs : List Nat), s.dev.sitesOf p = q0 :: qs → n = s.dev.rg (HRV_SEASONNO q0) → ((s.dev.part
    p).ckpt.flags % 4 = 2 ∧ s.dev.running p = true ∧ s.dev.muted p = false) → (0 < n ∧ n % max 1 (s.dev.part p).ckpt.every = 0 ∧
    (s.dev.part p).ckpt.saved ≠ some n) → (∀ q, q ∈ s.dev.sitesOf p → s.dev.flag (HRV_STAT q) 2 = true ∧ s.dev.flag (HRV_STAT q)
    0 = false ∧ s.dev.rg (HRV_SEASONNO q) = n ∧ (s.dev.core q).hOver = false) → (s.dev.tendOn p = false ∧ (s.dev.part
    p).ckpt.copy = none) → Runs (.checkpointCopyStart p) s (fun e => (e.part p).ckpt.saved = some n ∧ (e.part p).ckpt.copy.map
    Prod.snd = some ((s.dev.part p).ckpt.seq + 1) ∧ (e.part p).ckpt.toHost = true ∧ (e.part p).ckpt.toKeep = false ∧ (e.part
    p).ckpt.image = s.dev.imageOf p ((s.dev.part p).ckpt.seq + 1) ∧ (∀ k, k ≠ p → e.part k = s.dev.part k) ∧ Keeps s.dev e (fun
    _ => False))) ∧
  -- CHECKPOINT_COMMIT (R345, R349)
  (∀ (s : State) (p slot seq : Nat), (s.dev.part p).ckpt.copy = some (slot, seq) → (s.dev.part p).ckpt.toKeep = true → Runs
    (.checkpointCommit p) s (fun e => SMap.get [] (e.part p).ckpt.slots slot = (s.dev.part p).ckpt.image ∧ (∀ k, k ≠ slot →
    SMap.get [] (e.part p).ckpt.slots k = SMap.get [] (s.dev.part p).ckpt.slots k) ∧ (e.part p).ckpt.seq = seq ∧ (e.part
    p).ckpt.commit = some s.dev.rtc ∧ (e.part p).ckpt.toKeep = false ∧ ((s.dev.part p).ckpt.toHost = false → (e.part
    p).ckpt.copy = none) ∧ e.car.waiting = s.dev.car.waiting.filter (fun w => !(w.what == .ckpt && w.hdr.part % 16 == p)) ∧
    SameMem s.dev e)) ∧
  -- HOST_EXPORT (R352)
  (∀ (s : State) (p slot seq : Nat), (s.dev.part p).ckpt.copy = some (slot, seq) → ((s.dev.part p).ckpt.toHost = true ∧
    (s.dev.part p).ckpt.toKeep = false) → s.dev.flag (PCI_DMACFG (2 * p + 1)) 31 = true → (p = 0 → s.dev.d3hot = false) →
    s.dev.car.waiting = [] → Runs (.hostExport p) s (fun e => e.out = s.dev.out ++ [.hostWrite (s.dev.requester p) ((s.dev.part
    p).ckpt.hostAddr + 128) ((s.dev.part p).ckpt.image.drop 128), .hostWrite (s.dev.requester p) (s.dev.part p).ckpt.hostAddr
    ((s.dev.part p).ckpt.image.take 128)] ∧ (e.part p).ckpt.copy = none ∧ (e.part p).ckpt.seq = seq ∧ (e.part p).ckpt.toHost =
    false ∧ (∀ k, k ≠ p → e.part k = s.dev.part k) ∧ Keeps s.dev e (fun _ => False)))

/-- GANG_FORM writes each member's TCR_GANG and GANG_RELEASE clears it; GANG_STATUS and TCORE_STATUS answer what is stored. A
  descriptor submitted by command or through TCR_DQPUSH joins the queue, or is dropped and counted where the queue is full. An
  abort marks a running op and empties the queue of one that does not run. TCORE_SEED seeds the 16 generators, 1 in place of
  zero. -/
def Obligations.TensorCommands : Prop :=
  -- GANG_FORM (R385, R386, R398)
  (∀ (s : State) (h : Hdr) (pl : List Byte) (g n gk gn : Nat), Accepted s.dev cGangForm h pl → (g = byteAt pl 0 ∧ n = byteAt pl
    1 ∧ gk = byteAt pl 2 ∧ gn = byteAt pl 3) → (g < 16 ∧ 0 < n ∧ n ≤ 16 ∧ gk * gn = n) → s.dev.gangMembers h.part g = [] → (∀ i,
    i < n → byteAt pl (8 + 4 * i) < 16 ∧ s.dev.owns h.part (byteAt pl (8 + 4 * i)) = true ∧ s.dev.tcoreBad (byteAt pl (8 + 4 *
    i)) = false ∧ (s.dev.tcore (byteAt pl (8 + 4 * i))).running = false ∧ s.dev.gangOf (byteAt pl (8 + 4 * i)) = none ∧ byteAt
    pl (9 + 4 * i) / 16 < gk ∧ byteAt pl (9 + 4 * i) % 16 < gn) → (s.dev.flag FLT_STAT 4 = true → ∀ i, i < n → byteAt pl (8 + 4
    * i) < 8) → (∀ i, i < n → ∀ j, j < n → i ≠ j → byteAt pl (8 + 4 * i) ≠ byteAt pl (8 + 4 * j) ∧ byteAt pl (9 + 4 * i) ≠
    byteAt pl (9 + 4 * j)) → Runs (.gangForm h pl) s (fun e => (∀ i, i < n → e.rg (TCR_GANG (byteAt pl (8 + 4 * i))) = 2 ^ 31 +
    g * 2 ^ 24 + byteAt pl (10 + 4 * i) * 2 ^ 16 + byteAt pl (9 + 4 * i) / 16 * 2 ^ 12 + byteAt pl (9 + 4 * i) % 16 * 2 ^ 8 +
    (gk - 1) * 2 ^ 4 + (gn - 1) ∧ e.flag (TCR_STAT (byteAt pl (8 + 4 * i))) 2 = true) ∧ Answered s.dev e 0x0801 h .ok [] ∧ Keeps
    s.dev e (fun a => BookReg a ∨ (∃ r, r < 16 ∧ (a = TCR_GANG r ∨ a = TCR_STAT r)) ∨ (∃ k, k < 8 ∧ (a = PWR_VON (1 + h.part) k
    ∨ a = PWR_VRET (1 + h.part) k))) ∧ SameUnits s.dev e)) ∧
  -- GANG_RELEASE (R385, R398)
  (∀ (s : State) (h : Hdr) (pl : List Byte), Accepted s.dev cGangRelease h pl → byteAt pl 0 < 16 → s.dev.gangMembers h.part
    (byteAt pl 0) ≠ [] → (∀ r, r ∈ s.dev.gangMembers h.part (byteAt pl 0) → ∀ x, x ∈ (s.dev.tcore r).queue → bitAt (byteAt x.1
    2) 7 = false) → Runs (.gangRelease h pl) s (fun e => (∀ r, r ∈ s.dev.gangMembers h.part (byteAt pl 0) → e.rg (TCR_GANG r) =
    0 ∧ e.flag (TCR_STAT r) 2 = false) ∧ Answered s.dev e 0x0802 h .ok [] ∧ Keeps s.dev e (fun a => BookReg a ∨ (∃ r, r < 16 ∧
    (a = TCR_GANG r ∨ a = TCR_STAT r)) ∨ (∃ k, k < 8 ∧ (a = PWR_VON (1 + h.part) k ∨ a = PWR_VRET (1 + h.part) k))) ∧ SameUnits
    s.dev e)) ∧
  -- GANG_STATUS of a gang with no member running (R397, R398)
  (∀ (s : State) (h : Hdr) (pl : List Byte) (m : Nat) (ms : List Nat), Accepted s.dev cGangStatus h pl → byteAt pl 0 < 16 →
    s.dev.gangMembers h.part (byteAt pl 0) = m :: ms → (∀ r, r ∈ m :: ms → (s.dev.tcore r).running = false) → Runs (.gangStatus
    h pl) s (fun e => Answered s.dev e 0x0803 h .ok (leBytes 1 (s.dev.fld (TCR_GANG m) 4 4 + 1) ++ leBytes 1 (s.dev.fld
    (TCR_GANG m) 0 4 + 1) ++ leBytes 1 (ms.length + 1) ++ leBytes 1 (if (m :: ms).any (fun r => s.dev.flag (TCR_STAT r) 3) then
    2 else 1) ++ ((m :: ms).map (fun r => leBytes 1 r ++ leBytes 1 (16 * s.dev.fld (TCR_GANG r) 12 4 + s.dev.fld (TCR_GANG r) 8
    4) ++ leBytes 1 (s.dev.fld (TCR_GANG r) 16 8) ++ zeros 1)).flatten) ∧ Keeps s.dev e (fun a => BookReg a) ∧ SameUnits s.dev
    e)) ∧
  -- TCORE_SUBMIT (R396, R398)
  (∀ (s : State) (h : Hdr) (pl : List Byte) (r : Nat), Accepted s.dev cTcoreSubmit h pl → (r = byteAt pl 0 ∧ r < 16) →
    (s.dev.owns h.part r = true ∧ s.dev.tcoreBad r = false) → (s.dev.tcore r).queue.length < 8 → Runs (.tcoreSubmit h pl) s (fun
    e => (e.tcore r).queue = (s.dev.tcore r).queue ++ [(slice pl 8 64, false)] ∧ e.fld (TCR_DQSTAT r) 4 4 = (s.dev.tcore
    r).queue.length + 1 ∧ e.flag (TCR_STAT r) 1 = true ∧ (∀ k, k ≠ r → e.tcore k = s.dev.tcore k) ∧ Answered s.dev e 0x0804 h
    .ok [] ∧ Keeps s.dev e (fun a => BookReg a ∨ a = TCR_DQSTAT r ∨ a = TCR_STAT r))) ∧
  -- TCORE_STATUS (R394, R397)
  (∀ (s : State) (h : Hdr) (pl : List Byte), Accepted s.dev cTcoreStatus h pl → byteAt pl 0 < 16 → (s.dev.owns h.part (byteAt pl
    0) = true ∧ s.dev.tcoreBad (byteAt pl 0) = false) → Runs (.tcoreStatus h pl) s (fun e => Answered s.dev e 0x0805 h .ok
    (s.dev.regBytes (TCR_CTL (byteAt pl 0)) 22) ∧ Keeps s.dev e (fun a => BookReg a) ∧ SameUnits s.dev e)) ∧
  -- TCORE_ABORT while an op that is not ganged runs (R393)
  (∀ (s : State) (h : Hdr) (pl : List Byte) (r : Nat), Accepted s.dev cTcoreAbort h pl → (r = byteAt pl 0 ∧ r < 16) →
    (s.dev.owns h.part r = true ∧ s.dev.tcoreBad r = false) → ((s.dev.tcore r).running = true ∧ s.dev.headGanged r = false) →
    Runs (.tcoreAbort h pl) s (fun e => (e.tcore r).abort = true ∧ (e.tcore r).queue = (s.dev.tcore r).queue ∧ Answered s.dev e
    0x0806 h .ok [] ∧ Keeps s.dev e (fun a => BookReg a))) ∧
  -- TCORE_ABORT while no op runs (R393)
  (∀ (s : State) (h : Hdr) (pl : List Byte) (r : Nat), Accepted s.dev cTcoreAbort h pl → (r = byteAt pl 0 ∧ r < 16) →
    (s.dev.owns h.part r = true ∧ s.dev.tcoreBad r = false) → ((s.dev.tcore r).running = false ∧ (s.dev.tcore r).queue.length ≤
    8) → Runs (.tcoreAbort h pl) s (fun e => (e.tcore r).queue = [] ∧ ((s.dev.tcore r).queue ≠ [] → e.rg (TCR_LAST r) / 2 ^ 16 =
    Status.code .incomplete) ∧ AnsweredLast e 0x0806 h .ok [])) ∧
  -- TCORE_SEED with FIXSEED (R368, R398)
  (∀ (s : State) (h : Hdr) (pl : List Byte), Accepted s.dev cTcoreSeed h pl → (∀ r, r ∈ maskBits 16 (leAt pl 0 2) → s.dev.owns
    h.part r = true ∧ s.dev.tcoreBad r = false ∧ (s.dev.tcore r).running = false) → byteAt pl 2 = 1 → Runs (.tcoreSeed h pl) s
    (fun e => (∀ r, r ∈ maskBits 16 (leAt pl 0 2) → e.rg (TCR_SEED r) = leAt pl 4 4 ∧ e.flag (TCR_CTL r) 3 = true ∧ (∀ i, i < 16
    → SMap.get 0 (e.tcore r).gens i = (if leAt pl 4 4 = 0 then 1 else leAt pl 4 4))) ∧ Answered s.dev e 0x0807 h .ok [] ∧ Keeps
    s.dev e (fun a => BookReg a ∨ ∃ r, r < 16 ∧ (a = TCR_SEED r ∨ a = TCR_CTL r)))) ∧
  -- TCR_DQPUSH_WRITE: the last word joins the words before it (R396)
  (∀ (s : State) (f r v : Nat), r < 16 → WriteOk s.dev (.func f) (TCR_DQPUSH r 15) → (s.dev.tcore r).queue.length < 8 → Runs
    (.tcrDqpushWrite f r v) s (fun e => (e.tcore r).queue = (s.dev.tcore r).queue ++ [(((upTo 15).map (fun k => leBytes 4
    (SMap.get 0 (s.dev.tcore r).push k))).flatten ++ leBytes 4 v, false)] ∧ (e.tcore r).push = [] ∧ (∀ k, k ≠ r → e.tcore k =
    s.dev.tcore k) ∧ Keeps s.dev e (fun a => a = TCR_DQSTAT r ∨ a = TCR_STAT r))) ∧
  -- TCR_DQPUSH_WRITE on a full queue (R396)
  (∀ (s : State) (f r v : Nat), r < 16 → WriteOk s.dev (.func f) (TCR_DQPUSH r 15) → 8 ≤ (s.dev.tcore r).queue.length → Runs
    (.tcrDqpushWrite f r v) s (fun e => (e.tcore r).queue = (s.dev.tcore r).queue ∧ e.rg (TCR_DQDROP r) = satInc (s.dev.rg
    (TCR_DQDROP r)) 1 % 2 ^ 32 ∧ e.flag (TCR_STAT r) 10 = true ∧ SameMem s.dev e)) ∧
  -- TCR_CTL_ABORT while an op that is not ganged runs (R393)
  (∀ (s : State) (f r : Nat), r < 16 → WriteOk s.dev (.func f) (TCR_CTL r) → ((s.dev.tcore r).running = true ∧ s.dev.headGanged
    r = false) → Runs (.tcrCtlAbort f r) s (fun e => (e.tcore r).abort = true ∧ (e.tcore r).queue = (s.dev.tcore r).queue ∧
    SameMem s.dev e)) ∧
  -- TCR_CTL_ABORT while a ganged op runs (R393)
  (∀ (s : State) (f r : Nat), r < 16 → WriteOk s.dev (.func f) (TCR_CTL r) → ((s.dev.tcore r).running = true ∧ s.dev.headGanged
    r = true) → Runs (.tcrCtlAbort f r) s (fun e => e.flag (TCR_STAT r) 5 = true ∧ (e.tcore r).queue = (s.dev.tcore r).queue ∧
    (e.tcore r).running = true))

/-- The head descriptor is refused, set waiting for its gang, or started. A completed op leaves the queue with its status and
  cycles in TCR_LAST and TCR_LASTCYC and writes nothing outside its region's buffer. GO starts the op of every member and slot 0
  of every node of the partition; members ready at the gang's timeout complete with TIMEOUT. -/
def Obligations.TensorOps : Prop :=
  -- DESCRIPTOR_CHECK that refuses (R375)
  (∀ (s : State) (r : Nat) (st : Status) (q : List Byte × Bool) (rest : List (List Byte × Bool)), r < 16 → (s.dev.tcore r).queue
    = q :: rest → ((s.dev.tcore r).running = false ∧ s.dev.gangWaits r = false ∧ s.dev.flag (TCR_CTL r) 0 = true ∧
    s.dev.domLevel (domOf r 4) = 2) → (s.dev.regPart r).any s.dev.choked = false → (s.dev.topOf r (s.dev.tcHead r)).check
    (s.dev.gangOf r) (s.dev.planePeriod r) s.dev.rho (s.dev.muted ((s.dev.regPart r).getD 0)) = some st → Runs (.descriptorCheck
    r) s (fun e => (e.tcore r).queue = rest ∧ e.rg (TCR_REJECT r) = satInc (s.dev.rg (TCR_REJECT r)) 1 % 2 ^ 32 ∧ e.rg (TCR_LAST
    r) = (Status.code st * 2 ^ 16 + leAt (s.dev.tcHead r) 4 2) % 2 ^ 32)) ∧
  -- DESCRIPTOR_CHECK that starts an op that is not ganged (R375, R376)
  (∀ (s : State) (r : Nat), r < 16 → (s.dev.tcore r).queue ≠ [] → ((s.dev.tcore r).running = false ∧ s.dev.gangWaits r = false ∧
    s.dev.flag (TCR_CTL r) 0 = true ∧ s.dev.domLevel (domOf r 4) = 2) → (s.dev.regPart r).any s.dev.choked = false →
    (s.dev.topOf r (s.dev.tcHead r)).check (s.dev.gangOf r) (s.dev.planePeriod r) s.dev.rho (s.dev.muted ((s.dev.regPart r).getD
    0)) = none → bitAt (s.dev.topOf r (s.dev.tcHead r)).gang 7 = false → Runs (.descriptorCheck r) s (fun e => (e.tcore
    r).running = true ∧ (e.tcore r).queue = (s.dev.tcore r).queue ∧ e.flag (TCR_STAT r) 0 = true ∧ SameMem s.dev e ∧ RegKeeps
    s.dev e (fun a => BookReg a ∨ a = TCR_STAT r))) ∧
  -- DESCRIPTOR_CHECK that sets a ganged op waiting (R386)
  (∀ (s : State) (r : Nat), r < 16 → (s.dev.tcore r).queue ≠ [] → ((s.dev.tcore r).running = false ∧ s.dev.gangWaits r = false ∧
    s.dev.flag (TCR_CTL r) 0 = true ∧ s.dev.domLevel (domOf r 4) = 2) → (s.dev.regPart r).any s.dev.choked = false →
    (s.dev.topOf r (s.dev.tcHead r)).check (s.dev.gangOf r) (s.dev.planePeriod r) s.dev.rho (s.dev.muted ((s.dev.regPart r).getD
    0)) = none → bitAt (s.dev.topOf r (s.dev.tcHead r)).gang 7 = true → Runs (.descriptorCheck r) s (fun e => e.gangWaits r =
    true ∧ e.tcores = s.dev.tcores ∧ Keeps s.dev e (fun a => a = TCR_STAT r))) ∧
  -- MATMUL completing whole, with no memory error, its record sent to a channel (R371, R376, R384)
  (∀ (s : State) (r k : Nat) (x : List Byte) (rest : List (List Byte × Bool)) (o : TOp), r < 16 → ((s.dev.tcore r).running =
    true ∧ (s.dev.tcore r).queue = (x, false) :: rest) → ((s.dev.tcore r).abort = false ∧ (s.dev.tcore r).plErr = false) → (o =
    s.dev.topOf r (s.dev.tcHead r) ∧ o.op = 1) → o.check (s.dev.gangOf r) (s.dev.planePeriod r) s.dev.rho (s.dev.muted
    ((s.dev.regPart r).getD 0)) = none → s.dev.ecc = [] → Runs (.matmul r k) s (fun e => (e.tcore r).running = false ∧ (e.tcore
    r).queue = rest ∧ e.rg (TCR_LAST r) = leAt x 4 2 ∧ e.rg (TCR_LASTCYC r) = o.cycles o.tiles % 2 ^ 32 ∧ (s.dev.regFrozen r =
    false → e.rg (TCR_OPCNT r) = satInc (s.dev.rg (TCR_OPCNT r)) 1 % 2 ^ 32) ∧ MemKeeps s.dev e (fun a => InBuffer r a) ∧ (∀ q,
    q ≠ r → e.tcore q = s.dev.tcore q))) ∧
  -- CONV completing whole, with no memory error, its record sent to a channel (R372, R376, R384)
  (∀ (s : State) (r k : Nat) (x : List Byte) (rest : List (List Byte × Bool)) (o : TOp), r < 16 → ((s.dev.tcore r).running =
    true ∧ (s.dev.tcore r).queue = (x, false) :: rest) → ((s.dev.tcore r).abort = false ∧ (s.dev.tcore r).plErr = false) → (o =
    s.dev.topOf r (s.dev.tcHead r) ∧ o.op = 2) → o.check (s.dev.gangOf r) (s.dev.planePeriod r) s.dev.rho (s.dev.muted
    ((s.dev.regPart r).getD 0)) = none → s.dev.ecc = [] → Runs (.conv r k) s (fun e => (e.tcore r).running = false ∧ (e.tcore
    r).queue = rest ∧ e.rg (TCR_LAST r) = leAt x 4 2 ∧ e.rg (TCR_LASTCYC r) = o.cycles o.tiles % 2 ^ 32 ∧ (s.dev.regFrozen r =
    false → e.rg (TCR_OPCNT r) = satInc (s.dev.rg (TCR_OPCNT r)) 1 % 2 ^ 32) ∧ MemKeeps s.dev e (fun a => InBuffer r a) ∧ (∀ q,
    q ≠ r → e.tcore q = s.dev.tcore q))) ∧
  -- BACKWARD completing whole, with no memory error, its record sent to a channel (R378, R379, R376, R384)
  (∀ (s : State) (r k : Nat) (x : List Byte) (rest : List (List Byte × Bool)) (o : TOp), r < 16 → ((s.dev.tcore r).running =
    true ∧ (s.dev.tcore r).queue = (x, false) :: rest) → ((s.dev.tcore r).abort = false ∧ (s.dev.tcore r).plErr = false) → (o =
    s.dev.topOf r (s.dev.tcHead r) ∧ o.op = 3) → o.check (s.dev.gangOf r) (s.dev.planePeriod r) s.dev.rho (s.dev.muted
    ((s.dev.regPart r).getD 0)) = none → s.dev.ecc = [] → Runs (.backward r k) s (fun e => (e.tcore r).running = false ∧
    (e.tcore r).queue = rest ∧ e.rg (TCR_LAST r) = leAt x 4 2 ∧ e.rg (TCR_LASTCYC r) = o.cycles o.tiles % 2 ^ 32 ∧
    (s.dev.regFrozen r = false → e.rg (TCR_OPCNT r) = satInc (s.dev.rg (TCR_OPCNT r)) 1 % 2 ^ 32) ∧ MemKeeps s.dev e (fun a =>
    InBuffer r a) ∧ (∀ q, q ≠ r → e.tcore q = s.dev.tcore q))) ∧
  -- OPTIM completing whole, with no memory error, its record sent to a channel (R380, R376, R384)
  (∀ (s : State) (r k : Nat) (x : List Byte) (rest : List (List Byte × Bool)) (o : TOp), r < 16 → ((s.dev.tcore r).running =
    true ∧ (s.dev.tcore r).queue = (x, false) :: rest) → ((s.dev.tcore r).abort = false ∧ (s.dev.tcore r).plErr = false) → (o =
    s.dev.topOf r (s.dev.tcHead r) ∧ o.op = 4) → o.check (s.dev.gangOf r) (s.dev.planePeriod r) s.dev.rho (s.dev.muted
    ((s.dev.regPart r).getD 0)) = none → s.dev.ecc = [] → ((s.dev.tcore r).muteHit = false ∧ s.dev.muted ((s.dev.regPart r).getD
    0) = false) → Runs (.optim r k) s (fun e => (e.tcore r).running = false ∧ (e.tcore r).queue = rest ∧ e.rg (TCR_LAST r) =
    leAt x 4 2 ∧ e.rg (TCR_LASTCYC r) = (32 + ceilDiv (o.m * o.n) 16) % 2 ^ 32 ∧ (s.dev.regFrozen r = false → e.rg (TCR_OPCNT r)
    = satInc (s.dev.rg (TCR_OPCNT r)) 1 % 2 ^ 32) ∧ MemKeeps s.dev e (fun a => InBuffer r a) ∧ (∀ q, q ≠ r → e.tcore q =
    s.dev.tcore q))) ∧
  -- QUANT completing whole, with no memory error, its record sent to a channel (R383, R376, R384)
  (∀ (s : State) (r k : Nat) (x : List Byte) (rest : List (List Byte × Bool)) (o : TOp), r < 16 → ((s.dev.tcore r).running =
    true ∧ (s.dev.tcore r).queue = (x, false) :: rest) → ((s.dev.tcore r).abort = false ∧ (s.dev.tcore r).plErr = false) → (o =
    s.dev.topOf r (s.dev.tcHead r) ∧ o.op = 5) → o.check (s.dev.gangOf r) (s.dev.planePeriod r) s.dev.rho (s.dev.muted
    ((s.dev.regPart r).getD 0)) = none → s.dev.ecc = [] → Runs (.quant r k) s (fun e => (e.tcore r).running = false ∧ (e.tcore
    r).queue = rest ∧ e.rg (TCR_LAST r) = leAt x 4 2 ∧ e.rg (TCR_LASTCYC r) = ((32 + ceilDiv (o.m * o.n) 64) * (if o.c.smode = 4
    then 2 else 1)) % 2 ^ 32 ∧ (s.dev.regFrozen r = false → e.rg (TCR_OPCNT r) = satInc (s.dev.rg (TCR_OPCNT r)) 1 % 2 ^ 32) ∧
    MemKeeps s.dev e (fun a => InBuffer r a) ∧ (∀ q, q ≠ r → e.tcore q = s.dev.tcore q))) ∧
  -- ENCODE_OP completing whole, with no memory error, its record sent to a channel (R382, R376, R384)
  (∀ (s : State) (r k : Nat) (x : List Byte) (rest : List (List Byte × Bool)) (o : TOp), r < 16 → ((s.dev.tcore r).running =
    true ∧ (s.dev.tcore r).queue = (x, false) :: rest) → ((s.dev.tcore r).abort = false ∧ (s.dev.tcore r).plErr = false) → (o =
    s.dev.topOf r (s.dev.tcHead r) ∧ o.op = 6) → o.check (s.dev.gangOf r) (s.dev.planePeriod r) s.dev.rho (s.dev.muted
    ((s.dev.regPart r).getD 0)) = none → s.dev.ecc = [] → Runs (.encodeOp r k) s (fun e => (e.tcore r).running = false ∧
    (e.tcore r).queue = rest ∧ e.rg (TCR_LAST r) = leAt x 4 2 ∧ e.rg (TCR_LASTCYC r) = ((32 + ceilDiv (o.m * o.n) 64) * (if
    o.c.smode = 4 then 2 else 1)) % 2 ^ 32 ∧ (s.dev.regFrozen r = false → e.rg (TCR_OPCNT r) = satInc (s.dev.rg (TCR_OPCNT r)) 1
    % 2 ^ 32) ∧ MemKeeps s.dev e (fun a => InBuffer r a) ∧ (∀ q, q ≠ r → e.tcore q = s.dev.tcore q))) ∧
  -- DECODE_OP completing whole, with no memory error, its record sent to a channel (R383, R376, R384)
  (∀ (s : State) (r k : Nat) (x : List Byte) (rest : List (List Byte × Bool)) (o : TOp), r < 16 → ((s.dev.tcore r).running =
    true ∧ (s.dev.tcore r).queue = (x, false) :: rest) → ((s.dev.tcore r).abort = false ∧ (s.dev.tcore r).plErr = false) → (o =
    s.dev.topOf r (s.dev.tcHead r) ∧ o.op = 7) → o.check (s.dev.gangOf r) (s.dev.planePeriod r) s.dev.rho (s.dev.muted
    ((s.dev.regPart r).getD 0)) = none → s.dev.ecc = [] → Runs (.decodeOp r k) s (fun e => (e.tcore r).running = false ∧
    (e.tcore r).queue = rest ∧ e.rg (TCR_LAST r) = leAt x 4 2 ∧ e.rg (TCR_LASTCYC r) = ((32 + ceilDiv (o.m * o.n) 64) * (if
    o.c.smode = 4 then 2 else 1)) % 2 ^ 32 ∧ (s.dev.regFrozen r = false → e.rg (TCR_OPCNT r) = satInc (s.dev.rg (TCR_OPCNT r)) 1
    % 2 ^ 32) ∧ MemKeeps s.dev e (fun a => InBuffer r a) ∧ (∀ q, q ≠ r → e.tcore q = s.dev.tcore q))) ∧
  -- GANG_GO (R387)
  (∀ (s : State) (p g : Nat), s.dev.gangMembers p g ≠ [] → (∀ r, r ∈ s.dev.gangMembers p g → s.dev.gangWaits r = true) →
    s.dev.partPlane p = false → Runs (.gangGo p g) s (fun e => (∀ r, r ∈ s.dev.gangMembers p g → (e.tcore r).running = true ∧
    e.gangWaits r = false) ∧ (∀ r, r ∈ s.dev.regionsOf p → e.flag (FAB_SCTL r) 31 = true ∧ (e.region r).plCycle = 0) ∧ SameMem
    s.dev e)) ∧
  -- GANG_READY_TIMEOUT (R388)
  (∀ (s : State) (p g : Nat), (∃ r, r ∈ s.dev.gangMembers p g ∧ s.dev.gangWaits r = false) → (∀ r, r ∈ s.dev.gangMembers p g →
    (s.dev.tcore r).plErr = false) → Runs (.gangReadyTimeout p g) s (fun e => (∀ r, r ∈ s.dev.gangMembers p g → s.dev.gangWaits
    r = true → (s.dev.tcore r).queue ≠ [] → e.gangWaits r = false ∧ (e.tcore r).queue = (s.dev.tcore r).queue.tail ∧ e.rg
    (TCR_LAST r) / 2 ^ 16 = Status.code .timeout)))

/-- Where the running op is a MATMUL of signed INT8 operands, neither transposed nor accumulated, with no zero points, into
  INT32 rows that overlap neither one another nor A and B, and it completes whole with no memory error, element (i, j) of C
  reads after it as the sum over the reduction of the products of A's row i and B's row j, saturated to 32 bits. -/
def Obligations.IntegerMatmulIsExact : Prop :=
  -- one element of the product
  (∀ (s : State) (r k i j : Nat) (x : List Byte) (rest : List (List Byte × Bool)) (o : TOp), r < 16 → ((s.dev.tcore r).running =
    true ∧ (s.dev.tcore r).queue = (x, false) :: rest ∧ (s.dev.tcore r).abort = false) → (o = s.dev.topOf r (s.dev.tcHead r) ∧
    o.op = 1 ∧ o.fl = 0) → (o.a.fmt = 0 ∧ o.b.fmt = 0 ∧ o.c.fmt = 8 ∧ o.a.smode = 0 ∧ o.b.smode = 0 ∧ o.c.smode = 0 ∧ o.c.plane
    = 0) → (o.c.addr + (o.m - 1) * o.c.stride + 4 * o.n ≤ 2 ^ 21 ∧ 4 * o.n ≤ o.c.stride) → (o.c.addr + (o.m - 1) * o.c.stride +
    4 * o.n ≤ o.a.addr ∨ o.a.addr + (o.m - 1) * o.a.stride + o.k ≤ o.c.addr) → (o.c.addr + (o.m - 1) * o.c.stride + 4 * o.n ≤
    o.b.addr ∨ o.b.addr + (o.n - 1) * o.b.stride + o.k ≤ o.c.addr) → s.dev.ecc = [] → (i < o.m ∧ j < o.n) → Runs (.matmul r k) s
    (fun e => e.rdN (tcBase r + o.c.addr + i * o.c.stride + 4 * j) 4 = uOf 32 (satS 32 ((upTo o.k).foldl (fun (t : Int) q => t +
    sInt 8 (s.dev.rdN (tcBase r + o.a.addr + i * o.a.stride + q) 1) * sInt 8 (s.dev.rdN (tcBase r + o.b.addr + j * o.b.stride +
    q) 1)) 0))))

/-- SEQ_LOAD writes descriptors into the program memory, SEQ_CONTROL halts, starts or resets the S-core. CHAN_CONFIG, CHAN_SEND
  and CHAN_RECV set up a channel, enter a message and take one; CQ_CONFIG sets a combining queue up, COMMONS_OWN hands a bank
  over; the status commands answer the registers. A waiting CHAN_RECV ends at its time; a message held too long is dropped and
  counted. -/
def Obligations.QueueCommands : Prop :=
  -- SEQ_LOAD (R399, R429)
  (∀ (s : State) (h : Hdr) (pl : List Byte) (r f n : Nat), Accepted s.dev cSeqLoad h pl → (r = byteAt pl 0 ∧ f = leAt pl 2 2 ∧ n
    = leAt pl 4 2) → (r < 16 ∧ s.dev.owns h.part r = true ∧ s.dev.scoreBad r = false) → f + n ≤ 4096 → s.dev.seqState r = 0 →
    Runs (.seqLoad h pl) s (fun e => (∀ i, i < n → e.progAt r (f + i) = slice pl (8 + 16 * i) 16) ∧ (∀ k, k < 4096 → (k < f ∨ f
    + n ≤ k) → e.progAt r k = s.dev.progAt r k) ∧ Answered s.dev e 0x0901 h .ok [] ∧ Keeps s.dev e (fun a => BookReg a))) ∧
  -- SEQ_CONTROL HALT of a running S-core (R425)
  (∀ (s : State) (h : Hdr) (pl : List Byte) (r : Nat), Accepted s.dev cSeqControl h pl → (r = byteAt pl 0 ∧ byteAt pl 1 = 0 ∧
    leAt pl 2 2 < 4096) → (r < 16 ∧ s.dev.owns h.part r = true ∧ s.dev.scoreBad r = false) → s.dev.seqState r = 1 → Runs
    (.seqControl h pl) s (fun e => e.seqState r = 0 ∧ e.seqPc r = s.dev.seqPc r ∧ Answered s.dev e 0x0902 h .ok [] ∧ Keeps s.dev
    e (fun a => BookReg a ∨ a = SEQ_STAT r) ∧ SameUnits s.dev e)) ∧
  -- SEQ_CONTROL RUN (R425)
  (∀ (s : State) (h : Hdr) (pl : List Byte) (r : Nat), Accepted s.dev cSeqControl h pl → (r = byteAt pl 0 ∧ byteAt pl 1 = 1 ∧
    leAt pl 2 2 < 4096) → (s.dev.regPart r).all s.dev.choked = false → (r < 16 ∧ s.dev.owns h.part r = true ∧ s.dev.scoreBad r =
    false) → Runs (.seqControl h pl) s (fun e => e.seqState r = 1 ∧ e.seqPc r = leAt pl 2 2 ∧ e.fld (SEQ_ENTRY r) 0 12 = leAt pl
    2 2 ∧ Answered s.dev e 0x0902 h .ok [] ∧ Keeps s.dev e (fun a => BookReg a ∨ a = SEQ_STAT r ∨ a = SEQ_PC r ∨ a = SEQ_ENTRY
    r) ∧ SameUnits s.dev e)) ∧
  -- SEQ_CONTROL RESET (R405, R411, R425)
  (∀ (s : State) (h : Hdr) (pl : List Byte) (r : Nat), Accepted s.dev cSeqControl h pl → (r = byteAt pl 0 ∧ byteAt pl 1 = 2 ∧
    leAt pl 2 2 < 4096) → (r < 16 ∧ s.dev.owns h.part r = true ∧ s.dev.scoreBad r = false) → (∀ q, q < 8 → (s.dev.combq r
    q).held = []) → Runs (.seqControl h pl) s (fun e => e.seqState r = 0 ∧ (∀ i, i < 16 → e.greg r i = 0) ∧ (∀ k, k < 8 → e.rg
    (SEQ_CCNT r k) = 0) ∧ (e.score r).ops = [] ∧ (e.score r).acks = [] ∧ (e.score r).prog = (s.dev.score r).prog ∧ (∀ c, c < 32
    → s.dev.chHost r c = false → e.chState r c = 1) ∧ AnsweredLast e 0x0902 h .ok [])) ∧
  -- SEQ_STATUS (R430)
  (∀ (s : State) (h : Hdr) (pl : List Byte), Accepted s.dev cSeqStatus h pl → (byteAt pl 0 < 16 ∧ s.dev.owns h.part (byteAt pl
    0) = true ∧ s.dev.scoreBad (byteAt pl 0) = false) → Runs (.seqStatus h pl) s (fun e => Answered s.dev e 0x0903 h .ok
    (s.dev.regBytes (SEQ_CTL (byteAt pl 0)) 96) ∧ Keeps s.dev e (fun a => BookReg a) ∧ SameUnits s.dev e)) ∧
  -- CHAN_CONFIG (R411)
  (∀ (s : State) (h : Hdr) (pl : List Byte) (r c : Nat), Accepted s.dev cChanConfig h pl → (r = byteAt pl 0 ∧ c = byteAt pl 1 ∧
    byteAt pl 2 < 3 ∧ byteAt pl 3 < 2) → (r < 16 ∧ c < 32 ∧ s.dev.owns h.part r = true) → QuietQueues s.dev r → Runs
    (.chanConfig h pl) s (fun e => e.chHost r c = (byteAt pl 3 == 1) ∧ e.chState r c = (if byteAt pl 2 = 1 then 0 else 1) ∧
    (e.stage r c = if byteAt pl 2 = 1 then s.dev.stage r c else []) ∧ (e.chan r c = if byteAt pl 2 = 2 then [] else s.dev.chan r
    c) ∧ Answered s.dev e 0x0904 h .ok [] ∧ SameMem s.dev e)) ∧
  -- CHAN_SEND to an open channel with room (R406 to R408)
  (∀ (s : State) (h : Hdr) (pl : List Byte) (r c : Nat), Accepted s.dev cChanSend h pl → (r = byteAt pl 0 ∧ c = byteAt pl 1 ∧
    byteAt pl 2 = 0) → (r < 16 ∧ c < 32 ∧ s.dev.owns h.part r = true) → QuietQueues s.dev r → (s.dev.chState r c = 0 ∧
    s.dev.stage r c = [] ∧ (s.dev.chan r c).length < 16) → Runs (.chanSend h pl) s (fun e => e.chan r c = s.dev.chan r c ++
    [⟨slice pl 8 64, .nobody⟩] ∧ e.rg (QUE_CHRX r c) = satInc (s.dev.rg (QUE_CHRX r c)) 1 % 2 ^ 32 ∧ Answered s.dev e 0x0905 h
    .ok (refusedAns false) ∧ Keeps s.dev e (fun a => BookReg a ∨ a = QUE_CHSTAT r c ∨ a = QUE_CHRX r c))) ∧
  -- CHAN_RECV of a waiting message (R409)
  (∀ (s : State) (h : Hdr) (pl : List Byte) (r c : Nat) (m : Msg) (rest : List Msg), Accepted s.dev cChanRecv h pl → (r = byteAt
    pl 0 ∧ c = byteAt pl 1 ∧ leAt pl 4 4 ≤ 1000000) → (r < 16 ∧ c < 32 ∧ s.dev.owns h.part r = true ∧ s.dev.chHost r c = true) →
    QuietQueues s.dev r → (s.dev.chan r c = m :: rest ∧ s.dev.stage r c = [] ∧ m.data.length = 64) → Runs (.chanRecv h pl) s
    (fun e => e.chan r c = rest ∧ Answered s.dev e 0x0906 h .ok m.data ∧ Keeps s.dev e (fun a => BookReg a ∨ a = QUE_CHSTAT r
    c))) ∧
  -- CHAN_RECV on an open, empty channel waits (R409)
  (∀ (s : State) (h : Hdr) (pl : List Byte) (r c : Nat), Accepted s.dev cChanRecv h pl → (r = byteAt pl 0 ∧ c = byteAt pl 1 ∧ 0
    < leAt pl 4 4 ∧ leAt pl 4 4 ≤ 1000000) → (r < 16 ∧ c < 32 ∧ s.dev.owns h.part r = true ∧ s.dev.chHost r c = true) →
    (s.dev.chan r c = [] ∧ s.dev.chState r c = 0) → Runs (.chanRecv h pl) s (fun e => Waits s.dev e cChanRecv h pl (.chan r c) ∧
    Keeps s.dev e (fun a => BookReg a) ∧ SameUnits s.dev e)) ∧
  -- QUE_STATUS (R430)
  (∀ (s : State) (h : Hdr) (pl : List Byte), Accepted s.dev cQueStatus h pl → (byteAt pl 0 < 16 ∧ s.dev.owns h.part (byteAt pl
    0) = true) → Runs (.queStatus h pl) s (fun e => Answered s.dev e 0x0907 h .ok (s.dev.regBytes (QUE_CHCTL (byteAt pl 0) 0)
    322) ∧ Keeps s.dev e (fun a => BookReg a) ∧ SameUnits s.dev e)) ∧
  -- CQ_CONFIG (R413, R415)
  (∀ (s : State) (h : Hdr) (pl : List Byte) (r q : Nat), Accepted s.dev cCqConfig h pl → (r = byteAt pl 0 ∧ q = byteAt pl 1 ∧
    byteAt pl 2 < 3 ∧ byteAt pl 3 < 32 ∧ leAt pl 4 2 ≠ 0) → (r < 16 ∧ q < 8 ∧ s.dev.owns h.part r = true) → Runs (.cqConfig h
    pl) s (fun e => e.cqChan r q = byteAt pl 3 ∧ e.fld (QUE_CQCFG r q) 0 16 = leAt pl 4 2 ∧ (byteAt pl 2 < 2 → e.flag (QUE_CQCFG
    r q) 31 = (byteAt pl 2 == 1)) ∧ (byteAt pl 2 = 2 → (e.combq r q).lanes = [] ∧ e.fld (QUE_CQSTAT r q) 0 16 = 0) ∧ Answered
    s.dev e 0x0908 h .ok [] ∧ Keeps s.dev e (fun a => BookReg a ∨ a = QUE_CQCFG r q ∨ a = QUE_CQSTAT r q))) ∧
  -- COMMONS_OWN by the physical function (R421, R422)
  (∀ (s : State) (h : Hdr) (pl : List Byte) (r b : Nat), Accepted s.dev cCommonsOwn h pl → (r = byteAt pl 0 ∧ b = byteAt pl 1 ∧
    byteAt pl 2 = 0) → (r < 16 ∧ b < 16 ∧ s.dev.owns h.part r = true) → (byteAt pl 3 ≤ 2 ∧ s.dev.bankOwner r b false ≠ 3 ∧
    s.dev.bankOwner r b false ≠ 4) → (h.func = 0 ∨ s.dev.seqState r = 0) → Runs (.commonsOwn h pl) s (fun e => e.bankOwner r b
    false = byteAt pl 3 ∧ e.flag (CMN_OWN r b) 31 = true ∧ Answered s.dev e 0x0909 h .ok [] ∧ Keeps s.dev e (fun a => BookReg a
    ∨ a = CMN_OWN r b) ∧ SameUnits s.dev e)) ∧
  -- CMN_STATUS (R430)
  (∀ (s : State) (h : Hdr) (pl : List Byte), Accepted s.dev cCmnStatus h pl → (byteAt pl 0 < 16 ∧ s.dev.owns h.part (byteAt pl
    0) = true) → Runs (.cmnStatus h pl) s (fun e => Answered s.dev e 0x090A h .ok (s.dev.regBytes (CMN_OWN (byteAt pl 0) 0) 52)
    ∧ Keeps s.dev e (fun a => BookReg a) ∧ SameUnits s.dev e)) ∧
  -- CHAN_RECV_TIMEOUT (R409)
  (∀ (s : State) (f tag : Nat), Runs (.chanRecvTimeout f tag) s (fun e => e.car.waiting = s.dev.car.waiting.filter (fun w =>
    !(w.opcode == 0x0906 && w.hdr.func == f && w.hdr.tag == tag)) ∧ SameMem s.dev e ∧ e.regions = s.dev.regions)) ∧
  -- CHANNEL_HOLD_EXPIRY of a message in an input stage (R408)
  (∀ (s : State) (r c k : Nat) (m : Msg), (r < 16 ∧ c < 32) → (s.dev.stage r c)[k]? = some m → QuietQueues s.dev r → m.sender =
    .nobody → Runs (.channelHoldExpiry r c k) s (fun e => e.stage r c = removeAt (s.dev.stage r c) k ∧ e.chan r c = s.dev.chan r
    c ∧ e.rg (QUE_CHDROP r c) = satInc (s.dev.rg (QUE_CHDROP r c)) 1 % 2 ^ 32 ∧ Keeps s.dev e (fun a => a = QUE_CHDROP r c ∨ a =
    QUE_CHSTAT r c))) ∧
  -- HANDOVER_END for which nothing waits (R422)
  (∀ (s : State) (r b : Nat), (r < 16 ∧ b < 16) → s.dev.heldAcc = [] → (∀ k, k < 16 → ∀ o, o ∈ (s.dev.score k).ops → o.held =
    false) → Runs (.handoverEnd r b) s (fun e => e.flag (CMN_OWN r b) 31 = false ∧ e.bankOwner r b false = s.dev.bankOwner r b
    false ∧ e.bankOwner r b true = s.dev.bankOwner r b true ∧ Keeps s.dev e (fun a => a = CMN_OWN r b) ∧ SameUnits s.dev e)) ∧
  -- HANDOVER_END releases a write of another device that waited for the bank (R40, R422)
  (∀ (s : State) (q r b ad n : Nat) (l : List Byte), (q < 8 ∧ r < 16 ∧ b < 16) → s.dev.heldAcc = [.request q 0x21 l] → (∀ k, k <
    16 → ∀ o, o ∈ (s.dev.score k).ops → o.held = false) → (pktGood l = true ∧ pktType l = 0x21) → s.dev.choked (pktPart l) =
    false → s.dev.badAddress l = false → (n = rqLen l ∧ 1 ≤ n ∧ n ≤ 2048 ∧ n ≤ (pktPay l).length) → ad = rqAddr l % 2 ^ 48 →
    (cmnBase r + 0x40000 * b ≤ ad ∧ ad + n ≤ cmnBase r + 0x40000 * b + 0x40000) → s.dev.owns (pktPart l) r = true →
    s.dev.ownsBank r b ownRouter = true → s.dev.cleanAt ad n = true → s.dev.flag FLT_STAT 4 = false → Runs (.handoverEnd r b) s
    (fun e => e.flag (CMN_OWN r b) 31 = false ∧ e.heldAcc = [] ∧ (∀ k, k < n → e.mem.read (ad + k) = (pktPay l).getD k 0#8) ∧
    MemKeeps s.dev e (fun a => ad ≤ a ∧ a < ad + n) ∧ LeavesTo s.dev e (q / 4) (pktSrc l) (fun b => pktType b = 0x31 ∧ pktDest b
    = pktSrc l ∧ pktTag b = pktTag l ∧ byteAt b 16 = 0))) ∧
  -- ACKNOWLEDGEMENT of a posted operation (R403, R412)
  (∀ (s : State) (r c : Nat) (rest : List (Nat × Bool × Bool)), (r < 16 ∧ c < 8) → (s.dev.score r).acks = (c, false, true) ::
    rest → Runs (.acknowledgement r) s (fun e => e.rg (SEQ_CCNT r c) = (s.dev.rg (SEQ_CCNT r c) + 1) % 2 ^ 32 ∧ (e.score r).acks
    = rest ∧ e.fld (SEQ_OUTST r) 0 7 = s.dev.fld (SEQ_OUTST r) 0 7 - 1 ∧ Keeps s.dev e (fun a => a = SEQ_CCNT r c ∨ a =
    SEQ_OUTST r ∨ a = SEQ_STAT r))) ∧
  -- ACKNOWLEDGEMENT of the operation the S-core waits for (R403, R412)
  (∀ (s : State) (r c : Nat) (ref : Bool) (rest : List (Nat × Bool × Bool)), (r < 16 ∧ c < 8) → (s.dev.score r).acks = (c, ref,
    false) :: rest → (s.dev.seqState r = 2 ∧ s.dev.seqPc r + 1 < 4096) → ref = false → Runs (.acknowledgement r) s (fun e =>
    e.rg (SEQ_CCNT r c) = (s.dev.rg (SEQ_CCNT r c) + 1) % 2 ^ 32 ∧ WentTo s.dev e r (s.dev.seqPc r + 1) ∧ RegKeeps s.dev e (fun
    a => ScoreReg r a) ∧ SameMem s.dev e))

/-- A write of SEQ_CTL that reaches it starts, halts or resets the S-core; QUE_CHCTL opens, closes or resets a channel; CLEAR
  empties a combining queue; an aligned 64-byte write to an input window enters a message or adds a contribution lane by lane,
  saturated to 32 bits; CMN_OWN is written by the present owner, or claimed where no one owns the bank, and any other write is
  an error. -/
def Obligations.QueueRegisterWrites : Prop :=
  -- SEQ_CTL_RUN (R425)
  (∀ (s : State) (ag : Agent) (r : Nat), r < 16 → WriteOk s.dev ag (SEQ_CTL r) → (s.dev.regPart r).all s.dev.choked = false →
    Runs (.seqCtlRun ag r) s (fun e => e.seqState r = 1 ∧ e.seqPc r = s.dev.fld (SEQ_ENTRY r) 0 12 ∧ Keeps s.dev e (fun a => a =
    SEQ_STAT r ∨ a = SEQ_PC r) ∧ SameUnits s.dev e)) ∧
  -- SEQ_CTL_HALT (R425)
  (∀ (s : State) (ag : Agent) (r : Nat), r < 16 → WriteOk s.dev ag (SEQ_CTL r) → Runs (.seqCtlHalt ag r) s (fun e =>
    (s.dev.seqState r = 1 → e.seqState r = 0) ∧ (s.dev.seqState r = 2 → e.seqState r = 2 ∧ (e.score r).halt = true) ∧ e.seqPc r
    = s.dev.seqPc r ∧ Keeps s.dev e (fun a => a = SEQ_STAT r))) ∧
  -- SEQ_CTL_RESET (R405, R425)
  (∀ (s : State) (ag : Agent) (r : Nat), r < 16 → WriteOk s.dev ag (SEQ_CTL r) → (∀ q, q < 8 → (s.dev.combq r q).held = []) →
    Runs (.seqCtlReset ag r) s (fun e => e.seqState r = 0 ∧ (∀ i, i < 16 → e.greg r i = 0) ∧ (∀ k, k < 8 → e.rg (SEQ_CCNT r k) =
    0) ∧ (e.score r).ops = [] ∧ (e.score r).acks = [] ∧ SameMem s.dev e)) ∧
  -- CHANNEL_MESSAGE to an open channel with room (R407, R408)
  (∀ (s : State) (ag : Agent) (r c : Nat) (bytes : List Byte), (r < 16 ∧ c < 32 ∧ bytes.length = 64) → s.dev.reachesW ag
    (QUE_CHIN r c) = true → QuietQueues s.dev r → (s.dev.chState r c = 0 ∧ s.dev.stage r c = [] ∧ (s.dev.chan r c).length < 16)
    → Runs (.channelMessage ag r c bytes) s (fun e => e.chan r c = s.dev.chan r c ++ [⟨bytes, .nobody⟩] ∧ Keeps s.dev e (fun a
    => a = QUE_CHSTAT r c ∨ a = QUE_CHRX r c))) ∧
  -- CHANNEL_MESSAGE to a closed channel is dropped (R411)
  (∀ (s : State) (ag : Agent) (r c : Nat) (bytes : List Byte), (r < 16 ∧ c < 32 ∧ bytes.length = 64) → s.dev.reachesW ag
    (QUE_CHIN r c) = true → QuietQueues s.dev r → s.dev.chState r c ≠ 0 → Runs (.channelMessage ag r c bytes) s (fun e => e.rg
    (QUE_CHDROP r c) = satInc (s.dev.rg (QUE_CHDROP r c)) 1 % 2 ^ 32 ∧ e.regions = s.dev.regions ∧ Keeps s.dev e (fun a => a =
    QUE_CHDROP r c))) ∧
  -- CHANNEL_MESSAGE of another width is dropped (R407)
  (∀ (s : State) (ag : Agent) (r c : Nat) (bytes : List Byte), (r < 16 ∧ c < 32 ∧ bytes.length ≠ 64) → s.dev.reachesW ag
    (QUE_CHIN r c) = true → Runs (.channelMessage ag r c bytes) s (fun e => e.rg (QUE_ADDRERR r) = satInc (s.dev.rg (QUE_ADDRERR
    r)) 1 % 2 ^ 32 ∧ Keeps s.dev e (fun a => a = QUE_ADDRERR r) ∧ SameUnits s.dev e)) ∧
  -- QUE_CHCTL_OPEN (R411)
  (∀ (s : State) (ag : Agent) (r c : Nat), (r < 16 ∧ c < 32) → WriteOk s.dev ag (QUE_CHCTL r c) → Runs (.queChctlOpen ag r c) s
    (fun e => e.chState r c = 0 ∧ e.chHost r c = s.dev.chHost r c ∧ e.chan r c = s.dev.chan r c ∧ Keeps s.dev e (fun a => a =
    QUE_CHSTAT r c ∨ a = QUE_CHCTL r c) ∧ SameUnits s.dev e)) ∧
  -- QUE_CHCTL_CLOSE (R411)
  (∀ (s : State) (ag : Agent) (r c : Nat), (r < 16 ∧ c < 32) → WriteOk s.dev ag (QUE_CHCTL r c) → QuietQueues s.dev r → Runs
    (.queChctlClose ag r c) s (fun e => e.chState r c = 1 ∧ e.stage r c = [] ∧ e.chan r c = s.dev.chan r c ∧ e.rg (QUE_CHDROP r
    c) % 2 ^ 32 = (min (2 ^ 32 - 1) (s.dev.rg (QUE_CHDROP r c) + (s.dev.stage r c).length)) % 2 ^ 32 ∨ 2 ^ 32 ≤ s.dev.rg
    (QUE_CHDROP r c) ∧ SameMem s.dev e)) ∧
  -- QUE_CHCTL_RESET (R411)
  (∀ (s : State) (ag : Agent) (r c : Nat), (r < 16 ∧ c < 32) → WriteOk s.dev ag (QUE_CHCTL r c) → QuietQueues s.dev r → Runs
    (.queChctlReset ag r c) s (fun e => e.chState r c = 1 ∧ e.stage r c = [] ∧ e.chan r c = [] ∧ SameMem s.dev e)) ∧
  -- COMBINING_CONTRIBUTION that is not the last (R413, R414)
  (∀ (s : State) (ag : Agent) (r q n : Nat) (bytes : List Byte), (r < 16 ∧ q < 8 ∧ bytes.length = 64) → s.dev.reachesW ag
    (QUE_CQIN r q) = true → (s.dev.flag (QUE_CQCFG r q) 31 = true ∧ (s.dev.combq r q).wait = false) → QuietQueues s.dev r → (n =
    s.dev.fld (QUE_CQSTAT r q) 0 16 ∧ n + 1 < s.dev.fld (QUE_CQCFG r q) 0 16) → Runs (.combiningContribution ag r q bytes) s
    (fun e => (∀ i, i < 16 → (e.combq r q).lanes.getD i 0 = satS 32 ((s.dev.combq r q).sums.getD i 0 + sInt 32 (leAt bytes (4 *
    i) 4))) ∧ e.fld (QUE_CQSTAT r q) 0 16 = n + 1 ∧ Keeps s.dev e (fun a => a = QUE_CQSTAT r q))) ∧
  -- COMBINING_CONTRIBUTION that is the last, to an open channel with room (R414)
  (∀ (s : State) (ag : Agent) (r q n c : Nat) (bytes : List Byte), (r < 16 ∧ q < 8 ∧ bytes.length = 64) → s.dev.reachesW ag
    (QUE_CQIN r q) = true → (s.dev.flag (QUE_CQCFG r q) 31 = true ∧ (s.dev.combq r q).wait = false) → QuietQueues s.dev r → (n =
    s.dev.fld (QUE_CQSTAT r q) 0 16 ∧ s.dev.fld (QUE_CQCFG r q) 0 16 ≤ n + 1) → (c = s.dev.cqChan r q ∧ s.dev.chState r c = 0 ∧
    s.dev.stage r c = [] ∧ (s.dev.chan r c).length < 16) → Runs (.combiningContribution ag r q bytes) s (fun e => (e.chan r
    c).length = (s.dev.chan r c).length + 1 ∧ (∀ i, i < 16 → sInt 32 (leAt ((e.chan r c).getLastD ⟨[], .nobody⟩).data (4 * i) 4)
    = satS 32 ((s.dev.combq r q).sums.getD i 0 + sInt 32 (leAt bytes (4 * i) 4))) ∧ (e.combq r q).lanes = [] ∧ (e.combq r
    q).wait = false ∧ e.rg (QUE_CQDONE r q) = satInc (s.dev.rg (QUE_CQDONE r q)) 1 % 2 ^ 32 ∧ SameMem s.dev e)) ∧
  -- QUE_CQCFG_CLEAR (R415)
  (∀ (s : State) (ag : Agent) (r q : Nat), (r < 16 ∧ q < 8) → WriteOk s.dev ag (QUE_CQCFG r q) → Runs (.queCqcfgClear ag r q) s
    (fun e => (e.combq r q).lanes = [] ∧ e.fld (QUE_CQSTAT r q) 0 16 = 0 ∧ e.cqChan r q = s.dev.cqChan r q ∧ e.fld (QUE_CQCFG r
    q) 0 16 = s.dev.fld (QUE_CQCFG r q) 0 16 ∧ Keeps s.dev e (fun a => a = QUE_CQCFG r q ∨ a = QUE_CQSTAT r q))) ∧
  -- CMN_OWN_WRITE of a bank the writer owns, or that no one owns (R422)
  (∀ (s : State) (ag : Agent) (r b v : Nat), (r < 16 ∧ b < 15) → WriteOk s.dev ag (CMN_OWN r b) → v % 16 ≤ 2 → (s.dev.bankOwner
    r b false = bankAgent ag r ∨ s.dev.bankOwner r b false = 0) → Runs (.cmnOwnWrite ag r b v) s (fun e => e.bankOwner r b false
    = v % 16 ∧ e.flag (CMN_OWN r b) 31 = true ∧ Keeps s.dev e (fun a => a = CMN_OWN r b) ∧ SameUnits s.dev e)) ∧
  -- CMN_OWN_WRITE of a bank another owns (R422)
  (∀ (s : State) (ag : Agent) (r b v : Nat), (r < 16 ∧ b < 15) → WriteOk s.dev ag (CMN_OWN r b) → (s.dev.bankOwner r b false ≠
    bankAgent ag r ∧ s.dev.bankOwner r b false ≠ 0) → Runs (.cmnOwnWrite ag r b v) s (fun e => e.bankOwner r b false =
    s.dev.bankOwner r b false ∧ e.flag (CMN_STAT r) 1 = true ∧ Keeps s.dev e (fun a => a = CMN_STAT r) ∧ SameUnits s.dev e))

/-- Each scalar descriptor writes its G register, memory word, channel control or nothing, and goes on to the next descriptor or
  to its target; HALT stops past itself. A LOAD or STORE of an address not 8-byte aligned, and an opcode the table does not
  give, stop in FAULT with their code. A wait whose condition holds goes on at once, another waits and goes on when it is found
  to hold. -/
def Obligations.ScalarDescriptors : Prop :=
  -- NOP (R402)
  (∀ (s : State) (r : Nat) (x : List Byte), AtDesc s.dev r 0 x → s.dev.seqPc r + 1 < 4096 → Runs (.nop r) s (fun e => WentTo
    s.dev e r (s.dev.seqPc r + 1) ∧ (∀ k, k < 16 → e.greg r k = s.dev.greg r k) ∧ Keeps s.dev e (fun a => ScoreReg r a))) ∧
  -- HALT (R402, R425)
  (∀ (s : State) (r : Nat) (x : List Byte), AtDesc s.dev r 1 x → Runs (.halt r) s (fun e => e.seqState r = 0 ∧ e.seqPc r =
    (s.dev.seqPc r + 1) % 4096 ∧ (∀ k, k < 16 → e.greg r k = s.dev.greg r k) ∧ RegKeeps s.dev e (fun a => NoteReg a ∨ ScoreReg r
    a) ∧ SameMem s.dev e)) ∧
  -- SET (R402)
  (∀ (s : State) (r : Nat) (x : List Byte), AtDesc s.dev r 2 x → s.dev.seqPc r + 1 < 4096 → Runs (.set r) s (fun e => WentTo
    s.dev e r (s.dev.seqPc r + 1) ∧ e.greg r (dGd x) = dAddr x ∧ (∀ k, k < 16 → k ≠ dGd x → e.greg r k = s.dev.greg r k) ∧ Keeps
    s.dev e (fun a => ScoreReg r a))) ∧
  -- ADD (R402)
  (∀ (s : State) (r : Nat) (x : List Byte), AtDesc s.dev r 3 x → s.dev.seqPc r + 1 < 4096 → Runs (.add r) s (fun e => WentTo
    s.dev e r (s.dev.seqPc r + 1) ∧ e.greg r (dGd x) = (s.dev.greg r (dGs x) + dImm64 x) % 2 ^ 64 ∧ (∀ k, k < 16 → k ≠ dGd x →
    e.greg r k = s.dev.greg r k) ∧ Keeps s.dev e (fun a => ScoreReg r a))) ∧
  -- LOAD of Commons of its own region (R401, R402)
  (∀ (s : State) (r : Nat) (x : List Byte) (a8 : Nat), AtDesc s.dev r 4 x → s.dev.seqPc r + 1 < 4096 → FreshOp s.dev r →
    (OwnCommons s.dev r ((dAddr x + s.dev.greg r (dGs x)) % 2 ^ 64) a8 8 ∧ a8 % 8 = 0) → (dAddr x + s.dev.greg r (dGs x)) % 8 =
    0 → Runs (.load r) s (fun e => WentTo s.dev e r (s.dev.seqPc r + 1) ∧ e.greg r (dGd x) = s.dev.rdN a8 8 ∧ (∀ k, k < 16 → k ≠
    dGd x → e.greg r k = s.dev.greg r k) ∧ RegKeeps s.dev e (fun a => ScoreReg r a ∨ a = CMN_ECCCORR r) ∧ SameMem s.dev e)) ∧
  -- LOAD of another device: a request leaves and the S-core waits (R252, R401)
  (∀ (s : State) (r : Nat) (x : List Byte) (ea : Nat), AtDesc s.dev r 4 x → FreshOp s.dev r → (ea = (dAddr x + s.dev.greg r (dGs
    x)) % 2 ^ 64 ∧ ea % 8 = 0 ∧ (dAddr x + s.dev.greg r (dGs x)) % 8 = 0) → (ea < 2 ^ 57 ∧ s.dev.present (bitsOf ea 48 9) = true
    ∧ bitsOf ea 48 9 ≠ s.dev.devId) → (s.dev.reqs.filter (fun q => q.region == r)).length < 64 → Runs (.load r) s (fun e =>
    WaitsAt s.dev e r 0 ∧ e.reqs = s.dev.reqs ++ [⟨s.dev.nextTag, true, 8, r, (s.dev.score r).next, 0⟩] ∧ LeavesTo s.dev e
    (dieOf r) (bitsOf ea 48 9) (fun b => pktType b = 0x20 ∧ pktTag b = s.dev.nextTag % 65536 ∧ rqAddr b = ea ∧ rqLen b = 8) ∧ (∀
    k, k < 16 → e.greg r k = s.dev.greg r k) ∧ SameMem s.dev e)) ∧
  -- LOAD of an address that is not 8-byte aligned (R404)
  (∀ (s : State) (r : Nat) (x : List Byte), AtDesc s.dev r 4 x → (dAddr x + s.dev.greg r (dGs x)) % 8 ≠ 0 → Runs (.load r) s
    (fun e => e.seqState r = 3 ∧ e.rg (SEQ_FAULT r) = 3 * 2 ^ 24 + s.dev.seqPc r ∧ (∀ k, k < 16 → e.greg r k = s.dev.greg r k) ∧
    SameMem s.dev e)) ∧
  -- STORE to Commons of its own region (R401, R402)
  (∀ (s : State) (r : Nat) (x : List Byte) (a8 : Nat), AtDesc s.dev r 5 x → s.dev.seqPc r + 1 < 4096 → FreshOp s.dev r →
    (OwnCommons s.dev r ((dAddr x + s.dev.greg r (dGs x)) % 2 ^ 64) a8 8 ∧ a8 % 8 = 0) → (dAddr x + s.dev.greg r (dGs x)) % 8 =
    0 → Runs (.store r) s (fun e => WentTo s.dev e r (s.dev.seqPc r + 1) ∧ e.rdN a8 8 = s.dev.greg r (dGd x) % 2 ^ 64 ∧ (∀ k, k
    < 16 → e.greg r k = s.dev.greg r k) ∧ RegKeeps s.dev e (fun a => ScoreReg r a) ∧ MemKeeps s.dev e (fun a => a8 ≤ a ∧ a < a8
    + 8))) ∧
  -- STORE to an address that is not 8-byte aligned (R404)
  (∀ (s : State) (r : Nat) (x : List Byte), AtDesc s.dev r 5 x → (dAddr x + s.dev.greg r (dGs x)) % 8 ≠ 0 → Runs (.store r) s
    (fun e => e.seqState r = 3 ∧ e.rg (SEQ_FAULT r) = 3 * 2 ^ 24 + s.dev.seqPc r ∧ (∀ k, k < 16 → e.greg r k = s.dev.greg r k) ∧
    SameMem s.dev e)) ∧
  -- BRANCH (R402)
  (∀ (s : State) (r : Nat) (x : List Byte) (n : Nat), AtDesc s.dev r 6 x → s.dev.seqPc r + 1 < 4096 → (n = (if branchTaken (dCh
    x) (s.dev.greg r (dGd x)) then dImm x else s.dev.seqPc r + 1) ∧ n < 4096) → Runs (.branch r) s (fun e => WentTo s.dev e r n
    ∧ (∀ k, k < 16 → e.greg r k = s.dev.greg r k) ∧ Keeps s.dev e (fun a => ScoreReg r a))) ∧
  -- BRANCH to a PC at or above 4,096 (R404)
  (∀ (s : State) (r : Nat) (x : List Byte), AtDesc s.dev r 6 x → (branchTaken (dCh x) (s.dev.greg r (dGd x)) = true ∧ 4096 ≤
    dImm x) → Runs (.branch r) s (fun e => e.seqState r = 3 ∧ e.rg (SEQ_FAULT r) = 4 * 2 ^ 24 + s.dev.seqPc r ∧ (∀ k, k < 16 →
    e.greg r k = s.dev.greg r k))) ∧
  -- LOOP (R402)
  (∀ (s : State) (r : Nat) (x : List Byte) (g n : Nat), AtDesc s.dev r 7 x → s.dev.seqPc r + 1 < 4096 → g = (s.dev.greg r (dGd
    x) + 2 ^ 64 - 1) % 2 ^ 64 → (n = (if g = 0 then s.dev.seqPc r + 1 else dImm x) ∧ n < 4096) → Runs (.loop r) s (fun e =>
    WentTo s.dev e r n ∧ e.greg r (dGd x) = g ∧ (∀ k, k < 16 → k ≠ dGd x → e.greg r k = s.dev.greg r k) ∧ Keeps s.dev e (fun a
    => ScoreReg r a))) ∧
  -- PEEK (R402, R409)
  (∀ (s : State) (r : Nat) (x : List Byte), AtDesc s.dev r 11 x → s.dev.seqPc r + 1 < 4096 → Runs (.peek r) s (fun e => WentTo
    s.dev e r (s.dev.seqPc r + 1) ∧ e.greg r (dGd x) = s.dev.rg (QUE_CHSTAT r (dCh x)) % 2 ^ 64 ∧ (∀ k, k < 16 → k ≠ dGd x →
    e.greg r k = s.dev.greg r k) ∧ Keeps s.dev e (fun a => ScoreReg r a))) ∧
  -- CHCTL OPEN (R402, R411)
  (∀ (s : State) (r : Nat) (x : List Byte), AtDesc s.dev r 12 x → s.dev.seqPc r + 1 < 4096 → dImm x % 8 = 1 → WriteOk s.dev
    (.score r) (QUE_CHCTL r (dCh x)) → Runs (.chctl r) s (fun e => WentTo s.dev e r (s.dev.seqPc r + 1) ∧ e.chState r (dCh x) =
    0 ∧ (∀ k, k < 16 → e.greg r k = s.dev.greg r k) ∧ Keeps s.dev e (fun a => ScoreReg r a ∨ a = QUE_CHSTAT r (dCh x) ∨ a =
    QUE_CHCTL r (dCh x)))) ∧
  -- WAITC (R402, R412)
  (∀ (s : State) (r : Nat) (x : List Byte), AtDesc s.dev r 13 x → s.dev.seqPc r + 1 < 4096 → Runs (.waitc r) s (fun e =>
    (s.dev.waitcOk r x = true → WentTo s.dev e r (s.dev.seqPc r + 1)) ∧ (s.dev.waitcOk r x = false → WaitsAt s.dev e r 2) ∧ (∀
    k, k < 16 → e.greg r k = s.dev.greg r k) ∧ Keeps s.dev e (fun a => ScoreReg r a))) ∧
  -- WAITB (R402)
  (∀ (s : State) (r : Nat) (x : List Byte), AtDesc s.dev r 14 x → s.dev.seqPc r + 1 < 4096 → Runs (.waitb r) s (fun e =>
    (s.dev.waitbOk r x = true → WentTo s.dev e r (s.dev.seqPc r + 1)) ∧ (s.dev.waitbOk r x = false → WaitsAt s.dev e r 3) ∧ (∀
    k, k < 16 → e.greg r k = s.dev.greg r k) ∧ Keeps s.dev e (fun a => ScoreReg r a))) ∧
  -- WAITC_RESUME (R403)
  (∀ (s : State) (r : Nat), r < 16 → (s.dev.waitsAt r 13 2 = true ∧ s.dev.seqPc r + 1 < 4096) → s.dev.waitcOk r (s.dev.seqDesc
    r) = true → Runs (.waitcResume r) s (fun e => WentTo s.dev e r (s.dev.seqPc r + 1) ∧ (∀ k, k < 16 → e.greg r k = s.dev.greg
    r k) ∧ Keeps s.dev e (fun a => ScoreReg r a))) ∧
  -- WAITB_RESUME (R403)
  (∀ (s : State) (r : Nat), r < 16 → (s.dev.waitsAt r 14 3 = true ∧ s.dev.seqPc r + 1 < 4096) → ((s.dev.regPart r).isSome = true
    ∧ s.dev.waitbOk r (s.dev.seqDesc r) = true) → Runs (.waitbResume r) s (fun e => WentTo s.dev e r (s.dev.seqPc r + 1) ∧ (∀ k,
    k < 16 → e.greg r k = s.dev.greg r k) ∧ Keeps s.dev e (fun a => ScoreReg r a))) ∧
  -- reserved opcode (R404)
  (∀ (s : State) (r : Nat) (x : List Byte), (r < 16 ∧ s.dev.scoreGoes r = true ∧ s.dev.seqDesc r = x ∧ 0x1B ≤ dOpc x) → Runs
    (.reservedOpcode r) s (fun e => e.seqState r = 3 ∧ e.rg (SEQ_FAULT r) = 2 ^ 24 + s.dev.seqPc r ∧ (∀ k, k < 16 → e.greg r k =
    s.dev.greg r k) ∧ SameMem s.dev e))

/-- MOVE copies bytes and SEND enters a message, each acknowledged through its counter; RECV takes the head of its channel into
  memory or waits. EVSEND hands records to the router. TPUSH, ENCODE and DECODE put a descriptor on a T-core's queue. RPUT
  enters a record in a Commons ring and RGET takes the oldest out, moving HEAD and TAIL. What each reads or writes in Commons is
  checked for banks the S-core owns. -/
def Obligations.TransferDescriptors : Prop :=
  -- MOVE inside the Commons of its region (R401 to R403)
  (∀ (s : State) (r : Nat) (x : List Byte) (n sa da : Nat), AtDesc s.dev r 8 x → s.dev.seqPc r + 1 < 4096 → FreshOp s.dev r → (n
    = dImm x ∧ n % 8 = 0 ∧ 8 ≤ n ∧ n ≤ 2048) → (OwnCommons s.dev r (s.dev.greg r (dGs x)) sa n ∧ s.dev.greg r (dGs x) % 8 = 0) →
    (OwnCommons s.dev r (s.dev.greg r (dGd x)) da n ∧ s.dev.greg r (dGd x) % 8 = 0) → (dPost x = true → s.dev.fld (SEQ_OUTST r)
    0 7 < 64) → Runs (.move r) s (fun e => (∀ k, k < n → e.mem.read (da + k) = s.dev.mem.read (sa + k)) ∧ MemKeeps s.dev e (fun
    a => da ≤ a ∧ a < da + n) ∧ (e.score r).acks = (s.dev.score r).acks ++ [(dCsel x, false, dPost x)] ∧ (dPost x = false →
    WaitsAt s.dev e r 0) ∧ (dPost x = true → WentTo s.dev e r (s.dev.seqPc r + 1) ∧ e.fld (SEQ_OUTST r) 0 7 = s.dev.fld
    (SEQ_OUTST r) 0 7 + 1) ∧ (∀ k, k < 16 → e.greg r k = s.dev.greg r k))) ∧
  -- SEND to an open channel with room of this device (R402, R407, R408)
  (∀ (s : State) (r : Nat) (x : List Byte) (sa r2 c : Nat), AtDesc s.dev r 9 x → s.dev.seqPc r + 1 < 4096 → FreshOp s.dev r →
    (OwnCommons s.dev r (s.dev.greg r (dGs x)) sa 64 ∧ s.dev.greg r (dGs x) % 64 = 0) → (r2 < 16 ∧ c < 32 ∧ s.dev.greg r (dGd x)
    = 2 ^ 48 * s.dev.devId + 0x020000000000 + QUE_CHIN r2 c) → s.dev.reachesW (.score r) (QUE_CHIN r2 c) = true → QuietQueues
    s.dev r2 → (s.dev.chState r2 c = 0 ∧ s.dev.stage r2 c = [] ∧ (s.dev.chan r2 c).length < 16) → (dPost x = true → s.dev.fld
    (SEQ_OUTST r) 0 7 < 64) → (s.dev.reqs.filter (fun q => q.region == r)).length < 64 → Runs (.send r) s (fun e => e.chan r2 c
    = s.dev.chan r2 c ++ [⟨s.dev.rdB sa 64, .score r (s.dev.score r).next⟩] ∧ (e.score r).acks = (s.dev.score r).acks ++ [(dCsel
    x, false, dPost x)] ∧ (dPost x = false → WaitsAt s.dev e r 0) ∧ (dPost x = true → WentTo s.dev e r (s.dev.seqPc r + 1)) ∧ (∀
    k, k < 16 → e.greg r k = s.dev.greg r k) ∧ SameMem s.dev e)) ∧
  -- RECV of a waiting message (R409)
  (∀ (s : State) (r : Nat) (x : List Byte) (da : Nat) (m : Msg) (rest : List Msg), AtDesc s.dev r 10 x → s.dev.seqPc r + 1 <
    4096 → FreshOp s.dev r → (OwnCommons s.dev r (s.dev.greg r (dGd x)) da 64 ∧ s.dev.greg r (dGd x) % 64 = 0) → s.dev.chHost r
    (dCh x) = false → QuietQueues s.dev r → (s.dev.chan r (dCh x) = m :: rest ∧ s.dev.stage r (dCh x) = [] ∧ m.data.length = 64)
    → Runs (.recv r) s (fun e => WentTo s.dev e r (s.dev.seqPc r + 1) ∧ e.chan r (dCh x) = rest ∧ (∀ k, k < 64 → e.mem.read (da
    + k) = m.data.getD k 0#8) ∧ MemKeeps s.dev e (fun a => da ≤ a ∧ a < da + 64) ∧ (∀ k, k < 16 → e.greg r k = s.dev.greg r k))) ∧
  -- RECV from an empty channel waits (R409)
  (∀ (s : State) (r : Nat) (x : List Byte), AtDesc s.dev r 10 x → s.dev.greg r (dGd x) % 64 = 0 → s.dev.chHost r (dCh x) = false
    → s.dev.chan r (dCh x) = [] → Runs (.recv r) s (fun e => WaitsAt s.dev e r 1 ∧ (∀ k, k < 16 → e.greg r k = s.dev.greg r k) ∧
    Keeps s.dev e (fun a => ScoreReg r a))) ∧
  -- RECV_RESUME once a message has come (R403, R409)
  (∀ (s : State) (r da : Nat) (x : List Byte) (m : Msg) (rest : List Msg), r < 16 → x = s.dev.seqDesc r → (s.dev.waitsAt r 10 1
    = true ∧ s.dev.seqPc r + 1 < 4096 ∧ (s.dev.regPart r).isSome = true) → FreshOp s.dev r → (OwnCommons s.dev r (s.dev.greg r
    (dGd x)) da 64 ∧ s.dev.greg r (dGd x) % 64 = 0) → s.dev.chHost r (dCh x) = false → QuietQueues s.dev r → (s.dev.chan r (dCh
    x) = m :: rest ∧ s.dev.stage r (dCh x) = [] ∧ m.data.length = 64) → s.dev.owns ((s.dev.regPart r).getD 0) r = true → Runs
    (.recvResume r) s (fun e => WentTo s.dev e r (s.dev.seqPc r + 1) ∧ e.chan r (dCh x) = rest ∧ (∀ k, k < 64 → e.mem.read (da +
    k) = m.data.getD k 0#8) ∧ MemKeeps s.dev e (fun a => da ≤ a ∧ a < da + 64) ∧ (∀ k, k < 16 → e.greg r k = s.dev.greg r k))) ∧
  -- EVSEND of 8-byte records, not posted (R402, R412)
  (∀ (s : State) (r : Nat) (x : List Byte) (n sa : Nat), AtDesc s.dev r 15 x → FreshOp s.dev r → (dPost x = false ∧ dCh x % 2 =
    0) → (n = 8 * evCount x ∧ n ≤ 2048) → OwnCommons s.dev r (s.dev.greg r (dGs x)) sa n → Runs (.evsend r) s (fun e => WaitsAt
    s.dev e r 0 ∧ (e.score r).acks.map Prod.fst = (s.dev.score r).acks.map Prod.fst ++ [dCsel x] ∧ (∀ k, k < 16 → e.greg r k =
    s.dev.greg r k) ∧ SameMem s.dev e)) ∧
  -- TPUSH to one T-core (R396, R402)
  (∀ (s : State) (r : Nat) (x : List Byte) (t sa : Nat), AtDesc s.dev r 16 x → s.dev.seqPc r + 1 < 4096 → FreshOp s.dev r → (t <
    16 ∧ dImm x = 2 ^ t) → OwnCommons s.dev r (s.dev.greg r (dGs x)) sa 64 → (∀ k, k < 16 → WriteOk s.dev (.score r) (TCR_DQPUSH
    t k)) → (s.dev.tcore t).queue.length < 8 → Runs (.tpush r) s (fun e => WentTo s.dev e r (s.dev.seqPc r + 1) ∧ (e.tcore
    t).queue = (s.dev.tcore t).queue ++ [(s.dev.rdB sa 64, false)] ∧ (∀ k, k < 16 → e.greg r k = s.dev.greg r k) ∧ SameMem s.dev
    e)) ∧
  -- ENCODE (R382, R402)
  (∀ (s : State) (r : Nat) (x : List Byte) (sa : Nat), AtDesc s.dev r 17 x → FreshOp s.dev r → OwnCommons s.dev r (s.dev.greg r
    (dGs x)) sa 64 → byteAt (s.dev.rdB sa 64) 0 = 6 → (s.dev.tcOut r = false ∧ s.dev.tcGone r = false ∧ (s.dev.tcore
    r).queue.length < 8) → Runs (.encode r) s (fun e => WaitsAt s.dev e r 6 ∧ (e.tcore r).queue = (s.dev.tcore r).queue ++
    [(s.dev.rdB sa 64, true)] ∧ (∀ k, k < 16 → e.greg r k = s.dev.greg r k) ∧ SameMem s.dev e)) ∧
  -- DECODE (R383, R402)
  (∀ (s : State) (r : Nat) (x : List Byte) (sa ro : Nat), AtDesc s.dev r 18 x → s.dev.seqPc r + 1 < 4096 → FreshOp s.dev r →
    OwnCommons s.dev r (s.dev.greg r (dGs x)) sa 64 → ((s.dev.regPart r).bind s.dev.readoutRegion = some ro ∧ s.dev.ecc = []) →
    (s.dev.tcOut r = false ∧ s.dev.tcGone r = false ∧ (s.dev.tcore r).queue.length < 8) → Runs (.decode r) s (fun e => WentTo
    s.dev e r (s.dev.seqPc r + 1) ∧ e.greg r (dGd x) = s.dev.rg64 (AXN_RFRAME_LO ro) % 2 ^ 64 ∧ (∀ k, k < 16 → k ≠ dGd x →
    e.greg r k = s.dev.greg r k) ∧ (e.tcore r).queue = (s.dev.tcore r).queue ++ [(s.dev.rdB sa 64, false)] ∧ MemKeeps s.dev e
    (fun a => InBuffer r a))) ∧
  -- RPUT of a record that fits without a pad (R416 to R418)
  (∀ (s : State) (r : Nat) (x : List Byte) (g sa n u p w : Nat) (c : List Byte), AtDesc s.dev r 24 x → s.dev.seqPc r + 1 < 4096
    → FreshOp s.dev r → ((∀ b, b < 16 → s.dev.ownsBank r b ownScore = true ∧ s.dev.flag (CMN_OWN r b) 31 = false) ∧ s.dev.ecc =
    []) → (OwnCommons s.dev r (s.dev.greg r (dGs x)) g 64 ∧ c = s.dev.rdB g 64 ∧ rgOk c = true) → (OwnCommons s.dev r (dAddr x)
    sa n ∧ n = dImm x ∧ n ≤ 2048) → (u = ceilDiv (8 + n) 64 ∧ p = rgHead c % rgSize c) → (64 * u ≤ rgSize c - p ∧ p % 64 = 0 ∧
    64 * u ≤ rgSize c - 64 ∧ 64 * u ≤ rgSize c - (rgHead c + 2 ^ 32 - rgTail c) % 2 ^ 32) → rgBase c + rgSize c ≤ 0x400000 → w =
    cmnBase r + rgBase c + p → (g + 64 ≤ w ∨ w + 64 * u ≤ g) → Runs (.rput r) s (fun e => WentTo s.dev e r (s.dev.seqPc r + 1) ∧
    e.greg r (dGd x) = 0 ∧ (∀ k, k < 16 → k ≠ dGd x → e.greg r k = s.dev.greg r k) ∧ e.rdN (g + 8) 4 = (rgHead c + 64 * u) % 2 ^
    32 ∧ e.rdB w 8 = ringHdr 1 u n ∧ (∀ k, k < n → e.mem.read (w + 8 + k) = s.dev.mem.read (sa + k)) ∧ MemKeeps s.dev e (fun a
    => (g + 8 ≤ a ∧ a < g + 12) ∨ (w ≤ a ∧ a < w + 8 + n)))) ∧
  -- RGET of a record (R416, R417, R419)
  (∀ (s : State) (r : Nat) (x : List Byte) (g t w n u da : Nat) (c : List Byte), AtDesc s.dev r 25 x → s.dev.seqPc r + 1 < 4096
    → FreshOp s.dev r → ((∀ b, b < 16 → s.dev.ownsBank r b ownScore = true ∧ s.dev.flag (CMN_OWN r b) 31 = false) ∧ s.dev.ecc =
    []) → (OwnCommons s.dev r (s.dev.greg r (dGs x)) g 64 ∧ c = s.dev.rdB g 64 ∧ rgOk c = true) → (t = rgTail c ∧ t ≠ rgHead c ∧
    w = cmnBase r + rgBase c + t % rgSize c) → (rgBase c + rgSize c ≤ 0x400000 ∧ t % rgSize c + 8 + n ≤ rgSize c) → (byteAt
    (s.dev.rdB w 8) 0 = 1 ∧ u = leAt (s.dev.rdB w 8) 2 2 ∧ n = leAt (s.dev.rdB w 8) 4 4) → (0 < u ∧ 64 * u ≤ (rgHead c + 2 ^ 32
    - t) % 2 ^ 32 ∧ n ≤ 2048) → OwnCommons s.dev r (dAddr x) da n → (g + 64 ≤ da ∨ da + n ≤ g) → Runs (.rget r) s (fun e =>
    WentTo s.dev e r (s.dev.seqPc r + 1) ∧ e.greg r (dGd x) = n ∧ (∀ k, k < 16 → k ≠ dGd x → e.greg r k = s.dev.greg r k) ∧
    e.rdN (g + 12) 4 = (t + 64 * u) % 2 ^ 32 ∧ (∀ k, k < n → e.mem.read (da + k) = s.dev.mem.read (w + 8 + k)) ∧ MemKeeps s.dev
    e (fun a => (g + 12 ≤ a ∧ a < g + 16) ∨ (da ≤ a ∧ a < da + n))))

/-- TEND in the window of a harvested Season runs and answers 0; with no action asked it writes its results and nothing else.
  HSTEP answers the Season number once the Season has ended, or waits. CKPT starts a copy and waits. MODSET arms the modulator
  of every core of the region. OWN hands over a bank that the S-core owns or no one owns. SIGNAL raises its Tocsin source and
  goes on. -/
def Obligations.SeasonDescriptors : Prop :=
  -- TEND in its window (R336, R339)
  (∀ (s : State) (r : Nat) (x : List Byte) (g p q : Nat) (b : List Byte), AtDesc s.dev r 19 x → s.dev.seqPc r + 1 < 4096 →
    FreshOp s.dev r → s.dev.ecc = [] → (OwnCommons s.dev r (s.dev.greg r (dGs x)) g 64 ∧ b = s.dev.rdB g 64) → (s.dev.regPart r
    = some p ∧ NamesCore s.dev p (tdCore b) q ∧ q < 256) → (s.dev.flag (HRV_STAT q) 2 = true ∧ s.dev.muteBeat q p = false ∧
    s.dev.fld (HRV_SCOUNT q) 0 16 < min (s.dev.fld (HRV_HWIN q) 0 16) (s.dev.fld (HRV_SEASON q) 0 16)) → Runs (.tend r) s (fun e
    => WentTo s.dev e r (s.dev.seqPc r + 1) ∧ e.greg r (dGd x) = 0 ∧ (∀ k, k < 16 → k ≠ dGd x → e.greg r k = s.dev.greg r k))) ∧
  -- TEND that asks neither to prune nor to grow (R338, R339)
  (∀ (s : State) (r : Nat) (x : List Byte) (g p q : Nat) (b : List Byte), AtDesc s.dev r 19 x → s.dev.seqPc r + 1 < 4096 →
    FreshOp s.dev r → s.dev.ecc = [] → (OwnCommons s.dev r (s.dev.greg r (dGs x)) g 64 ∧ b = s.dev.rdB g 64) → (s.dev.regPart r
    = some p ∧ NamesCore s.dev p (tdCore b) q ∧ q < 256) → (s.dev.flag (HRV_STAT q) 2 = true ∧ s.dev.muteBeat q p = false ∧
    s.dev.fld (HRV_SCOUNT q) 0 16 < min (s.dev.fld (HRV_HWIN q) 0 16) (s.dev.fld (HRV_SEASON q) 0 16)) → (tdPrune b = false ∧
    tdGrow b = false) → Runs (.tend r) s (fun e => WentTo s.dev e r (s.dev.seqPc r + 1) ∧ e.greg r (dGd x) = 0 ∧ e.rdN (g + 40)
    4 = 0 ∧ e.rdN (g + 44) 4 = 0 ∧ e.rdN (g + 48) 4 = 0 ∧ e.rdN (g + 22) 2 = leAt b 22 2 ∧ MemKeeps s.dev e (fun a => (g + 40 ≤
    a ∧ a < g + 52)))) ∧
  -- HSTEP once the Season has ended (R336)
  (∀ (s : State) (r : Nat) (x : List Byte) (c : Nat × Nat) (rest : List (Nat × Nat)), AtDesc s.dev r 20 x → s.dev.seqPc r + 1 <
    4096 → s.dev.seasonEnded r = true → s.dev.coresOf r = c :: rest → Runs (.hstep r) s (fun e => WentTo s.dev e r (s.dev.seqPc
    r + 1) ∧ e.greg r (dGd x) = s.dev.rg (HRV_SEASONNO c.2) % 2 ^ 64 ∧ (∀ k, k < 16 → k ≠ dGd x → e.greg r k = s.dev.greg r k) ∧
    Keeps s.dev e (fun a => ScoreReg r a))) ∧
  -- HSTEP before it (R336)
  (∀ (s : State) (r : Nat) (x : List Byte), AtDesc s.dev r 20 x → s.dev.seasonEnded r = false → Runs (.hstep r) s (fun e =>
    WaitsAt s.dev e r 4 ∧ (∀ k, k < 16 → e.greg r k = s.dev.greg r k) ∧ Keeps s.dev e (fun a => ScoreReg r a))) ∧
  -- HSTEP_RESUME (R336, R403)
  (∀ (s : State) (r : Nat) (c : Nat × Nat) (rest : List (Nat × Nat)), r < 16 → (s.dev.waitsAt r 20 4 = true ∧ s.dev.seasonEnded
    r = true ∧ s.dev.seqPc r + 1 < 4096) → s.dev.coresOf r = c :: rest → Runs (.hstepResume r) s (fun e => WentTo s.dev e r
    (s.dev.seqPc r + 1) ∧ e.greg r (dGd (s.dev.seqDesc r)) = s.dev.rg (HRV_SEASONNO c.2) % 2 ^ 64 ∧ Keeps s.dev e (fun a =>
    ScoreReg r a))) ∧
  -- CKPT with HOST alone (R349, R352)
  (∀ (s : State) (r : Nat) (x : List Byte) (p : Nat), AtDesc s.dev r 21 x → s.dev.regPart r = some p → (s.dev.harvestOn p =
    false ∧ s.dev.muted p = false) → ((s.dev.part p).ckpt.copy = none ∧ (s.dev.part p).ckpt.flags % 4 = 2) → Runs (.ckpt r) s
    (fun e => WaitsAt s.dev e r 7 ∧ (e.part p).ckpt.copy.map Prod.snd = some ((s.dev.part p).ckpt.seq + 1) ∧ (e.part
    p).ckpt.toHost = true ∧ e.car.waiting.length = s.dev.car.waiting.length + 1 ∧ (∀ k, k < 16 → e.greg r k = s.dev.greg r k) ∧
    Keeps s.dev e (fun a => ScoreReg r a))) ∧
  -- MODSET (R326, R402)
  (∀ (s : State) (r : Nat) (x : List Byte), AtDesc s.dev r 22 x → s.dev.seqPc r + 1 < 4096 → (∀ c, c ∈ s.dev.coresOf r → c.2 <
    256 ∧ WriteOk s.dev (.score r) (HRV_MODNEXT c.2)) → Runs (.modset r) s (fun e => WentTo s.dev e r (s.dev.seqPc r + 1) ∧ (∀
    c, c ∈ s.dev.coresOf r → e.fld (HRV_MODNEXT c.2) 0 8 = s.dev.greg r (dGs x) % 256 ∧ e.flag (HRV_MODNEXT c.2) 15 = true ∧
    e.fld (HRV_MODNEXT c.2) 16 16 = s.dev.greg r (dGd x) % 65536) ∧ (∀ k, k < 16 → e.greg r k = s.dev.greg r k) ∧ Keeps s.dev e
    (fun a => ScoreReg r a ∨ ∃ q, q < 256 ∧ a = HRV_MODNEXT q))) ∧
  -- OWN of a bank the S-core owns, or no one (R421, R422)
  (∀ (s : State) (r : Nat) (x : List Byte) (b : Nat), AtDesc s.dev r 23 x → s.dev.seqPc r + 1 < 4096 → (b = dCh x % 16 ∧ bitAt
    (dImm x) 8 = false ∧ dImm x % 16 ≤ 2) → (s.dev.bankOwner r b false = ownScore ∨ s.dev.bankOwner r b false = 0) → Runs (.own
    r) s (fun e => WentTo s.dev e r (s.dev.seqPc r + 1) ∧ e.bankOwner r b false = dImm x % 16 ∧ e.flag (CMN_OWN r b) 31 = true ∧
    (∀ k, k < 16 → e.greg r k = s.dev.greg r k) ∧ Keeps s.dev e (fun a => ScoreReg r a ∨ a = CMN_OWN r b))) ∧
  -- OWN of a bank another owns (R422)
  (∀ (s : State) (r : Nat) (x : List Byte) (b : Nat), AtDesc s.dev r 23 x → s.dev.seqPc r + 1 < 4096 → (b = dCh x % 16 ∧ bitAt
    (dImm x) 8 = false) → (s.dev.bankOwner r b false ≠ ownScore ∧ s.dev.bankOwner r b false ≠ 0) → Runs (.own r) s (fun e =>
    WentTo s.dev e r (s.dev.seqPc r + 1) ∧ e.bankOwner r b false = s.dev.bankOwner r b false ∧ e.flag (CMN_STAT r) 1 = true ∧ (∀
    k, k < 16 → e.greg r k = s.dev.greg r k) ∧ Keeps s.dev e (fun a => ScoreReg r a ∨ a = CMN_STAT r))) ∧
  -- SIGNAL (R402)
  (∀ (s : State) (r : Nat) (x : List Byte), AtDesc s.dev r 26 x → s.dev.seqPc r + 1 < 4096 → Runs (.signal r) s (fun e => WentTo
    s.dev e r (s.dev.seqPc r + 1) ∧ (∀ k, k < 16 → e.greg r k = s.dev.greg r k) ∧ RegKeeps s.dev e (fun a => NoteReg a ∨
    ScoreReg r a) ∧ SameMem s.dev e))

/-- DDR_CONFIG stores a legal configuration, DDR_WINDOW writes a window that meets no other partition's, DDR_SCRUB sets the
  scrubber; training ends with every channel READY and the capacity shown, or with the failed channels OFF. An access in a
  window reads or stores its bytes, one outside is counted and does nothing; the scrubber corrects a burst; refresh polling
  shows its code. -/
def Obligations.DdrCommandsAndAccesses : Prop :=
  -- DDR_CONFIG (R432, R448)
  (∀ (s : State) (h : Hdr) (pl : List Byte), Accepted s.dev cDdrConfig h pl → (ddrConfigOk (pl.take 5) = true ∧ ddrMib (pl.take
    5) ≤ 512 * 1024) → Runs (.ddrConfig h pl) s (fun e => SMap.get [] e.car.keepCfg 0 = pl.take 5 ∧ (∀ k, k ≠ 0 → SMap.get []
    e.car.keepCfg k = SMap.get [] s.dev.car.keepCfg k) ∧ Answered s.dev e 0x0A01 h .ok [] ∧ Keeps s.dev e (fun a => BookReg a) ∧
    SameUnits s.dev e)) ∧
  -- DDR_STATUS (R446, R448)
  (∀ (s : State) (h : Hdr) (pl : List Byte), Accepted s.dev cDdrStatus h pl → byteAt pl 0 < 2 → Runs (.ddrStatus h pl) s (fun e
    => Answered s.dev e 0x0A02 h .ok (s.dev.regBytes (MEM_CFG (byteAt pl 0)) 7 ++ s.dev.regBytes (MEM_CHSTAT (byteAt pl 0) 0)
    64) ∧ Keeps s.dev e (fun a => BookReg a) ∧ SameUnits s.dev e)) ∧
  -- DDR_WINDOW (R435, R448)
  (∀ (s : State) (h : Hdr) (pl : List Byte) (p w v b l : Nat), Accepted s.dev cDdrWindow h pl → (p = byteAt pl 0 ∧ w = byteAt pl
    1 ∧ v = byteAt pl 2 ∧ b = leAt pl 4 4 ∧ l = leAt pl 8 4) → (p < 16 ∧ w < 4 ∧ v < 2) → s.dev.still p = true → (v = 1 → b ≤ l
    ∧ l < s.dev.rg (MEM_CAPMB 0) ∧ ∀ q, q < 16 → q ≠ p → ∀ k, k < 4 → s.dev.flag (MEM_WBASE 0 q k) 31 = true → l < s.dev.fld
    (MEM_WBASE 0 q k) 0 19 ∨ s.dev.fld (MEM_WLIM 0 q k) 0 19 < b) → Runs (.ddrWindow h pl) s (fun e => e.rg (MEM_WBASE 0 p w) =
    v * 2 ^ 31 + b % 2 ^ 19 ∧ e.rg (MEM_WLIM 0 p w) = l % 2 ^ 19 ∧ Answered s.dev e 0x0A03 h .ok [] ∧ Keeps s.dev e (fun a =>
    BookReg a ∨ a = MEM_WBASE 0 p w ∨ a = MEM_WLIM 0 p w) ∧ SameUnits s.dev e)) ∧
  -- DDR_RETRAIN (R445, R448)
  (∀ (s : State) (h : Hdr) (pl : List Byte), Accepted s.dev cDdrRetrain h pl → (byteAt pl 0 < 2 ∧ s.dev.ddrStored ≠ [] ∧ (byteAt
    pl 0 = 0 → s.dev.ddrCacheOk = true)) → (s.dev.windowBusy = false ∧ s.dev.cal.ddrJob = none) → Runs (.ddrRetrain h pl) s (fun
    e => e.cal.ddrJob = some (2 + byteAt pl 0) ∧ (∀ c, c < 8 → e.fld (MEM_CHSTAT (c / 4) (c % 4)) 0 2 = 1) ∧ Waits s.dev e
    cDdrRetrain h pl (.other 0x0A04) ∧ SameMem s.dev e)) ∧
  -- DDR_SCRUB (R440, R448)
  (∀ (s : State) (h : Hdr) (pl : List Byte), Accepted s.dev cDdrScrub h pl → (byteAt pl 0 < 2 ∧ byteAt pl 1 ≠ 0) → Runs
    (.ddrScrub h pl) s (fun e => (∀ k, k < 2 → e.rg (MEM_SCRUB k) = byteAt pl 0 * 2 ^ 31 + byteAt pl 1) ∧ Answered s.dev e
    0x0A05 h .ok [] ∧ Keeps s.dev e (fun a => BookReg a ∨ a = MEM_SCRUB 0 ∨ a = MEM_SCRUB 1) ∧ SameUnits s.dev e)) ∧
  -- DDR_WINREAD (R448)
  (∀ (s : State) (h : Hdr) (pl : List Byte), Accepted s.dev cDdrWinread h pl → Runs (.ddrWinread h pl) s (fun e => Answered
    s.dev e 0x0A06 h .ok ((upTo 4).map (fun w => leBytes 4 (s.dev.rg (MEM_WBASE 0 h.part w)) ++ leBytes 4 (s.dev.rg (MEM_WLIM 0
    h.part w)))).flatten ∧ Keeps s.dev e (fun a => BookReg a) ∧ SameUnits s.dev e)) ∧
  -- DDR_ACCESS, a write inside a window (R435, R438)
  (∀ (s : State) (die p ad n : Nat) (l : List Byte), s.dev.inWindow p ad l.length = true → s.dev.ecc = [] → Runs (.ddrAccess die
    p ad n (some l)) s (fun e => e.ddrGet ad l.length = l ∧ MemKeeps s.dev e (fun a => ad ≤ a ∧ a < ad + l.length) ∧ e.ecc = []
    ∧ SameUnits s.dev e)) ∧
  -- DDR_ACCESS, a read of one clean burst inside a window (R435, R437)
  (∀ (s : State) (die p ad n c : Nat), s.dev.inWindow p ad n = true → (1 ≤ n ∧ ad % 64 + n ≤ 64) → SMap.get 0 s.dev.ecc (64 *
    (ad / 64)) = 0 → c = (s.dev.ddrSub (64 * (ad / 64))).1 → Runs (.ddrAccess die p ad n none) s (fun e => e.rg64 (MEM_RD_LO (c
    / 4) (c % 4)) = inc64 (s.dev.rg64 (MEM_RD_LO (c / 4) (c % 4))) 1 ∧ Keeps s.dev e (fun a => a = MEM_RD_LO (c / 4) (c % 4) ∨ a
    = MEM_RD_LO (c / 4) (c % 4) + 4) ∧ SameUnits s.dev e)) ∧
  -- DDR_ACCESS outside the windows of its partition (R31, R435)
  (∀ (s : State) (die p ad n : Nat) (l : Option (List Byte)), (die < 2 ∧ p < 16) → s.dev.inWindow p ad ((l.map List.length).getD
    n) = false → Runs (.ddrAccess die p ad n l) s (fun e => e.rg (MEM_WINERR die) = satInc (s.dev.rg (MEM_WINERR die)) 1 % 2 ^
    32 ∧ e.rg (MEM_WINLAST die) = p ∧ e.flag (MEM_STAT die) 4 = true ∧ Keeps s.dev e (fun a => a = MEM_WINERR die ∨ a =
    MEM_WINLAST die ∨ a = MEM_STAT die) ∧ SameUnits s.dev e)) ∧
  -- DDR_SCRUB_STEP over a burst with a single-bit error (R437, R440)
  (∀ (s : State) (ad b c : Nat), b = 64 * (ad / 64) → (s.dev.ddrSub b = (c, 0) ∧ c < 8) → (s.dev.flag (MEM_SCRUB (c / 4)) 31 =
    true ∧ b < s.dev.ddrCap) → SMap.get 0 s.dev.ecc b = 1 → Runs (.ddrScrubStep ad) s (fun e => SMap.get 0 e.ecc b = 0 ∧ e.rg
    (MEM_CECNT0 (c / 4) (c % 4)) = satInc (s.dev.rg (MEM_CECNT0 (c / 4) (c % 4))) 1 % 2 ^ 32 ∧ SameMem s.dev e ∧ SameUnits s.dev
    e)) ∧
  -- MR4_POLL of a component in its range (R441)
  (∀ (s : State) (c rate : Nat), c < 8 → Runs (.mr4Poll c rate false) s (fun e => e.fld (MEM_CHSTAT (c / 4) (c % 4)) 8 3 = rate
    % 8 ∧ e.fld (MEM_CHSTAT (c / 4) (c % 4)) 0 2 = s.dev.fld (MEM_CHSTAT (c / 4) (c % 4)) 0 2 ∧ Keeps s.dev e (fun a => a =
    MEM_CHSTAT (c / 4) (c % 4)) ∧ SameUnits s.dev e)) ∧
  -- MR4_POLL of a component above its range (R441)
  (∀ (s : State) (c rate : Nat), c < 8 → Runs (.mr4Poll c rate true) s (fun e => e.fld (MEM_CHSTAT (c / 4) (c % 4)) 8 3 = rate %
    8)) ∧
  -- ZQ_CALIBRATION (R442)
  (∀ (s : State) (c : Nat), Runs (.zqCalibration c) s (fun e => Keeps s.dev e (fun _ => False) ∧ SameUnits s.dev e)) ∧
  -- DDR_TRAINING that passes on every channel (R432, R444, R445)
  (∀ (s : State) (pass : Bool) (bad ms job : Nat), s.dev.cal.ddrJob = some job → bad % 256 = 0 → Runs (.ddrTraining pass bad ms)
    s (fun e => e.cal.ddrJob = none ∧ e.cal.ddr = true ∧ (∀ k, k < 2 → e.rg (MEM_CFG k) = ddrCfgReg s.dev.ddrStored % 2 ^ 32 ∧
    e.rg (MEM_CAPMB k) = ddrMib s.dev.ddrStored % 2 ^ 32 ∧ e.rg (MEM_TRAINMS k) = ms % 2 ^ 32) ∧ (∀ c, c < 8 → e.fld (MEM_CHSTAT
    (c / 4) (c % 4)) 0 2 = 2) ∧ (job = 2 → pass = true → s.dev.ddrCacheOk = true → SameMem s.dev e) ∧ e.ddrCacheOk = (!
    s.dev.ddrStored.isEmpty))) ∧
  -- DDR_TRAINING in full that fails on some channels (R444)
  (∀ (s : State) (bad ms : Nat), s.dev.cal.ddrJob = some 3 → bad % 256 ≠ 0 → Runs (.ddrTraining false bad ms) s (fun e =>
    e.cal.ddrJob = none ∧ (∀ k, k < 2 → e.rg (MEM_CFG k) = 0 ∧ e.rg (MEM_CAPMB k) = 0) ∧ (∀ c, c < 8 → e.fld (MEM_CHSTAT (c / 4)
    (c % 4)) 0 2 = (if bitAt (bad % 256) c then 0 else 2))))

/-- PERST_N resets the endpoint's block and disables every ring, hot reset the rings and the link; a function-level reset Chokes
  the function's partition, zeroes its core stores, Commons and T-core buffers, and leaves it IDLE, neither Choked nor Muted by
  that, until the FLR is complete; VF Enable set or cleared does so for every virtual function; the link comes up with its width
  and rate. -/
def Obligations.EndpointResetsAndLink : Prop :=
  -- PERST_N_ASSERT (R473, R478)
  (∀ (s : State), Runs (.perstNAssert) s (fun e => e.pins.perst = true ∧ e.flag PCI_STAT 4 = true ∧ e.vfEnable = false ∧
    e.numVfs = 0 ∧ e.d3hot = false ∧ (∀ a, 0x90000 ≤ a → a < 0xA0000 → a ≠ PCI_STAT → e.rg a = (regReset a).toNat) ∧ (∀ f, f <
    16 → e.flag (CAR_CRCFG f) 31 = false ∧ e.flag (CAR_RRCFG f) 31 = false ∧ e.flag (AXN_IRCFG 0 f) 31 = false ∧ e.flag
    (AXN_ORCFG 0 f) 31 = false) ∧ SameMem s.dev e ∧ e.cores = s.dev.cores ∧ e.parts = s.dev.parts ∧ e.tcores = s.dev.tcores ∧ (∀
    r, r < 16 → ∀ c, c < 32 → s.dev.chHost r c = true → e.chState r c = 1 ∧ e.stage r c = []))) ∧
  -- PERST_N_RELEASE (R449, R472)
  (∀ (s : State) (width rate : Nat), s.dev.pins.perst = true → (width = 4 ∨ width = 8 ∨ width = 16) → (1 ≤ rate ∧ rate ≤ 5) →
    Runs (.perstNRelease width rate) s (fun e => e.pins.perst = false ∧ e.flag PCI_LINKSTAT 0 = true ∧ e.fld PCI_LINKSTAT 16 5 =
    width ∧ e.fld PCI_LINKSTAT 8 4 = rate ∧ Keeps s.dev e (fun a => a = PCI_LINKSTAT ∨ a = PCI_STAT) ∧ SameUnits s.dev e)) ∧
  -- HOT_RESET (R473)
  (∀ (s : State), s.dev.pins.perst = false → Runs (.hotReset) s (fun e => e.rg PCI_LINKSTAT = 0 ∧ e.rg PCI_LINKDOWN = satInc
    (s.dev.rg PCI_LINKDOWN) 1 % 2 ^ 32 ∧ e.vfEnable = false ∧ e.numVfs = 0 ∧ e.d3hot = false ∧ (∀ f, f < 16 → e.flag (CAR_CRCFG
    f) 31 = false ∧ e.flag (CAR_RRCFG f) 31 = false ∧ e.flag (AXN_IRCFG 0 f) 31 = false ∧ e.flag (AXN_ORCFG 0 f) 31 = false) ∧
    SameMem s.dev e ∧ e.cores = s.dev.cores ∧ e.parts = s.dev.parts ∧ e.tcores = s.dev.tcores ∧ (∀ r, r < 16 → ∀ c, c < 32 →
    s.dev.chHost r c = true → e.chState r c = 1 ∧ e.stage r c = []))) ∧
  -- FLR of a virtual function (R473, R474)
  (∀ (s : State) (f : Nat), (0 < f ∧ f < 16 ∧ s.dev.fnExists f = true ∧ (s.dev.fn f).flr = false ∧ s.dev.pins.perst = false) →
    Runs (.flr f) s (fun e => (e.fn f).flr = true ∧ (e.fn f).resps = [] ∧ e.rg PCI_FLRCNT = satInc (s.dev.rg PCI_FLRCNT) 1 % 2 ^
    32 ∧ e.bstate f = 0 ∧ e.choked f = false ∧ e.flag (FLT_PMUTE f) 7 = false ∧ (∀ r a, r ∈ s.dev.regionsOf f → (InCommons r a ∨
    InBuffer r a) → e.mem.read a = 0#8) ∧ (∀ q a, q ∈ s.dev.sitesOf f → InStore q a → e.mem.read a = 0#8) ∧ e.flag (CAR_CRCFG f)
    31 = false ∧ e.flag (CAR_RRCFG f) 31 = false)) ∧
  -- FLR_COMPLETE (R474)
  (∀ (s : State) (f : Nat), Runs (.flrComplete f) s (fun e => (e.fn f).flr = false ∧ Keeps s.dev e (fun a => a = PCI_STAT) ∧
    SameUnits s.dev e)) ∧
  -- VF_ENABLE_CLEAR (R473)
  (∀ (s : State), Runs (.vfEnableClear) s (fun e => e.vfEnable = false ∧ e.numVfs = 0 ∧ (∀ f, f ∈ s.dev.vfs → (e.fn f).flr =
    true ∧ e.bstate f = 0))) ∧
  -- VF_ENABLE_SET (R453, R454)
  (∀ (s : State) (n : Nat), (s.dev.vfEnable = false ∧ 0 < n ∧ n ≤ 15) → Runs (.vfEnableSet n) s (fun e => e.vfEnable = true ∧
    e.numVfs = n ∧ e.cfgWord n 0 = some (2 ^ 32 - 1) ∧ e.cfgWord 0 0 = some (Config.vendorId % 65536 + 0x0940 * 2 ^ 16) ∧
    e.cfgWord n 8 = some (byteAt e.car.partRec 17 + 0x120000 * 2 ^ 8) ∧ (∀ f, f < 16 → e.fnExists f = decide (f ≤ n)) ∧ Keeps
    s.dev e (fun _ => False) ∧ SameUnits s.dev e)) ∧
  -- D3HOT (R475)
  (∀ (s : State), Runs (.d3hot) s (fun e => e.d3hot = true ∧ Keeps s.dev e (fun _ => False) ∧ SameUnits s.dev e)) ∧
  -- D3HOT_EXIT (R475)
  (∀ (s : State), Runs (.d3hotExit) s (fun e => e.d3hot = false ∧ Keeps s.dev e (fun _ => False) ∧ SameUnits s.dev e)) ∧
  -- PCIE_LINK_UP (R449)
  (∀ (s : State) (width rate : Nat), (s.dev.pins.perst = false ∧ s.dev.flag PCI_LINKSTAT 0 = false) → (width = 4 ∨ width = 8 ∨
    width = 16) → (1 ≤ rate ∧ rate ≤ 5) → Runs (.pcieLinkUp width rate) s (fun e => e.flag PCI_LINKSTAT 0 = true ∧ e.fld
    PCI_LINKSTAT 16 5 = width ∧ e.fld PCI_LINKSTAT 8 4 = rate ∧ Keeps s.dev e (fun a => a = PCI_LINKSTAT) ∧ SameUnits s.dev e))

/-- A BAR0 access of 4 aligned bytes reads a register or the MSI-X table, or writes it, and one of another shape is counted. A
  BAR2 access through a valid aperture reads or stores the bytes at the mapped address, through an invalid one it is counted.
  The channel registers take what the rules let them; a descriptor joins the channel's work, moves its bytes at its completion
  and advances the index. -/
def Obligations.HostAccessesAndDma : Prop :=
  -- BAR0_ACCESS, a 4-byte read of a plain register (R455, R458)
  (∀ (s : State) (f off a : Nat), (s.dev.barOpen f = true ∧ s.dev.pwr.asleep = 0 ∧ off % 4 = 0) → s.dev.barZero f off = .reg a →
    (regListed a = true ∧ s.dev.reaches (.func f) a = true ∧ s.dev.regDead a = false ∧ s.dev.cutOff (.func f) a = false) →
    (regPair a = false ∧ regPair (a - 4) = false ∧ tocAt a = none ∧ (a < 0x100 ∨ 0x500 ≤ a)) → Runs (.bar0Access f off 4 none) s
    (fun e => e.out = s.dev.out ++ [.hostData f (leBytes 4 (s.dev.regPeek a))] ∧ Keeps s.dev e (fun _ => False) ∧ SameUnits
    s.dev e)) ∧
  -- BAR0_ACCESS, a 4-byte read of the MSI-X table (R456, R470)
  (∀ (s : State) (f off o : Nat), (s.dev.barOpen f = true ∧ s.dev.pwr.asleep = 0 ∧ off % 4 = 0) → s.dev.barZero f off = .table o
    → Runs (.bar0Access f off 4 none) s (fun e => e.out = s.dev.out ++ [.hostData f (leBytes 4 (s.dev.msixWord f o))] ∧ Keeps
    s.dev e (fun _ => False) ∧ SameUnits s.dev e)) ∧
  -- BAR0_ACCESS, a 4-byte write of a vector's data word (R456, R471)
  (∀ (s : State) (f off o : Nat) (l : List Byte), (s.dev.barOpen f = true ∧ s.dev.pwr.asleep = 0 ∧ off % 4 = 0 ∧ l.length = 4) →
    (s.dev.barZero f off = .table o ∧ o % 16 = 8) → Runs (.bar0Access f off 4 (some l)) s (fun e => SMap.get 0 (e.fn f).msixData
    (o / 16) = leNat l ∧ (∀ g, g ≠ f → e.fn g = s.dev.fn g) ∧ Keeps s.dev e (fun _ => False) ∧ SameUnits s.dev e)) ∧
  -- BAR0_ACCESS of a width or alignment that it does not take (R458)
  (∀ (s : State) (f off n : Nat), (s.dev.barOpen f = true ∧ s.dev.pwr.asleep = 0) → ((n ≠ 4 ∧ n ≠ 8) ∨ off % n ≠ 0) → Runs
    (.bar0Access f off n none) s (fun e => e.rg PCI_BARERR = satInc (s.dev.rg PCI_BARERR) 1 % 2 ^ 32 ∧ e.out = s.dev.out ++
    [.hostData f (zeros n)] ∧ Keeps s.dev e (fun a => a = PCI_BARERR ∨ a = PCI_STAT) ∧ SameUnits s.dev e)) ∧
  -- BAR2_ACCESS, a read of clean Commons bytes (R459, R460)
  (∀ (s : State) (f off n r ad : Nat), (s.dev.barOpen f = true ∧ s.dev.pwr.asleep = 0) → s.dev.aperture f off = some ad → (r <
    16 ∧ cmnBase r ≤ ad ∧ ad % 0x40000 + n ≤ 0x40000 ∧ ad + n ≤ cmnBase r + 0x400000 ∧ 1 ≤ n) → s.dev.may (.func f) (.commons 0
    r (ad - cmnBase r)) ad n = true → s.dev.ownsBank r ((ad - cmnBase r) / 0x40000) ownRouter = true → s.dev.flag (CMN_OWN r
    ((ad - cmnBase r) / 0x40000)) 31 = false → s.dev.cleanAt ad n = true → s.dev.flag FLT_STAT 4 = false → Runs (.bar2Access f
    off n none) s (fun e => e.out = s.dev.out ++ [.hostData f (s.dev.rdB ad n)] ∧ RegKeeps s.dev e (fun a => a = CMN_ECCCORR r)
    ∧ SameMem s.dev e ∧ SameUnits s.dev e)) ∧
  -- BAR2_ACCESS, a write of Commons bytes (R459, R460)
  (∀ (s : State) (f off r ad : Nat) (l : List Byte), (s.dev.barOpen f = true ∧ s.dev.pwr.asleep = 0) → s.dev.aperture f off =
    some ad → (r < 16 ∧ cmnBase r ≤ ad ∧ ad % 0x40000 + l.length ≤ 0x40000 ∧ ad + l.length ≤ cmnBase r + 0x400000 ∧ 1 ≤
    l.length) → s.dev.may (.func f) (.commons 0 r (ad - cmnBase r)) ad l.length = true → s.dev.ownsBank r ((ad - cmnBase r) /
    0x40000) ownRouter = true → s.dev.flag (CMN_OWN r ((ad - cmnBase r) / 0x40000)) 31 = false → s.dev.cleanAt ad l.length =
    true → s.dev.flag FLT_STAT 4 = false → Runs (.bar2Access f off 0 (some l)) s (fun e => e.rdB ad l.length = l ∧ MemKeeps
    s.dev e (fun a => ad ≤ a ∧ a < ad + l.length) ∧ RegKeeps s.dev e (fun a => a = CMN_ECCCORR r) ∧ ((ad - cmnBase r) / 0x40000
    ≠ 15 → SameUnits s.dev e) ∧ e.cores = s.dev.cores ∧ e.parts = s.dev.parts ∧ e.tcores = s.dev.tcores ∧ e.scores =
    s.dev.scores)) ∧
  -- BAR2_ACCESS to a Commons bank whose handover has not ended is held (R422)
  (∀ (s : State) (f off n r ad : Nat), (s.dev.barOpen f = true ∧ s.dev.pwr.asleep = 0) → s.dev.aperture f off = some ad → (r <
    16 ∧ cmnBase r ≤ ad ∧ ad % 0x40000 + n ≤ 0x40000 ∧ ad + n ≤ cmnBase r + 0x400000 ∧ 1 ≤ n) → s.dev.may (.func f) (.commons 0
    r (ad - cmnBase r)) ad n = true → s.dev.ownsBank r ((ad - cmnBase r) / 0x40000) ownRouter = true → s.dev.flag (CMN_OWN r
    ((ad - cmnBase r) / 0x40000)) 31 = true → Runs (.bar2Access f off n none) s (fun e => e.heldAcc = s.dev.heldAcc ++ [.barRead
    f off n] ∧ e.out = s.dev.out ∧ Keeps s.dev e (fun _ => False) ∧ SameUnits s.dev e)) ∧
  -- BAR2_ACCESS through an invalid aperture (R459, R460)
  (∀ (s : State) (f off n : Nat) (l : Option (List Byte)), (s.dev.barOpen f = true ∧ s.dev.pwr.asleep = 0) → s.dev.aperture f
    off = none → Runs (.bar2Access f off n l) s (fun e => e.rg PCI_BARERR = satInc (s.dev.rg PCI_BARERR) 1 % 2 ^ 32 ∧ e.flag
    PCI_STAT 2 = true ∧ Keeps s.dev e (fun a => a = PCI_BARERR ∨ a = PCI_STAT) ∧ SameUnits s.dev e)) ∧
  -- BAR_READ_TIMEOUT (R463)
  (∀ (s : State) (f n : Nat), s.dev.barOpen f = true → Runs (.barReadTimeout f n) s (fun e => e.out = s.dev.out ++ [.hostData f
    (zeros n)] ∧ e.rg PCI_RDTMO = satInc (s.dev.rg PCI_RDTMO) 1 % 2 ^ 32 ∧ e.flag PCI_STAT 3 = true ∧ Keeps s.dev e (fun a => a
    = PCI_RDTMO ∨ a = PCI_STAT) ∧ SameUnits s.dev e)) ∧
  -- PCI_DMATAIL_WRITE (R462, R476)
  (∀ (s : State) (f c v : Nat), (c < 32 ∧ dmaMine f c = true) → Runs (.pciDmatailWrite f c v) s (fun e => e.rg (PCI_DMATAIL c) =
    v % 2 ^ 32 ∧ Keeps s.dev e (fun a => a = PCI_DMATAIL c) ∧ SameUnits s.dev e)) ∧
  -- PCI_DMACFG_WRITE that enables a channel (R468, R477)
  (∀ (s : State) (f c v : Nat), (c < 32 ∧ dmaMine f c = true) → (s.dev.flag (PCI_DMACFG c) 31 = false ∧ 12 ≤ v % 32 ∧ v % 32 ≤
    20 ∧ bitAt v 31 = true) → Runs (.pciDmacfgWrite f c v) s (fun e => e.flag (PCI_DMACFG c) 31 = true ∧ e.fld (PCI_DMACFG c) 0
    5 = v % 32 ∧ e.rg (PCI_DMAHEAD c) = 0 ∧ e.rg (PCI_DMATAIL c) = 0 ∧ Keeps s.dev e (fun a => a = PCI_DMACFG c ∨ a =
    PCI_DMAHEAD c ∨ a = PCI_DMATAIL c) ∧ SameUnits s.dev e)) ∧
  -- PCI_DMACFG_WRITE that disables a channel (R468)
  (∀ (s : State) (f c v : Nat), (c < 32 ∧ dmaMine f c = true) → (s.dev.flag (PCI_DMACFG c) 31 = true ∧ bitAt v 31 = false) →
    Runs (.pciDmacfgWrite f c v) s (fun e => e.flag (PCI_DMACFG c) 31 = false ∧ SMap.get [] e.dma c = [] ∧ SameMem s.dev e ∧
    SameUnits s.dev e)) ∧
  -- PCI_AP_WRITE of an aperture (R459, R477)
  (∀ (s : State) (f g k v : Nat), (g < 16 ∧ k < 16 ∧ (f = 0 ∨ f = g)) → (g = 0 → v % 4 = 0) → Runs (.pciApWrite f g k v) s (fun
    e => e.rg (PCI_AP g k) = v &&& 0x8003FFFF ∧ Keeps s.dev e (fun a => a = PCI_AP g k) ∧ SameUnits s.dev e)) ∧
  -- PCI_AP_WRITE of a window (R457, R476)
  (∀ (s : State) (f g w v : Nat), (0 < g ∧ g < 16 ∧ w < 2 ∧ (f = 0 ∨ f = g)) → Runs (.pciApWrite f g (16 + w) v) s (fun e =>
    e.rg (PCI_VFWIN g w) = v &&& 0xC00F0FFF ∧ Keeps s.dev e (fun a => a = PCI_VFWIN g w) ∧ SameUnits s.dev e)) ∧
  -- DMA_DESCRIPTOR_START (R466, R467)
  (∀ (s : State) (c : Nat) (x : List Byte), (c < 32 ∧ s.dev.dmaRuns c = true) → ((SMap.get [] s.dev.dma c).length < 4 ∧ (bitAt
    (byteAt x 20) 1 = true → SMap.get [] s.dev.dma c = [])) → (s.dev.rg (PCI_DMAHEAD c) + (SMap.get [] s.dev.dma c).length) % 2
    ^ 32 ≠ s.dev.rg (PCI_DMATAIL c) → Runs (.dmaDescriptorStart c x) s (fun e => (SMap.get [] e.dma c).map (fun j => (j.desc,
    j.st)) = (SMap.get [] s.dev.dma c).map (fun j => (j.desc, j.st)) ++ [(padTo 32 x, (s.dev.dmaCheck c (padTo 32 x)).code)] ∧
    e.flag (PCI_DMASTAT c) 0 = true ∧ Keeps s.dev e (fun a => a = PCI_DMASTAT c) ∧ SameUnits s.dev e)) ∧
  -- DMA_DESCRIPTOR_START asks the host for its data, in requests of at most the Max Read Request Size (R451, R465)
  (∀ (s : State) (c m : Nat) (x : List Byte), (c < 32 ∧ c % 2 = 0 ∧ s.dev.dmaRuns c = true) → (s.dev.dma = [] ∧ x.length = 32) →
    s.dev.rg (PCI_DMAHEAD c) % 2 ^ 32 ≠ s.dev.rg (PCI_DMATAIL c) → s.dev.dmaCheck c x = .ok → (m = (s.dev.fn (s.dev.requester (c
    / 2))).readSize ∧ 0 < m) → Runs (.dmaDescriptorStart c x) s (fun e => (Output.hostRead (s.dev.requester (c / 2)) (leAt x 0
    8) (min (leAt x 16 4) (m - leAt x 0 8 % m))) ∈ e.out ∧ Keeps s.dev e (fun a => a = PCI_DMASTAT c) ∧ SameUnits s.dev e)) ∧
  -- DMA_DESCRIPTOR_COMPLETE to the host, of clean Commons bytes (R465, R467)
  (∀ (s : State) (c r ad n : Nat) (x : List Byte) (j : DmaJob) (rest : List DmaJob), (c < 32 ∧ c % 2 = 1 ∧ s.dev.dmaRuns c =
    true) → (SMap.get [] s.dev.dma c = j :: rest ∧ j.desc = x ∧ j.st = 0) → (ad = leAt x 8 8 ∧ n = leAt x 16 4 ∧ 1 ≤ n) → (r <
    16 ∧ cmnBase r ≤ ad ∧ ad % 0x40000 + n ≤ 0x40000 ∧ ad + n ≤ cmnBase r + 0x400000) → s.dev.may (.func (c / 2)) (.commons 0 r
    (ad - cmnBase r)) ad n = true → s.dev.ownsBank r ((ad - cmnBase r) / 0x40000) ownRouter = true → (s.dev.flag (CMN_OWN r ((ad
    - cmnBase r) / 0x40000)) 31 = false ∧ s.dev.flag FLT_STAT 4 = false) → s.dev.ecc = [] → Runs (.dmaDescriptorComplete c [] 0)
    s (fun e => (Output.dmaWrite (s.dev.requester (c / 2)) (leAt x 0 8) (s.dev.fn (s.dev.requester (c / 2))).relaxed (s.dev.rdB
    ad n)) ∈ e.out ∧ SMap.get [] e.dma c = rest ∧ e.rg (PCI_DMAHEAD c) = (s.dev.rg (PCI_DMAHEAD c) + 1) % 2 ^ 32 ∧ e.rg64
    (PCI_DMABYTES_LO c) = inc64 (s.dev.rg64 (PCI_DMABYTES_LO c)) n ∧ Keeps s.dev e (fun a => a = PCI_DMAHEAD c ∨ a = PCI_DMASTAT
    c ∨ a = PCI_DMABYTES_LO c ∨ a = PCI_DMABYTES_LO c + 4))) ∧
  -- DMA_DESCRIPTOR_COMPLETE from the host into Commons (R465, R467)
  (∀ (s : State) (c r ad n : Nat) (x : List Byte) (j : DmaJob) (rest : List DmaJob) (l : List Byte), (c < 32 ∧ c % 2 = 0 ∧
    s.dev.dmaRuns c = true) → (SMap.get [] s.dev.dma c = j :: rest ∧ j.desc = x ∧ j.st = 0) → (ad = leAt x 8 8 ∧ n = leAt x 16 4
    ∧ 1 ≤ n ∧ l.length = n) → (r < 16 ∧ cmnBase r ≤ ad ∧ ad % 0x40000 + n ≤ 0x40000 ∧ ad + n ≤ cmnBase r + 0x400000) → s.dev.may
    (.func (c / 2)) (.commons 0 r (ad - cmnBase r)) ad n = true → s.dev.ownsBank r ((ad - cmnBase r) / 0x40000) ownRouter = true
    → (s.dev.flag (CMN_OWN r ((ad - cmnBase r) / 0x40000)) 31 = false ∧ s.dev.flag FLT_STAT 4 = false) → s.dev.cleanAt ad n =
    true → Runs (.dmaDescriptorComplete c [(0, l)] 0) s (fun e => e.rdB ad n = l ∧ MemKeeps s.dev e (fun a => ad ≤ a ∧ a < ad +
    n) ∧ (SMap.get [] e.dma c).map DmaJob.desc = rest.map DmaJob.desc ∧ e.rg (PCI_DMAHEAD c) = (s.dev.rg (PCI_DMAHEAD c) + 1) %
    2 ^ 32)) ∧
  -- DMA_DESCRIPTOR_COMPLETE of a descriptor that its check refused (R466)
  (∀ (s : State) (c : Nat) (j : DmaJob) (rest : List DmaJob), (c < 32 ∧ s.dev.dmaRuns c = true) → (SMap.get [] s.dev.dma c = j
    :: rest ∧ j.st ≠ 0) → Runs (.dmaDescriptorComplete c [] 0) s (fun e => SMap.get [] e.dma c = rest ∧ e.rg (PCI_DMAHEAD c) =
    (s.dev.rg (PCI_DMAHEAD c) + 1) % 2 ^ 32 ∧ SameMem s.dev e ∧ SameUnits s.dev e)) ∧
  -- IMOD_INTERVAL_END of a vector with a pending message (R471)
  (∀ (s : State) (f v : Nat), SMap.get false (s.dev.fn f).modRun v = true → (SMap.get false (s.dev.fn f).msixPend v = true ∧
    SMap.get false (s.dev.fn f).msixUnmasked v = true) → Runs (.imodIntervalEnd f v) s (fun e => SMap.get false (e.fn
    f).msixPend v = false ∧ e.out = s.dev.out ++ [.msix f v (SMap.get 0 (s.dev.fn f).msixAddr v) (SMap.get 0 (s.dev.fn
    f).msixData v)] ∧ Keeps s.dev e (fun _ => False) ∧ SameUnits s.dev e))

/-- START copies the count into SNAP and runs the timer from 0, STOP freezes it; a period at or below the count of a running
  timer ends its lap at once; the period event sets PER and the count to 0 and stops a one-shot timer, a step into a compare
  value sets CMP0 or CMP1; a read of the low half latches the high half, whose read removes a valid head. -/
def Obligations.TimersAndCaptures : Prop :=
  -- TIMER_START (R482)
  (∀ (s : State) (f tm : Nat), (tm < 16 ∧ s.dev.timerMine f tm = true) → Runs (.timerStart f tm) s (fun e => e.rg (TAB_TnSNAP
    tm) = s.dev.rg (TAB_TnCOUNT tm) % 2 ^ 32 ∧ e.rg (TAB_TnCOUNT tm) = 0 ∧ e.flag (TAB_TnSTAT tm) 0 = true ∧ Keeps s.dev e (fun
    a => TickReg a ∨ a = TAB_TnSNAP tm ∨ a = TAB_TnSTAT tm) ∧ SameUnits s.dev e)) ∧
  -- TIMER_STOP (R482)
  (∀ (s : State) (f tm : Nat), (tm < 16 ∧ s.dev.timerMine f tm = true) → Runs (.timerStop f tm) s (fun e => e.flag (TAB_TnSTAT
    tm) 0 = false ∧ e.rg (TAB_TnCOUNT tm) = s.dev.rg (TAB_TnCOUNT tm) ∧ Keeps s.dev e (fun a => TickReg a ∨ a = TAB_TnSTAT tm) ∧
    SameUnits s.dev e)) ∧
  -- TIMER_PERIOD_WRITE of less than 2 ticks (R483)
  (∀ (s : State) (f tm v : Nat), (tm < 16 ∧ s.dev.timerMine f tm = true ∧ v < 2) → Runs (.timerPeriodWrite f tm v) s (fun e =>
    e.flag (TAB_TnSTAT tm) 7 = true ∧ Keeps s.dev e (fun a => a = TAB_TnSTAT tm) ∧ SameUnits s.dev e)) ∧
  -- TIMER_PERIOD_WRITE above the count, or while the timer is stopped (R483)
  (∀ (s : State) (f tm v : Nat), (tm < 16 ∧ s.dev.timerMine f tm = true ∧ 2 ≤ v ∧ v < 2 ^ 32) → (s.dev.flag (TAB_TnSTAT tm) 0 =
    false ∨ s.dev.rg (TAB_TnCOUNT tm) < v) → Runs (.timerPeriodWrite f tm v) s (fun e => e.rg (TAB_TnPERIOD tm) = v ∧ Keeps
    s.dev e (fun a => a = TAB_TnPERIOD tm) ∧ SameUnits s.dev e)) ∧
  -- TIMER_PERIOD_WRITE at or below the count of a running timer (R483)
  (∀ (s : State) (f tm v : Nat), (tm < 16 ∧ s.dev.timerMine f tm = true ∧ 2 ≤ v ∧ v < 2 ^ 32) → (s.dev.flag (TAB_TnSTAT tm) 0 =
    true ∧ v ≤ s.dev.rg (TAB_TnCOUNT tm)) → Runs (.timerPeriodWrite f tm v) s (fun e => e.rg (TAB_TnPERIOD tm) = v ∧ e.rg
    (TAB_TnCOUNT tm) = 0 ∧ e.flag (TAB_TnSTAT tm) 1 = true ∧ e.flag (TAB_TnSTAT tm) 4 = true ∧ e.flag (TAB_TnSTAT tm) 0 = !
    s.dev.flag (TAB_TnCTL tm) 0 ∧ Keeps s.dev e (fun a => NoteReg a ∨ TickReg a ∨ a = TAB_TnPERIOD tm ∨ a = TAB_TnSTAT tm) ∧
    SameUnits s.dev e)) ∧
  -- TIMER_COMPARE_WRITE (R484)
  (∀ (s : State) (f tm k v : Nat), (tm < 16 ∧ s.dev.timerMine f tm = true ∧ k < 2) → Runs (.timerCompareWrite f tm k v) s (fun e
    => e.rg (if k = 0 then TAB_TnCMP0 tm else TAB_TnCMP1 tm) = v % 2 ^ 32 ∧ Keeps s.dev e (fun a => a = (if k = 0 then
    TAB_TnCMP0 tm else TAB_TnCMP1 tm)) ∧ SameUnits s.dev e)) ∧
  -- TIMER_PERIOD_EVENT of a running timer, which is its next event (R481)
  (∀ (s : State) (tm : Nat), (tm < 16 ∧ s.dev.flag (TAB_TnSTAT tm) 0 = true) → s.dev.timerNext tm = s.dev.rg (TAB_TnPERIOD tm) →
    Runs (.timerPeriodEvent tm) s (fun e => e.rg (TAB_TnCOUNT tm) = 0 ∧ e.flag (TAB_TnSTAT tm) 1 = true ∧ e.flag (TAB_TnSTAT tm)
    0 = ! s.dev.flag (TAB_TnCTL tm) 0 ∧ Keeps s.dev e (fun a => NoteReg a ∨ TickReg a ∨ a = TAB_TnSTAT tm) ∧ SameUnits s.dev e)) ∧
  -- COMPARE_MATCH of a running timer, which is its next event (R484)
  (∀ (s : State) (tm k v : Nat), (tm < 16 ∧ k < 2 ∧ s.dev.flag (TAB_TnSTAT tm) 0 = true) → (v = s.dev.rg (if k = 0 then
    TAB_TnCMP0 tm else TAB_TnCMP1 tm) ∧ v < 2 ^ 32) → (s.dev.rg (TAB_TnCOUNT tm) < v ∧ v < s.dev.rg (TAB_TnPERIOD tm) ∧
    s.dev.timerNext tm = v) → Runs (.compareMatch tm k) s (fun e => e.rg (TAB_TnCOUNT tm) = v ∧ e.flag (TAB_TnSTAT tm) (2 + k) =
    true ∧ e.flag (TAB_TnSTAT tm) 0 = true ∧ Keeps s.dev e (fun a => NoteReg a ∨ TickReg a ∨ a = TAB_TnSTAT tm) ∧ SameUnits
    s.dev e)) ∧
  -- TAB_TNCAP_LO_READ (R488)
  (∀ (s : State) (f tm : Nat), (tm < 16 ∧ s.dev.timerMine f tm = true) → Runs (.tabTncapLoRead f tm) s (fun e => e.out =
    s.dev.out ++ [.hostData f (leBytes 4 ((s.dev.timer tm).caps.headD 0 % 2 ^ 32))] ∧ e.latched f (TAB_TnCAP_HI tm) =
    (s.dev.timer tm).caps.headD 0 / 2 ^ 32 ∧ e.timers = s.dev.timers ∧ Keeps s.dev e (fun _ => False) ∧ SameUnits s.dev e)) ∧
  -- TAB_TNCAP_HI_READ with VALID in the latch (R488)
  (∀ (s : State) (f tm : Nat), (tm < 16 ∧ s.dev.timerMine f tm = true) → bitAt (s.dev.latched f (TAB_TnCAP_HI tm)) 31 = true →
    Runs (.tabTncapHiRead f tm) s (fun e => e.out = s.dev.out ++ [.hostData f (leBytes 4 (s.dev.latched f (TAB_TnCAP_HI tm)))] ∧
    (e.timer tm).caps = (s.dev.timer tm).caps.drop 1 ∧ Keeps s.dev e (fun a => a = TAB_TnSTAT tm) ∧ SameUnits s.dev e)) ∧
  -- TRIGGER_OUTPUT_PULSE_END (R485)
  (∀ (s : State) (tm : Nat), (tm < 16 ∧ s.dev.fld (TAB_TnCTL tm) 18 2 = 1 ∧ (s.dev.timer tm).out = true) → Runs
    (.triggerOutputPulseEnd tm) s (fun e => (e.timer tm).out = false ∧ Keeps s.dev e (fun a => TickReg a) ∧ SameUnits s.dev e)) ∧
  -- PPS_OUT_PULSE_END (R644)
  (∀ (s : State), s.dev.pins.ppsOut = true → Runs (.ppsOutPulseEnd) s (fun e => e.pins.ppsOut = false ∧ e.out = s.dev.out ++
    [.pin 1 0] ∧ Keeps s.dev e (fun a => TickReg a) ∧ SameUnits s.dev e))

/-- A claim returns the ready source of the highest priority with its COUNT, clears its PEND and COUNT and pushes its priority;
  with none it reads as zero. TOC_EOI pops the stack, or sets CFGERR when it is empty. A 1 written to TOC_PEND clears that
  source, but for source 0 while records remain. A read of the last word of a queue's window removes the head record. -/
def Obligations.TocsinRegisters : Prop :=
  -- TOC_CLAIM_READ with a ready source (R492, R494, R495)
  (∀ (s : State) (f k x n : Nat), (k ≤ 288 ∧ s.dev.reaches (.func f) (TOC_CLAIM k) = true ∧ s.dev.regDead (TOC_CLAIM k) = false
    ∧ s.dev.cutOff (.func f) (TOC_CLAIM k) = false) → s.dev.tocBest k = some x → (n = s.dev.fld (TOC_STACK k) 24 4 ∧ n < 7) →
    Runs (.tocClaimRead f k) s (fun e => x < 32 ∧ x ∈ s.dev.tocReady k ∧ (∀ y, y ∈ s.dev.tocReady k → s.dev.fld (TOC_SRC k y) 4
    3 ≤ s.dev.fld (TOC_SRC k x) 4 3) ∧ e.out.getLast? = some (.hostData f (leBytes 4 (2 ^ 31 + s.dev.fld (TOC_SRC k x) 16 8 * 2
    ^ 16 + s.dev.fld (TOC_SRC k x) 4 3 * 2 ^ 8 + x))) ∧ e.fld (TOC_STACK k) (3 * n) 3 = s.dev.fld (TOC_SRC k x) 4 3 ∧ e.fld
    (TOC_STACK k) 24 4 = n + 1 ∧ (x ≠ 0 → e.flag (TOC_PEND k) x = false ∧ e.fld (TOC_SRC k x) 16 8 = 0) ∧ (∀ y, y < 32 → y ≠ x →
    e.flag (TOC_PEND k) y = s.dev.flag (TOC_PEND k) y) ∧ Keeps s.dev e (fun a => (tocBase k ≤ a ∧ a < tocBase k + 0x1000) ∨
    (slotBase (tocRegion k) 0x11 ≤ a ∧ a < slotBase (tocRegion k) 0x12)))) ∧
  -- TOC_CLAIM_READ with no ready source (R495)
  (∀ (s : State) (f k : Nat), (k ≤ 288 ∧ s.dev.reaches (.func f) (TOC_CLAIM k) = true ∧ s.dev.regDead (TOC_CLAIM k) = false ∧
    s.dev.cutOff (.func f) (TOC_CLAIM k) = false) → s.dev.tocReady k = [] → Runs (.tocClaimRead f k) s (fun e => e.out =
    s.dev.out ++ [.hostData f (leBytes 4 0)] ∧ Keeps s.dev e (fun _ => False) ∧ SameUnits s.dev e)) ∧
  -- TOC_EOI_WRITE with a level on the stack (R496)
  (∀ (s : State) (f k n : Nat), (k ≤ 288 ∧ WriteOk s.dev (.func f) (TOC_EOI k)) → (n + 1 = s.dev.fld (TOC_STACK k) 24 4 ∧ n < 7)
    → Runs (.tocEoiWrite f k) s (fun e => e.fld (TOC_STACK k) 24 4 = n ∧ e.fld (TOC_STACK k) (3 * n) 3 = 0 ∧ (∀ j, j < n → e.fld
    (TOC_STACK k) (3 * j) 3 = s.dev.fld (TOC_STACK k) (3 * j) 3) ∧ Keeps s.dev e (fun a => a = TOC_STACK k ∨ a = TOC_STAT k ∨
    (slotBase (tocRegion k) 0x11 ≤ a ∧ a < slotBase (tocRegion k) 0x12)))) ∧
  -- TOC_EOI_WRITE with an empty stack (R496)
  (∀ (s : State) (f k : Nat), (k ≤ 288 ∧ WriteOk s.dev (.func f) (TOC_EOI k)) → s.dev.fld (TOC_STACK k) 24 4 = 0 → Runs
    (.tocEoiWrite f k) s (fun e => e.flag (TOC_STAT k) 3 = true ∧ Keeps s.dev e (fun a => a = TOC_STAT k) ∧ SameUnits s.dev e)) ∧
  -- TOC_PEND_WRITE (R492)
  (∀ (s : State) (f k v : Nat), (k ≤ 288 ∧ WriteOk s.dev (.func f) (TOC_PEND k)) → Runs (.tocPendWrite f k v) s (fun e => (∀ y,
    y < 32 → y ≠ 0 → bitAt v y = true → e.flag (TOC_PEND k) y = false) ∧ (∀ y, y < 32 → bitAt v y = true → s.dev.flag (TOC_PEND
    k) y = true → (y ≠ 0 ∨ s.dev.tocQueue k = []) → e.flag (TOC_PEND k) y = false ∧ e.fld (TOC_SRC k y) 16 8 = 0) ∧ (∀ y, y < 32
    → bitAt v y = false ∨ (y = 0 ∧ s.dev.tocQueue k ≠ []) → e.flag (TOC_PEND k) y = s.dev.flag (TOC_PEND k) y ∧ e.rg (TOC_SRC k
    y) = s.dev.rg (TOC_SRC k y)) ∧ Keeps s.dev e (fun a => (tocBase k ≤ a ∧ a < tocBase k + 0x1000) ∨ (slotBase (tocRegion k)
    0x11 ≤ a ∧ a < slotBase (tocRegion k) 0x12)))) ∧
  -- TOC_RQ_READ of the last word of a queue's window (R501)
  (∀ (s : State) (f k ad : Nat) (x : TocRec) (rest : List TocRec), (k < 305 ∧ ad = (if k < 289 then tocBase k + 0x81C else
    tocBase 288 + 0x1020 + 0x40 * (k - 289) + 0x1C)) → (s.dev.reaches (.func f) ad = true ∧ s.dev.regDead ad = false ∧
    s.dev.cutOff (.func f) ad = false) → (s.dev.tocQueue k = x :: rest ∧ rest.length < 256) → Runs (.tocRqRead f k) s (fun e =>
    e.tocQueue k = rest ∧ e.out.getLast? = some (.hostData f (leBytes 4 (leAt x.bytes 28 4))) ∧ (k < 289 → e.fld (TOC_RQSTAT k)
    0 9 = rest.length) ∧ (289 ≤ k → rest.length < 64 → e.fld (TOC_PRQCOUNT 288 (k - 289)) 0 7 = rest.length) ∧ (∀ j, j ≠ k →
    e.tocQueue j = s.dev.tocQueue j) ∧ Keeps s.dev e (fun a => (tocBase (min k 288) ≤ a ∧ a < tocBase (min k 288) + 0x2000) ∨
    (slotBase (tocRegion k) 0x11 ≤ a ∧ a < slotBase (tocRegion k) 0x12))))

/-- The doorbell is a write of CAR_CRTAIL, held in Vigil; a pad moves the head alone; a framing error is answered and stalls the
  ring; a command that FENCE holds back waits; a framed command moves the head, is counted, and is then executed as its own
  opcode says, a reserved one answered BAD_OPCODE. The oldest waiting response is written, with its pad, when the ring has room.
  ENABLE set or cleared follows R550. -/
def Obligations.BellpullRings : Prop :=
  -- CAR_CRTAIL_WRITE (R511)
  (∀ (s : State) (f v : Nat), (s.dev.barOpen f = true ∧ s.dev.pwr.asleep = 0 ∧ f < 16) → Runs (.carCrtailWrite f v) s (fun e =>
    e.rg (CAR_CRTAIL f) = v % 2 ^ 32 ∧ Keeps s.dev e (fun a => a = CAR_CRTAIL f) ∧ SameUnits s.dev e)) ∧
  -- CAR_CRTAIL_WRITE in Vigil (R511, R584)
  (∀ (s : State) (f v : Nat), (s.dev.barOpen f = true ∧ s.dev.pwr.asleep = 1 ∧ f < 16) → Runs (.carCrtailWrite f v) s (fun e =>
    SMap.get none e.pwr.tails f = some (v % 2 ^ 32) ∧ Keeps s.dev e (fun _ => False) ∧ SameUnits s.dev e)) ∧
  -- COMMAND_TAKE of a pad (R509, R510)
  (∀ (s : State) (f : Nat) (m : List Byte), (f < 16 ∧ s.dev.mayTake f = true ∧ s.dev.frameBad f (leAt m 2 2) = none) → leAt m 0
    2 = 0 → Runs (.commandTake f m) s (fun e => e.rg (CAR_CRHEAD f) = (s.dev.rg (CAR_CRHEAD f) + leAt m 2 2) % 2 ^ 32 ∧ Keeps
    s.dev e (fun a => a = CAR_CRHEAD f) ∧ SameUnits s.dev e)) ∧
  -- COMMAND_TAKE of a header that is a framing error (R512)
  (∀ (s : State) (f : Nat) (m : List Byte) (st : Status), (f < 16 ∧ s.dev.mayTake f = true ∧ s.dev.frameBad f (leAt m 2 2) =
    some st) → s.dev.flag (CAR_RRCFG f) 31 = true → Runs (.commandTake f m) s (fun e => (e.fn f).resps.map (fun x => (x.status,
    x.hdr.tag, x.hdr.seq)) = [(st, leAt m 4 2, leAt m 8 4)] ∧ e.flag (CAR_BSTAT f) 1 = true ∧ e.flag (CAR_BSTAT f) 4 = true ∧
    e.rg (CAR_CRHEAD f) = s.dev.rg (CAR_CRHEAD f) ∧ Keeps s.dev e (fun a => NoteReg a) ∧ SameUnits s.dev e)) ∧
  -- COMMAND_TAKE of a command that FENCE holds back (R514)
  (∀ (s : State) (f : Nat) (m : List Byte), (f < 16 ∧ s.dev.mayTake f = true ∧ s.dev.frameBad f (leAt m 2 2) = none) → (leAt m 0
    2 ≠ 0 ∧ bitAt (byteAt m 7) 0 = true ∧ (s.dev.fn f).outst ≠ []) → Runs (.commandTake f m) s (fun e => Keeps s.dev e (fun _ =>
    False) ∧ SameUnits s.dev e)) ∧
  -- COMMAND_TAKE of a reserved opcode (R513)
  (∀ (s : State) (f : Nat) (m : List Byte), (f < 16 ∧ s.dev.mayTake f = true ∧ s.dev.frameBad f (leAt m 2 2) = none) → (leAt m 0
    2 ≠ 0 ∧ leAt m 0 2 ≠ 0x0E02 ∧ (∀ c, c ∈ cmdTable → c.1.opcode ≠ leAt m 0 2)) → bitAt (byteAt m 7) 0 = false → (s.dev.flag
    (CAR_RRCFG f) 31 = true ∧ 12 ≤ s.dev.fld (CAR_RRCFG f) 0 5) → Runs (.commandTake f m) s (fun e => (e.fn f).resps.map (fun x
    => (x.status, x.opcode, x.hdr.tag, x.hdr.seq)) = [(.badOpcode, leAt m 0 2, leAt m 4 2, leAt m 8 4)] ∧ e.rg (CAR_CRHEAD f) =
    (s.dev.rg (CAR_CRHEAD f) + leAt m 2 2) % 2 ^ 32 ∧ e.rg (CAR_BCMDS f) = satInc (s.dev.rg (CAR_BCMDS f)) 1 % 2 ^ 32 ∧ Keeps
    s.dev e (fun a => NoteReg a ∨ a = CAR_CRHEAD f ∨ a = CAR_BCMDS f) ∧ SameUnits s.dev e)) ∧
  -- COMMAND_TAKE of a command of the tables (all but ATTEST): it is executed as its own opcode says (R513)
  (∀ (s : State) (f : Nat) (m : List Byte) (i : Fin cmdTable.length) (dt : Dev), (s.dev.mayTake f = true ∧ s.dev.frameBad f
    (leAt m 2 2) = none) → (cmdTable.get i).1.opcode = leAt m 0 2 → bitAt (byteAt m 7) 0 = false → dt = ((s.dev.setR (CAR_CRHEAD
    f) (s.dev.rg (CAR_CRHEAD f) + leAt m 2 2)).bump (CAR_BCMDS f) 1).seqSeen f (leAt m 8 4) → Runs (.commandTake f m) s (fun e
    => e = (dt.serve (cmdTable.get i).1 (cmdTable.get i).2 (hdrOf f 0 m) (payOf m)).activated.sleepNow.finish)) ∧
  -- RESPONSE_WRITE of a response that fits (R510, R517, R519)
  (∀ (s : State) (f : Nat) (x : Resp) (rest : List Resp), (f < 16 ∧ (s.dev.fn f).resps = x :: rest) → (s.dev.pwr.asleep = 0 ∧ (f
    = 0 → s.dev.d3hot = false) ∧ s.dev.flag (CAR_RRCFG f) 31 = true) → s.dev.rrFits f = true → (s.dev.fld PWR_STATE 0 3 ≠ 3 ∧
    s.dev.fld PWR_STATE 0 3 ≠ 4) → Runs (.responseWrite f) s (fun e => (Output.hostWrite f (s.dev.rg64 (CAR_RRBASE_LO f) + 64 *
    ((s.dev.rg (CAR_RRHEAD f) + s.dev.rrPad f x.units) % 2 ^ 32 % s.dev.rrUnits f)) (respBytes x.opcode x.hdr x.status x.detail
    x.pl)) ∈ e.out ∧ e.rg (CAR_RRHEAD f) = (s.dev.rg (CAR_RRHEAD f) + s.dev.rrPad f x.units + x.units) % 2 ^ 32 ∧ (e.fn f).resps
    = rest ∧ Keeps s.dev e (fun a => a = CAR_RRHEAD f ∨ a = CAR_BSTAT f) ∧ SameUnits s.dev e)) ∧
  -- RESPONSE_WRITE of a response that lacks room (R519)
  (∀ (s : State) (f : Nat), (f < 16 ∧ s.dev.pwr.asleep = 0 ∧ (f = 0 → s.dev.d3hot = false) ∧ s.dev.flag (CAR_RRCFG f) 31 = true)
    → s.dev.rrFits f = false → Runs (.responseWrite f) s (fun e => e.flag (CAR_BSTAT f) 3 = true ∧ (e.fn f).resps = (s.dev.fn
    f).resps ∧ e.out = s.dev.out ∧ Keeps s.dev e (fun a => a = CAR_BSTAT f) ∧ SameUnits s.dev e)) ∧
  -- CAR_RRTAIL_WRITE (R519)
  (∀ (s : State) (f v : Nat), (s.dev.barOpen f = true ∧ s.dev.pwr.asleep = 0 ∧ f < 16) → Runs (.carRrtailWrite f v) s (fun e =>
    e.rg (CAR_RRTAIL f) = v % 2 ^ 32 ∧ e.flag (CAR_BSTAT f) 3 = ! e.rrFits f ∧ Keeps s.dev e (fun a => a = CAR_RRTAIL f ∨ a =
    CAR_BSTAT f) ∧ SameUnits s.dev e)) ∧
  -- CAR_RING_CFG_WRITE that enables the command ring (R550)
  (∀ (s : State) (f v : Nat), (s.dev.barOpen f = true ∧ s.dev.pwr.asleep = 0 ∧ f < 16) → (s.dev.flag (CAR_CRCFG f) 31 = false ∧
    12 ≤ v % 32 ∧ v % 32 ≤ 20 ∧ bitAt v 31 = true) → Runs (.carRingCfgWrite f 0 v) s (fun e => e.flag (CAR_CRCFG f) 31 = true ∧
    e.fld (CAR_CRCFG f) 0 5 = v % 32 ∧ e.rg (CAR_CRHEAD f) = 0 ∧ e.rg (CAR_CRTAIL f) = 0 ∧ e.flag (CAR_BSTAT f) 4 = false ∧
    Keeps s.dev e (fun a => a = CAR_CRCFG f ∨ a = CAR_CRHEAD f ∨ a = CAR_CRTAIL f ∨ a = CAR_BSTAT f) ∧ SameUnits s.dev e)) ∧
  -- CAR_RING_CFG_WRITE that enables the response ring (R550)
  (∀ (s : State) (f v : Nat), (s.dev.barOpen f = true ∧ s.dev.pwr.asleep = 0 ∧ f < 16) → (s.dev.flag (CAR_RRCFG f) 31 = false ∧
    12 ≤ v % 32 ∧ v % 32 ≤ 20 ∧ bitAt v 31 = true) → Runs (.carRingCfgWrite f 1 v) s (fun e => e.flag (CAR_RRCFG f) 31 = true ∧
    e.fld (CAR_RRCFG f) 0 5 = v % 32 ∧ e.rg (CAR_RRHEAD f) = 0 ∧ e.rg (CAR_RRTAIL f) = 0 ∧ e.flag (CAR_BSTAT f) 4 = false ∧
    Keeps s.dev e (fun a => a = CAR_RRCFG f ∨ a = CAR_RRHEAD f ∨ a = CAR_RRTAIL f ∨ a = CAR_BSTAT f) ∧ SameUnits s.dev e)) ∧
  -- CAR_RING_CFG_WRITE that disables a ring, whose waiting responses are discarded (R520, R550)
  (∀ (s : State) (f k v : Nat), (s.dev.barOpen f = true ∧ s.dev.pwr.asleep = 0 ∧ f < 16 ∧ k < 2) → (s.dev.flag (if k = 0 then
    CAR_CRCFG f else CAR_RRCFG f) 31 = true ∧ bitAt v 31 = false) → Runs (.carRingCfgWrite f k v) s (fun e => e.flag (if k = 0
    then CAR_CRCFG f else CAR_RRCFG f) 31 = false ∧ e.fld (if k = 0 then CAR_CRCFG f else CAR_RRCFG f) 0 5 = s.dev.fld (if k = 0
    then CAR_CRCFG f else CAR_RRCFG f) 0 5 ∧ (k = 1 → (e.fn f).resps = []) ∧ Keeps s.dev e (fun a => a = (if k = 0 then
    CAR_CRCFG f else CAR_RRCFG f) ∨ (k = 1 ∧ a = CAR_BSTAT f)) ∧ SameUnits s.dev e))

/-- A SUMMARY record gives a source's suppressed count and zeroes it; a journal page takes up to 63 records. A sample writes the
  sensor registers, the power sum and the hottest reading. A watchdog expiry or a failed digest Mutes the partitions, is
  counted, and restarts Carillon, which ends the waiting commands and drops READY; the restart ends with the slot it loaded and
  READY 1; a trial that times out ends. -/
def Obligations.LogSensorsAndRestarts : Prop :=
  -- SUMMARY with nothing suppressed (R526)
  (∀ (s : State), s.dev.car.supp = [] → Runs (.summary) s (fun e => e.car = s.dev.car ∧ Keeps s.dev e (fun _ => False) ∧
    SameUnits s.dev e)) ∧
  -- SUMMARY of one source with suppressed records (R526)
  (∀ (s : State) (x n : Nat), (s.dev.car.supp = [(x, n)] ∧ 0 < n) → (s.dev.car.rateInt = s.dev.time / 400000 → SMap.get 0
    s.dev.car.rate x < 16) → Runs (.summary) s (fun e => SMap.get 0 e.car.supp x = 0 ∧ (e.car.log.getLast?.map (fun y =>
    (y.source, y.kind, y.count, y.data.take 2))) = some (x, 2, n, leBytes 2 (SMap.get 0 s.dev.car.suppKind x)) ∧ Keeps s.dev e
    (fun a => NoteReg a) ∧ SameUnits s.dev e)) ∧
  -- JOURNAL_PAGE_PROGRAM (R529, R530)
  (∀ (s : State), s.dev.car.jbuf ≠ [] → Runs (.journalPageProgram) s (fun e => e.car.jbuf = s.dev.car.jbuf.drop 63 ∧ (∃ j,
    e.car.journal = j ++ s.dev.car.jbuf.take 63 ++ List.replicate (63 - s.dev.car.jbuf.length) (default : LogRec)) ∧ e.rg
    CAR_JWRITTEN = satInc (s.dev.rg CAR_JWRITTEN) (min 63 s.dev.car.jbuf.length) % 2 ^ 32 ∧ Keeps s.dev e (fun a => a =
    CAR_JWRITTEN) ∧ SameUnits s.dev e)) ∧
  -- SENSOR_SAMPLE (R531)
  (∀ (s : State) (l r : List (Nat × Nat)) (i v : Nat) (out : List Nat), (s.dev.pwr.asleep = 0 ∧ s.dev.flag CAR_STAT 0 = true) →
    (isSensor i = true ∧ (∀ x, x ∈ r → x.1 ≠ i)) → Runs (.sensorSample (l ++ (i, v) :: r) out) s (fun e => e.rg (CAR_SENS i) = v
    % 65536 ∧ e.fld CAR_TMAX 0 16 = e.sens (e.fld CAR_TMAX 16 6) ∧ e.fld CAR_TMAX 16 6 < 37 ∧ (∀ j, j < 37 → sInt 16 (e.sens j)
    ≤ sInt 16 (e.fld CAR_TMAX 0 16)) ∧ e.rg CAR_POWER = ((upTo 8).map (fun k => e.sens (96 + k) * e.railMv k)).sum / 1000 % 2 ^
    32 ∧ Keeps s.dev e (fun a => NoteReg a) ∧ SameUnits s.dev e)) ∧
  -- WATCHDOG_EXPIRY with the action Mute (R541, R542, R544)
  (∀ (s : State), (s.dev.flag CAR_STAT 0 = true ∧ s.dev.pwr.asleep = 0) → s.dev.fld (FLT_ACT 7) 0 2 = 1 → Runs (.watchdogExpiry)
    s (fun e => (∀ p, p ∈ s.dev.allParts → e.muted p = true ∧ e.flag (FLT_PMUTE p) 3 = true) ∧ e.flag CAR_STAT 0 = false ∧
    e.flag CAR_STAT 1 = true ∧ e.car.restart = true ∧ e.car.waiting = [] ∧ e.rg CAR_WDCNT = satInc (s.dev.rg CAR_WDCNT) 1 % 2 ^
    32 ∧ e.car.trial = none ∧ e.car.active = s.dev.car.active ∧ SameMem s.dev e)) ∧
  -- IMAGE_DIGEST_CHECK that matches (R544)
  (∀ (s : State), Runs (.imageDigestCheck true) s (fun e => Keeps s.dev e (fun _ => False) ∧ SameUnits s.dev e)) ∧
  -- IMAGE_DIGEST_CHECK that does not match, with the action Mute (R544)
  (∀ (s : State), (s.dev.flag CAR_STAT 0 = true ∧ s.dev.pwr.asleep = 0) → s.dev.fld (FLT_ACT 10) 0 2 = 1 → Runs
    (.imageDigestCheck false) s (fun e => (∀ p, p ∈ s.dev.allParts → e.muted p = true ∧ e.flag (FLT_PMUTE p) 5 = true) ∧ e.flag
    CAR_STAT 0 = false ∧ e.flag CAR_STAT 1 = true ∧ e.car.restart = true ∧ e.car.waiting = [] ∧ e.rg CAR_WDCNT = satInc
    (s.dev.rg CAR_WDCNT) 1 % 2 ^ 32 ∧ SameMem s.dev e)) ∧
  -- CARILLON_RESTART, of which no fence was cut (R539, R542, R543)
  (∀ (s : State) (w : Nat), (s.dev.car.restart = true ∧ s.dev.pwr.asleep = 0 ∧ s.dev.fence = none) → (w = s.dev.car.trial.getD
    s.dev.car.active ∧ w < 2) → Runs (.carillonRestart) s (fun e => e.flag CAR_STAT 0 = true ∧ e.car.restart = false ∧
    (s.dev.imageValid w = true → e.flag CAR_STAT 3 = (w == 1) ∧ e.flag CAR_STAT 7 = false ∧ e.rg CAR_FWVER = imgFwver
    (s.dev.image w) % 2 ^ 32 ∧ e.rg CAR_SVN = imgSvn (s.dev.image w) % 2 ^ 32) ∧ (s.dev.imageValid w = false → s.dev.imageValid
    (1 - w) = true → e.flag CAR_STAT 3 = (w == 0) ∧ e.flag CAR_STAT 7 = false) ∧ (s.dev.imageValid w = false → s.dev.imageValid
    (1 - w) = false → e.flag CAR_STAT 7 = true) ∧ Keeps s.dev e (fun a => NoteReg a) ∧ SameUnits s.dev e)) ∧
  -- TRIAL_TIMEOUT (R541)
  (∀ (s : State), (s.dev.car.trial.isSome = true ∧ s.dev.pwr.asleep = 0) → Runs (.trialTimeout) s (fun e => e.car.trial = none ∧
    e.car.active = s.dev.car.active ∧ e.flag CAR_STAT 4 = false ∧ e.flag CAR_STAT 0 = false ∧ e.car.restart = true ∧
    e.car.waiting = [] ∧ e.rg CAR_ROLLBACK = s.dev.rg CAR_ROLLBACK ∧ SameMem s.dev e))

/-- ID_READ, SENSOR_READ, LOG_READ, FF_READ, LOG_STATUS and UPDATE_STATUS answer what R551 lists; ATTEST a report of the state
  over the nonce with its signature; FF_CLEAR removes an entry or all. UPDATE_BEGIN empties the idle slot, UPDATE_DATA writes
  its bytes, UPDATE_VERIFY answers as the signature and the counter decide, UPDATE_ACTIVATE makes the slot a trial and restarts
  Carillon, UPDATE_COMMIT makes it active and raises the counter, which never falls. -/
def Obligations.CarillonCommands : Prop :=
  -- ID_READ (R551)
  (∀ (s : State) (h : Hdr) (pl : List Byte), Accepted s.dev cIdRead h pl → Fits s.dev h (2608 + s.dev.partBytes.length) → Runs
    (.idRead h pl) s (fun e => Answered s.dev e 0x0E01 h .ok (leBytes 8 s.dev.serial ++ leBytes 1 (natOf (s.dev.flag CAR_STAT
    5)) ++ zeros 3 ++ leBytes 4 (s.dev.partLen + 4627) ++ s.dev.publicKey ++ s.dev.partBytes) ∧ Keeps s.dev e (fun a => BookReg
    a) ∧ SameUnits s.dev e)) ∧
  -- ATTEST (R535, R537)
  (∀ (s : State) (h : Hdr) (pl : List Byte) (rep : List Byte), Accepted s.dev (cAttest pl) h pl → (byteAt pl 0 = 0 ∨ (byteAt pl
    0 = 1 ∧ h.func = 0)) → s.dev.flag CAR_STAT 5 = false → Fits s.dev h 5011 → rep = s.dev.report (if byteAt pl 0 = 0 then some
    h.part else none) (slice pl 8 64) → Runs (.attest h pl) s (fun e => rep.length = 384 ∧ Answered s.dev e 0x0E02 h .ok (rep ++
    padTo 4627 (Config.mldsaSign s.dev.seed rep ((upTo 32).map (Config.freeByte s.dev.nonce)))) ∧ Keeps s.dev e (fun a =>
    BookReg a) ∧ SameUnits s.dev e)) ∧
  -- ATTEST once the device key is not the record's (R535)
  (∀ (s : State) (h : Hdr) (pl : List Byte), Accepted s.dev (cAttest pl) h pl → (byteAt pl 0 = 0 ∨ (byteAt pl 0 = 1 ∧ h.func =
    0)) → s.dev.flag CAR_STAT 5 = true → Runs (.attest h pl) s (fun e => Answered s.dev e 0x0E02 h .signatureFail [] ∧ Keeps
    s.dev e (fun a => BookReg a) ∧ SameUnits s.dev e)) ∧
  -- SENSOR_READ (R532, R551)
  (∀ (s : State) (h : Hdr) (pl : List Byte), Accepted s.dev cSensorRead h pl → (1 ≤ byteAt pl 1 ∧ byteAt pl 0 + byteAt pl 1 ≤
    104) → Fits s.dev h (4 * byteAt pl 1) → Runs (.sensorRead h pl) s (fun e => Answered s.dev e 0x0E03 h .ok ((upTo (byteAt pl
    1)).map (fun i => leBytes 4 (s.dev.sensSeen h.func (byteAt pl 0 + i)))).flatten ∧ Keeps s.dev e (fun a => BookReg a) ∧
    SameUnits s.dev e)) ∧
  -- LOG_READ (R551)
  (∀ (s : State) (h : Hdr) (pl : List Byte) (xs : List LogRec), Accepted s.dev cLogRead h pl → byteAt pl 0 < 2 → xs = ((if
    byteAt pl 0 = 0 then s.dev.car.log else s.dev.car.journal.filter (fun x => x.kind != 0)).filter (fun x => leAt pl 4 4 <
    x.boot || (x.boot == leAt pl 4 4 && leAt pl 8 4 ≤ x.seq))).take (leAt pl 12 4) → Fits s.dev h (8 + 64 * xs.length) → Runs
    (.logRead h pl) s (fun e => Answered s.dev e 0x0E04 h .ok (leBytes 4 xs.length ++ zeros 4 ++ (xs.map LogRec.bytes).flatten)
    ∧ Keeps s.dev e (fun a => BookReg a) ∧ SameUnits s.dev e)) ∧
  -- FF_READ (R551)
  (∀ (s : State) (h : Hdr) (pl : List Byte), Accepted s.dev cFfRead h pl → Fits s.dev h (8 + 64 * s.dev.car.ff.length) → Runs
    (.ffRead h pl) s (fun e => Answered s.dev e 0x0E05 h .ok (leBytes 4 s.dev.car.ff.length ++ zeros 4 ++ (s.dev.car.ff.map
    LogRec.bytes).flatten) ∧ Keeps s.dev e (fun a => BookReg a) ∧ SameUnits s.dev e)) ∧
  -- FF_CLEAR (R527, R551)
  (∀ (s : State) (h : Hdr) (pl : List Byte), Accepted s.dev cFfClear h pl → (leAt pl 0 2 = 0xFFFF ∨ leAt pl 0 2 <
    s.dev.car.ff.length) → s.dev.car.ff.length ≤ 256 → Runs (.ffClear h pl) s (fun e => e.car.ff = (if leAt pl 0 2 = 0xFFFF then
    [] else removeAt s.dev.car.ff (leAt pl 0 2)) ∧ e.fld CAR_FFCOUNT 0 9 = e.car.ff.length ∧ Answered s.dev e 0x0E06 h .ok [] ∧
    Keeps s.dev e (fun a => BookReg a ∨ a = CAR_FFCOUNT) ∧ SameUnits s.dev e)) ∧
  -- LOG_STATUS (R551)
  (∀ (s : State) (h : Hdr) (pl : List Byte), Accepted s.dev cLogStatus h pl → Runs (.logStatus h pl) s (fun e => Answered s.dev
    e 0x0E07 h .ok (s.dev.regBytes CAR_BOOT 8) ∧ Keeps s.dev e (fun a => BookReg a) ∧ SameUnits s.dev e)) ∧
  -- UPDATE_BEGIN (R540, R551)
  (∀ (s : State) (h : Hdr) (pl : List Byte), Accepted s.dev cUpdateBegin h pl → (s.dev.car.update = none ∧ s.dev.car.trial =
    none) → leAt pl 0 8 ≤ slotMax → Runs (.updateBegin h pl) s (fun e => e.car.update = some (leAt pl 0 8) ∧ e.car.verified =
    false ∧ e.flag CAR_STAT 2 = true ∧ e.image s.dev.idleSlot = [] ∧ e.image (1 - s.dev.idleSlot) = s.dev.image (1 -
    s.dev.idleSlot) ∧ Answered s.dev e 0x0E08 h .ok [] ∧ Keeps s.dev e (fun a => NoteReg a) ∧ SameUnits s.dev e)) ∧
  -- UPDATE_DATA (R540, R551)
  (∀ (s : State) (h : Hdr) (pl : List Byte) (n : Nat), Accepted s.dev cUpdateData h pl → s.dev.car.update = some n → (leAt pl 0
    8 % 256 = 0 ∧ leAt pl 0 8 + leAt pl 8 4 ≤ n) → Runs (.updateData h pl) s (fun e => slice (e.image s.dev.idleSlot) (leAt pl 0
    8) (leAt pl 8 4) = slice pl 16 (leAt pl 8 4) ∧ e.image (1 - s.dev.idleSlot) = s.dev.image (1 - s.dev.idleSlot) ∧
    e.car.verified = false ∧ Answered s.dev e 0x0E09 h .ok [] ∧ Keeps s.dev e (fun a => NoteReg a) ∧ SameUnits s.dev e)) ∧
  -- UPDATE_VERIFY once every byte is written (R539, R551)
  (∀ (s : State) (h : Hdr) (pl : List Byte) (n : Nat) (x : List Byte), Accepted s.dev cUpdateVerify h pl → (s.dev.car.update =
    some n ∧ wroteAll s.dev.car.wrote n s.dev.car.wrote.length 0 = true) → x = s.dev.image s.dev.idleSlot → Runs (.updateVerify
    h pl) s (fun e => (imageSigned x = false → e.car.verified = s.dev.car.verified ∧ Answered s.dev e 0x0E0A h .signatureFail
    []) ∧ (imageSigned x = true → imgSvn x < s.dev.rollback → e.car.verified = s.dev.car.verified ∧ Answered s.dev e 0x0E0A h
    .rollback []) ∧ (imageSigned x = true → s.dev.rollback ≤ imgSvn x → e.car.verified = true ∧ Answered s.dev e 0x0E0A h .ok
    (leBytes 4 (imgFwver x) ++ leBytes 4 (imgSvn x))) ∧ Keeps s.dev e (fun a => NoteReg a) ∧ SameUnits s.dev e)) ∧
  -- UPDATE_ACTIVATE (R540, R541, R542)
  (∀ (s : State) (h : Hdr) (pl : List Byte), Accepted s.dev cUpdateActivate h pl → (s.dev.car.verified = true ∧ 1 ≤ leAt pl 0 4
    ∧ leAt pl 0 4 ≤ 3600) → Runs (.updateActivate h pl) s (fun e => e.car.trial = some s.dev.idleSlot ∧ e.car.trialEnd =
    s.dev.time + leAt pl 0 4 * 400000000 ∧ e.flag CAR_STAT 0 = false ∧ e.car.restart = true ∧ e.car.waiting = [] ∧ (∃ x, x ∈
    (e.fn h.func).resps ∧ x.opcode = 0x0E0B ∧ x.status = .ok ∧ x.hdr = h) ∧ SameMem s.dev e)) ∧
  -- UPDATE_COMMIT (R540, R541)
  (∀ (s : State) (h : Hdr) (pl : List Byte) (n : Nat), Accepted s.dev cUpdateCommit h pl → s.dev.flag CAR_STAT 4 = true → n =
    max s.dev.rollback (s.dev.rg CAR_SVN) → Runs (.updateCommit h pl) s (fun e => e.car.active = s.dev.car.trial.getD
    s.dev.car.active ∧ e.car.trial = none ∧ e.flag CAR_STAT 4 = false ∧ e.rg CAR_ROLLBACK = n % 2 ^ 32 ∧ SMap.get []
    e.car.keepCfg 7 = leBytes 4 n ∧ Answered s.dev e 0x0E0C h .ok (leBytes 4 n) ∧ Keeps s.dev e (fun a => NoteReg a) ∧ SameUnits
    s.dev e)) ∧
  -- UPDATE_STATUS (R551)
  (∀ (s : State) (h : Hdr) (pl : List Byte), Accepted s.dev cUpdateStatus h pl → Runs (.updateStatus h pl) s (fun e => Answered
    s.dev e 0x0E0D h .ok (leBytes 1 (if s.dev.car.trial.isSome then 3 else if s.dev.car.verified then 2 else if
    s.dev.car.update.isSome then 1 else 0) ++ leBytes 1 (natOf (s.dev.flag CAR_STAT 3)) ++ zeros 2 ++ leBytes 4 (if
    s.dev.car.trial.isSome then (s.dev.car.trialEnd - s.dev.time) / 400000000 else 0) ++ (leBytes 4 (imgFwver s.dev.car.imgA) ++
    leBytes 4 (imgFwver s.dev.car.imgB)) ++ (leBytes 4 (imgSvn s.dev.car.imgA) ++ leBytes 4 (imgSvn s.dev.car.imgB))) ∧ Keeps
    s.dev e (fun a => BookReg a) ∧ SameUnits s.dev e))

/-- A direct command whose PEC holds returns its bytes and changes no register, one whose PEC fails is ignored. Set Endpoint ID
  keeps the ID and Get Endpoint ID returns it; the other control commands are answered. A Bellpull message over MCTP that names
  a served opcode is executed and answered on its port; one of another opcode is DENIED. The formats of the MCTP control answers
  are taken from outside the spec (log entry 40). -/
def Obligations.SmbusAndMctp : Prop :=
  -- SMBUS_READ_TMAX (R545)
  (∀ (s : State) (port : Nat), (port < 2 ∧ s.dev.pwr.asleep ≠ 2) → Runs (.smbusReadTmax port true) s (fun e => e.out = s.dev.out
    ++ [.smbus port (leBytes 2 (s.dev.fld CAR_TMAX 0 16))] ∧ Keeps s.dev e (fun _ => False) ∧ SameUnits s.dev e)) ∧
  -- SMBUS_READ_SENSOR of a temperature (R545)
  (∀ (s : State) (port i : Nat), (port < 2 ∧ s.dev.pwr.asleep ≠ 2 ∧ i < 37) → Runs (.smbusReadSensor port i true) s (fun e =>
    e.out = s.dev.out ++ [.smbus port (leBytes 2 (s.dev.fld (CAR_SENS i) 0 16))] ∧ Keeps s.dev e (fun _ => False) ∧ SameUnits
    s.dev e)) ∧
  -- SMBUS_READ_POWER (R545)
  (∀ (s : State) (port : Nat), (port < 2 ∧ s.dev.pwr.asleep ≠ 2) → Runs (.smbusReadPower port true) s (fun e => e.out =
    s.dev.out ++ [.smbus port (leBytes 4 (s.dev.rg CAR_POWER))] ∧ Keeps s.dev e (fun _ => False) ∧ SameUnits s.dev e)) ∧
  -- SMBUS_READ_STATUS (R545)
  (∀ (s : State) (port : Nat), (port < 2 ∧ s.dev.pwr.asleep ≠ 2) → Runs (.smbusReadStatus port true) s (fun e => e.out =
    s.dev.out ++ [.smbus port (leBytes 1 (natOf (s.dev.flag CAR_STAT 0) + 2 * natOf (s.dev.flag FLT_STAT 0) + 4 * natOf
    (s.dev.flag FLT_STAT 2) + 8 * natOf (s.dev.flag CAR_STAT 7) + 16 * natOf (s.dev.flag CAR_STAT 5)))] ∧ Keeps s.dev e (fun _
    => False) ∧ SameUnits s.dev e)) ∧
  -- SMBUS_READ_STATUS whose PEC fails (R545)
  (∀ (s : State) (port : Nat), Runs (.smbusReadStatus port false) s (fun e => e.out = s.dev.out ∧ Keeps s.dev e (fun _ => False)
    ∧ SameUnits s.dev e)) ∧
  -- SET_ENDPOINT_ID (R546; the answer's bytes: log entry 40)
  (∀ (s : State) (port eid : Nat), (port < 2 ∧ s.dev.pwr.asleep ≠ 2 ∧ 1 ≤ eid ∧ eid ≤ 254) → Runs (.setEndpointId port eid) s
    (fun e => SMap.get 0 e.car.eid port = eid ∧ e.out = s.dev.out ++ [.smbus port (leBytes 1 0 ++ zeros 1 ++ leBytes 1 eid ++
    zeros 1)] ∧ Keeps s.dev e (fun _ => False) ∧ SameUnits s.dev e)) ∧
  -- GET_ENDPOINT_ID (R546; the answer's bytes: log entry 40)
  (∀ (s : State) (port : Nat), (port < 2 ∧ s.dev.pwr.asleep ≠ 2) → Runs (.getEndpointId port) s (fun e => e.out = s.dev.out ++
    [.smbus port (leBytes 1 0 ++ leBytes 1 (SMap.get 0 s.dev.car.eid port) ++ zeros 2)] ∧ Keeps s.dev e (fun _ => False) ∧
    SameUnits s.dev e)) ∧
  -- GET_MCTP_VERSION_SUPPORT (R546; the version entry is free)
  (∀ (s : State) (port : Nat), (port < 2 ∧ s.dev.pwr.asleep ≠ 2) → Runs (.getMctpVersionSupport port) s (fun e => (∃ v, v < 2 ^
    32 ∧ e.out = s.dev.out ++ [.smbus port (leBytes 1 0 ++ leBytes 1 1 ++ leBytes 4 v)]) ∧ Keeps s.dev e (fun _ => False) ∧
    SameUnits s.dev e)) ∧
  -- GET_MESSAGE_TYPE_SUPPORT (R546; the answer's bytes: log entry 40)
  (∀ (s : State) (port : Nat), (port < 2 ∧ s.dev.pwr.asleep ≠ 2) → Runs (.getMessageTypeSupport port) s (fun e => e.out =
    s.dev.out ++ [.smbus port (leBytes 1 0 ++ leBytes 1 1 ++ leBytes 1 0x7E)] ∧ Keeps s.dev e (fun _ => False) ∧ SameUnits s.dev
    e)) ∧
  -- GET_VENDOR_MESSAGE_SUPPORT (R546; the command set's version is free)
  (∀ (s : State) (port : Nat), (port < 2 ∧ s.dev.pwr.asleep ≠ 2) → Runs (.getVendorMessageSupport port) s (fun e => (∃ v, v < 2
    ^ 16 ∧ e.out = s.dev.out ++ [.smbus port (leBytes 1 0 ++ leBytes 1 0xFF ++ leBytes 1 0 ++ beBytes 2 Config.vendorId ++
    leBytes 2 v)]) ∧ Keeps s.dev e (fun _ => False) ∧ SameUnits s.dev e)) ∧
  -- MCTP_BELLPULL_MESSAGE of LOG_STATUS (R546, R547)
  (∀ (s : State) (port : Nat) (m : List Byte), (s.dev.pwr.asleep = 0 ∧ m.length ≤ 8192 ∧ s.dev.flag CAR_STAT 0 = true) → (leAt m
    0 2 = 0x0E07 ∧ s.dev.refuse cLogStatus (hdrOf 0xFE port m) (payOf m) = none) → Runs (.mctpBellpullMessage port m) s (fun e
    => (Output.smbus port (respBytes 0x0E07 (hdrOf 0xFE port m) .ok 0 (s.dev.regBytes CAR_BOOT 8))) ∈ e.out ∧ Keeps s.dev e (fun
    a => BookReg a) ∧ SameUnits s.dev e)) ∧
  -- MCTP_BELLPULL_MESSAGE of FF_CLEAR, which MCTP does not serve (R547)
  (∀ (s : State) (port : Nat) (m : List Byte), (s.dev.pwr.asleep = 0 ∧ m.length ≤ 8192 ∧ s.dev.flag CAR_STAT 0 = true ∧
    s.dev.flag CAR_STAT 7 = false) → (leAt m 0 2 = 0x0E06 ∧ (hdrOf 0xFE port m).rsvd = 0 ∧ (hdrOf 0xFE port m).part < 16 ∧
    (hdrOf 0xFE port m).flags < 4) → ((payOf m).length = 8 ∧ (s.dev.fn 0xFE).outst = []) → Runs (.mctpBellpullMessage port m) s
    (fun e => (Output.smbus port (respBytes 0x0E06 (hdrOf 0xFE port m) .denied 0 [])) ∈ e.out ∧ e.car.ff = s.dev.car.ff ∧
    SameUnits s.dev e))

/-- PART_ASSIGN of free, usable regions gives them to the partition, IDLE where it had none, and wakes their good domains;
  PART_REMOVE of regions of a MUFFLED partition frees them and clears their core stores, Commons and T-core buffers. PLAN_SET
  keeps a valid plan and refuses another; PLAN_CLEAR removes it. CAL_STATUS, PART_STATUS and PLAN_READ answer what R570 lists.
  -/
def Obligations.CalendsCommands : Prop :=
  -- CAL_STATUS (R570)
  (∀ (s : State) (h : Hdr) (pl : List Byte), Accepted s.dev cCalStatus h pl → Runs (.calStatus h pl) s (fun e => Answered s.dev
    e 0x0F01 h .ok (if h.func = 0 then s.dev.regBytes CAL_STAT 16 else leBytes 4 (s.dev.rg CAL_STAT) ++ zeros 60) ∧ Keeps s.dev
    e (fun a => BookReg a) ∧ SameUnits s.dev e)) ∧
  -- PART_ASSIGN of free regions (R565)
  (∀ (s : State) (h : Hdr) (pl : List Byte) (p : Nat), Accepted s.dev cPartAssign h pl → (p = byteAt pl 0 ∧ p < 16) → (∀ r, r ∈
    maskBits 16 (leAt pl 2 2) → s.dev.regPart r = none ∧ s.dev.regionBad r = false) → s.dev.running p = false → Runs
    (.partAssign h pl) s (fun e => (∀ r, r ∈ maskBits 16 (leAt pl 2 2) → e.regPart r = some p) ∧ (∀ r, r < 16 → r ∉ maskBits 16
    (leAt pl 2 2) → e.regPart r = s.dev.regPart r) ∧ (∀ r, r ∈ maskBits 16 (leAt pl 2 2) → ∀ k, k < 6 → s.dev.domGood (domOf r
    k) = true → e.domLevel (domOf r k) = 2) ∧ (maskBits 16 (leAt pl 2 2) ≠ [] → s.dev.regionsOf p = [] → s.dev.choked p = false
    → e.bstate p = 0) ∧ Answered s.dev e 0x0F02 h .ok [] ∧ Keeps s.dev e (fun a => BookReg a ∨ (0xB0000 ≤ a ∧ a < 0xC0000) ∨ (∃
    r, r < 16 ∧ a = CAL_REGPART r) ∨ a = TAB_BSTAT p) ∧ SameUnits s.dev e)) ∧
  -- PART_REMOVE of a MUFFLED partition's regions (R474, R565)
  (∀ (s : State) (h : Hdr) (pl : List Byte) (p : Nat), Accepted s.dev cPartRemove h pl → (p = byteAt pl 0 ∧ p < 16 ∧
    s.dev.bstate p = 3) → (∀ r, r ∈ maskBits 16 (leAt pl 2 2) → s.dev.regPart r = some p) → Runs (.partRemove h pl) s (fun e =>
    (∀ r, r ∈ maskBits 16 (leAt pl 2 2) → e.regPart r = none) ∧ (∀ r, r < 16 → r ∉ maskBits 16 (leAt pl 2 2) → e.regPart r =
    s.dev.regPart r) ∧ (∀ r a, r ∈ maskBits 16 (leAt pl 2 2) → (InCommons r a ∨ InBuffer r a) → e.mem.read a = 0#8) ∧ (∀ r q a,
    r ∈ maskBits 16 (leAt pl 2 2) → q ∈ (s.dev.coresOf r).map Prod.snd → InStore q a → e.mem.read a = 0#8) ∧ Answered s.dev e
    0x0F03 h .ok [])) ∧
  -- PART_REMOVE of a partition that is not MUFFLED (R565)
  (∀ (s : State) (h : Hdr) (pl : List Byte) (p : Nat), Accepted s.dev cPartRemove h pl → (p = byteAt pl 0 ∧ p < 16 ∧
    s.dev.bstate p ≠ 3) → (∀ r, r ∈ maskBits 16 (leAt pl 2 2) → s.dev.regPart r = some p) → Runs (.partRemove h pl) s (fun e =>
    Answered s.dev e 0x0F03 h .busy [] ∧ Keeps s.dev e (fun a => BookReg a) ∧ SameUnits s.dev e)) ∧
  -- PART_STATUS (R570)
  (∀ (s : State) (h : Hdr) (pl : List Byte) (p : Nat), Accepted s.dev cPartStatus h pl → (p = byteAt pl 0 ∧ p < 16 ∧ (h.func = 0
    ∨ h.func = p)) → Runs (.partStatus h pl) s (fun e => Answered s.dev e 0x0F04 h .ok (leBytes 2 (partMask (s.dev.regionsOf p))
    ++ leBytes 1 (s.dev.bstate p) ++ leBytes 1 (natOf (s.dev.muted p)) ++ zeros 4) ∧ Keeps s.dev e (fun a => BookReg a) ∧
    SameUnits s.dev e)) ∧
  -- PLAN_SET (R561)
  (∀ (s : State) (h : Hdr) (pl : List Byte), Accepted s.dev cPlanSet h pl → Runs (.planSet h pl) s (fun e => (planValid pl =
    true → e.cal.kept = pl ∧ Answered s.dev e 0x0F05 h .ok []) ∧ (planValid pl = false → e.cal.kept = s.dev.cal.kept ∧ Answered
    s.dev e 0x0F05 h .denied []) ∧ Keeps s.dev e (fun a => BookReg a) ∧ SameUnits s.dev e)) ∧
  -- PLAN_READ (R570)
  (∀ (s : State) (h : Hdr) (pl : List Byte), Accepted s.dev cPlanRead h pl → Fits s.dev h s.dev.cal.kept.length → Runs
    (.planRead h pl) s (fun e => Answered s.dev e 0x0F06 h .ok s.dev.cal.kept ∧ Keeps s.dev e (fun a => BookReg a) ∧ SameUnits
    s.dev e)) ∧
  -- PLAN_CLEAR (R570)
  (∀ (s : State) (h : Hdr) (pl : List Byte), Accepted s.dev cPlanClear h pl → Runs (.planClear h pl) s (fun e => e.cal.kept = []
    ∧ Answered s.dev e 0x0F07 h .ok [] ∧ Keeps s.dev e (fun a => BookReg a) ∧ SameUnits s.dev e))

/-- At power-good the boot count rises by one, Bellpull is served, and where part record and image verify the sequence is on; a
  wave zeroes two regions' stores and buffers and nothing else of memory. Hellos leave on each port in training or up and are
  kept when they arrive; the hello wait ends at its bound, or standalone where no port is up; the election's end, a probe and
  its return or loss, and READY do what R559, R562 and R552 say. -/
def Obligations.CalendsSequence : Prop :=
  -- POWER_GOOD out of Ember (R552, R554)
  (∀ (s : State) (straps t1 t2 : Nat), (s.dev.pins.pwrgd = false ∧ s.dev.pins.thermtrip = false ∧ s.dev.pwr.asleep ≠ 2) → Runs
    (.powerGood straps t1 t2) s (fun e => e.pins.pwrgd = true ∧ e.pwr.asleep = 0 ∧ e.flag CAR_STAT 0 = true ∧ e.rg CAR_BOOT =
    (leNat (SMap.get [] s.dev.car.keepCfg 6) + 1) % 2 ^ 32 ∧ e.flag CAR_STAT 6 = ! s.dev.partOk ∧ (s.dev.partOk = true →
    s.dev.flag CAR_STAT 7 = false → s.dev.imageValid s.dev.car.active = true → bitAt straps 5 = false → e.cal.on = true ∧ e.rg
    CAL_T1 = t1 % 2 ^ 32 ∧ e.rg CAL_T2 = t2 % 2 ^ 32))) ∧
  -- POWER_GOOD while PWRGD is high (R552)
  (∀ (s : State) (straps t1 t2 : Nat), s.dev.pins.pwrgd = true → Runs (.powerGood straps t1 t2) s (fun e => Keeps s.dev e (fun _
    => False) ∧ SameUnits s.dev e)) ∧
  -- REGION_WAVE (R555)
  (∀ (s : State) (w : Nat), (w < 8 ∧ s.dev.cal.on = true ∧ s.dev.flag CAL_WAVE w = false) → Runs (.regionWave w) s (fun e =>
    e.flag CAL_WAVE w = true ∧ e.flag CAL_WAVE (w + 8) = true ∧ (∀ q a, (q / 16 = w ∨ q / 16 = w + 8) → InStore q a → e.mem.read
    a = 0#8) ∧ (∀ a, InBuffer w a ∨ InBuffer (w + 8) a → e.mem.read a = 0#8) ∧ MemKeeps s.dev e (fun a => (csBase (16 * w) ≤ a ∧
    a < csBase (16 * w) + 0x4000000) ∨ (csBase (16 * (w + 8)) ≤ a ∧ a < csBase (16 * (w + 8)) + 0x4000000) ∨ InBuffer w a ∨
    InBuffer (w + 8) a) ∧ RegKeeps s.dev e (fun a => a = CAL_WAVE ∨ (0xB0000 ≤ a ∧ a < 0xC0000)))) ∧
  -- HELLO_TIMER (R557)
  (∀ (s : State), s.dev.cal.on = true → Runs (.helloTimer) s (fun e => (∀ q, q < 8 → s.dev.portState q = 1 ∨ s.dev.portState q =
    2 → s.dev.flag FLT_STAT 4 = false → SentOn e q (s.dev.mgmtPacket q 0 [] (some (s.dev.helloOf q)))) ∧ Keeps s.dev e (fun a =>
    LinkReg a) ∧ SameUnits s.dev e)) ∧
  -- HELLO of the peer (R556, R558, R559)
  (∀ (s : State) (q : Nat) (x : List Byte), (q < 8 ∧ s.dev.cal.on = true ∧ x.length = 64 ∧ byteAt x 0 = 1) → ((s.dev.lport
    q).trained = true ∧ (s.dev.portState q = 1 ∨ s.dev.portState q = 2)) → Runs (.hello q x) s (fun e => (e.lport q).hello =
    some x ∧ e.portState q = 2 ∧ e.fld (CAL_PORTSTAT q) 1 3 = natOf (helloSerial x == s.dev.serial) + 2 * natOf (helloFlag x 0
    == s.dev.cal.plan.isEmpty || slice x 32 32 != slice (s.dev.helloOf q) 32 32) + 4 * natOf (! s.dev.cal.plan.isEmpty && !
    (s.dev.planPeer q == some (helloSerial x) && byteAt x 1 == opposite q)) ∧ SameMem s.dev e ∧ SameUnits s.dev e)) ∧
  -- HELLO_WAIT_END at its bound (R557)
  (∀ (s : State) (ms : Nat), (s.dev.cal.on = true ∧ s.dev.cal.waited = false ∧ s.dev.fld CAL_STAT 0 3 = 2) → s.dev.fld
    CAL_HELLOWAIT 0 16 ≤ ms → Runs (.helloWaitEnd ms) s (fun e => e.cal.waited = true ∧ Keeps s.dev e (fun _ => False) ∧
    SameUnits s.dev e)) ∧
  -- HELLO_WAIT_END without a plan and with no port up (R557)
  (∀ (s : State) (ms : Nat), (s.dev.cal.on = true ∧ s.dev.cal.waited = false ∧ s.dev.cal.elected = false ∧ s.dev.fld CAL_STAT 0
    3 = 2) → (s.dev.cal.plan = [] ∧ (∀ q, q < 8 → s.dev.portState q ≠ 2)) → (200 ≤ ms ∧ ms < s.dev.fld CAL_HELLOWAIT 0 16) →
    Runs (.helloWaitEnd ms) s (fun e => e.flag CAL_STAT 3 = true ∧ e.flag CAL_STAT 4 = s.dev.flag CAL_STAT 4 ∧ e.fld CAL_STAT 0
    3 = 3 ∧ e.fld (FAB_DCFG 0) 0 9 = 0 ∧ e.fld (FAB_DCFG 1) 0 9 = 0 ∧ e.fld (FAB_DCFG 0) 14 9 = 0 ∧ e.fld (FAB_DCFG 1) 14 9 = 0
    ∧ (∀ q, q < 8 → e.flag (CAL_PORTSTAT q) 0 = false) ∧ SameMem s.dev e ∧ SameUnits s.dev e)) ∧
  -- ELECTION_QUIET (R559, R562)
  (∀ (s : State) (ms : Nat), (s.dev.cal.on = true ∧ s.dev.cal.waited = true ∧ s.dev.cal.elected = false) → Runs (.electionQuiet
    ms) s (fun e => e.cal.elected = true ∧ e.rg CAL_T6 = ms % 2 ^ 32 ∧ (s.dev.cal.plan ≠ [] → ∀ c, planPlace s.dev.cal.plan
    s.dev.serial = some c → e.cal.coords = some c ∧ e.cal.dims = some (planDims s.dev.cal.plan)) ∧ (s.dev.cal.plan ≠ [] →
    planPlace s.dev.cal.plan s.dev.serial = none → e.flag CAL_STAT 3 = true ∧ e.flag CAL_STAT 4 = true) ∧ SameMem s.dev e ∧
    SameUnits s.dev e)) ∧
  -- COORDINATE_PROBE of another device's, which goes on (R562)
  (∀ (s : State) (q root hops : Nat), (s.dev.cal.on = true ∧ q < 6 ∧ q % 2 = 1 ∧ root ≠ s.dev.serial ∧ s.dev.portUp (2 * (q /
    2)) = true) → s.dev.flag FLT_STAT 4 = false → Runs (.coordinateProbe q root hops) s (fun e => SentOn e (2 * (q / 2))
    (s.dev.mgmtPacket (2 * (q / 2)) 3 [root, hops + 1] none) ∧ Keeps s.dev e (fun a => LinkReg a) ∧ SameUnits s.dev e)) ∧
  -- COORDINATE_PROBE of this device's own (R562)
  (∀ (s : State) (q hops : Nat), (s.dev.cal.on = true ∧ q < 6 ∧ q % 2 = 1 ∧ s.dev.cal.probes.contains (q / 2, none) = true) →
    Runs (.coordinateProbe q s.dev.serial hops) s (fun e => e.cal.probes.contains (q / 2, none) = false ∧ SameMem s.dev e ∧
    SameUnits s.dev e)) ∧
  -- PROBE_TIMEOUT (R562)
  (∀ (s : State) (k : Nat), s.dev.cal.probes.contains (k, none) = true → Runs (.probeTimeout k) s (fun e => e.flag CAL_STAT 3 =
    true ∧ e.flag CAL_STAT 4 = true ∧ e.cal.coords = some (0, 0, 0) ∧ e.cal.dims = some (1, 1, 1) ∧ (∀ q, q < 8 → e.flag
    (CAL_PORTSTAT q) 0 = false) ∧ SameMem s.dev e ∧ SameUnits s.dev e)) ∧
  -- READY (R552, R560)
  (∀ (s : State) (ms : Nat), (s.dev.fld CAL_STAT 0 3 = 3 ∧ s.dev.cal.ddr = true ∧ s.dev.cal.routes = true ∧ s.dev.fld CAL_WAVE 0
    16 = 65535) → Runs (.ready ms) s (fun e => e.fld CAL_STAT 0 3 = 4 ∧ e.rg CAL_T8 = ms % 2 ^ 32 ∧ (s.dev.flag CAL_STAT 6 =
    true → e.flag CAL_STAT 7 = true ∧ e.cal.rootEst = true) ∧ Keeps s.dev e (fun a => a = CAL_STAT ∨ a = CAL_T8)))

/-- POWER_STATE answers at once where the state in force stays, waits for the change where it does not, and with Vigil or Ember
  ends the waiting commands and shows the entry; it is BUSY while a partition runs. POWER_VOTE casts the votes of its client
  alone. THERMAL_CONFIG, POLICY_SET, RTC_ALARM and AON_WRITE store what they carry, POWER_STATUS and AON_READ answer it. -/
def Obligations.PowerCommands : Prop :=
  -- POWER_STATE that leaves the state in force (R581)
  (∀ (s : State) (h : Hdr) (pl : List Byte), Accepted s.dev cPowerState h pl → (byteAt pl 0 < 3 ∧ s.dev.pwr.change = none ∧
    s.dev.fld PWR_STATE 0 3 < 3) → lowerPoint (byteAt pl 0) (s.dev.fld PWR_STATE 8 3) = s.dev.pwr.prev → Runs (.powerState h pl)
    s (fun e => e.fld PWR_STATE 4 3 = byteAt pl 0 ∧ e.fld PWR_STATE 0 3 = s.dev.fld PWR_STATE 0 3 ∧ Answered s.dev e 0x0B01 h
    .ok (leBytes 4 (e.rg PWR_STATE)) ∧ Keeps s.dev e (fun a => BookReg a ∨ a = PWR_STATE) ∧ SameUnits s.dev e)) ∧
  -- POWER_STATE that changes the state in force (R581)
  (∀ (s : State) (h : Hdr) (pl : List Byte), Accepted s.dev cPowerState h pl → (byteAt pl 0 < 3 ∧ s.dev.pwr.change = none ∧
    s.dev.fld PWR_STATE 0 3 < 3 ∧ s.dev.pwr.asleep = 0) → lowerPoint (byteAt pl 0) (s.dev.fld PWR_STATE 8 3) ≠ s.dev.pwr.prev →
    Runs (.powerState h pl) s (fun e => e.fld PWR_STATE 4 3 = byteAt pl 0 ∧ e.fld PWR_STATE 0 3 = 5 ∧ (e.pwr.change.map
    Prod.fst) = some (lowerPoint (byteAt pl 0) (s.dev.fld PWR_STATE 8 3)) ∧ Waits s.dev e cPowerState h pl .power ∧ Keeps s.dev
    e (fun a => BookReg a ∨ a = PWR_STATE) ∧ SameUnits s.dev e)) ∧
  -- POWER_STATE to Vigil or Ember (R582, R585)
  (∀ (s : State) (h : Hdr) (pl : List Byte), Accepted s.dev cPowerState h pl → ((byteAt pl 0 = 3 ∨ byteAt pl 0 = 4) ∧
    s.dev.pwr.change = none ∧ s.dev.fld PWR_STATE 0 3 < 3) → (∀ p, p < 16 → s.dev.running p = false) → Runs (.powerState h pl) s
    (fun e => e.fld PWR_STATE 0 3 = byteAt pl 0 ∧ e.car.waiting = [] ∧ AnsweredLast e 0x0B01 h .ok (leBytes 4 (e.rg PWR_STATE))
    ∧ SameMem s.dev e)) ∧
  -- POWER_STATE to Vigil or Ember while a partition runs (R582)
  (∀ (s : State) (h : Hdr) (pl : List Byte) (p : Nat), Accepted s.dev cPowerState h pl → ((byteAt pl 0 = 3 ∨ byteAt pl 0 = 4) ∧
    p < 16 ∧ s.dev.running p = true) → (s.dev.fld PWR_STATE 0 3 ≠ 3 ∧ s.dev.fld PWR_STATE 0 3 ≠ 4) → Runs (.powerState h pl) s
    (fun e => Answered s.dev e 0x0B01 h .busy (leBytes 4 (s.dev.rg PWR_STATE)) ∧ Keeps s.dev e (fun a => BookReg a) ∧ SameUnits
    s.dev e)) ∧
  -- POWER_VOTE (R573, R598)
  (∀ (s : State) (h : Hdr) (pl : List Byte) (c : Nat), Accepted s.dev cPowerVote h pl → (c = (if h.func = 0 ∧ h.part = 0 then
    cliHost else cliPart h.part) ∧ byteAt pl 0 < 3) → (∀ x, x ∈ maskBits 128 (leAt pl 8 16) → s.dev.mayVote c x = true) → Runs
    (.powerVote h pl) s (fun e => (∀ x, x ∈ maskBits 128 (leAt pl 8 16) → e.vote c x = byteAt pl 0) ∧ (∀ k, k < 35 → ∀ x, x <
    120 → k ≠ c ∨ x ∉ maskBits 128 (leAt pl 8 16) → e.vote k x = s.dev.vote k x) ∧ Answered s.dev e 0x0B02 h .ok [] ∧ Keeps
    s.dev e (fun a => BookReg a ∨ (0xB0000 ≤ a ∧ a < 0xC0000)) ∧ SameUnits s.dev e)) ∧
  -- POWER_STATUS (R598)
  (∀ (s : State) (h : Hdr) (pl : List Byte), Accepted s.dev cPowerStatus h pl → Runs (.powerStatus h pl) s (fun e => Answered
    s.dev e 0x0B03 h .ok (leBytes 4 (s.dev.rg PWR_STATE) ++ leBytes 4 (s.dev.rg PWR_GSTAT) ++ leBytes 4 (if h.func = 0 then
    s.dev.rg CAR_POWER else 0) ++ zeros 4 ++ ((upTo 120).map (fun x => leBytes 1 (if h.func = 0 ∨ (x < 96 ∧ s.dev.owns h.func (x
    / 6) = true) then s.dev.domLevel x else 0))).flatten) ∧ Keeps s.dev e (fun a => BookReg a) ∧ SameUnits s.dev e)) ∧
  -- THERMAL_CONFIG (R592, R598)
  (∀ (s : State) (h : Hdr) (pl : List Byte), Accepted s.dev cThermalConfig h pl → (sInt 16 (leAt pl 0 2) < sInt 16 (leAt pl 2 2)
    ∧ sInt 16 (leAt pl 2 2) ≤ 1680) → (20000 ≤ leAt pl 4 4 ∧ leAt pl 4 4 ≤ 110000) → Runs (.thermalConfig h pl) s (fun e =>
    e.fld PWR_THERM 16 16 = leAt pl 0 2 ∧ e.fld PWR_THERM 0 16 = leAt pl 2 2 ∧ e.rg PWR_PLIMIT = leAt pl 4 4 ∧ Answered s.dev e
    0x0B04 h .ok [] ∧ Keeps s.dev e (fun a => BookReg a ∨ a = PWR_THERM ∨ a = PWR_PLIMIT) ∧ SameUnits s.dev e)) ∧
  -- POLICY_SET (R576, R598)
  (∀ (s : State) (h : Hdr) (pl : List Byte), Accepted s.dev cPolicySet h pl → byteAt pl 0 < 4 → Runs (.policySet h pl) s (fun e
    => e.rg PWR_POLICY = byteAt pl 0 ∧ e.rg PWR_NAPCFG = leAt pl 2 2 ∧ (∀ r, r < 16 → ∀ k, k < 6 → e.vote cliPolicy (domOf r k)
    = if s.dev.domGood (domOf r k) then (if (s.dev.regPart r).isNone && bitAt (byteAt pl 0) 0 then 0 else 1) else 0) ∧ Answered
    s.dev e 0x0B05 h .ok [] ∧ Keeps s.dev e (fun a => BookReg a ∨ (0xB0000 ≤ a ∧ a < 0xC0000)) ∧ SameUnits s.dev e)) ∧
  -- RTC_ALARM (R588, R598)
  (∀ (s : State) (h : Hdr) (pl : List Byte), Accepted s.dev cRtcAlarm h pl → Runs (.rtcAlarm h pl) s (fun e => e.rg PWR_ALARM_LO
    = leAt pl 0 4 ∧ e.fld PWR_ALARM_HI 0 16 = leAt pl 4 2 ∧ e.flag PWR_ALARM_HI 31 = (byteAt pl 8 != 0) ∧ Answered s.dev e
    0x0B06 h .ok (leBytes 8 s.dev.rtc) ∧ Keeps s.dev e (fun a => BookReg a ∨ a = PWR_ALARM_LO ∨ a = PWR_ALARM_HI) ∧ SameUnits
    s.dev e)) ∧
  -- AON_WRITE (R587, R598)
  (∀ (s : State) (h : Hdr) (pl : List Byte), Accepted s.dev cAonWrite h pl → aonRange (leAt pl 0 4) (pl.drop 8).length = true →
    Runs (.aonWrite h pl) s (fun e => (∀ i, i < (pl.drop 8).length → Memory.read e.pwr.sram (leAt pl 0 4 + i) = pl.getD (8 + i)
    0#8) ∧ (∀ a, a < leAt pl 0 4 ∨ leAt pl 0 4 + (pl.drop 8).length ≤ a → Memory.read e.pwr.sram a = Memory.read s.dev.pwr.sram
    a) ∧ Answered s.dev e 0x0B07 h .ok [] ∧ Keeps s.dev e (fun a => BookReg a) ∧ SameUnits s.dev e)) ∧
  -- AON_READ (R587, R598)
  (∀ (s : State) (h : Hdr) (pl : List Byte), Accepted s.dev cAonRead h pl → (aonRange (leAt pl 0 4) (leAt pl 4 4) = true ∧ leAt
    pl 4 4 % 8 = 0) → Fits s.dev h (leAt pl 4 4) → Runs (.aonRead h pl) s (fun e => Answered s.dev e 0x0B08 h .ok ((upTo (leAt
    pl 4 4)).map (fun i => Memory.read s.dev.pwr.sram (leAt pl 0 4 + i))) ∧ Keeps s.dev e (fun a => BookReg a) ∧ SameUnits s.dev
    e))

/-- A vote word takes the bits of the domains its client may vote on. A domain whose level changes takes the voted level; one
  that goes OFF loses its stores. A ramp's end puts the target point in force and ends the commands that waited for it. The
  governor lowers the ceiling one step on a hot reading and raises it after 100 cool milliseconds; a voltage alarm Mutes. A
  quiet quad naps and is raised again. -/
def Obligations.DomainsPointsAndNaps : Prop :=
  -- VOTE_WRITE (R573, R595, R596)
  (∀ (s : State) (ag : Agent) (c w v : Nat) (on : Bool), (voteMine ag c = true ∧ c < 35 ∧ w < 4) → Runs (.voteWrite ag c w on v)
    s (fun e => (∀ b, b < 32 → e.flag (if on then PWR_VON c w else PWR_VRET c w) b = if s.dev.mayVote c (32 * w + b) then bitAt
    v b else s.dev.flag (if on then PWR_VON c w else PWR_VRET c w) b) ∧ Keeps s.dev e (fun a => a = (if on then PWR_VON c w else
    PWR_VRET c w)) ∧ SameUnits s.dev e)) ∧
  -- DOMAIN_LEVEL_CHANGE to RET or ON (R572 to R575)
  (∀ (s : State) (x : Nat), (x < 120 ∧ s.dev.pwr.asleep = 0) → (s.dev.voted x ≠ s.dev.domLevel x ∧ s.dev.voted x ≠ 0) →
    (s.dev.voted x = 2 ∨ s.dev.domLevel x ≠ 2 ∨ s.dev.domBusy x = false) → Runs (.domainLevelChange x) s (fun e => e.domLevel x
    = s.dev.voted x ∧ (∀ y, y < 120 → y ≠ x → e.domLevel y = s.dev.domLevel y) ∧ Keeps s.dev e (fun _ => False) ∧ SameUnits
    s.dev e)) ∧
  -- DOMAIN_LEVEL_CHANGE of a quad to OFF (R572 to R574)
  (∀ (s : State) (x : Nat), (x < 96 ∧ x % 6 < 4 ∧ s.dev.pwr.asleep = 0) → (s.dev.voted x = 0 ∧ s.dev.domLevel x ≠ 0 ∧
    (s.dev.domLevel x = 2 → s.dev.domBusy x = false)) → Runs (.domainLevelChange x) s (fun e => e.domLevel x = 0 ∧ (∀ j a, j < 4
    → InStore (16 * (x / 6) + 4 * (x % 6) + j) a → e.mem.read a = 0#8) ∧ MemKeeps s.dev e (fun a => csBase (16 * (x / 6) + 4 *
    (x % 6)) ≤ a ∧ a < csBase (16 * (x / 6) + 4 * (x % 6)) + 0x1000000))) ∧
  -- PLANE_DRAIN_TIMEOUT (R581)
  (∀ (s : State) (t : Nat), s.dev.pwr.change = some (t, 0) → Runs (.planeDrainTimeout) s (fun e => e.pwr.change = some (t, 1) ∧
    e.pwr.prev = (if pointRank t < pointRank s.dev.pwr.prev then t else s.dev.pwr.prev))) ∧
  -- VOLTAGE_RAMP_END that reaches target and ceiling (R580, R581)
  (∀ (s : State) (t : Nat), (s.dev.pwr.change = some (t, 1) ∧ t < 3) → t = lowerPoint (s.dev.fld PWR_STATE 4 3) (s.dev.fld
    PWR_STATE 8 3) → Runs (.voltageRampEnd) s (fun e => e.fld PWR_STATE 0 3 = t ∧ e.pwr.prev = t ∧ e.pwr.change = none ∧
    e.pins.vid0 = vidCode 0 t ∧ e.pins.vid1 = vidCode 1 t ∧ (∀ w, w ∈ e.car.waiting → w.what ≠ .power) ∧ SameMem s.dev e)) ∧
  -- GOVERNOR_SAMPLE of a hot reading, at its onset and each 10 ms later (R592)
  (∀ (s : State), (s.dev.pwr.asleep = 0 ∧ s.dev.cal.on = true ∧ s.dev.pwr.warm < 99) → (sInt 16 (s.dev.fld PWR_THERM 16 16) ≤
    sInt 16 (s.dev.fld CAR_TMAX 0 16) ∧ sInt 16 (s.dev.fld CAR_TMAX 0 16) < sInt 16 (s.dev.fld PWR_THERM 0 16)) →
    (s.dev.pwr.hotMs % 10 = 0 ∧ s.dev.pwr.powers.length < 9 ∧ s.dev.fld PWR_STATE 8 3 < 2) → Runs (.governorSample none) s (fun
    e => e.fld PWR_STATE 8 3 = stepDown (s.dev.fld PWR_STATE 8 3) ∧ e.rg PWR_THROTCNT = satInc (s.dev.rg PWR_THROTCNT) 1 % 2 ^
    32 ∧ e.flag PWR_GSTAT 1 = true ∧ e.pwr.hotMs = s.dev.pwr.hotMs + 1 ∧ Keeps s.dev e (fun a => a = PWR_STATE ∨ a = PWR_GSTAT ∨
    a = PWR_THROTCNT) ∧ SameUnits s.dev e)) ∧
  -- GOVERNOR_SAMPLE that ends 100 ms below HOT − 5 °C (R592)
  (∀ (s : State), (s.dev.pwr.asleep = 0 ∧ s.dev.cal.on = true ∧ s.dev.pwr.warm < 99) → (sInt 16 (s.dev.fld CAR_TMAX 0 16) < sInt
    16 (s.dev.fld PWR_THERM 16 16) - 80 ∧ sInt 16 (s.dev.fld CAR_TMAX 0 16) < sInt 16 (s.dev.fld PWR_THERM 0 16)) →
    (s.dev.pwr.coolMs = 99 ∧ s.dev.pwr.powers.length < 9 ∧ s.dev.fld PWR_STATE 8 3 = 2 ∧ s.dev.flag PWR_GSTAT 0 = false) → Runs
    (.governorSample none) s (fun e => e.fld PWR_STATE 8 3 = 0 ∧ e.flag PWR_GSTAT 1 = false ∧ Keeps s.dev e (fun a => a =
    PWR_STATE ∨ a = PWR_GSTAT) ∧ SameUnits s.dev e)) ∧
  -- GOVERNOR_SAMPLE with a voltage monitor outside its limits, with the action Mute (R592, R599)
  (∀ (s : State) (i : Nat), (s.dev.pwr.asleep = 0 ∧ s.dev.cal.on = true ∧ s.dev.pwr.volt = false) → (s.dev.fld (FLT_ACT 6) 0 2 =
    1 ∧ sInt 16 (s.dev.fld CAR_TMAX 0 16) < sInt 16 (s.dev.fld PWR_THERM 0 16)) → Runs (.governorSample (some i)) s (fun e => (∀
    p, p ∈ s.dev.allParts → e.muted p = true ∧ e.flag (FLT_PMUTE p) 2 = true) ∧ e.pwr.volt = true ∧ SameMem s.dev e)) ∧
  -- NAP_VOTE_DROP of a quiet quad (R578)
  (∀ (s : State) (k p n : Nat), (k < 64 ∧ s.dev.regPart (k / 4) = some p ∧ s.dev.running p = true ∧ s.dev.flag PWR_POLICY 1 =
    true) → (n = s.dev.beat p ∧ (s.dev.region (k / 4)).beat = n ∧ s.dev.naps.contains k = false) → (s.dev.quadCores k ≠ [] ∧
    (s.dev.quadCores k).all (fun q => s.dev.coreQuiet q n) = true) → s.dev.rg (TAB_BCOUNT p) + s.dev.fld PWR_NAPCFG 0 16 + 600 ≤
    s.dev.fld (TAB_BPERIOD p) 0 29 + s.dev.fld (TAB_CHOFF (k / 4)) 0 29 → Runs (.napVoteDrop k) s (fun e => e.naps.contains k =
    true ∧ e.vote cliTabor (domOf (k / 4) (k % 4)) = 1 ∧ e.rg (PWR_NAPCNT k) = satInc (s.dev.rg (PWR_NAPCNT k)) 1 % 2 ^ 32 ∧
    Keeps s.dev e (fun a => 0xB0000 ≤ a ∧ a < 0xC0000) ∧ SameUnits s.dev e)) ∧
  -- NAP_VOTE_RAISE (R578)
  (∀ (s : State) (k p : Nat), (k < 64 ∧ s.dev.naps.contains k = true ∧ s.dev.regPart (k / 4) = some p ∧ s.dev.running p = true)
    → Runs (.napVoteRaise k) s (fun e => e.naps.contains k = false ∧ e.vote cliTabor (domOf (k / 4) (k % 4)) = 2 ∧ Keeps s.dev e
    (fun a => 0xB0000 ≤ a ∧ a < 0xC0000) ∧ SameUnits s.dev e))

/-- A doorbell ends Vigil with CAUSE 3, Bellpull served again and the doorbell applied. The RTC alarm clears ALARM_EN and
  arrives at Tocsin source 18, or in Ember raises PWR_EN with the regulator in full mode. A brown-out, a fall of PWRGD and the
  removal of VDD_AON lose what R587, R590 and R655 say and keep the Keep. THERMTRIP Chokes every partition and sets every domain
  OFF. -/
def Obligations.SleepAndSupplies : Prop :=
  -- VIGIL_WAKE by a doorbell (R583, R584)
  (∀ (s : State) (f v : Nat), (s.dev.pwr.asleep = 1 ∧ f < 16 ∧ s.dev.pwr.tails = [(f, some v)] ∧ s.dev.pwr.prev < 3) → Runs
    (.vigilWake 3) s (fun e => e.pwr.asleep = 0 ∧ e.pwr.tails = [] ∧ e.rg PWR_WAKE = 3 ∧ e.flag CAR_STAT 0 = true ∧ e.rg
    (CAR_CRTAIL f) = v % 2 ^ 32 ∧ e.fld PWR_STATE 0 3 = (if s.dev.pwr.prev = 1 then 0 else s.dev.pwr.prev) ∧ SameMem s.dev e)) ∧
  -- RTC_ALARM_MATCH while the device is awake (R588)
  (∀ (s : State), (s.dev.pwr.asleep = 0 ∧ s.dev.flag PWR_ALARM_HI 31 = true) → Runs (.rtcAlarmMatch) s (fun e => e.flag
    PWR_ALARM_HI 31 = false ∧ e.rg PWR_RTC_LO = s.dev.rg PWR_ALARM_LO % 2 ^ 32 ∧ e.rg PWR_RTC_HI = s.dev.fld PWR_ALARM_HI 0 16 ∧
    (s.dev.flag (TOC_ENABLE 288) 18 = true → e.flag (TOC_PEND 288) 18 = true) ∧ Keeps s.dev e (fun a => NoteReg a ∨ a =
    PWR_ALARM_HI ∨ a = PWR_RTC_LO ∨ a = PWR_RTC_HI) ∧ SameUnits s.dev e)) ∧
  -- RTC_ALARM_MATCH in Ember (R586, R588)
  (∀ (s : State), (s.dev.pwr.asleep = 2 ∧ s.dev.flag PWR_ALARM_HI 31 = true) → Runs (.rtcAlarmMatch) s (fun e => e.flag
    PWR_ALARM_HI 31 = false ∧ e.pins.pwrEn = true ∧ e.flag PWR_AONCTL 0 = true ∧ e.flag PWR_AONCTL 1 = true ∧ Keeps s.dev e (fun
    a => a = PWR_ALARM_HI ∨ a = PWR_RTC_LO ∨ a = PWR_RTC_HI ∨ a = PWR_AONCTL) ∧ SameUnits s.dev e)) ∧
  -- BROWN_OUT in Ember (R590, R649)
  (∀ (s : State), (s.dev.pwr.asleep = 2 ∧ s.dev.flag PWR_AONCTL 0 = false) → Runs (.brownOut) s (fun e => e.pwr.asleep = 0 ∧
    e.pwr.sram = [] ∧ e.fld PWR_WAKE 0 3 = 4 ∧ (∀ a, ¬ FollowReg a → e.rg a = (regReset a).toNat) ∧ e.car.keepCfg =
    s.dev.car.keepCfg ∧ e.car.partRec = s.dev.car.partRec ∧ e.car.journal = s.dev.car.journal ∧ e.cal.kept = s.dev.cal.kept)) ∧
  -- THERMTRIP (R594, R606, R655)
  (∀ (s : State), s.dev.pwr.asleep ≠ 2 → Runs (.thermtrip) s (fun e => e.pins.thermtrip = true ∧ (∀ p, p ∈ s.dev.allParts →
    e.choked p = true) ∧ (∀ x, x < 120 → e.domLevel x = 0))) ∧
  -- PWRGD_FALL with PWR_EN high (R587, R648)
  (∀ (s : State), (s.dev.pins.pwrgd = true ∧ s.dev.pins.pwrEn = true) → Runs (.pwrgdFall) s (fun e => e.pins.pwrgd = false ∧
    e.pwr.asleep = 0 ∧ e.pwr.sram = [] ∧ e.rg PWR_RTC_LO = s.dev.rg PWR_RTC_LO ∧ e.rg PWR_RTC_HI = s.dev.rg PWR_RTC_HI ∧ (∀ a, ¬
    FollowReg a → a ∉ [PWR_RTC_LO, PWR_RTC_HI, PWR_ALARM_LO, PWR_ALARM_HI] → e.rg a = (regReset a).toNat) ∧ e.car.keepCfg =
    s.dev.car.keepCfg ∧ e.car.partRec = s.dev.car.partRec ∧ e.car.journal = s.dev.car.journal ∧ e.cal.kept = s.dev.cal.kept)) ∧
  -- PWRGD_FALL in Ember, with PWR_EN low (R648)
  (∀ (s : State), (s.dev.pins.pwrgd = true ∧ s.dev.pins.pwrEn = false) → Runs (.pwrgdFall) s (fun e => e.pins.pwrgd = false ∧
    Keeps s.dev e (fun _ => False) ∧ SameUnits s.dev e)) ∧
  -- VDD_AON_VALID (R646, R647, R649)
  (∀ (s : State), (s.dev.pins.pwrEn = false ∧ s.dev.pwr.asleep ≠ 2) → Runs (.vddAonValid) s (fun e => e.pins.pwrEn = true ∧
    e.pins.vid0 = 44 ∧ e.pins.vid1 = 44 ∧ Keeps s.dev e (fun _ => False) ∧ SameUnits s.dev e)) ∧
  -- VDD_AON_REMOVAL (R587, R655)
  (∀ (s : State), Runs (.vddAonRemoval) s (fun e => e.pins.pwrEn = false ∧ e.pins.pwrgd = false ∧ e.pins.thermtrip = false ∧
    e.pwr.sram = [] ∧ (∀ a, ¬ FollowReg a → e.rg a = (regReset a).toNat) ∧ e.car.keepCfg = s.dev.car.keepCfg ∧ e.car.partRec =
    s.dev.car.partRec ∧ e.car.journal = s.dev.car.journal ∧ e.cal.kept = s.dev.cal.kept))

/-- MUTE_SET sets cause bit 7 of the partitions it names and no other's; MUTE_CLEAR clears the bits it names but bit 0, or is
  BUSY while one is held; CHOKE stops and marks them; PART_SCRUB of a Choked partition zeroes its memories and leaves it IDLE.
  FENCE of a core begins the fence and waits (BUSY while its partition is IDLE and a spare is to take over), of a unit lists it
  and Chokes the owner. FAULT_CONFIG, GPIO_SAFE and SPARE_RESERVE store what they carry; FAULT_STATUS and FENCE_LIST answer it.
  -/
def Obligations.FaultCommands : Prop :=
  -- FAULT_STATUS (R619)
  (∀ (s : State) (h : Hdr) (pl : List Byte), Accepted s.dev cFaultStatus h pl → Runs (.faultStatus h pl) s (fun e => Answered
    s.dev e 0x0C01 h .ok ((if h.func = 0 then s.dev.regBytes FLT_STAT 8 else zeros 32) ++ ((upTo 16).map (fun p => leBytes 4 (if
    h.func = 0 ∨ h.func = p then s.dev.rg (FLT_PMUTE p) else 0))).flatten) ∧ Keeps s.dev e (fun a => BookReg a) ∧ SameUnits
    s.dev e)) ∧
  -- MUTE_SET (R603, R619)
  (∀ (s : State) (h : Hdr) (pl : List Byte) (ps : List Nat), Accepted s.dev cMuteSet h pl → (ps = maskBits 16 (leAt pl 0 2) ∧ ps
    ≠ []) → (h.func ≠ 0 → ∀ p, p ∈ ps → p = h.func) → Runs (.muteSet h pl) s (fun e => (∀ p, p ∈ ps → e.muted p = true ∧ e.flag
    (FLT_PMUTE p) 7 = true ∧ e.flag (FLT_PMUTE p) 8 = true ∧ e.fld (FLT_PMUTE p) 16 16 = 0x10E) ∧ (∀ p, p < 16 → p ∉ ps → e.fld
    (FLT_PMUTE p) 0 8 = s.dev.fld (FLT_PMUTE p) 0 8 ∧ e.choked p = s.dev.choked p) ∧ AnsweredLast e 0x0C02 h .ok [] ∧ SameMem
    s.dev e)) ∧
  -- MUTE_SET of another function's partition (R619)
  (∀ (s : State) (h : Hdr) (pl : List Byte), Accepted s.dev cMuteSet h pl → (h.func ≠ 0 ∧ (∃ p, p ∈ maskBits 16 (leAt pl 0 2) ∧
    p ≠ h.func)) → Runs (.muteSet h pl) s (fun e => Answered s.dev e 0x0C02 h .denied [] ∧ Keeps s.dev e (fun a => BookReg a) ∧
    SameUnits s.dev e)) ∧
  -- MUTE_CLEAR (R604)
  (∀ (s : State) (h : Hdr) (pl : List Byte) (ps : List Nat), Accepted s.dev cMuteClear h pl → ps = maskBits 16 (leAt pl 0 2) →
    (h.func ≠ 0 → (∀ p, p ∈ ps → p = h.func) ∧ byteAt pl 2 &&& 0x2C = 0) → (∀ p, p ∈ ps → s.dev.muteHeld p (byteAt pl 2) =
    false) → Runs (.muteClear h pl) s (fun e => (∀ p, p ∈ ps → ∀ k, k < 8 → e.flag (FLT_PMUTE p) k = (s.dev.flag (FLT_PMUTE p) k
    && (! bitAt (byteAt pl 2) k || k == 0))) ∧ (∀ p, p < 16 → p ∉ ps → e.fld (FLT_PMUTE p) 0 8 = s.dev.fld (FLT_PMUTE p) 0 8) ∧
    Answered s.dev e 0x0C03 h .ok (leBytes 2 (partMask (ps.filter e.muted)) ++ zeros 6) ∧ Keeps s.dev e (fun a => BookReg a) ∧
    SameUnits s.dev e)) ∧
  -- MUTE_CLEAR of a bit that is held (R604)
  (∀ (s : State) (h : Hdr) (pl : List Byte) (ps : List Nat) (p : Nat), Accepted s.dev cMuteClear h pl → ps = maskBits 16 (leAt
    pl 0 2) → (h.func ≠ 0 → (∀ p, p ∈ ps → p = h.func) ∧ byteAt pl 2 &&& 0x2C = 0) → (p ∈ ps ∧ s.dev.muteHeld p (byteAt pl 2) =
    true) → Runs (.muteClear h pl) s (fun e => Answered s.dev e 0x0C03 h .busy (leBytes 2 (partMask (ps.filter s.dev.muted)) ++
    zeros 6) ∧ Keeps s.dev e (fun a => BookReg a) ∧ SameUnits s.dev e)) ∧
  -- CHOKE (R606)
  (∀ (s : State) (h : Hdr) (pl : List Byte) (ps : List Nat), Accepted s.dev cChoke h pl → ps = maskBits 16 (leAt pl 0 2) →
    (h.func ≠ 0 → ∀ p, p ∈ ps → p = h.func) → Runs (.choke h pl) s (fun e => (∀ p, p ∈ ps → e.choked p = true ∧ e.bstate p = 4 ∧
    e.muted p = true ∧ e.flag (FLT_PMUTE p) 7 = true) ∧ (∀ p, p < 16 → p ∉ ps → e.choked p = s.dev.choked p ∧ e.bstate p =
    s.dev.bstate p) ∧ AnsweredLast e 0x0C04 h .ok [] ∧ MemKeeps s.dev e (fun a => ∃ r, r < 16 ∧ InBuffer r a))) ∧
  -- PART_SCRUB of a Choked partition (R474, R607)
  (∀ (s : State) (h : Hdr) (pl : List Byte), Accepted s.dev cPartScrub h pl → s.dev.choked h.part = true → Runs (.partScrub h
    pl) s (fun e => e.choked h.part = false ∧ e.bstate h.part = 0 ∧ e.flag (FLT_PMUTE h.part) 7 = false ∧ (∀ r a, r ∈
    s.dev.regionsOf h.part → (InCommons r a ∨ InBuffer r a) → e.mem.read a = 0#8) ∧ (∀ q a, q ∈ s.dev.sitesOf h.part → InStore q
    a → e.mem.read a = 0#8) ∧ Answered s.dev e 0x0C05 h .ok [])) ∧
  -- PART_SCRUB of another (R619)
  (∀ (s : State) (h : Hdr) (pl : List Byte), Accepted s.dev cPartScrub h pl → s.dev.choked h.part = false → Runs (.partScrub h
    pl) s (fun e => Answered s.dev e 0x0C05 h .busy [] ∧ Keeps s.dev e (fun a => BookReg a) ∧ SameUnits s.dev e)) ∧
  -- FENCE of a core (R608, R609)
  (∀ (s : State) (h : Hdr) (pl : List Byte) (n q : Nat), Accepted s.dev cFence h pl → (n = leAt pl 0 2 ∧ n < 256 ∧ byteAt pl 2 =
    0 ∧ byteAt pl 3 < 2) → (s.dev.physOf n = some q ∧ s.dev.fence = none ∧ s.dev.fenceList.length < 256) → ((s.dev.spares (n /
    16)).isEmpty = true ∨ s.dev.entryFree n = true ∨ (s.dev.logPart n).any s.dev.running = true) → Runs (.fence h pl) s (fun e
    => e.fence.map (fun f => (f.core, f.failed, f.spare, f.noResume, f.committed)) = some (n, q, ((s.dev.spares (n /
    16)).head?).map (16 * (n / 16) + ·), byteAt pl 3 == 1, false) ∧ e.flag FLT_STAT 3 = true ∧ (e.car.waiting.getLast?.map (fun
    w => (w.what, w.hdr))) = some (.fence n, h) ∧ SameMem s.dev e)) ∧
  -- FENCE of a core with a spare whose partition is IDLE (R35)
  (∀ (s : State) (h : Hdr) (pl : List Byte) (n q : Nat), Accepted s.dev cFence h pl → (n = leAt pl 0 2 ∧ n < 256 ∧ byteAt pl 2 =
    0 ∧ byteAt pl 3 < 2) → (s.dev.physOf n = some q ∧ s.dev.fence = none ∧ s.dev.fenceList.length < 256) → ((s.dev.spares (n /
    16)).isEmpty = false ∧ s.dev.entryFree n = false ∧ (s.dev.logPart n).any s.dev.running = false) → Runs (.fence h pl) s (fun
    e => Answered s.dev e 0x0C06 h .busy [] ∧ Keeps s.dev e (fun a => BookReg a) ∧ SameUnits s.dev e)) ∧
  -- FENCE of a core whose remap entry is invalid (R619)
  (∀ (s : State) (h : Hdr) (pl : List Byte) (n : Nat), Accepted s.dev cFence h pl → (n = leAt pl 0 2 ∧ n < 256 ∧ byteAt pl 2 = 0
    ∧ byteAt pl 3 < 2) → s.dev.physOf n = none → Runs (.fence h pl) s (fun e => Answered s.dev e 0x0C06 h .fenced [] ∧ Keeps
    s.dev e (fun a => BookReg a) ∧ SameUnits s.dev e)) ∧
  -- FENCE of a T-core or an S-core (R610)
  (∀ (s : State) (h : Hdr) (pl : List Byte) (r u p : Nat), Accepted s.dev cFence h pl → (r = leAt pl 0 2 ∧ r < 16 ∧ u = byteAt
    pl 2 ∧ (u = 1 ∨ u = 2) ∧ byteAt pl 3 < 2) → (s.dev.fenceList.length < 256 ∧ s.dev.regPart r = some p) → Runs (.fence h pl) s
    (fun e => e.fenceList.contains (u, r, 0) = true ∧ e.choked p = true ∧ AnsweredLast e 0x0C06 h .ok (zeros 8))) ∧
  -- FENCE_LIST (R619)
  (∀ (s : State) (h : Hdr) (pl : List Byte), Accepted s.dev cFenceList h pl → Fits s.dev h (8 + 4 * s.dev.fenceList.length) →
    Runs (.fenceList h pl) s (fun e => Answered s.dev e 0x0C07 h .ok (leBytes 2 s.dev.fenceList.length ++ zeros 6 ++
    (s.dev.fenceList.map (fun x => leBytes 1 x.1 ++ leBytes 1 x.2.1 ++ leBytes 1 x.2.2 ++ zeros 1)).flatten) ∧ Keeps s.dev e
    (fun a => BookReg a) ∧ SameUnits s.dev e)) ∧
  -- FENCE_CLEAR (R610, R619)
  (∀ (s : State) (h : Hdr) (pl : List Byte), Accepted s.dev cFenceClear h pl → Runs (.fenceClear h pl) s (fun e => e.fenceList =
    [] ∧ (∀ q, q < 256 → e.siteFenced q = s.dev.siteFenced q) ∧ Answered s.dev e 0x0C08 h .ok [] ∧ Keeps s.dev e (fun a =>
    BookReg a) ∧ SameUnits s.dev e)) ∧
  -- FAULT_CONFIG (R600, R617, R619)
  (∀ (s : State) (h : Hdr) (pl : List Byte), Accepted s.dev cFaultConfig h pl → (byteAt pl 0 < 2 ∧ byteAt pl 1 ≠ 0 ∧ (∀ k, k <
    11 → byteAt pl (8 + k) ≤ 2)) → Runs (.faultConfig h pl) s (fun e => e.flag FLT_CFG 31 = (byteAt pl 0 == 1) ∧ e.fld FLT_CFG
    16 8 = byteAt pl 1 ∧ e.fld FLT_CFG 8 8 = byteAt pl 2 ∧ e.fld FLT_CFG 0 8 = byteAt pl 3 ∧ e.rg FLT_MUTEOUT = leAt pl 4 2 ∧ (∀
    k, k < 11 → e.rg (FLT_ACT k) = byteAt pl (8 + k)) ∧ Answered s.dev e 0x0C09 h .ok [] ∧ Keeps s.dev e (fun a => BookReg a ∨ a
    = FLT_CFG ∨ a = FLT_MUTEOUT ∨ ∃ k, k < 11 ∧ a = FLT_ACT k) ∧ SameUnits s.dev e)) ∧
  -- GPIO_SAFE (R616, R619)
  (∀ (s : State) (h : Hdr) (pl : List Byte), Accepted s.dev cGpioSafe h pl → (byteAt pl 0 < 16 ∧ byteAt pl 1 < 2 ∧ byteAt pl 2 <
    16 ∧ byteAt pl 3 < 4) → Runs (.gpioSafe h pl) s (fun e => e.flag (FLT_GSAFE (byteAt pl 0)) 8 = (byteAt pl 1 == 1) ∧ e.fld
    (FLT_GSAFE (byteAt pl 0)) 4 4 = byteAt pl 2 ∧ e.fld (FLT_GSAFE (byteAt pl 0)) 0 2 = byteAt pl 3 ∧ Answered s.dev e 0x0C0A h
    .ok [] ∧ Keeps s.dev e (fun a => BookReg a ∨ a = FLT_GSAFE (byteAt pl 0)) ∧ SameUnits s.dev e)) ∧
  -- SPARE_RESERVE (R611)
  (∀ (s : State) (h : Hdr) (pl : List Byte) (rs : List Nat), Accepted s.dev cSpareReserve h pl → (rs = maskBits 16 (leAt pl 0 2)
    ∧ byteAt pl 2 < 4) → (∀ r, r ∈ rs → min (s.dev.goodSites r).length (s.dev.usable - byteAt pl 2) ≠ 0) → Runs (.spareReserve h
    pl) s (fun e => (∀ r, r ∈ rs → e.fld FLT_RESERVE (2 * r) 2 = byteAt pl 2 ∧ e.reserve r = byteAt pl 2) ∧ (∀ r, r ∈ rs →
    s.dev.regPart r = none → ∀ i, i < 16 → e.physOf (16 * r + i) = (e.mapSite r i).map (16 * r + ·)) ∧ Answered s.dev e 0x0C0B h
    .ok [] ∧ Keeps s.dev e (fun a => BookReg a ∨ a = FLT_RESERVE ∨ ∃ k, k < 18 ∧ ∃ n, n < 256 ∧ a = remapAt k n) ∧ SameUnits
    s.dev e))

/-- A core that alone keeps its region from FINAL for HANGBEATS beats is queued to be fenced; a fence copies the core's store
  and engines to the spare, then commits: every router copy of the entry names the spare and the failed site is listed; while
  the partition is IDLE it waits. A Muffle that takes too long is a Choke. Router copies that differ from Carillon's reference
  are rewritten. A waiting alarm leaves in a later microsecond. A failed bridge Chokes the partitions of die 1. EXTEST, CLAMP
  and HIGHZ Choke every partition. -/
def Obligations.FaultEngines : Prop :=
  -- HANG_DETECT at the threshold with AUTOFENCE (R608)
  (∀ (s : State) (q n : Nat), (q < 256 ∧ s.dev.fld FLT_CFG 0 8 ≤ (s.dev.core q).hang ∧ 0 < (s.dev.core q).hang) → (s.dev.logOf q
    = some n ∧ s.dev.flag FLT_CFG 31 = true) → Runs (.hangDetect q) s (fun e => (e.core q).hang = 0 ∧ e.failedQ.any (fun x =>
    x.1 == n) = true ∧ Keeps s.dev e (fun a => NoteReg a))) ∧
  -- HANG_DETECT below the threshold (R608)
  (∀ (s : State) (q : Nat), (s.dev.core q).hang < s.dev.fld FLT_CFG 0 8 → Runs (.hangDetect q) s (fun e => Keeps s.dev e (fun _
    => False) ∧ SameUnits s.dev e)) ∧
  -- FENCING that takes up the next failed core (R609)
  (∀ (s : State) (n q : Nat) (b : Bool) (rest : List (Nat × Bool)), (s.dev.fence = none ∧ s.dev.failedQ = (n, b) :: rest ∧ n <
    256 ∧ s.dev.physOf n = some q) → Runs (.fencing) s (fun e => e.fence.map (fun f => (f.core, f.failed, f.spare, f.noResume,
    f.committed)) = some (n, q, ((s.dev.spares (n / 16)).head?).map (16 * (n / 16) + ·), b, false) ∧ e.flag FLT_STAT 3 = true ∧
    SameMem s.dev e)) ∧
  -- FENCING with no spare left (R55, R609)
  (∀ (s : State) (f : Fence), (s.dev.fence = some f ∧ s.dev.fenceRuns f = false ∧ f.spare = none) → Runs (.fencing) s (fun e =>
    e.fence = none ∧ e.flag FLT_STAT 3 = false ∧ (∀ n, n < 256 → e.physOf n = s.dev.physOf n) ∧ SameMem s.dev e)) ∧
  -- FENCING that copies a core with no uncorrectable word (R609)
  (∀ (s : State) (f : Fence) (q : Nat), (s.dev.fence = some f ∧ s.dev.fenceRuns f = false ∧ f.spare = some q ∧ f.committed =
    false ∧ s.dev.entryFree f.core = true) → (f.core < 256 ∧ f.failed < 256 ∧ q < 256 ∧ q ≠ f.failed ∧ s.dev.ecc = []) → Runs
    (.fencing) s (fun e => e.fence = some { f with committed := true, zeroed := 0 } ∧ (∀ i, i < 0x300000 → e.mem.read (csBase q
    + i) = s.dev.mem.read (csBase f.failed + i)) ∧ MemKeeps s.dev e (fun a => csBase q ≤ a ∧ a < csBase q + 0x300000) ∧ (e.core
    q).profiles = (s.dev.core f.failed).profiles ∧ (e.core q).rules = (s.dev.core f.failed).rules ∧ (e.core q).active =
    (s.dev.core f.failed).active ∧ (e.core q).gen = (s.dev.core f.failed).gen ∧ e.rg (NEU_CFG q) % 2 ^ 32 = s.dev.rg (NEU_CFG
    f.failed) % 2 ^ 32 ∧ RegKeeps s.dev e (fun a => nBase q ≤ a ∧ a < nBase q + 0x10000))) ∧
  -- FENCING that commits, with NORESUME (R35, R609, R610)
  (∀ (s : State) (f : Fence) (q : Nat), (s.dev.fence = some f ∧ s.dev.fenceRuns f = false ∧ f.spare = some q ∧ f.committed =
    true ∧ f.noResume = true ∧ s.dev.entryFree f.core = true) → (f.core < 256 ∧ f.failed < 256 ∧ q < 256 ∧ q / 16 = f.core / 16
    ∧ s.dev.fenceList.length < 256) → Runs (.fencing) s (fun e => (∀ k, k < 18 → e.rg (remapAt k f.core) = 2 ^ 31 + q) ∧
    e.physOf f.core = some q ∧ e.siteFenced f.failed = true ∧ e.flag (FLT_FENCED (f.failed / 32)) (f.failed % 32) = true ∧
    e.fence = none ∧ e.flag FLT_STAT 3 = false ∧ e.rg FLT_FENCECNT = satInc (s.dev.rg FLT_FENCECNT) 1 % 2 ^ 32 ∧ SameMem s.dev
    e)) ∧
  -- FENCING with a spare while the partition is IDLE: the entry may not change yet (R35)
  (∀ (s : State) (f : Fence), (s.dev.fence = some f ∧ s.dev.fenceRuns f = false ∧ f.spare.isSome = true ∧ s.dev.entryFree f.core
    = false) → Runs (.fencing) s (fun e => e.fence = some f ∧ Keeps s.dev e (fun _ => False) ∧ SameUnits s.dev e)) ∧
  -- FENCE_WAIT_EXPIRY (R55, R609)
  (∀ (s : State) (f : Fence) (p : Nat), (s.dev.fence = some f ∧ s.dev.logPart f.core = some p ∧ s.dev.running p = true ∧
    s.dev.fld FLT_CFG 8 8 ≤ f.waitBeats) → Runs (.fenceWaitExpiry) s (fun e => e.choked p = true ∧ e.bstate p = 4 ∧ e.flag
    (FLT_PMUTE p) 7 = true ∧ MemKeeps s.dev e (fun a => ∃ r, r < 16 ∧ InBuffer r a))) ∧
  -- REMAP_COMPARE with no fence record (R36)
  (∀ (s : State), s.dev.fence = none → Runs (.remapCompare) s (fun e => (∀ n, n < 256 → ∀ k, k < 18 → e.rg (remapAt k n) % 2 ^
    32 = s.dev.remapRef n % 2 ^ 32) ∧ (∀ n, n < 256 → e.remapRef n = s.dev.remapRef n) ∧ Keeps s.dev e (fun a => NoteReg a ∨ ∃
    k, k < 18 ∧ ∃ n, n < 256 ∧ a = remapAt k n) ∧ SameUnits s.dev e)) ∧
  -- ALARM_PACING at the root, where the alarm ends (R251, R602)
  (∀ (s : State) (x : Alarm), (s.dev.alarmQ = some x ∧ s.dev.alarmUs ≠ some (s.dev.time / 400)) → s.dev.route 0 (s.dev.rootId %
    512) 3 0 = none → Runs (.alarmPacing) s (fun e => e.alarmQ = none ∧ e.alarmUs = some (s.dev.time / 400) ∧ e.oports =
    s.dev.oports ∧ e.rg FLT_ALARMSENT = satInc (s.dev.rg FLT_ALARMSENT) 1 % 2 ^ 32 ∧ Keeps s.dev e (fun a => a = FLT_ALARMSENT)
    ∧ SameUnits s.dev e)) ∧
  -- ALARM_PACING onwards, by the link its route names (R251, R602)
  (∀ (s : State) (x : Alarm) (dim dir dl o : Nat), (s.dev.alarmQ = some x ∧ s.dev.alarmUs ≠ some (s.dev.time / 400)) →
    s.dev.route 0 (s.dev.rootId % 512) 3 0 = some (dim, dir, dl) → (Carries s.dev dim dir o ∧ dim < 2) → s.dev.flag FLT_STAT 4 =
    false → (s.dev.oport o).queue.find? (fun w => w.vc == 0 && c0Kind w.data == 2) = none → Runs (.alarmPacing) s (fun e =>
    e.alarmQ = none ∧ e.alarmUs = some (s.dev.time / 400) ∧ e.rg FLT_ALARMSENT = satInc (s.dev.rg FLT_ALARMSENT) 1 % 2 ^ 32 ∧
    SentOn e o (c0Flit 2 s.dev.rootId s.dev.devId x.bytes) ∧ Keeps s.dev e (fun a => LinkReg a ∨ a = FLT_ALARMSENT) ∧ SameUnits
    s.dev e)) ∧
  -- ALARM_PACING in the microsecond of the last flit (R602)
  (∀ (s : State), s.dev.alarmUs = some (s.dev.time / 400) → Runs (.alarmPacing) s (fun e => e.alarmQ = s.dev.alarmQ ∧ e.alarmUs
    = s.dev.alarmUs ∧ Keeps s.dev e (fun _ => False) ∧ SameUnits s.dev e)) ∧
  -- BRIDGE_FAILURE (R614, R615)
  (∀ (s : State) (q n : Nat), q < 8 → Runs (.bridgeFailure q n) s (fun e => e.flag FLT_STAT 4 = true ∧ e.pins.alarm = true ∧ (∀
    p, p ∈ s.dev.allParts → (s.dev.regionsOf p).any (8 ≤ ·) = true → e.choked p = true ∧ e.muted p = true ∧ e.bstate p = 4) ∧ (∀
    p, p < 16 → (s.dev.regionsOf p).any (8 ≤ ·) = false → e.choked p = s.dev.choked p ∧ e.bstate p = s.dev.bstate p) ∧ (e.oport
    8).queue = [] ∧ (e.oport 9).queue = [] ∧ (∀ k, k < 10 → (s.dev.oport k).queue = []) → s.dev.route 0 (s.dev.rootId % 512) 3 0
    = none → e.rg (FAB_PDISC (q / 4) (q % 4)) = satInc (s.dev.rg (FAB_PDISC (q / 4) (q % 4))) n % 2 ^ 32 ∧ MemKeeps s.dev e (fun
    a => ∃ r, r < 16 ∧ InBuffer r a))) ∧
  -- JTAG_INSTRUCTION_LOAD of IDCODE, BYPASS or SAMPLE/PRELOAD (R652; numbers: log entry 21)
  (∀ (s : State) (i : Nat), i < 3 → Runs (.jtagInstructionLoad i) s (fun e => e.pins.tap = i ∧ Keeps s.dev e (fun _ => False) ∧
    SameUnits s.dev e)) ∧
  -- JTAG_INSTRUCTION_LOAD of EXTEST, CLAMP or HIGHZ with STRAP_DBG high (R652; numbers: log entry 21)
  (∀ (s : State) (i : Nat), (3 ≤ i ∧ i ≤ 5 ∧ s.dev.pins.pwrgd = true ∧ bitAt s.dev.pins.straps 4 = true) → Runs
    (.jtagInstructionLoad i) s (fun e => e.pins.tap = i ∧ (∀ p, p ∈ s.dev.allParts → e.choked p = true ∧ e.bstate p = 4) ∧
    MemKeeps s.dev e (fun a => ∃ r, r < 16 ∧ InBuffer r a))) ∧
  -- JTAG_INSTRUCTION_LOAD of EXTEST, CLAMP or HIGHZ with STRAP_DBG low while PWRGD is high (R652; numbers: log entry 21)
  (∀ (s : State) (i : Nat), (3 ≤ i ∧ i ≤ 5 ∧ s.dev.pins.pwrgd = true ∧ bitAt s.dev.pins.straps 4 = false) → Runs
    (.jtagInstructionLoad i) s (fun e => e.pins.tap = 1 ∧ Keeps s.dev e (fun _ => False) ∧ SameUnits s.dev e)) ∧
  -- TAP_RESET (R652)
  (∀ (s : State), Runs (.tapReset) s (fun e => e.pins.tap = 0 ∧ Keeps s.dev e (fun _ => False) ∧ SameUnits s.dev e))

/-- OBS_READ answers the counters of a core, a region, a partition or the device that the issuer may see; OBS_CONTROL freezes or
  releases the partition's counters at the next tick, or clears them; TRACE_CONFIG sets every field of the trace's configuration
  and the vote for its domain, or is BUSY where it would change MODE while enabled; TRACE_STATUS answers the registers;
  TRACE_MARK puts a MARK record of the 64 bits into the FIFO of die 0. -/
def Obligations.ObservationCommands : Prop :=
  -- OBS_READ of a core (R623, R635)
  (∀ (s : State) (h : Hdr) (pl : List Byte) (q : Nat), Accepted s.dev cObsRead h pl → (byteAt pl 0 = 0 ∧ leAt pl 2 2 < 256 ∧
    (h.func = 0 ∨ s.dev.owns h.part (leAt pl 2 2 / 16) = true) ∧ s.dev.physOf (leAt pl 2 2) = some q) → Runs (.obsRead h pl) s
    (fun e => Answered s.dev e 0x0D01 h .ok (s.dev.regBytes (OBS_BUSY_LO q 0) 96) ∧ Keeps s.dev e (fun a => BookReg a) ∧
    SameUnits s.dev e)) ∧
  -- OBS_READ of a region (R623, R635)
  (∀ (s : State) (h : Hdr) (pl : List Byte), Accepted s.dev cObsRead h pl → (byteAt pl 0 = 1 ∧ leAt pl 2 2 < 16 ∧ (h.func = 0 ∨
    s.dev.owns h.part (leAt pl 2 2) = true)) → Runs (.obsRead h pl) s (fun e => Answered s.dev e 0x0D01 h .ok (s.dev.regBytes
    (OBS_TSTALL_LO (leAt pl 2 2)) 12) ∧ Keeps s.dev e (fun a => BookReg a) ∧ SameUnits s.dev e)) ∧
  -- OBS_READ of a partition (R623, R635)
  (∀ (s : State) (h : Hdr) (pl : List Byte), Accepted s.dev cObsRead h pl → (byteAt pl 0 = 2 ∧ leAt pl 2 2 < 16 ∧ (h.func = 0 ∨
    h.part = leAt pl 2 2)) → Runs (.obsRead h pl) s (fun e => Answered s.dev e 0x0D01 h .ok (s.dev.regBytes (OBS_PCTL (leAt pl 2
    2)) 8) ∧ Keeps s.dev e (fun a => BookReg a) ∧ SameUnits s.dev e)) ∧
  -- OBS_READ of the device (R623, R635)
  (∀ (s : State) (h : Hdr) (pl : List Byte), Accepted s.dev cObsRead h pl → byteAt pl 0 = 3 → Runs (.obsRead h pl) s (fun e =>
    Answered s.dev e 0x0D01 h (if h.func = 0 then .ok else .denied) (if h.func = 0 then s.dev.regBytes OBS_DSPIKE_LO 4 else [])
    ∧ Keeps s.dev e (fun a => BookReg a) ∧ SameUnits s.dev e)) ∧
  -- OBS_CONTROL that freezes or releases (R622, R635)
  (∀ (s : State) (h : Hdr) (pl : List Byte), Accepted s.dev cObsControl h pl → byteAt pl 0 < 2 → Runs (.obsControl h pl) s (fun
    e => e.flag (OBS_PCTL h.part) 0 = (byteAt pl 0 == 0) ∧ Answered s.dev e 0x0D02 h .ok (leBytes 8 e.time) ∧ Keeps s.dev e (fun
    a => BookReg a ∨ TickReg a ∨ a = OBS_PCTL h.part) ∧ SameUnits s.dev e)) ∧
  -- OBS_CONTROL that clears (R622, R635)
  (∀ (s : State) (h : Hdr) (pl : List Byte), Accepted s.dev cObsControl h pl → byteAt pl 0 = 2 → Runs (.obsControl h pl) s (fun
    e => (∀ k, k < 6 → e.rg (OBS_PSPIKE_LO h.part + 4 * k) = 0) ∧ (∀ r, r ∈ s.dev.regionsOf h.part → (∀ k, k < 10 → e.rg
    (OBS_TSTALL_LO r + 4 * k) = 0) ∧ e.rg (TCR_BUSY_LO r) = 0 ∧ e.rg (TCR_BUSY_HI r) = 0) ∧ (∀ r, r ∈ s.dev.regionsOf h.part → ∀
    j, j < 16 → ∀ u, u < 3 → e.rg64 (OBS_BUSY_LO (16 * r + j) u) = 0 ∧ e.rg64 (OBS_STALL_LO (16 * r + j) u) = 0 ∧ ∀ k, k < 15 →
    e.rg (OBS_RSN (16 * r + j) u (k + 1)) = 0) ∧ Answered s.dev e 0x0D02 h .ok (leBytes 8 e.time) ∧ Keeps s.dev e (fun a =>
    BookReg a ∨ TickReg a ∨ (0xD2000 ≤ a ∧ a < 0xD3000) ∨ ∃ r, r < 16 ∧ s.dev.owns h.part r = true ∧ (a = TCR_BUSY_LO r ∨ a =
    TCR_BUSY_HI r ∨ (OBS_TSTALL_LO r ≤ a ∧ a < OBS_TSTALL_LO r + 40) ∨ ∃ j, j < 16 ∧ nBase (16 * r + j) + 0x5000 ≤ a ∧ a < nBase
    (16 * r + j) + 0x6000)) ∧ SameUnits s.dev e)) ∧
  -- TRACE_CONFIG (R627, R630, R631, R635)
  (∀ (s : State) (h : Hdr) (pl : List Byte), Accepted s.dev cTraceConfig h pl → (byteAt pl 0 < 2 ∧ byteAt pl 1 < 2 ∧ leAt pl 8 2
    < 0x8000 ∧ leAt pl 10 2 < 0x8000 ∧ byteAt pl 12 < 16) → (1 ≤ leAt pl 14 2 ∧ leAt pl 14 2 ≤ 390) → (s.dev.flag OBS_TCTL 0 =
    true → s.dev.flag OBS_TCTL 1 = (byteAt pl 1 == 1)) → Runs (.traceConfig h pl) s (fun e => e.flag OBS_TCTL 0 = (byteAt pl 0
    == 1) ∧ e.flag OBS_TCTL 1 = (byteAt pl 1 == 1) ∧ e.rg OBS_TSRC = leAt pl 2 2 ∧ e.rg OBS_TPMASK = leAt pl 4 2 ∧ e.rg OBS_TCAP
    = leAt pl 14 2 ∧ e.rg OBS_TSAMPLE = byteAt pl 12 ∧ e.fld OBS_TCORE 0 8 = byteAt pl 6 ∧ e.fld OBS_TCORE 8 8 = byteAt pl 7 ∧
    e.fld OBS_TNEURON 0 15 = leAt pl 8 2 ∧ e.fld OBS_TNEURON 16 15 = leAt pl 10 2 ∧ e.vote cliPolicy domTrace = (if byteAt pl 0
    = 1 then 2 else 0) ∧ Answered s.dev e 0x0D03 h .ok [] ∧ Keeps s.dev e (fun a => BookReg a ∨ (0xD0000 ≤ a ∧ a < 0xD0020) ∨ a
    = PWR_VON cliPolicy 3 ∨ a = PWR_VRET cliPolicy 3) ∧ SameUnits s.dev e)) ∧
  -- TRACE_CONFIG that would change MODE while the trace is enabled (R627, R635)
  (∀ (s : State) (h : Hdr) (pl : List Byte), Accepted s.dev cTraceConfig h pl → (byteAt pl 0 < 2 ∧ byteAt pl 1 < 2 ∧ leAt pl 8 2
    < 0x8000 ∧ leAt pl 10 2 < 0x8000 ∧ byteAt pl 12 < 16) → (1 ≤ leAt pl 14 2 ∧ leAt pl 14 2 ≤ 390) → (s.dev.flag OBS_TCTL 0 =
    true ∧ s.dev.flag OBS_TCTL 1 ≠ (byteAt pl 1 == 1)) → Runs (.traceConfig h pl) s (fun e => Answered s.dev e 0x0D03 h .busy []
    ∧ Keeps s.dev e (fun a => BookReg a) ∧ SameUnits s.dev e)) ∧
  -- TRACE_STATUS (R635)
  (∀ (s : State) (h : Hdr) (pl : List Byte), Accepted s.dev cTraceStatus h pl → Runs (.traceStatus h pl) s (fun e => Answered
    s.dev e 0x0D04 h .ok (s.dev.regBytes OBS_TCTL 12) ∧ Keeps s.dev e (fun a => BookReg a) ∧ SameUnits s.dev e)) ∧
  -- TRACE_MARK that passes the filters and finds room (R625, R635)
  (∀ (s : State) (h : Hdr) (pl : List Byte), Accepted s.dev cTraceMark h pl → (s.dev.flag OBS_TCTL 0 = true ∧ s.dev.flag
    OBS_TSRC 0x0A = true ∧ s.dev.fld OBS_TSAMPLE 0 4 = 0 ∧ s.dev.pwr.asleep = 0) → (s.dev.traceRoom 0 = true ∧ SMap.get []
    s.dev.trace.held 0 = []) → Runs (.traceMark h pl) s (fun e => (s.dev.traceBytes 0x0A none 0x300 (leBytes 8 (leAt pl 0 8))) ∈
    e.fifo 0 ∧ Answered s.dev e 0x0D05 h .ok [] ∧ Keeps s.dev e (fun a => BookReg a) ∧ SameUnits s.dev e)) ∧
  -- TRACE_MARK while the trace is disabled (R635)
  (∀ (s : State) (h : Hdr) (pl : List Byte), Accepted s.dev cTraceMark h pl → s.dev.flag OBS_TCTL 0 = false → Runs (.traceMark h
    pl) s (fun e => Answered s.dev e 0x0D05 h .busy [] ∧ Keeps s.dev e (fun a => BookReg a) ∧ SameUnits s.dev e))

/-- FREEZE and CLEAR take effect at the next tick; OBS_TCTL's MODE changes only while ENABLE is 0; a write of OBS_TMARK_HI emits
  a MARK record. The lanes start with a SYNC pair and send one each millisecond; the oldest record of a FIFO is sent and
  counted. -/
def Obligations.ObservationRegistersAndPort : Prop :=
  -- OBS_PCTL.FREEZE (R622)
  (∀ (s : State) (f p b : Nat), (p < 16 ∧ (f = 0 ∨ f = p)) → Runs (.obsPctlFreeze f p b) s (fun e => e.flag (OBS_PCTL p) 0 = (b
    == 1) ∧ Keeps s.dev e (fun a => TickReg a ∨ a = OBS_PCTL p) ∧ SameUnits s.dev e)) ∧
  -- OBS_PCTL.CLEAR (R622)
  (∀ (s : State) (f p : Nat), (p < 16 ∧ (f = 0 ∨ f = p)) → Runs (.obsPctlClear f p) s (fun e => (∀ k, k < 6 → e.rg
    (OBS_PSPIKE_LO p + 4 * k) = 0) ∧ (∀ r, r ∈ s.dev.regionsOf p → (∀ k, k < 10 → e.rg (OBS_TSTALL_LO r + 4 * k) = 0) ∧ e.rg
    (TCR_BUSY_LO r) = 0 ∧ e.rg (TCR_BUSY_HI r) = 0) ∧ SameMem s.dev e ∧ SameUnits s.dev e)) ∧
  -- OBS_PCTL of another's partition (R623, R657)
  (∀ (s : State) (f p : Nat), (f ≠ 0 ∧ f ≠ p) → Runs (.obsPctlClear f p) s (fun e => e.rg FLT_ADDRERR = satInc (s.dev.rg
    FLT_ADDRERR) 1 % 2 ^ 32 ∧ Keeps s.dev e (fun a => NoteReg a) ∧ SameUnits s.dev e)) ∧
  -- OBS_TMARK_HI_WRITE that passes the filters and finds room (R625, R633)
  (∀ (s : State) (v : Nat), (s.dev.flag OBS_TCTL 0 = true ∧ s.dev.flag OBS_TSRC 0x0A = true ∧ s.dev.fld OBS_TSAMPLE 0 4 = 0 ∧
    s.dev.pwr.asleep = 0) → (s.dev.traceRoom 0 = true ∧ SMap.get [] s.dev.trace.held 0 = []) → Runs (.obsTmarkHiWrite 0 v) s
    (fun e => e.fifo 0 = s.dev.fifo 0 ++ [s.dev.traceBytes 0x0A none 0x300 (leBytes 8 (s.dev.trace.mark + v % 2 ^ 32 * 2 ^ 32))]
    ∧ Keeps s.dev e (fun a => a = OBS_TFIFO) ∧ SameUnits s.dev e)) ∧
  -- OBS_TCTL_WRITE (R627, R630)
  (∀ (s : State) (v : Nat), Runs (.obsTctlWrite 0 v) s (fun e => e.flag OBS_TCTL 0 = bitAt v 0 ∧ e.flag OBS_TCTL 1 = (if
    s.dev.flag OBS_TCTL 0 then s.dev.flag OBS_TCTL 1 else bitAt v 1) ∧ (s.dev.flag OBS_TCTL 0 = true → s.dev.flag OBS_TCTL 1 ≠
    bitAt v 1 → e.flag OBS_TSTAT 3 = true) ∧ e.vote cliPolicy domTrace = (if bitAt v 0 then 2 else 0) ∧ Keeps s.dev e (fun a =>
    a = OBS_TCTL ∨ a = OBS_TSTAT ∨ a = PWR_VON cliPolicy 3 ∨ a = PWR_VRET cliPolicy 3) ∧ SameUnits s.dev e)) ∧
  -- TRACE_START (R629)
  (∀ (s : State), (s.dev.flag OBS_TCTL 0 = true ∧ s.dev.trace.started = false ∧ s.dev.pwr.asleep = 0) → Runs (.traceStart) s
    (fun e => e.trace.started = true ∧ e.flag OBS_TSTAT 0 = true ∧ e.out = s.dev.out ++ [.trace (s.dev.traceBytes 0x0E none
    0x300 (leBytes 8 s.dev.time)), .trace (s.dev.traceBytes 0x0E none 0x300 (leBytes 8 s.dev.time))] ∧ e.rg64 OBS_TSENT_LO =
    wrap64 (s.dev.rg64 OBS_TSENT_LO) 2 ∧ Keeps s.dev e (fun a => a = OBS_TSTAT ∨ a = OBS_TSENT_LO ∨ a = OBS_TSENT_HI) ∧
    SameUnits s.dev e)) ∧
  -- SYNC_PAIR (R629)
  (∀ (s : State), (s.dev.flag OBS_TCTL 0 = true ∧ s.dev.trace.started = true ∧ s.dev.pwr.asleep = 0) → Runs (.syncPair) s (fun e
    => e.out = s.dev.out ++ [.trace (s.dev.traceBytes 0x0E none 0x300 (leBytes 8 s.dev.time)), .trace (s.dev.traceBytes 0x0E
    none 0x300 (leBytes 8 s.dev.time))] ∧ e.rg64 OBS_TSENT_LO = wrap64 (s.dev.rg64 OBS_TSENT_LO) 2 ∧ e.trace.lane = 0 ∧ Keeps
    s.dev e (fun a => a = OBS_TSENT_LO ∨ a = OBS_TSENT_HI) ∧ SameUnits s.dev e)) ∧
  -- TRACE_RECORD_SEND of a record, with nothing dropped or held back on its die (R626, R629)
  (∀ (s : State) (k : Nat) (x : List Byte) (rest : List (List Byte)), (k < 2 ∧ s.dev.fifo k = x :: rest ∧ s.dev.trace.started =
    true ∧ s.dev.pwr.asleep = 0) → (byteAt x 0 ≠ 0x0F ∧ SMap.get 0 s.dev.trace.drop k = 0 ∧ SMap.get [] s.dev.trace.held k = [])
    → Runs (.traceRecordSend k) s (fun e => e.out = s.dev.out ++ [.trace x] ∧ e.fifo k = rest ∧ e.trace.lane = 1 -
    s.dev.trace.lane ∧ e.rg64 OBS_TSENT_LO = wrap64 (s.dev.rg64 OBS_TSENT_LO) 1 ∧ Keeps s.dev e (fun a => a = OBS_TFIFO ∨ a =
    OBS_TSTAT ∨ a = OBS_TSENT_LO ∨ a = OBS_TSENT_HI) ∧ SameUnits s.dev e))

/-- A period below 4,000 ticks (8,000 for a partition that spans devices) or above 400,000,000 ticks: a write of TAB_BPERIOD is
  ignored and sets CFGERR, and BEAT_PERIOD and BEAT_CONFIG complete with DENIED. Of a partition with EXTLOCK set, or at the lead
  of a lockstep span, a period change is accepted only in IDLE or MUFFLED: else the register write is ignored and sets CFGERR,
  and the command completes with BUSY. -/
def Obligations.PeriodLimits : Prop :=
  -- a register write of a period outside its limits
  (∀ (s : State) (f p v : Nat), p < 16 → (f = 0 ∨ f = p) → v < 2 ^ 29 → (v < 4000 ∨ 400000000 < v ∨ (s.dev.flag (TAB_BCTL p) 8 =
    true ∧ v < 8000)) → Runs (.tabBperiodWrite f p v) s (fun e => e.rg (TAB_BPERIOD p) = s.dev.rg (TAB_BPERIOD p) ∧ e.flag
    (TAB_BSTAT p) 5 = true ∧ Keeps s.dev e (fun a => a = TAB_BSTAT p) ∧ SameUnits s.dev e)) ∧
  -- BEAT_PERIOD outside its limits
  (∀ (s : State) (h : Hdr) (pl : List Byte), Accepted s.dev cBeatPeriod h pl → (s.dev.still h.part = true ∨ (s.dev.flag
    (TAB_BCTL h.part) 4 = false ∧ (s.dev.flag (TAB_BCTL h.part) 8 = false ∨ s.dev.flag (TAB_BCTL h.part) 0 = false))) → (leAt pl
    0 4 < 4000 ∨ 400000000 < leAt pl 0 4 ∨ (s.dev.flag (TAB_BCTL h.part) 8 = true ∧ leAt pl 0 4 < 8000)) → Runs (.beatPeriod h
    pl) s (fun e => Answered s.dev e 0x0106 h .denied [] ∧ Keeps s.dev e (fun a => BookReg a) ∧ SameUnits s.dev e)) ∧
  -- BEAT_CONFIG with a period outside its limits
  (∀ (s : State) (h : Hdr) (pl : List Byte), Accepted s.dev cBeatConfig h pl → s.dev.still h.part = true → (leAt pl 4 4 < 4000 ∨
    400000000 < leAt pl 4 4 ∨ (bitAt (byteAt pl 1) 1 = true ∧ leAt pl 4 4 < 8000)) → Runs (.beatConfig h pl) s (fun e =>
    Answered s.dev e 0x0101 h .denied [] ∧ Keeps s.dev e (fun a => BookReg a) ∧ SameUnits s.dev e)) ∧
  -- a register write while the period is held
  (∀ (s : State) (f p v : Nat), p < 16 → (f = 0 ∨ f = p) → (s.dev.flag (TAB_BCTL p) 4 = true ∨ (s.dev.flag (TAB_BCTL p) 8 = true
    ∧ s.dev.flag (TAB_BCTL p) 0 = true ∧ s.dev.fld (TAB_SPAN p) 16 9 = s.dev.fld (FAB_DCFG 0) 0 9)) → (s.dev.bstate p ≠ 0 ∧
    s.dev.bstate p ≠ 3) → Runs (.tabBperiodWrite f p v) s (fun e => e.rg (TAB_BPERIOD p) = s.dev.rg (TAB_BPERIOD p) ∧ e.flag
    (TAB_BSTAT p) 5 = true ∧ Keeps s.dev e (fun a => a = TAB_BSTAT p) ∧ SameUnits s.dev e)) ∧
  -- BEAT_PERIOD while the period is held
  (∀ (s : State) (h : Hdr) (pl : List Byte), Accepted s.dev cBeatPeriod h pl → (s.dev.flag (TAB_BCTL h.part) 4 = true ∨
    (s.dev.flag (TAB_BCTL h.part) 8 = true ∧ s.dev.flag (TAB_BCTL h.part) 0 = true ∧ s.dev.fld (TAB_SPAN h.part) 16 9 =
    s.dev.fld (FAB_DCFG 0) 0 9)) → (s.dev.bstate h.part ≠ 0 ∧ s.dev.bstate h.part ≠ 3) → Runs (.beatPeriod h pl) s (fun e =>
    Answered s.dev e 0x0106 h .busy [] ∧ Keeps s.dev e (fun a => BookReg a) ∧ SameUnits s.dev e))

/-- An edge that a timer's CAPEDGE selects enters the capture queue behind the edges queued before it, with its time and its
  direction; when the queue holds 8 edges it is dropped, CAPOVF is set, CAPLOST rises by one, saturating, and the queue is as it
  was. -/
def Obligations.CapturesKeepTheOldestEdges : Prop :=
  -- CAPTURE_EDGE with a free entry (R487, R488)
  (∀ (s : State) (tm : Nat) (rising : Bool), (tm < 16 ∧ (s.dev.timer tm).caps.length < 8) → s.dev.fld (TAB_TnCTL tm) 5 5 ≤ 17 →
    (s.dev.fld (TAB_TnCTL tm) 16 2 = 3 ∨ s.dev.fld (TAB_TnCTL tm) 16 2 = (if rising then 1 else 2)) → Runs (.captureEdge tm
    rising) s (fun e => (e.timer tm).caps = (s.dev.timer tm).caps ++ [2 ^ 63 + natOf rising * 2 ^ 62 + s.dev.time % 2 ^ 48] ∧
    e.fld (TAB_TnSTAT tm) 16 4 = (s.dev.timer tm).caps.length + 1 ∧ Keeps s.dev e (fun a => NoteReg a ∨ a = TAB_TnSTAT tm) ∧
    SameUnits s.dev e)) ∧
  -- CAPTURE_EDGE that finds the queue full (R489)
  (∀ (s : State) (tm : Nat) (rising : Bool), (tm < 16 ∧ (s.dev.timer tm).caps.length = 8) → s.dev.fld (TAB_TnCTL tm) 5 5 ≤ 17 →
    (s.dev.fld (TAB_TnCTL tm) 16 2 = 3 ∨ s.dev.fld (TAB_TnCTL tm) 16 2 = (if rising then 1 else 2)) → Runs (.captureEdge tm
    rising) s (fun e => (e.timer tm).caps = (s.dev.timer tm).caps ∧ e.rg (TAB_TnCAPLOST tm) = satInc (s.dev.rg (TAB_TnCAPLOST
    tm)) 1 % 2 ^ 32 ∧ e.flag (TAB_TnSTAT tm) 6 = true ∧ Keeps s.dev e (fun a => a = TAB_TnSTAT tm ∨ a = TAB_TnCAPLOST tm) ∧
    SameUnits s.dev e))

/-- A step with command c at the front of the queue is exec of c on the state with the rest of the queue; exec of every command
  in every state answers a next state whose queue is the one it was given, so every step answers a next state. -/
def Obligations.StepTakesTheFrontCommand : Prop :=
  (∀ (c : Instr) (rest : List Instr) (d : Dev), step ⟨d, c :: rest⟩ = Machine.exec c ⟨d, rest⟩) ∧
  (∀ (c : Instr) (s : State), Runs c s (fun _ => True)) ∧ (∀ s : State, Safe s)


/-- With no command waiting, a step is one tick (the model's choice, log entry 1): TIME rises by one; each running partition's
  TAB_BCOUNT and each running timer's COUNT steps, unless it stands at the count of its own next event, which the command of
  that event brings about (log entry 4); the RTC gains 32,768 parts in 400,000,000 of a second step. In Vigil and Ember only the
  RTC goes on. Nothing else changes. -/
def Obligations.EmptyQueuePassesOneTick : Prop :=
  ∀ s : State, s.pending = [] → ∃ t, step s = .next t ∧ t.pending = [] ∧
  t.dev.rtcFrac = (s.dev.rtcFrac + 32768) % 400000000 ∧
  t.dev.rtc = (s.dev.rtc + (s.dev.rtcFrac + 32768) / 400000000) % 2 ^ 48 ∧
  RegKeeps s.dev t.dev TickReg ∧ SameMem s.dev t.dev ∧ SameUnits s.dev t.dev ∧ t.dev.out = s.dev.out ∧
  (s.dev.pwr.asleep ≠ 0 → t.dev.time = s.dev.time ∧
  (∀ p, p < 16 → t.dev.rg (TAB_BCOUNT p) = s.dev.rg (TAB_BCOUNT p) ∧ t.dev.rg (TAB_TnCOUNT p) = s.dev.rg (TAB_TnCOUNT p))) ∧
  (s.dev.pwr.asleep = 0 → t.dev.time = (s.dev.time + 1) % 2 ^ 64 ∧
  (∀ p, p < 16 → s.dev.running p = true → s.dev.rg (TAB_BCOUNT p) < s.dev.beatCap p → s.dev.rg (TAB_BCOUNT p) + 1 < 2 ^ 32 →
    t.dev.rg (TAB_BCOUNT p) = s.dev.rg (TAB_BCOUNT p) + 1) ∧
  (∀ p, p < 16 → s.dev.running p = false → t.dev.rg (TAB_BCOUNT p) = s.dev.rg (TAB_BCOUNT p)) ∧
  (∀ n, n < 16 → s.dev.flag (TAB_TnSTAT n) 0 = true → s.dev.rg (TAB_TnCOUNT n) + 1 < s.dev.timerNext n → t.dev.rg (TAB_TnCOUNT
    n) = s.dev.rg (TAB_TnCOUNT n) + 1) ∧
  (∀ n, n < 16 → s.dev.flag (TAB_TnSTAT n) 0 = false → t.dev.rg (TAB_TnCOUNT n) = s.dev.rg (TAB_TnCOUNT n)))


/-- After reset no command waits; every register reads its table's reset value, among them remap entry n (n), the default split
  of R145, the periods of R96, the limits of R239 and R305; every partition is IDLE, the timebase is FREE, every S-core HALTED
  and no region has an owner. Memory reads zero (the model's choice, log entry 3) in its canonical form, and the statuses and
  pins that follow the state do so. -/
def Obligations.ResetState : Prop :=
  State.reset.pending = [] ∧ (∀ a, State.reset.dev.rg a = (regReset a).toNat) ∧
  (∀ a, State.reset.dev.mem.read a = 0#8) ∧ State.reset.dev.mem.wf = true ∧ State.reset.dev.ecc = [] ∧
  (∀ n, n < 256 → State.reset.dev.rg (FAB_REMAP (n / 16) n) = n) ∧
  (∀ p, p < 16 → State.reset.dev.bstate p = 0 ∧ State.reset.dev.rg (TAB_BPERIOD p) = 40000 ∧ State.reset.dev.rg (TAB_LEAPLIM p)
    = 4000 ∧ State.reset.dev.fld (TAB_SPAN p) 0 10 = 1) ∧
  State.reset.dev.tlState = 0 ∧ (∀ r, r < 16 → State.reset.dev.seqState r = 0 ∧ State.reset.dev.regPart r = none) ∧
  (∀ q, q < 256 → State.reset.dev.rg (SYN_BAND16 q) = 14336 ∧ State.reset.dev.rg (SYN_ZROWS q 0) = 52428) ∧
  Follows State.reset.dev


/-- In a READY device with verified firmware, and outside recovery, a command is turned away by the first of these that holds: a
  header or length error (BAD_LENGTH), a TAG that is outstanding (BUSY), a function without the right (DENIED), Calends not
  finished (BUSY), a partition without regions (BAD_PARTITION), a reserved payload field set (DENIED with its offset). Each of
  the 128 commands, turned away, completes with that status and leaves every register but those of the books, memory and the
  units as they were. -/
def Obligations.RefusedCommands : Prop :=
  (∀ (d : Dev) (c : CmdSpec) (h : Hdr) (pl : List Byte), d.flag CAR_STAT 7 = false → d.flag CAR_STAT 6 = false → h.func < 16 →
  (BadHead c h pl → d.refuse c h pl = some (.badLength, 0)) ∧
  (¬ BadHead c h pl → (d.fn h.func).outst.any (fun o => o.tag == h.tag) = true → d.refuse c h pl = some (.busy, 0)) ∧
  (¬ BadHead c h pl → (d.fn h.func).outst.any (fun o => o.tag == h.tag) = false →
  (NoRight c h → d.refuse c h pl = some (.denied, 0)) ∧
  (¬ NoRight c h → c.ready = true → d.fld CAL_STAT 0 3 ≠ 4 → d.refuse c h pl = some (.busy, 0)) ∧
  (¬ NoRight c h → (c.ready = true → d.fld CAL_STAT 0 3 = 4) →
  (c.names = true → d.regionsOf h.part = [] → d.refuse c h pl = some (.badPartition, 0)) ∧
  ((c.names = true → d.regionsOf h.part ≠ []) →
  d.refuse c h pl = (c.rsv.find? (rsvdSet pl)).map (fun r => (Status.denied, r.1)))))) ∧
  TurnedAway .axonRange (fun _ => cAxonRange) (fun _ => True) ∧ TurnedAway .axonCoreBase (fun _ => cAxonCoreBase) (fun _ =>
    True) ∧ TurnedAway .axonLoad (fun _ => cAxonLoad) (fun _ => True) ∧ TurnedAway .axonRead (fun _ => cAxonRead) (fun _ =>
    True) ∧
  TurnedAway .almanacConfig (fun _ => cAlmanacConfig) (fun _ => True) ∧ TurnedAway .almanacRead (fun _ => cAlmanacRead) (fun _
    => True) ∧ TurnedAway .almanacLoad (fun _ => cAlmanacLoad) (fun _ => True) ∧ TurnedAway .readoutConfig (fun _ =>
    cReadoutConfig) (fun _ => True) ∧
  TurnedAway .readoutRead (fun _ => cReadoutRead) (fun _ => True) ∧ TurnedAway .eventRings (fun _ => cEventRings) (fun _ =>
    True) ∧ TurnedAway .axnStatus (fun _ => cAxnStatus) (fun _ => True) ∧ TurnedAway .calStatus (fun _ => cCalStatus) (fun _ =>
    True) ∧
  TurnedAway .partAssign (fun _ => cPartAssign) (fun _ => True) ∧ TurnedAway .partRemove (fun _ => cPartRemove) (fun _ => True)
    ∧ TurnedAway .partStatus (fun _ => cPartStatus) (fun _ => True) ∧ TurnedAway .planSet (fun _ => cPlanSet) (fun _ => True) ∧
  TurnedAway .planRead (fun _ => cPlanRead) (fun _ => True) ∧ TurnedAway .planClear (fun _ => cPlanClear) (fun _ => True) ∧
    TurnedAway .idRead (fun _ => cIdRead) (fun _ => True) ∧ TurnedAway .attest cAttest (fun _ => True) ∧
  TurnedAway .sensorRead (fun _ => cSensorRead) (fun _ => True) ∧ TurnedAway .logRead (fun _ => cLogRead) (fun _ => True) ∧
    TurnedAway .ffRead (fun _ => cFfRead) (fun _ => True) ∧ TurnedAway .ffClear (fun _ => cFfClear) (fun _ => True) ∧
  TurnedAway .logStatus (fun _ => cLogStatus) (fun _ => True) ∧ TurnedAway .updateBegin (fun _ => cUpdateBegin) (fun _ => True)
    ∧ TurnedAway .updateData (fun _ => cUpdateData) (fun _ => True) ∧ TurnedAway .updateVerify (fun _ => cUpdateVerify) (fun _
    => True) ∧
  TurnedAway .updateActivate (fun _ => cUpdateActivate) (fun d => d.car.restart = false) ∧ TurnedAway .updateCommit (fun _ =>
    cUpdateCommit) (fun _ => True) ∧ TurnedAway .updateStatus (fun _ => cUpdateStatus) (fun _ => True) ∧ TurnedAway .ddrConfig
    (fun _ => cDdrConfig) (fun _ => True) ∧
  TurnedAway .ddrStatus (fun _ => cDdrStatus) (fun _ => True) ∧ TurnedAway .ddrWindow (fun _ => cDdrWindow) (fun _ => True) ∧
    TurnedAway .ddrRetrain (fun _ => cDdrRetrain) (fun _ => True) ∧ TurnedAway .ddrScrub (fun _ => cDdrScrub) (fun _ => True) ∧
  TurnedAway .ddrWinread (fun _ => cDdrWinread) (fun _ => True) ∧ TurnedAway .fabStatus (fun _ => cFabStatus) (fun _ => True) ∧
    TurnedAway .portControl (fun _ => cPortControl) (fun _ => True) ∧ TurnedAway .portStatus (fun _ => cPortStatus) (fun _ =>
    True) ∧
  TurnedAway .routeRead (fun _ => cRouteRead) (fun _ => True) ∧ TurnedAway .collSetup (fun _ => cCollSetup) (fun _ => True) ∧
    TurnedAway .collIssue (fun _ => cCollIssue) (fun _ => True) ∧ TurnedAway .collRelease (fun _ => cCollRelease) (fun _ =>
    True) ∧
  TurnedAway .collStatus (fun _ => cCollStatus) (fun _ => True) ∧ TurnedAway .rudimentLoad (fun _ => cRudimentLoad) (fun _ =>
    True) ∧ TurnedAway .rudimentConfig (fun _ => cRudimentConfig) (fun _ => True) ∧ TurnedAway .rudimentRead (fun _ =>
    cRudimentRead) (fun _ => True) ∧
  TurnedAway .faultStatus (fun _ => cFaultStatus) (fun _ => True) ∧ TurnedAway .muteSet (fun _ => cMuteSet) (fun _ => True) ∧
    TurnedAway .muteClear (fun _ => cMuteClear) (fun _ => True) ∧ TurnedAway .choke (fun _ => cChoke) (fun _ => True) ∧
  TurnedAway .partScrub (fun _ => cPartScrub) (fun _ => True) ∧ TurnedAway .fence (fun _ => cFence) (fun _ => True) ∧ TurnedAway
    .fenceList (fun _ => cFenceList) (fun _ => True) ∧ TurnedAway .fenceClear (fun _ => cFenceClear) (fun _ => True) ∧
  TurnedAway .faultConfig (fun _ => cFaultConfig) (fun _ => True) ∧ TurnedAway .gpioSafe (fun _ => cGpioSafe) (fun _ => True) ∧
    TurnedAway .spareReserve (fun _ => cSpareReserve) (fun _ => True) ∧ TurnedAway .ruleLoad (fun _ => cRuleLoad) (fun _ =>
    True) ∧
  TurnedAway .ruleRead (fun _ => cRuleRead) (fun _ => True) ∧ TurnedAway .seasonConfig (fun _ => cSeasonConfig) (fun _ => True)
    ∧ TurnedAway .modSet (fun _ => cModSet) (fun _ => True) ∧ TurnedAway .seedSet (fun _ => cSeedSet) (fun _ => True) ∧
  TurnedAway .revLoad (fun _ => cRevLoad) (fun _ => True) ∧ TurnedAway .ckptConfig (fun _ => cCkptConfig) (fun _ => True) ∧
    TurnedAway .ckptNow (fun _ => cCkptNow) (fun _ => True) ∧ TurnedAway .ckptRestore (fun _ => cCkptRestore) (fun _ => True) ∧
  TurnedAway .ckptStatus (fun _ => cCkptStatus) (fun _ => True) ∧ TurnedAway .ckptQuota (fun _ => cCkptQuota) (fun _ => True) ∧
    TurnedAway .hrvStatus (fun _ => cHrvStatus) (fun _ => True) ∧ TurnedAway .profileLoad (fun _ => cProfileLoad) (fun _ =>
    True) ∧
  TurnedAway .profileRead (fun _ => cProfileRead) (fun _ => True) ∧ TurnedAway .neuronLoad (fun _ => cNeuronLoad) (fun _ =>
    True) ∧ TurnedAway .neuronRead (fun _ => cNeuronRead) (fun _ => True) ∧ TurnedAway .neuronStatus (fun _ => cNeuronStatus)
    (fun _ => True) ∧
  TurnedAway .pagemapSet (fun _ => cPagemapSet) (fun _ => True) ∧ TurnedAway .pagemapRead (fun _ => cPagemapRead) (fun _ =>
    True) ∧ TurnedAway .rowLoad (fun _ => cRowLoad) (fun _ => True) ∧ TurnedAway .rowRead (fun _ => cRowRead) (fun _ => True) ∧
  TurnedAway .synStatus (fun _ => cSynStatus) (fun _ => True) ∧ TurnedAway .poisonList (fun _ => cPoisonList) (fun _ => True) ∧
    TurnedAway .obsRead (fun _ => cObsRead) (fun _ => True) ∧ TurnedAway .obsControl (fun _ => cObsControl) (fun _ => True) ∧
  TurnedAway .traceConfig (fun _ => cTraceConfig) (fun _ => True) ∧ TurnedAway .traceStatus (fun _ => cTraceStatus) (fun _ =>
    True) ∧ TurnedAway .traceMark (fun _ => cTraceMark) (fun _ => True) ∧ TurnedAway .powerState (fun _ => cPowerState) (fun d
    => d.fld PWR_STATE 0 3 ≠ 3 ∧ d.fld PWR_STATE 0 3 ≠ 4) ∧
  TurnedAway .powerVote (fun _ => cPowerVote) (fun _ => True) ∧ TurnedAway .powerStatus (fun _ => cPowerStatus) (fun _ => True)
    ∧ TurnedAway .thermalConfig (fun _ => cThermalConfig) (fun _ => True) ∧ TurnedAway .policySet (fun _ => cPolicySet) (fun _
    => True) ∧
  TurnedAway .rtcAlarm (fun _ => cRtcAlarm) (fun _ => True) ∧ TurnedAway .aonWrite (fun _ => cAonWrite) (fun _ => True) ∧
    TurnedAway .aonRead (fun _ => cAonRead) (fun _ => True) ∧ TurnedAway .seqLoad (fun _ => cSeqLoad) (fun _ => True) ∧
  TurnedAway .seqControl (fun _ => cSeqControl) (fun _ => True) ∧ TurnedAway .seqStatus (fun _ => cSeqStatus) (fun _ => True) ∧
    TurnedAway .chanConfig (fun _ => cChanConfig) (fun _ => True) ∧ TurnedAway .chanSend (fun _ => cChanSend) (fun _ => True) ∧
  TurnedAway .chanRecv (fun _ => cChanRecv) (fun _ => True) ∧ TurnedAway .queStatus (fun _ => cQueStatus) (fun _ => True) ∧
    TurnedAway .cqConfig (fun _ => cCqConfig) (fun _ => True) ∧ TurnedAway .commonsOwn (fun _ => cCommonsOwn) (fun _ => True) ∧
  TurnedAway .cmnStatus (fun _ => cCmnStatus) (fun _ => True) ∧ TurnedAway .gangForm (fun _ => cGangForm) (fun _ => True) ∧
    TurnedAway .gangRelease (fun _ => cGangRelease) (fun _ => True) ∧ TurnedAway .gangStatus (fun _ => cGangStatus) (fun _ =>
    True) ∧
  TurnedAway .tcoreSubmit (fun _ => cTcoreSubmit) (fun _ => True) ∧ TurnedAway .tcoreStatus (fun _ => cTcoreStatus) (fun _ =>
    True) ∧ TurnedAway .tcoreAbort (fun _ => cTcoreAbort) (fun _ => True) ∧ TurnedAway .tcoreSeed (fun _ => cTcoreSeed) (fun _
    => True) ∧
  TurnedAway .ethPortConfig (fun _ => cEthPortConfig) (fun _ => True) ∧ TurnedAway .siteSet (fun _ => cSiteSet) (fun _ => True)
    ∧ TurnedAway .siteRead (fun _ => cSiteRead) (fun _ => True) ∧ TurnedAway .tunStatus (fun _ => cTunStatus) (fun _ => True) ∧
  TurnedAway .ptpConfig (fun _ => cPtpConfig) (fun _ => True) ∧ TurnedAway .ptpStatus (fun _ => cPtpStatus) (fun _ => True) ∧
    TurnedAway .beatConfig (fun _ => cBeatConfig) (fun _ => True) ∧ TurnedAway .beatOffsets (fun _ => cBeatOffsets) (fun _ =>
    True) ∧
  TurnedAway .beatStart (fun _ => cBeatStart) (fun _ => True) ∧ TurnedAway .beatMuffle (fun _ => cBeatMuffle) (fun _ => True) ∧
    TurnedAway .beatResume (fun _ => cBeatResume) (fun _ => True) ∧ TurnedAway .beatPeriod (fun _ => cBeatPeriod) (fun _ =>
    True) ∧
  TurnedAway .beatStatus (fun _ => cBeatStatus) (fun _ => True) ∧ TurnedAway .timeConfig (fun _ => cTimeConfig) (fun _ => True)
    ∧ TurnedAway .timeStatus (fun _ => cTimeStatus) (fun _ => True) ∧ TurnedAway .timeRelock (fun _ => cTimeRelock) (fun _ =>
    True)


/-- Whatever the state and whatever the step does, in the next state MUTE_OUT is driven high exactly while a partition in
  FLT_MUTEOUT.MASK is Muted or Choked, ALARM_N is pulled low exactly while a partition holds cause bit 2, 3 or 5 or BRIDGE is
  set, and in Ember both float. FLT_STAT bits 2 to 0, FLT_PMUTE.MUTED and TAB_CHSTAT agree with what they show, and a GPIO pin
  whose FLT_GSAFE names a Muted partition is at its safe level. -/
def Obligations.PinsAndStatusFollow : Prop :=
  ∀ s t : State, step s = .next t →
  (t.dev.pins.muteOut = true ↔ ∃ p, p < 16 ∧ t.dev.flag FLT_MUTEOUT p = true ∧ (t.dev.muted p = true ∨ t.dev.choked p = true)) ∧
  (t.dev.pins.alarm = true ↔ t.dev.flag FLT_STAT 4 = true ∨ ∃ p, p < 16 ∧ (t.dev.flag (FLT_PMUTE p) 2 = true ∨ t.dev.flag
    (FLT_PMUTE p) 3 = true ∨ t.dev.flag (FLT_PMUTE p) 5 = true)) ∧
  (t.dev.pwr.asleep = 2 → t.dev.pins.float = true) ∧
  Follows t.dev


/-- From every state whose memory is a list of strictly rising addresses with no entry of the value that an unlisted address
  reads as, every step answers a state whose memory is such a list, so equal memories stay equal data (the form and the value
  are the model's, log entry 3). -/
def Obligations.MemoryKeepsItsForm : Prop :=
  ∀ s t : State, s.dev.mem.wf = true → step s = .next t → t.dev.mem.wf = true


/-- Under conditions on the state and the operands alone, exec answers a next state, with the form's own effect, for each of:
  SEQ_LOAD, SEQ_CONTROL, SEQ_STATUS, CHAN_CONFIG, CHAN_SEND, CHAN_RECV, CHAN_RECV_TIMEOUT, QUE_STATUS, CQ_CONFIG, COMMONS_OWN,
  CMN_STATUS, CHANNEL_HOLD_EXPIRY, HANDOVER_END, ACKNOWLEDGEMENT, the writes of SEQ_CTL, QUE_CHCTL, QUE_CQCFG and CMN_OWN,
  CHANNEL_MESSAGE, COMBINING_CONTRIBUTION, every S-core descriptor with its resumption, and a reserved opcode. -/
def Obligations.SequencerAndQueueFormsComplete : Prop :=
  -- SEQ_LOAD (R399, R429)
  (∀ (s : State) (h : Hdr) (pl : List Byte) (r f n : Nat), Accepted s.dev cSeqLoad h pl → (r = byteAt pl 0 ∧ f = leAt pl 2 2 ∧ n
    = leAt pl 4 2) → (r < 16 ∧ s.dev.owns h.part r = true ∧ s.dev.scoreBad r = false) → f + n ≤ 4096 → s.dev.seqState r = 0 → ∃
    nx e, Machine.exec (.seqLoad h pl) s = .next nx ∧ nx.pending = s.pending ∧ e = nx.dev ∧ Answered s.dev e 0x0901 h .ok []) ∧
  -- SEQ_CONTROL RUN (R425)
  (∀ (s : State) (h : Hdr) (pl : List Byte) (r : Nat), Accepted s.dev cSeqControl h pl → (r = byteAt pl 0 ∧ byteAt pl 1 = 1 ∧
    leAt pl 2 2 < 4096) → (s.dev.regPart r).all s.dev.choked = false → (r < 16 ∧ s.dev.owns h.part r = true ∧ s.dev.scoreBad r =
    false) → ∃ nx e, Machine.exec (.seqControl h pl) s = .next nx ∧ nx.pending = s.pending ∧ e = nx.dev ∧ e.seqState r = 1 ∧
    e.seqPc r = leAt pl 2 2 ∧ e.fld (SEQ_ENTRY r) 0 12 = leAt pl 2 2 ∧ Answered s.dev e 0x0902 h .ok []) ∧
  -- SEQ_STATUS (R430)
  (∀ (s : State) (h : Hdr) (pl : List Byte), Accepted s.dev cSeqStatus h pl → (byteAt pl 0 < 16 ∧ s.dev.owns h.part (byteAt pl
    0) = true ∧ s.dev.scoreBad (byteAt pl 0) = false) → ∃ nx e, Machine.exec (.seqStatus h pl) s = .next nx ∧ nx.pending =
    s.pending ∧ e = nx.dev ∧ Answered s.dev e 0x0903 h .ok (s.dev.regBytes (SEQ_CTL (byteAt pl 0)) 96)) ∧
  -- CHAN_CONFIG (R411)
  (∀ (s : State) (h : Hdr) (pl : List Byte) (r c : Nat), Accepted s.dev cChanConfig h pl → (r = byteAt pl 0 ∧ c = byteAt pl 1 ∧
    byteAt pl 2 < 3 ∧ byteAt pl 3 < 2) → (r < 16 ∧ c < 32 ∧ s.dev.owns h.part r = true) → QuietQueues s.dev r → ∃ nx e,
    Machine.exec (.chanConfig h pl) s = .next nx ∧ nx.pending = s.pending ∧ e = nx.dev ∧ e.chHost r c = (byteAt pl 3 == 1) ∧
    e.chState r c = (if byteAt pl 2 = 1 then 0 else 1) ∧ Answered s.dev e 0x0904 h .ok []) ∧
  -- CHAN_SEND to an open channel with room (R406 to R408)
  (∀ (s : State) (h : Hdr) (pl : List Byte) (r c : Nat), Accepted s.dev cChanSend h pl → (r = byteAt pl 0 ∧ c = byteAt pl 1 ∧
    byteAt pl 2 = 0) → (r < 16 ∧ c < 32 ∧ s.dev.owns h.part r = true) → QuietQueues s.dev r → (s.dev.chState r c = 0 ∧
    s.dev.stage r c = [] ∧ (s.dev.chan r c).length < 16) → ∃ nx e, Machine.exec (.chanSend h pl) s = .next nx ∧ nx.pending =
    s.pending ∧ e = nx.dev ∧ e.chan r c = s.dev.chan r c ++ [⟨slice pl 8 64, .nobody⟩] ∧ e.rg (QUE_CHRX r c) = satInc (s.dev.rg
    (QUE_CHRX r c)) 1 % 2 ^ 32 ∧ Answered s.dev e 0x0905 h .ok (refusedAns false)) ∧
  -- CHAN_RECV of a waiting message (R409)
  (∀ (s : State) (h : Hdr) (pl : List Byte) (r c : Nat) (m : Msg) (rest : List Msg), Accepted s.dev cChanRecv h pl → (r = byteAt
    pl 0 ∧ c = byteAt pl 1 ∧ leAt pl 4 4 ≤ 1000000) → (r < 16 ∧ c < 32 ∧ s.dev.owns h.part r = true ∧ s.dev.chHost r c = true) →
    QuietQueues s.dev r → (s.dev.chan r c = m :: rest ∧ s.dev.stage r c = [] ∧ m.data.length = 64) → ∃ nx e, Machine.exec
    (.chanRecv h pl) s = .next nx ∧ nx.pending = s.pending ∧ e = nx.dev ∧ e.chan r c = rest ∧ Answered s.dev e 0x0906 h .ok
    m.data) ∧
  -- QUE_STATUS (R430)
  (∀ (s : State) (h : Hdr) (pl : List Byte), Accepted s.dev cQueStatus h pl → (byteAt pl 0 < 16 ∧ s.dev.owns h.part (byteAt pl
    0) = true) → ∃ nx e, Machine.exec (.queStatus h pl) s = .next nx ∧ nx.pending = s.pending ∧ e = nx.dev ∧ Answered s.dev e
    0x0907 h .ok (s.dev.regBytes (QUE_CHCTL (byteAt pl 0) 0) 322)) ∧
  -- CQ_CONFIG (R413, R415)
  (∀ (s : State) (h : Hdr) (pl : List Byte) (r q : Nat), Accepted s.dev cCqConfig h pl → (r = byteAt pl 0 ∧ q = byteAt pl 1 ∧
    byteAt pl 2 < 3 ∧ byteAt pl 3 < 32 ∧ leAt pl 4 2 ≠ 0) → (r < 16 ∧ q < 8 ∧ s.dev.owns h.part r = true) → ∃ nx e, Machine.exec
    (.cqConfig h pl) s = .next nx ∧ nx.pending = s.pending ∧ e = nx.dev ∧ e.cqChan r q = byteAt pl 3 ∧ e.fld (QUE_CQCFG r q) 0
    16 = leAt pl 4 2 ∧ (byteAt pl 2 < 2 → e.flag (QUE_CQCFG r q) 31 = (byteAt pl 2 == 1)) ∧ Answered s.dev e 0x0908 h .ok []) ∧
  -- COMMONS_OWN by the physical function (R421, R422)
  (∀ (s : State) (h : Hdr) (pl : List Byte) (r b : Nat), Accepted s.dev cCommonsOwn h pl → (r = byteAt pl 0 ∧ b = byteAt pl 1 ∧
    byteAt pl 2 = 0) → (r < 16 ∧ b < 16 ∧ s.dev.owns h.part r = true) → (byteAt pl 3 ≤ 2 ∧ s.dev.bankOwner r b false ≠ 3 ∧
    s.dev.bankOwner r b false ≠ 4) → (h.func = 0 ∨ s.dev.seqState r = 0) → ∃ nx e, Machine.exec (.commonsOwn h pl) s = .next nx
    ∧ nx.pending = s.pending ∧ e = nx.dev ∧ e.bankOwner r b false = byteAt pl 3 ∧ e.flag (CMN_OWN r b) 31 = true ∧ Answered
    s.dev e 0x0909 h .ok []) ∧
  -- CMN_STATUS (R430)
  (∀ (s : State) (h : Hdr) (pl : List Byte), Accepted s.dev cCmnStatus h pl → (byteAt pl 0 < 16 ∧ s.dev.owns h.part (byteAt pl
    0) = true) → ∃ nx e, Machine.exec (.cmnStatus h pl) s = .next nx ∧ nx.pending = s.pending ∧ e = nx.dev ∧ Answered s.dev e
    0x090A h .ok (s.dev.regBytes (CMN_OWN (byteAt pl 0) 0) 52)) ∧
  -- CHAN_RECV_TIMEOUT (R409)
  (∀ (s : State) (f tag : Nat), ∃ nx e, Machine.exec (.chanRecvTimeout f tag) s = .next nx ∧ nx.pending = s.pending ∧ e = nx.dev
    ∧ e.car.waiting = s.dev.car.waiting.filter (fun w => !(w.opcode == 0x0906 && w.hdr.func == f && w.hdr.tag == tag)) ∧
    e.regions = s.dev.regions) ∧
  -- CHANNEL_HOLD_EXPIRY of a message in an input stage (R408)
  (∀ (s : State) (r c k : Nat) (m : Msg), (r < 16 ∧ c < 32) → (s.dev.stage r c)[k]? = some m → QuietQueues s.dev r → m.sender =
    .nobody → ∃ nx e, Machine.exec (.channelHoldExpiry r c k) s = .next nx ∧ nx.pending = s.pending ∧ e = nx.dev ∧ e.stage r c =
    removeAt (s.dev.stage r c) k ∧ e.chan r c = s.dev.chan r c) ∧
  -- HANDOVER_END for which nothing waits (R422)
  (∀ (s : State) (r b : Nat), (r < 16 ∧ b < 16) → s.dev.heldAcc = [] → (∀ k, k < 16 → ∀ o, o ∈ (s.dev.score k).ops → o.held =
    false) → ∃ nx e, Machine.exec (.handoverEnd r b) s = .next nx ∧ nx.pending = s.pending ∧ e = nx.dev ∧ e.flag (CMN_OWN r b)
    31 = false ∧ e.bankOwner r b false = s.dev.bankOwner r b false ∧ e.bankOwner r b true = s.dev.bankOwner r b true) ∧
  -- ACKNOWLEDGEMENT of a posted operation (R403, R412)
  (∀ (s : State) (r c : Nat) (rest : List (Nat × Bool × Bool)), (r < 16 ∧ c < 8) → (s.dev.score r).acks = (c, false, true) ::
    rest → ∃ nx e, Machine.exec (.acknowledgement r) s = .next nx ∧ nx.pending = s.pending ∧ e = nx.dev ∧ e.rg (SEQ_CCNT r c) =
    (s.dev.rg (SEQ_CCNT r c) + 1) % 2 ^ 32 ∧ (e.score r).acks = rest) ∧
  -- SEQ_CTL_RUN (R425)
  (∀ (s : State) (ag : Agent) (r : Nat), r < 16 → WriteOk s.dev ag (SEQ_CTL r) → (s.dev.regPart r).all s.dev.choked = false → ∃
    nx e, Machine.exec (.seqCtlRun ag r) s = .next nx ∧ nx.pending = s.pending ∧ e = nx.dev ∧ e.seqState r = 1 ∧ e.seqPc r =
    s.dev.fld (SEQ_ENTRY r) 0 12) ∧
  -- SEQ_CTL_HALT (R425)
  (∀ (s : State) (ag : Agent) (r : Nat), r < 16 → WriteOk s.dev ag (SEQ_CTL r) → ∃ nx e, Machine.exec (.seqCtlHalt ag r) s =
    .next nx ∧ nx.pending = s.pending ∧ e = nx.dev ∧ (s.dev.seqState r = 1 → e.seqState r = 0) ∧ (s.dev.seqState r = 2 →
    e.seqState r = 2 ∧ (e.score r).halt = true)) ∧
  -- SEQ_CTL_RESET (R405, R425)
  (∀ (s : State) (ag : Agent) (r : Nat), r < 16 → WriteOk s.dev ag (SEQ_CTL r) → (∀ q, q < 8 → (s.dev.combq r q).held = []) → ∃
    nx e, Machine.exec (.seqCtlReset ag r) s = .next nx ∧ nx.pending = s.pending ∧ e = nx.dev ∧ e.seqState r = 0 ∧ (e.score
    r).ops = [] ∧ (e.score r).acks = []) ∧
  -- CHANNEL_MESSAGE to an open channel with room (R407, R408)
  (∀ (s : State) (ag : Agent) (r c : Nat) (bytes : List Byte), (r < 16 ∧ c < 32 ∧ bytes.length = 64) → s.dev.reachesW ag
    (QUE_CHIN r c) = true → QuietQueues s.dev r → (s.dev.chState r c = 0 ∧ s.dev.stage r c = [] ∧ (s.dev.chan r c).length < 16)
    → ∃ nx e, Machine.exec (.channelMessage ag r c bytes) s = .next nx ∧ nx.pending = s.pending ∧ e = nx.dev ∧ e.chan r c =
    s.dev.chan r c ++ [⟨bytes, .nobody⟩]) ∧
  -- QUE_CHCTL_OPEN (R411)
  (∀ (s : State) (ag : Agent) (r c : Nat), (r < 16 ∧ c < 32) → WriteOk s.dev ag (QUE_CHCTL r c) → ∃ nx e, Machine.exec
    (.queChctlOpen ag r c) s = .next nx ∧ nx.pending = s.pending ∧ e = nx.dev ∧ e.chState r c = 0 ∧ e.chHost r c = s.dev.chHost
    r c ∧ e.chan r c = s.dev.chan r c) ∧
  -- QUE_CHCTL_CLOSE (R411)
  (∀ (s : State) (ag : Agent) (r c : Nat), (r < 16 ∧ c < 32) → WriteOk s.dev ag (QUE_CHCTL r c) → QuietQueues s.dev r → ∃ nx e,
    Machine.exec (.queChctlClose ag r c) s = .next nx ∧ nx.pending = s.pending ∧ e = nx.dev ∧ e.chState r c = 1 ∧ e.stage r c =
    [] ∧ e.chan r c = s.dev.chan r c ∧ e.rg (QUE_CHDROP r c) % 2 ^ 32 = (min (2 ^ 32 - 1) (s.dev.rg (QUE_CHDROP r c) +
    (s.dev.stage r c).length)) % 2 ^ 32 ∨ 2 ^ 32 ≤ s.dev.rg (QUE_CHDROP r c)) ∧
  -- QUE_CHCTL_RESET (R411)
  (∀ (s : State) (ag : Agent) (r c : Nat), (r < 16 ∧ c < 32) → WriteOk s.dev ag (QUE_CHCTL r c) → QuietQueues s.dev r → ∃ nx e,
    Machine.exec (.queChctlReset ag r c) s = .next nx ∧ nx.pending = s.pending ∧ e = nx.dev ∧ e.chState r c = 1 ∧ e.stage r c =
    [] ∧ e.chan r c = []) ∧
  -- COMBINING_CONTRIBUTION that is the last, to an open channel with room (R414)
  (∀ (s : State) (ag : Agent) (r q n c : Nat) (bytes : List Byte), (r < 16 ∧ q < 8 ∧ bytes.length = 64) → s.dev.reachesW ag
    (QUE_CQIN r q) = true → (s.dev.flag (QUE_CQCFG r q) 31 = true ∧ (s.dev.combq r q).wait = false) → QuietQueues s.dev r → (n =
    s.dev.fld (QUE_CQSTAT r q) 0 16 ∧ s.dev.fld (QUE_CQCFG r q) 0 16 ≤ n + 1) → (c = s.dev.cqChan r q ∧ s.dev.chState r c = 0 ∧
    s.dev.stage r c = [] ∧ (s.dev.chan r c).length < 16) → ∃ nx e, Machine.exec (.combiningContribution ag r q bytes) s = .next
    nx ∧ nx.pending = s.pending ∧ e = nx.dev ∧ (e.chan r c).length = (s.dev.chan r c).length + 1 ∧ (e.combq r q).lanes = [] ∧
    (e.combq r q).wait = false) ∧
  -- QUE_CQCFG_CLEAR (R415)
  (∀ (s : State) (ag : Agent) (r q : Nat), (r < 16 ∧ q < 8) → WriteOk s.dev ag (QUE_CQCFG r q) → ∃ nx e, Machine.exec
    (.queCqcfgClear ag r q) s = .next nx ∧ nx.pending = s.pending ∧ e = nx.dev ∧ (e.combq r q).lanes = [] ∧ e.fld (QUE_CQSTAT r
    q) 0 16 = 0 ∧ e.cqChan r q = s.dev.cqChan r q ∧ e.fld (QUE_CQCFG r q) 0 16 = s.dev.fld (QUE_CQCFG r q) 0 16) ∧
  -- CMN_OWN_WRITE of a bank the writer owns, or that no one owns (R422)
  (∀ (s : State) (ag : Agent) (r b v : Nat), (r < 16 ∧ b < 15) → WriteOk s.dev ag (CMN_OWN r b) → v % 16 ≤ 2 → (s.dev.bankOwner
    r b false = bankAgent ag r ∨ s.dev.bankOwner r b false = 0) → ∃ nx e, Machine.exec (.cmnOwnWrite ag r b v) s = .next nx ∧
    nx.pending = s.pending ∧ e = nx.dev ∧ e.bankOwner r b false = v % 16 ∧ e.flag (CMN_OWN r b) 31 = true) ∧
  -- NOP (R402)
  (∀ (s : State) (r : Nat) (x : List Byte), AtDesc s.dev r 0 x → s.dev.seqPc r + 1 < 4096 → ∃ nx e, Machine.exec (.nop r) s =
    .next nx ∧ nx.pending = s.pending ∧ e = nx.dev ∧ WentTo s.dev e r (s.dev.seqPc r + 1)) ∧
  -- HALT (R402, R425)
  (∀ (s : State) (r : Nat) (x : List Byte), AtDesc s.dev r 1 x → ∃ nx e, Machine.exec (.halt r) s = .next nx ∧ nx.pending =
    s.pending ∧ e = nx.dev ∧ e.seqState r = 0 ∧ e.seqPc r = (s.dev.seqPc r + 1) % 4096) ∧
  -- SET (R402)
  (∀ (s : State) (r : Nat) (x : List Byte), AtDesc s.dev r 2 x → s.dev.seqPc r + 1 < 4096 → ∃ nx e, Machine.exec (.set r) s =
    .next nx ∧ nx.pending = s.pending ∧ e = nx.dev ∧ WentTo s.dev e r (s.dev.seqPc r + 1) ∧ e.greg r (dGd x) = dAddr x) ∧
  -- ADD (R402)
  (∀ (s : State) (r : Nat) (x : List Byte), AtDesc s.dev r 3 x → s.dev.seqPc r + 1 < 4096 → ∃ nx e, Machine.exec (.add r) s =
    .next nx ∧ nx.pending = s.pending ∧ e = nx.dev ∧ WentTo s.dev e r (s.dev.seqPc r + 1) ∧ e.greg r (dGd x) = (s.dev.greg r
    (dGs x) + dImm64 x) % 2 ^ 64) ∧
  -- LOAD of Commons of its own region (R401, R402)
  (∀ (s : State) (r : Nat) (x : List Byte) (a8 : Nat), AtDesc s.dev r 4 x → s.dev.seqPc r + 1 < 4096 → FreshOp s.dev r →
    (OwnCommons s.dev r ((dAddr x + s.dev.greg r (dGs x)) % 2 ^ 64) a8 8 ∧ a8 % 8 = 0) → (dAddr x + s.dev.greg r (dGs x)) % 8 =
    0 → ∃ nx e, Machine.exec (.load r) s = .next nx ∧ nx.pending = s.pending ∧ e = nx.dev ∧ WentTo s.dev e r (s.dev.seqPc r + 1)
    ∧ e.greg r (dGd x) = s.dev.rdN a8 8) ∧
  -- STORE to Commons of its own region (R401, R402)
  (∀ (s : State) (r : Nat) (x : List Byte) (a8 : Nat), AtDesc s.dev r 5 x → s.dev.seqPc r + 1 < 4096 → FreshOp s.dev r →
    (OwnCommons s.dev r ((dAddr x + s.dev.greg r (dGs x)) % 2 ^ 64) a8 8 ∧ a8 % 8 = 0) → (dAddr x + s.dev.greg r (dGs x)) % 8 =
    0 → ∃ nx e, Machine.exec (.store r) s = .next nx ∧ nx.pending = s.pending ∧ e = nx.dev ∧ WentTo s.dev e r (s.dev.seqPc r +
    1) ∧ e.rdN a8 8 = s.dev.greg r (dGd x) % 2 ^ 64) ∧
  -- BRANCH (R402)
  (∀ (s : State) (r : Nat) (x : List Byte) (n : Nat), AtDesc s.dev r 6 x → s.dev.seqPc r + 1 < 4096 → (n = (if branchTaken (dCh
    x) (s.dev.greg r (dGd x)) then dImm x else s.dev.seqPc r + 1) ∧ n < 4096) → ∃ nx e, Machine.exec (.branch r) s = .next nx ∧
    nx.pending = s.pending ∧ e = nx.dev ∧ WentTo s.dev e r n) ∧
  -- LOOP (R402)
  (∀ (s : State) (r : Nat) (x : List Byte) (g n : Nat), AtDesc s.dev r 7 x → s.dev.seqPc r + 1 < 4096 → g = (s.dev.greg r (dGd
    x) + 2 ^ 64 - 1) % 2 ^ 64 → (n = (if g = 0 then s.dev.seqPc r + 1 else dImm x) ∧ n < 4096) → ∃ nx e, Machine.exec (.loop r)
    s = .next nx ∧ nx.pending = s.pending ∧ e = nx.dev ∧ WentTo s.dev e r n ∧ e.greg r (dGd x) = g) ∧
  -- PEEK (R402, R409)
  (∀ (s : State) (r : Nat) (x : List Byte), AtDesc s.dev r 11 x → s.dev.seqPc r + 1 < 4096 → ∃ nx e, Machine.exec (.peek r) s =
    .next nx ∧ nx.pending = s.pending ∧ e = nx.dev ∧ WentTo s.dev e r (s.dev.seqPc r + 1) ∧ e.greg r (dGd x) = s.dev.rg
    (QUE_CHSTAT r (dCh x)) % 2 ^ 64) ∧
  -- CHCTL OPEN (R402, R411)
  (∀ (s : State) (r : Nat) (x : List Byte), AtDesc s.dev r 12 x → s.dev.seqPc r + 1 < 4096 → dImm x % 8 = 1 → WriteOk s.dev
    (.score r) (QUE_CHCTL r (dCh x)) → ∃ nx e, Machine.exec (.chctl r) s = .next nx ∧ nx.pending = s.pending ∧ e = nx.dev ∧
    WentTo s.dev e r (s.dev.seqPc r + 1) ∧ e.chState r (dCh x) = 0) ∧
  -- WAITC (R402, R412)
  (∀ (s : State) (r : Nat) (x : List Byte), AtDesc s.dev r 13 x → s.dev.seqPc r + 1 < 4096 → ∃ nx e, Machine.exec (.waitc r) s =
    .next nx ∧ nx.pending = s.pending ∧ e = nx.dev ∧ (s.dev.waitcOk r x = true → WentTo s.dev e r (s.dev.seqPc r + 1)) ∧
    (s.dev.waitcOk r x = false → WaitsAt s.dev e r 2)) ∧
  -- WAITB (R402)
  (∀ (s : State) (r : Nat) (x : List Byte), AtDesc s.dev r 14 x → s.dev.seqPc r + 1 < 4096 → ∃ nx e, Machine.exec (.waitb r) s =
    .next nx ∧ nx.pending = s.pending ∧ e = nx.dev ∧ (s.dev.waitbOk r x = true → WentTo s.dev e r (s.dev.seqPc r + 1)) ∧
    (s.dev.waitbOk r x = false → WaitsAt s.dev e r 3)) ∧
  -- WAITC_RESUME (R403)
  (∀ (s : State) (r : Nat), r < 16 → (s.dev.waitsAt r 13 2 = true ∧ s.dev.seqPc r + 1 < 4096) → s.dev.waitcOk r (s.dev.seqDesc
    r) = true → ∃ nx e, Machine.exec (.waitcResume r) s = .next nx ∧ nx.pending = s.pending ∧ e = nx.dev ∧ WentTo s.dev e r
    (s.dev.seqPc r + 1)) ∧
  -- WAITB_RESUME (R403)
  (∀ (s : State) (r : Nat), r < 16 → (s.dev.waitsAt r 14 3 = true ∧ s.dev.seqPc r + 1 < 4096) → ((s.dev.regPart r).isSome = true
    ∧ s.dev.waitbOk r (s.dev.seqDesc r) = true) → ∃ nx e, Machine.exec (.waitbResume r) s = .next nx ∧ nx.pending = s.pending ∧
    e = nx.dev ∧ WentTo s.dev e r (s.dev.seqPc r + 1)) ∧
  -- reserved opcode (R404)
  (∀ (s : State) (r : Nat) (x : List Byte), (r < 16 ∧ s.dev.scoreGoes r = true ∧ s.dev.seqDesc r = x ∧ 0x1B ≤ dOpc x) → ∃ nx e,
    Machine.exec (.reservedOpcode r) s = .next nx ∧ nx.pending = s.pending ∧ e = nx.dev ∧ e.seqState r = 3 ∧ e.rg (SEQ_FAULT r)
    = 2 ^ 24 + s.dev.seqPc r) ∧
  -- MOVE inside the Commons of its region (R401 to R403)
  (∀ (s : State) (r : Nat) (x : List Byte) (n sa da : Nat), AtDesc s.dev r 8 x → s.dev.seqPc r + 1 < 4096 → FreshOp s.dev r → (n
    = dImm x ∧ n % 8 = 0 ∧ 8 ≤ n ∧ n ≤ 2048) → (OwnCommons s.dev r (s.dev.greg r (dGs x)) sa n ∧ s.dev.greg r (dGs x) % 8 = 0) →
    (OwnCommons s.dev r (s.dev.greg r (dGd x)) da n ∧ s.dev.greg r (dGd x) % 8 = 0) → (dPost x = true → s.dev.fld (SEQ_OUTST r)
    0 7 < 64) → ∃ nx e, Machine.exec (.move r) s = .next nx ∧ nx.pending = s.pending ∧ e = nx.dev ∧ (e.score r).acks =
    (s.dev.score r).acks ++ [(dCsel x, false, dPost x)] ∧ (dPost x = false → WaitsAt s.dev e r 0)) ∧
  -- SEND to an open channel with room of this device (R402, R407, R408)
  (∀ (s : State) (r : Nat) (x : List Byte) (sa r2 c : Nat), AtDesc s.dev r 9 x → s.dev.seqPc r + 1 < 4096 → FreshOp s.dev r →
    (OwnCommons s.dev r (s.dev.greg r (dGs x)) sa 64 ∧ s.dev.greg r (dGs x) % 64 = 0) → (r2 < 16 ∧ c < 32 ∧ s.dev.greg r (dGd x)
    = 2 ^ 48 * s.dev.devId + 0x020000000000 + QUE_CHIN r2 c) → s.dev.reachesW (.score r) (QUE_CHIN r2 c) = true → QuietQueues
    s.dev r2 → (s.dev.chState r2 c = 0 ∧ s.dev.stage r2 c = [] ∧ (s.dev.chan r2 c).length < 16) → (dPost x = true → s.dev.fld
    (SEQ_OUTST r) 0 7 < 64) → (s.dev.reqs.filter (fun q => q.region == r)).length < 64 → ∃ nx e, Machine.exec (.send r) s =
    .next nx ∧ nx.pending = s.pending ∧ e = nx.dev ∧ e.chan r2 c = s.dev.chan r2 c ++ [⟨s.dev.rdB sa 64, .score r (s.dev.score
    r).next⟩] ∧ (e.score r).acks = (s.dev.score r).acks ++ [(dCsel x, false, dPost x)]) ∧
  -- RECV of a waiting message (R409)
  (∀ (s : State) (r : Nat) (x : List Byte) (da : Nat) (m : Msg) (rest : List Msg), AtDesc s.dev r 10 x → s.dev.seqPc r + 1 <
    4096 → FreshOp s.dev r → (OwnCommons s.dev r (s.dev.greg r (dGd x)) da 64 ∧ s.dev.greg r (dGd x) % 64 = 0) → s.dev.chHost r
    (dCh x) = false → QuietQueues s.dev r → (s.dev.chan r (dCh x) = m :: rest ∧ s.dev.stage r (dCh x) = [] ∧ m.data.length = 64)
    → ∃ nx e, Machine.exec (.recv r) s = .next nx ∧ nx.pending = s.pending ∧ e = nx.dev ∧ WentTo s.dev e r (s.dev.seqPc r + 1) ∧
    e.chan r (dCh x) = rest) ∧
  -- RECV_RESUME once a message has come (R403, R409)
  (∀ (s : State) (r da : Nat) (x : List Byte) (m : Msg) (rest : List Msg), r < 16 → x = s.dev.seqDesc r → (s.dev.waitsAt r 10 1
    = true ∧ s.dev.seqPc r + 1 < 4096 ∧ (s.dev.regPart r).isSome = true) → FreshOp s.dev r → (OwnCommons s.dev r (s.dev.greg r
    (dGd x)) da 64 ∧ s.dev.greg r (dGd x) % 64 = 0) → s.dev.chHost r (dCh x) = false → QuietQueues s.dev r → (s.dev.chan r (dCh
    x) = m :: rest ∧ s.dev.stage r (dCh x) = [] ∧ m.data.length = 64) → s.dev.owns ((s.dev.regPart r).getD 0) r = true → ∃ nx e,
    Machine.exec (.recvResume r) s = .next nx ∧ nx.pending = s.pending ∧ e = nx.dev ∧ WentTo s.dev e r (s.dev.seqPc r + 1) ∧
    e.chan r (dCh x) = rest) ∧
  -- EVSEND of 8-byte records, not posted (R402, R412)
  (∀ (s : State) (r : Nat) (x : List Byte) (n sa : Nat), AtDesc s.dev r 15 x → FreshOp s.dev r → (dPost x = false ∧ dCh x % 2 =
    0) → (n = 8 * evCount x ∧ n ≤ 2048) → OwnCommons s.dev r (s.dev.greg r (dGs x)) sa n → ∃ nx e, Machine.exec (.evsend r) s =
    .next nx ∧ nx.pending = s.pending ∧ e = nx.dev ∧ WaitsAt s.dev e r 0 ∧ (e.score r).acks.map Prod.fst = (s.dev.score
    r).acks.map Prod.fst ++ [dCsel x]) ∧
  -- TPUSH to one T-core (R396, R402)
  (∀ (s : State) (r : Nat) (x : List Byte) (t sa : Nat), AtDesc s.dev r 16 x → s.dev.seqPc r + 1 < 4096 → FreshOp s.dev r → (t <
    16 ∧ dImm x = 2 ^ t) → OwnCommons s.dev r (s.dev.greg r (dGs x)) sa 64 → (∀ k, k < 16 → WriteOk s.dev (.score r) (TCR_DQPUSH
    t k)) → (s.dev.tcore t).queue.length < 8 → ∃ nx e, Machine.exec (.tpush r) s = .next nx ∧ nx.pending = s.pending ∧ e =
    nx.dev ∧ WentTo s.dev e r (s.dev.seqPc r + 1) ∧ (e.tcore t).queue = (s.dev.tcore t).queue ++ [(s.dev.rdB sa 64, false)]) ∧
  -- ENCODE (R382, R402)
  (∀ (s : State) (r : Nat) (x : List Byte) (sa : Nat), AtDesc s.dev r 17 x → FreshOp s.dev r → OwnCommons s.dev r (s.dev.greg r
    (dGs x)) sa 64 → byteAt (s.dev.rdB sa 64) 0 = 6 → (s.dev.tcOut r = false ∧ s.dev.tcGone r = false ∧ (s.dev.tcore
    r).queue.length < 8) → ∃ nx e, Machine.exec (.encode r) s = .next nx ∧ nx.pending = s.pending ∧ e = nx.dev ∧ WaitsAt s.dev e
    r 6 ∧ (e.tcore r).queue = (s.dev.tcore r).queue ++ [(s.dev.rdB sa 64, true)]) ∧
  -- DECODE (R383, R402)
  (∀ (s : State) (r : Nat) (x : List Byte) (sa ro : Nat), AtDesc s.dev r 18 x → s.dev.seqPc r + 1 < 4096 → FreshOp s.dev r →
    OwnCommons s.dev r (s.dev.greg r (dGs x)) sa 64 → ((s.dev.regPart r).bind s.dev.readoutRegion = some ro ∧ s.dev.ecc = []) →
    (s.dev.tcOut r = false ∧ s.dev.tcGone r = false ∧ (s.dev.tcore r).queue.length < 8) → ∃ nx e, Machine.exec (.decode r) s =
    .next nx ∧ nx.pending = s.pending ∧ e = nx.dev ∧ WentTo s.dev e r (s.dev.seqPc r + 1) ∧ e.greg r (dGd x) = s.dev.rg64
    (AXN_RFRAME_LO ro) % 2 ^ 64) ∧
  -- RPUT of a record that fits without a pad (R416 to R418)
  (∀ (s : State) (r : Nat) (x : List Byte) (g sa n u p w : Nat) (c : List Byte), AtDesc s.dev r 24 x → s.dev.seqPc r + 1 < 4096
    → FreshOp s.dev r → ((∀ b, b < 16 → s.dev.ownsBank r b ownScore = true ∧ s.dev.flag (CMN_OWN r b) 31 = false) ∧ s.dev.ecc =
    []) → (OwnCommons s.dev r (s.dev.greg r (dGs x)) g 64 ∧ c = s.dev.rdB g 64 ∧ rgOk c = true) → (OwnCommons s.dev r (dAddr x)
    sa n ∧ n = dImm x ∧ n ≤ 2048) → (u = ceilDiv (8 + n) 64 ∧ p = rgHead c % rgSize c) → (64 * u ≤ rgSize c - p ∧ p % 64 = 0 ∧
    64 * u ≤ rgSize c - 64 ∧ 64 * u ≤ rgSize c - (rgHead c + 2 ^ 32 - rgTail c) % 2 ^ 32) → rgBase c + rgSize c ≤ 0x400000 → w =
    cmnBase r + rgBase c + p → (g + 64 ≤ w ∨ w + 64 * u ≤ g) → ∃ nx e, Machine.exec (.rput r) s = .next nx ∧ nx.pending =
    s.pending ∧ e = nx.dev ∧ WentTo s.dev e r (s.dev.seqPc r + 1) ∧ e.greg r (dGd x) = 0) ∧
  -- RGET of a record (R416, R417, R419)
  (∀ (s : State) (r : Nat) (x : List Byte) (g t w n u da : Nat) (c : List Byte), AtDesc s.dev r 25 x → s.dev.seqPc r + 1 < 4096
    → FreshOp s.dev r → ((∀ b, b < 16 → s.dev.ownsBank r b ownScore = true ∧ s.dev.flag (CMN_OWN r b) 31 = false) ∧ s.dev.ecc =
    []) → (OwnCommons s.dev r (s.dev.greg r (dGs x)) g 64 ∧ c = s.dev.rdB g 64 ∧ rgOk c = true) → (t = rgTail c ∧ t ≠ rgHead c ∧
    w = cmnBase r + rgBase c + t % rgSize c) → (rgBase c + rgSize c ≤ 0x400000 ∧ t % rgSize c + 8 + n ≤ rgSize c) → (byteAt
    (s.dev.rdB w 8) 0 = 1 ∧ u = leAt (s.dev.rdB w 8) 2 2 ∧ n = leAt (s.dev.rdB w 8) 4 4) → (0 < u ∧ 64 * u ≤ (rgHead c + 2 ^ 32
    - t) % 2 ^ 32 ∧ n ≤ 2048) → OwnCommons s.dev r (dAddr x) da n → (g + 64 ≤ da ∨ da + n ≤ g) → ∃ nx e, Machine.exec (.rget r)
    s = .next nx ∧ nx.pending = s.pending ∧ e = nx.dev ∧ WentTo s.dev e r (s.dev.seqPc r + 1) ∧ e.greg r (dGd x) = n) ∧
  -- TEND in its window (R336, R339)
  (∀ (s : State) (r : Nat) (x : List Byte) (g p q : Nat) (b : List Byte), AtDesc s.dev r 19 x → s.dev.seqPc r + 1 < 4096 →
    FreshOp s.dev r → s.dev.ecc = [] → (OwnCommons s.dev r (s.dev.greg r (dGs x)) g 64 ∧ b = s.dev.rdB g 64) → (s.dev.regPart r
    = some p ∧ NamesCore s.dev p (tdCore b) q ∧ q < 256) → (s.dev.flag (HRV_STAT q) 2 = true ∧ s.dev.muteBeat q p = false ∧
    s.dev.fld (HRV_SCOUNT q) 0 16 < min (s.dev.fld (HRV_HWIN q) 0 16) (s.dev.fld (HRV_SEASON q) 0 16)) → ∃ nx e, Machine.exec
    (.tend r) s = .next nx ∧ nx.pending = s.pending ∧ e = nx.dev ∧ WentTo s.dev e r (s.dev.seqPc r + 1) ∧ e.greg r (dGd x) = 0) ∧
  -- HSTEP once the Season has ended (R336)
  (∀ (s : State) (r : Nat) (x : List Byte) (c : Nat × Nat) (rest : List (Nat × Nat)), AtDesc s.dev r 20 x → s.dev.seqPc r + 1 <
    4096 → s.dev.seasonEnded r = true → s.dev.coresOf r = c :: rest → ∃ nx e, Machine.exec (.hstep r) s = .next nx ∧ nx.pending
    = s.pending ∧ e = nx.dev ∧ WentTo s.dev e r (s.dev.seqPc r + 1) ∧ e.greg r (dGd x) = s.dev.rg (HRV_SEASONNO c.2) % 2 ^ 64) ∧
  -- HSTEP_RESUME (R336, R403)
  (∀ (s : State) (r : Nat) (c : Nat × Nat) (rest : List (Nat × Nat)), r < 16 → (s.dev.waitsAt r 20 4 = true ∧ s.dev.seasonEnded
    r = true ∧ s.dev.seqPc r + 1 < 4096) → s.dev.coresOf r = c :: rest → ∃ nx e, Machine.exec (.hstepResume r) s = .next nx ∧
    nx.pending = s.pending ∧ e = nx.dev ∧ WentTo s.dev e r (s.dev.seqPc r + 1) ∧ e.greg r (dGd (s.dev.seqDesc r)) = s.dev.rg
    (HRV_SEASONNO c.2) % 2 ^ 64) ∧
  -- CKPT with HOST alone (R349, R352)
  (∀ (s : State) (r : Nat) (x : List Byte) (p : Nat), AtDesc s.dev r 21 x → s.dev.regPart r = some p → (s.dev.harvestOn p =
    false ∧ s.dev.muted p = false) → ((s.dev.part p).ckpt.copy = none ∧ (s.dev.part p).ckpt.flags % 4 = 2) → ∃ nx e,
    Machine.exec (.ckpt r) s = .next nx ∧ nx.pending = s.pending ∧ e = nx.dev ∧ WaitsAt s.dev e r 7 ∧ (e.part p).ckpt.copy.map
    Prod.snd = some ((s.dev.part p).ckpt.seq + 1)) ∧
  -- MODSET (R326, R402)
  (∀ (s : State) (r : Nat) (x : List Byte), AtDesc s.dev r 22 x → s.dev.seqPc r + 1 < 4096 → (∀ c, c ∈ s.dev.coresOf r → c.2 <
    256 ∧ WriteOk s.dev (.score r) (HRV_MODNEXT c.2)) → ∃ nx e, Machine.exec (.modset r) s = .next nx ∧ nx.pending = s.pending ∧
    e = nx.dev ∧ WentTo s.dev e r (s.dev.seqPc r + 1)) ∧
  -- OWN of a bank the S-core owns, or no one (R421, R422)
  (∀ (s : State) (r : Nat) (x : List Byte) (b : Nat), AtDesc s.dev r 23 x → s.dev.seqPc r + 1 < 4096 → (b = dCh x % 16 ∧ bitAt
    (dImm x) 8 = false ∧ dImm x % 16 ≤ 2) → (s.dev.bankOwner r b false = ownScore ∨ s.dev.bankOwner r b false = 0) → ∃ nx e,
    Machine.exec (.own r) s = .next nx ∧ nx.pending = s.pending ∧ e = nx.dev ∧ WentTo s.dev e r (s.dev.seqPc r + 1) ∧
    e.bankOwner r b false = dImm x % 16) ∧
  -- SIGNAL (R402)
  (∀ (s : State) (r : Nat) (x : List Byte), AtDesc s.dev r 26 x → s.dev.seqPc r + 1 < 4096 → ∃ nx e, Machine.exec (.signal r) s
    = .next nx ∧ nx.pending = s.pending ∧ e = nx.dev ∧ WentTo s.dev e r (s.dev.seqPc r + 1))
end

