-- ==== Sys2Proof/Laws/Bits.lean ====
section
/-! SUPPORT. Bit fields: what a field reads as after it, or another field of the same word, was replaced. -/

namespace Sys2Proof.Machine

/-- The three parts of a word around a field. -/
theorem bits_split (n lo w : Nat) : n = n / 2 ^ (lo + w) * 2 ^ (lo + w) + bitsOf n lo w * 2 ^ lo + n % 2 ^ lo := by
  unfold bitsOf
  have h1 : n = n / 2 ^ lo * 2 ^ lo + n % 2 ^ lo := by rw [Nat.mul_comm]; exact (Nat.div_add_mod n (2 ^ lo)).symm
  have h2 : n / 2 ^ lo = n / 2 ^ lo / 2 ^ w * 2 ^ w + n / 2 ^ lo % 2 ^ w := by
    rw [Nat.mul_comm]; exact (Nat.div_add_mod (n / 2 ^ lo) (2 ^ w)).symm
  have h3 : n / 2 ^ (lo + w) = n / 2 ^ lo / 2 ^ w := by rw [Nat.pow_add, Nat.div_div_eq_div_mul]
  rw [h3, Nat.pow_add]
  calc n = n / 2 ^ lo * 2 ^ lo + n % 2 ^ lo := h1
    _ = (n / 2 ^ lo / 2 ^ w * 2 ^ w + n / 2 ^ lo % 2 ^ w) * 2 ^ lo + n % 2 ^ lo := by rw [← h2]
    _ = _ := by ring

/-- The word with a field replaced, part by part. -/
theorem putBits_split (n lo w v : Nat) :
    putBits n lo w v = n / 2 ^ (lo + w) * 2 ^ (lo + w) + v % 2 ^ w * 2 ^ lo + n % 2 ^ lo := by
  have h := bits_split n lo w
  unfold putBits
  generalize hA : n / 2 ^ (lo + w) * 2 ^ (lo + w) = A at *
  generalize hB : bitsOf n lo w * 2 ^ lo = B at *
  generalize hC : n % 2 ^ lo = C at *
  omega

/-- A field made of three parts reads as its middle one. -/
theorem bitsOf_parts (a b c lo w : Nat) (hb : b < 2 ^ w) (hc : c < 2 ^ lo) :
    bitsOf (a * 2 ^ (lo + w) + b * 2 ^ lo + c) lo w = b := by
  unfold bitsOf
  have h : a * 2 ^ (lo + w) + b * 2 ^ lo + c = c + 2 ^ lo * (a * 2 ^ w + b) := by rw [Nat.pow_add]; ring
  rw [h, Nat.add_mul_div_left _ _ (Nat.two_pow_pos lo), Nat.div_eq_of_lt hc, Nat.zero_add, Nat.mul_comm a, Nat.mul_add_mod,
    Nat.mod_eq_of_lt hb]

/-- A field that was replaced reads as the new value's low bits. -/
theorem bitsOf_putBits (n lo w v : Nat) : bitsOf (putBits n lo w v) lo w = v % 2 ^ w := by
  rw [putBits_split]
  exact bitsOf_parts _ _ _ _ _ (Nat.mod_lt _ (Nat.two_pow_pos w)) (Nat.mod_lt _ (Nat.two_pow_pos lo))

/-- The part of a word below a bit is what lies under the field. -/
theorem mod_putBits (n lo w v : Nat) : putBits n lo w v % 2 ^ lo = n % 2 ^ lo := by
  rw [putBits_split]
  have h : n / 2 ^ (lo + w) * 2 ^ (lo + w) + v % 2 ^ w * 2 ^ lo + n % 2 ^ lo =
      2 ^ lo * (n / 2 ^ (lo + w) * 2 ^ w + v % 2 ^ w) + n % 2 ^ lo := by rw [Nat.pow_add]; ring
  rw [h, Nat.mul_add_mod, Nat.mod_mod]

/-- The part of a word above a field does not change with it. -/
theorem div_putBits (n lo w v : Nat) : putBits n lo w v / 2 ^ (lo + w) = n / 2 ^ (lo + w) := by
  rw [putBits_split]
  have hv : v % 2 ^ w * 2 ^ lo + n % 2 ^ lo < 2 ^ (lo + w) := by
    have h1 : v % 2 ^ w + 1 ≤ 2 ^ w := Nat.mod_lt _ (Nat.two_pow_pos w)
    have h2 : n % 2 ^ lo < 2 ^ lo := Nat.mod_lt _ (Nat.two_pow_pos lo)
    calc v % 2 ^ w * 2 ^ lo + n % 2 ^ lo < v % 2 ^ w * 2 ^ lo + 2 ^ lo := by omega
      _ = (v % 2 ^ w + 1) * 2 ^ lo := by ring
      _ ≤ 2 ^ w * 2 ^ lo := Nat.mul_le_mul_right _ h1
      _ = 2 ^ (lo + w) := by rw [Nat.pow_add]; ring
  rw [Nat.add_assoc, Nat.mul_comm, Nat.mul_add_div (Nat.two_pow_pos _), Nat.div_eq_of_lt hv, Nat.add_zero]

/-- A field that lies above reads as before. -/
theorem bitsOf_putBits_above (n lo w v lo' w' : Nat) (h : lo + w ≤ lo') :
    bitsOf (putBits n lo w v) lo' w' = bitsOf n lo' w' := by
  unfold bitsOf
  obtain ⟨k, rfl⟩ := Nat.exists_eq_add_of_le h
  rw [Nat.pow_add 2 (lo + w) k, ← Nat.div_div_eq_div_mul, ← Nat.div_div_eq_div_mul, div_putBits]

/-- A field of the low part of a word. -/
theorem bitsOf_mod (n k lo w : Nat) (h : lo + w ≤ k) : bitsOf (n % 2 ^ k) lo w = bitsOf n lo w := by
  unfold bitsOf
  obtain ⟨j, rfl⟩ := Nat.exists_eq_add_of_le h
  rw [show lo + w + j = lo + (w + j) by omega, Nat.pow_add, Nat.mod_mul_right_div_self, Nat.pow_add,
    Nat.mod_mod_of_dvd _ (Dvd.intro _ rfl)]

/-- A field that lies below reads as before. -/
theorem bitsOf_putBits_below (n lo w v lo' w' : Nat) (h : lo' + w' ≤ lo) :
    bitsOf (putBits n lo w v) lo' w' = bitsOf n lo' w' := by
  rw [← bitsOf_mod (putBits n lo w v) lo lo' w' h, mod_putBits, bitsOf_mod n lo lo' w' h]

/-- A field that does not overlap the replaced one reads as before. -/
theorem bitsOf_putBits_ne (n lo w v lo' w' : Nat) (h : lo' + w' ≤ lo ∨ lo + w ≤ lo') :
    bitsOf (putBits n lo w v) lo' w' = bitsOf n lo' w' :=
  h.elim (bitsOf_putBits_below n lo w v lo' w') (bitsOf_putBits_above n lo w v lo' w')

theorem bitAt_eq (n k : Nat) : bitAt n k = (bitsOf n k 1 == 1) := by simp [bitAt, bitsOf]

@[simp] theorem natOf_true : natOf true = 1 := rfl
@[simp] theorem natOf_false : natOf false = 0 := rfl

end Sys2Proof.Machine
end

