-- ==== Sys2Proof/Laws/Map.lean ====
section
/-! SUPPORT. Sparse maps: a read after a write, and the canonical form that every write and every clearing keeps. -/

namespace Sys2Proof.Machine

variable {V : Type}

theorem SMap.get_past (d : V) (k j : Nat) (h : k < j) : ∀ m : SMap V, SMap.get d (SMap.past k m) j = SMap.get d m j
  | [] => rfl
  | (a, v) :: r => by
    unfold SMap.past
    by_cases ha : a ≤ k
    · have h1 : a ≠ j := by omega
      have h2 : ¬ j < a := by omega
      simp [ha, SMap.get, h1, h2, SMap.get_past d k j h r]
    · simp [ha]

theorem SMap.get_past_low (d : V) (k j : Nat) (h : j ≤ k) : ∀ m : SMap V, SMap.get d (SMap.past k m) j = d
  | [] => rfl
  | (a, v) :: r => by
    unfold SMap.past
    by_cases ha : a ≤ k
    · simp [ha, SMap.get_past_low d k j h r]
    · have h1 : a ≠ j := by omega
      have h2 : j < a := by omega
      simp [ha, SMap.get, h1, h2]

/-- A read after a write: the written value at its key, every other key as before; for every list, canonical or not. -/
theorem SMap.get_set [DecidableEq V] (d v : V) (k j : Nat) :
    ∀ m : SMap V, SMap.get d (SMap.set d m k v) j = if j = k then v else SMap.get d m j
  | [] => by
    by_cases hv : v = d <;> by_cases hj : j = k <;> simp_all [SMap.set, SMap.get]
    intro h; omega
  | (a, w) :: r => by
    unfold SMap.set
    by_cases hka : k < a
    · by_cases hv : v = d
      · by_cases hj : j = k
        · have h1 : a ≠ k := by omega
          simp [hka, hv, hj, SMap.get, h1]
        · simp [hka, hv, hj]
      · by_cases hj : j = k
        · simp [hka, hv, hj, SMap.get]
        · have h1 : k ≠ j := fun h => hj h.symm
          by_cases hlt : j < k
          · have h2 : a ≠ j := by omega
            have h3 : j < a := by omega
            simp [hka, hv, hj, h1, SMap.get, hlt, h2, h3]
          · simp [hka, hv, hj, h1, SMap.get, hlt]
    · by_cases hak : a = k
      · subst hak
        by_cases hj : j = a
        · subst hj
          by_cases hv : v = d <;> simp [hv, SMap.get_past_low, SMap.get]
        · have hne : a ≠ j := fun h => hj h.symm
          by_cases hv : v = d
          · by_cases hlt : j < a
            · simp [hv, hj, SMap.get_past_low d a j (by omega), SMap.get, hlt, hne]
            · simp [hv, hj, SMap.get_past d a j (by omega), SMap.get, hlt, hne]
          · simp [hv, hj, SMap.get, hne]
      · by_cases hj : j = k
        · have h1 : ¬ k < a := hka
          simp [hka, hak, hj, SMap.get, SMap.get_set d v k k r]
        · simp [hka, hak, hj, SMap.get, SMap.get_set d v k j r]

@[simp] theorem SMap.get_set_same [DecidableEq V] (d v : V) (m : SMap V) (k : Nat) :
    SMap.get d (SMap.set d m k v) k = v := by simp [SMap.get_set]

theorem SMap.get_set_ne [DecidableEq V] (d v : V) (m : SMap V) {k j : Nat} (h : j ≠ k) :
    SMap.get d (SMap.set d m k v) j = SMap.get d m j := by simp [SMap.get_set, h]

@[simp] theorem SMap.get_nil (d : V) (k : Nat) : SMap.get d [] k = d := rfl

/-! ### The canonical form -/

theorem SMap.wfFrom_mono [DecidableEq V] (d : V) {lo lo' : Nat} (h : lo' ≤ lo) :
    ∀ {m : SMap V}, SMap.wfFrom d lo m = true → SMap.wfFrom d lo' m = true
  | [], _ => rfl
  | (a, v) :: r, hw => by
    simp only [SMap.wfFrom, Bool.and_eq_true, decide_eq_true_eq] at hw ⊢
    exact ⟨⟨by omega, hw.1.2⟩, hw.2⟩

theorem SMap.past_wf [DecidableEq V] (d : V) (k : Nat) {lo : Nat} (h : k < lo) :
    ∀ {m : SMap V}, SMap.wfFrom d lo m = true → SMap.past k m = m
  | [], _ => rfl
  | (a, v) :: r, hw => by
    simp only [SMap.wfFrom, Bool.and_eq_true, decide_eq_true_eq] at hw
    have : ¬ a ≤ k := by omega
    simp [SMap.past, this]

theorem SMap.set_wfFrom [DecidableEq V] (d v : V) (k : Nat) :
    ∀ {lo : Nat} {m : SMap V}, lo ≤ k → SMap.wfFrom d lo m = true → SMap.wfFrom d lo (SMap.set d m k v) = true
  | lo, [], hlo, _ => by
    by_cases hv : v = d <;> simp [SMap.set, SMap.wfFrom, hv, hlo]
  | lo, (a, w) :: r, hlo, hw => by
    have hw' := hw
    simp only [SMap.wfFrom, Bool.and_eq_true, decide_eq_true_eq] at hw'
    obtain ⟨⟨h1, h2⟩, h3⟩ := hw'
    unfold SMap.set
    by_cases hka : k < a
    · by_cases hv : v = d
      · simpa [hka, hv] using hw
      · simp [hka, hv, SMap.wfFrom, hlo, h2, h3]
    · by_cases hak : a = k
      · subst hak
        by_cases hv : v = d
        · simp only [hka, hv, if_false, if_true]
          rw [SMap.past_wf d a (Nat.lt_succ_self a) h3]
          exact SMap.wfFrom_mono d (by omega) h3
        · simp [hv, SMap.wfFrom, h1, h3]
      · simp only [hka, hak, if_false, SMap.wfFrom, Bool.and_eq_true, decide_eq_true_eq]
        exact ⟨⟨h1, h2⟩, SMap.set_wfFrom d v k (by omega) h3⟩

/-- A write keeps the canonical form. -/
theorem SMap.set_wf [DecidableEq V] (d v : V) (k : Nat) {m : SMap V} (h : SMap.wf d m = true) :
    SMap.wf d (SMap.set d m k v) = true := SMap.set_wfFrom d v k (Nat.zero_le k) h

theorem SMap.get_keep_low (d : V) (p : Nat → Bool) {k lo : Nat} (h : k < lo) :
    ∀ m : SMap V, SMap.get d (SMap.keep p lo m) k = d
  | [] => rfl
  | (a, v) :: r => by
    unfold SMap.keep
    split
    · exact SMap.get_keep_low d p h r
    · have hk : k < a := by omega
      split
      · simp [SMap.get, hk, show a ≠ k by omega]
      · exact SMap.get_keep_low d p (by omega) r

/-- What is kept reads as before, the rest as unlisted. -/
theorem SMap.get_keep (d : V) (p : Nat → Bool) {k lo : Nat} (h : lo ≤ k) :
    ∀ m : SMap V, SMap.get d (SMap.keep p lo m) k = if p k then SMap.get d m k else d
  | [] => by simp [SMap.keep, SMap.get]
  | (a, v) :: r => by
    unfold SMap.keep
    by_cases ha : a < lo
    · rw [if_pos ha, SMap.get_keep d p h r]
      simp [SMap.get, show a ≠ k by omega, show ¬ k < a by omega]
    · rw [if_neg ha]
      rcases Nat.lt_trichotomy k a with hk | hk | hk
      · have low := SMap.get_keep_low d p (show k < a + 1 by omega) r
        split <;> simp [SMap.get, hk, show a ≠ k by omega, low]
      · subst hk
        by_cases hp : p k = true
        · simp [hp, SMap.get]
        · simp only [hp]
          exact SMap.get_keep_low d p (Nat.lt_succ_self k) r
      · have ih := SMap.get_keep d p (show a + 1 ≤ k by omega) r
        split <;> simp [SMap.get, show a ≠ k by omega, show ¬ k < a by omega, ih]

/-- Clearing a range: its keys read as unlisted, every other as before. -/
theorem SMap.get_clear (d : V) (lo hi k : Nat) (m : SMap V) :
    SMap.get d (SMap.clear m lo hi) k = if lo ≤ k ∧ k < hi then d else SMap.get d m k := by
  unfold SMap.clear
  rw [SMap.get_keep d _ (Nat.zero_le k)]
  by_cases h : lo ≤ k ∧ k < hi
  · simp [h, show ¬ k < lo by omega, show ¬ hi ≤ k by omega]
  · rw [if_neg h]
    simp only [Bool.or_eq_true, decide_eq_true_eq, ite_eq_left_iff]
    intro h'; omega

theorem SMap.keep_wfFrom [DecidableEq V] (d : V) (p : Nat → Bool) :
    ∀ {lo n : Nat} {m : SMap V}, n ≤ lo → SMap.wfFrom d lo m = true → SMap.wfFrom d lo (SMap.keep p n m) = true
  | _, _, [], _, _ => rfl
  | lo, n, (a, w) :: r, hn, hw => by
    simp only [SMap.wfFrom, Bool.and_eq_true, decide_eq_true_eq] at hw
    obtain ⟨⟨h1, h2⟩, h3⟩ := hw
    have ih := SMap.keep_wfFrom d p (Nat.le_refl (a + 1)) h3
    unfold SMap.keep
    rw [if_neg (by omega)]
    split
    · simp only [SMap.wfFrom, Bool.and_eq_true, decide_eq_true_eq]
      exact ⟨⟨h1, h2⟩, ih⟩
    · exact SMap.wfFrom_mono d (by omega) ih

/-- Clearing a range keeps the canonical form. -/
theorem SMap.clear_wf [DecidableEq V] (d : V) (lo hi : Nat) {m : SMap V} (h : SMap.wf d m = true) :
    SMap.wf d (SMap.clear m lo hi) = true := SMap.keep_wfFrom d _ (Nat.le_refl 0) h

/-! ### Memory -/

/-- Reading a byte after writing one. -/
theorem Memory.read_write (m : Memory) (a b : Nat) (x : Byte) :
    (m.write a x).read b = if b = a then x else m.read b := SMap.get_set 0#8 x a b m

@[simp] theorem Memory.read_write_same (m : Memory) (a : Nat) (x : Byte) : (m.write a x).read a = x := by
  simp [Memory.read_write]

theorem Memory.read_write_ne (m : Memory) {a b : Nat} (x : Byte) (h : b ≠ a) : (m.write a x).read b = m.read b := by
  simp [Memory.read_write, h]

/-- A write of a byte keeps memory's canonical form. -/
theorem Memory.write_wf (m : Memory) (a : Nat) (x : Byte) (h : m.wf = true) : (m.write a x).wf = true :=
  SMap.set_wf 0#8 x a h

end Sys2Proof.Machine
end

