-- ==== Sys2Proof/Laws/Regs.lean ====
section
/-! SUPPORT. Registers: what a register, a field or a flag reads as after a write of one. -/

namespace Sys2Proof.Machine

variable (d : Dev)

/-- A register after a write of one: the low 32 bits of the value written, every other register as before. -/
theorem rg_setR (a v b : Nat) : (d.setR a v).rg b = if b = a then v % 2 ^ 32 else d.rg b := by
  unfold Dev.setR Dev.rg
  rw [SMap.get_set]
  by_cases h : b = a
  · subst h
    simp [Nat.xor_assoc]
  · simp [h]

@[simp] theorem rg_setR_same (a v : Nat) : (d.setR a v).rg a = v % 2 ^ 32 := by simp [rg_setR]

theorem rg_setR_ne {a v b : Nat} (h : b ≠ a) : (d.setR a v).rg b = d.rg b := by simp [rg_setR, h]

theorem rg_setF_ne {a lo w v b : Nat} (h : b ≠ a) : (d.setF a lo w v).rg b = d.rg b := rg_setR_ne d h

theorem rg_setFlag_ne {a k : Nat} {x : Bool} {b : Nat} (h : b ≠ a) : (d.setFlag a k x).rg b = d.rg b := rg_setR_ne d h

theorem rg_bump_ne {a k b : Nat} (h : b ≠ a) : (d.bump a k).rg b = d.rg b := rg_setR_ne d h

@[simp] theorem rg_bump_same (a k : Nat) : (d.bump a k).rg a = satInc (d.rg a) k % 2 ^ 32 := by simp [Dev.bump]

/-- A field that was set reads as the value's low bits. -/
theorem fld_setF_same {a lo w v : Nat} (h : lo + w ≤ 32) : (d.setF a lo w v).fld a lo w = v % 2 ^ w := by
  unfold Dev.fld Dev.setF
  rw [rg_setR_same, bitsOf_mod _ _ _ _ h, bitsOf_putBits]

/-- A field of another register, or one of the same register that does not overlap, reads as before. -/
theorem fld_setF_ne {a lo w v b lo' w' : Nat} (h : b ≠ a ∨ (lo' + w' ≤ 32 ∧ (lo' + w' ≤ lo ∨ lo + w ≤ lo'))) :
    (d.setF a lo w v).fld b lo' w' = d.fld b lo' w' := by
  unfold Dev.fld
  by_cases hb : b = a
  · subst hb
    rcases h with h | ⟨h1, h2⟩
    · exact absurd rfl h
    · unfold Dev.setF
      rw [rg_setR_same, bitsOf_mod _ _ _ _ h1, bitsOf_putBits_ne _ _ _ _ _ _ h2]
  · rw [rg_setF_ne d hb]

theorem fld_setR_ne {a v b lo w : Nat} (h : b ≠ a) : (d.setR a v).fld b lo w = d.fld b lo w := by
  unfold Dev.fld; rw [rg_setR_ne d h]

theorem fld_setR_same {a v lo w : Nat} (h : lo + w ≤ 32) : (d.setR a v).fld a lo w = bitsOf v lo w := by
  unfold Dev.fld; rw [rg_setR_same, bitsOf_mod _ _ _ _ h]

/-- A flag is a field of one bit. -/
theorem flag_eq (a k : Nat) : d.flag a k = (d.fld a k 1 == 1) := by simp [Dev.flag, Dev.fld, bitAt_eq]

theorem flag_setFlag_same {a k : Nat} {x : Bool} (h : k < 32) : (d.setFlag a k x).flag a k = x := by
  unfold Dev.setFlag
  rw [flag_eq, fld_setF_same d (by omega)]
  cases x <;> simp

theorem flag_setF_ne {a lo w v b k : Nat} (h : b ≠ a ∨ (k < 32 ∧ (k + 1 ≤ lo ∨ lo + w ≤ k))) :
    (d.setF a lo w v).flag b k = d.flag b k := by
  rw [flag_eq, flag_eq, fld_setF_ne d (h.imp id (fun h => ⟨by omega, h.2⟩))]

theorem flag_setFlag_ne {a k : Nat} {x : Bool} {b j : Nat} (h : b ≠ a ∨ (j < 32 ∧ j ≠ k)) :
    (d.setFlag a k x).flag b j = d.flag b j :=
  flag_setF_ne d (h.imp id (fun h => ⟨h.1, by omega⟩))

theorem fld_setFlag_ne {a k : Nat} {x : Bool} {b lo w : Nat} (h : b ≠ a ∨ (lo + w ≤ 32 ∧ (lo + w ≤ k ∨ k + 1 ≤ lo))) :
    (d.setFlag a k x).fld b lo w = d.fld b lo w := fld_setF_ne d h

theorem flag_setR_ne {a v b k : Nat} (h : b ≠ a) : (d.setR a v).flag b k = d.flag b k := by
  unfold Dev.flag; rw [rg_setR_ne d h]

theorem flag_setR_same {a v k : Nat} (h : k < 32) : (d.setR a v).flag a k = bitAt v k := by
  rw [flag_eq, fld_setR_same d (by omega), bitAt_eq]

/-- A register with no bit at or above 32 holds below 2^32: every written one does. -/
theorem rg_setR_lt (a v : Nat) : (d.setR a v).rg a < 2 ^ 32 := by
  rw [rg_setR_same]; exact Nat.mod_lt _ (by decide)

/-- A walk that keeps what one step keeps. -/
theorem forEach_keeps {α β : Type} (g : Dev → β) (f : Dev → α → Dev) (h : ∀ d x, g (f d x) = g d) :
    ∀ (l : List α) (d : Dev), g (d.forEach l f) = g d := by
  intro l
  induction l with
  | nil => intro d; rfl
  | cons x r ih => intro d; exact (ih (f d x)).trans (h d x)

/-- The same, where a step keeps it for the elements of the list. -/
theorem forEach_keeps_mem {α β : Type} (g : Dev → β) (f : Dev → α → Dev) :
    ∀ (l : List α), (∀ d x, x ∈ l → g (f d x) = g d) → ∀ d : Dev, g (d.forEach l f) = g d := by
  intro l
  induction l with
  | nil => intro _ d; rfl
  | cons x r ih =>
    intro h d
    exact (ih (fun d y hy => h d y (List.mem_cons_of_mem _ hy)) (f d x)).trans (h d x (List.mem_cons_self ..))

/-- A relation that every step keeps holds after a walk. -/
theorem forEach_inv {α : Type} (P : Dev → Prop) (f : Dev → α → Dev) (h : ∀ d x, P d → P (f d x)) :
    ∀ (l : List α) (d : Dev), P d → P (d.forEach l f) := by
  intro l
  induction l with
  | nil => intro d hd; exact hd
  | cons x r ih => intro d hd; exact ih _ (h d x hd)

end Sys2Proof.Machine
end

