-- ==== Sys2Proof/Laws/State.lean ====
section
/-! SUPPORT. What each field of the device holds after each of the plain updates: one lemma per field per update. -/

namespace Sys2Proof.Machine

variable (d : Dev)

/-! ### `setR` -/

@[simp] theorem setR_mem (a v : Nat) : (d.setR a v).mem = d.mem := rfl
@[simp] theorem setR_ecc (a v : Nat) : (d.setR a v).ecc = d.ecc := rfl
@[simp] theorem setR_latch (a v : Nat) : (d.setR a v).latch = d.latch := rfl
@[simp] theorem setR_cores (a v : Nat) : (d.setR a v).cores = d.cores := rfl
@[simp] theorem setR_parts (a v : Nat) : (d.setR a v).parts = d.parts := rfl
@[simp] theorem setR_regions (a v : Nat) : (d.setR a v).regions = d.regions := rfl
@[simp] theorem setR_sent (a v : Nat) : (d.setR a v).sent = d.sent := rfl
@[simp] theorem setR_filed (a v : Nat) : (d.setR a v).filed = d.filed := rfl
@[simp] theorem setR_packs (a v : Nat) : (d.setR a v).packs = d.packs := rfl
@[simp] theorem setR_net (a v : Nat) : (d.setR a v).net = d.net := rfl
@[simp] theorem setR_inbox (a v : Nat) : (d.setR a v).inbox = d.inbox := rfl
@[simp] theorem setR_sites (a v : Nat) : (d.setR a v).sites = d.sites := rfl
@[simp] theorem setR_tunPacks (a v : Nat) : (d.setR a v).tunPacks = d.tunPacks := rfl
@[simp] theorem setR_early (a v : Nat) : (d.setR a v).early = d.early := rfl
@[simp] theorem setR_ptp (a v : Nat) : (d.setR a v).ptp = d.ptp := rfl
@[simp] theorem setR_naps (a v : Nat) : (d.setR a v).naps = d.naps := rfl
@[simp] theorem setR_tocq (a v : Nat) : (d.setR a v).tocq = d.tocq := rfl
@[simp] theorem setR_tocWake (a v : Nat) : (d.setR a v).tocWake = d.tocWake := rfl
@[simp] theorem setR_car (a v : Nat) : (d.setR a v).car = d.car := rfl
@[simp] theorem setR_tcores (a v : Nat) : (d.setR a v).tcores = d.tcores := rfl
@[simp] theorem setR_scores (a v : Nat) : (d.setR a v).scores = d.scores := rfl
@[simp] theorem setR_timers (a v : Nat) : (d.setR a v).timers = d.timers := rfl
@[simp] theorem setR_pins (a v : Nat) : (d.setR a v).pins = d.pins := rfl
@[simp] theorem setR_fence (a v : Nat) : (d.setR a v).fence = d.fence := rfl
@[simp] theorem setR_failedQ (a v : Nat) : (d.setR a v).failedQ = d.failedQ := rfl
@[simp] theorem setR_fenceList (a v : Nat) : (d.setR a v).fenceList = d.fenceList := rfl
@[simp] theorem setR_fenceOld (a v : Nat) : (d.setR a v).fenceOld = d.fenceOld := rfl
@[simp] theorem setR_alarmQ (a v : Nat) : (d.setR a v).alarmQ = d.alarmQ := rfl
@[simp] theorem setR_alarmUs (a v : Nat) : (d.setR a v).alarmUs = d.alarmUs := rfl
@[simp] theorem setR_rtcFrac (a v : Nat) : (d.setR a v).rtcFrac = d.rtcFrac := rfl
@[simp] theorem setR_ppsLast (a v : Nat) : (d.setR a v).ppsLast = d.ppsLast := rfl
@[simp] theorem setR_ppsCorr (a v : Nat) : (d.setR a v).ppsCorr = d.ppsCorr := rfl
@[simp] theorem setR_slew (a v : Nat) : (d.setR a v).slew = d.slew := rfl
@[simp] theorem setR_taiSet (a v : Nat) : (d.setR a v).taiSet = d.taiSet := rfl
@[simp] theorem setR_fabDevs (a v : Nat) : (d.setR a v).fabDevs = d.fabDevs := rfl
@[simp] theorem setR_fabSpans (a v : Nat) : (d.setR a v).fabSpans = d.fabSpans := rfl
@[simp] theorem setR_links (a v : Nat) : (d.setR a v).links = d.links := rfl
@[simp] theorem setR_lports (a v : Nat) : (d.setR a v).lports = d.lports := rfl
@[simp] theorem setR_oports (a v : Nat) : (d.setR a v).oports = d.oports := rfl
@[simp] theorem setR_colls (a v : Nat) : (d.setR a v).colls = d.colls := rfl
@[simp] theorem setR_bulks (a v : Nat) : (d.setR a v).bulks = d.bulks := rfl
@[simp] theorem setR_reqs (a v : Nat) : (d.setR a v).reqs = d.reqs := rfl
@[simp] theorem setR_cal (a v : Nat) : (d.setR a v).cal = d.cal := rfl
@[simp] theorem setR_pwr (a v : Nat) : (d.setR a v).pwr = d.pwr := rfl
@[simp] theorem setR_ddrEpoch (a v : Nat) : (d.setR a v).ddrEpoch = d.ddrEpoch := rfl
@[simp] theorem setR_dma (a v : Nat) : (d.setR a v).dma = d.dma := rfl
@[simp] theorem setR_heldAcc (a v : Nat) : (d.setR a v).heldAcc = d.heldAcc := rfl
@[simp] theorem setR_d3hot (a v : Nat) : (d.setR a v).d3hot = d.d3hot := rfl
@[simp] theorem setR_trace (a v : Nat) : (d.setR a v).trace = d.trace := rfl
@[simp] theorem setR_nextTag (a v : Nat) : (d.setR a v).nextTag = d.nextTag := rfl
@[simp] theorem setR_vfEnable (a v : Nat) : (d.setR a v).vfEnable = d.vfEnable := rfl
@[simp] theorem setR_numVfs (a v : Nat) : (d.setR a v).numVfs = d.numVfs := rfl
@[simp] theorem setR_nonce (a v : Nat) : (d.setR a v).nonce = d.nonce := rfl
@[simp] theorem setR_out (a v : Nat) : (d.setR a v).out = d.out := rfl
@[simp] theorem setR_core_at (a v : Nat) (j : Nat) : (d.setR a v).core j = d.core j := rfl
@[simp] theorem setR_part_at (a v : Nat) (j : Nat) : (d.setR a v).part j = d.part j := rfl
@[simp] theorem setR_region_at (a v : Nat) (j : Nat) : (d.setR a v).region j = d.region j := rfl
@[simp] theorem setR_fn_at (a v : Nat) (j : Nat) : (d.setR a v).fn j = d.fn j := rfl

/-! ### `setF` -/

@[simp] theorem setF_mem (a lo w v : Nat) : (d.setF a lo w v).mem = d.mem := rfl
@[simp] theorem setF_ecc (a lo w v : Nat) : (d.setF a lo w v).ecc = d.ecc := rfl
@[simp] theorem setF_latch (a lo w v : Nat) : (d.setF a lo w v).latch = d.latch := rfl
@[simp] theorem setF_cores (a lo w v : Nat) : (d.setF a lo w v).cores = d.cores := rfl
@[simp] theorem setF_parts (a lo w v : Nat) : (d.setF a lo w v).parts = d.parts := rfl
@[simp] theorem setF_regions (a lo w v : Nat) : (d.setF a lo w v).regions = d.regions := rfl
@[simp] theorem setF_sent (a lo w v : Nat) : (d.setF a lo w v).sent = d.sent := rfl
@[simp] theorem setF_filed (a lo w v : Nat) : (d.setF a lo w v).filed = d.filed := rfl
@[simp] theorem setF_packs (a lo w v : Nat) : (d.setF a lo w v).packs = d.packs := rfl
@[simp] theorem setF_net (a lo w v : Nat) : (d.setF a lo w v).net = d.net := rfl
@[simp] theorem setF_inbox (a lo w v : Nat) : (d.setF a lo w v).inbox = d.inbox := rfl
@[simp] theorem setF_sites (a lo w v : Nat) : (d.setF a lo w v).sites = d.sites := rfl
@[simp] theorem setF_tunPacks (a lo w v : Nat) : (d.setF a lo w v).tunPacks = d.tunPacks := rfl
@[simp] theorem setF_early (a lo w v : Nat) : (d.setF a lo w v).early = d.early := rfl
@[simp] theorem setF_ptp (a lo w v : Nat) : (d.setF a lo w v).ptp = d.ptp := rfl
@[simp] theorem setF_naps (a lo w v : Nat) : (d.setF a lo w v).naps = d.naps := rfl
@[simp] theorem setF_tocq (a lo w v : Nat) : (d.setF a lo w v).tocq = d.tocq := rfl
@[simp] theorem setF_tocWake (a lo w v : Nat) : (d.setF a lo w v).tocWake = d.tocWake := rfl
@[simp] theorem setF_car (a lo w v : Nat) : (d.setF a lo w v).car = d.car := rfl
@[simp] theorem setF_tcores (a lo w v : Nat) : (d.setF a lo w v).tcores = d.tcores := rfl
@[simp] theorem setF_scores (a lo w v : Nat) : (d.setF a lo w v).scores = d.scores := rfl
@[simp] theorem setF_timers (a lo w v : Nat) : (d.setF a lo w v).timers = d.timers := rfl
@[simp] theorem setF_pins (a lo w v : Nat) : (d.setF a lo w v).pins = d.pins := rfl
@[simp] theorem setF_fence (a lo w v : Nat) : (d.setF a lo w v).fence = d.fence := rfl
@[simp] theorem setF_failedQ (a lo w v : Nat) : (d.setF a lo w v).failedQ = d.failedQ := rfl
@[simp] theorem setF_fenceList (a lo w v : Nat) : (d.setF a lo w v).fenceList = d.fenceList := rfl
@[simp] theorem setF_fenceOld (a lo w v : Nat) : (d.setF a lo w v).fenceOld = d.fenceOld := rfl
@[simp] theorem setF_alarmQ (a lo w v : Nat) : (d.setF a lo w v).alarmQ = d.alarmQ := rfl
@[simp] theorem setF_alarmUs (a lo w v : Nat) : (d.setF a lo w v).alarmUs = d.alarmUs := rfl
@[simp] theorem setF_rtcFrac (a lo w v : Nat) : (d.setF a lo w v).rtcFrac = d.rtcFrac := rfl
@[simp] theorem setF_ppsLast (a lo w v : Nat) : (d.setF a lo w v).ppsLast = d.ppsLast := rfl
@[simp] theorem setF_ppsCorr (a lo w v : Nat) : (d.setF a lo w v).ppsCorr = d.ppsCorr := rfl
@[simp] theorem setF_slew (a lo w v : Nat) : (d.setF a lo w v).slew = d.slew := rfl
@[simp] theorem setF_taiSet (a lo w v : Nat) : (d.setF a lo w v).taiSet = d.taiSet := rfl
@[simp] theorem setF_fabDevs (a lo w v : Nat) : (d.setF a lo w v).fabDevs = d.fabDevs := rfl
@[simp] theorem setF_fabSpans (a lo w v : Nat) : (d.setF a lo w v).fabSpans = d.fabSpans := rfl
@[simp] theorem setF_links (a lo w v : Nat) : (d.setF a lo w v).links = d.links := rfl
@[simp] theorem setF_lports (a lo w v : Nat) : (d.setF a lo w v).lports = d.lports := rfl
@[simp] theorem setF_oports (a lo w v : Nat) : (d.setF a lo w v).oports = d.oports := rfl
@[simp] theorem setF_colls (a lo w v : Nat) : (d.setF a lo w v).colls = d.colls := rfl
@[simp] theorem setF_bulks (a lo w v : Nat) : (d.setF a lo w v).bulks = d.bulks := rfl
@[simp] theorem setF_reqs (a lo w v : Nat) : (d.setF a lo w v).reqs = d.reqs := rfl
@[simp] theorem setF_cal (a lo w v : Nat) : (d.setF a lo w v).cal = d.cal := rfl
@[simp] theorem setF_pwr (a lo w v : Nat) : (d.setF a lo w v).pwr = d.pwr := rfl
@[simp] theorem setF_ddrEpoch (a lo w v : Nat) : (d.setF a lo w v).ddrEpoch = d.ddrEpoch := rfl
@[simp] theorem setF_dma (a lo w v : Nat) : (d.setF a lo w v).dma = d.dma := rfl
@[simp] theorem setF_heldAcc (a lo w v : Nat) : (d.setF a lo w v).heldAcc = d.heldAcc := rfl
@[simp] theorem setF_d3hot (a lo w v : Nat) : (d.setF a lo w v).d3hot = d.d3hot := rfl
@[simp] theorem setF_trace (a lo w v : Nat) : (d.setF a lo w v).trace = d.trace := rfl
@[simp] theorem setF_nextTag (a lo w v : Nat) : (d.setF a lo w v).nextTag = d.nextTag := rfl
@[simp] theorem setF_vfEnable (a lo w v : Nat) : (d.setF a lo w v).vfEnable = d.vfEnable := rfl
@[simp] theorem setF_numVfs (a lo w v : Nat) : (d.setF a lo w v).numVfs = d.numVfs := rfl
@[simp] theorem setF_nonce (a lo w v : Nat) : (d.setF a lo w v).nonce = d.nonce := rfl
@[simp] theorem setF_out (a lo w v : Nat) : (d.setF a lo w v).out = d.out := rfl
@[simp] theorem setF_core_at (a lo w v : Nat) (j : Nat) : (d.setF a lo w v).core j = d.core j := rfl
@[simp] theorem setF_part_at (a lo w v : Nat) (j : Nat) : (d.setF a lo w v).part j = d.part j := rfl
@[simp] theorem setF_region_at (a lo w v : Nat) (j : Nat) : (d.setF a lo w v).region j = d.region j := rfl
@[simp] theorem setF_fn_at (a lo w v : Nat) (j : Nat) : (d.setF a lo w v).fn j = d.fn j := rfl

/-! ### `setFlag` -/

@[simp] theorem setFlag_mem (a k : Nat) (x : Bool) : (d.setFlag a k x).mem = d.mem := rfl
@[simp] theorem setFlag_ecc (a k : Nat) (x : Bool) : (d.setFlag a k x).ecc = d.ecc := rfl
@[simp] theorem setFlag_latch (a k : Nat) (x : Bool) : (d.setFlag a k x).latch = d.latch := rfl
@[simp] theorem setFlag_cores (a k : Nat) (x : Bool) : (d.setFlag a k x).cores = d.cores := rfl
@[simp] theorem setFlag_parts (a k : Nat) (x : Bool) : (d.setFlag a k x).parts = d.parts := rfl
@[simp] theorem setFlag_regions (a k : Nat) (x : Bool) : (d.setFlag a k x).regions = d.regions := rfl
@[simp] theorem setFlag_sent (a k : Nat) (x : Bool) : (d.setFlag a k x).sent = d.sent := rfl
@[simp] theorem setFlag_filed (a k : Nat) (x : Bool) : (d.setFlag a k x).filed = d.filed := rfl
@[simp] theorem setFlag_packs (a k : Nat) (x : Bool) : (d.setFlag a k x).packs = d.packs := rfl
@[simp] theorem setFlag_net (a k : Nat) (x : Bool) : (d.setFlag a k x).net = d.net := rfl
@[simp] theorem setFlag_inbox (a k : Nat) (x : Bool) : (d.setFlag a k x).inbox = d.inbox := rfl
@[simp] theorem setFlag_sites (a k : Nat) (x : Bool) : (d.setFlag a k x).sites = d.sites := rfl
@[simp] theorem setFlag_tunPacks (a k : Nat) (x : Bool) : (d.setFlag a k x).tunPacks = d.tunPacks := rfl
@[simp] theorem setFlag_early (a k : Nat) (x : Bool) : (d.setFlag a k x).early = d.early := rfl
@[simp] theorem setFlag_ptp (a k : Nat) (x : Bool) : (d.setFlag a k x).ptp = d.ptp := rfl
@[simp] theorem setFlag_naps (a k : Nat) (x : Bool) : (d.setFlag a k x).naps = d.naps := rfl
@[simp] theorem setFlag_tocq (a k : Nat) (x : Bool) : (d.setFlag a k x).tocq = d.tocq := rfl
@[simp] theorem setFlag_tocWake (a k : Nat) (x : Bool) : (d.setFlag a k x).tocWake = d.tocWake := rfl
@[simp] theorem setFlag_car (a k : Nat) (x : Bool) : (d.setFlag a k x).car = d.car := rfl
@[simp] theorem setFlag_tcores (a k : Nat) (x : Bool) : (d.setFlag a k x).tcores = d.tcores := rfl
@[simp] theorem setFlag_scores (a k : Nat) (x : Bool) : (d.setFlag a k x).scores = d.scores := rfl
@[simp] theorem setFlag_timers (a k : Nat) (x : Bool) : (d.setFlag a k x).timers = d.timers := rfl
@[simp] theorem setFlag_pins (a k : Nat) (x : Bool) : (d.setFlag a k x).pins = d.pins := rfl
@[simp] theorem setFlag_fence (a k : Nat) (x : Bool) : (d.setFlag a k x).fence = d.fence := rfl
@[simp] theorem setFlag_failedQ (a k : Nat) (x : Bool) : (d.setFlag a k x).failedQ = d.failedQ := rfl
@[simp] theorem setFlag_fenceList (a k : Nat) (x : Bool) : (d.setFlag a k x).fenceList = d.fenceList := rfl
@[simp] theorem setFlag_fenceOld (a k : Nat) (x : Bool) : (d.setFlag a k x).fenceOld = d.fenceOld := rfl
@[simp] theorem setFlag_alarmQ (a k : Nat) (x : Bool) : (d.setFlag a k x).alarmQ = d.alarmQ := rfl
@[simp] theorem setFlag_alarmUs (a k : Nat) (x : Bool) : (d.setFlag a k x).alarmUs = d.alarmUs := rfl
@[simp] theorem setFlag_rtcFrac (a k : Nat) (x : Bool) : (d.setFlag a k x).rtcFrac = d.rtcFrac := rfl
@[simp] theorem setFlag_ppsLast (a k : Nat) (x : Bool) : (d.setFlag a k x).ppsLast = d.ppsLast := rfl
@[simp] theorem setFlag_ppsCorr (a k : Nat) (x : Bool) : (d.setFlag a k x).ppsCorr = d.ppsCorr := rfl
@[simp] theorem setFlag_slew (a k : Nat) (x : Bool) : (d.setFlag a k x).slew = d.slew := rfl
@[simp] theorem setFlag_taiSet (a k : Nat) (x : Bool) : (d.setFlag a k x).taiSet = d.taiSet := rfl
@[simp] theorem setFlag_fabDevs (a k : Nat) (x : Bool) : (d.setFlag a k x).fabDevs = d.fabDevs := rfl
@[simp] theorem setFlag_fabSpans (a k : Nat) (x : Bool) : (d.setFlag a k x).fabSpans = d.fabSpans := rfl
@[simp] theorem setFlag_links (a k : Nat) (x : Bool) : (d.setFlag a k x).links = d.links := rfl
@[simp] theorem setFlag_lports (a k : Nat) (x : Bool) : (d.setFlag a k x).lports = d.lports := rfl
@[simp] theorem setFlag_oports (a k : Nat) (x : Bool) : (d.setFlag a k x).oports = d.oports := rfl
@[simp] theorem setFlag_colls (a k : Nat) (x : Bool) : (d.setFlag a k x).colls = d.colls := rfl
@[simp] theorem setFlag_bulks (a k : Nat) (x : Bool) : (d.setFlag a k x).bulks = d.bulks := rfl
@[simp] theorem setFlag_reqs (a k : Nat) (x : Bool) : (d.setFlag a k x).reqs = d.reqs := rfl
@[simp] theorem setFlag_cal (a k : Nat) (x : Bool) : (d.setFlag a k x).cal = d.cal := rfl
@[simp] theorem setFlag_pwr (a k : Nat) (x : Bool) : (d.setFlag a k x).pwr = d.pwr := rfl
@[simp] theorem setFlag_ddrEpoch (a k : Nat) (x : Bool) : (d.setFlag a k x).ddrEpoch = d.ddrEpoch := rfl
@[simp] theorem setFlag_dma (a k : Nat) (x : Bool) : (d.setFlag a k x).dma = d.dma := rfl
@[simp] theorem setFlag_heldAcc (a k : Nat) (x : Bool) : (d.setFlag a k x).heldAcc = d.heldAcc := rfl
@[simp] theorem setFlag_d3hot (a k : Nat) (x : Bool) : (d.setFlag a k x).d3hot = d.d3hot := rfl
@[simp] theorem setFlag_trace (a k : Nat) (x : Bool) : (d.setFlag a k x).trace = d.trace := rfl
@[simp] theorem setFlag_nextTag (a k : Nat) (x : Bool) : (d.setFlag a k x).nextTag = d.nextTag := rfl
@[simp] theorem setFlag_vfEnable (a k : Nat) (x : Bool) : (d.setFlag a k x).vfEnable = d.vfEnable := rfl
@[simp] theorem setFlag_numVfs (a k : Nat) (x : Bool) : (d.setFlag a k x).numVfs = d.numVfs := rfl
@[simp] theorem setFlag_nonce (a k : Nat) (x : Bool) : (d.setFlag a k x).nonce = d.nonce := rfl
@[simp] theorem setFlag_out (a k : Nat) (x : Bool) : (d.setFlag a k x).out = d.out := rfl
@[simp] theorem setFlag_core_at (a k : Nat) (x : Bool) (j : Nat) : (d.setFlag a k x).core j = d.core j := rfl
@[simp] theorem setFlag_part_at (a k : Nat) (x : Bool) (j : Nat) : (d.setFlag a k x).part j = d.part j := rfl
@[simp] theorem setFlag_region_at (a k : Nat) (x : Bool) (j : Nat) : (d.setFlag a k x).region j = d.region j := rfl
@[simp] theorem setFlag_fn_at (a k : Nat) (x : Bool) (j : Nat) : (d.setFlag a k x).fn j = d.fn j := rfl

/-! ### `bump` -/

@[simp] theorem bump_mem (a k : Nat) : (d.bump a k).mem = d.mem := rfl
@[simp] theorem bump_ecc (a k : Nat) : (d.bump a k).ecc = d.ecc := rfl
@[simp] theorem bump_latch (a k : Nat) : (d.bump a k).latch = d.latch := rfl
@[simp] theorem bump_cores (a k : Nat) : (d.bump a k).cores = d.cores := rfl
@[simp] theorem bump_parts (a k : Nat) : (d.bump a k).parts = d.parts := rfl
@[simp] theorem bump_regions (a k : Nat) : (d.bump a k).regions = d.regions := rfl
@[simp] theorem bump_sent (a k : Nat) : (d.bump a k).sent = d.sent := rfl
@[simp] theorem bump_filed (a k : Nat) : (d.bump a k).filed = d.filed := rfl
@[simp] theorem bump_packs (a k : Nat) : (d.bump a k).packs = d.packs := rfl
@[simp] theorem bump_net (a k : Nat) : (d.bump a k).net = d.net := rfl
@[simp] theorem bump_inbox (a k : Nat) : (d.bump a k).inbox = d.inbox := rfl
@[simp] theorem bump_sites (a k : Nat) : (d.bump a k).sites = d.sites := rfl
@[simp] theorem bump_tunPacks (a k : Nat) : (d.bump a k).tunPacks = d.tunPacks := rfl
@[simp] theorem bump_early (a k : Nat) : (d.bump a k).early = d.early := rfl
@[simp] theorem bump_ptp (a k : Nat) : (d.bump a k).ptp = d.ptp := rfl
@[simp] theorem bump_naps (a k : Nat) : (d.bump a k).naps = d.naps := rfl
@[simp] theorem bump_tocq (a k : Nat) : (d.bump a k).tocq = d.tocq := rfl
@[simp] theorem bump_tocWake (a k : Nat) : (d.bump a k).tocWake = d.tocWake := rfl
@[simp] theorem bump_car (a k : Nat) : (d.bump a k).car = d.car := rfl
@[simp] theorem bump_tcores (a k : Nat) : (d.bump a k).tcores = d.tcores := rfl
@[simp] theorem bump_scores (a k : Nat) : (d.bump a k).scores = d.scores := rfl
@[simp] theorem bump_timers (a k : Nat) : (d.bump a k).timers = d.timers := rfl
@[simp] theorem bump_pins (a k : Nat) : (d.bump a k).pins = d.pins := rfl
@[simp] theorem bump_fence (a k : Nat) : (d.bump a k).fence = d.fence := rfl
@[simp] theorem bump_failedQ (a k : Nat) : (d.bump a k).failedQ = d.failedQ := rfl
@[simp] theorem bump_fenceList (a k : Nat) : (d.bump a k).fenceList = d.fenceList := rfl
@[simp] theorem bump_fenceOld (a k : Nat) : (d.bump a k).fenceOld = d.fenceOld := rfl
@[simp] theorem bump_alarmQ (a k : Nat) : (d.bump a k).alarmQ = d.alarmQ := rfl
@[simp] theorem bump_alarmUs (a k : Nat) : (d.bump a k).alarmUs = d.alarmUs := rfl
@[simp] theorem bump_rtcFrac (a k : Nat) : (d.bump a k).rtcFrac = d.rtcFrac := rfl
@[simp] theorem bump_ppsLast (a k : Nat) : (d.bump a k).ppsLast = d.ppsLast := rfl
@[simp] theorem bump_ppsCorr (a k : Nat) : (d.bump a k).ppsCorr = d.ppsCorr := rfl
@[simp] theorem bump_slew (a k : Nat) : (d.bump a k).slew = d.slew := rfl
@[simp] theorem bump_taiSet (a k : Nat) : (d.bump a k).taiSet = d.taiSet := rfl
@[simp] theorem bump_fabDevs (a k : Nat) : (d.bump a k).fabDevs = d.fabDevs := rfl
@[simp] theorem bump_fabSpans (a k : Nat) : (d.bump a k).fabSpans = d.fabSpans := rfl
@[simp] theorem bump_links (a k : Nat) : (d.bump a k).links = d.links := rfl
@[simp] theorem bump_lports (a k : Nat) : (d.bump a k).lports = d.lports := rfl
@[simp] theorem bump_oports (a k : Nat) : (d.bump a k).oports = d.oports := rfl
@[simp] theorem bump_colls (a k : Nat) : (d.bump a k).colls = d.colls := rfl
@[simp] theorem bump_bulks (a k : Nat) : (d.bump a k).bulks = d.bulks := rfl
@[simp] theorem bump_reqs (a k : Nat) : (d.bump a k).reqs = d.reqs := rfl
@[simp] theorem bump_cal (a k : Nat) : (d.bump a k).cal = d.cal := rfl
@[simp] theorem bump_pwr (a k : Nat) : (d.bump a k).pwr = d.pwr := rfl
@[simp] theorem bump_ddrEpoch (a k : Nat) : (d.bump a k).ddrEpoch = d.ddrEpoch := rfl
@[simp] theorem bump_dma (a k : Nat) : (d.bump a k).dma = d.dma := rfl
@[simp] theorem bump_heldAcc (a k : Nat) : (d.bump a k).heldAcc = d.heldAcc := rfl
@[simp] theorem bump_d3hot (a k : Nat) : (d.bump a k).d3hot = d.d3hot := rfl
@[simp] theorem bump_trace (a k : Nat) : (d.bump a k).trace = d.trace := rfl
@[simp] theorem bump_nextTag (a k : Nat) : (d.bump a k).nextTag = d.nextTag := rfl
@[simp] theorem bump_vfEnable (a k : Nat) : (d.bump a k).vfEnable = d.vfEnable := rfl
@[simp] theorem bump_numVfs (a k : Nat) : (d.bump a k).numVfs = d.numVfs := rfl
@[simp] theorem bump_nonce (a k : Nat) : (d.bump a k).nonce = d.nonce := rfl
@[simp] theorem bump_out (a k : Nat) : (d.bump a k).out = d.out := rfl
@[simp] theorem bump_core_at (a k : Nat) (j : Nat) : (d.bump a k).core j = d.core j := rfl
@[simp] theorem bump_part_at (a k : Nat) (j : Nat) : (d.bump a k).part j = d.part j := rfl
@[simp] theorem bump_region_at (a k : Nat) (j : Nat) : (d.bump a k).region j = d.region j := rfl
@[simp] theorem bump_fn_at (a k : Nat) (j : Nat) : (d.bump a k).fn j = d.fn j := rfl

/-! ### `set64` -/

@[simp] theorem set64_mem (a v : Nat) : (d.set64 a v).mem = d.mem := rfl
@[simp] theorem set64_ecc (a v : Nat) : (d.set64 a v).ecc = d.ecc := rfl
@[simp] theorem set64_latch (a v : Nat) : (d.set64 a v).latch = d.latch := rfl
@[simp] theorem set64_cores (a v : Nat) : (d.set64 a v).cores = d.cores := rfl
@[simp] theorem set64_parts (a v : Nat) : (d.set64 a v).parts = d.parts := rfl
@[simp] theorem set64_regions (a v : Nat) : (d.set64 a v).regions = d.regions := rfl
@[simp] theorem set64_sent (a v : Nat) : (d.set64 a v).sent = d.sent := rfl
@[simp] theorem set64_filed (a v : Nat) : (d.set64 a v).filed = d.filed := rfl
@[simp] theorem set64_packs (a v : Nat) : (d.set64 a v).packs = d.packs := rfl
@[simp] theorem set64_net (a v : Nat) : (d.set64 a v).net = d.net := rfl
@[simp] theorem set64_inbox (a v : Nat) : (d.set64 a v).inbox = d.inbox := rfl
@[simp] theorem set64_sites (a v : Nat) : (d.set64 a v).sites = d.sites := rfl
@[simp] theorem set64_tunPacks (a v : Nat) : (d.set64 a v).tunPacks = d.tunPacks := rfl
@[simp] theorem set64_early (a v : Nat) : (d.set64 a v).early = d.early := rfl
@[simp] theorem set64_ptp (a v : Nat) : (d.set64 a v).ptp = d.ptp := rfl
@[simp] theorem set64_naps (a v : Nat) : (d.set64 a v).naps = d.naps := rfl
@[simp] theorem set64_tocq (a v : Nat) : (d.set64 a v).tocq = d.tocq := rfl
@[simp] theorem set64_tocWake (a v : Nat) : (d.set64 a v).tocWake = d.tocWake := rfl
@[simp] theorem set64_car (a v : Nat) : (d.set64 a v).car = d.car := rfl
@[simp] theorem set64_tcores (a v : Nat) : (d.set64 a v).tcores = d.tcores := rfl
@[simp] theorem set64_scores (a v : Nat) : (d.set64 a v).scores = d.scores := rfl
@[simp] theorem set64_timers (a v : Nat) : (d.set64 a v).timers = d.timers := rfl
@[simp] theorem set64_pins (a v : Nat) : (d.set64 a v).pins = d.pins := rfl
@[simp] theorem set64_fence (a v : Nat) : (d.set64 a v).fence = d.fence := rfl
@[simp] theorem set64_failedQ (a v : Nat) : (d.set64 a v).failedQ = d.failedQ := rfl
@[simp] theorem set64_fenceList (a v : Nat) : (d.set64 a v).fenceList = d.fenceList := rfl
@[simp] theorem set64_fenceOld (a v : Nat) : (d.set64 a v).fenceOld = d.fenceOld := rfl
@[simp] theorem set64_alarmQ (a v : Nat) : (d.set64 a v).alarmQ = d.alarmQ := rfl
@[simp] theorem set64_alarmUs (a v : Nat) : (d.set64 a v).alarmUs = d.alarmUs := rfl
@[simp] theorem set64_rtcFrac (a v : Nat) : (d.set64 a v).rtcFrac = d.rtcFrac := rfl
@[simp] theorem set64_ppsLast (a v : Nat) : (d.set64 a v).ppsLast = d.ppsLast := rfl
@[simp] theorem set64_ppsCorr (a v : Nat) : (d.set64 a v).ppsCorr = d.ppsCorr := rfl
@[simp] theorem set64_slew (a v : Nat) : (d.set64 a v).slew = d.slew := rfl
@[simp] theorem set64_taiSet (a v : Nat) : (d.set64 a v).taiSet = d.taiSet := rfl
@[simp] theorem set64_fabDevs (a v : Nat) : (d.set64 a v).fabDevs = d.fabDevs := rfl
@[simp] theorem set64_fabSpans (a v : Nat) : (d.set64 a v).fabSpans = d.fabSpans := rfl
@[simp] theorem set64_links (a v : Nat) : (d.set64 a v).links = d.links := rfl
@[simp] theorem set64_lports (a v : Nat) : (d.set64 a v).lports = d.lports := rfl
@[simp] theorem set64_oports (a v : Nat) : (d.set64 a v).oports = d.oports := rfl
@[simp] theorem set64_colls (a v : Nat) : (d.set64 a v).colls = d.colls := rfl
@[simp] theorem set64_bulks (a v : Nat) : (d.set64 a v).bulks = d.bulks := rfl
@[simp] theorem set64_reqs (a v : Nat) : (d.set64 a v).reqs = d.reqs := rfl
@[simp] theorem set64_cal (a v : Nat) : (d.set64 a v).cal = d.cal := rfl
@[simp] theorem set64_pwr (a v : Nat) : (d.set64 a v).pwr = d.pwr := rfl
@[simp] theorem set64_ddrEpoch (a v : Nat) : (d.set64 a v).ddrEpoch = d.ddrEpoch := rfl
@[simp] theorem set64_dma (a v : Nat) : (d.set64 a v).dma = d.dma := rfl
@[simp] theorem set64_heldAcc (a v : Nat) : (d.set64 a v).heldAcc = d.heldAcc := rfl
@[simp] theorem set64_d3hot (a v : Nat) : (d.set64 a v).d3hot = d.d3hot := rfl
@[simp] theorem set64_trace (a v : Nat) : (d.set64 a v).trace = d.trace := rfl
@[simp] theorem set64_nextTag (a v : Nat) : (d.set64 a v).nextTag = d.nextTag := rfl
@[simp] theorem set64_vfEnable (a v : Nat) : (d.set64 a v).vfEnable = d.vfEnable := rfl
@[simp] theorem set64_numVfs (a v : Nat) : (d.set64 a v).numVfs = d.numVfs := rfl
@[simp] theorem set64_nonce (a v : Nat) : (d.set64 a v).nonce = d.nonce := rfl
@[simp] theorem set64_out (a v : Nat) : (d.set64 a v).out = d.out := rfl
@[simp] theorem set64_core_at (a v : Nat) (j : Nat) : (d.set64 a v).core j = d.core j := rfl
@[simp] theorem set64_part_at (a v : Nat) (j : Nat) : (d.set64 a v).part j = d.part j := rfl
@[simp] theorem set64_region_at (a v : Nat) (j : Nat) : (d.set64 a v).region j = d.region j := rfl
@[simp] theorem set64_fn_at (a v : Nat) (j : Nat) : (d.set64 a v).fn j = d.fn j := rfl

/-! ### `emit` -/

@[simp] theorem emit_regs (o : Output) : (d.emit o).regs = d.regs := rfl
@[simp] theorem emit_mem (o : Output) : (d.emit o).mem = d.mem := rfl
@[simp] theorem emit_ecc (o : Output) : (d.emit o).ecc = d.ecc := rfl
@[simp] theorem emit_latch (o : Output) : (d.emit o).latch = d.latch := rfl
@[simp] theorem emit_cores (o : Output) : (d.emit o).cores = d.cores := rfl
@[simp] theorem emit_parts (o : Output) : (d.emit o).parts = d.parts := rfl
@[simp] theorem emit_regions (o : Output) : (d.emit o).regions = d.regions := rfl
@[simp] theorem emit_sent (o : Output) : (d.emit o).sent = d.sent := rfl
@[simp] theorem emit_filed (o : Output) : (d.emit o).filed = d.filed := rfl
@[simp] theorem emit_packs (o : Output) : (d.emit o).packs = d.packs := rfl
@[simp] theorem emit_net (o : Output) : (d.emit o).net = d.net := rfl
@[simp] theorem emit_inbox (o : Output) : (d.emit o).inbox = d.inbox := rfl
@[simp] theorem emit_sites (o : Output) : (d.emit o).sites = d.sites := rfl
@[simp] theorem emit_tunPacks (o : Output) : (d.emit o).tunPacks = d.tunPacks := rfl
@[simp] theorem emit_early (o : Output) : (d.emit o).early = d.early := rfl
@[simp] theorem emit_ptp (o : Output) : (d.emit o).ptp = d.ptp := rfl
@[simp] theorem emit_naps (o : Output) : (d.emit o).naps = d.naps := rfl
@[simp] theorem emit_tocq (o : Output) : (d.emit o).tocq = d.tocq := rfl
@[simp] theorem emit_tocWake (o : Output) : (d.emit o).tocWake = d.tocWake := rfl
@[simp] theorem emit_car (o : Output) : (d.emit o).car = d.car := rfl
@[simp] theorem emit_tcores (o : Output) : (d.emit o).tcores = d.tcores := rfl
@[simp] theorem emit_scores (o : Output) : (d.emit o).scores = d.scores := rfl
@[simp] theorem emit_timers (o : Output) : (d.emit o).timers = d.timers := rfl
@[simp] theorem emit_pins (o : Output) : (d.emit o).pins = d.pins := rfl
@[simp] theorem emit_fence (o : Output) : (d.emit o).fence = d.fence := rfl
@[simp] theorem emit_failedQ (o : Output) : (d.emit o).failedQ = d.failedQ := rfl
@[simp] theorem emit_fenceList (o : Output) : (d.emit o).fenceList = d.fenceList := rfl
@[simp] theorem emit_fenceOld (o : Output) : (d.emit o).fenceOld = d.fenceOld := rfl
@[simp] theorem emit_alarmQ (o : Output) : (d.emit o).alarmQ = d.alarmQ := rfl
@[simp] theorem emit_alarmUs (o : Output) : (d.emit o).alarmUs = d.alarmUs := rfl
@[simp] theorem emit_rtcFrac (o : Output) : (d.emit o).rtcFrac = d.rtcFrac := rfl
@[simp] theorem emit_ppsLast (o : Output) : (d.emit o).ppsLast = d.ppsLast := rfl
@[simp] theorem emit_ppsCorr (o : Output) : (d.emit o).ppsCorr = d.ppsCorr := rfl
@[simp] theorem emit_slew (o : Output) : (d.emit o).slew = d.slew := rfl
@[simp] theorem emit_taiSet (o : Output) : (d.emit o).taiSet = d.taiSet := rfl
@[simp] theorem emit_fabDevs (o : Output) : (d.emit o).fabDevs = d.fabDevs := rfl
@[simp] theorem emit_fabSpans (o : Output) : (d.emit o).fabSpans = d.fabSpans := rfl
@[simp] theorem emit_links (o : Output) : (d.emit o).links = d.links := rfl
@[simp] theorem emit_lports (o : Output) : (d.emit o).lports = d.lports := rfl
@[simp] theorem emit_oports (o : Output) : (d.emit o).oports = d.oports := rfl
@[simp] theorem emit_colls (o : Output) : (d.emit o).colls = d.colls := rfl
@[simp] theorem emit_bulks (o : Output) : (d.emit o).bulks = d.bulks := rfl
@[simp] theorem emit_reqs (o : Output) : (d.emit o).reqs = d.reqs := rfl
@[simp] theorem emit_cal (o : Output) : (d.emit o).cal = d.cal := rfl
@[simp] theorem emit_pwr (o : Output) : (d.emit o).pwr = d.pwr := rfl
@[simp] theorem emit_ddrEpoch (o : Output) : (d.emit o).ddrEpoch = d.ddrEpoch := rfl
@[simp] theorem emit_dma (o : Output) : (d.emit o).dma = d.dma := rfl
@[simp] theorem emit_heldAcc (o : Output) : (d.emit o).heldAcc = d.heldAcc := rfl
@[simp] theorem emit_d3hot (o : Output) : (d.emit o).d3hot = d.d3hot := rfl
@[simp] theorem emit_trace (o : Output) : (d.emit o).trace = d.trace := rfl
@[simp] theorem emit_nextTag (o : Output) : (d.emit o).nextTag = d.nextTag := rfl
@[simp] theorem emit_vfEnable (o : Output) : (d.emit o).vfEnable = d.vfEnable := rfl
@[simp] theorem emit_numVfs (o : Output) : (d.emit o).numVfs = d.numVfs := rfl
@[simp] theorem emit_nonce (o : Output) : (d.emit o).nonce = d.nonce := rfl
@[simp] theorem emit_rg (o : Output) (b : Nat) : (d.emit o).rg b = d.rg b := rfl
@[simp] theorem emit_fld (o : Output) (b lo w : Nat) : (d.emit o).fld b lo w = d.fld b lo w := rfl
@[simp] theorem emit_flag (o : Output) (b k : Nat) : (d.emit o).flag b k = d.flag b k := rfl
@[simp] theorem emit_core_at (o : Output) (j : Nat) : (d.emit o).core j = d.core j := rfl
@[simp] theorem emit_part_at (o : Output) (j : Nat) : (d.emit o).part j = d.part j := rfl
@[simp] theorem emit_region_at (o : Output) (j : Nat) : (d.emit o).region j = d.region j := rfl
@[simp] theorem emit_fn_at (o : Output) (j : Nat) : (d.emit o).fn j = d.fn j := rfl
@[simp] theorem emit_out (o : Output) : (d.emit o).out = d.out ++ [o] := rfl

/-! ### `setCore` -/

@[simp] theorem setCore_regs (n : Nat) (c : NCore) : (d.setCore n c).regs = d.regs := rfl
@[simp] theorem setCore_mem (n : Nat) (c : NCore) : (d.setCore n c).mem = d.mem := rfl
@[simp] theorem setCore_ecc (n : Nat) (c : NCore) : (d.setCore n c).ecc = d.ecc := rfl
@[simp] theorem setCore_latch (n : Nat) (c : NCore) : (d.setCore n c).latch = d.latch := rfl
@[simp] theorem setCore_parts (n : Nat) (c : NCore) : (d.setCore n c).parts = d.parts := rfl
@[simp] theorem setCore_regions (n : Nat) (c : NCore) : (d.setCore n c).regions = d.regions := rfl
@[simp] theorem setCore_sent (n : Nat) (c : NCore) : (d.setCore n c).sent = d.sent := rfl
@[simp] theorem setCore_filed (n : Nat) (c : NCore) : (d.setCore n c).filed = d.filed := rfl
@[simp] theorem setCore_packs (n : Nat) (c : NCore) : (d.setCore n c).packs = d.packs := rfl
@[simp] theorem setCore_net (n : Nat) (c : NCore) : (d.setCore n c).net = d.net := rfl
@[simp] theorem setCore_inbox (n : Nat) (c : NCore) : (d.setCore n c).inbox = d.inbox := rfl
@[simp] theorem setCore_sites (n : Nat) (c : NCore) : (d.setCore n c).sites = d.sites := rfl
@[simp] theorem setCore_tunPacks (n : Nat) (c : NCore) : (d.setCore n c).tunPacks = d.tunPacks := rfl
@[simp] theorem setCore_early (n : Nat) (c : NCore) : (d.setCore n c).early = d.early := rfl
@[simp] theorem setCore_ptp (n : Nat) (c : NCore) : (d.setCore n c).ptp = d.ptp := rfl
@[simp] theorem setCore_naps (n : Nat) (c : NCore) : (d.setCore n c).naps = d.naps := rfl
@[simp] theorem setCore_tocq (n : Nat) (c : NCore) : (d.setCore n c).tocq = d.tocq := rfl
@[simp] theorem setCore_tocWake (n : Nat) (c : NCore) : (d.setCore n c).tocWake = d.tocWake := rfl
@[simp] theorem setCore_car (n : Nat) (c : NCore) : (d.setCore n c).car = d.car := rfl
@[simp] theorem setCore_tcores (n : Nat) (c : NCore) : (d.setCore n c).tcores = d.tcores := rfl
@[simp] theorem setCore_scores (n : Nat) (c : NCore) : (d.setCore n c).scores = d.scores := rfl
@[simp] theorem setCore_timers (n : Nat) (c : NCore) : (d.setCore n c).timers = d.timers := rfl
@[simp] theorem setCore_pins (n : Nat) (c : NCore) : (d.setCore n c).pins = d.pins := rfl
@[simp] theorem setCore_fence (n : Nat) (c : NCore) : (d.setCore n c).fence = d.fence := rfl
@[simp] theorem setCore_failedQ (n : Nat) (c : NCore) : (d.setCore n c).failedQ = d.failedQ := rfl
@[simp] theorem setCore_fenceList (n : Nat) (c : NCore) : (d.setCore n c).fenceList = d.fenceList := rfl
@[simp] theorem setCore_fenceOld (n : Nat) (c : NCore) : (d.setCore n c).fenceOld = d.fenceOld := rfl
@[simp] theorem setCore_alarmQ (n : Nat) (c : NCore) : (d.setCore n c).alarmQ = d.alarmQ := rfl
@[simp] theorem setCore_alarmUs (n : Nat) (c : NCore) : (d.setCore n c).alarmUs = d.alarmUs := rfl
@[simp] theorem setCore_rtcFrac (n : Nat) (c : NCore) : (d.setCore n c).rtcFrac = d.rtcFrac := rfl
@[simp] theorem setCore_ppsLast (n : Nat) (c : NCore) : (d.setCore n c).ppsLast = d.ppsLast := rfl
@[simp] theorem setCore_ppsCorr (n : Nat) (c : NCore) : (d.setCore n c).ppsCorr = d.ppsCorr := rfl
@[simp] theorem setCore_slew (n : Nat) (c : NCore) : (d.setCore n c).slew = d.slew := rfl
@[simp] theorem setCore_taiSet (n : Nat) (c : NCore) : (d.setCore n c).taiSet = d.taiSet := rfl
@[simp] theorem setCore_fabDevs (n : Nat) (c : NCore) : (d.setCore n c).fabDevs = d.fabDevs := rfl
@[simp] theorem setCore_fabSpans (n : Nat) (c : NCore) : (d.setCore n c).fabSpans = d.fabSpans := rfl
@[simp] theorem setCore_links (n : Nat) (c : NCore) : (d.setCore n c).links = d.links := rfl
@[simp] theorem setCore_lports (n : Nat) (c : NCore) : (d.setCore n c).lports = d.lports := rfl
@[simp] theorem setCore_oports (n : Nat) (c : NCore) : (d.setCore n c).oports = d.oports := rfl
@[simp] theorem setCore_colls (n : Nat) (c : NCore) : (d.setCore n c).colls = d.colls := rfl
@[simp] theorem setCore_bulks (n : Nat) (c : NCore) : (d.setCore n c).bulks = d.bulks := rfl
@[simp] theorem setCore_reqs (n : Nat) (c : NCore) : (d.setCore n c).reqs = d.reqs := rfl
@[simp] theorem setCore_cal (n : Nat) (c : NCore) : (d.setCore n c).cal = d.cal := rfl
@[simp] theorem setCore_pwr (n : Nat) (c : NCore) : (d.setCore n c).pwr = d.pwr := rfl
@[simp] theorem setCore_ddrEpoch (n : Nat) (c : NCore) : (d.setCore n c).ddrEpoch = d.ddrEpoch := rfl
@[simp] theorem setCore_dma (n : Nat) (c : NCore) : (d.setCore n c).dma = d.dma := rfl
@[simp] theorem setCore_heldAcc (n : Nat) (c : NCore) : (d.setCore n c).heldAcc = d.heldAcc := rfl
@[simp] theorem setCore_d3hot (n : Nat) (c : NCore) : (d.setCore n c).d3hot = d.d3hot := rfl
@[simp] theorem setCore_trace (n : Nat) (c : NCore) : (d.setCore n c).trace = d.trace := rfl
@[simp] theorem setCore_nextTag (n : Nat) (c : NCore) : (d.setCore n c).nextTag = d.nextTag := rfl
@[simp] theorem setCore_vfEnable (n : Nat) (c : NCore) : (d.setCore n c).vfEnable = d.vfEnable := rfl
@[simp] theorem setCore_numVfs (n : Nat) (c : NCore) : (d.setCore n c).numVfs = d.numVfs := rfl
@[simp] theorem setCore_nonce (n : Nat) (c : NCore) : (d.setCore n c).nonce = d.nonce := rfl
@[simp] theorem setCore_out (n : Nat) (c : NCore) : (d.setCore n c).out = d.out := rfl
@[simp] theorem setCore_rg (n : Nat) (c : NCore) (b : Nat) : (d.setCore n c).rg b = d.rg b := rfl
@[simp] theorem setCore_fld (n : Nat) (c : NCore) (b lo w : Nat) : (d.setCore n c).fld b lo w = d.fld b lo w := rfl
@[simp] theorem setCore_flag (n : Nat) (c : NCore) (b k : Nat) : (d.setCore n c).flag b k = d.flag b k := rfl
@[simp] theorem setCore_part_at (n : Nat) (c : NCore) (j : Nat) : (d.setCore n c).part j = d.part j := rfl
@[simp] theorem setCore_region_at (n : Nat) (c : NCore) (j : Nat) : (d.setCore n c).region j = d.region j := rfl
@[simp] theorem setCore_fn_at (n : Nat) (c : NCore) (j : Nat) : (d.setCore n c).fn j = d.fn j := rfl

/-! ### `setPart` -/

@[simp] theorem setPart_regs (p : Nat) (x : Part) : (d.setPart p x).regs = d.regs := rfl
@[simp] theorem setPart_mem (p : Nat) (x : Part) : (d.setPart p x).mem = d.mem := rfl
@[simp] theorem setPart_ecc (p : Nat) (x : Part) : (d.setPart p x).ecc = d.ecc := rfl
@[simp] theorem setPart_latch (p : Nat) (x : Part) : (d.setPart p x).latch = d.latch := rfl
@[simp] theorem setPart_cores (p : Nat) (x : Part) : (d.setPart p x).cores = d.cores := rfl
@[simp] theorem setPart_regions (p : Nat) (x : Part) : (d.setPart p x).regions = d.regions := rfl
@[simp] theorem setPart_sent (p : Nat) (x : Part) : (d.setPart p x).sent = d.sent := rfl
@[simp] theorem setPart_filed (p : Nat) (x : Part) : (d.setPart p x).filed = d.filed := rfl
@[simp] theorem setPart_packs (p : Nat) (x : Part) : (d.setPart p x).packs = d.packs := rfl
@[simp] theorem setPart_net (p : Nat) (x : Part) : (d.setPart p x).net = d.net := rfl
@[simp] theorem setPart_inbox (p : Nat) (x : Part) : (d.setPart p x).inbox = d.inbox := rfl
@[simp] theorem setPart_sites (p : Nat) (x : Part) : (d.setPart p x).sites = d.sites := rfl
@[simp] theorem setPart_tunPacks (p : Nat) (x : Part) : (d.setPart p x).tunPacks = d.tunPacks := rfl
@[simp] theorem setPart_early (p : Nat) (x : Part) : (d.setPart p x).early = d.early := rfl
@[simp] theorem setPart_ptp (p : Nat) (x : Part) : (d.setPart p x).ptp = d.ptp := rfl
@[simp] theorem setPart_naps (p : Nat) (x : Part) : (d.setPart p x).naps = d.naps := rfl
@[simp] theorem setPart_tocq (p : Nat) (x : Part) : (d.setPart p x).tocq = d.tocq := rfl
@[simp] theorem setPart_tocWake (p : Nat) (x : Part) : (d.setPart p x).tocWake = d.tocWake := rfl
@[simp] theorem setPart_car (p : Nat) (x : Part) : (d.setPart p x).car = d.car := rfl
@[simp] theorem setPart_tcores (p : Nat) (x : Part) : (d.setPart p x).tcores = d.tcores := rfl
@[simp] theorem setPart_scores (p : Nat) (x : Part) : (d.setPart p x).scores = d.scores := rfl
@[simp] theorem setPart_timers (p : Nat) (x : Part) : (d.setPart p x).timers = d.timers := rfl
@[simp] theorem setPart_pins (p : Nat) (x : Part) : (d.setPart p x).pins = d.pins := rfl
@[simp] theorem setPart_fence (p : Nat) (x : Part) : (d.setPart p x).fence = d.fence := rfl
@[simp] theorem setPart_failedQ (p : Nat) (x : Part) : (d.setPart p x).failedQ = d.failedQ := rfl
@[simp] theorem setPart_fenceList (p : Nat) (x : Part) : (d.setPart p x).fenceList = d.fenceList := rfl
@[simp] theorem setPart_fenceOld (p : Nat) (x : Part) : (d.setPart p x).fenceOld = d.fenceOld := rfl
@[simp] theorem setPart_alarmQ (p : Nat) (x : Part) : (d.setPart p x).alarmQ = d.alarmQ := rfl
@[simp] theorem setPart_alarmUs (p : Nat) (x : Part) : (d.setPart p x).alarmUs = d.alarmUs := rfl
@[simp] theorem setPart_rtcFrac (p : Nat) (x : Part) : (d.setPart p x).rtcFrac = d.rtcFrac := rfl
@[simp] theorem setPart_ppsLast (p : Nat) (x : Part) : (d.setPart p x).ppsLast = d.ppsLast := rfl
@[simp] theorem setPart_ppsCorr (p : Nat) (x : Part) : (d.setPart p x).ppsCorr = d.ppsCorr := rfl
@[simp] theorem setPart_slew (p : Nat) (x : Part) : (d.setPart p x).slew = d.slew := rfl
@[simp] theorem setPart_taiSet (p : Nat) (x : Part) : (d.setPart p x).taiSet = d.taiSet := rfl
@[simp] theorem setPart_fabDevs (p : Nat) (x : Part) : (d.setPart p x).fabDevs = d.fabDevs := rfl
@[simp] theorem setPart_fabSpans (p : Nat) (x : Part) : (d.setPart p x).fabSpans = d.fabSpans := rfl
@[simp] theorem setPart_links (p : Nat) (x : Part) : (d.setPart p x).links = d.links := rfl
@[simp] theorem setPart_lports (p : Nat) (x : Part) : (d.setPart p x).lports = d.lports := rfl
@[simp] theorem setPart_oports (p : Nat) (x : Part) : (d.setPart p x).oports = d.oports := rfl
@[simp] theorem setPart_colls (p : Nat) (x : Part) : (d.setPart p x).colls = d.colls := rfl
@[simp] theorem setPart_bulks (p : Nat) (x : Part) : (d.setPart p x).bulks = d.bulks := rfl
@[simp] theorem setPart_reqs (p : Nat) (x : Part) : (d.setPart p x).reqs = d.reqs := rfl
@[simp] theorem setPart_cal (p : Nat) (x : Part) : (d.setPart p x).cal = d.cal := rfl
@[simp] theorem setPart_pwr (p : Nat) (x : Part) : (d.setPart p x).pwr = d.pwr := rfl
@[simp] theorem setPart_ddrEpoch (p : Nat) (x : Part) : (d.setPart p x).ddrEpoch = d.ddrEpoch := rfl
@[simp] theorem setPart_dma (p : Nat) (x : Part) : (d.setPart p x).dma = d.dma := rfl
@[simp] theorem setPart_heldAcc (p : Nat) (x : Part) : (d.setPart p x).heldAcc = d.heldAcc := rfl
@[simp] theorem setPart_d3hot (p : Nat) (x : Part) : (d.setPart p x).d3hot = d.d3hot := rfl
@[simp] theorem setPart_trace (p : Nat) (x : Part) : (d.setPart p x).trace = d.trace := rfl
@[simp] theorem setPart_nextTag (p : Nat) (x : Part) : (d.setPart p x).nextTag = d.nextTag := rfl
@[simp] theorem setPart_vfEnable (p : Nat) (x : Part) : (d.setPart p x).vfEnable = d.vfEnable := rfl
@[simp] theorem setPart_numVfs (p : Nat) (x : Part) : (d.setPart p x).numVfs = d.numVfs := rfl
@[simp] theorem setPart_nonce (p : Nat) (x : Part) : (d.setPart p x).nonce = d.nonce := rfl
@[simp] theorem setPart_out (p : Nat) (x : Part) : (d.setPart p x).out = d.out := rfl
@[simp] theorem setPart_rg (p : Nat) (x : Part) (b : Nat) : (d.setPart p x).rg b = d.rg b := rfl
@[simp] theorem setPart_fld (p : Nat) (x : Part) (b lo w : Nat) : (d.setPart p x).fld b lo w = d.fld b lo w := rfl
@[simp] theorem setPart_flag (p : Nat) (x : Part) (b k : Nat) : (d.setPart p x).flag b k = d.flag b k := rfl
@[simp] theorem setPart_core_at (p : Nat) (x : Part) (j : Nat) : (d.setPart p x).core j = d.core j := rfl
@[simp] theorem setPart_region_at (p : Nat) (x : Part) (j : Nat) : (d.setPart p x).region j = d.region j := rfl
@[simp] theorem setPart_fn_at (p : Nat) (x : Part) (j : Nat) : (d.setPart p x).fn j = d.fn j := rfl

/-! ### `setRegion` -/

@[simp] theorem setRegion_regs (r : Nat) (x : Region) : (d.setRegion r x).regs = d.regs := rfl
@[simp] theorem setRegion_mem (r : Nat) (x : Region) : (d.setRegion r x).mem = d.mem := rfl
@[simp] theorem setRegion_ecc (r : Nat) (x : Region) : (d.setRegion r x).ecc = d.ecc := rfl
@[simp] theorem setRegion_latch (r : Nat) (x : Region) : (d.setRegion r x).latch = d.latch := rfl
@[simp] theorem setRegion_cores (r : Nat) (x : Region) : (d.setRegion r x).cores = d.cores := rfl
@[simp] theorem setRegion_parts (r : Nat) (x : Region) : (d.setRegion r x).parts = d.parts := rfl
@[simp] theorem setRegion_sent (r : Nat) (x : Region) : (d.setRegion r x).sent = d.sent := rfl
@[simp] theorem setRegion_filed (r : Nat) (x : Region) : (d.setRegion r x).filed = d.filed := rfl
@[simp] theorem setRegion_packs (r : Nat) (x : Region) : (d.setRegion r x).packs = d.packs := rfl
@[simp] theorem setRegion_net (r : Nat) (x : Region) : (d.setRegion r x).net = d.net := rfl
@[simp] theorem setRegion_inbox (r : Nat) (x : Region) : (d.setRegion r x).inbox = d.inbox := rfl
@[simp] theorem setRegion_sites (r : Nat) (x : Region) : (d.setRegion r x).sites = d.sites := rfl
@[simp] theorem setRegion_tunPacks (r : Nat) (x : Region) : (d.setRegion r x).tunPacks = d.tunPacks := rfl
@[simp] theorem setRegion_early (r : Nat) (x : Region) : (d.setRegion r x).early = d.early := rfl
@[simp] theorem setRegion_ptp (r : Nat) (x : Region) : (d.setRegion r x).ptp = d.ptp := rfl
@[simp] theorem setRegion_naps (r : Nat) (x : Region) : (d.setRegion r x).naps = d.naps := rfl
@[simp] theorem setRegion_tocq (r : Nat) (x : Region) : (d.setRegion r x).tocq = d.tocq := rfl
@[simp] theorem setRegion_tocWake (r : Nat) (x : Region) : (d.setRegion r x).tocWake = d.tocWake := rfl
@[simp] theorem setRegion_car (r : Nat) (x : Region) : (d.setRegion r x).car = d.car := rfl
@[simp] theorem setRegion_tcores (r : Nat) (x : Region) : (d.setRegion r x).tcores = d.tcores := rfl
@[simp] theorem setRegion_scores (r : Nat) (x : Region) : (d.setRegion r x).scores = d.scores := rfl
@[simp] theorem setRegion_timers (r : Nat) (x : Region) : (d.setRegion r x).timers = d.timers := rfl
@[simp] theorem setRegion_pins (r : Nat) (x : Region) : (d.setRegion r x).pins = d.pins := rfl
@[simp] theorem setRegion_fence (r : Nat) (x : Region) : (d.setRegion r x).fence = d.fence := rfl
@[simp] theorem setRegion_failedQ (r : Nat) (x : Region) : (d.setRegion r x).failedQ = d.failedQ := rfl
@[simp] theorem setRegion_fenceList (r : Nat) (x : Region) : (d.setRegion r x).fenceList = d.fenceList := rfl
@[simp] theorem setRegion_fenceOld (r : Nat) (x : Region) : (d.setRegion r x).fenceOld = d.fenceOld := rfl
@[simp] theorem setRegion_alarmQ (r : Nat) (x : Region) : (d.setRegion r x).alarmQ = d.alarmQ := rfl
@[simp] theorem setRegion_alarmUs (r : Nat) (x : Region) : (d.setRegion r x).alarmUs = d.alarmUs := rfl
@[simp] theorem setRegion_rtcFrac (r : Nat) (x : Region) : (d.setRegion r x).rtcFrac = d.rtcFrac := rfl
@[simp] theorem setRegion_ppsLast (r : Nat) (x : Region) : (d.setRegion r x).ppsLast = d.ppsLast := rfl
@[simp] theorem setRegion_ppsCorr (r : Nat) (x : Region) : (d.setRegion r x).ppsCorr = d.ppsCorr := rfl
@[simp] theorem setRegion_slew (r : Nat) (x : Region) : (d.setRegion r x).slew = d.slew := rfl
@[simp] theorem setRegion_taiSet (r : Nat) (x : Region) : (d.setRegion r x).taiSet = d.taiSet := rfl
@[simp] theorem setRegion_fabDevs (r : Nat) (x : Region) : (d.setRegion r x).fabDevs = d.fabDevs := rfl
@[simp] theorem setRegion_fabSpans (r : Nat) (x : Region) : (d.setRegion r x).fabSpans = d.fabSpans := rfl
@[simp] theorem setRegion_links (r : Nat) (x : Region) : (d.setRegion r x).links = d.links := rfl
@[simp] theorem setRegion_lports (r : Nat) (x : Region) : (d.setRegion r x).lports = d.lports := rfl
@[simp] theorem setRegion_oports (r : Nat) (x : Region) : (d.setRegion r x).oports = d.oports := rfl
@[simp] theorem setRegion_colls (r : Nat) (x : Region) : (d.setRegion r x).colls = d.colls := rfl
@[simp] theorem setRegion_bulks (r : Nat) (x : Region) : (d.setRegion r x).bulks = d.bulks := rfl
@[simp] theorem setRegion_reqs (r : Nat) (x : Region) : (d.setRegion r x).reqs = d.reqs := rfl
@[simp] theorem setRegion_cal (r : Nat) (x : Region) : (d.setRegion r x).cal = d.cal := rfl
@[simp] theorem setRegion_pwr (r : Nat) (x : Region) : (d.setRegion r x).pwr = d.pwr := rfl
@[simp] theorem setRegion_ddrEpoch (r : Nat) (x : Region) : (d.setRegion r x).ddrEpoch = d.ddrEpoch := rfl
@[simp] theorem setRegion_dma (r : Nat) (x : Region) : (d.setRegion r x).dma = d.dma := rfl
@[simp] theorem setRegion_heldAcc (r : Nat) (x : Region) : (d.setRegion r x).heldAcc = d.heldAcc := rfl
@[simp] theorem setRegion_d3hot (r : Nat) (x : Region) : (d.setRegion r x).d3hot = d.d3hot := rfl
@[simp] theorem setRegion_trace (r : Nat) (x : Region) : (d.setRegion r x).trace = d.trace := rfl
@[simp] theorem setRegion_nextTag (r : Nat) (x : Region) : (d.setRegion r x).nextTag = d.nextTag := rfl
@[simp] theorem setRegion_vfEnable (r : Nat) (x : Region) : (d.setRegion r x).vfEnable = d.vfEnable := rfl
@[simp] theorem setRegion_numVfs (r : Nat) (x : Region) : (d.setRegion r x).numVfs = d.numVfs := rfl
@[simp] theorem setRegion_nonce (r : Nat) (x : Region) : (d.setRegion r x).nonce = d.nonce := rfl
@[simp] theorem setRegion_out (r : Nat) (x : Region) : (d.setRegion r x).out = d.out := rfl
@[simp] theorem setRegion_rg (r : Nat) (x : Region) (b : Nat) : (d.setRegion r x).rg b = d.rg b := rfl
@[simp] theorem setRegion_fld (r : Nat) (x : Region) (b lo w : Nat) : (d.setRegion r x).fld b lo w = d.fld b lo w := rfl
@[simp] theorem setRegion_flag (r : Nat) (x : Region) (b k : Nat) : (d.setRegion r x).flag b k = d.flag b k := rfl
@[simp] theorem setRegion_core_at (r : Nat) (x : Region) (j : Nat) : (d.setRegion r x).core j = d.core j := rfl
@[simp] theorem setRegion_part_at (r : Nat) (x : Region) (j : Nat) : (d.setRegion r x).part j = d.part j := rfl
@[simp] theorem setRegion_fn_at (r : Nat) (x : Region) (j : Nat) : (d.setRegion r x).fn j = d.fn j := rfl

/-! ### `setFn` -/

@[simp] theorem setFn_regs (f : Nat) (x : Fn) : (d.setFn f x).regs = d.regs := rfl
@[simp] theorem setFn_mem (f : Nat) (x : Fn) : (d.setFn f x).mem = d.mem := rfl
@[simp] theorem setFn_ecc (f : Nat) (x : Fn) : (d.setFn f x).ecc = d.ecc := rfl
@[simp] theorem setFn_latch (f : Nat) (x : Fn) : (d.setFn f x).latch = d.latch := rfl
@[simp] theorem setFn_cores (f : Nat) (x : Fn) : (d.setFn f x).cores = d.cores := rfl
@[simp] theorem setFn_parts (f : Nat) (x : Fn) : (d.setFn f x).parts = d.parts := rfl
@[simp] theorem setFn_regions (f : Nat) (x : Fn) : (d.setFn f x).regions = d.regions := rfl
@[simp] theorem setFn_sent (f : Nat) (x : Fn) : (d.setFn f x).sent = d.sent := rfl
@[simp] theorem setFn_filed (f : Nat) (x : Fn) : (d.setFn f x).filed = d.filed := rfl
@[simp] theorem setFn_packs (f : Nat) (x : Fn) : (d.setFn f x).packs = d.packs := rfl
@[simp] theorem setFn_net (f : Nat) (x : Fn) : (d.setFn f x).net = d.net := rfl
@[simp] theorem setFn_inbox (f : Nat) (x : Fn) : (d.setFn f x).inbox = d.inbox := rfl
@[simp] theorem setFn_sites (f : Nat) (x : Fn) : (d.setFn f x).sites = d.sites := rfl
@[simp] theorem setFn_tunPacks (f : Nat) (x : Fn) : (d.setFn f x).tunPacks = d.tunPacks := rfl
@[simp] theorem setFn_early (f : Nat) (x : Fn) : (d.setFn f x).early = d.early := rfl
@[simp] theorem setFn_ptp (f : Nat) (x : Fn) : (d.setFn f x).ptp = d.ptp := rfl
@[simp] theorem setFn_naps (f : Nat) (x : Fn) : (d.setFn f x).naps = d.naps := rfl
@[simp] theorem setFn_tocq (f : Nat) (x : Fn) : (d.setFn f x).tocq = d.tocq := rfl
@[simp] theorem setFn_tocWake (f : Nat) (x : Fn) : (d.setFn f x).tocWake = d.tocWake := rfl
@[simp] theorem setFn_tcores (f : Nat) (x : Fn) : (d.setFn f x).tcores = d.tcores := rfl
@[simp] theorem setFn_scores (f : Nat) (x : Fn) : (d.setFn f x).scores = d.scores := rfl
@[simp] theorem setFn_timers (f : Nat) (x : Fn) : (d.setFn f x).timers = d.timers := rfl
@[simp] theorem setFn_pins (f : Nat) (x : Fn) : (d.setFn f x).pins = d.pins := rfl
@[simp] theorem setFn_fence (f : Nat) (x : Fn) : (d.setFn f x).fence = d.fence := rfl
@[simp] theorem setFn_failedQ (f : Nat) (x : Fn) : (d.setFn f x).failedQ = d.failedQ := rfl
@[simp] theorem setFn_fenceList (f : Nat) (x : Fn) : (d.setFn f x).fenceList = d.fenceList := rfl
@[simp] theorem setFn_fenceOld (f : Nat) (x : Fn) : (d.setFn f x).fenceOld = d.fenceOld := rfl
@[simp] theorem setFn_alarmQ (f : Nat) (x : Fn) : (d.setFn f x).alarmQ = d.alarmQ := rfl
@[simp] theorem setFn_alarmUs (f : Nat) (x : Fn) : (d.setFn f x).alarmUs = d.alarmUs := rfl
@[simp] theorem setFn_rtcFrac (f : Nat) (x : Fn) : (d.setFn f x).rtcFrac = d.rtcFrac := rfl
@[simp] theorem setFn_ppsLast (f : Nat) (x : Fn) : (d.setFn f x).ppsLast = d.ppsLast := rfl
@[simp] theorem setFn_ppsCorr (f : Nat) (x : Fn) : (d.setFn f x).ppsCorr = d.ppsCorr := rfl
@[simp] theorem setFn_slew (f : Nat) (x : Fn) : (d.setFn f x).slew = d.slew := rfl
@[simp] theorem setFn_taiSet (f : Nat) (x : Fn) : (d.setFn f x).taiSet = d.taiSet := rfl
@[simp] theorem setFn_fabDevs (f : Nat) (x : Fn) : (d.setFn f x).fabDevs = d.fabDevs := rfl
@[simp] theorem setFn_fabSpans (f : Nat) (x : Fn) : (d.setFn f x).fabSpans = d.fabSpans := rfl
@[simp] theorem setFn_links (f : Nat) (x : Fn) : (d.setFn f x).links = d.links := rfl
@[simp] theorem setFn_lports (f : Nat) (x : Fn) : (d.setFn f x).lports = d.lports := rfl
@[simp] theorem setFn_oports (f : Nat) (x : Fn) : (d.setFn f x).oports = d.oports := rfl
@[simp] theorem setFn_colls (f : Nat) (x : Fn) : (d.setFn f x).colls = d.colls := rfl
@[simp] theorem setFn_bulks (f : Nat) (x : Fn) : (d.setFn f x).bulks = d.bulks := rfl
@[simp] theorem setFn_reqs (f : Nat) (x : Fn) : (d.setFn f x).reqs = d.reqs := rfl
@[simp] theorem setFn_cal (f : Nat) (x : Fn) : (d.setFn f x).cal = d.cal := rfl
@[simp] theorem setFn_pwr (f : Nat) (x : Fn) : (d.setFn f x).pwr = d.pwr := rfl
@[simp] theorem setFn_ddrEpoch (f : Nat) (x : Fn) : (d.setFn f x).ddrEpoch = d.ddrEpoch := rfl
@[simp] theorem setFn_dma (f : Nat) (x : Fn) : (d.setFn f x).dma = d.dma := rfl
@[simp] theorem setFn_heldAcc (f : Nat) (x : Fn) : (d.setFn f x).heldAcc = d.heldAcc := rfl
@[simp] theorem setFn_d3hot (f : Nat) (x : Fn) : (d.setFn f x).d3hot = d.d3hot := rfl
@[simp] theorem setFn_trace (f : Nat) (x : Fn) : (d.setFn f x).trace = d.trace := rfl
@[simp] theorem setFn_nextTag (f : Nat) (x : Fn) : (d.setFn f x).nextTag = d.nextTag := rfl
@[simp] theorem setFn_vfEnable (f : Nat) (x : Fn) : (d.setFn f x).vfEnable = d.vfEnable := rfl
@[simp] theorem setFn_numVfs (f : Nat) (x : Fn) : (d.setFn f x).numVfs = d.numVfs := rfl
@[simp] theorem setFn_nonce (f : Nat) (x : Fn) : (d.setFn f x).nonce = d.nonce := rfl
@[simp] theorem setFn_out (f : Nat) (x : Fn) : (d.setFn f x).out = d.out := rfl
@[simp] theorem setFn_rg (f : Nat) (x : Fn) (b : Nat) : (d.setFn f x).rg b = d.rg b := rfl
@[simp] theorem setFn_fld (f : Nat) (x : Fn) (b lo w : Nat) : (d.setFn f x).fld b lo w = d.fld b lo w := rfl
@[simp] theorem setFn_flag (f : Nat) (x : Fn) (b k : Nat) : (d.setFn f x).flag b k = d.flag b k := rfl
@[simp] theorem setFn_core_at (f : Nat) (x : Fn) (j : Nat) : (d.setFn f x).core j = d.core j := rfl
@[simp] theorem setFn_part_at (f : Nat) (x : Fn) (j : Nat) : (d.setFn f x).part j = d.part j := rfl
@[simp] theorem setFn_region_at (f : Nat) (x : Fn) (j : Nat) : (d.setFn f x).region j = d.region j := rfl

/-! ### `wrB` -/

@[simp] theorem wrB_regs (a : Nat) (l : List Byte) : (d.wrB a l).regs = d.regs := rfl
@[simp] theorem wrB_ecc (a : Nat) (l : List Byte) : (d.wrB a l).ecc = d.ecc := rfl
@[simp] theorem wrB_latch (a : Nat) (l : List Byte) : (d.wrB a l).latch = d.latch := rfl
@[simp] theorem wrB_cores (a : Nat) (l : List Byte) : (d.wrB a l).cores = d.cores := rfl
@[simp] theorem wrB_parts (a : Nat) (l : List Byte) : (d.wrB a l).parts = d.parts := rfl
@[simp] theorem wrB_regions (a : Nat) (l : List Byte) : (d.wrB a l).regions = d.regions := rfl
@[simp] theorem wrB_sent (a : Nat) (l : List Byte) : (d.wrB a l).sent = d.sent := rfl
@[simp] theorem wrB_filed (a : Nat) (l : List Byte) : (d.wrB a l).filed = d.filed := rfl
@[simp] theorem wrB_packs (a : Nat) (l : List Byte) : (d.wrB a l).packs = d.packs := rfl
@[simp] theorem wrB_net (a : Nat) (l : List Byte) : (d.wrB a l).net = d.net := rfl
@[simp] theorem wrB_inbox (a : Nat) (l : List Byte) : (d.wrB a l).inbox = d.inbox := rfl
@[simp] theorem wrB_sites (a : Nat) (l : List Byte) : (d.wrB a l).sites = d.sites := rfl
@[simp] theorem wrB_tunPacks (a : Nat) (l : List Byte) : (d.wrB a l).tunPacks = d.tunPacks := rfl
@[simp] theorem wrB_early (a : Nat) (l : List Byte) : (d.wrB a l).early = d.early := rfl
@[simp] theorem wrB_ptp (a : Nat) (l : List Byte) : (d.wrB a l).ptp = d.ptp := rfl
@[simp] theorem wrB_naps (a : Nat) (l : List Byte) : (d.wrB a l).naps = d.naps := rfl
@[simp] theorem wrB_tocq (a : Nat) (l : List Byte) : (d.wrB a l).tocq = d.tocq := rfl
@[simp] theorem wrB_tocWake (a : Nat) (l : List Byte) : (d.wrB a l).tocWake = d.tocWake := rfl
@[simp] theorem wrB_car (a : Nat) (l : List Byte) : (d.wrB a l).car = d.car := rfl
@[simp] theorem wrB_tcores (a : Nat) (l : List Byte) : (d.wrB a l).tcores = d.tcores := rfl
@[simp] theorem wrB_scores (a : Nat) (l : List Byte) : (d.wrB a l).scores = d.scores := rfl
@[simp] theorem wrB_timers (a : Nat) (l : List Byte) : (d.wrB a l).timers = d.timers := rfl
@[simp] theorem wrB_pins (a : Nat) (l : List Byte) : (d.wrB a l).pins = d.pins := rfl
@[simp] theorem wrB_fence (a : Nat) (l : List Byte) : (d.wrB a l).fence = d.fence := rfl
@[simp] theorem wrB_failedQ (a : Nat) (l : List Byte) : (d.wrB a l).failedQ = d.failedQ := rfl
@[simp] theorem wrB_fenceList (a : Nat) (l : List Byte) : (d.wrB a l).fenceList = d.fenceList := rfl
@[simp] theorem wrB_fenceOld (a : Nat) (l : List Byte) : (d.wrB a l).fenceOld = d.fenceOld := rfl
@[simp] theorem wrB_alarmQ (a : Nat) (l : List Byte) : (d.wrB a l).alarmQ = d.alarmQ := rfl
@[simp] theorem wrB_alarmUs (a : Nat) (l : List Byte) : (d.wrB a l).alarmUs = d.alarmUs := rfl
@[simp] theorem wrB_rtcFrac (a : Nat) (l : List Byte) : (d.wrB a l).rtcFrac = d.rtcFrac := rfl
@[simp] theorem wrB_ppsLast (a : Nat) (l : List Byte) : (d.wrB a l).ppsLast = d.ppsLast := rfl
@[simp] theorem wrB_ppsCorr (a : Nat) (l : List Byte) : (d.wrB a l).ppsCorr = d.ppsCorr := rfl
@[simp] theorem wrB_slew (a : Nat) (l : List Byte) : (d.wrB a l).slew = d.slew := rfl
@[simp] theorem wrB_taiSet (a : Nat) (l : List Byte) : (d.wrB a l).taiSet = d.taiSet := rfl
@[simp] theorem wrB_fabDevs (a : Nat) (l : List Byte) : (d.wrB a l).fabDevs = d.fabDevs := rfl
@[simp] theorem wrB_fabSpans (a : Nat) (l : List Byte) : (d.wrB a l).fabSpans = d.fabSpans := rfl
@[simp] theorem wrB_links (a : Nat) (l : List Byte) : (d.wrB a l).links = d.links := rfl
@[simp] theorem wrB_lports (a : Nat) (l : List Byte) : (d.wrB a l).lports = d.lports := rfl
@[simp] theorem wrB_oports (a : Nat) (l : List Byte) : (d.wrB a l).oports = d.oports := rfl
@[simp] theorem wrB_colls (a : Nat) (l : List Byte) : (d.wrB a l).colls = d.colls := rfl
@[simp] theorem wrB_bulks (a : Nat) (l : List Byte) : (d.wrB a l).bulks = d.bulks := rfl
@[simp] theorem wrB_reqs (a : Nat) (l : List Byte) : (d.wrB a l).reqs = d.reqs := rfl
@[simp] theorem wrB_cal (a : Nat) (l : List Byte) : (d.wrB a l).cal = d.cal := rfl
@[simp] theorem wrB_pwr (a : Nat) (l : List Byte) : (d.wrB a l).pwr = d.pwr := rfl
@[simp] theorem wrB_ddrEpoch (a : Nat) (l : List Byte) : (d.wrB a l).ddrEpoch = d.ddrEpoch := rfl
@[simp] theorem wrB_dma (a : Nat) (l : List Byte) : (d.wrB a l).dma = d.dma := rfl
@[simp] theorem wrB_heldAcc (a : Nat) (l : List Byte) : (d.wrB a l).heldAcc = d.heldAcc := rfl
@[simp] theorem wrB_d3hot (a : Nat) (l : List Byte) : (d.wrB a l).d3hot = d.d3hot := rfl
@[simp] theorem wrB_trace (a : Nat) (l : List Byte) : (d.wrB a l).trace = d.trace := rfl
@[simp] theorem wrB_nextTag (a : Nat) (l : List Byte) : (d.wrB a l).nextTag = d.nextTag := rfl
@[simp] theorem wrB_vfEnable (a : Nat) (l : List Byte) : (d.wrB a l).vfEnable = d.vfEnable := rfl
@[simp] theorem wrB_numVfs (a : Nat) (l : List Byte) : (d.wrB a l).numVfs = d.numVfs := rfl
@[simp] theorem wrB_nonce (a : Nat) (l : List Byte) : (d.wrB a l).nonce = d.nonce := rfl
@[simp] theorem wrB_out (a : Nat) (l : List Byte) : (d.wrB a l).out = d.out := rfl
@[simp] theorem wrB_rg (a : Nat) (l : List Byte) (b : Nat) : (d.wrB a l).rg b = d.rg b := rfl
@[simp] theorem wrB_fld (a : Nat) (l : List Byte) (b lo w : Nat) : (d.wrB a l).fld b lo w = d.fld b lo w := rfl
@[simp] theorem wrB_flag (a : Nat) (l : List Byte) (b k : Nat) : (d.wrB a l).flag b k = d.flag b k := rfl
@[simp] theorem wrB_core_at (a : Nat) (l : List Byte) (j : Nat) : (d.wrB a l).core j = d.core j := rfl
@[simp] theorem wrB_part_at (a : Nat) (l : List Byte) (j : Nat) : (d.wrB a l).part j = d.part j := rfl
@[simp] theorem wrB_region_at (a : Nat) (l : List Byte) (j : Nat) : (d.wrB a l).region j = d.region j := rfl
@[simp] theorem wrB_fn_at (a : Nat) (l : List Byte) (j : Nat) : (d.wrB a l).fn j = d.fn j := rfl

/-! ### Reading back what was set -/

@[simp] theorem core_setCore (n m : Nat) (c : NCore) : (d.setCore n c).core m = if m = n then c else d.core m := by
  simp [Dev.core, Dev.setCore, SMap.get_set]
@[simp] theorem part_setPart (p q : Nat) (x : Part) : (d.setPart p x).part q = if q = p then x else d.part q := by
  simp [Dev.part, Dev.setPart, SMap.get_set]
@[simp] theorem region_setRegion (r q : Nat) (x : Region) : (d.setRegion r x).region q = if q = r then x else d.region q := by
  simp [Dev.region, Dev.setRegion, SMap.get_set]
@[simp] theorem fn_setFn (f g : Nat) (x : Fn) : (d.setFn f x).fn g = if g = f then x else d.fn g := by
  simp [Dev.fn, Dev.setFn, SMap.get_set]

/-- The outcome of an effect on the device: a next state with the same queue. -/
theorem run_next (f : Dev → Dev) (s : State) : s.run f = .next { s with dev := (f s.dev).finish } := rfl

end Sys2Proof.Machine
end

