-- ==== Sys2Proof/Laws/Follow.lean ====
section
/-! SUPPORT. What `finish` can do: it writes the registers that follow the state, and the pins, and nothing else. -/

namespace Sys2Proof.Machine

open Sys2Proof

variable (d : Dev)

/-- The device without its registers and pins. -/
def Dev.bare : Dev := { d with regs := [], pins := default }

@[simp] theorem setR_bare (a v : Nat) : (d.setR a v).bare = d.bare := rfl
@[simp] theorem setF_bare (a lo w v : Nat) : (d.setF a lo w v).bare = d.bare := rfl
@[simp] theorem setFlag_bare (a k : Nat) (x : Bool) : (d.setFlag a k x).bare = d.bare := rfl

@[simp] theorem phases_bare : d.phases.bare = d.bare := by
  unfold Dev.phases
  refine forEach_keeps Dev.bare _ (fun e r => ?_) _ _
  split
  · dsimp only
    split
    · split <;> rfl
    · rfl
  · rfl

@[simp] theorem domFollow_bare (x : Nat) : (d.domFollow x).bare = d.bare := rfl

@[simp] theorem domsFollow_bare : d.domsFollow.bare = d.bare := by
  unfold Dev.domsFollow
  refine forEach_keeps Dev.bare _ (fun e x => ?_) _ _
  split
  · rfl
  · exact domFollow_bare e x

@[simp] theorem muteBits_bare : d.muteBits.bare = d.bare := by
  unfold Dev.muteBits
  exact forEach_keeps Dev.bare _ (fun e p => setFlag_bare e _ _ _) _ _

theorem pins_bare (p : Pins) : ({ d with pins := p } : Dev).bare = d.bare := rfl

theorem outputs_eq : ∃ v p, d.outputs = { d.setF FLT_STAT 0 3 v with pins := p } := ⟨_, _, rfl⟩

/-- What `outputs` writes. -/
@[simp] theorem outputs_bare : d.outputs.bare = d.bare := by
  obtain ⟨v, p, h⟩ := outputs_eq d
  rw [h]; rfl

theorem finish_bare : d.finish.bare = d.bare :=
  (outputs_bare _).trans ((muteBits_bare _).trans ((domsFollow_bare _).trans (phases_bare d)))

theorem rg_outputs {a : Nat} (h : a ≠ FLT_STAT) : d.outputs.rg a = d.rg a := by
  obtain ⟨v, p, he⟩ := outputs_eq d
  rw [he]
  exact rg_setF_ne d h

theorem bare_mem {d e : Dev} (h : e.bare = d.bare) : e.mem = d.mem := (congrArg Dev.mem h : e.bare.mem = d.bare.mem)
@[simp] theorem finish_mem : d.finish.mem = d.mem := bare_mem (finish_bare d)
theorem bare_ecc {d e : Dev} (h : e.bare = d.bare) : e.ecc = d.ecc := (congrArg Dev.ecc h : e.bare.ecc = d.bare.ecc)
@[simp] theorem finish_ecc : d.finish.ecc = d.ecc := bare_ecc (finish_bare d)
theorem bare_latch {d e : Dev} (h : e.bare = d.bare) : e.latch = d.latch := (congrArg Dev.latch h : e.bare.latch = d.bare.latch)
@[simp] theorem finish_latch : d.finish.latch = d.latch := bare_latch (finish_bare d)
theorem bare_cores {d e : Dev} (h : e.bare = d.bare) : e.cores = d.cores := (congrArg Dev.cores h : e.bare.cores = d.bare.cores)
@[simp] theorem finish_cores : d.finish.cores = d.cores := bare_cores (finish_bare d)
theorem bare_parts {d e : Dev} (h : e.bare = d.bare) : e.parts = d.parts := (congrArg Dev.parts h : e.bare.parts = d.bare.parts)
@[simp] theorem finish_parts : d.finish.parts = d.parts := bare_parts (finish_bare d)
theorem bare_regions {d e : Dev} (h : e.bare = d.bare) : e.regions = d.regions := (congrArg Dev.regions h : e.bare.regions = d.bare.regions)
@[simp] theorem finish_regions : d.finish.regions = d.regions := bare_regions (finish_bare d)
theorem bare_sent {d e : Dev} (h : e.bare = d.bare) : e.sent = d.sent := (congrArg Dev.sent h : e.bare.sent = d.bare.sent)
@[simp] theorem finish_sent : d.finish.sent = d.sent := bare_sent (finish_bare d)
theorem bare_filed {d e : Dev} (h : e.bare = d.bare) : e.filed = d.filed := (congrArg Dev.filed h : e.bare.filed = d.bare.filed)
@[simp] theorem finish_filed : d.finish.filed = d.filed := bare_filed (finish_bare d)
theorem bare_packs {d e : Dev} (h : e.bare = d.bare) : e.packs = d.packs := (congrArg Dev.packs h : e.bare.packs = d.bare.packs)
@[simp] theorem finish_packs : d.finish.packs = d.packs := bare_packs (finish_bare d)
theorem bare_net {d e : Dev} (h : e.bare = d.bare) : e.net = d.net := (congrArg Dev.net h : e.bare.net = d.bare.net)
@[simp] theorem finish_net : d.finish.net = d.net := bare_net (finish_bare d)
theorem bare_inbox {d e : Dev} (h : e.bare = d.bare) : e.inbox = d.inbox := (congrArg Dev.inbox h : e.bare.inbox = d.bare.inbox)
@[simp] theorem finish_inbox : d.finish.inbox = d.inbox := bare_inbox (finish_bare d)
theorem bare_sites {d e : Dev} (h : e.bare = d.bare) : e.sites = d.sites := (congrArg Dev.sites h : e.bare.sites = d.bare.sites)
@[simp] theorem finish_sites : d.finish.sites = d.sites := bare_sites (finish_bare d)
theorem bare_tunPacks {d e : Dev} (h : e.bare = d.bare) : e.tunPacks = d.tunPacks := (congrArg Dev.tunPacks h : e.bare.tunPacks = d.bare.tunPacks)
@[simp] theorem finish_tunPacks : d.finish.tunPacks = d.tunPacks := bare_tunPacks (finish_bare d)
theorem bare_early {d e : Dev} (h : e.bare = d.bare) : e.early = d.early := (congrArg Dev.early h : e.bare.early = d.bare.early)
@[simp] theorem finish_early : d.finish.early = d.early := bare_early (finish_bare d)
theorem bare_ptp {d e : Dev} (h : e.bare = d.bare) : e.ptp = d.ptp := (congrArg Dev.ptp h : e.bare.ptp = d.bare.ptp)
@[simp] theorem finish_ptp : d.finish.ptp = d.ptp := bare_ptp (finish_bare d)
theorem bare_naps {d e : Dev} (h : e.bare = d.bare) : e.naps = d.naps := (congrArg Dev.naps h : e.bare.naps = d.bare.naps)
@[simp] theorem finish_naps : d.finish.naps = d.naps := bare_naps (finish_bare d)
theorem bare_tocq {d e : Dev} (h : e.bare = d.bare) : e.tocq = d.tocq := (congrArg Dev.tocq h : e.bare.tocq = d.bare.tocq)
@[simp] theorem finish_tocq : d.finish.tocq = d.tocq := bare_tocq (finish_bare d)
theorem bare_tocWake {d e : Dev} (h : e.bare = d.bare) : e.tocWake = d.tocWake := (congrArg Dev.tocWake h : e.bare.tocWake = d.bare.tocWake)
@[simp] theorem finish_tocWake : d.finish.tocWake = d.tocWake := bare_tocWake (finish_bare d)
theorem bare_car {d e : Dev} (h : e.bare = d.bare) : e.car = d.car := (congrArg Dev.car h : e.bare.car = d.bare.car)
@[simp] theorem finish_car : d.finish.car = d.car := bare_car (finish_bare d)
theorem bare_tcores {d e : Dev} (h : e.bare = d.bare) : e.tcores = d.tcores := (congrArg Dev.tcores h : e.bare.tcores = d.bare.tcores)
@[simp] theorem finish_tcores : d.finish.tcores = d.tcores := bare_tcores (finish_bare d)
theorem bare_scores {d e : Dev} (h : e.bare = d.bare) : e.scores = d.scores := (congrArg Dev.scores h : e.bare.scores = d.bare.scores)
@[simp] theorem finish_scores : d.finish.scores = d.scores := bare_scores (finish_bare d)
theorem bare_timers {d e : Dev} (h : e.bare = d.bare) : e.timers = d.timers := (congrArg Dev.timers h : e.bare.timers = d.bare.timers)
@[simp] theorem finish_timers : d.finish.timers = d.timers := bare_timers (finish_bare d)
theorem bare_fence {d e : Dev} (h : e.bare = d.bare) : e.fence = d.fence := (congrArg Dev.fence h : e.bare.fence = d.bare.fence)
@[simp] theorem finish_fence : d.finish.fence = d.fence := bare_fence (finish_bare d)
theorem bare_failedQ {d e : Dev} (h : e.bare = d.bare) : e.failedQ = d.failedQ := (congrArg Dev.failedQ h : e.bare.failedQ = d.bare.failedQ)
@[simp] theorem finish_failedQ : d.finish.failedQ = d.failedQ := bare_failedQ (finish_bare d)
theorem bare_fenceList {d e : Dev} (h : e.bare = d.bare) : e.fenceList = d.fenceList := (congrArg Dev.fenceList h : e.bare.fenceList = d.bare.fenceList)
@[simp] theorem finish_fenceList : d.finish.fenceList = d.fenceList := bare_fenceList (finish_bare d)
theorem bare_fenceOld {d e : Dev} (h : e.bare = d.bare) : e.fenceOld = d.fenceOld := (congrArg Dev.fenceOld h : e.bare.fenceOld = d.bare.fenceOld)
@[simp] theorem finish_fenceOld : d.finish.fenceOld = d.fenceOld := bare_fenceOld (finish_bare d)
theorem bare_alarmQ {d e : Dev} (h : e.bare = d.bare) : e.alarmQ = d.alarmQ := (congrArg Dev.alarmQ h : e.bare.alarmQ = d.bare.alarmQ)
@[simp] theorem finish_alarmQ : d.finish.alarmQ = d.alarmQ := bare_alarmQ (finish_bare d)
theorem bare_alarmUs {d e : Dev} (h : e.bare = d.bare) : e.alarmUs = d.alarmUs := (congrArg Dev.alarmUs h : e.bare.alarmUs = d.bare.alarmUs)
@[simp] theorem finish_alarmUs : d.finish.alarmUs = d.alarmUs := bare_alarmUs (finish_bare d)
theorem bare_rtcFrac {d e : Dev} (h : e.bare = d.bare) : e.rtcFrac = d.rtcFrac := (congrArg Dev.rtcFrac h : e.bare.rtcFrac = d.bare.rtcFrac)
@[simp] theorem finish_rtcFrac : d.finish.rtcFrac = d.rtcFrac := bare_rtcFrac (finish_bare d)
theorem bare_ppsLast {d e : Dev} (h : e.bare = d.bare) : e.ppsLast = d.ppsLast := (congrArg Dev.ppsLast h : e.bare.ppsLast = d.bare.ppsLast)
@[simp] theorem finish_ppsLast : d.finish.ppsLast = d.ppsLast := bare_ppsLast (finish_bare d)
theorem bare_ppsCorr {d e : Dev} (h : e.bare = d.bare) : e.ppsCorr = d.ppsCorr := (congrArg Dev.ppsCorr h : e.bare.ppsCorr = d.bare.ppsCorr)
@[simp] theorem finish_ppsCorr : d.finish.ppsCorr = d.ppsCorr := bare_ppsCorr (finish_bare d)
theorem bare_slew {d e : Dev} (h : e.bare = d.bare) : e.slew = d.slew := (congrArg Dev.slew h : e.bare.slew = d.bare.slew)
@[simp] theorem finish_slew : d.finish.slew = d.slew := bare_slew (finish_bare d)
theorem bare_taiSet {d e : Dev} (h : e.bare = d.bare) : e.taiSet = d.taiSet := (congrArg Dev.taiSet h : e.bare.taiSet = d.bare.taiSet)
@[simp] theorem finish_taiSet : d.finish.taiSet = d.taiSet := bare_taiSet (finish_bare d)
theorem bare_fabDevs {d e : Dev} (h : e.bare = d.bare) : e.fabDevs = d.fabDevs := (congrArg Dev.fabDevs h : e.bare.fabDevs = d.bare.fabDevs)
@[simp] theorem finish_fabDevs : d.finish.fabDevs = d.fabDevs := bare_fabDevs (finish_bare d)
theorem bare_fabSpans {d e : Dev} (h : e.bare = d.bare) : e.fabSpans = d.fabSpans := (congrArg Dev.fabSpans h : e.bare.fabSpans = d.bare.fabSpans)
@[simp] theorem finish_fabSpans : d.finish.fabSpans = d.fabSpans := bare_fabSpans (finish_bare d)
theorem bare_links {d e : Dev} (h : e.bare = d.bare) : e.links = d.links := (congrArg Dev.links h : e.bare.links = d.bare.links)
@[simp] theorem finish_links : d.finish.links = d.links := bare_links (finish_bare d)
theorem bare_lports {d e : Dev} (h : e.bare = d.bare) : e.lports = d.lports := (congrArg Dev.lports h : e.bare.lports = d.bare.lports)
@[simp] theorem finish_lports : d.finish.lports = d.lports := bare_lports (finish_bare d)
theorem bare_oports {d e : Dev} (h : e.bare = d.bare) : e.oports = d.oports := (congrArg Dev.oports h : e.bare.oports = d.bare.oports)
@[simp] theorem finish_oports : d.finish.oports = d.oports := bare_oports (finish_bare d)
theorem bare_colls {d e : Dev} (h : e.bare = d.bare) : e.colls = d.colls := (congrArg Dev.colls h : e.bare.colls = d.bare.colls)
@[simp] theorem finish_colls : d.finish.colls = d.colls := bare_colls (finish_bare d)
theorem bare_bulks {d e : Dev} (h : e.bare = d.bare) : e.bulks = d.bulks := (congrArg Dev.bulks h : e.bare.bulks = d.bare.bulks)
@[simp] theorem finish_bulks : d.finish.bulks = d.bulks := bare_bulks (finish_bare d)
theorem bare_reqs {d e : Dev} (h : e.bare = d.bare) : e.reqs = d.reqs := (congrArg Dev.reqs h : e.bare.reqs = d.bare.reqs)
@[simp] theorem finish_reqs : d.finish.reqs = d.reqs := bare_reqs (finish_bare d)
theorem bare_cal {d e : Dev} (h : e.bare = d.bare) : e.cal = d.cal := (congrArg Dev.cal h : e.bare.cal = d.bare.cal)
@[simp] theorem finish_cal : d.finish.cal = d.cal := bare_cal (finish_bare d)
theorem bare_pwr {d e : Dev} (h : e.bare = d.bare) : e.pwr = d.pwr := (congrArg Dev.pwr h : e.bare.pwr = d.bare.pwr)
@[simp] theorem finish_pwr : d.finish.pwr = d.pwr := bare_pwr (finish_bare d)
theorem bare_ddrEpoch {d e : Dev} (h : e.bare = d.bare) : e.ddrEpoch = d.ddrEpoch := (congrArg Dev.ddrEpoch h : e.bare.ddrEpoch = d.bare.ddrEpoch)
@[simp] theorem finish_ddrEpoch : d.finish.ddrEpoch = d.ddrEpoch := bare_ddrEpoch (finish_bare d)
theorem bare_dma {d e : Dev} (h : e.bare = d.bare) : e.dma = d.dma := (congrArg Dev.dma h : e.bare.dma = d.bare.dma)
@[simp] theorem finish_dma : d.finish.dma = d.dma := bare_dma (finish_bare d)
theorem bare_heldAcc {d e : Dev} (h : e.bare = d.bare) : e.heldAcc = d.heldAcc := (congrArg Dev.heldAcc h : e.bare.heldAcc = d.bare.heldAcc)
@[simp] theorem finish_heldAcc : d.finish.heldAcc = d.heldAcc := bare_heldAcc (finish_bare d)
theorem bare_d3hot {d e : Dev} (h : e.bare = d.bare) : e.d3hot = d.d3hot := (congrArg Dev.d3hot h : e.bare.d3hot = d.bare.d3hot)
@[simp] theorem finish_d3hot : d.finish.d3hot = d.d3hot := bare_d3hot (finish_bare d)
theorem bare_trace {d e : Dev} (h : e.bare = d.bare) : e.trace = d.trace := (congrArg Dev.trace h : e.bare.trace = d.bare.trace)
@[simp] theorem finish_trace : d.finish.trace = d.trace := bare_trace (finish_bare d)
theorem bare_nextTag {d e : Dev} (h : e.bare = d.bare) : e.nextTag = d.nextTag := (congrArg Dev.nextTag h : e.bare.nextTag = d.bare.nextTag)
@[simp] theorem finish_nextTag : d.finish.nextTag = d.nextTag := bare_nextTag (finish_bare d)
theorem bare_vfEnable {d e : Dev} (h : e.bare = d.bare) : e.vfEnable = d.vfEnable := (congrArg Dev.vfEnable h : e.bare.vfEnable = d.bare.vfEnable)
@[simp] theorem finish_vfEnable : d.finish.vfEnable = d.vfEnable := bare_vfEnable (finish_bare d)
theorem bare_numVfs {d e : Dev} (h : e.bare = d.bare) : e.numVfs = d.numVfs := (congrArg Dev.numVfs h : e.bare.numVfs = d.bare.numVfs)
@[simp] theorem finish_numVfs : d.finish.numVfs = d.numVfs := bare_numVfs (finish_bare d)
theorem bare_nonce {d e : Dev} (h : e.bare = d.bare) : e.nonce = d.nonce := (congrArg Dev.nonce h : e.bare.nonce = d.bare.nonce)
@[simp] theorem finish_nonce : d.finish.nonce = d.nonce := bare_nonce (finish_bare d)
theorem bare_out {d e : Dev} (h : e.bare = d.bare) : e.out = d.out := (congrArg Dev.out h : e.bare.out = d.bare.out)
@[simp] theorem finish_out : d.finish.out = d.out := bare_out (finish_bare d)
@[simp] theorem finish_core (n : Nat) : d.finish.core n = d.core n := by simp [Dev.core]
@[simp] theorem finish_part (n : Nat) : d.finish.part n = d.part n := by simp [Dev.part]
@[simp] theorem finish_region (n : Nat) : d.finish.region n = d.region n := by simp [Dev.region]
@[simp] theorem finish_tcore (n : Nat) : d.finish.tcore n = d.tcore n := by simp [Dev.tcore]
@[simp] theorem finish_score (n : Nat) : d.finish.score n = d.score n := by simp [Dev.score]
@[simp] theorem finish_fn (f : Nat) : d.finish.fn f = d.fn f := by simp [Dev.fn]

/-! ### Registers -/

theorem mem_upTo {n k : Nat} (h : k ∈ upTo n) : k < n := by simpa [upTo] using h

theorem rg_phases {a : Nat} (h : ∀ p, p < 16 → a ≠ TAB_BSTAT p ∧ a ≠ TAB_CHSTAT p) : d.phases.rg a = d.rg a := by
  unfold Dev.phases
  refine forEach_keeps_mem (fun e => e.rg a) _ _ (fun e r hr => ?_) _
  have h1 := (h r (mem_upTo hr)).2
  split
  · rename_i p hp
    have h2 : p < 16 := by
      unfold Dev.regPart at hp
      split at hp
      · cases hp; unfold Dev.fld bitsOf; omega
      · cases hp
    have h3 := (h p h2).1
    dsimp only
    split
    · split
      · rw [rg_setF_ne _ h3, rg_setF_ne _ h1, rg_setF_ne _ h1, rg_setFlag_ne _ h1]
      · rw [rg_setF_ne _ h1, rg_setF_ne _ h1, rg_setFlag_ne _ h1]
    · rw [rg_setF_ne _ h1, rg_setFlag_ne _ h1]
  · rw [rg_setR_ne _ h1]

theorem rg_domsFollow {a : Nat} (h : ∀ x, x < 120 → a ≠ PWR_DSTAT x) : d.domsFollow.rg a = d.rg a := by
  unfold Dev.domsFollow
  refine forEach_keeps_mem (fun e => e.rg a) _ _ (fun e x hx => ?_) _
  have h1 := h x (mem_upTo hx)
  split
  · rfl
  · exact (rg_setFlag_ne _ h1).trans (rg_setFlag_ne _ h1)

theorem rg_muteBits {a : Nat} (h : ∀ p, p < 16 → a ≠ FLT_PMUTE p) : d.muteBits.rg a = d.rg a := by
  unfold Dev.muteBits
  exact forEach_keeps_mem (fun e => e.rg a) _ _ (fun e p hp => rg_setFlag_ne _ (h p (mem_upTo hp))) _

/-- A register that does not follow the state reads as before. -/
theorem rg_finish {a : Nat} (h : ¬ FollowReg a) : d.finish.rg a = d.rg a := by
  unfold FollowReg at h
  push Not at h
  obtain ⟨h1, h2, h3⟩ := h
  have e1 := rg_phases d (a := a) (fun p hp => ⟨(h2 p hp).1, (h2 p hp).2.2⟩)
  have e2 := rg_domsFollow d.phases (a := a) h3
  have e3 := rg_muteBits d.phases.domsFollow (a := a) (fun p hp => (h2 p hp).2.1)
  exact (rg_outputs _ h1).trans (e3.trans (e2.trans e1))

theorem fld_finish {a lo w : Nat} (h : ¬ FollowReg a) : d.finish.fld a lo w = d.fld a lo w := by
  unfold Dev.fld; rw [rg_finish d h]

theorem flag_finish {a k : Nat} (h : ¬ FollowReg a) : d.finish.flag a k = d.flag a k := by
  unfold Dev.flag; rw [rg_finish d h]

/-- Of a partition's TAB_BSTAT only the PHASE field follows. -/
theorem fld_bstat_finish {p lo w : Nat} (hp : p < 16) (hw : lo + w ≤ 32) (h : lo + w ≤ 12 ∨ 14 ≤ lo) :
    d.finish.fld (TAB_BSTAT p) lo w = d.fld (TAB_BSTAT p) lo w := by
  have a1 : TAB_BSTAT p ≠ FLT_STAT := by unfold TAB_BSTAT FLT_STAT; omega
  have a2 : ∀ q, q < 16 → TAB_BSTAT p ≠ FLT_PMUTE q := by intro q _; unfold TAB_BSTAT FLT_PMUTE; omega
  have a3 : ∀ x, x < 120 → TAB_BSTAT p ≠ PWR_DSTAT x := by intro x _; unfold TAB_BSTAT PWR_DSTAT; omega
  have a4 : ∀ r, r < 16 → TAB_BSTAT p ≠ TAB_CHSTAT r := by intro r _; unfold TAB_BSTAT TAB_CHSTAT; omega
  have e1 : d.phases.fld (TAB_BSTAT p) lo w = d.fld (TAB_BSTAT p) lo w := by
    unfold Dev.phases
    refine forEach_keeps_mem (fun e => e.fld (TAB_BSTAT p) lo w) _ _ (fun e r hr => ?_) _
    have h1 := a4 r (mem_upTo hr)
    split
    · rename_i q hq
      dsimp only
      have hb : ∀ v, (((((e.setFlag (TAB_CHSTAT r) 31 true).setF (TAB_CHSTAT r) 16 4 q).setF (TAB_CHSTAT r) 12 2 v)).fld (TAB_BSTAT p) lo w) =
          e.fld (TAB_BSTAT p) lo w := by
        intro v
        rw [fld_setF_ne _ (.inl h1), fld_setF_ne _ (.inl h1), fld_setFlag_ne _ (.inl h1)]
      split
      · split
        · by_cases hpq : TAB_BSTAT p = TAB_BSTAT q
          · rw [← hpq, fld_setF_ne _ (.inr ⟨hw, h⟩), hb]
          · rw [fld_setF_ne _ (.inl hpq), hb]
        · exact hb _
      · rw [fld_setF_ne _ (.inl h1), fld_setFlag_ne _ (.inl h1)]
    · rw [fld_setR_ne _ h1]
  have e2 : d.phases.domsFollow.fld (TAB_BSTAT p) lo w = d.phases.fld (TAB_BSTAT p) lo w := by
    unfold Dev.fld; rw [rg_domsFollow _ a3]
  have e3 : d.phases.domsFollow.muteBits.fld (TAB_BSTAT p) lo w = d.phases.domsFollow.fld (TAB_BSTAT p) lo w := by
    unfold Dev.fld; rw [rg_muteBits _ a2]
  have e4 : d.finish.fld (TAB_BSTAT p) lo w = d.phases.domsFollow.muteBits.fld (TAB_BSTAT p) lo w := by
    unfold Dev.fld Dev.finish; rw [rg_outputs _ a1]
  exact e4.trans (e3.trans (e2.trans e1))

/-- STATE and the other bits of TAB_BSTAT outside PHASE. -/
@[simp] theorem bstate_finish {p : Nat} (hp : p < 16) : d.finish.bstate p = d.bstate p :=
  fld_bstat_finish d hp (by omega) (by omega)

theorem flag_bstat_finish {p k : Nat} (hp : p < 16) (hk : k < 32) (h : k < 12 ∨ 14 ≤ k) :
    d.finish.flag (TAB_BSTAT p) k = d.flag (TAB_BSTAT p) k := by
  rw [flag_eq, flag_eq, fld_bstat_finish d hp (by omega) (by omega)]

end Sys2Proof.Machine
end

