-- ==== Sys2Proof/Laws/Complete.lean ====
section
/-! SUPPORT. What `complete` and `serve` can do: the books of a command, its response, and nothing else. -/

namespace Sys2Proof.Machine

open Sys2Proof

variable (d : Dev)

/-- Carillon without what the books of a completed command touch. -/
def Carillon.rest (c : Carillon) : Carillon :=
  { c with log := [], jbuf := [], jSince := 0, jSec := 0, jAdm := 0, mcfg := [], fns := [] }

/-- The device without its registers, trace, output and those books. -/
def Dev.desk : Dev := { d with regs := [], trace := default, out := [], car := d.car.rest }

@[simp] theorem setR_desk (a v : Nat) : (d.setR a v).desk = d.desk := rfl
@[simp] theorem setF_desk (a lo w v : Nat) : (d.setF a lo w v).desk = d.desk := rfl
@[simp] theorem setFlag_desk (a k : Nat) (x : Bool) : (d.setFlag a k x).desk = d.desk := rfl
@[simp] theorem bump_desk (a k : Nat) : (d.bump a k).desk = d.desk := rfl
@[simp] theorem emit_desk (x : Output) : (d.emit x).desk = d.desk := rfl
@[simp] theorem setFn_desk (f : Nat) (x : Fn) : (d.setFn f x).desk = d.desk := rfl
@[simp] theorem trace_desk (t : TraceSt) : ({ d with trace := t } : Dev).desk = d.desk := rfl

/-! ### Trace records -/

/-- What a trace record leaves as it was: everything but the trace and three OBS registers. -/
structure TraceKeeps (d e : Dev) : Prop where
  desk : e.desk = d.desk
  car  : e.car = d.car
  out  : e.out = d.out
  rg   : ∀ a, a ≠ OBS_TSTAT → a ≠ OBS_TFIFO → a ≠ OBS_TDROP → e.rg a = d.rg a

theorem TraceKeeps.refl : TraceKeeps d d := ⟨rfl, rfl, rfl, fun _ _ _ _ => rfl⟩
theorem TraceKeeps.trans {a b c : Dev} (h : TraceKeeps a b) (g : TraceKeeps b c) : TraceKeeps a c :=
  ⟨g.desk.trans h.desk, g.car.trans h.car, g.out.trans h.out, fun x h1 h2 h3 => (g.rg x h1 h2 h3).trans (h.rg x h1 h2 h3)⟩

theorem TraceKeeps.trace (t : TraceSt) : TraceKeeps d { d with trace := t } := ⟨rfl, rfl, rfl, fun _ _ _ _ => rfl⟩
theorem TraceKeeps.fifo (lo w v : Nat) : TraceKeeps d (d.setF OBS_TFIFO lo w v) :=
  ⟨rfl, rfl, rfl, fun _ _ h _ => rg_setF_ne d h⟩
theorem TraceKeeps.drop (k : Nat) : TraceKeeps d (d.bump OBS_TDROP k) := ⟨rfl, rfl, rfl, fun _ _ _ h => rg_bump_ne d h⟩
theorem TraceKeeps.stat (k : Nat) (x : Bool) : TraceKeeps d (d.setFlag OBS_TSTAT k x) :=
  ⟨rfl, rfl, rfl, fun _ h _ _ => rg_setFlag_ne d h⟩

theorem setFifo_keeps (die : Nat) (l : List (List Byte)) : TraceKeeps d (d.setFifo die l) := by
  unfold Dev.setFifo
  exact (TraceKeeps.trace d _).trans (TraceKeeps.fifo _ _ _ _)

theorem traceDrop_keeps (die ty : Nat) : TraceKeeps d (d.traceDrop die ty) := by
  unfold Dev.traceDrop
  exact ((TraceKeeps.trace d _).trans (TraceKeeps.drop _ _)).trans (TraceKeeps.stat _ _ _)

theorem traceDropRec_keeps (die : Nat) : TraceKeeps d (d.traceDropRec die) := by
  unfold Dev.traceDropRec
  dsimp only
  split
  · exact .refl d
  · exact (TraceKeeps.trace d _).trans (setFifo_keeps _ _ _)

theorem traceEnter_keeps (die : Nat) (x : List Byte) : TraceKeeps d (d.traceEnter die x) := by
  unfold Dev.traceEnter
  exact (TraceKeeps.trace d _).trans (setFifo_keeps _ _ _)

theorem traceRec_keeps (die ty : Nat) (part : Option Nat) (origin : Nat) (lcore neuron : Option Nat) (data : List Byte) :
    TraceKeeps d (d.traceRec die ty part origin lcore neuron data) := by
  unfold Dev.traceRec
  dsimp only
  split
  · exact .refl d
  · split
    · exact TraceKeeps.trace d _
    · have h := (TraceKeeps.trace d { d.trace with sample := SMap.set 0 d.trace.sample (16 * die + ty) (SMap.get 0 d.trace.sample (16 * die + ty) + 1) }).trans
        (traceDropRec_keeps _ die)
      split
      · exact h.trans (traceEnter_keeps _ _ _)
      · split
        · exact (h.trans (TraceKeeps.trace _ _)).trans (TraceKeeps.stat _ _ _)
        · exact h.trans (traceDrop_keeps _ _ _)

/-! ### The log's books -/

/-- What the books of a command leave as it was. -/
structure BookKeeps (d e : Dev) : Prop where
  desk : e.desk = d.desk
  rg   : ∀ a, ¬ BookReg a → e.rg a = d.rg a

theorem BookKeeps.refl : BookKeeps d d := ⟨rfl, fun _ _ => rfl⟩
theorem BookKeeps.trans {a b c : Dev} (h : BookKeeps a b) (g : BookKeeps b c) : BookKeeps a c :=
  ⟨g.desk.trans h.desk, fun x hx => (g.rg x hx).trans (h.rg x hx)⟩
theorem TraceKeeps.book {d e : Dev} (h : TraceKeeps d e) : BookKeeps d e :=
  ⟨h.desk, fun a ha => by
    unfold BookReg at ha; push Not at ha
    exact h.rg a ha.2.2.1 ha.2.2.2.1 ha.2.2.2.2.1⟩
theorem BookKeeps.setF {a : Nat} (h : BookReg a) (lo w v : Nat) : BookKeeps d (d.setF a lo w v) :=
  ⟨rfl, fun b hb => rg_setF_ne d (fun e => hb (e ▸ h))⟩
theorem BookKeeps.setR {a : Nat} (h : BookReg a) (v : Nat) : BookKeeps d (d.setR a v) :=
  ⟨rfl, fun b hb => rg_setR_ne d (fun e => hb (e ▸ h))⟩
theorem BookKeeps.setFn (f : Nat) (x : Fn) : BookKeeps d (d.setFn f x) := ⟨rfl, fun _ _ => rfl⟩
theorem BookKeeps.emit (x : Output) : BookKeeps d (d.emit x) := ⟨rfl, fun _ _ => rfl⟩

theorem BookKeeps.car {c : Carillon} (h : c.rest = d.car.rest) : BookKeeps d { d with car := c } :=
  ⟨(congrArg (fun x : Carillon => ({ d with regs := [], trace := default, out := [], car := x } : Dev)) h :), fun _ _ => rfl⟩

theorem logBooks_rest (x : LogRec) (ok : Bool) : (d.logBooks x ok).rest = d.car.rest ∧ (d.logBooks x ok).fns = d.car.fns := by
  cases ok <;> simp [Dev.logBooks, Carillon.rest]

theorem logTail_keeps (x y : LogRec) (ok skip : Bool) :
    let e : Dev := { d with car := d.logBooks y ok }
    let e := if skip then e.bump CAR_JSKIP 1 else e
    let e := e.traceRec 0 6 (if x.part = 0xFF then none else some x.part) 0x300 none none
      (leBytes 2 x.kind ++ leBytes 1 x.sev ++ leBytes 1 x.func ++ leBytes 4 x.seq)
    let e := e.setR CAR_LOGSEQ (e.rg CAR_LOGSEQ + 1)
    BookKeeps d e ∧ e.out = d.out ∧ e.car.fns = d.car.fns := by
  intro e0 e1 e2 e3
  have hb := logBooks_rest d y ok
  have h0 : BookKeeps d e0 := BookKeeps.car d hb.1
  have h1 : BookKeeps d e1 ∧ e1.out = d.out ∧ e1.car.fns = d.car.fns := by
    cases skip
    · exact ⟨h0, rfl, hb.2⟩
    · exact ⟨h0.trans (BookKeeps.setR e0 (.inr (.inl rfl)) _), rfl, hb.2⟩
  have hk : TraceKeeps e1 e2 := traceRec_keeps e1 _ _ _ _ _ _ _
  exact ⟨(h1.1.trans hk.book).trans (BookKeeps.setR _ (.inl rfl) _), hk.out.trans h1.2.1, (congrArg Carillon.fns hk.car).trans h1.2.2⟩

/-- A log record: the books of the log, nothing sent, and the responses as they were. -/
theorem logWrite_keeps (x : LogRec) (j : Bool) :
    BookKeeps d (d.logWrite x j) ∧ (d.logWrite x j).out = d.out ∧ (d.logWrite x j).car.fns = d.car.fns := by
  unfold Dev.logWrite
  exact logTail_keeps d _ _ _ _

/-! ### The completion of a command -/

theorem dropOutst_keeps {f : Nat} (hf : f < 16) (tag seq : Nat) : BookKeeps d (d.dropOutst f tag seq) :=
  (BookKeeps.setFn d _ _).trans (BookKeeps.setF _ (.inr (.inr (.inr (.inr (.inr ⟨f, hf, .inl rfl⟩))))) _ _ _)

theorem rrUpdate_keeps {f : Nat} (hf : f < 16) : BookKeeps d (d.rrUpdate f) :=
  BookKeeps.setF d (.inr (.inr (.inr (.inr (.inr ⟨f, hf, .inr rfl⟩))))) _ _ _

theorem resps_dropOutst (f g tag seq : Nat) : ((d.dropOutst f tag seq).fn g).resps = (d.fn g).resps := by
  unfold Dev.dropOutst
  simp only [setF_fn_at, fn_setFn]
  split
  · rename_i h; rw [h]
  · rfl

theorem measure_keeps (op : Nat) (h : Hdr) (pl : List Byte) : BookKeeps d (d.measure op h pl) := BookKeeps.car d rfl

theorem respond_keeps (x : Resp) (hf : x.hdr.func < 16) : BookKeeps d (d.respond x) := by
  unfold Dev.respond
  dsimp only
  split
  · exact (BookKeeps.setFn d _ _).trans (rrUpdate_keeps _ hf)
  · exact .refl d

theorem resps_respond (x : Resp) (h : d.flag (CAR_RRCFG x.hdr.func) 31 = true) :
    ((d.respond x).fn x.hdr.func).resps = (d.fn x.hdr.func).resps ++ [x] := by
  unfold Dev.respond Dev.rrUpdate
  simp [h]

/-- The books of a completed command: its log record and its measurement. -/
theorem book_keeps (op : Nat) (names ro : Bool) (h : Hdr) (pl : List Byte) (st st' : Status) :
    BookKeeps d (d.book op names ro h pl st st') ∧ (d.book op names ro h pl st st').out = d.out ∧
      (d.book op names ro h pl st st').car.fns = d.car.fns := by
  have h0 : ∀ c, BookKeeps d (d.logCmd op h.func (if names then h.part % 16 else 0xFF) h.tag h.seq c pl (! ro)) ∧
      (d.logCmd op h.func (if names then h.part % 16 else 0xFF) h.tag h.seq c pl (! ro)).out = d.out ∧
      (d.logCmd op h.func (if names then h.part % 16 else 0xFF) h.tag h.seq c pl (! ro)).car.fns = d.car.fns :=
    fun c => logWrite_keeps d _ _
  unfold Dev.book
  dsimp only
  split
  · exact ⟨(h0 _).1.trans (measure_keeps _ _ _ _), (h0 _).2.1, (h0 _).2.2⟩
  · exact h0 _

/-- The completion of a command of a PCIe function whose response ring is enabled, with an answer that fits: the books, and the
response at the end of the function's queue. -/
theorem complete_spec (op : Nat) (names ro : Bool) (h : Hdr) (pl : List Byte) (st : Status) (det : Nat) (ans : List Byte)
    (hf : h.func < 16) (hr : d.flag (CAR_RRCFG h.func) 31 = true) (hl : 64 * ceilDiv (32 + ans.length) 64 ≤ d.respLimit h) :
    let e := d.complete op names ro h pl st det ans
    BookKeeps d e ∧ e.out = d.out ∧
      (e.fn h.func).resps = (d.fn h.func).resps ++ [{ opcode := op, hdr := h, status := st, detail := det, pl := ans }] := by
  have n1 : ¬ 0x100 ≤ h.func := by omega
  have n2 : ¬ h.func = 0xFE := by omega
  have n3 : ¬ 64 * ceilDiv (32 + ans.length) 64 > d.respLimit h := by omega
  intro e
  have he : e = ((d.book op names ro h pl st st).dropOutst h.func h.tag h.seq).respond
      { opcode := op, hdr := h, status := st, detail := det, pl := ans } := by
    show d.complete op names ro h pl st det ans = _
    unfold Dev.complete
    simp only [n1, n2, n3, if_false]
  rw [he]
  have hb := book_keeps d op names ro h pl st st
  generalize d.book op names ro h pl st st = b at hb
  obtain ⟨b1, b2, b3⟩ := hb
  have hd := dropOutst_keeps b hf h.tag h.seq
  have hcfg : ¬ BookReg (CAR_RRCFG h.func) := by
    unfold BookReg CAR_RRCFG CAR_LOGSEQ CAR_JSKIP OBS_TSTAT OBS_TFIFO OBS_TDROP CAR_BOUT CAR_BSTAT
    push Not
    refine ⟨?_, ?_, ?_, ?_, ?_, fun f hf => ⟨?_, ?_⟩⟩ <;> omega
  have hfl : (b.dropOutst h.func h.tag h.seq).flag (CAR_RRCFG h.func) 31 = true := by
    unfold Dev.flag; rw [hd.rg _ hcfg, b1.rg _ hcfg]; exact hr
  refine ⟨(b1.trans hd).trans (respond_keeps _ _ hf), ?_, ?_⟩
  · refine Eq.trans ?_ b2
    unfold Dev.respond
    dsimp only
    rw [if_pos hfl]
    unfold Dev.rrUpdate Dev.dropOutst
    simp
  · rw [resps_respond _ _ hfl, resps_dropOutst]
    unfold Dev.fn; rw [b3]
/-- A command that Carillon executes and that ends at once, with an answer that fits: what its body does, then its books and its
response. -/
theorem serve_done {d d' : Dev} {c : CmdSpec} {body : Dev → Hdr → List Byte → Dev × Ans} {h : Hdr} {pl : List Byte} {st : Status}
    {det : Nat} {ans : List Byte} (ha : Accepted d c h pl) (hb : body d h pl = (d', .done st det ans))
    (hr : d'.rg (CAR_RRCFG h.func) = d.rg (CAR_RRCFG h.func)) (hl : Fits d h ans.length) :
    BookKeeps d' (d.serve c body h pl) ∧ (d.serve c body h pl).out = d'.out ∧
      ((d.serve c body h pl).fn h.func).resps =
        (d'.fn h.func).resps ++ [{ opcode := c.opcode, hdr := h, status := st, detail := det, pl := ans }] := by
  obtain ⟨h1, h2, h3, h4, h5⟩ := ha
  have n1 : ¬ 0x100 ≤ h.func := by omega
  have hs : d.serve c body h pl = d'.complete c.opcode c.names c.ro h pl st det ans := by
    unfold Dev.serve
    simp [h1, n1, h3, hb]
  rw [hs]
  refine complete_spec d' c.opcode c.names c.ro h pl st det ans h2 ?_ ?_
  · unfold Dev.flag at h4 ⊢; rw [hr]; exact h4
  · unfold Fits Dev.respLimit Dev.fld at hl
    unfold Dev.respLimit Dev.fld
    rw [hr]; exact hl

/-- An empty answer fits every response ring. -/
theorem fits_short {d : Dev} {c : CmdSpec} {h : Hdr} {pl : List Byte} (ha : Accepted d c h pl) {n : Nat} (hn : n ≤ 4000) : Fits d h n := by
  have h2 := ha.2.1
  have h5 := ha.2.2.2.2
  unfold Fits Dev.respLimit
  have n2 : ¬ h.func = 0xFE := by omega
  rw [if_neg n2]
  have : 2 ^ 12 ≤ 2 ^ d.fld (CAR_RRCFG h.func) 0 5 := Nat.pow_le_pow_right (by decide) h5
  unfold ceilDiv
  omega

/-- A command that Carillon executes and that waits: what its body does, and its place among the waiting commands. -/
theorem serve_wait {d d' : Dev} {c : CmdSpec} {body : Dev → Hdr → List Byte → Dev × Ans} {h : Hdr} {pl : List Byte} {w : WaitFor}
    (ha : Accepted d c h pl) (hb : body d h pl = (d', .wait w)) :
    Waits d' (d.serve c body h pl) c h pl w ∧ BookKeeps { d' with car := (d.serve c body h pl).car } (d.serve c body h pl) := by
  obtain ⟨h1, h2, h3, h4, h5⟩ := ha
  have n1 : ¬ 0x100 ≤ h.func := by omega
  unfold Dev.serve
  simp only [h1, n1, h3, hb, Bool.not_true, decide_false, Bool.or_self, Bool.false_eq_true, if_false]
  exact ⟨rfl, BookKeeps.setF _ (.inr (.inr (.inr (.inr (.inr ⟨h.func, h2, .inl rfl⟩))))) _ _ _⟩

/-! ### What the books leave as it was, field by field -/

theorem desk_mem {d e : Dev} (h : e.desk = d.desk) : e.mem = d.mem := (congrArg Dev.mem h : e.desk.mem = d.desk.mem)
theorem desk_ecc {d e : Dev} (h : e.desk = d.desk) : e.ecc = d.ecc := (congrArg Dev.ecc h : e.desk.ecc = d.desk.ecc)
theorem desk_latch {d e : Dev} (h : e.desk = d.desk) : e.latch = d.latch := (congrArg Dev.latch h : e.desk.latch = d.desk.latch)
theorem desk_cores {d e : Dev} (h : e.desk = d.desk) : e.cores = d.cores := (congrArg Dev.cores h : e.desk.cores = d.desk.cores)
theorem desk_parts {d e : Dev} (h : e.desk = d.desk) : e.parts = d.parts := (congrArg Dev.parts h : e.desk.parts = d.desk.parts)
theorem desk_regions {d e : Dev} (h : e.desk = d.desk) : e.regions = d.regions := (congrArg Dev.regions h : e.desk.regions = d.desk.regions)
theorem desk_sent {d e : Dev} (h : e.desk = d.desk) : e.sent = d.sent := (congrArg Dev.sent h : e.desk.sent = d.desk.sent)
theorem desk_filed {d e : Dev} (h : e.desk = d.desk) : e.filed = d.filed := (congrArg Dev.filed h : e.desk.filed = d.desk.filed)
theorem desk_packs {d e : Dev} (h : e.desk = d.desk) : e.packs = d.packs := (congrArg Dev.packs h : e.desk.packs = d.desk.packs)
theorem desk_net {d e : Dev} (h : e.desk = d.desk) : e.net = d.net := (congrArg Dev.net h : e.desk.net = d.desk.net)
theorem desk_inbox {d e : Dev} (h : e.desk = d.desk) : e.inbox = d.inbox := (congrArg Dev.inbox h : e.desk.inbox = d.desk.inbox)
theorem desk_sites {d e : Dev} (h : e.desk = d.desk) : e.sites = d.sites := (congrArg Dev.sites h : e.desk.sites = d.desk.sites)
theorem desk_tunPacks {d e : Dev} (h : e.desk = d.desk) : e.tunPacks = d.tunPacks := (congrArg Dev.tunPacks h : e.desk.tunPacks = d.desk.tunPacks)
theorem desk_early {d e : Dev} (h : e.desk = d.desk) : e.early = d.early := (congrArg Dev.early h : e.desk.early = d.desk.early)
theorem desk_ptp {d e : Dev} (h : e.desk = d.desk) : e.ptp = d.ptp := (congrArg Dev.ptp h : e.desk.ptp = d.desk.ptp)
theorem desk_naps {d e : Dev} (h : e.desk = d.desk) : e.naps = d.naps := (congrArg Dev.naps h : e.desk.naps = d.desk.naps)
theorem desk_tocq {d e : Dev} (h : e.desk = d.desk) : e.tocq = d.tocq := (congrArg Dev.tocq h : e.desk.tocq = d.desk.tocq)
theorem desk_tocWake {d e : Dev} (h : e.desk = d.desk) : e.tocWake = d.tocWake := (congrArg Dev.tocWake h : e.desk.tocWake = d.desk.tocWake)
theorem desk_tcores {d e : Dev} (h : e.desk = d.desk) : e.tcores = d.tcores := (congrArg Dev.tcores h : e.desk.tcores = d.desk.tcores)
theorem desk_scores {d e : Dev} (h : e.desk = d.desk) : e.scores = d.scores := (congrArg Dev.scores h : e.desk.scores = d.desk.scores)
theorem desk_timers {d e : Dev} (h : e.desk = d.desk) : e.timers = d.timers := (congrArg Dev.timers h : e.desk.timers = d.desk.timers)
theorem desk_pins {d e : Dev} (h : e.desk = d.desk) : e.pins = d.pins := (congrArg Dev.pins h : e.desk.pins = d.desk.pins)
theorem desk_fence {d e : Dev} (h : e.desk = d.desk) : e.fence = d.fence := (congrArg Dev.fence h : e.desk.fence = d.desk.fence)
theorem desk_failedQ {d e : Dev} (h : e.desk = d.desk) : e.failedQ = d.failedQ := (congrArg Dev.failedQ h : e.desk.failedQ = d.desk.failedQ)
theorem desk_fenceList {d e : Dev} (h : e.desk = d.desk) : e.fenceList = d.fenceList := (congrArg Dev.fenceList h : e.desk.fenceList = d.desk.fenceList)
theorem desk_fenceOld {d e : Dev} (h : e.desk = d.desk) : e.fenceOld = d.fenceOld := (congrArg Dev.fenceOld h : e.desk.fenceOld = d.desk.fenceOld)
theorem desk_alarmQ {d e : Dev} (h : e.desk = d.desk) : e.alarmQ = d.alarmQ := (congrArg Dev.alarmQ h : e.desk.alarmQ = d.desk.alarmQ)
theorem desk_alarmUs {d e : Dev} (h : e.desk = d.desk) : e.alarmUs = d.alarmUs := (congrArg Dev.alarmUs h : e.desk.alarmUs = d.desk.alarmUs)
theorem desk_rtcFrac {d e : Dev} (h : e.desk = d.desk) : e.rtcFrac = d.rtcFrac := (congrArg Dev.rtcFrac h : e.desk.rtcFrac = d.desk.rtcFrac)
theorem desk_ppsLast {d e : Dev} (h : e.desk = d.desk) : e.ppsLast = d.ppsLast := (congrArg Dev.ppsLast h : e.desk.ppsLast = d.desk.ppsLast)
theorem desk_ppsCorr {d e : Dev} (h : e.desk = d.desk) : e.ppsCorr = d.ppsCorr := (congrArg Dev.ppsCorr h : e.desk.ppsCorr = d.desk.ppsCorr)
theorem desk_slew {d e : Dev} (h : e.desk = d.desk) : e.slew = d.slew := (congrArg Dev.slew h : e.desk.slew = d.desk.slew)
theorem desk_taiSet {d e : Dev} (h : e.desk = d.desk) : e.taiSet = d.taiSet := (congrArg Dev.taiSet h : e.desk.taiSet = d.desk.taiSet)
theorem desk_fabDevs {d e : Dev} (h : e.desk = d.desk) : e.fabDevs = d.fabDevs := (congrArg Dev.fabDevs h : e.desk.fabDevs = d.desk.fabDevs)
theorem desk_fabSpans {d e : Dev} (h : e.desk = d.desk) : e.fabSpans = d.fabSpans := (congrArg Dev.fabSpans h : e.desk.fabSpans = d.desk.fabSpans)
theorem desk_links {d e : Dev} (h : e.desk = d.desk) : e.links = d.links := (congrArg Dev.links h : e.desk.links = d.desk.links)
theorem desk_lports {d e : Dev} (h : e.desk = d.desk) : e.lports = d.lports := (congrArg Dev.lports h : e.desk.lports = d.desk.lports)
theorem desk_oports {d e : Dev} (h : e.desk = d.desk) : e.oports = d.oports := (congrArg Dev.oports h : e.desk.oports = d.desk.oports)
theorem desk_colls {d e : Dev} (h : e.desk = d.desk) : e.colls = d.colls := (congrArg Dev.colls h : e.desk.colls = d.desk.colls)
theorem desk_bulks {d e : Dev} (h : e.desk = d.desk) : e.bulks = d.bulks := (congrArg Dev.bulks h : e.desk.bulks = d.desk.bulks)
theorem desk_reqs {d e : Dev} (h : e.desk = d.desk) : e.reqs = d.reqs := (congrArg Dev.reqs h : e.desk.reqs = d.desk.reqs)
theorem desk_cal {d e : Dev} (h : e.desk = d.desk) : e.cal = d.cal := (congrArg Dev.cal h : e.desk.cal = d.desk.cal)
theorem desk_pwr {d e : Dev} (h : e.desk = d.desk) : e.pwr = d.pwr := (congrArg Dev.pwr h : e.desk.pwr = d.desk.pwr)
theorem desk_ddrEpoch {d e : Dev} (h : e.desk = d.desk) : e.ddrEpoch = d.ddrEpoch := (congrArg Dev.ddrEpoch h : e.desk.ddrEpoch = d.desk.ddrEpoch)
theorem desk_dma {d e : Dev} (h : e.desk = d.desk) : e.dma = d.dma := (congrArg Dev.dma h : e.desk.dma = d.desk.dma)
theorem desk_heldAcc {d e : Dev} (h : e.desk = d.desk) : e.heldAcc = d.heldAcc := (congrArg Dev.heldAcc h : e.desk.heldAcc = d.desk.heldAcc)
theorem desk_d3hot {d e : Dev} (h : e.desk = d.desk) : e.d3hot = d.d3hot := (congrArg Dev.d3hot h : e.desk.d3hot = d.desk.d3hot)
theorem desk_nextTag {d e : Dev} (h : e.desk = d.desk) : e.nextTag = d.nextTag := (congrArg Dev.nextTag h : e.desk.nextTag = d.desk.nextTag)
theorem desk_vfEnable {d e : Dev} (h : e.desk = d.desk) : e.vfEnable = d.vfEnable := (congrArg Dev.vfEnable h : e.desk.vfEnable = d.desk.vfEnable)
theorem desk_numVfs {d e : Dev} (h : e.desk = d.desk) : e.numVfs = d.numVfs := (congrArg Dev.numVfs h : e.desk.numVfs = d.desk.numVfs)
theorem desk_nonce {d e : Dev} (h : e.desk = d.desk) : e.nonce = d.nonce := (congrArg Dev.nonce h : e.desk.nonce = d.desk.nonce)
theorem desk_rest {d e : Dev} (h : e.desk = d.desk) : e.car.rest = d.car.rest := (congrArg Dev.car h : e.desk.car = d.desk.car)
theorem desk_car_ff {d e : Dev} (h : e.desk = d.desk) : e.car.ff = d.car.ff :=
  (congrArg Carillon.ff (desk_rest h) : e.car.rest.ff = d.car.rest.ff)
theorem desk_car_supp {d e : Dev} (h : e.desk = d.desk) : e.car.supp = d.car.supp :=
  (congrArg Carillon.supp (desk_rest h) : e.car.rest.supp = d.car.rest.supp)
theorem desk_car_suppKind {d e : Dev} (h : e.desk = d.desk) : e.car.suppKind = d.car.suppKind :=
  (congrArg Carillon.suppKind (desk_rest h) : e.car.rest.suppKind = d.car.rest.suppKind)
theorem desk_car_journal {d e : Dev} (h : e.desk = d.desk) : e.car.journal = d.car.journal :=
  (congrArg Carillon.journal (desk_rest h) : e.car.rest.journal = d.car.rest.journal)
theorem desk_car_waiting {d e : Dev} (h : e.desk = d.desk) : e.car.waiting = d.car.waiting :=
  (congrArg Carillon.waiting (desk_rest h) : e.car.rest.waiting = d.car.rest.waiting)
theorem desk_car_active {d e : Dev} (h : e.desk = d.desk) : e.car.active = d.car.active :=
  (congrArg Carillon.active (desk_rest h) : e.car.rest.active = d.car.rest.active)
theorem desk_car_trial {d e : Dev} (h : e.desk = d.desk) : e.car.trial = d.car.trial :=
  (congrArg Carillon.trial (desk_rest h) : e.car.rest.trial = d.car.rest.trial)
theorem desk_car_trialEnd {d e : Dev} (h : e.desk = d.desk) : e.car.trialEnd = d.car.trialEnd :=
  (congrArg Carillon.trialEnd (desk_rest h) : e.car.rest.trialEnd = d.car.rest.trialEnd)
theorem desk_car_update {d e : Dev} (h : e.desk = d.desk) : e.car.update = d.car.update :=
  (congrArg Carillon.update (desk_rest h) : e.car.rest.update = d.car.rest.update)
theorem desk_car_verified {d e : Dev} (h : e.desk = d.desk) : e.car.verified = d.car.verified :=
  (congrArg Carillon.verified (desk_rest h) : e.car.rest.verified = d.car.rest.verified)
theorem desk_car_imgA {d e : Dev} (h : e.desk = d.desk) : e.car.imgA = d.car.imgA :=
  (congrArg Carillon.imgA (desk_rest h) : e.car.rest.imgA = d.car.rest.imgA)
theorem desk_car_imgB {d e : Dev} (h : e.desk = d.desk) : e.car.imgB = d.car.imgB :=
  (congrArg Carillon.imgB (desk_rest h) : e.car.rest.imgB = d.car.rest.imgB)
theorem desk_car_wrote {d e : Dev} (h : e.desk = d.desk) : e.car.wrote = d.car.wrote :=
  (congrArg Carillon.wrote (desk_rest h) : e.car.rest.wrote = d.car.rest.wrote)
theorem desk_car_partRec {d e : Dev} (h : e.desk = d.desk) : e.car.partRec = d.car.partRec :=
  (congrArg Carillon.partRec (desk_rest h) : e.car.rest.partRec = d.car.rest.partRec)
theorem desk_car_mfw {d e : Dev} (h : e.desk = d.desk) : e.car.mfw = d.car.mfw :=
  (congrArg Carillon.mfw (desk_rest h) : e.car.rest.mfw = d.car.rest.mfw)
theorem desk_car_restart {d e : Dev} (h : e.desk = d.desk) : e.car.restart = d.car.restart :=
  (congrArg Carillon.restart (desk_rest h) : e.car.rest.restart = d.car.rest.restart)
theorem desk_car_eid {d e : Dev} (h : e.desk = d.desk) : e.car.eid = d.car.eid :=
  (congrArg Carillon.eid (desk_rest h) : e.car.rest.eid = d.car.rest.eid)
theorem desk_car_keepCfg {d e : Dev} (h : e.desk = d.desk) : e.car.keepCfg = d.car.keepCfg :=
  (congrArg Carillon.keepCfg (desk_rest h) : e.car.rest.keepCfg = d.car.rest.keepCfg)
end Sys2Proof.Machine
end

