-- ==== Sys2Proof/Tests/Slice0.lean ====
section
/-! SUPPORT. The model's own tests: well-formedness, and for each statement's hypotheses a state that meets them. -/

namespace Sys2Proof.Tests

open Sys2Proof Sys2Proof.Machine

set_option maxRecDepth 20000

/-- A device that is READY: partition 1 owns regions 0 and 1, whose logical cores 0 to 17 stand at their own sites; the rings
of functions 0 and 1 are enabled. -/
def wD : Dev :=
  let d := ((default : Dev).setFlag CAR_STAT 0 true).setF CAL_STAT 0 3 4
  let d := (d.setR (CAR_RRCFG 0) 0x80000014).setR (CAR_RRCFG 1) 0x80000014
  let d := (d.setR (CAL_REGPART 0) 0x80000001).setR (CAL_REGPART 1) 0x80000001
  let d := d.forEach (upTo 16) (fun d n => d.setR (FAB_REMAP 0 n) (0x80000000 + n))
  (d.setR (FAB_REMAP 1 16) 0x80000000).setR (FAB_REMAP 1 17) 0x80000001

def wS : State := { dev := wD, pending := [] }
/-- A state with this device. -/
def wOf (d : Dev) : State := { dev := d, pending := [] }

/-- A header of the physical function that names partition 1. -/
def wH : Hdr := { func := 0, units := 1, part := 1, tag := 5, seq := 7, flags := 0, rsvd := 0, port := 0 }
/-- The same with PART 0. -/
def wH0 : Hdr := { wH with part := 0 }

/-- Partition 1 in beat 9, RUNNING, 5 ticks into it. -/
def wRun : Dev :=
  ((((wD.setR (TAB_BPERIOD 1) 400000).setF (TAB_BSTAT 1) 16 3 1).setR (TAB_BEATNO_LO 1) 9).setR (TAB_BCOUNT 1) 5)

/-- The same device with every site good and the domains of region 0 ON. -/
def wOn : Dev :=
  let d := { wD with car := { wD.car with partRec := zeros 24 ++ List.replicate 40 0xFF#8 } }
  d.forEach (upTo 6) (fun d k => d.setF (PWR_DSTAT k) 30 2 2)

/-- Partition 1 RUNNING in beat 9 with core 0 about to deliver it: its record area on page 0, its rings on page 1, one
neuron. -/
def wCore : Dev :=
  let d := ((wRun.setR (SYN_PMREC 0) 0x100).setR (SYN_PMRING 0) 0x101).setR (NEU_CFG 0) 1
  let d := d.setRegion 0 { d.region 0 with beat := 9, started := true }
  d.setCore 0 { NCore.reset with ptr := 9, integ := some 8, final := some 8 }

/-- The running device with a range of 1,000 axon entries for partition 1 on die 0. -/
def wAx : Dev := (wD.setR (AXN_PBASE 0 1) 0x80000000).setR (AXN_PLIMIT 0 1) 999
/-- Core 0 with one fire-log entry of neuron 0 whose axon entry is an OUTPUT entry. -/
def wLook : Dev :=
  let d := (((wCore.setR (AXN_PBASE 0 1) 0x80000000).setR (AXN_PLIMIT 0 1) 999).setR (AXN_CBASE 0 0) 0x80000010).setR (SYN_FLBASE 0) 8
  ((d.setR (NEU_FLCOUNT 0) 1).wrN (d.flBase 0) 8 (9 * 2 ^ 32)).wrN (axAddr 0 16) 8 (5 * 2 ^ 60 + 7)
/-- A ROW event of partition 1 for logical core 0, emitted in beat 9, with delay 2. -/
def wEv : Event := ⟨0, 3, 2, 1, 1, 0, 0, 0, 9, 0, 0⟩
/-- This device is number 0 of a row of four; its X+ neighbour, device 1, is present and every link works. -/
def wNbr : Dev :=
  let d := (((wD.setF (FAB_DCFG 0) 14 3 3).setF (FAB_PSTAT 0 0) 0 3 2).setFlag (CAL_PORTSTAT 0) 0 true).setR (FAB_RTX 0) 4
  { d with fabDevs := [1] }
/-- Site 3 of partition 1: PORT 0, IPv4 peer 10.0.0.9. -/
def wSite : List Byte := [1, 1] ++ leBytes 2 9 ++ zeros 2 ++ leBytes 2 4000 ++ zeros 36 ++ [10, 0, 0, 9] ++ zeros 16
/-- W port 0 is an Ethernet port at 10.0.0.7 whose link is UP, the tunnel is enabled on UDP port 4000, partition 1 runs. -/
def wTun : Dev :=
  let d := ((wRun.setR (TUN_PCFG 0) 1).setF (TUN_PSTAT 0) 0 2 3).setR (TUN_IPV4 0) 0x0A000007
  let d := (d.setFlag TUN_CTL 0 true).setF TUN_CTL 16 16 4000
  (d.setF TUN_LIMITS 16 12 8).setSite 3 wSite
/-- A datagram of site 3 for beat 9, SEQ 1, with one record; and its frame from 10.0.0.9. -/
def wPay : List Byte := [0x10, 0] ++ beBytes 2 3 ++ beBytes 6 9 ++ beBytes 4 1 ++ beBytes 2 1 ++ zeros 8
def wGram : List Byte :=
  let h (c : Nat) : List Byte := [0x45, 0] ++ beBytes 2 52 ++ zeros 4 ++ [64, 17] ++ beBytes 2 c ++ [10, 0, 0, 9, 10, 0, 0, 7]
  zeros 12 ++ beBytes 2 0x0800 ++ h (inetSum (h 0)) ++ beBytes 2 4000 ++ beBytes 2 4000 ++ beBytes 2 32 ++ beBytes 2 0 ++ wPay
/-- A committed checkpoint of partition 1 with one reverse-index record of core 0: its header, its payload and the slot; and a
still device that holds it. -/
def wImgHd : List Byte :=
  leBytes 4 0x544B4347 ++ leBytes 2 1 ++ [1, 0] ++ leBytes 8 5 ++ leBytes 8 3 ++ leBytes 4 1 ++ leBytes 4 1 ++ leBytes 8 64 ++ zeros 24
def wImgPay : List Byte := payRec 2 0 0 0x20000 [7, 8, 9, 10]
def wSlot : List Byte := wImgHd ++ padTo 64 (Config.sha3_512 (wImgHd ++ wImgPay)) ++ wImgPay
def wCk : Dev :=
  let d := wD.setR (SYN_PMREV 0) 0x102
  d.setPart 1 { (d.part 1) with ckpt := { (d.part 1).ckpt with nslot := 2, slots := [(0, wSlot)] } }
/-- Core 0 with one fire-log entry of neuron 0 that the post pass has not read; and the same with a reverse index that lists one
packed plastic synapse of it. -/
def wPost : Dev := wLook.wrN (wLook.flBase 0) 8 (9 * 2 ^ 32 + 2 ^ 24)
def wPost1 : Dev :=
  let d := (((wPost.setR (SYN_PMREV 0) 0x102).setR (HRV_REVCFG 0) 1).setR (SYN_ZCFG 0 0) 0x80050206).setR (SYN_ZROWS 0 0) 100
  let d := d.setR (SYN_ZFIRST 0 0) 12313
  let d := (d.wrN (csBase 0 + 0x20000) 4 (1 + 2 ^ 14)).wrN (csBase 0 + 0x20004) 4 (12313 * 32768)
  let d := d.setCore 0 { d.core 0 with rules := [(0, [1#8])] }
  (d.wrN (1099512020992 + 4) 1 1).wrN 1099512021792 2 0x3425
/-- A gang 3 of the T-cores of regions 0 and 1. -/
def wGang : Dev :=
  let d := (wOn.setR (TCR_GANG 0) (2 ^ 31 + 3 * 2 ^ 24 + 5 * 2 ^ 16 + 1)).setR (TCR_GANG 1) (2 ^ 31 + 3 * 2 ^ 24 + 9 * 2 ^ 16 + 0x101)
  (d.setFlag (TCR_STAT 0) 2 true).setFlag (TCR_STAT 1) 2 true
/-- Three tensor descriptors and a MATMUL of 2 × 2 × 2 of INT8 into INT32; it runs in region 0 over small operands. -/
def wTens (ad f st : Nat) : List Byte := leBytes 4 ad ++ leBytes 1 f ++ zeros 3 ++ leBytes 4 st ++ zeros 4
def wMm : List Byte :=
  [1, 0, 0, 2, 7, 0, 0, 0, 2, 0, 2, 0, 2, 0, 0, 0] ++ wTens 0 0 16 ++ wTens 64 0 16 ++ wTens 128 8 16
def wMat : Dev :=
  let d := (wOn.wrB (tcBase 0) [3, 255]).wrB (tcBase 0 + 16) [127, 128]
  let d := (d.wrB (tcBase 0 + 64) [5, 6]).wrB (tcBase 0 + 80) [128, 128]
  (d.setFlag (TCR_CTL 0) 0 true).setTcore 0 { d.tcore 0 with running := true, queue := [(wMm, false)] }
/-- A legal descriptor of each op, which runs in region 0; parameter blocks of CONV and ENCODE in units 16 and 17. -/
def wOpX (n : Nat) : List Byte :=
  let h (pw m n' k : Nat) : List Byte := [BitVec.ofNat 8 n, 0, 0, 2, 7, 0] ++ leBytes 2 pw ++ leBytes 2 m ++ leBytes 2 n' ++ leBytes 4 k
  if n = 2 then h 0x8010 4 2 2 ++ wTens 0 0 16 ++ wTens 64 0 16 ++ wTens 128 8 16
  else if n = 3 then h 0 2 2 32 ++ wTens 2048 9 128 ++ wTens 4096 9 8 ++ wTens 8192 9 8
  else if n = 4 then h 0 1 32 1 ++ wTens 2048 9 128 ++ (leBytes 4 4096 ++ [2, 1] ++ zeros 2 ++ leBytes 4 32 ++ leBytes 4 4160) ++
    wTens 8192 9 128
  else if n = 5 then h 0 2 2 1 ++ wTens 0 0 16 ++ zeros 16 ++ wTens 128 0 16
  else if n = 6 then h 0x8011 1 2 1 ++ wTens 2048 8 16 ++ wTens 4096 0 8 ++ wTens 8192 0 0
  else if n = 7 then h 0 2 2 1 ++ wTens 2048 8 16 ++ zeros 16 ++ wTens 128 0 16
  else wMm
def wOpD (n : Nat) : Dev :=
  let d := wMat.wrB (tcBase 0 + 1024 + 16) ([2, 0, 2, 0, 2, 0] ++ [1, 1, 1, 0, 1])
  let d := d.wrB (tcBase 0 + 1088) (leBytes 4 0x3F800000 ++ leBytes 4 4 ++ [1])
  (d.wrB (tcBase 0 + 2048) (leBytes 4 300 ++ leBytes 4 0xFFFFFFF0)).setTcore 0 { wMat.tcore 0 with queue := [(wOpX n, false)] }
/-- The S-core of region 0 RUNNING at descriptor 0; a descriptor there; region 0's banks owned by it; another device present. -/
def wSeq : Dev := wOn.setSeq 0 1 0
def wAt (d : Dev) (x : List Byte) : Dev := d.setScore 0 { d.score 0 with prog := [(0, x)] }
def wCmn : Dev := wSeq.forEach (upTo 16) (fun d b => d.setR (CMN_OWN 0 b) 1)
def wSeqN : Dev :=
  let d := (((wSeq.setF (FAB_DCFG 0) 14 3 3).setF (FAB_PSTAT 0 0) 0 3 2).setFlag (CAL_PORTSTAT 0) 0 true).setR (FAB_RTX 0) 4
  { d with fabDevs := [1] }
/-- Core 0 has ended the harvest of a Season of 1,000 beats whose window is 20. -/
def wTend : Dev := (((wCmn.setG 0 1 (cmnBase 0 + 64)).setR (HRV_STAT 0) 4).setR (HRV_HWIN 0) 20).setR (HRV_SEASON 0) 1000
/-- Function 1 exists; the physical function's aperture 0 is at region 0's Commons, whose bank 0 the router owns. -/
def wVf : Dev := { wD with vfEnable := true, numVfs := 3 }
def wBar : Dev := (wD.setR (PCI_AP 0 0) (2 ^ 31 + 0x500)).setR (CMN_OWN 0 0) 2
/-- DMA channels 2 and 3 of partition 1 with a descriptor of 16 bytes of Commons in progress. -/
def wDmaX : List Byte := leBytes 8 0x1000 ++ leBytes 8 (cmnBase 0 + 64) ++ leBytes 4 16 ++ zeros 12
def wDma : Dev :=
  let d := ((wBar.setR (PCI_DMACFG 2) 0x8000000C).setR (PCI_DMACFG 3) 0x8000000C).setR (PCI_DMATAIL 3) 5
  (d.setDma 2 [⟨wDmaX, 0, 0, 0⟩]).setDma 3 [⟨wDmaX, 0, 0, 0⟩]
/-- Timer 3 of partition 1 runs a lap of 100 ticks at count 50, CMP0 60, both edges of CAPSRC 0 captured. -/
def wTm : Dev :=
  let d := (wD.setR (TAB_TnCTL 3) 0x10030000).setR (TAB_TnPERIOD 3) 100
  ((d.setR (TAB_TnCOUNT 3) 50).setR (TAB_TnCMP0 3) 60).setFlag (TAB_TnSTAT 3) 0 true
/-- Source 7 of core 3's Tocsin is enabled with PRIO 5 and pending with COUNT 2. -/
def wToc : Dev := (((wOn.setR (TOC_MASK 3) 0).setR (TOC_ENABLE 3) 0x80).setR (TOC_PEND 3) 0x80).setR (TOC_SRC 3 7) 0x20050
/-- The physical function's command ring holds two units from index 0; a LOG_STATUS message of one unit. -/
def wBell : Dev := (((wD.setR (CAR_CRCFG 0) 0x8000000C).setR (CAR_CRTAIL 0) 2).setR (PWR_STATE) 0)
def wMsg : List Byte := leBytes 2 0x0E07 ++ leBytes 2 1 ++ zeros 60
/-- Partition 1 RUNNING in beat 9 with naps enabled; the cores of quad 0 have reported FINAL for it. -/
def wNap : Dev :=
  let d := (wRun.setR PWR_POLICY 2).setRegion 0 { wRun.region 0 with beat := 9, started := true }
  d.forEach (upTo 4) (fun d q => d.setCore q { NCore.reset with ptr := 10, integ := some 9, final := some 9 })
/-- The trace is enabled in SERVICE mode with every type admitted. -/
def wTrace : Dev := (wD.setR OBS_TCTL 1).setR OBS_TSRC 0x7FFF

/-- Bytes inside the first part of a list. -/
theorem leAt_head (l g : List Byte) (o n : Nat) (h : o + n ≤ l.length) : leAt (l ++ g ++ wImgPay) o n = leAt l o n := by
  simp only [leAt]
  rw [List.append_assoc, List.drop_append_of_le_length (by omega), List.take_append_of_le_length (by simp; omega)]

/-- The slot written as header, digest and payload. -/
theorem wSlot_parts (g : List Byte) (hg : g.length = 64) :
    slotNamed 1 (wImgHd ++ g ++ wImgPay) = true ∧ (wImgHd ++ g ++ wImgPay).take 64 = wImgHd ∧
      ((wImgHd ++ g ++ wImgPay).drop 64).take 64 = g ∧ (wImgHd ++ g ++ wImgPay).drop 128 = wImgPay ∧
      leAt (wImgHd ++ g ++ wImgPay) 32 8 = 64 ∧ leAt (wImgHd ++ g ++ wImgPay) 28 4 = 1 := by
  have hh : wImgHd.length = 64 := rfl
  refine ⟨rfl, ?_, ?_, ?_, ?_, ?_⟩
  · rw [List.append_assoc, List.take_append_of_le_length (by omega), ← hh, List.take_length]
  · rw [List.append_assoc, ← hh, List.drop_left, List.take_append_of_le_length (by omega), hh, ← hg, List.take_length]
  · have : (wImgHd ++ g).length = 128 := by simp [hh, hg]
    rw [← this, List.drop_left]
  · exact (leAt_head _ _ 32 8 (by omega)).trans (by decide)
  · exact (leAt_head _ _ 28 4 (by omega)).trans (by decide)

theorem wSlot_digest : (padTo 64 (Config.sha3_512 (wImgHd ++ wImgPay))).length = 64 := by
  simp [padTo, zeros]; omega

theorem wSlot_newest : wCk.newestSlot 1 = some (0, wSlot) := by
  have hp := wSlot_parts _ wSlot_digest
  have hs : (wCk.part 1).ckpt.slots = [(0, wSlot)] := rfl
  have hg : slotGood wSlot = true := by
    unfold slotGood wSlot
    rw [hp.2.2.1, hp.2.2.2.1, hp.2.2.2.2.1, hp.2.1]
    exact beq_self_eq_true _
  have hn : slotNamed 1 wSlot = true := hp.1
  unfold Dev.newestSlot
  rw [hs]
  simp [hn, hg]

theorem wSlot_recs : payRecs (leAt wSlot 28 4) (wSlot.drop 128) = [(2, 0, 0, 0x20000, [7, 8, 9, 10])] := by
  have hp := wSlot_parts _ wSlot_digest
  unfold wSlot
  rw [hp.2.2.2.1, hp.2.2.2.2.2]
  decide

/-- The checkpointed device meets what a restore asks. -/
theorem wCk_meets : Accepted wCk cCkptRestore wH [] ∧ (wCk.still wH.part = true ∨ wCk.bstate wH.part = 4) ∧
    wCk.newestSlot wH.part = some (0, wSlot) ∧ payRecs (leAt wSlot 28 4) (wSlot.drop 128) = [(2, 0, 0, 0x20000, [7, 8, 9, 10])] ∧
    wCk.recordInside wH.part (2, 0, 0, 0x20000, [7, 8, 9, 10]) = true ∧ wCk.physOf 0 = some 0 :=
  ⟨by decide, by decide, wSlot_newest, wSlot_recs, by decide, by decide⟩

/-! ### WellFormed refuses an ill-formed term for each of its checks -/

/-- Each command that carries a Bellpull message refuses an ill-formed header. -/
theorem test_wf_header_1 :
    [(Instr.beatConfig : Hdr → List Byte → Instr),
    .beatOffsets, .beatStart, .beatMuffle, .beatResume, .beatPeriod, .beatStatus, .timeConfig, .timeStatus, .timeRelock,
    .profileLoad, .profileRead, .neuronLoad, .neuronRead, .neuronStatus, .pagemapSet, .pagemapRead, .rowLoad, .rowRead,
    .synStatus, .poisonList, .axonRange, .axonCoreBase, .axonLoad, .axonRead, .almanacConfig, .almanacRead,
    .almanacLoad, .readoutConfig, .readoutRead, .eventRings, .axnStatus, .fabStatus, .portControl, .portStatus,
    .routeRead, .collSetup, .collIssue, .collRelease, .collStatus, .rudimentLoad, .rudimentConfig, .rudimentRead,
    .ethPortConfig, .siteSet].all
      (fun c => ! (c { wH with func := 16 } []).wf && (c wH []).wf) = true := by decide

theorem test_wf_header_2 :
    [(Instr.siteRead : Hdr → List Byte → Instr),
    .tunStatus, .ptpConfig, .ptpStatus, .ruleLoad, .ruleRead, .seasonConfig, .modSet, .seedSet, .revLoad, .ckptConfig,
    .ckptNow, .ckptRestore, .ckptStatus, .ckptQuota, .hrvStatus, .gangForm, .gangRelease, .gangStatus, .tcoreSubmit,
    .tcoreStatus, .tcoreAbort, .tcoreSeed, .seqLoad, .seqControl, .seqStatus, .chanConfig, .chanSend, .chanRecv,
    .queStatus, .cqConfig, .commonsOwn, .cmnStatus, .ddrConfig, .ddrStatus, .ddrWindow, .ddrRetrain, .ddrScrub,
    .ddrWinread, .idRead, .attest, .sensorRead, .logRead, .ffRead, .ffClear].all
      (fun c => ! (c { wH with func := 16 } []).wf && (c wH []).wf) = true := by decide

theorem test_wf_header_3 :
    [(Instr.logStatus : Hdr → List Byte → Instr),
    .updateBegin, .updateData, .updateVerify, .updateActivate, .updateCommit, .updateStatus, .calStatus, .partAssign,
    .partRemove, .partStatus, .planSet, .planRead, .planClear, .powerState, .powerVote, .powerStatus, .thermalConfig,
    .policySet, .rtcAlarm, .aonWrite, .aonRead, .faultStatus, .muteSet, .muteClear, .choke, .partScrub, .fence,
    .fenceList, .fenceClear, .faultConfig, .gpioSafe, .spareReserve, .obsRead, .obsControl, .traceConfig, .traceStatus,
    .traceMark].all
      (fun c => ! (c { wH with func := 16 } []).wf && (c wH []).wf) = true := by decide

theorem test_wf_header_fields :
    [{ wH with func := 16 }, { wH with units := 0 }, { wH with units := 16384 }, { wH with part := 256 }, { wH with tag := 65536 }, { wH with seq := 4294967296 }, { wH with flags := 256 }].all
      (fun h => ! (Instr.beatStatus h []).wf) = true := by decide

theorem test_wf_header_smbus : (Instr.beatStatus { wH with func := 0xFE } []).wf = true := by decide

theorem test_wf_payload : (Instr.beatStatus wH (zeros 33)).wf = false ∧ (Instr.beatStatus wH (zeros 32)).wf = true := by decide

/-- A packet whose flits and link tags disagree is ill-formed: too few bytes, no tag, two virtual channels, an unknown channel, a head
where the tail should stand, a tag of more than 16 bits. -/
theorem test_wf_link_tags : (Instr.packetForward 0 (zeros 128) ⟨[0x1000, 0xF000, 0x1800], 0⟩).wf = true ∧
    (Instr.class0FlitForward 0 (zeros 64) ⟨[0x0C00], 0⟩).wf = true ∧
    [([0x0C00], 63), ([], 0), ([0x1000, 0x2800], 128), ([0xCC00], 64), ([0x1000, 0x1000], 128), ([0x10C00], 64)].all
      (fun x => ! (Instr.packetForward 0 (zeros x.2) ⟨x.1, 0⟩).wf && ! (Instr.class0FlitForward 0 (zeros x.2) ⟨x.1, 0⟩).wf) = true := by decide

theorem test_wf_below_2_1 : [
    .pealCopyDrop 2 default, .ethernetFrame 2 default default, .tunnelDatagram 2 default, .ptpMessage 2 default default,
    .ddrAccess 2 0 default 0 default, .traceRecordSend 2, .ethLinkDown 2, .ethLinkUp ⟨2, true⟩].all (fun i : Instr => ! i.wf) = true := by decide

theorem test_wf_below_8_1 : [
    .packetForward 8 default default, .class0FlitForward 8 default default, .readRequest 8 default,
    .writeRequest 8 default, .readData 8 default, .writeAck 8 default, .errorReply 8 default, .bulkWrite 8 default,
    .bulkAck 8 default, .collUp 8 default, .collDown 8 default, .portTrainingEnd 8 default, .portRetrainTimer 8,
    .portFailure 8 default default, .fabPctlEnable 0 8 default, .fabPctlTrain 0 8 default,
    .combiningContribution default 0 8 default, .queCqcfgClear default 0 8, .smbusReadTmax 8 default,
    .smbusReadSensor 8 default default, .smbusReadPower 8 default, .smbusReadStatus 8 default, .setEndpointId 8 default,
    .getEndpointId 8, .getMctpVersionSupport 8, .getMessageTypeSupport 8, .getVendorMessageSupport 8,
    .mctpBellpullMessage 8 default, .hello 8 default, .coordinateProbe 8 default default, .bridgeFailure 8 default,
    .fecUncorrectable ⟨8, 0, 0⟩, .linkFailureSpread default ⟨8, 0⟩, .linkStateMessage default ⟨8, 0, []⟩].all (fun i : Instr => ! i.wf) = true := by decide

theorem test_wf_below_16_1 : [
    .tabBcmdStart 16 0, .tabBcmdStart 0 16, .tabBcmdMuffle 16 0, .tabBcmdMuffle 0 16, .tabBcmdResume 16 0,
    .tabBcmdResume 0 16, .tabBperiodWrite 16 0 0, .tabBperiodWrite 0 16 0, .tabTlctlRelock 16, .tabTsetWrite 16 default,
    .periodEvent 16, .leapLimit 16, .regionBeatStart 16, .readoutClearEnd 16, .beatCountsClose 16,
    .muffleTakesEffect 16, .muffleTimeout 16, .extlockFirstBeat 16, .roundAbandon 16, .ncountWrite 16 0 0,
    .counterLowRead 16 default, .migration 16, .inputRecord 16 default, .outputRecordWrite 16, .axnIrtailWrite 16 0 0,
    .axnIrtailWrite 0 16 0, .axnOrtailWrite 16 0 0, .axnOrtailWrite 0 16 0, .eventRingCfgWrite 16 0 default 0,
    .eventRingCfgWrite 0 16 default 0, .planeSlot 16, .fabPctlEnable 16 0 default, .fabPctlTrain 16 0 default,
    .earlyPresent 16, .checkpointCopyStart 16, .checkpointCommit 16, .hostExport 16, .tcrDqpushWrite 16 0 0,
    .tcrDqpushWrite 0 16 0, .tcrCtlAbort 16 0, .tcrCtlAbort 0 16, .descriptorCheck 16, .matmul 16 default,
    .conv 16 default, .backward 16 default, .optim 16 default, .quant 16 default, .encodeOp 16 default,
    .decodeOp 16 default, .gangGo 16 default, .gangReadyTimeout 16 default, .chanRecvTimeout 16 default,
    .seqCtlRun default 16, .seqCtlHalt default 16, .seqCtlReset default 16, .nop 16, .halt 16, .set 16, .add 16,
    .load 16].all (fun i : Instr => ! i.wf) = true := by decide

theorem test_wf_below_16_2 : [
    .store 16, .branch 16, .loop 16, .move 16, .send 16, .recv 16, .peek 16, .chctl 16, .waitc 16, .waitb 16,
    .evsend 16, .tpush 16, .encode 16, .decode 16, .tend 16, .hstep 16, .ckpt 16, .modset 16, .own 16, .rput 16,
    .rget 16, .signal 16, .acknowledgement 16, .recvResume 16, .waitcResume 16, .waitbResume 16, .hstepResume 16,
    .channelMessage default 16 0 default, .channelHoldExpiry 16 default default, .queChctlOpen default 16 0,
    .queChctlClose default 16 0, .queChctlReset default 16 0, .combiningContribution default 16 0 default,
    .queCqcfgClear default 16 0, .cmnOwnWrite default 16 0 0, .cmnOwnWrite default 0 16 0, .handoverEnd 16 default,
    .ddrAccess 0 16 default 0 default, .flr 16, .flrComplete 16, .bar0Access 16 default default default,
    .bar2Access 16 default default default, .barReadTimeout 16 default, .pciDmatailWrite 16 0 0, .pciDmacfgWrite 16 0 0,
    .pciApWrite 16 default default 0, .imodIntervalEnd 16 0, .timerStart 16 0, .timerStart 0 16, .timerStop 16 0,
    .timerStop 0 16, .timerPeriodWrite 16 0 0, .timerPeriodWrite 0 16 0, .timerCompareWrite 16 0 default 0,
    .timerCompareWrite 0 16 default 0, .timerPeriodEvent 16, .compareMatch 16 default, .captureEdge 16 default,
    .tabTncapLoRead 16 0, .tabTncapLoRead 0 16].all (fun i : Instr => ! i.wf) = true := by decide

theorem test_wf_below_16_3 : [
    .tabTncapHiRead 16 0, .tabTncapHiRead 0 16, .tocClaimRead 16 default, .tocEoiWrite 16 default,
    .tocPendWrite 16 default 0, .tocRqRead 16 default, .carCrtailWrite 16 0, .commandTake 16 default, .responseWrite 16,
    .carRingCfgWrite 16 default 0, .carRrtailWrite 16 0, .obsPctlFreeze 16 0 default, .obsPctlFreeze 0 16 default,
    .obsPctlClear 16 0, .obsPctlClear 0 16, .obsTmarkHiWrite 16 0, .obsTctlWrite 16 0, .triggerOutputPulseEnd 16,
    .reservedOpcode 16].all (fun i : Instr => ! i.wf) = true := by decide

theorem test_wf_below_32_1 : [
    .channelMessage default 0 32 default, .queChctlOpen default 0 32, .queChctlClose default 0 32,
    .queChctlReset default 0 32, .mr4Poll 32 default default, .zqCalibration 32, .pciDmatailWrite 0 32 0,
    .pciDmacfgWrite 0 32 0, .dmaDescriptorStart 32 default, .dmaDescriptorComplete 32 default default].all (fun i : Instr => ! i.wf) = true := by decide

theorem test_wf_below_64_1 : [
    .imodIntervalEnd 0 64].all (fun i : Instr => ! i.wf) = true := by decide

theorem test_wf_below_256_1 : [
    .ncountWrite 0 256 0, .integrate 256, .fireLogStallEnd 256 default, .finalReport 256, .deliver 256,
    .farDataArrival 256 default default, .farRowTimeout 256 default default, .coreStoreScrub 256,
    .coreStoreWrite default 256 default default, .axonLookup 256, .refill 256 default, .postPassEntry 256,
    .harvestRow 256, .harvestOverrun 256, .rowSweepVisit 256, .ddrAccess 0 0 default 256 default, .hangDetect 256].all (fun i : Instr => ! i.wf) = true := by decide

theorem test_wf_below_4294967296_1 : [
    .tabBperiodWrite 0 0 4294967296, .ncountWrite 0 0 4294967296, .registerWrite default default 4294967296,
    .axnIrtailWrite 0 0 4294967296, .axnOrtailWrite 0 0 4294967296, .eventRingCfgWrite 0 0 default 4294967296,
    .tcrDqpushWrite 0 0 4294967296, .cmnOwnWrite default 0 0 4294967296, .pciDmatailWrite 0 0 4294967296,
    .pciDmacfgWrite 0 0 4294967296, .pciApWrite 0 default default 4294967296, .timerPeriodWrite 0 0 4294967296,
    .timerCompareWrite 0 0 default 4294967296, .tocPendWrite 0 default 4294967296, .carCrtailWrite 0 4294967296,
    .carRingCfgWrite 0 default 4294967296, .carRrtailWrite 0 4294967296,
    .voteWrite default default default default 4294967296, .obsTmarkHiWrite 0 4294967296, .obsTctlWrite 0 4294967296].all (fun i : Instr => ! i.wf) = true := by decide

theorem witness_BeatConfigurationCommands_1 : ∃ (s : State) (h : Hdr) (pl : List Byte), (Accepted s.dev cBeatConfig h pl) ∧
  (s.dev.still h.part = true) ∧ (byteAt pl 0 ≤ 1) ∧ (periodLegal (leAt pl 4 4) (bitAt (byteAt pl 1) 1) = true) ∧ (leAt pl 8 4 <
  2 ^ 29) ∧ (1 ≤ leAt pl 12 2 ∧ leAt pl 12 2 ≤ 512) ∧ ((bitAt (byteAt pl 1) 0 = true → byteAt pl 0 = 0)) ∧ ((bitAt (byteAt pl 1)
  1 = true → byteAt pl 0 = 0 → bitAt (byteAt pl 1) 0 = true)) ∧ ((leAt pl 2 2 = s.dev.devId ∨ s.dev.fabDevs.contains (leAt pl 2
  2) = true)) ∧ ((leAt pl 12 2 = 1 → leAt pl 2 2 = s.dev.devId)) ∧ (s.dev.unconnected h.part (leAt pl 2 2) (leAt pl 12 2) =
  false) ∧ ((h.func = 0 ∨ (bitAt (byteAt pl 1) 1 = s.dev.flag (TAB_BCTL h.part) 8 ∧ leAt pl 2 2 = s.dev.fld (TAB_SPAN h.part) 16
  9 ∧ leAt pl 12 2 = s.dev.fld (TAB_SPAN h.part) 0 10))) :=
  ⟨wS, wH, leBytes 1 1 ++ leBytes 1 0 ++ leBytes 2 0 ++ leBytes 4 400000 ++ leBytes 4 1000 ++ leBytes 2 1 ++ zeros 18, by decide⟩

theorem witness_BeatConfigurationCommands_2 : ∃ (s : State) (h : Hdr) (pl : List Byte), (Accepted s.dev cBeatOffsets h pl) ∧ ((∀
  r, r < 16 → s.dev.owns h.part r = true → byteAt pl (4 * r + 3) < 4)) :=
  ⟨wS, wH, leBytes 4 100 ++ zeros 60, by decide⟩

theorem witness_BeatConfigurationCommands_3 : ∃ (s : State) (h : Hdr) (pl : List Byte), (Accepted s.dev cBeatPeriod h pl) ∧
  (s.dev.periodHeld h.part = false) ∧ (periodLegal (leAt pl 0 4) (s.dev.flag (TAB_BCTL h.part) 8) = true) ∧ ((leAt pl 0 4 =
  s.dev.fld (TAB_BPERIOD h.part) 0 29 ∨ s.dev.ckptTooFast h.part (leAt pl 0 4) (s.dev.seasonLen h.part) = false)) ∧
  ((s.dev.running h.part = false ∨ s.dev.rg (TAB_BCOUNT h.part) < leAt pl 0 4)) :=
  ⟨wOf wRun, wH, leBytes 4 4000, by decide⟩

theorem witness_BeatConfigurationCommands_4 : ∃ (s : State) (h : Hdr) (pl : List Byte), (Accepted s.dev cBeatStatus h pl) :=
  ⟨wOf wRun, wH, [], by decide⟩

theorem witness_BeatStartMuffleAndResume_1 : ∃ (s : State) (h : Hdr) (pl : List Byte), (Accepted s.dev cBeatStart h pl) ∧
  (s.dev.bstate h.part = 0) ∧ ((s.dev.part h.part).startAt = none) ∧ (s.dev.startWaits h.part = false) :=
  ⟨wS, wH, leBytes 8 77, by decide⟩

theorem witness_BeatStartMuffleAndResume_2 : ∃ (s : State) (h : Hdr) (pl : List Byte), (Accepted s.dev cBeatStart h pl) ∧
  (s.dev.bstate h.part = 0) ∧ ((s.dev.part h.part).startAt = none) ∧ (s.dev.startWaits h.part = true) :=
  ⟨wOf (wD.setFlag (TAB_BCTL 1) 4 true), wH, leBytes 8 77, by decide⟩

theorem witness_BeatStartMuffleAndResume_3 : ∃ (s : State) (h : Hdr) (pl : List Byte), (Accepted s.dev cBeatMuffle h pl) ∧
  (s.dev.running h.part = true) :=
  ⟨wOf wRun, wH, [], by decide⟩

theorem witness_BeatStartMuffleAndResume_4 : ∃ (s : State) (h : Hdr) (pl : List Byte), (Accepted s.dev cBeatMuffle h pl) ∧
  (s.dev.bstate h.part = 3) :=
  ⟨wOf (wRun.setF (TAB_BSTAT 1) 16 3 3), wH, [], by decide⟩

theorem witness_BeatStartMuffleAndResume_5 : ∃ (s : State) (h : Hdr) (pl : List Byte), (Accepted s.dev cBeatResume h pl) ∧
  (s.dev.bstate h.part = 3) ∧ ((s.dev.part h.part).resume = false) ∧ (s.dev.flag (TAB_BCTL h.part) 4 = false) ∧ ((s.dev.flag
  (TAB_BCTL h.part) 8 && s.dev.flag (TAB_BCTL h.part) 0 && decide (1 < s.dev.fld (TAB_SPAN h.part) 0 10)) = false) :=
  ⟨wOf (wRun.setF (TAB_BSTAT 1) 16 3 3), wH, [], by decide⟩

theorem witness_BeatStartMuffleAndResume_6 : ∃ (s : State) (h : Hdr) (pl : List Byte), (Accepted s.dev cBeatResume h pl) ∧
  (s.dev.bstate h.part = 2) :=
  ⟨wOf (wRun.setF (TAB_BSTAT 1) 16 3 2), wH, [], by decide⟩

theorem witness_BeatStartMuffleAndResume_7 : ∃ (s : State) (f p : Nat), (p < 16) ∧ (f = 0 ∨ f = p) ∧ (s.dev.bstate p = 0) ∧
  ((s.dev.part p).startAt = none) ∧ (s.dev.regionsOf p ≠ []) ∧ (s.dev.startWaits p = false) :=
  ⟨wS, 1, 1, by decide⟩

theorem witness_BeatStartMuffleAndResume_8 : ∃ (s : State) (f p : Nat), (p < 16) ∧ (f = 0 ∨ f = p) ∧ (s.dev.bstate p = 1) :=
  ⟨wOf wRun, 1, 1, by decide⟩

theorem witness_BeatStartMuffleAndResume_9 : ∃ (s : State) (f p : Nat), (p < 16) ∧ (f = 0 ∨ f = p) ∧ (s.dev.bstate p = 3) ∧
  ((s.dev.part p).resume = false) ∧ (s.dev.flag (TAB_BCTL p) 4 = false) ∧ ((s.dev.flag (TAB_BCTL p) 8 && s.dev.flag (TAB_BCTL p)
  0 && decide (1 < s.dev.fld (TAB_SPAN p) 0 10)) = false) :=
  ⟨wOf (wRun.setF (TAB_BSTAT 1) 16 3 3), 1, 1, by decide⟩

theorem witness_BeatStartMuffleAndResume_10 : ∃ (s : State) (f p v : Nat), (p < 16) ∧ (f = 0 ∨ f = p) ∧ (periodLegal (v % 2 ^
  29) (s.dev.flag (TAB_BCTL p) 8) = true) ∧ (s.dev.periodHeld p = false) ∧ (s.dev.rg (TAB_BCOUNT p) < v % 2 ^ 29) :=
  ⟨wOf wRun, 1, 1, 8000, by decide⟩

theorem witness_PeriodEventsAndLeaps_1 : ∃ (s : State) (p : Nat), (p < 16) ∧ (s.dev.running p = true) ∧ ((s.dev.part p).leap =
  none) ∧ (s.dev.follows p = false) ∧ ((s.dev.flag (TAB_BCTL p) 0 = true → s.dev.flag (TAB_BSTAT p) 8 = true)) ∧ ((s.dev.flag
  (TAB_BCTL p) 0 = false → s.dev.settledNow p = true)) :=
  ⟨wOf (wRun.setFlag (TAB_BSTAT 1) 8 true), 1, by decide⟩

theorem witness_PeriodEventsAndLeaps_2 : ∃ (s : State) (p : Nat), (p < 16) ∧ (s.dev.running p = true) ∧ ((s.dev.part p).leap =
  none) ∧ (s.dev.follows p = false) ∧ ((s.dev.flag (TAB_BCTL p) 0 = true → s.dev.flag (TAB_BSTAT p) 8 = false ∧ s.dev.fld
  (TAB_LEAPLIM p) 0 29 = 0)) ∧ ((s.dev.flag (TAB_BCTL p) 0 = false → s.dev.settledNow p = false)) :=
  ⟨wOf wRun, 1, by decide⟩

theorem witness_PeriodEventsAndLeaps_3 : ∃ (s : State) (p : Nat), (p < 16) ∧ (s.dev.running p = true) ∧ ((s.dev.part p).leap =
  none) ∧ (s.dev.follows p = false) ∧ (s.dev.flag (TAB_BCTL p) 0 = true) ∧ (s.dev.flag (TAB_BSTAT p) 8 = false) ∧ (s.dev.fld
  (TAB_LEAPLIM p) 0 29 ≠ 0) :=
  ⟨wOf ((wRun.setFlag (TAB_BCTL 1) 0 true).setR (TAB_LEAPLIM 1) 1000), 1, by decide⟩

theorem witness_PeriodEventsAndLeaps_4 : ∃ (s : State) (p base : Nat), (p < 16) ∧ ((s.dev.part p).leap = some base) ∧ (base < 2
  ^ 29) ∧ (s.dev.follows p = false) ∧ (s.dev.running p = true) :=
  ⟨wOf (((wRun.setFlag (TAB_BCTL 1) 0 true).setR (TAB_LEAPLIM 1) 1000).setPart 1 { (default : Part) with leap := some 400000 }), 1, 400000, by decide⟩

theorem witness_PeriodEventsAndLeaps_5 : ∃ (s : State) (p : Nat) (t u : Tattoo), (p < 16) ∧ (t = {
  u with part := t.part, beat := t.beat }) ∧ (t.part % 16 = p ∧ (s.dev.part p).roundOut = some t.beat ∧ t.round = (s.dev.part
  p).round % 65536 ∧ t.beat = s.dev.beat p) ∧ (s.dev.isLead p = true ∧ (s.dev.part p).reps = []) ∧ (s.dev.running p = true) ∧
  (s.dev.choked p = false) ∧ ((s.dev.flag (TAB_BCTL p) 8 && decide (1 < s.dev.fld (TAB_SPAN p) 0 10)) = false) ∧ (s.dev.flag
  (TAB_BSTAT p) 8 = false) ∧ ((s.dev.part p).leap = none) ∧ (s.dev.allFinal p (s.dev.beat p) = true) ∧ (s.dev.sentSum p
  (s.dev.beat p) = s.dev.filedSum p (s.dev.beat p)) :=
  ⟨wOf ((wRun.forEach (wRun.sitesOf 1) (fun d q => d.setCore q { NCore.reset with final := some 9 })).setPart 1 { (default : Part) with roundOut := some 9 }), 1, { (default : Tattoo) with part := 1, beat := 9 }, default, by decide⟩

theorem witness_PeriodEventsAndLeaps_6 : ∃ (s : State) (p src : Nat) (t u own tot : Tattoo), (p < 16) ∧ (t = {
  u with part := t.part, beat := t.beat }) ∧ (s.dev.running p = true) ∧ (s.dev.choked p = false) ∧ (s.dev.spans p = true) ∧
  (s.dev.isLead p = true) ∧ (t.part % 16 = p ∧ (s.dev.part p).roundOut = some t.beat ∧ t.round = (s.dev.part p).round % 65536 ∧
  t.beat = s.dev.beat p) ∧ ((s.dev.part p).kids = [src] ∧ src ≠ s.dev.devId ∧ (s.dev.part p).reps = [(s.dev.devId, own)]) ∧ (tot
  = own.plus t) ∧ (bitAt tot.flags 0 = true ∧ bitAt tot.flags 2 = false) ∧ (tot.nreport = s.dev.fld (TAB_SPAN p) 0 10) ∧
  (s.dev.flag (TAB_BSTAT p) 8 = false) ∧ ((s.dev.part p).leap = none) ∧ (tot.sent % 2 ^ 32 = tot.filed % 2 ^ 32) :=
  ⟨wOf (((wRun.setFlag (TAB_BCTL 1) 8 true).setR (TAB_SPAN 1) 2).setPart 1 { (default : Part) with roundOut := some 9, kids := [1], reps := [(0, { (default : Tattoo) with part := 1, beat := 9, flags := 1, nreport := 1 })] }), 1, 1, { (default : Tattoo) with part := 1, beat := 9, flags := 1, nreport := 1 }, { (default : Tattoo) with flags := 1, nreport := 1 }, { (default : Tattoo) with part := 1, beat := 9, flags := 1, nreport := 1 }, { (default : Tattoo) with part := 1, beat := 9, flags := 1, nreport := 2 }, by decide⟩

theorem witness_PeriodEventsAndLeaps_7 : ∃ (s : State) (p : Nat) (b : Nat × Nat), (p < 16) ∧ ((s.dev.part p).openBeats.find?
  (fun b => 4 ≤ b.2) = some b) :=
  ⟨wOf ((wRun.addSent 0 3 2).setPart 1 { (default : Part) with openBeats := [(3, 4)] }), 1, (3, 4), by decide⟩

theorem witness_PeriodEventsAndLeaps_8 : ∃ (s : State) (r p : Nat), (r < 16) ∧ (s.dev.regPart r = some p) ∧ (s.dev.running p =
  true) ∧ (0 < beatSub (s.dev.beat p) (s.dev.region r).beat) :=
  ⟨wOf wRun, 0, 1, by decide⟩

theorem witness_PeriodEventsAndLeaps_9 : ∃ (s : State) (r : Nat), (r < 16) ∧ (s.dev.engineRuns r = true) :=
  ⟨wS, 0, by decide⟩

theorem witness_MuffleAndSpanGroups_1 : ∃ (s : State) (p : Nat), (p < 16) ∧ (s.dev.bstate p = 2) ∧ (s.dev.isLead p = true) ∧
  (s.dev.flag (TAB_BSTAT p) 8 = true) ∧ ((s.dev.part p).openBeats = []) ∧ (s.dev.harvestOn p = false) :=
  ⟨wOf (((wRun.setF (TAB_BSTAT 1) 16 3 2).setFlag (TAB_BSTAT 1) 8 true)), 1, by decide⟩

theorem witness_MuffleAndSpanGroups_2 : ∃ (s : State) (p k : Nat), (p < 16) ∧ ((s.dev.part p).muffle = some k) ∧ (64 ≤ k) :=
  ⟨wOf (wRun.setPart 1 { (default : Part) with muffle := some 64 }), 1, 64, by decide⟩

theorem witness_MuffleAndSpanGroups_3 : ∃ (s : State) (p f : Nat), (p < 16) ∧ (s.dev.flag (TAB_BCTL p) 4 = true) ∧
  (s.dev.tlState = 2) ∧ ((s.dev.part p).startAt = some f) ∧ (s.dev.bstate p = 0) ∧ (s.dev.pwr.asleep = 0) ∧ (s.dev.rg64
  (TAB_EPOCH_LO p) ≤ s.dev.time) ∧ (s.dev.time + 2 ^ 29 < 2 ^ 64) ∧ (0 < s.dev.fld (TAB_BPERIOD p) 0 29) :=
  ⟨wOf ((((wD.setFlag (TAB_BCTL 1) 4 true).setF TAB_TLSTAT 0 2 2).setR (TAB_BPERIOD 1) 4000).setR TAB_TIME_LO 9000 |>.setPart 1 { (default : Part) with startAt := some 0 }), 1, 0, by decide⟩

theorem witness_MuffleAndSpanGroups_4 : ∃ (s : State) (src : Nat) (t : Tattoo), (s.dev.spans (t.part % 16) = true) ∧
  (s.dev.isLead (t.part % 16) = false) ∧ (s.dev.choked (t.part % 16) = false) ∧ ((s.dev.part (t.part % 16)).parent = some src) ∧
  ((s.dev.part (t.part % 16)).kids = []) ∧ ((s.dev.part (t.part % 16)).latest = none) :=
  ⟨wOf (((((wNbr.setFlag (TAB_BCTL 1) 8 true).setR (TAB_SPAN 1) 0x10002).setF (TAB_BSTAT 1) 16 3 1).setR (TAB_BEATNO_LO 1) 9).setPart 1 { (default : Part) with parent := some 1 }), 1, { (default : Tattoo) with part := 1, beat := 9 }, by decide⟩

theorem witness_MuffleAndSpanGroups_5 : ∃ (s : State) (src : Nat) (t : Tattoo), (s.dev.spans (t.part % 16) = true) ∧
  (s.dev.isLead (t.part % 16) = false) ∧ (s.dev.choked (t.part % 16) = false) ∧ ((s.dev.part (t.part % 16)).parent = some src) ∧
  ((s.dev.part (t.part % 16)).kids ≠ []) :=
  ⟨wOf (((((wNbr.setFlag (TAB_BCTL 1) 8 true).setR (TAB_SPAN 1) 0x30003).setF (TAB_BSTAT 1) 16 3 1).setR (TAB_BEATNO_LO 1) 9).setPart 1 { (default : Part) with parent := some 3, kids := [1] }), 3, { (default : Tattoo) with part := 1, beat := 9 }, by decide⟩

theorem witness_MuffleAndSpanGroups_6 : ∃ (s : State) (t : Tattoo) (f : Nat), (s.dev.flag (TAB_BCTL (t.part % 16)) 8 = true) ∧
  (s.dev.flag (TAB_BCTL (t.part % 16)) 0 = true) ∧ (s.dev.isLead (t.part % 16) = false) ∧ (s.dev.choked (t.part % 16) = false) ∧
  (bitAt t.flags 2 = false) ∧ (s.dev.bstate (t.part % 16) = 0) ∧ ((s.dev.part (t.part % 16)).startAt = some f) :=
  ⟨wOf (((wD.setR (TAB_BCTL 1) 0x101).setR (TAB_SPAN 1) 0x30002).setPart 1 { (default : Part) with startAt := some 0 }), { (default : Tattoo) with part := 1, beat := 9 }, 0, by decide⟩

theorem witness_MuffleAndSpanGroups_7 : ∃ (s : State) (t : Tattoo), (s.dev.flag (TAB_BCTL (t.part % 16)) 8 = true) ∧
  (s.dev.isLead (t.part % 16) = false) ∧ (s.dev.choked (t.part % 16) = false) ∧ (bitAt t.flags 2 = true) ∧ (s.dev.running
  (t.part % 16) = true) :=
  ⟨wOf ((wRun.setR (TAB_BCTL 1) 0x101).setR (TAB_SPAN 1) 0x30002), { (default : Tattoo) with part := 1, beat := 9, flags := 4 }, by decide⟩

theorem witness_MuffleAndSpanGroups_8 : ∃ (s : State) (p : Nat), (p < 16) ∧ (s.dev.choked p = false) ∧ ((s.dev.part
  p).roundOut.isSome = true) ∧ (s.dev.roundBeats p ≠ []) :=
  ⟨wOf (wRun.setPart 1 { (default : Part) with roundOut := some 9, emitted := true }), 1, by decide⟩

theorem witness_TimeDiscipline_1 : ∃ (s : State) (h : Hdr) (pl : List Byte), (Accepted s.dev cTimeConfig h pl) ∧ (byteAt pl 0 ≤
  4) ∧ (byteAt pl 1 ≤ 1) :=
  ⟨wS, wH0, leBytes 8 1 ++ leBytes 8 1700000000, by decide⟩

theorem witness_TimeDiscipline_2 : ∃ (s : State) (h : Hdr) (pl : List Byte), (Accepted s.dev cTimeStatus h pl) :=
  ⟨wS, wH0, [], by decide⟩

theorem witness_TimeDiscipline_3 : ∃ (s : State) (h : Hdr) (pl : List Byte), (Accepted s.dev cTimeRelock h pl) ∧ (s.dev.extStill
  = true) ∧ (s.dev.tlState = 3) :=
  ⟨wOf ((wD.setR TAB_TLSTAT 3).setR TAB_TLCTL 1), wH0, [], by decide⟩

theorem witness_TimeDiscipline_4 : ∃ (s : State), (s.dev.extStill = true) ∧ (s.dev.tlState = 3) :=
  ⟨wOf ((wD.setR TAB_TLSTAT 3).setR TAB_TLCTL 1), by decide⟩

theorem witness_TimeDiscipline_5 : ∃ (s : State) (hi : Nat), (s.dev.timeSrc = 0) ∧ (s.dev.extStill = true) :=
  ⟨wOf (wD.setR TAB_TSET_LO 77), 3, by decide⟩

theorem witness_TimeDiscipline_6 : ∃ (s : State) (sec dt ref t l n : Nat) (off : Int), (s.dev.timeSrc = 1) ∧ (s.dev.tlState = 2)
  ∧ (t = (s.dev.slewPass (400000000 * sec + dt)).time ∧ off = Dev.phaseTicks t) ∧ (-400 ≤ off ∧ off ≤ 400) ∧ (s.dev.ppsLast =
  some l ∧ n = ((t : Int) - l - (s.dev.slew - (s.dev.slewPass (400000000 * sec + dt)).slew)).toNat) :=
  ⟨wOf { ((wD.setR TAB_TLSTAT 2).setR TAB_TLCTL 1) with ppsLast := some 0 }, 1, 3, 0, 400000003, 0, 400000003, 3, by decide⟩

theorem witness_TimeDiscipline_7 : ∃ (s : State) (sec dt ref t l : Nat) (off : Int), (s.dev.timeSrc = 2) ∧ (s.dev.tlState = 2) ∧
  (t = (s.dev.slewPass (400000000 * sec + dt)).time ∧ off = Dev.phaseTicks t) ∧ (-400 ≤ off ∧ off ≤ 400) ∧ (s.dev.ppsLast = some
  l) :=
  ⟨wOf { ((wD.setR TAB_TLSTAT 2).setR TAB_TLCTL 2) with ppsLast := some 0 }, 1, 3, 400000001, 400000003, 0, 3, by decide⟩

theorem witness_TimeDiscipline_8 : ∃ (s : State) (sec dt ref : Nat), (s.dev.timeSrc = 1 ∨ s.dev.timeSrc = 2) ∧ (s.dev.tlState =
  2) ∧ (Dev.phaseTicks (s.dev.slewPass (400000000 * sec + dt)).time < -400 ∨ 400 < Dev.phaseTicks (s.dev.slewPass (400000000 *
  sec + dt)).time) :=
  ⟨wOf ((wD.setR TAB_TLSTAT 2).setR TAB_TLCTL 1), 1, 1000, 0, by decide⟩

theorem witness_TimeDiscipline_9 : ∃ (s : State) (sec dt ref t last : Nat), (s.dev.timeSrc = 1 ∨ s.dev.timeSrc = 2) ∧
  (s.dev.tlState = 1) ∧ (s.dev.ppsCorr = true ∧ s.dev.taiSet = true) ∧ (t = (s.dev.slewPass (400000000 * sec + dt)).time ∧
  s.dev.ppsLast = some last) ∧ (t ≤ last + 400000008 ∧ last + 399999992 ≤ t) ∧ (2 ≤ s.dev.fld TAB_TLSTAT 4 2) :=
  ⟨wOf { ((wD.setR TAB_TLSTAT 0x21).setR TAB_TLCTL 1) with ppsCorr := true, taiSet := true, ppsLast := some 0 }, 1, 3, 0, 400000003, 0, by decide⟩

theorem witness_TimeDiscipline_10 : ∃ (s : State), (s.dev.timeSrc = 1 ∨ s.dev.timeSrc = 2) ∧ (s.dev.tlState = 2) :=
  ⟨wOf ((wD.setR TAB_TLSTAT 2).setR TAB_TLCTL 1), by decide⟩

theorem witness_TimeDiscipline_11 : ∃ (s : State), (s.dev.flag TAB_TLCTL 4 = true) ∧ (s.dev.tlState ≠ 1) ∧ (s.dev.pwr.asleep =
  0) ∧ (s.dev.time + 400000000 < 2 ^ 64) :=
  ⟨wOf ((wD.setR TAB_TLCTL 0x10).setR TAB_TIME_LO 5), by decide⟩

theorem witness_NeuronCommands_1 : ∃ (s : State) (h : Hdr) (pl : List Byte) (q : Nat), (Accepted s.dev cProfileLoad h pl) ∧
  (NamesCore s.dev h.part (leAt pl 0 2) q) ∧ (s.dev.still h.part = true) ∧ (byteAt pl 2 < 64) ∧ (profileOk (pl.drop 8) = true) ∧
  (profValid (pl.drop 8) = true → s.dev.ringsAgree q (byteAt pl 2) (profRing (pl.drop 8)) = true) :=
  ⟨wS, wH, leBytes 2 0 ++ leBytes 1 2 ++ zeros 5 ++ ([0, 1, 3] ++ zeros 5 ++ leBytes 4 100 ++ zeros 4 ++ leBytes 4 0 ++ leBytes 4 0x20000000 ++ zeros 40), 0, by decide⟩

theorem witness_NeuronCommands_2 : ∃ (s : State) (h : Hdr) (pl : List Byte), (Accepted s.dev cProfileLoad h pl) ∧ (leAt pl 0 2 =
  0xFFFF) ∧ (s.dev.still h.part = true) ∧ (byteAt pl 2 < 64) ∧ (profileOk (pl.drop 8) = true) ∧ (profValid (pl.drop 8) = true →
  ∀ q, q ∈ s.dev.sitesOf h.part → s.dev.ringsAgree q (byteAt pl 2) (profRing (pl.drop 8)) = true) :=
  ⟨wS, wH, leBytes 2 0xFFFF ++ leBytes 1 2 ++ zeros 5 ++ ([0, 1, 3] ++ zeros 5 ++ leBytes 4 100 ++ zeros 4 ++ leBytes 4 0 ++ leBytes 4 0x20000000 ++ zeros 40), by decide⟩

theorem witness_NeuronCommands_3 : ∃ (s : State) (h : Hdr) (pl : List Byte) (q : Nat), (Accepted s.dev cProfileRead h pl) ∧
  (NamesCore s.dev h.part (leAt pl 0 2) q) ∧ (byteAt pl 2 < 64) :=
  ⟨wS, wH, zeros 8, 0, by decide⟩

theorem witness_NeuronCommands_4 : ∃ (s : State) (h : Hdr) (pl : List Byte) (q : Nat), (Accepted s.dev cNeuronLoad h pl) ∧
  (NamesCore s.dev h.part (leAt pl 0 2) q) ∧ (s.dev.still h.part = true) ∧ (leAt pl 2 2 + leAt pl 4 2 ≤ s.dev.ncount q) ∧ (∀ k,
  k < leAt pl 4 2 → s.dev.recordFits q (leAt pl 2 2 + k) (leAt pl (8 + 16 * k) 16) = true) :=
  ⟨wOf (wD.setR (NEU_CFG 0) 4), wH, leBytes 2 0 ++ leBytes 2 1 ++ leBytes 2 2 ++ zeros 2 ++ List.replicate 32 0x5A#8, 0, by decide⟩

theorem witness_NeuronCommands_5 : ∃ (s : State) (h : Hdr) (pl : List Byte) (q : Nat), (Accepted s.dev cNeuronRead h pl) ∧
  (NamesCore s.dev h.part (leAt pl 0 2) q) ∧ (bitAt (byteAt pl 6) 0 = false) ∧ (leAt pl 2 2 + leAt pl 4 2 ≤ s.dev.ncount q) ∧
  (NoError s.dev (s.dev.recAddr q (leAt pl 2 2)) (16 * leAt pl 4 2)) ∧ (Fits s.dev h (16 * leAt pl 4 2)) :=
  ⟨wOf (wD.setR (NEU_CFG 0) 4), wH, leBytes 2 0 ++ leBytes 2 1 ++ leBytes 2 2 ++ zeros 2, 0, by decide⟩

theorem witness_NeuronCommands_6 : ∃ (s : State) (h : Hdr) (pl : List Byte) (q : Nat), (Accepted s.dev cNeuronRead h pl) ∧
  (NamesCore s.dev h.part (leAt pl 0 2) q) ∧ (bitAt (byteAt pl 6) 0 = true) ∧ (s.dev.bstate h.part = 3) ∧ (leAt pl 2 2 + leAt pl
  4 2 ≤ s.dev.ncount q) ∧ (NoError s.dev (s.dev.recAddr q (leAt pl 2 2)) (16 * leAt pl 4 2)) ∧ (Fits s.dev h (16 * leAt pl 4 2))
  :=
  ⟨wOf ((wRun.setF (TAB_BSTAT 1) 16 3 3).setR (NEU_CFG 0) 4), wH, leBytes 2 0 ++ leBytes 2 1 ++ leBytes 2 2 ++ [1, 0], 0, by decide⟩

theorem witness_NeuronCommands_7 : ∃ (s : State) (h : Hdr) (pl : List Byte) (q : Nat), (Accepted s.dev cNeuronRead h pl) ∧
  (NamesCore s.dev h.part (leAt pl 0 2) q) ∧ (bitAt (byteAt pl 6) 0 = false) ∧ (leAt pl 4 2 = 1) ∧ (leAt pl 2 2 < s.dev.ncount
  q) ∧ (SMap.get 0 s.dev.ecc (s.dev.recAddr q (leAt pl 2 2) + 8) = 0) ∧ (0 < SMap.get 0 s.dev.ecc (s.dev.recAddr q (leAt pl 2
  2))) ∧ (Fits s.dev h 16) :=
  ⟨wOf { ((wD.setR (NEU_CFG 0) 4).wrB 0x010000000020 (List.replicate 16 0x11#8)) with ecc := [(0x010000000020, 2)] }, wH, leBytes 2 0 ++ leBytes 2 2 ++ leBytes 2 1 ++ zeros 2, 0, by decide⟩

theorem witness_NeuronCommands_8 : ∃ (s : State) (h : Hdr) (pl : List Byte) (q : Nat), (Accepted s.dev cNeuronStatus h pl) ∧
  (NamesCore s.dev h.part (leAt pl 0 2) q) :=
  ⟨wS, wH, zeros 8, 0, by decide⟩

theorem witness_NeuronCommands_9 : ∃ (s : State) (f q v : Nat), (q < 256) ∧ (WriteOk s.dev (.func f) (NEU_CFG q)) ∧ (∀ p,
  s.dev.regPart (q / 16) = some p → s.dev.still p = true) ∧ (v % 65536 ≤ 32768 ∧ 16 * (v % 65536) ≤ s.dev.areaLen (SYN_PMREC q))
  ∧ (0x8000 * s.dev.fld (SYN_FLBASE q) 0 7 < 65536 * s.dev.fld (SYN_PMREC q) 0 6 ∨ 65536 * s.dev.fld (SYN_PMREC q) 0 6 + 16 * (v
  % 65536) ≤ 0x8000 * s.dev.fld (SYN_FLBASE q) 0 7) :=
  ⟨wOf ((wOn.setR (SYN_PMREC 0) 0x101).setR (SYN_FLBASE 0) 8), 0, 0, 100, by decide⟩

theorem witness_NeuronAndRowEngines_1 : ∃ (s : State) (q p n : Nat), (q < 256) ∧ (s.dev.regPart (q / 16) = some p) ∧
  (s.dev.running p = true) ∧ ((s.dev.logOf q).isSome = true) ∧ (n = ((s.dev.core q).ptr + 2 ^ 48 - 1) % 2 ^ 48) ∧ ((s.dev.core
  q).integ ≠ some n ∧ (s.dev.core q).integ ≠ none ∧ (s.dev.core q).stall = none) ∧ ((s.dev.region (q / 16)).started = true) :=
  ⟨wOf (wCore.setCore 0 { wCore.core 0 with ptr := 10, final := some 8 }), 0, 1, 9, by decide⟩

theorem witness_NeuronAndRowEngines_2 : ∃ (s : State) (q p cycles : Nat) (st : Stall), (q < 256) ∧ ((s.dev.core q).stall = some
  st) ∧ (s.dev.regPart (q / 16) = some p) ∧ (s.dev.running p = true) ∧ (s.dev.rg (NEU_FLCOUNT q) ≠ 4096) :=
  ⟨wOf (wCore.setCore 0 { wCore.core 0 with ptr := 10, final := some 8, stall := some ⟨9, 0, 0, 0, 0⟩ }), 0, 1, 20, ⟨9, 0, 0, 0, 0⟩, by decide⟩

theorem witness_NeuronAndRowEngines_3 : ∃ (s : State) (q p l n : Nat), (q < 256) ∧ (s.dev.regPart (q / 16) = some p) ∧
  (s.dev.logOf q = some l) ∧ ((s.dev.core q).integ = some n) ∧ (s.dev.running p = true) ∧ ((s.dev.core q).final ≠ some n) ∧
  (s.dev.nextLookup q = none) ∧ (((s.dev.flushBeat p n).packs.any (fun x => x.router == dieOf (q / 16) && x.part == p && x.ebeat
  == n % 65536)) = false) :=
  ⟨wOf (wCore.setCore 0 { wCore.core 0 with ptr := 10, integ := some 9, final := some 8 }), 0, 1, 0, 9, by decide⟩

theorem witness_NeuronAndRowEngines_4 : ∃ (s : State) (q p l n : Nat), (q < 256) ∧ (s.dev.regPart (q / 16) = some p) ∧
  (s.dev.logOf q = some l) ∧ ((s.dev.core q).integ = some n) ∧ (s.dev.running p = true) ∧ ((s.dev.core q).final ≠ some n) ∧
  (s.dev.nextLookup q = none) ∧ (s.dev.packs = [] ∧ s.dev.tunPacks = []) :=
  ⟨wOf (wCore.setCore 0 { wCore.core 0 with ptr := 10, integ := some 9, final := some 8 }), 0, 1, 0, 9, by decide⟩

theorem witness_NeuronAndRowEngines_5 : ∃ (s : State) (q p : Nat), (q < 256) ∧ (s.dev.regPart (q / 16) = some p) ∧
  (s.dev.mayDeliver q p = true) :=
  ⟨wOf wCore, 0, 1, by decide⟩

theorem witness_NeuronAndRowEngines_6 : ∃ (s : State) (q p k fw : Nat) (x : FarRow), (q < 256) ∧ ((s.dev.core q).farOut[k]? =
  some x) ∧ (s.dev.regPart (q / 16) = some p) ∧ (s.dev.running p = true) ∧ (x.lost = false) :=
  ⟨wOf (wCore.setCore 0 { wCore.core 0 with farOut := [⟨0, 0, 1, zeros 40, false, false⟩] }), 0, 1, 0, 3, ⟨0, 0, 1, zeros 40, false, false⟩, by decide⟩

theorem witness_NeuronAndRowEngines_7 : ∃ (s : State) (q k fw : Nat) (x : FarRow), (q < 256) ∧ ((s.dev.core q).farOut[k]? = some
  x) ∧ (s.dev.engineRuns (q / 16) = true) :=
  ⟨wOf (wCore.setCore 0 { wCore.core 0 with farOut := [⟨0, 0, 1, zeros 40, false, true⟩] }), 0, 0, 3, ⟨0, 0, 1, zeros 40, false, true⟩, by decide⟩

theorem witness_NeuronAndRowEngines_8 : ∃ (s : State) (q : Nat), (q < 256) ∧ (SMap.get 0 s.dev.ecc (csBase q + 8 * (s.dev.core
  q).scrub) ≤ 1) :=
  ⟨wS, 0, by decide⟩

theorem witness_NeuronAndRowEngines_9 : ∃ (s : State) (q : Nat), (q < 256) ∧ (2 ≤ SMap.get 0 s.dev.ecc (csBase q + 8 *
  (s.dev.core q).scrub)) :=
  ⟨wOf { wD with ecc := [(0x010000000000, 2)] }, 0, by decide⟩

theorem witness_SynapseCommands_1 : ∃ (s : State) (h : Hdr) (pl : List Byte) (q : Nat), (Accepted s.dev cPagemapSet h pl) ∧
  (NamesCore s.dev h.part (leAt pl 0 2) q) ∧ (s.dev.bstate h.part = 0) ∧ (pageMapOk pl (s.dev.ncount q) = true) ∧
  (s.dev.bandsAgree q pl = true) :=
  ⟨wS, wH, leBytes 4 0 ++ [0, 1, 1, 1, 2, 1, 3, 1, 4, 40, 90, 0] ++ leBytes 2 0 ++ leBytes 2 0 ++ leBytes 2 0 ++ zeros 10 ++ [0x80, 4, 2, 0] ++ zeros 28, 0, by decide⟩

theorem witness_SynapseCommands_2 : ∃ (s : State) (h : Hdr) (pl : List Byte) (q : Nat), (Accepted s.dev cPagemapRead h pl) ∧
  (NamesCore s.dev h.part (leAt pl 0 2) q) :=
  ⟨wS, wH, zeros 8, 0, by decide⟩

theorem witness_SynapseCommands_3 : ∃ (s : State) (h : Hdr) (pl : List Byte) (q : Nat) (loc : RowLoc) (img : List Byte),
  (Accepted s.dev cRowLoad h pl) ∧ (NamesCore s.dev h.part (leAt pl 0 2) q) ∧ (s.dev.resolve q (leAt pl 4 4) = some loc) ∧ (img
  = (if fmtPlastic loc.fmt then imageFresh loc.fmt (pl.drop 12) else pl.drop 12)) ∧ ((pl.drop 12).length = (if fmtSparse loc.fmt
  then fmtHeader loc.fmt + fmtEntry loc.fmt * hdrCount (pl.drop 12) else fmtHeader loc.fmt + fmtBody loc.fmt)) ∧ (imageClean
  loc.fmt (pl.drop 12) = true) ∧ (fmtSparse loc.fmt = true → (bitAt (hdrFlags (pl.drop 12)) 0 = true → 1 ≤ hdrCount (pl.drop 12)
  ∧ hdrCount (pl.drop 12) ≤ fmtMax loc.fmt) ∧ loc.body + fmtEntry loc.fmt * hdrCount (pl.drop 12) ≤ loc.lim) ∧ (loc.hdr +
  fmtHeader loc.fmt ≤ loc.body ∨ loc.body + (pl.length - 12) ≤ loc.hdr) :=
  ⟨wOf (((wD.setR (SYN_ZCFG 0 0) 0x80000204).setR (SYN_ZROWS 0 0) 100).setR (SYN_ZFIRST 0 0) 8217), wH, leBytes 4 0 ++ leBytes 4 8217 ++ leBytes 4 40 ++ ([0, 0, 3, 0, 1, 0, 0, 0] ++ List.replicate 32 0x11#8), 0, ⟨0, 0x010000040000, 0x010000040320, 0x010000060000⟩, [0, 0, 3, 0, 1, 0, 0, 0] ++ List.replicate 32 0x11#8, by decide⟩

theorem witness_SynapseCommands_4 : ∃ (s : State) (h : Hdr) (pl : List Byte) (q : Nat) (loc : RowLoc), (Accepted s.dev cRowRead
  h pl) ∧ (NamesCore s.dev h.part (leAt pl 0 2) q) ∧ (leAt pl 4 4 < 2 ^ 17) ∧ (s.dev.resolve q (leAt pl 4 4) = some loc) ∧
  (fmtSparse loc.fmt = true → 1 ≤ hdrCount (s.dev.rdB loc.hdr (fmtHeader loc.fmt)) ∧ hdrCount (s.dev.rdB loc.hdr (fmtHeader
  loc.fmt)) ≤ fmtMax loc.fmt ∧ loc.body + fmtEntry loc.fmt * hdrCount (s.dev.rdB loc.hdr (fmtHeader loc.fmt)) ≤ loc.lim) ∧
  (NoError s.dev loc.hdr (fmtHeader loc.fmt)) ∧ (NoError s.dev loc.body (if fmtSparse loc.fmt then fmtEntry loc.fmt * hdrCount
  (s.dev.rdB loc.hdr (fmtHeader loc.fmt)) else fmtBody loc.fmt)) ∧ (Fits s.dev h (fmtHeader loc.fmt + (if fmtSparse loc.fmt then
  fmtEntry loc.fmt * hdrCount (s.dev.rdB loc.hdr (fmtHeader loc.fmt)) else fmtBody loc.fmt))) :=
  ⟨wOf (((wD.setR (SYN_ZCFG 0 0) 0x80000204).setR (SYN_ZROWS 0 0) 100).setR (SYN_ZFIRST 0 0) 8217), wH, leBytes 4 0 ++ leBytes 4 8217, 0, ⟨0, 0x010000040000, 0x010000040320, 0x010000060000⟩, by decide⟩

theorem witness_SynapseCommands_5 : ∃ (s : State) (h : Hdr) (pl : List Byte) (q : Nat), (Accepted s.dev cSynStatus h pl) ∧
  (NamesCore s.dev h.part (leAt pl 0 2) q) :=
  ⟨wS, wH, zeros 8, 0, by decide⟩

theorem witness_SynapseCommands_6 : ∃ (s : State) (h : Hdr) (pl : List Byte) (q : Nat), (Accepted s.dev cPoisonList h pl) ∧
  (NamesCore s.dev h.part (leAt pl 0 2) q) :=
  ⟨wS, wH, zeros 8, 0, by decide⟩

theorem witness_AxonTables_1 : ∃ (s : State) (h : Hdr) (pl : List Byte), (Accepted s.dev cAxonRange h pl) ∧ (s.dev.still h.part
  = true) ∧ (byteAt pl 0 < 2) ∧ (leAt pl 4 4 ≤ leAt pl 8 4) ∧ (leAt pl 8 4 ≤ 4194303) ∧ (∀ k, k < 16 → k ≠ h.part → s.dev.flag
  (AXN_PBASE (byteAt pl 0) k) 31 = true → s.dev.fld (AXN_PLIMIT (byteAt pl 0) k) 0 22 < leAt pl 4 4 ∨ leAt pl 8 4 < s.dev.fld
  (AXN_PBASE (byteAt pl 0) k) 0 22) :=
  ⟨wS, wH, leBytes 4 0 ++ leBytes 4 100 ++ leBytes 4 4194303 ++ zeros 4, by decide⟩

theorem witness_AxonTables_2 : ∃ (s : State) (h : Hdr) (pl : List Byte), (Accepted s.dev cAxonCoreBase h pl) ∧ (s.dev.still
  h.part = true) ∧ (leAt pl 0 2 < 256) ∧ (s.dev.owns h.part (leAt pl 0 2 / 16) = true) ∧ (leAt pl 4 4 ≠ 0xFFFFFFFF →
  s.dev.inRange (leAt pl 0 2 / 128) h.part (leAt pl 4 4) = true) :=
  ⟨wOf wAx, wH, leBytes 4 3 ++ leBytes 4 100, by decide⟩

theorem witness_AxonTables_3 : ∃ (s : State) (h : Hdr) (pl : List Byte), (Accepted s.dev cAxonLoad h pl) ∧ (byteAt pl 0 < 2) ∧
  (0 < leAt pl 8 4 → s.dev.inRange (byteAt pl 0) h.part (leAt pl 4 4) = true ∧ s.dev.inRange (byteAt pl 0) h.part (leAt pl 4 4 +
  leAt pl 8 4 - 1) = true) ∧ (∀ k, k < leAt pl 8 4 → s.dev.axonOk (byteAt pl 0) h.part (leAt pl (16 + 8 * k) 8) = true) :=
  ⟨wOf wAx, wH, leBytes 4 0 ++ leBytes 4 10 ++ leBytes 4 2 ++ zeros 4 ++ leBytes 8 (2 ^ 60 + 5 * 2 ^ 43) ++ leBytes 8 (5 * 2 ^ 60 + 7), by decide⟩

theorem witness_AxonTables_4 : ∃ (s : State) (h : Hdr) (pl : List Byte), (Accepted s.dev cAxonRead h pl) ∧ (byteAt pl 0 < 2) ∧
  (0 < leAt pl 8 4 → s.dev.inRange (byteAt pl 0) h.part (leAt pl 4 4) = true ∧ s.dev.inRange (byteAt pl 0) h.part (leAt pl 4 4 +
  leAt pl 8 4 - 1) = true) ∧ (leAt pl 8 4 ≤ 131072) ∧ (Fits s.dev h (8 * leAt pl 8 4)) :=
  ⟨wOf wAx, wH, leBytes 4 0 ++ leBytes 4 10 ++ leBytes 4 2 ++ zeros 4, by decide⟩

theorem witness_AxonTables_5 : ∃ (s : State) (h : Hdr) (pl : List Byte), (Accepted s.dev cAxnStatus h pl) ∧ (byteAt pl 0 < 2) :=
  ⟨wS, wH, 1 :: zeros 7, by decide⟩

theorem witness_AxonTables_6 : ∃ (s : State) (q p n pos i g now beat x : Nat), (q < 256) ∧ (s.dev.nextLookup q = some pos) ∧
  (s.dev.logOf q = some n) ∧ (s.dev.regPart (q / 16) = some p) ∧ (s.dev.choked p = false) ∧ (s.dev.flag (AXN_CBASE (dieOf (q /
  16)) (n % 128)) 31 = true) ∧ (s.dev.inRange (dieOf (q / 16)) p (s.dev.fld (AXN_CBASE (dieOf (q / 16)) (n % 128)) 0 22 + i) =
  true) ∧ (SMap.get 0 s.dev.ecc (axAddr (dieOf (q / 16)) (s.dev.fld (AXN_CBASE (dieOf (q / 16)) (n % 128)) 0 22 + i)) = 0) ∧ (i
  = s.dev.rdN (s.dev.flBase q + 8 * pos) 2 % 32768) ∧ (g = (s.dev.mem.read (s.dev.flBase q + 8 * pos + 2)).toNat) ∧ (now =
  (s.dev.region (q / 16)).beat) ∧ (beat = beatAdd now (beatDelta (s.dev.rdN (s.dev.flBase q + 8 * pos + 4) 2) now)) ∧ (x =
  s.dev.rdN (axAddr (dieOf (q / 16)) (s.dev.fld (AXN_CBASE (dieOf (q / 16)) (n % 128)) 0 22 + i)) 8) :=
  ⟨wOf wLook, 0, 1, 0, 0, 0, 0, 9, 9, 5 * 2 ^ 60 + 7, by decide⟩

theorem witness_AxonTables_7 : ∃ (s : State) (q p n pos : Nat), (q < 256) ∧ (s.dev.nextLookup q = some pos) ∧ (s.dev.logOf q =
  some n) ∧ (s.dev.regPart (q / 16) = some p) ∧ (s.dev.choked p = false) ∧ (s.dev.flag (AXN_CBASE (dieOf (q / 16)) (n % 128)) 31
  = true) ∧ (s.dev.inRange (dieOf (q / 16)) p (s.dev.fld (AXN_CBASE (dieOf (q / 16)) (n % 128)) 0 22 + s.dev.rdN (s.dev.flBase q
  + 8 * pos) 2 % 32768) = false) :=
  ⟨wOf (wLook.setR (AXN_PLIMIT 0 1) 5), 0, 1, 0, 0, by decide⟩

theorem witness_AxonTables_8 : ∃ (s : State) (die dev : Nat) (ev : Event), (die < 2) ∧ (ev.part < 16) ∧ (s.dev.packs.any (fun x
  => x.router == die && x.dev == dev && x.evs.contains ev) = true ∨ dev = s.dev.devId ∧ s.dev.net.contains ev = true) :=
  ⟨wOf { wRun with packs := [⟨0, 3, 0, 1, 9, [wEv, wEv]⟩, ⟨0, 4, 0, 1, 9, [wEv]⟩] }, 0, 3, wEv, by decide⟩

theorem witness_AxonTables_9 : ∃ (s : State) (die dev : Nat) (ev : Event), (s.dev.packs.any (fun x => x.router == die && x.dev
  == dev && x.evs.contains ev) = false) ∧ (dev = s.dev.devId → s.dev.net.contains ev = false) :=
  ⟨wOf { wRun with net := [wEv] }, 0, 3, wEv, by decide⟩

theorem witness_AxonTables_10 : ∃ (s : State) (k : Nat) (x : Pack), (s.dev.packs[k]? = some x) ∧ (x.dev = s.dev.devId) :=
  ⟨wOf { wRun with packs := [⟨0, 0, 0, 1, 9, [wEv]⟩] }, 0, ⟨0, 0, 0, 1, 9, [wEv]⟩, by decide⟩

theorem witness_AxonTables_11 : ∃ (s : State) (k dim dir dl : Nat) (x : Pack), (s.dev.packs[k]? = some x) ∧ (x.dev ≠
  s.dev.devId) ∧ (routerDie x.router < 2) ∧ (s.dev.route (routerDie x.router) (x.dev % 512) 3 0 = some (dim, dir, dl)) ∧
  (s.dev.linkOf dim dir (vcOf 1 1 dl) = none) :=
  ⟨wOf { wRun with packs := [⟨0, 3, 0, 1, 9, [wEv]⟩] }, 0, 0, 0, 0, ⟨0, 3, 0, 1, 9, [wEv]⟩, by decide⟩

theorem witness_AxonTables_12 : ∃ (s : State) (k dim dir dl j : Nat) (x : Pack), (s.dev.packs[k]? = some x) ∧ (x.dev ≠
  s.dev.devId) ∧ (routerDie x.router < 2) ∧ (s.dev.route (routerDie x.router) (x.dev % 512) 3 0 = some (dim, dir, dl)) ∧
  (s.dev.linkOf dim dir (vcOf 1 1 dl) = some j) ∧ (s.dev.flag FLT_STAT 4 = false) :=
  ⟨wOf { wNbr with packs := [⟨0, 1, 0, 1, 9, [wEv]⟩] }, 0, 0, 1, 0, 0, ⟨0, 1, 0, 1, 9, [wEv]⟩, by decide⟩

theorem witness_AlmanacAndReadoutCommands_1 : ∃ (s : State) (h : Hdr) (pl : List Byte), (Accepted s.dev cAlmanacConfig h pl) ∧
  (s.dev.still h.part = true) ∧ (byteAt pl 1 ≤ 8) ∧ (∀ r, r < 16 → s.dev.owns h.part r = true → s.dev.banksFree r (byteAt pl 0)
  (byteAt pl 1) 3 = true) :=
  ⟨wS, wH, [2, 4, 1] ++ zeros 5, by decide⟩

theorem witness_AlmanacAndReadoutCommands_2 : ∃ (s : State) (h : Hdr) (pl : List Byte) (q : Nat), (Accepted s.dev cAlmanacRead h
  pl) ∧ (NamesCore s.dev h.part (leAt pl 0 2) q) ∧ (s.dev.bstate h.part = 3) ∧ (Fits s.dev h (8 + (((s.dev.pendings q).drop
  (leAt pl 4 4)).take (leAt pl 8 4)).flatten.length)) :=
  ⟨wOf (wRun.setF (TAB_BSTAT 1) 16 3 3), wH, zeros 8 ++ leBytes 4 10, 0, by decide⟩

theorem witness_AlmanacAndReadoutCommands_3 : ∃ (s : State) (h : Hdr) (pl : List Byte) (q : Nat), (Accepted s.dev cAlmanacLoad h
  pl) ∧ (NamesCore s.dev h.part (leAt pl 0 2) q) ∧ (s.dev.bstate h.part = 3) ∧ (leAt pl 4 4 = 1) ∧ (pendRsvd (pl.drop 8) =
  false) ∧ (1 ≤ beatSub (leAt pl 16 6) (s.dev.beat h.part) ∧ beatSub (leAt pl 16 6) (s.dev.beat h.part) ≤ 64) ∧ (s.dev.napping q
  = false) ∧ (s.dev.nearCount q (leAt pl 16 6 % 64) < s.dev.nearCap q) :=
  ⟨wOf ((((wRun.setF (TAB_BSTAT 1) 16 3 3).setR (ALM_NCAP 0) 128).setR (SYN_PMALM 0) 0x102)), wH, leBytes 4 0 ++ leBytes 4 1 ++ leBytes 8 (2 ^ 62 + 5 * 2 ^ 43) ++ leBytes 6 12 ++ zeros 2, 0, by decide⟩

theorem witness_AlmanacAndReadoutCommands_4 : ∃ (s : State) (h : Hdr) (pl : List Byte) (q : Nat), (Accepted s.dev cAlmanacLoad h
  pl) ∧ (NamesCore s.dev h.part (leAt pl 0 2) q) ∧ (s.dev.bstate h.part = 3) ∧ (leAt pl 4 4 = 0) :=
  ⟨wOf (wRun.setF (TAB_BSTAT 1) 16 3 3), wH, zeros 8, 0, by decide⟩

theorem witness_AlmanacAndReadoutCommands_5 : ∃ (s : State) (h : Hdr) (pl : List Byte), (Accepted s.dev cReadoutConfig h pl) ∧
  (s.dev.still h.part = true) ∧ (byteAt pl 0 < 16) ∧ (s.dev.owns h.part (byteAt pl 0) = true) ∧ (byteAt pl 1 % 2 = 0) ∧
  (s.dev.banksFree (byteAt pl 0) (byteAt pl 1) 2 4 = true) ∧ (leAt pl 4 4 ≤ 65536) ∧ (16 * (1 + ceilDiv (leAt pl 4 4) 4 + 4) +
  64 ≤ 2 ^ s.dev.fld (AXN_ORCFG 0 h.part) 0 5) :=
  ⟨wOf (wD.setR (AXN_ORCFG 0 1) 20), wH, [1, 4, 0, 0] ++ leBytes 4 64, by decide⟩

theorem witness_AlmanacAndReadoutCommands_6 : ∃ (s : State) (h : Hdr) (pl : List Byte) (r : Nat), (Accepted s.dev cReadoutRead h
  pl) ∧ (s.dev.readoutRegion h.part = some r) ∧ (leAt pl 0 4 + leAt pl 4 4 ≤ 65536) ∧ (∀ k, k < 4 * leAt pl 4 4 → SMap.get 0
  s.dev.ecc (8 * ((s.dev.frameAddr r (s.dev.rg (AXN_RFRAME_LO r)) (leAt pl 0 4) + k) / 8)) = 0) ∧ (Fits s.dev h (8 + 4 * leAt pl
  4 4)) :=
  ⟨wOf ((wD.setR (AXN_PROUT 0 1) 0x80000001).setR (AXN_RCFG 1) 0x80080040), wH, leBytes 4 3 ++ leBytes 4 5, 1, by decide⟩

theorem witness_EventFiling_1 : ∃ (s : State) (ev : Event) (q j : Nat) (x : Int), (ev.part < 16) ∧ (s.dev.regPart (ev.dcore %
  256 / 16) = some ev.part) ∧ (s.dev.choked ev.part = false) ∧ (ev.tkind ≤ 1) ∧ (s.dev.physOf (ev.dcore % 256) = some q) ∧ (q <
  256) ∧ (x = beatDelta ev.ebeat (s.dev.core q).ptr + 1 + (ev.delay : Int)) ∧ (0 ≤ x ∧ x ≤ 63) ∧ (x = 0 → (s.dev.core q).closed
  = false) ∧ (s.dev.napping q = false) ∧ (j = beatAdd (s.dev.core q).ptr x % 64) ∧ (s.dev.nearCount q j < s.dev.nearCap q) :=
  ⟨wOf ((wCore.setR (ALM_NCAP 0) 128).setR (SYN_PMALM 0) 0x102), wEv, 0, 12, 3, by decide⟩

theorem witness_EventFiling_2 : ∃ (s : State) (ev : Event) (q : Nat) (x : Int), (ev.part < 16) ∧ (s.dev.regPart (ev.dcore % 256
  / 16) = some ev.part) ∧ (s.dev.choked ev.part = false) ∧ (ev.tkind ≤ 1) ∧ (s.dev.physOf (ev.dcore % 256) = some q) ∧ (q < 256)
  ∧ (x = beatDelta ev.ebeat (s.dev.core q).ptr + 1 + (ev.delay : Int)) ∧ (x < 0 ∨ x = 0 ∧ (s.dev.core q).closed = true) ∧
  (s.dev.flag (ALM_LATECFG (q / 16)) 0 = false) :=
  ⟨wOf wCore, { wEv with ebeat := 5 }, 0, -1, by decide⟩

theorem witness_EventFiling_3 : ∃ (s : State) (ev : Event), (ev.part < 16) ∧ (s.dev.regPart (ev.dcore % 256 / 16) ≠ some
  ev.part) :=
  ⟨wOf wCore, { wEv with dcore := 40 }, by decide⟩

theorem witness_EventFiling_4 : ∃ (s : State) (ev : Event) (r : Nat) (x : Nat) (y : Int), (ev.part < 16) ∧ (r = ev.dcore % 256 /
  16) ∧ (s.dev.regPart r = some ev.part) ∧ (s.dev.choked ev.part = false) ∧ (ev.tkind = 2) ∧ (s.dev.readoutRegion ev.part = some
  r) ∧ (s.dev.flag (AXN_RCFG r) 31 = true) ∧ (-1 ≤ beatDelta ev.ebeat (s.dev.beat ev.part)) ∧ (x = beatAdd (s.dev.beat ev.part)
  (beatDelta ev.ebeat (s.dev.beat ev.part))) ∧ ((s.dev.region r).clearing ≠ some (x % 2)) ∧ (SMap.get 0 s.dev.ecc (8 *
  (s.dev.frameAddr r x (ev.ra % 65536) / 8)) = 0) ∧ (y = sInt 32 (s.dev.rdN (s.dev.frameAddr r x (ev.ra % 65536)) 4) + sInt 8
  ev.grade * sInt 12 ev.delay) :=
  ⟨wOf (((wRun.setR (AXN_PROUT 0 1) 0x80000001).setR (AXN_RCFG 1) 0x80080040)), { wEv with dcore := 16, tkind := 2, ra := 6, grade := 0xFE, delay := 3 }, 1, 9, -6, by decide⟩

theorem witness_EventFiling_5 : ∃ (s : State) (ev : Event), (ev.part < 16) :=
  ⟨wOf { wCore with net := [wEv] }, wEv, by decide⟩

theorem witness_EventFiling_6 : ∃ (s : State) (r : Nat), (r < 16) ∧ (s.dev.coresOf r ≠ []) ∧ (0 < beatSub (s.dev.farMin r)
  (s.dev.region r).mig) ∧ (s.dev.naps = []) ∧ (s.dev.engineRuns r = true) :=
  ⟨wOf (wD.forEach (upTo 16) (fun d k => d.setCore k { NCore.reset with ptr := 9 })), 0, by decide⟩

theorem witness_EventFiling_7 : ∃ (s : State) (q cycles : Nat), (q < 256) ∧ (s.dev.flag (ALM_NSTAT q) 0 = true) ∧ ((s.dev.core
  q).closed = false) ∧ (s.dev.nearCount q ((s.dev.core q).ptr % 64) < s.dev.nearCap q / 2) ∧ (s.dev.napping q = false) ∧
  (s.dev.farCount q (s.dev.core q).ptr ≠ 0) ∧ (s.dev.engineRuns (q / 16) = true) :=
  ⟨wOf ((((wCore.setR (ALM_NCAP 0) 128).setR (SYN_PMALM 0) 0x102).setFlag (ALM_NSTAT 0) 0 true).setRegion 0 { wCore.region 0 with far := [(9, ⟨[⟨0, 77, 0⟩, ⟨0, 78, 0⟩, ⟨1, 79, 0⟩], 3, 0⟩)] }), 0, 4, by decide⟩

theorem witness_HostEventRings_1 : ∃ (s : State) (h : Hdr) (pl : List Byte), (Accepted s.dev cEventRings h pl) ∧ (s.dev.running
  h.part = false) ∧ (12 ≤ byteAt pl 8 ∧ byteAt pl 8 ≤ 20) ∧ (12 ≤ byteAt pl 24 ∧ byteAt pl 24 ≤ 20) ∧ (leAt pl 0 8 % 4096 = 0 ∧
  leAt pl 16 8 % 4096 = 0) :=
  ⟨wS, wH, leBytes 8 0x7000 ++ (14 :: zeros 7) ++ leBytes 8 0x123456789000 ++ (20 :: zeros 7), by decide⟩

theorem witness_HostEventRings_2 : ∃ (s : State) (f p v : Nat), (p < 16) ∧ (f = 0 ∨ f = p) :=
  ⟨wS, 1, 1, 7, by decide⟩

theorem witness_HostEventRings_3 : ∃ (s : State) (f p v : Nat), (p < 16) ∧ (f = 0 ∨ f = p) :=
  ⟨wS, 0, 1, 7, by decide⟩

theorem witness_HostEventRings_4 : ∃ (s : State) (f p k v : Nat), (p < 16) ∧ (f = 0 ∨ f = p) ∧ (k < 2) ∧ (bitAt v 31 = true) ∧
  (s.dev.flag (if k = 0 then AXN_IRCFG 0 p else AXN_ORCFG 0 p) 31 = false) ∧ (12 ≤ v % 32 ∧ v % 32 ≤ 20) :=
  ⟨wS, 1, 1, 1, 0x8000000C, by decide⟩

theorem witness_HostEventRings_5 : ∃ (s : State) (f p k v : Nat), (p < 16) ∧ (f = 0 ∨ f = p) ∧ (k < 2) ∧ (bitAt v 31 = false) ∧
  (s.dev.flag (if k = 0 then AXN_IRCFG 0 p else AXN_ORCFG 0 p) 31 = true) :=
  ⟨wOf (wRun.setR (AXN_IRCFG 0 1) 0x8000000C), 1, 1, 0, 13, by decide⟩

theorem witness_HostEventRings_6 : ∃ (s : State) (p r n : Nat) (rec : List Byte), (p < 16) ∧ (s.dev.flag (AXN_IRCFG 0 p) 31 =
  true ∧ s.dev.flag (PCI_DMACFG (2 * p)) 31 = true) ∧ (s.dev.rg (AXN_IRHEAD 0 p) ≠ s.dev.rg (AXN_IRTAIL 0 p)) ∧ (s.dev.bstate p
  = 1) ∧ (p = 0 → s.dev.d3hot = false) ∧ ((s.dev.regionsOf p).head? = some r) ∧ (n = (if s.dev.coresOf r ≠ [] ∧ s.dev.allFinalAt
  r (s.dev.region r).beat = true then ((s.dev.region r).beat + 1) % 2 ^ 48 else (s.dev.region r).beat)) :=
  ⟨wOf (((wRun.setR (AXN_IRCFG 0 1) 0x8000000C).setR (PCI_DMACFG 2) 0x80000000).setR (AXN_IRTAIL 0 1) 3), 1, 0, 0, leBytes 8 (2 ^ 56) ++ zeros 8, by decide⟩

theorem witness_HostEventRings_7 : ∃ (s : State) (p eb r : Nat) (b : List Byte) (rest : List OutRec), (p < 16) ∧ (p = 0 →
  s.dev.d3hot = false) ∧ ((s.dev.part p).lost = 0 ∨ s.dev.orFree p = 0) ∧ ((s.dev.part p).outq = .spike b eb r :: rest) :=
  ⟨wOf (((wRun.setR (AXN_ORCFG 0 1) 0x8000000C).setR (PCI_DMACFG 3) 0x80000000).setPart 1 { wRun.part 1 with outq := [.spike (zeros 16) 9 0] }), 1, 9, 0, zeros 16, [], by decide⟩

theorem witness_HostEventRings_8 : ∃ (s : State) (p : Nat), (p < 16) ∧ (p = 0 → s.dev.d3hot = false) ∧ (0 < (s.dev.part p).lost)
  ∧ (1 ≤ s.dev.orFree p) :=
  ⟨wOf (((wRun.setR (AXN_ORCFG 0 1) 0x8000000C).setR (PCI_DMACFG 3) 0x80000000).setPart 1 { wRun.part 1 with lost := 3 }), 1, by decide⟩

theorem witness_FabricPortCommandsAndEvents_1 : ∃ (s : State) (h : Hdr) (pl : List Byte), (Accepted s.dev cFabStatus h pl) ∧
  (byteAt pl 0 < 2) :=
  ⟨wS, wH, zeros 8, by decide⟩

theorem witness_FabricPortCommandsAndEvents_2 : ∃ (s : State) (h : Hdr) (pl : List Byte), (Accepted s.dev cPortStatus h pl) ∧
  (byteAt pl 0 < 8) :=
  ⟨wS, wH0, 5 :: zeros 7, by decide⟩

theorem witness_FabricPortCommandsAndEvents_3 : ∃ (s : State) (h : Hdr) (pl : List Byte), (Accepted s.dev cRouteRead h pl) :=
  ⟨wS, wH, [], by decide⟩

theorem witness_FabricPortCommandsAndEvents_4 : ∃ (s : State) (h : Hdr) (pl : List Byte) (q : Nat), (Accepted s.dev cPortControl
  h pl) ∧ (q = byteAt pl 0) ∧ (q < 8) ∧ (byteAt pl 1 < 4) ∧ (s.dev.portState q ≠ 4 ∧ s.dev.portState q ≠ 1) :=
  ⟨wS, wH, [2, 1] ++ zeros 6, 2, by decide⟩

theorem witness_FabricPortCommandsAndEvents_5 : ∃ (s : State) (q b : Nat), (q < 8) :=
  ⟨wS, 2, 1, by decide⟩

theorem witness_FabricPortCommandsAndEvents_6 : ∃ (s : State) (f q b : Nat), (f ≠ 0) ∧ (q < 8) :=
  ⟨wS, 3, 2, 1, by decide⟩

theorem witness_FabricPortCommandsAndEvents_7 : ∃ (s : State) (q t : Nat), (q < 8) :=
  ⟨wOf (wD.setF (FAB_PSTAT 0 2) 0 3 2), 2, 1, by decide⟩

theorem witness_FabricPortCommandsAndEvents_8 : ∃ (s : State) (q : Nat) (ok : Bool), (q < 8) ∧ (s.dev.portState q = 1 ∨
  s.dev.portState q = 3) :=
  ⟨wOf (wD.setF (FAB_PSTAT 0 2) 0 3 1), 2, true, by decide⟩

theorem witness_FabricPortCommandsAndEvents_9 : ∃ (s : State) (q : Nat), (q < 8) ∧ (s.dev.portState q = 3) :=
  ⟨wOf (wD.setF (FAB_PSTAT 0 2) 0 3 3), 2, by decide⟩

theorem witness_FabricPortCommandsAndEvents_10 : ∃ (s : State) (q cause flits : Nat), (q < 8) ∧ (s.dev.portState q = 2) ∧ (cause
  = 1 → s.dev.fecBurst q = true) ∧ (cause = 2 → s.dev.crcBurst q = true) :=
  ⟨wOf (wD.setF (FAB_PSTAT 0 2) 0 3 2), 2, 0, 3, by decide⟩

theorem witness_FabricPortCommandsAndEvents_11 : ∃ (s : State) (q cause flits : Nat), (s.dev.portState q ≠ 2 ∨ cause = 1 ∧
  s.dev.fecBurst q = false ∨ cause = 2 ∧ s.dev.crcBurst q = false) :=
  ⟨wOf (wD.setF (FAB_PSTAT 0 2) 0 3 2), 2, 1, 3, by decide⟩

theorem witness_FabricPortCommandsAndEvents_12 : ∃ (s : State) (q flits corr : Nat), (q < 8) :=
  ⟨wS, 2, 3, 9, by decide⟩

theorem witness_FabricPortCommandsAndEvents_13 : ∃ (s : State) (port dev q : Nat), (dev ≠ s.dev.devId) ∧ (SMap.get 0 s.dev.links
  (8 * dev + q) ≠ 1) :=
  ⟨wOf wNbr, 3, 3, 1, by decide⟩

theorem witness_FabricPortCommandsAndEvents_14 : ∃ (s : State) (port dev q : Nat), (dev = s.dev.devId ∨ SMap.get 0 s.dev.links
  (8 * dev + q) = 1) :=
  ⟨wS, 3, 0, 1, by decide⟩

theorem witness_FabricPortCommandsAndEvents_15 : ∃ (s : State) (port dev ports : Nat) (spans : List (Nat × Nat)), (dev ≠
  s.dev.devId) ∧ (dev < 512) ∧ (s.dev.fabDevs.contains dev = false) :=
  ⟨wOf wNbr, 3, 3, 5, [(1, 0)], by decide⟩

theorem witness_FabricPortCommandsAndEvents_16 : ∃ (s : State) (port dev ports : Nat) (spans : List (Nat × Nat)), (dev ≠
  s.dev.devId) ∧ (dev < 512) ∧ (s.dev.fabDevs.contains dev = true) :=
  ⟨wOf wNbr, 3, 1, 5, [(1, 0)], by decide⟩

theorem witness_PacketsAndFlits_1 : ∃ (s : State) (q corr : Nat) (tags : List Nat) (l : List Byte), (q < 8) ∧ (FlitsOk s.dev q
  tags) ∧ (pktDest l = s.dev.devId ∨ pktClass l = 4) ∧ (pktGood l = true) ∧ (pktType l ≠ 0x01) ∧ (pktClass l ≠ 6) :=
  ⟨wS, 2, 4, [8 * 4096 + 3072], packetOf 0x40 4 0 0 3 1 0 7 (leBytes 1 2) [], by decide⟩

theorem witness_PacketsAndFlits_2 : ∃ (s : State) (q corr : Nat) (tags : List Nat) (l : List Byte), (q < 8) ∧ (FlitsOk s.dev q
  tags) ∧ (pktGood l = true) ∧ (pktType l ≠ 0x01) ∧ (pktClass l = 6) :=
  ⟨wS, 2, 0, [11 * 4096 + 3072], packetOf 0x60 6 0 0 3 0 0 0 [] [], by decide⟩

theorem witness_PacketsAndFlits_3 : ∃ (s : State) (q corr : Nat) (tags : List Nat) (l : List Byte), (q < 8) ∧ (FlitsOk s.dev q
  tags) ∧ (pktDest l = s.dev.devId) ∧ (pktGood l = true) ∧ (pktType l = 0x01) ∧ (s.dev.flag FLT_STAT 4 = false ∨ q / 4 = dieOf
  (pktReg l)) :=
  ⟨wS, 2, 0, [4096 + 0, 4096 + 2048], packetOf 0x01 1 0 0 3 1 0 0 (leBytes 2 9 ++ leBytes 2 1) (leBytes 8 (2 ^ 56)), by decide⟩

theorem witness_PacketsAndFlits_4 : ∃ (s : State) (q corr : Nat) (tags : List Nat) (l : List Byte), (q < 8) ∧ (pktDest l =
  s.dev.devId ∨ pktClass l = 4 ∨ pktClass l = 6) ∧ (¬ FlitsOk s.dev q tags ∨ pktGood l = false) :=
  ⟨wS, 2, 0, [4096 + 3072], zeros 64, by decide⟩

theorem witness_PacketsAndFlits_5 : ∃ (s : State) (q corr dim dir dl : Nat) (tags : List Nat) (l : List Byte), (q < 8) ∧
  (pktDest l ≠ s.dev.devId) ∧ (pktClass l ≠ 4 ∧ pktClass l ≠ 6) ∧ (isRequest (pktType l) = false ∨ pktGood l = false ∨ ¬ FlitsOk
  s.dev q tags ∨ s.dev.badAddress l = false) ∧ (s.dev.route (q / 4) (pktDest l) (min (q / 2) 2) (bitsOf (byteAt l 1) 4 2) = some
  (dim, dir, dl)) ∧ (∃ o, o < 8 ∧ Carries s.dev dim dir o) ∧ (s.dev.flag FLT_STAT 4 = false) :=
  ⟨wOf wNbr, 1, 0, 0, 1, 0, [4096 + 0, 4096 + 2048], packetOf 0x01 1 1 0 3 1 0 0 (leBytes 2 9 ++ leBytes 2 1) (leBytes 8 (2 ^ 56)), by decide⟩

theorem witness_PacketsAndFlits_6 : ∃ (s : State) (q corr dim dir dl : Nat) (tags : List Nat) (l : List Byte), (q < 8) ∧
  (pktDest l ≠ s.dev.devId) ∧ (pktClass l ≠ 4 ∧ pktClass l ≠ 6) ∧ (isRequest (pktType l) = false ∨ pktGood l = false ∨ ¬ FlitsOk
  s.dev q tags ∨ s.dev.badAddress l = false) ∧ (s.dev.route (q / 4) (pktDest l) (min (q / 2) 2) (bitsOf (byteAt l 1) 4 2) = some
  (dim, dir, dl)) ∧ (¬ ∃ o, o < 8 ∧ Carries s.dev dim dir o) :=
  ⟨wS, 1, 0, 0, 0, 0, [4096 + 0, 4096 + 2048], packetOf 0x01 1 1 0 3 1 0 0 (leBytes 2 9 ++ leBytes 2 1) (leBytes 8 (2 ^ 56)), by decide⟩

theorem witness_PacketsAndFlits_7 : ∃ (s : State) (q corr : Nat) (tags : List Nat) (l : List Byte), (q < 8) ∧ (FlitsOk s.dev q
  tags) ∧ (pktDest l ≠ s.dev.devId) ∧ (pktClass l ≠ 4 ∧ pktClass l ≠ 6) ∧ (isRequest (pktType l) = true) ∧ (pktGood l = true) ∧
  (s.dev.badAddress l = true) :=
  ⟨wS, 1, 0, [3 * 4096 + 3072], packetOf 0x20 2 5 0 3 1 9 0 (leBytes 8 (2 ^ 60) ++ leBytes 2 64) [], by decide⟩

theorem witness_PacketsAndFlits_8 : ∃ (s : State) (q corr : Nat) (tags : List Nat) (l : List Byte), (q < 8) ∧ (¬ FlitsOk s.dev q
  tags ∨ c0Good l = false) :=
  ⟨wS, 1, 0, [3072], 1 :: zeros 63, by decide⟩

theorem witness_PacketsAndFlits_9 : ∃ (s : State) (q corr dim dir dl o : Nat) (tags : List Nat) (l : List Byte), (q < 8) ∧
  (FlitsOk s.dev q tags) ∧ (c0Good l = true) ∧ (c0Kind l = 1) ∧ (s.dev.route (q / 4) (c0Dest l) 3 0 = some (dim, dir, dl)) ∧
  (Carries s.dev dim dir o ∧ dim < 2) ∧ (s.dev.flag FLT_STAT 4 = false) :=
  ⟨wOf wNbr, 1, 0, 0, 1, 0, 0, [3072], splice (leBytes 4 17 ++ zeros 60) 4 (leBytes 4 (c0Crc (leBytes 4 17 ++ zeros 60))), by decide⟩

theorem witness_PacketsAndFlits_10 : ∃ (s : State) (a : Alarm), (s.dev.route 0 (s.dev.rootId % 512) 3 0 = none) :=
  ⟨wOf (wD.setFlag CAL_STAT 6 true), ⟨4, 1, 3, 77, 2⟩, by decide⟩

theorem witness_PacketsAndFlits_11 : ∃ (s : State) (x : Alarm) (dim dir dl o : Nat), (s.dev.route 0 (s.dev.rootId % 512) 3 0 =
  some (dim, dir, dl)) ∧ (Carries s.dev dim dir o ∧ dim < 2) ∧ (s.dev.flag FLT_STAT 4 = false) ∧ ((s.dev.oport o).queue.find?
  (fun w => w.vc == 0 && c0Kind w.data == 2) = none) :=
  ⟨wOf { wNbr with cal := { wNbr.cal with rootDev := 1 } }, ⟨4, 1, 3, 77, 2⟩, 0, 1, 0, 0, by decide⟩

theorem witness_PacketsAndFlits_12 : ∃ (s : State) (x : Alarm) (w : Worm) (dim dir dl o : Nat), (s.dev.route 0 (s.dev.rootId %
  512) 3 0 = some (dim, dir, dl)) ∧ (Carries s.dev dim dir o ∧ dim < 2 ∧ o < 8) ∧ ((s.dev.oport o).queue.find? (fun w => w.vc ==
  0 && c0Kind w.data == 2) = some w) ∧ (x.cause < 256 ∧ x.merged < 65536 ∧ x.first < 512 ∧ x.time < 2 ^ 48 ∧ x.partMask < 65536)
  :=
  ⟨wOf { (wNbr.setOport 0 { (default : OPort) with queue := [{ (default : Worm) with data := c0Flit 2 1 5 (Alarm.bytes ⟨1, 2, 5, 9, 4⟩) }], used := [(0, 17)] }) with cal := { wNbr.cal with rootDev := 1 } }, ⟨4, 1, 3, 77, 2⟩, { (default : Worm) with data := c0Flit 2 1 5 (Alarm.bytes ⟨1, 2, 5, 9, 4⟩) }, 0, 1, 0, 0, by decide⟩

theorem witness_Collectives_1 : ∃ (s : State) (h : Hdr) (pl : List Byte) (t : List (Nat × Nat) × Nat), (Accepted s.dev
  cCollSetup h pl) ∧ (byteAt pl 0 < 16) ∧ (byteAt pl 1 < 16) ∧ (leAt pl 2 2 < 512) ∧ (1 ≤ leAt pl 4 4 ∧ leAt pl 4 4 ≤ 65535) ∧
  ((s.dev.coll (byteAt pl 0)).used = false) ∧ (s.dev.treeOf (leAt pl 2 2) (maskBits 512 (leAt pl 8 64)) = some t) ∧
  (s.dev.creditsFree ((newColl (byteAt pl 1) (leAt pl 2 2) (leAt pl 4 4) (maskBits 512 (leAt pl 8 64))).place s.dev.devId t) =
  true) ∧ (treeOthers s.dev.devId (leAt pl 2 2) t = []) ∧ ((maskBits 512 (leAt pl 8 64)).contains s.dev.devId = true) :=
  ⟨wS, wH, [2, 1] ++ leBytes 2 0 ++ leBytes 4 100 ++ leBytes 64 1, ([], 0), by decide⟩

theorem witness_Collectives_2 : ∃ (s : State) (h : Hdr) (pl : List Byte) (t : List (Nat × Nat) × Nat), (Accepted s.dev
  cCollSetup h pl) ∧ (byteAt pl 0 < 16) ∧ (byteAt pl 1 < 16) ∧ (leAt pl 2 2 < 512) ∧ (1 ≤ leAt pl 4 4 ∧ leAt pl 4 4 ≤ 65535) ∧
  ((s.dev.coll (byteAt pl 0)).used = false) ∧ (s.dev.treeOf (leAt pl 2 2) (maskBits 512 (leAt pl 8 64)) = some t) ∧
  (s.dev.creditsFree ((newColl (byteAt pl 1) (leAt pl 2 2) (leAt pl 4 4) (maskBits 512 (leAt pl 8 64))).place s.dev.devId t) =
  true) ∧ (treeOthers s.dev.devId (leAt pl 2 2) t ≠ []) :=
  ⟨wOf wNbr, wH, [2, 1] ++ leBytes 2 0 ++ leBytes 4 100 ++ leBytes 64 3, ([(1, 0)], 1), by decide⟩

theorem witness_Collectives_3 : ∃ (s : State) (h : Hdr) (pl : List Byte) (g : Nat), (Accepted s.dev cCollIssue h pl) ∧ (g =
  byteAt pl 0) ∧ (g < 16) ∧ (byteAt pl 1 = 1 ∨ byteAt pl 1 = 3) ∧ (leAt pl 4 2 ≤ 256) ∧ ((s.dev.coll g).used = true ∧
  (s.dev.coll g).asking = [] ∧ (s.dev.coll g).part = h.part ∧ (s.dev.coll g).members.contains s.dev.devId = true) ∧ ((s.dev.coll
  g).issued = false ∧ (s.dev.coll g).rebuild = false ∧ (s.dev.coll g).broken = false ∧ (s.dev.coll g).epoch = leAt pl 2 2) ∧
  ((s.dev.coll g).parent = none ∧ (s.dev.coll g).children = [] ∧ (s.dev.coll g).held = []) ∧ ((s.dev.coll g).lanes = none ∧
  (s.dev.coll g).ncontrib = 0 ∧ (s.dev.coll g).sat = false ∧ (s.dev.coll g).nan = false) ∧ (Fits s.dev h (8 + 4 * leAt pl 4 2))
  :=
  ⟨wOf (wD.setColl 2 (newColl 1 0 100 [0])), wH, [2, 1] ++ leBytes 2 0 ++ leBytes 2 2 ++ zeros 2 ++ leBytes 4 77 ++ leBytes 4 0xFFFFFFF0, 2, by decide⟩

theorem witness_Collectives_4 : ∃ (s : State) (h : Hdr) (pl : List Byte) (g c : Nat), (Accepted s.dev cCollIssue h pl) ∧ (g =
  byteAt pl 0) ∧ (g < 16) ∧ (byteAt pl 1 < 5) ∧ (leAt pl 4 2 ≤ 256) ∧ ((s.dev.coll g).used = true ∧ (s.dev.coll g).asking = [] ∧
  (s.dev.coll g).part = h.part ∧ (s.dev.coll g).members.contains s.dev.devId = true) ∧ ((s.dev.coll g).issued = false ∧
  (s.dev.coll g).rebuild = false ∧ (s.dev.coll g).epoch = leAt pl 2 2) ∧ ((s.dev.coll g).held = []) ∧ ((s.dev.coll
  g).children.contains c = true) ∧ ((s.dev.coll g).got.contains c = false) :=
  ⟨wOf (wD.setColl 2 { newColl 1 0 100 [0, 1] with children := [1] }), wH, [2, 1] ++ leBytes 2 0 ++ leBytes 2 2 ++ zeros 2 ++ leBytes 4 77 ++ leBytes 4 0xFFFFFFF0, 2, 1, by decide⟩

theorem witness_Collectives_5 : ∃ (s : State) (h : Hdr) (pl : List Byte), (Accepted s.dev cCollRelease h pl) ∧ (byteAt pl 0 <
  16) ∧ ((s.dev.coll (byteAt pl 0)).used = true ∧ (s.dev.coll (byteAt pl 0)).asking = [] ∧ (s.dev.coll (byteAt pl 0)).issued =
  false) :=
  ⟨wOf (wD.setColl 2 (newColl 1 0 100 [0])), wH, 2 :: zeros 7, by decide⟩

theorem witness_Collectives_6 : ∃ (s : State) (h : Hdr) (pl : List Byte) (x : Coll), (Accepted s.dev cCollStatus h pl) ∧ (byteAt
  pl 0 < 16) ∧ (x = s.dev.coll (byteAt pl 0)) ∧ (h.func = 0 ∨ x.used = false ∨ x.part = h.func) :=
  ⟨wOf (wD.setColl 2 (newColl 1 0 100 [0])), wH, 2 :: zeros 7, newColl 1 0 100 [0], by decide⟩

theorem witness_Collectives_7 : ∃ (s : State) (q g : Nat) (l : List Byte) (x : Coll), (q < 8) ∧ (pktGood l = true) ∧ (pktType l
  = 0x40) ∧ (g = byteAt l 16 % 16) ∧ (x = s.dev.coll g) ∧ (x.used = true ∧ x.children.contains (pktSrc l) = true ∧
  x.members.contains s.dev.devId = true ∧ x.issued = false ∧ x.cur = x.epoch) ∧ (x.rebuild = false ∧ x.broken = false) :=
  ⟨wOf (wD.setColl 2 { newColl 1 0 100 [0, 1] with children := [1] }), 1, 2, packetOf 0x40 4 0 0 1 1 0 0 (leBytes 1 2 ++ leBytes 1 1 ++ leBytes 2 1 ++ leBytes 2 1) (leBytes 4 9), { newColl 1 0 100 [0, 1] with children := [1] }, by decide⟩

theorem witness_Collectives_8 : ∃ (s : State) (q : Nat) (l : List Byte), (q < 8) ∧ (pktGood l = false) :=
  ⟨wS, 1, zeros 64, by decide⟩

theorem witness_Collectives_9 : ∃ (s : State) (q g : Nat) (l : List Byte) (x : Coll), (q < 8) ∧ (pktGood l = true) ∧ (pktType l
  = 0x41) ∧ (g = byteAt l 16 % 16) ∧ (x = s.dev.coll g) ∧ (x.used = true ∧ x.children = [] ∧ x.members.contains s.dev.devId =
  true ∧ x.issued = true) ∧ (x.rebuild = false ∧ x.broken = false) ∧ (pktEpoch l = x.epoch) :=
  ⟨wOf (wD.setColl 2 { newColl 1 1 100 [0, 1] with issued := true }), 1, 2, packetOf 0x41 4 0 0 1 1 0 0 (leBytes 1 2 ++ leBytes 1 1 ++ leBytes 2 1 ++ leBytes 2 1) (leBytes 4 9), { newColl 1 1 100 [0, 1] with issued := true }, by decide⟩

theorem witness_Collectives_10 : ∃ (s : State) (g : Nat), ((s.dev.coll g).used = true ∧ (s.dev.coll g).issued = true ∧
  (s.dev.coll g).members.contains s.dev.devId = true ∧ (s.dev.coll g).held = []) :=
  ⟨wOf (wD.setColl 2 { newColl 1 1 100 [0, 1] with issued := true }), 2, by decide⟩

theorem witness_Collectives_11 : ∃ (s : State) (g k q : Nat) (l : List Byte), ((s.dev.coll g).held[k]? = some (q, l)) ∧ (q < 8)
  :=
  ⟨wOf (wD.setColl 2 { newColl 1 1 100 [0, 1] with held := [(1, zeros 64)] }), 2, 0, 1, zeros 64, by decide⟩

theorem witness_Collectives_12 : ∃ (s : State) (g epoch : Nat), ((s.dev.coll g).used = true ∧ (s.dev.coll g).rebuild = true ∧
  (s.dev.coll g).held = []) :=
  ⟨wOf (wD.setColl 2 { newColl 1 1 100 [0, 1] with rebuild := true }), 2, 12, by decide⟩

theorem witness_Collectives_13 : ∃ (s : State) (src g part root tmo : Nat) (members : List Nat) (t : List (Nat × Nat) × Nat), (g
  < 16) ∧ ((s.dev.coll g).used = false) ∧ (s.dev.treeOf root members = some t) :=
  ⟨wOf wNbr, 1, 2, 1, 1, 100, [0, 1], ([(0, 1)], 1), by decide⟩

theorem witness_Collectives_14 : ∃ (s : State) (src g part root tmo : Nat) (members : List Nat), (g < 16) ∧ ((s.dev.coll g).used
  = true) :=
  ⟨wOf (wNbr.setColl 2 (newColl 1 0 100 [0])), 1, 2, 1, 1, 100, [0, 1], by decide⟩

theorem witness_Collectives_15 : ∃ (s : State) (src g part root tmo : Nat) (members : List Nat), (g < 16) ∧ ((s.dev.coll g).used
  = false) :=
  ⟨wOf wNbr, 1, 2, 1, 1, 100, [0, 1], by decide⟩

theorem witness_Collectives_16 : ∃ (s : State) (src g part root tmo : Nat) (members : List Nat), (g < 16) :=
  ⟨wOf (wD.setColl 2 (newColl 1 0 100 [0])), 1, 2, 1, 1, 100, [], by decide⟩

theorem witness_Collectives_17 : ∃ (s : State) (src g part root tmo : Nat) (members : List Nat), (g < 16) ∧ ((s.dev.coll g).used
  = true ∧ (s.dev.coll g).asking = [src] ∧ (s.dev.coll g).members.contains s.dev.devId = true) :=
  ⟨wOf (wD.setColl 2 { newColl 1 0 100 [0, 1] with asking := [1] }), 1, 2, 1, 1, 100, [], by decide⟩

theorem witness_Collectives_18 : ∃ (s : State) (kind src g part root tmo : Nat) (members : List Nat), (g < 16) ∧ (kind = 3 ∨
  kind = 4) ∧ ((s.dev.coll g).used = true ∧ (s.dev.coll g).asking.contains src = true) :=
  ⟨wOf (wD.setColl 2 { newColl 1 0 100 [0, 1] with asking := [1] }), 3, 1, 2, 1, 1, 100, [], by decide⟩

theorem witness_RudimentAndPlane_1 : ∃ (s : State) (h : Hdr) (pl : List Byte) (r : Nat), (Accepted s.dev cRudimentLoad h pl) ∧
  (r = byteAt pl 0) ∧ (r < 16) ∧ (s.dev.owns h.part r = true) ∧ (leAt pl 2 2 + leAt pl 4 2 ≤ 1024) ∧ (s.dev.flag (FAB_SCTL r) 31
  = false) ∧ (∀ k, k < leAt pl 4 2 → s.dev.rudOk h.part r (slice pl (8 + 8 * k) 8) = true) :=
  ⟨wS, wH, leBytes 2 0 ++ leBytes 2 5 ++ leBytes 2 2 ++ zeros 2 ++ [0, 0, 0x46, 0, 0, 0, 0, 0] ++ zeros 8, 0, by decide⟩

theorem witness_RudimentAndPlane_2 : ∃ (s : State) (h : Hdr) (pl : List Byte), (Accepted s.dev cRudimentConfig h pl) ∧ (1 ≤ leAt
  pl 0 2 ∧ leAt pl 0 2 ≤ 1024) ∧ (leAt pl 4 4 ≤ 65535) ∧ (∀ r, r < 16 → bitAt (leAt pl 2 2) r = true → s.dev.owns h.part r =
  true ∧ s.dev.flag (FAB_SCTL r) 31 = false) :=
  ⟨wS, wH, leBytes 2 16 ++ leBytes 2 3 ++ leBytes 4 7, by decide⟩

theorem witness_RudimentAndPlane_3 : ∃ (s : State) (h : Hdr) (pl : List Byte), (Accepted s.dev cRudimentRead h pl) ∧ (byteAt pl
  0 < 16) ∧ (s.dev.owns h.part (byteAt pl 0) = true) ∧ (leAt pl 2 2 + leAt pl 4 2 ≤ 1024) ∧ (Fits s.dev h (24 + 8 * leAt pl 4
  2)) :=
  ⟨wS, wH, leBytes 2 0 ++ leBytes 2 5 ++ leBytes 2 2 ++ zeros 2, by decide⟩

theorem witness_RudimentAndPlane_4 : ∃ (s : State) (p r : Nat), (r < 16) ∧ (s.dev.regPart r = some p) ∧ (s.dev.flag (FAB_SCTL r)
  31 = true) ∧ (s.dev.ecc = []) :=
  ⟨wOf (wRun.setR (FAB_SCTL 0) 0x80030000), 1, 0, by decide⟩

theorem witness_RudimentAndPlane_5 : ∃ (s : State) (p : Nat), (p < 16) ∧ (s.dev.ecc = []) :=
  ⟨wOf (wRun.setR (FAB_SCTL 0) 0x80030000), 1, by decide⟩

theorem witness_RegisterAndWindowAccesses_1 : ∃ (s : State) (ag : Agent) (a v : Nat), (a % 4 = 0) ∧ (regListed a = false ∨
  s.dev.reachesW ag a = false ∨ s.dev.regDead a = true ∨ (ag.isFunc = true ∧ carillonOnly a = true)) :=
  ⟨wS, .func 3, FAB_RTX 0, 5, by decide⟩

theorem witness_RegisterAndWindowAccesses_2 : ∃ (s : State) (ag : Agent) (r c q o v : Nat), (r < 16) ∧ (c < 16) ∧ (o < 0x4000 ∨
  0x5000 ≤ o) ∧ (o < 0x10000 ∧ o % 4 = 0 ∧ o ≠ 0) ∧ (WriteOk s.dev ag (slotBase r c + o)) ∧ (q = 16 * r + c) ∧ (slotBase r c + o
  ≠ HRV_CTL q ∧ slotBase r c + o ≠ HRV_SEASON q ∧ slotBase r c + o ≠ HRV_HWIN q ∧ slotBase r c + o ≠ HRV_SEED q) :=
  ⟨wOf (wOn.setFlag (SYN_STAT 3) 4 true), .func 0, 0, 3, 3, SYN_STAT 3 - slotBase 0 3, 16, by decide⟩

theorem witness_RegisterAndWindowAccesses_3 : ∃ (s : State) (ag : Agent) (r k v : Nat), (r < 16) ∧ (k < 32) ∧ (s.dev.seqState r
  = 0) ∧ (WriteOk s.dev ag (SEQ_Gi_LO r 0 + 4 * k)) :=
  ⟨wOf wOn, .func 1, 0, 5, 77, by decide⟩

theorem witness_RegisterAndWindowAccesses_4 : ∃ (s : State) (f a : Nat), (a % 4 = 0 ∧ regPair a = true ∧ regListed a = true) ∧
  (tocAt a = none ∧ (a < 0x100 ∨ 0x500 ≤ a)) ∧ (s.dev.reaches (.func f) a = true ∧ s.dev.regDead a = false ∧ s.dev.cutOff (.func
  f) a = false) :=
  ⟨wS, 0, AXN_LOOKUP_LO 0, by decide⟩

theorem witness_RegisterAndWindowAccesses_5 : ∃ (s : State) (ag : Agent) (n off q : Nat) (bytes : List Byte), (n < 256) ∧ (off +
  bytes.length ≤ 0x300000) ∧ (s.dev.may ag (.core n off) 0 0 = true) ∧ (s.dev.physOf n = some q) ∧ (q < 256) ∧ (s.dev.storeOn q
  = true) ∧ (s.dev.flag FLT_STAT 4 = false ∨ n < 128) :=
  ⟨wOf wOn, .func 1, 0, 0x3FFFC, 0, [1, 2, 3, 4, 5, 6, 7, 8], by decide⟩

theorem witness_RegisterAndWindowAccesses_6 : ∃ (s : State) (ag : Agent) (k r o : Nat) (bytes : List Byte), (k = 1 ∨ k = 2) ∧ (r
  < 16) ∧ (o < 0x400000) ∧ (bytes.length = 4 ∨ bytes.length = 8) ∧ (o % bytes.length = 0) ∧ (s.dev.may ag (.commons k r o) 0 0 =
  true) ∧ (s.dev.ownsBank r (o / 0x40000) (bankAgent ag r) = true) ∧ (s.dev.flag FLT_STAT 4 = false ∨ r < 8) ∧ (SMap.get 0
  s.dev.ecc (8 * ((cmnBase r + o) / 8)) ≤ 1) :=
  ⟨wOf ((wD.setR (CMN_OWN 0 0) 2).wrN (cmnBase 0 + 8) 8 0xFF), .func 1, 2, 0, 8, leBytes 8 0xF0, by decide⟩

theorem witness_RegisterAndWindowAccesses_7 : ∃ (s : State) (ag : Agent) (kind r k : Nat) (bytes : List Byte), (kind = 1 ∨ kind
  = 2) ∧ (r < 16) ∧ (k < 32) ∧ (bytes.length = 4) ∧ (s.dev.seqState r = 0) ∧ (WriteOk s.dev ag (SEQ_Gi_LO r 0 + 4 * k)) ∧
  (s.dev.flag FLT_STAT 4 = false ∨ r < 8) :=
  ⟨wOf (wOn.setR (SEQ_Gi_LO 0 0 + 20) 0xFF), .func 1, 1, 0, 5, leBytes 4 0xF00, by decide⟩

theorem witness_FabricRequestsAndReplies_1 : ∃ (s : State) (q r ad n : Nat) (l : List Byte), (q < 8) ∧ (pktGood l = true ∧
  pktType l = 0x20) ∧ (s.dev.choked (pktPart l) = false) ∧ (s.dev.badAddress l = false) ∧ (n = rqLen l ∧ 1 ≤ n ∧ n ≤ 2048) ∧ (ad
  = rqAddr l % 2 ^ 48) ∧ (r < 16) ∧ (cmnBase r ≤ ad ∧ ad % 0x40000 + n ≤ 0x40000 ∧ ad + n ≤ cmnBase r + 0x400000) ∧ (s.dev.owns
  (pktPart l) r = true) ∧ (s.dev.ownsBank r ((ad - cmnBase r) / 0x40000) ownRouter = true) ∧ (s.dev.flag (CMN_OWN r ((ad -
  cmnBase r) / 0x40000)) 31 = false) ∧ (s.dev.cleanAt ad n = true) ∧ (s.dev.flag FLT_STAT 4 = false) :=
  ⟨wOf (wNbr.setR (CMN_OWN 0 0) 2), 0, 0, cmnBase 0 + 24, 20, packetOf 0x20 2 0 0 1 1 9 0 (leBytes 8 (cmnBase 0 + 24) ++ leBytes 4 20) [], by decide⟩

theorem witness_FabricRequestsAndReplies_2 : ∃ (s : State) (q r ad n : Nat) (l : List Byte), (q < 8) ∧ (pktGood l = true ∧
  pktType l = 0x21) ∧ (s.dev.choked (pktPart l) = false) ∧ (s.dev.badAddress l = false) ∧ (n = rqLen l ∧ 1 ≤ n ∧ n ≤ 2048 ∧ n ≤
  (pktPay l).length) ∧ (ad = rqAddr l % 2 ^ 48) ∧ (r < 16) ∧ (cmnBase r ≤ ad ∧ ad % 0x40000 + n ≤ 0x40000 ∧ ad + n ≤ cmnBase r +
  0x400000) ∧ (s.dev.owns (pktPart l) r = true) ∧ (s.dev.ownsBank r ((ad - cmnBase r) / 0x40000) ownRouter = true) ∧ (s.dev.flag
  (CMN_OWN r ((ad - cmnBase r) / 0x40000)) 31 = false) ∧ (s.dev.cleanAt ad n = true) ∧ (s.dev.flag FLT_STAT 4 = false) :=
  ⟨wOf (wNbr.setR (CMN_OWN 0 0) 2), 0, 0, cmnBase 0 + 24, 20, packetOf 0x21 2 0 0 1 1 9 0 (leBytes 8 (cmnBase 0 + 24) ++ leBytes 4 20) (List.replicate 20 7#8), by decide⟩

theorem witness_FabricRequestsAndReplies_3 : ∃ (s : State) (q : Nat) (l : List Byte), (q < 8) ∧ (pktGood l = true ∧ pktType l =
  0x20) ∧ (s.dev.choked (pktPart l) = true) :=
  ⟨wOf (wD.setF (TAB_BSTAT 1) 16 3 4 |>.setFlag (FLT_PMUTE 1) 9 true), 0, packetOf 0x20 2 0 0 1 1 9 0 (leBytes 8 (cmnBase 0 + 24) ++ leBytes 4 20) [], by decide⟩

theorem witness_FabricRequestsAndReplies_4 : ∃ (s : State) (q : Nat) (l : List Byte), (q < 8) ∧ (pktGood l = true ∧ pktType l =
  0x21) ∧ (s.dev.choked (pktPart l) = true) :=
  ⟨wOf (wD.setF (TAB_BSTAT 1) 16 3 4 |>.setFlag (FLT_PMUTE 1) 9 true), 0, packetOf 0x21 2 0 0 1 1 9 0 (leBytes 8 (cmnBase 0 + 24) ++ leBytes 4 20) (List.replicate 20 7#8), by decide⟩

theorem witness_FabricRequestsAndReplies_5 : ∃ (s : State) (q : Nat) (l : List Byte), (q < 8) ∧ (pktGood l = true ∧ pktType l =
  0x50) ∧ (s.dev.choked (pktPart l) = true) :=
  ⟨wOf (wD.setF (TAB_BSTAT 1) 16 3 4 |>.setFlag (FLT_PMUTE 1) 9 true), 0, packetOf 0x50 2 0 0 1 1 9 0 (leBytes 8 (cmnBase 0 + 24) ++ leBytes 4 20) (List.replicate 20 7#8), by decide⟩

theorem witness_FabricRequestsAndReplies_6 : ∃ (s : State) (q : Nat) (l : List Byte), (q < 8) ∧ (pktGood l = true ∧ pktType l =
  0x20) ∧ (s.dev.choked (pktPart l) = false) ∧ (s.dev.badAddress l = true) :=
  ⟨wOf wNbr, 0, packetOf 0x20 2 0 0 1 1 9 0 (leBytes 8 (2 ^ 57 + cmnBase 0) ++ leBytes 4 20) [], by decide⟩

theorem witness_FabricRequestsAndReplies_7 : ∃ (s : State) (q : Nat) (l : List Byte), (q < 8) ∧ (pktGood l = true ∧ pktType l =
  0x21) ∧ (s.dev.choked (pktPart l) = false) ∧ (s.dev.badAddress l = true) :=
  ⟨wOf wNbr, 0, packetOf 0x21 2 0 0 1 1 9 0 (leBytes 8 (2 ^ 57 + cmnBase 0) ++ leBytes 4 20) [], by decide⟩

theorem witness_FabricRequestsAndReplies_8 : ∃ (s : State) (q : Nat) (l : List Byte), (q < 8) ∧ (pktGood l = true ∧ pktType l =
  0x50) ∧ (s.dev.choked (pktPart l) = false) ∧ (s.dev.badAddress l = true) :=
  ⟨wOf wNbr, 0, packetOf 0x50 2 0 0 1 1 9 0 (leBytes 8 (2 ^ 57 + cmnBase 0) ++ leBytes 4 20) [], by decide⟩

theorem witness_FabricRequestsAndReplies_9 : ∃ (s : State) (q r ad n : Nat) (l : List Byte), (q < 8) ∧ (pktGood l = true ∧
  pktType l = 0x50) ∧ (s.dev.choked (pktPart l) = false) ∧ (s.dev.badAddress l = false) ∧ (n = rqLen l ∧ 1 ≤ n ∧ n ≤ 2048 ∧ n ≤
  (pktPay l).length) ∧ (ad = rqAddr l % 2 ^ 48) ∧ (r < 16) ∧ (cmnBase r ≤ ad ∧ ad % 0x40000 + n ≤ 0x40000 ∧ ad + n ≤ cmnBase r +
  0x400000) ∧ (s.dev.owns (pktPart l) r = true) ∧ (s.dev.ownsBank r ((ad - cmnBase r) / 0x40000) ownRouter = true) ∧ (s.dev.flag
  (CMN_OWN r ((ad - cmnBase r) / 0x40000)) 31 = false) ∧ (s.dev.cleanAt ad n = true) ∧ (s.dev.flag FLT_STAT 4 = false) ∧
  (s.dev.bulks = []) :=
  ⟨wOf (wNbr.setR (CMN_OWN 0 0) 2), 0, 0, cmnBase 0 + 24, 20, packetOf 0x50 2 0 0 1 1 9 0 (leBytes 8 (cmnBase 0 + 24) ++ leBytes 4 20 ++ leBytes 2 5 ++ leBytes 2 0 ++ leBytes 2 3) (List.replicate 20 7#8), by decide⟩

theorem witness_FabricRequestsAndReplies_10 : ∃ (s : State) (k : Nat) (b : Bulk), (s.dev.bulks[k]? = some b) ∧ (b.die < 2) :=
  ⟨wOf { wNbr with bulks := [⟨0, 1, 1, 9, 5, 3, [0]⟩] }, 0, ⟨0, 1, 1, 9, 5, 3, [0]⟩, by decide⟩

theorem witness_FabricRequestsAndReplies_11 : ∃ (s : State) (q : Nat) (l : List Byte), (q < 8) ∧ (pktGood l = true ∧ pktType l =
  0x33) :=
  ⟨wS, 0, packetOf 0x33 3 0 0 1 1 9 0 [] [], by decide⟩

theorem witness_FabricRequestsAndReplies_12 : ∃ (s : State) (q r : Nat) (l : List Byte) (x : Req) (o : SOp), (q < 8) ∧ (r < 16)
  ∧ (pktGood l = true ∧ pktType l = 0x30 ∧ byteAt l 16 = 0 ∧ leAt l 20 4 = 8) ∧ (s.dev.reqs.find? (fun y => y.tag == pktTag l &&
  y.read) = some x) ∧ (x.read = true ∧ x.region = r ∧ x.off = 0 ∧ x.len = 8) ∧ (s.dev.opOf r x.id = some o) ∧ (dOpc o.desc = 4 ∧
  o.log = [] ∧ o.pieces = []) ∧ (∀ y, y ∈ (s.dev.score r).ops → y.held = false) ∧ (s.dev.seqPc r < 4095) :=
  ⟨wOf (wNbr.setScore 0 { (default : SCore) with ops := [⟨3, 4 :: zeros 15, 0, 0, false, [], [], false, false⟩], prog := [(0, [4, 0, 32] ++ zeros 13)] } |>.setSeq 0 2 0 |> (fun d => { d with reqs := [⟨9, true, 8, 0, 3, 0⟩] })), 0, 0, packetOf 0x30 3 0 0 1 1 9 0 (leBytes 4 0 ++ leBytes 4 8) (leBytes 8 0x1234567890), ⟨9, true, 8, 0, 3, 0⟩, ⟨3, 4 :: zeros 15, 0, 0, false, [], [], false, false⟩, by decide⟩

theorem witness_FabricRequestsAndReplies_13 : ∃ (s : State) (q r : Nat) (l : List Byte) (x : Req) (o : SOp), (q < 8) ∧ (r < 16)
  ∧ (pktGood l = true ∧ pktType l = 0x31) ∧ (s.dev.reqs.find? (fun y => y.tag == pktTag l && y.read == false) = some x) ∧
  (x.read = false ∧ x.region = r ∧ x.off = 0) ∧ (s.dev.opOf r x.id = some o) ∧ (dOpc o.desc = 5 ∧ o.log = [] ∧ o.pieces = []) ∧
  (∀ y, y ∈ (s.dev.score r).ops → y.held = false) ∧ (s.dev.seqPc r < 4095) :=
  ⟨wOf (wNbr.setScore 0 { (default : SCore) with ops := [⟨3, 5 :: zeros 15, 0, 0, false, [], [], false, false⟩], prog := [(0, [5, 0, 32] ++ zeros 13)] } |>.setSeq 0 2 0 |> (fun d => { d with reqs := [⟨9, false, 8, 0, 3, 0⟩] })), 0, 0, packetOf 0x31 3 0 0 1 1 9 0 [] [], ⟨9, false, 8, 0, 3, 0⟩, ⟨3, 5 :: zeros 15, 0, 0, false, [], [], false, false⟩, by decide⟩

theorem witness_FabricRequestsAndReplies_14 : ∃ (s : State) (q : Nat) (l : List Byte), (q < 8) ∧ (pktGood l = true ∧ pktType l =
  0x32) ∧ (s.dev.reqs.find? (fun y => y.tag == pktTag l) = none) :=
  ⟨wS, 0, packetOf 0x32 3 0 0 1 1 9 0 [] [], by decide⟩

theorem witness_FabricRequestsAndReplies_15 : ∃ (s : State) (q r : Nat) (l : List Byte) (x : Req) (o : SOp), (q < 8) ∧ (r < 16)
  ∧ (pktGood l = true ∧ pktType l = 0x32) ∧ (s.dev.reqs.find? (fun y => y.tag == pktTag l) = some x) ∧ (x.read = false ∧
  x.region = r ∧ x.off = 0) ∧ (s.dev.opOf r x.id = some o) ∧ (dOpc o.desc = 5 ∧ o.log = [] ∧ o.pieces = []) ∧ (∀ y, y ∈
  (s.dev.score r).ops → y.held = false) ∧ (s.dev.seqPc r < 4095) :=
  ⟨wOf (wNbr.setScore 0 { (default : SCore) with ops := [⟨3, 5 :: zeros 15, 0, 0, false, [], [], false, false⟩], prog := [(0, [5, 0, 32] ++ zeros 13)] } |>.setSeq 0 2 0 |> (fun d => { d with reqs := [⟨9, false, 8, 0, 3, 0⟩] })), 0, 0, packetOf 0x32 3 0 0 1 1 9 0 (leBytes 1 2) [], ⟨9, false, 8, 0, 3, 0⟩, ⟨3, 5 :: zeros 15, 0, 0, false, [], [], false, false⟩, by decide⟩

theorem witness_FabricRequestsAndReplies_16 : ∃ (s : State) (tag r : Nat) (x : Req) (o : SOp), (r < 16) ∧ (s.dev.reqs.find? (fun
  y => y.tag == tag) = some x) ∧ (x.region = r) ∧ (s.dev.opOf r x.id = some o) ∧ (dOpc o.desc = 5) ∧ (∀ y, y ∈ (s.dev.score
  r).ops → y.held = false) ∧ (s.dev.seqPc r < 4095) :=
  ⟨wOf (wNbr.setScore 0 { (default : SCore) with ops := [⟨3, 5 :: zeros 15, 0, 0, false, [], [], false, false⟩], prog := [(0, [5, 0, 32] ++ zeros 13)] } |>.setSeq 0 2 0 |> (fun d => { d with reqs := [⟨9, false, 8, 0, 3, 0⟩] })), 9, 0, ⟨9, false, 8, 0, 3, 0⟩, ⟨3, 5 :: zeros 15, 0, 0, false, [], [], false, false⟩, by decide⟩

theorem witness_FabricRequestsAndReplies_17 : ∃ (s : State) (tag r : Nat) (x : Req) (o : SOp), (r < 16) ∧ (s.dev.reqs.find? (fun
  y => y.tag == tag) = some x) ∧ (x.region = r) ∧ (s.dev.opOf r x.id = some o) ∧ (dOpc o.desc = 0x11 ∨ dOpc o.desc = 0x18) ∧ (∀
  y, y ∈ (s.dev.score r).ops → y.held = false) ∧ (s.dev.seqPc r < 4095) :=
  ⟨wOf (wNbr.setScore 0 { (default : SCore) with ops := [⟨3, 24 :: zeros 15, 0, 0, false, [], [], false, false⟩], prog := [(0, [24, 0, 32] ++ zeros 13)] } |>.setSeq 0 2 0 |> (fun d => { d with reqs := [⟨9, false, 8, 0, 3, 0⟩] })), 9, 0, ⟨9, false, 8, 0, 3, 0⟩, ⟨3, 24 :: zeros 15, 0, 0, false, [], [], false, false⟩, by decide⟩

theorem witness_TunnelCommandsAndEgress_1 : ∃ (s : State) (h : Hdr) (pl : List Byte) (w : Nat), (Accepted s.dev cEthPortConfig h
  pl) ∧ (w = byteAt pl 0) ∧ (w < 2) ∧ (byteAt pl 1 = 1 ∧ byteAt pl 2 < 6 ∧ byteAt pl 3 < 2) ∧ (s.dev.fld TAB_TLCTL 0 3 ≠ 3 + w)
  ∧ (s.dev.flag (TUN_PCFG w) 0 = true ∨ s.dev.portState (6 + w) = 0 ∨ s.dev.portState (6 + w) = 3) :=
  ⟨wS, wH, [1, 1, 2, 1] ++ [10, 0, 0, 7] ++ zeros 24, 1, by decide⟩

theorem witness_TunnelCommandsAndEgress_2 : ∃ (s : State) (h : Hdr) (pl : List Byte) (w : Nat), (Accepted s.dev cEthPortConfig h
  pl) ∧ (w = byteAt pl 0) ∧ (w < 2) ∧ (byteAt pl 1 = 0 ∧ byteAt pl 2 < 6 ∧ byteAt pl 3 < 2) ∧ (s.dev.fld TAB_TLCTL 0 3 ≠ 3 + w)
  :=
  ⟨wOf ((wD.setR (TUN_PCFG 1) 1).setF (FAB_PSTAT 1 3) 0 3 4), wH, 1 :: zeros 31, 1, by decide⟩

theorem witness_TunnelCommandsAndEgress_3 : ∃ (s : State) (h : Hdr) (pl : List Byte), (Accepted s.dev cSiteSet h pl) ∧ (leAt pl
  0 2 < 4096) ∧ (siteClean (slice pl 8 64) = true) ∧ (s.dev.regionsOf (sitePart (slice pl 8 64)) ≠ []) ∧ (s.dev.flag (TAB_BCTL
  (sitePart (slice pl 8 64))) 4 = true) ∧ (s.dev.flag (TUN_PCFG (sitePort (slice pl 8 64))) 0 = true) ∧ (siteValid (s.dev.site
  (leAt pl 0 2)) = true → s.dev.still (sitePart (s.dev.site (leAt pl 0 2))) = true) :=
  ⟨wOf ((wD.setR (TUN_PCFG 0) 1).setFlag (TAB_BCTL 1) 4 true), wH, leBytes 8 3 ++ ([1, 1] ++ leBytes 2 9 ++ zeros 2 ++ leBytes 2 4000 ++ zeros 36 ++ [10, 0, 0, 9] ++ zeros 16), by decide⟩

theorem witness_TunnelCommandsAndEgress_4 : ∃ (s : State) (h : Hdr) (pl : List Byte), (Accepted s.dev cSiteRead h pl) ∧ (leAt pl
  0 2 < 4096) ∧ (h.func = 0 ∨ (siteValid (s.dev.site (leAt pl 0 2)) = true ∧ sitePart (s.dev.site (leAt pl 0 2)) = h.func)) ∧
  (Fits s.dev h (s.dev.site (leAt pl 0 2)).length) :=
  ⟨wS, wH, leBytes 8 3, by decide⟩

theorem witness_TunnelCommandsAndEgress_5 : ∃ (s : State) (h : Hdr) (pl : List Byte), (Accepted s.dev cTunStatus h pl) :=
  ⟨wS, wH, [], by decide⟩

theorem witness_TunnelCommandsAndEgress_6 : ∃ (s : State) (k w : Nat) (x : TunPack), (s.dev.tunPacks[k]? = some x) ∧
  (s.dev.sitePortUp (s.dev.site x.site) = some w) ∧ (s.dev.datagramMax (s.dev.site x.site) ≤ x.recs.length ∨ (s.dev.dieDone 0
  x.part x.beat = true ∧ s.dev.dieDone 1 x.part x.beat = true)) :=
  ⟨wOf { wTun.setF TUN_LIMITS 0 14 52 with tunPacks := [⟨3, 1, 9, [5 * 2 ^ 41]⟩] }, 0, 0, ⟨3, 1, 9, [5 * 2 ^ 41]⟩, by decide⟩

theorem witness_TunnelCommandsAndEgress_7 : ∃ (s : State) (k w : Nat) (x : TunPack), (s.dev.tunPacks[k]? = some x) ∧
  (s.dev.sitePortUp (s.dev.site x.site) = some w) :=
  ⟨wOf { wTun with tunPacks := [⟨3, 1, 9, [5 * 2 ^ 41]⟩] }, 0, 0, ⟨3, 1, 9, [5 * 2 ^ 41]⟩, by decide⟩

theorem witness_TunnelCommandsAndEgress_8 : ∃ (s : State) (k : Nat) (x : TunPack), (s.dev.tunPacks[k]? = some x) ∧
  (s.dev.sitePortUp (s.dev.site x.site) = none) :=
  ⟨wOf { wD with tunPacks := [⟨3, 1, 9, [5 * 2 ^ 41]⟩] }, 0, ⟨3, 1, 9, [5 * 2 ^ 41]⟩, by decide⟩

theorem witness_TunnelCommandsAndEgress_9 : ∃ (s : State) (w : Nat), (w < 2) ∧ (s.dev.flag (TUN_PCFG w) 0 = true) :=
  ⟨wOf (wD.setR (TUN_PCFG 1) 1), 1, by decide⟩

theorem witness_TunnelCommandsAndEgress_10 : ∃ (s : State) (w : Nat), (w < 2) ∧ (s.dev.flag (TUN_PCFG w) 0 = true) :=
  ⟨wOf ((wD.setR (TUN_PCFG 1) 9).setF (TUN_PSTAT 1) 0 2 1), 1, by decide⟩

theorem witness_TunnelCommandsAndEgress_11 : ∃ (s : State) (w : Nat), (w < 2) ∧ (s.dev.flag (TUN_PCFG w) 0 = true) :=
  ⟨wOf (wD.setR (TUN_PCFG 1) 1), 1, by decide⟩

theorem witness_TunnelIngressAndPtp_1 : ∃ (s : State) (w : Nat) (frame : List Byte), (w < 2) ∧ (s.dev.ethUp w = true) :=
  ⟨wOf wTun, 0, zeros 60, by decide⟩

theorem witness_TunnelIngressAndPtp_2 : ∃ (s : State) (w : Nat) (frame : List Byte), (w < 2) ∧ (s.dev.ethUp w = true) ∧
  (frameBad frame = true) :=
  ⟨wOf wTun, 0, zeros 50, by decide⟩

theorem witness_TunnelIngressAndPtp_3 : ∃ (s : State) (w : Nat) (frame : List Byte), (w < 2) ∧ (s.dev.ethUp w = true) ∧
  (frameBad frame = false) ∧ (s.dev.keeps w (frame.take 6) = true ∧ etherType frame ≠ 0x88F7 ∧ s.dev.isTunnel frame = false) :=
  ⟨wOf wTun, 0, List.replicate 6 0xFF#8 ++ zeros 54, by decide⟩

theorem witness_TunnelIngressAndPtp_4 : ∃ (s : State) (w : Nat) (f : List Byte), (w < 2) ∧ (frameBad f = true ∨ s.dev.keeps w
  (f.take 6) = false) :=
  ⟨wOf wTun, 0, 1#8 :: wGram.drop 1, by decide⟩

theorem witness_TunnelIngressAndPtp_5 : ∃ (s : State) (w : Nat) (f : List Byte) (b : Bool), (w < 2) ∧ (s.dev.ethUp w = true ∧
  s.dev.flag TUN_CTL 0 = true) ∧ (frameBad f = false ∧ s.dev.keeps w (f.take 6) = true) ∧ (s.dev.unwrap w f = .error b) :=
  ⟨wOf wTun, 0, zeros 60, true, by decide⟩

theorem witness_TunnelIngressAndPtp_6 : ∃ (s : State) (w site n : Nat) (f src u : List Byte), (w < 2) ∧ (s.dev.ethUp w = true ∧
  s.dev.flag TUN_CTL 0 = true) ∧ (frameBad f = false ∧ s.dev.keeps w (f.take 6) = true) ∧ (s.dev.unwrap w f = .ok (src, u)) ∧
  (tunnelOk u = true) ∧ (site = beNat (slice u 2 2) ∧ n = beNat (slice u 14 2)) :=
  ⟨wOf wTun, 0, 3, 1, wGram, zeros 12 ++ [10, 0, 0, 9], wPay, by decide⟩

theorem witness_TunnelIngressAndPtp_7 : ∃ (s : State) (w site n g p : Nat) (f src u ent : List Byte), (w < 2) ∧ (s.dev.ethUp w =
  true ∧ s.dev.flag TUN_CTL 0 = true) ∧ (frameBad f = false ∧ s.dev.keeps w (f.take 6) = true) ∧ (s.dev.unwrap w f = .ok (src,
  u)) ∧ (tunnelOk u = true) ∧ (site = beNat (slice u 2 2) ∧ n = beNat (slice u 14 2)) ∧ (siteValid (s.dev.site site) = true ∧
  slice (s.dev.site site) 32 16 = src ∧ p = sitePart (s.dev.site site)) ∧ (seqCheck (s.dev.site site) (beNat (slice u 10 4)) =
  some (ent, g)) ∧ (ent.length = 64) :=
  ⟨wOf wTun, 0, 3, 1, 1, 1, wGram, zeros 12 ++ [10, 0, 0, 9], wPay, splice (splice wSite 52 (leBytes 4 1)) 56 (leBytes 8 1), by decide⟩

theorem witness_TunnelIngressAndPtp_8 : ∃ (s : State) (p : Nat), (p < 16) :=
  ⟨wOf { wTun with early := [⟨3, 9, [0]⟩, ⟨3, 10, [0, 0]⟩] }, 1, by decide⟩

theorem witness_TunnelIngressAndPtp_9 : ∃ (s : State) (h : Hdr) (pl : List Byte), (Accepted s.dev cPtpConfig h pl) ∧ (24 ≤
  byteAt pl 0 ∧ byteAt pl 0 ≤ 43) ∧ (byteAt pl 2 < 2) ∧ (byteAt pl 3 < 2) ∧ (s.dev.flag (TUN_PCFG (byteAt pl 3)) 0 = true) :=
  ⟨wOf (wD.setR (TUN_PCFG 1) 1), wH, [44 - 1, 5, 1, 1] ++ leBytes 4 77, by decide⟩

theorem witness_TunnelIngressAndPtp_10 : ∃ (s : State) (h : Hdr) (pl : List Byte), (Accepted s.dev cPtpStatus h pl) :=
  ⟨wS, wH, [], by decide⟩

theorem witness_TunnelIngressAndPtp_11 : ∃ (s : State) (w dt ts : Nat) (m : List Byte), (s.dev.ptpPort = some w) ∧ (byteAt m 4 =
  s.dev.fld TUN_PTPCFG 16 8) ∧ (34 ≤ m.length) ∧ (byteAt m 0 % 16 = 0xB) ∧ (s.dev.ptp.master = []) :=
  ⟨wOf ((wTun.setF TAB_TLCTL 0 3 3).setF TUN_PTPCFG 16 8 24), 0, 7, 5, 0x1B :: zeros 3 ++ [24] ++ zeros 60, by decide⟩

theorem witness_TunnelIngressAndPtp_12 : ∃ (s : State) (w dt ts : Nat) (m : List Byte), (s.dev.ptpPort = some w) ∧ (byteAt m 4 =
  s.dev.fld TUN_PTPCFG 16 8) ∧ (34 ≤ m.length) ∧ (byteAt m 0 % 16 = 0 ∧ bitAt (byteAt m 6) 1 = true) ∧ (s.dev.ptp.master = slice
  m 20 10) :=
  ⟨wOf (({ wTun with ptp := { wTun.ptp with master := zeros 10 } }.setF TAB_TLCTL 0 3 3).setF TUN_PTPCFG 16 8 24), 0, 7, 5, 0x10 :: zeros 3 ++ [24, 0, 2] ++ zeros 60, by decide⟩

theorem witness_TunnelIngressAndPtp_13 : ∃ (s : State), (s.dev.ptpPort.isSome = true) :=
  ⟨wOf ((wTun.setF TAB_TLCTL 0 3 3).setF TAB_TLSTAT 0 2 2), by decide⟩

theorem witness_TunnelIngressAndPtp_14 : ∃ (s : State) (ts w : Nat), (s.dev.ptpPort = some w) ∧ (s.dev.ptp.master ≠ []) ∧
  (s.dev.ethUp w = true) :=
  ⟨wOf ({ wTun with ptp := { wTun.ptp with master := zeros 10 } }.setF TAB_TLCTL 0 3 3), 5, 0, by decide⟩

theorem witness_HarvestCommands_1 : ∃ (s : State) (h : Hdr) (pl : List Byte) (q : Nat), (Accepted s.dev cRuleLoad h pl) ∧
  (NamesCore s.dev h.part (leAt pl 0 2) q) ∧ (s.dev.still h.part = true) ∧ (byteAt pl 2 < 16) ∧ (ruleOk (pl.drop 8) = true) :=
  ⟨wS, wH, leBytes 2 0 ++ [3] ++ zeros 5 ++ ([1, 1, 2, 3] ++ leBytes 4 0x00108000 ++ [0xF8, 7, 1, 0, 0] ++ zeros 3 ++ leBytes 4 0x08000001 ++ zeros 44), 0, by decide⟩

theorem witness_HarvestCommands_2 : ∃ (s : State) (h : Hdr) (pl : List Byte), (Accepted s.dev cRuleLoad h pl) ∧ (leAt pl 0 2 =
  0xFFFF) ∧ (s.dev.still h.part = true) ∧ (byteAt pl 2 < 16) ∧ (ruleOk (pl.drop 8) = true) :=
  ⟨wS, wH, leBytes 2 0xFFFF ++ [3] ++ zeros 5 ++ ([1, 1, 2, 3] ++ leBytes 4 0x00108000 ++ [0xF8, 7, 1, 0, 0] ++ zeros 3 ++ leBytes 4 0x08000001 ++ zeros 44), by decide⟩

theorem witness_HarvestCommands_3 : ∃ (s : State) (h : Hdr) (pl : List Byte) (q : Nat), (Accepted s.dev cRuleRead h pl) ∧
  (NamesCore s.dev h.part (leAt pl 0 2) q) ∧ (byteAt pl 2 < 16) :=
  ⟨wS, wH, zeros 8, 0, by decide⟩

theorem witness_HarvestCommands_4 : ∃ (s : State) (h : Hdr) (pl : List Byte), (Accepted s.dev cSeasonConfig h pl) ∧ (s.dev.still
  h.part = true) ∧ (0 < leAt pl 0 2 ∧ 0 < leAt pl 2 2 ∧ 0 < leAt pl 4 4 ∧ leAt pl 4 4 < 2 ^ 24) ∧ (leAt pl 0 2 ≠ s.dev.seasonLen
  h.part → s.dev.ckptTooFast h.part (s.dev.fld (TAB_BPERIOD h.part) 0 29) (leAt pl 0 2) = false) :=
  ⟨wS, wH, leBytes 2 1000 ++ leBytes 2 20 ++ leBytes 4 5000 ++ [7] ++ zeros 7, by decide⟩

theorem witness_HarvestCommands_5 : ∃ (s : State) (h : Hdr) (pl : List Byte), (Accepted s.dev cModSet h pl) :=
  ⟨wS, wH, [0x40, 0] ++ leBytes 6 70000, by decide⟩

theorem witness_HarvestCommands_6 : ∃ (s : State) (h : Hdr) (pl : List Byte), (Accepted s.dev cSeedSet h pl) ∧ (s.dev.still
  h.part = true) ∧ (leAt pl 0 4 ≠ 0) :=
  ⟨wS, wH, leBytes 4 77 ++ zeros 4, by decide⟩

theorem witness_HarvestCommands_7 : ∃ (s : State) (h : Hdr) (pl : List Byte) (q : Nat), (Accepted s.dev cRevLoad h pl) ∧
  (NamesCore s.dev h.part (leAt pl 0 2) q) ∧ (s.dev.still h.part = true) ∧ (leAt pl 2 2 ≤ s.dev.areaLen (SYN_PMREV q) / 4) ∧
  (leAt pl 4 4 + leAt pl 8 4 ≤ s.dev.areaLen (SYN_PMREV q) / 4) :=
  ⟨wOf (wD.setR (SYN_PMREV 0) 0x102), wH, leBytes 2 0 ++ leBytes 2 2 ++ leBytes 4 1 ++ leBytes 4 2 ++ zeros 4 ++ [1, 2, 3, 4, 5, 6, 7, 8], 0, by decide⟩

theorem witness_HarvestCommands_8 : ∃ (s : State) (h : Hdr) (pl : List Byte) (q : Nat), (Accepted s.dev cHrvStatus h pl) ∧
  (NamesCore s.dev h.part (leAt pl 0 2) q) :=
  ⟨wS, wH, zeros 8, 0, by decide⟩

theorem witness_HarvestEngine_1 : ∃ (s : State) (q p pos : Nat), (q < 256) ∧ (s.dev.hrvPart q = some p) ∧ (s.dev.nextPost q =
  some pos) ∧ (s.dev.hrvJob q p = 2) ∧ (s.dev.fld (HRV_REVCFG q) 0 16 ≤ leAt (s.dev.rdB (s.dev.flBase q + 8 * pos) 8) 0 2) :=
  ⟨wOf wPost, 0, 1, 0, by decide⟩

theorem witness_HarvestEngine_2 : ∃ (s : State) (q p pos i w l : Nat) (x : List Byte) (loc : RowLoc) (y : Syn), (q < 256) ∧
  (s.dev.hrvPart q = some p) ∧ (s.dev.nextPost q = some pos) ∧ (s.dev.hrvJob q p = 2) ∧ (s.dev.ecc = []) ∧ (x = s.dev.rdB
  (s.dev.flBase q + 8 * pos) 8) ∧ (i = leAt x 0 2 ∧ i < s.dev.fld (HRV_REVCFG q) 0 16 ∧ 4 * i + 4 ≤ s.dev.areaLen (SYN_PMREV q))
  ∧ (bitsOf (s.dev.rdN (s.dev.areaBase q (SYN_PMREV q) + 4 * i) 4) 0 14 = 1) ∧ (4 * bitsOf (s.dev.rdN (s.dev.areaBase q
  (SYN_PMREV q) + 4 * i) 4) 14 18 + 4 ≤ s.dev.areaLen (SYN_PMREV q)) ∧ (w = s.dev.rdN (s.dev.areaBase q (SYN_PMREV q) + 4 *
  bitsOf (s.dev.rdN (s.dev.areaBase q (SYN_PMREV q) + 4 * i) 4) 14 18) 4) ∧ (l = bitsOf w 5 10 ∧ l < 64) ∧ (s.dev.poisonAt q
  (bitsOf w 15 17) = none) ∧ (s.dev.resolve q (bitsOf w 15 17) = some loc) ∧ (loc.fmt = 5) ∧ (bitAt (hdrFlags (s.dev.rdB loc.hdr
  (fmtHeader 5))) 0 = true) ∧ (y = synOf 5 (s.dev.rdB loc.hdr (fmtHeader 5)) (s.dev.rdB loc.body 128) l) ∧ (y.target = i) ∧
  (ruleValid (s.dev.rule q (hdrRule 5 (s.dev.rdB loc.hdr (fmtHeader 5)))) = true) ∧ (ruleTerms (s.dev.rule q (hdrRule 5
  (s.dev.rdB loc.hdr (fmtHeader 5)))) 1 = []) :=
  ⟨wOf wPost1, 0, 1, 0, 0, 12313 * 32768, 0, [0, 0, 0, 1, 9, 0, 0, 0], ⟨5, 1099512020992, 1099512021792, 1099512152064⟩, ⟨0, 5, 2, 0x34, 0⟩, by decide⟩

theorem witness_HarvestEngine_3 : ∃ (s : State) (q p k : Nat) (u : Nat), (q < 256) ∧ (s.dev.hrvPart q = some p) ∧ (s.dev.hrvJob
  q p = 3) ∧ (s.dev.running p = true) ∧ (k = s.dev.fld (HRV_HPTR q) 0 17) ∧ (((s.dev.readPos q k).2 = .passed ∧ u = 1) ∨
  (s.dev.readPos q k).2 = .listed u) :=
  ⟨wOf (((((wCore.setR (SYN_ZCFG 0 0) 0x80060204).setR (SYN_ZROWS 0 0) 4096).setR (SYN_ZFIRST 0 0) 4096).setR (HRV_BUDGET 0) 100).setR (HRV_STAT 0) 1), 0, 1, 0, 1, by decide⟩

theorem witness_HarvestEngine_4 : ∃ (s : State) (q p k n f ra : Nat), (q < 256) ∧ (s.dev.hrvPart q = some p) ∧ (s.dev.hrvJob q p
  = 3) ∧ (s.dev.running p = true) ∧ (k = s.dev.fld (HRV_HPTR q) 0 17) ∧ (s.dev.posRa q (s.dev.plasticZones q) k = some (f, ra) ∧
  ra < 2 ^ 17) ∧ ((s.dev.readPos q k).2 = .bad n) :=
  ⟨wOf { (((((wCore.setR (SYN_ZCFG 0 0) 0x80050204).setR (SYN_ZROWS 0 0) 100).setR (SYN_ZFIRST 0 0) 8217).setR (HRV_BUDGET 0) 100).setR (HRV_STAT 0) 1) with ecc := [(1099511889920, 2)] }, 0, 1, 0, 1, 5, 8217, by decide⟩

theorem witness_HarvestEngine_5 : ∃ (s : State) (q p k : Nat) (x : PRow), (q < 256) ∧ (s.dev.hrvPart q = some p) ∧ (s.dev.hrvJob
  q p = 3) ∧ (s.dev.running p = true) ∧ (k = s.dev.fld (HRV_HPTR q) 0 17) ∧ ((s.dev.readPos q k).2 = .row x) :=
  ⟨wOf (((((wCore.setR (SYN_ZCFG 0 0) 0x80050204).setR (SYN_ZROWS 0 0) 100).setR (SYN_ZFIRST 0 0) 8217).setR (HRV_BUDGET 0) 100).setR (HRV_STAT 0) 1), 0, 1, 0, ⟨5, 8217, 1, 1099511889920, 1099511890720, zeros 16, zeros 128⟩, by decide⟩

theorem witness_HarvestEngine_6 : ∃ (s : State) (q p : Nat), (q < 256) ∧ (s.dev.hrvPart q = some p) ∧ ((s.dev.core q).hOver =
  true) :=
  ⟨wOf ((wCore.setR (HRV_STAT 0) 1).setCore 0 { wCore.core 0 with hOver := true }), 0, 1, by decide⟩

theorem witness_HarvestEngine_7 : ∃ (s : State) (q p k : Nat) (sw : Nat × Nat) (rest : List (Nat × Nat)), (q < 256) ∧
  (s.dev.hrvPart q = some p) ∧ (s.dev.hrvJob q p = 1) ∧ ((s.dev.core q).sweeps = sw :: rest) ∧ (k = s.dev.fld (HRV_SWEEP q) 0 17
  % max 1 (s.dev.npos q)) :=
  ⟨wOf (wCore.setCore 0 { wCore.core 0 with sweeps := [(3, 9)] }), 0, 1, 0, (3, 9), [], by decide⟩

theorem witness_Checkpoints_1 : ∃ (s : State) (h : Hdr) (pl : List Byte) (b : Nat), (Accepted s.dev cCkptConfig h pl) ∧
  (s.dev.harvestOn h.part = false) ∧ (b = 1 + ceilDiv (s.dev.imageLen h.part (bitAt (byteAt pl 0) 2)) 65536) ∧ (leAt pl 2 2 ≠ 0)
  ∧ (bitAt (byteAt pl 0) 0 = true → 2 ≤ leAt pl 4 4 / b ∧ keepTicks ≤ leAt pl 4 4 / b * leAt pl 2 2 * s.dev.seasonLen h.part *
  s.dev.fld (TAB_BPERIOD h.part) 0 29) ∧ (bitAt (byteAt pl 0) 1 = true → 128 + s.dev.imageLen h.part (bitAt (byteAt pl 0) 2) ≤
  leAt pl 16 8 ∧ leAt pl 8 8 % 64 = 0) ∧ (leAt pl 4 4 ≤ (s.dev.part h.part).ckpt.quota) :=
  ⟨wS, wH, [2, 0] ++ leBytes 2 4 ++ leBytes 4 0 ++ leBytes 8 0x10000 ++ leBytes 8 2000000 ++ zeros 8, 20, by decide⟩

theorem witness_Checkpoints_2 : ∃ (s : State) (h : Hdr) (pl : List Byte), (Accepted s.dev cCkptNow h pl) ∧ (s.dev.harvestOn
  h.part = false) ∧ ((s.dev.part h.part).ckpt.copy = none) ∧ (bitAt (s.dev.part h.part).ckpt.flags 0 = true) ∧ (s.dev.keepPaced
  h.part = true) ∧ (s.dev.muted h.part = false) ∧ (1 + ceilDiv (s.dev.imageLen h.part (bitAt (s.dev.part h.part).ckpt.flags 2))
  65536 ≤ (s.dev.part h.part).ckpt.blocks) ∧ (s.dev.newestSlot h.part = none) :=
  ⟨wOf (wRun.setPart 1 { (wRun.part 1) with ckpt := { (wRun.part 1).ckpt with flags := 1, blocks := 20, nslot := 2 } }), wH, [], by decide⟩

theorem witness_Checkpoints_3 : ∃ (s : State) (h : Hdr) (pl : List Byte), (Accepted s.dev cCkptNow h pl) ∧ (s.dev.harvestOn
  h.part = false) ∧ ((s.dev.part h.part).ckpt.copy = none) ∧ (bitAt (s.dev.part h.part).ckpt.flags 0 = false) ∧ (bitAt
  (s.dev.part h.part).ckpt.flags 1 = true) ∧ (s.dev.muted h.part = false) :=
  ⟨wOf (wRun.setPart 1 { (wRun.part 1) with ckpt := { (wRun.part 1).ckpt with flags := 2 } }), wH, [], by decide⟩

theorem witness_Checkpoints_4 : ∃ (s : State) (h : Hdr) (pl : List Byte) (x : Nat × List Byte) (f u off q : Nat) (data : List
  Byte), (Accepted s.dev cCkptRestore h pl) ∧ (s.dev.still h.part = true ∨ s.dev.bstate h.part = 4) ∧ (s.dev.newestSlot h.part =
  some x) ∧ (payRecs (leAt x.2 28 4) (x.2.drop 128) = [(2, f, u, off, data)]) ∧ (s.dev.recordInside h.part (2, f, u, off, data)
  = true) ∧ (s.dev.physOf u = some q) :=
  ⟨wOf wCk, wH, [], (0, wSlot), 0, 0, 0x20000, 0, [7, 8, 9, 10], wCk_meets⟩

theorem witness_Checkpoints_5 : ∃ (s : State) (h : Hdr) (pl : List Byte), (Accepted s.dev cCkptStatus h pl) :=
  ⟨wS, wH, [], by decide⟩

theorem witness_Checkpoints_6 : ∃ (s : State) (h : Hdr) (pl : List Byte), (Accepted s.dev cCkptQuota h pl) ∧ (byteAt pl 0 < 16)
  ∧ (bitAt (s.dev.part (byteAt pl 0)).ckpt.flags 0 = false) ∧ ((((upTo 16).filter (· ≠ byteAt pl 0)).map (fun k => (s.dev.part
  k).ckpt.quota)).sum + leAt pl 4 4 ≤ 14336) :=
  ⟨wS, wH, [1, 0, 0, 0] ++ leBytes 4 500, by decide⟩

theorem witness_Checkpoints_7 : ∃ (s : State) (p n q0 : Nat) (qs : List Nat), (s.dev.sitesOf p = q0 :: qs) ∧ (n = s.dev.rg
  (HRV_SEASONNO q0)) ∧ ((s.dev.part p).ckpt.flags % 4 = 1 ∧ s.dev.running p = true ∧ s.dev.muted p = false) ∧ (0 < n ∧ n % max 1
  (s.dev.part p).ckpt.every = 0 ∧ (s.dev.part p).ckpt.saved ≠ some n) ∧ (∀ q, q ∈ s.dev.sitesOf p → s.dev.flag (HRV_STAT q) 2 =
  true ∧ s.dev.flag (HRV_STAT q) 0 = false ∧ s.dev.rg (HRV_SEASONNO q) = n ∧ (s.dev.core q).hOver = false) ∧ (s.dev.tendOn p =
  false ∧ (s.dev.part p).ckpt.copy = none) ∧ (s.dev.keepPaced p = false) :=
  ⟨wOf ((wRun.forEach (wRun.sitesOf 1) (fun d q => (d.setR (HRV_SEASONNO q) 2).setR (HRV_STAT q) 4)).setPart 1 { (wRun.part 1) with ckpt := { (wRun.part 1).ckpt with flags := 1, commit := some 0, nslot := 2 } }), 1, 2, 0, [1, 2, 3, 4, 5, 6, 7, 8, 9, 10, 11, 12, 13, 14, 15, 16, 17], by decide⟩

theorem witness_Checkpoints_8 : ∃ (s : State) (p n q0 : Nat) (qs : List Nat), (s.dev.sitesOf p = q0 :: qs) ∧ (n = s.dev.rg
  (HRV_SEASONNO q0)) ∧ ((s.dev.part p).ckpt.flags % 4 = 2 ∧ s.dev.running p = true ∧ s.dev.muted p = false) ∧ (0 < n ∧ n % max 1
  (s.dev.part p).ckpt.every = 0 ∧ (s.dev.part p).ckpt.saved ≠ some n) ∧ (∀ q, q ∈ s.dev.sitesOf p → s.dev.flag (HRV_STAT q) 2 =
  true ∧ s.dev.flag (HRV_STAT q) 0 = false ∧ s.dev.rg (HRV_SEASONNO q) = n ∧ (s.dev.core q).hOver = false) ∧ (s.dev.tendOn p =
  false ∧ (s.dev.part p).ckpt.copy = none) :=
  ⟨wOf ((wRun.forEach (wRun.sitesOf 1) (fun d q => (d.setR (HRV_SEASONNO q) 2).setR (HRV_STAT q) 4)).setPart 1 { (wRun.part 1) with ckpt := { (wRun.part 1).ckpt with flags := 2 } }), 1, 2, 0, [1, 2, 3, 4, 5, 6, 7, 8, 9, 10, 11, 12, 13, 14, 15, 16, 17], by decide⟩

theorem witness_Checkpoints_9 : ∃ (s : State) (p slot seq : Nat), ((s.dev.part p).ckpt.copy = some (slot, seq)) ∧ ((s.dev.part
  p).ckpt.toKeep = true) :=
  ⟨wOf (wRun.setPart 1 { (wRun.part 1) with ckpt := { (wRun.part 1).ckpt with copy := some (1, 7), toKeep := true, image := [1, 2, 3] } }), 1, 1, 7, by decide⟩

theorem witness_Checkpoints_10 : ∃ (s : State) (p slot seq : Nat), ((s.dev.part p).ckpt.copy = some (slot, seq)) ∧ ((s.dev.part
  p).ckpt.toHost = true ∧ (s.dev.part p).ckpt.toKeep = false) ∧ (s.dev.flag (PCI_DMACFG (2 * p + 1)) 31 = true) ∧ (p = 0 →
  s.dev.d3hot = false) ∧ (s.dev.car.waiting = []) :=
  ⟨wOf ((wRun.setFlag (PCI_DMACFG 3) 31 true).setPart 1 { (wRun.part 1) with ckpt := { (wRun.part 1).ckpt with copy := some (1, 7), toHost := true, image := zeros 128 ++ [1, 2, 3] } }), 1, 1, 7, by decide⟩

theorem witness_TensorCommands_1 : ∃ (s : State) (h : Hdr) (pl : List Byte) (g n gk gn : Nat), (Accepted s.dev cGangForm h pl) ∧
  (g = byteAt pl 0 ∧ n = byteAt pl 1 ∧ gk = byteAt pl 2 ∧ gn = byteAt pl 3) ∧ (g < 16 ∧ 0 < n ∧ n ≤ 16 ∧ gk * gn = n) ∧
  (s.dev.gangMembers h.part g = []) ∧ (∀ i, i < n → byteAt pl (8 + 4 * i) < 16 ∧ s.dev.owns h.part (byteAt pl (8 + 4 * i)) =
  true ∧ s.dev.tcoreBad (byteAt pl (8 + 4 * i)) = false ∧ (s.dev.tcore (byteAt pl (8 + 4 * i))).running = false ∧ s.dev.gangOf
  (byteAt pl (8 + 4 * i)) = none ∧ byteAt pl (9 + 4 * i) / 16 < gk ∧ byteAt pl (9 + 4 * i) % 16 < gn) ∧ (s.dev.flag FLT_STAT 4 =
  true → ∀ i, i < n → byteAt pl (8 + 4 * i) < 8) ∧ (∀ i, i < n → ∀ j, j < n → i ≠ j → byteAt pl (8 + 4 * i) ≠ byteAt pl (8 + 4 *
  j) ∧ byteAt pl (9 + 4 * i) ≠ byteAt pl (9 + 4 * j)) :=
  ⟨wOf wOn, wH, [3, 2, 1, 2] ++ zeros 4 ++ [0, 0, 5, 0] ++ [1, 1, 9, 0], 3, 2, 1, 2, by decide⟩

theorem witness_TensorCommands_2 : ∃ (s : State) (h : Hdr) (pl : List Byte), (Accepted s.dev cGangRelease h pl) ∧ (byteAt pl 0 <
  16) ∧ (s.dev.gangMembers h.part (byteAt pl 0) ≠ []) ∧ (∀ r, r ∈ s.dev.gangMembers h.part (byteAt pl 0) → ∀ x, x ∈ (s.dev.tcore
  r).queue → bitAt (byteAt x.1 2) 7 = false) :=
  ⟨wOf wGang, wH, [3] ++ zeros 7, by decide⟩

theorem witness_TensorCommands_3 : ∃ (s : State) (h : Hdr) (pl : List Byte) (m : Nat) (ms : List Nat), (Accepted s.dev
  cGangStatus h pl) ∧ (byteAt pl 0 < 16) ∧ (s.dev.gangMembers h.part (byteAt pl 0) = m :: ms) ∧ (∀ r, r ∈ m :: ms → (s.dev.tcore
  r).running = false) :=
  ⟨wOf wGang, wH, [3] ++ zeros 7, 0, [1], by decide⟩

theorem witness_TensorCommands_4 : ∃ (s : State) (h : Hdr) (pl : List Byte) (r : Nat), (Accepted s.dev cTcoreSubmit h pl) ∧ (r =
  byteAt pl 0 ∧ r < 16) ∧ (s.dev.owns h.part r = true ∧ s.dev.tcoreBad r = false) ∧ ((s.dev.tcore r).queue.length < 8) :=
  ⟨wOf wOn, wH, [1] ++ zeros 7 ++ wMm, 1, by decide⟩

theorem witness_TensorCommands_5 : ∃ (s : State) (h : Hdr) (pl : List Byte), (Accepted s.dev cTcoreStatus h pl) ∧ (byteAt pl 0 <
  16) ∧ (s.dev.owns h.part (byteAt pl 0) = true ∧ s.dev.tcoreBad (byteAt pl 0) = false) :=
  ⟨wOf wOn, wH, [1] ++ zeros 7, by decide⟩

theorem witness_TensorCommands_6 : ∃ (s : State) (h : Hdr) (pl : List Byte) (r : Nat), (Accepted s.dev cTcoreAbort h pl) ∧ (r =
  byteAt pl 0 ∧ r < 16) ∧ (s.dev.owns h.part r = true ∧ s.dev.tcoreBad r = false) ∧ ((s.dev.tcore r).running = true ∧
  s.dev.headGanged r = false) :=
  ⟨wOf wMat, wH, zeros 8, 0, by decide⟩

theorem witness_TensorCommands_7 : ∃ (s : State) (h : Hdr) (pl : List Byte) (r : Nat), (Accepted s.dev cTcoreAbort h pl) ∧ (r =
  byteAt pl 0 ∧ r < 16) ∧ (s.dev.owns h.part r = true ∧ s.dev.tcoreBad r = false) ∧ ((s.dev.tcore r).running = false ∧
  (s.dev.tcore r).queue.length ≤ 8) :=
  ⟨wOf (wMat.setTcore 0 { wMat.tcore 0 with running := false }), wH, zeros 8, 0, by decide⟩

theorem witness_TensorCommands_8 : ∃ (s : State) (h : Hdr) (pl : List Byte), (Accepted s.dev cTcoreSeed h pl) ∧ (∀ r, r ∈
  maskBits 16 (leAt pl 0 2) → s.dev.owns h.part r = true ∧ s.dev.tcoreBad r = false ∧ (s.dev.tcore r).running = false) ∧ (byteAt
  pl 2 = 1) :=
  ⟨wOf wOn, wH, leBytes 2 3 ++ [1, 0] ++ leBytes 4 99, by decide⟩

theorem witness_TensorCommands_9 : ∃ (s : State) (f r v : Nat), (r < 16) ∧ (WriteOk s.dev (.func f) (TCR_DQPUSH r 15)) ∧
  ((s.dev.tcore r).queue.length < 8) :=
  ⟨wOf (wOn.setTcore 0 { wOn.tcore 0 with push := [(0, 1), (2, 77)] }), 1, 0, 2 ^ 32 + 5, by decide⟩

theorem witness_TensorCommands_10 : ∃ (s : State) (f r v : Nat), (r < 16) ∧ (WriteOk s.dev (.func f) (TCR_DQPUSH r 15)) ∧ (8 ≤
  (s.dev.tcore r).queue.length) :=
  ⟨wOf (wOn.setTq 0 (List.replicate 8 ([], false))), 1, 0, 5, by decide⟩

theorem witness_TensorCommands_11 : ∃ (s : State) (f r : Nat), (r < 16) ∧ (WriteOk s.dev (.func f) (TCR_CTL r)) ∧ ((s.dev.tcore
  r).running = true ∧ s.dev.headGanged r = false) :=
  ⟨wOf wMat, 1, 0, by decide⟩

theorem witness_TensorCommands_12 : ∃ (s : State) (f r : Nat), (r < 16) ∧ (WriteOk s.dev (.func f) (TCR_CTL r)) ∧ ((s.dev.tcore
  r).running = true ∧ s.dev.headGanged r = true) :=
  ⟨wOf (wMat.setTcore 0 { wMat.tcore 0 with queue := [(wMm.set 2 0x83, false)] }), 1, 0, by decide⟩

theorem witness_TensorOps_1 : ∃ (s : State) (r : Nat) (st : Status) (q : List Byte × Bool) (rest : List (List Byte × Bool)), (r
  < 16) ∧ ((s.dev.tcore r).queue = q :: rest) ∧ ((s.dev.tcore r).running = false ∧ s.dev.gangWaits r = false ∧ s.dev.flag
  (TCR_CTL r) 0 = true ∧ s.dev.domLevel (domOf r 4) = 2) ∧ ((s.dev.regPart r).any s.dev.choked = false) ∧ ((s.dev.topOf r
  (s.dev.tcHead r)).check (s.dev.gangOf r) (s.dev.planePeriod r) s.dev.rho (s.dev.muted ((s.dev.regPart r).getD 0)) = some st)
  :=
  ⟨wOf ((wMat.setTcore 0 { wMat.tcore 0 with running := false, queue := [(wMm.set 0 9, false)] })), 0, .badOpcode, (wMm.set 0 9, false), [], by decide⟩

theorem witness_TensorOps_2 : ∃ (s : State) (r : Nat), (r < 16) ∧ ((s.dev.tcore r).queue ≠ []) ∧ ((s.dev.tcore r).running =
  false ∧ s.dev.gangWaits r = false ∧ s.dev.flag (TCR_CTL r) 0 = true ∧ s.dev.domLevel (domOf r 4) = 2) ∧ ((s.dev.regPart r).any
  s.dev.choked = false) ∧ ((s.dev.topOf r (s.dev.tcHead r)).check (s.dev.gangOf r) (s.dev.planePeriod r) s.dev.rho (s.dev.muted
  ((s.dev.regPart r).getD 0)) = none) ∧ (bitAt (s.dev.topOf r (s.dev.tcHead r)).gang 7 = false) :=
  ⟨wOf (wMat.setTcore 0 { wMat.tcore 0 with running := false }), 0, by decide⟩

theorem witness_TensorOps_3 : ∃ (s : State) (r : Nat), (r < 16) ∧ ((s.dev.tcore r).queue ≠ []) ∧ ((s.dev.tcore r).running =
  false ∧ s.dev.gangWaits r = false ∧ s.dev.flag (TCR_CTL r) 0 = true ∧ s.dev.domLevel (domOf r 4) = 2) ∧ ((s.dev.regPart r).any
  s.dev.choked = false) ∧ ((s.dev.topOf r (s.dev.tcHead r)).check (s.dev.gangOf r) (s.dev.planePeriod r) s.dev.rho (s.dev.muted
  ((s.dev.regPart r).getD 0)) = none) ∧ (bitAt (s.dev.topOf r (s.dev.tcHead r)).gang 7 = true) :=
  ⟨wOf ((wMat.setR (TCR_GANG 0) (2 ^ 31 + 3 * 2 ^ 24)).setTcore 0 { wMat.tcore 0 with running := false, queue := [(wMm.set 2 0x83, false)] }), 0, by decide⟩

theorem witness_TensorOps_4 : ∃ (s : State) (r k : Nat) (x : List Byte) (rest : List (List Byte × Bool)) (o : TOp), (r < 16) ∧
  ((s.dev.tcore r).running = true ∧ (s.dev.tcore r).queue = (x, false) :: rest) ∧ ((s.dev.tcore r).abort = false ∧ (s.dev.tcore
  r).plErr = false) ∧ (o = s.dev.topOf r (s.dev.tcHead r) ∧ o.op = 1) ∧ (o.check (s.dev.gangOf r) (s.dev.planePeriod r)
  s.dev.rho (s.dev.muted ((s.dev.regPart r).getD 0)) = none) ∧ (s.dev.ecc = []) :=
  ⟨wOf (wOpD 1), 0, 1, wOpX 1, [], (wOpD 1).topOf 0 (wOpX 1), by decide⟩

theorem witness_TensorOps_5 : ∃ (s : State) (r k : Nat) (x : List Byte) (rest : List (List Byte × Bool)) (o : TOp), (r < 16) ∧
  ((s.dev.tcore r).running = true ∧ (s.dev.tcore r).queue = (x, false) :: rest) ∧ ((s.dev.tcore r).abort = false ∧ (s.dev.tcore
  r).plErr = false) ∧ (o = s.dev.topOf r (s.dev.tcHead r) ∧ o.op = 2) ∧ (o.check (s.dev.gangOf r) (s.dev.planePeriod r)
  s.dev.rho (s.dev.muted ((s.dev.regPart r).getD 0)) = none) ∧ (s.dev.ecc = []) :=
  ⟨wOf (wOpD 2), 0, 1, wOpX 2, [], (wOpD 2).topOf 0 (wOpX 2), by decide⟩

theorem witness_TensorOps_6 : ∃ (s : State) (r k : Nat) (x : List Byte) (rest : List (List Byte × Bool)) (o : TOp), (r < 16) ∧
  ((s.dev.tcore r).running = true ∧ (s.dev.tcore r).queue = (x, false) :: rest) ∧ ((s.dev.tcore r).abort = false ∧ (s.dev.tcore
  r).plErr = false) ∧ (o = s.dev.topOf r (s.dev.tcHead r) ∧ o.op = 3) ∧ (o.check (s.dev.gangOf r) (s.dev.planePeriod r)
  s.dev.rho (s.dev.muted ((s.dev.regPart r).getD 0)) = none) ∧ (s.dev.ecc = []) :=
  ⟨wOf (wOpD 3), 0, 1, wOpX 3, [], (wOpD 3).topOf 0 (wOpX 3), by decide⟩

theorem witness_TensorOps_7 : ∃ (s : State) (r k : Nat) (x : List Byte) (rest : List (List Byte × Bool)) (o : TOp), (r < 16) ∧
  ((s.dev.tcore r).running = true ∧ (s.dev.tcore r).queue = (x, false) :: rest) ∧ ((s.dev.tcore r).abort = false ∧ (s.dev.tcore
  r).plErr = false) ∧ (o = s.dev.topOf r (s.dev.tcHead r) ∧ o.op = 4) ∧ (o.check (s.dev.gangOf r) (s.dev.planePeriod r)
  s.dev.rho (s.dev.muted ((s.dev.regPart r).getD 0)) = none) ∧ (s.dev.ecc = []) ∧ ((s.dev.tcore r).muteHit = false ∧ s.dev.muted
  ((s.dev.regPart r).getD 0) = false) :=
  ⟨wOf (wOpD 4), 0, 1, wOpX 4, [], (wOpD 4).topOf 0 (wOpX 4), by decide⟩

theorem witness_TensorOps_8 : ∃ (s : State) (r k : Nat) (x : List Byte) (rest : List (List Byte × Bool)) (o : TOp), (r < 16) ∧
  ((s.dev.tcore r).running = true ∧ (s.dev.tcore r).queue = (x, false) :: rest) ∧ ((s.dev.tcore r).abort = false ∧ (s.dev.tcore
  r).plErr = false) ∧ (o = s.dev.topOf r (s.dev.tcHead r) ∧ o.op = 5) ∧ (o.check (s.dev.gangOf r) (s.dev.planePeriod r)
  s.dev.rho (s.dev.muted ((s.dev.regPart r).getD 0)) = none) ∧ (s.dev.ecc = []) :=
  ⟨wOf (wOpD 5), 0, 1, wOpX 5, [], (wOpD 5).topOf 0 (wOpX 5), by decide⟩

theorem witness_TensorOps_9 : ∃ (s : State) (r k : Nat) (x : List Byte) (rest : List (List Byte × Bool)) (o : TOp), (r < 16) ∧
  ((s.dev.tcore r).running = true ∧ (s.dev.tcore r).queue = (x, false) :: rest) ∧ ((s.dev.tcore r).abort = false ∧ (s.dev.tcore
  r).plErr = false) ∧ (o = s.dev.topOf r (s.dev.tcHead r) ∧ o.op = 6) ∧ (o.check (s.dev.gangOf r) (s.dev.planePeriod r)
  s.dev.rho (s.dev.muted ((s.dev.regPart r).getD 0)) = none) ∧ (s.dev.ecc = []) :=
  ⟨wOf (wOpD 6), 0, 1, wOpX 6, [], (wOpD 6).topOf 0 (wOpX 6), by decide⟩

theorem witness_TensorOps_10 : ∃ (s : State) (r k : Nat) (x : List Byte) (rest : List (List Byte × Bool)) (o : TOp), (r < 16) ∧
  ((s.dev.tcore r).running = true ∧ (s.dev.tcore r).queue = (x, false) :: rest) ∧ ((s.dev.tcore r).abort = false ∧ (s.dev.tcore
  r).plErr = false) ∧ (o = s.dev.topOf r (s.dev.tcHead r) ∧ o.op = 7) ∧ (o.check (s.dev.gangOf r) (s.dev.planePeriod r)
  s.dev.rho (s.dev.muted ((s.dev.regPart r).getD 0)) = none) ∧ (s.dev.ecc = []) :=
  ⟨wOf (wOpD 7), 0, 1, wOpX 7, [], (wOpD 7).topOf 0 (wOpX 7), by decide⟩

theorem witness_TensorOps_11 : ∃ (s : State) (p g : Nat), (s.dev.gangMembers p g ≠ []) ∧ (∀ r, r ∈ s.dev.gangMembers p g →
  s.dev.gangWaits r = true) ∧ (s.dev.partPlane p = false) :=
  ⟨wOf (wGang.forEach [0, 1] (fun d r => (d.setTq r [(wMm.set 2 0x83, false)]).setFlag (TCR_STAT r) 3 true)), 1, 3, by decide⟩

theorem witness_TensorOps_12 : ∃ (s : State) (p g : Nat), (∃ r, r ∈ s.dev.gangMembers p g ∧ s.dev.gangWaits r = false) ∧ (∀ r, r
  ∈ s.dev.gangMembers p g → (s.dev.tcore r).plErr = false) :=
  ⟨wOf ((wGang.setTq 0 [(wMm.set 2 0x83, false)]).setFlag (TCR_STAT 0) 3 true), 1, 3, by decide⟩

theorem witness_IntegerMatmulIsExact_1 : ∃ (s : State) (r k i j : Nat) (x : List Byte) (rest : List (List Byte × Bool)) (o :
  TOp), (r < 16) ∧ ((s.dev.tcore r).running = true ∧ (s.dev.tcore r).queue = (x, false) :: rest ∧ (s.dev.tcore r).abort = false)
  ∧ (o = s.dev.topOf r (s.dev.tcHead r) ∧ o.op = 1 ∧ o.fl = 0) ∧ (o.a.fmt = 0 ∧ o.b.fmt = 0 ∧ o.c.fmt = 8 ∧ o.a.smode = 0 ∧
  o.b.smode = 0 ∧ o.c.smode = 0 ∧ o.c.plane = 0) ∧ (o.c.addr + (o.m - 1) * o.c.stride + 4 * o.n ≤ 2 ^ 21 ∧ 4 * o.n ≤ o.c.stride)
  ∧ (o.c.addr + (o.m - 1) * o.c.stride + 4 * o.n ≤ o.a.addr ∨ o.a.addr + (o.m - 1) * o.a.stride + o.k ≤ o.c.addr) ∧ (o.c.addr +
  (o.m - 1) * o.c.stride + 4 * o.n ≤ o.b.addr ∨ o.b.addr + (o.n - 1) * o.b.stride + o.k ≤ o.c.addr) ∧ (s.dev.ecc = []) ∧ (i <
  o.m ∧ j < o.n) :=
  ⟨wOf wMat, 0, 1, 1, 1, wMm, [], wMat.topOf 0 wMm, by decide⟩

theorem witness_QueueCommands_1 : ∃ (s : State) (h : Hdr) (pl : List Byte) (r f n : Nat), (Accepted s.dev cSeqLoad h pl) ∧ (r =
  byteAt pl 0 ∧ f = leAt pl 2 2 ∧ n = leAt pl 4 2) ∧ (r < 16 ∧ s.dev.owns h.part r = true ∧ s.dev.scoreBad r = false) ∧ (f + n ≤
  4096) ∧ (s.dev.seqState r = 0) :=
  ⟨wOf wOn, wH, leBytes 2 0 ++ leBytes 2 5 ++ leBytes 2 2 ++ zeros 2 ++ (List.replicate 16 1#8) ++ zeros 16, 0, 5, 2, by decide⟩

theorem witness_QueueCommands_2 : ∃ (s : State) (h : Hdr) (pl : List Byte) (r : Nat), (Accepted s.dev cSeqControl h pl) ∧ (r =
  byteAt pl 0 ∧ byteAt pl 1 = 0 ∧ leAt pl 2 2 < 4096) ∧ (r < 16 ∧ s.dev.owns h.part r = true ∧ s.dev.scoreBad r = false) ∧
  (s.dev.seqState r = 1) :=
  ⟨wOf wSeq, wH, zeros 8, 0, by decide⟩

theorem witness_QueueCommands_3 : ∃ (s : State) (h : Hdr) (pl : List Byte) (r : Nat), (Accepted s.dev cSeqControl h pl) ∧ (r =
  byteAt pl 0 ∧ byteAt pl 1 = 1 ∧ leAt pl 2 2 < 4096) ∧ ((s.dev.regPart r).all s.dev.choked = false) ∧ (r < 16 ∧ s.dev.owns
  h.part r = true ∧ s.dev.scoreBad r = false) :=
  ⟨wOf wOn, wH, [0, 1] ++ leBytes 2 77 ++ zeros 4, 0, by decide⟩

theorem witness_QueueCommands_4 : ∃ (s : State) (h : Hdr) (pl : List Byte) (r : Nat), (Accepted s.dev cSeqControl h pl) ∧ (r =
  byteAt pl 0 ∧ byteAt pl 1 = 2 ∧ leAt pl 2 2 < 4096) ∧ (r < 16 ∧ s.dev.owns h.part r = true ∧ s.dev.scoreBad r = false) ∧ (∀ q,
  q < 8 → (s.dev.combq r q).held = []) :=
  ⟨wOf (wSeq.setG 0 3 99), wH, [0, 2] ++ zeros 6, 0, by decide⟩

theorem witness_QueueCommands_5 : ∃ (s : State) (h : Hdr) (pl : List Byte), (Accepted s.dev cSeqStatus h pl) ∧ (byteAt pl 0 < 16
  ∧ s.dev.owns h.part (byteAt pl 0) = true ∧ s.dev.scoreBad (byteAt pl 0) = false) :=
  ⟨wOf wSeq, wH, zeros 8, by decide⟩

theorem witness_QueueCommands_6 : ∃ (s : State) (h : Hdr) (pl : List Byte) (r c : Nat), (Accepted s.dev cChanConfig h pl) ∧ (r =
  byteAt pl 0 ∧ c = byteAt pl 1 ∧ byteAt pl 2 < 3 ∧ byteAt pl 3 < 2) ∧ (r < 16 ∧ c < 32 ∧ s.dev.owns h.part r = true) ∧
  (QuietQueues s.dev r) :=
  ⟨wOf (wOn.setChan 0 4 [⟨List.replicate 64 1#8, .nobody⟩]), wH, [0, 4, 0, 1] ++ zeros 4, 0, 4, by decide⟩

theorem witness_QueueCommands_7 : ∃ (s : State) (h : Hdr) (pl : List Byte) (r c : Nat), (Accepted s.dev cChanSend h pl) ∧ (r =
  byteAt pl 0 ∧ c = byteAt pl 1 ∧ byteAt pl 2 = 0) ∧ (r < 16 ∧ c < 32 ∧ s.dev.owns h.part r = true) ∧ (QuietQueues s.dev r) ∧
  (s.dev.chState r c = 0 ∧ s.dev.stage r c = [] ∧ (s.dev.chan r c).length < 16) :=
  ⟨wOf (wOn.chanOpen 0 4), wH, [0, 4, 0] ++ zeros 5 ++ List.replicate 64 7#8, 0, 4, by decide⟩

theorem witness_QueueCommands_8 : ∃ (s : State) (h : Hdr) (pl : List Byte) (r c : Nat) (m : Msg) (rest : List Msg), (Accepted
  s.dev cChanRecv h pl) ∧ (r = byteAt pl 0 ∧ c = byteAt pl 1 ∧ leAt pl 4 4 ≤ 1000000) ∧ (r < 16 ∧ c < 32 ∧ s.dev.owns h.part r =
  true ∧ s.dev.chHost r c = true) ∧ (QuietQueues s.dev r) ∧ (s.dev.chan r c = m :: rest ∧ s.dev.stage r c = [] ∧ m.data.length =
  64) :=
  ⟨wOf ((wOn.setFlag (QUE_CHCTL 0 4) 3 true).setChan 0 4 [⟨List.replicate 64 1#8, .nobody⟩]), wH, [0, 4] ++ zeros 6, 0, 4, ⟨List.replicate 64 1#8, .nobody⟩, [], by decide⟩

theorem witness_QueueCommands_9 : ∃ (s : State) (h : Hdr) (pl : List Byte) (r c : Nat), (Accepted s.dev cChanRecv h pl) ∧ (r =
  byteAt pl 0 ∧ c = byteAt pl 1 ∧ 0 < leAt pl 4 4 ∧ leAt pl 4 4 ≤ 1000000) ∧ (r < 16 ∧ c < 32 ∧ s.dev.owns h.part r = true ∧
  s.dev.chHost r c = true) ∧ (s.dev.chan r c = [] ∧ s.dev.chState r c = 0) :=
  ⟨wOf ((wOn.setFlag (QUE_CHCTL 0 4) 3 true).chanOpen 0 4), wH, [0, 4, 0, 0] ++ leBytes 4 500, 0, 4, by decide⟩

theorem witness_QueueCommands_10 : ∃ (s : State) (h : Hdr) (pl : List Byte), (Accepted s.dev cQueStatus h pl) ∧ (byteAt pl 0 <
  16 ∧ s.dev.owns h.part (byteAt pl 0) = true) :=
  ⟨wS, wH, zeros 8, by decide⟩

theorem witness_QueueCommands_11 : ∃ (s : State) (h : Hdr) (pl : List Byte) (r q : Nat), (Accepted s.dev cCqConfig h pl) ∧ (r =
  byteAt pl 0 ∧ q = byteAt pl 1 ∧ byteAt pl 2 < 3 ∧ byteAt pl 3 < 32 ∧ leAt pl 4 2 ≠ 0) ∧ (r < 16 ∧ q < 8 ∧ s.dev.owns h.part r
  = true) :=
  ⟨wS, wH, [0, 3, 1, 9] ++ leBytes 2 300 ++ zeros 2, 0, 3, by decide⟩

theorem witness_QueueCommands_12 : ∃ (s : State) (h : Hdr) (pl : List Byte) (r b : Nat), (Accepted s.dev cCommonsOwn h pl) ∧ (r
  = byteAt pl 0 ∧ b = byteAt pl 1 ∧ byteAt pl 2 = 0) ∧ (r < 16 ∧ b < 16 ∧ s.dev.owns h.part r = true) ∧ (byteAt pl 3 ≤ 2 ∧
  s.dev.bankOwner r b false ≠ 3 ∧ s.dev.bankOwner r b false ≠ 4) ∧ (h.func = 0 ∨ s.dev.seqState r = 0) :=
  ⟨wS, wH, [0, 3, 0, 2] ++ zeros 4, 0, 3, by decide⟩

theorem witness_QueueCommands_13 : ∃ (s : State) (h : Hdr) (pl : List Byte), (Accepted s.dev cCmnStatus h pl) ∧ (byteAt pl 0 <
  16 ∧ s.dev.owns h.part (byteAt pl 0) = true) :=
  ⟨wS, wH, zeros 8, by decide⟩

theorem witness_QueueCommands_14 : ∃ (s : State) (f tag : Nat), True :=
  ⟨wOf { wOn with car := { wOn.car with waiting := [{ opcode := 0x0906, names := true, ro := false, hdr := wH, pl := [0, 4, 0, 0] ++ leBytes 4 500, what := .chan 0 4 }] } }, 0, 5, by decide⟩

theorem witness_QueueCommands_15 : ∃ (s : State) (r c k : Nat) (m : Msg), (r < 16 ∧ c < 32) ∧ ((s.dev.stage r c)[k]? = some m) ∧
  (QuietQueues s.dev r) ∧ (m.sender = .nobody) :=
  ⟨wOf (wOn.setStage 0 4 [⟨[1], .nobody⟩, ⟨[2], .nobody⟩]), 0, 4, 1, ⟨[2], .nobody⟩, by decide⟩

theorem witness_QueueCommands_16 : ∃ (s : State) (r b : Nat), (r < 16 ∧ b < 16) ∧ (s.dev.heldAcc = []) ∧ (∀ k, k < 16 → ∀ o, o ∈
  (s.dev.score k).ops → o.held = false) :=
  ⟨wOf (wOn.setR (CMN_OWN 0 3) 0x80000002), 0, 3, by decide⟩

theorem witness_QueueCommands_17 : ∃ (s : State) (q r b ad n : Nat) (l : List Byte), (q < 8 ∧ r < 16 ∧ b < 16) ∧ (s.dev.heldAcc
  = [.request q 0x21 l]) ∧ (∀ k, k < 16 → ∀ o, o ∈ (s.dev.score k).ops → o.held = false) ∧ (pktGood l = true ∧ pktType l = 0x21)
  ∧ (s.dev.choked (pktPart l) = false) ∧ (s.dev.badAddress l = false) ∧ (n = rqLen l ∧ 1 ≤ n ∧ n ≤ 2048 ∧ n ≤ (pktPay l).length)
  ∧ (ad = rqAddr l % 2 ^ 48) ∧ (cmnBase r + 0x40000 * b ≤ ad ∧ ad + n ≤ cmnBase r + 0x40000 * b + 0x40000) ∧ (s.dev.owns
  (pktPart l) r = true) ∧ (s.dev.ownsBank r b ownRouter = true) ∧ (s.dev.cleanAt ad n = true) ∧ (s.dev.flag FLT_STAT 4 = false)
  :=
  ⟨wOf { wNbr.setR (CMN_OWN 0 0) 0x80000002 with heldAcc := [.request 0 0x21 (packetOf 0x21 2 0 0 1 1 9 0 (leBytes 8 (cmnBase 0 + 24) ++ leBytes 4 20) (List.replicate 20 7#8))] }, 0, 0, 0, cmnBase 0 + 24, 20, packetOf 0x21 2 0 0 1 1 9 0 (leBytes 8 (cmnBase 0 + 24) ++ leBytes 4 20) (List.replicate 20 7#8), by decide⟩

theorem witness_QueueCommands_18 : ∃ (s : State) (r c : Nat) (rest : List (Nat × Bool × Bool)), (r < 16 ∧ c < 8) ∧ ((s.dev.score
  r).acks = (c, false, true) :: rest) :=
  ⟨wOf ((wSeq.setR (SEQ_OUTST 0) 3).setScore 0 { wSeq.score 0 with acks := [(2, false, true)] }), 0, 2, [], by decide⟩

theorem witness_QueueCommands_19 : ∃ (s : State) (r c : Nat) (ref : Bool) (rest : List (Nat × Bool × Bool)), (r < 16 ∧ c < 8) ∧
  ((s.dev.score r).acks = (c, ref, false) :: rest) ∧ (s.dev.seqState r = 2 ∧ s.dev.seqPc r + 1 < 4096) ∧ (ref = false) :=
  ⟨wOf ((wSeq.setSeq 0 2 0).setScore 0 { wSeq.score 0 with acks := [(2, false, false)] }), 0, 2, false, [], by decide⟩

theorem witness_QueueRegisterWrites_1 : ∃ (s : State) (ag : Agent) (r : Nat), (r < 16) ∧ (WriteOk s.dev ag (SEQ_CTL r)) ∧
  ((s.dev.regPart r).all s.dev.choked = false) :=
  ⟨wOf (wOn.setR (SEQ_ENTRY 0) 40), .func 1, 0, by decide⟩

theorem witness_QueueRegisterWrites_2 : ∃ (s : State) (ag : Agent) (r : Nat), (r < 16) ∧ (WriteOk s.dev ag (SEQ_CTL r)) :=
  ⟨wOf wSeq, .func 1, 0, by decide⟩

theorem witness_QueueRegisterWrites_3 : ∃ (s : State) (ag : Agent) (r : Nat), (r < 16) ∧ (WriteOk s.dev ag (SEQ_CTL r)) ∧ (∀ q,
  q < 8 → (s.dev.combq r q).held = []) :=
  ⟨wOf (wSeq.setG 0 3 99), .func 1, 0, by decide⟩

theorem witness_QueueRegisterWrites_4 : ∃ (s : State) (ag : Agent) (r c : Nat) (bytes : List Byte), (r < 16 ∧ c < 32 ∧
  bytes.length = 64) ∧ (s.dev.reachesW ag (QUE_CHIN r c) = true) ∧ (QuietQueues s.dev r) ∧ (s.dev.chState r c = 0 ∧ s.dev.stage
  r c = [] ∧ (s.dev.chan r c).length < 16) :=
  ⟨wOf (wOn.chanOpen 0 4), .func 1, 0, 4, List.replicate 64 7#8, by decide⟩

theorem witness_QueueRegisterWrites_5 : ∃ (s : State) (ag : Agent) (r c : Nat) (bytes : List Byte), (r < 16 ∧ c < 32 ∧
  bytes.length = 64) ∧ (s.dev.reachesW ag (QUE_CHIN r c) = true) ∧ (QuietQueues s.dev r) ∧ (s.dev.chState r c ≠ 0) :=
  ⟨wOf (wOn.setF (QUE_CHSTAT 0 4) 16 2 1), .func 1, 0, 4, List.replicate 64 7#8, by decide⟩

theorem witness_QueueRegisterWrites_6 : ∃ (s : State) (ag : Agent) (r c : Nat) (bytes : List Byte), (r < 16 ∧ c < 32 ∧
  bytes.length ≠ 64) ∧ (s.dev.reachesW ag (QUE_CHIN r c) = true) :=
  ⟨wOf wOn, .func 1, 0, 4, List.replicate 8 7#8, by decide⟩

theorem witness_QueueRegisterWrites_7 : ∃ (s : State) (ag : Agent) (r c : Nat), (r < 16 ∧ c < 32) ∧ (WriteOk s.dev ag (QUE_CHCTL
  r c)) :=
  ⟨wOf (wOn.setF (QUE_CHSTAT 0 4) 16 2 1), .func 1, 0, 4, by decide⟩

theorem witness_QueueRegisterWrites_8 : ∃ (s : State) (ag : Agent) (r c : Nat), (r < 16 ∧ c < 32) ∧ (WriteOk s.dev ag (QUE_CHCTL
  r c)) ∧ (QuietQueues s.dev r) :=
  ⟨wOf ((wOn.chanOpen 0 4).setStage 0 4 [⟨[1], .nobody⟩, ⟨[2], .nobody⟩]), .func 1, 0, 4, by decide⟩

theorem witness_QueueRegisterWrites_9 : ∃ (s : State) (ag : Agent) (r c : Nat), (r < 16 ∧ c < 32) ∧ (WriteOk s.dev ag (QUE_CHCTL
  r c)) ∧ (QuietQueues s.dev r) :=
  ⟨wOf ((wOn.chanOpen 0 4).setChan 0 4 [⟨[1], .nobody⟩, ⟨[2], .nobody⟩]), .func 1, 0, 4, by decide⟩

theorem witness_QueueRegisterWrites_10 : ∃ (s : State) (ag : Agent) (r q n : Nat) (bytes : List Byte), (r < 16 ∧ q < 8 ∧
  bytes.length = 64) ∧ (s.dev.reachesW ag (QUE_CQIN r q) = true) ∧ (s.dev.flag (QUE_CQCFG r q) 31 = true ∧ (s.dev.combq r
  q).wait = false) ∧ (QuietQueues s.dev r) ∧ (n = s.dev.fld (QUE_CQSTAT r q) 0 16 ∧ n + 1 < s.dev.fld (QUE_CQCFG r q) 0 16) :=
  ⟨wOf ((wOn.setR (QUE_CQCFG 0 3) 0x82000005).setCombq 0 3 { wOn.combq 0 3 with lanes := [2000000000, -5] }), .func 1, 0, 3, 0, leBytes 4 2000000000 ++ leBytes 4 3 ++ zeros 56, by decide⟩

theorem witness_QueueRegisterWrites_11 : ∃ (s : State) (ag : Agent) (r q n c : Nat) (bytes : List Byte), (r < 16 ∧ q < 8 ∧
  bytes.length = 64) ∧ (s.dev.reachesW ag (QUE_CQIN r q) = true) ∧ (s.dev.flag (QUE_CQCFG r q) 31 = true ∧ (s.dev.combq r
  q).wait = false) ∧ (QuietQueues s.dev r) ∧ (n = s.dev.fld (QUE_CQSTAT r q) 0 16 ∧ s.dev.fld (QUE_CQCFG r q) 0 16 ≤ n + 1) ∧ (c
  = s.dev.cqChan r q ∧ s.dev.chState r c = 0 ∧ s.dev.stage r c = [] ∧ (s.dev.chan r c).length < 16) :=
  ⟨wOf (((wOn.setR (QUE_CQCFG 0 3) 0x82000001).setCombq 0 3 { wOn.combq 0 3 with lanes := [2000000000, -5] }).chanOpen 0 2), .func 1, 0, 3, 0, 2, leBytes 4 2000000000 ++ leBytes 4 3 ++ zeros 56, by decide⟩

theorem witness_QueueRegisterWrites_12 : ∃ (s : State) (ag : Agent) (r q : Nat), (r < 16 ∧ q < 8) ∧ (WriteOk s.dev ag (QUE_CQCFG
  r q)) :=
  ⟨wOf ((wOn.setR (QUE_CQCFG 0 3) 0x82000001).setCombq 0 3 { wOn.combq 0 3 with lanes := [2000000000, -5] }), .func 1, 0, 3, by decide⟩

theorem witness_QueueRegisterWrites_13 : ∃ (s : State) (ag : Agent) (r b v : Nat), (r < 16 ∧ b < 15) ∧ (WriteOk s.dev ag
  (CMN_OWN r b)) ∧ (v % 16 ≤ 2) ∧ (s.dev.bankOwner r b false = bankAgent ag r ∨ s.dev.bankOwner r b false = 0) :=
  ⟨wOf wOn, .score 0, 0, 3, 1, by decide⟩

theorem witness_QueueRegisterWrites_14 : ∃ (s : State) (ag : Agent) (r b v : Nat), (r < 16 ∧ b < 15) ∧ (WriteOk s.dev ag
  (CMN_OWN r b)) ∧ (s.dev.bankOwner r b false ≠ bankAgent ag r ∧ s.dev.bankOwner r b false ≠ 0) :=
  ⟨wOf (wOn.setR (CMN_OWN 0 3) 1), .func 1, 0, 3, 0, by decide⟩

theorem witness_ScalarDescriptors_1 : ∃ (s : State) (r : Nat) (x : List Byte), (AtDesc s.dev r 0 x) ∧ (s.dev.seqPc r + 1 < 4096)
  :=
  ⟨wOf (wAt (wSeq) ([0, 0, 0, 0] ++ leBytes 4 0 ++ leBytes 8 (0))), 0, ([0, 0, 0, 0] ++ leBytes 4 0 ++ leBytes 8 (0)), by decide⟩

theorem witness_ScalarDescriptors_2 : ∃ (s : State) (r : Nat) (x : List Byte), (AtDesc s.dev r 1 x) :=
  ⟨wOf (wAt (wSeq) ([1, 0, 0, 0] ++ leBytes 4 5 ++ leBytes 8 (0))), 0, ([1, 0, 0, 0] ++ leBytes 4 5 ++ leBytes 8 (0)), by decide⟩

theorem witness_ScalarDescriptors_3 : ∃ (s : State) (r : Nat) (x : List Byte), (AtDesc s.dev r 2 x) ∧ (s.dev.seqPc r + 1 < 4096)
  :=
  ⟨wOf (wAt (wSeq) ([2, 0, 0x30, 0] ++ leBytes 4 0 ++ leBytes 8 (12345))), 0, ([2, 0, 0x30, 0] ++ leBytes 4 0 ++ leBytes 8 (12345)), by decide⟩

theorem witness_ScalarDescriptors_4 : ∃ (s : State) (r : Nat) (x : List Byte), (AtDesc s.dev r 3 x) ∧ (s.dev.seqPc r + 1 < 4096)
  :=
  ⟨wOf (wAt (wSeq.setG 0 1 5) ([3, 0, 0x31, 0] ++ leBytes 4 0xFFFFFFFE ++ leBytes 8 (0))), 0, ([3, 0, 0x31, 0] ++ leBytes 4 0xFFFFFFFE ++ leBytes 8 (0)), by decide⟩

theorem witness_ScalarDescriptors_5 : ∃ (s : State) (r : Nat) (x : List Byte) (a8 : Nat), (AtDesc s.dev r 4 x) ∧ (s.dev.seqPc r
  + 1 < 4096) ∧ (FreshOp s.dev r) ∧ (OwnCommons s.dev r ((dAddr x + s.dev.greg r (dGs x)) % 2 ^ 64) a8 8 ∧ a8 % 8 = 0) ∧ ((dAddr
  x + s.dev.greg r (dGs x)) % 8 = 0) :=
  ⟨wOf (wAt (wCmn.wrN (cmnBase 0 + 64) 8 0x123456789A) ([4, 0, 0x31, 0] ++ leBytes 4 0 ++ leBytes 8 (cmnBase 0 + 64))), 0, ([4, 0, 0x31, 0] ++ leBytes 4 0 ++ leBytes 8 (cmnBase 0 + 64)), cmnBase 0 + 64, by decide⟩

theorem witness_ScalarDescriptors_6 : ∃ (s : State) (r : Nat) (x : List Byte) (ea : Nat), (AtDesc s.dev r 4 x) ∧ (FreshOp s.dev
  r) ∧ (ea = (dAddr x + s.dev.greg r (dGs x)) % 2 ^ 64 ∧ ea % 8 = 0 ∧ (dAddr x + s.dev.greg r (dGs x)) % 8 = 0) ∧ (ea < 2 ^ 57 ∧
  s.dev.present (bitsOf ea 48 9) = true ∧ bitsOf ea 48 9 ≠ s.dev.devId) ∧ ((s.dev.reqs.filter (fun q => q.region == r)).length <
  64) :=
  ⟨wOf (wAt (wSeqN) ([4, 0, 0x31, 0] ++ leBytes 4 0 ++ leBytes 8 (2 ^ 48 + cmnBase 0 + 64))), 0, ([4, 0, 0x31, 0] ++ leBytes 4 0 ++ leBytes 8 (2 ^ 48 + cmnBase 0 + 64)), 2 ^ 48 + cmnBase 0 + 64, by decide⟩

theorem witness_ScalarDescriptors_7 : ∃ (s : State) (r : Nat) (x : List Byte), (AtDesc s.dev r 4 x) ∧ ((dAddr x + s.dev.greg r
  (dGs x)) % 8 ≠ 0) :=
  ⟨wOf (wAt (wSeq) ([4, 0, 0x31, 0] ++ leBytes 4 0 ++ leBytes 8 (4))), 0, ([4, 0, 0x31, 0] ++ leBytes 4 0 ++ leBytes 8 (4)), by decide⟩

theorem witness_ScalarDescriptors_8 : ∃ (s : State) (r : Nat) (x : List Byte) (a8 : Nat), (AtDesc s.dev r 5 x) ∧ (s.dev.seqPc r
  + 1 < 4096) ∧ (FreshOp s.dev r) ∧ (OwnCommons s.dev r ((dAddr x + s.dev.greg r (dGs x)) % 2 ^ 64) a8 8 ∧ a8 % 8 = 0) ∧ ((dAddr
  x + s.dev.greg r (dGs x)) % 8 = 0) :=
  ⟨wOf (wAt (wCmn.setG 0 3 0x1122334455667788) ([5, 0, 0x31, 0] ++ leBytes 4 0 ++ leBytes 8 (cmnBase 0 + 64))), 0, ([5, 0, 0x31, 0] ++ leBytes 4 0 ++ leBytes 8 (cmnBase 0 + 64)), cmnBase 0 + 64, by decide⟩

theorem witness_ScalarDescriptors_9 : ∃ (s : State) (r : Nat) (x : List Byte), (AtDesc s.dev r 5 x) ∧ ((dAddr x + s.dev.greg r
  (dGs x)) % 8 ≠ 0) :=
  ⟨wOf (wAt (wSeq) ([5, 0, 0x31, 0] ++ leBytes 4 0 ++ leBytes 8 (4))), 0, ([5, 0, 0x31, 0] ++ leBytes 4 0 ++ leBytes 8 (4)), by decide⟩

theorem witness_ScalarDescriptors_10 : ∃ (s : State) (r : Nat) (x : List Byte) (n : Nat), (AtDesc s.dev r 6 x) ∧ (s.dev.seqPc r
  + 1 < 4096) ∧ (n = (if branchTaken (dCh x) (s.dev.greg r (dGd x)) then dImm x else s.dev.seqPc r + 1) ∧ n < 4096) :=
  ⟨wOf (wAt (wSeq) ([6, 0, 0x30, 1] ++ leBytes 4 100 ++ leBytes 8 (0))), 0, ([6, 0, 0x30, 1] ++ leBytes 4 100 ++ leBytes 8 (0)), 100, by decide⟩

theorem witness_ScalarDescriptors_11 : ∃ (s : State) (r : Nat) (x : List Byte), (AtDesc s.dev r 6 x) ∧ (branchTaken (dCh x)
  (s.dev.greg r (dGd x)) = true ∧ 4096 ≤ dImm x) :=
  ⟨wOf (wAt (wSeq) ([6, 0, 0x30, 1] ++ leBytes 4 4096 ++ leBytes 8 (0))), 0, ([6, 0, 0x30, 1] ++ leBytes 4 4096 ++ leBytes 8 (0)), by decide⟩

theorem witness_ScalarDescriptors_12 : ∃ (s : State) (r : Nat) (x : List Byte) (g n : Nat), (AtDesc s.dev r 7 x) ∧ (s.dev.seqPc
  r + 1 < 4096) ∧ (g = (s.dev.greg r (dGd x) + 2 ^ 64 - 1) % 2 ^ 64) ∧ (n = (if g = 0 then s.dev.seqPc r + 1 else dImm x) ∧ n <
  4096) :=
  ⟨wOf (wAt (wSeq.setG 0 3 2) ([7, 0, 0x30, 0] ++ leBytes 4 100 ++ leBytes 8 (0))), 0, ([7, 0, 0x30, 0] ++ leBytes 4 100 ++ leBytes 8 (0)), 1, 100, by decide⟩

theorem witness_ScalarDescriptors_13 : ∃ (s : State) (r : Nat) (x : List Byte), (AtDesc s.dev r 11 x) ∧ (s.dev.seqPc r + 1 <
  4096) :=
  ⟨wOf (wAt (wSeq.setR (QUE_CHSTAT 0 4) 77) ([11, 0, 0x30, 4] ++ leBytes 4 0 ++ leBytes 8 (0))), 0, ([11, 0, 0x30, 4] ++ leBytes 4 0 ++ leBytes 8 (0)), by decide⟩

theorem witness_ScalarDescriptors_14 : ∃ (s : State) (r : Nat) (x : List Byte), (AtDesc s.dev r 12 x) ∧ (s.dev.seqPc r + 1 <
  4096) ∧ (dImm x % 8 = 1) ∧ (WriteOk s.dev (.score r) (QUE_CHCTL r (dCh x))) :=
  ⟨wOf (wAt (wSeq.setF (QUE_CHSTAT 0 4) 16 2 1) ([12, 0, 0, 4] ++ leBytes 4 1 ++ leBytes 8 (0))), 0, ([12, 0, 0, 4] ++ leBytes 4 1 ++ leBytes 8 (0)), by decide⟩

theorem witness_ScalarDescriptors_15 : ∃ (s : State) (r : Nat) (x : List Byte), (AtDesc s.dev r 13 x) ∧ (s.dev.seqPc r + 1 <
  4096) :=
  ⟨wOf (wAt (wSeq.setG 0 3 7) ([13, 2, 0x30, 0] ++ leBytes 4 0 ++ leBytes 8 (0))), 0, ([13, 2, 0x30, 0] ++ leBytes 4 0 ++ leBytes 8 (0)), by decide⟩

theorem witness_ScalarDescriptors_16 : ∃ (s : State) (r : Nat) (x : List Byte), (AtDesc s.dev r 14 x) ∧ (s.dev.seqPc r + 1 <
  4096) :=
  ⟨wOf (wAt (wSeq.setG 0 3 7) ([14, 0, 0x30, 0] ++ leBytes 4 0 ++ leBytes 8 (0))), 0, ([14, 0, 0x30, 0] ++ leBytes 4 0 ++ leBytes 8 (0)), by decide⟩

theorem witness_ScalarDescriptors_17 : ∃ (s : State) (r : Nat), (r < 16) ∧ (s.dev.waitsAt r 13 2 = true ∧ s.dev.seqPc r + 1 <
  4096) ∧ (s.dev.waitcOk r (s.dev.seqDesc r) = true) :=
  ⟨wOf ((wAt wSeq ([13, 2, 0x30, 0] ++ leBytes 4 0 ++ leBytes 8 (0))).setSeq 0 2 2), 0, by decide⟩

theorem witness_ScalarDescriptors_18 : ∃ (s : State) (r : Nat), (r < 16) ∧ (s.dev.waitsAt r 14 3 = true ∧ s.dev.seqPc r + 1 <
  4096) ∧ ((s.dev.regPart r).isSome = true ∧ s.dev.waitbOk r (s.dev.seqDesc r) = true) :=
  ⟨wOf ((wAt wSeq ([14, 0, 0x30, 0] ++ leBytes 4 0 ++ leBytes 8 (0))).setSeq 0 2 3), 0, by decide⟩

theorem witness_ScalarDescriptors_19 : ∃ (s : State) (r : Nat) (x : List Byte), (r < 16 ∧ s.dev.scoreGoes r = true ∧
  s.dev.seqDesc r = x ∧ 0x1B ≤ dOpc x) :=
  ⟨wOf (wAt wSeq ([0x1B, 0, 0, 0] ++ leBytes 4 0 ++ leBytes 8 (0))), 0, ([0x1B, 0, 0, 0] ++ leBytes 4 0 ++ leBytes 8 (0)), by decide⟩

theorem witness_TransferDescriptors_1 : ∃ (s : State) (r : Nat) (x : List Byte) (n sa da : Nat), (AtDesc s.dev r 8 x) ∧
  (s.dev.seqPc r + 1 < 4096) ∧ (FreshOp s.dev r) ∧ (n = dImm x ∧ n % 8 = 0 ∧ 8 ≤ n ∧ n ≤ 2048) ∧ (OwnCommons s.dev r (s.dev.greg
  r (dGs x)) sa n ∧ s.dev.greg r (dGs x) % 8 = 0) ∧ (OwnCommons s.dev r (s.dev.greg r (dGd x)) da n ∧ s.dev.greg r (dGd x) % 8 =
  0) ∧ (dPost x = true → s.dev.fld (SEQ_OUTST r) 0 7 < 64) :=
  ⟨wOf (wAt (((wCmn.wrB (cmnBase 0 + 64) [1, 2, 3]).setG 0 1 (cmnBase 0 + 64)).setG 0 3 (cmnBase 0 + 4096)) ([8, 2, 0x31, 0] ++ leBytes 4 24 ++ leBytes 8 (0))), 0, ([8, 2, 0x31, 0] ++ leBytes 4 24 ++ leBytes 8 (0)), 24, cmnBase 0 + 64, cmnBase 0 + 4096, by decide⟩

theorem witness_TransferDescriptors_2 : ∃ (s : State) (r : Nat) (x : List Byte) (sa r2 c : Nat), (AtDesc s.dev r 9 x) ∧
  (s.dev.seqPc r + 1 < 4096) ∧ (FreshOp s.dev r) ∧ (OwnCommons s.dev r (s.dev.greg r (dGs x)) sa 64 ∧ s.dev.greg r (dGs x) % 64
  = 0) ∧ (r2 < 16 ∧ c < 32 ∧ s.dev.greg r (dGd x) = 2 ^ 48 * s.dev.devId + 0x020000000000 + QUE_CHIN r2 c) ∧ (s.dev.reachesW
  (.score r) (QUE_CHIN r2 c) = true) ∧ (QuietQueues s.dev r2) ∧ (s.dev.chState r2 c = 0 ∧ s.dev.stage r2 c = [] ∧ (s.dev.chan r2
  c).length < 16) ∧ (dPost x = true → s.dev.fld (SEQ_OUTST r) 0 7 < 64) ∧ ((s.dev.reqs.filter (fun q => q.region == r)).length <
  64) :=
  ⟨wOf (wAt ((((wCmn.wrB (cmnBase 0 + 64) [1, 2, 3]).setG 0 1 (cmnBase 0 + 64)).setG 0 3 (0x020000000000 + QUE_CHIN 1 4)).chanOpen 1 4) ([9, 0xA, 0x31, 0] ++ leBytes 4 0 ++ leBytes 8 (0))), 0, ([9, 0xA, 0x31, 0] ++ leBytes 4 0 ++ leBytes 8 (0)), cmnBase 0 + 64, 1, 4, by decide⟩

theorem witness_TransferDescriptors_3 : ∃ (s : State) (r : Nat) (x : List Byte) (da : Nat) (m : Msg) (rest : List Msg), (AtDesc
  s.dev r 10 x) ∧ (s.dev.seqPc r + 1 < 4096) ∧ (FreshOp s.dev r) ∧ (OwnCommons s.dev r (s.dev.greg r (dGd x)) da 64 ∧ s.dev.greg
  r (dGd x) % 64 = 0) ∧ (s.dev.chHost r (dCh x) = false) ∧ (QuietQueues s.dev r) ∧ (s.dev.chan r (dCh x) = m :: rest ∧
  s.dev.stage r (dCh x) = [] ∧ m.data.length = 64) :=
  ⟨wOf (wAt ((wCmn.setG 0 3 (cmnBase 0 + 64)).setChan 0 4 [⟨List.replicate 64 9#8, .nobody⟩]) ([10, 0, 0x30, 4] ++ leBytes 4 0 ++ leBytes 8 (0))), 0, ([10, 0, 0x30, 4] ++ leBytes 4 0 ++ leBytes 8 (0)), cmnBase 0 + 64, ⟨List.replicate 64 9#8, .nobody⟩, [], by decide⟩

theorem witness_TransferDescriptors_4 : ∃ (s : State) (r : Nat) (x : List Byte), (AtDesc s.dev r 10 x) ∧ (s.dev.greg r (dGd x) %
  64 = 0) ∧ (s.dev.chHost r (dCh x) = false) ∧ (s.dev.chan r (dCh x) = []) :=
  ⟨wOf (wAt (wSeq) ([10, 0, 0x30, 4] ++ leBytes 4 0 ++ leBytes 8 (0))), 0, ([10, 0, 0x30, 4] ++ leBytes 4 0 ++ leBytes 8 (0)), by decide⟩

theorem witness_TransferDescriptors_5 : ∃ (s : State) (r da : Nat) (x : List Byte) (m : Msg) (rest : List Msg), (r < 16) ∧ (x =
  s.dev.seqDesc r) ∧ (s.dev.waitsAt r 10 1 = true ∧ s.dev.seqPc r + 1 < 4096 ∧ (s.dev.regPart r).isSome = true) ∧ (FreshOp s.dev
  r) ∧ (OwnCommons s.dev r (s.dev.greg r (dGd x)) da 64 ∧ s.dev.greg r (dGd x) % 64 = 0) ∧ (s.dev.chHost r (dCh x) = false) ∧
  (QuietQueues s.dev r) ∧ (s.dev.chan r (dCh x) = m :: rest ∧ s.dev.stage r (dCh x) = [] ∧ m.data.length = 64) ∧ (s.dev.owns
  ((s.dev.regPart r).getD 0) r = true) :=
  ⟨wOf ((wAt ((wCmn.setG 0 3 (cmnBase 0 + 64)).setChan 0 4 [⟨List.replicate 64 9#8, .nobody⟩]) ([10, 0, 0x30, 4] ++ leBytes 4 0 ++ leBytes 8 (0))).setSeq 0 2 1), 0, cmnBase 0 + 64, ([10, 0, 0x30, 4] ++ leBytes 4 0 ++ leBytes 8 (0)), ⟨List.replicate 64 9#8, .nobody⟩, [], by decide⟩

theorem witness_TransferDescriptors_6 : ∃ (s : State) (r : Nat) (x : List Byte) (n sa : Nat), (AtDesc s.dev r 15 x) ∧ (FreshOp
  s.dev r) ∧ (dPost x = false ∧ dCh x % 2 = 0) ∧ (n = 8 * evCount x ∧ n ≤ 2048) ∧ (OwnCommons s.dev r (s.dev.greg r (dGs x)) sa
  n) :=
  ⟨wOf (wAt ((wCmn.wrN (cmnBase 0 + 64) 8 (2 ^ 51 + 7)).setG 0 1 (cmnBase 0 + 64)) ([15, 2, 0x01, 0] ++ leBytes 4 1 ++ leBytes 8 (0))), 0, ([15, 2, 0x01, 0] ++ leBytes 4 1 ++ leBytes 8 (0)), 8, cmnBase 0 + 64, by decide⟩

theorem witness_TransferDescriptors_7 : ∃ (s : State) (r : Nat) (x : List Byte) (t sa : Nat), (AtDesc s.dev r 16 x) ∧
  (s.dev.seqPc r + 1 < 4096) ∧ (FreshOp s.dev r) ∧ (t < 16 ∧ dImm x = 2 ^ t) ∧ (OwnCommons s.dev r (s.dev.greg r (dGs x)) sa 64)
  ∧ (∀ k, k < 16 → WriteOk s.dev (.score r) (TCR_DQPUSH t k)) ∧ ((s.dev.tcore t).queue.length < 8) :=
  ⟨wOf (wAt ((wCmn.wrB (cmnBase 0 + 64) wMm).setG 0 1 (cmnBase 0 + 64)) ([16, 0, 0x01, 0] ++ leBytes 4 1 ++ leBytes 8 (0))), 0, ([16, 0, 0x01, 0] ++ leBytes 4 1 ++ leBytes 8 (0)), 0, cmnBase 0 + 64, by decide⟩

theorem witness_TransferDescriptors_8 : ∃ (s : State) (r : Nat) (x : List Byte) (sa : Nat), (AtDesc s.dev r 17 x) ∧ (FreshOp
  s.dev r) ∧ (OwnCommons s.dev r (s.dev.greg r (dGs x)) sa 64) ∧ (byteAt (s.dev.rdB sa 64) 0 = 6) ∧ (s.dev.tcOut r = false ∧
  s.dev.tcGone r = false ∧ (s.dev.tcore r).queue.length < 8) :=
  ⟨wOf (wAt ((wCmn.wrB (cmnBase 0 + 64) (wOpX 6)).setG 0 1 (cmnBase 0 + 64)) ([17, 0, 0x31, 0] ++ leBytes 4 0 ++ leBytes 8 (0))), 0, ([17, 0, 0x31, 0] ++ leBytes 4 0 ++ leBytes 8 (0)), cmnBase 0 + 64, by decide⟩

theorem witness_TransferDescriptors_9 : ∃ (s : State) (r : Nat) (x : List Byte) (sa ro : Nat), (AtDesc s.dev r 18 x) ∧
  (s.dev.seqPc r + 1 < 4096) ∧ (FreshOp s.dev r) ∧ (OwnCommons s.dev r (s.dev.greg r (dGs x)) sa 64) ∧ ((s.dev.regPart r).bind
  s.dev.readoutRegion = some ro ∧ s.dev.ecc = []) ∧ (s.dev.tcOut r = false ∧ s.dev.tcGone r = false ∧ (s.dev.tcore
  r).queue.length < 8) :=
  ⟨wOf (wAt (((wCmn.wrB (cmnBase 0 + 64) (wOpX 7)).setG 0 1 (cmnBase 0 + 64)).setR (AXN_PROUT 0 1) 0x80000001) ([18, 0, 0x31, 0] ++ leBytes 4 4 ++ leBytes 8 (0))), 0, ([18, 0, 0x31, 0] ++ leBytes 4 4 ++ leBytes 8 (0)), cmnBase 0 + 64, 1, by decide⟩

theorem witness_TransferDescriptors_10 : ∃ (s : State) (r : Nat) (x : List Byte) (g sa n u p w : Nat) (c : List Byte), (AtDesc
  s.dev r 24 x) ∧ (s.dev.seqPc r + 1 < 4096) ∧ (FreshOp s.dev r) ∧ ((∀ b, b < 16 → s.dev.ownsBank r b ownScore = true ∧
  s.dev.flag (CMN_OWN r b) 31 = false) ∧ s.dev.ecc = []) ∧ (OwnCommons s.dev r (s.dev.greg r (dGs x)) g 64 ∧ c = s.dev.rdB g 64
  ∧ rgOk c = true) ∧ (OwnCommons s.dev r (dAddr x) sa n ∧ n = dImm x ∧ n ≤ 2048) ∧ (u = ceilDiv (8 + n) 64 ∧ p = rgHead c %
  rgSize c) ∧ (64 * u ≤ rgSize c - p ∧ p % 64 = 0 ∧ 64 * u ≤ rgSize c - 64 ∧ 64 * u ≤ rgSize c - (rgHead c + 2 ^ 32 - rgTail c)
  % 2 ^ 32) ∧ (rgBase c + rgSize c ≤ 0x400000) ∧ (w = cmnBase r + rgBase c + p) ∧ (g + 64 ≤ w ∨ w + 64 * u ≤ g) :=
  ⟨wOf (wAt (((wCmn.wrB (cmnBase 0 + 64) (leBytes 4 0x40000 ++ [12])).wrB (cmnBase 0 + 4096) [1, 2, 3, 4, 5]).setG 0 1 (cmnBase 0 + 64)) ([24, 0, 0x31, 0] ++ leBytes 4 5 ++ leBytes 8 (cmnBase 0 + 4096))), 0, ([24, 0, 0x31, 0] ++ leBytes 4 5 ++ leBytes 8 (cmnBase 0 + 4096)), cmnBase 0 + 64, cmnBase 0 + 4096, 5, 1, 0, cmnBase 0 + 0x40000, leBytes 4 0x40000 ++ [12] ++ zeros 59, by decide⟩

theorem witness_TransferDescriptors_11 : ∃ (s : State) (r : Nat) (x : List Byte) (g t w n u da : Nat) (c : List Byte), (AtDesc
  s.dev r 25 x) ∧ (s.dev.seqPc r + 1 < 4096) ∧ (FreshOp s.dev r) ∧ ((∀ b, b < 16 → s.dev.ownsBank r b ownScore = true ∧
  s.dev.flag (CMN_OWN r b) 31 = false) ∧ s.dev.ecc = []) ∧ (OwnCommons s.dev r (s.dev.greg r (dGs x)) g 64 ∧ c = s.dev.rdB g 64
  ∧ rgOk c = true) ∧ (t = rgTail c ∧ t ≠ rgHead c ∧ w = cmnBase r + rgBase c + t % rgSize c) ∧ (rgBase c + rgSize c ≤ 0x400000 ∧
  t % rgSize c + 8 + n ≤ rgSize c) ∧ (byteAt (s.dev.rdB w 8) 0 = 1 ∧ u = leAt (s.dev.rdB w 8) 2 2 ∧ n = leAt (s.dev.rdB w 8) 4
  4) ∧ (0 < u ∧ 64 * u ≤ (rgHead c + 2 ^ 32 - t) % 2 ^ 32 ∧ n ≤ 2048) ∧ (OwnCommons s.dev r (dAddr x) da n) ∧ (g + 64 ≤ da ∨ da
  + n ≤ g) :=
  ⟨wOf (wAt (((wCmn.wrB (cmnBase 0 + 64) (leBytes 4 0x40000 ++ [12, 0, 0, 0] ++ leBytes 4 64)).wrB (cmnBase 0 + 0x40000) (ringHdr 1 1 5 ++ [1, 2, 3, 4, 5])).setG 0 1 (cmnBase 0 + 64)) ([25, 0, 0x31, 0] ++ leBytes 4 0 ++ leBytes 8 (cmnBase 0 + 4096))), 0, ([25, 0, 0x31, 0] ++ leBytes 4 0 ++ leBytes 8 (cmnBase 0 + 4096)), cmnBase 0 + 64, 0, cmnBase 0 + 0x40000, 5, 1, cmnBase 0 + 4096, leBytes 4 0x40000 ++ [12, 0, 0, 0] ++ leBytes 4 64 ++ zeros 52, by decide⟩

theorem witness_SeasonDescriptors_1 : ∃ (s : State) (r : Nat) (x : List Byte) (g p q : Nat) (b : List Byte), (AtDesc s.dev r 19
  x) ∧ (s.dev.seqPc r + 1 < 4096) ∧ (FreshOp s.dev r) ∧ (s.dev.ecc = []) ∧ (OwnCommons s.dev r (s.dev.greg r (dGs x)) g 64 ∧ b =
  s.dev.rdB g 64) ∧ (s.dev.regPart r = some p ∧ NamesCore s.dev p (tdCore b) q ∧ q < 256) ∧ (s.dev.flag (HRV_STAT q) 2 = true ∧
  s.dev.muteBeat q p = false ∧ s.dev.fld (HRV_SCOUNT q) 0 16 < min (s.dev.fld (HRV_HWIN q) 0 16) (s.dev.fld (HRV_SEASON q) 0
  16)) :=
  ⟨wOf (wAt (wTend.wrB (cmnBase 0 + 64) [0, 0, 1, 200]) ([19, 0, 0x31, 0] ++ leBytes 4 0 ++ leBytes 8 (0))), 0, ([19, 0, 0x31, 0] ++ leBytes 4 0 ++ leBytes 8 (0)), cmnBase 0 + 64, 1, 0, [0, 0, 1, 200] ++ zeros 60, by decide⟩

theorem witness_SeasonDescriptors_2 : ∃ (s : State) (r : Nat) (x : List Byte) (g p q : Nat) (b : List Byte), (AtDesc s.dev r 19
  x) ∧ (s.dev.seqPc r + 1 < 4096) ∧ (FreshOp s.dev r) ∧ (s.dev.ecc = []) ∧ (OwnCommons s.dev r (s.dev.greg r (dGs x)) g 64 ∧ b =
  s.dev.rdB g 64) ∧ (s.dev.regPart r = some p ∧ NamesCore s.dev p (tdCore b) q ∧ q < 256) ∧ (s.dev.flag (HRV_STAT q) 2 = true ∧
  s.dev.muteBeat q p = false ∧ s.dev.fld (HRV_SCOUNT q) 0 16 < min (s.dev.fld (HRV_HWIN q) 0 16) (s.dev.fld (HRV_SEASON q) 0
  16)) ∧ (tdPrune b = false ∧ tdGrow b = false) :=
  ⟨wOf (wAt (wTend.wrB (cmnBase 0 + 64) (zeros 22 ++ [9, 0] ++ zeros 16 ++ [5, 6])) ([19, 0, 0x31, 0] ++ leBytes 4 0 ++ leBytes 8 (0))), 0, ([19, 0, 0x31, 0] ++ leBytes 4 0 ++ leBytes 8 (0)), cmnBase 0 + 64, 1, 0, zeros 22 ++ [9, 0] ++ zeros 16 ++ [5, 6] ++ zeros 22, by decide⟩

theorem witness_SeasonDescriptors_3 : ∃ (s : State) (r : Nat) (x : List Byte) (c : Nat × Nat) (rest : List (Nat × Nat)), (AtDesc
  s.dev r 20 x) ∧ (s.dev.seqPc r + 1 < 4096) ∧ (s.dev.seasonEnded r = true) ∧ (s.dev.coresOf r = c :: rest) :=
  ⟨wOf (wAt ((wSeq.forEach (upTo 16) (fun d q => (d.setR (HRV_SEASONNO q) 5).setR (HRV_STAT q) 4))) ([20, 0, 0x30, 0] ++ leBytes 4 0 ++ leBytes 8 (0))), 0, ([20, 0, 0x30, 0] ++ leBytes 4 0 ++ leBytes 8 (0)), (0, 0), (wOn.coresOf 0).drop 1, by decide⟩

theorem witness_SeasonDescriptors_4 : ∃ (s : State) (r : Nat) (x : List Byte), (AtDesc s.dev r 20 x) ∧ (s.dev.seasonEnded r =
  false) :=
  ⟨wOf (wAt (wSeq) ([20, 0, 0x30, 0] ++ leBytes 4 0 ++ leBytes 8 (0))), 0, ([20, 0, 0x30, 0] ++ leBytes 4 0 ++ leBytes 8 (0)), by decide⟩

theorem witness_SeasonDescriptors_5 : ∃ (s : State) (r : Nat) (c : Nat × Nat) (rest : List (Nat × Nat)), (r < 16) ∧
  (s.dev.waitsAt r 20 4 = true ∧ s.dev.seasonEnded r = true ∧ s.dev.seqPc r + 1 < 4096) ∧ (s.dev.coresOf r = c :: rest) :=
  ⟨wOf ((wAt (wSeq.forEach (upTo 16) (fun d q => (d.setR (HRV_SEASONNO q) 5).setR (HRV_STAT q) 4)) ([20, 0, 0x30, 0] ++ leBytes 4 0 ++ leBytes 8 (0))).setSeq 0 2 4), 0, (0, 0), (wOn.coresOf 0).drop 1, by decide⟩

theorem witness_SeasonDescriptors_6 : ∃ (s : State) (r : Nat) (x : List Byte) (p : Nat), (AtDesc s.dev r 21 x) ∧ (s.dev.regPart
  r = some p) ∧ (s.dev.harvestOn p = false ∧ s.dev.muted p = false) ∧ ((s.dev.part p).ckpt.copy = none ∧ (s.dev.part
  p).ckpt.flags % 4 = 2) :=
  ⟨wOf (wAt (wSeq.setPart 1 { (wSeq.part 1) with ckpt := { (wSeq.part 1).ckpt with flags := 2 } }) ([21, 0, 0x30, 0] ++ leBytes 4 0 ++ leBytes 8 (0))), 0, ([21, 0, 0x30, 0] ++ leBytes 4 0 ++ leBytes 8 (0)), 1, by decide⟩

theorem witness_SeasonDescriptors_7 : ∃ (s : State) (r : Nat) (x : List Byte), (AtDesc s.dev r 22 x) ∧ (s.dev.seqPc r + 1 <
  4096) ∧ (∀ c, c ∈ s.dev.coresOf r → c.2 < 256 ∧ WriteOk s.dev (.score r) (HRV_MODNEXT c.2)) :=
  ⟨wOf (wAt ((wSeq.setG 0 1 0x40).setG 0 3 70000) ([22, 0, 0x31, 0] ++ leBytes 4 0 ++ leBytes 8 (0))), 0, ([22, 0, 0x31, 0] ++ leBytes 4 0 ++ leBytes 8 (0)), by decide⟩

theorem witness_SeasonDescriptors_8 : ∃ (s : State) (r : Nat) (x : List Byte) (b : Nat), (AtDesc s.dev r 23 x) ∧ (s.dev.seqPc r
  + 1 < 4096) ∧ (b = dCh x % 16 ∧ bitAt (dImm x) 8 = false ∧ dImm x % 16 ≤ 2) ∧ (s.dev.bankOwner r b false = ownScore ∨
  s.dev.bankOwner r b false = 0) :=
  ⟨wOf (wAt (wSeq) ([23, 0, 0, 4] ++ leBytes 4 1 ++ leBytes 8 (0))), 0, ([23, 0, 0, 4] ++ leBytes 4 1 ++ leBytes 8 (0)), 4, by decide⟩

theorem witness_SeasonDescriptors_9 : ∃ (s : State) (r : Nat) (x : List Byte) (b : Nat), (AtDesc s.dev r 23 x) ∧ (s.dev.seqPc r
  + 1 < 4096) ∧ (b = dCh x % 16 ∧ bitAt (dImm x) 8 = false) ∧ (s.dev.bankOwner r b false ≠ ownScore ∧ s.dev.bankOwner r b false
  ≠ 0) :=
  ⟨wOf (wAt (wSeq.setR (CMN_OWN 0 4) 2) ([23, 0, 0, 4] ++ leBytes 4 1 ++ leBytes 8 (0))), 0, ([23, 0, 0, 4] ++ leBytes 4 1 ++ leBytes 8 (0)), 4, by decide⟩

theorem witness_SeasonDescriptors_10 : ∃ (s : State) (r : Nat) (x : List Byte), (AtDesc s.dev r 26 x) ∧ (s.dev.seqPc r + 1 <
  4096) :=
  ⟨wOf (wAt (wSeq) ([26, 0, 0x30, 0] ++ leBytes 4 9 ++ leBytes 8 (0))), 0, ([26, 0, 0x30, 0] ++ leBytes 4 9 ++ leBytes 8 (0)), by decide⟩

theorem witness_DdrCommandsAndAccesses_1 : ∃ (s : State) (h : Hdr) (pl : List Byte), (Accepted s.dev cDdrConfig h pl) ∧
  (ddrConfigOk (pl.take 5) = true ∧ ddrMib (pl.take 5) ≤ 512 * 1024) :=
  ⟨wS, wH0, [0, 0, 0, 1, 0] ++ zeros 11, by decide⟩

theorem witness_DdrCommandsAndAccesses_2 : ∃ (s : State) (h : Hdr) (pl : List Byte), (Accepted s.dev cDdrStatus h pl) ∧ (byteAt
  pl 0 < 2) :=
  ⟨wS, wH0, [1] ++ zeros 7, by decide⟩

theorem witness_DdrCommandsAndAccesses_3 : ∃ (s : State) (h : Hdr) (pl : List Byte) (p w v b l : Nat), (Accepted s.dev
  cDdrWindow h pl) ∧ (p = byteAt pl 0 ∧ w = byteAt pl 1 ∧ v = byteAt pl 2 ∧ b = leAt pl 4 4 ∧ l = leAt pl 8 4) ∧ (p < 16 ∧ w < 4
  ∧ v < 2) ∧ (s.dev.still p = true) ∧ (v = 1 → b ≤ l ∧ l < s.dev.rg (MEM_CAPMB 0) ∧ ∀ q, q < 16 → q ≠ p → ∀ k, k < 4 →
  s.dev.flag (MEM_WBASE 0 q k) 31 = true → l < s.dev.fld (MEM_WBASE 0 q k) 0 19 ∨ s.dev.fld (MEM_WLIM 0 q k) 0 19 < b) :=
  ⟨wOf (wD.setR (MEM_CAPMB 0) 4096), wH0, [1, 2, 1, 0] ++ leBytes 4 16 ++ leBytes 4 31, 1, 2, 1, 16, 31, by decide⟩

theorem witness_DdrCommandsAndAccesses_4 : ∃ (s : State) (h : Hdr) (pl : List Byte), (Accepted s.dev cDdrRetrain h pl) ∧ (byteAt
  pl 0 < 2 ∧ s.dev.ddrStored ≠ [] ∧ (byteAt pl 0 = 0 → s.dev.ddrCacheOk = true)) ∧ (s.dev.windowBusy = false ∧ s.dev.cal.ddrJob
  = none) :=
  ⟨wOf (wD.setKeep 0 [0, 0, 0, 1, 0]), wH0, [1] ++ zeros 7, by decide⟩

theorem witness_DdrCommandsAndAccesses_5 : ∃ (s : State) (h : Hdr) (pl : List Byte), (Accepted s.dev cDdrScrub h pl) ∧ (byteAt
  pl 0 < 2 ∧ byteAt pl 1 ≠ 0) :=
  ⟨wS, wH0, [1, 24] ++ zeros 6, by decide⟩

theorem witness_DdrCommandsAndAccesses_6 : ∃ (s : State) (h : Hdr) (pl : List Byte), (Accepted s.dev cDdrWinread h pl) :=
  ⟨wS, wH, [], by decide⟩

theorem witness_DdrCommandsAndAccesses_7 : ∃ (s : State) (die p ad n : Nat) (l : List Byte), (s.dev.inWindow p ad l.length =
  true) ∧ (s.dev.ecc = []) :=
  ⟨wOf (((wD.setR (MEM_CAPMB 0) 4096).setR (MEM_WBASE 0 1 0) 0x80000010).setR (MEM_WLIM 0 1 0) 31), 0, 1, 16 * 2 ^ 20 + 50, 0, List.replicate 30 7#8, by decide⟩

theorem witness_DdrCommandsAndAccesses_8 : ∃ (s : State) (die p ad n c : Nat), (s.dev.inWindow p ad n = true) ∧ (1 ≤ n ∧ ad % 64
  + n ≤ 64) ∧ (SMap.get 0 s.dev.ecc (64 * (ad / 64)) = 0) ∧ (c = (s.dev.ddrSub (64 * (ad / 64))).1) :=
  ⟨wOf (((wD.setR (MEM_CAPMB 0) 4096).setR (MEM_WBASE 0 1 0) 0x80000010).setR (MEM_WLIM 0 1 0) 31), 0, 1, 16 * 2 ^ 20 + 0x340, 20, 1, by decide⟩

theorem witness_DdrCommandsAndAccesses_9 : ∃ (s : State) (die p ad n : Nat) (l : Option (List Byte)), (die < 2 ∧ p < 16) ∧
  (s.dev.inWindow p ad ((l.map List.length).getD n) = false) :=
  ⟨wS, 1, 1, 50, 4, none, by decide⟩

theorem witness_DdrCommandsAndAccesses_10 : ∃ (s : State) (ad b c : Nat), (b = 64 * (ad / 64)) ∧ (s.dev.ddrSub b = (c, 0) ∧ c <
  8) ∧ (s.dev.flag (MEM_SCRUB (c / 4)) 31 = true ∧ b < s.dev.ddrCap) ∧ (SMap.get 0 s.dev.ecc b = 1) :=
  ⟨wOf { (wD.setR (MEM_CAPMB 0) 4096).setR (MEM_SCRUB 0) 0x80000018 with ecc := [(0x240, 1)] }, 0x250, 0x240, 1, by decide⟩

theorem witness_DdrCommandsAndAccesses_11 : ∃ (s : State) (c rate : Nat), (c < 8) :=
  ⟨wS, 5, 3, by decide⟩

theorem witness_DdrCommandsAndAccesses_12 : ∃ (s : State) (c rate : Nat), (c < 8) :=
  ⟨wS, 5, 3, by decide⟩

theorem witness_DdrCommandsAndAccesses_13 : ∃ (s : State) (c : Nat), True :=
  ⟨wS, 5, by decide⟩

theorem witness_DdrCommandsAndAccesses_14 : ∃ (s : State) (pass : Bool) (bad ms job : Nat), (s.dev.cal.ddrJob = some job) ∧ (bad
  % 256 = 0) :=
  ⟨wOf { wD.setKeep 0 [0, 0, 0, 1, 0] with cal := { wD.cal with ddrJob := some 2 } }, false, 0, 40, 2, by decide⟩

theorem witness_DdrCommandsAndAccesses_15 : ∃ (s : State) (bad ms : Nat), (s.dev.cal.ddrJob = some 3) ∧ (bad % 256 ≠ 0) :=
  ⟨wOf { wD.setKeep 0 [0, 0, 0, 1, 0] with cal := { wD.cal with ddrJob := some 3 } }, 4, 40, by decide⟩

theorem witness_EndpointResetsAndLink_1 : ∃ (s : State) (width rate : Nat), (s.dev.pins.perst = true) ∧ (width = 4 ∨ width = 8 ∨
  width = 16) ∧ (1 ≤ rate ∧ rate ≤ 5) :=
  ⟨wOf { wD with pins := { wD.pins with perst := true } }, 16, 5, by decide⟩

theorem witness_EndpointResetsAndLink_2 : ∃ (s : State), (s.dev.pins.perst = false) :=
  ⟨wOf wVf, by decide⟩

theorem witness_EndpointResetsAndLink_3 : ∃ (s : State) (f : Nat), (0 < f ∧ f < 16 ∧ s.dev.fnExists f = true ∧ (s.dev.fn f).flr
  = false ∧ s.dev.pins.perst = false) :=
  ⟨wOf (wVf.wrN (cmnBase 0) 8 77), 1, by decide⟩

theorem witness_EndpointResetsAndLink_4 : ∃ (s : State) (f : Nat), True :=
  ⟨wOf (wVf.setFn 1 { wVf.fn 1 with flr := true }), 1, by decide⟩

theorem witness_EndpointResetsAndLink_5 : ∃ (s : State), True :=
  ⟨wOf wVf, by decide⟩

theorem witness_EndpointResetsAndLink_6 : ∃ (s : State) (n : Nat), (s.dev.vfEnable = false ∧ 0 < n ∧ n ≤ 15) :=
  ⟨wS, 15, by decide⟩

theorem witness_EndpointResetsAndLink_7 : ∃ (s : State) (width rate : Nat), (s.dev.pins.perst = false ∧ s.dev.flag PCI_LINKSTAT
  0 = false) ∧ (width = 4 ∨ width = 8 ∨ width = 16) ∧ (1 ≤ rate ∧ rate ≤ 5) :=
  ⟨wS, 8, 1, by decide⟩

theorem witness_HostAccessesAndDma_1 : ∃ (s : State) (f off a : Nat), (s.dev.barOpen f = true ∧ s.dev.pwr.asleep = 0 ∧ off % 4 =
  0) ∧ (s.dev.barZero f off = .reg a) ∧ (regListed a = true ∧ s.dev.reaches (.func f) a = true ∧ s.dev.regDead a = false ∧
  s.dev.cutOff (.func f) a = false) ∧ (regPair a = false ∧ regPair (a - 4) = false ∧ tocAt a = none ∧ (a < 0x100 ∨ 0x500 ≤ a))
  :=
  ⟨wS, 0, 0x90004, 0x90004, by decide⟩

theorem witness_HostAccessesAndDma_2 : ∃ (s : State) (f off o : Nat), (s.dev.barOpen f = true ∧ s.dev.pwr.asleep = 0 ∧ off % 4 =
  0) ∧ (s.dev.barZero f off = .table o) :=
  ⟨wS, 0, 0xF00010, 16, by decide⟩

theorem witness_HostAccessesAndDma_3 : ∃ (s : State) (f off o : Nat) (l : List Byte), (s.dev.barOpen f = true ∧ s.dev.pwr.asleep
  = 0 ∧ off % 4 = 0 ∧ l.length = 4) ∧ (s.dev.barZero f off = .table o ∧ o % 16 = 8) :=
  ⟨wS, 0, 0xF00018, 24, [1, 2, 3, 4], by decide⟩

theorem witness_HostAccessesAndDma_4 : ∃ (s : State) (f off n : Nat), (s.dev.barOpen f = true ∧ s.dev.pwr.asleep = 0) ∧ ((n ≠ 4
  ∧ n ≠ 8) ∨ off % n ≠ 0) :=
  ⟨wS, 0, 0x90002, 4, by decide⟩

theorem witness_HostAccessesAndDma_5 : ∃ (s : State) (f off n r ad : Nat), (s.dev.barOpen f = true ∧ s.dev.pwr.asleep = 0) ∧
  (s.dev.aperture f off = some ad) ∧ (r < 16 ∧ cmnBase r ≤ ad ∧ ad % 0x40000 + n ≤ 0x40000 ∧ ad + n ≤ cmnBase r + 0x400000 ∧ 1 ≤
  n) ∧ (s.dev.may (.func f) (.commons 0 r (ad - cmnBase r)) ad n = true) ∧ (s.dev.ownsBank r ((ad - cmnBase r) / 0x40000)
  ownRouter = true) ∧ (s.dev.flag (CMN_OWN r ((ad - cmnBase r) / 0x40000)) 31 = false) ∧ (s.dev.cleanAt ad n = true) ∧
  (s.dev.flag FLT_STAT 4 = false) :=
  ⟨wOf wBar, 0, 24, 20, 0, cmnBase 0 + 24, by decide⟩

theorem witness_HostAccessesAndDma_6 : ∃ (s : State) (f off r ad : Nat) (l : List Byte), (s.dev.barOpen f = true ∧
  s.dev.pwr.asleep = 0) ∧ (s.dev.aperture f off = some ad) ∧ (r < 16 ∧ cmnBase r ≤ ad ∧ ad % 0x40000 + l.length ≤ 0x40000 ∧ ad +
  l.length ≤ cmnBase r + 0x400000 ∧ 1 ≤ l.length) ∧ (s.dev.may (.func f) (.commons 0 r (ad - cmnBase r)) ad l.length = true) ∧
  (s.dev.ownsBank r ((ad - cmnBase r) / 0x40000) ownRouter = true) ∧ (s.dev.flag (CMN_OWN r ((ad - cmnBase r) / 0x40000)) 31 =
  false) ∧ (s.dev.cleanAt ad l.length = true) ∧ (s.dev.flag FLT_STAT 4 = false) :=
  ⟨wOf wBar, 0, 24, 0, cmnBase 0 + 24, [1, 2, 3, 4, 5], by decide⟩

theorem witness_HostAccessesAndDma_7 : ∃ (s : State) (f off n r ad : Nat), (s.dev.barOpen f = true ∧ s.dev.pwr.asleep = 0) ∧
  (s.dev.aperture f off = some ad) ∧ (r < 16 ∧ cmnBase r ≤ ad ∧ ad % 0x40000 + n ≤ 0x40000 ∧ ad + n ≤ cmnBase r + 0x400000 ∧ 1 ≤
  n) ∧ (s.dev.may (.func f) (.commons 0 r (ad - cmnBase r)) ad n = true) ∧ (s.dev.ownsBank r ((ad - cmnBase r) / 0x40000)
  ownRouter = true) ∧ (s.dev.flag (CMN_OWN r ((ad - cmnBase r) / 0x40000)) 31 = true) :=
  ⟨wOf (wBar.setR (CMN_OWN 0 0) 0x80000002), 0, 24, 20, 0, cmnBase 0 + 24, by decide⟩

theorem witness_HostAccessesAndDma_8 : ∃ (s : State) (f off n : Nat) (l : Option (List Byte)), (s.dev.barOpen f = true ∧
  s.dev.pwr.asleep = 0) ∧ (s.dev.aperture f off = none) :=
  ⟨wS, 0, 24, 4, none, by decide⟩

theorem witness_HostAccessesAndDma_9 : ∃ (s : State) (f n : Nat), (s.dev.barOpen f = true) :=
  ⟨wS, 0, 8, by decide⟩

theorem witness_HostAccessesAndDma_10 : ∃ (s : State) (f c v : Nat), (c < 32 ∧ dmaMine f c = true) :=
  ⟨wS, 1, 3, 12, by decide⟩

theorem witness_HostAccessesAndDma_11 : ∃ (s : State) (f c v : Nat), (c < 32 ∧ dmaMine f c = true) ∧ (s.dev.flag (PCI_DMACFG c)
  31 = false ∧ 12 ≤ v % 32 ∧ v % 32 ≤ 20 ∧ bitAt v 31 = true) :=
  ⟨wS, 1, 3, 0x8000000C, by decide⟩

theorem witness_HostAccessesAndDma_12 : ∃ (s : State) (f c v : Nat), (c < 32 ∧ dmaMine f c = true) ∧ (s.dev.flag (PCI_DMACFG c)
  31 = true ∧ bitAt v 31 = false) :=
  ⟨wOf wDma, 1, 3, 0, by decide⟩

theorem witness_HostAccessesAndDma_13 : ∃ (s : State) (f g k v : Nat), (g < 16 ∧ k < 16 ∧ (f = 0 ∨ f = g)) ∧ (g = 0 → v % 4 = 0)
  :=
  ⟨wS, 1, 1, 2, 0xFFFFFFFF, by decide⟩

theorem witness_HostAccessesAndDma_14 : ∃ (s : State) (f g w v : Nat), (0 < g ∧ g < 16 ∧ w < 2 ∧ (f = 0 ∨ f = g)) :=
  ⟨wS, 1, 1, 1, 0xFFFFFFFF, by decide⟩

theorem witness_HostAccessesAndDma_15 : ∃ (s : State) (c : Nat) (x : List Byte), (c < 32 ∧ s.dev.dmaRuns c = true) ∧ ((SMap.get
  [] s.dev.dma c).length < 4 ∧ (bitAt (byteAt x 20) 1 = true → SMap.get [] s.dev.dma c = [])) ∧ ((s.dev.rg (PCI_DMAHEAD c) +
  (SMap.get [] s.dev.dma c).length) % 2 ^ 32 ≠ s.dev.rg (PCI_DMATAIL c)) :=
  ⟨wOf (wDma.setDma 3 []), 3, wDmaX, by decide⟩

theorem witness_HostAccessesAndDma_16 : ∃ (s : State) (c m : Nat) (x : List Byte), (c < 32 ∧ c % 2 = 0 ∧ s.dev.dmaRuns c = true)
  ∧ (s.dev.dma = [] ∧ x.length = 32) ∧ (s.dev.rg (PCI_DMAHEAD c) % 2 ^ 32 ≠ s.dev.rg (PCI_DMATAIL c)) ∧ (s.dev.dmaCheck c x =
  .ok) ∧ (m = (s.dev.fn (s.dev.requester (c / 2))).readSize ∧ 0 < m) :=
  ⟨wOf { (wDma.setR (PCI_DMATAIL 2) 5) with dma := [] }, 2, 512, wDmaX, by decide⟩

theorem witness_HostAccessesAndDma_17 : ∃ (s : State) (c r ad n : Nat) (x : List Byte) (j : DmaJob) (rest : List DmaJob), (c <
  32 ∧ c % 2 = 1 ∧ s.dev.dmaRuns c = true) ∧ (SMap.get [] s.dev.dma c = j :: rest ∧ j.desc = x ∧ j.st = 0) ∧ (ad = leAt x 8 8 ∧
  n = leAt x 16 4 ∧ 1 ≤ n) ∧ (r < 16 ∧ cmnBase r ≤ ad ∧ ad % 0x40000 + n ≤ 0x40000 ∧ ad + n ≤ cmnBase r + 0x400000) ∧ (s.dev.may
  (.func (c / 2)) (.commons 0 r (ad - cmnBase r)) ad n = true) ∧ (s.dev.ownsBank r ((ad - cmnBase r) / 0x40000) ownRouter =
  true) ∧ (s.dev.flag (CMN_OWN r ((ad - cmnBase r) / 0x40000)) 31 = false ∧ s.dev.flag FLT_STAT 4 = false) ∧ (s.dev.ecc = []) :=
  ⟨wOf wDma, 3, 0, cmnBase 0 + 64, 16, wDmaX, ⟨wDmaX, 0, 0, 0⟩, [], by decide⟩

theorem witness_HostAccessesAndDma_18 : ∃ (s : State) (c r ad n : Nat) (x : List Byte) (j : DmaJob) (rest : List DmaJob) (l :
  List Byte), (c < 32 ∧ c % 2 = 0 ∧ s.dev.dmaRuns c = true) ∧ (SMap.get [] s.dev.dma c = j :: rest ∧ j.desc = x ∧ j.st = 0) ∧
  (ad = leAt x 8 8 ∧ n = leAt x 16 4 ∧ 1 ≤ n ∧ l.length = n) ∧ (r < 16 ∧ cmnBase r ≤ ad ∧ ad % 0x40000 + n ≤ 0x40000 ∧ ad + n ≤
  cmnBase r + 0x400000) ∧ (s.dev.may (.func (c / 2)) (.commons 0 r (ad - cmnBase r)) ad n = true) ∧ (s.dev.ownsBank r ((ad -
  cmnBase r) / 0x40000) ownRouter = true) ∧ (s.dev.flag (CMN_OWN r ((ad - cmnBase r) / 0x40000)) 31 = false ∧ s.dev.flag
  FLT_STAT 4 = false) ∧ (s.dev.cleanAt ad n = true) :=
  ⟨wOf wDma, 2, 0, cmnBase 0 + 64, 16, wDmaX, ⟨wDmaX, 0, 0, 0⟩, [], List.replicate 16 3#8, by decide⟩

theorem witness_HostAccessesAndDma_19 : ∃ (s : State) (c : Nat) (j : DmaJob) (rest : List DmaJob), (c < 32 ∧ s.dev.dmaRuns c =
  true) ∧ (SMap.get [] s.dev.dma c = j :: rest ∧ j.st ≠ 0) :=
  ⟨wOf (wDma.setDma 3 [⟨wDmaX, 2, 0, 0⟩]), 3, ⟨wDmaX, 2, 0, 0⟩, [], by decide⟩

theorem witness_HostAccessesAndDma_20 : ∃ (s : State) (f v : Nat), (SMap.get false (s.dev.fn f).modRun v = true) ∧ (SMap.get
  false (s.dev.fn f).msixPend v = true ∧ SMap.get false (s.dev.fn f).msixUnmasked v = true) :=
  ⟨wOf (wD.setFn 1 { wD.fn 1 with modRun := [(3, true)], msixPend := [(3, true)], msixUnmasked := [(3, true)], msixAddr := [(3, 0xFEE00000)], msixData := [(3, 77)] }), 1, 3, by decide⟩

theorem witness_TimersAndCaptures_1 : ∃ (s : State) (f tm : Nat), (tm < 16 ∧ s.dev.timerMine f tm = true) :=
  ⟨wOf wTm, 1, 3, by decide⟩

theorem witness_TimersAndCaptures_2 : ∃ (s : State) (f tm : Nat), (tm < 16 ∧ s.dev.timerMine f tm = true) :=
  ⟨wOf wTm, 1, 3, by decide⟩

theorem witness_TimersAndCaptures_3 : ∃ (s : State) (f tm v : Nat), (tm < 16 ∧ s.dev.timerMine f tm = true ∧ v < 2) :=
  ⟨wOf wTm, 1, 3, 1, by decide⟩

theorem witness_TimersAndCaptures_4 : ∃ (s : State) (f tm v : Nat), (tm < 16 ∧ s.dev.timerMine f tm = true ∧ 2 ≤ v ∧ v < 2 ^ 32)
  ∧ (s.dev.flag (TAB_TnSTAT tm) 0 = false ∨ s.dev.rg (TAB_TnCOUNT tm) < v) :=
  ⟨wOf wTm, 1, 3, 1000, by decide⟩

theorem witness_TimersAndCaptures_5 : ∃ (s : State) (f tm v : Nat), (tm < 16 ∧ s.dev.timerMine f tm = true ∧ 2 ≤ v ∧ v < 2 ^ 32)
  ∧ (s.dev.flag (TAB_TnSTAT tm) 0 = true ∧ v ≤ s.dev.rg (TAB_TnCOUNT tm)) :=
  ⟨wOf wTm, 1, 3, 40, by decide⟩

theorem witness_TimersAndCaptures_6 : ∃ (s : State) (f tm k v : Nat), (tm < 16 ∧ s.dev.timerMine f tm = true ∧ k < 2) :=
  ⟨wOf wTm, 1, 3, 1, 70, by decide⟩

theorem witness_TimersAndCaptures_7 : ∃ (s : State) (tm : Nat), (tm < 16 ∧ s.dev.flag (TAB_TnSTAT tm) 0 = true) ∧
  (s.dev.timerNext tm = s.dev.rg (TAB_TnPERIOD tm)) :=
  ⟨wOf (wTm.setR (TAB_TnCMP0 3) 0), 3, by decide⟩

theorem witness_TimersAndCaptures_8 : ∃ (s : State) (tm k v : Nat), (tm < 16 ∧ k < 2 ∧ s.dev.flag (TAB_TnSTAT tm) 0 = true) ∧ (v
  = s.dev.rg (if k = 0 then TAB_TnCMP0 tm else TAB_TnCMP1 tm) ∧ v < 2 ^ 32) ∧ (s.dev.rg (TAB_TnCOUNT tm) < v ∧ v < s.dev.rg
  (TAB_TnPERIOD tm) ∧ s.dev.timerNext tm = v) :=
  ⟨wOf wTm, 3, 0, 60, by decide⟩

theorem witness_TimersAndCaptures_9 : ∃ (s : State) (f tm : Nat), (tm < 16 ∧ s.dev.timerMine f tm = true) :=
  ⟨wOf (wTm.setTimer 3 { (default : TimerX) with caps := [2 ^ 63 + 77] }), 1, 3, by decide⟩

theorem witness_TimersAndCaptures_10 : ∃ (s : State) (f tm : Nat), (tm < 16 ∧ s.dev.timerMine f tm = true) ∧ (bitAt
  (s.dev.latched f (TAB_TnCAP_HI tm)) 31 = true) :=
  ⟨wOf ((wTm.setTimer 3 { (default : TimerX) with caps := [2 ^ 63 + 77] }).setLatch 1 (TAB_TnCAP_HI 3) (2 ^ 31)), 1, 3, by decide⟩

theorem witness_TimersAndCaptures_11 : ∃ (s : State) (tm : Nat), (tm < 16 ∧ s.dev.fld (TAB_TnCTL tm) 18 2 = 1 ∧ (s.dev.timer
  tm).out = true) :=
  ⟨wOf ((wTm.setF (TAB_TnCTL 3) 18 2 1).setTimer 3 { (default : TimerX) with out := true, pulse := 8 }), 3, by decide⟩

theorem witness_TimersAndCaptures_12 : ∃ (s : State), (s.dev.pins.ppsOut = true) :=
  ⟨wOf { wTm with pins := { wTm.pins with ppsOut := true } }, by decide⟩

theorem witness_TocsinRegisters_1 : ∃ (s : State) (f k x n : Nat), (k ≤ 288 ∧ s.dev.reaches (.func f) (TOC_CLAIM k) = true ∧
  s.dev.regDead (TOC_CLAIM k) = false ∧ s.dev.cutOff (.func f) (TOC_CLAIM k) = false) ∧ (s.dev.tocBest k = some x) ∧ (n =
  s.dev.fld (TOC_STACK k) 24 4 ∧ n < 7) :=
  ⟨wOf wToc, 0, 3, 7, 0, by decide⟩

theorem witness_TocsinRegisters_2 : ∃ (s : State) (f k : Nat), (k ≤ 288 ∧ s.dev.reaches (.func f) (TOC_CLAIM k) = true ∧
  s.dev.regDead (TOC_CLAIM k) = false ∧ s.dev.cutOff (.func f) (TOC_CLAIM k) = false) ∧ (s.dev.tocReady k = []) :=
  ⟨wOf wToc, 0, 4, by decide⟩

theorem witness_TocsinRegisters_3 : ∃ (s : State) (f k n : Nat), (k ≤ 288 ∧ WriteOk s.dev (.func f) (TOC_EOI k)) ∧ (n + 1 =
  s.dev.fld (TOC_STACK k) 24 4 ∧ n < 7) :=
  ⟨wOf (wToc.setR (TOC_STACK 3) 0x2000031), 0, 3, 1, by decide⟩

theorem witness_TocsinRegisters_4 : ∃ (s : State) (f k : Nat), (k ≤ 288 ∧ WriteOk s.dev (.func f) (TOC_EOI k)) ∧ (s.dev.fld
  (TOC_STACK k) 24 4 = 0) :=
  ⟨wOf wToc, 0, 3, by decide⟩

theorem witness_TocsinRegisters_5 : ∃ (s : State) (f k v : Nat), (k ≤ 288 ∧ WriteOk s.dev (.func f) (TOC_PEND k)) :=
  ⟨wOf wToc, 0, 3, 0x80, by decide⟩

theorem witness_TocsinRegisters_6 : ∃ (s : State) (f k ad : Nat) (x : TocRec) (rest : List TocRec), (k < 305 ∧ ad = (if k < 289
  then tocBase k + 0x81C else tocBase 288 + 0x1020 + 0x40 * (k - 289) + 0x1C)) ∧ (s.dev.reaches (.func f) ad = true ∧
  s.dev.regDead ad = false ∧ s.dev.cutOff (.func f) ad = false) ∧ (s.dev.tocQueue k = x :: rest ∧ rest.length < 256) :=
  ⟨wOf (wToc.setTocQueue 290 [default, default]), 1, 290, 0x1107C, default, [default], by decide⟩

theorem witness_BellpullRings_1 : ∃ (s : State) (f v : Nat), (s.dev.barOpen f = true ∧ s.dev.pwr.asleep = 0 ∧ f < 16) :=
  ⟨wS, 0, 9, by decide⟩

theorem witness_BellpullRings_2 : ∃ (s : State) (f v : Nat), (s.dev.barOpen f = true ∧ s.dev.pwr.asleep = 1 ∧ f < 16) :=
  ⟨wOf { wD with pwr := { wD.pwr with asleep := 1 } }, 0, 9, by decide⟩

theorem witness_BellpullRings_3 : ∃ (s : State) (f : Nat) (m : List Byte), (f < 16 ∧ s.dev.mayTake f = true ∧ s.dev.frameBad f
  (leAt m 2 2) = none) ∧ (leAt m 0 2 = 0) :=
  ⟨wOf wBell, 0, leBytes 2 0 ++ leBytes 2 2 ++ zeros 28, by decide⟩

theorem witness_BellpullRings_4 : ∃ (s : State) (f : Nat) (m : List Byte) (st : Status), (f < 16 ∧ s.dev.mayTake f = true ∧
  s.dev.frameBad f (leAt m 2 2) = some st) ∧ (s.dev.flag (CAR_RRCFG f) 31 = true) :=
  ⟨wOf wBell, 0, leBytes 2 1 ++ leBytes 2 9 ++ zeros 28, .badLength, by decide⟩

theorem witness_BellpullRings_5 : ∃ (s : State) (f : Nat) (m : List Byte), (f < 16 ∧ s.dev.mayTake f = true ∧ s.dev.frameBad f
  (leAt m 2 2) = none) ∧ (leAt m 0 2 ≠ 0 ∧ bitAt (byteAt m 7) 0 = true ∧ (s.dev.fn f).outst ≠ []) :=
  ⟨wOf (wBell.setFn 0 { wBell.fn 0 with outst := [⟨1, 1⟩] }), 0, leBytes 2 1 ++ leBytes 2 1 ++ [3, 0, 0, 1] ++ zeros 56, by decide⟩

theorem witness_BellpullRings_6 : ∃ (s : State) (f : Nat) (m : List Byte), (f < 16 ∧ s.dev.mayTake f = true ∧ s.dev.frameBad f
  (leAt m 2 2) = none) ∧ (leAt m 0 2 ≠ 0 ∧ leAt m 0 2 ≠ 0x0E02 ∧ (∀ c, c ∈ cmdTable → c.1.opcode ≠ leAt m 0 2)) ∧ (bitAt (byteAt
  m 7) 0 = false) ∧ (s.dev.flag (CAR_RRCFG f) 31 = true ∧ 12 ≤ s.dev.fld (CAR_RRCFG f) 0 5) :=
  ⟨wOf wBell, 0, leBytes 2 0x0EFF ++ leBytes 2 1 ++ zeros 60, by decide⟩

theorem witness_BellpullRings_7 : ∃ (s : State) (f : Nat) (m : List Byte) (i : Fin cmdTable.length) (dt : Dev), (s.dev.mayTake f
  = true ∧ s.dev.frameBad f (leAt m 2 2) = none) ∧ ((cmdTable.get i).1.opcode = leAt m 0 2) ∧ (bitAt (byteAt m 7) 0 = false) ∧
  (dt = ((s.dev.setR (CAR_CRHEAD f) (s.dev.rg (CAR_CRHEAD f) + leAt m 2 2)).bump (CAR_BCMDS f) 1).seqSeen f (leAt m 8 4)) :=
  ⟨wOf wBell, 0, wMsg, ⟨96, by decide⟩, ((wBell.setR (CAR_CRHEAD 0) (wBell.rg (CAR_CRHEAD 0) + 1)).bump (CAR_BCMDS 0) 1).seqSeen 0 0, ⟨by decide, by decide, by decide, rfl⟩⟩

theorem witness_BellpullRings_8 : ∃ (s : State) (f : Nat) (x : Resp) (rest : List Resp), (f < 16 ∧ (s.dev.fn f).resps = x ::
  rest) ∧ (s.dev.pwr.asleep = 0 ∧ (f = 0 → s.dev.d3hot = false) ∧ s.dev.flag (CAR_RRCFG f) 31 = true) ∧ (s.dev.rrFits f = true)
  ∧ (s.dev.fld PWR_STATE 0 3 ≠ 3 ∧ s.dev.fld PWR_STATE 0 3 ≠ 4) :=
  ⟨wOf (wBell.setFn 0 { wBell.fn 0 with resps := [⟨1, wH, .ok, 0, []⟩] }), 0, ⟨1, wH, .ok, 0, []⟩, [], by decide⟩

theorem witness_BellpullRings_9 : ∃ (s : State) (f : Nat), (f < 16 ∧ s.dev.pwr.asleep = 0 ∧ (f = 0 → s.dev.d3hot = false) ∧
  s.dev.flag (CAR_RRCFG f) 31 = true) ∧ (s.dev.rrFits f = false) :=
  ⟨wOf ((wBell.setFn 0 { wBell.fn 0 with resps := [⟨1, wH, .ok, 0, []⟩] }).setR (CAR_RRHEAD 0) 16384), 0, by decide⟩

theorem witness_BellpullRings_10 : ∃ (s : State) (f v : Nat), (s.dev.barOpen f = true ∧ s.dev.pwr.asleep = 0 ∧ f < 16) :=
  ⟨wS, 0, 0, by decide⟩

theorem witness_BellpullRings_11 : ∃ (s : State) (f v : Nat), (s.dev.barOpen f = true ∧ s.dev.pwr.asleep = 0 ∧ f < 16) ∧
  (s.dev.flag (CAR_CRCFG f) 31 = false ∧ 12 ≤ v % 32 ∧ v % 32 ≤ 20 ∧ bitAt v 31 = true) :=
  ⟨wS, 0, 0x8000000E, by decide⟩

theorem witness_BellpullRings_12 : ∃ (s : State) (f v : Nat), (s.dev.barOpen f = true ∧ s.dev.pwr.asleep = 0 ∧ f < 16) ∧
  (s.dev.flag (CAR_RRCFG f) 31 = false ∧ 12 ≤ v % 32 ∧ v % 32 ≤ 20 ∧ bitAt v 31 = true) :=
  ⟨wOf (wD.setR (CAR_RRCFG 0) 0x0C), 0, 0x8000000E, by decide⟩

theorem witness_BellpullRings_13 : ∃ (s : State) (f k v : Nat), (s.dev.barOpen f = true ∧ s.dev.pwr.asleep = 0 ∧ f < 16 ∧ k < 2)
  ∧ (s.dev.flag (if k = 0 then CAR_CRCFG f else CAR_RRCFG f) 31 = true ∧ bitAt v 31 = false) :=
  ⟨wS, 0, 1, 0, by decide⟩

theorem witness_LogSensorsAndRestarts_1 : ∃ (s : State), (s.dev.car.supp = []) :=
  ⟨wS, by decide⟩

theorem witness_LogSensorsAndRestarts_2 : ∃ (s : State) (x n : Nat), (s.dev.car.supp = [(x, n)] ∧ 0 < n) ∧ (s.dev.car.rateInt =
  s.dev.time / 400000 → SMap.get 0 s.dev.car.rate x < 16) :=
  ⟨wOf { wD with car := { wD.car with supp := [(0x3000, 7)] } }, 0x3000, 7, by decide⟩

theorem witness_LogSensorsAndRestarts_3 : ∃ (s : State), (s.dev.car.jbuf ≠ []) :=
  ⟨wOf { wD with car := { wD.car with jbuf := [default] } }, by decide⟩

theorem witness_LogSensorsAndRestarts_4 : ∃ (s : State) (l r : List (Nat × Nat)) (i v : Nat) (out : List Nat), (s.dev.pwr.asleep
  = 0 ∧ s.dev.flag CAR_STAT 0 = true) ∧ (isSensor i = true ∧ (∀ x, x ∈ r → x.1 ≠ i)) :=
  ⟨wS, [(3, 5)], [(90, 1800)], 4, 640, [90], by decide⟩

theorem witness_LogSensorsAndRestarts_5 : ∃ (s : State), (s.dev.flag CAR_STAT 0 = true ∧ s.dev.pwr.asleep = 0) ∧ (s.dev.fld
  (FLT_ACT 7) 0 2 = 1) :=
  ⟨wOf (wRun.setR (FLT_ACT 7) 1), by decide⟩

theorem witness_LogSensorsAndRestarts_6 : ∃ (s : State), (s.dev.flag CAR_STAT 0 = true ∧ s.dev.pwr.asleep = 0) ∧ (s.dev.fld
  (FLT_ACT 10) 0 2 = 1) :=
  ⟨wOf (wRun.setR (FLT_ACT 10) 1), by decide⟩

theorem witness_LogSensorsAndRestarts_7 : ∃ (s : State) (w : Nat), (s.dev.car.restart = true ∧ s.dev.pwr.asleep = 0 ∧
  s.dev.fence = none) ∧ (w = s.dev.car.trial.getD s.dev.car.active ∧ w < 2) :=
  ⟨wOf { wD with car := { wD.car with restart := true } }, 0, by decide⟩

theorem witness_LogSensorsAndRestarts_8 : ∃ (s : State), (s.dev.car.trial.isSome = true ∧ s.dev.pwr.asleep = 0) :=
  ⟨wOf { wD with car := { wD.car with trial := some 1 } }, by decide⟩

theorem witness_CarillonCommands_1 : ∃ (s : State) (h : Hdr) (pl : List Byte), (Accepted s.dev cIdRead h pl) ∧ (Fits s.dev h
  (2608 + s.dev.partBytes.length)) :=
  ⟨wS, wH, [], by decide⟩

theorem witness_CarillonCommands_2 : ∃ (s : State) (h : Hdr) (pl : List Byte) (rep : List Byte), (Accepted s.dev (cAttest pl) h
  pl) ∧ (byteAt pl 0 = 0 ∨ (byteAt pl 0 = 1 ∧ h.func = 0)) ∧ (s.dev.flag CAR_STAT 5 = false) ∧ (Fits s.dev h 5011) ∧ (rep =
  s.dev.report (if byteAt pl 0 = 0 then some h.part else none) (slice pl 8 64)) :=
  ⟨wS, wH, [1] ++ zeros 7 ++ List.replicate 64 9, wS.dev.report (if byteAt ([1] ++ zeros 7 ++ List.replicate 64 9) 0 = 0 then some wH.part else none) (slice ([1] ++ zeros 7 ++ List.replicate 64 9) 8 64), ⟨by decide, by decide, by decide, by decide, rfl⟩⟩

theorem witness_CarillonCommands_3 : ∃ (s : State) (h : Hdr) (pl : List Byte), (Accepted s.dev (cAttest pl) h pl) ∧ (byteAt pl 0
  = 0 ∨ (byteAt pl 0 = 1 ∧ h.func = 0)) ∧ (s.dev.flag CAR_STAT 5 = true) :=
  ⟨wOf (wD.setFlag CAR_STAT 5 true), wH, [1] ++ zeros 71, by decide⟩

theorem witness_CarillonCommands_4 : ∃ (s : State) (h : Hdr) (pl : List Byte), (Accepted s.dev cSensorRead h pl) ∧ (1 ≤ byteAt
  pl 1 ∧ byteAt pl 0 + byteAt pl 1 ≤ 104) ∧ (Fits s.dev h (4 * byteAt pl 1)) :=
  ⟨wS, wH, [3, 2] ++ zeros 6, by decide⟩

theorem witness_CarillonCommands_5 : ∃ (s : State) (h : Hdr) (pl : List Byte) (xs : List LogRec), (Accepted s.dev cLogRead h pl)
  ∧ (byteAt pl 0 < 2) ∧ (xs = ((if byteAt pl 0 = 0 then s.dev.car.log else s.dev.car.journal.filter (fun x => x.kind !=
  0)).filter (fun x => leAt pl 4 4 < x.boot || (x.boot == leAt pl 4 4 && leAt pl 8 4 ≤ x.seq))).take (leAt pl 12 4)) ∧ (Fits
  s.dev h (8 + 64 * xs.length)) :=
  ⟨wOf { wD with car := { wD.car with log := [default, default] } }, wH, zeros 12 ++ leBytes 4 1, [default], by decide⟩

theorem witness_CarillonCommands_6 : ∃ (s : State) (h : Hdr) (pl : List Byte), (Accepted s.dev cFfRead h pl) ∧ (Fits s.dev h (8
  + 64 * s.dev.car.ff.length)) :=
  ⟨wS, wH, [], by decide⟩

theorem witness_CarillonCommands_7 : ∃ (s : State) (h : Hdr) (pl : List Byte), (Accepted s.dev cFfClear h pl) ∧ (leAt pl 0 2 =
  0xFFFF ∨ leAt pl 0 2 < s.dev.car.ff.length) ∧ (s.dev.car.ff.length ≤ 256) :=
  ⟨wOf { wD with car := { wD.car with ff := [default, default] } }, wH, [1] ++ zeros 7, by decide⟩

theorem witness_CarillonCommands_8 : ∃ (s : State) (h : Hdr) (pl : List Byte), (Accepted s.dev cLogStatus h pl) :=
  ⟨wS, wH, [], by decide⟩

theorem witness_CarillonCommands_9 : ∃ (s : State) (h : Hdr) (pl : List Byte), (Accepted s.dev cUpdateBegin h pl) ∧
  (s.dev.car.update = none ∧ s.dev.car.trial = none) ∧ (leAt pl 0 8 ≤ slotMax) :=
  ⟨wS, wH, zeros 8, ⟨by decide, by decide, Nat.zero_le _⟩⟩

theorem witness_CarillonCommands_10 : ∃ (s : State) (h : Hdr) (pl : List Byte) (n : Nat), (Accepted s.dev cUpdateData h pl) ∧
  (s.dev.car.update = some n) ∧ (leAt pl 0 8 % 256 = 0 ∧ leAt pl 0 8 + leAt pl 8 4 ≤ n) :=
  ⟨wOf { wD with car := { wD.car with update := some 1000 } }, wH, leBytes 8 256 ++ leBytes 4 3 ++ zeros 4 ++ [7, 8, 9], 1000, by decide⟩

theorem witness_CarillonCommands_11 : ∃ (s : State) (h : Hdr) (pl : List Byte) (n : Nat) (x : List Byte), (Accepted s.dev
  cUpdateVerify h pl) ∧ (s.dev.car.update = some n ∧ wroteAll s.dev.car.wrote n s.dev.car.wrote.length 0 = true) ∧ (x =
  s.dev.image s.dev.idleSlot) :=
  ⟨wOf { wD with car := { wD.car with update := some 3, wrote := [(0, 3)], imgB := [1, 2, 3] } }, wH, [], 3, [1, 2, 3], by decide⟩

theorem witness_CarillonCommands_12 : ∃ (s : State) (h : Hdr) (pl : List Byte), (Accepted s.dev cUpdateActivate h pl) ∧
  (s.dev.car.verified = true ∧ 1 ≤ leAt pl 0 4 ∧ leAt pl 0 4 ≤ 3600) :=
  ⟨wOf { wD with car := { wD.car with verified := true } }, wH, leBytes 4 60 ++ zeros 4, by decide⟩

theorem witness_CarillonCommands_13 : ∃ (s : State) (h : Hdr) (pl : List Byte) (n : Nat), (Accepted s.dev cUpdateCommit h pl) ∧
  (s.dev.flag CAR_STAT 4 = true) ∧ (n = max s.dev.rollback (s.dev.rg CAR_SVN)) :=
  ⟨wOf { (wD.setFlag CAR_STAT 4 true).setR CAR_SVN 6 with car := { wD.car with trial := some 1 } }, wH, [], 6, by decide⟩

theorem witness_CarillonCommands_14 : ∃ (s : State) (h : Hdr) (pl : List Byte), (Accepted s.dev cUpdateStatus h pl) :=
  ⟨wS, wH, [], by decide⟩

theorem witness_SmbusAndMctp_1 : ∃ (s : State) (port : Nat), (port < 2 ∧ s.dev.pwr.asleep ≠ 2) :=
  ⟨wS, 1, by decide⟩

theorem witness_SmbusAndMctp_2 : ∃ (s : State) (port i : Nat), (port < 2 ∧ s.dev.pwr.asleep ≠ 2 ∧ i < 37) :=
  ⟨wS, 1, 36, by decide⟩

theorem witness_SmbusAndMctp_3 : ∃ (s : State) (port : Nat), (port < 2 ∧ s.dev.pwr.asleep ≠ 2) :=
  ⟨wS, 0, by decide⟩

theorem witness_SmbusAndMctp_4 : ∃ (s : State) (port : Nat), (port < 2 ∧ s.dev.pwr.asleep ≠ 2) :=
  ⟨wS, 0, by decide⟩

theorem witness_SmbusAndMctp_5 : ∃ (s : State) (port eid : Nat), (port < 2 ∧ s.dev.pwr.asleep ≠ 2 ∧ 1 ≤ eid ∧ eid ≤ 254) :=
  ⟨wS, 1, 9, by decide⟩

theorem witness_SmbusAndMctp_6 : ∃ (s : State) (port : Nat), (port < 2 ∧ s.dev.pwr.asleep ≠ 2) :=
  ⟨wS, 1, by decide⟩

theorem witness_SmbusAndMctp_7 : ∃ (s : State) (port : Nat), (port < 2 ∧ s.dev.pwr.asleep ≠ 2) :=
  ⟨wS, 1, by decide⟩

theorem witness_SmbusAndMctp_8 : ∃ (s : State) (port : Nat), (port < 2 ∧ s.dev.pwr.asleep ≠ 2) :=
  ⟨wS, 1, by decide⟩

theorem witness_SmbusAndMctp_9 : ∃ (s : State) (port : Nat), (port < 2 ∧ s.dev.pwr.asleep ≠ 2) :=
  ⟨wS, 1, by decide⟩

theorem witness_SmbusAndMctp_10 : ∃ (s : State) (port : Nat) (m : List Byte), (s.dev.pwr.asleep = 0 ∧ m.length ≤ 8192 ∧
  s.dev.flag CAR_STAT 0 = true) ∧ (leAt m 0 2 = 0x0E07 ∧ s.dev.refuse cLogStatus (hdrOf 0xFE port m) (payOf m) = none) :=
  ⟨wS, 1, wMsg, by decide⟩

theorem witness_SmbusAndMctp_11 : ∃ (s : State) (port : Nat) (m : List Byte), (s.dev.pwr.asleep = 0 ∧ m.length ≤ 8192 ∧
  s.dev.flag CAR_STAT 0 = true ∧ s.dev.flag CAR_STAT 7 = false) ∧ (leAt m 0 2 = 0x0E06 ∧ (hdrOf 0xFE port m).rsvd = 0 ∧ (hdrOf
  0xFE port m).part < 16 ∧ (hdrOf 0xFE port m).flags < 4) ∧ ((payOf m).length = 8 ∧ (s.dev.fn 0xFE).outst = []) :=
  ⟨wS, 1, leBytes 2 0x0E06 ++ leBytes 2 1 ++ zeros 8 ++ leBytes 4 8 ++ zeros 48, by decide⟩

theorem witness_CalendsCommands_1 : ∃ (s : State) (h : Hdr) (pl : List Byte), (Accepted s.dev cCalStatus h pl) :=
  ⟨wS, wH, [], by decide⟩

theorem witness_CalendsCommands_2 : ∃ (s : State) (h : Hdr) (pl : List Byte) (p : Nat), (Accepted s.dev cPartAssign h pl) ∧ (p =
  byteAt pl 0 ∧ p < 16) ∧ (∀ r, r ∈ maskBits 16 (leAt pl 2 2) → s.dev.regPart r = none ∧ s.dev.regionBad r = false) ∧
  (s.dev.running p = false) :=
  ⟨wOf ((wOn.setR (FAB_REMAP 2 32) 0x80000000).setR (CAL_REGPART 2) 0), wH, leBytes 1 3 ++ zeros 1 ++ leBytes 2 4 ++ zeros 4, 3, by decide⟩

theorem witness_CalendsCommands_3 : ∃ (s : State) (h : Hdr) (pl : List Byte) (p : Nat), (Accepted s.dev cPartRemove h pl) ∧ (p =
  byteAt pl 0 ∧ p < 16 ∧ s.dev.bstate p = 3) ∧ (∀ r, r ∈ maskBits 16 (leAt pl 2 2) → s.dev.regPart r = some p) :=
  ⟨wOf ((wRun.setF (TAB_BSTAT 1) 16 3 3).wrN (cmnBase 1) 8 77), wH, leBytes 1 1 ++ zeros 1 ++ leBytes 2 2 ++ zeros 4, 1, by decide⟩

theorem witness_CalendsCommands_4 : ∃ (s : State) (h : Hdr) (pl : List Byte) (p : Nat), (Accepted s.dev cPartRemove h pl) ∧ (p =
  byteAt pl 0 ∧ p < 16 ∧ s.dev.bstate p ≠ 3) ∧ (∀ r, r ∈ maskBits 16 (leAt pl 2 2) → s.dev.regPart r = some p) :=
  ⟨wOf wRun, wH, leBytes 1 1 ++ zeros 1 ++ leBytes 2 2 ++ zeros 4, 1, by decide⟩

theorem witness_CalendsCommands_5 : ∃ (s : State) (h : Hdr) (pl : List Byte) (p : Nat), (Accepted s.dev cPartStatus h pl) ∧ (p =
  byteAt pl 0 ∧ p < 16 ∧ (h.func = 0 ∨ h.func = p)) :=
  ⟨wOf wRun, wH, [1] ++ zeros 7, 1, by decide⟩

theorem witness_CalendsCommands_6 : ∃ (s : State) (h : Hdr) (pl : List Byte), (Accepted s.dev cPlanSet h pl) :=
  ⟨wS, wH, leBytes 4 0x4E414C50 ++ leBytes 2 1 ++ zeros 2 ++ [1, 1, 1, 0, 1, 0] ++ zeros 130, by decide⟩

theorem witness_CalendsCommands_7 : ∃ (s : State) (h : Hdr) (pl : List Byte), (Accepted s.dev cPlanRead h pl) ∧ (Fits s.dev h
  s.dev.cal.kept.length) :=
  ⟨wS, wH, [], by decide⟩

theorem witness_CalendsCommands_8 : ∃ (s : State) (h : Hdr) (pl : List Byte), (Accepted s.dev cPlanClear h pl) :=
  ⟨wS, wH, [], by decide⟩

theorem witness_CalendsSequence_1 : ∃ (s : State) (straps t1 t2 : Nat), (s.dev.pins.pwrgd = false ∧ s.dev.pins.thermtrip = false
  ∧ s.dev.pwr.asleep ≠ 2) :=
  ⟨wOf { wD with pins := { wD.pins with pwrgd := false } }, 0, 100, 130, by decide⟩

theorem witness_CalendsSequence_2 : ∃ (s : State) (straps t1 t2 : Nat), (s.dev.pins.pwrgd = true) :=
  ⟨wOf { wD with pins := { wD.pins with pwrgd := true } }, 0, 100, 130, by decide⟩

theorem witness_CalendsSequence_3 : ∃ (s : State) (w : Nat), (w < 8 ∧ s.dev.cal.on = true ∧ s.dev.flag CAL_WAVE w = false) :=
  ⟨wOf { wOn with cal := { wOn.cal with on := true } }, 2, by decide⟩

theorem witness_CalendsSequence_4 : ∃ (s : State), (s.dev.cal.on = true) :=
  ⟨wOf { wNbr with cal := { wNbr.cal with on := true } }, by decide⟩

theorem witness_CalendsSequence_5 : ∃ (s : State) (q : Nat) (x : List Byte), (q < 8 ∧ s.dev.cal.on = true ∧ x.length = 64 ∧
  byteAt x 0 = 1) ∧ ((s.dev.lport q).trained = true ∧ (s.dev.portState q = 1 ∨ s.dev.portState q = 2)) :=
  ⟨wOf { wNbr.setLport 0 { (default : LPort) with trained := true } with cal := { wNbr.cal with on := true } }, 0, [1, 1, 0, 0] ++ zeros 60, by decide⟩

theorem witness_CalendsSequence_6 : ∃ (s : State) (ms : Nat), (s.dev.cal.on = true ∧ s.dev.cal.waited = false ∧ s.dev.fld
  CAL_STAT 0 3 = 2) ∧ (s.dev.fld CAL_HELLOWAIT 0 16 ≤ ms) :=
  ⟨wOf { wD.setF CAL_STAT 0 3 2 with cal := { wD.cal with on := true } }, 10000, by decide⟩

theorem witness_CalendsSequence_7 : ∃ (s : State) (ms : Nat), (s.dev.cal.on = true ∧ s.dev.cal.waited = false ∧
  s.dev.cal.elected = false ∧ s.dev.fld CAL_STAT 0 3 = 2) ∧ (s.dev.cal.plan = [] ∧ (∀ q, q < 8 → s.dev.portState q ≠ 2)) ∧ (200
  ≤ ms ∧ ms < s.dev.fld CAL_HELLOWAIT 0 16) :=
  ⟨wOf { wD.setF CAL_STAT 0 3 2 with cal := { wD.cal with on := true } }, 200, by decide⟩

theorem witness_CalendsSequence_8 : ∃ (s : State) (ms : Nat), (s.dev.cal.on = true ∧ s.dev.cal.waited = true ∧ s.dev.cal.elected
  = false) :=
  ⟨wOf { wD.setF CAL_STAT 0 3 2 with cal := { wD.cal with on := true, waited := true } }, 400, by decide⟩

theorem witness_CalendsSequence_9 : ∃ (s : State) (q root hops : Nat), (s.dev.cal.on = true ∧ q < 6 ∧ q % 2 = 1 ∧ root ≠
  s.dev.serial ∧ s.dev.portUp (2 * (q / 2)) = true) ∧ (s.dev.flag FLT_STAT 4 = false) :=
  ⟨wOf { wNbr with cal := { wNbr.cal with on := true } }, 1, 9, 2, by decide⟩

theorem witness_CalendsSequence_10 : ∃ (s : State) (q hops : Nat), (s.dev.cal.on = true ∧ q < 6 ∧ q % 2 = 1 ∧
  s.dev.cal.probes.contains (q / 2, none) = true) :=
  ⟨wOf { wNbr with cal := { wNbr.cal with on := true, probes := [(0, none), (1, some 1), (2, some 1)] } }, 1, 4, by decide⟩

theorem witness_CalendsSequence_11 : ∃ (s : State) (k : Nat), (s.dev.cal.probes.contains (k, none) = true) :=
  ⟨wOf { wNbr with cal := { wNbr.cal with on := true, probes := [(0, none), (1, some 1), (2, some 1)] } }, 0, by decide⟩

theorem witness_CalendsSequence_12 : ∃ (s : State) (ms : Nat), (s.dev.fld CAL_STAT 0 3 = 3 ∧ s.dev.cal.ddr = true ∧
  s.dev.cal.routes = true ∧ s.dev.fld CAL_WAVE 0 16 = 65535) :=
  ⟨wOf { (wD.setF CAL_STAT 0 3 3).setR CAL_WAVE 65535 with cal := { wD.cal with ddr := true, routes := true } }, 1800, by decide⟩

theorem witness_PowerCommands_1 : ∃ (s : State) (h : Hdr) (pl : List Byte), (Accepted s.dev cPowerState h pl) ∧ (byteAt pl 0 < 3
  ∧ s.dev.pwr.change = none ∧ s.dev.fld PWR_STATE 0 3 < 3) ∧ (lowerPoint (byteAt pl 0) (s.dev.fld PWR_STATE 8 3) =
  s.dev.pwr.prev) :=
  ⟨wS, wH, [1] ++ zeros 7, by decide⟩

theorem witness_PowerCommands_2 : ∃ (s : State) (h : Hdr) (pl : List Byte), (Accepted s.dev cPowerState h pl) ∧ (byteAt pl 0 < 3
  ∧ s.dev.pwr.change = none ∧ s.dev.fld PWR_STATE 0 3 < 3 ∧ s.dev.pwr.asleep = 0) ∧ (lowerPoint (byteAt pl 0) (s.dev.fld
  PWR_STATE 8 3) ≠ s.dev.pwr.prev) :=
  ⟨wS, wH, [2] ++ zeros 7, by decide⟩

theorem witness_PowerCommands_3 : ∃ (s : State) (h : Hdr) (pl : List Byte), (Accepted s.dev cPowerState h pl) ∧ ((byteAt pl 0 =
  3 ∨ byteAt pl 0 = 4) ∧ s.dev.pwr.change = none ∧ s.dev.fld PWR_STATE 0 3 < 3) ∧ (∀ p, p < 16 → s.dev.running p = false) :=
  ⟨wS, wH, [3] ++ zeros 7, by decide⟩

theorem witness_PowerCommands_4 : ∃ (s : State) (h : Hdr) (pl : List Byte) (p : Nat), (Accepted s.dev cPowerState h pl) ∧
  ((byteAt pl 0 = 3 ∨ byteAt pl 0 = 4) ∧ p < 16 ∧ s.dev.running p = true) ∧ (s.dev.fld PWR_STATE 0 3 ≠ 3 ∧ s.dev.fld PWR_STATE 0
  3 ≠ 4) :=
  ⟨wOf wRun, wH, [4] ++ zeros 7, 1, by decide⟩

theorem witness_PowerCommands_5 : ∃ (s : State) (h : Hdr) (pl : List Byte) (c : Nat), (Accepted s.dev cPowerVote h pl) ∧ (c =
  (if h.func = 0 ∧ h.part = 0 then cliHost else cliPart h.part) ∧ byteAt pl 0 < 3) ∧ (∀ x, x ∈ maskBits 128 (leAt pl 8 16) →
  s.dev.mayVote c x = true) :=
  ⟨wOf wOn, wH, [2] ++ zeros 7 ++ leBytes 16 9, cliPart 1, by decide⟩

theorem witness_PowerCommands_6 : ∃ (s : State) (h : Hdr) (pl : List Byte), (Accepted s.dev cPowerStatus h pl) :=
  ⟨wOf wOn, wH, [], by decide⟩

theorem witness_PowerCommands_7 : ∃ (s : State) (h : Hdr) (pl : List Byte), (Accepted s.dev cThermalConfig h pl) ∧ (sInt 16
  (leAt pl 0 2) < sInt 16 (leAt pl 2 2) ∧ sInt 16 (leAt pl 2 2) ≤ 1680) ∧ (20000 ≤ leAt pl 4 4 ∧ leAt pl 4 4 ≤ 110000) :=
  ⟨wS, wH, leBytes 2 1500 ++ leBytes 2 1600 ++ leBytes 4 90000, by decide⟩

theorem witness_PowerCommands_8 : ∃ (s : State) (h : Hdr) (pl : List Byte), (Accepted s.dev cPolicySet h pl) ∧ (byteAt pl 0 < 4)
  :=
  ⟨wOf wOn, wH, [3, 0] ++ leBytes 2 1600 ++ zeros 4, by decide⟩

theorem witness_PowerCommands_9 : ∃ (s : State) (h : Hdr) (pl : List Byte), (Accepted s.dev cRtcAlarm h pl) :=
  ⟨wS, wH, leBytes 8 5000 ++ [1] ++ zeros 7, by decide⟩

theorem witness_PowerCommands_10 : ∃ (s : State) (h : Hdr) (pl : List Byte), (Accepted s.dev cAonWrite h pl) ∧ (aonRange (leAt
  pl 0 4) (pl.drop 8).length = true) :=
  ⟨wS, wH, leBytes 4 0x1000 ++ leBytes 4 8 ++ List.replicate 8 0x5A#8, by decide⟩

theorem witness_PowerCommands_11 : ∃ (s : State) (h : Hdr) (pl : List Byte), (Accepted s.dev cAonRead h pl) ∧ (aonRange (leAt pl
  0 4) (leAt pl 4 4) = true ∧ leAt pl 4 4 % 8 = 0) ∧ (Fits s.dev h (leAt pl 4 4)) :=
  ⟨wS, wH, leBytes 4 0x1000 ++ leBytes 4 16, by decide⟩

theorem witness_DomainsPointsAndNaps_1 : ∃ (s : State) (ag : Agent) (c w v : Nat) (on : Bool), (voteMine ag c = true ∧ c < 35 ∧
  w < 4) :=
  ⟨wOf wOn, .func 1, 2, 0, 0xFFFFFFFF, true, by decide⟩

theorem witness_DomainsPointsAndNaps_2 : ∃ (s : State) (x : Nat), (x < 120 ∧ s.dev.pwr.asleep = 0) ∧ (s.dev.voted x ≠
  s.dev.domLevel x ∧ s.dev.voted x ≠ 0) ∧ (s.dev.voted x = 2 ∨ s.dev.domLevel x ≠ 2 ∨ s.dev.domBusy x = false) :=
  ⟨wOf (wOn.setVote cliPolicy 4 1), 4, by decide⟩

theorem witness_DomainsPointsAndNaps_3 : ∃ (s : State) (x : Nat), (x < 96 ∧ x % 6 < 4 ∧ s.dev.pwr.asleep = 0) ∧ (s.dev.voted x =
  0 ∧ s.dev.domLevel x ≠ 0 ∧ (s.dev.domLevel x = 2 → s.dev.domBusy x = false)) :=
  ⟨wOf (wOn.setR (CAL_REGPART 0) 0), 0, by decide⟩

theorem witness_DomainsPointsAndNaps_4 : ∃ (s : State) (t : Nat), (s.dev.pwr.change = some (t, 0)) :=
  ⟨wOf { wD with pwr := { wD.pwr with change := some (2, 0) } }, 2, by decide⟩

theorem witness_DomainsPointsAndNaps_5 : ∃ (s : State) (t : Nat), (s.dev.pwr.change = some (t, 1) ∧ t < 3) ∧ (t = lowerPoint
  (s.dev.fld PWR_STATE 4 3) (s.dev.fld PWR_STATE 8 3)) :=
  ⟨wOf { wD.setR PWR_STATE 0x205 with pwr := { wD.pwr with change := some (2, 1) } }, 2, by decide⟩

theorem witness_DomainsPointsAndNaps_6 : ∃ (s : State), (s.dev.pwr.asleep = 0 ∧ s.dev.cal.on = true ∧ s.dev.pwr.warm < 99) ∧
  (sInt 16 (s.dev.fld PWR_THERM 16 16) ≤ sInt 16 (s.dev.fld CAR_TMAX 0 16) ∧ sInt 16 (s.dev.fld CAR_TMAX 0 16) < sInt 16
  (s.dev.fld PWR_THERM 0 16)) ∧ (s.dev.pwr.hotMs % 10 = 0 ∧ s.dev.pwr.powers.length < 9 ∧ s.dev.fld PWR_STATE 8 3 < 2) :=
  ⟨wOf { (wD.setR CAR_TMAX 0x650).setR PWR_THERM 0x6400690 with cal := { wD.cal with on := true } }, by decide⟩

theorem witness_DomainsPointsAndNaps_7 : ∃ (s : State), (s.dev.pwr.asleep = 0 ∧ s.dev.cal.on = true ∧ s.dev.pwr.warm < 99) ∧
  (sInt 16 (s.dev.fld CAR_TMAX 0 16) < sInt 16 (s.dev.fld PWR_THERM 16 16) - 80 ∧ sInt 16 (s.dev.fld CAR_TMAX 0 16) < sInt 16
  (s.dev.fld PWR_THERM 0 16)) ∧ (s.dev.pwr.coolMs = 99 ∧ s.dev.pwr.powers.length < 9 ∧ s.dev.fld PWR_STATE 8 3 = 2 ∧ s.dev.flag
  PWR_GSTAT 0 = false) :=
  ⟨wOf { (wD.setR PWR_STATE 0x202).setR PWR_THERM 0x6400690 with cal := { wD.cal with on := true }, pwr := { wD.pwr with coolMs := 99 } }, by decide⟩

theorem witness_DomainsPointsAndNaps_8 : ∃ (s : State) (i : Nat), (s.dev.pwr.asleep = 0 ∧ s.dev.cal.on = true ∧ s.dev.pwr.volt =
  false) ∧ (s.dev.fld (FLT_ACT 6) 0 2 = 1 ∧ sInt 16 (s.dev.fld CAR_TMAX 0 16) < sInt 16 (s.dev.fld PWR_THERM 0 16)) :=
  ⟨wOf { (wD.setR (FLT_ACT 6) 1).setR PWR_THERM 0x6400690 with cal := { wD.cal with on := true } }, 80, by decide⟩

theorem witness_DomainsPointsAndNaps_9 : ∃ (s : State) (k p n : Nat), (k < 64 ∧ s.dev.regPart (k / 4) = some p ∧ s.dev.running p
  = true ∧ s.dev.flag PWR_POLICY 1 = true) ∧ (n = s.dev.beat p ∧ (s.dev.region (k / 4)).beat = n ∧ s.dev.naps.contains k =
  false) ∧ (s.dev.quadCores k ≠ [] ∧ (s.dev.quadCores k).all (fun q => s.dev.coreQuiet q n) = true) ∧ (s.dev.rg (TAB_BCOUNT p) +
  s.dev.fld PWR_NAPCFG 0 16 + 600 ≤ s.dev.fld (TAB_BPERIOD p) 0 29 + s.dev.fld (TAB_CHOFF (k / 4)) 0 29) :=
  ⟨wOf wNap, 0, 1, 9, by decide⟩

theorem witness_DomainsPointsAndNaps_10 : ∃ (s : State) (k p : Nat), (k < 64 ∧ s.dev.naps.contains k = true ∧ s.dev.regPart (k /
  4) = some p ∧ s.dev.running p = true) :=
  ⟨wOf { wNap with naps := [0] }, 0, 1, by decide⟩

theorem witness_SleepAndSupplies_1 : ∃ (s : State) (f v : Nat), (s.dev.pwr.asleep = 1 ∧ f < 16 ∧ s.dev.pwr.tails = [(f, some v)]
  ∧ s.dev.pwr.prev < 3) :=
  ⟨wOf { wD with pwr := { wD.pwr with asleep := 1, prev := 1, tails := [(0, some 5)] } }, 0, 5, by decide⟩

theorem witness_SleepAndSupplies_2 : ∃ (s : State), (s.dev.pwr.asleep = 0 ∧ s.dev.flag PWR_ALARM_HI 31 = true) :=
  ⟨wOf (((wD.setR PWR_ALARM_HI 0x80000000).setR PWR_ALARM_LO 77).setR (TOC_ENABLE 288) 0x40000), by decide⟩

theorem witness_SleepAndSupplies_3 : ∃ (s : State), (s.dev.pwr.asleep = 2 ∧ s.dev.flag PWR_ALARM_HI 31 = true) :=
  ⟨wOf { wD.setR PWR_ALARM_HI 0x80000000 with pwr := { wD.pwr with asleep := 2 } }, by decide⟩

theorem witness_SleepAndSupplies_4 : ∃ (s : State), (s.dev.pwr.asleep = 2 ∧ s.dev.flag PWR_AONCTL 0 = false) :=
  ⟨wOf { wD.setR PWR_AONCTL 0 with pwr := { wD.pwr with asleep := 2, sram := [(0x1000, 7#8)] } }, by decide⟩

theorem witness_SleepAndSupplies_5 : ∃ (s : State), (s.dev.pwr.asleep ≠ 2) :=
  ⟨wOf wRun, by decide⟩

theorem witness_SleepAndSupplies_6 : ∃ (s : State), (s.dev.pins.pwrgd = true ∧ s.dev.pins.pwrEn = true) :=
  ⟨wOf { wRun.setR PWR_RTC_LO 99 with pins := { wRun.pins with pwrgd := true, pwrEn := true } }, by decide⟩

theorem witness_SleepAndSupplies_7 : ∃ (s : State), (s.dev.pins.pwrgd = true ∧ s.dev.pins.pwrEn = false) :=
  ⟨wOf { wRun with pins := { wRun.pins with pwrgd := true, pwrEn := false } }, by decide⟩

theorem witness_SleepAndSupplies_8 : ∃ (s : State), (s.dev.pins.pwrEn = false ∧ s.dev.pwr.asleep ≠ 2) :=
  ⟨wOf { wD with pins := { wD.pins with pwrEn := false } }, by decide⟩

theorem witness_SleepAndSupplies_9 : ∃ (s : State), True :=
  ⟨wOf wRun, by decide⟩

theorem witness_FaultCommands_1 : ∃ (s : State) (h : Hdr) (pl : List Byte), (Accepted s.dev cFaultStatus h pl) :=
  ⟨wS, wH, [], by decide⟩

theorem witness_FaultCommands_2 : ∃ (s : State) (h : Hdr) (pl : List Byte) (ps : List Nat), (Accepted s.dev cMuteSet h pl) ∧ (ps
  = maskBits 16 (leAt pl 0 2) ∧ ps ≠ []) ∧ (h.func ≠ 0 → ∀ p, p ∈ ps → p = h.func) :=
  ⟨wOf wRun, wH, leBytes 2 6 ++ zeros 6, [1, 2], by decide⟩

theorem witness_FaultCommands_3 : ∃ (s : State) (h : Hdr) (pl : List Byte), (Accepted s.dev cMuteSet h pl) ∧ (h.func ≠ 0 ∧ (∃ p,
  p ∈ maskBits 16 (leAt pl 0 2) ∧ p ≠ h.func)) :=
  ⟨wS, { wH with func := 1 }, leBytes 2 6 ++ zeros 6, by decide⟩

theorem witness_FaultCommands_4 : ∃ (s : State) (h : Hdr) (pl : List Byte) (ps : List Nat), (Accepted s.dev cMuteClear h pl) ∧
  (ps = maskBits 16 (leAt pl 0 2)) ∧ (h.func ≠ 0 → (∀ p, p ∈ ps → p = h.func) ∧ byteAt pl 2 &&& 0x2C = 0) ∧ (∀ p, p ∈ ps →
  s.dev.muteHeld p (byteAt pl 2) = false) :=
  ⟨wOf (wRun.setR (FLT_PMUTE 1) 0x183), wH, leBytes 2 2 ++ [0x81] ++ zeros 5, [1], by decide⟩

theorem witness_FaultCommands_5 : ∃ (s : State) (h : Hdr) (pl : List Byte) (ps : List Nat) (p : Nat), (Accepted s.dev cMuteClear
  h pl) ∧ (ps = maskBits 16 (leAt pl 0 2)) ∧ (h.func ≠ 0 → (∀ p, p ∈ ps → p = h.func) ∧ byteAt pl 2 &&& 0x2C = 0) ∧ (p ∈ ps ∧
  s.dev.muteHeld p (byteAt pl 2) = true) :=
  ⟨wOf (wRun.setR (FLT_PMUTE 1) 0x380), wH, leBytes 2 2 ++ [0x80] ++ zeros 5, [1], 1, by decide⟩

theorem witness_FaultCommands_6 : ∃ (s : State) (h : Hdr) (pl : List Byte) (ps : List Nat), (Accepted s.dev cChoke h pl) ∧ (ps =
  maskBits 16 (leAt pl 0 2)) ∧ (h.func ≠ 0 → ∀ p, p ∈ ps → p = h.func) :=
  ⟨wOf wRun, wH, leBytes 2 2 ++ zeros 6, [1], by decide⟩

theorem witness_FaultCommands_7 : ∃ (s : State) (h : Hdr) (pl : List Byte), (Accepted s.dev cPartScrub h pl) ∧ (s.dev.choked
  h.part = true) :=
  ⟨wOf ((wRun.setR (FLT_PMUTE 1) 0x380).wrN (cmnBase 0) 8 5), wH, [], by decide⟩

theorem witness_FaultCommands_8 : ∃ (s : State) (h : Hdr) (pl : List Byte), (Accepted s.dev cPartScrub h pl) ∧ (s.dev.choked
  h.part = false) :=
  ⟨wS, wH, [], by decide⟩

theorem witness_FaultCommands_9 : ∃ (s : State) (h : Hdr) (pl : List Byte) (n q : Nat), (Accepted s.dev cFence h pl) ∧ (n = leAt
  pl 0 2 ∧ n < 256 ∧ byteAt pl 2 = 0 ∧ byteAt pl 3 < 2) ∧ (s.dev.physOf n = some q ∧ s.dev.fence = none ∧ s.dev.fenceList.length
  < 256) ∧ ((s.dev.spares (n / 16)).isEmpty = true ∨ s.dev.entryFree n = true ∨ (s.dev.logPart n).any s.dev.running = true) :=
  ⟨wOf ((wOn.setF (TAB_BSTAT 1) 16 3 3).setR (FAB_REMAP 0 15) 15), wH, leBytes 2 3 ++ [0, 1] ++ zeros 4, 3, 3, by decide⟩

theorem witness_FaultCommands_10 : ∃ (s : State) (h : Hdr) (pl : List Byte) (n q : Nat), (Accepted s.dev cFence h pl) ∧ (n =
  leAt pl 0 2 ∧ n < 256 ∧ byteAt pl 2 = 0 ∧ byteAt pl 3 < 2) ∧ (s.dev.physOf n = some q ∧ s.dev.fence = none ∧
  s.dev.fenceList.length < 256) ∧ ((s.dev.spares (n / 16)).isEmpty = false ∧ s.dev.entryFree n = false ∧ (s.dev.logPart n).any
  s.dev.running = false) :=
  ⟨wOf (wOn.setR (FAB_REMAP 0 15) 15), wH, leBytes 2 3 ++ [0, 1] ++ zeros 4, 3, 3, by decide⟩

theorem witness_FaultCommands_11 : ∃ (s : State) (h : Hdr) (pl : List Byte) (n : Nat), (Accepted s.dev cFence h pl) ∧ (n = leAt
  pl 0 2 ∧ n < 256 ∧ byteAt pl 2 = 0 ∧ byteAt pl 3 < 2) ∧ (s.dev.physOf n = none) :=
  ⟨wOf wOn, wH, leBytes 2 200 ++ zeros 6, 200, by decide⟩

theorem witness_FaultCommands_12 : ∃ (s : State) (h : Hdr) (pl : List Byte) (r u p : Nat), (Accepted s.dev cFence h pl) ∧ (r =
  leAt pl 0 2 ∧ r < 16 ∧ u = byteAt pl 2 ∧ (u = 1 ∨ u = 2) ∧ byteAt pl 3 < 2) ∧ (s.dev.fenceList.length < 256 ∧ s.dev.regPart r
  = some p) :=
  ⟨wOf wOn, wH, leBytes 2 1 ++ [1, 0] ++ zeros 4, 1, 1, 1, by decide⟩

theorem witness_FaultCommands_13 : ∃ (s : State) (h : Hdr) (pl : List Byte), (Accepted s.dev cFenceList h pl) ∧ (Fits s.dev h (8
  + 4 * s.dev.fenceList.length)) :=
  ⟨wOf { wD with fenceList := [(0, 2, 5)] }, wH, [], by decide⟩

theorem witness_FaultCommands_14 : ∃ (s : State) (h : Hdr) (pl : List Byte), (Accepted s.dev cFenceClear h pl) :=
  ⟨wOf { wD with fenceList := [(0, 2, 5)] }, wH, [], by decide⟩

theorem witness_FaultCommands_15 : ∃ (s : State) (h : Hdr) (pl : List Byte), (Accepted s.dev cFaultConfig h pl) ∧ (byteAt pl 0 <
  2 ∧ byteAt pl 1 ≠ 0 ∧ (∀ k, k < 11 → byteAt pl (8 + k) ≤ 2)) :=
  ⟨wS, wH, [1, 4, 16, 8, 255, 255, 0, 0] ++ List.replicate 11 2#8 ++ zeros 5, by decide⟩

theorem witness_FaultCommands_16 : ∃ (s : State) (h : Hdr) (pl : List Byte), (Accepted s.dev cGpioSafe h pl) ∧ (byteAt pl 0 < 16
  ∧ byteAt pl 1 < 2 ∧ byteAt pl 2 < 16 ∧ byteAt pl 3 < 4) :=
  ⟨wS, wH, [3, 1, 1, 0] ++ zeros 4, by decide⟩

theorem witness_FaultCommands_17 : ∃ (s : State) (h : Hdr) (pl : List Byte) (rs : List Nat), (Accepted s.dev cSpareReserve h pl)
  ∧ (rs = maskBits 16 (leAt pl 0 2) ∧ byteAt pl 2 < 4) ∧ (∀ r, r ∈ rs → min (s.dev.goodSites r).length (s.dev.usable - byteAt pl
  2) ≠ 0) :=
  ⟨wOf (wOn.setR (CAL_REGPART 2) 0), wH, leBytes 2 4 ++ [2] ++ zeros 5, [2], by decide⟩

theorem witness_FaultEngines_1 : ∃ (s : State) (q n : Nat), (q < 256 ∧ s.dev.fld FLT_CFG 0 8 ≤ (s.dev.core q).hang ∧ 0 <
  (s.dev.core q).hang) ∧ (s.dev.logOf q = some n ∧ s.dev.flag FLT_CFG 31 = true) :=
  ⟨wOf (wCore.setCore 0 { wCore.core 0 with hang := 8 }), 0, 0, by decide⟩

theorem witness_FaultEngines_2 : ∃ (s : State) (q : Nat), ((s.dev.core q).hang < s.dev.fld FLT_CFG 0 8) :=
  ⟨wS, 0, by decide⟩

theorem witness_FaultEngines_3 : ∃ (s : State) (n q : Nat) (b : Bool) (rest : List (Nat × Bool)), (s.dev.fence = none ∧
  s.dev.failedQ = (n, b) :: rest ∧ n < 256 ∧ s.dev.physOf n = some q) :=
  ⟨wOf { wOn with failedQ := [(3, false)] }, 3, 3, false, [], by decide⟩

theorem witness_FaultEngines_4 : ∃ (s : State) (f : Fence), (s.dev.fence = some f ∧ s.dev.fenceRuns f = false ∧ f.spare = none)
  :=
  ⟨wOf { wOn with fence := some ⟨3, 3, none, false, false, 0, 0⟩ }, ⟨3, 3, none, false, false, 0, 0⟩, by decide⟩

theorem witness_FaultEngines_5 : ∃ (s : State) (f : Fence) (q : Nat), (s.dev.fence = some f ∧ s.dev.fenceRuns f = false ∧
  f.spare = some q ∧ f.committed = false ∧ s.dev.entryFree f.core = true) ∧ (f.core < 256 ∧ f.failed < 256 ∧ q < 256 ∧ q ≠
  f.failed ∧ s.dev.ecc = []) :=
  ⟨wOf { ((wOn.wrN (csBase 3) 8 77).setR (NEU_CFG 3) 9).setF (TAB_BSTAT 1) 16 3 3 with fence := some ⟨3, 3, some 15, false, false, 0, 0⟩ }, ⟨3, 3, some 15, false, false, 0, 0⟩, 15, by decide⟩

theorem witness_FaultEngines_6 : ∃ (s : State) (f : Fence) (q : Nat), (s.dev.fence = some f ∧ s.dev.fenceRuns f = false ∧
  f.spare = some q ∧ f.committed = true ∧ f.noResume = true ∧ s.dev.entryFree f.core = true) ∧ (f.core < 256 ∧ f.failed < 256 ∧
  q < 256 ∧ q / 16 = f.core / 16 ∧ s.dev.fenceList.length < 256) :=
  ⟨wOf { wOn.setF (TAB_BSTAT 1) 16 3 3 with fence := some ⟨3, 3, some 15, true, true, 0, 0⟩ }, ⟨3, 3, some 15, true, true, 0, 0⟩, 15, by decide⟩

theorem witness_FaultEngines_7 : ∃ (s : State) (f : Fence), (s.dev.fence = some f ∧ s.dev.fenceRuns f = false ∧ f.spare.isSome =
  true ∧ s.dev.entryFree f.core = false) :=
  ⟨wOf { wOn with fence := some ⟨3, 3, some 15, true, true, 0, 0⟩ }, ⟨3, 3, some 15, true, true, 0, 0⟩, by decide⟩

theorem witness_FaultEngines_8 : ∃ (s : State) (f : Fence) (p : Nat), (s.dev.fence = some f ∧ s.dev.logPart f.core = some p ∧
  s.dev.running p = true ∧ s.dev.fld FLT_CFG 8 8 ≤ f.waitBeats) :=
  ⟨wOf { wRun with fence := some ⟨3, 3, some 15, true, false, 0, 20⟩ }, ⟨3, 3, some 15, true, false, 0, 20⟩, 1, by decide⟩

theorem witness_FaultEngines_9 : ∃ (s : State), (s.dev.fence = none) :=
  ⟨wOf (wOn.setR (FAB_DREMAP 1 3) 7), by decide⟩

theorem witness_FaultEngines_10 : ∃ (s : State) (x : Alarm), (s.dev.alarmQ = some x ∧ s.dev.alarmUs ≠ some (s.dev.time / 400)) ∧
  (s.dev.route 0 (s.dev.rootId % 512) 3 0 = none) :=
  ⟨wOf { wOn.setFlag CAL_STAT 6 true with alarmQ := some default }, default, by decide⟩

theorem witness_FaultEngines_11 : ∃ (s : State) (x : Alarm) (dim dir dl o : Nat), (s.dev.alarmQ = some x ∧ s.dev.alarmUs ≠ some
  (s.dev.time / 400)) ∧ (s.dev.route 0 (s.dev.rootId % 512) 3 0 = some (dim, dir, dl)) ∧ (Carries s.dev dim dir o ∧ dim < 2) ∧
  (s.dev.flag FLT_STAT 4 = false) ∧ ((s.dev.oport o).queue.find? (fun w => w.vc == 0 && c0Kind w.data == 2) = none) :=
  ⟨wOf { wNbr with cal := { wNbr.cal with rootDev := 1 }, alarmQ := some ⟨4, 1, 3, 77, 2⟩ }, ⟨4, 1, 3, 77, 2⟩, 0, 1, 0, 0, by decide⟩

theorem witness_FaultEngines_12 : ∃ (s : State), (s.dev.alarmUs = some (s.dev.time / 400)) :=
  ⟨wOf { wOn with alarmQ := some default, alarmUs := some 0 }, by decide⟩

theorem witness_FaultEngines_13 : ∃ (s : State) (q n : Nat), (q < 8) :=
  ⟨wOf ((wRun.setFlag CAL_STAT 6 true).setR (CAL_REGPART 9) 0x80000002), 5, 12, by decide⟩

theorem witness_FaultEngines_14 : ∃ (s : State) (i : Nat), (i < 3) :=
  ⟨wS, 2, by decide⟩

theorem witness_FaultEngines_15 : ∃ (s : State) (i : Nat), (3 ≤ i ∧ i ≤ 5 ∧ s.dev.pins.pwrgd = true ∧ bitAt s.dev.pins.straps 4
  = true) :=
  ⟨wOf { wRun with pins := { wRun.pins with pwrgd := true, straps := 16 } }, 3, by decide⟩

theorem witness_FaultEngines_16 : ∃ (s : State) (i : Nat), (3 ≤ i ∧ i ≤ 5 ∧ s.dev.pins.pwrgd = true ∧ bitAt s.dev.pins.straps 4
  = false) :=
  ⟨wOf { wRun with pins := { wRun.pins with pwrgd := true } }, 4, by decide⟩

theorem witness_ObservationCommands_1 : ∃ (s : State) (h : Hdr) (pl : List Byte) (q : Nat), (Accepted s.dev cObsRead h pl) ∧
  (byteAt pl 0 = 0 ∧ leAt pl 2 2 < 256 ∧ (h.func = 0 ∨ s.dev.owns h.part (leAt pl 2 2 / 16) = true) ∧ s.dev.physOf (leAt pl 2 2)
  = some q) :=
  ⟨wS, wH, leBytes 2 0 ++ leBytes 2 3 ++ zeros 4, 3, by decide⟩

theorem witness_ObservationCommands_2 : ∃ (s : State) (h : Hdr) (pl : List Byte), (Accepted s.dev cObsRead h pl) ∧ (byteAt pl 0
  = 1 ∧ leAt pl 2 2 < 16 ∧ (h.func = 0 ∨ s.dev.owns h.part (leAt pl 2 2) = true)) :=
  ⟨wS, wH, leBytes 2 1 ++ leBytes 2 1 ++ zeros 4, by decide⟩

theorem witness_ObservationCommands_3 : ∃ (s : State) (h : Hdr) (pl : List Byte), (Accepted s.dev cObsRead h pl) ∧ (byteAt pl 0
  = 2 ∧ leAt pl 2 2 < 16 ∧ (h.func = 0 ∨ h.part = leAt pl 2 2)) :=
  ⟨wS, wH, leBytes 2 2 ++ leBytes 2 1 ++ zeros 4, by decide⟩

theorem witness_ObservationCommands_4 : ∃ (s : State) (h : Hdr) (pl : List Byte), (Accepted s.dev cObsRead h pl) ∧ (byteAt pl 0
  = 3) :=
  ⟨wS, wH, leBytes 2 3 ++ zeros 6, by decide⟩

theorem witness_ObservationCommands_5 : ∃ (s : State) (h : Hdr) (pl : List Byte), (Accepted s.dev cObsControl h pl) ∧ (byteAt pl
  0 < 2) :=
  ⟨wS, wH, zeros 8, by decide⟩

theorem witness_ObservationCommands_6 : ∃ (s : State) (h : Hdr) (pl : List Byte), (Accepted s.dev cObsControl h pl) ∧ (byteAt pl
  0 = 2) :=
  ⟨wOf ((wRun.setR (OBS_PSPIKE_LO 1) 7).setR (TCR_BUSY_LO 0) 8), wH, [2] ++ zeros 7, by decide⟩

theorem witness_ObservationCommands_7 : ∃ (s : State) (h : Hdr) (pl : List Byte), (Accepted s.dev cTraceConfig h pl) ∧ (byteAt
  pl 0 < 2 ∧ byteAt pl 1 < 2 ∧ leAt pl 8 2 < 0x8000 ∧ leAt pl 10 2 < 0x8000 ∧ byteAt pl 12 < 16) ∧ (1 ≤ leAt pl 14 2 ∧ leAt pl
  14 2 ≤ 390) ∧ (s.dev.flag OBS_TCTL 0 = true → s.dev.flag OBS_TCTL 1 = (byteAt pl 1 == 1)) :=
  ⟨wS, wH, [1, 1] ++ leBytes 2 0x7FFF ++ leBytes 2 0xFFFF ++ [0, 255] ++ leBytes 2 0 ++ leBytes 2 0x7FFF ++ [0, 0] ++ leBytes 2 300 ++ zeros 16, by decide⟩

theorem witness_ObservationCommands_8 : ∃ (s : State) (h : Hdr) (pl : List Byte), (Accepted s.dev cTraceConfig h pl) ∧ (byteAt
  pl 0 < 2 ∧ byteAt pl 1 < 2 ∧ leAt pl 8 2 < 0x8000 ∧ leAt pl 10 2 < 0x8000 ∧ byteAt pl 12 < 16) ∧ (1 ≤ leAt pl 14 2 ∧ leAt pl
  14 2 ≤ 390) ∧ (s.dev.flag OBS_TCTL 0 = true ∧ s.dev.flag OBS_TCTL 1 ≠ (byteAt pl 1 == 1)) :=
  ⟨wOf (wD.setR OBS_TCTL 1), wH, [1, 1] ++ leBytes 2 0x7FFF ++ leBytes 2 0xFFFF ++ [0, 255] ++ leBytes 2 0 ++ leBytes 2 0x7FFF ++ [0, 0] ++ leBytes 2 300 ++ zeros 16, by decide⟩

theorem witness_ObservationCommands_9 : ∃ (s : State) (h : Hdr) (pl : List Byte), (Accepted s.dev cTraceStatus h pl) :=
  ⟨wS, wH, [], by decide⟩

theorem witness_ObservationCommands_10 : ∃ (s : State) (h : Hdr) (pl : List Byte), (Accepted s.dev cTraceMark h pl) ∧
  (s.dev.flag OBS_TCTL 0 = true ∧ s.dev.flag OBS_TSRC 0x0A = true ∧ s.dev.fld OBS_TSAMPLE 0 4 = 0 ∧ s.dev.pwr.asleep = 0) ∧
  (s.dev.traceRoom 0 = true ∧ SMap.get [] s.dev.trace.held 0 = []) :=
  ⟨wOf wTrace, wH, leBytes 8 0x123456789A, by decide⟩

theorem witness_ObservationCommands_11 : ∃ (s : State) (h : Hdr) (pl : List Byte), (Accepted s.dev cTraceMark h pl) ∧
  (s.dev.flag OBS_TCTL 0 = false) :=
  ⟨wS, wH, zeros 8, by decide⟩

theorem witness_ObservationRegistersAndPort_1 : ∃ (s : State) (f p b : Nat), (p < 16 ∧ (f = 0 ∨ f = p)) :=
  ⟨wS, 1, 1, 1, by decide⟩

theorem witness_ObservationRegistersAndPort_2 : ∃ (s : State) (f p : Nat), (p < 16 ∧ (f = 0 ∨ f = p)) :=
  ⟨wOf (wRun.setR (OBS_PSPIKE_LO 1) 7), 0, 1, by decide⟩

theorem witness_ObservationRegistersAndPort_3 : ∃ (s : State) (f p : Nat), (f ≠ 0 ∧ f ≠ p) :=
  ⟨wS, 2, 1, by decide⟩

theorem witness_ObservationRegistersAndPort_4 : ∃ (s : State) (v : Nat), (s.dev.flag OBS_TCTL 0 = true ∧ s.dev.flag OBS_TSRC
  0x0A = true ∧ s.dev.fld OBS_TSAMPLE 0 4 = 0 ∧ s.dev.pwr.asleep = 0) ∧ (s.dev.traceRoom 0 = true ∧ SMap.get [] s.dev.trace.held
  0 = []) :=
  ⟨wOf wTrace, 9, by decide⟩

theorem witness_ObservationRegistersAndPort_5 : ∃ (s : State) (v : Nat), True :=
  ⟨wOf wTrace, 3, by decide⟩

theorem witness_ObservationRegistersAndPort_6 : ∃ (s : State), (s.dev.flag OBS_TCTL 0 = true ∧ s.dev.trace.started = false ∧
  s.dev.pwr.asleep = 0) :=
  ⟨wOf wTrace, by decide⟩

theorem witness_ObservationRegistersAndPort_7 : ∃ (s : State), (s.dev.flag OBS_TCTL 0 = true ∧ s.dev.trace.started = true ∧
  s.dev.pwr.asleep = 0) :=
  ⟨wOf { wTrace with trace := { wTrace.trace with started := true } }, by decide⟩

theorem witness_ObservationRegistersAndPort_8 : ∃ (s : State) (k : Nat) (x : List Byte) (rest : List (List Byte)), (k < 2 ∧
  s.dev.fifo k = x :: rest ∧ s.dev.trace.started = true ∧ s.dev.pwr.asleep = 0) ∧ (byteAt x 0 ≠ 0x0F ∧ SMap.get 0
  s.dev.trace.drop k = 0 ∧ SMap.get [] s.dev.trace.held k = []) :=
  ⟨wOf ({ wTrace with trace := { wTrace.trace with started := true } }.setFifo 1 [[1], [2]]), 1, [1], [[2]], by decide⟩

theorem witness_PeriodLimits_1 : ∃ (s : State) (f p v : Nat), (p < 16) ∧ (f = 0 ∨ f = p) ∧ (v < 2 ^ 29) ∧ (v < 4000 ∨ 400000000
  < v ∨ (s.dev.flag (TAB_BCTL p) 8 = true ∧ v < 8000)) :=
  ⟨wOf (wRun.setFlag (TAB_BCTL 1) 8 true), 1, 1, 7999, by decide⟩

theorem witness_PeriodLimits_2 : ∃ (s : State) (h : Hdr) (pl : List Byte), (Accepted s.dev cBeatPeriod h pl) ∧ (s.dev.still
  h.part = true ∨ (s.dev.flag (TAB_BCTL h.part) 4 = false ∧ (s.dev.flag (TAB_BCTL h.part) 8 = false ∨ s.dev.flag (TAB_BCTL
  h.part) 0 = false))) ∧ (leAt pl 0 4 < 4000 ∨ 400000000 < leAt pl 0 4 ∨ (s.dev.flag (TAB_BCTL h.part) 8 = true ∧ leAt pl 0 4 <
  8000)) :=
  ⟨wOf wRun, wH, leBytes 4 400000001, by decide⟩

theorem witness_PeriodLimits_3 : ∃ (s : State) (h : Hdr) (pl : List Byte), (Accepted s.dev cBeatConfig h pl) ∧ (s.dev.still
  h.part = true) ∧ (leAt pl 4 4 < 4000 ∨ 400000000 < leAt pl 4 4 ∨ (bitAt (byteAt pl 1) 1 = true ∧ leAt pl 4 4 < 8000)) :=
  ⟨wS, wH, zeros 4 ++ leBytes 4 3999 ++ zeros 24, by decide⟩

theorem witness_PeriodLimits_4 : ∃ (s : State) (f p v : Nat), (p < 16) ∧ (f = 0 ∨ f = p) ∧ (s.dev.flag (TAB_BCTL p) 4 = true ∨
  (s.dev.flag (TAB_BCTL p) 8 = true ∧ s.dev.flag (TAB_BCTL p) 0 = true ∧ s.dev.fld (TAB_SPAN p) 16 9 = s.dev.fld (FAB_DCFG 0) 0
  9)) ∧ (s.dev.bstate p ≠ 0 ∧ s.dev.bstate p ≠ 3) :=
  ⟨wOf (wRun.setFlag (TAB_BCTL 1) 4 true), 0, 1, 5000, by decide⟩

theorem witness_PeriodLimits_5 : ∃ (s : State) (h : Hdr) (pl : List Byte), (Accepted s.dev cBeatPeriod h pl) ∧ (s.dev.flag
  (TAB_BCTL h.part) 4 = true ∨ (s.dev.flag (TAB_BCTL h.part) 8 = true ∧ s.dev.flag (TAB_BCTL h.part) 0 = true ∧ s.dev.fld
  (TAB_SPAN h.part) 16 9 = s.dev.fld (FAB_DCFG 0) 0 9)) ∧ (s.dev.bstate h.part ≠ 0 ∧ s.dev.bstate h.part ≠ 3) :=
  ⟨wOf (wRun.setFlag (TAB_BCTL 1) 4 true), wH, leBytes 4 5000, by decide⟩

theorem witness_CapturesKeepTheOldestEdges_1 : ∃ (s : State) (tm : Nat) (rising : Bool), (tm < 16 ∧ (s.dev.timer tm).caps.length
  < 8) ∧ (s.dev.fld (TAB_TnCTL tm) 5 5 ≤ 17) ∧ (s.dev.fld (TAB_TnCTL tm) 16 2 = 3 ∨ s.dev.fld (TAB_TnCTL tm) 16 2 = (if rising
  then 1 else 2)) :=
  ⟨wOf wTm, 3, false, by decide⟩

theorem witness_CapturesKeepTheOldestEdges_2 : ∃ (s : State) (tm : Nat) (rising : Bool), (tm < 16 ∧ (s.dev.timer tm).caps.length
  = 8) ∧ (s.dev.fld (TAB_TnCTL tm) 5 5 ≤ 17) ∧ (s.dev.fld (TAB_TnCTL tm) 16 2 = 3 ∨ s.dev.fld (TAB_TnCTL tm) 16 2 = (if rising
  then 1 else 2)) :=
  ⟨wOf (wTm.setTimer 3 { (default : TimerX) with caps := List.replicate 8 (2 ^ 63) }), 3, true, by decide⟩

theorem witness_SequencerAndQueueFormsComplete_1 : ∃ (s : State) (h : Hdr) (pl : List Byte) (r f n : Nat), (Accepted s.dev
  cSeqLoad h pl) ∧ (r = byteAt pl 0 ∧ f = leAt pl 2 2 ∧ n = leAt pl 4 2) ∧ (r < 16 ∧ s.dev.owns h.part r = true ∧ s.dev.scoreBad
  r = false) ∧ (f + n ≤ 4096) ∧ (s.dev.seqState r = 0) :=
  ⟨wOf wOn, wH, leBytes 2 0 ++ leBytes 2 5 ++ leBytes 2 2 ++ zeros 2 ++ (List.replicate 16 1#8) ++ zeros 16, 0, 5, 2, by decide⟩

theorem witness_SequencerAndQueueFormsComplete_2 : ∃ (s : State) (h : Hdr) (pl : List Byte) (r : Nat), (Accepted s.dev
  cSeqControl h pl) ∧ (r = byteAt pl 0 ∧ byteAt pl 1 = 1 ∧ leAt pl 2 2 < 4096) ∧ ((s.dev.regPart r).all s.dev.choked = false) ∧
  (r < 16 ∧ s.dev.owns h.part r = true ∧ s.dev.scoreBad r = false) :=
  ⟨wOf wOn, wH, [0, 1] ++ leBytes 2 77 ++ zeros 4, 0, by decide⟩

theorem witness_SequencerAndQueueFormsComplete_3 : ∃ (s : State) (h : Hdr) (pl : List Byte), (Accepted s.dev cSeqStatus h pl) ∧
  (byteAt pl 0 < 16 ∧ s.dev.owns h.part (byteAt pl 0) = true ∧ s.dev.scoreBad (byteAt pl 0) = false) :=
  ⟨wOf wSeq, wH, zeros 8, by decide⟩

theorem witness_SequencerAndQueueFormsComplete_4 : ∃ (s : State) (h : Hdr) (pl : List Byte) (r c : Nat), (Accepted s.dev
  cChanConfig h pl) ∧ (r = byteAt pl 0 ∧ c = byteAt pl 1 ∧ byteAt pl 2 < 3 ∧ byteAt pl 3 < 2) ∧ (r < 16 ∧ c < 32 ∧ s.dev.owns
  h.part r = true) ∧ (QuietQueues s.dev r) :=
  ⟨wOf (wOn.setChan 0 4 [⟨List.replicate 64 1#8, .nobody⟩]), wH, [0, 4, 0, 1] ++ zeros 4, 0, 4, by decide⟩

theorem witness_SequencerAndQueueFormsComplete_5 : ∃ (s : State) (h : Hdr) (pl : List Byte) (r c : Nat), (Accepted s.dev
  cChanSend h pl) ∧ (r = byteAt pl 0 ∧ c = byteAt pl 1 ∧ byteAt pl 2 = 0) ∧ (r < 16 ∧ c < 32 ∧ s.dev.owns h.part r = true) ∧
  (QuietQueues s.dev r) ∧ (s.dev.chState r c = 0 ∧ s.dev.stage r c = [] ∧ (s.dev.chan r c).length < 16) :=
  ⟨wOf (wOn.chanOpen 0 4), wH, [0, 4, 0] ++ zeros 5 ++ List.replicate 64 7#8, 0, 4, by decide⟩

theorem witness_SequencerAndQueueFormsComplete_6 : ∃ (s : State) (h : Hdr) (pl : List Byte) (r c : Nat) (m : Msg) (rest : List
  Msg), (Accepted s.dev cChanRecv h pl) ∧ (r = byteAt pl 0 ∧ c = byteAt pl 1 ∧ leAt pl 4 4 ≤ 1000000) ∧ (r < 16 ∧ c < 32 ∧
  s.dev.owns h.part r = true ∧ s.dev.chHost r c = true) ∧ (QuietQueues s.dev r) ∧ (s.dev.chan r c = m :: rest ∧ s.dev.stage r c
  = [] ∧ m.data.length = 64) :=
  ⟨wOf ((wOn.setFlag (QUE_CHCTL 0 4) 3 true).setChan 0 4 [⟨List.replicate 64 1#8, .nobody⟩]), wH, [0, 4] ++ zeros 6, 0, 4, ⟨List.replicate 64 1#8, .nobody⟩, [], by decide⟩

theorem witness_SequencerAndQueueFormsComplete_7 : ∃ (s : State) (h : Hdr) (pl : List Byte), (Accepted s.dev cQueStatus h pl) ∧
  (byteAt pl 0 < 16 ∧ s.dev.owns h.part (byteAt pl 0) = true) :=
  ⟨wS, wH, zeros 8, by decide⟩

theorem witness_SequencerAndQueueFormsComplete_8 : ∃ (s : State) (h : Hdr) (pl : List Byte) (r q : Nat), (Accepted s.dev
  cCqConfig h pl) ∧ (r = byteAt pl 0 ∧ q = byteAt pl 1 ∧ byteAt pl 2 < 3 ∧ byteAt pl 3 < 32 ∧ leAt pl 4 2 ≠ 0) ∧ (r < 16 ∧ q < 8
  ∧ s.dev.owns h.part r = true) :=
  ⟨wS, wH, [0, 3, 1, 9] ++ leBytes 2 300 ++ zeros 2, 0, 3, by decide⟩

theorem witness_SequencerAndQueueFormsComplete_9 : ∃ (s : State) (h : Hdr) (pl : List Byte) (r b : Nat), (Accepted s.dev
  cCommonsOwn h pl) ∧ (r = byteAt pl 0 ∧ b = byteAt pl 1 ∧ byteAt pl 2 = 0) ∧ (r < 16 ∧ b < 16 ∧ s.dev.owns h.part r = true) ∧
  (byteAt pl 3 ≤ 2 ∧ s.dev.bankOwner r b false ≠ 3 ∧ s.dev.bankOwner r b false ≠ 4) ∧ (h.func = 0 ∨ s.dev.seqState r = 0) :=
  ⟨wS, wH, [0, 3, 0, 2] ++ zeros 4, 0, 3, by decide⟩

theorem witness_SequencerAndQueueFormsComplete_10 : ∃ (s : State) (h : Hdr) (pl : List Byte), (Accepted s.dev cCmnStatus h pl) ∧
  (byteAt pl 0 < 16 ∧ s.dev.owns h.part (byteAt pl 0) = true) :=
  ⟨wS, wH, zeros 8, by decide⟩

theorem witness_SequencerAndQueueFormsComplete_11 : ∃ (s : State) (f tag : Nat), True :=
  ⟨wOf { wOn with car := { wOn.car with waiting := [{ opcode := 0x0906, names := true, ro := false, hdr := wH, pl := [0, 4, 0, 0] ++ leBytes 4 500, what := .chan 0 4 }] } }, 0, 5, by decide⟩

theorem witness_SequencerAndQueueFormsComplete_12 : ∃ (s : State) (r c k : Nat) (m : Msg), (r < 16 ∧ c < 32) ∧ ((s.dev.stage r
  c)[k]? = some m) ∧ (QuietQueues s.dev r) ∧ (m.sender = .nobody) :=
  ⟨wOf (wOn.setStage 0 4 [⟨[1], .nobody⟩, ⟨[2], .nobody⟩]), 0, 4, 1, ⟨[2], .nobody⟩, by decide⟩

theorem witness_SequencerAndQueueFormsComplete_13 : ∃ (s : State) (r b : Nat), (r < 16 ∧ b < 16) ∧ (s.dev.heldAcc = []) ∧ (∀ k,
  k < 16 → ∀ o, o ∈ (s.dev.score k).ops → o.held = false) :=
  ⟨wOf (wOn.setR (CMN_OWN 0 3) 0x80000002), 0, 3, by decide⟩

theorem witness_SequencerAndQueueFormsComplete_14 : ∃ (s : State) (r c : Nat) (rest : List (Nat × Bool × Bool)), (r < 16 ∧ c <
  8) ∧ ((s.dev.score r).acks = (c, false, true) :: rest) :=
  ⟨wOf ((wSeq.setR (SEQ_OUTST 0) 3).setScore 0 { wSeq.score 0 with acks := [(2, false, true)] }), 0, 2, [], by decide⟩

theorem witness_SequencerAndQueueFormsComplete_15 : ∃ (s : State) (ag : Agent) (r : Nat), (r < 16) ∧ (WriteOk s.dev ag (SEQ_CTL
  r)) ∧ ((s.dev.regPart r).all s.dev.choked = false) :=
  ⟨wOf (wOn.setR (SEQ_ENTRY 0) 40), .func 1, 0, by decide⟩

theorem witness_SequencerAndQueueFormsComplete_16 : ∃ (s : State) (ag : Agent) (r : Nat), (r < 16) ∧ (WriteOk s.dev ag (SEQ_CTL
  r)) :=
  ⟨wOf wSeq, .func 1, 0, by decide⟩

theorem witness_SequencerAndQueueFormsComplete_17 : ∃ (s : State) (ag : Agent) (r : Nat), (r < 16) ∧ (WriteOk s.dev ag (SEQ_CTL
  r)) ∧ (∀ q, q < 8 → (s.dev.combq r q).held = []) :=
  ⟨wOf (wSeq.setG 0 3 99), .func 1, 0, by decide⟩

theorem witness_SequencerAndQueueFormsComplete_18 : ∃ (s : State) (ag : Agent) (r c : Nat) (bytes : List Byte), (r < 16 ∧ c < 32
  ∧ bytes.length = 64) ∧ (s.dev.reachesW ag (QUE_CHIN r c) = true) ∧ (QuietQueues s.dev r) ∧ (s.dev.chState r c = 0 ∧
  s.dev.stage r c = [] ∧ (s.dev.chan r c).length < 16) :=
  ⟨wOf (wOn.chanOpen 0 4), .func 1, 0, 4, List.replicate 64 7#8, by decide⟩

theorem witness_SequencerAndQueueFormsComplete_19 : ∃ (s : State) (ag : Agent) (r c : Nat), (r < 16 ∧ c < 32) ∧ (WriteOk s.dev
  ag (QUE_CHCTL r c)) :=
  ⟨wOf (wOn.setF (QUE_CHSTAT 0 4) 16 2 1), .func 1, 0, 4, by decide⟩

theorem witness_SequencerAndQueueFormsComplete_20 : ∃ (s : State) (ag : Agent) (r c : Nat), (r < 16 ∧ c < 32) ∧ (WriteOk s.dev
  ag (QUE_CHCTL r c)) ∧ (QuietQueues s.dev r) :=
  ⟨wOf ((wOn.chanOpen 0 4).setStage 0 4 [⟨[1], .nobody⟩, ⟨[2], .nobody⟩]), .func 1, 0, 4, by decide⟩

theorem witness_SequencerAndQueueFormsComplete_21 : ∃ (s : State) (ag : Agent) (r c : Nat), (r < 16 ∧ c < 32) ∧ (WriteOk s.dev
  ag (QUE_CHCTL r c)) ∧ (QuietQueues s.dev r) :=
  ⟨wOf ((wOn.chanOpen 0 4).setChan 0 4 [⟨[1], .nobody⟩, ⟨[2], .nobody⟩]), .func 1, 0, 4, by decide⟩

theorem witness_SequencerAndQueueFormsComplete_22 : ∃ (s : State) (ag : Agent) (r q n c : Nat) (bytes : List Byte), (r < 16 ∧ q
  < 8 ∧ bytes.length = 64) ∧ (s.dev.reachesW ag (QUE_CQIN r q) = true) ∧ (s.dev.flag (QUE_CQCFG r q) 31 = true ∧ (s.dev.combq r
  q).wait = false) ∧ (QuietQueues s.dev r) ∧ (n = s.dev.fld (QUE_CQSTAT r q) 0 16 ∧ s.dev.fld (QUE_CQCFG r q) 0 16 ≤ n + 1) ∧ (c
  = s.dev.cqChan r q ∧ s.dev.chState r c = 0 ∧ s.dev.stage r c = [] ∧ (s.dev.chan r c).length < 16) :=
  ⟨wOf (((wOn.setR (QUE_CQCFG 0 3) 0x82000001).setCombq 0 3 { wOn.combq 0 3 with lanes := [2000000000, -5] }).chanOpen 0 2), .func 1, 0, 3, 0, 2, leBytes 4 2000000000 ++ leBytes 4 3 ++ zeros 56, by decide⟩

theorem witness_SequencerAndQueueFormsComplete_23 : ∃ (s : State) (ag : Agent) (r q : Nat), (r < 16 ∧ q < 8) ∧ (WriteOk s.dev ag
  (QUE_CQCFG r q)) :=
  ⟨wOf ((wOn.setR (QUE_CQCFG 0 3) 0x82000001).setCombq 0 3 { wOn.combq 0 3 with lanes := [2000000000, -5] }), .func 1, 0, 3, by decide⟩

theorem witness_SequencerAndQueueFormsComplete_24 : ∃ (s : State) (ag : Agent) (r b v : Nat), (r < 16 ∧ b < 15) ∧ (WriteOk s.dev
  ag (CMN_OWN r b)) ∧ (v % 16 ≤ 2) ∧ (s.dev.bankOwner r b false = bankAgent ag r ∨ s.dev.bankOwner r b false = 0) :=
  ⟨wOf wOn, .score 0, 0, 3, 1, by decide⟩

theorem witness_SequencerAndQueueFormsComplete_25 : ∃ (s : State) (r : Nat) (x : List Byte), (AtDesc s.dev r 0 x) ∧ (s.dev.seqPc
  r + 1 < 4096) :=
  ⟨wOf (wAt (wSeq) ([0, 0, 0, 0] ++ leBytes 4 0 ++ leBytes 8 (0))), 0, ([0, 0, 0, 0] ++ leBytes 4 0 ++ leBytes 8 (0)), by decide⟩

theorem witness_SequencerAndQueueFormsComplete_26 : ∃ (s : State) (r : Nat) (x : List Byte), (AtDesc s.dev r 1 x) :=
  ⟨wOf (wAt (wSeq) ([1, 0, 0, 0] ++ leBytes 4 5 ++ leBytes 8 (0))), 0, ([1, 0, 0, 0] ++ leBytes 4 5 ++ leBytes 8 (0)), by decide⟩

theorem witness_SequencerAndQueueFormsComplete_27 : ∃ (s : State) (r : Nat) (x : List Byte), (AtDesc s.dev r 2 x) ∧ (s.dev.seqPc
  r + 1 < 4096) :=
  ⟨wOf (wAt (wSeq) ([2, 0, 0x30, 0] ++ leBytes 4 0 ++ leBytes 8 (12345))), 0, ([2, 0, 0x30, 0] ++ leBytes 4 0 ++ leBytes 8 (12345)), by decide⟩

theorem witness_SequencerAndQueueFormsComplete_28 : ∃ (s : State) (r : Nat) (x : List Byte), (AtDesc s.dev r 3 x) ∧ (s.dev.seqPc
  r + 1 < 4096) :=
  ⟨wOf (wAt (wSeq.setG 0 1 5) ([3, 0, 0x31, 0] ++ leBytes 4 0xFFFFFFFE ++ leBytes 8 (0))), 0, ([3, 0, 0x31, 0] ++ leBytes 4 0xFFFFFFFE ++ leBytes 8 (0)), by decide⟩

theorem witness_SequencerAndQueueFormsComplete_29 : ∃ (s : State) (r : Nat) (x : List Byte) (a8 : Nat), (AtDesc s.dev r 4 x) ∧
  (s.dev.seqPc r + 1 < 4096) ∧ (FreshOp s.dev r) ∧ (OwnCommons s.dev r ((dAddr x + s.dev.greg r (dGs x)) % 2 ^ 64) a8 8 ∧ a8 % 8
  = 0) ∧ ((dAddr x + s.dev.greg r (dGs x)) % 8 = 0) :=
  ⟨wOf (wAt (wCmn.wrN (cmnBase 0 + 64) 8 0x123456789A) ([4, 0, 0x31, 0] ++ leBytes 4 0 ++ leBytes 8 (cmnBase 0 + 64))), 0, ([4, 0, 0x31, 0] ++ leBytes 4 0 ++ leBytes 8 (cmnBase 0 + 64)), cmnBase 0 + 64, by decide⟩

theorem witness_SequencerAndQueueFormsComplete_30 : ∃ (s : State) (r : Nat) (x : List Byte) (a8 : Nat), (AtDesc s.dev r 5 x) ∧
  (s.dev.seqPc r + 1 < 4096) ∧ (FreshOp s.dev r) ∧ (OwnCommons s.dev r ((dAddr x + s.dev.greg r (dGs x)) % 2 ^ 64) a8 8 ∧ a8 % 8
  = 0) ∧ ((dAddr x + s.dev.greg r (dGs x)) % 8 = 0) :=
  ⟨wOf (wAt (wCmn.setG 0 3 0x1122334455667788) ([5, 0, 0x31, 0] ++ leBytes 4 0 ++ leBytes 8 (cmnBase 0 + 64))), 0, ([5, 0, 0x31, 0] ++ leBytes 4 0 ++ leBytes 8 (cmnBase 0 + 64)), cmnBase 0 + 64, by decide⟩

theorem witness_SequencerAndQueueFormsComplete_31 : ∃ (s : State) (r : Nat) (x : List Byte) (n : Nat), (AtDesc s.dev r 6 x) ∧
  (s.dev.seqPc r + 1 < 4096) ∧ (n = (if branchTaken (dCh x) (s.dev.greg r (dGd x)) then dImm x else s.dev.seqPc r + 1) ∧ n <
  4096) :=
  ⟨wOf (wAt (wSeq) ([6, 0, 0x30, 1] ++ leBytes 4 100 ++ leBytes 8 (0))), 0, ([6, 0, 0x30, 1] ++ leBytes 4 100 ++ leBytes 8 (0)), 100, by decide⟩

theorem witness_SequencerAndQueueFormsComplete_32 : ∃ (s : State) (r : Nat) (x : List Byte) (g n : Nat), (AtDesc s.dev r 7 x) ∧
  (s.dev.seqPc r + 1 < 4096) ∧ (g = (s.dev.greg r (dGd x) + 2 ^ 64 - 1) % 2 ^ 64) ∧ (n = (if g = 0 then s.dev.seqPc r + 1 else
  dImm x) ∧ n < 4096) :=
  ⟨wOf (wAt (wSeq.setG 0 3 2) ([7, 0, 0x30, 0] ++ leBytes 4 100 ++ leBytes 8 (0))), 0, ([7, 0, 0x30, 0] ++ leBytes 4 100 ++ leBytes 8 (0)), 1, 100, by decide⟩

theorem witness_SequencerAndQueueFormsComplete_33 : ∃ (s : State) (r : Nat) (x : List Byte), (AtDesc s.dev r 11 x) ∧
  (s.dev.seqPc r + 1 < 4096) :=
  ⟨wOf (wAt (wSeq.setR (QUE_CHSTAT 0 4) 77) ([11, 0, 0x30, 4] ++ leBytes 4 0 ++ leBytes 8 (0))), 0, ([11, 0, 0x30, 4] ++ leBytes 4 0 ++ leBytes 8 (0)), by decide⟩

theorem witness_SequencerAndQueueFormsComplete_34 : ∃ (s : State) (r : Nat) (x : List Byte), (AtDesc s.dev r 12 x) ∧
  (s.dev.seqPc r + 1 < 4096) ∧ (dImm x % 8 = 1) ∧ (WriteOk s.dev (.score r) (QUE_CHCTL r (dCh x))) :=
  ⟨wOf (wAt (wSeq.setF (QUE_CHSTAT 0 4) 16 2 1) ([12, 0, 0, 4] ++ leBytes 4 1 ++ leBytes 8 (0))), 0, ([12, 0, 0, 4] ++ leBytes 4 1 ++ leBytes 8 (0)), by decide⟩

theorem witness_SequencerAndQueueFormsComplete_35 : ∃ (s : State) (r : Nat) (x : List Byte), (AtDesc s.dev r 13 x) ∧
  (s.dev.seqPc r + 1 < 4096) :=
  ⟨wOf (wAt (wSeq.setG 0 3 7) ([13, 2, 0x30, 0] ++ leBytes 4 0 ++ leBytes 8 (0))), 0, ([13, 2, 0x30, 0] ++ leBytes 4 0 ++ leBytes 8 (0)), by decide⟩

theorem witness_SequencerAndQueueFormsComplete_36 : ∃ (s : State) (r : Nat) (x : List Byte), (AtDesc s.dev r 14 x) ∧
  (s.dev.seqPc r + 1 < 4096) :=
  ⟨wOf (wAt (wSeq.setG 0 3 7) ([14, 0, 0x30, 0] ++ leBytes 4 0 ++ leBytes 8 (0))), 0, ([14, 0, 0x30, 0] ++ leBytes 4 0 ++ leBytes 8 (0)), by decide⟩

theorem witness_SequencerAndQueueFormsComplete_37 : ∃ (s : State) (r : Nat), (r < 16) ∧ (s.dev.waitsAt r 13 2 = true ∧
  s.dev.seqPc r + 1 < 4096) ∧ (s.dev.waitcOk r (s.dev.seqDesc r) = true) :=
  ⟨wOf ((wAt wSeq ([13, 2, 0x30, 0] ++ leBytes 4 0 ++ leBytes 8 (0))).setSeq 0 2 2), 0, by decide⟩

theorem witness_SequencerAndQueueFormsComplete_38 : ∃ (s : State) (r : Nat), (r < 16) ∧ (s.dev.waitsAt r 14 3 = true ∧
  s.dev.seqPc r + 1 < 4096) ∧ ((s.dev.regPart r).isSome = true ∧ s.dev.waitbOk r (s.dev.seqDesc r) = true) :=
  ⟨wOf ((wAt wSeq ([14, 0, 0x30, 0] ++ leBytes 4 0 ++ leBytes 8 (0))).setSeq 0 2 3), 0, by decide⟩

theorem witness_SequencerAndQueueFormsComplete_39 : ∃ (s : State) (r : Nat) (x : List Byte), (r < 16 ∧ s.dev.scoreGoes r = true
  ∧ s.dev.seqDesc r = x ∧ 0x1B ≤ dOpc x) :=
  ⟨wOf (wAt wSeq ([0x1B, 0, 0, 0] ++ leBytes 4 0 ++ leBytes 8 (0))), 0, ([0x1B, 0, 0, 0] ++ leBytes 4 0 ++ leBytes 8 (0)), by decide⟩

theorem witness_SequencerAndQueueFormsComplete_40 : ∃ (s : State) (r : Nat) (x : List Byte) (n sa da : Nat), (AtDesc s.dev r 8
  x) ∧ (s.dev.seqPc r + 1 < 4096) ∧ (FreshOp s.dev r) ∧ (n = dImm x ∧ n % 8 = 0 ∧ 8 ≤ n ∧ n ≤ 2048) ∧ (OwnCommons s.dev r
  (s.dev.greg r (dGs x)) sa n ∧ s.dev.greg r (dGs x) % 8 = 0) ∧ (OwnCommons s.dev r (s.dev.greg r (dGd x)) da n ∧ s.dev.greg r
  (dGd x) % 8 = 0) ∧ (dPost x = true → s.dev.fld (SEQ_OUTST r) 0 7 < 64) :=
  ⟨wOf (wAt (((wCmn.wrB (cmnBase 0 + 64) [1, 2, 3]).setG 0 1 (cmnBase 0 + 64)).setG 0 3 (cmnBase 0 + 4096)) ([8, 2, 0x31, 0] ++ leBytes 4 24 ++ leBytes 8 (0))), 0, ([8, 2, 0x31, 0] ++ leBytes 4 24 ++ leBytes 8 (0)), 24, cmnBase 0 + 64, cmnBase 0 + 4096, by decide⟩

theorem witness_SequencerAndQueueFormsComplete_41 : ∃ (s : State) (r : Nat) (x : List Byte) (sa r2 c : Nat), (AtDesc s.dev r 9
  x) ∧ (s.dev.seqPc r + 1 < 4096) ∧ (FreshOp s.dev r) ∧ (OwnCommons s.dev r (s.dev.greg r (dGs x)) sa 64 ∧ s.dev.greg r (dGs x)
  % 64 = 0) ∧ (r2 < 16 ∧ c < 32 ∧ s.dev.greg r (dGd x) = 2 ^ 48 * s.dev.devId + 0x020000000000 + QUE_CHIN r2 c) ∧
  (s.dev.reachesW (.score r) (QUE_CHIN r2 c) = true) ∧ (QuietQueues s.dev r2) ∧ (s.dev.chState r2 c = 0 ∧ s.dev.stage r2 c = []
  ∧ (s.dev.chan r2 c).length < 16) ∧ (dPost x = true → s.dev.fld (SEQ_OUTST r) 0 7 < 64) ∧ ((s.dev.reqs.filter (fun q =>
  q.region == r)).length < 64) :=
  ⟨wOf (wAt ((((wCmn.wrB (cmnBase 0 + 64) [1, 2, 3]).setG 0 1 (cmnBase 0 + 64)).setG 0 3 (0x020000000000 + QUE_CHIN 1 4)).chanOpen 1 4) ([9, 0xA, 0x31, 0] ++ leBytes 4 0 ++ leBytes 8 (0))), 0, ([9, 0xA, 0x31, 0] ++ leBytes 4 0 ++ leBytes 8 (0)), cmnBase 0 + 64, 1, 4, by decide⟩

theorem witness_SequencerAndQueueFormsComplete_42 : ∃ (s : State) (r : Nat) (x : List Byte) (da : Nat) (m : Msg) (rest : List
  Msg), (AtDesc s.dev r 10 x) ∧ (s.dev.seqPc r + 1 < 4096) ∧ (FreshOp s.dev r) ∧ (OwnCommons s.dev r (s.dev.greg r (dGd x)) da
  64 ∧ s.dev.greg r (dGd x) % 64 = 0) ∧ (s.dev.chHost r (dCh x) = false) ∧ (QuietQueues s.dev r) ∧ (s.dev.chan r (dCh x) = m ::
  rest ∧ s.dev.stage r (dCh x) = [] ∧ m.data.length = 64) :=
  ⟨wOf (wAt ((wCmn.setG 0 3 (cmnBase 0 + 64)).setChan 0 4 [⟨List.replicate 64 9#8, .nobody⟩]) ([10, 0, 0x30, 4] ++ leBytes 4 0 ++ leBytes 8 (0))), 0, ([10, 0, 0x30, 4] ++ leBytes 4 0 ++ leBytes 8 (0)), cmnBase 0 + 64, ⟨List.replicate 64 9#8, .nobody⟩, [], by decide⟩

theorem witness_SequencerAndQueueFormsComplete_43 : ∃ (s : State) (r da : Nat) (x : List Byte) (m : Msg) (rest : List Msg), (r <
  16) ∧ (x = s.dev.seqDesc r) ∧ (s.dev.waitsAt r 10 1 = true ∧ s.dev.seqPc r + 1 < 4096 ∧ (s.dev.regPart r).isSome = true) ∧
  (FreshOp s.dev r) ∧ (OwnCommons s.dev r (s.dev.greg r (dGd x)) da 64 ∧ s.dev.greg r (dGd x) % 64 = 0) ∧ (s.dev.chHost r (dCh
  x) = false) ∧ (QuietQueues s.dev r) ∧ (s.dev.chan r (dCh x) = m :: rest ∧ s.dev.stage r (dCh x) = [] ∧ m.data.length = 64) ∧
  (s.dev.owns ((s.dev.regPart r).getD 0) r = true) :=
  ⟨wOf ((wAt ((wCmn.setG 0 3 (cmnBase 0 + 64)).setChan 0 4 [⟨List.replicate 64 9#8, .nobody⟩]) ([10, 0, 0x30, 4] ++ leBytes 4 0 ++ leBytes 8 (0))).setSeq 0 2 1), 0, cmnBase 0 + 64, ([10, 0, 0x30, 4] ++ leBytes 4 0 ++ leBytes 8 (0)), ⟨List.replicate 64 9#8, .nobody⟩, [], by decide⟩

theorem witness_SequencerAndQueueFormsComplete_44 : ∃ (s : State) (r : Nat) (x : List Byte) (n sa : Nat), (AtDesc s.dev r 15 x)
  ∧ (FreshOp s.dev r) ∧ (dPost x = false ∧ dCh x % 2 = 0) ∧ (n = 8 * evCount x ∧ n ≤ 2048) ∧ (OwnCommons s.dev r (s.dev.greg r
  (dGs x)) sa n) :=
  ⟨wOf (wAt ((wCmn.wrN (cmnBase 0 + 64) 8 (2 ^ 51 + 7)).setG 0 1 (cmnBase 0 + 64)) ([15, 2, 0x01, 0] ++ leBytes 4 1 ++ leBytes 8 (0))), 0, ([15, 2, 0x01, 0] ++ leBytes 4 1 ++ leBytes 8 (0)), 8, cmnBase 0 + 64, by decide⟩

theorem witness_SequencerAndQueueFormsComplete_45 : ∃ (s : State) (r : Nat) (x : List Byte) (t sa : Nat), (AtDesc s.dev r 16 x)
  ∧ (s.dev.seqPc r + 1 < 4096) ∧ (FreshOp s.dev r) ∧ (t < 16 ∧ dImm x = 2 ^ t) ∧ (OwnCommons s.dev r (s.dev.greg r (dGs x)) sa
  64) ∧ (∀ k, k < 16 → WriteOk s.dev (.score r) (TCR_DQPUSH t k)) ∧ ((s.dev.tcore t).queue.length < 8) :=
  ⟨wOf (wAt ((wCmn.wrB (cmnBase 0 + 64) wMm).setG 0 1 (cmnBase 0 + 64)) ([16, 0, 0x01, 0] ++ leBytes 4 1 ++ leBytes 8 (0))), 0, ([16, 0, 0x01, 0] ++ leBytes 4 1 ++ leBytes 8 (0)), 0, cmnBase 0 + 64, by decide⟩

theorem witness_SequencerAndQueueFormsComplete_46 : ∃ (s : State) (r : Nat) (x : List Byte) (sa : Nat), (AtDesc s.dev r 17 x) ∧
  (FreshOp s.dev r) ∧ (OwnCommons s.dev r (s.dev.greg r (dGs x)) sa 64) ∧ (byteAt (s.dev.rdB sa 64) 0 = 6) ∧ (s.dev.tcOut r =
  false ∧ s.dev.tcGone r = false ∧ (s.dev.tcore r).queue.length < 8) :=
  ⟨wOf (wAt ((wCmn.wrB (cmnBase 0 + 64) (wOpX 6)).setG 0 1 (cmnBase 0 + 64)) ([17, 0, 0x31, 0] ++ leBytes 4 0 ++ leBytes 8 (0))), 0, ([17, 0, 0x31, 0] ++ leBytes 4 0 ++ leBytes 8 (0)), cmnBase 0 + 64, by decide⟩

theorem witness_SequencerAndQueueFormsComplete_47 : ∃ (s : State) (r : Nat) (x : List Byte) (sa ro : Nat), (AtDesc s.dev r 18 x)
  ∧ (s.dev.seqPc r + 1 < 4096) ∧ (FreshOp s.dev r) ∧ (OwnCommons s.dev r (s.dev.greg r (dGs x)) sa 64) ∧ ((s.dev.regPart r).bind
  s.dev.readoutRegion = some ro ∧ s.dev.ecc = []) ∧ (s.dev.tcOut r = false ∧ s.dev.tcGone r = false ∧ (s.dev.tcore
  r).queue.length < 8) :=
  ⟨wOf (wAt (((wCmn.wrB (cmnBase 0 + 64) (wOpX 7)).setG 0 1 (cmnBase 0 + 64)).setR (AXN_PROUT 0 1) 0x80000001) ([18, 0, 0x31, 0] ++ leBytes 4 4 ++ leBytes 8 (0))), 0, ([18, 0, 0x31, 0] ++ leBytes 4 4 ++ leBytes 8 (0)), cmnBase 0 + 64, 1, by decide⟩

theorem witness_SequencerAndQueueFormsComplete_48 : ∃ (s : State) (r : Nat) (x : List Byte) (g sa n u p w : Nat) (c : List
  Byte), (AtDesc s.dev r 24 x) ∧ (s.dev.seqPc r + 1 < 4096) ∧ (FreshOp s.dev r) ∧ ((∀ b, b < 16 → s.dev.ownsBank r b ownScore =
  true ∧ s.dev.flag (CMN_OWN r b) 31 = false) ∧ s.dev.ecc = []) ∧ (OwnCommons s.dev r (s.dev.greg r (dGs x)) g 64 ∧ c =
  s.dev.rdB g 64 ∧ rgOk c = true) ∧ (OwnCommons s.dev r (dAddr x) sa n ∧ n = dImm x ∧ n ≤ 2048) ∧ (u = ceilDiv (8 + n) 64 ∧ p =
  rgHead c % rgSize c) ∧ (64 * u ≤ rgSize c - p ∧ p % 64 = 0 ∧ 64 * u ≤ rgSize c - 64 ∧ 64 * u ≤ rgSize c - (rgHead c + 2 ^ 32 -
  rgTail c) % 2 ^ 32) ∧ (rgBase c + rgSize c ≤ 0x400000) ∧ (w = cmnBase r + rgBase c + p) ∧ (g + 64 ≤ w ∨ w + 64 * u ≤ g) :=
  ⟨wOf (wAt (((wCmn.wrB (cmnBase 0 + 64) (leBytes 4 0x40000 ++ [12])).wrB (cmnBase 0 + 4096) [1, 2, 3, 4, 5]).setG 0 1 (cmnBase 0 + 64)) ([24, 0, 0x31, 0] ++ leBytes 4 5 ++ leBytes 8 (cmnBase 0 + 4096))), 0, ([24, 0, 0x31, 0] ++ leBytes 4 5 ++ leBytes 8 (cmnBase 0 + 4096)), cmnBase 0 + 64, cmnBase 0 + 4096, 5, 1, 0, cmnBase 0 + 0x40000, leBytes 4 0x40000 ++ [12] ++ zeros 59, by decide⟩

theorem witness_SequencerAndQueueFormsComplete_49 : ∃ (s : State) (r : Nat) (x : List Byte) (g t w n u da : Nat) (c : List
  Byte), (AtDesc s.dev r 25 x) ∧ (s.dev.seqPc r + 1 < 4096) ∧ (FreshOp s.dev r) ∧ ((∀ b, b < 16 → s.dev.ownsBank r b ownScore =
  true ∧ s.dev.flag (CMN_OWN r b) 31 = false) ∧ s.dev.ecc = []) ∧ (OwnCommons s.dev r (s.dev.greg r (dGs x)) g 64 ∧ c =
  s.dev.rdB g 64 ∧ rgOk c = true) ∧ (t = rgTail c ∧ t ≠ rgHead c ∧ w = cmnBase r + rgBase c + t % rgSize c) ∧ (rgBase c + rgSize
  c ≤ 0x400000 ∧ t % rgSize c + 8 + n ≤ rgSize c) ∧ (byteAt (s.dev.rdB w 8) 0 = 1 ∧ u = leAt (s.dev.rdB w 8) 2 2 ∧ n = leAt
  (s.dev.rdB w 8) 4 4) ∧ (0 < u ∧ 64 * u ≤ (rgHead c + 2 ^ 32 - t) % 2 ^ 32 ∧ n ≤ 2048) ∧ (OwnCommons s.dev r (dAddr x) da n) ∧
  (g + 64 ≤ da ∨ da + n ≤ g) :=
  ⟨wOf (wAt (((wCmn.wrB (cmnBase 0 + 64) (leBytes 4 0x40000 ++ [12, 0, 0, 0] ++ leBytes 4 64)).wrB (cmnBase 0 + 0x40000) (ringHdr 1 1 5 ++ [1, 2, 3, 4, 5])).setG 0 1 (cmnBase 0 + 64)) ([25, 0, 0x31, 0] ++ leBytes 4 0 ++ leBytes 8 (cmnBase 0 + 4096))), 0, ([25, 0, 0x31, 0] ++ leBytes 4 0 ++ leBytes 8 (cmnBase 0 + 4096)), cmnBase 0 + 64, 0, cmnBase 0 + 0x40000, 5, 1, cmnBase 0 + 4096, leBytes 4 0x40000 ++ [12, 0, 0, 0] ++ leBytes 4 64 ++ zeros 52, by decide⟩

theorem witness_SequencerAndQueueFormsComplete_50 : ∃ (s : State) (r : Nat) (x : List Byte) (g p q : Nat) (b : List Byte),
  (AtDesc s.dev r 19 x) ∧ (s.dev.seqPc r + 1 < 4096) ∧ (FreshOp s.dev r) ∧ (s.dev.ecc = []) ∧ (OwnCommons s.dev r (s.dev.greg r
  (dGs x)) g 64 ∧ b = s.dev.rdB g 64) ∧ (s.dev.regPart r = some p ∧ NamesCore s.dev p (tdCore b) q ∧ q < 256) ∧ (s.dev.flag
  (HRV_STAT q) 2 = true ∧ s.dev.muteBeat q p = false ∧ s.dev.fld (HRV_SCOUNT q) 0 16 < min (s.dev.fld (HRV_HWIN q) 0 16)
  (s.dev.fld (HRV_SEASON q) 0 16)) :=
  ⟨wOf (wAt (wTend.wrB (cmnBase 0 + 64) [0, 0, 1, 200]) ([19, 0, 0x31, 0] ++ leBytes 4 0 ++ leBytes 8 (0))), 0, ([19, 0, 0x31, 0] ++ leBytes 4 0 ++ leBytes 8 (0)), cmnBase 0 + 64, 1, 0, [0, 0, 1, 200] ++ zeros 60, by decide⟩

theorem witness_SequencerAndQueueFormsComplete_51 : ∃ (s : State) (r : Nat) (x : List Byte) (c : Nat × Nat) (rest : List (Nat ×
  Nat)), (AtDesc s.dev r 20 x) ∧ (s.dev.seqPc r + 1 < 4096) ∧ (s.dev.seasonEnded r = true) ∧ (s.dev.coresOf r = c :: rest) :=
  ⟨wOf (wAt ((wSeq.forEach (upTo 16) (fun d q => (d.setR (HRV_SEASONNO q) 5).setR (HRV_STAT q) 4))) ([20, 0, 0x30, 0] ++ leBytes 4 0 ++ leBytes 8 (0))), 0, ([20, 0, 0x30, 0] ++ leBytes 4 0 ++ leBytes 8 (0)), (0, 0), (wOn.coresOf 0).drop 1, by decide⟩

theorem witness_SequencerAndQueueFormsComplete_52 : ∃ (s : State) (r : Nat) (c : Nat × Nat) (rest : List (Nat × Nat)), (r < 16)
  ∧ (s.dev.waitsAt r 20 4 = true ∧ s.dev.seasonEnded r = true ∧ s.dev.seqPc r + 1 < 4096) ∧ (s.dev.coresOf r = c :: rest) :=
  ⟨wOf ((wAt (wSeq.forEach (upTo 16) (fun d q => (d.setR (HRV_SEASONNO q) 5).setR (HRV_STAT q) 4)) ([20, 0, 0x30, 0] ++ leBytes 4 0 ++ leBytes 8 (0))).setSeq 0 2 4), 0, (0, 0), (wOn.coresOf 0).drop 1, by decide⟩

theorem witness_SequencerAndQueueFormsComplete_53 : ∃ (s : State) (r : Nat) (x : List Byte) (p : Nat), (AtDesc s.dev r 21 x) ∧
  (s.dev.regPart r = some p) ∧ (s.dev.harvestOn p = false ∧ s.dev.muted p = false) ∧ ((s.dev.part p).ckpt.copy = none ∧
  (s.dev.part p).ckpt.flags % 4 = 2) :=
  ⟨wOf (wAt (wSeq.setPart 1 { (wSeq.part 1) with ckpt := { (wSeq.part 1).ckpt with flags := 2 } }) ([21, 0, 0x30, 0] ++ leBytes 4 0 ++ leBytes 8 (0))), 0, ([21, 0, 0x30, 0] ++ leBytes 4 0 ++ leBytes 8 (0)), 1, by decide⟩

theorem witness_SequencerAndQueueFormsComplete_54 : ∃ (s : State) (r : Nat) (x : List Byte), (AtDesc s.dev r 22 x) ∧
  (s.dev.seqPc r + 1 < 4096) ∧ (∀ c, c ∈ s.dev.coresOf r → c.2 < 256 ∧ WriteOk s.dev (.score r) (HRV_MODNEXT c.2)) :=
  ⟨wOf (wAt ((wSeq.setG 0 1 0x40).setG 0 3 70000) ([22, 0, 0x31, 0] ++ leBytes 4 0 ++ leBytes 8 (0))), 0, ([22, 0, 0x31, 0] ++ leBytes 4 0 ++ leBytes 8 (0)), by decide⟩

theorem witness_SequencerAndQueueFormsComplete_55 : ∃ (s : State) (r : Nat) (x : List Byte) (b : Nat), (AtDesc s.dev r 23 x) ∧
  (s.dev.seqPc r + 1 < 4096) ∧ (b = dCh x % 16 ∧ bitAt (dImm x) 8 = false ∧ dImm x % 16 ≤ 2) ∧ (s.dev.bankOwner r b false =
  ownScore ∨ s.dev.bankOwner r b false = 0) :=
  ⟨wOf (wAt (wSeq) ([23, 0, 0, 4] ++ leBytes 4 1 ++ leBytes 8 (0))), 0, ([23, 0, 0, 4] ++ leBytes 4 1 ++ leBytes 8 (0)), 4, by decide⟩

theorem witness_SequencerAndQueueFormsComplete_56 : ∃ (s : State) (r : Nat) (x : List Byte), (AtDesc s.dev r 26 x) ∧
  (s.dev.seqPc r + 1 < 4096) :=
  ⟨wOf (wAt (wSeq) ([26, 0, 0x30, 0] ++ leBytes 4 9 ++ leBytes 8 (0))), 0, ([26, 0, 0x30, 0] ++ leBytes 4 9 ++ leBytes 8 (0)), by decide⟩

theorem witness_ContributionsSaturate : ∃ (d : Dev) (q i b n ring : Nat), 1 < n ∧ ring % 2 = 0 ∧ SMap.get 0 d.ecc (8 * ((ring + 2 * (b % n)) / 8)) = 0 := ⟨wD, 0, 1, 9, 16, 0x010000010000, by decide⟩

theorem witness_EmptyQueuePassesOneTick : wS.pending = [] ∧ wS.dev.pwr.asleep = 0 := by decide

theorem witness_EmptyQueuePassesOneTick_asleep : ({ wD with pwr := { wD.pwr with asleep := 1 } } : Dev).pwr.asleep ≠ 0 := by decide

theorem witness_EmptyQueuePassesOneTick_counts : wRun.running 1 = true ∧ wRun.rg (TAB_BCOUNT 1) < wRun.beatCap 1 ∧ wRun.rg (TAB_BCOUNT 1) + 1 < 2 ^ 32 ∧ wTm.flag (TAB_TnSTAT 3) 0 = true ∧ wTm.rg (TAB_TnCOUNT 3) + 1 < wTm.timerNext 3 := by decide

theorem witness_RefusedCommands_length : wD.flag CAR_STAT 7 = false ∧ wD.flag CAR_STAT 6 = false ∧ BadHead cBeatStatus wH [1] ∧ wD.flag CAR_STAT 0 = true ∧ wD.flag (CAR_RRCFG 0) 31 = true ∧ 12 ≤ wD.fld (CAR_RRCFG 0) 0 5 ∧ wD.refuse cBeatStatus wH [1] = some (.badLength, 0) ∧ wD.car.restart = false ∧ wD.fld PWR_STATE 0 3 = 0 := by decide

theorem witness_RefusedCommands_tag : ¬ BadHead cBeatStatus wH [] ∧ ((wD.setFn 0 { wD.fn 0 with outst := [⟨5, 1⟩] }).fn 0).outst.any (fun o => o.tag == wH.tag) = true := by decide

theorem witness_RefusedCommands_right : ¬ BadHead cBeatStatus { wH with func := 2 } [] ∧ NoRight cBeatStatus { wH with func := 2 } ∧ (wD.fn 2).outst.any (fun o => o.tag == wH.tag) = false := by decide

theorem witness_RefusedCommands_ready : ¬ NoRight cBeatStatus wH ∧ cBeatStatus.ready = true ∧ (wD.setF CAL_STAT 0 3 2).fld CAL_STAT 0 3 ≠ 4 := by decide

theorem witness_RefusedCommands_partition : cBeatStatus.names = true ∧ wD.fld CAL_STAT 0 3 = 4 ∧ wD.regionsOf 9 = [] ∧ wD.regionsOf 1 ≠ [] := by decide

theorem witness_PinsAndStatusFollow : ∃ t, step wS = .next t := ⟨_, rfl⟩

theorem witness_MemoryKeepsItsForm : (wD.wrN 100 2 0x0102).mem.wf = true ∧ (wD.wrN 100 2 0x0102).mem ≠ [] := by decide

end Sys2Proof.Tests
end

section
/-! SUPPORT. A command that is one effect on the device: what it means to run it. -/

namespace Sys2Proof.Machine

open Sys2Proof

/-- The cores, the regions, the partitions, the T-cores and the S-cores beside their registers. -/
def Dev.units (d : Dev) : SMap NCore × SMap Region × SMap Part × SMap TCore × SMap SCore :=
  (d.cores, d.regions, d.parts, d.tcores, d.scores)

/-- What follows the state follows it without touching the units. -/
theorem sameUnits_finish {d e : Dev} (h : e.units = d.units) : SameUnits d e.finish := by
  obtain ⟨hcores, hregions, hparts, htcores, hscores⟩ :
      e.cores = d.cores ∧ e.regions = d.regions ∧ e.parts = d.parts ∧ e.tcores = d.tcores ∧ e.scores = d.scores := by
    simpa [Dev.units] using h
  exact ⟨(finish_cores e).trans hcores, (finish_regions e).trans hregions, (finish_parts e).trans hparts,
    (finish_tcores e).trans htcores, (finish_scores e).trans hscores⟩

/-- A command that is an effect `f` on the device always answers, and its device is the one `f` leaves, with what follows it. -/
theorem runs_iff {c : Instr} {s : State} {f : Dev → Dev} {P : Dev → Prop} (h : exec c s = s.run f) :
    Runs c s P ↔ P (f s.dev).finish := by
  constructor
  · intro ⟨t, ht, _, hP⟩
    have he : { s with dev := (f s.dev).finish } = t := Host.Outcome.next.inj (h.symm.trans ht)
    rwa [← he] at hP
  · exact fun hP => ⟨_, h.trans (run_next f s), rfl, hP⟩

end Sys2Proof.Machine
end

section
/-! SUPPORT. Refused commands: the checks of R513 in their order, and what the completion of a command turned away leaves as it was. -/

namespace Sys2Proof.Machine

open Sys2Proof

/-- Books alone keep memory, its ECC state and the units, and every register but theirs, also once what follows the state has
followed it. -/
theorem BookKeeps.finish_keeps {d e : Dev} (h : BookKeeps d e) : Keeps d e.finish BookReg ∧ SameUnits d e.finish := by
  refine ⟨⟨fun a ha hf => (rg_finish e hf).trans (h.rg a ha), fun a => ?_, ?_⟩, sameUnits_finish (congrArg Dev.units h.desk :)⟩
  · rw [finish_mem, desk_mem h.desk]
  · rw [finish_ecc, desk_ecc h.desk]

/-- An empty answer fits a response ring of 4,096 bytes or more (R518). -/
theorem empty_fits {d : Dev} {h : Hdr} (hf : h.func < 16) (hl : 12 ≤ d.fld (CAR_RRCFG h.func) 0 5) : Fits d h 0 := by
  have n2 : ¬ h.func = 0xFE := by omega
  have : 2 ^ 12 ≤ 2 ^ d.fld (CAR_RRCFG h.func) 0 5 := Nat.pow_le_pow_right (by decide) hl
  unfold Fits Dev.respLimit ceilDiv
  rw [if_neg n2]
  omega

/-- The checks of R513 that are left outside recovery and with verified firmware, each in its own words. -/
theorem refuse_eq (d : Dev) (c : CmdSpec) (h : Hdr) (pl : List Byte) (h7 : d.flag CAR_STAT 7 = false)
    (h6 : d.flag CAR_STAT 6 = false) (hf : h.func < 16) :
    d.refuse c h pl =
      if BadHead c h pl then some (.badLength, 0)
      else if (d.fn h.func).outst.any (fun o => o.tag == h.tag) then some (.busy, 0)
      else if NoRight c h then some (.denied, 0)
      else if c.ready = true ∧ d.fld CAL_STAT 0 3 ≠ 4 then some (.busy, 0)
      else if c.names = true ∧ d.regionsOf h.part = [] then some (.badPartition, 0)
      else (c.rsv.find? (rsvdSet pl)).map (fun r => (Status.denied, r.1)) := by
  have nFE : h.func ≠ 0xFE := by omega
  unfold Dev.refuse
  by_cases hb : BadHead c h pl
  · have : (h.rsvd ≠ 0 || 16 ≤ h.part || 4 ≤ h.flags || ! c.len pl) = true := by simpa [BadHead, or_assoc] using hb
    simp only [h7, Bool.false_and, Bool.false_eq_true, if_false, this, hb, if_true]
  · have hhead : (h.rsvd ≠ 0 || 16 ≤ h.part || 4 ≤ h.flags || ! c.len pl) = false := by simpa [BadHead, and_assoc] using hb
    have hpart : h.part % 16 = h.part := Nat.mod_eq_of_lt (by unfold BadHead at hb; omega)
    have hright : (h.func ≠ 0 && h.func ≠ 0xFE && (c.issuer == .pf || (c.issuer == .owner && h.func ≠ h.part))) =
        decide (NoRight c h) := by simp [NoRight, nFE, Bool.decide_or, Bool.decide_and, beq_eq_decide]
    simp only [h7, h6, hhead, hpart, hright, hb, nFE, Bool.false_and, decide_false, Bool.false_eq_true, if_false,
      Bool.and_eq_true, decide_eq_true_eq, List.isEmpty_iff]
    cases c.rsv.find? (rsvdSet pl) <;> rfl

/-- Outside recovery, with verified firmware, the checks of R513 turn a command away in their order. -/
theorem refuse_order (d : Dev) (c : CmdSpec) (h : Hdr) (pl : List Byte) (h7 : d.flag CAR_STAT 7 = false)
    (h6 : d.flag CAR_STAT 6 = false) (hf : h.func < 16) :
    (BadHead c h pl → d.refuse c h pl = some (.badLength, 0)) ∧
    (¬ BadHead c h pl → (d.fn h.func).outst.any (fun o => o.tag == h.tag) = true → d.refuse c h pl = some (.busy, 0)) ∧
    (¬ BadHead c h pl → (d.fn h.func).outst.any (fun o => o.tag == h.tag) = false →
    (NoRight c h → d.refuse c h pl = some (.denied, 0)) ∧
    (¬ NoRight c h → c.ready = true → d.fld CAL_STAT 0 3 ≠ 4 → d.refuse c h pl = some (.busy, 0)) ∧
    (¬ NoRight c h → (c.ready = true → d.fld CAL_STAT 0 3 = 4) →
    (c.names = true → d.regionsOf h.part = [] → d.refuse c h pl = some (.badPartition, 0)) ∧
    ((c.names = true → d.regionsOf h.part ≠ []) →
    d.refuse c h pl = (c.rsv.find? (rsvdSet pl)).map (fun r => (Status.denied, r.1))))) := by
  rw [refuse_eq d c h pl h7 h6 hf]
  refine ⟨fun hb => ?_, fun hb ho => ?_, fun hb ho => ⟨fun hn => ?_, fun hn hc hs => ?_, fun hn hs => ⟨fun hc hp => ?_, fun hp => ?_⟩⟩⟩
  · rw [if_pos hb]
  · rw [if_neg hb, if_pos ho]
  · rw [if_neg hb, if_neg (by simp [ho]), if_pos hn]
  · rw [if_neg hb, if_neg (by simp [ho]), if_neg hn, if_pos ⟨hc, hs⟩]
  · rw [if_neg hb, if_neg (by simp [ho]), if_neg hn, if_neg (fun x => x.2 (hs x.1)), if_pos ⟨hc, hp⟩]
  · rw [if_neg hb, if_neg (by simp [ho]), if_neg hn, if_neg (fun x => x.2 (hs x.1)), if_neg (fun x => hp x.1 x.2)]

/-- A command that a check turns away: the books of its completion, and its response (R513, R517, R524). -/
theorem serve_refused {d : Dev} {c : CmdSpec} (body : Dev → Hdr → List Byte → Dev × Ans) {h : Hdr} {pl : List Byte} {st : Status}
    {det : Nat} (h0 : d.flag CAR_STAT 0 = true) (hf : h.func < 16) (hr : d.flag (CAR_RRCFG h.func) 31 = true)
    (hl : 12 ≤ d.fld (CAR_RRCFG h.func) 0 5) (hx : d.refuse c h pl = some (st, det)) :
    BookKeeps d (d.serve c body h pl) ∧ ((d.serve c body h pl).fn h.func).resps =
      (d.fn h.func).resps ++ [{ opcode := c.opcode, hdr := h, status := st, detail := det, pl := [] }] := by
  obtain ⟨hk, -, hresp⟩ := complete_spec d c.opcode c.names c.ro h pl st det [] hf hr (empty_fits hf hl)
  have n1 : ¬ 0x100 ≤ h.func := by omega
  unfold Dev.serve
  simp only [h0, n1, hx, Bool.not_true, decide_false, Bool.or_self, Bool.false_eq_true, if_false]
  refine ⟨(hk.trans (BookKeeps.setFn _ _ _)).trans (BookKeeps.setF _ ?_ _ _ _), ?_⟩
  · exact .inr (.inr (.inr (.inr (.inr ⟨h.func, hf, .inl rfl⟩))))
  · rw [setF_fn_at, fn_setFn, if_pos rfl]
    exact hresp

/-- What a command does after its `serve` (UPDATE_ACTIVATE, POWER_STATE) changes no device on which the books alone have worked. -/
theorem turnedAway_run {c : Hdr → List Byte → Instr} {k : List Byte → CmdSpec} {ok : Dev → Prop}
    (body : Dev → Hdr → List Byte → Dev × Ans) (post : Dev → Dev) (hpost : ∀ d e, ok d → BookKeeps d e → post e = e)
    (he : ∀ h pl s, exec (c h pl) s = s.run (fun d => post (d.serve (k pl) body h pl))) : TurnedAway c k ok := by
  intro s h pl st det hok h0 hf hr hl hx
  obtain ⟨hk, hresp⟩ := serve_refused body h0 hf hr hl hx
  rw [runs_iff (he h pl s), hpost _ _ hok hk, finish_fn]
  exact ⟨hresp, hk.finish_keeps⟩

/-- A command that is `serve` alone. -/
theorem turnedAway_serve {c : Hdr → List Byte → Instr} {k : List Byte → CmdSpec} (body : Dev → Hdr → List Byte → Dev × Ans)
    (he : ∀ h pl s, exec (c h pl) s = s.run (fun d => d.serve (k pl) body h pl) := by intros; rfl) :
    TurnedAway c k (fun _ => True) :=
  turnedAway_run body id (fun _ _ _ _ => rfl) he

/-- No restart waits, so none begins (R540). -/
theorem turnedAway_updateActivate : TurnedAway .updateActivate (fun _ => cUpdateActivate) (fun d => d.car.restart = false) :=
  turnedAway_run Dev.updateActivate Dev.activated
    (fun d e hd hk => by unfold Dev.activated; rw [desk_car_restart hk.desk, hd]; rfl) (by intros; rfl)

/-- No sleep is under way, so none begins (R581). -/
theorem turnedAway_powerState : TurnedAway .powerState (fun _ => cPowerState)
    (fun d => d.fld PWR_STATE 0 3 ≠ 3 ∧ d.fld PWR_STATE 0 3 ≠ 4) :=
  turnedAway_run Dev.powerState Dev.sleepNow
    (fun d e hd hk => by
      have hs : e.fld PWR_STATE 0 3 = d.fld PWR_STATE 0 3 := by
        unfold Dev.fld
        rw [hk.rg]
        unfold BookReg PWR_STATE CAR_LOGSEQ CAR_JSKIP OBS_TSTAT OBS_TFIFO OBS_TDROP CAR_BOUT CAR_BSTAT
        omega
      unfold Dev.sleepNow
      dsimp only
      rw [hs, if_neg hd.1, if_neg hd.2, ite_self])
    (by intros; rfl)

/-- Settles O57: the order of the checks, and for each command that its completion, turned away, does no more than the books. -/
theorem refusedCommands : Obligations.RefusedCommands :=
  ⟨refuse_order, turnedAway_serve Dev.axonRange, turnedAway_serve Dev.axonCoreBase, turnedAway_serve Dev.axonLoad,
    turnedAway_serve Dev.axonReadCmd, turnedAway_serve Dev.almanacConfig, turnedAway_serve Dev.almanacRead,
    turnedAway_serve Dev.almanacLoad, turnedAway_serve Dev.readoutConfig, turnedAway_serve Dev.readoutRead,
    turnedAway_serve Dev.eventRings, turnedAway_serve Dev.axnStatus, turnedAway_serve Dev.calStatus,
    turnedAway_serve Dev.partAssign, turnedAway_serve Dev.partRemove, turnedAway_serve Dev.partStatus,
    turnedAway_serve Dev.planSet, turnedAway_serve Dev.planRead, turnedAway_serve Dev.planClear, turnedAway_serve Dev.idRead,
    turnedAway_serve Dev.attest, turnedAway_serve Dev.sensorRead, turnedAway_serve Dev.logRead, turnedAway_serve Dev.ffRead,
    turnedAway_serve Dev.ffClear, turnedAway_serve Dev.logStatus, turnedAway_serve Dev.updateBegin,
    turnedAway_serve Dev.updateData, turnedAway_serve Dev.updateVerify, turnedAway_updateActivate,
    turnedAway_serve Dev.updateCommit, turnedAway_serve Dev.updateStatus, turnedAway_serve Dev.ddrConfig,
    turnedAway_serve Dev.ddrStatus, turnedAway_serve Dev.ddrWindow, turnedAway_serve Dev.ddrRetrain,
    turnedAway_serve Dev.ddrScrub, turnedAway_serve Dev.ddrWinread, turnedAway_serve Dev.fabStatus,
    turnedAway_serve Dev.portControl, turnedAway_serve Dev.portStatus, turnedAway_serve Dev.routeRead,
    turnedAway_serve Dev.collSetup, turnedAway_serve Dev.collIssue, turnedAway_serve Dev.collRelease,
    turnedAway_serve Dev.collStatus, turnedAway_serve Dev.rudimentLoad, turnedAway_serve Dev.rudimentConfig,
    turnedAway_serve Dev.rudimentRead, turnedAway_serve Dev.faultStatus, turnedAway_serve Dev.muteSet,
    turnedAway_serve Dev.muteClear, turnedAway_serve Dev.chokeCmd, turnedAway_serve Dev.partScrub,
    turnedAway_serve Dev.fenceCmd, turnedAway_serve Dev.fenceListCmd, turnedAway_serve Dev.fenceClear,
    turnedAway_serve Dev.faultConfig, turnedAway_serve Dev.gpioSafe, turnedAway_serve Dev.spareReserve,
    turnedAway_serve Dev.ruleLoad, turnedAway_serve Dev.ruleRead, turnedAway_serve Dev.seasonConfig,
    turnedAway_serve Dev.modSet, turnedAway_serve Dev.seedSet, turnedAway_serve Dev.revLoad, turnedAway_serve Dev.ckptConfig,
    turnedAway_serve Dev.ckptNow, turnedAway_serve Dev.ckptRestore, turnedAway_serve Dev.ckptStatus,
    turnedAway_serve Dev.ckptQuota, turnedAway_serve Dev.hrvStatus, turnedAway_serve Dev.profileLoad,
    turnedAway_serve Dev.profileRead, turnedAway_serve Dev.neuronLoad, turnedAway_serve Dev.neuronRead,
    turnedAway_serve Dev.neuronStatus, turnedAway_serve Dev.pagemapSet, turnedAway_serve Dev.pagemapRead,
    turnedAway_serve Dev.rowLoad, turnedAway_serve Dev.rowRead, turnedAway_serve Dev.synStatus,
    turnedAway_serve Dev.poisonList, turnedAway_serve Dev.obsRead, turnedAway_serve Dev.obsControl,
    turnedAway_serve Dev.traceConfig, turnedAway_serve Dev.traceStatus, turnedAway_serve Dev.traceMark, turnedAway_powerState,
    turnedAway_serve Dev.powerVote, turnedAway_serve Dev.powerStatus, turnedAway_serve Dev.thermalConfig,
    turnedAway_serve Dev.policySet, turnedAway_serve Dev.rtcAlarmCmd, turnedAway_serve Dev.aonWrite,
    turnedAway_serve Dev.aonRead, turnedAway_serve Dev.seqLoad, turnedAway_serve Dev.seqControl,
    turnedAway_serve Dev.seqStatusCmd, turnedAway_serve Dev.chanConfig, turnedAway_serve Dev.chanSend,
    turnedAway_serve Dev.chanRecv, turnedAway_serve Dev.queStatus, turnedAway_serve Dev.cqConfig,
    turnedAway_serve Dev.commonsOwn, turnedAway_serve Dev.cmnStatus, turnedAway_serve Dev.gangForm,
    turnedAway_serve Dev.gangRelease, turnedAway_serve Dev.gangStatus, turnedAway_serve Dev.tcoreSubmit,
    turnedAway_serve Dev.tcoreStatus, turnedAway_serve Dev.tcoreAbort, turnedAway_serve Dev.tcoreSeed,
    turnedAway_serve Dev.ethPortConfig, turnedAway_serve Dev.siteSet, turnedAway_serve Dev.siteRead,
    turnedAway_serve Dev.tunStatus, turnedAway_serve Dev.ptpConfig, turnedAway_serve Dev.ptpStatus,
    turnedAway_serve Dev.beatConfig, turnedAway_serve Dev.beatOffsets, turnedAway_serve Dev.beatStart,
    turnedAway_serve Dev.beatMuffle, turnedAway_serve Dev.beatResume, turnedAway_serve Dev.beatPeriod,
    turnedAway_serve Dev.beatStatus, turnedAway_serve Dev.timeConfig, turnedAway_serve Dev.timeStatus,
    turnedAway_serve Dev.timeRelock⟩

end Sys2Proof.Machine
end

section
/-! SUPPORT. The device after reset: its registers, and what follows them. -/

namespace Sys2Proof.Machine

open Sys2Proof

/-- What `finish` writes into the default device is every register's reset value: none is listed. -/
theorem reset_regs : State.reset.dev.regs = [] := by decide +kernel

/-- After reset no pin is driven but at its default level. -/
theorem reset_pins : State.reset.dev.pins = default := by decide +kernel

theorem reset_rg (a : Nat) : State.reset.dev.rg a = (regReset a).toNat := by
  unfold Dev.rg; rw [reset_regs, SMap.get_nil, Nat.zero_xor]

theorem reset_fld (a lo w : Nat) : State.reset.dev.fld a lo w = bitsOf (regReset a).toNat lo w := by
  unfold Dev.fld; rw [reset_rg]

theorem reset_flag (a k : Nat) : State.reset.dev.flag a k = bitAt (regReset a).toNat k := by
  unfold Dev.flag; rw [reset_rg]

theorem regReset_of_remap {a n : Nat} (hi : remapIndex a = some n) (hn : n < 256) : (regReset a).toNat = n := by
  unfold regReset
  rw [hi]
  exact Nat.mod_eq_of_lt (by omega)

/-- A region router's entry `n` of the remap table is one (R37, R280). -/
theorem remapIndex_remap {n : Nat} (hn : n < 256) : remapIndex (FAB_REMAP (n / 16) n) = some n := by
  have ho : FAB_REMAP (n / 16) n % 0x10000 = 0x400 + 4 * n := by unfold FAB_REMAP slotBase; omega
  have hb : FAB_REMAP (n / 16) n / 0x10000 = 0x1020 + 0x100 * (n / 16) := by unfold FAB_REMAP slotBase; omega
  have hlo : 0x10000000 ≤ FAB_REMAP (n / 16) n := by unfold FAB_REMAP slotBase; omega
  have hhi : FAB_REMAP (n / 16) n < 0x20000000 := by unfold FAB_REMAP slotBase; omega
  generalize FAB_REMAP (n / 16) n = a at *
  have hslot : (0x1020 + 0x100 * (n / 16)) % 0x100 = 0x20 := by omega
  simp [remapIndex, ho, hb, hslot, hlo, hhi, show 1024 + 4 * n < 2048 by omega]

/-- The reset values of a partition's registers (R96, R425, R569, R603). -/
theorem regReset_part : ∀ p, p < 16 → (regReset (TAB_BPERIOD p)).toNat = 40000 ∧ (regReset (TAB_LEAPLIM p)).toNat = 4000 ∧
    bitsOf (regReset (TAB_SPAN p)).toNat 0 10 = 1 ∧ bitsOf (regReset (TAB_BSTAT p)).toNat 16 3 = 0 ∧
    regReset (FLT_PMUTE p) = 0#32 := by decide +kernel

/-- The reset values of a region's registers, and of a GPIO pin's (R99, R26, R425, R616). -/
theorem regReset_region : ∀ r, r < 16 → bitsOf (regReset (SEQ_STAT r)).toNat 0 2 = 0 ∧ bitAt (regReset (CAL_REGPART r)).toNat 31 = false ∧
    bitAt (regReset (TAB_CHSTAT r)).toNat 31 = false := by decide +kernel

/-- The default split of a core store (R145). -/
theorem regReset_split : ∀ q, q < 256 → (regReset (SYN_BAND16 q)).toNat = 14336 ∧ (regReset (SYN_ZROWS q 0)).toNat = 52428 := by
  decide +kernel

theorem reset_muted {p : Nat} (hp : p < 16) : State.reset.dev.muted p = false := by
  unfold Dev.muted
  rw [reset_fld, (regReset_part p hp).2.2.2.2]
  rfl

theorem reset_regPart {r : Nat} (hr : r < 16) : State.reset.dev.regPart r = none := by
  unfold Dev.regPart
  rw [reset_flag, (regReset_region r hr).2.1]
  rfl

/-- FLT_STAT shows no Mute, no MUTE_OUT and no ALARM_N after reset. -/
theorem reset_fltStat : regReset FLT_STAT = 0#32 := by decide +kernel

theorem reset_follows : Follows State.reset.dev where
  mutes := by
    rw [reset_flag, reset_fltStat]
    refine ⟨fun h => absurd h (by decide), fun ⟨p, hp, h⟩ => ?_⟩
    rw [reset_muted hp] at h
    exact absurd h (by decide)
  shows := by
    rw [reset_flag, reset_flag, reset_fltStat, reset_pins]
    exact ⟨rfl, rfl⟩
  muted p hp := by
    rw [reset_flag, reset_muted hp, (regReset_part p hp).2.2.2.2]
    rfl
  owner r hr := by
    rw [reset_flag, reset_regPart hr, (regReset_region r hr).2.2]
    exact ⟨rfl, fun p h => absurd h (by simp)⟩
  safe i hi h hm := by
    have hp : State.reset.dev.fld (FLT_GSAFE i) 4 4 < 16 := Nat.mod_lt _ (by decide)
    rw [reset_muted hp] at hm
    exact absurd hm (by decide)

/-- Settles O56: the reset values of the tables, read through `reset_rg`, and what follows them. -/
theorem resetState : Obligations.ResetState := by
  refine ⟨rfl, reset_rg, fun a => ?_, ?_, ?_, fun n hn => ?_, fun p hp => ?_, ?_, fun r hr => ?_, fun q hq => ?_, reset_follows⟩
  · show (Dev.finish _).mem.read a = 0#8
    rw [finish_mem]; rfl
  · show (Dev.finish _).mem.wf = true
    rw [finish_mem]; rfl
  · exact finish_ecc _
  · rw [reset_rg, regReset_of_remap (remapIndex_remap hn) hn]
  · obtain ⟨hperiod, hleap, hspan, hstate, -⟩ := regReset_part p hp
    unfold Dev.bstate
    rw [reset_fld, reset_rg, reset_rg, reset_fld]
    exact ⟨hstate, hperiod, hleap, hspan⟩
  · unfold Dev.tlState
    rw [reset_fld]
    decide +kernel
  · unfold Dev.seqState
    rw [reset_fld]
    exact ⟨(regReset_region r hr).1, reset_regPart hr⟩
  · rw [reset_rg, reset_rg]
    exact regReset_split q hq

end Sys2Proof.Machine
end

section
/-! SUPPORT. What a log record, a first failure and an arrival at the device Tocsin leave as it was. -/

namespace Sys2Proof.Machine

open Sys2Proof

variable (d : Dev)

/-- The registers of the device Tocsin, of Carillon and of the books. -/
def LogReg (a : Nat) : Prop := BookReg a ∨ (0x10000 ≤ a ∧ a < 0x20000) ∨ (0xA0000 ≤ a ∧ a < 0xB0000)

theorem LogReg.noteReg {a : Nat} : LogReg a → NoteReg a
  | .inl h => .inl (.inl h)
  | .inr (.inl h) => .inr (.inl h)
  | .inr (.inr h) => .inr (.inr (.inl h))

/-- The device without its registers, Carillon, the trace, the Tocsin's queues, free values and output. -/
def Dev.quiet : Dev := { d with regs := [], car := default, trace := default, tocq := [], tocWake := [], nonce := 0, out := [] }

/-- What the log and the device Tocsin leave as it was. -/
structure LogKeeps (d e : Dev) : Prop where
  quiet : e.quiet = d.quiet
  rg    : ∀ a, ¬ LogReg a → e.rg a = d.rg a

namespace LogKeeps

theorem refl : LogKeeps d d := ⟨rfl, fun _ _ => rfl⟩
theorem trans {a b c : Dev} (h : LogKeeps a b) (g : LogKeeps b c) : LogKeeps a c :=
  ⟨g.quiet.trans h.quiet, fun x hx => (g.rg x hx).trans (h.rg x hx)⟩
theorem setR {a : Nat} (h : LogReg a) (v : Nat) : LogKeeps d (d.setR a v) := ⟨rfl, fun _ hb => rg_setR_ne d (fun e => hb (e ▸ h))⟩
theorem setF {a : Nat} (h : LogReg a) (lo w v : Nat) : LogKeeps d (d.setF a lo w v) := setR d h _
theorem setFlag {a : Nat} (h : LogReg a) (k : Nat) (x : Bool) : LogKeeps d (d.setFlag a k x) := setR d h _
theorem bump {a : Nat} (h : LogReg a) (k : Nat) : LogKeeps d (d.bump a k) := setR d h _
theorem car (c : Carillon) : LogKeeps d { d with car := c } := ⟨rfl, fun _ _ => rfl⟩
theorem tocq (q : SMap (List TocRec)) : LogKeeps d { d with tocq := q } := ⟨rfl, fun _ _ => rfl⟩
theorem tocWake (w : SMap Nat) : LogKeeps d { d with tocWake := w } := ⟨rfl, fun _ _ => rfl⟩
theorem nonce (n : Nat) : LogKeeps d { d with nonce := n } := ⟨rfl, fun _ _ => rfl⟩

theorem books {d e : Dev} (h : BookKeeps d e) : LogKeeps d e :=
  ⟨congrArg (fun x : Dev => { x with car := default, tocq := [], tocWake := [], nonce := 0 }) h.desk,
    fun a ha => h.rg a (fun hb => ha (.inl hb))⟩

theorem trace {d e : Dev} (h : TraceKeeps d e) : LogKeeps d e := books h.book

/-- Memory, its ECC state and the units are as they were. -/
theorem finish_keeps {d e : Dev} (h : LogKeeps d e) :
    RegKeeps d e.finish LogReg ∧ SameMem d e.finish ∧ e.finish.ecc = d.ecc ∧ SameUnits d e.finish := by
  have hq := h.quiet
  refine ⟨fun a ha hf => (rg_finish e hf).trans (h.rg a ha), fun a => ?_, ?_, sameUnits_finish (congrArg Dev.units hq :)⟩
  · rw [finish_mem]; exact (congrArg (fun x : Dev => x.mem.read a) hq :)
  · rw [finish_ecc]; exact (congrArg Dev.ecc hq :)

end LogKeeps

/-! ### The device Tocsin -/

theorem tocBase_device : tocBase 288 = 0x10000 := by decide

/-- Every register of the device Tocsin that an arrival touches lies in its block. -/
theorem logReg_tocsin {a : Nat} (h : tocBase 288 ≤ a) (h' : a < tocBase 288 + 0x10000) : LogReg a := by
  rw [tocBase_device] at h h'
  exact .inr (.inl ⟨h, h'⟩)

theorem logReg_ctl : LogReg (TOC_STAT 288) ∧ LogReg (TOC_PEND 288) ∧ LogReg (TOC_RQSTAT 288) ∧ LogReg (TOC_RQLOST 288) := by
  unfold TOC_STAT TOC_PEND TOC_RQSTAT TOC_RQLOST
  exact ⟨logReg_tocsin (by omega) (by omega), logReg_tocsin (by omega) (by omega), logReg_tocsin (by omega) (by omega),
    logReg_tocsin (by omega) (by omega)⟩

theorem logReg_src {s : Nat} (hs : s < 32) : LogReg (TOC_SRC 288 s) := by
  unfold TOC_SRC; exact logReg_tocsin (by omega) (by omega)

theorem logReg_prq {p : Nat} (hp : p < 16) :
    LogReg (TOC_PRQSTAT 288 p) ∧ LogReg (TOC_PRQCOUNT 288 p) ∧ LogReg (TOC_PRQLOST 288 p) := by
  unfold TOC_PRQSTAT TOC_PRQCOUNT TOC_PRQLOST
  exact ⟨logReg_tocsin (by omega) (by omega), logReg_tocsin (by omega) (by omega), logReg_tocsin (by omega) (by omega)⟩

theorem sendMsix_keeps (f v : Nat) : LogKeeps d (d.sendMsix f v) := by
  unfold Dev.sendMsix
  dsimp only
  split <;> exact ⟨rfl, fun _ _ => rfl⟩

theorem tocUpdate_device_keeps : LogKeeps d (d.tocUpdate 288) := by
  obtain ⟨hstat, -, -, -⟩ := logReg_ctl
  unfold Dev.tocUpdate
  dsimp only
  have h := ((LogKeeps.setF d hstat 8 3 (d.tocCur 288)).trans (.setFlag _ hstat 1 (d.tocHeld 288 != 0))).trans
    (.setFlag _ hstat 0 (! (d.tocReady 288).isEmpty))
  split
  · refine h.trans ?_
    unfold Dev.tocDeliver
    dsimp only
    rw [if_pos rfl]
    split
    · exact sendMsix_keeps _ _ _
    · exact .refl _
  · exact h

/-- The queue of the device Tocsin, or the one of a partition (R501). -/
theorem setTocQueue_keeps {k : Nat} (hk : 288 ≤ k ∧ k < 305) (q : List TocRec) : LogKeeps d (d.setTocQueue k q) := by
  unfold Dev.setTocQueue
  dsimp only
  by_cases h : k < 289
  · obtain rfl : k = 288 := by omega
    obtain ⟨-, hpend, hrq, -⟩ := logReg_ctl
    have h1 := ((LogKeeps.tocq d _).trans (.setF { d with tocq := SMap.set [] d.tocq 288 q } hrq 0 9 q.length)).trans
      (.setFlag _ hpend 0 (! q.isEmpty))
    rw [if_pos h]
    split
    · exact h1.trans (.tocWake _ _)
    · exact h1
  · rw [if_neg h]
    exact (LogKeeps.tocq d _).trans (.setF _ (logReg_prq (by omega)).2.1 _ _ _)

/-- The trace record of a Tocsin record, which a partition's queue has not. -/
theorem tocTrace_keeps {c : Prop} [Decidable c] {d e : Dev} (h : LogKeeps d e) (die ty : Nat) (part : Option Nat) (origin : Nat)
    (lcore neuron : Option Nat) (data : List Byte) :
    LogKeeps d (if c then e else e.traceRec die ty part origin lcore neuron data) := by
  split
  · exact h
  · exact h.trans (.trace (traceRec_keeps e _ _ _ _ _ _ _))

theorem tocPush_keeps {k : Nat} (hk : 288 ≤ k ∧ k < 305) (x : TocRec) : LogKeeps d (d.tocPush k x) := by
  have hlost : LogKeeps d (if k < 289 then (d.setFlag (TOC_STAT k) 2 true).bump (TOC_RQLOST k) 1
      else (d.setFlag (TOC_PRQSTAT 288 (k - 289)) 6 true).bump (TOC_PRQLOST 288 (k - 289)) 1) := by
    split
    · obtain rfl : k = 288 := by omega
      obtain ⟨hstat, -, -, hrql⟩ := logReg_ctl
      exact (LogKeeps.setFlag d hstat _ _).trans (.bump _ hrql _)
    · obtain ⟨hst, -, hl⟩ := logReg_prq (show k - 289 < 16 by omega)
      exact (LogKeeps.setFlag d hst _ _).trans (.bump _ hl _)
  unfold Dev.tocPush
  dsimp only
  split
  · exact tocTrace_keeps (setTocQueue_keeps d hk _) _ _ _ _ _ _ _
  · split
    · split
      · exact hlost.trans (setTocQueue_keeps _ hk _)
      · exact tocTrace_keeps (hlost.trans (setTocQueue_keeps _ hk _)) _ _ _ _ _ _ _
    · exact hlost

theorem tocHold_keeps (i s : Nat) : LogKeeps d (d.tocHold i s) := by
  unfold Dev.tocHold
  dsimp only
  split
  · exact .tocWake d _
  · exact .refl d

theorem tocVector_keeps (i s : Nat) : LogKeeps d (d.tocVector i s) := by
  unfold Dev.tocVector
  dsimp only
  split
  · exact sendMsix_keeps d _ _
  · exact .refl d

theorem rqArrive_device_keeps : LogKeeps d (d.rqArrive 288) := by
  have h := LogKeeps.setF d (logReg_src (show 0 < 32 by decide)) 16 8 (min 255 (d.fld (TOC_SRC 288 0) 16 8 + 1))
  unfold Dev.rqArrive
  dsimp only
  split
  · exact (h.trans (tocHold_keeps _ _ _)).trans (tocVector_keeps _ _ _)
  · exact h

/-- A record of the device Tocsin; one of a source that tells a partition goes to its queue too (R500 to R503). -/
theorem tocRecord_device_keeps (s : Nat) {part : Nat} (d0 d1 : Nat) (hp : 19 ≤ s ∧ s ≤ 21 → part < 16) :
    LogKeeps d (d.tocRecord 288 s part d0 d1) := by
  unfold Dev.tocRecord
  dsimp only
  generalize hx : TocRec.mk _ _ _ _ _ _ _ = x
  have h1 := tocPush_keeps d (show 288 ≤ 288 ∧ 288 < 305 by decide) x
  have h2 : LogKeeps d (if (d.tocQueue 288).length < ((d.tocPush 288 x).tocQueue 288).length then (d.tocPush 288 x).rqArrive 288
      else d.tocPush 288 x) := by
    split
    · exact h1.trans (rqArrive_device_keeps _)
    · exact h1
  rw [if_pos rfl]
  split
  · rename_i hs
    simp only [Bool.and_eq_true, decide_eq_true_eq] at hs
    exact h2.trans ((tocPush_keeps _ ⟨by omega, by have := hp hs; omega⟩ _).trans (sendMsix_keeps _ _ _))
  · exact h2

/-- An arrival at the device Tocsin (R491, R497 to R499). -/
theorem tocArrive_device_keeps {s : Nat} (hs : s < 32) {part : Nat} (d0 d1 : Nat) (always : Bool) (hp : 19 ≤ s ∧ s ≤ 21 → part < 16) :
    LogKeeps d (d.tocArrive 288 s part d0 d1 always) := by
  have hsrc := logReg_src hs
  obtain ⟨-, hpend, -, -⟩ := logReg_ctl
  unfold Dev.tocArrive
  dsimp only
  generalize d.flag (TOC_ENABLE 288) s = en
  have h1 : LogKeeps d (if en then ((d.setFlag (TOC_PEND 288) s true).setF (TOC_SRC 288 s) 16 8
      (min 255 (d.fld (TOC_SRC 288 s) 16 8 + 1))).tocHold 288 s else d) := by
    split
    · exact ((LogKeeps.setFlag d hpend _ _).trans (.setF _ hsrc _ _ _)).trans (tocHold_keeps _ _ _)
    · exact .refl d
  generalize (if en then _ else d : Dev) = e1 at h1
  have h2 : LogKeeps d (if (always || (en && d.flag (TOC_SRC 288 s) 2)) = true then e1.tocRecord 288 s part d0 d1 else e1) := by
    split
    · exact h1.trans (tocRecord_device_keeps _ _ _ _ hp)
    · exact h1
  refine LogKeeps.trans ?_ (tocUpdate_device_keeps _)
  split
  · exact h2.trans (tocVector_keeps _ _ _)
  · exact h2

/-! ### The log -/

theorem logReg_car {a : Nat} (h : 0xA0000 ≤ a) (h' : a < 0xB0000) : LogReg a := .inr (.inr ⟨h, h'⟩)

theorem firstFailure_keeps (x : LogRec) : LogKeeps d (d.firstFailure x) := by
  unfold Dev.firstFailure
  dsimp only
  split
  · exact .bump d (logReg_car (by decide) (by decide)) _
  · exact (((LogKeeps.car d _).trans (.setF _ (logReg_car (by decide) (by decide)) _ _ _)).trans
      (tocArrive_device_keeps _ (by decide) _ _ _ (by omega))).trans (sendMsix_keeps _ _ _)

/-- A log record but for CMD (R525, R527). -/
theorem log_keeps (source kind sev part : Nat) (data : List Byte) (count : Nat) :
    LogKeeps d (d.log source kind sev part data count) := by
  unfold Dev.log
  dsimp only
  generalize LogRec.mk _ _ _ _ _ _ _ _ _ _ _ _ _ = x
  generalize (decide (2 ≤ sev) && ! d.car.ff.any (fun y => y.source == source && y.kind == kind)) = first
  have h : LogKeeps d (if first then d.firstFailure x else d) := by
    split
    · exact firstFailure_keeps d x
    · exact .refl d
  generalize (if first then d.firstFailure x else d) = e at h
  generalize (if e.car.rateInt = _ then e.car else _ : Carillon) = c
  split
  · exact (h.trans (.car e _)).trans (.books (logWrite_keeps _ _ _).1)
  · have hsupp : LogReg CAR_LOGSUPP := logReg_car (by decide) (by decide)
    exact (h.trans (.car e _)).trans ((LogKeeps.car _ _).trans (.bump _ hsupp _))

/-- An address error is counted and its ADDR fault, which Mutes nothing, logged (R42, R599, R657). -/
theorem addrErr_keeps : LogKeeps (d.bump FLT_ADDRERR 1) d.addrErr :=
  (LogKeeps.nonce _ _).trans (log_keeps _ _ _ _ _ _ _)

end Sys2Proof.Machine
end

section
/-! SUPPORT. The register bus: what a write that is carried out does, by block; refused writes; reads of counters (R11, R15, R42). -/

namespace Sys2Proof.Machine

open Sys2Proof

variable (d : Dev)

theorem exec_registerWrite (ag : Agent) (a v : Nat) (s : State) :
    exec (.registerWrite ag a v) s = s.run (·.registerWrite ag a v) := rfl
theorem exec_counterLowRead (f a : Nat) (s : State) : exec (.counterLowRead f a) s = s.run (·.counterLow f a) := rfl
theorem exec_coreStoreWrite (ag : Agent) (n off : Nat) (l : List Byte) (s : State) :
    exec (.coreStoreWrite ag n off l) s = s.run (·.coreStoreWrite ag n off l) := rfl
theorem exec_aliasWrite (ag : Agent) (a : Nat) (l : List Byte) (s : State) :
    exec (.aliasWrite ag a l) s = s.run (·.aliasWrite ag a l) := rfl

/-- Every register that follows the state lies in a global block. -/
theorem followReg_lt_slots {a : Nat} (h : FollowReg a) : a < 0x10000000 := by
  unfold FollowReg FLT_STAT TAB_BSTAT FLT_PMUTE TAB_CHSTAT PWR_DSTAT at h
  obtain h | ⟨p, hp, h⟩ | ⟨x, hx, h⟩ := h <;> omega

/-- A device with the same parts beside its registers, once what follows the state has followed it. -/
theorem regs_finish_keeps {d e : Dev} {w : Nat → Prop} (hb : e.bare = d.bare) (hr : ∀ a, ¬ w a → e.rg a = d.rg a) :
    Keeps d e.finish w ∧ SameUnits d e.finish := by
  refine ⟨⟨fun a ha hf => (rg_finish e hf).trans (hr a ha), fun a => ?_, ?_⟩, sameUnits_finish (congrArg Dev.units hb :)⟩
  · rw [finish_mem, bare_mem hb]
  · rw [finish_ecc, bare_ecc hb]

/-- Setting a register that does not follow the state sets it and nothing else. -/
theorem setR_finish {a : Nat} (ha : ¬ FollowReg a) (v : Nat) :
    (d.setR a v).finish.rg a = v % 2 ^ 32 ∧ Keeps d (d.setR a v).finish (fun b => b = a) ∧ SameUnits d (d.setR a v).finish :=
  ⟨by rw [rg_finish _ ha, rg_setR_same], regs_finish_keeps (setR_bare d a v) (fun _ hb => rg_setR_ne d hb)⟩

/-! ### Which writes are carried out -/

/-- A write that is not carried out is an address error (R42, R53, R657). -/
theorem regWrite_refused {ag : Agent} {a : Nat} (v : Nat) (h : regListed a = false ∨ d.reachesW ag a = false ∨ d.regDead a = true ∨
    (ag.isFunc = true ∧ carillonOnly a = true)) : d.regWrite ag a v = d.addrErr := by
  unfold Dev.regWrite
  dsimp only
  rw [if_pos]
  simpa [or_assoc] using h

theorem regWrite_ok {ag : Agent} {a : Nat} (v : Nat) (h : WriteOk d ag a) : d.regWrite ag a v = d.regPut ag a (v % 2 ^ 32) := by
  obtain ⟨hl, hr, hd, hc, hf⟩ := h
  simp [Dev.regWrite, hl, hr, hd, hc, hf]

/-- A register of a region's slot outside the Tocsin's block is written by its slot. -/
theorem regPut_slot (ag : Agent) {r c o : Nat} (v : Nat) (hr : r < 16) (hc : c < 256) (ho : o < 0x10000)
    (ht : o < 0x4000 ∨ 0x5000 ≤ o) : d.regPut ag (slotBase r c + o) v = d.slotWrite ag r c o (slotBase r c + o) v := by
  have hreg : (slotBase r c + o - 0x10000000) / 0x1000000 = r := by unfold slotBase; omega
  have hslot : (slotBase r c + o) / 0x10000 % 0x100 = c := by unfold slotBase; omega
  have hoff : (slotBase r c + o) % 0x10000 = o := by unfold slotBase; omega
  have hlo : ¬ slotBase r c + o < 0x10000000 := by unfold slotBase; omega
  generalize slotBase r c + o = a at *
  have htoc : tocAt a = none := by
    unfold tocAt
    dsimp only
    rw [if_neg hlo, if_pos (by rw [hoff]; simp; omega)]
  unfold Dev.regPut
  rw [htoc]
  dsimp only
  rw [if_neg hlo, hreg, hslot, hoff]

/-- A register of an N-core that has no rule of its own (R11). -/
theorem regPut_ncore (ag : Agent) {r c o : Nat} (v : Nat) (hr : r < 16) (hc : c < 16) (ho : o < 0x10000)
    (ht : o < 0x4000 ∨ 0x5000 ≤ o) (h0 : o ≠ 0) (hh : slotBase r c + o ≠ HRV_CTL (16 * r + c) ∧
      slotBase r c + o ≠ HRV_SEASON (16 * r + c) ∧ slotBase r c + o ≠ HRV_HWIN (16 * r + c) ∧
      slotBase r c + o ≠ HRV_SEED (16 * r + c)) :
    d.regPut ag (slotBase r c + o) v = d.regSet (slotBase r c + o) v := by
  rw [regPut_slot d ag v hr (by omega) ho ht]
  unfold Dev.slotWrite
  dsimp only
  rw [if_pos hc, if_neg h0, if_neg (by simp [hh])]

/-! ### The general registers of an S-core -/

/-- Both words of a general register are RW in all their bits (R425). -/
theorem regRow_general : ∀ r, r < 16 → ∀ k, k < 32 →
    (regRow (SEQ_Gi_LO r 0 + 4 * k)).map (fun x => (x.rw, x.w1c)) = some (2 ^ 32 - 1, 0) := by decide +kernel

/-- A register of 32 RW bits takes the low half of what is written (R11). -/
theorem regNew_rw {a : Nat} {x : RegRow} (hx : regRow a = some x) (hrw : x.rw = 2 ^ 32 - 1) (hw : x.w1c = 0) (v : Nat) :
    d.regNew a v % 2 ^ 32 = v % 2 ^ 32 := by
  unfold Dev.regNew
  rw [hx]
  dsimp only
  rw [hrw, hw, Nat.and_zero, Nat.xor_zero, Nat.and_two_pow_sub_one_eq_mod, Nat.and_two_pow_sub_one_eq_mod, Nat.xor_mod_two_pow,
    Nat.xor_mod_two_pow, Nat.mod_mod, Nat.mod_mod, Nat.xor_self, Nat.zero_xor]

theorem regNew_general {r k : Nat} (hr : r < 16) (hk : k < 32) (v : Nat) :
    d.regNew (SEQ_Gi_LO r 0 + 4 * k) v % 2 ^ 32 = v % 2 ^ 32 := by
  obtain ⟨x, hx, he⟩ := Option.map_eq_some_iff.1 (regRow_general r hr k hk)
  obtain ⟨hrw, hw⟩ := Prod.mk.inj he
  exact regNew_rw d hx hrw hw v

/-- A halted S-core's general registers take what is written (R11, R425). -/
theorem regPut_general (ag : Agent) {r k : Nat} (v : Nat) (hr : r < 16) (hk : k < 32) (hs : d.seqState r = 0) :
    d.regPut ag (SEQ_Gi_LO r 0 + 4 * k) v = d.setR (SEQ_Gi_LO r 0 + 4 * k) (d.regNew (SEQ_Gi_LO r 0 + 4 * k) v) := by
  have ha : SEQ_Gi_LO r 0 + 4 * k = slotBase r 0x11 + (0x100 + 4 * k) := by unfold SEQ_Gi_LO; omega
  rw [ha, regPut_slot d ag v hr (by decide) (by omega) (by omega)]
  unfold Dev.slotWrite
  dsimp only
  rw [if_neg (by decide), if_neg (by decide), if_pos rfl, if_neg (by omega), if_neg (by simp [hs])]
  rfl

theorem not_follow_general {r k : Nat} : ¬ FollowReg (SEQ_Gi_LO r 0 + 4 * k) :=
  fun h => by have := followReg_lt_slots h; unfold SEQ_Gi_LO slotBase at this; omega

/-! ### Reads -/

/-- A read of the low half of a 64-bit counter by a function: the high half is latched, the low half answered (R15). -/
theorem counterLow_eq {f a : Nat} (ha : a % 4 = 0 ∧ regPair a = true ∧ regListed a = true)
    (ht : tocAt a = none ∧ (a < 0x100 ∨ 0x500 ≤ a))
    (hr : d.reaches (.func f) a = true ∧ d.regDead a = false ∧ d.cutOff (.func f) a = false) :
    d.counterLow f a = (d.setLatch f (a + 4) (d.rg (a + 4))).emit (.hostData f (leBytes 4 (d.regPeek a))) := by
  obtain ⟨h4, hp, hl⟩ := ha
  obtain ⟨hn, hcap⟩ := ht
  obtain ⟨hre, hd, hc⟩ := hr
  have hcap' : ¬ (0x100 ≤ a ∧ a < 0x500) := by omega
  have htake : d.regTake (.func f) a = (d.setLatch f (a + 4) (d.rg (a + 4)), d.regPeek a) := by
    unfold Dev.regTake
    rw [hn]
    simp [hcap', hp, Dev.actor]
  simp [Dev.counterLow, h4, hp, Dev.registerRead, Dev.regRead, hl, hre, hd, hc, htake, Dev.answerRead]

end Sys2Proof.Machine
end

section
/-! SUPPORT. The register clauses of chapter 1 that hold. -/

namespace Sys2Proof.Machine

open Sys2Proof

/-- A register write that is refused is counted, and changes no register but those of the record of it (R42, R52, R53, R657). -/
theorem registerWrite_refused_runs (s : State) (ag : Agent) (a v : Nat) (h4 : a % 4 = 0) (h : regListed a = false ∨
    s.dev.reachesW ag a = false ∨ s.dev.regDead a = true ∨ (ag.isFunc = true ∧ carillonOnly a = true)) :
    Runs (.registerWrite ag a v) s (fun e => e.rg FLT_ADDRERR = satInc (s.dev.rg FLT_ADDRERR) 1 % 2 ^ 32 ∧
      RegKeeps s.dev e (fun a => NoteReg a) ∧ SameMem s.dev e) := by
  have hk := addrErr_keeps s.dev
  have hlog : ¬ LogReg FLT_ADDRERR := by
    unfold LogReg BookReg FLT_ADDRERR CAR_LOGSEQ CAR_JSKIP OBS_TSTAT OBS_TFIFO OBS_TDROP CAR_BOUT CAR_BSTAT
    omega
  have hfol : ¬ FollowReg FLT_ADDRERR := by
    unfold FollowReg FLT_ADDRERR FLT_STAT TAB_BSTAT FLT_PMUTE TAB_CHSTAT PWR_DSTAT
    omega
  obtain ⟨hregs, hmem, -, -⟩ := hk.finish_keeps
  rw [runs_iff (exec_registerWrite ag a v s)]
  unfold Dev.registerWrite
  rw [if_pos h4, regWrite_refused s.dev v h]
  refine ⟨by rw [rg_finish _ hfol, hk.rg _ hlog, rg_bump_same], fun b hb hf => ?_, hmem⟩
  have hne : b ≠ FLT_ADDRERR := fun e => hb (.inr (.inr (.inr (.inl ⟨by rw [e]; decide, by rw [e]; decide⟩))))
  rw [hregs b (fun h => hb h.noteReg) hf, rg_bump_ne _ hne]

/-- A write of a register of an N-core that has no rule of its own (R11). -/
theorem registerWrite_ncore_runs (s : State) (ag : Agent) (r c o v : Nat) (hr : r < 16) (hc : c < 16) (ht : o < 0x4000 ∨ 0x5000 ≤ o)
    (ho : o < 0x10000 ∧ o % 4 = 0 ∧ o ≠ 0) (hw : WriteOk s.dev ag (slotBase r c + o))
    (hh : slotBase r c + o ≠ HRV_CTL (16 * r + c) ∧ slotBase r c + o ≠ HRV_SEASON (16 * r + c) ∧
      slotBase r c + o ≠ HRV_HWIN (16 * r + c) ∧ slotBase r c + o ≠ HRV_SEED (16 * r + c)) :
    Runs (.registerWrite ag (slotBase r c + o) v) s (fun e =>
      e.rg (slotBase r c + o) = s.dev.regNew (slotBase r c + o) (v % 2 ^ 32) % 2 ^ 32 ∧
      Keeps s.dev e (fun a => a = slotBase r c + o) ∧ SameUnits s.dev e) := by
  obtain ⟨hlt, h4, h0⟩ := ho
  have ha4 : (slotBase r c + o) % 4 = 0 := by unfold slotBase; omega
  have hfol : ¬ FollowReg (slotBase r c + o) := fun h => by have := followReg_lt_slots h; unfold slotBase at this; omega
  rw [runs_iff (exec_registerWrite ag _ v s)]
  unfold Dev.registerWrite
  rw [if_pos ha4, regWrite_ok _ v hw, regPut_ncore _ ag _ hr hc hlt ht h0 hh]
  exact setR_finish s.dev hfol _

/-- A write of a word of a general register of a halted S-core (R11, R425). -/
theorem registerWrite_general_runs (s : State) (ag : Agent) (r k v : Nat) (hr : r < 16) (hk : k < 32) (hs : s.dev.seqState r = 0)
    (hw : WriteOk s.dev ag (SEQ_Gi_LO r 0 + 4 * k)) :
    Runs (.registerWrite ag (SEQ_Gi_LO r 0 + 4 * k) v) s (fun e => e.rg (SEQ_Gi_LO r 0 + 4 * k) = v % 2 ^ 32 ∧
      Keeps s.dev e (fun a => a = SEQ_Gi_LO r 0 + 4 * k) ∧ SameUnits s.dev e) := by
  have ha4 : (SEQ_Gi_LO r 0 + 4 * k) % 4 = 0 := by unfold SEQ_Gi_LO slotBase; omega
  have hset := setR_finish s.dev (not_follow_general (r := r) (k := k)) (s.dev.regNew (SEQ_Gi_LO r 0 + 4 * k) (v % 2 ^ 32))
  rw [regNew_general _ hr hk, Nat.mod_mod] at hset
  rw [runs_iff (exec_registerWrite ag _ v s)]
  unfold Dev.registerWrite
  rw [if_pos ha4, regWrite_ok _ v hw, regPut_general _ ag _ hr hk hs]
  exact hset

/-- A read of the low half of a 64-bit counter (R15). -/
theorem counterLowRead_runs (s : State) (f a : Nat) (ha : a % 4 = 0 ∧ regPair a = true ∧ regListed a = true)
    (ht : tocAt a = none ∧ (a < 0x100 ∨ 0x500 ≤ a))
    (hr : s.dev.reaches (.func f) a = true ∧ s.dev.regDead a = false ∧ s.dev.cutOff (.func f) a = false) :
    Runs (.counterLowRead f a) s (fun e => SMap.get 0 e.latch (2 ^ 32 * f + (a + 4)) = s.dev.rg (a + 4) ∧
      (Output.hostData f (leBytes 4 (s.dev.regPeek a))) ∈ e.out ∧ Keeps s.dev e (fun _ => False) ∧ SameUnits s.dev e) := by
  rw [runs_iff (exec_counterLowRead f a s), counterLow_eq _ ha ht hr, finish_latch, finish_out]
  refine ⟨SMap.get_set_same .., List.mem_append_right _ (List.mem_singleton.2 rfl), ⟨fun b _ hf => rg_finish _ hf, fun b => ?_, ?_⟩,
    sameUnits_finish rfl⟩
  · rw [finish_mem]; rfl
  · rw [finish_ecc]; rfl

end Sys2Proof.Machine
end

section
/-! SUPPORT. Bytes: little-endian numbers, and what memory holds after a run of bytes is written (R10). -/

namespace Sys2Proof.Machine

open Sys2Proof

theorem length_leBytes (k n : Nat) : (leBytes k n).length = k := by
  induction k generalizing n with
  | zero => rfl
  | succ k ih => simp [leBytes, ih]

theorem leNat_leBytes (k n : Nat) : leNat (leBytes k n) = n % 256 ^ k := by
  induction k generalizing n with
  | zero => simp [leBytes, leNat, Nat.mod_one]
  | succ k ih =>
    rw [leBytes, leNat, ih, BitVec.toNat_ofNat, pow_succ' 256 k, Nat.mod_mul]

theorem leNat_lt (l : List Byte) : leNat l < 256 ^ l.length := by
  induction l with
  | nil => simp [leNat]
  | cons b r ih =>
    have hb : b.toNat < 256 := b.isLt
    rw [leNat, List.length_cons, Nat.pow_succ]
    omega

/-- What memory reads after a run of bytes was written at `a`. -/
theorem memWr_read (l : List Byte) : ∀ (m : Memory) (a b : Nat),
    (memWr m a l).read b = if a ≤ b ∧ b < a + l.length then l.getD (b - a) 0#8 else m.read b := by
  induction l with
  | nil => intro m a b; simp [memWr]
  | cons x r ih =>
    intro m a b
    rw [memWr, ih, Memory.read_write, List.length_cons]
    rcases Nat.lt_trichotomy b a with h | h | h
    · rw [if_neg (by omega), if_neg (by omega), if_neg (by omega)]
    · subst h
      rw [if_neg (by omega), if_pos rfl, if_pos (by omega), Nat.sub_self]
      rfl
    · rw [if_neg (show b ≠ a by omega)]
      have hs : b - a = b - (a + 1) + 1 := by omega
      by_cases hb : b < a + (r.length + 1)
      · rw [if_pos (by omega), if_pos (by omega), hs, List.getD_cons_succ]
      · rw [if_neg (by omega), if_neg (by omega)]

/-- A run of bytes written in two parts. -/
theorem memWr_take_drop (k : Nat) : ∀ (l : List Byte) (m : Memory) (a : Nat),
    memWr (memWr m a (l.take k)) (a + k) (l.drop k) = memWr m a l := by
  induction k with
  | zero => intro l m a; rfl
  | succ k ih =>
    intro l m a
    cases l with
    | nil => rfl
    | cons b r =>
      rw [List.take_succ_cons, List.drop_succ_cons, memWr, memWr, ← ih r, Nat.add_assoc, Nat.add_comm 1 k]

theorem length_rdB (d : Dev) (k : Nat) : ∀ a, (d.rdB a k).length = k := by
  induction k with
  | zero => intro a; rfl
  | succ k ih => intro a; rw [Dev.rdB, List.length_cons, ih]

theorem rdB_eq_map (d : Dev) (k : Nat) : ∀ a, d.rdB a k = (List.range k).map (fun i => d.mem.read (a + i)) := by
  induction k with
  | zero => intro a; rfl
  | succ k ih =>
    intro a
    rw [Dev.rdB, ih, List.range_succ_eq_map, List.map_cons, List.map_map]
    simp [Function.comp_def, Nat.add_assoc, Nat.add_comm 1]

/-- Part of a run of bytes read. -/
theorem slice_rdB (d : Dev) {a m j n : Nat} (h : j + n ≤ m) : slice (d.rdB a m) j n = d.rdB (a + j) n := by
  have ht : ((d.rdB a m).drop j).take n = d.rdB (a + j) n := by
    rw [rdB_eq_map, rdB_eq_map]
    refine List.ext_getElem (by simp; omega) (fun i h1 h2 => ?_)
    simp [Nat.add_assoc]
  unfold slice
  simp only [ht, length_rdB, Nat.sub_self, List.replicate_zero, List.append_nil]

/-- Bytes just written read back. -/
theorem rdB_memWr {d : Dev} {m : Memory} {a : Nat} {l : List Byte} (h : d.mem = memWr m a l) : d.rdB a l.length = l := by
  rw [rdB_eq_map, h]
  refine List.ext_getElem (by simp) (fun i h1 h2 => ?_)
  rw [List.getElem_map, List.getElem_range, memWr_read, if_pos (by omega), Nat.add_sub_cancel_left]
  exact List.getD_eq_getElem _ _ h2

end Sys2Proof.Machine
end

section
/-! SUPPORT. The core-store window: a run of bytes written word by word, and unit by unit (R43, R433, R656). -/

namespace Sys2Proof.Machine

open Sys2Proof

variable (d : Dev)

/-- The registers of site `q` that a write of its core store touches (R656). -/
def StoreReg (q a : Nat) : Prop := a = SYN_ECCCORR q ∨ a = SYN_ECCUNC q ∨ a = SYN_STAT q

/-- The device without its registers, memory and ECC state. -/
def Dev.slim : Dev := { d with regs := [], mem := [], ecc := [] }

/-- What a write of bytes `l` at `a` into the core store of site `q` does: memory takes them, and of the rest only the ECC state
and three registers of the site may change. -/
structure StoreWrites (q a : Nat) (l : List Byte) (d e : Dev) : Prop where
  mem  : e.mem = memWr d.mem a l
  slim : e.slim = d.slim
  rg   : ∀ b, ¬ StoreReg q b → e.rg b = d.rg b

theorem StoreWrites.nil (q a : Nat) : StoreWrites q a [] d d := ⟨rfl, rfl, fun _ _ => rfl⟩

/-- The first `k` bytes, then the rest. -/
theorem StoreWrites.append {q a k : Nat} {l : List Byte} {d₁ d₂ d₃ : Dev} (h : StoreWrites q a (l.take k) d₁ d₂)
    (g : StoreWrites q (a + k) (l.drop k) d₂ d₃) : StoreWrites q a l d₁ d₃ :=
  ⟨by rw [g.mem, h.mem, memWr_take_drop], g.slim.trans h.slim, fun b hb => (g.rg b hb).trans (h.rg b hb)⟩

/-- One word or less (R656). -/
theorem csWriteWord_writes (q a : Nat) (l : List Byte) : StoreWrites q a l d (d.csWriteWord q a l) := by
  unfold Dev.csWriteWord
  dsimp only
  split
  · exact ⟨rfl, rfl, fun _ _ => rfl⟩
  · split
    · exact ⟨rfl, rfl, fun b hb => rg_bump_ne _ (fun h => hb (.inl h))⟩
    · split
      · exact ⟨rfl, rfl, fun b hb => (rg_setFlag_ne _ (fun h => hb (.inr (.inr h)))).trans (rg_bump_ne _ (fun h => hb (.inr (.inl h))))⟩
      · exact ⟨rfl, rfl, fun _ _ => rfl⟩

/-- Word by word (R656). -/
theorem csWrite_writes (q : Nat) : ∀ (fuel a : Nat) (l : List Byte) (d : Dev), l.length ≤ fuel →
    StoreWrites q a l d (d.csWrite q a l fuel) := by
  intro fuel
  induction fuel with
  | zero =>
    intro a l d h
    rw [List.eq_nil_of_length_eq_zero (Nat.le_zero.1 h)]
    exact .nil d q a
  | succ fuel ih =>
    intro a l d h
    unfold Dev.csWrite
    split
    · rename_i he
      rw [List.isEmpty_iff.1 he]
      exact .nil d q a
    · exact (csWriteWord_writes d q a _).append (ih _ _ _ (by rw [List.length_drop]; omega))

/-! ### Unit by unit -/

/-- The agent reaches the store of logical core `n`, which stands at site `q` and is ON, on this side of the die bridge. -/
def StoreOpen (ag : Agent) (n q : Nat) : Prop :=
  d.may ag (.core n 0) 0 0 = true ∧ d.physOf n = some q ∧ d.storeOn q = true ∧ (d.flag FLT_STAT 4 = false ∨ n < 128)

/-- The registers of a site lie in the slot of its N-core. -/
theorem storeReg_slot {q a : Nat} (h : StoreReg q a) : 0x10000000 ≤ a ∧ a / 0x10000 % 0x100 < 16 := by
  unfold StoreReg SYN_ECCCORR SYN_ECCUNC SYN_STAT nBase slotBase at h
  omega

/-- The S-core of an agent, where it is one, is one of the device's. -/
def Agent.inDevice : Agent → Prop
  | .score r => r < 16
  | _ => True

theorem StoreWrites.rg_global {q a b : Nat} {l : List Byte} {d e : Dev} (h : StoreWrites q a l d e) (hb : b < 0x10000000) :
    e.rg b = d.rg b := h.rg b (fun hs => by have := storeReg_slot hs; omega)

theorem StoreWrites.regPart {q a : Nat} {l : List Byte} {d e : Dev} (h : StoreWrites q a l d e) {r : Nat} (hr : r < 16) :
    e.regPart r = d.regPart r := by
  have hg := h.rg_global (show CAL_REGPART r < 0x10000000 by unfold CAL_REGPART; omega)
  unfold Dev.regPart Dev.flag Dev.fld
  rw [hg]

/-- A write of a core store keeps what decides whether it is reached: the agent's partition, the region's, the remap entry, the
domain's level and the state of the die bridge. -/
theorem StoreWrites.keeps_open {q a n : Nat} {l : List Byte} {d e : Dev} {ag : Agent} (h : StoreWrites q a l d e) (hag : ag.inDevice)
    (hn : n < 256) (hq : q < 256) (ho : StoreOpen d ag n q) : StoreOpen e ag n q := by
  obtain ⟨hmay, hphys, hon, hcut⟩ := ho
  have hrights : e.rights ag = d.rights ag := by
    cases ag with
    | score r => unfold Dev.rights; dsimp only; rw [h.regPart hag]
    | func f => rfl
    | carillon => rfl
    | fabric p => rfl
    | tabor => rfl
  have hremap : e.rg (FAB_REMAP (n / 16) n) = d.rg (FAB_REMAP (n / 16) n) :=
    h.rg _ (fun hs => by have := storeReg_slot hs; unfold FAB_REMAP slotBase at this; omega)
  have hlevel := h.rg_global (show PWR_DSTAT (domOf (q / 16) (q % 16 / 4)) < 0x10000000 by unfold PWR_DSTAT domOf; omega)
  have hstat := h.rg_global (show FLT_STAT < 0x10000000 by decide)
  refine ⟨?_, ?_, ?_, ?_⟩
  · unfold Dev.may at hmay ⊢
    unfold Dev.partMay Dev.owns at hmay ⊢
    rw [hrights]
    dsimp only at hmay ⊢
    rw [h.regPart (show n / 16 < 16 by omega)]
    exact hmay
  · unfold Dev.physOf Dev.flag Dev.fld at hphys ⊢
    dsimp only at hphys ⊢
    rw [hremap]
    exact hphys
  · unfold Dev.storeOn Dev.domLevel Dev.fld at hon ⊢
    rw [hlevel]
    exact hon
  · unfold Dev.flag at hcut ⊢
    rw [hstat]
    exact hcut

theorem target_core {n o : Nat} (hn : n < 256) (ho : o < 0x300000) : target (csBase n + o) = .core n o := by
  have hw : (csBase n + o) / 0x100000000 = 0x100 := by unfold csBase; omega
  have ht : (csBase n + o) % 0x100000000 = 0x400000 * n + o := by unfold csBase; omega
  have h1 : (0x400000 * n + o) / 0x400000 = n := by omega
  have h2 : (0x400000 * n + o) % 0x400000 = o := by omega
  have h3 : 0x400000 * n + o < 0x40000000 := by omega
  generalize csBase n + o = a at *
  unfold target
  dsimp only
  rw [hw, ht]
  simp [h1, h2, h3, ho]

/-- A write that lies in one unit of the address space. -/
theorem writeUnit_core {ag : Agent} {n q o : Nat} (l : List Byte) (hn : n < 256) (ho : o < 0x300000) (h : StoreOpen d ag n q) :
    d.writeUnit ag 0 (csBase n + o) l .nobody = (d.csWrite q (csBase q + o) l l.length, true) := by
  obtain ⟨hmay, hphys, hon, hcut⟩ := h
  have hmay' : d.may ag (.core n o) (csBase n + o) l.length = true := hmay
  have hbridge : d.bridgeCut 0 (.core n o) (csBase n + o) = false := by
    unfold Dev.bridgeCut Dev.targetDie
    obtain h | h := hcut
    · simp [h]
    · simp [Nat.div_eq_of_lt h]
  unfold Dev.writeUnit
  rw [target_core hn ho]
  simp [hmay', Dev.beyond, hbridge, hphys, hon]

theorem isAlias_core {n o : Nat} (hn : n < 256) (ho : o < 0x300000) : isAlias (csBase n + o) = false := by
  unfold isAlias; rw [target_core hn ho]

/-- Unit by unit: `u` is the size of a unit, and `fuel` units hold the bytes. -/
theorem busWriteN_core {ag : Agent} {n q u : Nat} (hag : ag.inDevice) (hn : n < 256) (hq : q < 256) (hu : u = 256 ∨ u = 0x40000) :
    ∀ (fuel o : Nat) (l : List Byte) (d : Dev), d.unitSize = u → StoreOpen d ag n q → o + l.length ≤ 0x300000 →
      (0 < l.length → (csBase n + o) % u + l.length ≤ u * fuel) →
      StoreWrites q (csBase q + o) l d (Dev.busWriteN ag 0 .nobody fuel (csBase n + o) l d).1 := by
  intro fuel
  induction fuel with
  | zero =>
    intro o l d _ _ _ hf
    rw [List.eq_nil_of_length_eq_zero (show l.length = 0 by omega)]
    exact .nil d q _
  | succ fuel ih =>
    intro o l d hsize ho hlen hf
    unfold Dev.busWriteN
    split
    · rename_i he
      rw [List.isEmpty_iff.1 he]
      exact .nil d q _
    · rename_i he
      have hpos : 0 < l.length := List.length_pos_iff.2 (fun h => he (by rw [h]; rfl))
      dsimp only
      rw [isAlias_core hn (by omega), writeUnit_core d _ hn (by omega) ho, hsize]
      simp only [Bool.false_eq_true, if_false]
      generalize hk : min l.length (u - (csBase n + o) % u) = k
      have h1 : StoreWrites q (csBase q + o) (l.take k) d (d.csWrite q (csBase q + o) (l.take k) (l.take k).length) :=
        csWrite_writes q _ _ _ d (Nat.le_refl _)
      have hsize' : (d.csWrite q (csBase q + o) (l.take k) (l.take k).length).unitSize = u := by
        rw [← hsize]
        unfold Dev.unitSize Dev.flag
        rw [h1.rg_global (show FLT_STAT < 0x10000000 by decide)]
      refine h1.append ?_
      rw [Nat.add_assoc, Nat.add_assoc]
      refine ih _ _ _ hsize' (h1.keeps_open hag hn hq ho) (by rw [List.length_drop]; omega) ?_
      have hk' : k = l.length ∨ k = u - (csBase n + o) % u := by rw [← hk, Nat.min_def]; split <;> simp
      rw [List.length_drop, ← Nat.add_assoc]
      generalize csBase n + o = a at *
      intro hrest
      have hf' := hf hpos
      obtain rfl | rfl := hu <;> omega

/-- A write through the core-store window stores its bytes at the mapped site (R43, R656). -/
theorem coreStoreWrite_writes {ag : Agent} {n q off : Nat} (l : List Byte) (hag : ag.inDevice) (hn : n < 256) (hq : q < 256)
    (hlen : off + l.length ≤ 0x300000) (ho : StoreOpen d ag n q) :
    StoreWrites q (csBase q + off) l d (d.coreStoreWrite ag n off l) := by
  unfold Dev.coreStoreWrite Dev.busWrite
  rw [Nat.mod_eq_of_lt hn, Nat.mod_eq_of_lt (show off < 0x400000 by omega)]
  have hu : d.unitSize = 256 ∨ d.unitSize = 0x40000 := by unfold Dev.unitSize; split <;> simp
  refine busWriteN_core hag hn hq hu _ _ _ _ rfl ho hlen (fun _ => ?_)
  obtain h | h := hu <;> rw [h] <;> omega

/-- CORE_STORE_WRITE by an agent of the device. -/
theorem coreStoreWrite_runs (s : State) (ag : Agent) (n off q : Nat) (bytes : List Byte) (hag : ag.inDevice) (hn : n < 256)
    (hlen : off + bytes.length ≤ 0x300000) (hmay : s.dev.may ag (.core n off) 0 0 = true) (hphys : s.dev.physOf n = some q)
    (hq : q < 256) (hon : s.dev.storeOn q = true) (hcut : s.dev.flag FLT_STAT 4 = false ∨ n < 128) :
    Runs (.coreStoreWrite ag n off bytes) s (fun e =>
      (∀ k, k < bytes.length → e.mem.read (csBase q + off + k) = bytes.getD k 0#8) ∧
      MemKeeps s.dev e (fun a => csBase q + off ≤ a ∧ a < csBase q + off + bytes.length) ∧
      RegKeeps s.dev e (fun a => a = SYN_ECCCORR q ∨ a = SYN_ECCUNC q ∨ a = SYN_STAT q) ∧ SameUnits s.dev e) := by
  have h := coreStoreWrite_writes s.dev bytes hag hn hq hlen ⟨hmay, hphys, hon, hcut⟩
  rw [runs_iff (exec_coreStoreWrite ag n off bytes s)]
  generalize s.dev.coreStoreWrite ag n off bytes = e at h
  have hs := h.slim
  refine ⟨fun k hk => ?_, fun a ha => ?_, fun a ha hf => (rg_finish e hf).trans (h.rg a ha),
    sameUnits_finish (congrArg Dev.units hs :)⟩
  · rw [finish_mem, h.mem, memWr_read, if_pos (by omega), Nat.add_sub_cancel_left]
  · rw [finish_mem, h.mem, memWr_read, if_neg ha]

end Sys2Proof.Machine
end

section
/-! SUPPORT. The alias windows: one read-modify-write of a Commons word or of a register (R46 to R48, R420). -/

namespace Sys2Proof.Machine

open Sys2Proof

variable (d : Dev)

theorem target_commonsAlias {k r o : Nat} (hk : k = 1 ∨ k = 2) (hr : r < 16) (ho : o < 0x400000) :
    target (0x014000000000 + 0x100000000 * k + 0x400000 * r + o) = .commons k r o := by
  have hw : (0x014000000000 + 0x100000000 * k + 0x400000 * r + o) / 0x100000000 = 0x140 + k := by omega
  have ht : (0x014000000000 + 0x100000000 * k + 0x400000 * r + o) % 0x100000000 = 0x400000 * r + o := by omega
  have h1 : (0x400000 * r + o) / 0x400000 = r := by omega
  have h2 : (0x400000 * r + o) % 0x400000 = o := by omega
  have h3 : 0x400000 * r + o < 0x4000000 := by omega
  generalize 0x014000000000 + 0x100000000 * k + 0x400000 * r + o = a at *
  unfold target
  dsimp only
  rw [hw, ht]
  obtain rfl | rfl := hk <;> simp [h1, h2, h3]

theorem target_regAlias {k o : Nat} (hk : k = 1 ∨ k = 2) (ho : o < 0x20000000) :
    target (0x020000000000 + 0x100000000 * k + o) = .reg k o := by
  have hw : (0x020000000000 + 0x100000000 * k + o) / 0x100000000 = 0x200 + k := by omega
  have ht : (0x020000000000 + 0x100000000 * k + o) % 0x100000000 = o := by omega
  generalize 0x020000000000 + 0x100000000 * k + o = a at *
  unfold target
  dsimp only
  rw [hw, ht]
  obtain rfl | rfl := hk <;> simp [ho]

/-- An alias write is one access whatever its width (R47). -/
theorem busWrite_alias (ag : Agent) (die a : Nat) {l : List Byte} (s : Sender) (ha : isAlias a = true) (hl : 0 < l.length) :
    (d.busWrite ag die a l s).1 = (d.writeUnit ag die a l s).1 := by
  have hne : l.isEmpty = false := by cases l with
    | nil => exact absurd hl (by decide)
    | cons b r => rfl
  have hend : ∀ (fuel b : Nat) (e : Dev), (Dev.busWriteN ag die s fuel b [] e).1 = e := fun fuel b e => by cases fuel <;> rfl
  unfold Dev.busWrite
  rw [Dev.busWriteN]
  simp only [hne, ha, if_true, Bool.false_eq_true, if_false, List.take_length, List.drop_length, hend]

/-! ### A word of the Commons -/

/-- The device with the Commons word at `w` of region `r` corrected, where it holds a single-bit error (R420). -/
def Dev.cmnCorrected (r w : Nat) : Dev :=
  if SMap.get 0 d.ecc w = 0 then d else { d with ecc := SMap.set 0 d.ecc w 0 }.bump (CMN_ECCCORR r) 1

theorem cmnCorrected_slim (r w : Nat) : (d.cmnCorrected r w).slim = d.slim ∧ (d.cmnCorrected r w).mem = d.mem := by
  unfold Dev.cmnCorrected; split <;> exact ⟨rfl, rfl⟩

theorem rg_cmnCorrected (r w : Nat) {a : Nat} (h : a ≠ CMN_ECCCORR r) : (d.cmnCorrected r w).rg a = d.rg a := by
  unfold Dev.cmnCorrected
  split
  · rfl
  · exact rg_bump_ne _ h

/-- A read of a Commons word that has no uncorrectable error. -/
theorem cmnFix_clean (r : Nat) {a : Nat} (h : SMap.get 0 d.ecc (8 * (a / 8)) ≤ 1) :
    d.cmnFix r a = (d.cmnCorrected r (8 * (a / 8)), d.rdB (8 * (a / 8)) 8) := by
  unfold Dev.cmnFix Dev.cmnCorrected
  dsimp only
  obtain h0 | h1 : SMap.get 0 d.ecc (8 * (a / 8)) = 0 ∨ SMap.get 0 d.ecc (8 * (a / 8)) = 1 := by omega
  · rw [h0]; rfl
  · rw [h1]; rfl

/-- A read of 4 or 8 aligned bytes reads one word. -/
theorem cmnRd_clean (r : Nat) {a n : Nat} (hn : n = 4 ∨ n = 8) (ha : a % n = 0) (h : SMap.get 0 d.ecc (8 * (a / 8)) ≤ 1) :
    d.cmnRd r a n = (d.cmnCorrected r (8 * (a / 8)), d.rdB a n) := by
  have hone : (a + n + 7) / 8 - a / 8 = 1 := by obtain rfl | rfl := hn <;> omega
  have hin : a % 8 + n ≤ 8 := by obtain rfl | rfl := hn <;> omega
  have hw : 8 * (8 * (a / 8) / 8) = 8 * (a / 8) := by omega
  have hfix := cmnFix_clean d r (a := 8 * (a / 8)) (by rw [hw]; exact h)
  rw [hw] at hfix
  unfold Dev.cmnRd
  rw [hone]
  simp only [upTo, List.range_one, List.foldl_cons, List.foldl_nil, Nat.add_zero, hfix, List.nil_append]
  rw [slice_rdB d hin, show 8 * (a / 8) + a % 8 = a by omega]

/-- A write of Commons bytes: memory takes them, and of the rest only the ECC state may change. -/
theorem cmnWr_writes (a : Nat) (l : List Byte) : (d.cmnWr a l).mem = memWr d.mem a l ∧ (d.cmnWr a l).slim = d.slim ∧
    (d.cmnWr a l).regs = d.regs := by
  have hstep : ∀ {β : Type} (g : Dev → β), (∀ (e : Dev) (x : SMap Nat), g { e with ecc := x } = g e) →
      g (d.cmnWr a l) = g (d.wrB a l) := by
    intro β g hg
    unfold Dev.cmnWr
    refine forEach_keeps g _ (fun e k => ?_) _ _
    dsimp only
    split
    · exact hg e _
    · rfl
  exact ⟨hstep Dev.mem (fun _ _ => rfl), hstep Dev.slim (fun _ _ => rfl), hstep Dev.regs (fun _ _ => rfl)⟩

/-- What an alias write leaves in a word `old` (R46): bits set, or cleared. -/
def aliasValue (setBits : Bool) (old v : Nat) : Nat := if setBits then old ||| v else old ^^^ (old &&& v)

theorem aliasValue_lt {old v k : Nat} (b : Bool) (ho : old < 2 ^ k) (hv : v < 2 ^ k) : aliasValue b old v < 2 ^ k := by
  unfold aliasValue
  split
  · exact Nat.or_lt_two_pow ho hv
  · exact Nat.xor_lt_two_pow ho (Nat.and_lt_two_pow _ hv)

theorem aliasValue_mod (b : Bool) (old v k : Nat) : aliasValue b (old % 2 ^ k) (v % 2 ^ k) = aliasValue b old v % 2 ^ k := by
  unfold aliasValue
  split
  · exact (Nat.or_mod_two_pow).symm
  · rw [Nat.xor_mod_two_pow, Nat.and_mod_two_pow]

/-- The read-modify-write of a Commons word that has no uncorrectable error. -/
theorem aliasCommons_writes {r o : Nat} {l : List Byte} (b : Bool) (hn : l.length = 4 ∨ l.length = 8) (ho : o % l.length = 0)
    (h : SMap.get 0 d.ecc (8 * ((cmnBase r + o) / 8)) ≤ 1) :
    (d.aliasCommons r o l b).mem =
        memWr d.mem (cmnBase r + o) (leBytes l.length (aliasValue b (d.rdN (cmnBase r + o) l.length) (leNat l))) ∧
      (d.aliasCommons r o l b).slim = d.slim ∧ ∀ a, a ≠ CMN_ECCCORR r → (d.aliasCommons r o l b).rg a = d.rg a := by
  have ha : (cmnBase r + o) % l.length = 0 := by
    unfold cmnBase
    obtain hl | hl := hn <;> rw [hl] at ho ⊢ <;> omega
  unfold Dev.aliasCommons
  dsimp only
  rw [cmnRd_clean d r hn ha h]
  generalize hc : d.cmnCorrected r (8 * ((cmnBase r + o) / 8)) = e
  obtain ⟨hmem, hslim, hregs⟩ := cmnWr_writes e (cmnBase r + o)
    (leBytes l.length (aliasValue b (d.rdN (cmnBase r + o) l.length) (leNat l)))
  obtain ⟨hs, hm⟩ := cmnCorrected_slim d r (8 * ((cmnBase r + o) / 8))
  rw [hc] at hs hm
  refine ⟨hmem.trans (by rw [hm]), hslim.trans hs, fun a hne => ?_⟩
  have hrg := rg_cmnCorrected d r (8 * ((cmnBase r + o) / 8)) hne
  rw [hc] at hrg
  exact (congrArg (fun x => SMap.get 0 x a ^^^ (regReset a).toNat) hregs).trans hrg

/-- ALIAS_WRITE of a Commons word with no uncorrectable error (R46, R47). -/
theorem aliasWrite_commons_runs (s : State) (ag : Agent) (k r o : Nat) (bytes : List Byte) (hk : k = 1 ∨ k = 2) (hr : r < 16)
    (ho : o < 0x400000) (hn : bytes.length = 4 ∨ bytes.length = 8) (hal : o % bytes.length = 0)
    (hmay : s.dev.may ag (.commons k r o) 0 0 = true) (hown : s.dev.ownsBank r (o / 0x40000) (bankAgent ag r) = true)
    (hcut : s.dev.flag FLT_STAT 4 = false ∨ r < 8) (hecc : SMap.get 0 s.dev.ecc (8 * ((cmnBase r + o) / 8)) ≤ 1) :
    Runs (.aliasWrite ag (0x014000000000 + 0x100000000 * k + 0x400000 * r + o) bytes) s (fun e =>
      e.rdN (cmnBase r + o) bytes.length = (if k = 1 then s.dev.rdN (cmnBase r + o) bytes.length ||| leNat bytes
        else s.dev.rdN (cmnBase r + o) bytes.length ^^^ (s.dev.rdN (cmnBase r + o) bytes.length &&& leNat bytes)) ∧
      MemKeeps s.dev e (fun a => cmnBase r + o ≤ a ∧ a < cmnBase r + o + bytes.length) ∧
      RegKeeps s.dev e (fun a => a = CMN_ECCCORR r) ∧ SameUnits s.dev e) := by
  have hpos : 0 < bytes.length := by omega
  have hk0 : k ≠ 0 := by omega
  have hta := target_commonsAlias hk hr ho
  have ha4 : (0x014000000000 + 0x100000000 * k + 0x400000 * r + o) % bytes.length = 0 := by
    obtain hl | hl := hn <;> rw [hl] at hal ⊢ <;> omega
  generalize 0x014000000000 + 0x100000000 * k + 0x400000 * r + o = a at *
  have hwidth : ¬ (¬ bytes.length = 4 ∧ ¬ bytes.length = 8) := by omega
  have hmay' : s.dev.may ag (.commons k r o) a bytes.length = true := hmay
  have hbridge : s.dev.bridgeCut 0 (.commons k r o) a = false := by
    unfold Dev.bridgeCut Dev.targetDie dieOf
    obtain h | h := hcut
    · simp [h]
    · simp [Nat.div_eq_of_lt h]
  have hal' : isAlias a = true := by unfold isAlias; rw [hta]; simpa using hk0
  have he : s.dev.aliasWrite ag a bytes = s.dev.aliasCommons r o bytes (k == 1) := by
    unfold Dev.aliasWrite
    rw [hta]
    dsimp only
    rw [if_neg hk0, busWrite_alias s.dev ag 0 a .nobody hal' hpos]
    unfold Dev.writeUnit
    rw [hta]
    simp [hmay', Dev.beyond, hbridge, hk0, ha4, hwidth, hown]
  obtain ⟨hmem, hslim, hrg⟩ := aliasCommons_writes s.dev (k == 1) hn hal hecc
  rw [runs_iff (exec_aliasWrite ag a bytes s), he]
  generalize s.dev.aliasCommons r o bytes (k == 1) = e at *
  have hlen := length_leBytes bytes.length (aliasValue (k == 1) (s.dev.rdN (cmnBase r + o) bytes.length) (leNat bytes))
  refine ⟨?_, fun b hb => ?_, fun b hb hf => (rg_finish e hf).trans (hrg b hb),
    sameUnits_finish (congrArg Dev.units hslim :)⟩
  · have hread := rdB_memWr (d := e.finish) (by rw [finish_mem]; exact hmem)
    rw [hlen] at hread
    have hold : s.dev.rdN (cmnBase r + o) bytes.length < 256 ^ bytes.length := by
      have := leNat_lt (s.dev.rdB (cmnBase r + o) bytes.length)
      rwa [length_rdB] at this
    have h256 : 256 ^ bytes.length = 2 ^ (8 * bytes.length) := by rw [Nat.pow_mul]
    have hnew := aliasValue_lt (k == 1) (h256 ▸ hold) (h256 ▸ leNat_lt bytes)
    rw [Dev.rdN, hread, leNat_leBytes, h256, Nat.mod_eq_of_lt hnew]
    obtain rfl | rfl := hk <;> rfl
  · rw [finish_mem, hmem, memWr_read, hlen, if_neg hb]

/-! ### A general register of an S-core -/

/-- An alias write to the register of 32 RW bits at `a` (R46, R48). -/
theorem regAlias_rw {ag : Agent} {a : Nat} {x : RegRow} (v : Nat) (b : Bool) (h : WriteOk d ag a) (hx : regRow a = some x)
    (hrw : x.rw = 2 ^ 32 - 1) : d.regAlias ag a v b =
      if v % 2 ^ 32 = 0 then d else d.regPut ag a (aliasValue b (d.rg a) v % 2 ^ 32) := by
  obtain ⟨hl, hr, hd, hc, hf⟩ := h
  have hold : d.rg a &&& x.rw = d.rg a % 2 ^ 32 := by rw [hrw, Nat.and_two_pow_sub_one_eq_mod]
  have hnew : v % 2 ^ 32 &&& x.rw = v % 2 ^ 32 := by rw [hrw, Nat.and_two_pow_sub_one_eq_mod, Nat.mod_mod]
  rw [← aliasValue_mod]
  unfold Dev.regAlias
  rw [hx]
  simp only [hl, hr, hd, hc, hf, Bool.not_true, Bool.or_self, Bool.false_eq_true, if_false, hold, hnew]
  rfl

/-- An alias write whose width and place suit one register (R46, R48). -/
theorem aliasWrite_reg {ag : Agent} {k o a : Nat} {l : List Byte} (hk : k ≠ 0) (ht : target a = .reg k o) (ha : a % 4 = 0)
    (hn : l.length = 4) (hw : WriteOk d ag o) (hcut : d.flag FLT_STAT 4 = false ∨ regDie o = 0) :
    d.aliasWrite ag a l = d.regAlias ag o (leNat l) (k == 1) := by
  have hmay : d.may ag (.reg k o) a 4 = true := by
    have hreach := hw.2.1
    unfold Dev.reachesW Dev.reaches at hreach
    unfold Dev.may
    cases hrights : d.rights ag with
    | full => rfl
    | part p => rfl
    | none => rw [hrights] at hreach; exact absurd hreach (by simp)
  have hbridge : d.bridgeCut 0 (.reg k o) a = false := by
    unfold Dev.bridgeCut Dev.targetDie
    obtain h | h := hcut <;> simp [h]
  have hal : isAlias a = true := by unfold isAlias; rw [ht]; simpa using hk
  unfold Dev.aliasWrite
  rw [ht]
  dsimp only
  rw [if_neg hk, busWrite_alias d ag 0 a .nobody hal (by omega)]
  unfold Dev.writeUnit
  rw [ht]
  simp [hmay, Dev.beyond, hbridge, hk, ha, hn]

/-- The general registers' words stand on the region's die (R23, R51). -/
theorem regDie_general {r k : Nat} (hr : r < 8) (hk : k < 32) : regDie (SEQ_Gi_LO r 0 + 4 * k) = 0 := by
  have hlo : ¬ SEQ_Gi_LO r 0 + 4 * k < 0x10000000 := by unfold SEQ_Gi_LO slotBase; omega
  have hreg : (SEQ_Gi_LO r 0 + 4 * k - 0x10000000) / 0x1000000 = r := by unfold SEQ_Gi_LO slotBase; omega
  unfold regDie dieOf
  rw [if_neg hlo, hreg, Nat.div_eq_of_lt hr]

/-- ALIAS_WRITE of a word of a general register of a halted S-core (R46, R48, R425). -/
theorem aliasWrite_general_runs (s : State) (ag : Agent) (kind r k : Nat) (bytes : List Byte) (hk : kind = 1 ∨ kind = 2) (hr : r < 16)
    (hk32 : k < 32) (hn : bytes.length = 4) (hs : s.dev.seqState r = 0) (hw : WriteOk s.dev ag (SEQ_Gi_LO r 0 + 4 * k))
    (hcut : s.dev.flag FLT_STAT 4 = false ∨ r < 8) :
    Runs (.aliasWrite ag (0x020000000000 + 0x100000000 * kind + SEQ_Gi_LO r 0 + 4 * k) bytes) s (fun e =>
      e.rg (SEQ_Gi_LO r 0 + 4 * k) % 2 ^ 32 = (if kind = 1 then s.dev.rg (SEQ_Gi_LO r 0 + 4 * k) ||| leNat bytes
        else s.dev.rg (SEQ_Gi_LO r 0 + 4 * k) ^^^ (s.dev.rg (SEQ_Gi_LO r 0 + 4 * k) &&& leNat bytes)) % 2 ^ 32 ∧
      Keeps s.dev e (fun a => a = SEQ_Gi_LO r 0 + 4 * k) ∧ SameUnits s.dev e) := by
  have hk0 : kind ≠ 0 := by omega
  have hlt : SEQ_Gi_LO r 0 + 4 * k < 0x20000000 := by unfold SEQ_Gi_LO slotBase; omega
  have hta := target_regAlias hk hlt
  have h4 : (0x020000000000 + 0x100000000 * kind + (SEQ_Gi_LO r 0 + 4 * k)) % 4 = 0 := by unfold SEQ_Gi_LO slotBase; omega
  rw [Nat.add_assoc (0x020000000000 + 0x100000000 * kind)]
  generalize 0x020000000000 + 0x100000000 * kind + (SEQ_Gi_LO r 0 + 4 * k) = a at *
  obtain ⟨x, hx, hrows⟩ := Option.map_eq_some_iff.1 (regRow_general r hr k hk32)
  have hcut' := hcut.imp_right (fun h => regDie_general h hk32)
  have hv : leNat bytes % 2 ^ 32 = leNat bytes := Nat.mod_eq_of_lt (by have := leNat_lt bytes; rw [hn] at this; exact this)
  rw [runs_iff (exec_aliasWrite ag a bytes s), aliasWrite_reg s.dev hk0 hta h4 hn hw hcut',
    regAlias_rw s.dev _ _ hw hx (Prod.mk.inj hrows).1, hv]
  have hfol := not_follow_general (r := r) (k := k)
  by_cases h0 : leNat bytes = 0
  · rw [if_pos h0, h0, rg_finish _ hfol]
    exact ⟨by simp, regs_finish_keeps rfl (fun _ _ => rfl)⟩
  · rw [if_neg h0, regPut_general s.dev ag _ hr hk32 hs]
    obtain ⟨hset, hkeeps⟩ := setR_finish s.dev hfol (s.dev.regNew (SEQ_Gi_LO r 0 + 4 * k)
      (aliasValue (kind == 1) (s.dev.rg (SEQ_Gi_LO r 0 + 4 * k)) (leNat bytes) % 2 ^ 32))
    rw [regNew_general _ hr hk32, Nat.mod_mod] at hset
    refine ⟨?_, hkeeps⟩
    rw [hset, Nat.mod_mod]
    obtain rfl | rfl := hk <;> rfl

end Sys2Proof.Machine
end

section
/-! SUPPORT. The core-store window under an agent that is no S-core of the device: what `coreStoreWrite_runs` asks of the agent, and
the statement does not. -/

namespace Sys2Proof.Machine

open Sys2Proof

/-- The number whose entry of the region table would lie at SYN_ECCCORR of site 0: far above the 16 regions there are. -/
def strayRegion : Nat := (SYN_ECCCORR 0 - CAL_REGPART 0) / 4

theorem regPart_strayRegion : CAL_REGPART strayRegion = SYN_ECCCORR 0 := by decide

/-- Partition 1 owns region 0, whose core 0 stands at site 0 and is ON; SYN_ECCCORR of that site reads 0x80000001, and the last word
of the core store's first 256 KiB holds a single-bit error. -/
def strayDev : Dev :=
  { ((((default : Dev).setR (CAL_REGPART 0) 0x80000001).setR (FAB_REMAP 0 0) 0x80000000).setF (PWR_DSTAT 0) 30 2 2).setR
      (SYN_ECCCORR 0) 0x80000001 with ecc := [(csBase 0 + 0x3FFF8, 1)] }

/-- The S-core of `strayRegion` writes two bytes on either side of a 256 KiB boundary: the first corrects the word, which counts
SYN_ECCCORR on and with it moves the agent to partition 2, so the second is refused. -/
theorem strayDev_second_byte :
    (strayDev.coreStoreWrite (.score strayRegion) 0 0x3FFFF [1#8, 1#8]).mem.read (csBase 0 + 0x3FFFF + 1) = 0#8 := by
  decide +kernel

/-- Refutes O19: its clause of CORE_STORE_WRITE leaves the number of an S-core unbounded, so an agent may be named whose partition is
read from a counter that the write itself moves on. -/
theorem not_registerAndWindowAccesses : ¬ Obligations.RegisterAndWindowAccesses := by
  rintro ⟨-, -, -, -, hstore, -, -⟩
  have hruns := hstore ⟨strayDev, []⟩ (.score strayRegion) 0 0x3FFFF 0 [1#8, 1#8] (by decide) (by decide) (by decide +kernel)
    (by decide +kernel) (by decide) (by decide +kernel) (.inr (by decide))
  obtain ⟨hbytes, -⟩ := (runs_iff (exec_coreStoreWrite _ _ _ _ _)).1 hruns
  have hsecond := hbytes 1 (by decide)
  rw [finish_mem, strayDev_second_byte] at hsecond
  exact absurd hsecond (by decide)

end Sys2Proof.Machine
end

section
/-! SUPPORT. DDR_TRAINING that answers a waiting DDR_RETRAIN whose requester is no S-core of the device. -/

namespace Sys2Proof.Machine

open Sys2Proof

/-- The number of an S-core, far above the 16 there are, whose Tocsin would have the status of its partition queue at
MEM_CFG of die 0: TOC_PRQSTAT 288 (272 + strayScore - 289) is that address. -/
def strayScore : Nat := 17 + (MEM_CFG 0 - TOC_PRQSTAT 288 0) / 0x40

/-- The command that waits for the training, as that S-core would have sent it. -/
def strayWaiting : Waiting :=
  { opcode := 0x0A04, names := false, ro := false, hdr := { (default : Hdr) with func := 0x100 + strayScore }, pl := [],
    what := .other 0x0A04 }

/-- A full retraining runs for a command of `strayScore`, which waits at the CKPT in its last descriptor with 63 records in its
queue. -/
def strayTraining : Dev :=
  { (((default : Dev).setSeq strayScore 2 0).setR (SEQ_PC strayScore) 4095).setScore strayScore
      { (default : SCore) with prog := [(4095, [0x15#8])] } with
    tocq := [(272 + strayScore, List.replicate 63 default)]
    cal := { (default : Calends) with ddrJob := some 3 }
    car := { (default : Carillon) with waiting := [strayWaiting] } }

/-- The end of the training ends the command and with it the descriptor; the S-core faults past its last one, and the record of
that fault sets LOST of the queue, which is bit 6 of MEM_CFG. -/
theorem strayTraining_memCfg : (strayTraining.ddrTrained true 0 0).rg (MEM_CFG 0) = 2 ^ 31 + 2 ^ 6 := by
  decide +kernel

theorem not_follow_memCfg : ¬ FollowReg (MEM_CFG 0) := by
  unfold FollowReg MEM_CFG FLT_STAT TAB_BSTAT FLT_PMUTE TAB_CHSTAT PWR_DSTAT
  omega

theorem exec_ddrTraining (pass : Bool) (bad ms : Nat) (s : State) :
    exec (.ddrTraining pass bad ms) s = s.run (·.ddrTrained pass bad ms) := rfl

/-- Refutes O34: its clause of a DDR_TRAINING that passes leaves the requesters of the waiting commands unbounded, so one may be an
S-core whose queue would lie over MEM_CFG. -/
theorem not_ddrCommandsAndAccesses : ¬ Obligations.DdrCommandsAndAccesses := by
  rintro ⟨-, -, -, -, -, -, -, -, -, -, -, -, -, htrained, -⟩
  have hruns := htrained ⟨strayTraining, []⟩ true 0 0 3 rfl rfl
  obtain ⟨-, -, hregs, -⟩ := (runs_iff (exec_ddrTraining _ _ _ _)).1 hruns
  obtain ⟨hcfg, -⟩ := hregs 0 (by decide)
  rw [rg_finish _ not_follow_memCfg, strayTraining_memCfg] at hcfg
  exact absurd hcfg (by decide)

end Sys2Proof.Machine
end

section
/-! SUPPORT. Counters of 64 bits: what a register pair reads as after it was written or counted up (R12). -/

namespace Sys2Proof.Machine

variable (d : Dev)

theorem rg_set64_ne {a b : Nat} (v : Nat) (h : b ≠ a ∧ b ≠ a + 4) : (d.set64 a v).rg b = d.rg b :=
  (rg_setR_ne _ h.2).trans (rg_setR_ne _ h.1)

theorem rg64_set64_same {a v : Nat} (h : v < 2 ^ 64) : (d.set64 a v).rg64 a = v := by
  unfold Dev.rg64 Dev.set64
  rw [rg_setR_ne _ (show a ≠ a + 4 by omega), rg_setR_same, rg_setR_same]
  omega

theorem bump64_regs_only (a k : Nat) : ∃ r, d.bump64 a k = { d with regs := r } := by
  unfold Dev.bump64
  split <;> exact ⟨_, rfl⟩

theorem rg_bump64_ne {a b : Nat} (k : Nat) (h : b ≠ a ∧ b ≠ a + 4) : (d.bump64 a k).rg b = d.rg b := by
  unfold Dev.bump64
  split
  · rfl
  · exact rg_set64_ne d _ h

theorem rg64_bump64_same (a k : Nat) : (d.bump64 a k).rg64 a = Sys2Proof.inc64 (d.rg64 a) k := by
  unfold Dev.bump64 Sys2Proof.inc64
  split
  · rfl
  · exact rg64_set64_same d (by omega)

theorem rg_count64_ne {a b : Nat} (k : Nat) (h : b ≠ a ∧ b ≠ a + 4) : (d.count64 a k).rg b = d.rg b := by
  unfold Dev.count64
  split
  · rfl
  · exact rg_set64_ne d _ h

theorem rg64_count64_same (a k : Nat) : (d.count64 a k).rg64 a = Sys2Proof.wrap64 (d.rg64 a) k := by
  unfold Dev.count64 Sys2Proof.wrap64
  split
  · rfl
  · exact rg64_set64_same d (by omega)

/-- A register pair neither of whose halves changed reads as before. -/
theorem rg64_congr {d e : Dev} {a : Nat} (hlo : e.rg a = d.rg a) (hhi : e.rg (a + 4) = d.rg (a + 4)) : e.rg64 a = d.rg64 a := by
  unfold Dev.rg64; rw [hlo, hhi]

theorem fld_congr {d e : Dev} {a : Nat} (lo w : Nat) (h : e.rg a = d.rg a) : e.fld a lo w = d.fld a lo w := by
  unfold Dev.fld; rw [h]

theorem flag_congr {d e : Dev} {a : Nat} (k : Nat) (h : e.rg a = d.rg a) : e.flag a k = d.flag a k := by
  unfold Dev.flag; rw [h]

/-- Memory, ECC state and units as before, and every register outside `w`: what a command keeps once what follows the state has
followed it. -/
theorem keeps_finish {d e : Dev} {w : Nat → Prop} (hmem : e.mem = d.mem) (hecc : e.ecc = d.ecc) (hu : e.units = d.units)
    (hr : ∀ a, ¬ w a → e.rg a = d.rg a) : Sys2Proof.Keeps d e.finish w ∧ Sys2Proof.SameUnits d e.finish :=
  ⟨⟨fun a ha hf => (rg_finish e hf).trans (hr a ha), fun a => by rw [finish_mem, hmem], by rw [finish_ecc, hecc]⟩,
    sameUnits_finish hu⟩

end Sys2Proof.Machine
end

section
/-! SUPPORT. The output ports: what moves when ports and bridge serve their queues, and that a packet on its way stays so (R236,
R255, R261). -/

namespace Sys2Proof.Machine

open Sys2Proof

variable (d : Dev)

/-- The registers that flits on the move touch: the trace's, and the counts of flits sent by a port and over the bridge. -/
def MoveReg (a : Nat) : Prop :=
  a = OBS_TSTAT ∨ a = OBS_TFIFO ∨ a = OBS_TDROP ∨ ∃ k, k < 2 ∧ (a = FAB_BRFLIT_LO k ∨ a = FAB_BRFLIT_HI k ∨
    ∃ q, q < 4 ∧ (a = FAB_PTXFLIT_LO k q ∨ a = FAB_PTXFLIT_HI k q))

theorem MoveReg.linkReg {a : Nat} : MoveReg a → LinkReg a := by
  rintro (h | h | h | ⟨k, hk, h⟩)
  · exact .inl (.inr (.inr (.inl h)))
  · exact .inl (.inr (.inr (.inr (.inl h))))
  · exact .inl (.inr (.inr (.inr (.inr (.inl h)))))
  · obtain h | h | ⟨q, hq, h⟩ := h
    · exact .inr ⟨k, hk, .inr (.inr (.inr (.inl h)))⟩
    · exact .inr ⟨k, hk, .inr (.inr (.inr (.inr (.inl h))))⟩
    · exact .inr ⟨k, hk, .inr (.inr (.inr (.inr (.inr ⟨q, hq, h.imp_right .inl⟩))))⟩

/-- Where those registers lie. -/
theorem MoveReg.place {a : Nat} : MoveReg a → (a = 0xD0004 ∨ a = 0xD002C ∨ a = 0xD0028) ∨ 0x40000 ≤ a ∧ a < 0x60000 ∧
    (a % 0x10000 = 0x40 ∨ a % 0x10000 = 0x44 ∨ a % 0x10000 / 0x1000 = 1 ∧ (a % 0x100 = 0x10 ∨ a % 0x100 = 0x14)) := by
  unfold MoveReg OBS_TSTAT OBS_TFIFO OBS_TDROP FAB_BRFLIT_LO FAB_BRFLIT_HI FAB_PTXFLIT_LO FAB_PTXFLIT_HI
  rintro (h | h | h | ⟨k, hk, h | h | ⟨q, hq, h | h⟩⟩) <;> omega

/-- The device without its registers, ports, trace and output. -/
def Dev.unlinked : Dev := { d with regs := [], trace := default, out := [], lports := [], oports := [] }

/-- What waits at an output. -/
def Dev.queueAt (k : Nat) : List Worm := (d.oport k).queue

/-- The first `n` flits of a packet have left on port `q`. -/
def Gone (q : Nat) (l : List Byte) (n : Nat) : Prop := ∀ i, i < n → ∃ tag, Output.flit q tag (slice l (64 * i) 64) ∈ d.out

/-- A packet of this device is under way by port `q`: it waits with its first flits gone, or has gone. -/
def Underway (q : Nat) (l : List Byte) : Prop :=
  (∃ k w, (k = q ∨ k = 8 ∨ k = 9) ∧ w ∈ d.queueAt k ∧ w.port = q ∧ w.data = l ∧ Gone d q l w.sent) ∨ Gone d q l (l.length / 64)

theorem Underway.sentOn {d : Dev} {q : Nat} {l : List Byte} : Underway d q l → SentOn d q l
  | .inl ⟨k, w, hk, hw, hp, hl, _⟩ => .inl ⟨k, w, hk, hw, hp, hl⟩
  | .inr h => .inr h

theorem oport_setOport (q k : Nat) (x : OPort) : (d.setOport q x).oport k = if k = q then x else d.oport k :=
  SMap.get_set ..

theorem queueAt_setOport (q k : Nat) (x : OPort) : (d.setOport q x).queueAt k = if k = q then x.queue else d.queueAt k := by
  unfold Dev.queueAt; rw [oport_setOport]; split <;> rfl

/-- Nothing but credits, trace and flit counts has changed. -/
structure Still (d e : Dev) : Prop where
  unlinked : e.unlinked = d.unlinked
  rg       : ∀ a, ¬ MoveReg a → e.rg a = d.rg a
  queues   : ∀ k, e.queueAt k = d.queueAt k
  out      : e.out = d.out

theorem Still.refl : Still d d := ⟨rfl, fun _ _ => rfl, fun _ => rfl, rfl⟩
theorem Still.trans {a b c : Dev} (h : Still a b) (g : Still b c) : Still a c :=
  ⟨g.unlinked.trans h.unlinked, fun x hx => (g.rg x hx).trans (h.rg x hx), fun k => (g.queues k).trans (h.queues k),
    g.out.trans h.out⟩

/-- Nothing but ports, trace, output and flit counts has changed, and what was under way is. -/
structure Moves (d e : Dev) : Prop where
  unlinked : e.unlinked = d.unlinked
  rg       : ∀ a, ¬ MoveReg a → e.rg a = d.rg a
  underway : ∀ q l, q < 8 → Underway d q l → Underway e q l

theorem Moves.refl : Moves d d := ⟨rfl, fun _ _ => rfl, fun _ _ _ h => h⟩
theorem Moves.trans {a b c : Dev} (h : Moves a b) (g : Moves b c) : Moves a c :=
  ⟨g.unlinked.trans h.unlinked, fun x hx => (g.rg x hx).trans (h.rg x hx), fun q l hq hu => g.underway q l hq (h.underway q l hq hu)⟩

theorem Still.moves {d e : Dev} (h : Still d e) : Moves d e :=
  ⟨h.unlinked, h.rg, fun q l _ hu => by simpa only [Underway, Gone, h.queues, h.out] using hu⟩

/-! ### Credits and flits -/

theorem leaveInput_still (src : Option (Nat × Nat)) (n : Nat) : Still d (d.leaveInput src n) := by
  unfold Dev.leaveInput
  split
  · exact .refl d
  · split
    · refine ⟨rfl, fun _ _ => rfl, fun k => ?_, rfl⟩
      rw [queueAt_setOport]
      split
      · rename_i h; rw [h]; rfl
      · rfl
    · exact ⟨rfl, fun _ _ => rfl, fun _ => rfl, rfl⟩

theorem bump64_still {a : Nat} (k : Nat) (h : MoveReg a ∧ MoveReg (a + 4)) : Still d (d.bump64 a k) := by
  obtain ⟨r, hr⟩ := bump64_regs_only d a k
  refine ⟨?_, fun b hb => rg_bump64_ne d k ⟨fun e => hb (e ▸ h.1), fun e => hb (e ▸ h.2)⟩, fun _ => ?_, ?_⟩ <;> rw [hr] <;> rfl

theorem moveReg_ptx {q : Nat} (hq : q < 8) : MoveReg (FAB_PTXFLIT_LO (q / 4) (q % 4)) ∧ MoveReg (FAB_PTXFLIT_LO (q / 4) (q % 4) + 4) :=
  have hk : q / 4 < 2 := by omega
  have hm : q % 4 < 4 := by omega
  ⟨.inr (.inr (.inr ⟨q / 4, hk, .inr (.inr ⟨q % 4, hm, .inl rfl⟩)⟩)),
    .inr (.inr (.inr ⟨q / 4, hk, .inr (.inr ⟨q % 4, hm, .inr (by unfold FAB_PTXFLIT_LO FAB_PTXFLIT_HI; omega)⟩)⟩))⟩

theorem moveReg_bridge {k : Nat} (hk : k < 2) : MoveReg (FAB_BRFLIT_LO k) ∧ MoveReg (FAB_BRFLIT_LO k + 4) :=
  ⟨.inr (.inr (.inr ⟨k, hk, .inl rfl⟩)), .inr (.inr (.inr ⟨k, hk, .inr (.inl rfl)⟩))⟩

theorem trace_still {d e : Dev} (h : TraceKeeps d e) : Still d e := by
  have ho : e.oports = d.oports := (congrArg Dev.oports h.desk :)
  refine ⟨?_, fun a ha => h.rg a (fun x => ha (.inl x)) (fun x => ha (.inr (.inl x))) (fun x => ha (.inr (.inr (.inl x)))),
    fun k => by unfold Dev.queueAt Dev.oport; rw [ho], h.out⟩
  have he : e.unlinked = { e.unlinked with car := d.car } := by rw [← h.car]; rfl
  exact he.trans (congrArg (fun x : Dev => ({ x with lports := [], oports := [], car := d.car } : Dev)) h.desk)

end Sys2Proof.Machine
end

section
/-! SUPPORT. Serving the outputs: a flit of a port, a packet over the bridge, and both until nothing more can go. -/

namespace Sys2Proof.Machine

open Sys2Proof

variable (d : Dev)

/-- What an output serves next waits there. -/
theorem OPort.pick_mem {x : OPort} {need : Worm → Nat} {w : Worm} (h : x.pick need = some w) : w ∈ x.queue := by
  have hheads : ∀ y ∈ x.heads, y ∈ x.queue := by
    intro y hy
    obtain ⟨v, -, hv⟩ := List.mem_filterMap.1 hy
    exact List.mem_of_find?_eq_some hv
  have hready : ∀ y ∈ x.heads.filter (fun y => need y ≤ x.credit y.vc), y ∈ x.queue :=
    fun y hy => hheads y (List.mem_filter.1 hy).1
  have hrest : ∀ y ∈ (x.heads.filter (fun y => need y ≤ x.credit y.vc)).filter (fun y => vcShares y.vc), y ∈ x.queue :=
    fun y hy => hready y (List.mem_filter.1 hy).1
  unfold OPort.pick at h
  simp only [Option.or_eq_some_iff] at h
  obtain (h | ⟨-, h⟩) | ⟨-, h | ⟨-, h | ⟨-, h⟩⟩⟩ := h
  · exact hready _ (List.mem_of_find?_eq_some h)
  · exact List.mem_of_find?_eq_some h
  · exact hrest _ (List.mem_of_find?_eq_some h)
  · exact hrest _ (List.mem_of_find?_eq_some h)
  · exact hrest _ (List.mem_of_mem_head? h)

theorem mem_replace_of_ne {x w : Worm} (w' : Worm) (hne : x ≠ w) : ∀ {l : List Worm}, x ∈ l → x ∈ l.replace w w'
  | a :: r, h => by
    rw [List.replace_cons]
    split
    · rename_i he
      rw [beq_iff_eq] at he
      exact List.mem_cons_of_mem _ ((List.mem_cons.1 h).resolve_left (fun e => hne (e.trans he.symm)))
    · obtain rfl | h := List.mem_cons.1 h
      · exact List.mem_cons_self ..
      · exact List.mem_cons_of_mem _ (mem_replace_of_ne w' hne h)

theorem mem_replace_new {w : Worm} (w' : Worm) : ∀ {l : List Worm}, w ∈ l → w' ∈ l.replace w w'
  | a :: r, h => by
    rw [List.replace_cons]
    split
    · exact List.mem_cons_self ..
    · rename_i he
      obtain rfl | h := List.mem_cons.1 h
      · exact absurd he (by simp)
      · exact List.mem_cons_of_mem _ (mem_replace_new w' h)

/-- The packet with its next flit gone. -/
def Worm.next (w : Worm) : Worm := { w with sent := w.sent + 1 }

/-- What waits at a port once the next flit of `w` has left. -/
def restAfter (l : List Worm) (w : Worm) : List Worm :=
  if w.sent + 1 == w.data.length / 64 then l.erase w else l.replace w w.next

/-- A flit leaves: what else it changes beside its port's queue are credits, the trace and the port's count. -/
theorem sendFlit_eq {q : Nat} (hq : q < 8) (w : Worm) : ∃ (e : Dev) (x : OPort) (tag : Nat), x.queue = restAfter (d.queueAt q) w ∧
    Still (d.setOport q x) e ∧ d.sendFlit q w = e.emit (.flit q tag (slice w.data (64 * w.sent) 64)) := by
  unfold Dev.sendFlit
  dsimp only
  generalize hx : OPort.mk _ _ _ = x
  have h1 := leaveInput_still (d.setOport q x) w.src 1
  generalize (d.setOport q x).leaveInput w.src 1 = e1 at *
  generalize he2 : (if ((e1.lport q).owed.head?.getD (0, 0)).2 = 0 then e1 else _ : Dev) = e2
  have h2 : Still (d.setOport q x) e2 := by
    subst he2
    split
    · exact h1
    · exact h1.trans ⟨rfl, fun _ _ => rfl, fun _ => rfl, rfl⟩
  generalize he3 : (if (decide (w.sent = 0) && decide (w.vc ≠ 0)) = true then _ else e2 : Dev) = e3
  have h3 : Still (d.setOport q x) e3 := by
    subst he3
    split
    · exact h2.trans (trace_still (traceRec_keeps ..))
    · exact h2
  exact ⟨_, x, _, by rw [← hx]; rfl, h3.trans (bump64_still e3 1 (moveReg_ptx hq)), rfl⟩

/-- The flits gone of a packet are gone also after more output. -/
theorem Gone.mono {d e : Dev} {q : Nat} {l : List Byte} {n : Nat} (h : Gone d q l n) (ho : ∀ x ∈ d.out, x ∈ e.out) : Gone e q l n :=
  fun i hi => (h i hi).imp (fun _ ht => ho _ ht)

theorem Gone.succ {d : Dev} {q : Nat} {l : List Byte} {n tag : Nat} (h : Gone d q l n)
    (ho : Output.flit q tag (slice l (64 * n) 64) ∈ d.out) : Gone d q l (n + 1) := by
  intro i hi
  obtain rfl | h' : i = n ∨ i < n := by omega
  · exact ⟨_, ho⟩
  · exact h i h'

/-- A packet that waits is under way once the next flit of `w` has left: as before, or one flit on, or gone. -/
theorem sendFlit_moves {q : Nat} (hq : q < 8) {w : Worm} (hw : w ∈ d.queueAt q) : Moves d (d.sendFlit q w) := by
  obtain ⟨e, x, tag, hx, hs, he⟩ := sendFlit_eq d hq w
  have hqueue : ∀ k, (e.emit (.flit q tag (slice w.data (64 * w.sent) 64))).queueAt k =
      if k = q then restAfter (d.queueAt q) w else d.queueAt k :=
    fun k => (hs.queues k).trans (by rw [queueAt_setOport, hx])
  have hout : (e.emit (.flit q tag (slice w.data (64 * w.sent) 64))).out =
      d.out ++ [.flit q tag (slice w.data (64 * w.sent) 64)] := congrArg (· ++ _) hs.out
  have hrg : ∀ a, ¬ MoveReg a → (e.emit (.flit q tag (slice w.data (64 * w.sent) 64))).rg a = d.rg a := hs.rg
  have hun : (e.emit (.flit q tag (slice w.data (64 * w.sent) 64))).unlinked = d.unlinked := hs.unlinked
  rw [he]
  generalize e.emit (.flit q tag (slice w.data (64 * w.sent) 64)) = f at *
  have hold : ∀ y ∈ d.out, y ∈ f.out := fun y hy => hout ▸ List.mem_append_left _ hy
  refine ⟨hun, hrg, fun q' l _ hu => ?_⟩
  obtain ⟨k, v, hk, hv, hp, hl, hg⟩ | hg := hu
  · by_cases hkq : k = q
    · by_cases hvw : v = w
      · obtain rfl : q' = q := by omega
        subst hvw hl
        have hnext : Gone f q' v.data (v.sent + 1) := (hg.mono hold).succ (hout ▸ List.mem_append_right _ (List.mem_singleton.2 rfl))
        by_cases hlast : (v.sent + 1 == v.data.length / 64) = true
        · exact .inr (by rwa [← eq_of_beq hlast])
        · refine .inl ⟨q', v.next, .inl rfl, ?_, hp, rfl, hnext⟩
          rw [hqueue, if_pos rfl]
          unfold restAfter
          rw [if_neg hlast]
          exact mem_replace_new _ hw
      · refine .inl ⟨k, v, hk, ?_, hp, hl, hg.mono hold⟩
        rw [hqueue, if_pos hkq]
        rw [hkq] at hv
        unfold restAfter
        split
        · exact (List.mem_erase_of_ne hvw).2 hv
        · exact mem_replace_of_ne _ hvw hv
    · exact .inl ⟨k, v, hk, by rw [hqueue, if_neg hkq]; exact hv, hp, hl, hg.mono hold⟩
  · exact .inr (hg.mono hold)

theorem servePort_moves {q : Nat} (hq : q < 8) : ∀ (fuel : Nat) (d : Dev), Moves d (Dev.servePort q fuel d) := by
  intro fuel
  induction fuel with
  | zero => exact fun d => .refl d
  | succ fuel ih =>
    intro d
    unfold Dev.servePort
    split
    · exact .refl d
    · rename_i w hw
      exact (sendFlit_moves d hq (OPort.pick_mem hw)).trans (ih _)

/-! ### The bridge -/

/-- Bridge direction `k` has passed `w` on. -/
def Dev.passOver (k : Nat) (w : Worm) : Dev :=
  let x := d.oport k
  let e := ((d.setOport k { (x.take w.vc w.left) with queue := x.queue.erase w, last := if vcShares w.vc then w.vc else x.last }).leaveInput
    w.src w.left).bump64 (FAB_BRFLIT_LO (k - 8)) w.left
  e.setOport w.port { e.oport w.port with queue := e.queueAt w.port ++ [{ w with src := some (k, w.vc) }] }

theorem serveBridge_succ (k fuel : Nat) : Dev.serveBridge k (fuel + 1) d = match (d.oport k).pick Worm.left with
    | none => d
    | some w => Dev.serveBridge k fuel (d.passOver k w) := rfl

/-- A packet that the bridge passes on waits at its port; the others wait where they did. -/
theorem passOver_moves {k : Nat} (hk : k = 8 ∨ k = 9) (w : Worm) : Moves d (d.passOver k w) := by
  unfold Dev.passOver
  dsimp only
  generalize hx : OPort.mk _ _ _ = x
  have hb := moveReg_bridge (show k - 8 < 2 by omega)
  have hs := (leaveInput_still (d.setOport k x) w.src w.left).trans (bump64_still _ w.left hb)
  generalize ((d.setOport k x).leaveInput w.src w.left).bump64 (FAB_BRFLIT_LO (k - 8)) w.left = e at *
  have hqueue : ∀ j, e.queueAt j = if j = k then (d.queueAt k).erase w else d.queueAt j := fun j =>
    (hs.queues j).trans (by rw [queueAt_setOport, ← hx]; rfl)
  refine ⟨hs.unlinked, hs.rg, fun q l _ hu => ?_⟩
  have hout : e.out = d.out := hs.out
  have hmem : ∀ {j v}, v ∈ e.queueAt j → v ∈ (e.setOport w.port { e.oport w.port with
      queue := e.queueAt w.port ++ [{ w with src := some (k, w.vc) }] }).queueAt j := by
    intro j v hv
    rw [queueAt_setOport]
    split
    · rename_i hj
      exact List.mem_append_left _ (hj ▸ hv)
    · exact hv
  obtain ⟨j, v, hj, hv, hp, hl, hg⟩ | hg := hu
  · have hg' : Gone e q l v.sent := hg.mono (fun _ hy => hout ▸ hy)
    by_cases hw : j = k ∧ v = w
    · obtain ⟨-, rfl⟩ := hw
      refine .inl ⟨q, { v with src := some (k, v.vc) }, .inl rfl, ?_, hp, hl, hg'⟩
      rw [queueAt_setOport, if_pos hp.symm]
      exact List.mem_append_right _ (List.mem_singleton.2 rfl)
    · refine .inl ⟨j, v, hj, hmem ?_, hp, hl, hg'⟩
      rw [hqueue]
      split
      · rename_i hjk
        exact (List.mem_erase_of_ne (fun e => hw ⟨hjk, e⟩)).2 (hjk ▸ hv)
      · exact hv
  · exact .inr (hg.mono (fun _ hy => hout ▸ hy))

theorem serveBridge_moves {k : Nat} (hk : k = 8 ∨ k = 9) : ∀ (fuel : Nat) (d : Dev), Moves d (Dev.serveBridge k fuel d) := by
  intro fuel
  induction fuel with
  | zero => exact fun d => .refl d
  | succ fuel ih =>
    intro d
    rw [serveBridge_succ]
    split
    · exact .refl d
    · exact (passOver_moves d hk _).trans (ih _)

/-! ### Both -/

/-- A walk whose steps for the elements of the list move. -/
theorem forEach_moves {α : Type} {f : Dev → α → Dev} : ∀ (l : List α), (∀ d x, x ∈ l → Moves d (f d x)) → ∀ d, Moves d (d.forEach l f)
  | [], _, d => .refl d
  | x :: r, h, d => (h d x (List.mem_cons_self ..)).trans (forEach_moves r (fun d y hy => h d y (List.mem_cons_of_mem _ hy)) _)

theorem pumpN_moves : ∀ (fuel : Nat) (d : Dev), Moves d (Dev.pumpN fuel d) := by
  intro fuel
  induction fuel with
  | zero => exact fun d => .refl d
  | succ fuel ih =>
    intro d
    refine ((forEach_moves _ (fun d k hk => ?_) d).trans (forEach_moves _ (fun d q hq => ?_) _)).trans (ih _)
    · exact serveBridge_moves (by simpa using hk) _ d
    · exact servePort_moves (mem_upTo hq) _ d

theorem pump_moves : Moves d d.pump := pumpN_moves _ d

end Sys2Proof.Machine
end

section
/-! SUPPORT. Sending: what a packet that joins an output leaves as it was, routes and the registers they rest on (R236, R243 to
R247). -/

namespace Sys2Proof.Machine

open Sys2Proof

variable (d : Dev)

/-! ### What goes out leaves the rest -/

/-- Nothing but ports, trace, output and the registers of what goes out has changed. -/
structure LinkKeeps (d e : Dev) : Prop where
  unlinked : e.unlinked = d.unlinked
  rg       : ∀ a, ¬ LinkReg a → e.rg a = d.rg a

theorem Moves.link {d e : Dev} (h : Moves d e) : LinkKeeps d e := ⟨h.unlinked, fun a ha => h.rg a (fun m => ha m.linkReg)⟩

namespace LinkKeeps

theorem refl : LinkKeeps d d := ⟨rfl, fun _ _ => rfl⟩
theorem trans {a b c : Dev} (h : LinkKeeps a b) (g : LinkKeeps b c) : LinkKeeps a c :=
  ⟨g.unlinked.trans h.unlinked, fun x hx => (g.rg x hx).trans (h.rg x hx)⟩
theorem bump {a : Nat} (h : LinkReg a) (k : Nat) : LinkKeeps d (d.bump a k) := ⟨rfl, fun _ hb => rg_bump_ne d (fun e => hb (e ▸ h))⟩
theorem setFlag {a : Nat} (h : LinkReg a) (k : Nat) (x : Bool) : LinkKeeps d (d.setFlag a k x) :=
  ⟨rfl, fun _ hb => rg_setFlag_ne d (fun e => hb (e ▸ h))⟩
theorem setOport (q : Nat) (x : OPort) : LinkKeeps d (d.setOport q x) := ⟨rfl, fun _ _ => rfl⟩

variable {d} {e : Dev} (h : LinkKeeps d e)
include h

theorem mem : e.mem = d.mem := (congrArg Dev.mem h.unlinked :)
theorem ecc : e.ecc = d.ecc := (congrArg Dev.ecc h.unlinked :)
theorem units : e.units = d.units := (congrArg Dev.units h.unlinked :)
theorem net : e.net = d.net := (congrArg Dev.net h.unlinked :)
theorem inbox : e.inbox = d.inbox := (congrArg Dev.inbox h.unlinked :)

theorem keeps_finish : Keeps d e.finish LinkReg ∧ SameUnits d e.finish := Machine.keeps_finish h.mem h.ecc h.units h.rg

end LinkKeeps

theorem linkReg_die {die : Nat} (h : die < 2) : LinkReg (FAB_NOROUTE die) ∧ LinkReg (FAB_DSTAT die) ∧ LinkReg (FAB_C0MERGE die) :=
  ⟨.inr ⟨die, h, .inl rfl⟩, .inr ⟨die, h, .inr (.inl rfl)⟩, .inr ⟨die, h, .inr (.inr (.inl rfl))⟩⟩

theorem linkReg_pdisc {k q : Nat} (h : k < 2) (hq : q < 4) : LinkReg (FAB_PDISC k q) :=
  .inr ⟨k, h, .inr (.inr (.inr (.inr (.inr ⟨q, hq, .inr (.inr rfl)⟩))))⟩

theorem noRoute_keeps {die : Nat} (h : die < 2) : LinkKeeps d (d.noRoute die) := by
  obtain ⟨hn, hs, -⟩ := linkReg_die h
  exact (LinkKeeps.bump d hn 1).trans (.setFlag _ hs 2 true)

theorem enqueue_keeps {die q : Nat} (hq : q < 8) (w : Worm) : LinkKeeps d (d.enqueue die q w) := by
  unfold Dev.enqueue
  dsimp only
  split
  · exact (LinkKeeps.setOport d _ _).trans (pump_moves _).link
  · split
    · exact (leaveInput_still d _ _).moves.link.trans (.bump _ (linkReg_pdisc (by omega) (by omega)) _)
    · exact (LinkKeeps.setOport d _ _).trans (pump_moves _).link

/-- A packet that joins an output, the die bridge working, is under way. -/
theorem enqueue_underway {die q : Nat} (hd : die < 2) (hq : q < 8) {w : Worm} (h0 : w.sent = 0) (hb : d.flag FLT_STAT 4 = false) :
    Underway (d.enqueue die q w) q w.data := by
  have hgone : ∀ e : Dev, Gone e q w.data 0 := fun e i hi => absurd hi (Nat.not_lt_zero i)
  unfold Dev.enqueue
  simp only [hb, Bool.false_eq_true, if_false]
  split
  · refine (pump_moves _).underway q _ hq (.inl ⟨q, { w with port := q }, .inl rfl, ?_, rfl, rfl, by rw [h0]; exact hgone _⟩)
    rw [queueAt_setOport, if_pos rfl]
    exact List.mem_append_right _ (List.mem_singleton.2 rfl)
  · refine (pump_moves _).underway q _ hq (.inl ⟨8 + die, { w with port := q }, by omega, ?_, rfl, rfl, by rw [h0]; exact hgone _⟩)
    rw [queueAt_setOport, if_pos rfl]
    exact List.mem_append_right _ (List.mem_singleton.2 rfl)

/-! ### Routes -/

/-- The registers that say where a packet goes: the plan's, the routes, the ports' states, and whether the bridge works. -/
def RouteReg (a : Nat) : Prop :=
  a = FLT_STAT ∨ (∃ k, k < 2 ∧ (a = FAB_DCFG k ∨ a = FAB_RTX k ∨ a = FAB_RTY k ∨ a = FAB_RTZ k)) ∨
    ∃ q, q < 8 ∧ (a = portStat q ∨ a = CAL_PORTSTAT q)

/-- Both devices route alike. -/
def SameRoutes (d e : Dev) : Prop := ∀ a, RouteReg a → e.rg a = d.rg a

/-- The registers of what comes in and goes out by the ports, of which no route depends. -/
theorem LinkReg.place {a : Nat} : LinkReg a → (0xA0000 ≤ a ∧ a < 0xB0000 ∨ 0xD0000 ≤ a ∧ a < 0xE0000 ∨ 0x100000 ≤ a ∧ a < 0x200000) ∨
    0x40000 ≤ a ∧ a < 0x60000 ∧
    (a % 0x10000 = 4 ∨ a % 0x10000 = 0x1C ∨ a % 0x10000 = 0x34 ∨ a % 0x10000 = 0x40 ∨ a % 0x10000 = 0x44 ∨
      a % 0x10000 / 0x1000 = 1 ∧ (a % 0x100 = 0x10 ∨ a % 0x100 = 0x14 ∨ a % 0x100 = 0x30)) := by
  unfold LinkReg BookReg CAR_LOGSEQ CAR_JSKIP OBS_TSTAT OBS_TFIFO OBS_TDROP CAR_BOUT CAR_BSTAT FAB_NOROUTE FAB_DSTAT FAB_C0MERGE
    FAB_BRFLIT_LO FAB_BRFLIT_HI FAB_PTXFLIT_LO FAB_PTXFLIT_HI FAB_PDISC
  rintro ((h | h | h | h | h | ⟨f, hf, h | h⟩) | ⟨k, hk, h | h | h | h | h | ⟨q, hq, h | h | h⟩⟩) <;> omega

theorem RouteReg.place {a : Nat} : RouteReg a → (a = 0xC0000 ∨ 0xE0000 ≤ a ∧ a < 0xF0000) ∨ 0x40000 ≤ a ∧ a < 0x60000 ∧
    (a % 0x10000 = 0 ∨ a % 0x10000 = 8 ∨ a % 0x10000 = 0xC ∨ a % 0x10000 = 0x10 ∨ a % 0x10000 / 0x1000 = 1 ∧ a % 0x100 = 4) := by
  unfold RouteReg portStat FLT_STAT FAB_DCFG FAB_RTX FAB_RTY FAB_RTZ FAB_PSTAT CAL_PORTSTAT
  rintro (h | ⟨k, hk, h | h | h | h⟩ | ⟨q, hq, h | h⟩) <;> omega

theorem RouteReg.not_link {a : Nat} (h : RouteReg a) : ¬ LinkReg a := fun g => by
  have hr := h.place
  have hl := LinkReg.place g
  omega

theorem LinkKeeps.routes {d e : Dev} (h : LinkKeeps d e) : SameRoutes d e := fun a ha => h.rg a ha.not_link

section
variable {d} {e : Dev} (h : SameRoutes d e)
include h

theorem SameRoutes.flag {a k : Nat} (ha : RouteReg a) : e.flag a k = d.flag a k := flag_congr k (h a ha)
theorem SameRoutes.fld {a lo w : Nat} (ha : RouteReg a) : e.fld a lo w = d.fld a lo w := fld_congr lo w (h a ha)

theorem SameRoutes.bridge : e.flag FLT_STAT 4 = d.flag FLT_STAT 4 := h.flag (.inl rfl)

theorem SameRoutes.devId : e.devId = d.devId := h.fld (.inr (.inl ⟨0, by decide, .inl rfl⟩))

theorem SameRoutes.portUp {q : Nat} (hq : q < 8) : e.portUp q = d.portUp q := by
  unfold Dev.portUp
  rw [h.fld (.inr (.inr ⟨q, hq, .inl rfl⟩)), h.flag (.inr (.inr ⟨q, hq, .inr rfl⟩))]

theorem SameRoutes.paired : e.flag (FAB_DCFG 1) 23 = d.flag (FAB_DCFG 1) 23 := h.flag (.inr (.inl ⟨1, by decide, .inl rfl⟩))

theorem SameRoutes.carries {dim dir o : Nat} (ho : o < 8) : Carries e dim dir o ↔ Carries d dim dir o := by
  unfold Carries
  rw [h.portUp ho, h.paired]

theorem SameRoutes.route {die : Nat} (hd : die < 2) (dest cur dirn : Nat) : e.route die dest cur dirn = d.route die dest cur dirn := by
  have hrt : ∀ k, e.fld (rtReg die k) (2 * coordOf dest k) 2 = d.fld (rtReg die k) (2 * coordOf dest k) 2 := by
    intro k
    refine h.fld (.inr (.inl ⟨die, hd, ?_⟩))
    unfold rtReg
    split
    · exact .inr (.inl rfl)
    · split
      · exact .inr (.inr (.inl rfl))
      · exact .inr (.inr (.inr rfl))
  have hcfg : ∀ k, e.fld (FAB_DCFG die) (14 + 3 * k) 3 = d.fld (FAB_DCFG die) (14 + 3 * k) 3 :=
    fun k => h.fld (.inr (.inl ⟨die, hd, .inl rfl⟩))
  unfold Dev.route
  simp only [h.devId, hrt, hcfg]

end

/-- A route names one of the three dimensions. -/
theorem route_dim {die dest cur dirn dim dir dl : Nat} (h : d.route die dest cur dirn = some (dim, dir, dl)) : dim < 3 := by
  unfold Dev.route at h
  dsimp only at h
  split at h
  · exact absurd h (by simp)
  · rename_i k r hk
    have hmem : k ∈ [0, 1, 2].filter (fun k => coordOf d.devId k != coordOf dest k) := by rw [hk]; exact List.mem_cons_self ..
    have : k = 0 ∨ k = 1 ∨ k = 2 := by simpa using (List.mem_filter.1 hmem).1
    have hdim : k = dim := congrArg Prod.fst (Option.some.inj h)
    omega

/-- A route ends at the device it leads to, and only there does it name no link. -/
theorem linkOf_carries {dim dir v o : Nat} (h : d.linkOf dim dir v = some o) : Carries d dim dir o := by
  unfold Dev.linkOf at h
  dsimp only at h
  split at h
  · exact absurd h (by simp)
  · rename_i hdir
    have hdir' : dir = 1 ∨ dir = 2 := by simp at hdir; omega
    generalize hpair : (decide (dim = 2) && d.flag (FAB_DCFG 1) 23 && d.portUp (2 * dim + (dir - 1) + 2)) = pair at h
    have hp : pair = true → dim = 2 ∧ d.flag (FAB_DCFG 1) 23 = true ∧ d.portUp (2 * dim + (dir - 1) + 2) = true := by
      intro e
      simpa [and_assoc, e] using hpair
    split at h
    · rename_i hup
      split at h
      · rename_i hc
        obtain ⟨h2, hw, hu⟩ := hp (by simp at hc; exact hc.1)
        obtain rfl := Option.some.inj h
        exact ⟨hdir', hu, .inr ⟨h2, hw, rfl⟩⟩
      · obtain rfl := Option.some.inj h
        exact ⟨hdir', hup, .inl rfl⟩
    · split at h
      · rename_i hc
        obtain ⟨h2, hw, hu⟩ := hp hc
        obtain rfl := Option.some.inj h
        exact ⟨hdir', hu, .inr ⟨h2, hw, rfl⟩⟩
      · exact absurd h (by simp)

theorem linkOf_none {dim dir v o : Nat} (h : d.linkOf dim dir v = none) : ¬ Carries d dim dir o := by
  rintro ⟨hdir, hup, ho⟩
  unfold Dev.linkOf at h
  dsimp only at h
  rw [if_neg (by simp; omega)] at h
  split at h
  · exact absurd h (by simp)
  · rename_i hn
    split at h
    · exact absurd h (by simp)
    · rename_i hp
      obtain rfl | ⟨h2, hw, rfl⟩ := ho
      · exact hn hup
      · rw [h2] at hup
        exact hp (by rw [h2, hw, hup]; rfl)

/-- In the first two dimensions a direction has one port. -/
theorem linkOf_of_carries {dim dir v o : Nat} (h : Carries d dim dir o) (hd : dim < 2) : d.linkOf dim dir v = some o := by
  obtain ⟨hdir, hup, ho⟩ := h
  obtain rfl | ⟨h2, -⟩ := ho
  · unfold Dev.linkOf
    dsimp only
    rw [if_neg (by simp; omega), if_pos hup, if_neg (by simp; omega)]
  · omega

theorem carries_lt {d : Dev} {dim dir o : Nat} (h : Carries d dim dir o) (hd : dim < 3) : o < 8 := by
  obtain ⟨hdir, -, ho⟩ := h
  omega

end Sys2Proof.Machine
end

section
/-! SUPPORT. Packets and class 0 flits sent onwards, and what comes in by a port (R236, R242 to R247, R255, R261, R262). -/

namespace Sys2Proof.Machine

open Sys2Proof

variable (d : Dev)

/-! ### Sending -/

/-- The dimension and the direction a packet is in on its way, from the input it stands in. -/
def inDim (src : Option (Nat × Nat)) : Nat := match src with | some x => min (x.1 / 2) 2 | none => 3
def inDir (src : Option (Nat × Nat)) (l : List Byte) : Nat := if src.isSome then bitsOf (byteAt l 1) 4 2 else 0

/-- The upper channel of its pair, for a packet that goes on in dimension `dim`, over a dateline where `dl` is 1 (R246). -/
def upOf (src : Option (Nat × Nat)) (l : List Byte) (dim dl : Nat) : Nat :=
  if pktClass l = 0 ∨ pktClass l = 4 ∨ pktClass l = 6 then 0 else max (if dim = inDim src then bitsOf (byteAt l 1) 3 1 else 0) dl

/-- The packet with its class, channel and direction in byte 1. -/
def onwards (src : Option (Nat × Nat)) (l : List Byte) (dim dir dl : Nat) : List Byte :=
  splice l 1 (leBytes 1 (pktClass l + 8 * upOf src l dim dl + 16 * dir))

theorem sendPacket_eq (die : Nat) (src : Option (Nat × Nat)) (err : Bool) (l : List Byte) {dim dir dl : Nat}
    (h : d.route die (pktDest l) (inDim src) (inDir src l) = some (dim, dir, dl)) : ∃ v,
    d.sendPacket die src err l = match d.linkOf dim dir v with
      | none => (d.leaveInput src (l.length / 64)).noRoute die
      | some q => d.enqueue die q { (default : Worm) with vc := v, src := src, err := err, data := onwards src l dim dir dl } := by
  refine ⟨vcOf (pktClass l) (pktType l) (upOf src l dim dl), ?_⟩
  have hup : (if (pktClass l = 0 || pktClass l = 4 || pktClass l = 6) = true then 0
      else max (if dim = inDim src then bitsOf (byteAt l 1) 3 1 else 0) dl) = upOf src l dim dl := by
    unfold upOf
    simp only [Bool.or_eq_true, decide_eq_true_eq, or_assoc]
  unfold Dev.sendPacket
  change (match d.route die (pktDest l) (inDim src) (inDir src l) with | none => d | some (dim, dir, dl) => _) = _
  rw [h]
  dsimp only
  unfold onwards
  rw [← hup]
  rfl

theorem sendPacket_keeps {die : Nat} (hd : die < 2) (src : Option (Nat × Nat)) (err : Bool) (l : List Byte) :
    LinkKeeps d (d.sendPacket die src err l) := by
  cases h : d.route die (pktDest l) (inDim src) (inDir src l) with
  | none =>
    have he : d.sendPacket die src err l = d := by
      unfold Dev.sendPacket
      change (match d.route die (pktDest l) (inDim src) (inDir src l) with | none => d | some (dim, dir, dl) => _) = d
      rw [h]
    rw [he]
    exact .refl d
  | some x =>
    obtain ⟨dim, dir, dl⟩ := x
    obtain ⟨v, he⟩ := sendPacket_eq d die src err l h
    rw [he]
    split
    · exact (leaveInput_still d _ _).moves.link.trans (noRoute_keeps _ hd)
    · rename_i q hq
      exact enqueue_keeps d (carries_lt (linkOf_carries d hq) (route_dim d h)) _

/-- Where a link carries it, the packet is under way by such a link. -/
theorem sendPacket_sent {die : Nat} (hd : die < 2) (src : Option (Nat × Nat)) (err : Bool) (l : List Byte) {dim dir dl : Nat}
    (h : d.route die (pktDest l) (inDim src) (inDir src l) = some (dim, dir, dl)) (hc : ∃ o, Carries d dim dir o)
    (hb : d.flag FLT_STAT 4 = false) :
    ∃ o, o < 8 ∧ Carries d dim dir o ∧ Underway (d.sendPacket die src err l) o (onwards src l dim dir dl) := by
  obtain ⟨v, he⟩ := sendPacket_eq d die src err l h
  rw [he]
  cases hl : d.linkOf dim dir v with
  | none => exact absurd hc.choose_spec (linkOf_none d hl)
  | some q =>
    have hq := linkOf_carries d hl
    have hlt := carries_lt hq (route_dim d h)
    exact ⟨q, hlt, hq, enqueue_underway d hd hlt rfl hb⟩

theorem sendPacket_lost {die : Nat} (src : Option (Nat × Nat)) (err : Bool) (l : List Byte) {dim dir dl : Nat}
    (h : d.route die (pktDest l) (inDim src) (inDir src l) = some (dim, dir, dl)) (hc : ¬ ∃ o, o < 8 ∧ Carries d dim dir o) :
    d.sendPacket die src err l = (d.leaveInput src (l.length / 64)).noRoute die := by
  obtain ⟨v, he⟩ := sendPacket_eq d die src err l h
  rw [he]
  cases hl : d.linkOf dim dir v with
  | none => rfl
  | some q =>
    have hq := linkOf_carries d hl
    exact absurd ⟨q, carries_lt hq (route_dim d h), hq⟩ hc

/-! ### Arrivals -/

/-- The registers that count what comes in by port `q`. -/
def ArriveReg (q a : Nat) : Prop :=
  a = FAB_PRXFLIT_LO (q / 4) (q % 4) ∨ a = FAB_PRXFLIT_HI (q / 4) (q % 4) ∨ a = FAB_PFECCORR_LO (q / 4) (q % 4) ∨
    a = FAB_PFECCORR_HI (q / 4) (q % 4)

theorem ArriveReg.place {q a : Nat} (hq : q < 8) : ArriveReg q a → 0x40000 ≤ a ∧ a < 0x60000 ∧ a % 0x10000 / 0x1000 = 1 ∧
    (a % 0x100 = 0x18 ∨ a % 0x100 = 0x1C ∨ a % 0x100 = 0x20 ∨ a % 0x100 = 0x24) := by
  unfold ArriveReg FAB_PRXFLIT_LO FAB_PRXFLIT_HI FAB_PFECCORR_LO FAB_PFECCORR_HI
  rintro (h | h | h | h) <;> omega

/-- The flits of a packet, idle units among them, have come in by port `q`. -/
structure Arrives (q n corr : Nat) (d e : Dev) : Prop where
  unlinked : e.unlinked = d.unlinked
  rg       : ∀ a, ¬ MoveReg a → ¬ ArriveReg q a → e.rg a = d.rg a
  flits    : e.rg64 (FAB_PRXFLIT_LO (q / 4) (q % 4)) = inc64 (d.rg64 (FAB_PRXFLIT_LO (q / 4) (q % 4))) n
  fec      : e.rg64 (FAB_PFECCORR_LO (q / 4) (q % 4)) = inc64 (d.rg64 (FAB_PFECCORR_LO (q / 4) (q % 4))) corr

theorem linkIn_arrives {q : Nat} (hq : q < 8) (tags : List Nat) (n corr : Nat) : Arrives q n corr d (d.linkIn q tags n corr).1 := by
  have hrx : ∀ k, k < 2 → FAB_PRXFLIT_LO (q / 4) (q % 4) + 4 * k ≠ FAB_PFECCORR_LO (q / 4) (q % 4) ∧
      FAB_PRXFLIT_LO (q / 4) (q % 4) + 4 * k ≠ FAB_PFECCORR_LO (q / 4) (q % 4) + 4 := fun k hk => by
    unfold FAB_PRXFLIT_LO FAB_PFECCORR_LO; omega
  have hplace : ∀ a, ArriveReg q a → ¬ MoveReg a := fun a ha hm => by
    have := ha.place hq
    have := hm.place
    omega
  have hhi : ∀ a, a = FAB_PRXFLIT_LO (q / 4) (q % 4) + 4 ∨ a = FAB_PFECCORR_LO (q / 4) (q % 4) + 4 → ArriveReg q a := by
    unfold ArriveReg FAB_PRXFLIT_LO FAB_PRXFLIT_HI FAB_PFECCORR_LO FAB_PFECCORR_HI
    intro a h
    omega
  obtain ⟨r1, h1⟩ := bump64_regs_only d (FAB_PRXFLIT_LO (q / 4) (q % 4)) n
  obtain ⟨r2, h2⟩ := bump64_regs_only (d.bump64 (FAB_PRXFLIT_LO (q / 4) (q % 4)) n) (FAB_PFECCORR_LO (q / 4) (q % 4)) corr
  unfold Dev.linkIn
  dsimp only
  generalize he : Dev.setOport _ q _ = e
  have hp := pump_moves e
  have hrg : ∀ a, e.rg a = ((d.bump64 (FAB_PRXFLIT_LO (q / 4) (q % 4)) n).bump64 (FAB_PFECCORR_LO (q / 4) (q % 4)) corr).rg a :=
    fun a => by subst he; rfl
  have hpair : ∀ a, ArriveReg q a → ArriveReg q (a + 4) → e.pump.rg64 a = e.rg64 a :=
    fun a ha ha' => rg64_congr (hp.rg a (hplace a ha)) (hp.rg _ (hplace _ ha'))
  refine ⟨hp.unlinked.trans (by subst he; rw [h2, h1]; rfl), fun a hm ha => ?_, ?_, ?_⟩
  · rw [hp.rg a hm, hrg, rg_bump64_ne, rg_bump64_ne]
    · exact ⟨fun e => ha (.inl e), fun e => ha (hhi a (.inl e))⟩
    · exact ⟨fun e => ha (.inr (.inr (.inl e))), fun e => ha (hhi a (.inr e))⟩
  · rw [hpair _ (.inl rfl) (hhi _ (.inl rfl)), rg64_congr (hrg _) (hrg _), ← rg64_bump64_same]
    exact rg64_congr (rg_bump64_ne _ _ (hrx 0 (by decide))) (rg_bump64_ne _ _ (hrx 1 (by decide)))
  · rw [hpair _ (.inr (.inr (.inl rfl))) (hhi _ (.inr rfl)), rg64_congr (hrg _) (hrg _), rg64_bump64_same]
    congr 1
    exact rg64_congr (rg_bump64_ne _ _ ⟨fun e => (hrx 0 (by decide)).1 e.symm, fun e => (hrx 1 (by decide)).1 e.symm⟩)
      (rg_bump64_ne _ _ (by unfold FAB_PRXFLIT_LO FAB_PFECCORR_LO; omega))

/-- The flits that come carry an error where their marks or tags say so. -/
theorem linkIn_bad {q : Nat} (tags : List Nat) (n corr : Nat) : (d.linkIn q tags n corr).2 = false ↔ FlitsOk d q tags := by
  simp [Dev.linkIn, FlitsOk, imp_iff_not_or, or_comm]

theorem ArriveReg.inReg {q a : Nat} : ArriveReg q a → InReg q a := .inr

end Sys2Proof.Machine
end

section
/-! SUPPORT. What has come in by a port: the flits counted, a failed check counted, and the input buffer left again (R255, R262). -/

namespace Sys2Proof.Machine

open Sys2Proof

variable (d : Dev)

/-- `n` flits have come in by port `q`, and where `crc` a check there has failed. -/
structure HasCome (q n corr : Nat) (crc : Bool) (d e : Dev) : Prop where
  unlinked : e.unlinked = d.unlinked
  rg       : ∀ a, ¬ MoveReg a → ¬ ArriveReg q a → a ≠ FAB_PCRCERR (q / 4) (q % 4) → e.rg a = d.rg a
  flits    : e.rg64 (FAB_PRXFLIT_LO (q / 4) (q % 4)) = inc64 (d.rg64 (FAB_PRXFLIT_LO (q / 4) (q % 4))) n
  fec      : e.rg64 (FAB_PFECCORR_LO (q / 4) (q % 4)) = inc64 (d.rg64 (FAB_PFECCORR_LO (q / 4) (q % 4))) corr
  crcerr   : e.rg (FAB_PCRCERR (q / 4) (q % 4)) =
    if crc then satInc (d.rg (FAB_PCRCERR (q / 4) (q % 4))) 1 % 2 ^ 32 else d.rg (FAB_PCRCERR (q / 4) (q % 4))

theorem pcrcerr_place {q : Nat} (hq : q < 8) : 0x40000 ≤ FAB_PCRCERR (q / 4) (q % 4) ∧ FAB_PCRCERR (q / 4) (q % 4) < 0x60000 ∧
    FAB_PCRCERR (q / 4) (q % 4) % 0x10000 / 0x1000 = 1 ∧ FAB_PCRCERR (q / 4) (q % 4) % 0x100 = 0x2C := by
  unfold FAB_PCRCERR; omega

theorem pcrcerr_own {q : Nat} (hq : q < 8) : ¬ MoveReg (FAB_PCRCERR (q / 4) (q % 4)) ∧ ¬ ArriveReg q (FAB_PCRCERR (q / 4) (q % 4)) := by
  have hp := pcrcerr_place hq
  refine ⟨fun h => ?_, fun h => ?_⟩
  · have := h.place; omega
  · have := h.place hq; omega

/-- The two counters of 64 bits lie apart from all else. -/
theorem arriveReg_pairs (q : Nat) : ArriveReg q (FAB_PRXFLIT_LO (q / 4) (q % 4)) ∧ ArriveReg q (FAB_PRXFLIT_LO (q / 4) (q % 4) + 4) ∧
    ArriveReg q (FAB_PFECCORR_LO (q / 4) (q % 4)) ∧ ArriveReg q (FAB_PFECCORR_LO (q / 4) (q % 4) + 4) := by
  unfold ArriveReg FAB_PRXFLIT_LO FAB_PRXFLIT_HI FAB_PFECCORR_LO FAB_PFECCORR_HI
  omega

theorem ArriveReg.not_moveReg {q a : Nat} (hq : q < 8) (h : ArriveReg q a) : ¬ MoveReg a := fun hm => by
  have := h.place hq
  have := hm.place
  omega

theorem Arrives.hasCome {d e : Dev} {q n corr : Nat} (hq : q < 8) (h : Arrives q n corr d e) : HasCome q n corr false d e :=
  ⟨h.unlinked, fun a hm ha _ => h.rg a hm ha, h.flits, h.fec, h.rg _ (pcrcerr_own hq).1 (pcrcerr_own hq).2⟩

/-- Leaving the input buffer changes none of it. -/
theorem HasCome.still {d e f : Dev} {q n corr : Nat} {crc : Bool} (hq : q < 8) (h : HasCome q n corr crc d e) (g : Still e f) :
    HasCome q n corr crc d f := by
  obtain ⟨hrx, hrx', hfc, hfc'⟩ := arriveReg_pairs q
  refine ⟨g.unlinked.trans h.unlinked, fun a hm ha hc => (g.rg a hm).trans (h.rg a hm ha hc), ?_, ?_, ?_⟩
  · rw [← h.flits]; exact rg64_congr (g.rg _ (hrx.not_moveReg hq)) (g.rg _ (hrx'.not_moveReg hq))
  · rw [← h.fec]; exact rg64_congr (g.rg _ (hfc.not_moveReg hq)) (g.rg _ (hfc'.not_moveReg hq))
  · rw [← h.crcerr]; exact g.rg _ (pcrcerr_own hq).1

/-- A check fails at the port's input. -/
theorem HasCome.crcFail {d e : Dev} {q n corr : Nat} (hq : q < 8) (h : HasCome q n corr false d e) :
    HasCome q n corr true d (e.crcFail q) := by
  obtain ⟨hrx, hrx', hfc, hfc'⟩ := arriveReg_pairs q
  obtain ⟨-, hown⟩ := pcrcerr_own hq
  have hrg : ∀ a, a ≠ FAB_PCRCERR (q / 4) (q % 4) → (e.crcFail q).rg a = e.rg a := fun a ha => rg_bump_ne _ ha
  have hne : ∀ a, ArriveReg q a → (e.crcFail q).rg a = e.rg a := fun a ha => hrg a (fun x => hown (x ▸ ha))
  refine ⟨h.unlinked, fun a hm ha hc => (hrg a hc).trans (h.rg a hm ha hc), ?_, ?_, ?_⟩
  · rw [← h.flits]; exact rg64_congr (hne _ hrx) (hne _ hrx')
  · rw [← h.fec]; exact rg64_congr (hne _ hfc) (hne _ hfc')
  · have hc := h.crcerr
    simp only [Bool.false_eq_true, if_false] at hc
    rw [if_pos rfl, ← hc]
    exact rg_bump_same _ _ _

theorem HasCome.routes {d e : Dev} {q n corr : Nat} {crc : Bool} (hq : q < 8) (h : HasCome q n corr crc d e) : SameRoutes d e := by
  intro a ha
  have hp := ha.place
  have hc := pcrcerr_place hq
  refine h.rg a (fun hm => ha.not_link hm.linkReg) (fun hr => ?_) (fun e => ?_)
  · have := hr.place hq; omega
  · rw [← e] at hc; omega

/-- What has come by port `q`, in the registers a statement names. -/
theorem HasCome.rg_in {d e : Dev} {q n corr : Nat} {crc : Bool} (h : HasCome q n corr crc d e) {a : Nat} (ha : ¬ InReg q a)
    (hc : crc = true → a ≠ FAB_PCRCERR (q / 4) (q % 4)) : e.rg a = d.rg a := by
  have hm : ¬ MoveReg a := fun hm => ha (.inl hm.linkReg)
  by_cases hcrc : a = FAB_PCRCERR (q / 4) (q % 4)
  · cases crc with
    | true => exact absurd hcrc (hc rfl)
    | false => rw [hcrc]; exact h.crcerr
  · exact h.rg a hm (fun hr => ha hr.inReg) hcrc

/-- No register that follows the state is a port's. -/
theorem followReg_place {a : Nat} (h : FollowReg a) : a < 0x40000 ∨ 0x60000 ≤ a := by
  unfold FollowReg FLT_STAT TAB_BSTAT FLT_PMUTE TAB_CHSTAT PWR_DSTAT at h
  obtain h | ⟨p, hp, h⟩ | ⟨x, hx, h⟩ := h <;> omega

theorem rg_finish_port (d : Dev) {a : Nat} (h : 0x40000 ≤ a ∧ a < 0x60000) : d.finish.rg a = d.rg a :=
  rg_finish d (fun hf => by have := followReg_place hf; omega)

/-- The packet of port `q` has come in, and left the input buffer. -/
def Dev.inFrom (q : Nat) (tags : List Nat) (l : List Byte) (corr : Nat) : Dev :=
  if pktGood l then (d.linkIn q tags (l.length / 64) corr).1 else (d.linkIn q tags (l.length / 64) corr).1.crcFail q

theorem inFrom_hasCome {q : Nat} (hq : q < 8) (tags : List Nat) (l : List Byte) (corr : Nat) :
    HasCome q (l.length / 64) corr (! pktGood l) d (d.inFrom q tags l corr) := by
  have h := (linkIn_arrives d hq tags (l.length / 64) corr).hasCome hq
  unfold Dev.inFrom
  cases pktGood l with
  | true => exact h
  | false => exact h.crcFail hq

/-- Whether a packet that came is in error. -/
theorem packet_bad {q : Nat} (tags : List Nat) (l : List Byte) (corr : Nat) :
    ((d.linkIn q tags (l.length / 64) corr).2 || ! pktGood l) = false ↔ FlitsOk d q tags ∧ pktGood l = true := by
  rw [Bool.or_eq_false_iff, linkIn_bad, Bool.not_eq_false']

end Sys2Proof.Machine
end

section
/-! SUPPORT. PACKET_FORWARD of packets for this device (R240, R244, R248, R255). -/

namespace Sys2Proof.Machine

open Sys2Proof

variable (d : Dev)

theorem exec_packetForward (q : Nat) (l : List Byte) (x : LinkIn) (s : State) :
    exec (.packetForward q l x) s = s.run (·.packetForward q x.tags l x.corr) := rfl

/-- A packet for this device leaves the input buffer; it is discarded where it is in error. -/
theorem packetForward_here {q : Nat} (hq : q < 8) (tags : List Nat) (l : List Byte) (corr : Nat)
    (h : pktDest l = d.devId ∨ pktClass l = 4 ∨ pktClass l = 6) : ∃ e, HasCome q (l.length / 64) corr (! pktGood l) d e ∧
    (FlitsOk d q tags → pktGood l = true → d.packetForward q tags l corr = e.packetHere q l) ∧
    (¬ FlitsOk d q tags ∨ pktGood l = false → d.packetForward q tags l corr = e.crcDiscard (q / 4)) := by
  have hin := inFrom_hasCome d hq tags l corr
  have hcome := hin.still hq (leaveInput_still _ (some (q, tagsVc tags)) (l.length / 64))
  refine ⟨_, hcome, ?_⟩
  have hdev : (d.inFrom q tags l corr).devId = d.devId := (hin.routes hq).devId
  have hhere : (pktDest l = (d.inFrom q tags l corr).devId || pktClass l = 4 || pktClass l = 6) = true := by
    rw [hdev]; simpa [or_assoc] using h
  have he : d.packetForward q tags l corr = if ((d.linkIn q tags (l.length / 64) corr).2 || ! pktGood l) = true
      then ((d.inFrom q tags l corr).leaveInput (some (q, tagsVc tags)) (l.length / 64)).crcDiscard (q / 4)
      else ((d.inFrom q tags l corr).leaveInput (some (q, tagsVc tags)) (l.length / 64)).packetHere q l := by
    unfold Dev.packetForward
    dsimp only
    change (if (pktDest l = (d.inFrom q tags l corr).devId || pktClass l = 4 || pktClass l = 6) = true then _ else _) = _
    rw [hhere]
    rfl
  rw [he]
  have hbad := packet_bad d (q := q) tags l corr
  constructor
  · intro hf hg
    rw [hbad.2 ⟨hf, hg⟩]
    rfl
  · intro hx
    refine if_pos (Bool.eq_true_of_not_eq_false (fun hn => ?_))
    obtain ⟨hf, hg⟩ := hbad.1 hn
    obtain h | h := hx
    · exact h hf
    · rw [hg] at h; exact absurd h (by decide)

variable {d}

/-- What comes in leaves memory, its ECC state and the units. -/
theorem HasCome.keeps_finish {e f : Dev} {q n corr : Nat} {crc : Bool} (h : HasCome q n corr crc d e) {w : Nat → Prop}
    (hmem : f.mem = e.mem) (hecc : f.ecc = e.ecc) (hu : f.units = e.units) (hr : ∀ a, ¬ w a → f.rg a = e.rg a)
    (hw : ∀ a, ¬ w a → ¬ InReg q a ∧ (crc = true → a ≠ FAB_PCRCERR (q / 4) (q % 4))) :
    Keeps d f.finish w ∧ SameUnits d f.finish :=
  Machine.keeps_finish (hmem.trans (congrArg Dev.mem h.unlinked :)) (hecc.trans (congrArg Dev.ecc h.unlinked :))
    (hu.trans (congrArg Dev.units h.unlinked :)) (fun a ha => (hr a ha).trans (h.rg_in (hw a ha).1 (hw a ha).2))

theorem HasCome.net {e : Dev} {q n corr : Nat} {crc : Bool} (h : HasCome q n corr crc d e) : e.net = d.net :=
  (congrArg Dev.net h.unlinked :)
theorem HasCome.inbox {e : Dev} {q n corr : Nat} {crc : Bool} (h : HasCome q n corr crc d e) : e.inbox = d.inbox :=
  (congrArg Dev.inbox h.unlinked :)
theorem HasCome.mgmtDrop {e : Dev} {q n corr : Nat} {crc : Bool} (h : HasCome q n corr crc d e) : e.car.mgmtDrop = d.car.mgmtDrop :=
  (congrArg (·.car.mgmtDrop) h.unlinked :)

/-- A good packet that is no EVENTS packet and none of management (R240, R244). -/
theorem packetForward_waits_runs (s : State) {q corr : Nat} {tags : List Nat} {l : List Byte} (hq : q < 8) (hf : FlitsOk s.dev q tags)
    (hd : pktDest l = s.dev.devId ∨ pktClass l = 4) (hg : pktGood l = true) (ht : pktType l ≠ 0x01) (hc : pktClass l ≠ 6) :
    Runs (.packetForward q l ⟨tags, corr⟩) s (fun e => e.inbox = s.dev.inbox ++ [l] ∧ e.net = s.dev.net ∧
      e.rg64 (FAB_PRXFLIT_LO (q / 4) (q % 4)) = inc64 (s.dev.rg64 (FAB_PRXFLIT_LO (q / 4) (q % 4))) (l.length / 64) ∧
      e.rg64 (FAB_PFECCORR_LO (q / 4) (q % 4)) = inc64 (s.dev.rg64 (FAB_PFECCORR_LO (q / 4) (q % 4))) corr ∧
      Keeps s.dev e (fun a => InReg q a) ∧ SameUnits s.dev e) := by
  rw [runs_iff (exec_packetForward q l ⟨tags, corr⟩ s)]
  obtain ⟨e, hcome, hgood, -⟩ := packetForward_here s.dev hq tags l corr (hd.imp_right .inl)
  rw [hg] at hcome
  rw [hgood hf hg]
  have he : e.packetHere q l = { e with inbox := e.inbox ++ [l] } := by
    unfold Dev.packetHere
    simp [ht, hc]
  rw [he, finish_inbox, finish_net]
  refine ⟨by rw [← hcome.inbox], hcome.net, ?_, ?_, hcome.keeps_finish rfl rfl rfl (fun _ _ => rfl) (fun a ha => ⟨ha, by simp⟩)⟩
  · rw [← hcome.flits]
    exact rg64_congr (rg_finish_port _ (by unfold FAB_PRXFLIT_LO; omega)) (rg_finish_port _ (by unfold FAB_PRXFLIT_LO; omega))
  · rw [← hcome.fec]
    exact rg64_congr (rg_finish_port _ (by unfold FAB_PFECCORR_LO; omega)) (rg_finish_port _ (by unfold FAB_PFECCORR_LO; omega))

/-- A management packet waits for Carillon while there is room (R248). -/
theorem packetForward_mgmt_runs (s : State) {q corr : Nat} {tags : List Nat} {l : List Byte} (hq : q < 8) (hf : FlitsOk s.dev q tags)
    (hg : pktGood l = true) (ht : pktType l ≠ 0x01) (hc : pktClass l = 6) :
    Runs (.packetForward q l ⟨tags, corr⟩) s (fun e => e.inbox = (if Config.mgmtRoom ≤
      (s.dev.inbox.filter (fun x => pktClass x == 6)).length then s.dev.inbox else s.dev.inbox ++ [l]) ∧ e.car.mgmtDrop = (if
      Config.mgmtRoom ≤ (s.dev.inbox.filter (fun x => pktClass x == 6)).length then s.dev.car.mgmtDrop + 1 else
      s.dev.car.mgmtDrop) ∧ e.net = s.dev.net ∧ Keeps s.dev e (fun a => InReg q a) ∧ SameUnits s.dev e) := by
  rw [runs_iff (exec_packetForward q l ⟨tags, corr⟩ s)]
  obtain ⟨e, hcome, hgood, -⟩ := packetForward_here s.dev hq tags l corr (.inr (.inr hc))
  rw [hg] at hcome
  rw [hgood hf hg, ← hcome.inbox, ← hcome.mgmtDrop, ← hcome.net]
  unfold Dev.packetHere
  dsimp only
  rw [if_neg ht]
  by_cases hroom : Config.mgmtRoom ≤ (e.inbox.filter (fun x => pktClass x == 6)).length
  · rw [if_pos (by simpa [hc] using hroom), if_pos hroom, if_pos hroom, finish_inbox, finish_net, finish_car]
    exact ⟨rfl, rfl, rfl, hcome.keeps_finish rfl rfl rfl (fun _ _ => rfl) (fun a ha => ⟨ha, by simp⟩)⟩
  · rw [if_neg (by simpa [hc] using hroom), if_neg hroom, if_neg hroom, finish_inbox, finish_net, finish_car]
    exact ⟨rfl, rfl, rfl, hcome.keeps_finish rfl rfl rfl (fun _ _ => rfl) (fun a ha => ⟨ha, by simp⟩)⟩

theorem leAt_drop (l : List Byte) (j k n : Nat) : leAt (l.drop j) k n = leAt l (j + k) n := by
  unfold leAt; rw [List.drop_drop]

/-- An EVENTS packet's records go on to their region (R237, R239). -/
theorem packetForward_events_runs (s : State) {q corr : Nat} {tags : List Nat} {l : List Byte} (hq : q < 8) (hf : FlitsOk s.dev q tags)
    (hd : pktDest l = s.dev.devId) (hg : pktGood l = true) (ht : pktType l = 0x01)
    (hb : s.dev.flag FLT_STAT 4 = false ∨ q / 4 = dieOf (pktReg l)) :
    Runs (.packetForward q l ⟨tags, corr⟩) s (fun e => e.net = s.dev.net ++ eventsOf (leAt l 16 2) ((upTo (leAt l 18 2)).map
      (fun i => leAt l (64 + 8 * i) 8)) ∧ e.inbox = s.dev.inbox ∧ Keeps s.dev e (fun a => InReg q a) ∧ SameUnits s.dev e) := by
  rw [runs_iff (exec_packetForward q l ⟨tags, corr⟩ s)]
  obtain ⟨e, hcome, hgood, -⟩ := packetForward_here s.dev hq tags l corr (.inl hd)
  rw [hg] at hcome
  rw [hgood hf hg, ← hcome.inbox, ← hcome.net]
  unfold Dev.packetHere
  dsimp only
  rw [if_pos ht, if_neg]
  · have hrecs : (upTo (leAt l 18 2)).map (fun i => leAt (pktPay l) (8 * i) 8) =
        (upTo (leAt l 18 2)).map (fun i => leAt l (64 + 8 * i) 8) :=
      List.map_congr_left (fun i _ => leAt_drop l 64 (8 * i) 8)
    rw [hrecs, finish_inbox, finish_net]
    have hstill : Still e (if (portDie q != dieOf (pktReg l)) = true then e.bump64 (FAB_BRFLIT_LO (portDie q)) (l.length / 64) else e) := by
      split
      · exact bump64_still e _ (moveReg_bridge (show q / 4 < 2 by omega))
      · exact .refl e
    generalize (if (portDie q != dieOf (pktReg l)) = true then e.bump64 (FAB_BRFLIT_LO (portDie q)) (l.length / 64) else e) = f at *
    have hun := hstill.unlinked
    refine ⟨congrArg (· ++ _) (congrArg Dev.net hun :), (congrArg Dev.inbox hun :), hcome.keeps_finish (congrArg Dev.mem hun :)
      (congrArg Dev.ecc hun :) (congrArg Dev.units hun :) (fun a ha => hstill.rg a (fun hm => ha (.inl hm.linkReg)))
      (fun a ha => ⟨ha, by simp⟩)⟩
  · rw [(hcome.routes hq).bridge]
    unfold portDie
    rintro h
    simp only [Bool.and_eq_true, bne_iff_ne] at h
    obtain hb | hb := hb
    · rw [hb] at h; exact absurd h.2 (by decide)
    · exact h.1 hb

theorem crcDisc_place {k : Nat} (hk : k < 2) : 0x40000 ≤ FAB_CRCDISC k ∧ FAB_CRCDISC k < 0x60000 ∧ FAB_CRCDISC k % 0x10000 = 0x20 := by
  unfold FAB_CRCDISC; omega

theorem InReg.place {q a : Nat} (hq : q < 8) : InReg q a → (0xA0000 ≤ a ∧ a < 0xB0000 ∨ 0xD0000 ≤ a ∧ a < 0xE0000 ∨
    0x100000 ≤ a ∧ a < 0x200000) ∨ 0x40000 ≤ a ∧ a < 0x60000 ∧ (a % 0x10000 = 4 ∨ a % 0x10000 = 0x1C ∨ a % 0x10000 = 0x34 ∨
      a % 0x10000 = 0x40 ∨ a % 0x10000 = 0x44 ∨ a % 0x10000 / 0x1000 = 1 ∧ (a % 0x100 = 0x10 ∨ a % 0x100 = 0x14 ∨ a % 0x100 = 0x30 ∨
      a % 0x100 = 0x18 ∨ a % 0x100 = 0x1C ∨ a % 0x100 = 0x20 ∨ a % 0x100 = 0x24))
  | .inl h => by have := LinkReg.place h; omega
  | .inr h => by have := ArriveReg.place hq h; omega

/-- A packet for this device that is in error is discarded and counted (R255). -/
theorem packetForward_bad_runs (s : State) {q corr : Nat} {tags : List Nat} {l : List Byte} (hq : q < 8)
    (hd : pktDest l = s.dev.devId ∨ pktClass l = 4 ∨ pktClass l = 6) (hb : ¬ FlitsOk s.dev q tags ∨ pktGood l = false) :
    Runs (.packetForward q l ⟨tags, corr⟩) s (fun e => e.rg (FAB_CRCDISC (q / 4)) = satInc (s.dev.rg (FAB_CRCDISC (q / 4))) 1 % 2 ^ 32 ∧
      e.rg (FAB_PCRCERR (q / 4) (q % 4)) = (if pktGood l then s.dev.rg (FAB_PCRCERR (q / 4) (q % 4))
        else satInc (s.dev.rg (FAB_PCRCERR (q / 4) (q % 4))) 1 % 2 ^ 32) ∧ e.net = s.dev.net ∧ e.inbox = s.dev.inbox ∧
      Keeps s.dev e (fun a => InReg q a ∨ a = FAB_CRCDISC (q / 4) ∨ a = FAB_PCRCERR (q / 4) (q % 4)) ∧ SameUnits s.dev e) := by
  rw [runs_iff (exec_packetForward q l ⟨tags, corr⟩ s)]
  obtain ⟨e, hcome, -, hbad⟩ := packetForward_here s.dev hq tags l corr hd
  have hdisc := crcDisc_place (show q / 4 < 2 by omega)
  have herr := pcrcerr_place hq
  have hnot : ¬ InReg q (FAB_CRCDISC (q / 4)) := fun h => by have := InReg.place hq h; omega
  have hne : FAB_CRCDISC (q / 4) ≠ FAB_PCRCERR (q / 4) (q % 4) := by omega
  rw [hbad hb, finish_net, finish_inbox, rg_finish_port _ (by omega), rg_finish_port _ (by omega)]
  refine ⟨?_, ?_, hcome.net, hcome.inbox, hcome.keeps_finish rfl rfl rfl (fun a ha => rg_bump_ne _ (fun x => ha (.inr (.inl x))))
    (fun a ha => ⟨fun x => ha (.inl x), fun _ x => ha (.inr (.inr x))⟩)⟩
  · rw [← hcome.rg_in hnot (fun _ => hne)]
    exact rg_bump_same _ _ _
  · rw [show (e.crcDiscard (q / 4)).rg (FAB_PCRCERR (q / 4) (q % 4)) = e.rg (FAB_PCRCERR (q / 4) (q % 4)) from rg_bump_ne _ hne.symm,
      hcome.crcerr]
    cases pktGood l <;> rfl

end Sys2Proof.Machine
end

section
/-! SUPPORT. PACKET_FORWARD of packets for other devices: onwards by the route, lost where no link carries it, or an address error (R38,
R39, R243 to R247). -/

namespace Sys2Proof.Machine

open Sys2Proof

variable (d : Dev)

/-- A packet for another device is a request with an address error, or goes on from the input it stands in. -/
theorem packetForward_other {q : Nat} (hq : q < 8) (tags : List Nat) (l : List Byte) (corr : Nat)
    (h : pktDest l ≠ d.devId) (hc : pktClass l ≠ 4 ∧ pktClass l ≠ 6) :
    d.packetForward q tags l corr =
      if isRequest (pktType l) = true ∧ FlitsOk d q tags ∧ pktGood l = true ∧ d.badAddress l = true
      then ((d.inFrom q tags l corr).leaveInput (some (q, tagsVc tags)) (l.length / 64)).addressError (q / 4) l
      else (d.inFrom q tags l corr).sendPacket (q / 4) (some (q, tagsVc tags))
        ((d.linkIn q tags (l.length / 64) corr).2 || ! pktGood l) l := by
  have hin := inFrom_hasCome d hq tags l corr
  have hdev : (d.inFrom q tags l corr).devId = d.devId := (hin.routes hq).devId
  have hfab : (d.inFrom q tags l corr).fabDevs = d.fabDevs := (congrArg Dev.fabDevs hin.unlinked :)
  have haddr : (d.inFrom q tags l corr).badAddress l = d.badAddress l := by
    unfold Dev.badAddress Dev.present; rw [hdev, hfab]
  have hhere : ¬ (pktDest l = (d.inFrom q tags l corr).devId || pktClass l = 4 || pktClass l = 6) = true := by
    rw [hdev]; simp [h, hc]
  have hbad := packet_bad d (q := q) tags l corr
  unfold Dev.packetForward
  dsimp only
  change (if (pktDest l = (d.inFrom q tags l corr).devId || pktClass l = 4 || pktClass l = 6) = true then _
    else if (isRequest (pktType l) && ! ((d.linkIn q tags (l.length / 64) corr).2 || ! pktGood l) &&
      (d.inFrom q tags l corr).badAddress l) = true then
        ((d.inFrom q tags l corr).leaveInput (some (q, tagsVc tags)) (l.length / 64)).addressError (q / 4) l
      else (d.inFrom q tags l corr).sendPacket (q / 4) (some (q, tagsVc tags))
        ((d.linkIn q tags (l.length / 64) corr).2 || ! pktGood l) l) = _
  rw [if_neg hhere, haddr]
  refine if_congr ?_ rfl rfl
  rw [Bool.and_eq_true, Bool.and_eq_true, Bool.not_eq_true', hbad]
  constructor
  · rintro ⟨⟨h1, h2, h3⟩, h4⟩; exact ⟨h1, h2, h3, h4⟩
  · rintro ⟨h1, h2, h3, h4⟩; exact ⟨⟨h1, h2, h3⟩, h4⟩

/-- The packet as it goes on, in the words of the statement. -/
theorem onwards_eq {q v : Nat} {l : List Byte} {dim dir dl : Nat} (hc : pktClass l ≠ 4 ∧ pktClass l ≠ 6) :
    onwards (some (q, v)) l dim dir dl = splice l 1 (leBytes 1 (pktClass l + 8 * (if pktClass l = 0 then 0 else
      max (if dim = min (q / 2) 2 then bitsOf (byteAt l 1) 3 1 else 0) dl) + 16 * dir)) := by
  unfold onwards upOf inDim
  simp [hc]

/-- It has come in, and what followed was going out. -/
theorem HasCome.link_keeps {d e f : Dev} {q n corr : Nat} {crc : Bool} (h : HasCome q n corr crc d e) (g : LinkKeeps e f) :
    f.finish.net = d.net ∧ f.finish.inbox = d.inbox ∧
    RegKeeps d f.finish (fun a => InReg q a ∨ a = FAB_PCRCERR (q / 4) (q % 4)) ∧ SameMem d f.finish ∧ SameUnits d f.finish := by
  obtain ⟨⟨hregs, hmem, -⟩, hunits⟩ := h.keeps_finish (w := fun a => InReg q a ∨ a = FAB_PCRCERR (q / 4) (q % 4)) g.mem g.ecc g.units
    (fun a ha => g.rg a (fun x => ha (.inl (.inl x)))) (fun a ha => ⟨fun x => ha (.inl x), fun _ x => ha (.inr x)⟩)
  exact ⟨(finish_net f).trans (g.net.trans h.net), (finish_inbox f).trans (g.inbox.trans h.inbox), hregs, hmem, hunits⟩

theorem sentOn_finish {e : Dev} {q : Nat} {l : List Byte} (h : SentOn e q l) : SentOn e.finish q l := by
  unfold SentOn Dev.oport at *
  rw [finish_oports, finish_out]
  exact h

section
variable (s : State) {q corr dim dir dl : Nat} {tags : List Nat} {l : List Byte} (hq : q < 8) (hd : pktDest l ≠ s.dev.devId)
  (hc : pktClass l ≠ 4 ∧ pktClass l ≠ 6)
  (hr : isRequest (pktType l) = false ∨ pktGood l = false ∨ ¬ FlitsOk s.dev q tags ∨ s.dev.badAddress l = false)
  (hroute : s.dev.route (q / 4) (pktDest l) (min (q / 2) 2) (bitsOf (byteAt l 1) 4 2) = some (dim, dir, dl))
include hq hd hc hr

omit hq in
/-- No address error: it goes on. -/
theorem packetForward_onwards (hq : q < 8) : s.dev.packetForward q tags l corr = (s.dev.inFrom q tags l corr).sendPacket (q / 4)
    (some (q, tagsVc tags)) ((s.dev.linkIn q tags (l.length / 64) corr).2 || ! pktGood l) l := by
  rw [packetForward_other s.dev hq tags l corr hd hc, if_neg]
  rintro ⟨h1, h2, h3, h4⟩
  obtain h | h | h | h := hr
  · rw [h1] at h; exact absurd h (by decide)
  · rw [h3] at h; exact absurd h (by decide)
  · exact h h2
  · rw [h4] at h; exact absurd h (by decide)

include hroute

/-- Onwards by a link of the route (R236, R243 to R247). -/
theorem packetForward_sent_runs (ho : ∃ o, o < 8 ∧ Carries s.dev dim dir o) (hb : s.dev.flag FLT_STAT 4 = false) :
    Runs (.packetForward q l ⟨tags, corr⟩) s (fun e => (∃ o, Carries s.dev dim dir o ∧ SentOn e o (splice l 1 (leBytes 1
      (pktClass l + 8 * (if pktClass l = 0 then 0 else max (if dim = min (q / 2) 2 then bitsOf (byteAt l 1) 3 1 else 0) dl) +
      16 * dir)))) ∧ e.net = s.dev.net ∧ e.inbox = s.dev.inbox ∧
      RegKeeps s.dev e (fun a => InReg q a ∨ a = FAB_PCRCERR (q / 4) (q % 4)) ∧ SameMem s.dev e ∧ SameUnits s.dev e) := by
  have hdie : q / 4 < 2 := by omega
  have hin := inFrom_hasCome s.dev hq tags l corr
  have hsame := hin.routes hq
  rw [runs_iff (exec_packetForward q l ⟨tags, corr⟩ s), packetForward_onwards s hd hc hr hq]
  refine ⟨?_, hin.link_keeps (sendPacket_keeps _ hdie _ _ _)⟩
  obtain ⟨o, ho8, hcar⟩ := ho
  obtain ⟨o', ho', hcar', hu⟩ := sendPacket_sent _ hdie (some (q, tagsVc tags))
    ((s.dev.linkIn q tags (l.length / 64) corr).2 || ! pktGood l) l ((hsame.route hdie _ _ _).trans hroute)
    ⟨o, (hsame.carries ho8).2 hcar⟩ (hsame.bridge.trans hb)
  rw [onwards_eq hc] at hu
  exact ⟨o', (hsame.carries ho').1 hcar', sentOn_finish hu.sentOn⟩

/-- Lost where no link carries it (R244, R247). -/
theorem packetForward_lost_runs (ho : ¬ ∃ o, o < 8 ∧ Carries s.dev dim dir o) :
    Runs (.packetForward q l ⟨tags, corr⟩) s (fun e => e.rg (FAB_NOROUTE (q / 4)) = satInc (s.dev.rg (FAB_NOROUTE (q / 4))) 1 % 2 ^ 32 ∧
      e.flag (FAB_DSTAT (q / 4)) 2 = true ∧ e.net = s.dev.net ∧ e.inbox = s.dev.inbox ∧
      RegKeeps s.dev e (fun a => InReg q a ∨ a = FAB_PCRCERR (q / 4) (q % 4)) ∧ SameMem s.dev e ∧ SameUnits s.dev e) := by
  have hdie : q / 4 < 2 := by omega
  have hin := inFrom_hasCome s.dev hq tags l corr
  have hsame := hin.routes hq
  have hlost := sendPacket_lost (s.dev.inFrom q tags l corr) (some (q, tagsVc tags))
    ((s.dev.linkIn q tags (l.length / 64) corr).2 || ! pktGood l) l ((hsame.route hdie _ _ _).trans hroute)
    (fun ⟨o, ho8, hcar⟩ => ho ⟨o, ho8, (hsame.carries ho8).1 hcar⟩)
  have hn : FAB_NOROUTE (q / 4) = 0x40000 + 0x10000 * (q / 4) + 0x1C := rfl
  have hs : FAB_DSTAT (q / 4) = 0x40000 + 0x10000 * (q / 4) + 4 := rfl
  have hplace := pcrcerr_place hq
  have hmove : ¬ MoveReg (FAB_NOROUTE (q / 4)) := fun h => by have := h.place; omega
  have harr : ¬ ArriveReg q (FAB_NOROUTE (q / 4)) := fun h => by have := h.place hq; omega
  have hleft := hin.still hq (leaveInput_still _ (some (q, tagsVc tags)) (l.length / 64))
  rw [runs_iff (exec_packetForward q l ⟨tags, corr⟩ s), packetForward_onwards s hd hc hr hq]
  refine ⟨?_, ?_, hin.link_keeps (sendPacket_keeps _ hdie _ _ _)⟩
  · rw [rg_finish_port _ (by omega), hlost, ← hleft.rg _ hmove harr (by omega)]
    exact (rg_setFlag_ne _ (by omega)).trans (rg_bump_same _ _ _)
  · rw [flag_congr 2 (rg_finish_port _ (by omega)), hlost]
    exact flag_setFlag_same _ (by decide)

end

/-! ### Address errors -/

theorem addrFault_keeps (src : Nat) : LogKeeps d (d.fault fAddr [] src) := (LogKeeps.nonce _ _).trans (log_keeps _ _ _ _ _ _ _)

/-- Sending leaves the other bits of FAB_DSTAT. -/
theorem sendPacket_dstat {die k j : Nat} (hk : k < 2) (src : Option (Nat × Nat)) (err : Bool) (l : List Byte) (hj : j < 32 ∧ j ≠ 2) :
    (d.sendPacket die src err l).flag (FAB_DSTAT k) j = d.flag (FAB_DSTAT k) j := by
  have hs : FAB_DSTAT k = 0x40000 + 0x10000 * k + 4 := rfl
  have hmove : ¬ MoveReg (FAB_DSTAT k) := fun h => by have := h.place; omega
  have hleave : ∀ src n, (d.leaveInput src n).rg (FAB_DSTAT k) = d.rg (FAB_DSTAT k) := fun src n => (leaveInput_still d src n).rg _ hmove
  have henq : ∀ q w, (d.enqueue die q w).rg (FAB_DSTAT k) = d.rg (FAB_DSTAT k) := by
    intro q w
    unfold Dev.enqueue
    dsimp only
    split
    · exact (pump_moves _).rg _ hmove
    · split
      · exact (rg_bump_ne _ (by unfold FAB_DSTAT FAB_PDISC; omega)).trans (hleave _ _)
      · exact (pump_moves _).rg _ hmove
  cases h : d.route die (pktDest l) (inDim src) (inDir src l) with
  | none =>
    unfold Dev.sendPacket
    change Dev.flag (match d.route die (pktDest l) (inDim src) (inDir src l) with | none => d | some (dim, dir, dl) => _) _ _ = _
    rw [h]
  | some x =>
    obtain ⟨v, he⟩ := sendPacket_eq d die src err l (dim := x.1) (dir := x.2.1) (dl := x.2.2) h
    rw [he]
    split
    · unfold Dev.noRoute
      rw [flag_setFlag_ne _ (.inr hj)]
      exact flag_congr j ((rg_bump_ne _ (by unfold FAB_DSTAT FAB_NOROUTE; omega)).trans (hleave _ _))
    · exact flag_congr j (henq _ _)

/-- The counts an address error of a request leaves (R39). -/
theorem addressError_spec {die : Nat} (hd : die < 2) (l : List Byte) :
    (d.addressError die l).rg (FAB_ADDRERR die) = satInc (d.rg (FAB_ADDRERR die)) 1 % 2 ^ 32 ∧
    (d.addressError die l).rg FLT_ADDRERR = satInc (d.rg FLT_ADDRERR) 1 % 2 ^ 32 ∧
    (d.addressError die l).flag (FAB_DSTAT die) 1 = true ∧ (d.addressError die l).net = d.net ∧
    (d.addressError die l).inbox = d.inbox ∧ (d.addressError die l).mem = d.mem := by
  have ha : FAB_ADDRERR die = 0x40000 + 0x10000 * die + 0x18 := rfl
  have hs : FAB_DSTAT die = 0x40000 + 0x10000 * die + 4 := rfl
  have hf : FLT_ADDRERR = 0xC000C := rfl
  have hlog : ∀ a, LogReg a → a < 0x40000 ∨ 0x60000 ≤ a ∧ a ≠ 0xC000C := by
    unfold LogReg BookReg CAR_LOGSEQ CAR_JSKIP OBS_TSTAT OBS_TFIFO OBS_TDROP CAR_BOUT CAR_BSTAT
    rintro a ((h | h | h | h | h | ⟨f, hf, h | h⟩) | h | h) <;> omega
  unfold Dev.addressError Dev.reply
  dsimp only
  generalize he : (((d.bump (FAB_ADDRERR die) 1).setFlag (FAB_DSTAT die) 1 true).bump FLT_ADDRERR 1) = e
  have hfault := addrFault_keeps e (srcDie die)
  generalize hg : e.fault fAddr [] (srcDie die) = f at *
  have hsend := sendPacket_keeps f hd none false (packetOf 0x32 3 (pktSrc l) 0 f.devId (pktPart l) (pktTag l) 0 (leBytes 1 1) [])
  have hnet : f.net = d.net ∧ f.inbox = d.inbox ∧ f.mem = d.mem := by
    have hq := hfault.quiet
    subst he
    exact ⟨(congrArg Dev.net hq :), (congrArg Dev.inbox hq :), (congrArg Dev.mem hq :)⟩
  refine ⟨?_, ?_, ?_, hsend.net.trans hnet.1, hsend.inbox.trans hnet.2.1, hsend.mem.trans hnet.2.2⟩
  · rw [hsend.rg _ (fun h => by have := LinkReg.place h; omega), hfault.rg _ (fun h => by have := hlog _ h; omega), ← he,
      rg_bump_ne _ (by omega), rg_setFlag_ne _ (by omega), rg_bump_same]
  · rw [hsend.rg _ (fun h => by have := LinkReg.place h; omega), hfault.rg _ (fun h => by have := hlog _ h; omega), ← he,
      rg_bump_same, rg_setFlag_ne _ (by omega), rg_bump_ne _ (by omega)]
  · rw [sendPacket_dstat f hd _ _ _ ⟨by decide, by decide⟩, flag_congr 1 (hfault.rg _ (fun h => by have := hlog _ h; omega)), ← he,
      flag_congr 1 (rg_bump_ne _ (by omega)), flag_setFlag_same _ (by decide)]

/-- A request with a reserved field set or for a device that is none (R38, R39). -/
theorem packetForward_addressError_runs (s : State) {q corr : Nat} {tags : List Nat} {l : List Byte} (hq : q < 8)
    (hf : FlitsOk s.dev q tags) (hd : pktDest l ≠ s.dev.devId) (hc : pktClass l ≠ 4 ∧ pktClass l ≠ 6)
    (hr : isRequest (pktType l) = true) (hg : pktGood l = true) (hb : s.dev.badAddress l = true) :
    Runs (.packetForward q l ⟨tags, corr⟩) s (fun e => e.rg (FAB_ADDRERR (q / 4)) = satInc (s.dev.rg (FAB_ADDRERR (q / 4))) 1 % 2 ^ 32 ∧
      e.rg FLT_ADDRERR = satInc (s.dev.rg FLT_ADDRERR) 1 % 2 ^ 32 ∧ e.flag (FAB_DSTAT (q / 4)) 1 = true ∧ e.net = s.dev.net ∧
      e.inbox = s.dev.inbox ∧ SameMem s.dev e) := by
  have hin := inFrom_hasCome s.dev hq tags l corr
  have hleft := hin.still hq (leaveInput_still _ (some (q, tagsVc tags)) (l.length / 64))
  rw [runs_iff (exec_packetForward q l ⟨tags, corr⟩ s), packetForward_other s.dev hq tags l corr hd hc, if_pos ⟨hr, hf, hg, hb⟩]
  generalize (s.dev.inFrom q tags l corr).leaveInput (some (q, tagsVc tags)) (l.length / 64) = e at *
  obtain ⟨haddr, hflt, hstat, hnet, hinbox, hmem⟩ := addressError_spec e (show q / 4 < 2 by omega) l
  have ha : FAB_ADDRERR (q / 4) = 0x40000 + 0x10000 * (q / 4) + 0x18 := rfl
  have hs : FAB_DSTAT (q / 4) = 0x40000 + 0x10000 * (q / 4) + 4 := rfl
  have hfe : FLT_ADDRERR = 0xC000C := rfl
  have hcrc := pcrcerr_place hq
  have hfol : ¬ FollowReg FLT_ADDRERR := by
    unfold FollowReg FLT_ADDRERR FLT_STAT TAB_BSTAT FLT_PMUTE TAB_CHSTAT PWR_DSTAT
    omega
  refine ⟨?_, ?_, ?_, ?_, ?_, fun a => ?_⟩
  · rw [rg_finish_port _ (by omega), haddr, hleft.rg _ (fun h => by have := h.place; omega) (fun h => by have := h.place hq; omega)
      (by omega)]
  · rw [rg_finish _ hfol, hflt, hleft.rg _ (fun h => by have := h.place; omega) (fun h => by have := h.place hq; omega) (by omega)]
  · rw [flag_congr 1 (rg_finish_port _ (by omega)), hstat]
  · rw [finish_net, hnet, hleft.net]
  · rw [finish_inbox, hinbox, hleft.inbox]
  · rw [finish_mem, hmem, show e.mem = s.dev.mem from (congrArg Dev.mem hleft.unlinked :)]

end Sys2Proof.Machine
end

section
/-! SUPPORT. Fields of flits: what a class 0 flit says after its first word was written again, and what an alarm flit carries (R238, R251). -/

namespace Sys2Proof.Machine

open Sys2Proof

theorem splice_zero {l v : List Byte} (h : v.length ≤ l.length) : splice l 0 v = v ++ l.drop v.length := by
  unfold splice
  rw [List.take_zero, List.nil_append, Nat.sub_zero, Nat.zero_add, List.take_of_length_le h]

theorem leAt_append_left {l r : List Byte} {j n : Nat} (h : j + n ≤ l.length) : leAt (l ++ r) j n = leAt l j n := by
  unfold leAt
  rw [List.drop_append_of_le_length (by omega), List.take_append_of_le_length (by rw [List.length_drop]; omega)]

theorem leAt_append_right {l r : List Byte} {j n : Nat} (h : l.length ≤ j) : leAt (l ++ r) j n = leAt r (j - l.length) n := by
  unfold leAt
  rw [List.drop_append, List.drop_eq_nil_of_le h, List.nil_append]

theorem byteAt_append_right {l r : List Byte} {j : Nat} (h : l.length ≤ j) : byteAt (l ++ r) j = byteAt r (j - l.length) := by
  unfold byteAt
  rw [List.getD_append_right _ _ _ _ h]

theorem leAt_leBytes {k n : Nat} (r : List Byte) : leAt (leBytes k n ++ r) 0 k = n % 256 ^ k := by
  rw [leAt_append_left (by rw [length_leBytes]; omega)]
  unfold leAt
  rw [List.drop_zero, List.take_of_length_le (by rw [length_leBytes]), leNat_leBytes]

theorem byteAt_leBytes {k n : Nat} (r : List Byte) (hk : 0 < k) : byteAt (leBytes k n ++ r) 0 = n % 256 := by
  obtain ⟨k, rfl⟩ := Nat.exists_eq_succ_of_ne_zero (Nat.pos_iff_ne_zero.1 hk)
  unfold byteAt
  rw [leBytes, List.cons_append, List.getD_cons_zero, BitVec.toNat_ofNat]

/-- The first byte is the low one of a field at the front. -/
theorem byteAt_zero_eq {l : List Byte} {k : Nat} (hk : 0 < k) : byteAt l 0 = leAt l 0 k % 256 := by
  obtain ⟨k, rfl⟩ := Nat.exists_eq_succ_of_ne_zero (Nat.pos_iff_ne_zero.1 hk)
  unfold byteAt leAt
  cases l with
  | nil => rfl
  | cons b r =>
    have hb : b.toNat < 256 := b.isLt
    rw [List.getD_cons_zero, List.drop_zero, List.take_succ_cons, leNat]
    omega

/-! ### The first word -/

/-- The flit with its first word `n`. -/
def firstWord (l : List Byte) (n : Nat) : List Byte := splice l 0 (leBytes 4 n)

theorem firstWord_eq {l : List Byte} {n : Nat} (h : 4 ≤ l.length) : firstWord l n = leBytes 4 n ++ l.drop 4 := by
  unfold firstWord
  rw [splice_zero (by rw [length_leBytes]; omega), length_leBytes]

theorem leAt_firstWord {l : List Byte} {n : Nat} (h : 4 ≤ l.length) : leAt (firstWord l n) 0 4 = n % 2 ^ 32 := by
  rw [firstWord_eq h, leAt_leBytes]
  rfl

theorem byteAt_firstWord {l : List Byte} {n : Nat} (h : 4 ≤ l.length) : byteAt (firstWord l n) 0 = n % 256 := by
  rw [firstWord_eq h, byteAt_leBytes _ (by decide)]

/-- Counting HOPS on leaves KIND and DEST. -/
theorem c0_hops {l : List Byte} (h : 4 ≤ l.length) (v : Nat) :
    c0Kind (firstWord l (putBits (leAt l 0 4) 22 4 v)) = c0Kind l ∧ c0Dest (firstWord l (putBits (leAt l 0 4) 22 4 v)) = c0Dest l := by
  unfold c0Kind c0Dest
  rw [leAt_firstWord h, byteAt_firstWord h, bitsOf_mod _ _ _ _ (by decide), bitsOf_putBits_below _ _ _ _ _ _ (by decide),
    byteAt_zero_eq (l := l) (k := 4) (by decide)]
  have hlow := mod_putBits (leAt l 0 4) 22 4 v
  have hdvd : ∀ n : Nat, n % 256 % 16 = n % 2 ^ 22 % 16 := fun n => by omega
  exact ⟨by rw [hdvd, hlow, ← hdvd], rfl⟩

/-! ### Flits made here -/

/-- The first word of a class 0 flit. -/
def c0Word (kind dest src : Nat) : Nat := kind % 16 + dest % 512 * 16 + src % 512 * 2 ^ 13

theorem c0Flit_eq (kind dest src : Nat) (p : List Byte) : ∃ crc, c0Flit kind dest src p =
    leBytes 4 (c0Word kind dest src) ++ (leBytes 4 crc ++ padTo 56 p) := ⟨_, by unfold c0Flit c0Word; rw [List.append_assoc]⟩

theorem c0Flit_head (kind dest src : Nat) (p : List Byte) : c0Kind (c0Flit kind dest src p) = kind % 16 ∧
    c0Dest (c0Flit kind dest src p) = dest % 512 := by
  obtain ⟨crc, h⟩ := c0Flit_eq kind dest src p
  unfold c0Kind c0Dest
  rw [h, byteAt_leBytes _ (by decide), leAt_leBytes]
  unfold c0Word bitsOf
  omega

theorem length_c0Flit (kind dest src : Nat) (p : List Byte) : 4 ≤ (c0Flit kind dest src p).length := by
  obtain ⟨crc, h⟩ := c0Flit_eq kind dest src p
  rw [h, List.length_append, length_leBytes]
  omega

/-! ### Alarms -/

/-- The fields of an alarm fit their places in a flit. -/
def Alarm.Fits (a : Alarm) : Prop := a.cause < 256 ∧ a.merged < 65536 ∧ a.first < 512 ∧ a.time < 2 ^ 48 ∧ a.partMask < 65536

theorem length_alarmBytes (a : Alarm) : a.bytes.length = 56 := by
  simp [Alarm.bytes, length_leBytes, zeros]

theorem padTo_same {k : Nat} {l : List Byte} (h : l.length = k) : padTo k l = l := by
  subst h
  simp [padTo, zeros]

/-- What the 56 payload bytes of an alarm flit carry. -/
def alarmIn (p : List Byte) : Alarm :=
  { cause := byteAt p 1, merged := leAt p 2 2, first := leAt p 4 2 % 512, time := leAt p 6 6, partMask := leAt p 12 2 }

/-- A flit carries what its payload does. -/
theorem alarmOf_eq {w v p : List Byte} (hw : w.length = 4) (hv : v.length = 4) : alarmOf (w ++ (v ++ p)) = alarmIn p := by
  have hb : ∀ j, byteAt (w ++ (v ++ p)) (8 + j) = byteAt p j := fun j => by
    rw [byteAt_append_right (by omega), byteAt_append_right (by omega), hw, hv]
    congr 1
    omega
  have hl : ∀ j n, leAt (w ++ (v ++ p)) (8 + j) n = leAt p j n := fun j n => by
    rw [leAt_append_right (by omega), leAt_append_right (by omega), hw, hv]
    congr 1
    omega
  unfold alarmOf alarmIn
  rw [← hb 1, ← hl 2, ← hl 4, ← hl 6, ← hl 12]

/-- A field of bytes put in reads back, whatever stands before it and after. -/
theorem leAt_field {l r : List Byte} {k n : Nat} (h : n < 256 ^ k) : leAt (l ++ (leBytes k n ++ r)) l.length k = n := by
  rw [leAt_append_right (Nat.le_refl _), Nat.sub_self, leAt_leBytes, Nat.mod_eq_of_lt h]

/-- The payload of an alarm carries it. -/
theorem alarmIn_bytes {a : Alarm} (h : a.Fits) : alarmIn a.bytes = a := by
  obtain ⟨hc, hm, hf, ht, hp⟩ := h
  have he : ∀ l r : List Byte, ∀ j k n, l.length = j → n < 256 ^ k → a.bytes = l ++ (leBytes k n ++ r) → leAt a.bytes j k = n := by
    rintro l r j k n rfl hn hb
    rw [hb, leAt_field hn]
  have hcause : byteAt a.bytes 1 = a.cause := by
    have : a.bytes = leBytes 1 0x20 ++ (leBytes 1 a.cause ++ (leBytes 2 a.merged ++ leBytes 2 (a.first % 512) ++ leBytes 6 a.time ++
      leBytes 2 a.partMask ++ zeros 42)) := by unfold Alarm.bytes; simp only [List.append_assoc]
    rw [this, byteAt_append_right (by rw [length_leBytes]), length_leBytes, byteAt_leBytes _ (by decide)]
    omega
  have hmerged := he (leBytes 1 0x20 ++ leBytes 1 a.cause) _ 2 2 a.merged (by simp [length_leBytes]) (by omega)
    (by unfold Alarm.bytes; simp only [List.append_assoc]; rfl)
  have hfirst := he (leBytes 1 0x20 ++ leBytes 1 a.cause ++ leBytes 2 a.merged) _ 4 2 (a.first % 512) (by simp [length_leBytes])
    (by omega) (by unfold Alarm.bytes; simp only [List.append_assoc]; rfl)
  have htime := he (leBytes 1 0x20 ++ leBytes 1 a.cause ++ leBytes 2 a.merged ++ leBytes 2 (a.first % 512)) _ 6 6 a.time
    (by simp [length_leBytes]) (by omega) (by unfold Alarm.bytes; simp only [List.append_assoc]; rfl)
  have hmask := he (leBytes 1 0x20 ++ leBytes 1 a.cause ++ leBytes 2 a.merged ++ leBytes 2 (a.first % 512) ++ leBytes 6 a.time) _ 12 2
    a.partMask (by simp [length_leBytes]) (by omega) (by unfold Alarm.bytes; simp only [List.append_assoc]; rfl)
  unfold alarmIn
  rw [hcause, hmerged, hfirst, htime, hmask, Nat.mod_mod, Nat.mod_eq_of_lt hf]

/-- An alarm flit carries its alarm, also with its first word written again. -/
theorem alarmOf_c0Flit {a : Alarm} (h : a.Fits) (kind dest src : Nat) : alarmOf (c0Flit kind dest src a.bytes) = a := by
  obtain ⟨crc, he⟩ := c0Flit_eq kind dest src a.bytes
  rw [he, padTo_same (length_alarmBytes a), alarmOf_eq (length_leBytes ..) (length_leBytes ..), alarmIn_bytes h]

theorem alarmOf_firstWord {a : Alarm} (h : a.Fits) (kind dest src n : Nat) :
    alarmOf (firstWord (c0Flit kind dest src a.bytes) n) = a := by
  obtain ⟨crc, he⟩ := c0Flit_eq kind dest src a.bytes
  have hd : (c0Flit kind dest src a.bytes).drop 4 = leBytes 4 crc ++ a.bytes := by
    rw [he, padTo_same (length_alarmBytes a), List.drop_left' (length_leBytes ..)]
  rw [firstWord_eq (length_c0Flit ..), hd, alarmOf_eq (length_leBytes ..) (length_leBytes ..), alarmIn_bytes h]

theorem leAt_lt (l : List Byte) (j k : Nat) : leAt l j k < 256 ^ k :=
  Nat.lt_of_lt_of_le (leNat_lt _) (Nat.pow_le_pow_right (by decide) (List.length_take_le _ _))

theorem byteAt_lt (l : List Byte) (j : Nat) : byteAt l j < 256 := BitVec.isLt _

/-- What a flit carries fits one. -/
theorem alarmOf_fits (l : List Byte) : (alarmOf l).Fits := by
  refine ⟨byteAt_lt _ _, leAt_lt l 10 2, Nat.mod_lt _ (by decide), ?_, leAt_lt l 20 2⟩
  have := leAt_lt l 14 6
  exact this

theorem Alarm.Fits.merge {a b : Alarm} (ha : a.Fits) (hb : b.Fits) : (a.merge b).Fits := by
  obtain ⟨hc, -, hf, ht, hp⟩ := ha
  obtain ⟨hc', -, -, -, hp'⟩ := hb
  refine ⟨Nat.or_lt_two_pow (n := 8) hc hc', ?_, hf, ht, Nat.or_lt_two_pow (n := 16) hp hp'⟩
  show min 65535 _ < 65536
  omega

end Sys2Proof.Machine
end

section
/-! SUPPORT. CLASS0_FLIT_FORWARD and ALARM_FLIT (R238, R251, R256, R262). -/

namespace Sys2Proof.Machine

open Sys2Proof

variable (d : Dev)

theorem exec_class0FlitForward (q : Nat) (l : List Byte) (x : LinkIn) (s : State) :
    exec (.class0FlitForward q l x) s = s.run (·.classZero q x.tags l x.corr) := rfl
theorem exec_alarmFlit (a : Alarm) (s : State) : exec (.alarmFlit a) s = s.run (·.alarmFlit a) := rfl

/-! ### A class 0 flit at an output -/

theorem putTattoo_keeps {die q : Nat} (hq : q < 8) (src : Option (Nat × Nat)) (l : List Byte) :
    LinkKeeps d (d.putTattoo die q src l) := by
  unfold Dev.putTattoo
  dsimp only
  exact ((forEach_moves _ (fun e w _ => (leaveInput_still e w.src 1).moves) d).link.trans (.setOport _ _ _)).trans
    (enqueue_keeps _ hq _)

theorem putTattoo_underway {die q : Nat} (hd : die < 2) (hq : q < 8) (src : Option (Nat × Nat)) (l : List Byte)
    (hb : d.flag FLT_STAT 4 = false) : Underway (d.putTattoo die q src l) q l := by
  unfold Dev.putTattoo
  dsimp only
  refine enqueue_underway _ hd hq rfl ?_
  exact (SameRoutes.bridge
    (((forEach_moves _ (fun e w _ => (leaveInput_still e w.src 1).moves) d).link.trans (.setOport _ _ _)).routes)).trans hb

/-- A flit of a Tattoo goes on by the link its route names. -/
theorem sendZero_tattoo {die : Nat} {src : Option (Nat × Nat)} {l : List Byte} {dim dir dl o : Nat}
    (h : d.route die (c0Dest l) 3 0 = some (dim, dir, dl)) (hc : Carries d dim dir o) (hdim : dim < 2) (hk : c0Kind l = 1) :
    d.sendZero die src l = d.putTattoo die o src l := by
  unfold Dev.sendZero
  rw [h]
  dsimp only
  rw [linkOf_of_carries d hc hdim]
  dsimp only
  rw [if_neg (by omega)]

theorem sendZero_alarm {die : Nat} {src : Option (Nat × Nat)} {l : List Byte} {dim dir dl o : Nat}
    (h : d.route die (c0Dest l) 3 0 = some (dim, dir, dl)) (hc : Carries d dim dir o) (hdim : dim < 2) (hk : c0Kind l = 2) :
    d.sendZero die src l = d.putAlarm die o src l := by
  unfold Dev.sendZero
  rw [h]
  dsimp only
  rw [linkOf_of_carries d hc hdim]
  dsimp only
  rw [if_pos hk]

/-- No route leads from a device to itself. -/
theorem route_other {die dest cur dirn : Nat} {x : Nat × Nat × Nat} (h : d.route die dest cur dirn = some x) : dest ≠ d.devId := by
  rintro rfl
  unfold Dev.route at h
  simp at h

/-! ### CLASS0_FLIT_FORWARD -/

/-- A flit that fails its check is discarded at this hop (R256, R262). -/
theorem classZero_bad {q : Nat} (hq : q < 8) (tags : List Nat) (l : List Byte) (corr : Nat)
    (hb : ¬ FlitsOk d q tags ∨ c0Good l = false) :
    ∃ crc, HasCome q 1 corr crc d (d.classZero q tags l corr) ∧ (crc = true ↔ FlitsOk d q tags) := by
  have hcome := ((linkIn_arrives d hq tags 1 corr).hasCome hq).still hq (leaveInput_still _ (some (q, 0)) 1)
  have hbad := linkIn_bad d (q := q) tags 1 corr
  unfold Dev.classZero
  dsimp only
  by_cases hf : FlitsOk d q tags
  · have hg : c0Good l = false := hb.resolve_left (fun h => h hf)
    rw [hbad.2 hf, hg]
    exact ⟨true, hcome.crcFail hq, fun _ => hf, fun _ => rfl⟩
  · rw [if_pos (Bool.eq_true_of_not_eq_false (fun h => hf (hbad.1 h)))]
    exact ⟨false, hcome, fun h => absurd h (by decide), fun h => absurd h hf⟩

theorem class0FlitForward_bad_runs (s : State) {q corr : Nat} {tags : List Nat} {l : List Byte} (hq : q < 8)
    (hb : ¬ FlitsOk s.dev q tags ∨ c0Good l = false) : Runs (.class0FlitForward q l ⟨tags, corr⟩) s (fun e =>
      e.rg (FAB_PCRCERR (q / 4) (q % 4)) = (if FlitsOk s.dev q tags then satInc (s.dev.rg (FAB_PCRCERR (q / 4) (q % 4))) 1 % 2 ^ 32
        else s.dev.rg (FAB_PCRCERR (q / 4) (q % 4))) ∧ e.net = s.dev.net ∧ e.inbox = s.dev.inbox ∧
      Keeps s.dev e (fun a => InReg q a ∨ a = FAB_PCRCERR (q / 4) (q % 4)) ∧ SameUnits s.dev e) := by
  obtain ⟨crc, hcome, hcrc⟩ := classZero_bad s.dev hq tags l corr hb
  have hplace := pcrcerr_place hq
  rw [runs_iff (exec_class0FlitForward q l ⟨tags, corr⟩ s), rg_finish_port _ (by omega), finish_net, finish_inbox, hcome.crcerr]
  refine ⟨if_congr hcrc rfl rfl, hcome.net, hcome.inbox, hcome.keeps_finish rfl rfl rfl (fun _ _ => rfl)
    (fun a ha => ⟨fun x => ha (.inl x), fun _ x => ha (.inr x)⟩)⟩

/-- A Tattoo flit goes on with HOPS one up (R238, R256). -/
theorem class0FlitForward_sent_runs (s : State) {q corr dim dir dl o : Nat} {tags : List Nat} {l : List Byte} (hq : q < 8)
    (hf : FlitsOk s.dev q tags) (hg : c0Good l = true) (hk : c0Kind l = 1)
    (hroute : s.dev.route (q / 4) (c0Dest l) 3 0 = some (dim, dir, dl)) (hc : Carries s.dev dim dir o ∧ dim < 2)
    (hb : s.dev.flag FLT_STAT 4 = false) : Runs (.class0FlitForward q l ⟨tags, corr⟩) s (fun e =>
      SentOn e o (splice l 0 (leBytes 4 (putBits (leAt l 0 4) 22 4 (c0Hops l + 1)))) ∧ RegKeeps s.dev e (fun a => InReg q a) ∧
      SameMem s.dev e ∧ SameUnits s.dev e) := by
  obtain ⟨hcar, hdim⟩ := hc
  have hdie : q / 4 < 2 := by omega
  have ho : o < 8 := carries_lt hcar (by omega)
  have hcome := (linkIn_arrives s.dev hq tags 1 corr).hasCome hq
  have hsame := hcome.routes hq
  have hlen : 4 ≤ l.length := by
    unfold c0Good at hg
    simp only [Bool.and_eq_true, beq_iff_eq] at hg
    omega
  obtain ⟨hkind, hdest⟩ := c0_hops hlen (c0Hops l + 1)
  have hne : c0Dest l ≠ (s.dev.linkIn q tags 1 corr).1.devId := by rw [hsame.devId]; exact route_other s.dev hroute
  have he : s.dev.classZero q tags l corr = (s.dev.linkIn q tags 1 corr).1.putTattoo (q / 4) o (some (q, 0))
      (firstWord l (putBits (leAt l 0 4) 22 4 (c0Hops l + 1))) := by
    have hhere : ¬ (decide (c0Kind l = 1) && decide (c0Dest l = (s.dev.linkIn q tags 1 corr).1.devId)) = true := by simp [hne]
    unfold Dev.classZero
    dsimp only
    rw [(linkIn_bad s.dev tags 1 corr).2 hf, hg, if_neg (by decide), if_neg (by decide), if_neg hhere]
    have hnext : (s.dev.linkIn q tags 1 corr).1.route (q / 4) (c0Dest (firstWord l (putBits (leAt l 0 4) 22 4 (c0Hops l + 1)))) 3 0 =
        some (dim, dir, dl) := by rw [hdest]; exact (hsame.route hdie _ _ _).trans hroute
    exact sendZero_tattoo _ hnext ((hsame.carries ho).2 hcar) hdim
      (hkind.trans hk)
  rw [runs_iff (exec_class0FlitForward q l ⟨tags, corr⟩ s), he]
  have hput := putTattoo_keeps (s.dev.linkIn q tags 1 corr).1 (die := q / 4) ho (some (q, 0))
    (firstWord l (putBits (leAt l 0 4) 22 4 (c0Hops l + 1)))
  obtain ⟨⟨hregs, hmem, -⟩, hunits⟩ := hcome.keeps_finish (w := fun a => InReg q a) hput.mem hput.ecc hput.units
    (fun a ha => hput.rg a (fun x => ha (.inl x))) (fun a ha => ⟨ha, by simp⟩)
  exact ⟨sentOn_finish (putTattoo_underway _ hdie ho _ _ (hsame.bridge.trans hb)).sentOn, hregs, hmem, hunits⟩

/-! ### ALARM_FLIT -/

/-- At the root an alarm flit ends (R251). -/
theorem alarmFlit_root_runs (s : State) (a : Alarm) (h : s.dev.route 0 (s.dev.rootId % 512) 3 0 = none) :
    Runs (.alarmFlit a) s (fun e => e.oports = s.dev.oports ∧ e.alarmQ = s.dev.alarmQ ∧ Keeps s.dev e (fun _ => False) ∧
      SameUnits s.dev e) := by
  have he : s.dev.alarmFlit a = s.dev := by
    unfold Dev.alarmFlit Dev.sendZero
    rw [(c0Flit_head 2 s.dev.rootId a.first a.bytes).2, h]
    rfl
  rw [runs_iff (exec_alarmFlit a s), he, finish_oports, finish_alarmQ]
  exact ⟨rfl, rfl, keeps_finish rfl rfl rfl (fun _ _ => rfl)⟩

/-- The alarm that waits at an output. -/
def isAlarm (w : Worm) : Bool := w.vc == 0 && c0Kind w.data == 2

/-- With none there, the flit joins the queue. -/
theorem putAlarm_none {die q : Nat} (src : Option (Nat × Nat)) (l : List Byte) (h : (d.oport q).queue.find? isAlarm = none) :
    d.putAlarm die q src l = d.enqueue die q { (default : Worm) with data := l, src := src } := by
  unfold Dev.putAlarm
  dsimp only
  change (match (d.oport q).queue.find? isAlarm with | some w => _ | none => _) = _
  rw [h]

/-- The alarm flit that waits with another merged into it. -/
def mergedFlit (w : Worm) (l : List Byte) : List Byte :=
  firstWord (c0Flit 2 (c0Dest w.data) (c0Src w.data) ((alarmOf w.data).merge (alarmOf l)).bytes)
    (putBits (leAt (c0Flit 2 (c0Dest w.data) (c0Src w.data) ((alarmOf w.data).merge (alarmOf l)).bytes) 0 4) 22 4 (c0Hops w.data))

theorem putAlarm_some {die q : Nat} (l : List Byte) {w : Worm} (h : (d.oport q).queue.find? isAlarm = some w) :
    d.putAlarm die q none l = (d.setOport q { d.oport q with
      queue := (d.oport q).queue.map (fun y => if y == w then { w with data := mergedFlit w l } else y) }).bump (FAB_C0MERGE (q / 4)) 1 := by
  unfold Dev.putAlarm
  dsimp only
  change (match (d.oport q).queue.find? isAlarm with | some w => _ | none => _) = _
  rw [h]
  rfl

/-- What is found is found again, changed, once it alone was changed and is found still. -/
theorem find?_map_changed {p : Worm → Bool} {w w' : Worm} (hw : p w' = true) : ∀ {l : List Worm}, l.find? p = some w →
    (l.map (fun y => if y == w then w' else y)).find? p = some w'
  | y :: r, h => by
    rw [List.map_cons]
    cases hy : p y with
    | true =>
      rw [List.find?_cons_of_pos hy] at h
      obtain rfl := Option.some.inj h
      rw [if_pos (beq_self_eq_true y), List.find?_cons_of_pos hw]
    | false =>
      rw [List.find?_cons_of_neg (by simp [hy])] at h
      have hne : ¬ (y == w) = true := fun e => by
        have := List.find?_some h
        rw [← eq_of_beq e, hy] at this
        exact absurd this (by decide)
      rw [if_neg hne, List.find?_cons_of_neg (by simp [hy])]
      exact find?_map_changed hw h

/-- Onwards where no alarm waits at the port (R251). -/
theorem alarmFlit_sent_runs (s : State) (x : Alarm) {dim dir dl o : Nat}
    (hroute : s.dev.route 0 (s.dev.rootId % 512) 3 0 = some (dim, dir, dl)) (hc : Carries s.dev dim dir o ∧ dim < 2)
    (hb : s.dev.flag FLT_STAT 4 = false) (hq : (s.dev.oport o).queue.find? isAlarm = none) :
    Runs (.alarmFlit x) s (fun e => SentOn e o (c0Flit 2 s.dev.rootId x.first x.bytes) ∧ Keeps s.dev e (fun a => LinkReg a) ∧
      SameUnits s.dev e) := by
  obtain ⟨hcar, hdim⟩ := hc
  have ho : o < 8 := carries_lt hcar (by omega)
  obtain ⟨hkind, hdest⟩ := c0Flit_head 2 s.dev.rootId x.first x.bytes
  have he : s.dev.alarmFlit x = s.dev.enqueue 0 o { (default : Worm) with data := c0Flit 2 s.dev.rootId x.first x.bytes, src := none } :=
    (sendZero_alarm s.dev (by rw [hdest]; exact hroute) hcar hdim hkind).trans (putAlarm_none s.dev none _ hq)
  rw [runs_iff (exec_alarmFlit x s), he]
  exact ⟨sentOn_finish (enqueue_underway s.dev (by decide) ho rfl hb).sentOn, (enqueue_keeps s.dev ho _).keeps_finish⟩

/-- Into an alarm that waits at its port (R251). -/
theorem alarmFlit_merged_runs (s : State) (x : Alarm) (w : Worm) {dim dir dl o : Nat}
    (hroute : s.dev.route 0 (s.dev.rootId % 512) 3 0 = some (dim, dir, dl)) (hc : Carries s.dev dim dir o ∧ dim < 2 ∧ o < 8)
    (hq : (s.dev.oport o).queue.find? isAlarm = some w) (hx : x.Fits) :
    Runs (.alarmFlit x) s (fun e => ((e.oport o).queue.find? isAlarm).map (fun w => alarmOf w.data) = some ((alarmOf w.data).merge x) ∧
      (e.oport o).queue.length = (s.dev.oport o).queue.length ∧
      e.rg (FAB_C0MERGE (o / 4)) = satInc (s.dev.rg (FAB_C0MERGE (o / 4))) 1 % 2 ^ 32 ∧
      Keeps s.dev e (fun a => a = FAB_C0MERGE (o / 4)) ∧ SameUnits s.dev e) := by
  obtain ⟨hcar, hdim, ho⟩ := hc
  obtain ⟨hkind, hdest⟩ := c0Flit_head 2 s.dev.rootId x.first x.bytes
  have he := (sendZero_alarm s.dev (die := 0) (src := none) (by rw [hdest]; exact hroute) hcar hdim hkind).trans
    (putAlarm_some s.dev _ hq)
  have hfits := (alarmOf_fits w.data).merge (b := x) hx
  generalize hnew : ({ w with data := mergedFlit w (c0Flit 2 s.dev.rootId x.first x.bytes) } : Worm) = w' at he
  have hdata : alarmOf w'.data = (alarmOf w.data).merge x := by
    rw [← hnew]
    unfold mergedFlit
    rw [alarmOf_c0Flit hx, alarmOf_firstWord hfits]
  have hmine : isAlarm w' = true := by
    have hw := List.find?_some hq
    unfold isAlarm at hw ⊢
    simp only [Bool.and_eq_true, beq_iff_eq] at hw ⊢
    refine ⟨by rw [← hnew]; exact hw.1, ?_⟩
    rw [← hnew]
    unfold mergedFlit
    rw [(c0_hops (length_c0Flit ..) _).1, (c0Flit_head ..).1]
  have hqueue : ((s.dev.alarmFlit x).finish.oport o).queue = (s.dev.oport o).queue.map (fun y => if y == w then w' else y) := by
    unfold Dev.oport
    rw [finish_oports]
    unfold Dev.alarmFlit
    rw [he]
    exact congrArg OPort.queue (SMap.get_set_same ..)
  rw [runs_iff (exec_alarmFlit x s), hqueue]
  refine ⟨by rw [find?_map_changed hmine hq, Option.map_some, hdata], List.length_map .., ?_, ?_⟩
  · rw [rg_finish_port _ (by unfold FAB_C0MERGE; omega)]
    unfold Dev.alarmFlit
    rw [he]
    exact rg_bump_same _ _ _
  · unfold Dev.alarmFlit
    rw [he]
    exact keeps_finish rfl rfl rfl (fun a ha => rg_bump_ne _ ha)

/-- Settles O16: what comes in is counted and leaves its buffer; what goes on joins an output, and stays under way there
(`Moves.underway`) however far the outputs serve their queues. -/
theorem packetsAndFlits : Obligations.PacketsAndFlits :=
  ⟨fun s _ _ _ _ hq hf hd hg ht hc => packetForward_waits_runs s hq hf hd hg ht hc,
    fun s _ _ _ _ hq hf hg ht hc => packetForward_mgmt_runs s hq hf hg ht hc,
    fun s _ _ _ _ hq hf hd hg ht hb => packetForward_events_runs s hq hf hd hg ht hb,
    fun s _ _ _ _ hq hd hb => packetForward_bad_runs s hq hd hb,
    fun s _ _ _ _ _ _ _ hq hd hc hr hroute ho hb => packetForward_sent_runs s hq hd hc hr hroute ho hb,
    fun s _ _ _ _ _ _ _ hq hd hc hr hroute ho => packetForward_lost_runs s hq hd hc hr hroute ho,
    fun s _ _ _ _ hq hf hd hc hr hg hb => packetForward_addressError_runs s hq hf hd hc hr hg hb,
    fun s _ _ _ _ hq hb => class0FlitForward_bad_runs s hq hb,
    fun s _ _ _ _ _ _ _ _ hq hf hg hk hroute hc hb => class0FlitForward_sent_runs s hq hf hg hk hroute hc hb,
    fun s a h => alarmFlit_root_runs s a h,
    fun s x _ _ _ _ hroute hc hb hq => alarmFlit_sent_runs s x hroute hc hb hq,
    fun s x w _ _ _ _ hroute hc hq hx => alarmFlit_merged_runs s x w hroute hc hq hx⟩

end Sys2Proof.Machine
end

section
/-! SUPPORT. Replies: the fields of a packet made here, and that it leaves by a link of its route (R239, R243 to R245). -/

namespace Sys2Proof.Machine

open Sys2Proof

variable (d : Dev)

/-! ### Fields -/

/-- What a packet reads as: its type, target, tag, first byte of its own fields, and payload. -/
structure Packet (type dest tag st : Nat) (pay b : List Byte) : Prop where
  type : pktType b = type
  dest : pktDest b = dest
  tag  : pktTag b = tag
  st   : byteAt b 16 = st
  pay  : (pktPay b).take pay.length = pay

theorem byteAt_padTo {k : Nat} (l r : List Byte) (hk : 0 < k) : byteAt (padTo k l ++ r) 0 = byteAt l 0 := by
  obtain ⟨k, rfl⟩ := Nat.exists_eq_succ_of_ne_zero (Nat.pos_iff_ne_zero.1 hk)
  cases l with
  | nil => simp [padTo, zeros, byteAt, List.replicate_succ]
  | cons b t => simp [padTo, byteAt]

theorem length_padTo (k : Nat) (l : List Byte) : (padTo k l).length = k := by
  unfold padTo zeros
  rw [List.length_append, List.length_take, List.length_replicate]
  omega

theorem le_ceilDiv (n : Nat) : n ≤ 64 * ceilDiv n 64 := by unfold ceilDiv; omega

/-- The header of a packet but for its first two bytes, and its payload. -/
def packetRest (dest src n part crc tag epoch : Nat) (tail pl : List Byte) : List Byte :=
  leBytes 2 dest ++ (leBytes 2 src ++ (leBytes 1 n ++ (leBytes 1 part ++ (leBytes 4 crc ++ (leBytes 2 tag ++ (leBytes 2 epoch ++
    (padTo 48 tail ++ pl)))))))

theorem packetOf_eq (type cls dest dreg src part tag epoch : Nat) (tail payload : List Byte) : ∃ crc,
    packetOf type cls dest dreg src part tag epoch tail payload = leBytes 1 type ++ (leBytes 1 cls ++
      packetRest (dest % 512 + dreg % 16 * 512) (src % 512) (ceilDiv payload.length 64) (part % 16) crc tag epoch tail
        (padTo (64 * ceilDiv payload.length 64) payload)) :=
  ⟨_, by unfold packetOf packetRest; simp only [List.append_assoc]; rfl⟩

theorem splice_second (b c v : Nat) (r : List Byte) :
    splice (leBytes 1 b ++ (leBytes 1 c ++ r)) 1 (leBytes 1 v) = leBytes 1 b ++ (leBytes 1 v ++ r) := by
  simp [splice, leBytes]

/-- The fields of a packet do not depend on its second byte. -/
theorem packet_fields (type v dest src n part crc tag epoch : Nat) (tail : List Byte) {payload : List Byte} {m : Nat}
    (hm : payload.length ≤ m) : Packet (type % 256) (dest % 512) (tag % 65536) (byteAt tail 0) payload
      (leBytes 1 type ++ (leBytes 1 v ++ packetRest dest src n part crc tag epoch tail (padTo m payload))) where
  type := byteAt_leBytes _ (by decide)
  dest := by
    unfold pktDest packetRest
    rw [leAt_append_right (by simp [length_leBytes]), leAt_append_right (by simp [length_leBytes])]
    simp only [length_leBytes, Nat.reduceSub]
    rw [leAt_leBytes]
    omega
  tag := by
    unfold pktTag packetRest
    iterate 7 rw [leAt_append_right (by simp [length_leBytes])]
    simp only [length_leBytes, Nat.reduceSub]
    exact leAt_leBytes _
  st := by
    unfold packetRest
    iterate 9 rw [byteAt_append_right (by simp [length_leBytes])]
    simp only [length_leBytes, Nat.reduceSub]
    exact byteAt_padTo _ _ (by decide)
  pay := by
    have hdrop : pktPay (leBytes 1 type ++ (leBytes 1 v ++ packetRest dest src n part crc tag epoch tail (padTo m payload))) =
        padTo m payload := by
      unfold pktPay packetRest
      simp only [← List.append_assoc]
      exact List.drop_left' (by simp [length_leBytes, length_padTo])
    rw [hdrop]
    unfold padTo
    rw [List.take_of_length_le hm, List.take_left]

/-- A packet made here, on its way by a link. -/
theorem onwards_fields (type cls dest src part tag : Nat) (tail payload : List Byte) (dim dir dl : Nat) :
    Packet (type % 256) (dest % 512) (tag % 65536) (byteAt tail 0) payload
      (onwards none (packetOf type cls dest 0 src part tag 0 tail payload) dim dir dl) := by
  obtain ⟨crc, he⟩ := packetOf_eq type cls dest 0 src part tag 0 tail payload
  unfold onwards
  rw [he, splice_second]
  have h := packet_fields type (pktClass (leBytes 1 type ++ (leBytes 1 cls ++ packetRest (dest % 512 + 0 % 16 * 512) (src % 512)
      (ceilDiv payload.length 64) (part % 16) crc tag 0 tail (padTo (64 * ceilDiv payload.length 64) payload))) +
      8 * upOf none (leBytes 1 type ++ (leBytes 1 cls ++ packetRest (dest % 512 + 0 % 16 * 512) (src % 512)
      (ceilDiv payload.length 64) (part % 16) crc tag 0 tail (padTo (64 * ceilDiv payload.length 64) payload))) dim dl + 16 * dir)
    (dest % 512 + 0 % 16 * 512) (src % 512) (ceilDiv payload.length 64) (part % 16) crc tag 0 tail (le_ceilDiv payload.length)
  rwa [show (dest % 512 + 0 % 16 * 512) % 512 = dest % 512 by omega] at h

theorem pktDest_packetOf (type cls dest src part tag : Nat) (tail payload : List Byte) :
    pktDest (packetOf type cls dest 0 src part tag 0 tail payload) = dest % 512 := by
  obtain ⟨crc, he⟩ := packetOf_eq type cls dest 0 src part tag 0 tail payload
  rw [he, (packet_fields type cls _ _ _ _ crc tag 0 tail (le_ceilDiv payload.length)).dest]
  omega

theorem pktSrc_lt (l : List Byte) : pktSrc l < 512 := Nat.mod_lt _ (by decide)
theorem pktTag_lt (l : List Byte) : pktTag l < 65536 := leAt_lt l 12 2

/-! ### Leaving -/

theorem leavesTo_mono {d e : Dev} {die dest : Nat} {P Q : List Byte → Prop} (h : LeavesTo d e die dest P) (hPQ : ∀ b, P b → Q b) :
    LeavesTo d e die dest Q := fun dim dir dl hr ho hb => by
  obtain ⟨o, l, hc, hs, hp⟩ := h dim dir dl hr ho hb
  exact ⟨o, l, hc, hs, hPQ l hp⟩

theorem leavesTo_finish {d e : Dev} {die dest : Nat} {P : List Byte → Prop} (h : LeavesTo d e die dest P) :
    LeavesTo d e.finish die dest P := fun dim dir dl hr ho hb => by
  obtain ⟨o, l, hc, hs, hp⟩ := h dim dir dl hr ho hb
  exact ⟨o, l, hc, sentOn_finish hs, hp⟩

/-- What leaves a device that routes alike leaves this one. -/
theorem SameRoutes.leavesTo {d d' e : Dev} {die dest : Nat} {P : List Byte → Prop} (hr : SameRoutes d d') (hd : die < 2)
    (h : LeavesTo d' e die dest P) : LeavesTo d e die dest P := fun dim dir dl hroute ⟨o, ho, hc⟩ hb => by
  have hroute' := (hr.route hd dest 3 0).trans hroute
  obtain ⟨o', l, hc', hs, hp⟩ := h dim dir dl hroute' ⟨o, ho, (hr.carries ho).2 hc⟩ (hr.bridge.trans hb)
  exact ⟨o', l, (hr.carries (carries_lt hc' (route_dim d' hroute'))).1 hc', hs, hp⟩

/-- A packet made here leaves by a link of its route. -/
theorem packet_leaves {die : Nat} (hd : die < 2) (err : Bool) (type cls dest src part tag : Nat) (tail payload : List Byte) :
    LeavesTo d (d.sendPacket die none err (packetOf type cls dest 0 src part tag 0 tail payload)) die (dest % 512)
      (Packet (type % 256) (dest % 512) (tag % 65536) (byteAt tail 0) payload) := fun dim dir dl hroute ⟨o, _, hc⟩ hb => by
  have hdest := pktDest_packetOf type cls dest src part tag tail payload
  obtain ⟨o', -, hc', hu⟩ := sendPacket_sent d hd none err (packetOf type cls dest 0 src part tag 0 tail payload)
    (by rw [hdest]; exact hroute) ⟨o, hc⟩ hb
  exact ⟨o', _, hc', hu.sentOn, onwards_fields ..⟩

theorem reply_keeps {die : Nat} (hd : die < 2) (l : List Byte) (type : Nat) (tail pl : List Byte) :
    LinkKeeps d (d.reply die l type tail pl) := sendPacket_keeps d hd _ _ _

theorem reply_leaves {die : Nat} (hd : die < 2) (l : List Byte) {type : Nat} (ht : type < 256) (tail pl : List Byte) :
    LeavesTo d (d.reply die l type tail pl) die (pktSrc l) (Packet type (pktSrc l) (pktTag l) (byteAt tail 0) pl) := by
  have h := packet_leaves d hd false type 3 (pktSrc l) d.devId (pktPart l) (pktTag l) tail pl
  rwa [Nat.mod_eq_of_lt (pktSrc_lt l), Nat.mod_eq_of_lt (pktTag_lt l), Nat.mod_eq_of_lt ht] at h

end Sys2Proof.Machine
end

section
/-! SUPPORT. Commons words with no uncorrectable error, read and written by requests of the partition (R40, R420 to R424). -/

namespace Sys2Proof.Machine

open Sys2Proof

variable (d : Dev)

/-! ### Reads -/

/-- What a read of clean Commons words of region `r` does: no word's error becomes worse, and one register counts. -/
structure CmnReads (r : Nat) (d e : Dev) : Prop where
  slim : e.slim = d.slim
  mem  : e.mem = d.mem
  rg   : ∀ a, a ≠ CMN_ECCCORR r → e.rg a = d.rg a
  ecc  : ∀ w, SMap.get 0 e.ecc w ≤ SMap.get 0 d.ecc w

theorem CmnReads.refl (r : Nat) : CmnReads r d d := ⟨rfl, rfl, fun _ _ => rfl, fun _ => Nat.le_refl _⟩
theorem CmnReads.trans {a b c : Dev} {r : Nat} (h : CmnReads r a b) (g : CmnReads r b c) : CmnReads r a c :=
  ⟨g.slim.trans h.slim, g.mem.trans h.mem, fun x hx => (g.rg x hx).trans (h.rg x hx), fun w => (g.ecc w).trans (h.ecc w)⟩

theorem cmnCorrected_reads (r w : Nat) : CmnReads r d (d.cmnCorrected r w) := by
  obtain ⟨hslim, hmem⟩ := cmnCorrected_slim d r w
  refine ⟨hslim, hmem, fun a ha => rg_cmnCorrected d r w ha, fun x => ?_⟩
  unfold Dev.cmnCorrected
  split
  · exact Nat.le_refl _
  · show SMap.get 0 (SMap.set 0 d.ecc w 0) x ≤ _
    rw [SMap.get_set]
    split
    · exact Nat.zero_le _
    · exact Nat.le_refl _

theorem CmnReads.clean {r w : Nat} {d e : Dev} (h : CmnReads r d e) (hw : SMap.get 0 d.ecc w < 2) : SMap.get 0 e.ecc w < 2 :=
  Nat.lt_of_le_of_lt (h.ecc w) hw

theorem rdB_congr {d e : Dev} (h : e.mem = d.mem) (a n : Nat) : e.rdB a n = d.rdB a n := by rw [rdB_eq_map, rdB_eq_map, h]

theorem rdB_add (a j k : Nat) : d.rdB a (j + k) = d.rdB a j ++ d.rdB (a + j) k := by
  rw [rdB_eq_map, rdB_eq_map, rdB_eq_map, List.range_add, List.map_append, List.map_map]
  simp [Function.comp_def, Nat.add_assoc]

theorem cleanAt_iff {a n : Nat} : d.cleanAt a n = true ↔
    ∀ k, k < (a + n + 7) / 8 - a / 8 → SMap.get 0 d.ecc (8 * (a / 8 + k)) < 2 := by
  simp [Dev.cleanAt, upTo]

/-- A read of clean Commons words returns the bytes stored. -/
theorem cmnRd_clean_bytes {r a n : Nat} (h : d.cleanAt a n = true) :
    CmnReads r d (d.cmnRd r a n).1 ∧ (d.cmnRd r a n).2 = d.rdB a n := by
  have hfold : ∀ m, m ≤ (a + n + 7) / 8 - a / 8 → ∃ e, CmnReads r d e ∧ (upTo m).foldl
      (fun (x : Dev × List Byte) k => let y := x.1.cmnFix r (8 * (a / 8 + k)); (y.1, x.2 ++ y.2)) (d, []) =
        (e, d.rdB (8 * (a / 8)) (8 * m)) := by
    intro m
    induction m with
    | zero => exact fun _ => ⟨d, .refl d r, rfl⟩
    | succ m ih =>
      intro hm
      obtain ⟨e, he, hf⟩ := ih (by omega)
      have hw : 8 * (8 * (a / 8 + m) / 8) = 8 * (a / 8 + m) := by omega
      have hclean := he.clean ((cleanAt_iff d).1 h m (by omega))
      have hfix := cmnFix_clean e r (a := 8 * (a / 8 + m)) (by rw [hw]; omega)
      rw [hw] at hfix
      refine ⟨_, he.trans (cmnCorrected_reads e r (8 * (a / 8 + m))), ?_⟩
      unfold upTo at hf ⊢
      rw [List.range_succ, List.foldl_append, hf]
      simp only [List.foldl_cons, List.foldl_nil, hfix]
      rw [rdB_congr he.mem, Nat.mul_add, Nat.mul_add 8 m 1, rdB_add]
  obtain ⟨e, he, hf⟩ := hfold _ (Nat.le_refl _)
  unfold Dev.cmnRd
  rw [hf]
  refine ⟨he, ?_⟩
  by_cases hn : n = 0
  · subst hn
    simp [slice, Dev.rdB]
  · dsimp only
    rw [slice_rdB d (by omega), show 8 * (a / 8) + a % 8 = a by omega]

/-! ### Writes -/

/-- What a write of bytes `l` at `a` of the Commons of region `r` does. -/
structure CmnWrites (r a : Nat) (l : List Byte) (d e : Dev) : Prop where
  mem  : e.mem = memWr d.mem a l
  slim : e.slim = d.slim
  rg   : ∀ b, b ≠ CMN_ECCCORR r → e.rg b = d.rg b

/-- A walk that corrects clean words. -/
theorem forEach_cmnFix_reads {r : Nat} : ∀ (l : List Nat) (d : Dev), (∀ w, w ∈ l → w % 8 = 0 ∧ SMap.get 0 d.ecc w < 2) →
    CmnReads r d (d.forEach l (fun d w => (d.cmnFix r w).1))
  | [], d, _ => .refl d r
  | w :: t, d, h => by
    obtain ⟨h8, hclean⟩ := h w (List.mem_cons_self ..)
    have hw : 8 * (w / 8) = w := by omega
    have hfix : (d.cmnFix r w).1 = d.cmnCorrected r w := by
      rw [cmnFix_clean d r (by rw [hw]; omega), hw]
    have h1 : CmnReads r d (d.cmnFix r w).1 := hfix ▸ cmnCorrected_reads d r w
    exact h1.trans (forEach_cmnFix_reads t _ (fun x hx => by
      obtain ⟨hx8, hx2⟩ := h x (List.mem_cons_of_mem _ hx)
      exact ⟨hx8, h1.clean hx2⟩))

theorem cmnPut_writes {r a : Nat} {l : List Byte} (h : d.cleanAt a l.length = true) : CmnWrites r a l d (d.cmnPut r a l) := by
  have hpart : ∀ w, w ∈ partWords a l.length → w % 8 = 0 ∧ SMap.get 0 d.ecc w < 2 := by
    intro w hw
    obtain ⟨k, hk, rfl⟩ := List.mem_map.1 (List.mem_filter.1 hw).1
    exact ⟨by omega, (cleanAt_iff d).1 h k (mem_upTo hk)⟩
  have hreads := forEach_cmnFix_reads (r := r) (partWords a l.length) d hpart
  unfold Dev.cmnPut
  generalize d.forEach (partWords a l.length) _ = e at *
  obtain ⟨hmem, hslim, hregs⟩ := cmnWr_writes e a l
  refine ⟨by rw [hmem, hreads.mem], hslim.trans hreads.slim, fun b hb => Eq.trans ?_ (hreads.rg b hb)⟩
  unfold Dev.rg
  rw [hregs]

/-- Port A's note concerns the region alone, and bank 15 alone. -/
theorem notePortA_keeps (r o n : Nat) : ∃ g, d.notePortA r o n = { d with regions := g } ∧ (o / 0x40000 ≠ 15 → g = d.regions) := by
  unfold Dev.notePortA
  split
  · exact ⟨_, rfl, fun _ => rfl⟩
  · rename_i h
    exact ⟨_, rfl, fun hn => absurd hn h⟩

/-! ### One access by the region router -/

/-- `n` bytes at `ad` lie in one bank of the Commons of region `r`, of partition `p`, which the router owns. -/
structure RouterBank (p r ad n : Nat) : Prop where
  region : r < 16
  base   : cmnBase r ≤ ad
  unit   : ad % 0x40000 + n ≤ 0x40000
  limit  : ad + n ≤ cmnBase r + 0x400000
  owns   : d.owns p r = true
  bank   : d.ownsBank r ((ad - cmnBase r) / 0x40000) ownRouter = true
  done   : d.flag (CMN_OWN r ((ad - cmnBase r) / 0x40000)) 31 = false
  clean  : d.cleanAt ad n = true
  bridge : d.flag FLT_STAT 4 = false
  some   : 1 ≤ n

section
variable {d} {p r ad n : Nat} (h : RouterBank d p r ad n)
include h

theorem RouterBank.offset_lt : ad - cmnBase r < 0x400000 := by
  have := h.base; have := h.limit; have := h.some; omega

theorem RouterBank.addr : cmnBase r + (ad - cmnBase r) = ad := by have := h.base; omega

theorem RouterBank.target : target ad = .commons 0 r (ad - cmnBase r) := by
  have ho := h.offset_lt
  have hr := h.region
  have hb := h.base
  unfold cmnBase at *
  have hw : ad / 0x100000000 = 0x140 := by omega
  have ht : ad % 0x100000000 = 0x400000 * r + (ad - (0x014000000000 + 0x400000 * r)) := by omega
  generalize ad - (0x014000000000 + 0x400000 * r) = o at *
  have h1 : (0x400000 * r + o) / 0x400000 = r := by omega
  have h2 : (0x400000 * r + o) % 0x400000 = o := by omega
  have h3 : 0x400000 * r + o < 0x4000000 := by omega
  unfold Machine.target
  dsimp only
  rw [hw, ht]
  simp [h1, h2, h3]

theorem RouterBank.may (a' n' : Nat) : d.may (.fabric p) (.commons 0 r (ad - cmnBase r)) a' n' = true := h.owns

theorem RouterBank.not_held : d.pendAt (.fabric p) ad n = false := by
  have hn := h.some
  have hu := h.unit
  have hb := h.base
  have hone : (ad - cmnBase r + n - 1) / 0x40000 = (ad - cmnBase r) / 0x40000 := by unfold cmnBase at *; omega
  unfold Dev.pendAt
  rw [h.target]
  dsimp only
  rw [Bool.and_eq_false_iff]
  refine .inl (List.any_eq_false.2 (fun b _ hx => ?_))
  simp only [Bool.and_eq_true, decide_eq_true_eq, hone] at hx
  obtain ⟨⟨⟨h1, h2⟩, hflag⟩, -⟩ := hx
  obtain rfl : b = (ad - cmnBase r) / 0x40000 := by omega
  rw [h.done] at hflag
  exact absurd hflag (by decide)

theorem RouterBank.not_bad : d.holdsUnc ad n = false := by
  unfold Dev.holdsUnc
  rw [h.target]
  dsimp only
  rw [h.addr, h.clean]
  rfl

theorem RouterBank.unitSize : d.unitSize = 0x40000 := by unfold Dev.unitSize; rw [h.bridge]; rfl

theorem RouterBank.no_cut (die : Nat) (t : Target) (a : Nat) : d.bridgeCut die t a = false := by
  unfold Dev.bridgeCut; rw [h.bridge]; rfl

/-- One read. -/
theorem RouterBank.busRead (die : Nat) : CmnReads r d (d.busRead (.fabric p) die ad n).1 ∧
    (d.busRead (.fabric p) die ad n).2 = (d.rdB ad n, true) := by
  have hn := h.some
  have hu := h.unit
  have hunit : d.readUnit (.fabric p) die ad n = ((d.cmnRd r ad n).1, (d.cmnRd r ad n).2, true) := by
    have hown : d.ownsBank r ((ad - cmnBase r) / 0x40000) (bankAgent (.fabric p) r) = true := h.bank
    unfold Dev.readUnit
    rw [h.target]
    dsimp only
    rw [h.may, h.no_cut, hown, h.addr]
    rfl
  obtain ⟨hreads, hbytes⟩ := cmnRd_clean_bytes (r := r) d h.clean
  have hbus : d.busRead (.fabric p) die ad n = ((d.cmnRd r ad n).1, d.rdB ad n, true) := by
    unfold Dev.busRead
    rw [Dev.busReadN, if_neg (by omega)]
    dsimp only
    rw [h.unitSize, Nat.min_eq_left (by omega), hunit, Nat.sub_self, hbytes]
    have hend : ∀ (f b : Nat) (e : Dev), Dev.busReadN (.fabric p) die f b 0 e = (e, [], true) := fun f b e => by cases f <;> rfl
    rw [hend]
    simp
  rw [hbus]
  exact ⟨hreads, rfl⟩

/-- What one write by the router does. -/
theorem RouterBank.busWrite (die : Nat) {l : List Byte} (hl : l.length = n) (s : Sender) :
    ∃ e g, d.busWrite (.fabric p) die ad l s = (e, true) ∧ CmnWrites r ad l { d with regions := g } e ∧
      ((ad - cmnBase r) / 0x40000 ≠ 15 → g = d.regions) := by
  have hn := h.some
  have hu := h.unit
  obtain ⟨g, hnote, hg⟩ := notePortA_keeps d r (ad - cmnBase r) n
  have hclean : ({ d with regions := g } : Dev).cleanAt ad l.length = true := by rw [hl]; exact h.clean
  have hputs := cmnPut_writes { d with regions := g } (r := r) (l := l) hclean
  refine ⟨_, g, ?_, hputs, hg⟩
  have hunit : d.writeUnit (.fabric p) die ad l s = (({ d with regions := g } : Dev).cmnPut r ad l, true) := by
    have hown : d.ownsBank r ((ad - cmnBase r) / 0x40000) (bankAgent (.fabric p) r) = true := h.bank
    unfold Dev.writeUnit
    rw [h.target]
    dsimp only
    rw [h.may, h.no_cut, hown, h.addr, hl, hnote]
    rfl
  have halias : isAlias ad = false := by unfold isAlias; rw [h.target]; rfl
  have hne : l.isEmpty = false := by
    cases l with
    | nil => simp at hl; omega
    | cons b t => rfl
  have hend : ∀ (f b : Nat) (e : Dev), Dev.busWriteN (.fabric p) die s f b [] e = (e, true) := fun f b e => by cases f <;> rfl
  unfold Dev.busWrite
  rw [Dev.busWriteN]
  simp only [hne, halias, Bool.false_eq_true, if_false, h.unitSize]
  rw [Nat.min_eq_left (by omega), List.take_length, List.drop_length, hunit, hend]
  rfl

end

end Sys2Proof.Machine
end

section
/-! SUPPORT. Requests of other devices at their target: READ, WRITE and BULK_WRITE (R39, R40, R252 to R254, R606). -/

namespace Sys2Proof.Machine

open Sys2Proof

variable (d : Dev)

theorem exec_readRequest (q : Nat) (l : List Byte) (s : State) : exec (.readRequest q l) s = s.run (·.readRequest q l) := rfl
theorem exec_writeRequest (q : Nat) (l : List Byte) (s : State) : exec (.writeRequest q l) s = s.run (·.writeRequest q l) := rfl
theorem exec_bulkWrite (q : Nat) (l : List Byte) (s : State) : exec (.bulkWrite q l) s = s.run (·.bulkWrite q l) := rfl
theorem exec_bulkAckTimer (k : Nat) (s : State) : exec (.bulkAckTimer k) s = s.run (·.bulkTimer k) := rfl

/-! ### What every request meets first -/

theorem atTarget_serves {q type : Nat} {l : List Byte} (f : Dev → Dev) (hg : pktGood l = true ∧ pktType l = type)
    (hc : d.choked (pktPart l) = false) (hb : d.badAddress l = false) (hn : 1 ≤ rqLen l ∧ rqLen l ≤ 2048)
    (hp : type = 0x20 ∨ rqLen l ≤ (pktPay l).length) : d.atTarget q type l f = f (d.takePacket l) := by
  have hc' : (d.takePacket l).choked (pktPart l) = false := hc
  have hb' : (d.takePacket l).badAddress l = false := hb
  obtain ⟨hgood, htype⟩ := hg
  unfold Dev.atTarget
  dsimp only
  rw [if_neg (by simp [hgood, htype]), if_neg (by simp [hc']), if_neg]
  simp only [hb', Bool.false_or, Bool.or_eq_true, Bool.and_eq_true, decide_eq_true_eq]
  omega

theorem atTarget_choked {q type : Nat} {l : List Byte} (f : Dev → Dev) (hg : pktGood l = true ∧ pktType l = type)
    (hc : d.choked (pktPart l) = true) :
    d.atTarget q type l f = ((d.takePacket l).bump FLT_CHOKEDROP 1).reply (q / 4) l 0x32 (leBytes 1 2) [] := by
  have hc' : (d.takePacket l).choked (pktPart l) = true := hc
  obtain ⟨hgood, htype⟩ := hg
  unfold Dev.atTarget
  dsimp only
  rw [if_neg (by simp [hgood, htype]), if_pos hc']

theorem atTarget_bad {q type : Nat} {l : List Byte} (f : Dev → Dev) (hg : pktGood l = true ∧ pktType l = type)
    (hc : d.choked (pktPart l) = false) (hb : d.badAddress l = true) :
    d.atTarget q type l f = (d.takePacket l).addressError (q / 4) l := by
  have hc' : (d.takePacket l).choked (pktPart l) = false := hc
  have hb' : (d.takePacket l).badAddress l = true := hb
  obtain ⟨hgood, htype⟩ := hg
  unfold Dev.atTarget
  dsimp only
  rw [if_neg (by simp [hgood, htype]), if_neg (by simp [hc']), if_pos (by simp [hb'])]

/-! ### Choked partitions and address errors -/

theorem not_follow_flt {a : Nat} (h : 0xC0000 < a ∧ a < 0xC0100) : ¬ FollowReg a := by
  unfold FollowReg FLT_STAT TAB_BSTAT FLT_PMUTE TAB_CHSTAT PWR_DSTAT
  omega

theorem not_route_flt {a : Nat} (h : 0xC0000 < a ∧ a < 0xC0100) : ¬ RouteReg a := fun hr => by have := hr.place; omega

/-- The answer to a request of a Choked partition (R606). -/
theorem choked_runs {c : Instr} {s : State} {f : Dev → Dev} {die : Nat} {l : List Byte} (he : exec c s = s.run f) (hd : die < 2)
    (hf : f s.dev = ((s.dev.takePacket l).bump FLT_CHOKEDROP 1).reply die l 0x32 (leBytes 1 2) []) :
    Runs c s (fun e => e.rg FLT_CHOKEDROP = satInc (s.dev.rg FLT_CHOKEDROP) 1 % 2 ^ 32 ∧ e.bulks = s.dev.bulks ∧
      LeavesTo s.dev e die (pktSrc l) (fun b => pktType b = 0x32 ∧ pktDest b = pktSrc l ∧ pktTag b = pktTag l ∧ byteAt b 16 = 2) ∧
      SameMem s.dev e ∧ SameUnits s.dev e) := by
  have hflt : 0xC0000 < FLT_CHOKEDROP ∧ FLT_CHOKEDROP < 0xC0100 := by decide
  rw [runs_iff he, hf]
  have hkeeps := reply_keeps ((s.dev.takePacket l).bump FLT_CHOKEDROP 1) hd l 0x32 (leBytes 1 2) []
  have hleaves := reply_leaves ((s.dev.takePacket l).bump FLT_CHOKEDROP 1) hd l (type := 0x32) (by decide) (leBytes 1 2) []
  have hsame : SameRoutes s.dev ((s.dev.takePacket l).bump FLT_CHOKEDROP 1) :=
    fun a ha => rg_bump_ne _ (fun e => not_route_flt hflt (e ▸ ha))
  generalize ((s.dev.takePacket l).bump FLT_CHOKEDROP 1).reply die l 0x32 (leBytes 1 2) [] = e at *
  refine ⟨?_, ?_, ?_, fun a => ?_, sameUnits_finish hkeeps.units⟩
  · rw [rg_finish _ (not_follow_flt hflt), hkeeps.rg _ (fun h => by have := LinkReg.place h; omega)]
    exact rg_bump_same _ _ _
  · rw [finish_bulks]
    exact (congrArg Dev.bulks hkeeps.unlinked :)
  · exact leavesTo_finish (hsame.leavesTo hd (leavesTo_mono hleaves (fun b h => ⟨h.type, h.dest, h.tag, h.st⟩)))
  · rw [finish_mem, hkeeps.mem]
    rfl

/-- An address error told to the source of the request, and what else it leaves (R39). -/
theorem addressError_leaves {die : Nat} (hd : die < 2) (l : List Byte) :
    LeavesTo d (d.addressError die l) die (pktSrc l) (Packet 0x32 (pktSrc l) (pktTag l) 1 []) ∧
    (d.addressError die l).bulks = d.bulks := by
  have hlog : ∀ a, RouteReg a → ¬ LogReg a := fun a ha => by
    have := ha.place
    unfold LogReg BookReg CAR_LOGSEQ CAR_JSKIP OBS_TSTAT OBS_TFIFO OBS_TDROP CAR_BOUT CAR_BSTAT
    omega
  have hne : ∀ a, RouteReg a → a ≠ FAB_ADDRERR die ∧ a ≠ FAB_DSTAT die ∧ a ≠ FLT_ADDRERR := fun a ha => by
    have := ha.place
    unfold FAB_ADDRERR FAB_DSTAT FLT_ADDRERR
    omega
  unfold Dev.addressError
  dsimp only
  generalize he : (((d.bump (FAB_ADDRERR die) 1).setFlag (FAB_DSTAT die) 1 true).bump FLT_ADDRERR 1) = e
  have hfault := addrFault_keeps e (srcDie die)
  generalize hg : e.fault fAddr [] (srcDie die) = f at *
  have hsame : SameRoutes d f := fun a ha => by
    obtain ⟨h1, h2, h3⟩ := hne a ha
    rw [hfault.rg a (hlog a ha), ← he, rg_bump_ne _ h3, rg_setFlag_ne _ h2, rg_bump_ne _ h1]
  refine ⟨hsame.leavesTo hd (reply_leaves f hd l (by decide) (leBytes 1 1) []), ?_⟩
  have hbulks : f.bulks = d.bulks := by
    have hq := hfault.quiet
    subst he
    exact (congrArg Dev.bulks hq :)
  exact Eq.trans (congrArg Dev.bulks (reply_keeps f hd l 0x32 (leBytes 1 1) []).unlinked :) hbulks

/-- A request whose address is in error (R39, R657). -/
theorem badRequest_runs {c : Instr} {s : State} {f : Dev → Dev} {die : Nat} {l : List Byte} (he : exec c s = s.run f) (hd : die < 2)
    (hf : f s.dev = (s.dev.takePacket l).addressError die l) :
    Runs c s (fun e => e.rg (FAB_ADDRERR die) = satInc (s.dev.rg (FAB_ADDRERR die)) 1 % 2 ^ 32 ∧
      e.rg FLT_ADDRERR = satInc (s.dev.rg FLT_ADDRERR) 1 % 2 ^ 32 ∧ e.flag (FAB_DSTAT die) 1 = true ∧
      LeavesTo s.dev e die (pktSrc l) (fun b => pktType b = 0x32 ∧ pktDest b = pktSrc l ∧ pktTag b = pktTag l ∧ byteAt b 16 = 1) ∧
      SameMem s.dev e ∧ e.bulks = s.dev.bulks) := by
  have ha : FAB_ADDRERR die = 0x40000 + 0x10000 * die + 0x18 := rfl
  have hs : FAB_DSTAT die = 0x40000 + 0x10000 * die + 4 := rfl
  rw [runs_iff he, hf]
  obtain ⟨haddr, hflt, hstat, -, -, hmem⟩ := addressError_spec (s.dev.takePacket l) hd l
  obtain ⟨hleaves, hbulks⟩ := addressError_leaves (s.dev.takePacket l) hd l
  have hsame : SameRoutes s.dev (s.dev.takePacket l) := fun _ _ => rfl
  refine ⟨?_, ?_, ?_, ?_, fun a => ?_, ?_⟩
  · rw [rg_finish_port _ (by omega)]; exact haddr
  · rw [rg_finish _ (not_follow_flt (by decide))]; exact hflt
  · rw [flag_congr 1 (rg_finish_port _ (by omega))]; exact hstat
  · exact leavesTo_finish (hsame.leavesTo hd (leavesTo_mono hleaves (fun b h => ⟨h.type, h.dest, h.tag, h.st⟩)))
  · rw [finish_mem, hmem]; rfl
  · rw [finish_bulks]; exact hbulks

/-! ### Accesses to Commons words -/

theorem cmnEcc_not_route (r : Nat) : ¬ RouteReg (CMN_ECCCORR r) := fun h => by
  have := h.place
  unfold CMN_ECCCORR slotBase at this
  omega

/-- A read keeps all but the ECC state and its count. -/
theorem CmnReads.routes {r : Nat} {d e : Dev} (h : CmnReads r d e) : SameRoutes d e :=
  fun a ha => h.rg a (fun x => cmnEcc_not_route r (x ▸ ha))
theorem CmnWrites.routes {r a : Nat} {l : List Byte} {d e : Dev} (h : CmnWrites r a l d e) : SameRoutes d e :=
  fun b hb => h.rg b (fun x => cmnEcc_not_route r (x ▸ hb))

/-- The words of the statements that one access of the router's is about. -/
theorem routerBank_of {d : Dev} {p r ad n : Nat} (hr : r < 16)
    (ha : cmnBase r ≤ ad ∧ ad % 0x40000 + n ≤ 0x40000 ∧ ad + n ≤ cmnBase r + 0x400000) (hp : d.owns p r = true)
    (ho : d.ownsBank r ((ad - cmnBase r) / 0x40000) ownRouter = true) (hd : d.flag (CMN_OWN r ((ad - cmnBase r) / 0x40000)) 31 = false)
    (hc : d.cleanAt ad n = true) (hb : d.flag FLT_STAT 4 = false) (hn : 1 ≤ n) : RouterBank d p r ad n :=
  ⟨hr, ha.1, ha.2.1, ha.2.2, hp, ho, hd, hc, hb, hn⟩

theorem RouterBank.taken {d : Dev} {p r ad n : Nat} (h : RouterBank d p r ad n) (l : List Byte) :
    RouterBank (d.takePacket l) p r ad n :=
  ⟨h.region, h.base, h.unit, h.limit, h.owns, h.bank, h.done, h.clean, h.bridge, h.some⟩

/-- READ_REQUEST of Commons words (R40). -/
theorem readRequest_runs (s : State) {q r ad n : Nat} {l : List Byte} (hq : q < 8) (hg : pktGood l = true ∧ pktType l = 0x20)
    (hc : s.dev.choked (pktPart l) = false) (hb : s.dev.badAddress l = false) (hn : n = rqLen l ∧ 1 ≤ n ∧ n ≤ 2048)
    (had : ad = rqAddr l % 2 ^ 48) (hbank : RouterBank s.dev (pktPart l) r ad n) : Runs (.readRequest q l) s (fun e =>
      e.inbox = s.dev.inbox.erase l ∧ LeavesTo s.dev e (q / 4) (pktSrc l) (fun b => pktType b = 0x30 ∧ pktDest b = pktSrc l ∧
      pktTag b = pktTag l ∧ byteAt b 16 = 0 ∧ (pktPay b).take n = s.dev.rdB ad n) ∧ SameMem s.dev e ∧ SameUnits s.dev e) := by
  obtain ⟨hlen, hn1, hn2⟩ := hn
  have hdie : q / 4 < 2 := by omega
  have htaken := hbank.taken l
  obtain ⟨hreads, hbytes⟩ := htaken.busRead (q / 4)
  have he : s.dev.readRequest q l = ((s.dev.takePacket l).busRead (.fabric (pktPart l)) (q / 4) ad n).1.reply (q / 4) l 0x30
      (leBytes 1 0 ++ zeros 3 ++ leBytes 4 n) (s.dev.rdB ad n) := by
    unfold Dev.readRequest
    rw [atTarget_serves s.dev _ hg hc hb (by omega) (.inl rfl)]
    dsimp only
    rw [← had, ← hlen, htaken.not_held, htaken.not_bad]
    generalize (s.dev.takePacket l).busRead (.fabric (pktPart l)) (q / 4) ad n = x at *
    obtain ⟨e, y⟩ := x
    obtain rfl : y = (s.dev.rdB ad n, true) := hbytes.trans (by rw [rdB_congr (d := s.dev) (e := s.dev.takePacket l) rfl])
    rfl
  rw [runs_iff (exec_readRequest q l s), he]
  generalize ((s.dev.takePacket l).busRead (.fabric (pktPart l)) (q / 4) ad n).1 = e at *
  have hkeeps := reply_keeps e hdie l 0x30 (leBytes 1 0 ++ zeros 3 ++ leBytes 4 n) (s.dev.rdB ad n)
  have hleaves := reply_leaves e hdie l (type := 0x30) (by decide) (leBytes 1 0 ++ zeros 3 ++ leBytes 4 n) (s.dev.rdB ad n)
  have hslim := hreads.slim
  have hsame : SameRoutes s.dev e := hreads.routes
  refine ⟨?_, leavesTo_finish (hsame.leavesTo hdie (leavesTo_mono hleaves (fun b h => ⟨h.type, h.dest, h.tag, ?_, ?_⟩))), fun a => ?_,
    sameUnits_finish (hkeeps.units.trans (congrArg Dev.units hslim :))⟩
  · rw [finish_inbox, hkeeps.inbox]; exact (congrArg Dev.inbox hslim :)
  · rw [h.st, List.append_assoc, byteAt_leBytes _ (by decide)]
  · have hpay := h.pay; rwa [length_rdB] at hpay
  · rw [finish_mem, hkeeps.mem, hreads.mem]; rfl

/-- What is left after one write by the router. -/
theorem CmnWrites.shows {d e f : Dev} {g : SMap Region} {r ad : Nat} {l : List Byte}
    (h : CmnWrites r ad l { d with regions := g } e) (hg : (ad - cmnBase r) / 0x40000 ≠ 15 → g = d.regions)
    (hmem : f.mem = e.mem) (hu : f.units = e.units) :
    (∀ k, k < l.length → f.finish.mem.read (ad + k) = l.getD k 0#8) ∧
    MemKeeps d f.finish (fun a => ad ≤ a ∧ a < ad + l.length) ∧
    ((ad - cmnBase r) / 0x40000 ≠ 15 → SameUnits d f.finish) ∧ f.finish.cores = d.cores ∧ f.finish.parts = d.parts ∧
    f.finish.tcores = d.tcores ∧ f.finish.scores = d.scores := by
  have hread : ∀ a, f.finish.mem.read a = if ad ≤ a ∧ a < ad + l.length then l.getD (a - ad) 0#8 else d.mem.read a := fun a => by
    rw [finish_mem, hmem, h.mem, memWr_read]
  have hslim := h.slim
  have hunits : f.units = ({ d with regions := g } : Dev).units := hu.trans (congrArg Dev.units hslim :)
  obtain ⟨hcores, -, hparts, htcores, hscores⟩ := sameUnits_finish hunits
  refine ⟨fun k hk => ?_, fun a ha => ?_, fun hb => ?_, hcores, hparts, htcores, hscores⟩
  · rw [hread, if_pos (by omega), Nat.add_sub_cancel_left]
  · rw [hread, if_neg ha]
  · have := hg hb
    subst this
    exact sameUnits_finish hunits

theorem getD_take {l : List Byte} {k n : Nat} (h : k < n) : (l.take n).getD k 0#8 = l.getD k 0#8 := by
  rw [List.getD_eq_getElem?_getD, List.getD_eq_getElem?_getD, List.getElem?_take_of_lt h]

/-- WRITE_REQUEST to Commons words (R40). -/
theorem writeRequest_runs (s : State) {q r ad n : Nat} {l : List Byte} (hq : q < 8) (hg : pktGood l = true ∧ pktType l = 0x21)
    (hc : s.dev.choked (pktPart l) = false) (hb : s.dev.badAddress l = false)
    (hn : n = rqLen l ∧ 1 ≤ n ∧ n ≤ 2048 ∧ n ≤ (pktPay l).length)
    (had : ad = rqAddr l % 2 ^ 48) (hbank : RouterBank s.dev (pktPart l) r ad n) : Runs (.writeRequest q l) s (fun e =>
      e.inbox = s.dev.inbox.erase l ∧ (∀ k, k < n → e.mem.read (ad + k) = (pktPay l).getD k 0#8) ∧
      MemKeeps s.dev e (fun a => ad ≤ a ∧ a < ad + n) ∧ LeavesTo s.dev e (q / 4) (pktSrc l) (fun b => pktType b = 0x31 ∧
      pktDest b = pktSrc l ∧ pktTag b = pktTag l ∧ byteAt b 16 = 0) ∧ ((ad - cmnBase r) / 0x40000 ≠ 15 → SameUnits s.dev e) ∧
      e.cores = s.dev.cores ∧ e.parts = s.dev.parts ∧ e.tcores = s.dev.tcores ∧ e.scores = s.dev.scores) := by
  obtain ⟨hlen, hn1, hn2, hn3⟩ := hn
  have hdie : q / 4 < 2 := by omega
  have htaken := hbank.taken l
  have hdata : ((pktPay l).take n).length = n := by rw [List.length_take]; omega
  obtain ⟨e, g, hbus, hwrites, hbank15⟩ := htaken.busWrite (q / 4) hdata (.fabric (q / 4) l)
  have hwin : toWindow ad = false := by unfold toWindow; rw [hbank.target]
  have he : s.dev.writeRequest q l = e.reply (q / 4) l 0x31 (zeros 2) [] := by
    unfold Dev.writeRequest
    rw [atTarget_serves s.dev _ hg hc hb (by omega) (.inr (by omega))]
    dsimp only
    rw [← had, ← hlen, htaken.not_held, hbus]
    dsimp only
    rw [hwin]
    rfl
  rw [runs_iff (exec_writeRequest q l s), he]
  have hkeeps := reply_keeps e hdie l 0x31 (zeros 2) []
  have hleaves := reply_leaves e hdie l (type := 0x31) (by decide) (zeros 2) []
  obtain ⟨hread, hmem, hunits, hothers⟩ := hwrites.shows hbank15 hkeeps.mem hkeeps.units
  rw [hdata] at hread hmem
  have hslim := hwrites.slim
  have hsame : SameRoutes s.dev e := hwrites.routes
  refine ⟨?_, fun k hk => by rw [hread k hk, getD_take hk], hmem,
    leavesTo_finish (hsame.leavesTo hdie (leavesTo_mono hleaves (fun b h => ⟨h.type, h.dest, h.tag, h.st⟩))), hunits, hothers⟩
  rw [finish_inbox, hkeeps.inbox]
  exact (congrArg Dev.inbox hslim :)

/-! ### Bulk transfers (R254) -/

/-- The end of a transfer drops it and acknowledges it. -/
theorem bulkEnd_spec {b : Bulk} (hd : b.die < 2) : (d.bulkEnd b).bulks = d.bulks.filter (fun x => x != b) ∧
    LinkKeeps { d with bulks := d.bulks.filter (fun x => x != b) } (d.bulkEnd b) ∧
    LeavesTo d (d.bulkEnd b) b.die (b.src % 512) (Packet 0x33 (b.src % 512) (b.tag % 65536)
      (if b.got.length < b.npkt then 4 else 0) []) := by
  have htail : byteAt (leBytes 1 (if b.got.length < b.npkt then 4 else 0) ++ zeros 11 ++ leBytes 2 b.xfer ++ zeros 2 ++
      leBytes 2 b.got.length) 0 = if b.got.length < b.npkt then 4 else 0 := by
    simp only [List.append_assoc]
    rw [byteAt_leBytes _ (by decide)]
    split <;> rfl
  have hkeeps : LinkKeeps { d with bulks := d.bulks.filter (fun x => x != b) } (d.bulkEnd b) := by
    unfold Dev.bulkEnd
    exact sendPacket_keeps _ hd _ _ _
  have hsame : SameRoutes d { d with bulks := d.bulks.filter (fun x => x != b) } := fun _ _ => rfl
  have hleaves := packet_leaves { d with bulks := d.bulks.filter (fun x => x != b) } hd false 0x33 3 b.src d.devId b.part b.tag
    (leBytes 1 (if b.got.length < b.npkt then 4 else 0) ++ zeros 11 ++ leBytes 2 b.xfer ++ zeros 2 ++ leBytes 2 b.got.length) []
  rw [htail] at hleaves
  exact ⟨(congrArg Dev.bulks hkeeps.unlinked :), hkeeps, hsame.leavesTo hd hleaves⟩

theorem bulkAckTimer_runs (s : State) {k : Nat} {b : Bulk} (hk : s.dev.bulks[k]? = some b) (hd : b.die < 2) :
    Runs (.bulkAckTimer k) s (fun e => e.bulks = s.dev.bulks.filter (fun x => x != b) ∧ LeavesTo s.dev e b.die (b.src % 512) (fun y =>
      pktType y = 0x33 ∧ pktDest y = b.src % 512 ∧ pktTag y = b.tag % 65536 ∧ byteAt y 16 = (if b.got.length < b.npkt then 4 else 0)) ∧
      SameMem s.dev e ∧ SameUnits s.dev e) := by
  obtain ⟨hbulks, hkeeps, hleaves⟩ := bulkEnd_spec s.dev hd
  have he : s.dev.bulkTimer k = s.dev.bulkEnd b := by unfold Dev.bulkTimer; rw [hk]
  rw [runs_iff (exec_bulkAckTimer k s), he, finish_bulks]
  refine ⟨hbulks, leavesTo_finish (leavesTo_mono hleaves (fun y h => ⟨h.type, h.dest, h.tag, h.st⟩)), fun a => ?_,
    sameUnits_finish hkeeps.units⟩
  rw [finish_mem, hkeeps.mem]

/-- A transfer whose first packet `l`, from port `q`, is written. -/
def firstBulk (q : Nat) (l : List Byte) : Bulk where
  die := q / 4
  src := pktSrc l
  part := pktPart l
  tag := pktTag l
  xfer := leAt l 28 2
  npkt := leAt l 32 2
  got := [leAt l 30 2]

/-- BULK_WRITE to Commons words, the first packet of its transfer (R254). -/
theorem bulkWrite_runs (s : State) {q r ad n : Nat} {l : List Byte} (hq : q < 8) (hg : pktGood l = true ∧ pktType l = 0x50)
    (hc : s.dev.choked (pktPart l) = false) (hb : s.dev.badAddress l = false)
    (hn : n = rqLen l ∧ 1 ≤ n ∧ n ≤ 2048 ∧ n ≤ (pktPay l).length)
    (had : ad = rqAddr l % 2 ^ 48) (hbank : RouterBank s.dev (pktPart l) r ad n) (hbulks : s.dev.bulks = []) :
    Runs (.bulkWrite q l) s (fun e => (∀ k, k < n → e.mem.read (ad + k) = (pktPay l).getD k 0#8) ∧
      MemKeeps s.dev e (fun a => ad ≤ a ∧ a < ad + n) ∧ (e.bulks.map Bulk.got = if leAt l 32 2 ≤ 1 then [] else [[leAt l 30 2]]) ∧
      ((ad - cmnBase r) / 0x40000 ≠ 15 → SameUnits s.dev e) ∧ e.cores = s.dev.cores ∧ e.parts = s.dev.parts ∧
      e.tcores = s.dev.tcores ∧ e.scores = s.dev.scores) := by
  obtain ⟨hlen, hn1, hn2, hn3⟩ := hn
  have hdie : q / 4 < 2 := by omega
  have htaken := hbank.taken l
  have hdata : ((pktPay l).take n).length = n := by rw [List.length_take]; omega
  obtain ⟨e, g, hbus, hwrites, hbank15⟩ := htaken.busWrite (q / 4) hdata .nobody
  have hslim := hwrites.slim
  have hnone : e.bulks = [] := Eq.trans (congrArg Dev.bulks hslim :) hbulks
  have he : s.dev.bulkWrite q l = if leAt l 32 2 ≤ 1 then ({ e with bulks := [firstBulk q l] } : Dev).bulkEnd (firstBulk q l)
      else { e with bulks := [firstBulk q l] } := by
    unfold Dev.bulkWrite
    rw [atTarget_serves s.dev _ hg hc hb (by omega) (.inr (by omega))]
    dsimp only
    rw [← had, ← hlen, htaken.not_held, hbus]
    simp only [hnone, List.find?_nil, Option.getD_none, List.contains_nil, Bool.not_false, Bool.and_true, Bool.false_eq_true, if_false,
      if_true, List.nil_append, List.filter_nil]
    rfl
  obtain ⟨hends, hkeeps, -⟩ := bulkEnd_spec ({ e with bulks := [firstBulk q l] } : Dev) (b := firstBulk q l) hdie
  have hfinal : ∃ f, s.dev.bulkWrite q l = f ∧ f.mem = e.mem ∧ f.units = e.units ∧
      f.bulks.map Bulk.got = if leAt l 32 2 ≤ 1 then [] else [[leAt l 30 2]] := by
    rw [he]
    by_cases hone : leAt l 32 2 ≤ 1
    · rw [if_pos hone, if_pos hone]
      exact ⟨_, rfl, hkeeps.mem, hkeeps.units, by rw [hends]; simp⟩
    · rw [if_neg hone, if_neg hone]
      exact ⟨_, rfl, rfl, rfl, rfl⟩
  obtain ⟨f, hf, hmem, hu, hgot⟩ := hfinal
  obtain ⟨hread, hkeepsmem, hunits, hothers⟩ := hwrites.shows hbank15 hmem hu
  rw [hdata] at hread hkeepsmem
  rw [runs_iff (exec_bulkWrite q l s), hf, finish_bulks]
  exact ⟨fun k hk => by rw [hread k hk, getD_take hk], hkeepsmem, hgot, hunits, hothers⟩

end Sys2Proof.Machine
end

section
/-! SUPPORT. The S-core's operations: which it has, and what the end of one does (R252, R253, R400 to R403). -/

namespace Sys2Proof.Machine

open Sys2Proof

variable (d : Dev)

theorem score_setScore (r j : Nat) (x : SCore) : (d.setScore r x).score j = if j = r then x else d.score j := SMap.get_set ..

theorem score_setF (a lo w v j : Nat) : (d.setF a lo w v).score j = d.score j := by unfold Dev.score; rw [setF_scores]

/-- The device without its registers and S-cores. -/
def Dev.unscored : Dev := { d with regs := [], scores := [] }

theorem setF_unscored (a lo w v : Nat) : (d.setF a lo w v).unscored = d.unscored := rfl
theorem setScore_unscored (r : Nat) (x : SCore) : (d.setScore r x).unscored = d.unscored := rfl

/-- A device like `d`, but the S-core of region `r` has the operations `ops`. -/
structure OpsAre (r : Nat) (ops : List SOp) (d e : Dev) : Prop where
  unscored : e.unscored = d.unscored
  regs     : e.regs = d.regs
  score    : e.score r = { d.score r with ops := ops }

theorem OpsAre.refl (r : Nat) : OpsAre r (d.score r).ops d d := ⟨rfl, rfl, rfl⟩

section
variable {d} {e : Dev} {r : Nat} {ops : List SOp} (h : OpsAre r ops d e)
include h

theorem OpsAre.opOf (id : Nat) : e.opOf r id = ops.find? (fun o => o.id == id) := by unfold Dev.opOf; rw [h.score]

theorem OpsAre.rg (a : Nat) : e.rg a = d.rg a := by unfold Dev.rg; rw [h.regs]

theorem OpsAre.seqPc : e.seqPc r = d.seqPc r := fld_congr _ _ (h.rg _)

theorem OpsAre.seqDesc : e.seqDesc r = d.seqDesc r := by
  unfold Dev.seqDesc Dev.progAt
  rw [h.seqPc, h.score]

/-- The S-core's operations replaced once more. -/
theorem OpsAre.setScore (ops' : List SOp) : OpsAre r ops' d (e.setScore r { e.score r with ops := ops' }) :=
  ⟨h.unscored, h.regs, by rw [score_setScore, if_pos rfl, h.score]⟩

end

/-- The operations with those of `o`'s number replaced by it. -/
def putOp (ops : List SOp) (o : SOp) : List SOp := ops.map (fun y => if y.id == o.id then o else y)

theorem find?_putOp {ops : List SOp} {o o' : SOp} {id : Nat} (h : ops.find? (fun y => y.id == id) = some o) (hid : o'.id = id) :
    (putOp ops o').find? (fun y => y.id == id) = some o' := by
  induction ops with
  | nil => exact absurd h (by simp)
  | cons y t ih =>
    have hmap : putOp (y :: t) o' = (if y.id == o'.id then o' else y) :: putOp t o' := rfl
    rw [hmap, hid]
    by_cases hy : (y.id == id) = true
    · rw [if_pos hy, List.find?_cons_of_pos (by rw [hid]; exact beq_self_eq_true _)]
    · rw [Bool.not_eq_true] at hy
      rw [List.find?_cons, hy] at h
      rw [if_neg (by simp [hy]), List.find?_cons, hy]
      exact ih h

theorem find?_id {ops : List SOp} {o : SOp} {id : Nat} (h : ops.find? (fun y => y.id == id) = some o) : o.id = id := by
  simpa using List.find?_some h

/-- No operation is held back. -/
def NoneHeld (ops : List SOp) : Prop := ∀ y, y ∈ ops → y.held = false

theorem NoneHeld.putOp {ops : List SOp} {o : SOp} (h : NoneHeld ops) (ho : o.held = false) : NoneHeld (putOp ops o) := by
  intro y hy
  obtain ⟨z, hz, rfl⟩ := List.mem_map.1 hy
  split
  · exact ho
  · exact h z hz

theorem NoneHeld.find {ops : List SOp} {o : SOp} {id : Nat} (h : NoneHeld ops) (ho : ops.find? (fun y => y.id == id) = some o) :
    o.held = false := h o (List.mem_of_find?_eq_some ho)

theorem NoneHeld.filter {ops : List SOp} (h : NoneHeld ops) (p : SOp → Bool) : NoneHeld (ops.filter p) :=
  fun y hy => h y (List.mem_filter.1 hy).1

/-- Nothing held back goes on. -/
theorem opsGo_none {r : Nat} (h : NoneHeld (d.score r).ops) : d.opsGo r = d := by
  have hnil : (d.score r).ops.filter (fun o => o.held) = [] := by
    rw [List.filter_eq_nil_iff]
    exact fun o ho => by simp [h o ho]
  unfold Dev.opsGo
  rw [hnil]
  rfl

section
variable {d} {e : Dev} {r id : Nat} {ops : List SOp} {o : SOp} (h : OpsAre r ops d e) (ho : ops.find? (fun y => y.id == id) = some o)
include h ho

omit ho in
theorem OpsAre.setOp (o' : SOp) : OpsAre r (putOp ops o') d (e.setOp r o') := by
  have hs := h.setScore (putOp ops o')
  have hops : (e.score r).ops = ops := by rw [h.score]
  unfold Dev.setOp
  dsimp only
  rw [hops]
  exact hs

omit ho in
theorem OpsAre.opDrop : OpsAre r (ops.filter (fun y => y.id != id)) d (e.opDrop r id) := by
  have hs := h.setScore (ops.filter (fun y => y.id != id))
  have hops : (e.score r).ops = ops := by rw [h.score]
  unfold Dev.opDrop
  dsimp only
  rw [hops]
  exact hs

theorem OpsAre.setPiece (off : Nat) (l : List Byte) :
    OpsAre r (putOp ops { o with pieces := SMap.set [] o.pieces off l }) d (e.setPiece r id off l) := by
  unfold Dev.setPiece
  rw [h.opOf, ho]
  exact h.setOp _

end

/-! ### The descriptor ends -/

/-- The registers of an S-core that the end of a descriptor touches. -/
def StepReg (r a : Nat) : Prop := a = SEQ_DESC_LO r ∨ a = SEQ_DESC_LO r + 4 ∨ a = SEQ_PC r ∨ a = SEQ_STAT r

/-- The S-core has gone on to its next descriptor. -/
structure StepsOn (r : Nat) (d e : Dev) : Prop where
  unscored : e.unscored = d.unscored
  rg       : ∀ a, ¬ StepReg r a → e.rg a = d.rg a
  pc       : e.seqPc r = d.seqPc r + 1
  ops      : (e.score r).ops = (d.score r).ops

theorem seqNext_steps {r : Nat} (hpc : d.seqPc r < 4095) : StepsOn r d (d.seqNext r) := by
  obtain ⟨x, hx⟩ := bump64_regs_only d (SEQ_DESC_LO r) 1
  have hrg : ∀ a, a ≠ SEQ_DESC_LO r ∧ a ≠ SEQ_DESC_LO r + 4 → (d.bump64 (SEQ_DESC_LO r) 1).rg a = d.rg a :=
    fun a ha => rg_bump64_ne d 1 ha
  unfold Dev.seqNext
  generalize hn : d.seqPc r + 1 = n
  have hlt : n < 2 ^ 12 := by omega
  unfold Dev.seqGoto
  dsimp only
  rw [if_neg (show ¬ 4096 ≤ n by omega)]
  generalize hy : ({ (d.bump64 (SEQ_DESC_LO r) 1).score r with cur := none, halt := false } : SCore) = y
  have hops : y.ops = (d.score r).ops := by rw [← hy, hx]; rfl
  have hpcne : SEQ_PC r ≠ SEQ_STAT r := by unfold SEQ_PC SEQ_STAT; omega
  unfold Dev.setSeq
  refine ⟨?_, fun a ha => ?_, ?_, ?_⟩
  · rw [setF_unscored, setF_unscored, setF_unscored, setScore_unscored, hx]
    rfl
  · have hne : a ≠ SEQ_DESC_LO r ∧ a ≠ SEQ_DESC_LO r + 4 ∧ a ≠ SEQ_PC r ∧ a ≠ SEQ_STAT r := by
      unfold StepReg at ha; omega
    obtain ⟨h1, h2, h3, h4⟩ := hne
    rw [rg_setF_ne _ h4, rg_setF_ne _ h4, rg_setF_ne _ h3]
    exact hrg a ⟨h1, h2⟩
  · rw [hn]
    unfold Dev.seqPc
    rw [fld_setF_ne _ (.inl hpcne), fld_setF_ne _ (.inl hpcne), fld_setF_same _ (by decide)]
    exact Nat.mod_eq_of_lt hlt
  · rw [score_setF, score_setF, score_setF, score_setScore, if_pos rfl, hops]

theorem general_not_step {r i : Nat} : ¬ StepReg r (SEQ_Gi_LO r i) ∧ ¬ StepReg r (SEQ_Gi_LO r i + 4) := by
  unfold StepReg SEQ_Gi_LO SEQ_DESC_LO SEQ_PC SEQ_STAT
  omega

/-- The registers an operation that ends may touch lie in the S-core's block. -/
theorem StepReg.scoreReg {r a : Nat} (h : StepReg r a) : ScoreReg r a := by
  refine .inr (.inl ?_)
  unfold StepReg SEQ_DESC_LO SEQ_PC SEQ_STAT slotBase at h
  unfold slotBase
  omega

theorem general_scoreReg {r i a : Nat} (hi : i < 16) (h : a = SEQ_Gi_LO r i ∨ a = SEQ_Gi_LO r i + 4) : ScoreReg r a := by
  refine .inr (.inl ?_)
  unfold SEQ_Gi_LO slotBase at h
  unfold slotBase
  omega

/-- An operation of the S-core has ended and the S-core gone on. -/
structure OpEnds (r id : Nat) (d e : Dev) : Prop where
  unscored : e.unscored = d.unscored
  rg       : ∀ a, ¬ ScoreReg r a → e.rg a = d.rg a
  pc       : e.seqPc r = d.seqPc r + 1
  gone     : e.opOf r id = none
  unheld   : NoneHeld (e.score r).ops

theorem find?_filter_ne (ops : List SOp) (id : Nat) : (ops.filter (fun y => y.id != id)).find? (fun y => y.id == id) = none := by
  rw [List.find?_eq_none]
  intro y hy
  have := (List.mem_filter.1 hy).2
  simpa using this

section
variable {d} {e : Dev} {r id : Nat} {ops : List SOp} (h : OpsAre r ops d e) (hn : NoneHeld ops) (hpc : d.seqPc r < 4095)
include h hn hpc

/-- An operation that writes no register. -/
theorem opNext_ends : OpEnds r id d (e.opNext r id) := by
  have hdrop := h.opDrop (id := id)
  have hs := seqNext_steps (e.opDrop r id) (r := r) (by rw [hdrop.seqPc]; exact hpc)
  have hops : ((e.opNext r id).score r).ops = ops.filter (fun y => y.id != id) := hs.ops.trans (by rw [hdrop.score])
  refine ⟨hs.unscored.trans hdrop.unscored, fun a ha => (hs.rg a (fun x => ha x.scoreReg)).trans (hdrop.rg a),
    hs.pc.trans (by rw [hdrop.seqPc]), ?_, ?_⟩
  · unfold Dev.opOf; rw [hops]; exact find?_filter_ne ops id
  · rw [hops]; exact hn.filter _

/-- One that writes GD. -/
theorem opGd_ends (v : Nat) : OpEnds r id d (e.opGd r id v) ∧ (e.opGd r id v).greg r (dGd (d.seqDesc r)) = v % 2 ^ 64 := by
  have hdrop := h.opDrop (id := id)
  have hi : dGd (d.seqDesc r) < 16 := by
    unfold dGd
    have := byteAt_lt (d.seqDesc r) 2
    omega
  unfold Dev.opGd
  dsimp only
  rw [hdrop.seqDesc]
  generalize hk : dGd (d.seqDesc r) = k at *
  have hset : ∀ a, a ≠ SEQ_Gi_LO r k ∧ a ≠ SEQ_Gi_LO r k + 4 → ((e.opDrop r id).setG r k v).rg a = d.rg a :=
    fun a ha => (rg_set64_ne _ _ ha).trans (hdrop.rg a)
  have hpcne : SEQ_PC r ≠ SEQ_Gi_LO r k ∧ SEQ_PC r ≠ SEQ_Gi_LO r k + 4 := by unfold SEQ_PC SEQ_Gi_LO; omega
  have hpc' : ((e.opDrop r id).setG r k v).seqPc r = d.seqPc r := fld_congr _ _ (hset _ hpcne)
  have hs := seqNext_steps ((e.opDrop r id).setG r k v) (r := r) (by rw [hpc']; exact hpc)
  have hops : ((((e.opDrop r id).setG r k v).seqNext r).score r).ops = ops.filter (fun y => y.id != id) :=
    hs.ops.trans (by
      show ((e.opDrop r id).score r).ops = _
      rw [hdrop.score])
  refine ⟨⟨hs.unscored.trans hdrop.unscored, fun a ha => ?_, hs.pc.trans (by rw [hpc']), ?_, ?_⟩, ?_⟩
  · rw [hs.rg a (fun x => ha x.scoreReg)]
    exact hset a ⟨fun x => ha (general_scoreReg hi (.inl x)), fun x => ha (general_scoreReg hi (.inr x))⟩
  · unfold Dev.opOf; rw [hops]; exact find?_filter_ne ops id
  · rw [hops]; exact hn.filter _
  · obtain ⟨hlo, hhi⟩ := general_not_step (r := r) (i := k)
    unfold Dev.greg
    rw [rg64_congr (hs.rg _ hlo) (hs.rg _ hhi)]
    exact rg64_set64_same _ (Nat.mod_lt _ (by decide))

end

/-- What an end of an operation leaves, once what follows the state has followed it. -/
theorem OpEnds.keeps_finish {d e : Dev} {r id : Nat} (h : OpEnds r id d e) : Keeps d e.finish (fun a => ScoreReg r a) ∧
    e.finish.seqPc r = d.seqPc r + 1 ∧ e.finish.opOf r id = none := by
  have hu := h.unscored
  refine ⟨⟨fun a ha hf => (rg_finish e hf).trans (h.rg a ha), fun a => ?_, ?_⟩, ?_, ?_⟩
  · rw [finish_mem, show e.mem = d.mem from (congrArg Dev.mem hu :)]
  · rw [finish_ecc, show e.ecc = d.ecc from (congrArg Dev.ecc hu :)]
  · rw [← h.pc]
    exact fld_congr _ _ (rg_finish e (fun hf => by have := followReg_lt_slots hf; unfold SEQ_PC slotBase at this; omega))
  · unfold Dev.opOf Dev.score
    rw [finish_scores]
    exact h.gone

end Sys2Proof.Machine
end

section
/-! SUPPORT. Answers to the S-core's requests, and requests that none answers in time (R252 to R254, R402). -/

namespace Sys2Proof.Machine

open Sys2Proof

variable (d : Dev)

theorem exec_readData (q : Nat) (l : List Byte) (s : State) : exec (.readData q l) s = s.run (·.replyArrives q 0x30 l) := rfl
theorem exec_writeAck (q : Nat) (l : List Byte) (s : State) : exec (.writeAck q l) s = s.run (·.replyArrives q 0x31 l) := rfl
theorem exec_errorReply (q : Nat) (l : List Byte) (s : State) : exec (.errorReply q l) s = s.run (·.replyArrives q 0x32 l) := rfl
theorem exec_bulkAck (q : Nat) (l : List Byte) (s : State) : exec (.bulkAck q l) s = s.run (·.replyArrives q 0x33 l) := rfl
theorem exec_requestTimeout (tag : Nat) (s : State) : exec (.requestTimeout tag) s = s.run (·.reqTimeout tag) := rfl

/-! ### An operation of one piece that has been answered -/

theorem pieceList_word : pieceList 8 = [(0, 8)] := by decide

/-- The operation with no piece held back, and with the access in progress made. -/
def SOp.freed (o : SOp) : SOp := { o with held := false }
def SOp.done (o : SOp) (l : List Byte) : SOp := { o with pieces := [], log := o.log ++ [l] }

theorem opGo_eq {r id : Nat} {o : SOp} (h : d.opOf r id = some o) :
    d.opGo r id = Dev.runProg r id (progOf r o) o.log (d.setOp r o.freed) := by
  unfold Dev.opGo
  rw [h]
  rfl

section
variable {d} {e : Dev} {r id : Nat} {ops : List SOp} {o : SOp} (h : OpsAre r ops d e) (ho : ops.find? (fun y => y.id == id) = some o)
  {l : List Byte} (hl : l ≠ []) (hp : SMap.get [] o.pieces 0 = l)
include h ho hl hp

/-- The access of one piece that has been answered: no access is made, and its bytes are those of the piece. -/
theorem access_answered (a : Nat) (w : Option (List Byte)) : e.access r id a 8 w = (e.setOp r (o.done l), some l) := by
  have hop := (h.opOf id).trans ho
  have hgo : e.pieceGo r id a w (0, 8) = e := by
    unfold Dev.pieceGo
    rw [hop]
    dsimp only
    rw [if_pos (by simp [hp, hl])]
  have heach : e.forEach [(0, 8)] (Dev.pieceGo r id a w) = e := hgo
  unfold Dev.access
  rw [pieceList_word]
  dsimp only
  rw [heach, hop]
  simp [hp, hl, SOp.done]

variable (hn : NoneHeld ops) (hpc : d.seqPc r < 4095) (hlog : o.log = [])
include hn hpc hlog

omit ho hl hp hpc hlog in
/-- The operation freed and its access made. -/
theorem done_are : OpsAre r (putOp (putOp ops o.freed) (o.freed.done l)) d ((e.setOp r o.freed).setOp r (o.freed.done l)) ∧
    NoneHeld (putOp (putOp ops o.freed) (o.freed.done l)) :=
  ⟨(h.setOp o.freed).setOp _, (hn.putOp rfl).putOp rfl⟩

/-- A LOAD whose word has come ends, with the word in GD. -/
theorem opGo_load (hop : dOpc o.desc = 4) :
    OpEnds r id d (e.opGo r id) ∧ (e.opGo r id).greg r (dGd (d.seqDesc r)) = leNat l % 2 ^ 64 := by
  have hid := find?_id ho
  have hacc := access_answered (h.setOp o.freed) (find?_putOp ho hid) hl hp ((dAddr o.desc + o.gs) % 2 ^ 64) none
  have hprog : progOf r o = .rd ((dAddr o.desc + o.gs) % 2 ^ 64) 8 fun l => .fin fun d => d.opGd r id (leNat l) := by
    unfold progOf
    dsimp only
    rw [hop, hid]
    rfl
  have hgo : e.opGo r id = ((e.setOp r o.freed).setOp r (o.freed.done l)).opGd r id (leNat l) := by
    rw [opGo_eq e ((h.opOf id).trans ho), hprog, hlog, Dev.runProg, hacc]
    rfl
  obtain ⟨hdone, hn'⟩ := done_are h hn (o := o) (l := l)
  rw [hgo]
  exact opGd_ends hdone hn' hpc _

/-- A STORE that is acknowledged ends. -/
theorem opGo_store (hop : dOpc o.desc = 5) : OpEnds r id d (e.opGo r id) := by
  have hid := find?_id ho
  have hacc := access_answered (h.setOp o.freed) (find?_putOp ho hid) hl hp ((dAddr o.desc + o.gs) % 2 ^ 64) (some (leBytes 8 o.gd))
  have hprog : progOf r o = .wr ((dAddr o.desc + o.gs) % 2 ^ 64) (leBytes 8 o.gd) (.fin fun d => d.opNext r id) := by
    unfold progOf
    dsimp only
    rw [hop, hid]
    rfl
  have hgo : e.opGo r id = ((e.setOp r o.freed).setOp r (o.freed.done l)).opNext r id := by
    rw [opGo_eq e ((h.opOf id).trans ho), hprog, hlog, Dev.runProg, length_leBytes, hacc]
    rfl
  obtain ⟨hdone, hn'⟩ := done_are h hn (o := o) (l := l)
  rw [hgo]
  exact opNext_ends hdone hn' hpc

end

/-! ### Answers -/

/-- The bytes an answer leaves in a piece. -/
def answerBytes (q : Req) (st : Nat) (data : List Byte) : List Byte :=
  if ! q.read then [1#8] else if st = 0 then padTo q.len data else zeros q.len

/-- The request is outstanding no more, and its operation, with the answer in its piece, goes on. -/
theorem reqAnswer_eq {q : Req} {st : Nat} {data : List Byte} (refused : Bool) {o : SOp} (ho : d.opOf q.region q.id = some o)
    (hs : q.read = false ∨ st = 0 ∨ st = 2) : ∃ e ops o', OpsAre q.region ops (d.reqGone q) e ∧
      ops.find? (fun y => y.id == q.id) = some o' ∧ (NoneHeld (d.score q.region).ops → NoneHeld ops) ∧
      o'.desc = o.desc ∧ o'.log = o.log ∧ o'.pieces = SMap.set [] o.pieces q.off (answerBytes q st data) ∧
      d.reqAnswer q st data refused = (e.opGo q.region q.id).opsGo q.region := by
  have hbytes : (if (! q.read) = true then (d.reqGone q, [1#8]) else if st = 0 then (d.reqGone q, padTo q.len data)
      else if st = 2 then (d.reqGone q, zeros q.len) else (d.reqGone q).openBytes q.len) =
      (d.reqGone q, answerBytes q st data) := by
    unfold answerBytes
    obtain h | h | h := hs
    · simp [h]
    · by_cases hr : q.read <;> simp [h, hr]
    · by_cases hr : q.read <;> simp [h, hr]
  have ho1 : (d.score q.region).ops.find? (fun y => y.id == q.id) = some o := ho
  have hid := find?_id ho1
  have h0 : OpsAre q.region (d.score q.region).ops (d.reqGone q) (d.reqGone q) := ⟨rfl, rfl, rfl⟩
  have h1 := h0.setPiece ho1 q.off (answerBytes q st data)
  generalize ho2 : ({ o with pieces := SMap.set [] o.pieces q.off (answerBytes q st data) } : SOp) = o2 at h1
  have hid2 : o2.id = q.id := by rw [← ho2]; exact hid
  have hfind2 := find?_putOp (o' := o2) ho1 hid2
  have h2 := h1.setOp { o2 with refused := o2.refused || refused }
  have hfind3 := find?_putOp (o' := { o2 with refused := o2.refused || refused }) hfind2 hid2
  refine ⟨_, _, _, h2, hfind3, fun hn => ?_, ?_, ?_, ?_, ?_⟩
  · have hheld : o2.held = false := by rw [← ho2]; exact (hn.find ho1 : o.held = false)
    exact (hn.putOp hheld).putOp hheld
  · rw [← ho2]
  · rw [← ho2]
  · rw [← ho2]
  · unfold Dev.reqAnswer
    dsimp only
    rw [hbytes]
    dsimp only
    rw [h1.opOf, hfind2]

/-- An operation that ends lets nothing else go on where none is held back. -/
theorem OpEnds.opsGo {d e : Dev} {r id : Nat} (h : OpEnds r id d e) : e.opsGo r = e := opsGo_none e h.unheld

/-- A STORE whose write is acknowledged, or refused, ends. -/
theorem reqAnswer_store {q : Req} (st : Nat) (data : List Byte) (refused : Bool) {o : SOp} (ho : d.opOf q.region q.id = some o)
    (hr : q.read = false ∧ q.off = 0) (hop : dOpc o.desc = 5 ∧ o.log = [] ∧ o.pieces = []) (hn : NoneHeld (d.score q.region).ops)
    (hpc : d.seqPc q.region < 4095) : OpEnds q.region q.id (d.reqGone q) (d.reqAnswer q st data refused) := by
  obtain ⟨hread, hoff⟩ := hr
  obtain ⟨hopc, hlog, hpieces⟩ := hop
  obtain ⟨e, ops, o', hare, hfind, hheld, hdesc, hlog', hpieces', he⟩ := reqAnswer_eq d (st := st) (data := data) refused ho (.inl hread)
  have hp : SMap.get [] o'.pieces 0 = [1#8] := by
    rw [hpieces', hoff, SMap.get_set_same]
    unfold answerBytes
    rw [hread]
    rfl
  have hends := opGo_store hare hfind (by simp) hp (hheld hn) hpc (hlog'.trans hlog) (by rw [hdesc]; exact hopc)
  rw [he, hends.opsGo]
  exact hends

/-- A LOAD whose word comes ends, with the word in GD. -/
theorem reqAnswer_load {q : Req} {data : List Byte} {o : SOp} (ho : d.opOf q.region q.id = some o)
    (hr : q.read = true ∧ q.off = 0 ∧ q.len = 8) (hop : dOpc o.desc = 4 ∧ o.log = [] ∧ o.pieces = [])
    (hn : NoneHeld (d.score q.region).ops) (hpc : d.seqPc q.region < 4095) :
    OpEnds q.region q.id (d.reqGone q) (d.reqAnswer q 0 data false) ∧
    (d.reqAnswer q 0 data false).greg q.region (dGd (d.seqDesc q.region)) = leNat (padTo 8 data) % 2 ^ 64 := by
  obtain ⟨hread, hoff, hlen⟩ := hr
  obtain ⟨hopc, hlog, hpieces⟩ := hop
  obtain ⟨e, ops, o', hare, hfind, hheld, hdesc, hlog', hpieces', he⟩ := reqAnswer_eq d (st := 0) (data := data) false ho (.inr (.inl rfl))
  have hp : SMap.get [] o'.pieces 0 = padTo 8 data := by
    rw [hpieces', hoff, SMap.get_set_same]
    unfold answerBytes
    rw [hread, hlen]
    rfl
  have hne : padTo 8 data ≠ [] := fun h => by
    have := length_padTo 8 data
    rw [h] at this
    exact absurd this (by decide)
  obtain ⟨hends, hgd⟩ := opGo_load hare hfind hne hp (hheld hn) hpc (hlog'.trans hlog) (by rw [hdesc]; exact hopc)
  rw [he, hends.opsGo]
  exact ⟨hends, hgd⟩

theorem leNat_append_zeros (l : List Byte) (k : Nat) : leNat (l ++ zeros k) = leNat l := by
  induction l with
  | nil =>
    induction k with
    | zero => rfl
    | succ k ih =>
      have h : leNat (zeros (k + 1)) = 256 * leNat (zeros k) := Nat.zero_add _
      have h0 : leNat ([] ++ zeros k) = 0 := ih
      rw [List.nil_append] at h0 ⊢
      rw [h, h0]
      rfl
  | cons b t ih => rw [List.cons_append, leNat, leNat, ih]

theorem leNat_padTo (k : Nat) (l : List Byte) : leNat (padTo k l) = leNat (l.take k) := leNat_append_zeros _ _

/-! ### Replies -/

/-- A reply that a request waits for is its answer. -/
theorem replyArrives_some {q type : Nat} {l : List Byte} (hg : pktGood l = true ∧ pktType l = type) {x : Req}
    (hx : d.reqs.find? (fun y => y.tag == pktTag l && type != 0x33 && (type == 0x32 || y.read == (type == 0x30))) = some x) :
    d.replyArrives q type l =
      if type = 0x30 then (d.takePacket l).reqAnswer x (byteAt l 16) ((pktPay l).take (leAt l 20 4)) false
      else if type = 0x31 then (d.takePacket l).reqAnswer x (byteAt l 16) [] (bitAt (byteAt l 17) 0)
      else (d.takePacket l).reqAnswer x (if byteAt l 16 = 0 then 1 else byteAt l 16) [] false := by
  obtain ⟨hgood, htype⟩ := hg
  have hx' : (d.takePacket l).reqs.find? (fun y => y.tag == pktTag l && type != 0x33 && (type == 0x32 || y.read == (type == 0x30))) =
      some x := hx
  unfold Dev.replyArrives
  dsimp only
  rw [if_neg (by simp [hgood, htype]), hx']

/-- One that no request waits for is counted as late (R253). -/
theorem late_runs {c : Instr} {s : State} {q type : Nat} {l : List Byte} (he : exec c s = s.run (·.replyArrives q type l))
    (hq : q < 8) (hg : pktGood l = true ∧ pktType l = type)
    (hx : s.dev.reqs.find? (fun y => y.tag == pktTag l && type != 0x33 && (type == 0x32 || y.read == (type == 0x30))) = none) :
    Runs c s (fun e => e.rg (FAB_LATEREPLY (q / 4)) = satInc (s.dev.rg (FAB_LATEREPLY (q / 4))) 1 % 2 ^ 32 ∧
      Keeps s.dev e (fun a => a = FAB_LATEREPLY (q / 4)) ∧ SameUnits s.dev e) := by
  obtain ⟨hgood, htype⟩ := hg
  have hx' : (s.dev.takePacket l).reqs.find? (fun y => y.tag == pktTag l && type != 0x33 &&
      (type == 0x32 || y.read == (type == 0x30))) = none := hx
  have hlate : s.dev.replyArrives q type l = (s.dev.takePacket l).bump (FAB_LATEREPLY (q / 4)) 1 := by
    unfold Dev.replyArrives
    dsimp only
    rw [if_neg (by simp [hgood, htype]), hx']
  rw [runs_iff he, hlate, rg_finish_port _ (by unfold FAB_LATEREPLY; omega)]
  exact ⟨rg_bump_same _ _ _, keeps_finish rfl rfl rfl (fun a ha => rg_bump_ne _ ha)⟩

/-- An operation that ended, of a device alike but for packets and requests. -/
theorem OpEnds.shows {d d' e : Dev} {r id : Nat} (h : OpEnds r id d' e) (hregs : d'.regs = d.regs) (hmem : d'.mem = d.mem)
    (hecc : d'.ecc = d.ecc) : Keeps d e.finish (fun a => ScoreReg r a) ∧ e.finish.seqPc r = d.seqPc r + 1 ∧
      e.finish.opOf r id = none ∧ e.finish.reqs = d'.reqs := by
  obtain ⟨⟨hk, hm, hecc'⟩, hpc, hgone⟩ := h.keeps_finish
  have hrg : ∀ a, d'.rg a = d.rg a := fun a => by unfold Dev.rg; rw [hregs]
  have hu := h.unscored
  refine ⟨⟨fun a ha hf => (hk a ha hf).trans (hrg a), fun a => by rw [hm a, hmem], hecc'.trans hecc⟩, ?_, hgone, ?_⟩
  · rw [hpc, show d'.seqPc r = d.seqPc r from fld_congr _ _ (hrg _)]
  · rw [finish_reqs]; exact (congrArg Dev.reqs hu :)

theorem greg_finish (e : Dev) (r i : Nat) : e.finish.greg r i = e.greg r i := by
  refine rg64_congr (rg_finish e fun hf => ?_) (rg_finish e fun hf => ?_) <;>
  · have := followReg_lt_slots hf
    unfold SEQ_Gi_LO slotBase at this
    omega

/-- READ_DATA that a LOAD waits for (R252, R253, R402). -/
theorem readData_runs (s : State) {q r : Nat} {l : List Byte} {x : Req} {o : SOp}
    (hg : pktGood l = true ∧ pktType l = 0x30 ∧ byteAt l 16 = 0 ∧ leAt l 20 4 = 8)
    (hx : s.dev.reqs.find? (fun y => y.tag == pktTag l && y.read) = some x) (hr : x.read = true ∧ x.region = r ∧ x.off = 0 ∧ x.len = 8)
    (ho : s.dev.opOf r x.id = some o) (hop : dOpc o.desc = 4 ∧ o.log = [] ∧ o.pieces = []) (hn : NoneHeld (s.dev.score r).ops)
    (hpc : s.dev.seqPc r < 4095) : Runs (.readData q l) s (fun e => e.greg r (dGd (s.dev.seqDesc r)) = leAt l 64 8 ∧
      e.seqPc r = s.dev.seqPc r + 1 ∧ e.reqs = s.dev.reqs.filter (fun y => y.tag != x.tag) ∧ Keeps s.dev e (fun a => ScoreReg r a)) := by
  obtain ⟨hgood, htype, hst, hlen⟩ := hg
  obtain ⟨hread, rfl, hoff, hlen8⟩ := hr
  have hx' : s.dev.reqs.find? (fun y => y.tag == pktTag l && 0x30 != 0x33 && (0x30 == 0x32 || y.read == (0x30 == 0x30))) = some x := by
    rw [← hx]; congr 1; funext y; simp
  obtain ⟨hends, hgd⟩ := reqAnswer_load (s.dev.takePacket l) (data := (pktPay l).take 8) ho ⟨hread, hoff, hlen8⟩ hop hn hpc
  obtain ⟨hkeeps, hpc', -, hreqs⟩ := hends.shows (d := s.dev) rfl rfl rfl
  rw [runs_iff (exec_readData q l s), replyArrives_some s.dev ⟨hgood, htype⟩ hx', if_pos rfl, hst, hlen]
  refine ⟨?_, hpc', hreqs, hkeeps⟩
  rw [greg_finish]
  refine hgd.trans ?_
  rw [leNat_padTo, List.take_take]
  exact Nat.mod_eq_of_lt (leAt_lt l 64 8)

/-- WRITE_ACK of a STORE (R252, R253, R402). -/
theorem writeAck_runs (s : State) {q r : Nat} {l : List Byte} {x : Req} {o : SOp} (hg : pktGood l = true ∧ pktType l = 0x31)
    (hx : s.dev.reqs.find? (fun y => y.tag == pktTag l && y.read == false) = some x) (hr : x.read = false ∧ x.region = r ∧ x.off = 0)
    (ho : s.dev.opOf r x.id = some o) (hop : dOpc o.desc = 5 ∧ o.log = [] ∧ o.pieces = []) (hn : NoneHeld (s.dev.score r).ops)
    (hpc : s.dev.seqPc r < 4095) : Runs (.writeAck q l) s (fun e => e.seqPc r = s.dev.seqPc r + 1 ∧ e.opOf r x.id = none ∧
      e.reqs = s.dev.reqs.filter (fun y => y.tag != x.tag) ∧ Keeps s.dev e (fun a => ScoreReg r a)) := by
  obtain ⟨hread, rfl, hoff⟩ := hr
  have hx' : s.dev.reqs.find? (fun y => y.tag == pktTag l && 0x31 != 0x33 && (0x31 == 0x32 || y.read == (0x31 == 0x30))) = some x := by
    rw [← hx]; congr 1; funext y; simp
  have hends := reqAnswer_store (s.dev.takePacket l) (byteAt l 16) [] (bitAt (byteAt l 17) 0) ho ⟨hread, hoff⟩ hop hn hpc
  obtain ⟨hkeeps, hpc', hgone, hreqs⟩ := hends.shows (d := s.dev) rfl rfl rfl
  rw [runs_iff (exec_writeAck q l s), replyArrives_some s.dev hg hx', if_neg (by decide), if_pos rfl]
  exact ⟨hpc', hgone, hreqs, hkeeps⟩

/-- ERROR_REPLY to a STORE (R31, R253). -/
theorem errorReply_runs (s : State) {q r : Nat} {l : List Byte} {x : Req} {o : SOp} (hg : pktGood l = true ∧ pktType l = 0x32)
    (hx : s.dev.reqs.find? (fun y => y.tag == pktTag l) = some x) (hr : x.read = false ∧ x.region = r ∧ x.off = 0)
    (ho : s.dev.opOf r x.id = some o) (hop : dOpc o.desc = 5 ∧ o.log = [] ∧ o.pieces = []) (hn : NoneHeld (s.dev.score r).ops)
    (hpc : s.dev.seqPc r < 4095) : Runs (.errorReply q l) s (fun e => e.seqPc r = s.dev.seqPc r + 1 ∧ e.opOf r x.id = none ∧
      SameMem s.dev e) := by
  obtain ⟨hread, rfl, hoff⟩ := hr
  have hx' : s.dev.reqs.find? (fun y => y.tag == pktTag l && 0x32 != 0x33 && (0x32 == 0x32 || y.read == (0x32 == 0x30))) = some x := by
    rw [← hx]; congr 1; funext y; simp
  have hends := reqAnswer_store (s.dev.takePacket l) (if byteAt l 16 = 0 then 1 else byteAt l 16) [] false ho ⟨hread, hoff⟩ hop hn hpc
  obtain ⟨⟨-, hmem, -⟩, hpc', hgone, -⟩ := hends.shows (d := s.dev) rfl rfl rfl
  rw [runs_iff (exec_errorReply q l s), replyArrives_some s.dev hg hx', if_neg (by decide), if_neg (by decide)]
  exact ⟨hpc', hgone, hmem⟩

/-! ### Timeouts -/

section
variable (s : State) {tag r : Nat} {x : Req} {o : SOp} (hrr : r < 16) (hx : s.dev.reqs.find? (fun y => y.tag == tag) = some x)
  (hr : x.region = r) (ho : s.dev.opOf r x.id = some o) (hn : NoneHeld (s.dev.score r).ops) (hpc : s.dev.seqPc r < 4095)
include hx hr ho

/-- The device with the timeout counted, the request gone. -/
theorem reqTimeout_eq : s.dev.reqTimeout tag =
    (((s.dev.bump (FAB_REQTIMEOUT (dieOf r)) 1).reqGone x).opTimeout r x.id).opsGo r ∧
    ((s.dev.bump (FAB_REQTIMEOUT (dieOf r)) 1).reqGone x).opOf r x.id = some o := by
  refine ⟨?_, ho⟩
  unfold Dev.reqTimeout
  rw [hx]
  dsimp only
  rw [hr]

omit hx hr ho in
/-- What is left after an operation ended by a timeout. -/
theorem timeout_shows {e : Dev} (hrr : r < 16) (hends : OpEnds r x.id ((s.dev.bump (FAB_REQTIMEOUT (dieOf r)) 1).reqGone x) e) :
    e.finish.rg (FAB_REQTIMEOUT (dieOf r)) = satInc (s.dev.rg (FAB_REQTIMEOUT (dieOf r))) 1 % 2 ^ 32 ∧
    e.finish.seqPc r = s.dev.seqPc r + 1 ∧ e.finish.opOf r x.id = none ∧ e.finish.reqs = s.dev.reqs.filter (fun y => y.tag != x.tag) ∧
    Keeps s.dev e.finish (fun a => ScoreReg r a ∨ a = FAB_REQTIMEOUT (dieOf r)) := by
  have hdie : dieOf r < 2 := by unfold dieOf; omega
  have hplace : FAB_REQTIMEOUT (dieOf r) = 0x40000 + 0x10000 * dieOf r + 0x24 := rfl
  have hscore : ∀ a, ScoreReg r a → a < 0x40000 ∨ 0x60000 ≤ a := by
    unfold ScoreReg BookReg CAR_LOGSEQ CAR_JSKIP OBS_TSTAT OBS_TFIFO OBS_TDROP CAR_BOUT CAR_BSTAT slotBase OBS_SBUSY_LO OBS_SBUSY_HI
    rintro a ((h | h | h | h | h | ⟨f, hf, h | h⟩) | h | h | h) <;> omega
  obtain ⟨⟨hk, hm, hecc⟩, hpc', hgone⟩ := hends.keeps_finish
  have hu := hends.unscored
  have hbump : ∀ a, a ≠ FAB_REQTIMEOUT (dieOf r) → ((s.dev.bump (FAB_REQTIMEOUT (dieOf r)) 1).reqGone x).rg a = s.dev.rg a :=
    fun a ha => rg_bump_ne _ ha
  refine ⟨?_, ?_, hgone, ?_, fun a ha hf => ?_, hm, hecc⟩
  · rw [hk _ (fun h => by have := hscore _ h; omega) (fun h => by have := followReg_place h; omega)]
    exact rg_bump_same _ _ _
  · rw [hpc']
    exact congrArg (· + 1) (fld_congr _ _ (hbump _ (by unfold SEQ_PC slotBase; omega)))
  · rw [finish_reqs]
    exact (congrArg Dev.reqs hu :)
  · rw [hk a (fun x => ha (.inl x)) hf]
    exact hbump a (fun x => ha (.inr x))

include hn hpc

/-- REQUEST_TIMEOUT of a STORE (R253). -/
theorem requestTimeout_store_runs (hrr : r < 16) (hop : dOpc o.desc = 5) : Runs (.requestTimeout tag) s (fun e =>
      e.rg (FAB_REQTIMEOUT (dieOf r)) = satInc (s.dev.rg (FAB_REQTIMEOUT (dieOf r))) 1 % 2 ^ 32 ∧ e.seqPc r = s.dev.seqPc r + 1 ∧
      e.opOf r x.id = none ∧ e.reqs = s.dev.reqs.filter (fun y => y.tag != x.tag) ∧
      Keeps s.dev e (fun a => ScoreReg r a ∨ a = FAB_REQTIMEOUT (dieOf r))) := by
  obtain ⟨he, ho'⟩ := reqTimeout_eq s hx hr ho
  generalize hd : (s.dev.bump (FAB_REQTIMEOUT (dieOf r)) 1).reqGone x = d at *
  have hpcd : d.seqPc r < 4095 := by
    rw [← hd, show ((s.dev.bump (FAB_REQTIMEOUT (dieOf r)) 1).reqGone x).seqPc r = s.dev.seqPc r from
      fld_congr _ _ (rg_bump_ne _ (by unfold SEQ_PC slotBase FAB_REQTIMEOUT dieOf; omega))]
    exact hpc
  have hare : OpsAre r (s.dev.score r).ops d d := by subst hd; exact ⟨rfl, rfl, rfl⟩
  have hends := opNext_ends (id := x.id) hare hn hpcd
  have hto : d.opTimeout r x.id = d.opNext r x.id := by
    unfold Dev.opTimeout
    rw [ho']
    simp [hop]
  rw [runs_iff (exec_requestTimeout tag s), he, hto, hends.opsGo]
  rw [← hd] at hends ⊢
  exact timeout_shows s hrr hends

/-- REQUEST_TIMEOUT of an ENCODE or RPUT (R253). -/
theorem requestTimeout_status_runs (hrr : r < 16) (hop : dOpc o.desc = 0x11 ∨ dOpc o.desc = 0x18) : Runs (.requestTimeout tag) s (fun e =>
      e.rg (FAB_REQTIMEOUT (dieOf r)) = satInc (s.dev.rg (FAB_REQTIMEOUT (dieOf r))) 1 % 2 ^ 32 ∧
      e.greg r (dGd (s.dev.seqDesc r)) = Status.timeout.code ∧ e.seqPc r = s.dev.seqPc r + 1 ∧
      e.reqs = s.dev.reqs.filter (fun y => y.tag != x.tag) ∧
      Keeps s.dev e (fun a => ScoreReg r a ∨ a = FAB_REQTIMEOUT (dieOf r))) := by
  obtain ⟨he, ho'⟩ := reqTimeout_eq s hx hr ho
  have hpcr : ((s.dev.bump (FAB_REQTIMEOUT (dieOf r)) 1).reqGone x).seqPc r = s.dev.seqPc r :=
    fld_congr _ _ (rg_bump_ne _ (by unfold SEQ_PC slotBase FAB_REQTIMEOUT dieOf; omega))
  have hdesc : ((s.dev.bump (FAB_REQTIMEOUT (dieOf r)) 1).reqGone x).seqDesc r = s.dev.seqDesc r := by
    unfold Dev.seqDesc
    rw [hpcr]
    rfl
  rw [← hpcr] at hpc
  rw [← hdesc]
  generalize hd : (s.dev.bump (FAB_REQTIMEOUT (dieOf r)) 1).reqGone x = d at *
  have hare : OpsAre r (s.dev.score r).ops d d := by subst hd; exact ⟨rfl, rfl, rfl⟩
  obtain ⟨hends, hgd⟩ := opGd_ends (id := x.id) hare hn hpc Status.timeout.code
  have hto : d.opTimeout r x.id = d.opGd r x.id Status.timeout.code := by
    unfold Dev.opTimeout
    rw [ho']
    obtain h | h := hop <;> simp [h]
  rw [runs_iff (exec_requestTimeout tag s), he, hto, hends.opsGo]
  rw [← hd] at hends
  obtain ⟨hcount, hpc', -, hreqs, hkeeps⟩ := timeout_shows s hrr hends
  rw [hd] at hcount hpc' hreqs hkeeps
  exact ⟨hcount, (greg_finish _ _ _).trans hgd, hpc', hreqs, hkeeps⟩

end

/-- Settles O20: requests of the partition's Commons by the one access the router makes, answers by the operation that waits for them,
and every reply by the route it takes. -/
theorem fabricRequestsAndReplies : Obligations.FabricRequestsAndReplies := by
  refine ⟨?_, ?_, ?_, ?_, ?_, ?_, ?_, ?_, ?_, ?_, ?_, ?_, ?_, ?_, ?_, ?_, ?_⟩
  · intro s q r ad n l hq hg hc hb hn had hr ha hp ho hd hcl hbr
    exact readRequest_runs s hq hg hc hb hn had (routerBank_of hr ha hp ho hd hcl hbr hn.2.1)
  · intro s q r ad n l hq hg hc hb hn had hr ha hp ho hd hcl hbr
    exact writeRequest_runs s hq hg hc hb hn had (routerBank_of hr ha hp ho hd hcl hbr hn.2.1)
  · intro s q l hq hg hc
    obtain ⟨t, ht, hpend, hcount, -, hrest⟩ := choked_runs (exec_readRequest q l s) (show q / 4 < 2 by omega)
      (atTarget_choked s.dev _ hg hc)
    exact ⟨t, ht, hpend, hcount, hrest⟩
  · intro s q l hq hg hc
    obtain ⟨t, ht, hpend, hcount, -, hrest⟩ := choked_runs (exec_writeRequest q l s) (show q / 4 < 2 by omega)
      (atTarget_choked s.dev _ hg hc)
    exact ⟨t, ht, hpend, hcount, hrest⟩
  · intro s q l hq hg hc
    exact choked_runs (exec_bulkWrite q l s) (by omega) (atTarget_choked s.dev _ hg hc)
  · intro s q l hq hg hc hb
    exact badRequest_runs (exec_readRequest q l s) (by omega) (atTarget_bad s.dev _ hg hc hb)
  · intro s q l hq hg hc hb
    exact badRequest_runs (exec_writeRequest q l s) (by omega) (atTarget_bad s.dev _ hg hc hb)
  · intro s q l hq hg hc hb
    exact badRequest_runs (exec_bulkWrite q l s) (by omega) (atTarget_bad s.dev _ hg hc hb)
  · intro s q r ad n l hq hg hc hb hn had hr ha hp ho hd hcl hbr hbulks
    exact bulkWrite_runs s hq hg hc hb hn had (routerBank_of hr ha hp ho hd hcl hbr hn.2.1) hbulks
  · intro s k b hk hd
    exact bulkAckTimer_runs s hk hd
  · intro s q l hq hg
    exact late_runs (exec_bulkAck q l s) hq hg (List.find?_eq_none.2 (by simp))
  · intro s q r l x o _ _ hg hx hr ho hop hn hpc
    exact readData_runs s hg hx hr ho hop hn hpc
  · intro s q r l x o _ _ hg hx hr ho hop hn hpc
    exact writeAck_runs s hg hx hr ho hop hn hpc
  · intro s q l hq hg hx
    refine late_runs (exec_errorReply q l s) hq hg ?_
    rw [← hx]
    congr 1
    funext y
    simp
  · intro s q r l x o _ _ hg hx hr ho hop hn hpc
    exact errorReply_runs s hg hx hr ho hop hn hpc
  · intro s tag r x o hrr hx hr ho hop hn hpc
    exact requestTimeout_store_runs s hx hr ho hn hpc hrr hop
  · intro s tag r x o hrr hx hr ho hop hn hpc
    exact requestTimeout_status_runs s hx hr ho hn hpc hrr hop

end Sys2Proof.Machine
end

section
/-! SUPPORT. An event record at its region router: what its trace record and its count leave as it was, and where it goes (R28, R29,
R60, R249, R625, R660). -/

namespace Sys2Proof.Machine

open Sys2Proof

variable (d : Dev)

/-! ### The books of an event -/

/-- The device without its registers, trace, output, books, filed counts and records under way. -/
def Dev.unfiled : Dev := { d.desk with filed := [], net := [] }

/-- What the trace record and the count of an event leave as it was: all but those books, and every register of the slots. -/
structure Aside (d e : Dev) : Prop where
  unfiled : e.unfiled = d.unfiled
  rg      : ∀ a, 0x10000000 ≤ a → e.rg a = d.rg a

theorem Aside.refl : Aside d d := ⟨rfl, fun _ _ => rfl⟩
theorem Aside.trans {a b c : Dev} (h : Aside a b) (g : Aside b c) : Aside a c :=
  ⟨g.unfiled.trans h.unfiled, fun x hx => (g.rg x hx).trans (h.rg x hx)⟩

theorem TraceKeeps.aside {d e : Dev} (h : TraceKeeps d e) : Aside d e :=
  ⟨(congrArg (fun x : Dev => ({ x with filed := [], net := [] } : Dev)) h.desk :), fun a ha => h.rg a (by unfold OBS_TSTAT; omega)
    (by unfold OBS_TFIFO; omega) (by unfold OBS_TDROP; omega)⟩

section
variable {d} {e : Dev} (h : Aside d e)
include h

theorem Aside.mem : e.mem = d.mem := (congrArg Dev.mem h.unfiled :)
theorem Aside.ecc : e.ecc = d.ecc := (congrArg Dev.ecc h.unfiled :)
theorem Aside.cores : e.cores = d.cores := (congrArg Dev.cores h.unfiled :)
theorem Aside.regions : e.regions = d.regions := (congrArg Dev.regions h.unfiled :)
theorem Aside.naps : e.naps = d.naps := (congrArg Dev.naps h.unfiled :)

theorem Aside.flag {a : Nat} (k : Nat) (ha : 0x10000000 ≤ a) : e.flag a k = d.flag a k := flag_congr k (h.rg a ha)
theorem Aside.fld {a : Nat} (lo w : Nat) (ha : 0x10000000 ≤ a) : e.fld a lo w = d.fld a lo w := fld_congr lo w (h.rg a ha)
theorem Aside.core (q : Nat) : e.core q = d.core q := by unfold Dev.core; rw [h.cores]
theorem Aside.region (r : Nat) : e.region r = d.region r := by unfold Dev.region; rw [h.regions]
theorem Aside.napping (q : Nat) : e.napping q = d.napping q := by unfold Dev.napping; rw [h.naps]

theorem Aside.physOf (n : Nat) : e.physOf n = d.physOf n := by
  have ha : 0x10000000 ≤ FAB_REMAP (n / 16) n := by unfold FAB_REMAP slotBase; omega
  unfold Dev.physOf
  dsimp only
  rw [h.flag 31 ha, h.fld 0 4 ha]

end

/-- Registers of the slots are none that follow the state. -/
theorem rg_finish_slot {a : Nat} (h : 0x10000000 ≤ a) : d.finish.rg a = d.rg a :=
  rg_finish d fun hf => Nat.lt_irrefl _ (Nat.lt_of_lt_of_le (followReg_lt_slots hf) h)

/-- A count of one copy filed is a book of its event. -/
theorem file_aside {p : Nat} (hp : p < 16) (point e : Nat) : Aside d (d.file p point e) := by
  have hcount : Aside d (if d.flag (OBS_PCTL p) 0 then d else d.count64 (OBS_PFILED_LO p) 1) := by
    split
    · exact .refl d
    · exact ⟨rfl, fun a ha => rg_count64_ne d 1 (by unfold OBS_PFILED_LO; omega)⟩
  unfold Dev.file
  dsimp only
  generalize (if d.flag (OBS_PCTL p) 0 then d else d.count64 (OBS_PFILED_LO p) 1) = c at hcount ⊢
  refine hcount.trans ?_
  split
  · exact ⟨rfl, fun _ _ => rfl⟩
  · exact ⟨rfl, fun a ha => (rg_setFlag_ne _ (by unfold TAB_BSTAT; omega)).trans (rg_bump_ne _ (by unfold TAB_LATEFILE; omega))⟩

theorem file_net (p point e : Nat) : (d.file p point e).net = d.net := by
  have hcount : (if d.flag (OBS_PCTL p) 0 then d else d.count64 (OBS_PFILED_LO p) 1).net = d.net := by split <;> rfl
  unfold Dev.file
  dsimp only
  generalize (if d.flag (OBS_PCTL p) 0 then d else d.count64 (OBS_PFILED_LO p) 1) = c at hcount ⊢
  split <;> exact hcount

/-! ### The record taken -/

/-- The device with the record taken from the network and traced. -/
def Dev.heard (e : Event) : Dev := (d.takeEvent e).traceFile (e.dcore % 256 / 16) e

theorem heard_keeps (e : Event) : TraceKeeps (d.takeEvent e) (d.heard e) := traceRec_keeps _ _ _ _ _ _ _ _

theorem heard_aside (e : Event) : Aside d (d.heard e) := ⟨(heard_keeps d e).aside.unfiled, (heard_keeps d e).aside.rg⟩

/-- A register that is none of the trace's. -/
theorem rg_heard (e : Event) {a : Nat} (h : a < 0xD0000 ∨ 0xD0030 ≤ a) : (d.heard e).rg a = d.rg a :=
  (heard_keeps d e).rg a (by unfold OBS_TSTAT; omega) (by unfold OBS_TFIFO; omega) (by unfold OBS_TDROP; omega)

theorem regPart_congr {d e : Dev} {r : Nat} (h : e.rg (CAL_REGPART r) = d.rg (CAL_REGPART r)) : e.regPart r = d.regPart r := by
  unfold Dev.regPart; rw [flag_congr 31 h, fld_congr 0 4 h]

theorem choked_congr {d e : Dev} {p : Nat} (h : e.rg (FLT_PMUTE p) = d.rg (FLT_PMUTE p)) : e.choked p = d.choked p := flag_congr 9 h

section
variable (e : Event)

theorem heard_regPart (r : Nat) : (d.heard e).regPart r = d.regPart r :=
  regPart_congr (rg_heard d e (by unfold CAL_REGPART; omega))

theorem heard_choked {p : Nat} (hp : p < 16) : (d.heard e).choked p = d.choked p :=
  choked_congr (rg_heard d e (by unfold FLT_PMUTE; omega))

theorem heard_beat {p : Nat} (hp : p < 16) : (d.heard e).beat p = d.beat p := by
  unfold Dev.beat
  rw [rg_heard d e (by unfold TAB_BEATNO_LO; omega), fld_congr 0 16 (rg_heard d e (by unfold TAB_BEATNO_HI; omega))]

theorem heard_readoutRegion {p : Nat} (hp : p < 16) : (d.heard e).readoutRegion p = d.readoutRegion p := by
  have ha := rg_heard d e (a := AXN_PROUT 0 p) (by unfold AXN_PROUT; omega)
  unfold Dev.readoutRegion
  rw [flag_congr 31 ha, fld_congr 0 4 ha]

end

/-! ### Where a record goes -/

/-- At a region that is not its partition's it is counted, at the region and at its router (R28, R29). -/
theorem eventArrives_foreign {e : Event} (hreg : d.regPart (e.dcore % 256 / 16) ≠ some e.part) : ∃ point eb, d.eventArrives e =
    ((d.heard e).bump (if d.regPart (e.dcore % 256 / 16) = none then FAB_RUADROP (e.dcore % 256 / 16) else
      FAB_RPMDROP (e.dcore % 256 / 16)) 1).file e.part point eb := by
  refine ⟨(d.takeEvent e).routerPoint e.part (e.dcore % 256 / 16),
    beatAdd ((d.takeEvent e).beat e.part) (beatDelta e.ebeat ((d.takeEvent e).beat e.part)), ?_⟩
  unfold Dev.eventArrives
  dsimp only
  rw [← Dev.heard, heard_regPart]
  cases h : d.regPart (e.dcore % 256 / 16) with
  | none => dsimp only; rw [if_pos rfl]
  | some p =>
    have hne : e.part ≠ p := fun he => hreg (by rw [h, he])
    dsimp only
    rw [if_pos (by simp [hne]), if_neg (by simp)]

section
variable {e : Event} (hp : e.part < 16) (hreg : d.regPart (e.dcore % 256 / 16) = some e.part) (hch : d.choked e.part = false)
include hp hreg hch

/-- A ROW or FAR event for a core of its partition reaches it (R660). -/
theorem eventArrives_row {q : Nat} (hkind : e.tkind ≤ 1) (hq : d.physOf (e.dcore % 256) = some q) :
    d.eventArrives e = (d.heard e).fileEvent q e := by
  unfold Dev.eventArrives
  dsimp only
  rw [← Dev.heard, heard_regPart, hreg]
  dsimp only
  rw [if_neg (by simp; omega), heard_choked d e hp, hch, if_neg (by decide), if_neg (by omega), (heard_aside d e).physOf, hq]

/-- A READOUT event at the readout region of its partition reaches its combiner (R212, R660). -/
theorem eventArrives_readout (hkind : e.tkind = 2) (hread : d.readoutRegion e.part = some (e.dcore % 256 / 16))
    (hon : d.flag (AXN_RCFG (e.dcore % 256 / 16)) 31 = true) : d.eventArrives e = (d.heard e).readoutEvent (e.dcore % 256 / 16) e := by
  have hflag : (d.heard e).flag (AXN_RCFG (e.dcore % 256 / 16)) 31 = true :=
    ((heard_aside d e).flag 31 (by unfold AXN_RCFG slotBase; omega)).trans hon
  unfold Dev.eventArrives
  dsimp only
  rw [← Dev.heard, heard_regPart, hreg]
  dsimp only
  rw [if_neg (by simp; omega), heard_choked d e hp, hch, if_neg (by decide), if_pos hkind, heard_readoutRegion d e hp, hread, hflag,
    if_neg (by simp)]

end

/-- One not disposed of in time is dropped there (R249). -/
theorem eventTimeout_eq (e : Event) : ∃ point eb,
    d.eventTimeout e = ((d.heard e).farDrop (e.dcore % 256 / 16)).file e.part point eb := by
  refine ⟨(d.takeEvent e).routerPoint e.part (e.dcore % 256 / 16),
    beatAdd ((d.takeEvent e).beat e.part) (beatDelta e.ebeat ((d.takeEvent e).beat e.part)), ?_⟩
  unfold Dev.eventTimeout
  dsimp only
  rw [← Dev.heard]

/-! ### Records dropped -/

theorem exec_eventRecordArrival (ev : Event) (s : State) : exec (.eventRecordArrival ev) s = s.run (·.eventArrives ev) := rfl
theorem exec_eventDisposalTimeout (ev : Event) (s : State) : exec (.eventDisposalTimeout ev) s = s.run (·.eventTimeout ev) := rfl

/-- A record at a region of no partition, or of another (R28, R29). -/
theorem foreign_runs (s : State) {ev : Event} {r : Nat} (hr : r = ev.dcore % 256 / 16) (hp : ev.part < 16)
    (hreg : s.dev.regPart r ≠ some ev.part) : Runs (.eventRecordArrival ev) s (fun e =>
      e.rg (FAB_RUADROP r) = (if s.dev.regPart r = none then satInc (s.dev.rg (FAB_RUADROP r)) 1 % 2 ^ 32 else
        s.dev.rg (FAB_RUADROP r)) ∧
      e.rg (FAB_RPMDROP r) = (if s.dev.regPart r = none then s.dev.rg (FAB_RPMDROP r) else
        satInc (s.dev.rg (FAB_RPMDROP r)) 1 % 2 ^ 32) ∧ SameMem s.dev e ∧ e.regions = s.dev.regions ∧ e.cores = s.dev.cores) := by
  subst hr
  obtain ⟨point, eb, he⟩ := eventArrives_foreign s.dev hreg
  have hne : FAB_RUADROP (ev.dcore % 256 / 16) ≠ FAB_RPMDROP (ev.dcore % 256 / 16) := by unfold FAB_RUADROP FAB_RPMDROP; omega
  have hua : 0x10000000 ≤ FAB_RUADROP (ev.dcore % 256 / 16) := by unfold FAB_RUADROP slotBase; omega
  have hpm : 0x10000000 ≤ FAB_RPMDROP (ev.dcore % 256 / 16) := by unfold FAB_RPMDROP slotBase; omega
  rw [runs_iff (exec_eventRecordArrival ev s), he]
  have hfile := file_aside ((s.dev.heard ev).bump (if s.dev.regPart (ev.dcore % 256 / 16) = none then
    FAB_RUADROP (ev.dcore % 256 / 16) else FAB_RPMDROP (ev.dcore % 256 / 16)) 1) hp point eb
  have hheard := heard_aside s.dev ev
  refine ⟨?_, ?_, fun a => ?_, ?_, ?_⟩
  · rw [rg_finish_slot _ hua, hfile.rg _ hua]
    split
    · rw [rg_bump_same, hheard.rg _ hua]
    · rw [rg_bump_ne _ hne, hheard.rg _ hua]
  · rw [rg_finish_slot _ hpm, hfile.rg _ hpm]
    split
    · rw [rg_bump_ne _ hne.symm, hheard.rg _ hpm]
    · rw [rg_bump_same, hheard.rg _ hpm]
  · rw [finish_mem, hfile.mem]
    exact congrArg (·.read a) hheard.mem
  · rw [finish_regions, hfile.regions]
    exact hheard.regions
  · rw [finish_cores, hfile.cores]
    exact hheard.cores

/-- A record not disposed of in time (R208, R249). -/
theorem eventDisposalTimeout_runs (s : State) {ev : Event} {r : Nat} (hr : r = ev.dcore % 256 / 16) (hp : ev.part < 16) :
    Runs (.eventDisposalTimeout ev) s (fun e => e.rg (ALM_FDROP r) = satInc (s.dev.rg (ALM_FDROP r)) 1 % 2 ^ 32 ∧
      e.flag (ALM_FSTAT r) 1 = true ∧ e.net = s.dev.net.erase ev ∧ SameMem s.dev e) := by
  have hne : ALM_FDROP r ≠ ALM_FSTAT r := by unfold ALM_FDROP ALM_FSTAT; omega
  have hdrop : 0x10000000 ≤ ALM_FDROP r := by unfold ALM_FDROP slotBase; omega
  have hstat : 0x10000000 ≤ ALM_FSTAT r := by unfold ALM_FSTAT slotBase; omega
  have hheard := heard_aside s.dev ev
  obtain ⟨point, eb, he⟩ := eventTimeout_eq s.dev ev
  rw [← hr] at he
  have hfile := file_aside ((s.dev.heard ev).farDrop r) hp point eb
  rw [runs_iff (exec_eventDisposalTimeout ev s), he]
  refine ⟨?_, ?_, ?_, fun a => ?_⟩
  · rw [rg_finish_slot _ hdrop, hfile.rg _ hdrop]
    unfold Dev.farDrop
    rw [rg_setFlag_ne _ hne, rg_bump_same, hheard.rg _ hdrop]
  · rw [flag_congr 1 (rg_finish_slot _ hstat), hfile.flag 1 hstat]
    exact flag_setFlag_same _ (by decide)
  · rw [finish_net, file_net]
    exact desk_net (heard_keeps s.dev ev).desk
  · rw [finish_mem, hfile.mem]
    exact congrArg (·.read a) hheard.mem

/-- A ROW or FAR event after its beat's slot, or in it once closed (R201). -/
theorem fileEvent_late {q : Nat} {e : Event} (hlate : beatDelta e.ebeat (d.core q).ptr + 1 + (e.delay : Int) < 0 ∨
    beatDelta e.ebeat (d.core q).ptr + 1 + (e.delay : Int) = 0 ∧ (d.core q).closed = true) (hcfg : d.flag (ALM_LATECFG (q / 16)) 0 = false) :
    ∃ eb, d.fileEvent q e = ((d.bump (ALM_NLATE q) 1).setFlag (ALM_NSTAT q) 3 true).file e.part q eb := by
  have hcfg' : ((d.bump (ALM_NLATE q) 1).setFlag (ALM_NSTAT q) 3 true).flag (ALM_LATECFG (q / 16)) 0 = false :=
    (flag_congr 0 ((rg_setFlag_ne _ (by unfold ALM_LATECFG ALM_NSTAT nBase slotBase; omega)).trans
      (rg_bump_ne _ (by unfold ALM_LATECFG ALM_NLATE nBase slotBase; omega)))).trans hcfg
  refine ⟨beatAdd (d.core q).ptr (beatDelta e.ebeat (d.core q).ptr), ?_⟩
  unfold Dev.fileEvent
  dsimp only
  rw [if_pos (by simpa using hlate), hcfg', if_pos (by decide)]

/-- A late event under the drop policy (R201, R203). -/
theorem late_event_runs (s : State) {ev : Event} {q : Nat} {x : Int} (hp : ev.part < 16)
    (hreg : s.dev.regPart (ev.dcore % 256 / 16) = some ev.part) (hch : s.dev.choked ev.part = false) (hkind : ev.tkind ≤ 1)
    (hq : s.dev.physOf (ev.dcore % 256) = some q) (hx : x = beatDelta ev.ebeat (s.dev.core q).ptr + 1 + (ev.delay : Int))
    (hlate : x < 0 ∨ x = 0 ∧ (s.dev.core q).closed = true) (hcfg : s.dev.flag (ALM_LATECFG (q / 16)) 0 = false) :
    Runs (.eventRecordArrival ev) s (fun e => e.rg (ALM_NLATE q) = satInc (s.dev.rg (ALM_NLATE q)) 1 % 2 ^ 32 ∧
      e.flag (ALM_NSTAT q) 3 = true ∧ SameMem s.dev e ∧ e.regions = s.dev.regions) := by
  rw [hx] at hlate
  have hheard := heard_aside s.dev ev
  have hcore : (s.dev.heard ev).core q = s.dev.core q := hheard.core q
  obtain ⟨eb, he⟩ := fileEvent_late (s.dev.heard ev) (q := q) (e := ev) (by rw [hcore]; exact hlate)
    ((hheard.flag 0 (by unfold ALM_LATECFG slotBase; omega)).trans hcfg)
  have hcount : 0x10000000 ≤ ALM_NLATE q := by unfold ALM_NLATE nBase slotBase; omega
  have hstat : 0x10000000 ≤ ALM_NSTAT q := by unfold ALM_NSTAT nBase slotBase; omega
  have hfile := file_aside (((s.dev.heard ev).bump (ALM_NLATE q) 1).setFlag (ALM_NSTAT q) 3 true) hp q eb
  rw [runs_iff (exec_eventRecordArrival ev s), eventArrives_row s.dev hp hreg hch hkind hq, he]
  refine ⟨?_, ?_, fun a => ?_, ?_⟩
  · rw [rg_finish_slot _ hcount, hfile.rg _ hcount, rg_setFlag_ne _ (by unfold ALM_NLATE ALM_NSTAT; omega), rg_bump_same,
      hheard.rg _ hcount]
  · rw [flag_congr 3 (rg_finish_slot _ hstat), hfile.flag 3 hstat]
    exact flag_setFlag_same _ (by decide)
  · rw [finish_mem, hfile.mem]
    exact congrArg (·.read a) hheard.mem
  · rw [finish_regions, hfile.regions]
    exact hheard.regions

end Sys2Proof.Machine
end

section
/-! SUPPORT. The near slots and the far lists: an entry put into a slot, and entries moved there from a list (R204 to R211). -/

namespace Sys2Proof.Machine

open Sys2Proof

variable (d : Dev)

/-! ### Near slots -/

theorem nearCap_le (q : Nat) : d.nearCap q ≤ 4095 := by
  have h : d.nearCap q < 2 ^ 12 := Nat.mod_lt _ (by decide)
  omega

/-- An entry put into near slot `j` of core `q`: its bytes at its place, one register written, and the words' errors gone. -/
theorem nearPut_slim (q j ent : Nat) : (d.nearPut q j ent).slim = d.slim := rfl

theorem nearPut_mem (q j ent : Nat) : (d.nearPut q j ent).mem = memWr d.mem (d.nearAddr q j (d.nearCount q j)) (leBytes 8 ent) := rfl

theorem rg_nearPut (q j ent : Nat) {a : Nat} (h : a ≠ ALM_NSLOT q j) : (d.nearPut q j ent).rg a = d.rg a := rg_setF_ne _ h

theorem nearPut_nearCount {q j : Nat} (ent : Nat) (h : d.nearCount q j < d.nearCap q) :
    (d.nearPut q j ent).nearCount q j = d.nearCount q j + 1 := by
  have hcap := nearCap_le d q
  refine (fld_setF_same _ (by decide)).trans ?_
  exact Nat.mod_eq_of_lt (by omega)

theorem nearPut_nearCap {q j : Nat} (hj : j < 64) (ent : Nat) : (d.nearPut q j ent).nearCap q = d.nearCap q :=
  fld_congr 0 12 (rg_nearPut d q j ent (by unfold ALM_NCAP ALM_NSLOT; omega))

/-- Entries put one after another into a slot with room for them. -/
theorem forEach_nearPut {q j : Nat} (hj : j < 64) : ∀ (l : List Nat) (d : Dev), d.nearCount q j + l.length ≤ d.nearCap q →
    (d.forEach l (fun d e => d.nearPut q j e)).nearCount q j = d.nearCount q j + l.length
  | [], _, _ => rfl
  | x :: t, d, h => by
    rw [List.length_cons] at h
    have hput := nearPut_nearCount d x (q := q) (j := j) (by omega)
    have hrec := forEach_nearPut hj t (d.nearPut q j x) (by rw [hput, nearPut_nearCap d hj]; omega)
    rw [hput] at hrec
    rw [List.length_cons, show d.nearCount q j + (t.length + 1) = d.nearCount q j + 1 + t.length by omega]
    exact hrec

theorem forEach_nearPut_slim (q j : Nat) (l : List Nat) : (d.forEach l (fun d e => d.nearPut q j e)).slim = d.slim :=
  forEach_keeps Dev.slim _ (fun d e => nearPut_slim d q j e) l d

theorem rg_forEach_nearPut (q j : Nat) (l : List Nat) {a : Nat} (h : a ≠ ALM_NSLOT q j) :
    (d.forEach l (fun d e => d.nearPut q j e)).rg a = d.rg a :=
  forEach_keeps (·.rg a) _ (fun d e => rg_nearPut d q j e h) l d

/-! ### Far lists -/

/-- The entries of core `q` in a list. -/
def ofCore (q : Nat) (l : List FarEnt) : Nat := (l.filter (fun x => x.core == q)).length

/-- As many entries of the core are taken as there are, or as are asked for; those left stay. -/
theorem takeFar_length (q : Nat) : ∀ (l : List FarEnt) (n : Nat), (takeFar q l n).1.length = min n (ofCore q l) ∧
    (takeFar q l n).1.length + ofCore q (takeFar q l n).2 = ofCore q l
  | [], n => by simp [takeFar, ofCore]
  | x :: t, n => by
    unfold takeFar
    by_cases hx : x.core = q
    · have hcons : ofCore q (x :: t) = ofCore q t + 1 := by simp [ofCore, hx]
      by_cases hn : 0 < n
      · obtain ⟨hlen, hsum⟩ := takeFar_length q t (n - 1)
        rw [if_pos (by simp [hx, hn]), hcons]
        simp only [List.length_cons]
        omega
      · obtain ⟨hlen, hsum⟩ := takeFar_length q t n
        rw [if_neg (by simp [hn]), hcons]
        have hleft : ofCore q (x :: (takeFar q t n).2) = ofCore q (takeFar q t n).2 + 1 := by simp [ofCore, hx]
        dsimp only
        omega
    · obtain ⟨hlen, hsum⟩ := takeFar_length q t n
      have hcons : ofCore q (x :: t) = ofCore q t := by simp [ofCore, hx]
      have hleft : ofCore q (x :: (takeFar q t n).2) = ofCore q (takeFar q t n).2 := by simp [ofCore, hx]
      rw [if_neg (by simp [hx]), hcons]
      dsimp only
      omega

/-- The far list of beat `b` after it was replaced. -/
theorem setFar_ents (r b : Nat) (l : List FarEnt) : (SMap.get default ((d.setFar r b l).region r).far b).ents = l := by
  have hfar : ((d.setFar r b l).region r).far = SMap.set default (d.region r).far b
      (if l.isEmpty then default else
        { ents := l
          fill := if l.any (fun y => y.blk == (SMap.get default (d.region r).far b).blk) then
            (SMap.get default (d.region r).far b).fill else 32
          blk := (SMap.get default (d.region r).far b).blk }) := by
    unfold Dev.setFar
    dsimp only
    rw [setF_region_at, region_setRegion, if_pos rfl]
  rw [hfar, SMap.get_set_same]
  cases l with
  | nil => rfl
  | cons x t => rfl

/-- The region of a core beside its far lists: the beat that migration has come to. -/
theorem setFar_mig (r b j : Nat) (l : List FarEnt) : ((d.setFar r b l).region j).mig = (d.region j).mig := by
  unfold Dev.setFar
  dsimp only
  rw [setF_region_at, region_setRegion]
  split
  · rename_i h; rw [h]
  · rfl

theorem setFar_naps (r b : Nat) (l : List FarEnt) : (d.setFar r b l).naps = d.naps := by
  unfold Dev.setFar
  dsimp only
  rw [setF_naps, setRegion_naps]

theorem setFar_cores (r b : Nat) (l : List FarEnt) : (d.setFar r b l).cores = d.cores := by
  unfold Dev.setFar
  dsimp only
  rw [setF_cores, setRegion_cores]

theorem rg_setFar (r b : Nat) (l : List FarEnt) {a : Nat} (h : a ≠ ALM_FFREE r) : (d.setFar r b l).rg a = d.rg a := rg_setF_ne _ h

/-- LISTED is the only thing that a look at the far list of a beat may set. -/
theorem relist_flag (q b : Nat) : d.relist q b = d ∨ ∃ x, d.relist q b = d.setFlag (ALM_NSLOT q (b % 64)) 31 x := by
  unfold Dev.relist
  dsimp only
  split
  · exact .inr ⟨_, rfl⟩
  · exact .inl rfl

theorem relist_slim (q b : Nat) : (d.relist q b).slim = d.slim := by
  obtain h | ⟨x, h⟩ := relist_flag d q b
  · rw [h]
  · rw [h]; rfl

theorem rg_relist (q b : Nat) {a : Nat} (h : a ≠ ALM_NSLOT q (b % 64)) : (d.relist q b).rg a = d.rg a := by
  obtain he | ⟨x, he⟩ := relist_flag d q b
  · rw [he]
  · rw [he, rg_setFlag_ne d h]

theorem relist_nearCount (q b : Nat) : (d.relist q b).nearCount q (b % 64) = d.nearCount q (b % 64) := by
  obtain he | ⟨x, he⟩ := relist_flag d q b
  · rw [he]
  · rw [he]
    exact fld_setFlag_ne d (.inr ⟨by decide, .inl (by decide)⟩)

theorem slim_naps {d e : Dev} (h : e.slim = d.slim) : e.naps = d.naps := (congrArg Dev.naps h :)
theorem slim_cores {d e : Dev} (h : e.slim = d.slim) : e.cores = d.cores := (congrArg Dev.cores h :)
theorem slim_region {d e : Dev} (h : e.slim = d.slim) (r : Nat) : e.region r = d.region r := (congrArg (Dev.region · r) h :)

/-! ### Entries moved from a list to a slot -/

section
variable (q b : Nat)

/-- The entries that go. -/
def Dev.farMoved : List Nat × List FarEnt :=
  takeFar q (SMap.get default (d.region (q / 16)).far b).ents (d.nearCap q - d.nearCount q (b % 64))

theorem farToNear_eq : d.farToNear q b =
    ((d.setFar (q / 16) b (d.farMoved q b).2).forEach (d.farMoved q b).1 (fun d e => d.nearPut q (b % 64) e)).relist q b := rfl

theorem rg_farToNear {a : Nat} (hslot : a ≠ ALM_NSLOT q (b % 64)) (hfree : a ≠ ALM_FFREE (q / 16)) : (d.farToNear q b).rg a = d.rg a := by
  rw [farToNear_eq, rg_relist _ _ _ hslot, rg_forEach_nearPut _ _ _ _ hslot, rg_setFar _ _ _ _ hfree]

/-- Beside memory and registers a move concerns the far lists of the core's region. -/
theorem farToNear_slim : (d.farToNear q b).slim = (d.setFar (q / 16) b (d.farMoved q b).2).slim := by
  rw [farToNear_eq, relist_slim, forEach_nearPut_slim]

theorem farToNear_mig (j : Nat) : ((d.farToNear q b).region j).mig = (d.region j).mig := by
  rw [slim_region (farToNear_slim d q b), setFar_mig]

theorem farToNear_napping (j : Nat) : (d.farToNear q b).napping j = d.napping j := by
  unfold Dev.napping
  rw [slim_naps (farToNear_slim d q b), setFar_naps]

theorem farToNear_cores : (d.farToNear q b).cores = d.cores := by
  rw [slim_cores (farToNear_slim d q b), setFar_cores]

/-- The slot takes what the list holds for the core, as far as there is room; the rest stays in the list. -/
theorem farToNear_counts (hroom : d.nearCount q (b % 64) ≤ d.nearCap q) :
    (d.farToNear q b).nearCount q (b % 64) = min (d.nearCap q) (d.nearCount q (b % 64) + d.farCount q b) ∧
    (d.farToNear q b).nearCount q (b % 64) + (d.farToNear q b).farCount q b = d.nearCount q (b % 64) + d.farCount q b := by
  obtain ⟨hlen, hsum⟩ := takeFar_length q (SMap.get default (d.region (q / 16)).far b).ents (d.nearCap q - d.nearCount q (b % 64))
  have hcount : d.farCount q b = ofCore q (SMap.get default (d.region (q / 16)).far b).ents := rfl
  have hcap : (d.setFar (q / 16) b (d.farMoved q b).2).nearCap q = d.nearCap q :=
    fld_congr 0 12 (rg_setFar _ _ _ _ (by unfold ALM_NCAP ALM_FFREE nBase slotBase; omega))
  have hnear : (d.setFar (q / 16) b (d.farMoved q b).2).nearCount q (b % 64) = d.nearCount q (b % 64) :=
    fld_congr 0 12 (rg_setFar _ _ _ _ (by unfold ALM_NSLOT ALM_FFREE nBase slotBase; omega))
  have hput : (d.farToNear q b).nearCount q (b % 64) = d.nearCount q (b % 64) + (d.farMoved q b).1.length := by
    rw [farToNear_eq, relist_nearCount, forEach_nearPut (Nat.mod_lt _ (by decide)) _ _ (by rw [hcap, hnear]; unfold Dev.farMoved; omega),
      hnear]
  have hleft : (d.farToNear q b).farCount q b = ofCore q (d.farMoved q b).2 := by
    unfold Dev.farCount
    rw [slim_region (farToNear_slim d q b), setFar_ents]
    rfl
  rw [hput, hleft, hcount]
  unfold Dev.farMoved
  omega

end

end Sys2Proof.Machine
end

section
/-! SUPPORT. Events filed, near slots refilled and far lists migrated, READOUT events added (R200 to R212), and the family's statement. -/

namespace Sys2Proof.Machine

open Sys2Proof

variable (d : Dev)

/-! ### Filing near (R200 to R206) -/

theorem entry_lt (e : Event) : e.entry < 256 ^ 8 := by
  unfold Event.entry
  split <;> omega

/-- An event due in the near window, of a core that does not nap and whose slot has room, goes into that slot. -/
theorem fileEvent_near {q : Nat} {e : Event} {x : Int} (hx : x = beatDelta e.ebeat (d.core q).ptr + 1 + (e.delay : Int))
    (hwin : 0 ≤ x ∧ x ≤ 63) (hopen : x = 0 → (d.core q).closed = false) (hnap : d.napping q = false)
    (hroom : d.nearCount q (beatAdd (d.core q).ptr x % 64) < d.nearCap q) : ∃ eb, d.fileEvent q e =
      ((d.nearPut q (beatAdd (d.core q).ptr x % 64) e.entry).count64 (ALM_NFILED_LO q) 1).file e.part q eb := by
  obtain ⟨h0, h63⟩ := hwin
  have hlate : ¬ ((decide (x < 0) || decide (x = 0) && (d.core q).closed) = true) := by
    simp only [Bool.or_eq_true, decide_eq_true_eq, Bool.and_eq_true, not_or, not_and]
    exact ⟨by omega, fun h => by rw [hopen h]; decide⟩
  refine ⟨beatAdd (d.core q).ptr (beatDelta e.ebeat (d.core q).ptr), ?_⟩
  unfold Dev.fileEvent Dev.placeEntry
  dsimp only
  rw [← hx, if_neg hlate, if_neg (by omega), hnap, if_neg (by decide), if_pos h63, if_pos hroom]
  rfl

section
variable {d} {e : Dev} (h : Aside d e)
include h

theorem Aside.nearCap (q : Nat) : e.nearCap q = d.nearCap q := h.fld 0 12 (by unfold ALM_NCAP nBase slotBase; omega)
theorem Aside.nearCount (q j : Nat) : e.nearCount q j = d.nearCount q j := h.fld 0 12 (by unfold ALM_NSLOT nBase slotBase; omega)
theorem Aside.nearAddr (q j k : Nat) : e.nearAddr q j k = d.nearAddr q j k := by
  unfold Dev.nearAddr Dev.areaBase
  rw [h.nearCap, h.fld 0 6 (by unfold SYN_PMALM nBase slotBase; omega)]
theorem Aside.frameAddr (r b k : Nat) : e.frameAddr r b k = d.frameAddr r b k := by
  unfold Dev.frameAddr
  rw [h.fld 17 4 (by unfold AXN_RCFG slotBase; omega)]

end

/-- A ROW or FAR event filed near. -/
theorem near_event_runs (s : State) {ev : Event} {q j : Nat} {x : Int} (hp : ev.part < 16)
    (hreg : s.dev.regPart (ev.dcore % 256 / 16) = some ev.part) (hch : s.dev.choked ev.part = false) (hkind : ev.tkind ≤ 1)
    (hq : s.dev.physOf (ev.dcore % 256) = some q) (hx : x = beatDelta ev.ebeat (s.dev.core q).ptr + 1 + (ev.delay : Int))
    (hwin : 0 ≤ x ∧ x ≤ 63) (hopen : x = 0 → (s.dev.core q).closed = false) (hnap : s.dev.napping q = false)
    (hj : j = beatAdd (s.dev.core q).ptr x % 64) (hroom : s.dev.nearCount q j < s.dev.nearCap q) :
    Runs (.eventRecordArrival ev) s (fun e => e.nearCount q j = s.dev.nearCount q j + 1 ∧
      e.rdN (s.dev.nearAddr q j (s.dev.nearCount q j)) 8 = ev.entry ∧
      e.rg64 (ALM_NFILED_LO q) = wrap64 (s.dev.rg64 (ALM_NFILED_LO q)) 1 ∧ (e.region (q / 16)).far = (s.dev.region (q / 16)).far ∧
      MemKeeps s.dev e (fun a => s.dev.nearAddr q j (s.dev.nearCount q j) ≤ a ∧ a < s.dev.nearAddr q j (s.dev.nearCount q j) + 8)) := by
  have hh : Aside s.dev (s.dev.heard ev) := heard_aside s.dev ev
  have hj64 : j < 64 := by omega
  rw [← hh.core] at hx hopen hj
  rw [← hh.napping] at hnap
  rw [← hh.nearCount, ← hh.nearCap, hj] at hroom
  obtain ⟨eb, he⟩ := fileEvent_near (s.dev.heard ev) hx hwin hopen hnap hroom
  rw [← hj] at he hroom
  rw [runs_iff (exec_eventRecordArrival ev s), eventArrives_row s.dev hp hreg hch hkind hq, he]
  have hfile := file_aside (((s.dev.heard ev).nearPut q j ev.entry).count64 (ALM_NFILED_LO q) 1) hp q eb
  generalize (((s.dev.heard ev).nearPut q j ev.entry).count64 (ALM_NFILED_LO q) 1).file ev.part q eb = f at hfile
  have hslot : 0x10000000 ≤ ALM_NSLOT q j := by unfold ALM_NSLOT nBase slotBase; omega
  have hlo : 0x10000000 ≤ ALM_NFILED_LO q := by unfold ALM_NFILED_LO nBase slotBase; omega
  have hmem : f.finish.mem = memWr s.dev.mem (s.dev.nearAddr q j (s.dev.nearCount q j)) (leBytes 8 ev.entry) := by
    rw [finish_mem, hfile.mem]
    refine (nearPut_mem (s.dev.heard ev) q j ev.entry).trans ?_
    rw [hh.mem, hh.nearAddr, hh.nearCount]
  have hrg64 : f.finish.rg64 (ALM_NFILED_LO q) = (((s.dev.heard ev).nearPut q j ev.entry).count64 (ALM_NFILED_LO q) 1).rg64
      (ALM_NFILED_LO q) := rg64_congr ((rg_finish_slot f hlo).trans (hfile.rg _ hlo))
    ((rg_finish_slot f (by omega)).trans (hfile.rg _ (by omega)))
  refine ⟨?_, ?_, ?_, ?_, fun a ha => ?_⟩
  · have hcount : f.finish.nearCount q j = ((s.dev.heard ev).nearPut q j ev.entry).nearCount q j :=
      fld_congr 0 12 ((rg_finish_slot f hslot).trans ((hfile.rg _ hslot).trans
        (rg_count64_ne _ 1 (by unfold ALM_NSLOT ALM_NFILED_LO; omega))))
    rw [hcount, nearPut_nearCount _ _ hroom, hh.nearCount]
  · have hread := rdB_memWr hmem
    rw [length_leBytes] at hread
    unfold Dev.rdN
    rw [hread, leNat_leBytes, Nat.mod_eq_of_lt (entry_lt ev)]
  · rw [hrg64, rg64_count64_same]
    refine congrArg (wrap64 · 1) (rg64_congr ?_ ?_)
    · rw [rg_nearPut _ _ _ _ (by unfold ALM_NSLOT ALM_NFILED_LO; omega), hh.rg _ hlo]
    · rw [rg_nearPut _ _ _ _ (by unfold ALM_NSLOT ALM_NFILED_LO; omega), hh.rg _ (by omega)]
  · unfold Dev.region
    rw [finish_regions, hfile.regions]
    exact congrArg (fun m => (SMap.get default m (q / 16)).far) hh.regions
  · rw [hmem, memWr_read, length_leBytes, if_neg ha]

/-! ### Migration and refill (R209, R210) -/

theorem exec_migration (r : Nat) (s : State) : exec (.migration r) s = s.run (·.migrate r) := rfl
theorem exec_refill (q w : Nat) (s : State) : exec (.refill q w) s = s.run (·.refill q w) := rfl

/-- The lists of the cores `l` moved: migration stands where it stood, no core naps that did not. -/
theorem forEach_farToNear (r b : Nat) (l : List Nat) :
    ((d.forEach l (fun d q => d.farToNear q b)).region r).mig = (d.region r).mig ∧
    (∀ j, (d.forEach l (fun d q => d.farToNear q b)).napping j = d.napping j) ∧
    (d.forEach l (fun d q => d.farToNear q b)).rg (ALM_FTURN r) = d.rg (ALM_FTURN r) := by
  refine ⟨forEach_keeps (fun d => (d.region r).mig) _ (fun d q => farToNear_mig d q b r) l d,
    fun j => forEach_keeps (·.napping j) _ (fun d q => farToNear_napping d q b j) l d,
    forEach_keeps (·.rg (ALM_FTURN r)) _ (fun d q => rg_farToNear d q b ?_ ?_) l d⟩
  · unfold ALM_FTURN ALM_NSLOT nBase slotBase; omega
  · unfold ALM_FTURN ALM_FFREE slotBase; omega

theorem napping_none {d : Dev} (h : d.naps = []) (q : Nat) : d.napping q = false := by unfold Dev.napping; rw [h]; rfl

/-- A device that migrated the list of the next beat of region `r`. -/
theorem migrate_eq {r : Nat} (hcores : d.coresOf r ≠ []) (hdue : 0 < beatSub (d.farMin r) (d.region r).mig) (hnaps : d.naps = [])
    (hrun : d.engineRuns r = true) : ∃ e : Dev, e.rg (ALM_FTURN r) = d.rg (ALM_FTURN r) ∧ d.migrate r =
      ((e.setRegion r { (e.region r) with mig := ((d.region r).mig + 1) % 2 ^ 48 }).bump (ALM_FTURN r) 1).setFlag (ALM_FSTAT r) 0 false := by
  obtain ⟨-, hn, hturn⟩ := forEach_farToNear d r (((d.region r).mig + 64) % 2 ^ 48)
    (((d.coresOf r).map Prod.snd).filter (fun q => ! d.napping q))
  refine ⟨_, hturn, ?_⟩
  have hwide : ∀ q, (d.forEach (((d.coresOf r).map Prod.snd).filter (fun q => ! d.napping q))
      (fun e q => e.farToNear q (((d.region r).mig + 64) % 2 ^ 48))).napping q = false := fun q => (hn q).trans (napping_none hnaps q)
  unfold Dev.migrate
  dsimp only
  rw [if_neg (by simp [hrun, hcores, hdue]), if_neg]
  simp only [hwide]
  simp

/-- MIGRATION (R209). -/
theorem migration_runs (s : State) {r : Nat} (hcores : s.dev.coresOf r ≠ [])
    (hdue : 0 < beatSub (s.dev.farMin r) (s.dev.region r).mig) (hnaps : s.dev.naps = []) (hrun : s.dev.engineRuns r = true) :
    Runs (.migration r) s (fun e => (e.region r).mig = ((s.dev.region r).mig + 1) % 2 ^ 48 ∧
      e.rg (ALM_FTURN r) = satInc (s.dev.rg (ALM_FTURN r)) 1 % 2 ^ 32 ∧ e.flag (ALM_FSTAT r) 0 = false) := by
  obtain ⟨f, hturn, he⟩ := migrate_eq s.dev hcores hdue hnaps hrun
  rw [runs_iff (exec_migration r s), he]
  refine ⟨?_, ?_, ?_⟩
  · unfold Dev.region
    rw [finish_regions]
    exact congrArg Region.mig ((region_setRegion f r r _).trans (if_pos rfl))
  · rw [rg_finish_slot _ (by unfold ALM_FTURN slotBase; omega), rg_setFlag_ne _ (by unfold ALM_FTURN ALM_FSTAT; omega), rg_bump_same,
      ← hturn]
    rfl
  · rw [flag_congr 0 (rg_finish_slot _ (by unfold ALM_FSTAT slotBase; omega))]
    exact flag_setFlag_same _ (by decide)

/-- Stall cycles of an engine are counted in two registers. -/
theorem obsStall_counts (q e reason k : Nat) : (d.obsStall q e reason k).desk = d.desk ∧
    ∀ a, a ≠ OBS_STALL_LO q e → a ≠ OBS_STALL_LO q e + 4 → a ≠ OBS_RSN q e reason → (d.obsStall q e reason k).rg a = d.rg a := by
  unfold Dev.obsStall
  split
  · exact ⟨rfl, fun _ _ _ _ => rfl⟩
  · refine ⟨?_, fun a hlo hhi hrsn => (rg_bump_ne _ hrsn).trans (rg_count64_ne d k ⟨hlo, hhi⟩)⟩
    rw [bump_desk]
    unfold Dev.count64
    split <;> rfl

/-- A core whose slot opened empty, after a wait of `w` cycles for its first entry. -/
def NCore.waited (c : NCore) (w : Nat) : NCore := { c with openEmpty := false, delWait := c.delWait + w }

/-- The device before the entries of a refill move. -/
def Dev.refillWait (q w : Nat) : Dev :=
  if (d.core q).openEmpty then (d.setCore q ((d.core q).waited w)).obsStall q 0 5 w else d

theorem refillWait_ptr (q w : Nat) : ((d.refillWait q w).core q).ptr = (d.core q).ptr := by
  unfold Dev.refillWait
  split
  · have hcore : (d.setCore q ((d.core q).waited w)).core q = (d.core q).waited w := (core_setCore d q q _).trans (if_pos rfl)
    unfold Dev.core at hcore ⊢
    rw [desk_cores (obsStall_counts _ q 0 5 w).1, hcore]
    rfl
  · rfl

theorem refillWait_regions (q w : Nat) : (d.refillWait q w).regions = d.regions := by
  unfold Dev.refillWait
  split
  · rw [desk_regions (obsStall_counts _ q 0 5 w).1, setCore_regions]
  · rfl

/-- The registers of the core's Almanac are as they were. -/
theorem rg_refillWait (q w : Nat) {a : Nat} (h : ALM_NSTAT q ≤ a ∧ a < ALM_NSTAT q + 0x1000) : (d.refillWait q w).rg a = d.rg a := by
  unfold ALM_NSTAT at h
  unfold Dev.refillWait
  split
  · refine ((obsStall_counts _ q 0 5 w).2 a ?_ ?_ ?_).trans rfl
    · unfold OBS_STALL_LO; omega
    · unfold OBS_STALL_LO; omega
    · unfold OBS_RSN; omega
  · rfl

/-- A refill that goes on: a wait at most, then entries move. -/
theorem refill_eq {q w : Nat} (hlist : d.flag (ALM_NSTAT q) 0 = true) (hopen : (d.core q).closed = false)
    (hlow : d.nearCount q ((d.core q).ptr % 64) < d.nearCap q / 2) (hnap : d.napping q = false)
    (hfar : d.farCount q (d.core q).ptr ≠ 0) (hrun : d.engineRuns (q / 16) = true) :
    ∃ w', d.refill q w = (d.refillWait q w').farToNear q (d.core q).ptr := by
  refine ⟨min w (if d.pwr.prev = 2 then 16 else 32), ?_⟩
  unfold Dev.refill
  dsimp only
  rw [if_neg (by simp [hlist, hopen, hnap, hfar, hrun]; omega)]
  rfl

/-- REFILL (R210). -/
theorem refill_runs (s : State) {q w : Nat} (hlist : s.dev.flag (ALM_NSTAT q) 0 = true) (hopen : (s.dev.core q).closed = false)
    (hlow : s.dev.nearCount q ((s.dev.core q).ptr % 64) < s.dev.nearCap q / 2) (hnap : s.dev.napping q = false)
    (hfar : s.dev.farCount q (s.dev.core q).ptr ≠ 0) (hrun : s.dev.engineRuns (q / 16) = true) : Runs (.refill q w) s (fun e =>
      e.nearCount q ((s.dev.core q).ptr % 64) = min (s.dev.nearCap q) (s.dev.nearCount q ((s.dev.core q).ptr % 64) +
        s.dev.farCount q (s.dev.core q).ptr) ∧
      e.nearCount q ((s.dev.core q).ptr % 64) + e.farCount q (s.dev.core q).ptr =
        s.dev.nearCount q ((s.dev.core q).ptr % 64) + s.dev.farCount q (s.dev.core q).ptr ∧
      (e.core q).ptr = (s.dev.core q).ptr) := by
  obtain ⟨w', he⟩ := refill_eq s.dev (w := w) hlist hopen hlow hnap hfar hrun
  rw [runs_iff (exec_refill q w s), he]
  have hcap : (s.dev.refillWait q w').nearCap q = s.dev.nearCap q :=
    fld_congr 0 12 (rg_refillWait s.dev q w' (by unfold ALM_NSTAT ALM_NCAP; omega))
  have hnear : (s.dev.refillWait q w').nearCount q ((s.dev.core q).ptr % 64) = s.dev.nearCount q ((s.dev.core q).ptr % 64) :=
    fld_congr 0 12 (rg_refillWait s.dev q w' (by unfold ALM_NSTAT ALM_NSLOT; omega))
  have hlist' : (s.dev.refillWait q w').farCount q (s.dev.core q).ptr = s.dev.farCount q (s.dev.core q).ptr := by
    unfold Dev.farCount Dev.region
    rw [refillWait_regions]
  obtain ⟨hmin, hsum⟩ := farToNear_counts (s.dev.refillWait q w') q (s.dev.core q).ptr (by omega)
  rw [hcap, hnear, hlist'] at hmin
  rw [hnear, hlist'] at hsum
  generalize hf : (s.dev.refillWait q w').farToNear q (s.dev.core q).ptr = f at hmin hsum
  have hcount : f.finish.nearCount q ((s.dev.core q).ptr % 64) = f.nearCount q ((s.dev.core q).ptr % 64) :=
    fld_congr 0 12 (rg_finish_slot f (by unfold ALM_NSLOT nBase slotBase; omega))
  have hleft : f.finish.farCount q (s.dev.core q).ptr = f.farCount q (s.dev.core q).ptr := by
    unfold Dev.farCount Dev.region
    rw [finish_regions]
  have hptr : (f.finish.core q).ptr = ((s.dev.refillWait q w').core q).ptr := by
    unfold Dev.core
    rw [finish_cores, ← hf, farToNear_cores]
  rw [hcount, hleft, hptr]
  exact ⟨hmin, hsum, refillWait_ptr s.dev q w'⟩

/-! ### READOUT events (R212) -/

/-- The device with a saturated slot of frame buffer `b` counted and shown. -/
def Dev.frameSat (r b : Nat) : Dev :=
  let g := d.region r
  ((d.bump (AXN_RSAT r) 1).setFlag (AXN_RSTAT r) 2 true).setRegion r { g with frSat := SMap.set false g.frSat (b % 2) true }

theorem frameSat_mem (r b : Nat) : (d.frameSat r b).mem = d.mem := rfl
theorem frameSat_cores (r b : Nat) : (d.frameSat r b).cores = d.cores := rfl
theorem rg_frameSat (r b : Nat) : (d.frameSat r b).rg (AXN_RSAT r) = satInc (d.rg (AXN_RSAT r)) 1 % 2 ^ 32 :=
  (rg_setFlag_ne _ (by unfold AXN_RSAT AXN_RSTAT; omega)).trans (rg_bump_same _ _ _)

/-- A product added into the slot at `a`, a word of which no error is known. -/
theorem readoutAdd_writes {r eb : Nat} {e : Event} {a : Nat} {y : Int} (ha : a = d.frameAddr r eb (e.ra % 65536))
    (hclean : SMap.get 0 d.ecc (8 * (a / 8)) = 0) (hy : y = sInt 32 (d.rdN a 4) + sInt 8 e.grade * sInt 12 e.delay) :
    ∃ f : Dev, f.mem = memWr d.mem a (leBytes 4 (uOf 32 (satS 32 y))) ∧ f.cores = d.cores ∧
      f.rg (AXN_RSAT r) = (if satS 32 y = y then d.rg (AXN_RSAT r) else satInc (d.rg (AXN_RSAT r)) 1 % 2 ^ 32) ∧
      d.readoutAdd r e eb = f.file e.part (256 + r) eb := by
  have h4 : a % 4 = 0 := by rw [ha]; unfold Dev.frameAddr cmnBase; omega
  have hfix : d.cmnCorrected r (8 * (a / 8)) = d := if_pos hclean
  have hread := cmnRd_clean d r (n := 4) (.inl rfl) h4 (by omega)
  rw [hfix] at hread
  obtain ⟨g, hnote, -⟩ := notePortA_keeps d r (a - cmnBase r) 4
  obtain ⟨hmem, hslim, hregs⟩ := cmnWr_writes { d with regions := g } a (leBytes 4 (uOf 32 (satS 32 y)))
  have heq : d.readoutAdd r e eb = (if satS 32 y = y then
      ({ d with regions := g } : Dev).cmnWr a (leBytes 4 (uOf 32 (satS 32 y))) else
      (({ d with regions := g } : Dev).cmnWr a (leBytes 4 (uOf 32 (satS 32 y)))).frameSat r eb).file e.part (256 + r) eb := by
    unfold Dev.readoutAdd Dev.frameSat
    dsimp only
    rw [← ha, hread]
    dsimp only
    rw [hnote, ← Dev.rdN, ← hy]
  generalize ({ d with regions := g } : Dev).cmnWr a (leBytes 4 (uOf 32 (satS 32 y))) = f at *
  have hcores : f.cores = d.cores := slim_cores (d := { d with regions := g }) hslim
  have hsat : f.rg (AXN_RSAT r) = d.rg (AXN_RSAT r) := by unfold Dev.rg; rw [hregs]
  refine ⟨_, ?_, ?_, ?_, heq⟩
  · split
    · exact hmem
    · rw [frameSat_mem, hmem]
  · split
    · exact hcores
    · rw [frameSat_cores, hcores]
  · split
    · exact hsat
    · rw [rg_frameSat, hsat]

/-- A READOUT event into a word with no error. -/
theorem readout_event_runs (s : State) {ev : Event} {r x : Nat} {y : Int} (hp : ev.part < 16) (hr : r = ev.dcore % 256 / 16)
    (hreg : s.dev.regPart r = some ev.part) (hch : s.dev.choked ev.part = false) (hkind : ev.tkind = 2)
    (hread : s.dev.readoutRegion ev.part = some r) (hon : s.dev.flag (AXN_RCFG r) 31 = true)
    (htime : -1 ≤ beatDelta ev.ebeat (s.dev.beat ev.part))
    (hx : x = beatAdd (s.dev.beat ev.part) (beatDelta ev.ebeat (s.dev.beat ev.part)))
    (hclear : (s.dev.region r).clearing ≠ some (x % 2))
    (hclean : SMap.get 0 s.dev.ecc (8 * (s.dev.frameAddr r x (ev.ra % 65536) / 8)) = 0)
    (hy : y = sInt 32 (s.dev.rdN (s.dev.frameAddr r x (ev.ra % 65536)) 4) + sInt 8 ev.grade * sInt 12 ev.delay) :
    Runs (.eventRecordArrival ev) s (fun e => e.rdN (s.dev.frameAddr r x (ev.ra % 65536)) 4 = uOf 32 (satS 32 y) ∧
      e.rg (AXN_RSAT r) = (if satS 32 y = y then s.dev.rg (AXN_RSAT r) else satInc (s.dev.rg (AXN_RSAT r)) 1 % 2 ^ 32) ∧
      MemKeeps s.dev e (fun a => s.dev.frameAddr r x (ev.ra % 65536) ≤ a ∧ a < s.dev.frameAddr r x (ev.ra % 65536) + 4) ∧
      e.cores = s.dev.cores) := by
  have hh : Aside s.dev (s.dev.heard ev) := heard_aside s.dev ev
  generalize ha : s.dev.frameAddr r x (ev.ra % 65536) = a at *
  have hsat : 0x10000000 ≤ AXN_RSAT r := by unfold AXN_RSAT slotBase; omega
  have hmeets : (s.dev.heard ev).readoutEvent r ev = (s.dev.heard ev).readoutAdd r ev x := by
    unfold Dev.readoutEvent
    dsimp only
    rw [heard_beat s.dev ev hp, ← hx, if_neg (by omega), hh.region, if_neg (by simpa using hclear)]
  obtain ⟨f, hmem, hcores, hcount, he⟩ := readoutAdd_writes (s.dev.heard ev) (r := r) (eb := x) (e := ev) (a := a) (y := y)
    (by rw [hh.frameAddr, ha]) (by rw [hh.ecc]; exact hclean) (by rw [hy]; unfold Dev.rdN; rw [rdB_congr hh.mem])
  rw [hh.mem] at hmem
  rw [hh.cores] at hcores
  rw [hh.rg _ hsat] at hcount
  subst hr
  rw [runs_iff (exec_eventRecordArrival ev s), eventArrives_readout s.dev hp hreg hch hkind hread hon, hmeets, he]
  have hfile := file_aside f hp (256 + ev.dcore % 256 / 16) x
  generalize f.file ev.part (256 + ev.dcore % 256 / 16) x = g at hfile
  have hgmem : g.finish.mem = memWr s.dev.mem a (leBytes 4 (uOf 32 (satS 32 y))) := by rw [finish_mem, hfile.mem, hmem]
  refine ⟨?_, ?_, fun b hb => ?_, ?_⟩
  · have hword := rdB_memWr hgmem
    rw [length_leBytes] at hword
    unfold Dev.rdN
    rw [hword, leNat_leBytes]
    exact Nat.mod_eq_of_lt (by unfold uOf; omega)
  · rw [rg_finish_slot _ hsat, hfile.rg _ hsat, hcount]
  · rw [hgmem, memWr_read, length_leBytes, if_neg hb]
  · rw [finish_cores, hfile.cores, hcores]

/-- Settles O13: each record is taken, traced and counted beside what it does, and a move of far entries keeps their number. -/
theorem eventFiling : Obligations.EventFiling := by
  refine ⟨?_, ?_, ?_, ?_, ?_, ?_, ?_⟩
  · intro s ev q j x hp hreg hch hkind hq _ hx hwin hopen hnap hj hroom
    exact near_event_runs s hp hreg hch hkind hq hx hwin hopen hnap hj hroom
  · intro s ev q x hp hreg hch hkind hq _ hx hlate hcfg
    exact late_event_runs s hp hreg hch hkind hq hx hlate hcfg
  · intro s ev hp hreg
    exact foreign_runs s rfl hp hreg
  · intro s ev r x y hp hr hreg hch hkind hread hon htime hx hclear hclean hy
    exact readout_event_runs s hp hr hreg hch hkind hread hon htime hx hclear hclean hy
  · intro s ev hp
    exact eventDisposalTimeout_runs s rfl hp
  · intro s r _ hcores hdue hnaps hrun
    exact migration_runs s hcores hdue hnaps hrun
  · intro s q w _ hlist hopen hlow hnap hfar hrun
    exact refill_runs s hlist hopen hlow hnap hfar hrun

end Sys2Proof.Machine
end

section
/-! SUPPORT. The tick at a timer whose count stands at the end of its 32 bits, under a period that no register of 32 bits holds. -/

namespace Sys2Proof.Machine

open Sys2Proof

/-- Timer 0 runs at count 2^32 - 1, and its period reads more than 2^33, so its next event is still ahead. -/
def wideTimer : Dev :=
  { (default : Dev) with regs := [(TAB_TnCOUNT 0, 2 ^ 32 - 1), (TAB_TnPERIOD 0, 2 ^ 33), (TAB_TnSTAT 0, 1)] }

theorem wideTimer_count : wideTimer.rg (TAB_TnCOUNT 0) = 2 ^ 32 - 1 := by decide +kernel

/-- The tick writes 2^32 to the count, and the register keeps its 32 low bits. -/
theorem wideTimer_advance_count : (wideTimer.advance 1).rg (TAB_TnCOUNT 0) = 0 := by decide +kernel

theorem not_follow_timerCount : ¬ FollowReg (TAB_TnCOUNT 0) := by
  unfold FollowReg TAB_TnCOUNT FLT_STAT TAB_BSTAT FLT_PMUTE TAB_CHSTAT PWR_DSTAT
  omega

theorem step_of_empty (d : Dev) : step ⟨d, []⟩ = .next ⟨(d.advance 1).finish, []⟩ := rfl

/-- Refutes O55: its clause of a running timer does not bound the next count by 2^32, as the clause of a running partition does, so
a period that reads more than 32 bits leads the count past the end of its register. -/
theorem not_emptyQueuePassesOneTick : ¬ Obligations.EmptyQueuePassesOneTick := by
  intro h
  obtain ⟨t, hstep, -, -, -, -, -, -, -, -, hawake⟩ := h ⟨wideTimer, []⟩ rfl
  obtain ⟨-, -, -, htimer, -⟩ := hawake rfl
  have hcount := htimer 0 (by decide) (by decide +kernel) (by decide +kernel)
  have ht : t.dev = (wideTimer.advance 1).finish := by
    rw [step_of_empty] at hstep
    rw [← Host.Outcome.next.inj hstep]
  rw [ht, rg_finish _ not_follow_timerCount, wideTimer_advance_count, wideTimer_count] at hcount
  exact absurd hcount (by decide)

end Sys2Proof.Machine
end

section
/-! SUPPORT. TAB_TSET in FREE under a low half that reads as no register of 32 bits. -/

namespace Sys2Proof.Machine

open Sys2Proof

/-- A FREE timebase without external time, whose TAB_TSET_LO reads 2^32. -/
def wideTset : Dev := { (default : Dev) with regs := [(TAB_TSET_LO, 2 ^ 32)] }

theorem wideTset_low : wideTset.rg TAB_TSET_LO = 2 ^ 32 := by decide +kernel

theorem wideTset_free : wideTset.timeSrc = 0 ∧ wideTset.extStill = true := by decide +kernel

/-- The pair is one number of 64 bits (R480), and the low half carries into the high one. -/
theorem wideTset_high : (wideTset.tsetHi 0 0).rg TAB_TIME_HI = 1 := by decide +kernel

theorem not_follow_timeHi : ¬ FollowReg TAB_TIME_HI := by
  unfold FollowReg TAB_TIME_HI FLT_STAT TAB_BSTAT FLT_PMUTE TAB_CHSTAT PWR_DSTAT
  omega

theorem exec_tabTsetWrite (f hi : Nat) (s : State) : exec (.tabTsetWrite f hi) s = s.run (·.tsetHi f hi) := rfl

/-- Refutes O5: its clause of TAB_TSET_HI does not bound what TAB_TSET_LO reads by 2^32, so the pair may carry into TAB_TIME_HI,
which then differs from the value written. -/
theorem not_timeDiscipline : ¬ Obligations.TimeDiscipline := by
  rintro ⟨-, -, -, -, htset, -⟩
  have hruns := htset ⟨wideTset, []⟩ 0 wideTset_free.1 wideTset_free.2
  obtain ⟨-, hhigh, -⟩ := (runs_iff (exec_tabTsetWrite _ _ _)).1 hruns
  rw [rg_finish _ not_follow_timeHi, wideTset_high] at hhigh
  exact absurd hhigh (by decide)

end Sys2Proof.Machine
end

section
/-! SUPPORT. REGION_BEAT_START in a leap that began at count 0, as the period change of R81 leaves it, under a leap limit below the
region's channel offset. -/

namespace Sys2Proof.Machine

open Sys2Proof

/-- Partition 0 owns region 0 and runs beat 1 in a leap from count 0; region 0 has yet to start beat 1. -/
def shortLeap : Dev :=
  (((((default : Dev).setR (CAL_REGPART 0) 0x80000000).setF (TAB_BSTAT 0) 16 3 1).setR (TAB_LEAPLIM 0) 100).setR
      (TAB_CHOFF 0) 400).setR (TAB_BEATNO_LO 0) 1
    |>.setPart 0 { (default : Part) with leap := some 0 }

theorem shortLeap_due : shortLeap.regPart 0 = some 0 ∧ shortLeap.running 0 = true ∧
    0 < beatSub (shortLeap.beat 0) (shortLeap.region 0).beat ∧ shortLeap.pwr.asleep = 0 ∧
    ((shortLeap.region 0).beat + 1) % 2 ^ 48 = shortLeap.beat 0 ∧ shortLeap.regionOffset 0 0 = 400 := by
  decide +kernel

/-- The ticks up to the offset pass, but the count stays at the leap limit until the command of that event comes (log entry 4). -/
theorem shortLeap_count : (shortLeap.regionBeatStart 0).rg (TAB_BCOUNT 0) = 100 := by decide +kernel

theorem not_follow_beatCount : ¬ FollowReg (TAB_BCOUNT 0) := by
  unfold FollowReg TAB_BCOUNT FLT_STAT TAB_BSTAT FLT_PMUTE TAB_CHSTAT PWR_DSTAT
  omega

theorem exec_regionBeatStart (r : Nat) (s : State) : exec (.regionBeatStart r) s = s.run (·.regionBeatStart r) := rfl

/-- Refutes O3: its clause of REGION_BEAT_START claims that TAB_BCOUNT reaches the region's offset also in a leap, where it stops at
the leap limit. -/
theorem not_periodEventsAndLeaps : ¬ Obligations.PeriodEventsAndLeaps := by
  rintro ⟨-, -, -, -, -, -, -, hstart, -⟩
  obtain ⟨howner, hruns, hbehind, hawake, hpresent, hoffset⟩ := shortLeap_due
  obtain ⟨-, -, -, hcount⟩ :=
    (runs_iff (exec_regionBeatStart _ _)).1 (hstart ⟨shortLeap, []⟩ 0 0 (by decide) howner hruns hbehind)
  have hreached := hcount hawake hpresent
  rw [hoffset, rg_finish _ not_follow_beatCount, shortLeap_count] at hreached
  exact absurd hreached (by decide)

end Sys2Proof.Machine
end

section
/-! SUPPORT. A RELEASE with the Muffle flag whose settlement reads a frame from the Commons of another partition's region. -/

namespace Sys2Proof.Machine

open Sys2Proof

/-- Partition 0 is a member of a span group and runs beat 0; its readout region is region 1, which partition 1 owns now, and the
first word of the frame there is uncorrectable. A Commons ECC fault Chokes (FLT_ACT). -/
def foreignReadout : Dev :=
  { ((((((((default : Dev).setF (TAB_BSTAT 0) 16 3 1).setR (TAB_BCTL 0) 0x100).setR (TAB_SPAN 0) 0x30002).setR
      (AXN_PROUT 0 0) 0x80000001).setR (CAL_REGPART 1) 0x80000001).setR (AXN_RCFG 1) 1).setR (FLT_ACT (fEccCommons - 0x102)) 2)
    with ecc := [(cmnBase 1, 2)] }

/-- A RELEASE of beat 0 that Muffles. -/
def mufflingRelease : Tattoo := { (default : Tattoo) with flags := 4 }

theorem foreignReadout_follows : foreignReadout.flag (TAB_BCTL 0) 8 = true ∧ foreignReadout.isLead 0 = false ∧
    foreignReadout.choked 0 = false ∧ foreignReadout.running 0 = true ∧ foreignReadout.bstate 1 = 0 := by
  decide +kernel

/-- The settled beat reads its frame for the record that ends it, and the fault of that word Chokes the region's owner. -/
theorem foreignReadout_chokes : (foreignReadout.releaseReceived mufflingRelease).bstate 1 = 4 := by decide +kernel

theorem exec_releaseReceived (t : Tattoo) (s : State) : exec (.releaseReceived t) s = s.run (·.releaseReceived t) := rfl

/-- Refutes O4: its clause of a RELEASE that Muffles claims that every other partition's beat state stays, but the frame of the
settled beat may lie in a region that another partition owns, which a Commons ECC fault found on the way Chokes. -/
theorem not_muffleAndSpanGroups : ¬ Obligations.MuffleAndSpanGroups := by
  rintro ⟨-, -, -, -, -, -, hmuffle, -⟩
  obtain ⟨hspan, hlead, hchoked, hruns, hidle⟩ := foreignReadout_follows
  obtain ⟨-, -, hothers⟩ := (runs_iff (exec_releaseReceived _ _)).1
    (hmuffle ⟨foreignReadout, []⟩ mufflingRelease hspan hlead hchoked (by decide) hruns)
  obtain ⟨hstate, -⟩ := hothers 1 (by decide) (by decide)
  rw [bstate_finish _ (by decide), foreignReadout_chokes, hidle] at hstate
  exact absurd hstate (by decide)

end Sys2Proof.Machine
end

section
/-! SUPPORT. Deliver whose first near entry is uncorrectable: the fault abandons a checkpoint copy, and the command that waits for it was
sent by no S-core of the device. -/

namespace Sys2Proof.Machine

open Sys2Proof

/-- The number of an S-core, far above the 16 there are, whose Tocsin would have the count of its partition queue at ALM_NSLOT 1 of
core 0: TOC_PRQCOUNT 288 (272 + slotScore - 289) is that address. -/
def slotScore : Nat := 17 + (ALM_NSLOT 0 1 - TOC_PRQCOUNT 288 0) / 0x40

/-- The CKPT_NOW that waits for the copy, as that S-core would have sent it. -/
def slotWaiting : Waiting :=
  { opcode := 0x0708, names := true, ro := false, hdr := { (default : Hdr) with func := 0x100 + slotScore }, pl := [], what := .ckpt }

/-- Core 0 of partition 0 may deliver beat 1, with one entry in its near slot; an ECC_CORE fault Mutes. -/
def readyCore : Dev :=
  ((((((default : Dev).setR (CAL_REGPART 0) 0x80000000).setR (FAB_REMAP 0 0) 0x80000000).setF (TAB_BSTAT 0) 16 3 1).setR
      (ALM_NSLOT 0 1) 1).setR (FLT_ACT (fEccCore - 0x102)) 1)
    |>.setRegion 0 { (default : Region) with beat := 1, started := true }
    |>.setCore 0 { (default : NCore) with ptr := 1, final := some 0 }

/-- The word of that entry is uncorrectable. A checkpoint copy runs for a command of `slotScore`, which waits at the CKPT in its last
descriptor with 5 records in its queue. -/
def slotDeliver : Dev :=
  { ((readyCore.setSeq slotScore 2 0).setR (SEQ_PC slotScore) 4095).setScore slotScore
      { (default : SCore) with prog := [(4095, [0x15#8])] } |>.setPart 0
        { (default : Part) with ckpt := { (default : Ckpt) with copy := some (0, 0) } } with
    ecc := [(readyCore.nearAddr 0 1 0, 2)]
    tocq := [(272 + slotScore, List.replicate 5 default)]
    car := { (default : Carillon) with waiting := [slotWaiting] } }

theorem slotDeliver_ready : slotDeliver.regPart 0 = some 0 ∧ slotDeliver.mayDeliver 0 0 = true := by decide +kernel

/-- The fault ends the command and with it the descriptor; the S-core faults past its last one, and the record of that fault writes the
number of records, 6, over the count of the near slot, of which Deliver had seen one entry. -/
theorem slotDeliver_left : ((slotDeliver.deliver 0).core 0).farOut = [] ∧ (slotDeliver.deliver 0).nearCount 0 1 = 6 := by
  decide +kernel

theorem not_follow_nearSlot : ¬ FollowReg (ALM_NSLOT 0 1) := by
  unfold FollowReg ALM_NSLOT nBase slotBase FLT_STAT TAB_BSTAT FLT_PMUTE TAB_CHSTAT PWR_DSTAT
  omega

theorem exec_deliver (q : Nat) (s : State) : exec (.deliver q) s = s.run (·.deliver q) := rfl

/-- Refutes O7: its clause of DELIVER leaves the requesters of the waiting commands unbounded, so one may be an S-core whose queue would
lie over the near slot that Deliver empties. -/
theorem not_neuronAndRowEngines : ¬ Obligations.NeuronAndRowEngines := by
  rintro ⟨-, -, -, -, hdeliver, -⟩
  obtain ⟨howner, hready⟩ := slotDeliver_ready
  obtain ⟨hfar, hcount⟩ := slotDeliver_left
  obtain ⟨hempty, -⟩ :=
    (runs_iff (exec_deliver _ _)).1 (hdeliver ⟨slotDeliver, []⟩ 0 0 (by decide) howner hready)
  have hzero : (slotDeliver.deliver 0).finish.nearCount 0 1 = 0 := hempty (by rw [finish_core, hfar])
  unfold Dev.nearCount at hzero hcount
  rw [fld_finish _ not_follow_nearSlot, hcount] at hzero
  exact absurd hzero (by decide)

end Sys2Proof.Machine
end

section
/-! SUPPORT. Periods that are refused (R68, R82): a register write that sets CFGERR alone, and commands that complete with DENIED or
BUSY. -/

namespace Sys2Proof.Machine

open Sys2Proof

theorem exec_tabBperiodWrite (f p v : Nat) (s : State) : exec (.tabBperiodWrite f p v) s = s.run (·.bperiodWrite f p v) := rfl
theorem exec_beatPeriod (h : Hdr) (pl : List Byte) (s : State) :
    exec (.beatPeriod h pl) s = s.run (·.serve cBeatPeriod Dev.beatPeriod h pl) := rfl
theorem exec_beatConfig (h : Hdr) (pl : List Byte) (s : State) :
    exec (.beatConfig h pl) s = s.run (·.serve cBeatConfig Dev.beatConfig h pl) := rfl

/-! ### The limits, and who may not change a period now -/

theorem periodLegal_iff {per : Nat} {span : Bool} :
    periodLegal per span = true ↔ 4000 ≤ per ∧ per ≤ 400000000 ∧ (span = true → 8000 ≤ per) := by
  unfold periodLegal
  cases span
  · simp
  · simp
    omega

theorem periodLegal_eq_false {per : Nat} {span : Bool} (h : per < 4000 ∨ 400000000 < per ∨ (span = true ∧ per < 8000)) :
    periodLegal per span = false := by
  refine Bool.eq_false_iff.2 fun hl => ?_
  obtain ⟨hmin, hmax, hspan⟩ := periodLegal_iff.1 hl
  obtain hl | hl | ⟨hs, hl⟩ := h
  · omega
  · omega
  · have := hspan hs
    omega

theorem still_iff {d : Dev} {p : Nat} : d.still p = true ↔ d.bstate p = 0 ∨ d.bstate p = 3 := by
  unfold Dev.still
  rw [Bool.or_eq_true, beq_iff_eq, beq_iff_eq]

theorem periodHeld_iff {d : Dev} {p : Nat} : d.periodHeld p = true ↔
    (d.flag (TAB_BCTL p) 4 = true ∨ (d.flag (TAB_BCTL p) 8 = true ∧ d.flag (TAB_BCTL p) 0 = true ∧
      d.fld (TAB_SPAN p) 16 9 = d.fld (FAB_DCFG 0) 0 9)) ∧ (d.bstate p ≠ 0 ∧ d.bstate p ≠ 3) := by
  have hstill : d.still p = false ↔ d.bstate p ≠ 0 ∧ d.bstate p ≠ 3 := by
    rw [← Bool.not_eq_true, still_iff, not_or]
  unfold Dev.periodHeld Dev.isLead Dev.devId
  rw [Bool.and_eq_true, Bool.not_eq_true', hstill]
  cases d.flag (TAB_BCTL p) 8 <;> simp

/-! ### The register write -/

theorem bperiodWrite_refused {d : Dev} {f p v : Nat} (hf : f = 0 ∨ f = p)
    (hbad : periodLegal (v % 2 ^ 29) (d.flag (TAB_BCTL p) 8) = false ∨ d.periodHeld p = true) :
    d.bperiodWrite f p v = d.setFlag (TAB_BSTAT p) 5 true := by
  have hreach : (f ≠ 0 && f ≠ p) = false := by obtain rfl | rfl := hf <;> simp
  have hcheck : (! periodLegal (v % 2 ^ 29) (d.flag (TAB_BCTL p) 8) || d.periodHeld p) = true := by
    rw [Bool.or_eq_true, Bool.not_eq_true']
    exact hbad
  unfold Dev.bperiodWrite
  rw [hreach, hcheck]
  rfl

/-- A write that is refused sets CFGERR, and does no more. -/
theorem tabBperiodWrite_refused_runs (s : State) {f p v : Nat} (hp : p < 16) (hf : f = 0 ∨ f = p)
    (hbad : periodLegal (v % 2 ^ 29) (s.dev.flag (TAB_BCTL p) 8) = false ∨ s.dev.periodHeld p = true) :
    Runs (.tabBperiodWrite f p v) s (fun e => e.rg (TAB_BPERIOD p) = s.dev.rg (TAB_BPERIOD p) ∧ e.flag (TAB_BSTAT p) 5 = true ∧
      Keeps s.dev e (fun a => a = TAB_BSTAT p) ∧ SameUnits s.dev e) := by
  rw [runs_iff (exec_tabBperiodWrite _ _ _ _), bperiodWrite_refused hf hbad]
  have hkeeps := regs_finish_keeps (d := s.dev) (e := s.dev.setFlag (TAB_BSTAT p) 5 true) (w := fun a => a = TAB_BSTAT p) rfl
    (fun a ha => rg_setFlag_ne _ ha)
  have hother : TAB_BPERIOD p ≠ TAB_BSTAT p := by unfold TAB_BPERIOD TAB_BSTAT; omega
  have hfollow : ¬ FollowReg (TAB_BPERIOD p) := by
    unfold FollowReg TAB_BPERIOD FLT_STAT TAB_BSTAT FLT_PMUTE TAB_CHSTAT PWR_DSTAT
    omega
  refine ⟨?_, ?_, hkeeps⟩
  · rw [rg_finish _ hfollow, rg_setFlag_ne _ hother]
  · rw [flag_bstat_finish _ hp (by decide) (by decide), flag_setFlag_same _ (by decide)]

/-! ### The commands -/

/-- A command whose body completes it with a status and does no more. -/
theorem status_runs {c : Hdr → List Byte → Instr} {k : CmdSpec} {body : Dev → Hdr → List Byte → Dev × Ans} (s : State) {h : Hdr}
    {pl : List Byte} {st : Status} (he : ∀ s, exec (c h pl) s = s.run (·.serve k body h pl)) (ha : Accepted s.dev k h pl)
    (hb : body s.dev h pl = (s.dev, .st st)) : Runs (c h pl) s (fun e => Answered s.dev e k.opcode h st [] ∧
      Keeps s.dev e (fun a => BookReg a) ∧ SameUnits s.dev e) := by
  obtain ⟨hkeeps, -, hresp⟩ := serve_done ha hb rfl (fits_short ha (by decide))
  rw [runs_iff (he s)]
  refine ⟨?_, hkeeps.finish_keeps⟩
  unfold Answered
  rw [finish_fn]
  exact hresp

theorem beatPeriod_denied {d : Dev} {h : Hdr} {pl : List Byte} (hheld : d.periodHeld h.part = false)
    (hbad : periodLegal (leAt pl 0 4) (d.flag (TAB_BCTL h.part) 8) = false) : d.beatPeriod h pl = (d, .st .denied) := by
  unfold Dev.beatPeriod
  simp [hheld, hbad]

theorem beatPeriod_busy {d : Dev} {h : Hdr} {pl : List Byte} (hheld : d.periodHeld h.part = true) :
    d.beatPeriod h pl = (d, .st .busy) := by
  unfold Dev.beatPeriod
  simp [hheld]

theorem beatConfig_denied {d : Dev} {h : Hdr} {pl : List Byte} (hstill : d.still h.part = true)
    (hbad : periodLegal (leAt pl 4 4) (bitAt (byteAt pl 1) 1) = false) : d.beatConfig h pl = (d, .st .denied) := by
  unfold Dev.beatConfig
  simp [hstill, hbad]

/-- Settles O52: what `periodLegal` and `periodHeld` refuse, by the register and by the commands. -/
theorem periodLimits : Obligations.PeriodLimits := by
  refine ⟨fun s f p v hp hf hv hbad => ?_, fun s h pl ha hfree hbad => ?_, fun s h pl ha hstill hbad => ?_,
    fun s f p v hp hf hcfg hstate => ?_, fun s h pl ha hcfg hstate => ?_⟩
  · exact tabBperiodWrite_refused_runs s hp hf (.inl (by rw [Nat.mod_eq_of_lt hv]; exact periodLegal_eq_false hbad))
  · have hheld : s.dev.periodHeld h.part = false := by
      refine Bool.eq_false_iff.2 fun hh => ?_
      obtain ⟨hcfg, hstate⟩ := periodHeld_iff.1 hh
      obtain hstill | ⟨hext, hspan⟩ := hfree
      · exact absurd (still_iff.1 hstill) (not_or.2 hstate)
      · obtain h4 | ⟨h8, h0, -⟩ := hcfg
        · exact absurd h4 (by rw [hext]; decide)
        · obtain h | h := hspan
          · exact absurd h8 (by rw [h]; decide)
          · exact absurd h0 (by rw [h]; decide)
    exact status_runs s (exec_beatPeriod h pl) ha (beatPeriod_denied hheld (periodLegal_eq_false hbad))
  · exact status_runs s (exec_beatConfig h pl) ha (beatConfig_denied hstill (periodLegal_eq_false hbad))
  · exact tabBperiodWrite_refused_runs s hp hf (.inr (periodHeld_iff.2 ⟨hcfg, hstate⟩))
  · exact status_runs s (exec_beatPeriod h pl) ha (beatPeriod_busy (periodHeld_iff.2 ⟨hcfg, hstate⟩))

end Sys2Proof.Machine
end

section
/-! SUPPORT. The commands that configure a partition's beat (R80, R82, R100 to R102): the registers they write, and what they leave. -/

namespace Sys2Proof.Machine

open Sys2Proof

theorem exec_beatOffsets (h : Hdr) (pl : List Byte) (s : State) :
    exec (.beatOffsets h pl) s = s.run (·.serve cBeatOffsets Dev.beatOffsets h pl) := rfl
theorem exec_beatStatus (h : Hdr) (pl : List Byte) (s : State) :
    exec (.beatStatus h pl) s = s.run (·.serve cBeatStatus Dev.beatStatus h pl) := rfl

/-- A command that is executed names a partition there is (R513). -/
theorem accepted_part {d : Dev} {c : CmdSpec} {h : Hdr} {pl : List Byte} (ha : Accepted d c h pl) : h.part < 16 := by
  obtain ⟨-, -, hnone, -, -⟩ := ha
  by_contra hpart
  have hhead : (h.rsvd ≠ 0 || 16 ≤ h.part || 4 ≤ h.flags || ! c.len pl) = true := by simp; omega
  unfold Dev.refuse at hnone
  simp only [hhead, if_true] at hnone
  split at hnone <;> exact absurd hnone (by simp)

/-- A command whose body ends with an answer of at most 4,000 bytes: it runs to any state that holds once the books have worked on
what the body left. -/
theorem serve_runs {c : Hdr → List Byte → Instr} {k : CmdSpec} {body : Dev → Hdr → List Byte → Dev × Ans} (s : State) {h : Hdr}
    {pl ans : List Byte} {st : Status} {d' : Dev} {P : Dev → Prop} (he : ∀ s, exec (c h pl) s = s.run (·.serve k body h pl))
    (ha : Accepted s.dev k h pl) (hb : body s.dev h pl = (d', .done st 0 ans)) (hn : ans.length ≤ 4000)
    (hr : d'.rg (CAR_RRCFG h.func) = s.dev.rg (CAR_RRCFG h.func)) (hcar : d'.car = s.dev.car)
    (hP : ∀ e, BookKeeps d' e → Answered s.dev e.finish k.opcode h st ans → P e.finish) : Runs (c h pl) s P := by
  obtain ⟨hkeeps, -, hresp⟩ := serve_done ha hb hr (fits_short ha hn)
  rw [runs_iff (he s)]
  refine hP _ hkeeps ?_
  have hsame : (d'.fn h.func).resps = (s.dev.fn h.func).resps := by unfold Dev.fn; rw [hcar]
  unfold Answered
  rw [finish_fn, hresp, hsame]

/-! ### The registers of a partition's beat -/

/-- A register of the block of partition `p`, but TAB_BSTAT, is no register of the links and follows nothing. -/
theorem beatReg_plain {p o : Nat} (hp : p < 16) (ho : o < 0x100) (hb : o ≠ 0xC) :
    ¬ LinkReg (0x1000 + o + 0x100 * p) ∧ ¬ FollowReg (0x1000 + o + 0x100 * p) := by
  refine ⟨fun h => ?_, ?_⟩
  · have := LinkReg.place h
    omega
  · unfold FollowReg FLT_STAT TAB_BSTAT FLT_PMUTE TAB_CHSTAT PWR_DSTAT
    omega

/-- CAR_RRCFG is none of the registers below Carillon's block, and none of the links. -/
theorem rrcfg_ne {f a : Nat} (h : a < 0xA0000) : CAR_RRCFG f ≠ a := by
  unfold CAR_RRCFG
  omega

theorem rrcfg_not_link {f : Nat} (hf : f < 16) : ¬ LinkReg (CAR_RRCFG f) := by
  unfold LinkReg BookReg CAR_RRCFG CAR_LOGSEQ CAR_JSKIP OBS_TSTAT OBS_TFIFO OBS_TDROP CAR_BOUT CAR_BSTAT FAB_NOROUTE FAB_DSTAT
    FAB_C0MERGE FAB_BRFLIT_LO FAB_BRFLIT_HI FAB_PTXFLIT_LO FAB_PTXFLIT_HI FAB_PDISC
  omega

/-! ### BEAT_CONFIG (R101) -/

/-- What BEAT_CONFIG writes to TAB_BCTL: mode, EXTLOCK and SPAN. -/
def beatControl (pl : List Byte) : Nat := byteAt pl 0 + 16 * natOf (bitAt (byteAt pl 1) 0) + 256 * natOf (bitAt (byteAt pl 1) 1)

/-- The registers that BEAT_CONFIG writes. -/
def Dev.beatConfigured (d : Dev) (p : Nat) (pl : List Byte) : Dev :=
  (((((d.setR (TAB_BCTL p) (beatControl pl)).setR (TAB_BPERIOD p) (leAt pl 4 4)).setR (TAB_LEAPLIM p) (leAt pl 8 4)).setR
    (TAB_SPAN p) (65536 * leAt pl 2 2 + leAt pl 12 2)).setR (TAB_EPOCH_LO p) (leAt pl 16 4)).setR (TAB_EPOCH_HI p) (leAt pl 20 4)

/-- The registers of `beatConfigured`. -/
def BeatCfgReg (p a : Nat) : Prop :=
  a = TAB_BCTL p ∨ a = TAB_BPERIOD p ∨ a = TAB_LEAPLIM p ∨ a = TAB_SPAN p ∨ a = TAB_EPOCH_LO p ∨ a = TAB_EPOCH_HI p

/-- The bits of a control word: a mode of one bit, EXTLOCK at bit 4, SPAN at bit 8. -/
theorem controlWord : ∀ (m : Fin 2) (ext span : Bool),
    bitAt (m.val + 16 * natOf ext + 256 * natOf span) 8 = span ∧ m.val + 16 * natOf ext + 256 * natOf span < 2 ^ 32 := by
  decide

theorem beatControl_spec {pl : List Byte} (hmode : byteAt pl 0 ≤ 1) :
    bitAt (beatControl pl) 8 = bitAt (byteAt pl 1) 1 ∧ beatControl pl < 2 ^ 32 :=
  controlWord ⟨byteAt pl 0, by omega⟩ _ _

section
variable (d : Dev) (p : Nat) (pl : List Byte)

theorem rg_beatConfigured_ne {a : Nat} (h : ¬ BeatCfgReg p a) : (d.beatConfigured p pl).rg a = d.rg a := by
  unfold BeatCfgReg at h
  push Not at h
  obtain ⟨h1, h2, h3, h4, h5, h6⟩ := h
  unfold Dev.beatConfigured
  rw [rg_setR_ne _ h6, rg_setR_ne _ h5, rg_setR_ne _ h4, rg_setR_ne _ h3, rg_setR_ne _ h2, rg_setR_ne _ h1]

theorem rg_beatConfigured :
    (d.beatConfigured p pl).rg (TAB_BCTL p) = beatControl pl % 2 ^ 32 ∧
    (d.beatConfigured p pl).rg (TAB_BPERIOD p) = leAt pl 4 4 % 2 ^ 32 ∧
    (d.beatConfigured p pl).rg (TAB_LEAPLIM p) = leAt pl 8 4 % 2 ^ 32 ∧
    (d.beatConfigured p pl).rg (TAB_SPAN p) = (65536 * leAt pl 2 2 + leAt pl 12 2) % 2 ^ 32 ∧
    (d.beatConfigured p pl).rg (TAB_EPOCH_LO p) = leAt pl 16 4 % 2 ^ 32 ∧
    (d.beatConfigured p pl).rg (TAB_EPOCH_HI p) = leAt pl 20 4 % 2 ^ 32 := by
  unfold Dev.beatConfigured TAB_BCTL TAB_BPERIOD TAB_LEAPLIM TAB_SPAN TAB_EPOCH_LO TAB_EPOCH_HI
  simp [rg_setR]

/-- The device's place in the group's tree: none below it without SPAN, none above it at the lead. -/
theorem spanTree_part : ∃ x, d.spanTree p = d.setPart p x ∧ (d.fld (TAB_SPAN p) 16 9 = d.devId → x.parent = none) ∧
    (d.flag (TAB_BCTL p) 8 = false → x.kids = []) := by
  unfold Dev.spanTree
  refine ⟨_, rfl, fun h => ?_, fun h => ?_⟩
  · simp [h]
  · have hspan : d.spans p = false := by unfold Dev.spans; rw [h]; rfl
    simp [hspan]

end

/-- A message of Carillon to every neighbour touches the links alone. -/
theorem spreadMgmt_keeps (d : Dev) (but : Option Nat) (kind : Nat) (args : List Nat) : LinkKeeps d (d.spreadMgmt but kind args) := by
  have hall : ∀ (l : List Nat) (d : Dev), (∀ q, q ∈ l → q < 8) → LinkKeeps d (d.forEach l (fun d q => d.sendMgmt q kind args none)) := by
    intro l
    induction l with
    | nil => exact fun d _ => .refl d
    | cons q r ih =>
      intro d h
      exact (enqueue_keeps d (h q (List.mem_cons_self ..)) _).trans (ih _ (fun x hx => h x (List.mem_cons_of_mem _ hx)))
  exact hall _ d (fun q hq => mem_upTo (List.mem_of_mem_filter hq))

theorem beatConfig_eq {d : Dev} {h : Hdr} {pl : List Byte} (hstill : d.still h.part = true) (hmode : byteAt pl 0 ≤ 1)
    (hper : periodLegal (leAt pl 4 4) (bitAt (byteAt pl 1) 1) = true) (hlim : leAt pl 8 4 < 2 ^ 29)
    (hdev : 1 ≤ leAt pl 12 2 ∧ leAt pl 12 2 ≤ 512) (hext : bitAt (byteAt pl 1) 0 = true → byteAt pl 0 = 0)
    (hspan : bitAt (byteAt pl 1) 1 = true → byteAt pl 0 = 0 → bitAt (byteAt pl 1) 0 = true)
    (hlead : leAt pl 2 2 = d.devId ∨ d.fabDevs.contains (leAt pl 2 2) = true) (hone : leAt pl 12 2 = 1 → leAt pl 2 2 = d.devId)
    (htree : d.unconnected h.part (leAt pl 2 2) (leAt pl 12 2) = false)
    (hown : h.func = 0 ∨ (bitAt (byteAt pl 1) 1 = d.flag (TAB_BCTL h.part) 8 ∧ leAt pl 2 2 = d.fld (TAB_SPAN h.part) 16 9 ∧
      leAt pl 12 2 = d.fld (TAB_SPAN h.part) 0 10)) :
    d.beatConfig h pl = (if bitAt (byteAt pl 1) 1 then ((d.beatConfigured h.part pl).spanTree h.part).sendLinkState
      else (d.beatConfigured h.part pl).spanTree h.part, .st .ok) := by
  have hfree : (h.func ≠ 0 && (bitAt (byteAt pl 1) 1 != d.flag (TAB_BCTL h.part) 8 || leAt pl 2 2 ≠ d.fld (TAB_SPAN h.part) 16 9 ||
      leAt pl 12 2 ≠ d.fld (TAB_SPAN h.part) 0 10)) = false := by
    obtain hf | ⟨hs, hl, hn⟩ := hown
    · simp [hf]
    · simp [← hs, ← hl, ← hn]
  have hknown : (! (leAt pl 2 2 == d.devId || d.fabDevs.contains (leAt pl 2 2))) = false := by
    rw [Bool.not_eq_false', Bool.or_eq_true, beq_iff_eq]
    exact hlead
  have hmodes : (bitAt (byteAt pl 1) 0 && byteAt pl 0 == 1) = false ∧
      (bitAt (byteAt pl 1) 1 && byteAt pl 0 == 0 && ! bitAt (byteAt pl 1) 0) = false := by
    constructor
    · refine Bool.eq_false_iff.2 fun hx => ?_
      rw [Bool.and_eq_true, beq_iff_eq] at hx
      have := hext hx.1
      omega
    · refine Bool.eq_false_iff.2 fun hx => ?_
      rw [Bool.and_eq_true, Bool.and_eq_true, beq_iff_eq, Bool.not_eq_true'] at hx
      rw [hspan hx.1.1 hx.1.2] at hx
      exact absurd hx.2 (by decide)
  have hrange : ¬ 1 < byteAt pl 0 ∧ ¬ 2 ^ 29 ≤ leAt pl 8 4 ∧ leAt pl 12 2 ≠ 0 ∧ ¬ 512 < leAt pl 12 2 ∧
      ¬ (leAt pl 12 2 = 1 ∧ leAt pl 2 2 ≠ d.devId) := by
    refine ⟨by omega, by omega, by omega, by omega, fun hx => hx.2 (hone hx.1)⟩
  obtain ⟨hm, hl, hz, hg, hone'⟩ := hrange
  have hsolo : (decide (leAt pl 12 2 = 1) && decide (leAt pl 2 2 ≠ d.devId)) = false := by
    rw [← Bool.decide_and]
    exact decide_eq_false hone'
  unfold Dev.beatConfig
  simp only [hstill, hper, hfree, hknown, hmodes.1, hmodes.2, hsolo, htree, decide_eq_false hm, decide_eq_false hl,
    decide_eq_false hz, decide_eq_false hg, Bool.not_true, Bool.or_self, Bool.false_eq_true, if_false]
  rfl

theorem beatCfgReg_plain {p a : Nat} (hp : p < 16) (h : BeatCfgReg p a) : ¬ LinkReg a ∧ ¬ FollowReg a := by
  unfold BeatCfgReg TAB_BCTL TAB_BPERIOD TAB_LEAPLIM TAB_SPAN TAB_EPOCH_LO TAB_EPOCH_HI at h
  obtain rfl | rfl | rfl | rfl | rfl | rfl := h
  · exact beatReg_plain (o := 0) hp (by omega) (by omega)
  · exact beatReg_plain (o := 4) hp (by omega) (by omega)
  · exact beatReg_plain (o := 8) hp (by omega) (by omega)
  · exact beatReg_plain (o := 0x40) hp (by omega) (by omega)
  · exact beatReg_plain (o := 0x18) hp (by omega) (by omega)
  · exact beatReg_plain (o := 0x1C) hp (by omega) (by omega)

/-- Nothing but the registers of the beat's configuration and of the links, the links themselves, and partition `p`'s place in its
tree has changed. -/
structure BeatConfigures (p : Nat) (pl : List Byte) (d e : Dev) : Prop where
  mem    : e.mem = d.mem
  ecc    : e.ecc = d.ecc
  units  : e.cores = d.cores ∧ e.regions = d.regions ∧ e.tcores = d.tcores ∧ e.scores = d.scores
  rg     : ∀ a, ¬ LinkReg a → e.rg a = (d.beatConfigured p pl).rg a
  car    : e.car = d.car
  part   : ∀ q, q ≠ p → e.part q = d.part q
  parent : leAt pl 2 2 = d.devId → (e.part p).parent = none
  kids   : bitAt (byteAt pl 1) 1 = false → (e.part p).kids = [] ∧ e.oports = d.oports

theorem devId_lt (d : Dev) : d.devId < 512 := Nat.mod_lt _ (by decide)

theorem spanTree_configures (d : Dev) {p : Nat} {pl : List Byte} (hp : p < 16) (hmode : byteAt pl 0 ≤ 1)
    (hdev : leAt pl 12 2 ≤ 512) : BeatConfigures p pl d ((d.beatConfigured p pl).spanTree p) := by
  obtain ⟨x, hx, hparent, hkids⟩ := spanTree_part (d.beatConfigured p pl) p
  obtain ⟨hctl, -, -, hspan, -, -⟩ := rg_beatConfigured d p pl
  obtain ⟨hbit, hlt⟩ := beatControl_spec hmode
  have hid : (d.beatConfigured p pl).devId = d.devId := by
    unfold Dev.devId
    refine fld_congr 0 9 (rg_beatConfigured_ne _ _ _ ?_)
    unfold BeatCfgReg FAB_DCFG TAB_BCTL TAB_BPERIOD TAB_LEAPLIM TAB_SPAN TAB_EPOCH_LO TAB_EPOCH_HI
    omega
  rw [hx]
  refine ⟨rfl, rfl, ⟨rfl, rfl, rfl, rfl⟩, fun a _ => rfl, rfl, fun q hq => ?_, fun hlead => ?_, fun hs => ⟨?_, rfl⟩⟩
  · rw [part_setPart, if_neg hq]
    rfl
  · rw [part_setPart, if_pos rfl]
    refine hparent ?_
    have := devId_lt d
    have := leAt_lt pl 12 2
    have hfld : (d.beatConfigured p pl).fld (TAB_SPAN p) 16 9 = leAt pl 2 2 := by
      unfold Dev.fld bitsOf
      rw [hspan]
      omega
    rw [hid, hfld, hlead]
  · rw [part_setPart, if_pos rfl]
    refine hkids ?_
    unfold Dev.flag
    rw [hctl, Nat.mod_eq_of_lt hlt, hbit, hs]

theorem BeatConfigures.link {p : Nat} {pl : List Byte} {d e f : Dev} (h : BeatConfigures p pl d e) (g : LinkKeeps e f)
    (hspan : bitAt (byteAt pl 1) 1 = true) : BeatConfigures p pl d f := by
  obtain ⟨hcores, hregions, htcores, hscores⟩ := h.units
  have hu := g.unlinked
  have hparts : f.parts = e.parts := (congrArg Dev.parts hu :)
  have hpart : ∀ q, f.part q = e.part q := fun q => by unfold Dev.part; rw [hparts]
  refine ⟨g.mem.trans h.mem, g.ecc.trans h.ecc, ⟨?_, ?_, ?_, ?_⟩, fun a ha => (g.rg a ha).trans (h.rg a ha), ?_,
    fun q hq => (hpart q).trans (h.part q hq), fun hlead => ?_, fun hs => ?_⟩
  · exact (congrArg Dev.cores hu :).trans hcores
  · exact (congrArg Dev.regions hu :).trans hregions
  · exact (congrArg Dev.tcores hu :).trans htcores
  · exact (congrArg Dev.scores hu :).trans hscores
  · exact (congrArg Dev.car hu :).trans h.car
  · rw [hpart]
    exact h.parent hlead
  · rw [hspan] at hs
    exact absurd hs (by decide)

/-- What the books leave of a configuration, once what follows the state has followed it. -/
theorem BeatConfigures.finish {p : Nat} {pl : List Byte} {d e f : Dev} (hp : p < 16) (h : BeatConfigures p pl d e)
    (g : BookKeeps e f) :
    (∀ a, BeatCfgReg p a → f.finish.rg a = (d.beatConfigured p pl).rg a) ∧
    (leAt pl 2 2 = d.devId → (f.finish.part p).parent = none) ∧
    (bitAt (byteAt pl 1) 1 = false → (f.finish.part p).kids = [] ∧ f.finish.oports = d.oports) ∧
    Keeps d f.finish (fun a => LinkReg a ∨ BeatCfgReg p a) ∧ OtherUnits d f.finish p := by
  obtain ⟨hcores, hregions, htcores, hscores⟩ := h.units
  have hrg : ∀ a, ¬ LinkReg a → ¬ FollowReg a → f.finish.rg a = (d.beatConfigured p pl).rg a := fun a ha hf =>
    (rg_finish f hf).trans ((g.rg a (fun hb => ha (.inl hb))).trans (h.rg a ha))
  have hpart : ∀ q, f.finish.part q = e.part q := fun q => by
    rw [finish_part]
    unfold Dev.part
    rw [desk_parts g.desk]
  refine ⟨fun a ha => ?_, fun hlead => ?_, fun hs => ?_, ⟨fun a ha hf => ?_, fun a => ?_, ?_⟩, ?_, ?_, ?_, ?_, fun q hq => ?_⟩
  · obtain ⟨hlink, hfollow⟩ := beatCfgReg_plain hp ha
    exact hrg a hlink hfollow
  · rw [hpart]
    exact h.parent hlead
  · rw [hpart, finish_oports, desk_oports g.desk]
    exact h.kids hs
  · rw [not_or] at ha
    exact (hrg a ha.1 hf).trans (rg_beatConfigured_ne _ _ _ ha.2)
  · rw [finish_mem, desk_mem g.desk, h.mem]
  · rw [finish_ecc, desk_ecc g.desk, h.ecc]
  · rw [finish_cores, desk_cores g.desk, hcores]
  · rw [finish_regions, desk_regions g.desk, hregions]
  · rw [finish_tcores, desk_tcores g.desk, htcores]
  · rw [finish_scores, desk_scores g.desk, hscores]
  · rw [hpart]
    exact h.part q hq

theorem leAt_four_lt (l : List Byte) (j : Nat) : leAt l j 4 < 2 ^ 32 := leAt_lt l j 4

/-! ### The clauses -/

theorem beatConfig_runs (s : State) {h : Hdr} {pl : List Byte} (ha : Accepted s.dev cBeatConfig h pl) (hmode : byteAt pl 0 ≤ 1)
    (hdev : leAt pl 12 2 ≤ 512)
    (hb : s.dev.beatConfig h pl = (if bitAt (byteAt pl 1) 1 then ((s.dev.beatConfigured h.part pl).spanTree h.part).sendLinkState
      else (s.dev.beatConfigured h.part pl).spanTree h.part, .st .ok)) :
    Runs (.beatConfig h pl) s (fun e => e.rg (TAB_BCTL h.part) = beatControl pl ∧ e.rg (TAB_BPERIOD h.part) = leAt pl 4 4 ∧
      e.rg (TAB_LEAPLIM h.part) = leAt pl 8 4 ∧ e.rg (TAB_SPAN h.part) = 65536 * leAt pl 2 2 + leAt pl 12 2 ∧
      e.rg (TAB_EPOCH_LO h.part) = leAt pl 16 4 ∧ e.rg (TAB_EPOCH_HI h.part) = leAt pl 20 4 ∧ Answered s.dev e 0x0101 h .ok [] ∧
      (leAt pl 2 2 = s.dev.devId → (e.part h.part).parent = none) ∧
      (bitAt (byteAt pl 1) 1 = false → (e.part h.part).kids = [] ∧ e.oports = s.dev.oports) ∧
      Keeps s.dev e (fun a => LinkReg a ∨ BeatCfgReg h.part a) ∧ OtherUnits s.dev e h.part) := by
  have hp := accepted_part ha
  have hf : h.func < 16 := ha.2.1
  have hbase := spanTree_configures s.dev (pl := pl) hp hmode hdev
  have hcfg : BeatConfigures h.part pl s.dev (if bitAt (byteAt pl 1) 1 then
      ((s.dev.beatConfigured h.part pl).spanTree h.part).sendLinkState else (s.dev.beatConfigured h.part pl).spanTree h.part) := by
    split
    · rename_i hspan
      exact hbase.link (spreadMgmt_keeps _ _ _ _) hspan
    · exact hbase
  have hrr : ¬ BeatCfgReg h.part (CAR_RRCFG h.func) := by
    unfold BeatCfgReg TAB_BCTL TAB_BPERIOD TAB_LEAPLIM TAB_SPAN TAB_EPOCH_LO TAB_EPOCH_HI
    simp only [not_or]
    refine ⟨?_, ?_, ?_, ?_, ?_, ?_⟩ <;> exact rrcfg_ne (by omega)
  refine serve_runs s (exec_beatConfig h pl) ha hb (by decide)
    ((hcfg.rg _ (rrcfg_not_link hf)).trans (rg_beatConfigured_ne _ _ _ hrr)) hcfg.car (fun e hbook hans => ?_)
  obtain ⟨hregs, hparent, hkids, hkeeps, hunits⟩ := hcfg.finish hp hbook
  obtain ⟨hctl, hperiod, hleap, hspan, hlo, hhi⟩ := rg_beatConfigured s.dev h.part pl
  have hlead := leAt_lt pl 2 2
  refine ⟨?_, ?_, ?_, ?_, ?_, ?_, hans, hparent, hkids, hkeeps, hunits⟩
  · rw [hregs _ (.inl rfl), hctl, Nat.mod_eq_of_lt (beatControl_spec hmode).2]
  · rw [hregs _ (.inr (.inl rfl)), hperiod, Nat.mod_eq_of_lt (leAt_four_lt pl 4)]
  · rw [hregs _ (.inr (.inr (.inl rfl))), hleap, Nat.mod_eq_of_lt (leAt_four_lt pl 8)]
  · rw [hregs _ (.inr (.inr (.inr (.inl rfl)))), hspan, Nat.mod_eq_of_lt (by omega)]
  · rw [hregs _ (.inr (.inr (.inr (.inr (.inl rfl))))), hlo, Nat.mod_eq_of_lt (leAt_four_lt pl 16)]
  · rw [hregs _ (.inr (.inr (.inr (.inr (.inr rfl))))), hhi, Nat.mod_eq_of_lt (leAt_four_lt pl 20)]

/-- A walk that writes one field of one register per element: each holds its own value. -/
theorem fld_forEach_setF {A : Nat → Nat} (hA : ∀ x y, A x = A y → x = y) {lo w : Nat} (hw : lo + w ≤ 32) (v : Nat → Nat) {x : Nat} :
    ∀ (l : List Nat) (d : Dev), x ∈ l → (d.forEach l (fun d y => d.setF (A y) lo w (v y))).fld (A x) lo w = v x % 2 ^ w := by
  intro l
  induction l with
  | nil => exact fun d h => absurd h (by simp)
  | cons y r ih =>
    intro d h
    by_cases hr : x ∈ r
    · exact ih _ hr
    · obtain rfl : x = y := by simpa [hr] using h
      have hrest : ∀ (d : Dev) y, y ∈ r → (d.setF (A y) lo w (v y)).fld (A x) lo w = d.fld (A x) lo w := fun d y hy =>
        fld_setF_ne d (.inl (fun he => hr (hA x y he ▸ hy)))
      exact (forEach_keeps_mem (fun d => d.fld (A x) lo w) _ r hrest _).trans (fld_setF_same d hw)

/-- The offsets of a partition's regions. -/
def Dev.offsetsSet (d : Dev) (p : Nat) (pl : List Byte) : Dev :=
  d.forEach (d.regionsOf p) (fun d r => d.setF (TAB_CHOFF r) 0 26 (leAt pl (4 * r) 4))

theorem mem_regionsOf {d : Dev} {p r : Nat} : r ∈ d.regionsOf p ↔ r < 16 ∧ d.owns p r = true := by
  unfold Dev.regionsOf upTo
  rw [List.mem_filter, List.mem_range]

theorem offsetsSet_regs (d : Dev) (p : Nat) (pl : List Byte) : ∃ g, d.offsetsSet p pl = { d with regs := g } :=
  forEach_inv (fun e => ∃ g, e = { d with regs := g }) _ (fun e r ⟨g, hg⟩ => by subst hg; exact ⟨_, rfl⟩) _ d ⟨d.regs, rfl⟩

theorem rg_offsetsSet_ne (d : Dev) (p : Nat) (pl : List Byte) {a : Nat} (h : ∀ r, r < 16 → d.owns p r = true → a ≠ TAB_CHOFF r) :
    (d.offsetsSet p pl).rg a = d.rg a :=
  forEach_keeps_mem (fun e => e.rg a) _ _
    (fun e r hr => rg_setF_ne e (h r (mem_regionsOf.1 hr).1 (mem_regionsOf.1 hr).2)) d

theorem choff_plain {r : Nat} (hr : r < 16) : ¬ BookReg (TAB_CHOFF r) ∧ ¬ FollowReg (TAB_CHOFF r) := by
  constructor
  · unfold BookReg TAB_CHOFF CAR_LOGSEQ CAR_JSKIP OBS_TSTAT OBS_TFIFO OBS_TDROP CAR_BOUT CAR_BSTAT
    omega
  · unfold FollowReg TAB_CHOFF FLT_STAT TAB_BSTAT FLT_PMUTE TAB_CHSTAT PWR_DSTAT
    omega

theorem beatOffsets_eq {d : Dev} {h : Hdr} {pl : List Byte}
    (hr : ∀ r, r < 16 → d.owns h.part r = true → byteAt pl (4 * r + 3) < 4) :
    d.beatOffsets h pl = (d.offsetsSet h.part pl, .st .ok) := by
  have hlegal : ¬ (d.regionsOf h.part).any (fun r => 4 ≤ byteAt pl (4 * r + 3)) = true := by
    rw [List.any_eq_true]
    rintro ⟨r, hm, hbad⟩
    have := hr r (mem_regionsOf.1 hm).1 (mem_regionsOf.1 hm).2
    rw [decide_eq_true_eq] at hbad
    omega
  unfold Dev.beatOffsets
  rw [if_neg hlegal]
  rfl

theorem beatOffsets_runs (s : State) {h : Hdr} {pl : List Byte} (ha : Accepted s.dev cBeatOffsets h pl)
    (hr : ∀ r, r < 16 → s.dev.owns h.part r = true → byteAt pl (4 * r + 3) < 4) :
    Runs (.beatOffsets h pl) s (fun e => (∀ r, r < 16 → s.dev.owns h.part r = true → e.fld (TAB_CHOFF r) 0 26 =
      leAt pl (4 * r) 4 % 2 ^ 26) ∧ Answered s.dev e 0x0102 h .ok [] ∧
      Keeps s.dev e (fun a => BookReg a ∨ ∃ r, r < 16 ∧ s.dev.owns h.part r = true ∧ a = TAB_CHOFF r) ∧ SameUnits s.dev e) := by
  obtain ⟨g, hg⟩ := offsetsSet_regs s.dev h.part pl
  have hrr : (s.dev.offsetsSet h.part pl).rg (CAR_RRCFG h.func) = s.dev.rg (CAR_RRCFG h.func) :=
    rg_offsetsSet_ne _ _ _ (fun r hr _ => by unfold TAB_CHOFF; exact rrcfg_ne (by omega))
  refine serve_runs s (exec_beatOffsets h pl) ha (beatOffsets_eq hr) (by decide) hrr (by rw [hg]) (fun e hbook hans => ?_)
  have hkeeps := keeps_finish (d := s.dev) (e := e)
    (w := fun a => BookReg a ∨ ∃ r, r < 16 ∧ s.dev.owns h.part r = true ∧ a = TAB_CHOFF r)
    (by rw [desk_mem hbook.desk, hg]) (by rw [desk_ecc hbook.desk, hg])
    ((congrArg Dev.units hbook.desk :).trans (by rw [hg]; rfl)) (fun a hw => by
      rw [not_or] at hw
      exact (hbook.rg a hw.1).trans (rg_offsetsSet_ne _ _ _ (fun r hr ho he => hw.2 ⟨r, hr, ho, he⟩)))
  refine ⟨fun r hr16 ho => ?_, hans, hkeeps⟩
  obtain ⟨hbookreg, hfollow⟩ := choff_plain hr16
  rw [fld_finish _ hfollow, fld_congr 0 26 (hbook.rg _ hbookreg)]
  exact fld_forEach_setF (fun x y h => by unfold TAB_CHOFF at h; omega) (by decide) (fun r => leAt pl (4 * r) 4) _ _
    (mem_regionsOf.2 ⟨hr16, ho⟩)

/-! ### BEAT_PERIOD (R80, R82) -/

/-- A leap of a partition that starts its own beats ends with a new period. -/
def Dev.leapDropped (d : Dev) (p : Nat) : Part :=
  if d.running p && ! d.follows p then { d.part p with leap := none } else d.part p

/-- What a partition is and follows does not rest on its period. -/
theorem period_kept (d : Dev) (p per : Nat) : (d.setF (TAB_BPERIOD p) 0 29 per).running p = d.running p ∧
    (d.setF (TAB_BPERIOD p) 0 29 per).follows p = d.follows p := by
  have hne : TAB_BSTAT p ≠ TAB_BPERIOD p ∧ TAB_BCTL p ≠ TAB_BPERIOD p ∧ TAB_SPAN p ≠ TAB_BPERIOD p ∧ FAB_DCFG 0 ≠ TAB_BPERIOD p := by
    unfold TAB_BSTAT TAB_BCTL TAB_SPAN TAB_BPERIOD FAB_DCFG
    omega
  obtain ⟨hstat, hctl, hspan, hid⟩ := hne
  constructor
  · unfold Dev.running Dev.bstate
    rw [fld_setF_ne d (.inl hstat)]
  · unfold Dev.follows Dev.isLead Dev.devId
    rw [flag_setF_ne d (.inl hctl), flag_setF_ne d (.inl hctl), fld_setF_ne d (.inl hspan), fld_setF_ne d (.inl hid)]

/-- A period that the count has not reached takes effect at once, and drops a leap. -/
theorem newPeriod_ahead (d : Dev) {p per : Nat} (hahead : d.running p = false ∨ d.rg (TAB_BCOUNT p) < per) :
    ∃ g, d.newPeriod p per = { d.setF (TAB_BPERIOD p) 0 29 per with parts := g } ∧
      ∀ q, (d.newPeriod p per).part q = if q = p then d.leapDropped p else d.part q := by
  obtain ⟨hruns, hfollows⟩ := period_kept d p per
  unfold Dev.newPeriod Dev.leapDropped
  simp only [hruns, hfollows]
  split
  · rename_i hown
    have hcount : ¬ per ≤ d.rg (TAB_BCOUNT p) := by
      obtain h | h := hahead
      · rw [h] at hown
        exact absurd hown (by simp)
      · omega
    rw [if_neg hcount]
    exact ⟨_, rfl, fun q => part_setPart ..⟩
  · refine ⟨d.parts, rfl, fun q => ?_⟩
    split
    · rename_i hq
      rw [hq]
      rfl
    · rfl

theorem beatPeriod_eq {d : Dev} {h : Hdr} {pl : List Byte} (hheld : d.periodHeld h.part = false)
    (hper : periodLegal (leAt pl 0 4) (d.flag (TAB_BCTL h.part) 8) = true)
    (hckpt : leAt pl 0 4 = d.fld (TAB_BPERIOD h.part) 0 29 ∨ d.ckptTooFast h.part (leAt pl 0 4) (d.seasonLen h.part) = false) :
    d.beatPeriod h pl = (d.newPeriod h.part (leAt pl 0 4), .st .ok) := by
  have hslow : (leAt pl 0 4 ≠ d.fld (TAB_BPERIOD h.part) 0 29 && d.ckptTooFast h.part (leAt pl 0 4) (d.seasonLen h.part)) = false := by
    obtain h | h := hckpt <;> simp [h]
  unfold Dev.beatPeriod
  simp only [hheld, hper, hslow, Bool.not_true, Bool.or_self, Bool.false_eq_true, if_false]

theorem beatPeriod_runs (s : State) {h : Hdr} {pl : List Byte} (ha : Accepted s.dev cBeatPeriod h pl)
    (hper : leAt pl 0 4 ≤ 400000000) (hahead : s.dev.running h.part = false ∨ s.dev.rg (TAB_BCOUNT h.part) < leAt pl 0 4)
    (hb : s.dev.beatPeriod h pl = (s.dev.newPeriod h.part (leAt pl 0 4), .st .ok)) :
    Runs (.beatPeriod h pl) s (fun e => e.fld (TAB_BPERIOD h.part) 0 29 = leAt pl 0 4 ∧ Answered s.dev e 0x0106 h .ok [] ∧
      e.part h.part = s.dev.leapDropped h.part ∧ Keeps s.dev e (fun a => BookReg a ∨ a = TAB_BPERIOD h.part) ∧
      OtherUnits s.dev e h.part) := by
  have hp := accepted_part ha
  obtain ⟨g, hg, hpart⟩ := newPeriod_ahead s.dev hahead
  have hrg : ∀ a, a ≠ TAB_BPERIOD h.part → (s.dev.newPeriod h.part (leAt pl 0 4)).rg a = s.dev.rg a := fun a hne => by
    rw [hg]
    exact rg_setF_ne s.dev hne
  refine serve_runs s (exec_beatPeriod h pl) ha hb (by decide) (hrg _ (by unfold TAB_BPERIOD; exact rrcfg_ne (by omega)))
    (by rw [hg]; rfl) (fun e hbook hans => ?_)
  have hplain : ¬ LinkReg (TAB_BPERIOD h.part) ∧ ¬ FollowReg (TAB_BPERIOD h.part) := beatReg_plain (o := 4) hp (by omega) (by omega)
  have hparts : ∀ q, e.finish.part q = (s.dev.newPeriod h.part (leAt pl 0 4)).part q := fun q => by
    rw [finish_part]
    unfold Dev.part
    rw [desk_parts hbook.desk]
  refine ⟨?_, hans, ?_, ⟨fun a hw hf => ?_, fun a => ?_, ?_⟩, ?_, ?_, ?_, ?_, fun q hq => ?_⟩
  · rw [fld_finish _ hplain.2, fld_congr 0 29 (hbook.rg _ (fun hb => hplain.1 (.inl hb))), hg]
    exact (fld_setF_same s.dev (by decide)).trans (Nat.mod_eq_of_lt (by omega))
  · rw [hparts, hpart, if_pos rfl]
  · rw [not_or] at hw
    exact (rg_finish e hf).trans ((hbook.rg a hw.1).trans (hrg a hw.2))
  · rw [finish_mem, desk_mem hbook.desk, hg]
    rfl
  · rw [finish_ecc, desk_ecc hbook.desk, hg]
    rfl
  · rw [finish_cores, desk_cores hbook.desk, hg]
    rfl
  · rw [finish_regions, desk_regions hbook.desk, hg]
    rfl
  · rw [finish_tcores, desk_tcores hbook.desk, hg]
    rfl
  · rw [finish_scores, desk_scores hbook.desk, hg]
    rfl
  · rw [hparts, hpart, if_neg hq]

/-! ### BEAT_STATUS (R102) -/

theorem natOf_bitAt (n k : Nat) : natOf (bitAt n k) = bitsOf n k 1 := by
  rw [bitAt_eq]
  have hbit : bitsOf n k 1 < 2 := Nat.mod_lt _ (by decide)
  obtain h | h : bitsOf n k 1 = 0 ∨ bitsOf n k 1 = 1 := by omega
  · rw [h]
    rfl
  · rw [h]
    rfl

/-- The answer of BEAT_STATUS. -/
def Dev.statusAnswer (d : Dev) (p : Nat) : List Byte :=
  leBytes 8 (d.beat p) ++ leBytes 1 (d.bstate p) ++ leBytes 1 (natOf (d.flag (TAB_BSTAT p) 1) + 2 * natOf (d.flag (TAB_BSTAT p) 2) +
    4 * natOf (d.flag (TAB_BSTAT p) 3) + 8 * natOf (d.flag (TAB_BCTL p) 4) + 16 * natOf (d.tlState == 2)) ++ zeros 2 ++
    leBytes 4 (d.rg (TAB_SETTLE p)) ++ leBytes 4 (d.rg (TAB_OVRCNT p)) ++ leBytes 4 (d.rg (TAB_LEAPCNT p)) ++
    leBytes 4 (d.rg (TAB_LASTLEAP p)) ++ leBytes 4 (d.rg (TAB_UNSETTLED p))

theorem beatStatus_eq (d : Dev) (h : Hdr) (pl : List Byte) : d.beatStatus h pl = (d, .done .ok 0 (d.statusAnswer h.part)) := by
  unfold Dev.beatStatus Dev.statusAnswer Dev.flag Dev.fld
  simp only [natOf_bitAt]

theorem length_statusAnswer (d : Dev) (p : Nat) : (d.statusAnswer p).length = 32 := by
  unfold Dev.statusAnswer zeros
  simp [length_leBytes]

theorem beatStatus_runs (s : State) {h : Hdr} {pl : List Byte} (ha : Accepted s.dev cBeatStatus h pl) :
    Runs (.beatStatus h pl) s (fun e => Answered s.dev e 0x0107 h .ok (s.dev.statusAnswer h.part) ∧
      Keeps s.dev e (fun a => BookReg a) ∧ SameUnits s.dev e) :=
  serve_runs s (exec_beatStatus h pl) ha (beatStatus_eq s.dev h pl) (by rw [length_statusAnswer]; decide) rfl rfl
    (fun _ hbook hans => ⟨hans, hbook.finish_keeps⟩)

/-- Settles O1: each command's registers and answer, with what it leaves. -/
theorem beatConfigurationCommands : Obligations.BeatConfigurationCommands :=
  ⟨fun s _ _ ha hstill hmode hper hlim hdev hext hspan hlead hone htree hown =>
      beatConfig_runs s ha hmode hdev.2 (beatConfig_eq hstill hmode hper hlim hdev hext hspan hlead hone htree hown),
    fun s _ _ ha hr => beatOffsets_runs s ha hr,
    fun s _ _ ha hheld hper hckpt hahead =>
      beatPeriod_runs s ha (periodLegal_iff.1 hper).2.1 hahead (beatPeriod_eq hheld hper hckpt),
    fun s _ _ ha => beatStatus_runs s ha⟩

end Sys2Proof.Machine
end

section
/-! SUPPORT. A RESUME whose records are uncorrectable and whose faults Choke, while a command waits that no S-core of the device sent. -/

namespace Sys2Proof.Machine

open Sys2Proof

/-- The number of an S-core, far above the 16 there are, whose Tocsin would have the count of its partition queue at CAL_REGPART 1:
TOC_PRQCOUNT 288 (272 + ownerScore - 289) is that address. -/
def ownerScore : Nat := 17 + (CAL_REGPART 1 - TOC_PRQCOUNT 288 0) / 0x40

/-- A BEAT_RESUME of partition 0 that waits, as that S-core would have sent it. -/
def ownerWaiting : Waiting :=
  { opcode := 0x0105, names := true, ro := false, hdr := { (default : Hdr) with func := 0x100 + ownerScore }, pl := [], what := .resume }

/-- Muffled partition 0 owns region 1, whose core 0 holds two neurons; an ECC_CORE fault Chokes. -/
def muffledCore : Dev :=
  (((((default : Dev).setF (TAB_BSTAT 0) 16 3 3).setR (CAL_REGPART 1) 0x80000000).setR (FAB_REMAP 1 16) 0x80000000).setR (NEU_CFG 16) 2).setR
    (FLT_ACT (fEccCore - 0x102)) 2

/-- Both records are uncorrectable. `ownerScore` waits for the RESUME in its last descriptor. -/
def strayResume : Dev :=
  { ((muffledCore.setSeq ownerScore 2 0).setR (SEQ_PC ownerScore) 4095).setScore ownerScore
      { (default : SCore) with prog := [(4095, [0x15#8])] } with
    ecc := [(muffledCore.recAddr 16 0, 2), (muffledCore.recAddr 16 1, 2)]
    car := { (default : Carillon) with waiting := [ownerWaiting] } }

theorem strayResume_muffled : strayResume.bstate 0 = 3 ∧ (strayResume.part 0).resume = false ∧ strayResume.flag (TAB_BCTL 0) 4 = false ∧
    (strayResume.flag (TAB_BCTL 0) 8 && strayResume.flag (TAB_BCTL 0) 0 && decide (1 < strayResume.fld (TAB_SPAN 0) 0 10)) = false ∧
    strayResume.bstate 1 = 0 := by
  decide +kernel

/-- The Choke that the first record brings ends the waiting command; the S-core faults past its last descriptor, and the record of that
fault writes the number of records, 1, over the owner of region 1. So the second record Chokes partition 1. -/
theorem strayResume_chokes : (strayResume.bcmdResume 0 0).bstate 1 = 4 := by decide +kernel

theorem exec_tabBcmdResume (f p : Nat) (s : State) : exec (.tabBcmdResume f p) s = s.run (·.bcmdResume f p) := rfl

/-- Refutes O2: its clause of TAB_BCMD.RESUME leaves the requesters of the waiting commands unbounded, so one may be an S-core whose
queue would lie over the owner of the region whose cores resume. -/
theorem not_beatStartMuffleAndResume : ¬ Obligations.BeatStartMuffleAndResume := by
  rintro ⟨-, -, -, -, -, -, -, -, hresume, -⟩
  obtain ⟨hmuffled, hfree, hext, hgroup, hother⟩ := strayResume_muffled
  have hruns := hresume ⟨strayResume, []⟩ 0 0 (by decide) (.inl rfl) hmuffled hfree hext hgroup
  obtain ⟨-, -, -, hothers⟩ := (runs_iff (exec_tabBcmdResume _ _ _)).1 hruns
  obtain ⟨hstate, -⟩ := hothers 1 (by decide) (by decide)
  rw [bstate_finish _ (by decide), strayResume_chokes, hother] at hstate
  exact absurd hstate (by decide)

end Sys2Proof.Machine
end

section
/-! SUPPORT. The update of LIF and ALIF neurons in their field widths: saturated values, catch-up and one beat (R105, R114, R115, R119, R120). -/

namespace Sys2Proof.Machine

open Sys2Proof

/-! ### Saturation -/

/-- A value of `w` signed bits. -/
def Signed (w : Nat) (x : Int) : Prop := sMin w ≤ x ∧ x ≤ sMax w

/-- An adaptation: 16 bits without sign. -/
def Adaptation (x : Int) : Prop := 0 ≤ x ∧ x ≤ 65535

theorem clampI_bounds {lo hi : Int} (h : lo ≤ hi) (x : Int) : lo ≤ clampI lo hi x ∧ clampI lo hi x ≤ hi := by
  unfold clampI
  split
  · omega
  · split <;> omega

theorem sMin_le_sMax (w : Nat) : sMin w ≤ sMax w := by
  have hpos : 0 < 2 ^ (w - 1) := Nat.two_pow_pos _
  unfold sMin sMax
  omega

theorem signed_satC (w : Nat) (x : Int) : Signed w (satC w x).1 := clampI_bounds (sMin_le_sMax w) x

theorem adaptation_satU (x : Int) : Adaptation (satU x).1 := clampI_bounds (by decide) x

theorem zero_adaptation : Adaptation 0 := ⟨by decide, by decide⟩

/-- A field of 24 bits of a profile, read as a signed number. -/
theorem signed_sInt (n : Nat) : Signed 24 (sInt 24 n) := by
  have hlt : n % 2 ^ 24 < 2 ^ 24 := Nat.mod_lt _ (by decide)
  unfold Signed sMin sMax sInt
  dsimp only
  split <;> omega

/-- A saturated value, or in its place one within the width. -/
theorem signed_ite {x : Int} (hx : Signed 24 x) (c : Prop) [Decidable c] (y : Int) :
    Signed 24 (if c then satC 24 y else (x, 0)).1 := by
  split
  · exact signed_satC ..
  · exact hx

theorem adaptation_ite {x : Int} (hx : Adaptation x) (c : Prop) [Decidable c] (y : Int) :
    Adaptation (if c then satU y else (x, 0)).1 := by
  split
  · exact adaptation_satU y
  · exact hx

/-! ### States -/

/-- The state of an LIF or ALIF record within its fields (R105). -/
structure NState.InWidth (s : NState) : Prop where
  v  : Signed 24 s.v
  ie : Signed 24 s.ie
  ii : Signed 24 s.ii
  a  : Adaptation s.a

/-- Catch-up saturates what it changes: over beats past the refractory ones all four values, over refractory beats alone the currents
and the adaptation while V stands at VRESET, and over no beat it changes nothing (R115). -/
theorem catchLif_inWidth (pr : List Byte) (kind refr delta : Nat) {s : NState} (hs : s.InWidth) :
    (catchLif pr kind s refr delta).s.InWidth := by
  unfold catchLif
  dsimp only
  split
  · exact ⟨signed_satC .., signed_satC .., signed_satC .., adaptation_ite zero_adaptation ..⟩
  · split
    · exact ⟨signed_sInt _, signed_satC .., signed_satC .., adaptation_ite zero_adaptation ..⟩
    · exact hs

/-- A catch-up over no beat leaves the state and REFR. -/
theorem catchLif_zero (pr : List Byte) (kind refr : Nat) (s : NState) :
    (catchLif pr kind s refr 0).s = s ∧ (catchLif pr kind s refr 0).refr = refr := by
  unfold catchLif
  simp

/-! ### One beat -/

/-- A refractory beat takes the input into the currents alone, and does not fire (R119). -/
theorem beatLif_refractory (pr : List Byte) (kind : Nat) (c : Caught) (u : Int) :
    (beatLif pr kind c u true).fire = none ∧ (beatLif pr kind c u true).s.v = c.s.v ∧ (beatLif pr kind c u true).s.a = c.s.a :=
  ⟨rfl, rfl, rfl⟩

/-- V after the input and the leak of a beat (R119). -/
def potential (pr : List Byte) (c : Caught) (u : Int) : Int :=
  (satC 24 ((satC 24 (c.s.v + u)).1 + sInt 16 (leAt pr 16 2) * ((2 ^ (byteAt pr 4 % 8) : Nat) : Int))).1

/-- What V has to reach: the profile's threshold, raised by the adaptation of an ALIF record (R119). -/
def threshold (pr : List Byte) (kind : Nat) (c : Caught) : Int :=
  if kind = 1 then sInt 24 (leAt pr 8 3) + c.s.a * ((2 ^ (byteAt pr 6 % 8) : Nat) : Int) else sInt 24 (leAt pr 8 3)

/-- A beat below threshold leaves V after input and leak, and the adaptation as it was, and does not fire (R119). -/
theorem beatLif_silent (pr : List Byte) (kind : Nat) (c : Caught) (u : Int) (h : ¬ threshold pr kind c ≤ potential pr c u) :
    (beatLif pr kind c u false).fire = none ∧ (beatLif pr kind c u false).s.v = potential pr c u ∧
      (beatLif pr kind c u false).s.a = c.s.a := by
  unfold threshold potential at h
  unfold beatLif potential
  simp only [h, Bool.false_eq_true, if_false, and_self]

/-- A beat at threshold leaves V less the threshold or at VRESET, and the adaptation of an ALIF record at its increment (R120). -/
theorem beatLif_spike (pr : List Byte) (kind : Nat) (c : Caught) (u : Int) (h : threshold pr kind c ≤ potential pr c u) :
    (beatLif pr kind c u false).s.v =
      (if bitAt (byteAt pr 1) 2 then satC 24 (potential pr c u - threshold pr kind c) else (sInt 24 (leAt pr 12 3), 0)).1 ∧
      (beatLif pr kind c u false).s.a = (if kind = 1 then satU (c.s.a + (leAt pr 18 2 : Int)) else (c.s.a, 0)).1 := by
  unfold threshold potential at h
  unfold beatLif threshold potential
  simp only [h, Bool.false_eq_true, if_false, if_true, true_and]

/-- A beat leaves each current as it was, or with the input added and saturated (R119). -/
theorem beatLif_currents (pr : List Byte) (kind : Nat) (c : Caught) (u : Int) (rf : Bool) :
    (beatLif pr kind c u rf).s.ie = (if 0 < u then satC 24 (c.s.ie + u) else (c.s.ie, 0)).1 ∧
      (beatLif pr kind c u rf).s.ii = (if u < 0 then satC 24 (c.s.ii + u) else (c.s.ii, 0)).1 := by
  cases rf with
  | true => exact ⟨rfl, rfl⟩
  | false =>
    unfold beatLif
    simp only [Bool.false_eq_true, if_false]
    generalize (if kind = 1 then _ else _ : Int) = theta
    split <;> exact ⟨rfl, rfl⟩

/-- One beat keeps a record within its fields, whether it is refractory, stays below threshold or fires. -/
theorem beatLif_inWidth (pr : List Byte) (kind : Nat) {c : Caught} (hc : c.s.InWidth) (u : Int) (rf : Bool) :
    (beatLif pr kind c u rf).s.InWidth := by
  obtain ⟨hie, hii⟩ := beatLif_currents pr kind c u rf
  suffices h : Signed 24 (beatLif pr kind c u rf).s.v ∧ Adaptation (beatLif pr kind c u rf).s.a from
    ⟨h.1, hie ▸ signed_ite hc.ie .., hii ▸ signed_ite hc.ii .., h.2⟩
  cases rf with
  | true => exact ⟨hc.v, hc.a⟩
  | false =>
    by_cases hfire : threshold pr kind c ≤ potential pr c u
    · obtain ⟨hv, ha⟩ := beatLif_spike pr kind c u hfire
      rw [hv, ha]
      exact ⟨signed_ite (signed_sInt _) .., adaptation_ite hc.a ..⟩
    · obtain ⟨-, hv, ha⟩ := beatLif_silent pr kind c u hfire
      rw [hv, ha]
      exact ⟨signed_satC .., hc.a⟩

/-- Settles O10: the widths that catch-up and the beat keep one after the other, the refractory beat, and the catch-up over no beat. -/
theorem neuronUpdateInRange : Obligations.NeuronUpdateInRange := by
  refine ⟨fun pr kind refr delta st u rf _ hv hv' hie hie' hii hii' ha ha' _ => ?_,
    fun pr kind c u => (beatLif_refractory pr kind c u).1, fun pr kind refr st => catchLif_zero pr kind refr st⟩
  have hst : st.InWidth := ⟨⟨hv, hv'⟩, ⟨hie, hie'⟩, ⟨hii, hii'⟩, ⟨ha, ha'⟩⟩
  obtain ⟨hV, hIE, hII, hA⟩ := beatLif_inWidth pr kind (catchLif_inWidth pr kind refr delta hst) u rf
  exact ⟨hV.1, hV.2, hIE.1, hIE.2, hII.1, hII.2, hA.1, hA.2⟩

end Sys2Proof.Machine
end

section
/-! SUPPORT. NEURON_READ of a record whose first word is uncorrectable: the fault abandons a checkpoint copy, and the command that waits for
it was sent by no S-core of the device. -/

namespace Sys2Proof.Machine

open Sys2Proof

/-- The number of an S-core, far above the 16 there are, whose Tocsin would have the count of its partition queue at SYN_PMREC of
core 0: TOC_PRQCOUNT 288 (272 + pageScore - 289) is that address. -/
def pageScore : Nat := 17 + (SYN_PMREC 0 - TOC_PRQCOUNT 288 0) / 0x40

/-- The CKPT_NOW that waits for the copy, as that S-core would have sent it. -/
def pageWaiting : Waiting :=
  { opcode := 0x0708, names := true, ro := false, hdr := { (default : Hdr) with func := 0x100 + pageScore }, pl := [], what := .ckpt }

/-- READY, with function 0's response ring enabled; partition 0 owns region 0, whose core 0 stands at site 0 with one neuron and its
records on page 0; an ECC_CORE fault Mutes. -/
def recordCore : Dev :=
  ((((((default : Dev).setR CAR_STAT 1).setR CAL_STAT 4).setR (CAR_RRCFG 0) 0x8000000C).setR (CAL_REGPART 0) 0x80000000).setR
      (FAB_REMAP 0 0) 0x80000000).setR (NEU_CFG 0) 1 |>.setR (FLT_ACT (fEccCore - 0x102)) 1

/-- The first word of the record is uncorrectable, and page 1 begins with a byte 7. A checkpoint copy runs for a command of `pageScore`,
which waits at the CKPT in its last descriptor. -/
def pageRead : Dev :=
  { ((recordCore.setSeq pageScore 2 0).setR (SEQ_PC pageScore) 4095).setScore pageScore
      { (default : SCore) with prog := [(4095, [0x15#8])] } |>.setPart 0
        { (default : Part) with ckpt := { (default : Ckpt) with copy := some (0, 0) } } |>.wrB (csBase 0 + 65536) [7#8] with
    ecc := [(csBase 0, 2)]
    car := { (default : Carillon) with waiting := [pageWaiting] } }

/-- NEURON_READ of record 0 of core 0, as stored. -/
def readFirst : List Byte := zeros 4 ++ [1#8, 0#8] ++ zeros 2

theorem pageRead_accepted : Accepted pageRead cNeuronRead default readFirst := by decide +kernel

theorem pageRead_record : NamesCore pageRead 0 (leAt readFirst 0 2) 0 ∧ pageRead.recAddr 0 (leAt readFirst 2 2) = csBase 0 ∧
    leAt readFirst 2 2 < pageRead.ncount 0 ∧ pageRead.readRec 0 (leAt readFirst 2 2) = 0 ∧ Fits pageRead default 16 := by
  decide +kernel

/-- The fault ends the command and with it the descriptor; the S-core faults past its last one, and the record of that fault writes the
number of records, 1, over the base page of the records: the answer is read from page 1. -/
theorem pageRead_answer : (pageRead.neuronRead default readFirst).2 = .done .ok 0 (7#8 :: zeros 15) ∧
    (pageRead.neuronRead default readFirst).1.rg (CAR_RRCFG 0) = pageRead.rg (CAR_RRCFG 0) := by
  decide +kernel

theorem exec_neuronRead (h : Hdr) (pl : List Byte) (s : State) :
    exec (.neuronRead h pl) s = s.run (·.serve cNeuronRead Dev.neuronRead h pl) := rfl

/-- Refutes O6: its clause of NEURON_READ of a word with an error leaves the requesters of the waiting commands unbounded, so one may be
an S-core whose queue would lie over the page-map register by which the answer is read. -/
theorem not_neuronCommands : ¬ Obligations.NeuronCommands := by
  rintro ⟨-, -, -, -, -, -, herror, -⟩
  obtain ⟨hnames, haddr, hcount, hrec, hfits⟩ := pageRead_record
  obtain ⟨hans, hring⟩ := pageRead_answer
  have hclean : SMap.get 0 pageRead.ecc (csBase 0 + 8) = 0 := by decide
  have hbad : SMap.get 0 pageRead.ecc (csBase 0) = 2 := by decide
  have hruns := herror ⟨pageRead, []⟩ default readFirst 0 pageRead_accepted hnames (by decide) (by decide) hcount
    (by rw [haddr]; exact hclean) (by rw [haddr, hbad]; decide) hfits
  obtain ⟨⟨l, hlast⟩, -⟩ := (runs_iff (exec_neuronRead default readFirst _)).1 hruns
  obtain ⟨-, -, hresp⟩ := serve_done pageRead_accepted (Prod.ext rfl hans) hring hfits
  rw [finish_fn, hresp, haddr, hbad, hrec] at hlast
  obtain ⟨-, hsame⟩ := List.append_inj' hlast rfl
  exact absurd (congrArg (List.map Resp.pl) hsame) (by decide)

end Sys2Proof.Machine
end

section
/-! SUPPORT. A contribution added into its ring slot: a number written and read back, and the saturation counted (R10, R148, R162, R165). -/

namespace Sys2Proof.Machine

open Sys2Proof

variable (d : Dev)

/-! ### Numbers in memory -/

/-- A number just written reads back, cut to its bytes (R10). -/
theorem rdN_of_wrN {e : Dev} {a k v : Nat} (h : e.mem = (d.wrN a k v).mem) : e.rdN a k = v % 256 ^ k := by
  have hbytes : e.rdB a (leBytes k v).length = leBytes k v := rdB_memWr h
  rw [length_leBytes] at hbytes
  unfold Dev.rdN
  rw [hbytes, leNat_leBytes]

/-- A number written leaves every byte that is none of its own. -/
theorem read_wrN_ne {a k v b : Nat} (h : ¬ (a ≤ b ∧ b < a + k)) : (d.wrN a k v).mem.read b = d.mem.read b := by
  unfold Dev.wrN Dev.wrB
  rw [memWr_read, length_leBytes, if_neg h]

theorem uOf_lt (w : Nat) (x : Int) : uOf w x < 2 ^ w := by
  have hpos : (0 : Int) < ((2 ^ w : Nat) : Int) := Int.natCast_pos.2 (Nat.two_pow_pos w)
  have hlt := Int.emod_lt_of_pos x hpos
  unfold uOf
  omega

/-! ### The slot -/

theorem fixWord_clean (q : Nat) {a : Nat} (h : SMap.get 0 d.ecc (8 * (a / 8)) = 0) : d.fixWord q a = d := by
  unfold Dev.fixWord
  simp only [h]

/-- The exact sum of the slot at `a` and a contribution `c` (R162). -/
def Dev.slotSum (d : Dev) (a : Nat) (c : Int) : Int := sInt 16 (d.rdN a 2) + c

/-- The slot at `a` of core `q` with the contribution `c` added: the saturated sum stored, a saturation counted (R148, R162). -/
def Dev.slotAdded (d : Dev) (q a : Nat) (c : Int) : Dev :=
  if d.slotSum a c = satS 16 (d.slotSum a c) then d.wrN a 2 (uOf 16 (satS 16 (d.slotSum a c)))
  else (d.wrN a 2 (uOf 16 (satS 16 (d.slotSum a c)))).bump (SYN_RINGSAT q) 1

/-- A neuron with a ring takes its input in the slot of the beat, of which no word has an error; the summary is marked (R162, R165). -/
theorem addSlot_ring (q i b : Nat) {n ring : Nat} (c : Int) (hn : n ≠ 1)
    (hclean : SMap.get 0 d.ecc (8 * ((ring + 2 * (b % n)) / 8)) = 0) :
    d.addSlot q i b (n, ring) c = (d.slotAdded q (ring + 2 * (b % n)) c).setTouch q (b % 16) (i / 32) := by
  unfold Dev.addSlot
  simp only [if_neg hn, fixWord_clean d q hclean]
  rfl

theorem slotAdded_mem (q a : Nat) (c : Int) :
    (d.slotAdded q a c).mem = (d.wrN a 2 (uOf 16 (satS 16 (d.slotSum a c)))).mem := by
  unfold Dev.slotAdded
  split <;> rfl

theorem slotAdded_ringsat (q a : Nat) (c : Int) :
    (d.slotAdded q a c).rg (SYN_RINGSAT q) = (if satS 16 (d.slotSum a c) = d.slotSum a c then d.rg (SYN_RINGSAT q)
      else satInc (d.rg (SYN_RINGSAT q)) 1 % 2 ^ 32) := by
  unfold Dev.slotAdded
  by_cases hexact : d.slotSum a c = satS 16 (d.slotSum a c)
  · rw [if_pos hexact, if_pos hexact.symm]
    rfl
  · rw [if_neg hexact, if_neg (Ne.symm hexact), rg_bump_same]
    rfl

theorem setTouch_touch (q row g : Nat) : SMap.get false ((d.setTouch q row g).core q).touch (1024 * row + g) = true := by
  unfold Dev.setTouch
  rw [core_setCore, if_pos rfl, SMap.get_set_same]

/-- Settles O9: the slot of the beat with its saturated sum, then the mark of the neuron's group. -/
theorem contributionsSaturate : Obligations.ContributionsSaturate := by
  intro d q i b n ring c hn _ hclean
  rw [addSlot_ring d q i b c (by omega) hclean]
  generalize ring + 2 * (b % n) = a
  have hmem : ((d.slotAdded q a c).setTouch q (b % 16) (i / 32)).mem = (d.wrN a 2 (uOf 16 (satS 16 (d.slotSum a c)))).mem :=
    slotAdded_mem d q a c
  refine ⟨?_, fun x hx => ?_, slotAdded_ringsat d q a c, setTouch_touch _ q _ _⟩
  · exact (rdN_of_wrN d hmem).trans (Nat.mod_eq_of_lt (uOf_lt 16 _))
  · rw [hmem]
    exact read_wrN_ne d (by omega)

end Sys2Proof.Machine
end

section
/-! SUPPORT. Commands that name one core and end at once, and the reads of a core store without errors (R137, R152, R172, R183). -/

namespace Sys2Proof.Machine

open Sys2Proof

variable (d : Dev)

/-! ### The core named -/

theorem lcore_named {d : Dev} {p lc q : Nat} (h : NamesCore d p lc q) : d.lcore p lc = .ok q := by
  obtain ⟨hlc, howns, hsite⟩ := h
  have hknown : ¬ (256 ≤ lc || ! d.owns p (lc / 16)) = true := by simp [howns]; omega
  unfold Dev.lcore
  rw [if_neg hknown, hsite]

/-- A command that names a core there is works on its site. -/
theorem onCore_named {d : Dev} {p lc q : Nat} (h : NamesCore d p lc q) (f : Nat → Dev × Ans) : d.onCore p lc f = f q := by
  unfold Dev.onCore
  rw [lcore_named h]

/-- The books and what follows the state leave the registers of the slots. -/
theorem BookKeeps.rg_slot {d e : Dev} (h : BookKeeps d e) {a : Nat} (ha : 0x10000000 ≤ a) : e.finish.rg a = d.rg a := by
  refine (rg_finish_slot e ha).trans (h.rg a (fun hb => ?_))
  have := LinkReg.place (.inl hb)
  omega

theorem nBase_slot (q : Nat) : 0x10000000 ≤ nBase q := by
  unfold nBase slotBase
  omega

/-! ### Commands that end at once -/

/-- A command whose body changes nothing, with an answer that fits: the answer, and the books. -/
theorem serve_reads {c : Hdr → List Byte → Instr} {k : CmdSpec} {body : Dev → Hdr → List Byte → Dev × Ans} (s : State) {h : Hdr}
    {pl ans : List Byte} (he : ∀ s, exec (c h pl) s = s.run (·.serve k body h pl)) (ha : Accepted s.dev k h pl)
    (hb : body s.dev h pl = (s.dev, .done .ok 0 ans)) (hl : Fits s.dev h ans.length) :
    Runs (c h pl) s (fun e => Answered s.dev e k.opcode h .ok ans ∧ Keeps s.dev e (fun a => BookReg a) ∧ SameUnits s.dev e) := by
  obtain ⟨hkeeps, -, hresp⟩ := serve_done ha hb rfl hl
  refine (runs_iff (he s)).2 ⟨?_, hkeeps.finish_keeps⟩
  unfold Answered
  rw [finish_fn, hresp]

theorem exec_pagemapSet (h : Hdr) (pl : List Byte) (s : State) :
    exec (.pagemapSet h pl) s = s.run (·.serve cPagemapSet Dev.pagemapSet h pl) := rfl
theorem exec_pagemapRead (h : Hdr) (pl : List Byte) (s : State) :
    exec (.pagemapRead h pl) s = s.run (·.serve cPagemapRead Dev.pagemapRead h pl) := rfl
theorem exec_rowLoad (h : Hdr) (pl : List Byte) (s : State) :
    exec (.rowLoad h pl) s = s.run (·.serve cRowLoad Dev.rowLoad h pl) := rfl
theorem exec_rowRead (h : Hdr) (pl : List Byte) (s : State) :
    exec (.rowRead h pl) s = s.run (·.serve cRowRead Dev.rowRead h pl) := rfl
theorem exec_synStatus (h : Hdr) (pl : List Byte) (s : State) :
    exec (.synStatus h pl) s = s.run (·.serve cSynStatus Dev.synStatus h pl) := rfl
theorem exec_poisonList (h : Hdr) (pl : List Byte) (s : State) :
    exec (.poisonList h pl) s = s.run (·.serve cPoisonList Dev.poisonList h pl) := rfl

/-! ### Answers from registers (R183) -/

/-- Runs of one length, one after the other. -/
theorem length_flatten_map {α : Type} {f : α → List Byte} {k : Nat} (h : ∀ x, (f x).length = k) :
    ∀ l : List α, ((l.map f).flatten).length = k * l.length := by
  intro l
  simp [List.length_flatten, Function.comp_def, h, Nat.mul_comm]

theorem length_regBytes (a n : Nat) : (d.regBytes a n).length = 4 * n := by
  unfold Dev.regBytes
  rw [length_flatten_map (fun _ => length_leBytes ..)]
  unfold upTo
  rw [List.length_range]

theorem synStatus_runs (s : State) {h : Hdr} {pl : List Byte} {q : Nat} (ha : Accepted s.dev cSynStatus h pl)
    (hq : NamesCore s.dev h.part (leAt pl 0 2) q) :
    Runs (.synStatus h pl) s (fun e => Answered s.dev e 0x0305 h .ok (s.dev.regBytes (SYN_STAT q) 64) ∧
      Keeps s.dev e (fun a => BookReg a) ∧ SameUnits s.dev e) :=
  serve_reads s (exec_synStatus h pl) ha (onCore_named hq _) (fits_short ha (by rw [length_regBytes]; decide))

theorem poisonList_runs (s : State) {h : Hdr} {pl : List Byte} {q : Nat} (ha : Accepted s.dev cPoisonList h pl)
    (hq : NamesCore s.dev h.part (leAt pl 0 2) q) :
    Runs (.poisonList h pl) s (fun e => Answered s.dev e 0x0306 h .ok (leBytes 4 (s.dev.rg (SYN_POISONCNT q)) ++
      s.dev.regBytes (SYN_POISON q 0) 64) ∧ Keeps s.dev e (fun a => BookReg a) ∧ SameUnits s.dev e) :=
  serve_reads s (exec_poisonList h pl) ha (onCore_named hq _)
    (fits_short ha (by rw [List.length_append, length_leBytes, length_regBytes]; decide))

/-- The answer of PAGEMAP_READ of core `q`: base and count of the five areas, fire log, bands, and the eight zones. -/
def Dev.pageMapAnswer (d : Dev) (q : Nat) (pl : List Byte) : List Byte :=
  pl.take 2 ++ zeros 2 ++ ([SYN_PMREC q, SYN_PMRING q, SYN_PMREV q, SYN_PMALM q, SYN_PMROW q].map (fun a =>
    leBytes 1 (d.fld a 0 6) ++ leBytes 1 (d.fld a 8 6))).flatten ++ leBytes 1 (d.rg (SYN_FLBASE q)) ++ zeros 1 ++
    leBytes 2 (d.rg (SYN_BAND16 q)) ++ leBytes 2 (d.rg (SYN_BAND8 q)) ++ leBytes 2 (d.rg (SYN_BAND4 q)) ++ zeros 10 ++
    ((upTo 8).map (fun z => leBytes 1 (d.fld (SYN_ZCFG q z) 31 1 * 128 + d.fld (SYN_ZCFG q z) 16 3) ++
      leBytes 1 (d.fld (SYN_ZCFG q z) 0 6) ++ leBytes 1 (d.fld (SYN_ZCFG q z) 8 6) ++ zeros 1)).flatten

theorem pagemapRead_eq {h : Hdr} {pl : List Byte} {q : Nat} (hq : NamesCore d h.part (leAt pl 0 2) q) :
    d.pagemapRead h pl = (d, .done .ok 0 (d.pageMapAnswer q pl)) := by
  unfold Dev.pagemapRead Dev.pageMapAnswer
  rw [onCore_named hq]
  simp only [List.map_cons, List.map_nil, List.flatten_cons, List.flatten_nil, List.append_nil, List.append_assoc]

theorem length_pageMapAnswer (q : Nat) (pl : List Byte) : (d.pageMapAnswer q pl).length ≤ 64 := by
  unfold Dev.pageMapAnswer zeros
  simp only [List.length_append, List.length_take, List.length_replicate, length_leBytes]
  rw [length_flatten_map (k := 2) (fun _ => by simp [length_leBytes]), length_flatten_map (k := 4) (fun _ => by simp [length_leBytes])]
  simp [upTo]

theorem pagemapRead_runs (s : State) {h : Hdr} {pl : List Byte} {q : Nat} (ha : Accepted s.dev cPagemapRead h pl)
    (hq : NamesCore s.dev h.part (leAt pl 0 2) q) :
    Runs (.pagemapRead h pl) s (fun e => Answered s.dev e 0x0302 h .ok (s.dev.pageMapAnswer q pl) ∧
      Keeps s.dev e (fun a => BookReg a) ∧ SameUnits s.dev e) :=
  serve_reads s (exec_pagemapRead h pl) ha (pagemapRead_eq s.dev hq)
    (fits_short ha (Nat.le_trans (length_pageMapAnswer s.dev q pl) (by decide)))

/-! ### Reads of the store (R172, R656) -/

/-- A walk whose every step leaves the device leaves it. -/
theorem forEach_fixed {α : Type} {f : Dev → α → Dev} {d : Dev} : ∀ {l : List α}, (∀ x, x ∈ l → f d x = d) → d.forEach l f = d := by
  intro l
  induction l with
  | nil => exact fun _ => rfl
  | cons x r ih =>
    intro h
    have hfirst : d.forEach (x :: r) f = d.forEach r f := congrArg (fun e => List.foldl f e r) (h x (List.mem_cons_self ..))
    exact hfirst.trans (ih (fun y hy => h y (List.mem_cons_of_mem _ hy)))

theorem scrubAt_clean (q : Nat) {off : Nat} (h : SMap.get 0 d.ecc (csBase q + off) = 0) : d.scrubAt q off = d := by
  unfold Dev.scrubAt
  simp only [h]

/-- A read of a core store where no word has an error returns the bytes stored, and changes nothing. -/
theorem storeRead_clean {q a n : Nat} (hstore : csBase q ≤ a) (h : NoError d a n) : d.storeRead q a n = (d, d.rdB a n) := by
  have hbase : csBase q = 8 * (0x2000000000 + 0x80000 * q) := by unfold csBase; omega
  have hwalk : d.forEach (wordsAt (a - csBase q) n) (fun d w => d.scrubAt q w) = d := by
    refine forEach_fixed (fun w hw => scrubAt_clean d q ?_)
    obtain ⟨k, hk, rfl⟩ := List.mem_map.1 hw
    have hlt := mem_upTo hk
    have hword : csBase q + 8 * ((a - csBase q) / 8 + k) = 8 * (a / 8 + k) := by omega
    rw [hword]
    exact h k (by omega)
  have hclean : d.cleanAt a n = true := (cleanAt_iff d).2 (fun k hk => by rw [h k hk]; decide)
  unfold Dev.storeRead Dev.readOpen
  rw [hwalk, if_pos hclean]

/-! ### ROW_READ -/

/-- Header and body of a row lie in its core's store (R152). -/
theorem resolve_inStore {q ra : Nat} {loc : RowLoc} (h : d.resolve q ra = some loc) : csBase q ≤ loc.hdr ∧ csBase q ≤ loc.body := by
  unfold Dev.resolve at h
  split at h
  · exact absurd h (by simp)
  · dsimp only at h
    split at h
    · exact absurd h (by simp)
    · split at h
      · cases h
        dsimp only
        omega
      · split at h
        · exact absurd h (by simp)
        · cases h
          dsimp only
          omega

/-- The bytes after the header of the row at `loc`: the body, or the entries that the header counts (R153). -/
def Dev.bodyBytes (d : Dev) (loc : RowLoc) : Nat :=
  if fmtSparse loc.fmt then fmtEntry loc.fmt * hdrCount (d.rdB loc.hdr (fmtHeader loc.fmt)) else fmtBody loc.fmt

theorem rowRead_eq {h : Hdr} {pl : List Byte} {q : Nat} {loc : RowLoc} (hq : NamesCore d h.part (leAt pl 0 2) q)
    (hra : leAt pl 4 4 < 2 ^ 17) (hloc : d.resolve q (leAt pl 4 4) = some loc)
    (hcount : fmtSparse loc.fmt = true → hdrCount (d.rdB loc.hdr (fmtHeader loc.fmt)) ≤ fmtMax loc.fmt ∧
      loc.body + d.bodyBytes loc ≤ loc.lim)
    (hhdr : NoError d loc.hdr (fmtHeader loc.fmt)) (hbody : NoError d loc.body (d.bodyBytes loc)) :
    d.rowRead h pl = (d, .done .ok 0 (d.rdB loc.hdr (fmtHeader loc.fmt) ++ d.rdB loc.body (d.bodyBytes loc))) := by
  obtain ⟨hin, hin'⟩ := resolve_inStore d hloc
  have hfits : ¬ (fmtSparse loc.fmt && (fmtMax loc.fmt < hdrCount (d.rdB loc.hdr (fmtHeader loc.fmt)) ||
      loc.lim < loc.body + d.bodyBytes loc)) = true := by
    rw [Bool.and_eq_true, Bool.or_eq_true, decide_eq_true_eq, decide_eq_true_eq]
    rintro ⟨hsparse, hbad⟩
    have := hcount hsparse
    omega
  unfold Dev.bodyBytes at hfits hbody
  unfold Dev.rowRead Dev.bodyBytes
  rw [onCore_named hq, if_neg (Nat.not_le.2 hra), hloc]
  dsimp only
  rw [storeRead_clean d hin hhdr]
  dsimp only
  rw [if_neg hfits, storeRead_clean d hin' hbody]

theorem rowRead_runs (s : State) {h : Hdr} {pl : List Byte} {q : Nat} {loc : RowLoc} (ha : Accepted s.dev cRowRead h pl)
    (hq : NamesCore s.dev h.part (leAt pl 0 2) q) (hra : leAt pl 4 4 < 2 ^ 17) (hloc : s.dev.resolve q (leAt pl 4 4) = some loc)
    (hcount : fmtSparse loc.fmt = true → hdrCount (s.dev.rdB loc.hdr (fmtHeader loc.fmt)) ≤ fmtMax loc.fmt ∧
      loc.body + s.dev.bodyBytes loc ≤ loc.lim)
    (hhdr : NoError s.dev loc.hdr (fmtHeader loc.fmt)) (hbody : NoError s.dev loc.body (s.dev.bodyBytes loc))
    (hfit : Fits s.dev h (fmtHeader loc.fmt + s.dev.bodyBytes loc)) :
    Runs (.rowRead h pl) s (fun e => Answered s.dev e 0x0304 h .ok (s.dev.rdB loc.hdr (fmtHeader loc.fmt) ++
      s.dev.rdB loc.body (s.dev.bodyBytes loc)) ∧ Keeps s.dev e (fun a => BookReg a) ∧ SameUnits s.dev e) :=
  serve_reads s (exec_rowRead h pl) ha (rowRead_eq s.dev hq hra hloc hcount hhdr hbody)
    (by rw [List.length_append, length_rdB, length_rdB]; exact hfit)

end Sys2Proof.Machine
end

section
/-! SUPPORT. ROW_LOAD: the image as it is stored, the writes of header and body, and the poison entry removed (R152, R174, R185, R353,
R656). -/

namespace Sys2Proof.Machine

open Sys2Proof

variable (d : Dev)

/-! ### The image -/

theorem length_splice (l : List Byte) (off : Nat) (v : List Byte) : (splice l off v).length = l.length := by
  unfold splice
  simp only [List.length_append, List.length_take, List.length_drop]
  omega

theorem length_hdrDeliver (f : Nat) (h : List Byte) (pre last : Nat) : (hdrDeliver f h pre last).length = h.length := by
  unfold hdrDeliver
  dsimp only
  split <;> rw [length_splice, length_splice, length_splice]

/-- A walk of splices keeps the length. -/
theorem length_foldl_splice {α : Type} (off : α → Nat) (v : List Byte → α → List Byte) :
    ∀ (l : List α) (b : List Byte), (l.foldl (fun b x => splice b (off x) (v b x)) b).length = b.length := by
  intro l
  induction l with
  | nil => exact fun _ => rfl
  | cons x r ih => exact fun b => (ih _).trans (length_splice ..)

/-- A row without history is as long as its image (R353). -/
theorem length_imageFresh (f : Nat) (img : List Byte) : (imageFresh f img).length = img.length := by
  unfold imageFresh
  dsimp only
  rw [List.length_append, length_splice, length_hdrDeliver, length_foldl_splice, ← List.length_append, List.take_append_drop]

/-- The image as ROW_LOAD stores it: a plastic row starts without history (R185, R353). -/
def rowImage (f : Nat) (img : List Byte) : List Byte := if fmtPlastic f then imageFresh f img else img

theorem length_rowImage (f : Nat) (img : List Byte) : (rowImage f img).length = img.length := by
  unfold rowImage
  split
  · exact length_imageFresh f img
  · rfl

/-! ### The poison table (R174) -/

/-- The registers of the poison table of core `q`. -/
def PoisonReg (q a : Nat) : Prop := a = SYN_POISONCNT q ∨ ∃ k, k < 64 ∧ a = SYN_POISON q k

theorem poisonAt_congr {d e : Dev} {q : Nat} (h : ∀ a, PoisonReg q a → e.rg a = d.rg a) (ra : Nat) : e.poisonAt q ra = d.poisonAt q ra := by
  have hentry : ∀ k ∈ upTo 64, (e.flag (SYN_POISON q k) 31 && e.fld (SYN_POISON q k) 0 17 == ra) =
      (d.flag (SYN_POISON q k) 31 && d.fld (SYN_POISON q k) 0 17 == ra) := fun k hk => by
    have hrg := h _ (.inr ⟨k, mem_upTo hk, rfl⟩)
    rw [flag_congr 31 hrg, fld_congr 0 17 hrg]
  unfold Dev.poisonAt
  exact List.find?_congr hentry

theorem unpoison_none {q ra : Nat} (h : d.poisonAt q ra = none) : d.unpoison q ra = d := by
  unfold Dev.unpoison
  rw [h]

theorem unpoison_regs (q ra : Nat) : ∃ g, d.unpoison q ra = { d with regs := g } := by
  unfold Dev.unpoison
  split
  · exact ⟨_, rfl⟩
  · exact ⟨d.regs, rfl⟩

theorem rg_unpoison_ne {q ra a : Nat} (h : ¬ PoisonReg q a) : (d.unpoison q ra).rg a = d.rg a := by
  unfold Dev.unpoison
  split
  · rename_i k hk
    have hlt : k < 64 := mem_upTo (List.mem_of_find?_eq_some hk)
    exact (rg_setR_ne _ (fun he => h (.inl he))).trans (rg_setR_ne _ (fun he => h (.inr ⟨k, hlt, he⟩)))
  · rfl

/-- The registers of the poison table are none that a write of the store touches. -/
theorem poisonReg_not_store {q a : Nat} (h : PoisonReg q a) : ¬ StoreReg q a := by
  unfold PoisonReg SYN_POISONCNT SYN_POISON at h
  unfold StoreReg SYN_ECCCORR SYN_ECCUNC SYN_STAT
  obtain h | ⟨k, hk, h⟩ := h <;> omega

/-! ### The writes -/

/-- The device with `hn` bytes of header and the rest of the image stored where the row lies. -/
def Dev.rowStored (d : Dev) (q hn : Nat) (loc : RowLoc) (img : List Byte) : Dev :=
  (d.csWrite q loc.hdr (img.take hn) hn).csWrite q loc.body (img.drop hn) img.length

/-- Both writes: memory with header and body, and beside it only ECC state and three registers of the site (R656). -/
theorem rowStored_writes (q : Nat) {hn : Nat} (loc : RowLoc) {img : List Byte} :
    (d.rowStored q hn loc img).mem = memWr (memWr d.mem loc.hdr (img.take hn)) loc.body (img.drop hn) ∧
      (d.rowStored q hn loc img).slim = d.slim ∧ ∀ a, ¬ StoreReg q a → (d.rowStored q hn loc img).rg a = d.rg a := by
  have hhead := csWrite_writes q hn loc.hdr (img.take hn) d (List.length_take_le ..)
  have hbody := csWrite_writes q img.length loc.body (img.drop hn) (d.csWrite q loc.hdr (img.take hn) hn) (by simp)
  exact ⟨hbody.mem.trans (by rw [hhead.mem]), hbody.slim.trans hhead.slim, fun a ha => (hbody.rg a ha).trans (hhead.rg a ha)⟩

/-- What memory reads once header and body are stored: each reads back, since neither lies over the other, and the rest is as before. -/
theorem rowStored_read {q hn : Nat} {loc : RowLoc} {img : List Byte} (hlen : hn ≤ img.length)
    (happart : loc.hdr + hn ≤ loc.body ∨ loc.body + img.length ≤ loc.hdr) :
    (∀ k, k < hn → (d.rowStored q hn loc img).mem.read (loc.hdr + k) = img.getD k 0#8) ∧
    (∀ k, k < img.length - hn → (d.rowStored q hn loc img).mem.read (loc.body + k) = img.getD (hn + k) 0#8) ∧
    MemKeeps d (d.rowStored q hn loc img) (fun a => (loc.hdr ≤ a ∧ a < loc.hdr + hn) ∨
      (loc.body ≤ a ∧ a < loc.body + (img.length - hn))) := by
  obtain ⟨hmem, -, -⟩ := rowStored_writes d q loc (hn := hn) (img := img)
  have hread : ∀ a, (d.rowStored q hn loc img).mem.read a = if loc.body ≤ a ∧ a < loc.body + (img.length - hn)
      then (img.drop hn).getD (a - loc.body) 0#8 else if loc.hdr ≤ a ∧ a < loc.hdr + hn
      then (img.take hn).getD (a - loc.hdr) 0#8 else d.mem.read a := fun a => by
    rw [hmem, memWr_read, memWr_read, List.length_drop, List.length_take, Nat.min_eq_left hlen]
  refine ⟨fun k hk => ?_, fun k hk => ?_, fun a ha => ?_⟩
  · rw [hread, if_neg (by omega), if_pos (by omega), Nat.add_sub_cancel_left, getD_take hk]
  · rw [hread, if_pos (by omega), Nat.add_sub_cancel_left, List.getD_eq_getElem?_getD, List.getElem?_drop,
      ← List.getD_eq_getElem?_getD]
  · rw [not_or] at ha
    rw [hread, if_neg ha.2, if_neg ha.1]

/-! ### ROW_LOAD -/

/-- The length that the format and the header's count want of an image (R185). -/
def imageWant (f : Nat) (img : List Byte) : Nat :=
  if fmtSparse f then fmtHeader f + fmtEntry f * hdrCount img else fmtHeader f + fmtBody f

theorem fmtHeader_le_want (f : Nat) (img : List Byte) : fmtHeader f ≤ imageWant f img := by
  unfold imageWant
  split <;> omega

theorem rowLoad_eq {h : Hdr} {pl : List Byte} {q : Nat} {loc : RowLoc} (hq : NamesCore d h.part (leAt pl 0 2) q)
    (hloc : d.resolve q (leAt pl 4 4) = some loc) (hlen : (pl.drop 12).length = imageWant loc.fmt (pl.drop 12))
    (hclean : imageClean loc.fmt (pl.drop 12) = true)
    (hcount : fmtSparse loc.fmt = true → (bitAt (hdrFlags (pl.drop 12)) 0 = true → 1 ≤ hdrCount (pl.drop 12) ∧
      hdrCount (pl.drop 12) ≤ fmtMax loc.fmt) ∧ loc.body + fmtEntry loc.fmt * hdrCount (pl.drop 12) ≤ loc.lim) :
    d.rowLoad h pl = ((d.rowStored q (fmtHeader loc.fmt) loc (rowImage loc.fmt (pl.drop 12))).unpoison q (leAt pl 4 4), .st .ok) := by
  have hentries : (! fmtSparse loc.fmt || ((! bitAt (hdrFlags (pl.drop 12)) 0 || (1 ≤ hdrCount (pl.drop 12) &&
      hdrCount (pl.drop 12) ≤ fmtMax loc.fmt)) && loc.body + fmtEntry loc.fmt * hdrCount (pl.drop 12) ≤ loc.lim)) = true := by
    cases hsparse : fmtSparse loc.fmt with
    | false => rfl
    | true =>
      obtain ⟨hvalid, hlim⟩ := hcount hsparse
      cases hflag : bitAt (hdrFlags (pl.drop 12)) 0 with
      | false => simp [hlim]
      | true => simp [hlim, hvalid hflag]
  unfold imageWant at hlen
  unfold Dev.rowLoad
  rw [onCore_named hq]
  dsimp only
  rw [hloc]
  dsimp only
  rw [hentries, hclean, decide_eq_true hlen]
  rfl

theorem rowLoad_runs (s : State) {h : Hdr} {pl : List Byte} {q : Nat} {loc : RowLoc} (ha : Accepted s.dev cRowLoad h pl)
    (hlen : (pl.drop 12).length = imageWant loc.fmt (pl.drop 12))
    (hb : s.dev.rowLoad h pl =
      ((s.dev.rowStored q (fmtHeader loc.fmt) loc (rowImage loc.fmt (pl.drop 12))).unpoison q (leAt pl 4 4), .st .ok))
    (happart : loc.hdr + fmtHeader loc.fmt ≤ loc.body ∨ loc.body + (pl.length - 12) ≤ loc.hdr) :
    Runs (.rowLoad h pl) s (fun e =>
      (∀ k, k < fmtHeader loc.fmt → e.mem.read (loc.hdr + k) = (rowImage loc.fmt (pl.drop 12)).getD k 0#8) ∧
      (∀ k, k < pl.length - 12 - fmtHeader loc.fmt →
        e.mem.read (loc.body + k) = (rowImage loc.fmt (pl.drop 12)).getD (fmtHeader loc.fmt + k) 0#8) ∧
      (rowImage loc.fmt (pl.drop 12)).length = pl.length - 12 ∧
      MemKeeps s.dev e (fun a => (loc.hdr ≤ a ∧ a < loc.hdr + fmtHeader loc.fmt) ∨
        (loc.body ≤ a ∧ a < loc.body + (pl.length - 12 - fmtHeader loc.fmt))) ∧
      (s.dev.poisonAt q (leAt pl 4 4) = none → e.rg (SYN_POISONCNT q) = s.dev.rg (SYN_POISONCNT q)) ∧
      Answered s.dev e 0x0303 h .ok [] ∧ SameUnits s.dev e) := by
  have himg : (rowImage loc.fmt (pl.drop 12)).length = pl.length - 12 := by rw [length_rowImage, List.length_drop]
  have hlong : fmtHeader loc.fmt ≤ (rowImage loc.fmt (pl.drop 12)).length := by
    rw [length_rowImage, hlen]
    exact fmtHeader_le_want ..
  generalize rowImage loc.fmt (pl.drop 12) = img at hb himg hlong ⊢
  obtain ⟨-, hslim, hrg⟩ := rowStored_writes s.dev q loc (hn := fmtHeader loc.fmt) (img := img)
  obtain ⟨hhead, hbody, hrest⟩ := rowStored_read s.dev (q := q) (loc := loc) hlong (by rw [himg]; exact happart)
  rw [himg] at hbody hrest
  obtain ⟨g, hg⟩ := unpoison_regs (s.dev.rowStored q (fmtHeader loc.fmt) loc img) q (leAt pl 4 4)
  have hrr : 0x10000000 ≤ SYN_POISONCNT q ∧ ¬ PoisonReg q (CAR_RRCFG h.func) ∧ ¬ StoreReg q (CAR_RRCFG h.func) := by
    have hfunc := ha.2.1
    have hslot := nBase_slot q
    unfold PoisonReg StoreReg SYN_POISONCNT SYN_POISON SYN_ECCCORR SYN_ECCUNC SYN_STAT CAR_RRCFG
    omega
  obtain ⟨hcnt, hpoison, hstore⟩ := hrr
  refine serve_runs s (exec_rowLoad h pl) ha hb (by decide) ((rg_unpoison_ne _ hpoison).trans (hrg _ hstore))
    (by rw [hg]; exact (congrArg Dev.car hslim :)) (fun e hbook hans => ?_)
  have hmem : e.finish.mem = (s.dev.rowStored q (fmtHeader loc.fmt) loc img).mem := by rw [finish_mem, desk_mem hbook.desk, hg]
  refine ⟨fun k hk => ?_, fun k hk => ?_, himg, fun a ha => ?_, fun hnone => ?_, hans, sameUnits_finish ?_⟩
  · rw [hmem, hhead k hk]
  · rw [hmem, hbody k hk]
  · rw [hmem, hrest a ha]
  · have hsame : (s.dev.rowStored q (fmtHeader loc.fmt) loc img).poisonAt q (leAt pl 4 4) = none :=
      (poisonAt_congr (fun a ha => hrg a (poisonReg_not_store ha)) _).trans hnone
    rw [hbook.rg_slot hcnt, unpoison_none _ hsame]
    exact hrg _ (poisonReg_not_store (.inl rfl))
  · exact (congrArg Dev.units hbook.desk :).trans (by rw [hg]; exact (congrArg Dev.units hslim :))

end Sys2Proof.Machine
end

section
/-! SUPPORT. PAGEMAP_SET: the registers of the map, the rings cleared, the fire log emptied (R143, R151, R184, R662). And the family's
statement. -/

namespace Sys2Proof.Machine

open Sys2Proof

variable (d : Dev)

/-! ### The registers of a page map -/

/-- Pages of area `k` of a payload as its register shows them: count and base (R180). -/
def pmArea (pl : List Byte) (k : Nat) : Nat := 256 * pmCount pl k + pmBase pl k

theorem pmArea_lt (pl : List Byte) (k : Nat) : pmArea pl k < 2 ^ 32 := by
  have hcount := byteAt_lt pl (5 + 2 * k)
  have hbase := byteAt_lt pl (4 + 2 * k)
  unfold pmArea pmCount pmBase
  omega

/-- Areas, fire log and bands written. -/
def Dev.areasSet (d : Dev) (q : Nat) (pl : List Byte) : Dev :=
  ((((((((d.setR (SYN_PMREC q) (pmArea pl 0)).setR (SYN_PMRING q) (pmArea pl 1)).setR (SYN_PMREV q) (pmArea pl 2)).setR
    (SYN_PMALM q) (pmArea pl 3)).setR (SYN_PMROW q) (pmArea pl 4)).setR (SYN_FLBASE q) (byteAt pl 14)).setR
    (SYN_BAND16 q) (leAt pl 16 2)).setR (SYN_BAND8 q) (leAt pl 18 2)).setR (SYN_BAND4 q) (leAt pl 20 2)

/-- Rows of zone `z` of a payload, 0 of one that is not valid (R151). -/
def zoneRowsSet (pl : List Byte) (z : Nat) : Nat := if pmZoneValid pl z then pmZoneRows pl z else 0

/-- The registers of zone `z` written. -/
def Dev.zoneSet (d : Dev) (q : Nat) (pl : List Byte) (z : Nat) : Dev :=
  let f := pmZone pl z 0 % 8
  let first := if fmtSparse f then 2048 * pmZone pl z 1
    else 2048 * pmZone pl z 1 + (zoneRowsSet pl z * fmtHeader f + 31) / 32
  ((d.setR (SYN_ZCFG q z) (natOf (pmZoneValid pl z) * 2 ^ 31 + f * 65536 + (pmZone pl z 2 % 64) * 256 + pmZone pl z 1 % 64)).setR
    (SYN_ZROWS q z) (zoneRowsSet pl z % 65536)).setR (SYN_ZFIRST q z) (if pmZoneValid pl z then first else 0)

/-- The registers that PAGEMAP_SET writes before rings and fire log. -/
def Dev.mapSet (d : Dev) (q : Nat) (pl : List Byte) : Dev :=
  ((d.areasSet q pl).forEach (upTo 8) (fun d z => d.zoneSet q pl z)).setR (ALM_NCAP q) (min 2048 (128 * pmCount pl 3))

theorem setPageMap_eq (q : Nat) (pl : List Byte) : d.setPageMap q pl = ((d.mapSet q pl).clearRingArea q).emptyFireLog q := rfl

theorem rg_areasSet (q : Nat) (pl : List Byte) :
    (d.areasSet q pl).rg (SYN_PMREC q) = pmArea pl 0 % 2 ^ 32 ∧ (d.areasSet q pl).rg (SYN_PMRING q) = pmArea pl 1 % 2 ^ 32 ∧
    (d.areasSet q pl).rg (SYN_PMREV q) = pmArea pl 2 % 2 ^ 32 ∧ (d.areasSet q pl).rg (SYN_PMALM q) = pmArea pl 3 % 2 ^ 32 ∧
    (d.areasSet q pl).rg (SYN_PMROW q) = pmArea pl 4 % 2 ^ 32 ∧ (d.areasSet q pl).rg (SYN_FLBASE q) = byteAt pl 14 % 2 ^ 32 ∧
    (d.areasSet q pl).rg (SYN_BAND16 q) = leAt pl 16 2 % 2 ^ 32 ∧ (d.areasSet q pl).rg (SYN_BAND8 q) = leAt pl 18 2 % 2 ^ 32 ∧
    (d.areasSet q pl).rg (SYN_BAND4 q) = leAt pl 20 2 % 2 ^ 32 := by
  unfold Dev.areasSet SYN_PMREC SYN_PMRING SYN_PMREV SYN_PMALM SYN_PMROW SYN_FLBASE SYN_BAND16 SYN_BAND8 SYN_BAND4
  simp [rg_setR]

theorem rg_areasSet_ne (q : Nat) (pl : List Byte) {a : Nat} (h : a < nBase q) : (d.areasSet q pl).rg a = d.rg a := by
  have hne : a ≠ SYN_PMREC q ∧ a ≠ SYN_PMRING q ∧ a ≠ SYN_PMREV q ∧ a ≠ SYN_PMALM q ∧ a ≠ SYN_PMROW q ∧ a ≠ SYN_FLBASE q ∧
      a ≠ SYN_BAND16 q ∧ a ≠ SYN_BAND8 q ∧ a ≠ SYN_BAND4 q := by
    unfold SYN_PMREC SYN_PMRING SYN_PMREV SYN_PMALM SYN_PMROW SYN_FLBASE SYN_BAND16 SYN_BAND8 SYN_BAND4
    omega
  obtain ⟨hrec, hring, hrev, halm, hrow, hlog, h16, h8, h4⟩ := hne
  unfold Dev.areasSet
  rw [rg_setR_ne _ h4, rg_setR_ne _ h8, rg_setR_ne _ h16, rg_setR_ne _ hlog, rg_setR_ne _ hrow, rg_setR_ne _ halm,
    rg_setR_ne _ hrev, rg_setR_ne _ hring, rg_setR_ne _ hrec]

/-- Registers outside the block of the zones are none of a zone's. -/
theorem rg_zoneSet_ne (q : Nat) (pl : List Byte) {z a : Nat} (hz : z < 8) (h : a < nBase q + 0x1040 ∨ nBase q + 0x10C0 ≤ a) :
    (d.zoneSet q pl z).rg a = d.rg a := by
  have hne : a ≠ SYN_ZCFG q z ∧ a ≠ SYN_ZROWS q z ∧ a ≠ SYN_ZFIRST q z := by
    unfold SYN_ZCFG SYN_ZROWS SYN_ZFIRST
    omega
  obtain ⟨hcfg, hrows, hfirst⟩ := hne
  unfold Dev.zoneSet
  dsimp only
  rw [rg_setR_ne _ hfirst, rg_setR_ne _ hrows, rg_setR_ne _ hcfg]

theorem rg_zoneSet_rows (q : Nat) (pl : List Byte) (z y : Nat) :
    (d.zoneSet q pl y).rg (SYN_ZROWS q z) = if z = y then zoneRowsSet pl z % 65536 else d.rg (SYN_ZROWS q z) := by
  have hne : SYN_ZROWS q z ≠ SYN_ZFIRST q y ∧ SYN_ZROWS q z ≠ SYN_ZCFG q y := by
    unfold SYN_ZROWS SYN_ZFIRST SYN_ZCFG
    omega
  unfold Dev.zoneSet
  dsimp only
  rw [rg_setR_ne _ hne.1]
  by_cases hz : z = y
  · rw [if_pos hz, hz, rg_setR_same]
    omega
  · rw [if_neg hz, rg_setR_ne _ (by unfold SYN_ZROWS; omega), rg_setR_ne _ hne.2]

/-- After a walk of the zones each zone shows its rows. -/
theorem rg_zones_rows (q : Nat) (pl : List Byte) {z : Nat} : ∀ (l : List Nat) (d : Dev), z ∈ l →
    (d.forEach l (fun d z => d.zoneSet q pl z)).rg (SYN_ZROWS q z) = zoneRowsSet pl z % 65536 := by
  intro l
  induction l with
  | nil => exact fun d h => absurd h (by simp)
  | cons y r ih =>
    intro d h
    by_cases hr : z ∈ r
    · exact ih _ hr
    · obtain rfl : z = y := by simpa [hr] using h
      have hrest : ∀ (d : Dev) y, y ∈ r → (d.zoneSet q pl y).rg (SYN_ZROWS q z) = d.rg (SYN_ZROWS q z) := fun d y hy => by
        rw [rg_zoneSet_rows, if_neg (show z ≠ y from fun he => hr (he ▸ hy))]
      exact (forEach_keeps_mem (fun d => d.rg (SYN_ZROWS q z)) _ r hrest _).trans ((rg_zoneSet_rows ..).trans (if_pos rfl))

/-- Registers outside the block of the zones, and other than ALM_NCAP, read as areas and bands left them. -/
theorem rg_mapSet (q : Nat) (pl : List Byte) {a : Nat} (hz : a < nBase q + 0x1040 ∨ nBase q + 0x10C0 ≤ a) (hcap : a ≠ ALM_NCAP q) :
    (d.mapSet q pl).rg a = (d.areasSet q pl).rg a :=
  (rg_setR_ne _ hcap).trans (forEach_keeps_mem (fun e => e.rg a) _ _ (fun e _ hx => rg_zoneSet_ne e q pl (mem_upTo hx) hz) _)

theorem rg_mapSet_rows (q : Nat) (pl : List Byte) {z : Nat} (hz : z < 8) :
    (d.mapSet q pl).rg (SYN_ZROWS q z) = zoneRowsSet pl z % 65536 :=
  (rg_setR_ne _ (by unfold SYN_ZROWS ALM_NCAP; omega)).trans (rg_zones_rows q pl _ _ (by simpa [upTo] using hz))

theorem rg_mapSet_cap (q : Nat) (pl : List Byte) :
    (d.mapSet q pl).rg (ALM_NCAP q) = min 2048 (128 * pmCount pl 3) % 2 ^ 32 := rg_setR_same ..

theorem mapSet_regs (q : Nat) (pl : List Byte) : ∃ g, d.mapSet q pl = { d with regs := g } := by
  obtain ⟨g, hg⟩ := forEach_inv (fun e => ∃ g, e = { d with regs := g }) (fun d z => d.zoneSet q pl z)
    (fun e z ⟨g, hg⟩ => by subst hg; exact ⟨_, rfl⟩) (upTo 8) (d.areasSet q pl) ⟨_, rfl⟩
  unfold Dev.mapSet
  rw [hg]
  exact ⟨_, rfl⟩

/-! ### Rings and fire log -/

/-- Registers, Carillon and the bytes below `lo` are as before. -/
structure ClearsAbove (lo : Nat) (d e : Dev) : Prop where
  regs  : e.regs = d.regs
  car   : e.car = d.car
  below : ∀ a, a < lo → e.mem.read a = d.mem.read a

theorem ClearsAbove.refl (lo : Nat) : ClearsAbove lo d d := ⟨rfl, rfl, fun _ _ => rfl⟩

theorem ClearsAbove.trans {lo : Nat} {d e f : Dev} (h : ClearsAbove lo d e) (g : ClearsAbove lo e f) : ClearsAbove lo d f :=
  ⟨g.regs.trans h.regs, g.car.trans h.car, fun a ha => (g.below a ha).trans (h.below a ha)⟩

theorem ClearsAbove.rg {lo : Nat} {d e : Dev} (h : ClearsAbove lo d e) (a : Nat) : e.rg a = d.rg a := by
  unfold Dev.rg
  rw [h.regs]

theorem zeroMem_clears {lo a : Nat} (h : lo ≤ a) (b : Nat) : ClearsAbove lo d (d.zeroMem a b) := by
  refine ⟨rfl, rfl, fun x hx => ?_⟩
  have hout : ¬ (a ≤ x ∧ x < b) := by omega
  exact (SMap.get_clear 0#8 a b x d.mem).trans (if_neg hout)

theorem areaBase_inStore (q reg : Nat) : csBase q ≤ d.areaBase q reg := Nat.le_add_right ..

/-- The record of a neuron lies in its core's store. -/
theorem recAddr_inStore (q i : Nat) : csBase q ≤ d.recAddr q i :=
  Nat.le_trans (areaBase_inStore d q _) (Nat.le_add_right ..)

theorem writeRec_clears (q i x : Nat) : ClearsAbove (csBase q) d (d.writeRec q i x) := by
  have hin := recAddr_inStore d q i
  unfold Dev.writeRec
  exact ⟨wrB_regs .., wrB_car .., fun a ha => read_wrN_ne d (by omega)⟩

theorem clearInslot_clears (q i : Nat) : ClearsAbove (csBase q) d (d.clearInslot q i).2 := by
  unfold Dev.clearInslot
  dsimp only
  split
  · exact writeRec_clears ..
  · exact .refl d _

theorem clearRingArea_clears (q : Nat) : ClearsAbove (csBase q) d (d.clearRingArea q) :=
  forEach_inv (ClearsAbove (csBase q) d) _ (fun e i he => he.trans (clearInslot_clears e q i)) _ _
    (zeroMem_clears d (areaBase_inStore d q _) _)

/-- The registers of an emptied fire log. -/
def FireLogReg (q a : Nat) : Prop := a = NEU_STAT q ∨ a = HRV_STAT q ∨ a = NEU_FLHEAD q ∨ a = NEU_FLCOUNT q

theorem rg_emptyFireLog_count (q : Nat) : (d.emptyFireLog q).rg (NEU_FLCOUNT q) = 0 := rg_setR_same ..

theorem rg_emptyFireLog_ne {q a : Nat} (h : ¬ FireLogReg q a) : (d.emptyFireLog q).rg a = d.rg a := by
  unfold FireLogReg at h
  push Not at h
  obtain ⟨hstat, hharvest, hhead, hcount⟩ := h
  unfold Dev.emptyFireLog
  dsimp only
  rw [rg_setR_ne _ hcount, rg_setR_ne _ hhead, rg_setFlag_ne _ hharvest, rg_setFlag_ne _ hstat]
  rfl

/-- What a new page map leaves: the registers of the map but for those of the fire log, an empty fire log, and what lies below the
core's store. -/
theorem setPageMap_spec (q : Nat) (pl : List Byte) :
    (∀ a, ¬ FireLogReg q a → (d.setPageMap q pl).rg a = (d.mapSet q pl).rg a) ∧ (d.setPageMap q pl).rg (NEU_FLCOUNT q) = 0 ∧
      (d.setPageMap q pl).car = d.car ∧ ∀ a, a < csBase q → (d.setPageMap q pl).mem.read a = d.mem.read a := by
  obtain ⟨g, hg⟩ := mapSet_regs d q pl
  have hclear := clearRingArea_clears (d.mapSet q pl) q
  rw [setPageMap_eq]
  refine ⟨fun a ha => (rg_emptyFireLog_ne _ ha).trans (hclear.rg a), rg_emptyFireLog_count .., ?_, fun a ha => ?_⟩
  · exact hclear.car.trans (by rw [hg])
  · exact (hclear.below a ha).trans (by rw [hg])

/-! ### PAGEMAP_SET -/

theorem pagemapSet_eq {h : Hdr} {pl : List Byte} {q : Nat} (hq : NamesCore d h.part (leAt pl 0 2) q) (hidle : d.bstate h.part = 0)
    (hok : pageMapOk pl (d.ncount q) = true) (hbands : d.bandsAgree q pl = true) :
    d.pagemapSet h pl = (d.setPageMap q pl, .st .ok) := by
  have hone : leAt pl 0 2 ≠ 0xFFFF := by
    have := hq.1
    omega
  unfold Dev.pagemapSet
  simp only [if_neg hone, lcore_named hq, Except.map, hidle, hok, hbands, List.all_cons, List.all_nil, Bool.and_self, Bool.not_true,
    ne_eq, not_true_eq_false, Bool.false_eq_true, if_false]
  rfl

theorem pagemapSet_runs (s : State) {h : Hdr} {pl : List Byte} {q : Nat} (ha : Accepted s.dev cPagemapSet h pl)
    (hb : s.dev.pagemapSet h pl = (s.dev.setPageMap q pl, .st .ok)) :
    Runs (.pagemapSet h pl) s (fun e => e.rg (SYN_PMREC q) = pmArea pl 0 ∧ e.rg (SYN_PMRING q) = pmArea pl 1 ∧
      e.rg (SYN_PMREV q) = pmArea pl 2 ∧ e.rg (SYN_PMALM q) = pmArea pl 3 ∧ e.rg (SYN_PMROW q) = pmArea pl 4 ∧
      e.rg (SYN_FLBASE q) = byteAt pl 14 ∧ e.rg (SYN_BAND16 q) = leAt pl 16 2 ∧ e.rg (SYN_BAND8 q) = leAt pl 18 2 ∧
      e.rg (SYN_BAND4 q) = leAt pl 20 2 ∧ e.rg (ALM_NCAP q) = min 2048 (128 * pmCount pl 3) ∧
      (∀ z, z < 8 → e.fld (SYN_ZROWS q z) 0 16 = zoneRowsSet pl z % 2 ^ 16) ∧ e.rg (NEU_FLCOUNT q) = 0 ∧
      Answered s.dev e 0x0301 h .ok [] ∧ MemKeeps s.dev e (fun a => csBase q ≤ a)) := by
  obtain ⟨hmap, hcount, hcar, hbelow⟩ := setPageMap_spec s.dev q pl
  obtain ⟨hrec, hring, hrev, halm, hrow, hlog, h16, h8, h4⟩ := rg_areasSet s.dev q pl
  have hslot := nBase_slot q
  have hrr : (s.dev.setPageMap q pl).rg (CAR_RRCFG h.func) = s.dev.rg (CAR_RRCFG h.func) := by
    have hfunc := ha.2.1
    have hlow : CAR_RRCFG h.func < nBase q := by unfold CAR_RRCFG; omega
    rw [hmap _ (by unfold FireLogReg NEU_STAT HRV_STAT NEU_FLHEAD NEU_FLCOUNT; omega),
      rg_mapSet s.dev q pl (by omega) (by unfold ALM_NCAP; omega), rg_areasSet_ne s.dev q pl hlow]
  refine serve_runs s (exec_pagemapSet h pl) ha hb (by decide) hrr hcar (fun e hbook hans => ?_)
  have hkept : ∀ {a}, nBase q + 0x1000 ≤ a ∧ a < nBase q + 0x3000 → e.finish.rg a = (s.dev.mapSet q pl).rg a := fun {a} hplace =>
    (hbook.rg_slot (by omega)).trans (hmap a (by unfold FireLogReg NEU_STAT HRV_STAT NEU_FLHEAD NEU_FLCOUNT; omega))
  have harea : ∀ {a v}, (s.dev.areasSet q pl).rg a = v % 2 ^ 32 → v < 2 ^ 32 → nBase q + 0x1000 ≤ a ∧ a < nBase q + 0x1040 →
      e.finish.rg a = v := fun {a v} hv hlt hplace => by
    rw [hkept (by omega), rg_mapSet s.dev q pl (by omega) (by unfold ALM_NCAP; omega), hv, Nat.mod_eq_of_lt hlt]
  have hband : ∀ j, leAt pl j 2 < 2 ^ 32 := fun j => Nat.lt_of_lt_of_le (leAt_lt pl j 2) (by decide)
  refine ⟨?_, ?_, ?_, ?_, ?_, ?_, ?_, ?_, ?_, ?_, fun z hz => ?_, ?_, hans, fun a ha => ?_⟩
  · exact harea hrec (pmArea_lt pl 0) (by unfold SYN_PMREC; omega)
  · exact harea hring (pmArea_lt pl 1) (by unfold SYN_PMRING; omega)
  · exact harea hrev (pmArea_lt pl 2) (by unfold SYN_PMREV; omega)
  · exact harea halm (pmArea_lt pl 3) (by unfold SYN_PMALM; omega)
  · exact harea hrow (pmArea_lt pl 4) (by unfold SYN_PMROW; omega)
  · exact harea hlog (Nat.lt_trans (byteAt_lt pl 14) (by decide)) (by unfold SYN_FLBASE; omega)
  · exact harea h16 (hband 16) (by unfold SYN_BAND16; omega)
  · exact harea h8 (hband 18) (by unfold SYN_BAND8; omega)
  · exact harea h4 (hband 20) (by unfold SYN_BAND4; omega)
  · rw [hkept (by unfold ALM_NCAP; omega), rg_mapSet_cap, Nat.mod_eq_of_lt (by omega)]
  · unfold Dev.fld bitsOf
    rw [hkept (by unfold SYN_ZROWS; omega), rg_mapSet_rows s.dev q pl hz]
    omega
  · rw [hbook.rg_slot (by unfold NEU_FLCOUNT; omega), hcount]
  · rw [finish_mem, desk_mem hbook.desk, hbelow a (Nat.not_le.1 ha)]

/-- Settles O8: each command's registers, memory and answer, with what it leaves. -/
theorem synapseCommands : Obligations.SynapseCommands :=
  ⟨fun s _ _ _ ha hq hidle hok hbands => pagemapSet_runs s ha (pagemapSet_eq s.dev hq hidle hok hbands),
    fun s _ _ _ ha hq => pagemapRead_runs s ha hq,
    fun s _ _ _ _ _ ha hq hloc himg hlen hclean hcount happart =>
      himg ▸ rowLoad_runs s ha hlen (rowLoad_eq s.dev hq hloc hlen hclean hcount) happart,
    fun s _ _ _ _ ha hq hra hloc hcount hhdr hbody hfit => rowRead_runs s ha hq hra hloc
      (fun hsparse => ⟨(hcount hsparse).2.1, by unfold Dev.bodyBytes; rw [if_pos hsparse]; exact (hcount hsparse).2.2⟩)
      hhdr hbody hfit,
    fun s _ _ _ ha hq => synStatus_runs s ha hq,
    fun s _ _ _ ha hq => poisonList_runs s ha hq⟩

end Sys2Proof.Machine
end

section
/-! SUPPORT. A lookup of a Peal of one element: the Peal's entry and the element's are two entry reads (R189, R193, R227). -/

namespace Sys2Proof.Machine

open Sys2Proof

/-- Partition 0 owns region 0, whose core 0 stands at site 0; it has the axon entries 0 and 1 of die 0, and the core's base is 0. The
core has one fire-log entry, of neuron 0. -/
def axonCore : Dev :=
  (((((default : Dev).setR (CAL_REGPART 0) 0x80000000).setR (FAB_REMAP 0 0) 0x80000000).setR (AXN_PBASE 0 0) 0x80000000).setR
    (AXN_PLIMIT 0 0) 1).setR (AXN_CBASE 0 0) 0x80000000 |>.setR (NEU_FLCOUNT 0) 1

/-- Entry 0 is a Peal of the one entry 1; entry 1 is an OUTPUT entry. -/
def pealLookup : Dev := (axonCore.wrN (axAddr 0 0) 8 (2 * 2 ^ 60 + 1 * 2 ^ 38 + 1 * 2 ^ 28)).wrN (axAddr 0 1) 8 (5 * 2 ^ 60)

theorem pealLookup_ready : pealLookup.nextLookup 0 = some 0 ∧ pealLookup.logOf 0 = some 0 ∧ pealLookup.regPart 0 = some 0 ∧
    pealLookup.choked 0 = false ∧ pealLookup.flag (AXN_CBASE 0 0) 31 = true := by
  decide +kernel

theorem pealLookup_entry : pealLookup.inRange 0 0 (pealLookup.fld (AXN_CBASE 0 0) 0 22 + 0) = true ∧
    SMap.get 0 pealLookup.ecc (axAddr 0 (pealLookup.fld (AXN_CBASE 0 0) 0 22 + 0)) = 0 ∧
    0 = pealLookup.rdN (pealLookup.flBase 0 + 8 * 0) 2 % 32768 ∧ 0 = (pealLookup.mem.read (pealLookup.flBase 0 + 8 * 0 + 2)).toNat ∧
    0 = beatAdd 0 (beatDelta (pealLookup.rdN (pealLookup.flBase 0 + 8 * 0 + 4) 2) 0) := by
  decide +kernel

/-- The lookup reads the Peal and its element. -/
theorem pealLookup_reads : pealLookup.rg64 (AXN_LOOKUP_LO 0) = 0 ∧ (pealLookup.axonLookup 0).rg64 (AXN_LOOKUP_LO 0) = 2 := by
  decide +kernel

theorem not_follow_lookupCount : ¬ FollowReg (AXN_LOOKUP_LO 0) ∧ ¬ FollowReg (AXN_LOOKUP_LO 0 + 4) := by
  unfold FollowReg AXN_LOOKUP_LO FLT_STAT TAB_BSTAT FLT_PMUTE TAB_CHSTAT PWR_DSTAT
  omega

theorem exec_axonLookup (q : Nat) (s : State) : exec (.axonLookup q) s = s.run (·.axonLookup q) := rfl

/-- Refutes O11: its clause of AXON_LOOKUP claims one entry read of every entry, but does not say that the entry is no Peal, whose
elements are read too. -/
theorem not_axonTables : ¬ Obligations.AxonTables := by
  rintro ⟨-, -, -, -, -, hlookup, -⟩
  obtain ⟨hpos, hlog, hpart, hgoes, hbase⟩ := pealLookup_ready
  obtain ⟨hrange, hecc, hneuron, hgrade, hbeat⟩ := pealLookup_entry
  have hruns := hlookup ⟨pealLookup, []⟩ 0 0 0 0 0 0 0 0 _ (by decide) hpos hlog hpart hgoes hbase hrange hecc hneuron hgrade rfl
    hbeat rfl
  obtain ⟨hcount, -⟩ := (runs_iff (exec_axonLookup 0 _)).1 hruns
  obtain ⟨hlow, hhigh⟩ := not_follow_lookupCount
  obtain ⟨hbefore, hafter⟩ := pealLookup_reads
  have hkept : (pealLookup.axonLookup 0).finish.rg64 (AXN_LOOKUP_LO 0) = 2 :=
    (rg64_congr (rg_finish _ hlow) (rg_finish _ hhigh)).trans hafter
  have hone : (pealLookup.axonLookup 0).finish.rg64 (AXN_LOOKUP_LO 0) = wrap64 (pealLookup.rg64 (AXN_LOOKUP_LO 0)) 1 := hcount
  rw [hkept, hbefore] at hone
  exact absurd hone (by decide)

end Sys2Proof.Machine
end

section
/-! SUPPORT. READOUT_READ of no slot from an odd slot on: it touches the word that slot lies in, though it reads no byte of it (R214, R420). -/

namespace Sys2Proof.Machine

open Sys2Proof

/-- READY, with function 0's response ring enabled; partition 0 owns region 0, its readout region, whose buffers are banks 0 and 1.
The first word of the frame has a single-bit error. -/
def frameError : Dev :=
  { ((((((default : Dev).setR CAR_STAT 1).setR CAL_STAT 4).setR (CAR_RRCFG 0) 0x8000000C).setR (CAL_REGPART 0) 0x80000000).setR
      (AXN_PROUT 0 0) 0x80000000).setR (AXN_RCFG 0) 0x80000001 with
    ecc := [(cmnBase 0, 1)] }

/-- READOUT_READ with FIRST 1 and COUNT 0. -/
def readNoSlot : List Byte := leBytes 4 1 ++ leBytes 4 0

theorem frameError_accepted : Accepted frameError cReadoutRead default readNoSlot := by decide +kernel

theorem frameError_readout : frameError.readoutRegion 0 = some 0 ∧ leAt readNoSlot 0 4 = 1 ∧ leAt readNoSlot 4 4 = 0 ∧
    Fits frameError default 8 := by
  decide +kernel

/-- The read corrects the word. -/
theorem frameError_corrected : (frameError.readoutRead default readNoSlot).2 = .done .ok 0 (zeros 8) ∧
    (frameError.readoutRead default readNoSlot).1.rg (CAR_RRCFG 0) = frameError.rg (CAR_RRCFG 0) ∧
    (frameError.readoutRead default readNoSlot).1.ecc = [] := by
  decide +kernel

theorem exec_readoutRead (h : Hdr) (pl : List Byte) (s : State) :
    exec (.readoutRead h pl) s = s.run (·.serve cReadoutRead Dev.readoutRead h pl) := rfl

/-- Refutes O12: its clause of READOUT_READ asks for no error in the words of the bytes that are read; a read of no slot from an odd slot
on corrects the error of a word all the same. -/
theorem not_almanacAndReadoutCommands : ¬ Obligations.AlmanacAndReadoutCommands := by
  rintro ⟨-, -, -, -, -, hread⟩
  obtain ⟨hregion, hfirst, hnone, hfits⟩ := frameError_readout
  obtain ⟨hans, hring, hecc⟩ := frameError_corrected
  have hruns := hread ⟨frameError, []⟩ default readNoSlot 0 frameError_accepted hregion (by rw [hfirst, hnone]; decide)
    (fun k hk => by rw [hnone] at hk; omega) (by rw [hnone]; exact hfits)
  obtain ⟨-, ⟨-, -, hsame⟩, -⟩ := (runs_iff (exec_readoutRead default readNoSlot _)).1 hruns
  obtain ⟨hkeeps, -, -⟩ := serve_done frameError_accepted (Prod.ext rfl hans) hring hfits
  rw [finish_ecc, desk_ecc hkeeps.desk, hecc] at hsame
  exact absurd hsame (by decide)

end Sys2Proof.Machine
end

section
/-! SUPPORT. The registers of the host event rings: their indices, a ring enabled and disabled, and EVENT_RINGS (R217, R220, R227 to
R229, R663). -/

namespace Sys2Proof.Machine

open Sys2Proof

variable (d : Dev)

theorem exec_eventRings (h : Hdr) (pl : List Byte) (s : State) :
    exec (.eventRings h pl) s = s.run (·.serve cEventRings Dev.eventRings h pl) := rfl
theorem exec_axnIrtailWrite (f p v : Nat) (s : State) : exec (.axnIrtailWrite f p v) s = s.run (·.irtailWrite f p v) := rfl
theorem exec_axnOrtailWrite (f p v : Nat) (s : State) : exec (.axnOrtailWrite f p v) s = s.run (·.ortailWrite f p v) := rfl
theorem exec_eventRingCfgWrite (f p k v : Nat) (s : State) :
    exec (.eventRingCfgWrite f p k v) s = s.run (·.ringCfgWrite f p k v) := rfl

/-- The registers of the axon tables and of the event rings are none of the books and follow nothing. -/
theorem axnReg_plain {a : Nat} (h : 0x20000 ≤ a ∧ a < 0x40000) : ¬ BookReg a ∧ ¬ FollowReg a := by
  refine ⟨fun hb => ?_, ?_⟩
  · have := LinkReg.place (.inl hb)
    omega
  · unfold FollowReg FLT_STAT TAB_BSTAT FLT_PMUTE TAB_CHSTAT PWR_DSTAT
    omega

theorem rg_finish_axn {a : Nat} (h : 0x20000 ≤ a ∧ a < 0x40000) : d.finish.rg a = d.rg a := rg_finish d (axnReg_plain h).2

theorem BookKeeps.rg_axn {d e : Dev} (h : BookKeeps d e) {a : Nat} (ha : 0x20000 ≤ a ∧ a < 0x40000) : e.finish.rg a = d.rg a :=
  (rg_finish_axn e ha).trans (h.rg a (axnReg_plain ha).1)

/-! ### One ring: `k` is 0 for the input ring -/

def ringCfgReg (p k : Nat) : Nat := if k = 0 then AXN_IRCFG 0 p else AXN_ORCFG 0 p
def ringHeadReg (p k : Nat) : Nat := if k = 0 then AXN_IRHEAD 0 p else AXN_ORHEAD 0 p
def ringTailReg (p k : Nat) : Nat := if k = 0 then AXN_IRTAIL 0 p else AXN_ORTAIL 0 p

/-- Where the three registers of a ring lie. -/
theorem ringReg_place (p k : Nat) : ringCfgReg p k = 0x28008 + 0x20 * min k 1 + 0x40 * p ∧
    ringHeadReg p k = ringCfgReg p k + 4 ∧ ringTailReg p k = ringCfgReg p k + 8 := by
  unfold ringCfgReg ringHeadReg ringTailReg AXN_IRCFG AXN_IRHEAD AXN_IRTAIL AXN_ORCFG AXN_ORHEAD AXN_ORTAIL
  split <;> omega

/-- A register of the ring, by the ring. -/
theorem ringReg_iff {p k a : Nat} : (a = ringCfgReg p k ∨ a = ringHeadReg p k ∨ a = ringTailReg p k) ↔
    (k = 0 ∧ (a = AXN_IRCFG 0 p ∨ a = AXN_IRHEAD 0 p ∨ a = AXN_IRTAIL 0 p)) ∨
      (k ≠ 0 ∧ (a = AXN_ORCFG 0 p ∨ a = AXN_ORHEAD 0 p ∨ a = AXN_ORTAIL 0 p)) := by
  unfold ringCfgReg ringHeadReg ringTailReg
  by_cases hk : k = 0 <;> simp [hk]

theorem ringOn_eq (p k v : Nat) :
    d.ringOn p k v = ((d.setR (ringCfgReg p k) v).setR (ringHeadReg p k) 0).setR (ringTailReg p k) 0 := by
  unfold Dev.ringOn ringCfgReg ringHeadReg ringTailReg
  split <;> rfl

/-- A ring enabled: its configuration is the value, both its indices are zero. -/
theorem rg_ringOn (p k v : Nat) : (d.ringOn p k v).rg (ringCfgReg p k) = v % 2 ^ 32 ∧ (d.ringOn p k v).rg (ringHeadReg p k) = 0 ∧
    (d.ringOn p k v).rg (ringTailReg p k) = 0 := by
  obtain ⟨-, hhead, htail⟩ := ringReg_place p k
  rw [ringOn_eq]
  refine ⟨?_, ?_, rg_setR_same ..⟩
  · rw [rg_setR_ne _ (by omega), rg_setR_ne _ (by omega), rg_setR_same]
  · rw [rg_setR_ne _ (by omega), rg_setR_same, Nat.zero_mod]

theorem rg_ringOn_ne {p k a : Nat} (v : Nat) (h : ¬ (a = ringCfgReg p k ∨ a = ringHeadReg p k ∨ a = ringTailReg p k)) :
    (d.ringOn p k v).rg a = d.rg a := by
  rw [not_or, not_or] at h
  obtain ⟨hcfg, hhead, htail⟩ := h
  rw [ringOn_eq, rg_setR_ne _ htail, rg_setR_ne _ hhead, rg_setR_ne _ hcfg]

theorem ringOn_bare (p k v : Nat) : (d.ringOn p k v).bare = d.bare := by rw [ringOn_eq]; rfl

/-! ### Writes of the ring registers (R217, R220, R229) -/

/-- The ring registers of a partition belong to its function and to the physical function (R52, R227). -/
theorem ring_reached {f p : Nat} (hf : f = 0 ∨ f = p) : (f ≠ 0 && f ≠ p) = false := by obtain rfl | rfl := hf <;> simp

theorem axnIrtailWrite_runs (s : State) {f p v : Nat} (hp : p < 16) (hf : f = 0 ∨ f = p) :
    Runs (.axnIrtailWrite f p v) s (fun e => e.rg (AXN_IRTAIL 0 p) = v % 2 ^ 32 ∧ Keeps s.dev e (fun a => a = AXN_IRTAIL 0 p) ∧
      SameUnits s.dev e) := by
  rw [runs_iff (exec_axnIrtailWrite f p v s)]
  unfold Dev.irtailWrite
  rw [ring_reached hf]
  exact setR_finish s.dev (axnReg_plain (by unfold AXN_IRTAIL; omega)).2 v

theorem axnOrtailWrite_runs (s : State) {f p v : Nat} (hp : p < 16) (hf : f = 0 ∨ f = p) :
    Runs (.axnOrtailWrite f p v) s (fun e => e.rg (AXN_ORTAIL 0 p) = v % 2 ^ 32 ∧ Keeps s.dev e (fun a => a = AXN_ORTAIL 0 p) ∧
      SameUnits s.dev e) := by
  rw [runs_iff (exec_axnOrtailWrite f p v s)]
  unfold Dev.ortailWrite
  rw [ring_reached hf]
  exact setR_finish s.dev (axnReg_plain (by unfold AXN_ORTAIL; omega)).2 v

/-- A write with the enable bit to a disabled ring, of a size that is allowed. -/
theorem ringCfgWrite_enables {f p k v : Nat} (hf : f = 0 ∨ f = p) (hv : bitAt v 31 = true) (hoff : d.flag (ringCfgReg p k) 31 = false)
    (hsize : 12 ≤ v % 32 ∧ v % 32 ≤ 20) : d.ringCfgWrite f p k v = d.ringOn p k (2 ^ 31 + v % 32) := by
  have hlegal : (v % 32 < 12 || 20 < v % 32) = false := by simp; omega
  unfold ringCfgReg at hoff
  unfold Dev.ringCfgWrite Dev.ringCfg
  rw [ring_reached hf]
  simp [hoff, hlegal, hv]

/-- A write without the enable bit to an enabled ring. -/
theorem ringCfgWrite_disables {f p k v : Nat} (hf : f = 0 ∨ f = p) (hv : bitAt v 31 = false) (hon : d.flag (ringCfgReg p k) 31 = true) :
    d.ringCfgWrite f p k v = d.setFlag (ringCfgReg p k) 31 false := by
  unfold ringCfgReg at hon ⊢
  unfold Dev.ringCfgWrite Dev.ringCfg
  rw [ring_reached hf]
  simp [hon, hv]

theorem eventRingCfgWrite_enables_runs (s : State) {f p k v : Nat} (hp : p < 16) (hf : f = 0 ∨ f = p) (hv : bitAt v 31 = true)
    (hoff : s.dev.flag (ringCfgReg p k) 31 = false) (hsize : 12 ≤ v % 32 ∧ v % 32 ≤ 20) :
    Runs (.eventRingCfgWrite f p k v) s (fun e => e.rg (ringCfgReg p k) = 2 ^ 31 + v % 32 ∧ e.rg (ringHeadReg p k) = 0 ∧
      e.rg (ringTailReg p k) = 0 ∧ Keeps s.dev e (fun a => (k = 0 ∧ (a = AXN_IRCFG 0 p ∨ a = AXN_IRHEAD 0 p ∨ a = AXN_IRTAIL 0 p)) ∨
        (k ≠ 0 ∧ (a = AXN_ORCFG 0 p ∨ a = AXN_ORHEAD 0 p ∨ a = AXN_ORTAIL 0 p))) ∧ SameUnits s.dev e) := by
  obtain ⟨hplace, hhead, htail⟩ := ringReg_place p k
  obtain ⟨hcfg, hheadZero, htailZero⟩ := rg_ringOn s.dev p k (2 ^ 31 + v % 32)
  rw [runs_iff (exec_eventRingCfgWrite f p k v s), ringCfgWrite_enables _ hf hv hoff hsize]
  refine ⟨?_, ?_, ?_, regs_finish_keeps (ringOn_bare ..) (fun a ha => rg_ringOn_ne _ _ (ha ∘ ringReg_iff.1))⟩
  · rw [rg_finish_axn _ (by omega), hcfg, Nat.mod_eq_of_lt (by omega)]
  · rw [rg_finish_axn _ (by omega), hheadZero]
  · rw [rg_finish_axn _ (by omega), htailZero]

theorem eventRingCfgWrite_disables_runs (s : State) {f p k v : Nat} (hp : p < 16) (hf : f = 0 ∨ f = p) (hv : bitAt v 31 = false)
    (hon : s.dev.flag (ringCfgReg p k) 31 = true) : Runs (.eventRingCfgWrite f p k v) s (fun e =>
      e.flag (ringCfgReg p k) 31 = false ∧ Keeps s.dev e (fun a => (k = 0 ∧ a = AXN_IRCFG 0 p) ∨ (k ≠ 0 ∧ a = AXN_ORCFG 0 p)) ∧
      SameUnits s.dev e) := by
  obtain ⟨hplace, -, -⟩ := ringReg_place p k
  rw [runs_iff (exec_eventRingCfgWrite f p k v s), ringCfgWrite_disables _ hf hv hon]
  refine ⟨?_, regs_finish_keeps (setFlag_bare ..) (fun a ha => rg_setFlag_ne _ (fun he => ha ?_))⟩
  · rw [flag_congr 31 (rg_finish_axn _ (by omega)), flag_setFlag_same _ (by decide)]
  · unfold ringCfgReg at he
    by_cases hk : k = 0 <;> simpa [hk] using he

/-! ### EVENT_RINGS (R663) -/

/-- The registers of both rings of a partition that EVENT_RINGS writes. -/
def EventRingReg (p a : Nat) : Prop :=
  (AXN_IRBASE_LO 0 p ≤ a ∧ a ≤ AXN_IRTAIL 0 p) ∨ (AXN_ORBASE_LO 0 p ≤ a ∧ a ≤ AXN_ORTAIL 0 p)

/-- Both bases written. -/
def Dev.ringBases (p : Nat) (pl : List Byte) : Dev :=
  (d.set64 (AXN_IRBASE_LO 0 p) (leAt pl 0 8)).set64 (AXN_ORBASE_LO 0 p) (leAt pl 16 8)

/-- Both rings enabled from index zero, at the payload's bases and of its sizes. -/
def Dev.ringsSet (p : Nat) (pl : List Byte) : Dev :=
  ((d.ringBases p pl).ringOn p 0 (2 ^ 31 + byteAt pl 8)).ringOn p 1 (2 ^ 31 + byteAt pl 24)

theorem eventRings_eq {h : Hdr} {pl : List Byte} (hstill : d.running h.part = false) (hin : 12 ≤ byteAt pl 8 ∧ byteAt pl 8 ≤ 20)
    (hout : 12 ≤ byteAt pl 24 ∧ byteAt pl 24 ≤ 20) (hbase : leAt pl 0 8 % 4096 = 0 ∧ leAt pl 16 8 % 4096 = 0) :
    d.eventRings h pl = (d.ringsSet h.part pl, .st .ok) := by
  have hsizes : ((byteAt pl 8 < 12 || 20 < byteAt pl 8) || (byteAt pl 24 < 12 || 20 < byteAt pl 24)) = false := by simp; omega
  unfold Dev.eventRings
  simp only [hstill, hsizes, hbase.1, hbase.2]
  rfl

theorem ringsSet_bare (p : Nat) (pl : List Byte) : (d.ringsSet p pl).bare = d.bare := by
  unfold Dev.ringsSet
  rw [ringOn_bare, ringOn_bare]
  rfl

theorem ringsSet_car (p : Nat) (pl : List Byte) : (d.ringsSet p pl).car = d.car := (congrArg Dev.car (ringsSet_bare d p pl) :)

/-- The bases stand when the rings are enabled, and the input ring when the output ring is. -/
theorem rg_ringsSet_base {p a : Nat} (pl : List Byte) (h : a < AXN_IRCFG 0 p ∨ a = AXN_ORBASE_LO 0 p ∨ a = AXN_ORBASE_HI 0 p) :
    (d.ringsSet p pl).rg a = (d.ringBases p pl).rg a := by
  have hin := ringReg_place p 0
  have hout := ringReg_place p 1
  unfold AXN_IRCFG AXN_ORBASE_LO AXN_ORBASE_HI at h
  unfold Dev.ringsSet
  rw [rg_ringOn_ne _ _ (by omega), rg_ringOn_ne _ _ (by omega)]

theorem rg_ringsSet (p : Nat) (pl : List Byte) : (d.ringsSet p pl).rg64 (AXN_IRBASE_LO 0 p) = leAt pl 0 8 ∧
    (d.ringsSet p pl).rg64 (AXN_ORBASE_LO 0 p) = leAt pl 16 8 ∧ (d.ringsSet p pl).rg (AXN_IRCFG 0 p) = 2 ^ 31 + byteAt pl 8 ∧
    (d.ringsSet p pl).rg (AXN_ORCFG 0 p) = 2 ^ 31 + byteAt pl 24 ∧ (d.ringsSet p pl).rg (AXN_IRHEAD 0 p) = 0 ∧
    (d.ringsSet p pl).rg (AXN_IRTAIL 0 p) = 0 ∧ (d.ringsSet p pl).rg (AXN_ORHEAD 0 p) = 0 ∧
    (d.ringsSet p pl).rg (AXN_ORTAIL 0 p) = 0 := by
  have hbyte (j : Nat) : (2 ^ 31 + byteAt pl j) % 2 ^ 32 = 2 ^ 31 + byteAt pl j :=
    Nat.mod_eq_of_lt (by have := byteAt_lt pl j; omega)
  obtain ⟨hicfg, hihead, hitail⟩ := rg_ringOn (d.ringBases p pl) p 0 (2 ^ 31 + byteAt pl 8)
  obtain ⟨hocfg, hohead, hotail⟩ := rg_ringOn ((d.ringBases p pl).ringOn p 0 (2 ^ 31 + byteAt pl 8)) p 1 (2 ^ 31 + byteAt pl 24)
  have hinput {a : Nat} (h : a ≤ AXN_IRTAIL 0 p) : (d.ringsSet p pl).rg a =
      ((d.ringBases p pl).ringOn p 0 (2 ^ 31 + byteAt pl 8)).rg a := by
    have hout := ringReg_place p 1
    unfold AXN_IRTAIL at h
    exact rg_ringOn_ne _ _ (by omega)
  refine ⟨?_, ?_, ?_, hocfg.trans (hbyte 24), (hinput ?_).trans hihead, (hinput (Nat.le_refl _)).trans hitail, hohead, hotail⟩
  · rw [rg64_congr (rg_ringsSet_base d pl (.inl (by unfold AXN_IRCFG AXN_IRBASE_LO; omega)))
      (rg_ringsSet_base d pl (.inl (by unfold AXN_IRCFG AXN_IRBASE_LO; omega)))]
    unfold Dev.ringBases
    rw [rg64_congr (rg_set64_ne _ _ (by unfold AXN_IRBASE_LO AXN_ORBASE_LO; omega))
      (rg_set64_ne _ _ (by unfold AXN_IRBASE_LO AXN_ORBASE_LO; omega)), rg64_set64_same _ (leAt_lt pl 0 8)]
  · rw [rg64_congr (rg_ringsSet_base d pl (.inr (.inl rfl)))
      (rg_ringsSet_base d pl (.inr (.inr (by unfold AXN_ORBASE_LO AXN_ORBASE_HI; omega))))]
    exact rg64_set64_same _ (leAt_lt pl 16 8)
  · exact (hinput (by unfold AXN_IRCFG AXN_IRTAIL; omega)).trans (hicfg.trans (hbyte 8))
  · unfold AXN_IRHEAD AXN_IRTAIL
    omega

theorem rg_ringsSet_ne {p a : Nat} (pl : List Byte) (h : ¬ EventRingReg p a) : (d.ringsSet p pl).rg a = d.rg a := by
  have hin := ringReg_place p 0
  have hout := ringReg_place p 1
  unfold EventRingReg AXN_IRBASE_LO AXN_IRTAIL AXN_ORBASE_LO AXN_ORTAIL at h
  unfold Dev.ringsSet Dev.ringBases
  rw [rg_ringOn_ne _ _ (by omega), rg_ringOn_ne _ _ (by omega), rg_set64_ne _ _ (by unfold AXN_ORBASE_LO; omega),
    rg_set64_ne _ _ (by unfold AXN_IRBASE_LO; omega)]

/-- Where those registers lie. -/
theorem EventRingReg.place {p a : Nat} (hp : p < 16) (h : EventRingReg p a) : 0x20000 ≤ a ∧ a < 0x40000 := by
  unfold EventRingReg AXN_IRBASE_LO AXN_IRTAIL AXN_ORBASE_LO AXN_ORTAIL at h
  omega

/-- Each register of the two rings that a clause reads is one of them. -/
theorem eventRingReg_all (p : Nat) : EventRingReg p (AXN_IRBASE_LO 0 p) ∧ EventRingReg p (AXN_IRBASE_LO 0 p + 4) ∧
    EventRingReg p (AXN_ORBASE_LO 0 p) ∧ EventRingReg p (AXN_ORBASE_LO 0 p + 4) ∧ EventRingReg p (AXN_IRCFG 0 p) ∧
    EventRingReg p (AXN_ORCFG 0 p) ∧ EventRingReg p (AXN_IRHEAD 0 p) ∧ EventRingReg p (AXN_IRTAIL 0 p) ∧
    EventRingReg p (AXN_ORHEAD 0 p) ∧ EventRingReg p (AXN_ORTAIL 0 p) := by
  unfold EventRingReg AXN_IRBASE_LO AXN_ORBASE_LO AXN_IRCFG AXN_ORCFG AXN_IRHEAD AXN_IRTAIL AXN_ORHEAD AXN_ORTAIL
  omega

theorem eventRings_runs (s : State) {h : Hdr} {pl : List Byte} (ha : Accepted s.dev cEventRings h pl)
    (hb : s.dev.eventRings h pl = (s.dev.ringsSet h.part pl, .st .ok)) : Runs (.eventRings h pl) s (fun e =>
      e.rg64 (AXN_IRBASE_LO 0 h.part) = leAt pl 0 8 ∧ e.rg64 (AXN_ORBASE_LO 0 h.part) = leAt pl 16 8 ∧
      e.rg (AXN_IRCFG 0 h.part) = 2 ^ 31 + byteAt pl 8 ∧ e.rg (AXN_ORCFG 0 h.part) = 2 ^ 31 + byteAt pl 24 ∧
      e.rg (AXN_IRHEAD 0 h.part) = 0 ∧ e.rg (AXN_IRTAIL 0 h.part) = 0 ∧ e.rg (AXN_ORHEAD 0 h.part) = 0 ∧
      e.rg (AXN_ORTAIL 0 h.part) = 0 ∧ Answered s.dev e 0x040A h .ok [] ∧
      Keeps s.dev e (fun a => BookReg a ∨ EventRingReg h.part a) ∧ SameUnits s.dev e) := by
  have hp := accepted_part ha
  have hrr : (s.dev.ringsSet h.part pl).rg (CAR_RRCFG h.func) = s.dev.rg (CAR_RRCFG h.func) := by
    refine rg_ringsSet_ne _ _ (fun hreg => ?_)
    have hlow := (hreg.place hp).2
    exact rrcfg_ne (Nat.lt_of_lt_of_le hlow (by decide)) rfl
  refine serve_runs s (exec_eventRings h pl) ha hb (by decide) hrr (ringsSet_car ..) (fun e hbook hans => ?_)
  have hbare := ringsSet_bare s.dev h.part pl
  have hkeeps := keeps_finish (d := s.dev) (e := e) (w := fun a => BookReg a ∨ EventRingReg h.part a)
    ((desk_mem hbook.desk).trans (bare_mem hbare)) ((desk_ecc hbook.desk).trans (bare_ecc hbare))
    ((congrArg Dev.units hbook.desk :).trans (congrArg Dev.units hbare :)) (fun a hw => by
      rw [not_or] at hw
      exact (hbook.rg a hw.1).trans (rg_ringsSet_ne _ _ hw.2))
  have hkept {a : Nat} (hreg : EventRingReg h.part a) : e.finish.rg a = (s.dev.ringsSet h.part pl).rg a :=
    hbook.rg_axn (hreg.place hp)
  obtain ⟨hibase, hobase, hicfg, hocfg, hihead, hitail, hohead, hotail⟩ := rg_ringsSet s.dev h.part pl
  obtain ⟨ri, ri', ro, ro', rci, rco, rhi, rti, rho, rto⟩ := eventRingReg_all h.part
  exact ⟨(rg64_congr (hkept ri) (hkept ri')).trans hibase, (rg64_congr (hkept ro) (hkept ro')).trans hobase,
    (hkept rci).trans hicfg, (hkept rco).trans hocfg, (hkept rhi).trans hihead, (hkept rti).trans hitail, (hkept rho).trans hohead,
    (hkept rto).trans hotail, hans, hkeeps⟩

end Sys2Proof.Machine
end

section
/-! SUPPORT. Records of the host's input ring: where the router packs an event of its own device, and what an input record does there
(R217 to R219, R237). -/

namespace Sys2Proof.Machine

open Sys2Proof

variable (d : Dev)

theorem exec_inputRecord (p : Nat) (rec : List Byte) (s : State) : exec (.inputRecord p rec) s = s.run (·.inputRecord p rec) := rfl

/-! ### Packets for this device (R237) -/

/-- The registers that count what goes over the die bridge from die `die`, or is discarded there (R279). -/
def CrossReg (die a : Nat) : Prop := a = FAB_BRFLIT_LO die ∨ a = FAB_BRFLIT_HI die ∨ a = FAB_PDISC die 0

/-- The device without its registers, the sent counts, the packets being filled and the records on their way. -/
def Dev.unpacked : Dev := { d with regs := [], sent := [], packs := [], net := [] }

/-- What packing a record for this device on die `die` leaves as it was. -/
structure PackKeeps (die : Nat) (d e : Dev) : Prop where
  unpacked : e.unpacked = d.unpacked
  rg       : ∀ a, ¬ CrossReg die a → e.rg a = d.rg a

theorem PackKeeps.trans {a b c : Dev} {die : Nat} (h : PackKeeps die a b) (g : PackKeeps die b c) : PackKeeps die a c :=
  ⟨g.unpacked.trans h.unpacked, fun x hx => (g.rg x hx).trans (h.rg x hx)⟩

theorem PackKeeps.packs (die : Nat) (l : List Pack) : PackKeeps die d { d with packs := l } := ⟨rfl, fun _ _ => rfl⟩

theorem PackKeeps.net (die : Nat) (l : List Event) : PackKeeps die d { d with net := l } := ⟨rfl, fun _ _ => rfl⟩

theorem PackKeeps.addSent (die point beat k : Nat) : PackKeeps die d (d.addSent point beat k) := ⟨rfl, fun _ _ => rfl⟩

theorem PackKeeps.mem {d e : Dev} {die : Nat} (h : PackKeeps die d e) : e.mem = d.mem := (congrArg Dev.mem h.unpacked :)
theorem PackKeeps.ecc {d e : Dev} {die : Nat} (h : PackKeeps die d e) : e.ecc = d.ecc := (congrArg Dev.ecc h.unpacked :)
theorem PackKeeps.units {d e : Dev} {die : Nat} (h : PackKeeps die d e) : e.units = d.units := (congrArg Dev.units h.unpacked :)

/-- A packet for this device passes its records on, over the bridge where their region is on the other die, or is lost there. -/
theorem sendPack_home {x : Pack} (hdev : x.dev = d.devId) : PackKeeps (routerDie x.router) d (d.sendPack x) := by
  unfold Dev.sendPack
  dsimp only
  rw [if_pos hdev]
  split
  · exact ⟨rfl, fun a ha => rg_bump_ne _ (fun he => ha (.inr (.inr he)))⟩
  · split
    · exact .net d _ _
    · refine PackKeeps.trans ⟨?_, fun a ha => rg_bump64_ne _ _ ⟨fun he => ha (.inl he), fun he => ha (.inr (.inl he))⟩⟩ (.net _ _ _)
      obtain ⟨g, hg⟩ := bump64_regs_only d (FAB_BRFLIT_LO (routerDie x.router)) (1 + ceilDiv (8 * (x.evs.map Event.words).sum) 64)
      rw [hg]
      rfl

/-- The packet that takes a record is its router's and goes to its device. -/
theorem takes_at {x : Pack} {router dev : Nat} {e : Event} (h : x.takes router dev e = true) : x.router = router ∧ x.dev = dev := by
  unfold Pack.takes at h
  simp only [Bool.and_eq_true, beq_iff_eq] at h
  exact ⟨h.1.1.1.1, h.1.1.1.2⟩

theorem packEvent_home (router : Nat) (e : Event) : PackKeeps (routerDie router) d (d.packEvent router d.devId e) := by
  unfold Dev.packEvent
  dsimp only
  split
  · exact .packs d _ _
  next x hx =>
    obtain ⟨hrouter, hdev⟩ := takes_at (by simpa using List.find?_some hx)
    have hsend (l : List Pack) (y : Pack) (hy : y.router = x.router ∧ y.dev = x.dev) :
        PackKeeps (routerDie router) d ({ d with packs := l }.sendPack y) := by
      rw [← hrouter, ← hy.1]
      exact (PackKeeps.packs d _ l).trans (sendPack_home _ (hy.2.trans hdev))
    split
    · exact (hsend _ x ⟨rfl, rfl⟩).trans (.packs _ _ _)
    · split
      · exact hsend _ _ ⟨rfl, rfl⟩
      · exact .packs d _ _

/-! ### A record at the ingress router (R218, R219) -/

/-- The beat in which the router of region `r` sends an input record: the next one once every usable core has reported FINAL. -/
def Dev.ingressBeat (r : Nat) : Nat :=
  if d.coresOf r ≠ [] ∧ d.allFinalAt r (d.region r).beat = true then ((d.region r).beat + 1) % 2 ^ 48 else (d.region r).beat

/-- An input record at the ingress router: a NOP does nothing, a bad one is refused, any other is packed for this device. -/
theorem ingest_spec (r p : Nat) (rec : List Byte) :
    (bitAt (byteAt rec 14) 1 = true → d.ingest r p rec = (d, true)) ∧
    (bitAt (byteAt rec 14) 1 = false → d.inputBad p rec (d.ingressBeat r) = true → d.ingest r p rec = (d, false)) ∧
    (bitAt (byteAt rec 14) 1 = false → d.inputBad p rec (d.ingressBeat r) = false → ∃ e n,
      d.ingest r p rec = ((d.addSent (256 + r) n 1).packEvent (16 + r) d.devId e, true)) := by
  have hbeat : (if (! (d.coresOf r).isEmpty && d.allFinalAt r (d.region r).beat) = true then ((d.region r).beat + 1) % 2 ^ 48
      else (d.region r).beat) = d.ingressBeat r := by
    unfold Dev.ingressBeat
    simp only [Bool.and_eq_true, Bool.not_eq_true', List.isEmpty_eq_false_iff]
  unfold Dev.ingest
  dsimp only
  rw [hbeat]
  refine ⟨fun hnop => if_pos hnop, fun hsent hbad => ?_, fun hsent hgood => ?_⟩
  · rw [if_neg (by rw [hsent]; decide), if_pos hbad]
  · rw [if_neg (by rw [hsent]; decide), if_neg (by rw [hgood]; decide)]
    exact ⟨_, _, rfl⟩

/-- The cores of a region and their reports do not hang on the registers below the slots. -/
theorem Aside.ingressBeat {d e : Dev} (h : Aside d e) (r : Nat) : e.ingressBeat r = d.ingressBeat r := by
  have hcores : e.coresOf r = d.coresOf r := by
    unfold Dev.coresOf
    simp only [h.physOf]
  unfold Dev.ingressBeat Dev.allFinalAt
  simp only [hcores, h.core, h.region]

theorem inputBad_congr {d e : Dev} {p : Nat} (hread : e.rg (AXN_PROUT 0 p) = d.rg (AXN_PROUT 0 p))
    (hpart : ∀ r, e.rg (CAL_REGPART r) = d.rg (CAL_REGPART r)) (rec : List Byte) (n : Nat) :
    e.inputBad p rec n = d.inputBad p rec n := by
  have howns (r : Nat) : e.owns p r = d.owns p r := by unfold Dev.owns; rw [regPart_congr (hpart r)]
  have hregion : e.readoutRegion p = d.readoutRegion p := by
    unfold Dev.readoutRegion
    rw [flag_congr 31 hread, fld_congr 0 4 hread]
  unfold Dev.inputBad
  simp only [howns, hregion]

/-! ### INPUT_RECORD (R217 to R219) -/

/-- The device with the consumer index of the input ring moved past one record. -/
def Dev.inputTaken (p : Nat) : Dev := d.setR (AXN_IRHEAD 0 p) (d.rg (AXN_IRHEAD 0 p) + 1)

/-- What becomes of the record at the router of region `r`: a refused one is counted as rejected. -/
def Dev.inputDone (r p : Nat) (rec : List Byte) : Dev :=
  if ((d.inputTaken p).ingest r p rec).2 then ((d.inputTaken p).ingest r p rec).1
  else ((d.inputTaken p).ingest r p rec).1.bump (AXN_INREJ 0 p) 1

theorem inputRecord_eq {p r : Nat} (rec : List Byte) (hon : d.flag (AXN_IRCFG 0 p) 31 = true ∧ d.flag (PCI_DMACFG (2 * p)) 31 = true)
    (hsome : d.rg (AXN_IRHEAD 0 p) ≠ d.rg (AXN_IRTAIL 0 p)) (hrun : d.bstate p = 1) (hd3 : p = 0 → d.d3hot = false)
    (hr : (d.regionsOf p).head? = some r) : d.inputRecord p rec = d.inputDone r p rec := by
  obtain ⟨rest, hregions⟩ := List.head?_eq_some_iff.1 hr
  have hhot : (p = 0 && d.d3hot) = false := by
    by_cases hp : p = 0
    · simp [hp, hd3 hp]
    · simp [hp]
  unfold Dev.inputRecord
  simp only [hon.1, hon.2, hsome, hrun, hhot, hregions]
  rfl

section
variable {d} (p : Nat)

theorem inputTaken_head : (d.inputTaken p).rg (AXN_IRHEAD 0 p) = (d.rg (AXN_IRHEAD 0 p) + 1) % 2 ^ 32 := rg_setR_same ..

theorem rg_inputTaken_ne {a : Nat} (h : a ≠ AXN_IRHEAD 0 p) : (d.inputTaken p).rg a = d.rg a := rg_setR_ne d h

theorem inputTaken_inputBad (hp : p < 16) (r : Nat) (rec : List Byte) :
    (d.inputTaken p).inputBad p rec ((d.inputTaken p).ingressBeat r) = d.inputBad p rec (d.ingressBeat r) := by
  have haside : Aside d (d.inputTaken p) := ⟨rfl, fun a ha => rg_inputTaken_ne p (by unfold AXN_IRHEAD; omega)⟩
  rw [haside.ingressBeat]
  exact inputBad_congr (rg_inputTaken_ne p (by unfold AXN_PROUT AXN_IRHEAD; omega))
    (fun r => rg_inputTaken_ne p (by unfold CAL_REGPART AXN_IRHEAD; omega)) rec _

end

/-- What an input record does to the device: memory and units as before, the index moved, and a rejected record counted. -/
theorem inputDone_spec {p : Nat} (r : Nat) (rec : List Byte) (hp : p < 16) :
    (d.inputDone r p rec).mem = d.mem ∧ (d.inputDone r p rec).ecc = d.ecc ∧ (d.inputDone r p rec).units = d.units ∧
    (d.inputDone r p rec).rg (AXN_INREJ 0 p) = (if bitAt (byteAt rec 14) 1 = false ∧ d.inputBad p rec (d.ingressBeat r) = true
      then satInc (d.rg (AXN_INREJ 0 p)) 1 % 2 ^ 32 else d.rg (AXN_INREJ 0 p)) ∧
    ∀ a, a ≠ AXN_INREJ 0 p → ¬ CrossReg (dieOf r) a → (d.inputDone r p rec).rg a = (d.inputTaken p).rg a := by
  obtain ⟨hnop, hbad, hgood⟩ := ingest_spec (d.inputTaken p) r p rec
  rw [inputTaken_inputBad p hp] at hbad hgood
  have hrej : (d.inputTaken p).rg (AXN_INREJ 0 p) = d.rg (AXN_INREJ 0 p) := rg_inputTaken_ne p (by unfold AXN_INREJ AXN_IRHEAD; omega)
  unfold Dev.inputDone
  cases hflag : bitAt (byteAt rec 14) 1 with
  | true =>
    rw [hnop hflag]
    exact ⟨rfl, rfl, rfl, by simpa using hrej, fun _ _ _ => rfl⟩
  | false =>
    cases hb : d.inputBad p rec (d.ingressBeat r) with
    | true =>
      rw [hbad hflag hb]
      exact ⟨rfl, rfl, rfl, by simp [hrej], fun a ha _ => rg_bump_ne _ ha⟩
    | false =>
      obtain ⟨e, n, hsent⟩ := hgood hflag hb
      have hpack : PackKeeps (dieOf r) (d.inputTaken p) ((d.inputTaken p).ingest r p rec).1 := by
        have hdie : routerDie (16 + r) = dieOf r := by simp [routerDie]
        rw [hsent, ← hdie]
        exact (PackKeeps.addSent _ _ (256 + r) n 1).trans (packEvent_home _ (16 + r) e)
      have hcross : ¬ CrossReg (dieOf r) (AXN_INREJ 0 p) := by
        unfold CrossReg AXN_INREJ FAB_BRFLIT_LO FAB_BRFLIT_HI FAB_PDISC
        omega
      rw [if_pos (by rw [hsent])]
      exact ⟨hpack.mem, hpack.ecc, hpack.units, by simpa using (hpack.rg _ hcross).trans hrej, fun a _ ha => hpack.rg a ha⟩

theorem inputRecord_runs (s : State) {p r n : Nat} (rec : List Byte) (hp : p < 16)
    (hon : s.dev.flag (AXN_IRCFG 0 p) 31 = true ∧ s.dev.flag (PCI_DMACFG (2 * p)) 31 = true)
    (hsome : s.dev.rg (AXN_IRHEAD 0 p) ≠ s.dev.rg (AXN_IRTAIL 0 p)) (hrun : s.dev.bstate p = 1) (hd3 : p = 0 → s.dev.d3hot = false)
    (hr : (s.dev.regionsOf p).head? = some r) (hn : n = s.dev.ingressBeat r) : Runs (.inputRecord p rec) s (fun e =>
      e.rg (AXN_IRHEAD 0 p) = (s.dev.rg (AXN_IRHEAD 0 p) + 1) % 2 ^ 32 ∧
      e.rg (AXN_INREJ 0 p) = (if bitAt (byteAt rec 14) 1 = false ∧ s.dev.inputBad p rec n = true
        then satInc (s.dev.rg (AXN_INREJ 0 p)) 1 % 2 ^ 32 else s.dev.rg (AXN_INREJ 0 p)) ∧
      RegKeeps s.dev e (fun a => a = AXN_IRHEAD 0 p ∨ a = AXN_INREJ 0 p ∨ CrossReg (dieOf r) a) ∧
      SameMem s.dev e ∧ SameUnits s.dev e) := by
  obtain ⟨hmem, hecc, hunits, hrej, hregs⟩ := inputDone_spec s.dev r rec hp
  obtain ⟨⟨hkept, hsame, -⟩, hunit⟩ := keeps_finish (w := fun a => a = AXN_IRHEAD 0 p ∨ a = AXN_INREJ 0 p ∨ CrossReg (dieOf r) a)
    hmem hecc hunits (fun a ha => by
      rw [not_or, not_or] at ha
      obtain ⟨hhead, hrej, hcross⟩ := ha
      exact (hregs a hrej hcross).trans (rg_inputTaken_ne p hhead))
  have hhead : AXN_IRHEAD 0 p ≠ AXN_INREJ 0 p ∧ ¬ CrossReg (dieOf r) (AXN_IRHEAD 0 p) := by
    unfold CrossReg AXN_IRHEAD AXN_INREJ FAB_BRFLIT_LO FAB_BRFLIT_HI FAB_PDISC
    omega
  rw [runs_iff (exec_inputRecord p rec s), hn, inputRecord_eq s.dev rec hon hsome hrun hd3 hr]
  refine ⟨?_, ?_, hkept, hsame, hunit⟩
  · rw [rg_finish_axn _ (by unfold AXN_IRHEAD; omega), hregs _ hhead.1 hhead.2, inputTaken_head]
  · rw [rg_finish_axn _ (by unfold AXN_INREJ; omega), hrej]

end Sys2Proof.Machine
end

section
/-! SUPPORT. Records of the host's output ring: a SPIKE written or dropped, a LOST record, and the family's statement (R220 to R222). -/

namespace Sys2Proof.Machine

open Sys2Proof

variable (d : Dev)

theorem exec_outputRecordWrite (p : Nat) (s : State) : exec (.outputRecordWrite p) s = s.run (·.outputRecord p) := rfl

/-! ### The count of a copy filed (R60, R71) -/

/-- A count of one copy filed writes registers and filed counts alone. -/
theorem file_regs_filed (p point b : Nat) : ∃ g f, d.file p point b = { d with regs := g, filed := f } := by
  have hcount : ∃ g, (if d.flag (OBS_PCTL p) 0 then d else d.count64 (OBS_PFILED_LO p) 1) = { d with regs := g } := by
    split <;> exact ⟨_, rfl⟩
  unfold Dev.file
  dsimp only
  obtain ⟨g, hg⟩ := hcount
  rw [hg]
  split <;> exact ⟨_, _, rfl⟩

/-- A count of one copy filed leaves the registers of the axon tables and event rings. -/
theorem rg_file_axn {p a : Nat} (hp : p < 16) (point b : Nat) (ha : 0x20000 ≤ a ∧ a < 0x40000) : (d.file p point b).rg a = d.rg a := by
  have hcount : (if d.flag (OBS_PCTL p) 0 then d else d.count64 (OBS_PFILED_LO p) 1).rg a = d.rg a := by
    split
    · rfl
    · exact rg_count64_ne d 1 (by unfold OBS_PFILED_LO; omega)
  unfold Dev.file
  dsimp only
  generalize (if d.flag (OBS_PCTL p) 0 then d else d.count64 (OBS_PFILED_LO p) 1) = c at hcount ⊢
  refine Eq.trans ?_ hcount
  split
  · rfl
  · exact (rg_setFlag_ne _ (by unfold TAB_BSTAT; omega)).trans (rg_bump_ne _ (by unfold TAB_LATEFILE; omega))

/-- What the count of a SPIKE leaves as it was. -/
structure SpikeCounted (d e : Dev) : Prop where
  mem   : e.mem = d.mem
  parts : e.parts = d.parts
  out   : e.out = d.out
  rg    : ∀ a, 0x20000 ≤ a ∧ a < 0x40000 → e.rg a = d.rg a

theorem fileSpike_counted {p : Nat} (hp : p < 16) (r eb : Nat) : SpikeCounted d (d.fileSpike p r eb) := by
  unfold Dev.fileSpike
  dsimp only
  generalize beatAdd (d.beat p) (beatDelta eb (d.beat p)) = beat
  obtain ⟨g, f, h⟩ := file_regs_filed d p (256 + r) beat
  exact ⟨(congrArg Dev.mem h :), (congrArg Dev.parts h :), (congrArg Dev.out h :), fun a ha => rg_file_axn d hp _ _ ha⟩

/-! ### Records written and dropped (R220, R221) -/

/-- The address in host memory at which the next output record lies. -/
def Dev.outputAddr (p : Nat) : Nat :=
  d.rg (AXN_ORBASE_LO 0 p) / 4096 * 4096 + 2 ^ 32 * d.rg (AXN_ORBASE_HI 0 p) + 16 * (d.rg (AXN_ORHEAD 0 p) % d.orSize p)

theorem orWrite_eq (p : Nat) (l : List Byte) : d.orWrite p l =
    (d.emit (.hostWrite (d.requester p) (d.outputAddr p) l)).setR (AXN_ORHEAD 0 p) (d.rg (AXN_ORHEAD 0 p) + l.length / 16) := rfl

theorem rg_orWrite (p : Nat) (l : List Byte) :
    (d.orWrite p l).rg (AXN_ORHEAD 0 p) = (d.rg (AXN_ORHEAD 0 p) + l.length / 16) % 2 ^ 32 := rg_setR_same ..

theorem rg_orWrite_ne {p a : Nat} (l : List Byte) (h : a ≠ AXN_ORHEAD 0 p) : (d.orWrite p l).rg a = d.rg a :=
  rg_setR_ne (d.emit (.hostWrite (d.requester p) (d.outputAddr p) l)) h

theorem orWrite_out (p : Nat) (l : List Byte) : Output.hostWrite (d.requester p) (d.outputAddr p) l ∈ (d.orWrite p l).out := by
  rw [orWrite_eq, setR_out]
  exact List.mem_append_right _ (List.mem_singleton.2 rfl)

theorem beat_setPart (p q : Nat) (x : Part) : (d.setPart p x).beat q = d.beat q := rfl

/-- The output queue of a partition moves while its D3hot state lets it. -/
theorem output_goes {p : Nat} (hd3 : p = 0 → d.d3hot = false) : (p = 0 && d.d3hot) = false := by
  by_cases hp : p = 0
  · simp [hp, hd3 hp]
  · simp [hp]

section
variable {d} {p eb r : Nat} {b : List Byte} {rest : List OutRec} (hd3 : p = 0 → d.d3hot = false)
  (hlost : (d.part p).lost = 0 ∨ d.orFree p = 0) (hq : (d.part p).outq = .spike b eb r :: rest)
include hd3 hlost hq

/-- A SPIKE goes: written where 5 records are free, else dropped; either way it is counted as filed. -/
theorem outputRecord_spike : d.outputRecord p =
    if 5 ≤ d.orFree p then
      (((d.setPart p { d.part p with outq := rest }).setPart p { d.part p with
        outq := rest
        spikes := SMap.set 0 (d.part p).spikes (beatAdd (d.beat p) (beatDelta eb (d.beat p)))
          (SMap.get 0 (d.part p).spikes (beatAdd (d.beat p) (beatDelta eb (d.beat p))) + 1) }).orWrite p b).fileSpike p r eb
    else ((d.setPart p { d.part p with outq := rest }).orDrop p (beatAdd (d.beat p) (beatDelta eb (d.beat p)))).fileSpike p r eb := by
  have hfirst : (0 < (d.part p).lost && 1 ≤ d.orFree p) = false := by
    obtain h | h := hlost <;> simp [h]
  unfold Dev.outputRecord
  simp only [output_goes d hd3, hfirst, hq, beat_setPart, part_setPart, if_true, Bool.false_eq_true, if_false]

theorem outputRecord_written (hroom : 5 ≤ d.orFree p) : ∃ c : Dev, d.outputRecord p = (c.orWrite p b).fileSpike p r eb ∧
    c.mem = d.mem ∧ (∀ a, c.rg a = d.rg a) ∧ c.requester p = d.requester p ∧ (c.part p).outq = rest ∧
    (c.part p).lost = (d.part p).lost := by
  refine ⟨_, (outputRecord_spike hd3 hlost hq).trans (if_pos hroom), rfl, fun _ => rfl, rfl, ?_, ?_⟩ <;>
    rw [part_setPart, if_pos rfl]

theorem outputRecord_dropped (hroom : ¬ 5 ≤ d.orFree p) : ∃ c : Dev,
    d.outputRecord p = (c.bump (ALM_ODROP 0 p) 1).fileSpike p r eb ∧ c.mem = d.mem ∧ (∀ a, c.rg a = d.rg a) ∧
    (c.part p).outq = rest ∧ (c.part p).lost = satInc (d.part p).lost 1 := by
  refine ⟨_, (outputRecord_spike hd3 hlost hq).trans (if_neg hroom), rfl, fun _ => rfl, ?_, ?_⟩ <;>
    simp only [part_setPart, if_true]

end

/-- OUTPUT_RECORD_WRITE of a SPIKE. -/
theorem outputRecordWrite_spike_runs (s : State) {p eb r : Nat} {b : List Byte} {rest : List OutRec} (hp : p < 16)
    (hd3 : p = 0 → s.dev.d3hot = false) (hlost : (s.dev.part p).lost = 0 ∨ s.dev.orFree p = 0)
    (hq : (s.dev.part p).outq = .spike b eb r :: rest) : Runs (.outputRecordWrite p) s (fun e => (e.part p).outq = rest ∧
      e.rg (AXN_ORHEAD 0 p) = (if 5 ≤ s.dev.orFree p then (s.dev.rg (AXN_ORHEAD 0 p) + b.length / 16) % 2 ^ 32
        else s.dev.rg (AXN_ORHEAD 0 p)) ∧
      e.rg (ALM_ODROP 0 p) = (if 5 ≤ s.dev.orFree p then s.dev.rg (ALM_ODROP 0 p)
        else satInc (s.dev.rg (ALM_ODROP 0 p)) 1 % 2 ^ 32) ∧
      (e.part p).lost = (if 5 ≤ s.dev.orFree p then (s.dev.part p).lost else satInc (s.dev.part p).lost 1) ∧
      (5 ≤ s.dev.orFree p → Output.hostWrite (s.dev.requester p) (s.dev.outputAddr p) b ∈ e.out) ∧ SameMem s.dev e) := by
  have hhead : 0x20000 ≤ AXN_ORHEAD 0 p ∧ AXN_ORHEAD 0 p < 0x40000 := by unfold AXN_ORHEAD; omega
  have hdrop : 0x20000 ≤ ALM_ODROP 0 p ∧ ALM_ODROP 0 p < 0x40000 := by unfold ALM_ODROP; omega
  have hne : ALM_ODROP 0 p ≠ AXN_ORHEAD 0 p := by unfold ALM_ODROP AXN_ORHEAD; omega
  rw [runs_iff (exec_outputRecordWrite p s)]
  unfold SameMem
  simp only [finish_part, finish_out, finish_mem, rg_finish_axn _ hhead, rg_finish_axn _ hdrop]
  by_cases hroom : 5 ≤ s.dev.orFree p
  · obtain ⟨c, heq, hmem, hregs, hreq, hrest, hkept⟩ := outputRecord_written hd3 hlost hq hroom
    have hcount := fileSpike_counted (c.orWrite p b) hp r eb
    have hpart : (s.dev.outputRecord p).part p = c.part p := by unfold Dev.part; rw [heq, hcount.parts]; rfl
    have haddr : c.outputAddr p = s.dev.outputAddr p := by unfold Dev.outputAddr Dev.orSize Dev.fld; simp only [hregs]
    simp only [if_pos hroom]
    refine ⟨by rw [hpart, hrest], ?_, ?_, by rw [hpart, hkept], fun _ => ?_, fun a => by rw [heq, hcount.mem, ← hmem]; rfl⟩
    · rw [heq, hcount.rg _ hhead, rg_orWrite, hregs]
    · rw [heq, hcount.rg _ hdrop, rg_orWrite_ne _ _ hne, hregs]
    · rw [heq, hcount.out, ← hreq, ← haddr]
      exact orWrite_out c p b
  · obtain ⟨c, heq, hmem, hregs, hrest, hmore⟩ := outputRecord_dropped hd3 hlost hq hroom
    have hcount := fileSpike_counted (c.bump (ALM_ODROP 0 p) 1) hp r eb
    have hpart : (s.dev.outputRecord p).part p = c.part p := by unfold Dev.part; rw [heq, hcount.parts]; rfl
    simp only [if_neg hroom]
    refine ⟨by rw [hpart, hrest], ?_, ?_, by rw [hpart, hmore], fun h => absurd h hroom, fun a => by
      rw [heq, hcount.mem, ← hmem]; rfl⟩
    · rw [heq, hcount.rg _ hhead, rg_bump_ne _ hne.symm, hregs]
    · rw [heq, hcount.rg _ hdrop, rg_bump_same, hregs]

/-! ### The LOST record (R221, R222) -/

def Dev.lostRec (p : Nat) : List Byte :=
  leBytes 1 6 ++ zeros 3 ++ leBytes 4 (d.part p).lost ++ leBytes 6 (d.part p).lostBeat ++ zeros 2

theorem length_lostRec (p : Nat) : (d.lostRec p).length = 16 := by simp [Dev.lostRec, length_leBytes, zeros]

theorem outputRecord_lost {p : Nat} (hd3 : p = 0 → d.d3hot = false) (hlost : 0 < (d.part p).lost) (hroom : 1 ≤ d.orFree p) :
    d.outputRecord p = (d.setPart p { d.part p with lost := 0 }).orWrite p (d.lostRec p) := by
  unfold Dev.outputRecord
  simp only [output_goes d hd3, hlost, hroom]
  rfl

theorem outputRecordWrite_lost_runs (s : State) {p : Nat} (hp : p < 16) (hd3 : p = 0 → s.dev.d3hot = false)
    (hlost : 0 < (s.dev.part p).lost) (hroom : 1 ≤ s.dev.orFree p) : Runs (.outputRecordWrite p) s (fun e =>
      (e.part p).outq = (s.dev.part p).outq ∧ (e.part p).lost = 0 ∧
      e.rg (AXN_ORHEAD 0 p) = (s.dev.rg (AXN_ORHEAD 0 p) + 1) % 2 ^ 32 ∧ Keeps s.dev e (fun a => a = AXN_ORHEAD 0 p)) := by
  have hpart : ((s.dev.setPart p { s.dev.part p with lost := 0 }).orWrite p (s.dev.lostRec p)).part p =
      { s.dev.part p with lost := 0 } := (part_setPart ..).trans (if_pos rfl)
  rw [runs_iff (exec_outputRecordWrite p s), outputRecord_lost _ hd3 hlost hroom]
  refine ⟨?_, ?_, ?_, fun a ha hf => ?_, fun a => ?_, ?_⟩
  · rw [finish_part, hpart]
  · rw [finish_part, hpart]
  · rw [rg_finish_axn _ (by unfold AXN_ORHEAD; omega), rg_orWrite, length_lostRec, setPart_rg]
  · rw [rg_finish _ hf, rg_orWrite_ne _ _ ha, setPart_rg]
  · rw [finish_mem]; rfl
  · rw [finish_ecc]; rfl

/-- Settles O14: the ring registers as the command and the writes leave them, and what one record of each ring does. -/
theorem hostEventRings : Obligations.HostEventRings :=
  ⟨fun s _ _ ha hstill hin hout hbase => eventRings_runs s ha (eventRings_eq s.dev hstill hin hout hbase),
    fun s _ _ _ hp hf => axnIrtailWrite_runs s hp hf,
    fun s _ _ _ hp hf => axnOrtailWrite_runs s hp hf,
    fun s _ _ _ _ hp hf _ hv hoff hsize => eventRingCfgWrite_enables_runs s hp hf hv hoff hsize,
    fun s _ _ _ _ hp hf _ hv hon => eventRingCfgWrite_disables_runs s hp hf hv hon,
    fun s _ _ _ rec hp hon hsome hrun hd3 hr hn => inputRecord_runs s rec hp hon hsome hrun hd3 hr hn,
    fun s _ _ _ _ _ hp hd3 hlost hq => outputRecordWrite_spike_runs s hp hd3 hlost hq,
    fun s _ hp hd3 hlost hroom => outputRecordWrite_lost_runs s hp hd3 hlost hroom⟩

end Sys2Proof.Machine
end

section
/-! SUPPORT. A word on the plane longer than the 16 lanes of a word, which runs past the end of the T-core's buffer (R274, R275, R390). -/

namespace Sys2Proof.Machine

open Sys2Proof

/-- Partition 0 owns region 0, whose plane runs: in slot 0 its node passes what comes by N on to the T-core, whose write pointer stands
at the last word of its buffer. -/
def passToT : Dev :=
  (((((default : Dev).setR (CAL_REGPART 0) 0x80000000).setR (FAB_SCTL 0) 0x80000000).setR (FAB_RUD 0 1) 0x41).setR (TCR_PLWR 0) 32767)

/-- The word that comes by N has 17 lanes. -/
def longWord : Dev :=
  passToT.setRegion 0 { (default : Region) with plIn := [{ due := 0, src := 1, err := false, lanes := List.replicate 17 1 }] }

/-- The 17th lane lands in the first byte past the buffer. -/
theorem longWord_past : (longWord.planeSlot 0).mem.read (tcBase 0 + 0x200000) = 1#8 ∧ longWord.mem.read (tcBase 0 + 0x200000) = 0#8 := by
  decide +kernel

/-- That byte lies in no buffer and no bank 15 of a region of partition 0, which owns region 0 alone. -/
theorem past_outside : ¬ ∃ r, r < 16 ∧ longWord.regPart r = some 0 ∧ (InBuffer r (tcBase 0 + 0x200000) ∨
    (cmnBase r + 15 * 0x40000 ≤ tcBase 0 + 0x200000 ∧ tcBase 0 + 0x200000 < cmnBase r + 0x400000)) := by
  have hone : ∀ r, r < 16 → longWord.regPart r = some 0 → r = 0 := by decide +kernel
  rintro ⟨r, hr, howner, hin⟩
  obtain rfl := hone r hr howner
  unfold InBuffer tcBase cmnBase at hin
  omega

theorem exec_planeSlot (p : Nat) (s : State) : exec (.planeSlot p) s = s.run (·.planeSlot p) := rfl

/-- Refutes O18: its clause of what a PLANE_SLOT writes leaves the length of the words under way unbounded, so one of 17 lanes runs past
the end of the T-core's buffer. -/
theorem not_rudimentAndPlane : ¬ Obligations.RudimentAndPlane := by
  rintro ⟨-, -, -, -, hwrites⟩
  obtain ⟨hnew, hold⟩ := longWord_past
  have hkeeps := (runs_iff (exec_planeSlot _ _)).1 (hwrites ⟨longWord, []⟩ 0 (by decide) rfl)
  have hsame := hkeeps (tcBase 0 + 0x200000) past_outside
  rw [finish_mem, hnew, hold] at hsame
  exact absurd hsame (by decide)

end Sys2Proof.Machine
end

section
/-! SUPPORT. A port that fails while class 0 flits for it stand at the die bridge, which go on to its queue once credit is there (R236, R241, R270). -/

namespace Sys2Proof.Machine

open Sys2Proof

/-- Ports 0 and 1 are UP and joined. -/
def twoPorts : Dev :=
  ((((default : Dev).setR (FAB_PSTAT 0 0) 2).setR (CAL_PORTSTAT 0) 1).setR (FAB_PSTAT 0 1) 2).setR (CAL_PORTSTAT 1) 1

/-- A class 0 flit of die 1 for port 0. -/
def bridgeFlit : Worm := { (default : Worm) with data := zeros 64 }

/-- 18 class 0 flits wait at the bridge for port 0, one more than the 17 that an output may send of class 0 before credit returns; port 1
has no credit left for a management packet. -/
def bridgeLine : Dev :=
  (twoPorts.setOport 9 { (default : OPort) with queue := List.replicate 18 bridgeFlit }).setOport 1
    { (default : OPort) with used := [(11, 295)] }

theorem bridgeLine_up : bridgeLine.portState 0 = 2 := by decide +kernel

/-- The message of the failure moves what stands at the bridge: 17 flits leave by port 0, and one waits for it. -/
theorem bridgeLine_waits : (((bridgeLine.portFailure 0 0 0).rootAgain).oport 0).queue.length = 1 := by
  decide +kernel

theorem exec_portFailure (q cause flits : Nat) (s : State) :
    exec (.portFailure q cause flits) s = s.run (fun d => (d.portFailure q cause flits).rootAgain) := rfl

/-- Refutes O15: its clause of PORT_FAILURE claims that nothing waits for the failed port, but what stands at the die bridge for it is not
discarded, and the message of the failure brings it to the port's queue. -/
theorem not_fabricPortCommandsAndEvents : ¬ Obligations.FabricPortCommandsAndEvents := by
  rintro ⟨-, -, -, -, -, -, -, -, -, hfailure, -⟩
  have hruns := hfailure ⟨bridgeLine, []⟩ 0 0 0 (by decide) bridgeLine_up (by decide) (by decide)
  obtain ⟨-, -, hempty, -⟩ := (runs_iff (exec_portFailure ..)).1 hruns
  have hqueue : (((bridgeLine.portFailure 0 0 0).rootAgain).oport 0).queue = [] := by
    unfold Dev.oport at hempty ⊢
    rwa [finish_oports] at hempty
  have hlen := bridgeLine_waits
  rw [hqueue] at hlen
  exact absurd hlen (by decide)

end Sys2Proof.Machine
end

section
/-! SUPPORT. Commands that end because what they wait for has come: what their answers leave as it was, whoever sent them (R402, R515,
R517). -/

namespace Sys2Proof.Machine

open Sys2Proof

variable (d : Dev)

/-- The address is that of no function's response ring configuration. -/
def OffRing (a : Nat) : Prop := ∀ f, f < 16 → CAR_RRCFG f ≠ a

/-- What answers to waiting commands leave as it was: memory, the groups, the outputs and the response rings' configuration; what has
left the device has left it. -/
structure Settles (d e : Dev) : Prop where
  mem    : e.mem = d.mem
  colls  : e.colls = d.colls
  oports : e.oports = d.oports
  out    : ∀ x, x ∈ d.out → x ∈ e.out
  ring   : ∀ f, f < 16 → e.rg (CAR_RRCFG f) = d.rg (CAR_RRCFG f)

namespace Settles

theorem refl : Settles d d := ⟨rfl, rfl, rfl, fun _ h => h, fun _ _ => rfl⟩
theorem trans {a b c : Dev} (h : Settles a b) (g : Settles b c) : Settles a c :=
  ⟨g.mem.trans h.mem, g.colls.trans h.colls, g.oports.trans h.oports, fun x hx => g.out x (h.out x hx),
    fun f hf => (g.ring f hf).trans (h.ring f hf)⟩
theorem setR {a : Nat} (h : OffRing a) (v : Nat) : Settles d (d.setR a v) :=
  ⟨rfl, rfl, rfl, fun _ h => h, fun f hf => rg_setR_ne d (h f hf)⟩
theorem setF {a : Nat} (h : OffRing a) (lo w v : Nat) : Settles d (d.setF a lo w v) := setR d h _
theorem setFlag {a : Nat} (h : OffRing a) (k : Nat) (x : Bool) : Settles d (d.setFlag a k x) := setR d h _
theorem bump {a : Nat} (h : OffRing a) (k : Nat) : Settles d (d.bump a k) := setR d h _
theorem set64 {a : Nat} (h : OffRing a) (h' : OffRing (a + 4)) (v : Nat) : Settles d (d.set64 a v) :=
  (setR d h _).trans (setR _ h' _)
theorem bump64 {a : Nat} (h : OffRing a) (h' : OffRing (a + 4)) (k : Nat) : Settles d (d.bump64 a k) := by
  obtain ⟨r, hr⟩ := bump64_regs_only d a k
  refine ⟨by rw [hr], by rw [hr], by rw [hr], fun x hx => by rw [hr]; exact hx, fun f hf => ?_⟩
  exact rg_bump64_ne d k ⟨h f hf, h' f hf⟩
theorem car (c : Carillon) : Settles d { d with car := c } := ⟨rfl, rfl, rfl, fun _ h => h, fun _ _ => rfl⟩
theorem tocq (q : SMap (List TocRec)) : Settles d { d with tocq := q } := ⟨rfl, rfl, rfl, fun _ h => h, fun _ _ => rfl⟩
theorem tocWake (w : SMap Nat) : Settles d { d with tocWake := w } := ⟨rfl, rfl, rfl, fun _ h => h, fun _ _ => rfl⟩
theorem setFn (f : Nat) (x : Fn) : Settles d (d.setFn f x) := car d _
theorem setScore (r : Nat) (x : SCore) : Settles d (d.setScore r x) := ⟨rfl, rfl, rfl, fun _ h => h, fun _ _ => rfl⟩
theorem emit (x : Output) : Settles d (d.emit x) := ⟨rfl, rfl, rfl, fun _ h => List.mem_append_left _ h, fun _ _ => rfl⟩

theorem books {d e : Dev} (h : BookKeeps d e) (ho : e.out = d.out) : Settles d e :=
  ⟨desk_mem h.desk, desk_colls h.desk, desk_oports h.desk, fun _ hx => ho ▸ hx,
    fun _ hf => h.rg _ (fun hb => rrcfg_not_link hf (.inl hb))⟩

theorem trace {d e : Dev} (h : TraceKeeps d e) : Settles d e := books h.book h.out

theorem forEach {α : Type} {f : Dev → α → Dev} (h : ∀ d x, Settles d (f d x)) : ∀ (l : List α) (d : Dev), Settles d (d.forEach l f)
  | [], d => .refl d
  | x :: r, d => (h d x).trans (forEach h r _)

end Settles

/-! ### Addresses -/

theorem offRing_high {a : Nat} (h : 0x10000000 ≤ a) : OffRing a := fun f hf => by unfold CAR_RRCFG; omega

theorem offRing_low {a : Nat} (h : a < 0x100000) : OffRing a := fun f hf => by unfold CAR_RRCFG; omega

/-- A register of a Tocsin's block. -/
theorem offRing_toc (i : Nat) {o : Nat} (h : o < 0x10000) : OffRing (tocBase i + o) := by
  by_cases hi : i < 288
  · refine offRing_high ?_
    unfold tocBase nBase slotBase
    split_ifs <;> omega
  · refine offRing_low ?_
    rw [show tocBase i = 0x10000 by unfold tocBase; split_ifs <;> omega]
    omega

/-- The source register of a Tocsin. -/
theorem offRing_src (i : Nat) {s : Nat} (h : s < 32) : OffRing (TOC_SRC i s) := by
  unfold TOC_SRC
  rw [Nat.add_assoc]
  exact offRing_toc i (by omega)

/-- The registers of a partition queue, and those that would be the queue of a partition far above the 16 there are: their places in 64
bytes are other ones. -/
theorem offRing_prq (k : Nat) : OffRing (TOC_PRQSTAT 288 k) ∧ OffRing (TOC_PRQCOUNT 288 k) ∧ OffRing (TOC_PRQLOST 288 k) := by
  unfold OffRing TOC_PRQSTAT TOC_PRQCOUNT TOC_PRQLOST CAR_RRCFG
  rw [tocBase_device]
  exact ⟨fun f _ => by omega, fun f _ => by omega, fun f _ => by omega⟩

/-- A register of an S-core's block. -/
theorem offRing_seq (r o : Nat) : OffRing (slotBase r 0x11 + o) := offRing_high (by unfold slotBase; omega)

/-! ### An arrival at a Tocsin -/

theorem sendMsix_settles (f v : Nat) : Settles d (d.sendMsix f v) := by
  unfold Dev.sendMsix
  dsimp only
  split
  · exact .setFn d _ _
  · exact (Settles.setFn d _ _).trans (.emit _ _)

theorem setSeq_settles (r state wait : Nat) : Settles d (d.setSeq r state wait) :=
  (Settles.setF d (offRing_seq r 4) _ _ _).trans (.setF _ (offRing_seq r 4) _ _ _)

theorem scoreRun_settles (r : Nat) : Settles d (d.scoreRun r) := by
  unfold Dev.scoreRun
  split
  · exact .refl d
  · exact ((Settles.setR d (offRing_high (by unfold SEQ_PC slotBase; omega)) _).trans (.setF _ (offRing_seq r 4) _ _ _)).trans
      (.setF _ (offRing_seq r 4) _ _ _)

theorem tocDeliver_settles (i : Nat) : Settles d (d.tocDeliver i) := by
  unfold Dev.tocDeliver
  dsimp only
  split
  · split
    · exact sendMsix_settles d _ _
    · exact .refl d
  · split
    · split
      · exact scoreRun_settles d _
      · exact .refl d
    · split
      · split
        · exact sendMsix_settles d _ _
        · exact .refl d
      · exact .refl d

theorem tocUpdate_settles (i : Nat) : Settles d (d.tocUpdate i) := by
  have hstat : OffRing (TOC_STAT i) := offRing_toc i (by decide)
  have h := ((Settles.setF d hstat 8 3 (d.tocCur i)).trans (.setFlag _ hstat 1 (d.tocHeld i != 0))).trans
    (.setFlag _ hstat 0 (! (d.tocReady i).isEmpty))
  unfold Dev.tocUpdate
  dsimp only
  split
  · exact h.trans (tocDeliver_settles _ _)
  · exact h

theorem setTocQueue_settles (k : Nat) (q : List TocRec) : Settles d (d.setTocQueue k q) := by
  have h := Settles.tocq d (SMap.set [] d.tocq k q)
  unfold Dev.setTocQueue
  dsimp only
  split
  · have hset := (h.trans (.setF _ (offRing_toc k (show 0x20 < 0x10000 by decide)) 0 9 q.length)).trans
      (.setFlag _ (offRing_toc k (show 0x10 < 0x10000 by decide)) 0 (! q.isEmpty))
    split
    · exact hset.trans (.tocWake _ _)
    · exact hset
  · exact h.trans (.setF _ (offRing_prq _).2.1 _ _ _)

theorem tocTrace_settles {c : Prop} [Decidable c] {d e : Dev} (h : Settles d e) (die ty : Nat) (part : Option Nat) (origin : Nat)
    (lcore neuron : Option Nat) (data : List Byte) :
    Settles d (if c then e else e.traceRec die ty part origin lcore neuron data) := by
  split
  · exact h
  · exact h.trans (.trace (traceRec_keeps e _ _ _ _ _ _ _))

theorem tocPush_settles (k : Nat) (x : TocRec) : Settles d (d.tocPush k x) := by
  have hlost : Settles d (if k < 289 then (d.setFlag (TOC_STAT k) 2 true).bump (TOC_RQLOST k) 1
      else (d.setFlag (TOC_PRQSTAT 288 (k - 289)) 6 true).bump (TOC_PRQLOST 288 (k - 289)) 1) := by
    obtain ⟨hstat, -, hcount⟩ := offRing_prq (k - 289)
    split
    · exact (Settles.setFlag d (offRing_toc k (show 4 < 0x10000 by decide)) _ _).trans (.bump _ (offRing_toc k (by decide)) _)
    · exact (Settles.setFlag d hstat _ _).trans (.bump _ hcount _)
  unfold Dev.tocPush
  dsimp only
  split
  · exact tocTrace_settles (setTocQueue_settles d _ _) _ _ _ _ _ _ _
  · split
    · split
      · exact hlost.trans (setTocQueue_settles _ _ _)
      · exact tocTrace_settles (hlost.trans (setTocQueue_settles _ _ _)) _ _ _ _ _ _ _
    · exact hlost

theorem tocPushPart_settles (p : Nat) (x : TocRec) : Settles d (d.tocPushPart p x) :=
  (tocPush_settles d _ _).trans (sendMsix_settles _ _ _)

theorem tocHold_settles (i s : Nat) : Settles d (d.tocHold i s) := by
  unfold Dev.tocHold
  dsimp only
  split
  · exact .tocWake d _
  · exact .refl d

theorem tocVector_settles (i s : Nat) : Settles d (d.tocVector i s) := by
  unfold Dev.tocVector
  dsimp only
  split
  · exact sendMsix_settles d _ _
  · exact .refl d

theorem rqArrive_settles (i : Nat) : Settles d (d.rqArrive i) := by
  have h := Settles.setF d (offRing_src i (show 0 < 32 by decide)) 16 8 (min 255 (d.fld (TOC_SRC i 0) 16 8 + 1))
  unfold Dev.rqArrive
  dsimp only
  split
  · exact (h.trans (tocHold_settles _ _ _)).trans (tocVector_settles _ _ _)
  · exact h

theorem tocRecord_settles (i s part d0 d1 : Nat) : Settles d (d.tocRecord i s part d0 d1) := by
  unfold Dev.tocRecord
  dsimp only
  generalize TocRec.mk _ _ _ _ _ _ _ = x
  have hpush := tocPush_settles d i x
  have h : Settles d (if (d.tocQueue i).length < ((d.tocPush i x).tocQueue i).length then (d.tocPush i x).rqArrive i
      else d.tocPush i x) := by
    split
    · exact hpush.trans (rqArrive_settles _ _)
    · exact hpush
  generalize (if (d.tocQueue i).length < ((d.tocPush i x).tocQueue i).length then _ else _ : Dev) = e at h
  split
  · split
    · exact h.trans (tocPushPart_settles _ _ _)
    · exact h
  · split
    · split
      · exact h.trans (tocPushPart_settles _ _ _)
      · exact h
    · exact h

theorem tocArrive_settles (i : Nat) {s : Nat} (hs : s < 32) (part d0 d1 : Nat) (always : Bool) :
    Settles d (d.tocArrive i s part d0 d1 always) := by
  unfold Dev.tocArrive
  dsimp only
  have hpend : Settles d (if d.flag (TOC_ENABLE i) s then ((d.setFlag (TOC_PEND i) s true).setF (TOC_SRC i s) 16 8
      (min 255 (d.fld (TOC_SRC i s) 16 8 + 1))).tocHold i s else d) := by
    split
    · exact ((Settles.setFlag d (offRing_toc i (show 0x10 < 0x10000 by decide)) _ _).trans (.setF _ (offRing_src i hs) _ _ _)).trans
        (tocHold_settles _ _ _)
    · exact .refl d
  generalize (if d.flag (TOC_ENABLE i) s then _ else d : Dev) = e at hpend
  have hrec : Settles d (if (always || (d.flag (TOC_ENABLE i) s && d.flag (TOC_SRC i s) 2)) = true then e.tocRecord i s part d0 d1
      else e) := by
    split
    · exact hpend.trans (tocRecord_settles _ _ _ _ _ _)
    · exact hpend
  refine Settles.trans ?_ (tocUpdate_settles _ _)
  split
  · exact hrec.trans (tocVector_settles _ _ _)
  · exact hrec

/-! ### Answers -/

/-- The descriptor of an S-core ends, and the S-core goes on or faults past its last one (R402, R404). -/
theorem seqGoto_settles (r n : Nat) : Settles d (d.seqGoto r n) := by
  have hcount := Settles.bump64 d (a := SEQ_DESC_LO r) (offRing_seq r _) (offRing_high (by unfold SEQ_DESC_LO slotBase; omega)) 1
  unfold Dev.seqGoto
  dsimp only
  split
  · unfold Dev.seqFault
    exact ((((hcount.trans (.setR _ (offRing_seq r _) _)).trans (setSeq_settles _ _ _ _)).trans (.setScore _ _ _))).trans
      (tocArrive_settles _ _ (by decide) _ _ _ _)
  · exact ((hcount.trans (.setScore _ _ _)).trans (.setF _ (offRing_high (by unfold SEQ_PC slotBase; omega)) _ _ _)).trans
      (setSeq_settles _ _ _ _)

theorem seqStatus_settles (r code : Nat) : Settles d (d.seqStatus r code) := by
  unfold Dev.seqStatus
  split
  · exact (Settles.set64 d (offRing_high (by unfold SEQ_Gi_LO slotBase; omega))
      (offRing_high (by unfold SEQ_Gi_LO slotBase; omega)) _).trans (seqGoto_settles _ _ _)
  · exact .refl d

theorem dropOutst_settles (f tag seq : Nat) : Settles d (d.dropOutst f tag seq) :=
  (Settles.setFn d _ _).trans (.setF _ (fun g _ => by unfold CAR_BOUT CAR_RRCFG; omega) _ _ _)

theorem respond_settles (x : Resp) : Settles d (d.respond x) := by
  unfold Dev.respond
  dsimp only
  split
  · exact (Settles.setFn d _ _).trans (.setFlag _ (fun g _ => by unfold CAR_BSTAT CAR_RRCFG; omega) _ _)
  · exact .refl d

theorem complete_settles (op : Nat) (names ro : Bool) (h : Hdr) (pl : List Byte) (st : Status) (det : Nat) (ans : List Byte) :
    Settles d (d.complete op names ro h pl st det ans) := by
  have hbook : ∀ st', Settles d (d.book op names ro h pl st st') := fun st' => by
    obtain ⟨hkeeps, hout, -⟩ := book_keeps d op names ro h pl st st'
    exact .books hkeeps hout
  unfold Dev.complete
  dsimp only
  split
  · exact seqStatus_settles d _ _
  · split
    · exact (hbook _).trans (.emit _ _)
    · exact ((hbook _).trans (dropOutst_settles _ _ _ _)).trans (respond_settles _ _)

/-- Waiting commands end. -/
theorem endWaiting_settles (sel : Waiting → Bool) (f : Waiting → Status × List Byte) : Settles d (d.endWaiting sel f) :=
  (Settles.car d _).trans (.forEach (fun d _ => complete_settles d _ _ _ _ _ _ _ _) _ _)

end Sys2Proof.Machine
end

section
/-! SUPPORT. Carillon's messages to other devices: each leaves by a link of its route, whatever is sent after it (R236, R239, R243 to R245,
R283). -/

namespace Sys2Proof.Machine

open Sys2Proof

variable (d : Dev)

/-- What is sent touches the links alone, and what was under way is. -/
structure Sends (d e : Dev) : Prop where
  link     : LinkKeeps d e
  underway : ∀ q l, q < 8 → Underway d q l → Underway e q l

theorem Sends.refl : Sends d d := ⟨.refl d, fun _ _ _ h => h⟩
theorem Sends.trans {a b c : Dev} (h : Sends a b) (g : Sends b c) : Sends a c :=
  ⟨h.link.trans g.link, fun q l hq hu => g.underway q l hq (h.underway q l hq hu)⟩
theorem Moves.sends {d e : Dev} (h : Moves d e) : Sends d e := ⟨h.link, h.underway⟩

/-- What waits or has gone does so where more waits and more has gone. -/
theorem Underway.grow {d e : Dev} {q : Nat} {l : List Byte} (h : Underway d q l) (hq : ∀ k w, w ∈ d.queueAt k → w ∈ e.queueAt k)
    (ho : ∀ x, x ∈ d.out → x ∈ e.out) : Underway e q l := by
  obtain ⟨k, w, hk, hw, hp, hl, hg⟩ | hg := h
  · exact .inl ⟨k, w, hk, hq k w hw, hp, hl, hg.mono ho⟩
  · exact .inr (hg.mono ho)

theorem Settles.underway {d e : Dev} (h : Settles d e) {q : Nat} {l : List Byte} (hu : Underway d q l) : Underway e q l :=
  hu.grow (fun k w hw => by unfold Dev.queueAt Dev.oport at *; rwa [h.oports]) h.out

/-- A packet joins a queue. -/
theorem joinQueue_sends (k : Nat) (w : Worm) : Sends d (d.setOport k { d.oport k with queue := (d.oport k).queue ++ [w] }) := by
  refine ⟨.setOport d _ _, fun q l _ hu => hu.grow (fun j x hx => ?_) (fun _ h => h)⟩
  rw [queueAt_setOport]
  split
  · rename_i hj
    exact List.mem_append_left _ (hj ▸ hx)
  · exact hx

theorem bump_sends {a : Nat} (h : LinkReg a) (k : Nat) : Sends d (d.bump a k) := ⟨.bump d h k, fun _ _ _ hu => hu⟩

theorem enqueue_sends {die q : Nat} (hq : q < 8) (w : Worm) : Sends d (d.enqueue die q w) := by
  unfold Dev.enqueue
  dsimp only
  split
  · exact (joinQueue_sends d _ _).trans (pump_moves _).sends
  · split
    · exact (leaveInput_still d _ _).moves.sends.trans (bump_sends _ (linkReg_pdisc (by omega) (by omega)) _)
    · exact (joinQueue_sends d _ _).trans (pump_moves _).sends

theorem noRoute_sends {die : Nat} (h : die < 2) : Sends d (d.noRoute die) := ⟨noRoute_keeps d h, fun _ _ _ hu => hu⟩

theorem mgmtTo_sends (dest kind : Nat) (args : List Nat) : Sends d (d.mgmtTo dest kind args) := by
  unfold Dev.mgmtTo
  split
  · exact .refl d
  · rename_i dim dir _ hroute
    split
    · exact noRoute_sends d (by decide)
    · rename_i q hlink
      exact enqueue_sends d (carries_lt (linkOf_carries d hlink) (route_dim d hroute)) _

/-- Carillon's message of a kind is under way to device `dest`, by a link of the route from `d`. -/
def MgmtGoes (d e : Dev) (dest kind : Nat) (args : List Nat) : Prop :=
  ∀ dim dir dl, d.route 0 dest 3 0 = some (dim, dir, dl) → (∃ o, o < 8 ∧ Carries d dim dir o) → d.flag FLT_STAT 4 = false →
    ∃ o, o < 8 ∧ Carries d dim dir o ∧ Underway e o (d.mgmtPacket o kind args none)

theorem mgmtTo_goes (dest kind : Nat) (args : List Nat) : MgmtGoes d (d.mgmtTo dest kind args) dest kind args := by
  intro dim dir dl hroute ⟨o, _, hc⟩ hb
  unfold Dev.mgmtTo
  rw [hroute]
  dsimp only
  cases hl : d.linkOf dim dir 11 with
  | none => exact absurd hc (linkOf_none d hl)
  | some q =>
    have hq := linkOf_carries d hl
    have hlt := carries_lt hq (route_dim d hroute)
    exact ⟨q, hlt, hq, enqueue_underway d (by decide) hlt rfl hb⟩

section
variable {d} {e f : Dev} {dest kind : Nat} {args : List Nat}

theorem MgmtGoes.later (h : MgmtGoes d e dest kind args) (hu : ∀ q l, q < 8 → Underway e q l → Underway f q l) :
    MgmtGoes d f dest kind args := fun dim dir dl hroute ho hb => by
  obtain ⟨o, hlt, hc, hgo⟩ := h dim dir dl hroute ho hb
  exact ⟨o, hlt, hc, hu _ _ hlt hgo⟩

/-- A device that differs by what has been sent, or beside its registers, sends the same packets by the same links. -/
theorem MgmtGoes.base {d' : Dev} (h : MgmtGoes d' e dest kind args) (hr : ∀ a, ¬ LinkReg a → d'.rg a = d.rg a) :
    MgmtGoes d e dest kind args := fun dim dir dl hroute ⟨o, ho, hc⟩ hb => by
  have hsame : SameRoutes d d' := fun a ha => hr a ha.not_link
  obtain ⟨o', hlt, hc', hgo⟩ := h dim dir dl ((hsame.route (by decide) _ _ _).trans hroute) ⟨o, ho, (hsame.carries ho).2 hc⟩
    (hsame.bridge.trans hb)
  have hpeer : ¬ LinkReg (FAB_PPEER (o' / 4) (o' % 4)) := fun hl => by
    have hplace := LinkReg.place hl
    unfold FAB_PPEER at hplace
    omega
  have hpacket : d'.mgmtPacket o' kind args none = d.mgmtPacket o' kind args none := by
    unfold Dev.mgmtPacket
    rw [hsame.devId, fld_congr 0 9 (hr _ hpeer)]
  exact ⟨o', hlt, (hsame.carries hlt).1 hc', hpacket ▸ hgo⟩

theorem MgmtGoes.mgmtTo (h : MgmtGoes d e dest kind args) : MgmtTo d e.finish dest kind args := fun dim dir dl hroute ho hb => by
  obtain ⟨o, -, hc, hgo⟩ := h dim dir dl hroute ho hb
  exact ⟨o, hc, sentOn_finish hgo.sentOn⟩

end

/-- The same message to each of a list of devices. -/
theorem forEach_mgmtTo (kind : Nat) (args : List Nat) : ∀ (l : List Nat) (d : Dev),
    Sends d (d.forEach l (fun d m => d.mgmtTo m kind args)) ∧
      ∀ m, m ∈ l → MgmtGoes d (d.forEach l (fun d m => d.mgmtTo m kind args)) m kind args
  | [], d => ⟨.refl d, fun _ h => absurd h (by simp)⟩
  | x :: r, d => by
    have hfirst := mgmtTo_sends d x kind args
    obtain ⟨hrest, hgo⟩ := forEach_mgmtTo kind args r (d.mgmtTo x kind args)
    refine ⟨hfirst.trans hrest, fun m hm => ?_⟩
    obtain rfl | hm := List.mem_cons.1 hm
    · exact (mgmtTo_goes d m kind args).later hrest.underway
    · exact (hgo m hm).base hfirst.link.rg

end Sys2Proof.Machine
end

section
/-! SUPPORT. The group slots: what an update of one leaves, and what the engine of collectives does to them (R257 to R260, R272). -/

namespace Sys2Proof.Machine

open Sys2Proof

variable (d : Dev)

@[simp] theorem coll_setColl_same (g : Nat) (x : Coll) : (d.setColl g x).coll g = x := SMap.get_set_same ..
theorem coll_congr {d e : Dev} (h : e.colls = d.colls) (g : Nat) : e.coll g = d.coll g := by unfold Dev.coll; rw [h]
@[simp] theorem finish_coll (g : Nat) : d.finish.coll g = d.coll g := coll_congr (finish_colls d) g

/-- The device without its groups, the packets that wait to be acted on and free values. -/
def Dev.ungrouped : Dev := { d with colls := [], inbox := [], nonce := 0 }

theorem setColl_ungrouped (g : Nat) (x : Coll) : (d.setColl g x).ungrouped = d.ungrouped := rfl

/-- Memory and its ECC state, the units and every register but those of `w` are as before. -/
structure KeepsBut (w : Nat → Prop) (d e : Dev) : Prop where
  mem   : e.mem = d.mem
  ecc   : e.ecc = d.ecc
  units : e.units = d.units
  rg    : ∀ a, ¬ w a → e.rg a = d.rg a

theorem KeepsBut.trans {w : Nat → Prop} {a b c : Dev} (h : KeepsBut w a b) (g : KeepsBut w b c) : KeepsBut w a c :=
  ⟨g.mem.trans h.mem, g.ecc.trans h.ecc, g.units.trans h.units, fun x hx => (g.rg x hx).trans (h.rg x hx)⟩

theorem KeepsBut.finish {w : Nat → Prop} {d e : Dev} (h : KeepsBut w d e) : Keeps d e.finish w ∧ SameUnits d e.finish :=
  keeps_finish h.mem h.ecc h.units h.rg

theorem rg_of_ungrouped {d e : Dev} (h : e.ungrouped = d.ungrouped) (a : Nat) : e.rg a = d.rg a :=
  (congrArg (fun x : Dev => x.rg a) h :)

theorem devId_of_ungrouped {d e : Dev} (h : e.ungrouped = d.ungrouped) : e.devId = d.devId := (congrArg Dev.devId h :)

/-- An update of the groups alone. -/
theorem KeepsBut.groups {d e : Dev} (h : e.ungrouped = d.ungrouped) (w : Nat → Prop) : KeepsBut w d e :=
  ⟨(congrArg Dev.mem h :), (congrArg Dev.ecc h :), (congrArg Dev.units h :), fun a _ => rg_of_ungrouped h a⟩

theorem KeepsBut.links {d e : Dev} (h : LinkKeeps d e) : KeepsBut LinkReg d e := ⟨h.mem, h.ecc, h.units, h.rg⟩

theorem KeepsBut.books {d e : Dev} (h : BookKeeps d e) : KeepsBut BookReg d e :=
  ⟨desk_mem h.desk, desk_ecc h.desk, (congrArg Dev.units h.desk :), h.rg⟩

theorem KeepsBut.mono {v w : Nat → Prop} {d e : Dev} (h : KeepsBut v d e) (hvw : ∀ a, v a → w a) : KeepsBut w d e :=
  ⟨h.mem, h.ecc, h.units, fun a ha => h.rg a (fun hv => ha (hvw a hv))⟩

theorem LinkKeeps.colls {d e : Dev} (h : LinkKeeps d e) : e.colls = d.colls := (congrArg Dev.colls h.unlinked :)

/-! ### The tree of a group -/

/-- The tree rests on the links alone. -/
theorem bfs_congr {d e : Dev} (hw : e.linkWorks = d.linkWorks) (hn : e.nbr = d.nbr) (ok : Nat → Bool) :
    ∀ (fuel : Nat) (front : List Nat) (seen : List (Nat × Nat)), e.bfs ok fuel front seen = d.bfs ok fuel front seen := by
  intro fuel
  induction fuel with
  | zero => exact fun _ _ => rfl
  | succ fuel ih =>
    intro front seen
    unfold Dev.bfs
    dsimp only
    rw [hw, hn, ih]

theorem takeMgmt_treeOf (root : Nat) (members : List Nat) : d.takeMgmt.treeOf root members = d.treeOf root members := by
  have hnbr : d.takeMgmt.nbr = d.nbr := rfl
  have hworks : d.takeMgmt.linkWorks = d.linkWorks := rfl
  have hreach : d.takeMgmt.reach (fun _ => true) root = d.reach (fun _ => true) root := by
    unfold Dev.reach
    exact bfs_congr hworks hnbr _ _ _ _
  have hpresent : d.takeMgmt.present root = d.present root := rfl
  unfold Dev.treeOf
  rw [hreach, hpresent]

/-! ### Collectives -/

/-- Held packets are looked at where there are none. -/
theorem collHeld_none {g : Nat} (h : (d.coll g).held = []) (take : Bool) : d.collHeld g take = d.setColl g (d.coll g) := by
  unfold Dev.collHeld
  have hx : ({ d.coll g with held := [] } : Coll) = d.coll g := by rw [← h]
  simp only [h, List.filter_nil, Dev.forEach, List.foldl_nil, hx]

/-- Free values that the lanes of a sum may draw. -/
theorem collLanes_nonce (op : Nat) : ∀ (l : List (Nat × Nat)) (a : Dev × List Nat × Bool),
    ∃ n, (l.foldl (fun (a : Dev × List Nat × Bool) p =>
      let y := a.1.collLane op p.1 p.2
      (y.1, a.2.1 ++ [y.2.1], a.2.2 || y.2.2)) a).1 = { a.1 with nonce := n }
  | [], a => ⟨a.1.nonce, rfl⟩
  | p :: r, a => by
    have hlane : ∃ n, (a.1.collLane op p.1 p.2).1 = { a.1 with nonce := n } := by
      unfold Dev.collLane
      dsimp only
      split
      · exact ⟨_, rfl⟩
      · split
        · split
          · exact ⟨_, rfl⟩
          · exact ⟨_, rfl⟩
        · exact ⟨_, rfl⟩
    obtain ⟨n, hn⟩ := hlane
    obtain ⟨m, hm⟩ := collLanes_nonce op r ((a.1.collLane op p.1 p.2).1, a.2.1 ++ [(a.1.collLane op p.1 p.2).2.1],
      a.2.2 || (a.1.collLane op p.1 p.2).2.2)
    exact ⟨m, by rw [List.foldl_cons]; dsimp only at hm ⊢; rw [hm, hn]⟩

/-- The slot after a contribution: its lanes with the operation and what the sum met. -/
def Coll.combined (x : Coll) (ls : List Nat) (op : Nat) (nan sat : Bool) : Coll := { x with lanes := some ls, op := op, nan := nan, sat := sat }

/-- A contribution changes the lanes of its group and what goes with them, and draws free values. -/
theorem collCombine_eq (g op : Nat) (lanes : List Nat) : ∃ n ls op' nan sat, (op' = op ∨ op' = (d.coll g).op) ∧
    d.collCombine g op lanes = ({ d with nonce := n } : Dev).setColl g ((d.coll g).combined ls op' nan sat) := by
  unfold Dev.collCombine
  dsimp only
  split
  · exact ⟨d.nonce, _, op, _, (d.coll g).sat, .inl rfl, rfl⟩
  · rename_i acc hacc
    obtain ⟨n, hn⟩ := collLanes_nonce op (acc.zip (lanes.map (fun v => if (op == 2 && f32 v == .nan) = true then 0 else v))) (d, [], false)
    exact ⟨n, _, (d.coll g).op, _, _, .inr rfl, by rw [hn]; rfl⟩

theorem collCombine_spec (g op : Nat) (lanes : List Nat) : (d.collCombine g op lanes).ungrouped = d.ungrouped ∧
    ∃ ls op' nan sat, (op' = op ∨ op' = (d.coll g).op) ∧
      (d.collCombine g op lanes).coll g = (d.coll g).combined ls op' nan sat := by
  obtain ⟨n, ls, op', nan, sat, hop, he⟩ := collCombine_eq d g op lanes
  rw [he]
  exact ⟨rfl, ls, op', nan, sat, hop, coll_setColl_same ..⟩

/-- The first contribution of SUM or MAX stands as it came. -/
theorem collCombine_first {g op : Nat} (lanes : List Nat) (h : (d.coll g).lanes = none) (hop : op ≠ 2) :
    d.collCombine g op lanes = d.setColl g ((d.coll g).combined lanes op (d.coll g).nan (d.coll g).sat) := by
  have hnan : ∀ v : Nat, (op == 2 && f32 v == .nan) = false := fun v => by simp [hop]
  have hany : lanes.any (fun _ => false) = false := by simp
  unfold Dev.collCombine Coll.combined
  simp only [h, hnan, hany, Bool.or_false, Bool.false_eq_true, if_false, List.map_id']

/-- A member that has not issued does not go on. -/
theorem collAdvance_not_issued {g : Nat} (h : (d.coll g).issued = false ∧ (d.coll g).members.contains d.devId = true) :
    d.collAdvance g = d := by
  obtain ⟨hissued, hmember⟩ := h
  unfold Dev.collAdvance
  simp only [hissued, hmember, Bool.not_true, Bool.or_false, Bool.not_false, Bool.or_true, Bool.true_or, if_true]

/-- A node goes on when it has heard every child. -/
theorem collAdvance_unheard {g c : Nat} (hc : (d.coll g).children.contains c = true) (hgot : (d.coll g).got.contains c = false) :
    d.collAdvance g = d := by
  have hall : (d.coll g).children.all ((d.coll g).got.contains ·) = false :=
    List.all_eq_false.2 ⟨c, List.contains_iff_mem.1 hc, by rw [hgot]; decide⟩
  unfold Dev.collAdvance
  simp only [hall, Bool.not_false, Bool.or_true, if_true]

/-- The slot after its collective: nothing of it is left, and EPOCH has advanced. -/
def Coll.done (x : Coll) : Coll :=
  { x with issued := false, lanes := none, ncontrib := 0, got := [], sentUp := false, sat := false, nan := false, broken := false,
           epoch := (x.epoch + 1) % 65536 }

/-- The collective completes (R258, R259). -/
theorem collComplete_settles (g : Nat) (st : Status) (ncon : Nat) (lanes : List Nat) :
    Settles (d.setColl g (d.coll g).done) (d.collComplete g st ncon lanes) := endWaiting_settles _ _ _

theorem collComplete_coll (g : Nat) (st : Status) (ncon : Nat) (lanes : List Nat) :
    (d.collComplete g st ncon lanes).coll g = (d.coll g).done :=
  (coll_congr (collComplete_settles d g st ncon lanes).colls g).trans (coll_setColl_same ..)

/-- The result of an epoch reaches a member with no children that has issued. -/
theorem collDown_leaf {g : Nat} (op epoch ncon : Nat) (lanes : List Nat) (hc : (d.coll g).children = []) (hi : (d.coll g).issued = true) :
    d.collDown g op epoch ncon lanes = d.collComplete g .ok ncon lanes := by
  unfold Dev.collDown
  simp only [hc, hi, Dev.forEach, List.foldl_nil, if_true]

/-- A root with no children that has issued completes at once. -/
theorem collAdvance_alone {g : Nat} (hi : (d.coll g).issued = true) (hs : (d.coll g).sentUp = false)
    (hr : (d.coll g).rebuild = false ∧ (d.coll g).broken = false) (ht : (d.coll g).parent = none ∧ (d.coll g).children = []) :
    d.collAdvance g = (d.setColl g { d.coll g with sentUp := true }).collComplete g .ok (d.coll g).ncontrib ((d.coll g).lanes.getD []) := by
  obtain ⟨hrebuild, hbroken⟩ := hr
  obtain ⟨hparent, hchildren⟩ := ht
  unfold Dev.collAdvance
  simp only [hi, hs, hrebuild, hbroken, hparent, hchildren, List.all_nil, Bool.true_or, Bool.not_true, Bool.or_self, Bool.false_eq_true,
    if_false]
  exact collDown_leaf _ _ _ _ _ (by rw [coll_setColl_same]) (by rw [coll_setColl_same])

end Sys2Proof.Machine
end

section
/-! SUPPORT. Packets of a collective, its timers, and the rebuilding of a group's tree (R255, R258, R259, R273). -/

namespace Sys2Proof.Machine

open Sys2Proof

variable (d : Dev)

theorem exec_collUp (q : Nat) (l : List Byte) (s : State) : exec (.collUp q l) s = s.run (·.collUp q l) := rfl
theorem exec_collDown (q : Nat) (l : List Byte) (s : State) : exec (.collDown q l) s = s.run (·.collDownPkt q l) := rfl
theorem exec_collTimeout (g : Nat) (s : State) : exec (.collTimeout g) s = s.run (·.collTimeout g) := rfl
theorem exec_earlyEpochDrop (g k : Nat) (s : State) : exec (.earlyEpochDrop g k) s = s.run (·.earlyDrop g k) := rfl
theorem exec_treeRebuildEnd (g epoch : Nat) (s : State) : exec (.treeRebuildEnd g epoch) s = s.run (·.treeRebuilt g epoch) := rfl

/-! ### Counters of a die -/

/-- A counter of a die's router has counted one more, beside what happened to the groups. -/
theorem bump_die {e : Dev} (h : e.ungrouped = d.ungrouped) {a : Nat} (ha : 0x40000 ≤ a ∧ a < 0x60000) :
    (e.bump a 1).finish.rg a = satInc (d.rg a) 1 % 2 ^ 32 ∧ Keeps d (e.bump a 1).finish (fun b => b = a) ∧
      SameUnits d (e.bump a 1).finish := by
  have hkeeps : KeepsBut (fun b => b = a) e (e.bump a 1) := ⟨rfl, rfl, rfl, fun _ hb => rg_bump_ne e hb⟩
  refine ⟨?_, ((KeepsBut.groups h _).trans hkeeps).finish⟩
  rw [rg_finish_port _ ha, rg_bump_same, rg_of_ungrouped h]

/-! ### COLL_UP (R255, R258, R259) -/

theorem collUp_bad {q : Nat} {l : List Byte} (h : pktGood l = false) : d.collUp q l = (d.takePacket l).crcDiscard (q / 4) := by
  unfold Dev.collUp
  simp only [h, Bool.not_false, Bool.true_or, if_true]

theorem collUp_bad_runs (s : State) {q : Nat} {l : List Byte} (hq : q < 8) (h : pktGood l = false) : Runs (.collUp q l) s (fun e =>
    e.rg (FAB_CRCDISC (q / 4)) = satInc (s.dev.rg (FAB_CRCDISC (q / 4))) 1 % 2 ^ 32 ∧ e.colls = s.dev.colls ∧
      Keeps s.dev e (fun a => a = FAB_CRCDISC (q / 4)) ∧ SameUnits s.dev e) := by
  have hplace : 0x40000 ≤ FAB_CRCDISC (q / 4) ∧ FAB_CRCDISC (q / 4) < 0x60000 := by unfold FAB_CRCDISC; omega
  obtain ⟨hcount, hkeeps⟩ := bump_die s.dev (e := s.dev.takePacket l) rfl hplace
  rw [runs_iff (exec_collUp q l s), collUp_bad s.dev h]
  exact ⟨hcount, finish_colls _, hkeeps⟩

/-- What a COLL_UP from a child does at a member whose tree stands (R259). -/
theorem collUp_member {q g : Nat} {l : List Byte} (hl : pktGood l = true ∧ pktType l = 0x40) (hg : g = byteAt l 16 % 16)
    (hm : (d.coll g).used = true ∧ (d.coll g).children.contains (pktSrc l) = true ∧ (d.coll g).members.contains d.devId = true)
    (ht : (d.coll g).rebuild = false ∧ (d.coll g).broken = false) :
    (epochSide (pktEpoch l) (d.coll g).epoch = .lt → d.collUp q l = (d.takePacket l).bump (FAB_STALEEP (q / 4)) 1) ∧
    (epochSide (pktEpoch l) (d.coll g).epoch = .gt →
      d.collUp q l = (d.takePacket l).setColl g { d.coll g with held := (d.coll g).held ++ [(q, l)] }) ∧
    (epochSide (pktEpoch l) (d.coll g).epoch = .eq → d.collUp q l = (d.takePacket l).collTake g l) := by
  obtain ⟨hgood, htype⟩ := hl
  obtain ⟨hused, hchild, hmember⟩ := hm
  obtain ⟨hrebuild, hbroken⟩ := ht
  have hcoll : (d.takePacket l).coll g = d.coll g := rfl
  have hdev : (d.takePacket l).devId = d.devId := rfl
  unfold Dev.collUp
  simp only [← hg, hcoll, hdev, hgood, htype, hused, hchild, hmember, hrebuild, hbroken, ne_eq, not_true_eq_false, decide_false,
    Bool.not_true, Bool.or_self, Bool.false_eq_true, if_false]
  exact ⟨fun h => by rw [h], fun h => by rw [h], fun h => by rw [h]⟩

theorem epochSide_self (e : Nat) : epochSide e e = .eq := by
  unfold epochSide
  simp

/-- The slot a COLL_UP of a new epoch finds. -/
def Coll.fresh (x : Coll) (e : Nat) (l : List Byte) : Coll :=
  if x.cur ≠ e && ! x.issued then
    { x with cur := e, lanes := none, ncontrib := 0, got := [], sentUp := false, op := byteAt l 17 } else x

/-- The slot with a COLL_UP counted. -/
def Coll.heard (x : Coll) (l : List Byte) : Coll :=
  { x with got := x.got ++ [pktSrc l], ncontrib := x.ncontrib + leAt l 20 2, op := if x.issued then x.op else byteAt l 17 }

theorem fresh_same (x : Coll) (e : Nat) (l : List Byte) : (x.fresh e l).issued = x.issued ∧ (x.fresh e l).members = x.members ∧
    (x.cur = e → x.fresh e l = x) := by
  unfold Coll.fresh
  refine ⟨by split <;> rfl, by split <;> rfl, fun h => by simp [h]⟩

/-- A COLL_UP of the expected epoch is taken in at a member that has not issued: it is counted, and nothing goes on (R258). -/
theorem collTake_member {g : Nat} (l : List Byte) (hi : (d.coll g).issued = false)
    (hm : (d.coll g).members.contains d.devId = true) :
    (d.collTake g l).ungrouped = d.ungrouped ∧ ((d.coll g).cur = pktEpoch l →
      ((d.collTake g l).coll g).got = (d.coll g).got ++ [pktSrc l] ∧
      ((d.collTake g l).coll g).ncontrib = (d.coll g).ncontrib + leAt l 20 2 ∧ ((d.collTake g l).coll g).epoch = (d.coll g).epoch) := by
  obtain ⟨hissued, hmembers, hsame⟩ := fresh_same (d.coll g) (pktEpoch l) l
  have htake : d.collTake g l = (if leAt l 18 2 = 0 then d.setColl g (((d.coll g).fresh (pktEpoch l) l).heard l)
      else (d.setColl g (((d.coll g).fresh (pktEpoch l) l).heard l)).collCombine g
        (((d.setColl g (((d.coll g).fresh (pktEpoch l) l).heard l))).coll g).op
        ((upTo (leAt l 18 2)).map (fun i => leAt (pktPay l) (4 * i) 4))).collAdvance g := rfl
  generalize hy : ((d.coll g).fresh (pktEpoch l) l).heard l = y at htake
  have hyi : y.issued = false := by rw [← hy]; exact hissued.trans hi
  have hym : y.members.contains d.devId = true := by rw [← hy]; exact (congrArg (·.contains d.devId) hmembers).trans hm
  have hy' : y.got = ((d.coll g).fresh (pktEpoch l) l).got ++ [pktSrc l] ∧
      y.ncontrib = ((d.coll g).fresh (pktEpoch l) l).ncontrib + leAt l 20 2 ∧ y.epoch = ((d.coll g).fresh (pktEpoch l) l).epoch := by
    rw [← hy]
    exact ⟨rfl, rfl, rfl⟩
  have hend : (d.collTake g l).ungrouped = d.ungrouped ∧ ((d.collTake g l).coll g).got = y.got ∧
      ((d.collTake g l).coll g).ncontrib = y.ncontrib ∧ ((d.collTake g l).coll g).epoch = y.epoch := by
    rw [htake]
    split
    · rw [collAdvance_not_issued _ (by rw [coll_setColl_same]; exact ⟨hyi, hym⟩), coll_setColl_same]
      exact ⟨rfl, rfl, rfl, rfl⟩
    · obtain ⟨hrest, ls, op', nan, sat, -, he⟩ := collCombine_spec (d.setColl g y) g ((d.setColl g y).coll g).op
        ((upTo (leAt l 18 2)).map (fun i => leAt (pktPay l) (4 * i) 4))
      rw [coll_setColl_same] at he hrest
      rw [collAdvance_not_issued _ (by rw [coll_setColl_same, he, devId_of_ungrouped hrest]; exact ⟨hyi, hym⟩), coll_setColl_same, he]
      exact ⟨hrest, rfl, rfl, rfl⟩
  obtain ⟨hrest, hgot, hcount, hepoch⟩ := hend
  obtain ⟨hygot, hycount, hyepoch⟩ := hy'
  refine ⟨hrest, fun hcur => ?_⟩
  rw [hgot, hcount, hepoch, hygot, hycount, hyepoch, hsame hcur]
  exact ⟨rfl, rfl, rfl⟩

theorem collUp_runs (s : State) {q g : Nat} {l : List Byte} (hq : q < 8) (hl : pktGood l = true ∧ pktType l = 0x40)
    (hg : g = byteAt l 16 % 16)
    (hm : (s.dev.coll g).used = true ∧ (s.dev.coll g).children.contains (pktSrc l) = true ∧
      (s.dev.coll g).members.contains s.dev.devId = true) (hi : (s.dev.coll g).issued = false)
    (hcur : (s.dev.coll g).cur = (s.dev.coll g).epoch) (ht : (s.dev.coll g).rebuild = false ∧ (s.dev.coll g).broken = false) :
    Runs (.collUp q l) s (fun e =>
      (epochSide (pktEpoch l) (s.dev.coll g).epoch = .lt →
        e.rg (FAB_STALEEP (q / 4)) = satInc (s.dev.rg (FAB_STALEEP (q / 4))) 1 % 2 ^ 32 ∧ e.coll g = s.dev.coll g) ∧
      (epochSide (pktEpoch l) (s.dev.coll g).epoch = .gt →
        (e.coll g).held = (s.dev.coll g).held ++ [(q, l)] ∧ (e.coll g).got = (s.dev.coll g).got) ∧
      (pktEpoch l = (s.dev.coll g).epoch →
        (e.coll g).got = (s.dev.coll g).got ++ [pktSrc l] ∧ (e.coll g).ncontrib = (s.dev.coll g).ncontrib + leAt l 20 2 ∧
        (e.coll g).epoch = (s.dev.coll g).epoch) ∧
      Keeps s.dev e (fun a => a = FAB_STALEEP (q / 4)) ∧ SameUnits s.dev e) := by
  obtain ⟨hstale, hearly, htaken⟩ := collUp_member s.dev (q := q) hl hg hm ht
  have hself : pktEpoch l = (s.dev.coll g).epoch → epochSide (pktEpoch l) (s.dev.coll g).epoch = .eq := fun h => by
    rw [h]
    exact epochSide_self _
  rw [runs_iff (exec_collUp q l s)]
  cases hside : epochSide (pktEpoch l) (s.dev.coll g).epoch with
  | lt =>
    have hplace : 0x40000 ≤ FAB_STALEEP (q / 4) ∧ FAB_STALEEP (q / 4) < 0x60000 := by unfold FAB_STALEEP; omega
    obtain ⟨hcount, hkeeps⟩ := bump_die s.dev (e := s.dev.takePacket l) rfl hplace
    rw [hstale hside]
    exact ⟨fun _ => ⟨hcount, finish_coll ..⟩, fun h => absurd h (by decide),
      fun h => absurd ((hself h).symm.trans hside) (by decide), hkeeps⟩
  | gt =>
    have hrest := setColl_ungrouped (s.dev.takePacket l) g { s.dev.coll g with held := (s.dev.coll g).held ++ [(q, l)] }
    rw [hearly hside]
    refine ⟨fun h => absurd h (by decide), fun _ => ?_, fun h => absurd ((hself h).symm.trans hside) (by decide),
      (KeepsBut.groups (d := s.dev) hrest _).finish⟩
    rw [finish_coll, coll_setColl_same]
    exact ⟨rfl, rfl⟩
  | eq =>
    obtain ⟨hrest, htake⟩ := collTake_member (s.dev.takePacket l) l hi hm.2.2
    rw [htaken hside]
    refine ⟨fun h => absurd h (by decide), fun h => absurd h (by decide), fun h => ?_, (KeepsBut.groups hrest _).finish⟩
    rw [finish_coll]
    exact htake (hcur.trans h.symm)

/-! ### COLL_DOWN and the end of a collective (R258, R259) -/

theorem collDownPkt_expected {q g : Nat} {l : List Byte} (hl : pktGood l = true ∧ pktType l = 0x41) (hg : g = byteAt l 16 % 16)
    (hm : (d.coll g).used = true ∧ (d.coll g).members.contains d.devId = true)
    (ht : (d.coll g).rebuild = false ∧ (d.coll g).broken = false) (he : pktEpoch l = (d.coll g).epoch) : ∃ lanes,
    d.collDownPkt q l = (d.takePacket l).collDown g (byteAt l 17) (pktEpoch l) (leAt l 20 2) lanes := by
  obtain ⟨hgood, htype⟩ := hl
  obtain ⟨hused, hmember⟩ := hm
  obtain ⟨hrebuild, hbroken⟩ := ht
  have hcoll : (d.takePacket l).coll g = d.coll g := rfl
  have hdev : (d.takePacket l).devId = d.devId := rfl
  have hside : epochSide (pktEpoch l) (d.coll g).epoch = .eq := by rw [he]; exact epochSide_self _
  refine ⟨(upTo (leAt l 18 2)).map (fun i => leAt (pktPay l) (4 * i) 4), ?_⟩
  unfold Dev.collDownPkt
  simp only [← hg, hcoll, hdev, hgood, htype, hused, hmember, hrebuild, hbroken, hside, ne_eq, not_true_eq_false, decide_false,
    Bool.not_true, Bool.or_self, Bool.false_eq_true, if_false]

/-- What a collective leaves of its group once it has completed. -/
theorem collComplete_left {d e : Dev} {g : Nat} {st : Status} {ncon : Nat} {lanes : List Nat}
    (he : e = d.collComplete g st ncon lanes) :
    e.finish.coll g = (d.coll g).done ∧ SameMem d e.finish := by
  subst he
  refine ⟨(finish_coll ..).trans (collComplete_coll ..), fun a => ?_⟩
  rw [finish_mem, (collComplete_settles d g st ncon lanes).mem]
  rfl

theorem collDown_runs (s : State) {q g : Nat} {l : List Byte} (hl : pktGood l = true ∧ pktType l = 0x41)
    (hg : g = byteAt l 16 % 16)
    (hm : (s.dev.coll g).used = true ∧ (s.dev.coll g).members.contains s.dev.devId = true)
    (hc : (s.dev.coll g).children = []) (hi : (s.dev.coll g).issued = true)
    (ht : (s.dev.coll g).rebuild = false ∧ (s.dev.coll g).broken = false) (he : pktEpoch l = (s.dev.coll g).epoch) :
    Runs (.collDown q l) s (fun e => (e.coll g).epoch = ((s.dev.coll g).epoch + 1) % 65536 ∧ (e.coll g).issued = false ∧
      SameMem s.dev e) := by
  obtain ⟨lanes, hdown⟩ := collDownPkt_expected s.dev (q := q) hl hg hm ht he
  have hleaf := hdown.trans (collDown_leaf (s.dev.takePacket l) (byteAt l 17) (pktEpoch l) (leAt l 20 2) lanes hc hi)
  obtain ⟨hdone, hmem⟩ := collComplete_left hleaf
  rw [runs_iff (exec_collDown q l s), hdone]
  exact ⟨rfl, rfl, hmem⟩

theorem collTimeout_runs (s : State) {g : Nat} (hu : (s.dev.coll g).used = true) (hi : (s.dev.coll g).issued = true)
    (hh : (s.dev.coll g).held = []) : Runs (.collTimeout g) s (fun e =>
      (e.coll g).epoch = ((s.dev.coll g).epoch + 1) % 65536 ∧ (e.coll g).issued = false ∧ (e.coll g).lanes = none ∧
      (e.coll g).got = [] ∧ SameMem s.dev e) := by
  have hcoll := collComplete_coll s.dev g .incomplete 0 []
  have hend : s.dev.collTimeout g =
      (s.dev.collComplete g .incomplete 0 []).setColl g ((s.dev.collComplete g .incomplete 0 []).coll g) := by
    unfold Dev.collTimeout
    simp only [hu, hi, Bool.and_self, if_true]
    exact collHeld_none _ (by rw [hcoll]; exact hh) false
  obtain ⟨-, hmem⟩ := collComplete_left (d := s.dev) (g := g) (st := .incomplete) (ncon := 0) (lanes := []) rfl
  rw [runs_iff (exec_collTimeout g s), hend, finish_coll, coll_setColl_same, hcoll]
  refine ⟨rfl, rfl, rfl, rfl, fun a => ?_⟩
  rw [← hmem a, finish_mem, finish_mem]
  rfl

/-! ### Early packets and the rebuilding of a tree (R259, R273) -/

theorem earlyEpochDrop_runs (s : State) {g k q : Nat} {l : List Byte} (hk : (s.dev.coll g).held[k]? = some (q, l)) (hq : q < 8) :
    Runs (.earlyEpochDrop g k) s (fun e => (e.coll g).held = removeAt (s.dev.coll g).held k ∧
      e.rg (FAB_EARLYDROP (q / 4)) = satInc (s.dev.rg (FAB_EARLYDROP (q / 4))) 1 % 2 ^ 32 ∧
      Keeps s.dev e (fun a => a = FAB_EARLYDROP (q / 4)) ∧ SameUnits s.dev e) := by
  have hdrop : s.dev.earlyDrop g k = (s.dev.setColl g { s.dev.coll g with held := removeAt (s.dev.coll g).held k }).bump
      (FAB_EARLYDROP (q / 4)) 1 := by
    unfold Dev.earlyDrop
    simp only [hk]
  have hplace : 0x40000 ≤ FAB_EARLYDROP (q / 4) ∧ FAB_EARLYDROP (q / 4) < 0x60000 := by unfold FAB_EARLYDROP; omega
  obtain ⟨hcount, hkeeps⟩ := bump_die s.dev
    (e := s.dev.setColl g { s.dev.coll g with held := removeAt (s.dev.coll g).held k }) rfl hplace
  have hcoll : ((s.dev.setColl g { s.dev.coll g with held := removeAt (s.dev.coll g).held k }).bump (FAB_EARLYDROP (q / 4)) 1).coll g =
      { s.dev.coll g with held := removeAt (s.dev.coll g).held k } := coll_setColl_same ..
  rw [runs_iff (exec_earlyEpochDrop g k s), hdrop, finish_coll, hcoll]
  exact ⟨rfl, hcount, hkeeps⟩

/-- The slot whose tree has been rebuilt: the collective under way starts again under the aligned EPOCH (R273). -/
def Coll.rebuilt (x : Coll) (epoch : Nat) : Coll :=
  { x with rebuild := false, epoch := epoch % 65536, lanes := none, ncontrib := 0, got := [], sentUp := false }

theorem treeRebuilt_eq {g : Nat} (epoch : Nat) (hu : (d.coll g).used = true) (hr : (d.coll g).rebuild = true)
    (hh : (d.coll g).held = []) :
    d.treeRebuilt g epoch = (d.setColl g ((d.coll g).rebuilt epoch)).setColl g ((d.coll g).rebuilt epoch) := by
  have hset : d.treeRebuilt g epoch = (d.setColl g ((d.coll g).rebuilt epoch)).collHeld g false := by
    unfold Dev.treeRebuilt
    dsimp only
    rw [if_pos (by rw [hu, hr]; rfl)]
    rfl
  rw [hset, collHeld_none _ (by rw [coll_setColl_same]; exact hh), coll_setColl_same]

theorem treeRebuildEnd_runs (s : State) {g : Nat} (epoch : Nat) (hu : (s.dev.coll g).used = true)
    (hr : (s.dev.coll g).rebuild = true) (hh : (s.dev.coll g).held = []) : Runs (.treeRebuildEnd g epoch) s (fun e =>
      (e.coll g).rebuild = false ∧ (e.coll g).epoch = epoch % 65536 ∧ (e.coll g).lanes = none ∧ (e.coll g).got = [] ∧
      Keeps s.dev e (fun _ => False) ∧ SameUnits s.dev e) := by
  rw [runs_iff (exec_treeRebuildEnd g epoch s), treeRebuilt_eq s.dev epoch hu hr hh, finish_coll, coll_setColl_same]
  refine ⟨rfl, rfl, rfl, rfl, (KeepsBut.groups ?_ _).finish⟩
  rw [setColl_ungrouped, setColl_ungrouped]

end Sys2Proof.Machine
end

section
/-! SUPPORT. The commands that set up, release and show a collective group (R257, R282, R283). -/

namespace Sys2Proof.Machine

open Sys2Proof

variable {d : Dev}

theorem exec_collSetup (h : Hdr) (pl : List Byte) (s : State) : exec (.collSetup h pl) s = s.run (·.serve cCollSetup Dev.collSetup h pl) := rfl
theorem exec_collRelease (h : Hdr) (pl : List Byte) (s : State) :
    exec (.collRelease h pl) s = s.run (·.serve cCollRelease Dev.collRelease h pl) := rfl
theorem exec_collStatus (h : Hdr) (pl : List Byte) (s : State) :
    exec (.collStatus h pl) s = s.run (·.serve cCollStatus Dev.collStatus h pl) := rfl

/-! ### What a command leaves once its body has worked -/

/-- What the books leave of a body's work: the groups, and what it has sent. -/
structure Booked (d' e : Dev) : Prop where
  keeps    : KeepsBut BookReg d' e
  colls    : e.colls = d'.colls
  underway : ∀ q l, Underway d' q l → Underway e q l

theorem Booked.coll {d' e : Dev} (h : Booked d' e) (g : Nat) : e.finish.coll g = d'.coll g :=
  (finish_coll e g).trans (coll_congr h.colls g)

theorem Booked.links {d' e : Dev} (h : Booked d' e) (hd : KeepsBut LinkReg d d') : KeepsBut LinkReg d e :=
  hd.trans (h.keeps.mono fun _ => .inl)

theorem Underway.sameLinks {e : Dev} {q : Nat} {l : List Byte} (h : Underway d q l) (hp : e.oports = d.oports) (ho : e.out = d.out) :
    Underway e q l :=
  h.grow (fun k w hw => by unfold Dev.queueAt Dev.oport at *; rwa [hp]) (fun _ hx => ho ▸ hx)

section
variable {d' : Dev} {c : CmdSpec} {body : Dev → Hdr → List Byte → Dev × Ans} {h : Hdr} {pl : List Byte}

theorem serve_ends {ans : List Byte} {st : Status} (ha : Accepted d c h pl) (hb : body d h pl = (d', .done st 0 ans)) (hn : ans.length ≤ 4000)
    (hr : d'.rg (CAR_RRCFG h.func) = d.rg (CAR_RRCFG h.func)) (hcar : d'.car = d.car) :
    Booked d' (d.serve c body h pl) ∧ Answered d (d.serve c body h pl).finish c.opcode h st ans := by
  obtain ⟨hkeeps, hout, hresp⟩ := serve_done ha hb hr (fits_short ha hn)
  have hsame : (d'.fn h.func).resps = (d.fn h.func).resps := by unfold Dev.fn; rw [hcar]
  refine ⟨⟨.books hkeeps, desk_colls hkeeps.desk, fun _ _ hu => hu.sameLinks (desk_oports hkeeps.desk) hout⟩, ?_⟩
  unfold Answered
  rw [finish_fn, hresp, hsame]

theorem serve_waits {w : WaitFor} (ha : Accepted d c h pl) (hb : body d h pl = (d', .wait w)) (hcar : d'.car = d.car) :
    Booked d' (d.serve c body h pl) ∧ Waits d (d.serve c body h pl).finish c h pl w := by
  obtain ⟨hwait, hkeeps⟩ := serve_wait ha hb
  obtain ⟨hready, hfunc, hrefuse, -⟩ := ha
  have hpcie : ¬ 0x100 ≤ h.func := by omega
  have hout : (d.serve c body h pl).out = d'.out := by
    unfold Dev.serve
    simp only [hready, hpcie, hrefuse, hb, Bool.not_true, decide_false, Bool.or_self, Bool.false_eq_true, if_false]
    rfl
  obtain ⟨hmem, hecc, hunits, hrg⟩ := KeepsBut.books hkeeps
  have hports := desk_oports hkeeps.desk
  have hcolls := desk_colls hkeeps.desk
  refine ⟨⟨⟨hmem, hecc, hunits, hrg⟩, hcolls, fun _ _ hu => hu.sameLinks hports hout⟩, ?_⟩
  unfold Waits
  rw [finish_car, hwait, hcar]

end

theorem KeepsBut.setColl (d : Dev) (g : Nat) (x : Coll) (w : Nat → Prop) : KeepsBut w d (d.setColl g x) := .groups (setColl_ungrouped ..) w

theorem LinkKeeps.car {e : Dev} (h : LinkKeeps d e) : e.car = d.car := (congrArg Dev.car h.unlinked :)

/-! ### COLL_SETUP (R257, R283) -/

/-- The slot that COLL_SETUP describes, before it is placed in its tree. -/
def setupColl (pl : List Byte) : Coll := newColl (byteAt pl 1) (leAt pl 2 2) (leAt pl 4 4) (maskBits 512 (leAt pl 8 64))

/-- COLL_SETUP names a free slot, and its tree has free credits here (R257). -/
structure SetsUp (d : Dev) (pl : List Byte) (t : List (Nat × Nat) × Nat) : Prop where
  slot    : byteAt pl 0 < 16
  part    : byteAt pl 1 < 16
  root    : leAt pl 2 2 < 512
  timeout : 1 ≤ leAt pl 4 4 ∧ leAt pl 4 4 ≤ 65535
  free    : (d.coll (byteAt pl 0)).used = false
  tree    : d.treeOf (leAt pl 2 2) (maskBits 512 (leAt pl 8 64)) = some t
  credits : d.creditsFree ((setupColl pl).place d.devId t) = true

/-- What COLL_SETUP does once its tree has been found. -/
theorem collSetup_eq {pl : List Byte} {t : List (Nat × Nat) × Nat} (hs : SetsUp d pl t) (h : Hdr) :
    (treeOthers d.devId (leAt pl 2 2) t = [] → (maskBits 512 (leAt pl 8 64)).contains d.devId = true →
      d.collSetup h pl = (d.setColl (byteAt pl 0) ((setupColl pl).place d.devId t), .done .ok 0 [])) ∧
    (treeOthers d.devId (leAt pl 2 2) t ≠ [] → d.collSetup h pl =
      ((d.forEach (treeOthers d.devId (leAt pl 2 2) t) (fun d m => d.mgmtTo m 2 ([0, byteAt pl 0, byteAt pl 1, leAt pl 2 2, leAt pl 4 4] ++
        maskBits 512 (leAt pl 8 64)))).setColl (byteAt pl 0)
          { (setupColl pl).place d.devId t with asking := treeOthers d.devId (leAt pl 2 2) t }, .wait (.coll (byteAt pl 0)))) := by
  obtain ⟨hslot, hpart, hroot, ⟨htmo, htmo'⟩, hfree, htree, hcredits⟩ := hs
  have hdenied : ¬ ((16 ≤ byteAt pl 0 || 16 ≤ byteAt pl 1 || 512 ≤ leAt pl 2 2 || leAt pl 4 4 = 0 || 65535 < leAt pl 4 4 ||
      (d.coll (byteAt pl 0)).used) = true) := by
    simp only [hfree, Bool.or_false, Bool.or_eq_true, decide_eq_true_eq]
    omega
  unfold setupColl at hcredits ⊢
  unfold Dev.collSetup
  dsimp only
  rw [if_neg hdenied, htree]
  dsimp only
  rw [hcredits]
  refine ⟨fun hnone hmember => ?_, fun hsome => ?_⟩
  · rw [hnone, hmember]
    rfl
  · rw [if_neg (by decide), if_neg (by rwa [List.isEmpty_iff])]

theorem collSetup_alone_runs (s : State) {h : Hdr} {pl : List Byte} {t : List (Nat × Nat) × Nat} (ha : Accepted s.dev cCollSetup h pl)
    (hs : SetsUp s.dev pl t) (ho : treeOthers s.dev.devId (leAt pl 2 2) t = [])
    (hm : (maskBits 512 (leAt pl 8 64)).contains s.dev.devId = true) :
    Runs (.collSetup h pl) s (fun e => e.coll (byteAt pl 0) = (setupColl pl).place s.dev.devId t ∧ Answered s.dev e 0x0505 h .ok [] ∧
      Keeps s.dev e (fun a => BookReg a) ∧ SameUnits s.dev e) := by
  obtain ⟨hbooked, hans⟩ := serve_ends ha ((collSetup_eq hs h).1 ho hm) (by decide) rfl rfl
  rw [runs_iff (exec_collSetup h pl s), hbooked.coll, coll_setColl_same]
  exact ⟨rfl, hans, ((KeepsBut.setColl _ _ _ _).trans hbooked.keeps).finish⟩

theorem collSetup_asks_runs (s : State) {h : Hdr} {pl : List Byte} {t : List (Nat × Nat) × Nat} (ha : Accepted s.dev cCollSetup h pl)
    (hs : SetsUp s.dev pl t) (ho : treeOthers s.dev.devId (leAt pl 2 2) t ≠ []) :
    Runs (.collSetup h pl) s (fun e => (e.coll (byteAt pl 0)).asking = treeOthers s.dev.devId (leAt pl 2 2) t ∧
      (∀ m, m ∈ treeOthers s.dev.devId (leAt pl 2 2) t → MgmtTo s.dev e m 2 ([0, byteAt pl 0, byteAt pl 1, leAt pl 2 2, leAt pl 4 4] ++
        maskBits 512 (leAt pl 8 64))) ∧ Waits s.dev e cCollSetup h pl (.coll (byteAt pl 0)) ∧ Keeps s.dev e (fun a => LinkReg a) ∧
      SameUnits s.dev e) := by
  obtain ⟨hsends, hgoes⟩ := forEach_mgmtTo 2 ([0, byteAt pl 0, byteAt pl 1, leAt pl 2 2, leAt pl 4 4] ++ maskBits 512 (leAt pl 8 64))
    (treeOthers s.dev.devId (leAt pl 2 2) t) s.dev
  obtain ⟨hbooked, hwaits⟩ := serve_waits ha ((collSetup_eq hs h).2 ho) hsends.link.car
  rw [runs_iff (exec_collSetup h pl s), hbooked.coll, coll_setColl_same]
  exact ⟨rfl, fun m hm => ((hgoes m hm).later fun q l _ hu => hbooked.underway q l hu).mgmtTo, hwaits,
    (hbooked.links ((KeepsBut.links hsends.link).trans (.setColl _ _ _ _))).finish⟩

/-! ### COLL_RELEASE (R282) -/

/-- The devices of the tree of a group's slot beside this one. -/
def Dev.groupOthers (d : Dev) (x : Coll) : List Nat :=
  match d.treeOf x.root x.members with
  | some t => treeOthers d.devId x.root t
  | none => x.members.filter (· ≠ d.devId)

theorem mem_groupOthers {x : Coll} {t : List (Nat × Nat) × Nat} {m : Nat} (ht : d.treeOf x.root x.members = some t)
    (hm : m ∈ treeOthers d.devId x.root t) : m ∈ d.groupOthers x := by
  unfold Dev.groupOthers
  rwa [ht]

theorem collRelease_eq {pl : List Byte} (h : Hdr) (hg : byteAt pl 0 < 16) (hx : (d.coll (byteAt pl 0)).used = true ∧
    (d.coll (byteAt pl 0)).asking = [] ∧ (d.coll (byteAt pl 0)).issued = false) : d.collRelease h pl =
      ((d.forEach (d.groupOthers (d.coll (byteAt pl 0))) (fun d m => d.mgmtTo m 2 [1, byteAt pl 0])).setColl (byteAt pl 0) default,
        .done .ok 0 []) := by
  obtain ⟨hused, hasking, hissued⟩ := hx
  have hslot : ¬ 16 ≤ byteAt pl 0 := by omega
  unfold Dev.collRelease
  simp only [hused, hasking, hissued, hslot, decide_false, Bool.not_true, Bool.or_self, List.isEmpty_nil, Bool.false_eq_true, if_false]
  rfl

theorem collRelease_runs (s : State) {h : Hdr} {pl : List Byte} (ha : Accepted s.dev cCollRelease h pl) (hg : byteAt pl 0 < 16)
    (hx : (s.dev.coll (byteAt pl 0)).used = true ∧ (s.dev.coll (byteAt pl 0)).asking = [] ∧ (s.dev.coll (byteAt pl 0)).issued = false) :
    Runs (.collRelease h pl) s (fun e => e.coll (byteAt pl 0) = default ∧ Answered s.dev e 0x0507 h .ok [] ∧
      (∀ t, s.dev.treeOf (s.dev.coll (byteAt pl 0)).root (s.dev.coll (byteAt pl 0)).members = some t →
        ∀ m, m ∈ treeOthers s.dev.devId (s.dev.coll (byteAt pl 0)).root t → MgmtTo s.dev e m 2 [1, byteAt pl 0]) ∧
      Keeps s.dev e (fun a => LinkReg a) ∧ SameUnits s.dev e) := by
  obtain ⟨-, hfunc, -⟩ := id ha
  obtain ⟨hsends, hgoes⟩ := forEach_mgmtTo 2 [1, byteAt pl 0] (s.dev.groupOthers (s.dev.coll (byteAt pl 0))) s.dev
  obtain ⟨hbooked, hans⟩ := serve_ends ha (collRelease_eq h hg hx) (by decide) (hsends.link.rg _ (rrcfg_not_link hfunc)) hsends.link.car
  rw [runs_iff (exec_collRelease h pl s), hbooked.coll, coll_setColl_same]
  exact ⟨rfl, hans, fun t ht m hm => ((hgoes m (mem_groupOthers ht hm)).later fun q l _ hu => hbooked.underway q l hu).mgmtTo,
    (hbooked.links ((KeepsBut.links hsends.link).trans (.setColl _ _ _ _))).finish⟩

/-! ### COLL_STATUS (R282) -/

/-- What COLL_STATUS answers of a slot (R282). -/
def Coll.shown (x : Coll) : List Byte :=
  leBytes 2 x.epoch ++ leBytes 1 (if x.used = false ∨ x.asking ≠ [] then 0 else if x.rebuild then 3 else if x.issued then 2 else 1) ++
    zeros 1 ++ leBytes 2 x.root ++ leBytes 2 x.depth ++ leBytes 4 x.timeout ++ zeros 4

theorem collStatus_eq {pl : List Byte} (h : Hdr) (hg : byteAt pl 0 < 16)
    (hx : h.func = 0 ∨ (d.coll (byteAt pl 0)).used = false ∨ (d.coll (byteAt pl 0)).part = h.func) :
    d.collStatus h pl = (d, .done .ok 0 (d.coll (byteAt pl 0)).shown) := by
  have hdenied : ¬ ((16 ≤ byteAt pl 0 || (h.func ≠ 0 && (d.coll (byteAt pl 0)).used && (d.coll (byteAt pl 0)).part ≠ h.func)) = true) := by
    obtain hx | hx | hx := hx <;> simp [hx, hg]
  have hfree : ((! (d.coll (byteAt pl 0)).used || ! (d.coll (byteAt pl 0)).asking.isEmpty) = true) =
      ((d.coll (byteAt pl 0)).used = false ∨ (d.coll (byteAt pl 0)).asking ≠ []) := by
    simp
  unfold Dev.collStatus Coll.shown
  dsimp only
  rw [if_neg hdenied]
  simp only [hfree]

theorem collStatus_runs (s : State) {h : Hdr} {pl : List Byte} (ha : Accepted s.dev cCollStatus h pl) (hg : byteAt pl 0 < 16)
    (hx : h.func = 0 ∨ (s.dev.coll (byteAt pl 0)).used = false ∨ (s.dev.coll (byteAt pl 0)).part = h.func) :
    Runs (.collStatus h pl) s (fun e => Answered s.dev e 0x0508 h .ok (s.dev.coll (byteAt pl 0)).shown ∧
      Keeps s.dev e (fun a => BookReg a) ∧ SameUnits s.dev e) :=
  serve_reads s (exec_collStatus h pl) ha (collStatus_eq h hg hx) (fits_short ha (by simp [Coll.shown, length_leBytes, zeros]))

end Sys2Proof.Machine
end

section
/-! SUPPORT. COLL_ISSUE (R258, R282). -/

namespace Sys2Proof.Machine

open Sys2Proof

variable {d : Dev} {h : Hdr} {pl : List Byte}

theorem exec_collIssue (h : Hdr) (pl : List Byte) (s : State) : exec (.collIssue h pl) s = s.run (·.serve cCollIssue Dev.collIssue h pl) := rfl

/-! ### The bytes of the lanes -/

theorem leBytes_leNat (l : List Byte) : leBytes l.length (leNat l) = l := by
  induction l with
  | nil => rfl
  | cons b r ih =>
    have hlow : BitVec.ofNat 8 (b.toNat + 256 * leNat r) = b := BitVec.eq_of_toNat_eq (by rw [BitVec.toNat_ofNat]; omega)
    have hhigh : (b.toNat + 256 * leNat r) / 256 = leNat r := by omega
    rw [List.length_cons, leNat, leBytes, hlow, hhigh, ih]

/-- A field written out again is the bytes it was read from. -/
theorem leBytes_leAt {l : List Byte} {j k : Nat} (hl : j + k ≤ l.length) : leBytes k (leAt l j k) = (l.drop j).take k := by
  have hlen : ((l.drop j).take k).length = k := by simp; omega
  have hself := leBytes_leNat ((l.drop j).take k)
  rwa [hlen] at hself

/-- The lanes of a payload from offset `j`, written out again. -/
theorem lanes_bytes (l : List Byte) : ∀ (n j : Nat), l.length = j + 4 * n →
    (((upTo n).map (fun i => leAt l (j + 4 * i) 4)).map (leBytes 4)).flatten = l.drop j
  | 0, j, hl => by
    rw [List.drop_of_length_le (by omega)]
    rfl
  | n + 1, j, hl => by
    have hstep : (upTo (n + 1)).map (fun i => leAt l (j + 4 * i) 4) = leAt l j 4 :: (upTo n).map (fun i => leAt l (j + 4 + 4 * i) 4) := by
      unfold upTo
      rw [List.range_succ_eq_map, List.map_cons, List.map_map]
      refine congrArg₂ _ rfl (List.map_congr_left fun i _ => ?_)
      show leAt l (j + 4 * (i + 1)) 4 = _
      rw [show j + 4 * (i + 1) = j + 4 + 4 * i by omega]
    rw [hstep, List.map_cons, List.flatten_cons, lanes_bytes l n (j + 4) (by omega), leBytes_leAt (by omega), ← List.drop_drop,
      List.take_append_drop]

/-- A command that is executed has the length its opcode asks for (R513). -/
theorem accepted_length {c : CmdSpec} (ha : Accepted d c h pl) : c.len pl = true := by
  obtain ⟨-, -, hnone, -, -⟩ := ha
  by_contra hlen
  have hhead : (h.rsvd ≠ 0 || 16 ≤ h.part || 4 ≤ h.flags || ! c.len pl) = true := by
    rw [Bool.eq_false_iff.2 hlen, Bool.not_false, Bool.or_true]
  unfold Dev.refuse at hnone
  simp only [hhead, if_true] at hnone
  split at hnone <;> exact absurd hnone (by simp)

theorem issue_length (ha : Accepted d cCollIssue h pl) : pl.length = 8 + 4 * leAt pl 4 2 := by
  have hspec : (8 ≤ pl.length && pl.length == 8 + 4 * leAt pl 4 2) = true := accepted_length ha
  simpa using (Bool.and_eq_true_iff.1 hspec).2

/-! ### What COLL_ISSUE does to the slot -/

/-- The slot once it expects epoch `e`: what belongs to another epoch is gone. -/
def Coll.opened (x : Coll) (e : Nat) : Coll :=
  if x.cur = e then x else { x with cur := e, lanes := none, ncontrib := 0, got := [], sentUp := false }

/-- The slot of a member that has issued. -/
def Coll.joined (x : Coll) (op n : Nat) : Coll := { x with issued := true, op := op, count := n, ncontrib := x.ncontrib + 1, sentUp := false }

theorem opened_same (x : Coll) (e : Nat) : (x.opened e).children = x.children ∧ (x.opened e).parent = x.parent ∧
    (x.opened e).epoch = x.epoch ∧ (x.opened e).rebuild = x.rebuild ∧ (x.opened e).broken = x.broken ∧ (x.opened e).sat = x.sat ∧
    (x.opened e).nan = x.nan := by
  unfold Coll.opened
  split <;> exact ⟨rfl, rfl, rfl, rfl, rfl, rfl, rfl⟩

theorem opened_unheard {x : Coll} {e c : Nat} (hc : x.got.contains c = false) : (x.opened e).got.contains c = false := by
  unfold Coll.opened
  split
  · exact hc
  · rfl

theorem opened_empty {x : Coll} {e : Nat} (hx : x.lanes = none ∧ x.ncontrib = 0) : (x.opened e).lanes = none ∧ (x.opened e).ncontrib = 0 := by
  unfold Coll.opened
  split
  · exact hx
  · exact ⟨rfl, rfl⟩

/-- COLL_ISSUE is carried out: the group is the member's own and free, and nothing is held (R258, R282). -/
structure Issues (d : Dev) (h : Hdr) (pl : List Byte) : Prop where
  slot    : byteAt pl 0 < 16
  op      : byteAt pl 1 < 5
  count   : leAt pl 4 2 ≤ 256
  used    : (d.coll (byteAt pl 0)).used = true
  asking  : (d.coll (byteAt pl 0)).asking = []
  part    : (d.coll (byteAt pl 0)).part = h.part
  member  : (d.coll (byteAt pl 0)).members.contains d.devId = true
  issued  : (d.coll (byteAt pl 0)).issued = false
  rebuild : (d.coll (byteAt pl 0)).rebuild = false
  epoch   : (d.coll (byteAt pl 0)).epoch = leAt pl 2 2
  held    : (d.coll (byteAt pl 0)).held = []

/-- The slot that COLL_ISSUE leaves before its lanes are combined. -/
def Dev.issuedColl (d : Dev) (pl : List Byte) : Coll :=
  ((d.coll (byteAt pl 0)).opened (leAt pl 2 2)).joined (byteAt pl 1) (leAt pl 4 2)

/-- The lanes of a COLL_ISSUE. -/
def issueLanes (pl : List Byte) : List Nat := (upTo (leAt pl 4 2)).map (fun i => leAt pl (8 + 4 * i) 4)

/-- The device once this member has contributed: a BARRIER has no lanes, and only the root's count in a BROADCAST. -/
def Dev.contributed (d : Dev) (pl : List Byte) : Dev :=
  let e := (d.setColl (byteAt pl 0) (d.coll (byteAt pl 0))).setColl (byteAt pl 0) (d.issuedColl pl)
  if byteAt pl 1 = 0 || (byteAt pl 1 = 4 && (d.coll (byteAt pl 0)).root ≠ d.devId) then e
  else e.collCombine (byteAt pl 0) (byteAt pl 1) (issueLanes pl)

/-- What COLL_ISSUE answers of the slot `y` at once. -/
def Coll.answer (y : Coll) : Ans := .done .ok 0 (collAnswer y y.ncontrib (y.lanes.getD []))

theorem collIssue_eq (hi : Issues d h pl) :
    ((((d.contributed pl).collAdvance (byteAt pl 0)).coll (byteAt pl 0)).issued = true →
      d.collIssue h pl = ((d.contributed pl).collAdvance (byteAt pl 0), .wait (.coll (byteAt pl 0)))) ∧
    ((((d.contributed pl).collAdvance (byteAt pl 0)).coll (byteAt pl 0)).issued = false →
      d.collIssue h pl = ((d.contributed pl).collAdvance (byteAt pl 0), ((d.contributed pl).coll (byteAt pl 0)).answer)) := by
  obtain ⟨hslot, hop, hcount, hused, hasking, hpart, hmember, hissued, hrebuild, hepoch, hheld⟩ := hi
  have hdenied : ¬ ((16 ≤ byteAt pl 0 || 5 ≤ byteAt pl 1 || 256 < leAt pl 4 2 || ! (d.coll (byteAt pl 0)).used ||
      ! (d.coll (byteAt pl 0)).asking.isEmpty || (d.coll (byteAt pl 0)).part ≠ h.part ||
      ! (d.coll (byteAt pl 0)).members.contains d.devId) = true) := by
    simp only [hused, hasking, hpart, hmember, ne_eq, not_true_eq_false, decide_false, List.isEmpty_nil, Bool.not_true, Bool.or_false,
      Bool.or_eq_true, decide_eq_true_eq]
    omega
  have hbody : d.collIssue h pl = if (((d.contributed pl).collAdvance (byteAt pl 0)).coll (byteAt pl 0)).issued then
      ((d.contributed pl).collAdvance (byteAt pl 0), .wait (.coll (byteAt pl 0)))
      else ((d.contributed pl).collAdvance (byteAt pl 0), ((d.contributed pl).coll (byteAt pl 0)).answer) := by
    unfold Dev.collIssue
    dsimp only
    rw [if_neg hdenied, if_neg (by rw [hissued, hrebuild]; decide), if_neg (by rw [hepoch]; exact fun hne => hne rfl),
      collHeld_none d hheld, coll_setColl_same]
    rfl
  exact ⟨fun hyes => by rw [hbody, if_pos hyes], fun hno => by rw [hbody, if_neg (by rw [hno]; decide)]⟩

/-- A contribution changes the group's slot alone; what may change in it are the lanes and what goes with them. -/
theorem contributed_spec (d : Dev) (pl : List Byte) : (d.contributed pl).ungrouped = d.ungrouped ∧
    ((d.contributed pl).coll (byteAt pl 0) = d.issuedColl pl ∨ ∃ ls nan sat,
      (d.contributed pl).coll (byteAt pl 0) = (d.issuedColl pl).combined ls (byteAt pl 1) nan sat) := by
  unfold Dev.contributed
  dsimp only
  split
  · exact ⟨rfl, .inl (coll_setColl_same ..)⟩
  · obtain ⟨hrest, ls, op, nan, sat, hop, hcoll⟩ := collCombine_spec
      ((d.setColl (byteAt pl 0) (d.coll (byteAt pl 0))).setColl (byteAt pl 0) (d.issuedColl pl)) (byteAt pl 0) (byteAt pl 1) (issueLanes pl)
    rw [coll_setColl_same] at hop hcoll
    have hsame : op = byteAt pl 1 := hop.elim id id
    exact ⟨hrest, .inr ⟨ls, nan, sat, hsame ▸ hcoll⟩⟩

/-! ### A member that waits for a child -/

/-- The slot a contribution leaves, where a child has not been heard. -/
theorem contributed_waits {c : Nat} (hc : (d.coll (byteAt pl 0)).children.contains c = true)
    (hgot : (d.coll (byteAt pl 0)).got.contains c = false) :
    let y := (d.contributed pl).coll (byteAt pl 0)
    (y.children.contains c = true ∧ y.got.contains c = false) ∧ y.issued = true ∧ y.op = byteAt pl 1 ∧ y.count = leAt pl 4 2 ∧
      y.epoch = (d.coll (byteAt pl 0)).epoch := by
  intro y
  obtain ⟨hchildren, -, hepoch, -⟩ := opened_same (d.coll (byteAt pl 0)) (leAt pl 2 2)
  have hunheard := opened_unheard (e := leAt pl 2 2) hgot
  have hcontains : ((d.coll (byteAt pl 0)).opened (leAt pl 2 2)).children.contains c = true := by rwa [hchildren]
  obtain ⟨-, hy | ⟨ls, nan, sat, hy⟩⟩ := contributed_spec d pl
  · rw [show y = _ from hy]
    exact ⟨⟨hcontains, hunheard⟩, rfl, rfl, rfl, hepoch⟩
  · rw [show y = _ from hy]
    exact ⟨⟨hcontains, hunheard⟩, rfl, rfl, rfl, hepoch⟩

theorem collIssue_waits_runs (s : State) {c : Nat} (ha : Accepted s.dev cCollIssue h pl) (hi : Issues s.dev h pl)
    (hc : (s.dev.coll (byteAt pl 0)).children.contains c = true) (hgot : (s.dev.coll (byteAt pl 0)).got.contains c = false) :
    Runs (.collIssue h pl) s (fun e => (e.coll (byteAt pl 0)).issued = true ∧ (e.coll (byteAt pl 0)).op = byteAt pl 1 ∧
      (e.coll (byteAt pl 0)).count = leAt pl 4 2 ∧ (e.coll (byteAt pl 0)).epoch = leAt pl 2 2 ∧
      Waits s.dev e cCollIssue h pl (.coll (byteAt pl 0)) ∧ Keeps s.dev e (fun a => BookReg a) ∧ SameUnits s.dev e) := by
  obtain ⟨⟨hchild, hunheard⟩, hissued, hop, hcount, hepoch⟩ := contributed_waits hc hgot
  obtain ⟨hrest, -⟩ := contributed_spec s.dev pl
  have hbody := (collIssue_eq hi).1 (by rw [collAdvance_unheard _ hchild hunheard]; exact hissued)
  rw [collAdvance_unheard _ hchild hunheard] at hbody
  obtain ⟨hbooked, hwaits⟩ := serve_waits ha hbody (congrArg Dev.car hrest :)
  rw [runs_iff (exec_collIssue h pl s), hbooked.coll]
  exact ⟨hissued, hop, hcount, hepoch.trans hi.epoch, hwaits, ((KeepsBut.groups hrest _).trans hbooked.keeps).finish⟩

/-! ### A group of this device alone -/

/-- A slot whose collective has nothing in it yet, in a tree that is this device alone. -/
structure Coll.Alone (x : Coll) : Prop where
  broken   : x.broken = false
  parent   : x.parent = none
  children : x.children = []
  lanes    : x.lanes = none
  ncontrib : x.ncontrib = 0
  sat      : x.sat = false
  nan      : x.nan = false

/-- The first contribution of SUM or MAX stands in the slot as it came. -/
theorem contributed_first (hop : byteAt pl 1 = 1 ∨ byteAt pl 1 = 3) (hx : (d.coll (byteAt pl 0)).Alone) :
    (d.contributed pl).coll (byteAt pl 0) = (d.issuedColl pl).combined (issueLanes pl) (byteAt pl 1) false false := by
  obtain ⟨-, -, -, -, -, hsat, hnan⟩ := opened_same (d.coll (byteAt pl 0)) (leAt pl 2 2)
  obtain ⟨hlanes, -⟩ := opened_empty (e := leAt pl 2 2) ⟨hx.lanes, hx.ncontrib⟩
  have hsum : ¬ ((byteAt pl 1 = 0 || (byteAt pl 1 = 4 && (d.coll (byteAt pl 0)).root ≠ d.devId)) = true) := by
    obtain hop | hop := hop <;> simp [hop]
  unfold Dev.contributed
  dsimp only
  rw [if_neg hsum, collCombine_first _ _ (by rw [coll_setColl_same]; exact hlanes) (by omega), coll_setColl_same, coll_setColl_same]
  unfold Dev.issuedColl Coll.joined
  rw [hsat, hnan, hx.sat, hx.nan]

/-- A root with no children that has issued completes at once: what its slot holds then, and what the rest holds. -/
theorem collAdvance_completes {g : Nat} (hi : (d.coll g).issued = true) (hs : (d.coll g).sentUp = false)
    (hr : (d.coll g).rebuild = false ∧ (d.coll g).broken = false) (ht : (d.coll g).parent = none ∧ (d.coll g).children = []) :
    ((d.collAdvance g).coll g).issued = false ∧ ((d.collAdvance g).coll g).epoch = ((d.coll g).epoch + 1) % 65536 ∧
      (d.collAdvance g).mem = d.mem ∧ ∀ f, f < 16 → (d.collAdvance g).rg (CAR_RRCFG f) = d.rg (CAR_RRCFG f) := by
  obtain ⟨hmem, -, -, -, hring⟩ := collComplete_settles (d.setColl g { d.coll g with sentUp := true }) g .ok (d.coll g).ncontrib
    ((d.coll g).lanes.getD [])
  rw [collAdvance_alone d hi hs hr ht, collComplete_coll, coll_setColl_same]
  exact ⟨rfl, rfl, hmem, hring⟩

/-- The group of this device alone completes at once (R258). -/
theorem contributed_completes (hop : byteAt pl 1 = 1 ∨ byteAt pl 1 = 3) (hi : Issues d h pl) (hx : (d.coll (byteAt pl 0)).Alone) :
    let e := (d.contributed pl).collAdvance (byteAt pl 0)
    (e.coll (byteAt pl 0)).issued = false ∧ (e.coll (byteAt pl 0)).epoch = (leAt pl 2 2 + 1) % 65536 ∧ e.mem = d.mem ∧
      ∀ f, f < 16 → e.rg (CAR_RRCFG f) = d.rg (CAR_RRCFG f) := by
  obtain ⟨hchildren, hparent, hepoch, hrebuild, hbroken, -⟩ := opened_same (d.coll (byteAt pl 0)) (leAt pl 2 2)
  have hkept := KeepsBut.groups (contributed_spec d pl).1 (fun _ => False)
  have hy := contributed_first hop hx
  generalize d.contributed pl = c at hkept hy ⊢
  obtain ⟨hissued, hadvanced, hmem, hring⟩ := collAdvance_completes (d := c) (g := byteAt pl 0) (by rw [hy]; rfl) (by rw [hy]; rfl)
    (by rw [hy]; exact ⟨hrebuild.trans hi.rebuild, hbroken.trans hx.broken⟩)
    (by rw [hy]; exact ⟨hparent.trans hx.parent, hchildren.trans hx.children⟩)
  have hstart : (c.coll (byteAt pl 0)).epoch = leAt pl 2 2 := by rw [hy]; exact hepoch.trans hi.epoch
  rw [hstart] at hadvanced
  exact ⟨hissued, hadvanced, hmem.trans hkept.mem, fun f hf => (hring f hf).trans (hkept.rg _ id)⟩

/-- The answer of a group of this device alone: EPOCH, one contribution, no flags, and the lanes as they came. -/
theorem contributed_answer (ha : Accepted d cCollIssue h pl) (hop : byteAt pl 1 = 1 ∨ byteAt pl 1 = 3) (hi : Issues d h pl)
    (hx : (d.coll (byteAt pl 0)).Alone) : ((d.contributed pl).coll (byteAt pl 0)).answer =
      .done .ok 0 ((pl.drop 2).take 2 ++ leBytes 2 1 ++ zeros 4 ++ pl.drop 8) := by
  have hlen := issue_length ha
  obtain ⟨-, -, hepoch, -⟩ := opened_same (d.coll (byteAt pl 0)) (leAt pl 2 2)
  obtain ⟨-, hncontrib⟩ := opened_empty (e := leAt pl 2 2) ⟨hx.lanes, hx.ncontrib⟩
  have hstart : (d.issuedColl pl).epoch = leAt pl 2 2 := hepoch.trans hi.epoch
  have hone : (d.issuedColl pl).ncontrib = 1 := congrArg (· + 1) hncontrib
  have hbytes : ((issueLanes pl).map (leBytes 4)).flatten = pl.drop 8 := lanes_bytes pl _ 8 hlen
  have hzeros : ∀ l : List Byte, l ++ leBytes 1 0 ++ zeros 3 = l ++ zeros 4 := fun l => by rw [List.append_assoc]; rfl
  rw [contributed_first hop hx]
  unfold Coll.answer collAnswer Coll.combined
  simp only [hstart, hone, Option.getD_some, hbytes, natOf, Bool.false_eq_true, if_false, hzeros, leBytes_leAt (show 2 + 2 ≤ pl.length by omega)]

theorem collIssue_alone_runs (s : State) (ha : Accepted s.dev cCollIssue h pl) (hop : byteAt pl 1 = 1 ∨ byteAt pl 1 = 3)
    (hi : Issues s.dev h pl) (hx : (s.dev.coll (byteAt pl 0)).Alone) (hfits : Fits s.dev h (8 + 4 * leAt pl 4 2)) :
    Runs (.collIssue h pl) s (fun e => (e.coll (byteAt pl 0)).epoch = (leAt pl 2 2 + 1) % 65536 ∧ (e.coll (byteAt pl 0)).issued = false ∧
      AnsweredLast e 0x0506 h .ok ((pl.drop 2).take 2 ++ leBytes 2 1 ++ zeros 4 ++ pl.drop 8) ∧ SameMem s.dev e) := by
  obtain ⟨-, hfunc, -⟩ := id ha
  obtain ⟨hissued, hepoch, hmem, hring⟩ := contributed_completes hop hi hx
  have hlen := issue_length ha
  have hbody := (collIssue_eq hi).2 hissued
  rw [contributed_answer ha hop hi hx] at hbody
  have hsize : ((pl.drop 2).take 2 ++ leBytes 2 1 ++ zeros 4 ++ pl.drop 8).length = 8 + 4 * leAt pl 4 2 := by
    simp [length_leBytes, zeros]
    omega
  obtain ⟨hkeeps, -, hresp⟩ := serve_done ha hbody (hring _ hfunc) (by rwa [hsize])
  rw [runs_iff (exec_collIssue h pl s), finish_coll, coll_congr (desk_colls hkeeps.desk)]
  refine ⟨hepoch, hissued, ⟨_, by rw [finish_fn]; exact hresp⟩, fun a => ?_⟩
  rw [finish_mem, desk_mem hkeeps.desk, hmem]

end Sys2Proof.Machine
end

section
/-! SUPPORT. Reservations of the group slots between devices (R257, R283). -/

namespace Sys2Proof.Machine

open Sys2Proof

variable {d : Dev} {src g part root tmo : Nat} {members : List Nat}

theorem exec_groupReservationMessage (kind src g part root tmo : Nat) (members : List Nat) (s : State) :
    exec (.groupReservationMessage kind src g part root tmo members) s = s.run (·.groupMessage kind src g part root tmo members) := rfl

theorem takeMgmt_ungrouped (d : Dev) : d.takeMgmt.ungrouped = d.ungrouped := rfl

theorem takeMgmt_setColl (d : Dev) (g : Nat) (x : Coll) : (d.takeMgmt.setColl g x).ungrouped = d.ungrouped :=
  (setColl_ungrouped ..).trans (takeMgmt_ungrouped d)

theorem takeMgmt_coll (d : Dev) (g : Nat) : d.takeMgmt.coll g = d.coll g := rfl

theorem takeMgmt_creditsFree (d : Dev) (x : Coll) : d.takeMgmt.creditsFree x = d.creditsFree x := by
  have hport : d.takeMgmt.portTo = d.portTo := rfl
  have hcoll : d.takeMgmt.coll = d.coll := rfl
  unfold Dev.creditsFree
  rw [hport, hcoll]

/-- A message acted on that is answered with another: it is under way, and beside it the groups alone have changed. -/
theorem group_answers {d' : Dev} (hd : d'.ungrouped = d.ungrouped) (src : Nat) (args : List Nat) :
    MgmtTo d (d'.mgmtTo src 2 args).finish src 2 args ∧ Keeps d (d'.mgmtTo src 2 args).finish (fun a => LinkReg a) ∧
      SameUnits d (d'.mgmtTo src 2 args).finish :=
  ⟨((mgmtTo_goes d' src 2 args).base fun a _ => rg_of_ungrouped hd a).mgmtTo,
    ((KeepsBut.groups hd _).trans (.links (mgmtTo_sends d' src 2 args).link)).finish⟩

theorem mgmtTo_coll (d : Dev) (src : Nat) (args : List Nat) (g : Nat) : (d.mgmtTo src 2 args).coll g = d.coll g :=
  coll_congr (mgmtTo_sends d src 2 args).link.colls g

/-! ### A message that asks this device -/

/-- The slot that a reservation asks for, placed in its tree. -/
def askedColl (d : Dev) (part root tmo : Nat) (members : List Nat) (t : List (Nat × Nat) × Nat) : Coll :=
  (newColl part root tmo members).place d.devId t

theorem groupReserve_free {t : List (Nat × Nat) × Nat} (hg : g < 16) (hu : (d.coll g).used = false) (ht : d.treeOf root members = some t) :
    (d.creditsFree (askedColl d part root tmo members t) = true → d.groupMessage 0 src g part root tmo members =
      (d.takeMgmt.setColl g (askedColl d part root tmo members t)).mgmtTo src 2 [2, g]) ∧
    (d.creditsFree (askedColl d part root tmo members t) = false → d.groupMessage 0 src g part root tmo members =
      d.takeMgmt.mgmtTo src 2 [3, g]) := by
  have htree := (takeMgmt_treeOf d root members).trans ht
  have hcredits := takeMgmt_creditsFree d (askedColl d part root tmo members t)
  unfold askedColl at hcredits ⊢
  unfold Dev.groupMessage
  simp only [Nat.mod_eq_of_lt hg, takeMgmt_coll, hu, htree, if_true, Bool.false_eq_true, if_false]
  rw [show d.takeMgmt.devId = d.devId from rfl, hcredits]
  exact ⟨fun h => by rw [h, if_pos rfl], fun h => by rw [h, if_neg (by decide)]⟩

theorem groupReserve_free_runs (s : State) {t : List (Nat × Nat) × Nat} (hg : g < 16) (hu : (s.dev.coll g).used = false)
    (ht : s.dev.treeOf root members = some t) : Runs (.groupReservationMessage 0 src g part root tmo members) s (fun e =>
      (s.dev.creditsFree (askedColl s.dev part root tmo members t) = true → e.coll g = askedColl s.dev part root tmo members t) ∧
      (s.dev.creditsFree (askedColl s.dev part root tmo members t) = false → e.coll g = s.dev.coll g) ∧
      MgmtTo s.dev e src 2 [if s.dev.creditsFree (askedColl s.dev part root tmo members t) then 2 else 3, g] ∧
      Keeps s.dev e (fun a => LinkReg a) ∧ SameUnits s.dev e) := by
  obtain ⟨hyes, hno⟩ := groupReserve_free (src := src) (part := part) (tmo := tmo) hg hu ht
  rw [runs_iff (exec_groupReservationMessage 0 src g part root tmo members s)]
  cases hc : s.dev.creditsFree (askedColl s.dev part root tmo members t) with
  | true =>
    rw [hyes hc, finish_coll, mgmtTo_coll, coll_setColl_same, if_pos rfl]
    exact ⟨fun _ => rfl, fun h => absurd h (by decide), group_answers (takeMgmt_setColl ..) src [2, g]⟩
  | false =>
    rw [hno hc, finish_coll, mgmtTo_coll, if_neg (by decide)]
    exact ⟨fun h => absurd h (by decide), fun _ => rfl, group_answers (takeMgmt_ungrouped _) src [3, g]⟩

theorem groupReserve_used (hg : g < 16) (hu : (d.coll g).used = true) :
    d.groupMessage 0 src g part root tmo members = d.takeMgmt.mgmtTo src 2 [4, g] := by
  unfold Dev.groupMessage
  simp only [Nat.mod_eq_of_lt hg, takeMgmt_coll, hu, if_true]

/-- A member that has reserved for a setup already refused is told to release (R257). -/
theorem groupReserved_late (hg : g < 16) (hu : (d.coll g).used = false) :
    d.groupMessage 2 src g part root tmo members = d.takeMgmt.mgmtTo src 2 [1, g] := by
  unfold Dev.groupMessage
  simp only [Nat.mod_eq_of_lt hg, takeMgmt_coll, hu, Nat.reduceEqDiff, Bool.not_false, if_true, if_false]

/-- A message whose only effect is the one that answers it. -/
theorem groupMessage_answered_runs (s : State) {kind : Nat} {args : List Nat}
    (he : s.dev.groupMessage kind src g part root tmo members = s.dev.takeMgmt.mgmtTo src 2 args) :
    Runs (.groupReservationMessage kind src g part root tmo members) s (fun e => e.coll g = s.dev.coll g ∧ MgmtTo s.dev e src 2 args ∧
      Keeps s.dev e (fun a => LinkReg a) ∧ SameUnits s.dev e) := by
  rw [runs_iff (exec_groupReservationMessage kind src g part root tmo members s), he, finish_coll, mgmtTo_coll]
  exact ⟨rfl, group_answers (takeMgmt_ungrouped _) src args⟩

theorem groupRelease_runs (s : State) (hg : g < 16) : Runs (.groupReservationMessage 1 src g part root tmo members) s (fun e =>
    e.coll g = default ∧ Keeps s.dev e (fun _ => False) ∧ SameUnits s.dev e) := by
  have hrelease : s.dev.groupMessage 1 src g part root tmo members = s.dev.takeMgmt.setColl g default := by
    unfold Dev.groupMessage
    simp only [Nat.mod_eq_of_lt hg, Nat.reduceEqDiff, if_true, if_false]
  rw [runs_iff (exec_groupReservationMessage 1 src g part root tmo members s), hrelease, finish_coll, coll_setColl_same]
  exact ⟨rfl, (KeepsBut.groups (takeMgmt_setColl ..) _).finish⟩

/-! ### The answers of the devices asked -/

/-- The COLL_SETUP that waits for group `g`. -/
def setupWaits (g : Nat) (w : Waiting) : Bool := w.what == .coll g && w.opcode == 0x0505

/-- The last device asked has reserved: the group stands, and its COLL_SETUP ends (R283). -/
theorem groupReserved_last (hg : g < 16) (hx : (d.coll g).used = true ∧ (d.coll g).asking = [src] ∧
    (d.coll g).members.contains d.devId = true) : d.groupMessage 2 src g part root tmo members =
      (d.takeMgmt.setColl g { d.coll g with asking := [] }).endWaiting (setupWaits g) (fun _ => (.ok, [])) := by
  obtain ⟨hused, hasking, hmember⟩ := hx
  have hasked : (d.coll g).asking.contains src = true := by simp [hasking]
  have hnone : (d.coll g).asking.filter (· ≠ src) = [] := by simp [hasking]
  have hown : d.takeMgmt.devId = d.devId := rfl
  unfold Dev.groupMessage
  dsimp only
  rw [Nat.mod_eq_of_lt hg, takeMgmt_coll, if_neg (by decide), if_neg (by decide), if_neg (by rw [hused]; decide),
    if_neg (by rw [hasked]; decide), if_pos rfl, hnone, if_pos List.isEmpty_nil, hown, hmember]
  rfl

theorem groupReserved_last_runs (s : State) (hg : g < 16) (hx : (s.dev.coll g).used = true ∧ (s.dev.coll g).asking = [src] ∧
    (s.dev.coll g).members.contains s.dev.devId = true) : Runs (.groupReservationMessage 2 src g part root tmo members) s (fun e =>
      (e.coll g).used = true ∧ (e.coll g).asking = [] ∧ SameMem s.dev e) := by
  have hends := endWaiting_settles (s.dev.takeMgmt.setColl g { s.dev.coll g with asking := [] }) (setupWaits g) (fun _ => (.ok, []))
  obtain ⟨hused, -⟩ := id hx
  rw [runs_iff (exec_groupReservationMessage 2 src g part root tmo members s), groupReserved_last hg hx, finish_coll,
    coll_congr hends.colls, coll_setColl_same]
  refine ⟨hused, rfl, fun a => ?_⟩
  rw [finish_mem, hends.mem]
  rfl

/-- The devices that hold a reservation when one asked, `src`, refuses: all of the tree but it and those still asked (R283). -/
def Dev.reservers (d : Dev) (x : Coll) (src : Nat) : List Nat :=
  let others := match d.treeOf x.root x.members with
    | some t => treeOthers d.devId x.root t
    | none => []
  others.filter (fun m => m ≠ src && ! x.asking.contains m)

theorem mem_reservers {x : Coll} {t : List (Nat × Nat) × Nat} {m : Nat} (ht : d.treeOf x.root x.members = some t)
    (hm : m ∈ treeOthers d.devId x.root t) (hsrc : m ≠ src) (hasked : x.asking.contains m = false) : m ∈ d.reservers x src := by
  unfold Dev.reservers
  rw [ht]
  exact List.mem_filter.2 ⟨hm, by rw [hasked]; simp [hsrc]⟩

theorem takeMgmt_reservers (d : Dev) (x : Coll) (src : Nat) : d.takeMgmt.reservers x src = d.reservers x src := by
  unfold Dev.reservers
  rw [takeMgmt_treeOf]
  rfl

/-- A device asked refuses: those that reserved are told to release, and the COLL_SETUP ends (R283). -/
theorem groupRefused (hg : g < 16) {kind : Nat} (hk : kind = 3 ∨ kind = 4) (hx : (d.coll g).used = true ∧ (d.coll g).asking.contains src = true) :
    d.groupMessage kind src g part root tmo members =
      ((d.takeMgmt.forEach (d.reservers (d.coll g) src) (fun d m => d.mgmtTo m 2 [1, g])).setColl g default).endWaiting (setupWaits g)
        (fun _ => (if kind = 3 then .noResource else .denied, [])) := by
  obtain ⟨hused, hasked⟩ := hx
  rw [← takeMgmt_reservers]
  unfold Dev.groupMessage
  dsimp only
  rw [Nat.mod_eq_of_lt hg, takeMgmt_coll, if_neg (by omega), if_neg (by omega), if_neg (by rw [hused]; decide),
    if_neg (by rw [hasked]; decide), if_neg (by omega)]
  rfl

theorem groupRefused_runs (s : State) {kind : Nat} (hg : g < 16) (hk : kind = 3 ∨ kind = 4)
    (hx : (s.dev.coll g).used = true ∧ (s.dev.coll g).asking.contains src = true) :
    Runs (.groupReservationMessage kind src g part root tmo members) s (fun e => e.coll g = default ∧
      (∀ t m, s.dev.treeOf (s.dev.coll g).root (s.dev.coll g).members = some t → m ∈ treeOthers s.dev.devId (s.dev.coll g).root t →
        m ≠ src → (s.dev.coll g).asking.contains m = false → MgmtTo s.dev e m 2 [1, g]) ∧ SameMem s.dev e) := by
  obtain ⟨hsends, hgoes⟩ := forEach_mgmtTo 2 [1, g] (s.dev.reservers (s.dev.coll g) src) s.dev.takeMgmt
  rw [runs_iff (exec_groupReservationMessage kind src g part root tmo members s), groupRefused hg hk hx, finish_coll]
  generalize s.dev.takeMgmt.forEach (s.dev.reservers (s.dev.coll g) src) (fun d m => d.mgmtTo m 2 [1, g]) = d' at hsends hgoes ⊢
  have hends := endWaiting_settles (d'.setColl g default) (setupWaits g) (fun _ => (if kind = 3 then .noResource else .denied, []))
  rw [coll_congr hends.colls, coll_setColl_same]
  refine ⟨rfl, fun t m ht hm hsrc hasked => ?_, fun a => ?_⟩
  · have hgo := (hgoes m (mem_reservers ht hm hsrc hasked)).base (d := s.dev) fun _ _ => rfl
    exact (hgo.later fun q l _ hu => hends.underway hu).mgmtTo
  · rw [finish_mem, hends.mem]
    exact congrArg (Memory.read · a) hsends.link.mem

/-- Settles O17: each command, packet, timer and message of a collective group by what it does to the group's slot, with what the sending
of messages and the answers to waiting commands leave as it was. -/
theorem collectives : Obligations.Collectives := by
  unfold Obligations.Collectives
  refine ⟨?_, ?_, ?_, ?_, fun s _ _ => collRelease_runs s, ?_, ?_, fun s _ _ => collUp_bad_runs s, ?_, ?_,
    fun s _ _ _ _ => earlyEpochDrop_runs s, ?_, ?_, ?_, ?_, ?_, ?_, ?_⟩
  · intro s h pl t ha hslot hpart hroot htmo hfree htree hcredits
    exact collSetup_alone_runs s ha ⟨hslot, hpart, hroot, htmo, hfree, htree, hcredits⟩
  · intro s h pl t ha hslot hpart hroot htmo hfree htree hcredits
    exact collSetup_asks_runs s ha ⟨hslot, hpart, hroot, htmo, hfree, htree, hcredits⟩
  · rintro s h pl _ ha rfl hslot hop hcount ⟨hused, hasking, hpart, hmember⟩ ⟨hissued, hrebuild, hbroken, hepoch⟩
      ⟨hparent, hchildren, hheld⟩ ⟨hlanes, hncontrib, hsat, hnan⟩
    exact collIssue_alone_runs s ha hop ⟨hslot, by omega, hcount, hused, hasking, hpart, hmember, hissued, hrebuild, hepoch, hheld⟩
      ⟨hbroken, hparent, hchildren, hlanes, hncontrib, hsat, hnan⟩
  · rintro s h pl _ c ha rfl hslot hop hcount ⟨hused, hasking, hpart, hmember⟩ ⟨hissued, hrebuild, hepoch⟩ hheld
    exact collIssue_waits_runs s ha ⟨hslot, hop, hcount, hused, hasking, hpart, hmember, hissued, hrebuild, hepoch, hheld⟩
  · rintro s h pl _ ha hslot rfl
    exact collStatus_runs s ha hslot
  · rintro s q g l _ hq hgood htype hg rfl ⟨hused, hchild, hmember, hissued, hcur⟩
    exact collUp_runs s hq ⟨hgood, htype⟩ hg ⟨hused, hchild, hmember⟩ hissued hcur
  · rintro s q g l _ hq hgood htype hg rfl ⟨hused, hchildren, hmember, hissued⟩
    exact collDown_runs s ⟨hgood, htype⟩ hg ⟨hused, hmember⟩ hchildren hissued
  · intro s g ⟨hused, hissued, hmember, hheld⟩
    exact collTimeout_runs s hused hissued hheld
  · intro s g epoch ⟨hused, hrebuild, hheld⟩
    exact treeRebuildEnd_runs s epoch hused hrebuild hheld
  · intro s src g part root tmo members t
    exact groupReserve_free_runs s
  · exact fun s src g part root tmo members hg hu => groupMessage_answered_runs s (groupReserve_used hg hu)
  · exact fun s src g part root tmo members hg hu => groupMessage_answered_runs s (groupReserved_late hg hu)
  · exact fun s src g part root tmo members => groupRelease_runs s
  · exact fun s src g part root tmo members => groupReserved_last_runs s
  · exact fun s kind src g part root tmo members => groupRefused_runs s

end Sys2Proof.Machine
end

section
/-! SUPPORT. EARLY_PRESENT of a record whose axon entry is uncorrectable: the fault abandons a checkpoint copy, and the command that waits
for it was sent by no S-core of the device. -/

namespace Sys2Proof.Machine

open Sys2Proof

/-- The number of an S-core, far above the 16 there are, whose Tocsin would have the LOST count of its partition queue at TUN_RXEV_LO:
TOC_PRQLOST 288 (272 + tunnelScore - 289) is that address. -/
def tunnelScore : Nat := 17 + (TUN_RXEV_LO - TOC_PRQLOST 288 0) / 0x40

/-- The CKPT_NOW that waits for the copy, as that S-core would have sent it. -/
def tunnelWaiting : Waiting :=
  { opcode := 0x0708, names := true, ro := false, hdr := { (default : Hdr) with func := 0x100 + tunnelScore }, pl := [], what := .ckpt }

/-- Axon entry 0 of die 0 is partition 0's, and its word is uncorrectable; an ECC_AXON fault Mutes. One early record of site 0, which is
partition 0's, names that entry and is due. -/
def dueRecord : Dev :=
  { ((default : Dev).setR (AXN_PBASE 0 0) 0x80000000).setR (FLT_ACT (fEccAxon - 0x102)) 1 with
    ecc := [(axAddr 0 0, 2)]
    early := [{ site := 0, beat := 0, recs := [0] }] }

/-- A checkpoint copy of partition 0 runs for a command of `tunnelScore`, which waits at the CKPT in its last descriptor with 63 records
in its queue. -/
def strayEarly : Dev :=
  { ((dueRecord.setSeq tunnelScore 2 0).setR (SEQ_PC tunnelScore) 4095).setScore tunnelScore
      { (default : SCore) with prog := [(4095, [0x15#8])] } |>.setPart 0
        { (default : Part) with ckpt := { (default : Ckpt) with copy := some (0, 0) } } with
    tocq := [(272 + tunnelScore, List.replicate 63 default)]
    car := { (default : Carillon) with waiting := [tunnelWaiting] } }

/-- One record is due, and none was counted before. -/
theorem strayEarly_due : strayEarly.rg64 TUN_RXEV_LO = 0 ∧
    ((strayEarly.early.filter (fun x => sitePart (strayEarly.site x.site) == 0 && decide (beatSub x.beat (strayEarly.beat 0) ≤ 0))).map
      (fun x => x.recs.length)).sum = 1 := by
  decide +kernel

/-- The fault ends the command and with it the descriptor; the S-core faults past its last one, and the record of that fault, for which
the queue has no room, is counted over the one record presented. -/
theorem strayEarly_presented : (strayEarly.earlyPresent 0).rg64 TUN_RXEV_LO = 2 := by decide +kernel

theorem not_follow_rxev : ¬ FollowReg TUN_RXEV_LO ∧ ¬ FollowReg (TUN_RXEV_LO + 4) := by
  unfold FollowReg TUN_RXEV_LO FLT_STAT TAB_BSTAT FLT_PMUTE TAB_CHSTAT PWR_DSTAT
  omega

theorem exec_earlyPresent (p : Nat) (s : State) : exec (.earlyPresent p) s = s.run (·.earlyPresent p) := rfl

/-- Refutes O22: its clause of EARLY_PRESENT leaves the requesters of the waiting commands unbounded, so one may be an S-core whose queue
would lie over the counter of the records received. -/
theorem not_tunnelIngressAndPtp : ¬ Obligations.TunnelIngressAndPtp := by
  rintro ⟨-, -, -, -, -, -, -, hearly, -⟩
  obtain ⟨hzero, hone⟩ := strayEarly_due
  obtain ⟨hlo, hhi⟩ := not_follow_rxev
  obtain ⟨-, hcount⟩ := (runs_iff (exec_earlyPresent _ _)).1 (hearly ⟨strayEarly, []⟩ 0 (by decide))
  have htwo : (strayEarly.earlyPresent 0).finish.rg64 TUN_RXEV_LO = 2 := by
    unfold Dev.rg64
    rw [rg_finish _ hlo, rg_finish _ hhi]
    exact strayEarly_presented
  rw [htwo, hzero, hone] at hcount
  exact absurd hcount (by decide)

end Sys2Proof.Machine
end

section
/-! SUPPORT. Tunnel egress and the links of Ethernet ports: a gathered datagram sent or lost, and what a link that comes up or goes down
shows (R284, R293, R294). -/

namespace Sys2Proof.Machine

open Sys2Proof

variable (d : Dev)

theorem exec_tunnelEgressSend (k : Nat) (s : State) : exec (.tunnelEgressSend k) s = s.run (·.egressSend k) := rfl
theorem exec_tunnelCoalesceExpiry (k : Nat) (s : State) : exec (.tunnelCoalesceExpiry k) s = s.run (·.tunCoalesce k) := rfl
theorem exec_ethLinkUp (x : EthLink) (s : State) : exec (.ethLinkUp x) s = s.run (·.ethLinkUp x.w x.up) := rfl
theorem exec_ethLinkDown (w : Nat) (s : State) : exec (.ethLinkDown w) s = s.run (·.ethLinkDown w) := rfl

/-- The registers of the tunnel are none of the books and follow nothing. -/
theorem tunReg_plain {a : Nat} (h : 0x60000 ≤ a ∧ a < 0x70000) : ¬ BookReg a ∧ ¬ FollowReg a := by
  refine ⟨fun hb => ?_, ?_⟩
  · have := LinkReg.place (.inl hb)
    omega
  · unfold FollowReg FLT_STAT TAB_BSTAT FLT_PMUTE TAB_CHSTAT PWR_DSTAT
    omega

theorem rg_finish_tun {a : Nat} (h : 0x60000 ≤ a ∧ a < 0x70000) : d.finish.rg a = d.rg a := rg_finish d (tunReg_plain h).2

theorem BookKeeps.rg_tun {d e : Dev} (h : BookKeeps d e) {a : Nat} (ha : 0x60000 ≤ a ∧ a < 0x70000) : e.finish.rg a = d.rg a :=
  (rg_finish_tun e ha).trans (h.rg a (tunReg_plain ha).1)

/-- The configuration and the status of an Ethernet port. -/
theorem ethReg_place {w : Nat} (hw : w < 2) :
    (0x60000 ≤ TUN_PCFG w ∧ TUN_PCFG w < 0x70000) ∧ (0x60000 ≤ TUN_PSTAT w ∧ TUN_PSTAT w < 0x70000) ∧ TUN_PCFG w ≠ TUN_PSTAT w := by
  unfold TUN_PCFG TUN_PSTAT
  omega

/-! ### Site entries -/

theorem site_congr {d e : Dev} (h : e.sites = d.sites) (k : Nat) : e.site k = d.site k := by
  unfold Dev.site
  rw [h]

theorem length_site (k : Nat) : (d.site k).length = 64 := length_padTo 64 _

theorem site_setSite_same {x : List Byte} (k : Nat) (hx : x.length = 64) : (d.setSite k x).site k = x := by
  unfold Dev.site Dev.setSite
  rw [SMap.get_set_same, padTo_same hx]

theorem site_setSite_ne {j k : Nat} (x : List Byte) (h : j ≠ k) : (d.setSite k x).site j = d.site j := by
  unfold Dev.site Dev.setSite
  rw [SMap.get_set_ne _ _ _ h]

/-! ### A gathered datagram (R293, R294) -/

/-- The gathered datagram `k` is `x`, taken from the buffer. -/
def Dev.tunTaken (k : Nat) : Dev := { d with tunPacks := removeAt d.tunPacks k }

/-- The entry of a site once a datagram has gone to it: SEQTX is advanced. -/
def sentEntry (e : List Byte) : List Byte := splice e 48 (leBytes 4 (leAt e 48 4 + 1))

/-- Gathered datagram `k`, which is `x`, has left by port `w`. -/
def Dev.tunSent (k w : Nat) (x : TunPack) : Dev :=
  (((d.tunTaken k).setSite x.site (sentEntry (d.site x.site))).bump64 TUN_TXEV_LO x.recs.length).emit
    (.frame w (d.datagram w (d.site x.site) x.beat x.recs))

variable {d}

theorem tunCoalesce_up {k w : Nat} {x : TunPack} (hk : d.tunPacks[k]? = some x) (hw : d.sitePortUp (d.site x.site) = some w) :
    d.tunCoalesce k = d.tunSent k w x := by
  have hport : (d.tunTaken k).sitePortUp ((d.tunTaken k).site x.site) = some w := hw
  have hsend : d.tunCoalesce k = (d.tunTaken k).sendTun x := by
    unfold Dev.tunCoalesce
    rw [hk]
    rfl
  rw [hsend]
  unfold Dev.sendTun
  dsimp only
  rw [hport]
  rfl

theorem tunCoalesce_down {k : Nat} {x : TunPack} (hk : d.tunPacks[k]? = some x) (hw : d.sitePortUp (d.site x.site) = none) :
    d.tunCoalesce k = (d.tunTaken k).bump TUN_LINKDROP x.recs.length := by
  have hport : (d.tunTaken k).sitePortUp ((d.tunTaken k).site x.site) = none := hw
  have hsend : d.tunCoalesce k = (d.tunTaken k).sendTun x := by
    unfold Dev.tunCoalesce
    rw [hk]
    rfl
  rw [hsend]
  unfold Dev.sendTun
  dsimp only
  rw [hport]

/-- Egress sends a datagram that is full, or whose beat's lookups have ended, as at the end of COALESCE. -/
theorem egressSend_ready {k : Nat} {x : TunPack} (hk : d.tunPacks[k]? = some x)
    (hready : d.datagramMax (d.site x.site) ≤ x.recs.length ∨ (d.dieDone 0 x.part x.beat = true ∧ d.dieDone 1 x.part x.beat = true)) :
    d.egressSend k = d.tunCoalesce k := by
  unfold Dev.egressSend
  rw [hk]
  exact if_pos (by simpa using hready)

variable (d)

/-- What a datagram sent leaves behind, once what follows the state has followed it. -/
theorem tunSent_finish (k w : Nat) (x : TunPack) :
    (d.tunSent k w x).finish.tunPacks = removeAt d.tunPacks k ∧
      Output.frame w (d.datagram w (d.site x.site) x.beat x.recs) ∈ (d.tunSent k w x).finish.out ∧
      (d.tunSent k w x).finish.site x.site = sentEntry (d.site x.site) ∧
      (d.tunSent k w x).finish.rg64 TUN_TXEV_LO = inc64 (d.rg64 TUN_TXEV_LO) x.recs.length ∧
      Keeps d (d.tunSent k w x).finish (fun a => a = TUN_TXEV_LO ∨ a = TUN_TXEV_HI) ∧ SameUnits d (d.tunSent k w x).finish := by
  have hentry : (sentEntry (d.site x.site)).length = 64 := (length_splice ..).trans (length_site d x.site)
  have hcount := rg64_bump64_same ((d.tunTaken k).setSite x.site (sentEntry (d.site x.site))) TUN_TXEV_LO x.recs.length
  have hother := fun a (ha : ¬ (a = TUN_TXEV_LO ∨ a = TUN_TXEV_HI)) =>
    rg_bump64_ne ((d.tunTaken k).setSite x.site (sentEntry (d.site x.site))) (a := TUN_TXEV_LO) x.recs.length (not_or.1 ha)
  obtain ⟨r, hr⟩ := bump64_regs_only ((d.tunTaken k).setSite x.site (sentEntry (d.site x.site))) TUN_TXEV_LO x.recs.length
  unfold Dev.tunSent
  rw [hr] at hcount hother ⊢
  refine ⟨finish_tunPacks _, ?_, ?_, ?_, keeps_finish rfl rfl rfl hother⟩
  · rw [finish_out]
    exact List.mem_append_right _ (List.mem_singleton_self _)
  · exact (site_congr (finish_sites _) x.site).trans (site_setSite_same (d.tunTaken k) x.site hentry)
  · exact (rg64_congr (rg_finish_tun _ (by decide)) (rg_finish_tun _ (by decide))).trans hcount

theorem tunnelEgressSend_runs (s : State) {k w : Nat} {x : TunPack} (hk : s.dev.tunPacks[k]? = some x)
    (hw : s.dev.sitePortUp (s.dev.site x.site) = some w) (hready : s.dev.datagramMax (s.dev.site x.site) ≤ x.recs.length ∨
      (s.dev.dieDone 0 x.part x.beat = true ∧ s.dev.dieDone 1 x.part x.beat = true)) :
    Runs (.tunnelEgressSend k) s (fun e => e.tunPacks = removeAt s.dev.tunPacks k ∧
      Output.frame w (s.dev.datagram w (s.dev.site x.site) x.beat x.recs) ∈ e.out ∧ e.site x.site = sentEntry (s.dev.site x.site) ∧
      e.rg64 TUN_TXEV_LO = inc64 (s.dev.rg64 TUN_TXEV_LO) x.recs.length ∧
      Keeps s.dev e (fun a => a = TUN_TXEV_LO ∨ a = TUN_TXEV_HI) ∧ SameUnits s.dev e) := by
  rw [runs_iff (exec_tunnelEgressSend _ _), egressSend_ready hk hready, tunCoalesce_up hk hw]
  exact tunSent_finish s.dev k w x

theorem tunnelCoalesceExpiry_up_runs (s : State) {k w : Nat} {x : TunPack} (hk : s.dev.tunPacks[k]? = some x)
    (hw : s.dev.sitePortUp (s.dev.site x.site) = some w) :
    Runs (.tunnelCoalesceExpiry k) s (fun e => e.tunPacks = removeAt s.dev.tunPacks k ∧
      Output.frame w (s.dev.datagram w (s.dev.site x.site) x.beat x.recs) ∈ e.out ∧
      Keeps s.dev e (fun a => a = TUN_TXEV_LO ∨ a = TUN_TXEV_HI) ∧ SameUnits s.dev e) := by
  obtain ⟨hpacks, hframe, -, -, hkeeps, hunits⟩ := tunSent_finish s.dev k w x
  rw [runs_iff (exec_tunnelCoalesceExpiry _ _), tunCoalesce_up hk hw]
  exact ⟨hpacks, hframe, hkeeps, hunits⟩

theorem tunnelCoalesceExpiry_down_runs (s : State) {k : Nat} {x : TunPack} (hk : s.dev.tunPacks[k]? = some x)
    (hw : s.dev.sitePortUp (s.dev.site x.site) = none) :
    Runs (.tunnelCoalesceExpiry k) s (fun e => e.tunPacks = removeAt s.dev.tunPacks k ∧
      e.rg TUN_LINKDROP = satInc (s.dev.rg TUN_LINKDROP) x.recs.length % 2 ^ 32 ∧ Keeps s.dev e (fun a => a = TUN_LINKDROP) ∧
      SameUnits s.dev e) := by
  rw [runs_iff (exec_tunnelCoalesceExpiry _ _), tunCoalesce_down hk hw]
  refine ⟨finish_tunPacks _, ?_, keeps_finish rfl rfl rfl (fun a ha => rg_bump_ne _ ha)⟩
  rw [rg_finish_tun _ (by decide), rg_bump_same]
  rfl

/-! ### Links (R284, R294) -/

/-- Setting a field of a register that does not follow the state sets it and no other register. -/
theorem setF_finish {a lo w : Nat} (ha : ¬ FollowReg a) (h : lo + w ≤ 32) (v : Nat) :
    (d.setF a lo w v).finish.fld a lo w = v % 2 ^ w ∧ Keeps d (d.setF a lo w v).finish (fun b => b = a) ∧
      SameUnits d (d.setF a lo w v).finish :=
  ⟨by rw [fld_finish _ ha, fld_setF_same d h], regs_finish_keeps (setF_bare d a lo w v) (fun _ hb => rg_setF_ne d hb)⟩

/-- LINK of an Ethernet port's status set to `v`: so the port shows it, and is UP where `v` is 3. -/
theorem ethStatus_finish {w v : Nat} (hw : w < 2) (hcfg : d.flag (TUN_PCFG w) 0 = true) (hv : v < 4) :
    let e := (d.setF (TUN_PSTAT w) 0 2 v).finish
    e.fld (TUN_PSTAT w) 0 2 = v ∧ e.ethUp w = (v == 3) ∧ Keeps d e (fun a => a = TUN_PSTAT w) ∧ SameUnits d e := by
  obtain ⟨hpcfg, hpstat, hne⟩ := ethReg_place hw
  obtain ⟨hfld, hkeeps⟩ := setF_finish d (tunReg_plain hpstat).2 (show 0 + 2 ≤ 32 by decide) v
  replace hfld := hfld.trans (Nat.mod_eq_of_lt hv)
  refine ⟨hfld, ?_, hkeeps⟩
  unfold Dev.ethUp
  rw [hfld, flag_finish _ (tunReg_plain hpcfg).2, flag_setF_ne _ (.inl hne), hcfg, Bool.true_and]

theorem ethLinkUp_trained_runs (s : State) {w : Nat} (hw : w < 2) (hcfg : s.dev.flag (TUN_PCFG w) 0 = true) :
    Runs (.ethLinkUp ⟨w, true⟩) s (fun e => e.ethUp w = true ∧ e.fld (TUN_PSTAT w) 0 2 = 3 ∧ Keeps s.dev e (fun a => a = TUN_PSTAT w) ∧
      SameUnits s.dev e) := by
  obtain ⟨hfld, hup, hkeeps⟩ := ethStatus_finish s.dev hw hcfg (show 3 < 4 by decide)
  have hup' : s.dev.ethLinkUp w true = s.dev.setF (TUN_PSTAT w) 0 2 3 := by
    unfold Dev.ethLinkUp
    simp [hcfg]
  rw [runs_iff (exec_ethLinkUp _ _), hup']
  exact ⟨hup, hfld, hkeeps⟩

theorem ethLinkUp_negotiated_runs (s : State) {w : Nat} (hw : w < 2) (hcfg : s.dev.flag (TUN_PCFG w) 0 = true) :
    Runs (.ethLinkUp ⟨w, false⟩) s (fun e => e.fld (TUN_PSTAT w) 0 2 =
        (if s.dev.fld (TUN_PSTAT w) 0 2 = 1 then 2 else s.dev.fld (TUN_PSTAT w) 0 2) ∧
      Keeps s.dev e (fun a => a = TUN_PSTAT w) ∧ SameUnits s.dev e) := by
  obtain ⟨-, hpstat, -⟩ := ethReg_place hw
  rw [runs_iff (exec_ethLinkUp _ _)]
  by_cases hneg : s.dev.fld (TUN_PSTAT w) 0 2 = 1
  · obtain ⟨hfld, -, hkeeps⟩ := ethStatus_finish s.dev hw hcfg (show 2 < 4 by decide)
    have hstep : s.dev.ethLinkUp w false = s.dev.setF (TUN_PSTAT w) 0 2 2 := by
      unfold Dev.ethLinkUp
      simp [hcfg, hneg]
    rw [hstep, if_pos hneg]
    exact ⟨hfld, hkeeps⟩
  · have hstep : s.dev.ethLinkUp w false = s.dev := by
      unfold Dev.ethLinkUp
      simp [hcfg, hneg]
    rw [hstep, if_neg hneg]
    exact ⟨fld_finish _ (tunReg_plain hpstat).2, regs_finish_keeps rfl (fun _ _ => rfl)⟩

theorem ethLinkDown_runs (s : State) {w : Nat} (hw : w < 2) (hcfg : s.dev.flag (TUN_PCFG w) 0 = true) :
    Runs (.ethLinkDown w) s (fun e => e.fld (TUN_PSTAT w) 0 2 = (if s.dev.flag (TUN_PCFG w) 3 then 1 else 0) ∧ e.ethUp w = false ∧
      Keeps s.dev e (fun a => a = TUN_PSTAT w) ∧ SameUnits s.dev e) := by
  have hle : natOf (s.dev.flag (TUN_PCFG w) 3) ≤ 1 := by
    unfold natOf
    split <;> decide
  obtain ⟨hfld, hdown, hkeeps⟩ := ethStatus_finish s.dev (v := natOf (s.dev.flag (TUN_PCFG w) 3)) hw hcfg (by omega)
  have hstep : s.dev.ethLinkDown w = s.dev.setF (TUN_PSTAT w) 0 2 (natOf (s.dev.flag (TUN_PCFG w) 3)) := if_pos hcfg
  rw [runs_iff (exec_ethLinkDown _ _), hstep]
  exact ⟨hfld, hdown.trans (by simp; omega), hkeeps⟩

end Sys2Proof.Machine
end

section
/-! SUPPORT. The site table's commands and the status of the tunnel (R291, R292, R305). -/

namespace Sys2Proof.Machine

open Sys2Proof

variable (d : Dev)

theorem exec_siteSet (h : Hdr) (pl : List Byte) (s : State) :
    exec (.siteSet h pl) s = s.run (·.serve cSiteSet Dev.siteSet h pl) := rfl
theorem exec_siteRead (h : Hdr) (pl : List Byte) (s : State) :
    exec (.siteRead h pl) s = s.run (·.serve cSiteRead Dev.siteRead h pl) := rfl
theorem exec_tunStatus (h : Hdr) (pl : List Byte) (s : State) :
    exec (.tunStatus h pl) s = s.run (·.serve cTunStatus Dev.tunStatus h pl) := rfl

theorem length_slice (l : List Byte) (off k : Nat) : (slice l off k).length = k := by
  unfold slice
  simp only [List.length_append, List.length_take, List.length_drop, List.length_replicate]
  omega

/-- SITE_SET may write the entry of its payload: the entry is clean, its partition has regions and external starts, its port is an
Ethernet port, and the partition of a valid entry there rests (R292). -/
structure SetsSite (d : Dev) (pl : List Byte) : Prop where
  site  : leAt pl 0 2 < 4096
  clean : siteClean (slice pl 8 64) = true
  owns  : d.regionsOf (sitePart (slice pl 8 64)) ≠ []
  ext   : d.flag (TAB_BCTL (sitePart (slice pl 8 64))) 4 = true
  port  : d.flag (TUN_PCFG (sitePort (slice pl 8 64))) 0 = true
  still : siteValid (d.site (leAt pl 0 2)) = true → d.still (sitePart (d.site (leAt pl 0 2))) = true

theorem siteSet_eq {pl : List Byte} (hs : SetsSite d pl) (h : Hdr) :
    d.siteSet h pl = (d.setSite (leAt pl 0 2) (slice pl 8 64), .st .ok) := by
  obtain ⟨hsite, hclean, howns, hext, hport, hstill⟩ := hs
  have hfree : (siteValid (d.site (leAt pl 0 2)) && ! d.still (sitePart (d.site (leAt pl 0 2)))) = false := by
    cases hv : siteValid (d.site (leAt pl 0 2))
    · rfl
    · rw [hstill hv]
      rfl
  unfold Dev.siteSet
  simp [Nat.not_le.2 hsite, Nat.mod_eq_of_lt hsite, hclean, howns, hext, hport, hfree]

theorem siteSet_runs (s : State) {h : Hdr} {pl : List Byte} (ha : Accepted s.dev cSiteSet h pl) (hs : SetsSite s.dev pl) :
    Runs (.siteSet h pl) s (fun e => e.site (leAt pl 0 2) = slice pl 8 64 ∧ (∀ k, k ≠ leAt pl 0 2 → e.site k = s.dev.site k) ∧
      Answered s.dev e 0x0602 h .ok [] ∧ Keeps s.dev e (fun a => BookReg a) ∧ SameUnits s.dev e) := by
  refine serve_runs s (exec_siteSet h pl) ha (siteSet_eq s.dev hs h) (by decide) rfl rfl (fun e hb hans => ?_)
  have hsites : e.finish.sites = (s.dev.setSite (leAt pl 0 2) (slice pl 8 64)).sites := (finish_sites e).trans (desk_sites hb.desk)
  exact ⟨(site_congr hsites _).trans (site_setSite_same s.dev _ (length_slice ..)),
    fun k hk => (site_congr hsites k).trans (site_setSite_ne s.dev _ hk), hans, hb.finish_keeps⟩

theorem siteRead_runs (s : State) {h : Hdr} {pl : List Byte} (ha : Accepted s.dev cSiteRead h pl) (hsite : leAt pl 0 2 < 4096)
    (hmay : h.func = 0 ∨ (siteValid (s.dev.site (leAt pl 0 2)) = true ∧ sitePart (s.dev.site (leAt pl 0 2)) = h.func))
    (hfits : Fits s.dev h (s.dev.site (leAt pl 0 2)).length) :
    Runs (.siteRead h pl) s (fun e => Answered s.dev e 0x0603 h .ok (s.dev.site (leAt pl 0 2)) ∧ Keeps s.dev e (fun a => BookReg a) ∧
      SameUnits s.dev e) := by
  refine serve_reads s (exec_siteRead h pl) ha ?_ hfits
  unfold Dev.siteRead
  obtain hpf | ⟨hvalid, hpart⟩ := hmay
  · simp [Nat.not_le.2 hsite, hpf]
  · simp [Nat.not_le.2 hsite, hvalid, hpart]

theorem tunStatus_runs (s : State) {h : Hdr} {pl : List Byte} (ha : Accepted s.dev cTunStatus h pl) :
    Runs (.tunStatus h pl) s (fun e => Answered s.dev e 0x0604 h .ok (s.dev.regBytes TUN_CTL 36) ∧ Keeps s.dev e (fun a => BookReg a) ∧
      SameUnits s.dev e) :=
  serve_reads s (exec_tunStatus h pl) ha rfl (fits_short ha (by rw [length_regBytes]; decide))

end Sys2Proof.Machine
end

section
/-! SUPPORT. The responses that wait for the functions: an arrival at a Tocsin leaves them as they are (R471, R490 to R503). -/

namespace Sys2Proof.Machine

open Sys2Proof

variable (d : Dev)

/-- The responses that wait for function `f`. -/
def Dev.respsOf (f : Nat) : List Resp := (d.fn f).resps

theorem respsOf_congr {d e : Dev} (h : e.car = d.car) : e.respsOf = d.respsOf := by
  funext f
  unfold Dev.respsOf Dev.fn
  rw [h]

theorem setFn_respsOf {f : Nat} {x : Fn} (h : x.resps = (d.fn f).resps) : (d.setFn f x).respsOf = d.respsOf := by
  funext g
  unfold Dev.respsOf
  rw [fn_setFn]
  split
  · rename_i hg
    rw [hg, h]
  · rfl

theorem sendMsix_respsOf (f v : Nat) : (d.sendMsix f v).respsOf = d.respsOf := by
  unfold Dev.sendMsix
  dsimp only
  split
  · exact setFn_respsOf d rfl
  · exact (respsOf_congr rfl).trans (setFn_respsOf d rfl)

theorem setTocQueue_car (k : Nat) (q : List TocRec) : (d.setTocQueue k q).car = d.car := by
  unfold Dev.setTocQueue
  dsimp only
  split
  · split <;> rfl
  · rfl

theorem tocTrace_car {c : Prop} [Decidable c] (e : Dev) (die ty : Nat) (part : Option Nat) (origin : Nat) (lcore neuron : Option Nat)
    (data : List Byte) : (if c then e else e.traceRec die ty part origin lcore neuron data).car = e.car := by
  split
  · rfl
  · exact (traceRec_keeps e _ _ _ _ _ _ _).car

theorem tocPush_car (k : Nat) (x : TocRec) : (d.tocPush k x).car = d.car := by
  have hlost : (if k < 289 then (d.setFlag (TOC_STAT k) 2 true).bump (TOC_RQLOST k) 1
      else (d.setFlag (TOC_PRQSTAT 288 (k - 289)) 6 true).bump (TOC_PRQLOST 288 (k - 289)) 1).car = d.car := by
    split <;> rfl
  unfold Dev.tocPush
  dsimp only
  split
  · exact (tocTrace_car ..).trans (setTocQueue_car ..)
  · split
    · split
      · exact (setTocQueue_car ..).trans hlost
      · exact (tocTrace_car ..).trans ((setTocQueue_car ..).trans hlost)
    · exact hlost

theorem tocHold_car (i s : Nat) : (d.tocHold i s).car = d.car := by
  unfold Dev.tocHold
  dsimp only
  split <;> rfl

theorem tocVector_respsOf (i s : Nat) : (d.tocVector i s).respsOf = d.respsOf := by
  unfold Dev.tocVector
  dsimp only
  split
  · exact sendMsix_respsOf d _ _
  · rfl

theorem rqArrive_respsOf (i : Nat) : (d.rqArrive i).respsOf = d.respsOf := by
  unfold Dev.rqArrive
  dsimp only
  split
  · exact (tocVector_respsOf _ _ _).trans (respsOf_congr (tocHold_car ..))
  · rfl

theorem tocPushPart_respsOf (p : Nat) (x : TocRec) : (d.tocPushPart p x).respsOf = d.respsOf :=
  (sendMsix_respsOf _ _ _).trans (respsOf_congr (tocPush_car d _ _))

theorem tocRecord_device_respsOf (s part d0 d1 : Nat) : (d.tocRecord 288 s part d0 d1).respsOf = d.respsOf := by
  unfold Dev.tocRecord
  dsimp only
  generalize TocRec.mk _ _ _ _ _ _ _ = x
  have hpush := respsOf_congr (tocPush_car d 288 x)
  have h : (if (d.tocQueue 288).length < ((d.tocPush 288 x).tocQueue 288).length then (d.tocPush 288 x).rqArrive 288
      else d.tocPush 288 x).respsOf = d.respsOf := by
    split
    · exact (rqArrive_respsOf _ _).trans hpush
    · exact hpush
  rw [if_pos rfl]
  split
  · exact (tocPushPart_respsOf _ _ _).trans h
  · exact h

theorem tocUpdate_device_respsOf : (d.tocUpdate 288).respsOf = d.respsOf := by
  unfold Dev.tocUpdate Dev.tocDeliver
  dsimp only
  rw [if_pos rfl]
  split
  · split
    · exact (sendMsix_respsOf _ _ _).trans rfl
    · rfl
  · rfl

theorem tocArrive_device_respsOf (s part d0 d1 : Nat) (always : Bool) : (d.tocArrive 288 s part d0 d1 always).respsOf = d.respsOf := by
  unfold Dev.tocArrive
  dsimp only
  have hpend : (if d.flag (TOC_ENABLE 288) s then ((d.setFlag (TOC_PEND 288) s true).setF (TOC_SRC 288 s) 16 8
      (min 255 (d.fld (TOC_SRC 288 s) 16 8 + 1))).tocHold 288 s else d).respsOf = d.respsOf := by
    split
    · exact respsOf_congr (tocHold_car _ _ _)
    · rfl
  generalize (if d.flag (TOC_ENABLE 288) s then _ else d : Dev) = e at hpend
  have hrec : (if (always || (d.flag (TOC_ENABLE 288) s && d.flag (TOC_SRC 288 s) 2)) = true then e.tocRecord 288 s part d0 d1
      else e).respsOf = d.respsOf := by
    split
    · exact (tocRecord_device_respsOf _ _ _ _ _).trans hpend
    · exact hpend
  refine (tocUpdate_device_respsOf _).trans ?_
  split
  · exact (tocVector_respsOf _ _ _).trans hrec
  · exact hrec

end Sys2Proof.Machine
end

section
/-! SUPPORT. What a change of a port's mode touches: the port's state and what waits for its link, its domains' votes, and an arrival at
the device Tocsin (R263, R270, R499, R576). -/

namespace Sys2Proof.Machine

open Sys2Proof

variable (d : Dev)

/-- The registers that a change of a port's mode touches beside those of the tunnel: those of an arrival at the device Tocsin, of the
fabric, of the votes and of the calibration. -/
def ModeReg (a : Nat) : Prop :=
  LogReg a ∨ (0x40000 ≤ a ∧ a < 0x60000) ∨ (0xB0000 ≤ a ∧ a < 0xC0000) ∨ (0xE0000 ≤ a ∧ a < 0xF0000)

/-- Memory, the responses that wait, and every register outside `w` are as they were. -/
structure ModeKeeps (w : Nat → Prop) (d e : Dev) : Prop where
  mem   : e.mem = d.mem
  resps : e.respsOf = d.respsOf
  rg    : ∀ a, ¬ w a → e.rg a = d.rg a

namespace ModeKeeps

theorem refl (w : Nat → Prop) : ModeKeeps w d d := ⟨rfl, rfl, fun _ _ => rfl⟩

variable {w v : Nat → Prop} {d}

theorem trans {a b c : Dev} (h : ModeKeeps w a b) (g : ModeKeeps w b c) : ModeKeeps w a c :=
  ⟨g.mem.trans h.mem, g.resps.trans h.resps, fun x hx => (g.rg x hx).trans (h.rg x hx)⟩

theorem mono {e : Dev} (h : ModeKeeps w d e) (hwv : ∀ a, w a → v a) : ModeKeeps v d e :=
  ⟨h.mem, h.resps, fun a ha => h.rg a (fun hw => ha (hwv a hw))⟩

theorem setR {a : Nat} (h : w a) (x : Nat) : ModeKeeps w d (d.setR a x) :=
  ⟨rfl, rfl, fun _ hb => rg_setR_ne d (fun e => hb (e ▸ h))⟩

theorem setF {a : Nat} (h : w a) (lo n x : Nat) : ModeKeeps w d (d.setF a lo n x) := setR h _

theorem setFlag {a : Nat} (h : w a) (k : Nat) (x : Bool) : ModeKeeps w d (d.setFlag a k x) := setR h _

theorem links {e : Dev} (h : LinkKeeps d e) : ModeKeeps LinkReg d e := ⟨h.mem, respsOf_congr h.car, h.rg⟩

end ModeKeeps

/-! ### Places -/

theorem modeReg_book {a : Nat} (h : BookReg a) : ModeReg a := .inl (.inl h)

theorem LinkReg.modeReg {a : Nat} : LinkReg a → ModeReg a := by
  rintro (h | ⟨k, hk, h⟩)
  · exact modeReg_book h
  · refine .inr (.inl ?_)
    unfold FAB_NOROUTE FAB_DSTAT FAB_C0MERGE FAB_BRFLIT_LO FAB_BRFLIT_HI FAB_PTXFLIT_LO FAB_PTXFLIT_HI FAB_PDISC at h
    obtain h | h | h | h | h | ⟨q, hq, h | h | h⟩ := h <;> omega

/-- The registers of the tunnel, and the configuration of the response rings, are none of them. -/
theorem not_modeReg_tun {a : Nat} (h : 0x60000 ≤ a ∧ a < 0x70000) : ¬ ModeReg a := by
  rintro ((hb | hl) | hm)
  · exact (tunReg_plain h).1 hb
  · omega
  · omega

theorem not_modeReg_rrcfg {f : Nat} (hf : f < 16) : ¬ ModeReg (CAR_RRCFG f) := by
  have hring : 0x100000 ≤ CAR_RRCFG f := by unfold CAR_RRCFG; omega
  rintro ((hb | hl) | hm)
  · exact rrcfg_not_link hf (.inl hb)
  · omega
  · omega

/-- The status of a port: it is counted by no link and no log. -/
theorem portStat_place {q : Nat} (hq : q < 8) :
    (0x40000 ≤ portStat q ∧ portStat q < 0x60000) ∧ ¬ LinkReg (portStat q) ∧ ¬ LogReg (portStat q) := by
  have hroute : RouteReg (portStat q) := .inr (.inr ⟨q, hq, .inl rfl⟩)
  have hplace : 0x40000 ≤ portStat q ∧ portStat q < 0x60000 := by
    unfold portStat FAB_PSTAT
    omega
  refine ⟨hplace, hroute.not_link, ?_⟩
  rintro (hb | hl)
  · exact hroute.not_link (.inl hb)
  · omega

theorem portState_congr {d e : Dev} {q : Nat} (h : e.rg (portStat q) = d.rg (portStat q)) : e.portState q = d.portState q :=
  fld_congr 0 3 h

/-! ### The state of a port -/

theorem setPort_state {q s : Nat} (hq : q < 8) (hs : s < 8) : (d.setPort q s).portState q = s := by
  obtain ⟨-, -, hlog⟩ := portStat_place hq
  unfold Dev.setPort
  split
  · assumption
  · have hkeeps := tocArrive_device_keeps (d.setF (portStat q) 0 3 s) (show 24 < 32 by decide) (part := 0) q s false (by omega)
    exact (portState_congr (hkeeps.rg _ hlog)).trans ((fld_setF_same d (by decide)).trans (Nat.mod_eq_of_lt hs))

theorem setPort_keeps {q : Nat} (hq : q < 8) (s : Nat) : ModeKeeps ModeReg d (d.setPort q s) := by
  obtain ⟨hplace, -, -⟩ := portStat_place hq
  unfold Dev.setPort
  split
  · exact .refl d _
  · have hkeeps := tocArrive_device_keeps (d.setF (portStat q) 0 3 s) (show 24 < 32 by decide) (part := 0) q s false (by omega)
    refine (ModeKeeps.setF (.inr (.inl hplace)) 0 3 s).trans ⟨?_, tocArrive_device_respsOf .., fun a ha => hkeeps.rg a (fun h => ha (.inl h))⟩
    exact (congrArg Dev.mem hkeeps.quiet :)

/-! ### Its link -/

theorem discardOut_link (k : Nat) : LinkKeeps d (d.discardOut k) := by
  have hall : LinkKeeps d (d.forEach (d.oport k).queue (fun d w =>
      (d.leaveInput w.src w.left).bump (FAB_PDISC (w.port % 8 / 4) (w.port % 4)) w.left)) := by
    refine forEach_inv (fun e => LinkKeeps d e) _ (fun e w h => ?_) _ d (.refl d)
    exact (h.trans (leaveInput_still e w.src w.left).moves.link).trans (.bump _ (linkReg_pdisc (by omega) (by omega)) _)
  exact hall.trans (.setOport _ _ _)

theorem cutInput_link (q : Nat) : LinkKeeps d (d.cutInput q) :=
  forEach_inv (fun e => LinkKeeps d e) _ (fun e _ h => h.trans (.setOport e _ _)) _ d (.refl d)

/-- Nothing waits for the link of port `q`, and no input is owed for it. -/
def Dev.linkCleared (q : Nat) : Dev := (((d.discardOut q).cutInput q).setOport q default).setLport q default

theorem linkGone_eq (q : Nat) : d.linkGone q = ((d.linkCleared q).setR (CAL_PORTSTAT q) 0).setF (portStat q) 16 4 0 := rfl

theorem linkCleared_link (q : Nat) : LinkKeeps d (d.linkCleared q) :=
  (((discardOut_link d q).trans (cutInput_link _ q)).trans (.setOport _ q default)).trans ⟨rfl, fun _ _ => rfl⟩

theorem linkGone_keeps {q : Nat} (hq : q < 8) : ModeKeeps ModeReg d (d.linkGone q) := by
  have hcal : 0xE0000 ≤ CAL_PORTSTAT q ∧ CAL_PORTSTAT q < 0xF0000 := by
    unfold CAL_PORTSTAT
    omega
  rw [linkGone_eq]
  exact ((ModeKeeps.links (linkCleared_link d q)).mono (fun _ => LinkReg.modeReg)).trans
    ((ModeKeeps.setR (.inr (.inr (.inr hcal))) 0).trans (.setF (.inr (.inl (portStat_place hq).1)) 16 4 0))

/-- A link that is gone leaves the port its state (R270). -/
theorem linkGone_state {q : Nat} (hq : q < 8) : (d.linkGone q).portState q = d.portState q := by
  obtain ⟨hplace, hlink, -⟩ := portStat_place hq
  have hcal : portStat q ≠ CAL_PORTSTAT q := by
    unfold CAL_PORTSTAT
    omega
  have hlocks : ((((d.linkCleared q).setR (CAL_PORTSTAT q) 0).setF (portStat q) 16 4 0)).portState q =
      ((d.linkCleared q).setR (CAL_PORTSTAT q) 0).portState q := fld_setF_ne _ (.inr (by decide))
  rw [linkGone_eq, hlocks]
  exact portState_congr ((rg_setR_ne _ hcal).trans ((linkCleared_link d q).rg _ hlink))

/-! ### Votes and addresses -/

/-- The registers of the votes and of the domains. -/
def VoteReg (a : Nat) : Prop := 0xB0000 ≤ a ∧ a < 0xC0000

theorem VoteReg.modeReg {a : Nat} (h : VoteReg a) : ModeReg a := .inr (.inr (.inl h))

theorem domFollow_keeps {x : Nat} (h : VoteReg (PWR_DSTAT x)) : ModeKeeps VoteReg d (d.domFollow x) := by
  unfold Dev.domFollow
  exact (ModeKeeps.setFlag h _ _).trans (.setFlag h _ _)

theorem setVote_keeps {c x : Nat} (hc : c < 64) (hx : x < 128) (v : Nat) : ModeKeeps VoteReg d (d.setVote c x v) := by
  have hon : VoteReg (PWR_VON c (x / 32)) := by
    unfold VoteReg PWR_VON
    omega
  have hret : VoteReg (PWR_VRET c (x / 32)) := by
    unfold VoteReg PWR_VRET
    omega
  have hdom : VoteReg (PWR_DSTAT x) := by
    unfold VoteReg PWR_DSTAT
    omega
  have hwords := (ModeKeeps.setFlag (d := d) hon (x % 32) (v == 2)).trans (.setFlag hret (x % 32) (v == 1))
  unfold Dev.setVote
  dsimp only
  split
  · exact hwords
  · exact ((hwords.trans (.setF hdom _ _ _)).trans (.setF hdom _ _ _)).trans (domFollow_keeps _ hdom)

theorem portVote_keeps {q : Nat} (hq : q < 8) : ModeKeeps VoteReg d (d.portVote q) :=
  setVote_keeps d (by decide) (by unfold domPort; omega) _

theorem tunnelVote_keeps : ModeKeeps VoteReg d d.tunnelVote := setVote_keeps d (by decide) (by decide) _

theorem votes_keep {q : Nat} (hq : q < 8) : ModeKeeps VoteReg d (d.portVote q).tunnelVote :=
  (portVote_keeps d hq).trans (tunnelVote_keeps _)

end Sys2Proof.Machine
end

section
/-! SUPPORT. ETH_PORT_CONFIG (R284, R285): a W port to Ethernet mode and back. -/

namespace Sys2Proof.Machine

open Sys2Proof

variable (d : Dev)

theorem exec_ethPortConfig (h : Hdr) (pl : List Byte) (s : State) :
    exec (.ethPortConfig h pl) s = s.run (·.serve cEthPortConfig Dev.ethPortConfig h pl) := rfl

/-- A register of the tunnel's block. -/
def TunReg (a : Nat) : Prop := 0x60000 ≤ a ∧ a < 0x70000

/-! ### The addresses of a port (R10, R305) -/

theorem slice_within {l : List Byte} {j k : Nat} (h : j + k ≤ l.length) : slice l j k = (l.drop j).take k := by
  have hlen : ((l.drop j).take k).length = k := by
    rw [List.length_take, List.length_drop]
    omega
  unfold slice
  dsimp only
  rw [hlen, Nat.sub_self, List.replicate_zero, List.append_nil]

/-- A little-endian field in network byte order is its bytes, last byte first. -/
theorem beBytes_leAt {l : List Byte} {j k : Nat} (h : j + k ≤ l.length) : beBytes k (leAt l j k) = (slice l j k).reverse := by
  unfold beBytes
  rw [leBytes_leAt h, slice_within h]

theorem slice_append {l : List Byte} {j m n : Nat} (h : j + (m + n) ≤ l.length) : slice l j (m + n) = slice l j m ++ slice l (j + m) n := by
  rw [slice_within h, slice_within (by omega), slice_within (by omega), List.take_add, List.drop_drop]

/-- The four words of an address, the last one first. -/
theorem reverse_slice_words {l : List Byte} {j : Nat} (h : j + 16 ≤ l.length) : (slice l j 16).reverse =
    (slice l (j + 12) 4).reverse ++ (slice l (j + 8) 4).reverse ++ (slice l (j + 4) 4).reverse ++ (slice l j 4).reverse := by
  have h3 : slice l j (12 + 4) = slice l j (8 + 4) ++ slice l (j + 12) 4 := slice_append (by omega)
  have h2 : slice l j (8 + 4) = slice l j (4 + 4) ++ slice l (j + 8) 4 := slice_append (by omega)
  have h1 : slice l j (4 + 4) = slice l j 4 ++ slice l (j + 4) 4 := slice_append (by omega)
  rw [show (16 : Nat) = 12 + 4 from rfl, h3, h2, h1]
  simp only [List.reverse_append, List.append_assoc]

/-- The registers of a port's addresses. -/
def AddrReg (w a : Nat) : Prop :=
  a = TUN_IPV4 w ∨ a = TUN_IPV6_0 w ∨ a = TUN_IPV6_1 w ∨ a = TUN_IPV6_2 w ∨ a = TUN_IPV6_3 w

theorem AddrReg.place {w a : Nat} (hw : w < 2) (h : AddrReg w a) : TunReg a ∧ a ≠ TUN_PCFG w ∧ a ≠ TUN_PSTAT w := by
  unfold AddrReg TUN_IPV4 TUN_IPV6_0 TUN_IPV6_1 TUN_IPV6_2 TUN_IPV6_3 at h
  unfold TunReg TUN_PCFG TUN_PSTAT
  omega

theorem setAddrs_keeps (w : Nat) (a : List Byte) : ModeKeeps (AddrReg w) d (d.setAddrs w a) :=
  ((((ModeKeeps.setR (.inl rfl) _).trans (.setR (.inr (.inl rfl)) _)).trans (.setR (.inr (.inr (.inl rfl))) _)).trans
    (.setR (.inr (.inr (.inr (.inl rfl)))) _)).trans (.setR (.inr (.inr (.inr (.inr rfl)))) _)

/-- The five words that are set. -/
theorem rg_setAddrs (w : Nat) (a : List Byte) :
    (d.setAddrs w a).rg (TUN_IPV4 w) = leAt a 0 4 ∧ (d.setAddrs w a).rg (TUN_IPV6_0 w) = leAt a 16 4 ∧
      (d.setAddrs w a).rg (TUN_IPV6_1 w) = leAt a 12 4 ∧ (d.setAddrs w a).rg (TUN_IPV6_2 w) = leAt a 8 4 ∧
      (d.setAddrs w a).rg (TUN_IPV6_3 w) = leAt a 4 4 := by
  have hword : ∀ j, leAt a j 4 % 2 ^ 32 = leAt a j 4 := fun j => Nat.mod_eq_of_lt (leAt_lt a j 4)
  unfold Dev.setAddrs
  simp only [rg_setR, hword]
  unfold TUN_IPV4 TUN_IPV6_0 TUN_IPV6_1 TUN_IPV6_2 TUN_IPV6_3
  simp

theorem setAddrs_shown (w : Nat) {pl : List Byte} (hl : pl.length = 32) :
    (d.setAddrs w (pl.drop 4)).portV4 w = (slice pl 4 4).reverse ∧ (d.setAddrs w (pl.drop 4)).portV6 w = (slice pl 8 16).reverse := by
  obtain ⟨h4, h60, h61, h62, h63⟩ := rg_setAddrs d w (pl.drop 4)
  simp only [leAt_drop] at h4 h60 h61 h62 h63
  unfold Dev.portV4 Dev.portV6
  rw [h4, h60, h61, h62, h63, reverse_slice_words (by omega)]
  exact ⟨beBytes_leAt (by omega), by
    rw [beBytes_leAt (by omega), beBytes_leAt (by omega), beBytes_leAt (by omega), beBytes_leAt (by omega)]⟩

theorem portAddrs_congr {d e : Dev} {w : Nat} (hw : w < 2) (h : ∀ a, TunReg a → e.rg a = d.rg a) :
    e.portV4 w = d.portV4 w ∧ e.portV6 w = d.portV6 w := by
  have haddr := fun a (ha : AddrReg w a) => h a (ha.place hw).1
  unfold Dev.portV4 Dev.portV6
  rw [haddr _ (.inl rfl), haddr _ (.inr (.inl rfl)), haddr _ (.inr (.inr (.inl rfl))), haddr _ (.inr (.inr (.inr (.inl rfl)))),
    haddr _ (.inr (.inr (.inr (.inr rfl))))]
  exact ⟨rfl, rfl⟩

/-! ### The two modes -/

/-- Port `w` with its configuration and LINK of its status written. -/
def Dev.ethWritten (w cfg link : Nat) : Dev := (d.setR (TUN_PCFG w) cfg).setF (TUN_PSTAT w) 0 2 link

/-- Port `q` taken from the fabric, in Ethernet mode: no W port is paired, its link is gone. -/
def Dev.portAway (q : Nat) : Dev := (((d.setFlag (FAB_DCFG 0) 23 false).setFlag (FAB_DCFG 1) 23 false).linkGone q).setPort q 4

/-- Port `q` given back to the fabric, where it was in Ethernet mode: it trains if it is enabled. -/
def Dev.portBack (q : Nat) : Dev :=
  if d.portState q = 4 then (d.setPort q (if d.flag (portCtl q) 0 then 1 else 0)).linkGone q else d

/-- What byte 1 to 3 of a payload write to TUN_PCFG in Ethernet mode. -/
def ethControl (pl : List Byte) : Nat := 1 + 8 * byteAt pl 3 + 16 * byteAt pl 2

theorem ethMode_ethernet {w : Nat} {pl : List Byte} (hm : byteAt pl 1 = 1) : d.ethMode w pl =
    (((((d.ethWritten w (ethControl pl) (byteAt pl 3)).portAway (6 + w)).setAddrs w (pl.drop 4)).portVote (6 + w)).tunnelVote) :=
  if_pos hm

theorem ethMode_fabric {w : Nat} {pl : List Byte} (hm : byteAt pl 1 = 0) :
    d.ethMode w pl = ((((d.ethWritten w 0 0).portBack (6 + w)).portVote (6 + w)).tunnelVote) :=
  if_neg (by omega)

theorem ethWritten_shown {w cfg link : Nat} (hw : w < 2) (hcfg : cfg < 2 ^ 32) (hlink : link < 4) :
    (d.ethWritten w cfg link).rg (TUN_PCFG w) = cfg ∧ (d.ethWritten w cfg link).fld (TUN_PSTAT w) 0 2 = link := by
  obtain ⟨-, -, hne⟩ := ethReg_place hw
  unfold Dev.ethWritten
  exact ⟨(rg_setF_ne _ hne).trans ((rg_setR_same d _ _).trans (Nat.mod_eq_of_lt hcfg)),
    (fld_setF_same _ (by decide)).trans (Nat.mod_eq_of_lt hlink)⟩

theorem ethWritten_keeps {w : Nat} (hw : w < 2) (cfg link : Nat) : ModeKeeps TunReg d (d.ethWritten w cfg link) := by
  obtain ⟨hpcfg, hpstat, -⟩ := ethReg_place hw
  exact (ModeKeeps.setR hpcfg _).trans (.setF hpstat _ _ _)

theorem portAway_keeps {q : Nat} (hq : q < 8) : ModeKeeps ModeReg d (d.portAway q) := by
  have hdcfg : ∀ k, k < 2 → ModeReg (FAB_DCFG k) := fun k hk => .inr (.inl (by unfold FAB_DCFG; omega))
  exact (((ModeKeeps.setFlag (hdcfg 0 (by decide)) _ _).trans (.setFlag (hdcfg 1 (by decide)) _ _)).trans (linkGone_keeps _ hq)).trans
    (setPort_keeps _ hq 4)

theorem portBack_keeps {q : Nat} (hq : q < 8) : ModeKeeps ModeReg d (d.portBack q) := by
  unfold Dev.portBack
  split
  · exact (setPort_keeps d hq _).trans (linkGone_keeps _ hq)
  · exact .refl d _

theorem portBack_state {q : Nat} (hq : q < 8) : (d.portBack q).portState q =
    if d.portState q = 4 then (if d.flag (portCtl q) 0 then 1 else 0) else d.portState q := by
  unfold Dev.portBack
  split
  · rw [linkGone_state _ hq, setPort_state d hq (by split <;> decide)]
  · rfl

/-- The votes for a mode leave the tunnel's registers and the states of the ports. -/
theorem votes_shown {q : Nat} (hq : q < 8) : (∀ a, TunReg a → (d.portVote q).tunnelVote.rg a = d.rg a) ∧
    (d.portVote q).tunnelVote.portState q = d.portState q := by
  obtain ⟨hplace, -, -⟩ := portStat_place hq
  have hkeeps := votes_keep d hq
  refine ⟨fun a ha => hkeeps.rg a ?_, portState_congr (hkeeps.rg _ ?_)⟩
  · unfold TunReg at ha
    unfold VoteReg
    omega
  · unfold VoteReg
    omega

/-- What both modes leave: memory, the responses that wait, and every register but those of the tunnel and of a change of mode. -/
theorem ethMode_keeps {w : Nat} (hw : w < 2) {pl : List Byte} (hm : byteAt pl 1 = 0 ∨ byteAt pl 1 = 1) :
    ModeKeeps (fun a => TunReg a ∨ ModeReg a) d (d.ethMode w pl) := by
  have hq : 6 + w < 8 := by omega
  have htun := fun (e : Dev) cfg link => (ethWritten_keeps e hw cfg link).mono (v := fun a => TunReg a ∨ ModeReg a) (fun _ => .inl)
  have hvotes := fun e : Dev => (votes_keep e hq).mono (v := fun a => TunReg a ∨ ModeReg a) (fun _ ha => .inr ha.modeReg)
  obtain hm | hm := hm
  · rw [ethMode_fabric d hm]
    exact ((htun d 0 0).trans ((portBack_keeps _ hq).mono (fun _ => .inr))).trans (hvotes _)
  · rw [ethMode_ethernet d hm]
    exact (((htun d _ _).trans ((portAway_keeps _ hq).mono (fun _ => .inr))).trans
      ((setAddrs_keeps _ w _).mono (fun _ ha => .inl (ha.place hw).1))).trans (hvotes _)

theorem ethMode_ethernet_shown {w : Nat} (hw : w < 2) {pl : List Byte} (hl : pl.length = 32)
    (hm : byteAt pl 1 = 1 ∧ byteAt pl 2 < 6 ∧ byteAt pl 3 < 2) :
    (d.ethMode w pl).rg (TUN_PCFG w) = ethControl pl ∧ (d.ethMode w pl).fld (TUN_PSTAT w) 0 2 = byteAt pl 3 ∧
      (d.ethMode w pl).portState (6 + w) = 4 ∧ (d.ethMode w pl).portV4 w = (slice pl 4 4).reverse ∧
      (d.ethMode w pl).portV6 w = (slice pl 8 16).reverse := by
  obtain ⟨hmode, hrate, han⟩ := hm
  have hq : 6 + w < 8 := by omega
  have hctl : ethControl pl < 2 ^ 32 := by
    unfold ethControl
    omega
  obtain ⟨hpcfg, hpstat, -⟩ := ethReg_place hw
  obtain ⟨hcfg, hlink⟩ := ethWritten_shown d (cfg := ethControl pl) (link := byteAt pl 3) hw hctl (by omega)
  rw [ethMode_ethernet d hmode]
  generalize d.ethWritten w (ethControl pl) (byteAt pl 3) = d1 at hcfg hlink ⊢
  have haway := portAway_keeps d1 hq
  have hstate : (d1.portAway (6 + w)).portState (6 + w) = 4 := setPort_state _ hq (by decide)
  generalize d1.portAway (6 + w) = d2 at haway hstate ⊢
  have haddr := setAddrs_keeps d2 w (pl.drop 4)
  obtain ⟨hv4, hv6⟩ := setAddrs_shown d2 w hl
  generalize d2.setAddrs w (pl.drop 4) = d3 at haddr hv4 hv6 ⊢
  obtain ⟨hrg, hport⟩ := votes_shown d3 hq
  obtain ⟨hv4', hv6'⟩ := portAddrs_congr hw hrg
  have hsame : ∀ a, TunReg a → ¬ AddrReg w a → (d3.portVote (6 + w)).tunnelVote.rg a = d1.rg a := fun a ha hn =>
    (hrg a ha).trans ((haddr.rg a hn).trans (haway.rg a (not_modeReg_tun ha)))
  refine ⟨(hsame _ hpcfg fun h => (h.place hw).2.1 rfl).trans hcfg,
    (fld_congr 0 2 (hsame _ hpstat fun h => (h.place hw).2.2 rfl)).trans hlink, ?_, hv4'.trans hv4, hv6'.trans hv6⟩
  refine hport.trans ((portState_congr (haddr.rg _ fun h => ?_)).trans hstate)
  obtain ⟨hplace, -, -⟩ := portStat_place hq
  obtain ⟨htun, -, -⟩ := h.place hw
  unfold TunReg at htun
  omega

theorem ethMode_fabric_shown {w : Nat} (hw : w < 2) {pl : List Byte} (hm : byteAt pl 1 = 0) :
    (d.ethMode w pl).rg (TUN_PCFG w) = 0 ∧ (d.ethMode w pl).fld (TUN_PSTAT w) 0 2 = 0 ∧
      (d.ethMode w pl).portState (6 + w) =
        if d.portState (6 + w) = 4 then (if d.flag (portCtl (6 + w)) 0 then 1 else 0) else d.portState (6 + w) := by
  have hq : 6 + w < 8 := by omega
  obtain ⟨hpcfg, hpstat, -⟩ := ethReg_place hw
  obtain ⟨hplace, -, -⟩ := portStat_place hq
  have hctl : ¬ TunReg (portCtl (6 + w)) := by
    unfold TunReg portCtl FAB_PCTL
    omega
  obtain ⟨hcfg, hlink⟩ := ethWritten_shown d (cfg := 0) (link := 0) hw (by decide) (by decide)
  have hwritten := ethWritten_keeps d hw 0 0
  rw [ethMode_fabric d hm]
  generalize d.ethWritten w 0 0 = d1 at hcfg hlink hwritten ⊢
  have hback := portBack_keeps d1 hq
  have hstate := portBack_state d1 hq
  rw [portState_congr (hwritten.rg _ fun h => by unfold TunReg at h; omega), flag_congr 0 (hwritten.rg _ hctl)] at hstate
  generalize d1.portBack (6 + w) = d2 at hback hstate ⊢
  obtain ⟨hrg, hport⟩ := votes_shown d2 hq
  have hsame : ∀ a, TunReg a → (d2.portVote (6 + w)).tunnelVote.rg a = d1.rg a := fun a ha =>
    (hrg a ha).trans (hback.rg a (not_modeReg_tun ha))
  exact ⟨(hsame _ hpcfg).trans hcfg, (fld_congr 0 2 (hsame _ hpstat)).trans hlink, hport.trans hstate⟩

/-! ### The command (R285) -/

/-- A command whose body ends with an answer of at most 4,000 bytes and leaves the responses that wait: it runs to any state that holds
once the books have worked on what the body left. -/
theorem serve_resps_runs {c : Hdr → List Byte → Instr} {k : CmdSpec} {body : Dev → Hdr → List Byte → Dev × Ans} (s : State) {h : Hdr}
    {pl ans : List Byte} {st : Status} {d' : Dev} {P : Dev → Prop} (he : ∀ s, exec (c h pl) s = s.run (·.serve k body h pl))
    (ha : Accepted s.dev k h pl) (hb : body s.dev h pl = (d', .done st 0 ans)) (hn : ans.length ≤ 4000)
    (hr : d'.rg (CAR_RRCFG h.func) = s.dev.rg (CAR_RRCFG h.func)) (hresps : d'.respsOf = s.dev.respsOf)
    (hP : ∀ e, BookKeeps d' e → Answered s.dev e.finish k.opcode h st ans → P e.finish) : Runs (c h pl) s P := by
  obtain ⟨hkeeps, -, hresp⟩ := serve_done ha hb hr (fits_short ha hn)
  rw [runs_iff (he s)]
  refine hP _ hkeeps ?_
  have hsame : (d'.fn h.func).resps = (s.dev.fn h.func).resps := congrFun hresps h.func
  unfold Answered
  rw [finish_fn, hresp, hsame]

/-- Port `w` in the mode of a payload, which Carillon keeps (R285). -/
def Dev.ethConfigured (w : Nat) (pl : List Byte) : Dev :=
  { d.ethMode w pl with car := { (d.ethMode w pl).car with keepCfg := SMap.set [] (d.ethMode w pl).car.keepCfg (3 + w) pl } }

/-- ETH_PORT_CONFIG may move port `w` (R285): the payload's mode, rate and AN are ones there are, the timebase does not come by that
port, and a fabric port that becomes an Ethernet port is DISABLED or FAILED. -/
structure MovesPort (d : Dev) (w : Nat) (pl : List Byte) : Prop where
  port  : w = byteAt pl 0 ∧ w < 2
  mode  : byteAt pl 1 < 2 ∧ byteAt pl 2 < 6 ∧ byteAt pl 3 < 2
  timed : d.fld TAB_TLCTL 0 3 ≠ 3 + w
  idle  : byteAt pl 1 = 1 → d.flag (TUN_PCFG w) 0 = true ∨ d.portState (6 + w) = 0 ∨ d.portState (6 + w) = 3

theorem ethPortConfig_eq {w : Nat} {pl : List Byte} (hp : MovesPort d w pl) (h : Hdr) :
    d.ethPortConfig h pl = (d.ethConfigured w pl, .st .ok) := by
  obtain ⟨⟨rfl, hw⟩, ⟨hmode, hrate, han⟩, htimed, hidle⟩ := hp
  have hfree : (! d.flag (TUN_PCFG (byteAt pl 0)) 0 && byteAt pl 1 = 1 && d.portState (6 + byteAt pl 0) ≠ 0 &&
      d.portState (6 + byteAt pl 0) ≠ 3) = false := by
    by_cases hm : byteAt pl 1 = 1
    · obtain hi | hi | hi := hidle hm <;> simp [hi]
    · simp [hm]
  unfold Dev.ethPortConfig
  dsimp only
  rw [if_neg (by simp; omega), hfree]
  rfl

/-- What shows of a port's mode once the command has completed. -/
theorem ethConfigured_finish {w : Nat} {pl : List Byte} {e : Dev} (hp : MovesPort d w pl) (hb : BookKeeps (d.ethConfigured w pl) e) :
    (∀ a, TunReg a → e.finish.rg a = (d.ethMode w pl).rg a) ∧ e.finish.portState (6 + w) = (d.ethMode w pl).portState (6 + w) ∧
      SMap.get [] e.finish.car.keepCfg (3 + w) = pl ∧ SameMem d e.finish := by
  obtain ⟨⟨-, hw⟩, ⟨hmode, -, -⟩, -, -⟩ := hp
  obtain ⟨hplace, hlink, -⟩ := portStat_place (show 6 + w < 8 by omega)
  have hkeeps := ethMode_keeps d hw (show byteAt pl 1 = 0 ∨ byteAt pl 1 = 1 by omega)
  refine ⟨fun a ha => hb.rg_tun ha, portState_congr ((rg_finish_port e hplace).trans (hb.rg _ fun h => hlink (.inl h))), ?_, fun a => ?_⟩
  · rw [finish_car, desk_car_keepCfg hb.desk]
    exact SMap.get_set_same ..
  · rw [finish_mem, desk_mem hb.desk]
    exact congrArg (fun m : Memory => m.read a) hkeeps.mem

/-- ETH_PORT_CONFIG that may move its port runs to any state that holds once the books have worked on the port in its mode. -/
theorem ethPortConfig_runs (s : State) {h : Hdr} {pl : List Byte} {w : Nat} {P : Dev → Prop} (ha : Accepted s.dev cEthPortConfig h pl)
    (hp : MovesPort s.dev w pl)
    (hP : ∀ e, BookKeeps (s.dev.ethConfigured w pl) e → Answered s.dev e.finish 0x0601 h .ok [] → P e.finish) :
    Runs (.ethPortConfig h pl) s P := by
  have hmode := hp.mode.1
  have hfunc : h.func < 16 := ha.2.1
  have hkeeps := ethMode_keeps s.dev hp.port.2 (show byteAt pl 1 = 0 ∨ byteAt pl 1 = 1 by omega)
  have hring : ¬ (TunReg (CAR_RRCFG h.func) ∨ ModeReg (CAR_RRCFG h.func)) := by
    rintro (ht | hm)
    · unfold TunReg CAR_RRCFG at ht
      omega
    · exact not_modeReg_rrcfg hfunc hm
  exact serve_resps_runs s (exec_ethPortConfig h pl) ha (ethPortConfig_eq s.dev hp h) (by decide) (hkeeps.rg _ hring) hkeeps.resps hP

theorem ethPortConfig_ethernet_runs (s : State) {h : Hdr} {pl : List Byte} {w : Nat} (ha : Accepted s.dev cEthPortConfig h pl)
    (hw : w = byteAt pl 0 ∧ w < 2) (hm : byteAt pl 1 = 1 ∧ byteAt pl 2 < 6 ∧ byteAt pl 3 < 2) (ht : s.dev.fld TAB_TLCTL 0 3 ≠ 3 + w)
    (hidle : s.dev.flag (TUN_PCFG w) 0 = true ∨ s.dev.portState (6 + w) = 0 ∨ s.dev.portState (6 + w) = 3) :
    Runs (.ethPortConfig h pl) s (fun e => e.rg (TUN_PCFG w) = ethControl pl ∧ e.fld (TUN_PSTAT w) 0 2 = byteAt pl 3 ∧
      e.portState (6 + w) = 4 ∧ e.portV4 w = (slice pl 4 4).reverse ∧ e.portV6 w = (slice pl 8 16).reverse ∧
      SMap.get [] e.car.keepCfg (3 + w) = pl ∧ Answered s.dev e 0x0601 h .ok [] ∧ SameMem s.dev e) := by
  have hp : MovesPort s.dev w pl := ⟨hw, ⟨by omega, hm.2⟩, ht, fun _ => hidle⟩
  have hlen : pl.length = 32 := by simpa using (show (pl.length == 32) = true from accepted_length ha)
  obtain ⟨hpcfg, hpstat, -⟩ := ethReg_place hw.2
  obtain ⟨hcfg, hlink, hstate, hv4, hv6⟩ := ethMode_ethernet_shown s.dev hw.2 hlen hm
  refine ethPortConfig_runs s ha hp (fun e hb hans => ?_)
  obtain ⟨hrg, hport, hkept, hmem⟩ := ethConfigured_finish s.dev hp hb
  obtain ⟨hv4', hv6'⟩ := portAddrs_congr hw.2 hrg
  exact ⟨(hrg _ hpcfg).trans hcfg, (fld_congr 0 2 (hrg _ hpstat)).trans hlink, hport.trans hstate, hv4'.trans hv4, hv6'.trans hv6, hkept,
    hans, hmem⟩

/-- The control register of a W port is in die 1. -/
theorem portCtl_w {w : Nat} (hw : w < 2) : portCtl (6 + w) = FAB_PCTL 1 (2 + w) := by
  unfold portCtl
  rw [show (6 + w) / 4 = 1 by omega, show (6 + w) % 4 = 2 + w by omega]

theorem ethPortConfig_fabric_runs (s : State) {h : Hdr} {pl : List Byte} {w : Nat} (ha : Accepted s.dev cEthPortConfig h pl)
    (hw : w = byteAt pl 0 ∧ w < 2) (hm : byteAt pl 1 = 0 ∧ byteAt pl 2 < 6 ∧ byteAt pl 3 < 2) (ht : s.dev.fld TAB_TLCTL 0 3 ≠ 3 + w) :
    Runs (.ethPortConfig h pl) s (fun e => e.rg (TUN_PCFG w) = 0 ∧ e.fld (TUN_PSTAT w) 0 2 = 0 ∧
      e.portState (6 + w) = (if s.dev.portState (6 + w) = 4 then (if s.dev.flag (FAB_PCTL 1 (2 + w)) 0 then 1 else 0)
        else s.dev.portState (6 + w)) ∧ Answered s.dev e 0x0601 h .ok [] ∧ SameMem s.dev e) := by
  have hp : MovesPort s.dev w pl := ⟨hw, ⟨by omega, hm.2⟩, ht, fun hone => by omega⟩
  obtain ⟨hpcfg, hpstat, -⟩ := ethReg_place hw.2
  obtain ⟨hcfg, hlink, hstate⟩ := ethMode_fabric_shown s.dev hw.2 hm.1
  rw [portCtl_w hw.2] at hstate
  refine ethPortConfig_runs s ha hp (fun e hb hans => ?_)
  obtain ⟨hrg, hport, -, hmem⟩ := ethConfigured_finish s.dev hp hb
  exact ⟨(hrg _ hpcfg).trans hcfg, (fld_congr 0 2 (hrg _ hpstat)).trans hlink, hport.trans hstate, hans, hmem⟩

/-- Settles O21: each command and event through the equation of its body; the modes of a port by what a change of mode leaves. -/
theorem tunnelCommandsAndEgress : Obligations.TunnelCommandsAndEgress := by
  refine ⟨fun s h pl w ha hw hlt hm ht hidle => ethPortConfig_ethernet_runs s ha ⟨hw, hlt⟩ hm ht hidle,
    fun s h pl w ha hw hlt hm ht => ethPortConfig_fabric_runs s ha ⟨hw, hlt⟩ hm ht,
    fun s h pl ha hsite hclean howns hext hport hstill => siteSet_runs s ha ⟨hsite, hclean, howns, hext, hport, hstill⟩,
    fun s h pl => siteRead_runs s, fun s h pl => tunStatus_runs s, fun s k w x => tunnelEgressSend_runs s,
    fun s k w x => tunnelCoalesceExpiry_up_runs s, fun s k x => tunnelCoalesceExpiry_down_runs s, fun s w hw hcfg => ?_,
    fun s w => ethLinkUp_negotiated_runs s, fun s w => ethLinkDown_runs s⟩
  obtain ⟨t, hexec, hpending, hup⟩ := ethLinkUp_trained_runs s hw hcfg
  exact ⟨t, hexec, hpending, fun _ => hup⟩

end Sys2Proof.Machine
end

section
/-! SUPPORT. The sites of a partition's cores: what a walk of them sets at each and what it leaves; and what the books leave of a
body's work, piece by piece (R137, R513). -/

namespace Sys2Proof.Machine

open Sys2Proof

/-! ### The sites -/

/-- A logical core of the device stands at one of its sites. -/
theorem physOf_lt {d : Dev} {n q : Nat} (hn : n < 256) (h : d.physOf n = some q) : q < 256 := by
  unfold Dev.physOf at h
  dsimp only at h
  split at h
  · have hplace : d.fld (FAB_REMAP (n / 16) n) 0 4 < 16 := Nat.mod_lt _ (by decide)
    cases h
    omega
  · exact absurd h (by simp)

/-- The sites of a partition are the device's. -/
theorem sitesOf_lt {d : Dev} {p q : Nat} (h : q ∈ d.sitesOf p) : q < 256 := by
  unfold Dev.sitesOf Dev.coresOf at h
  obtain ⟨l, hl, hq⟩ := List.mem_flatten.1 h
  obtain ⟨r, hr, rfl⟩ := List.mem_map.1 hl
  obtain ⟨c, hc, rfl⟩ := List.mem_map.1 hq
  obtain ⟨s, hs, hcore⟩ := List.mem_filterMap.1 hc
  obtain ⟨q, hphys, rfl⟩ := Option.map_eq_some_iff.1 hcore
  have hregion : r < 16 := mem_upTo (List.mem_of_mem_filter hr)
  have hslot := mem_upTo hs
  exact physOf_lt (by omega) hphys

/-- Registers of two sites at one offset below the block's length are two. -/
theorem nBase_inj {q k : Nat} (h : nBase q = nBase k) : q = k := by
  unfold nBase slotBase at h
  omega

/-! ### Walks -/

/-- A walk whose step establishes `P` at its element, and keeps it elsewhere, establishes it at every element. -/
theorem forEach_each {α : Type} {f : Dev → α → Dev} {P : Dev → α → Prop} (hset : ∀ d x, P (f d x) x)
    (hstay : ∀ d x y, x ≠ y → P d y → P (f d x) y) : ∀ (l : List α) (d : Dev) (x : α), x ∈ l → P (d.forEach l f) x := by
  have hkeep : ∀ d x y, P d y → P (f d x) y := fun d x y h => by
    by_cases he : x = y
    · exact he ▸ hset d x
    · exact hstay d x y he h
  intro l
  induction l with
  | nil => exact fun _ _ h => absurd h (by simp)
  | cons x r ih =>
    intro d y hy
    obtain rfl | hr := List.mem_cons.1 hy
    · exact forEach_inv (fun e => P e y) f (fun e z => hkeep e z y) r _ (hset d y)
    · exact ih _ y hr

/-- A walk of registers `R q` of the sites, each set to `v`: each site shows it. -/
theorem forEach_setR_shows {R : Nat → Nat} (hR : ∀ q k, R q = R k → q = k) {v : Nat} (hv : v < 2 ^ 32) (d : Dev) (l : List Nat) :
    ∀ q, q ∈ l → (d.forEach l (fun d q => d.setR (R q) v)).rg (R q) = v :=
  fun q => forEach_each (P := fun e q => e.rg (R q) = v) (fun e k => (rg_setR_same e _ v).trans (Nat.mod_eq_of_lt hv))
    (fun e k q hne h => (rg_setR_ne e fun he => hne (hR q k he).symm).trans h) l d q

/-- A walk whose step touches registers alone touches registers alone. -/
theorem forEach_regs {α : Type} {f : Dev → α → Dev} (hf : ∀ d x, ∃ g, f d x = { d with regs := g }) (d : Dev) (l : List α) :
    ∃ g, d.forEach l f = { d with regs := g } :=
  forEach_inv (fun e => ∃ g, e = { d with regs := g }) f (fun e x ⟨g, hg⟩ => by
    obtain ⟨g', hg'⟩ := hf e x
    exact ⟨g', by rw [hg', hg]⟩) l d ⟨_, rfl⟩

/-! ### What the books leave of a body's work -/

theorem BookKeeps.regKeeps {d d' e : Dev} {w : Nat → Prop} (h : BookKeeps d' e) (hrg : ∀ a, ¬ w a → d'.rg a = d.rg a) :
    RegKeeps d e.finish (fun a => BookReg a ∨ w a) := fun a ha hf =>
  (rg_finish e hf).trans ((h.rg a fun hb => ha (.inl hb)).trans (hrg a fun hw => ha (.inr hw)))

theorem BookKeeps.keeps {d d' e : Dev} {w : Nat → Prop} (h : BookKeeps d' e) (hmem : d'.mem = d.mem) (hecc : d'.ecc = d.ecc)
    (hrg : ∀ a, ¬ w a → d'.rg a = d.rg a) : Keeps d e.finish (fun a => BookReg a ∨ w a) :=
  ⟨h.regKeeps hrg, fun a => by rw [finish_mem, desk_mem h.desk, hmem], by rw [finish_ecc, desk_ecc h.desk, hecc]⟩

theorem BookKeeps.sameUnits {d d' e : Dev} (h : BookKeeps d' e) (hu : d'.units = d.units) : SameUnits d e.finish :=
  sameUnits_finish ((congrArg Dev.units h.desk :).trans hu)

/-- Registers of the slots are none of Carillon's. -/
theorem rg_rrcfg_of_slot {d e : Dev} {w : Nat → Prop} (hrg : ∀ a, ¬ w a → e.rg a = d.rg a) (hw : ∀ a, w a → 0x10000000 ≤ a) {f : Nat}
    (hf : f < 16) : e.rg (CAR_RRCFG f) = d.rg (CAR_RRCFG f) :=
  hrg _ fun h => by
    have := hw _ h
    unfold CAR_RRCFG at this
    omega

end Sys2Proof.Machine
end

section
/-! SUPPORT. The commands of Seasons, rules and the modulator (R306, R317, R320, R325, R326, R348, R357), and the family's statement. -/

namespace Sys2Proof.Machine

open Sys2Proof

theorem exec_ruleLoad (h : Hdr) (pl : List Byte) (s : State) :
    exec (.ruleLoad h pl) s = s.run (·.serve cRuleLoad Dev.ruleLoad h pl) := rfl
theorem exec_ruleRead (h : Hdr) (pl : List Byte) (s : State) :
    exec (.ruleRead h pl) s = s.run (·.serve cRuleRead Dev.ruleRead h pl) := rfl
theorem exec_seasonConfig (h : Hdr) (pl : List Byte) (s : State) :
    exec (.seasonConfig h pl) s = s.run (·.serve cSeasonConfig Dev.seasonConfig h pl) := rfl
theorem exec_modSet (h : Hdr) (pl : List Byte) (s : State) :
    exec (.modSet h pl) s = s.run (·.serve cModSet Dev.modSet h pl) := rfl
theorem exec_seedSet (h : Hdr) (pl : List Byte) (s : State) :
    exec (.seedSet h pl) s = s.run (·.serve cSeedSet Dev.seedSet h pl) := rfl
theorem exec_revLoad (h : Hdr) (pl : List Byte) (s : State) :
    exec (.revLoad h pl) s = s.run (·.serve cRevLoad Dev.revLoad h pl) := rfl
theorem exec_hrvStatus (h : Hdr) (pl : List Byte) (s : State) :
    exec (.hrvStatus h pl) s = s.run (·.serve cHrvStatus Dev.hrvStatus h pl) := rfl

/-! ### RULE_LOAD and RULE_READ (R317, R357) -/

/-- Rule `k` of site `q` stored, with its bit of RULEVALID. -/
def Dev.ruleSet (d : Dev) (k : Nat) (r : List Byte) (q : Nat) : Dev :=
  (d.setCore q { d.core q with rules := SMap.set [] (d.core q).rules k r }).setFlag (HRV_RULEVALID q) k (ruleValid r)

section
variable (d : Dev) (k : Nat) (r : List Byte)

theorem rule_ruleSet (q x j : Nat) : (d.ruleSet k r q).rule x j = if x = q ∧ j = k then r else d.rule x j := by
  unfold Dev.rule Dev.ruleSet
  rw [show ((d.setCore q _).setFlag (HRV_RULEVALID q) k (ruleValid r)).core x = _ from core_setCore ..]
  by_cases hx : x = q
  · subst hx
    simp [SMap.get_set]
  · simp [hx]

theorem core_ruleSet_ne {q x : Nat} (h : x ≠ q) : (d.ruleSet k r q).core x = d.core x :=
  (core_setCore ..).trans (if_neg h)

theorem flag_ruleSet (q : Nat) (hk : k < 16) : (d.ruleSet k r q).flag (HRV_RULEVALID q) k = ruleValid r :=
  flag_setFlag_same _ (by omega)

theorem rg_ruleSet_ne {q a : Nat} (h : a ≠ HRV_RULEVALID q) : (d.ruleSet k r q).rg a = d.rg a :=
  rg_setFlag_ne _ h

theorem ruleValid_inj {q x : Nat} (h : HRV_RULEVALID q = HRV_RULEVALID x) : q = x :=
  nBase_inj (by unfold HRV_RULEVALID at h; omega)

/-- After a walk of the sites each holds the rule, and its bit. -/
theorem forEach_ruleSet (hk : k < 16) (l : List Nat) {q : Nat} (hq : q ∈ l) :
    (d.forEach l (fun d q => d.ruleSet k r q)).rule q k = r ∧
      (d.forEach l (fun d q => d.ruleSet k r q)).flag (HRV_RULEVALID q) k = ruleValid r := by
  refine forEach_each (P := fun e q => e.rule q k = r ∧ e.flag (HRV_RULEVALID q) k = ruleValid r) (fun e x => ?_)
    (fun e x y hne h => ?_) l d q hq
  · exact ⟨(rule_ruleSet ..).trans (if_pos ⟨rfl, rfl⟩), flag_ruleSet e k r x hk⟩
  · refine ⟨(rule_ruleSet ..).trans ((if_neg fun he => hne he.1.symm).trans h.1), (flag_congr k ?_).trans h.2⟩
    exact rg_ruleSet_ne e k r fun he => hne (ruleValid_inj he).symm

/-- The walk touches the cores' rules and RULEVALID alone. -/
theorem forEach_ruleSet_rest (l : List Nat) : ∃ g c, d.forEach l (fun d q => d.ruleSet k r q) = { d with regs := g, cores := c } :=
  forEach_inv (fun e => ∃ g c, e = { d with regs := g, cores := c }) _ (fun e x ⟨g, c, hg⟩ => by subst hg; exact ⟨_, _, rfl⟩) l d
    ⟨_, _, rfl⟩

theorem rg_forEach_ruleSet {l : List Nat} (hl : ∀ q, q ∈ l → q < 256) {a : Nat} (h : ¬ ∃ q, q < 256 ∧ a = HRV_RULEVALID q) :
    (d.forEach l (fun d q => d.ruleSet k r q)).rg a = d.rg a :=
  forEach_keeps_mem (fun e => e.rg a) _ l (fun e q hq => rg_ruleSet_ne e k r fun he => h ⟨q, hl q hq, he⟩) d

end

/-- The sites that RULE_LOAD names: one, or all of the partition's. -/
theorem ruleLoad_eq {d : Dev} {h : Hdr} {pl : List Byte} {qs : List Nat}
    (hqs : (if leAt pl 0 2 = 0xFFFF then Except.ok (d.sitesOf h.part) else (d.lcore h.part (leAt pl 0 2)).map (fun q => [q])) = .ok qs)
    (hstill : d.still h.part = true) (hk : byteAt pl 2 < 16) (hok : ruleOk (pl.drop 8) = true) :
    d.ruleLoad h pl = (d.forEach qs (fun d q => d.ruleSet (byteAt pl 2) (pl.drop 8) q), .st .ok) := by
  have hgood : ¬ (16 ≤ byteAt pl 2 || ! ruleOk (pl.drop 8)) = true := by
    rw [hok, Bool.not_true, Bool.or_false, decide_eq_true_eq]
    omega
  unfold Dev.ruleLoad
  dsimp only
  rw [hqs]
  dsimp only
  rw [if_neg (by simp [hstill]), if_neg hgood]
  rfl

theorem ruleLoad_runs {P : Dev → Prop} (s : State) {h : Hdr} {pl : List Byte} {qs : List Nat} (ha : Accepted s.dev cRuleLoad h pl)
    (hqs : (if leAt pl 0 2 = 0xFFFF then Except.ok (s.dev.sitesOf h.part)
      else (s.dev.lcore h.part (leAt pl 0 2)).map (fun q => [q])) = .ok qs) (hl : ∀ q, q ∈ qs → q < 256)
    (hstill : s.dev.still h.part = true) (hk : byteAt pl 2 < 16) (hok : ruleOk (pl.drop 8) = true)
    (hP : ∀ e, BookKeeps (s.dev.forEach qs (fun d q => d.ruleSet (byteAt pl 2) (pl.drop 8) q)) e →
      Answered s.dev e.finish 0x0701 h .ok [] → P e.finish) : Runs (.ruleLoad h pl) s P := by
  obtain ⟨g, c, hg⟩ := forEach_ruleSet_rest s.dev (byteAt pl 2) (pl.drop 8) qs
  exact serve_runs s (exec_ruleLoad h pl) ha (ruleLoad_eq hqs hstill hk hok) (by decide)
    (rg_rrcfg_of_slot (fun a => rg_forEach_ruleSet s.dev _ _ hl)
      (fun a ⟨q, _, hq⟩ => by unfold HRV_RULEVALID nBase slotBase at hq; omega) ha.2.1) (by rw [hg]) hP

theorem BookKeeps.core {d e : Dev} (h : BookKeeps d e) (q : Nat) : e.finish.core q = d.core q := by
  unfold Dev.core
  rw [finish_cores, desk_cores h.desk]

theorem BookKeeps.rule {d e : Dev} (h : BookKeeps d e) (q k : Nat) : e.finish.rule q k = d.rule q k := by
  unfold Dev.rule
  rw [h.core]

theorem ruleLoad_one_runs (s : State) {h : Hdr} {pl : List Byte} {q : Nat} (ha : Accepted s.dev cRuleLoad h pl)
    (hq : NamesCore s.dev h.part (leAt pl 0 2) q) (hstill : s.dev.still h.part = true) (hk : byteAt pl 2 < 16)
    (hok : ruleOk (pl.drop 8) = true) :
    Runs (.ruleLoad h pl) s (fun e => s.dev.rule q (byteAt pl 2) = SMap.get [] (s.dev.core q).rules (byteAt pl 2) ∧
      e.rule q (byteAt pl 2) = pl.drop 8 ∧ (∀ k, k ≠ byteAt pl 2 → e.rule q k = s.dev.rule q k) ∧
      (∀ k, k ≠ q → e.core k = s.dev.core k) ∧ e.flag (HRV_RULEVALID q) (byteAt pl 2) = ruleValid (pl.drop 8) ∧
      Answered s.dev e 0x0701 h .ok [] ∧ Keeps s.dev e (fun a => BookReg a ∨ a = HRV_RULEVALID q)) := by
  have hone : leAt pl 0 2 ≠ 0xFFFF := by
    have := hq.1
    omega
  have hsite : ∀ k, k ∈ [q] → k < 256 := fun k hk => List.mem_singleton.1 hk ▸ physOf_lt hq.1 hq.2.2
  refine ruleLoad_runs s ha (by rw [if_neg hone, lcore_named hq]; rfl) hsite hstill hk hok fun e hbook hans => ?_
  have hslot : 0x10000000 ≤ HRV_RULEVALID q := Nat.le_trans (nBase_slot q) (by unfold HRV_RULEVALID; omega)
  refine ⟨rfl, ?_, fun k hk => ?_, fun k hk => ?_, ?_, hans, hbook.keeps rfl rfl fun a ha => rg_ruleSet_ne _ _ _ ha⟩
  · exact (hbook.rule _ _).trans ((rule_ruleSet ..).trans (if_pos ⟨rfl, rfl⟩))
  · exact (hbook.rule _ _).trans ((rule_ruleSet ..).trans (if_neg fun he => hk he.2))
  · exact (hbook.core _).trans (core_ruleSet_ne _ _ _ hk)
  · exact (flag_congr _ (hbook.rg_slot hslot)).trans (flag_ruleSet _ _ _ _ hk)

theorem ruleLoad_all_runs (s : State) {h : Hdr} {pl : List Byte} (ha : Accepted s.dev cRuleLoad h pl) (hall : leAt pl 0 2 = 0xFFFF)
    (hstill : s.dev.still h.part = true) (hk : byteAt pl 2 < 16) (hok : ruleOk (pl.drop 8) = true) :
    Runs (.ruleLoad h pl) s (fun e => (∀ q, q ∈ s.dev.sitesOf h.part → e.rule q (byteAt pl 2) = pl.drop 8 ∧
      e.flag (HRV_RULEVALID q) (byteAt pl 2) = ruleValid (pl.drop 8)) ∧ Answered s.dev e 0x0701 h .ok [] ∧
      Keeps s.dev e (fun a => BookReg a ∨ ∃ q, q < 256 ∧ a = HRV_RULEVALID q)) := by
  refine ruleLoad_runs s ha (if_pos hall) (fun q => sitesOf_lt) hstill hk hok fun e hbook hans => ?_
  obtain ⟨g, c, hg⟩ := forEach_ruleSet_rest s.dev (byteAt pl 2) (pl.drop 8) (s.dev.sitesOf h.part)
  refine ⟨fun q hq => ?_, hans, hbook.keeps (by rw [hg]) (by rw [hg]) fun a => rg_forEach_ruleSet _ _ _ fun q => sitesOf_lt⟩
  obtain ⟨hrule, hflag⟩ := forEach_ruleSet s.dev (byteAt pl 2) (pl.drop 8) hk (s.dev.sitesOf h.part) hq
  have hslot : 0x10000000 ≤ HRV_RULEVALID q := Nat.le_trans (nBase_slot q) (by unfold HRV_RULEVALID; omega)
  exact ⟨(hbook.rule _ _).trans hrule, (flag_congr _ (hbook.rg_slot hslot)).trans hflag⟩

theorem ruleRead_runs (s : State) {h : Hdr} {pl : List Byte} {q : Nat} (ha : Accepted s.dev cRuleRead h pl)
    (hq : NamesCore s.dev h.part (leAt pl 0 2) q) (hk : byteAt pl 2 < 16) :
    Runs (.ruleRead h pl) s (fun e => Answered s.dev e 0x0702 h .ok (padTo 64 (s.dev.rule q (byteAt pl 2))) ∧
      Keeps s.dev e (fun a => BookReg a) ∧ SameUnits s.dev e) :=
  serve_reads s (exec_ruleRead h pl) ha ((onCore_named hq _).trans (if_neg (Nat.not_le.2 hk)))
    (fits_short ha (by rw [length_padTo]; decide))

theorem hrvStatus_runs (s : State) {h : Hdr} {pl : List Byte} {q : Nat} (ha : Accepted s.dev cHrvStatus h pl)
    (hq : NamesCore s.dev h.part (leAt pl 0 2) q) :
    Runs (.hrvStatus h pl) s (fun e => Answered s.dev e 0x070C h .ok (s.dev.regBytes (HRV_CTL q) 29) ∧
      Keeps s.dev e (fun a => BookReg a) ∧ SameUnits s.dev e) :=
  serve_reads s (exec_hrvStatus h pl) ha (onCore_named hq _) (fits_short ha (by rw [length_regBytes]; decide))

/-! ### SEASON_CONFIG, MOD_SET and SEED_SET (R306, R325, R326, R348, R357) -/

theorem runs_imp {c : Instr} {s : State} {P Q : Dev → Prop} (h : Runs c s P) (hPQ : ∀ e, P e → Q e) : Runs c s Q := by
  obtain ⟨t, hexec, hpending, hP⟩ := h
  exact ⟨t, hexec, hpending, hPQ _ hP⟩

section
variable {c : Hdr → List Byte → Instr} {k : CmdSpec} {body : Dev → Hdr → List Byte → Dev × Ans} {h : Hdr} {pl : List Byte} {d' : Dev}
  {w : Nat → Prop}

/-- A command that ends, its body having written registers `w` of the slots: they read as written, and the rest is left. -/
theorem serve_slotRegs (s : State) (he : ∀ s, exec (c h pl) s = s.run (·.serve k body h pl)) (ha : Accepted s.dev k h pl)
    (hb : body s.dev h pl = (d', .st .ok)) (hregs : ∃ g, d' = { s.dev with regs := g }) (hrg : ∀ a, ¬ w a → d'.rg a = s.dev.rg a)
    (hw : ∀ a, w a → 0x10000000 ≤ a) :
    Runs (c h pl) s (fun e => (∀ a, 0x10000000 ≤ a → e.rg a = d'.rg a) ∧ Answered s.dev e k.opcode h .ok [] ∧
      Keeps s.dev e (fun a => BookReg a ∨ w a) ∧ SameUnits s.dev e) := by
  obtain ⟨g, rfl⟩ := hregs
  exact serve_runs s he ha hb (by decide) (rg_rrcfg_of_slot hrg hw ha.2.1) rfl fun e hbook hans =>
    ⟨fun a => hbook.rg_slot, hans, hbook.keeps rfl rfl hrg, hbook.sameUnits rfl⟩

/-- The same of one that waits. -/
theorem serve_slotRegs_waits (s : State) {x : WaitFor} (he : ∀ s, exec (c h pl) s = s.run (·.serve k body h pl))
    (ha : Accepted s.dev k h pl) (hb : body s.dev h pl = (d', .wait x)) (hregs : ∃ g, d' = { s.dev with regs := g })
    (hrg : ∀ a, ¬ w a → d'.rg a = s.dev.rg a) :
    Runs (c h pl) s (fun e => (∀ a, 0x10000000 ≤ a → e.rg a = d'.rg a) ∧ Waits s.dev e k h pl x ∧
      Keeps s.dev e (fun a => BookReg a ∨ w a) ∧ SameUnits s.dev e) := by
  obtain ⟨g, rfl⟩ := hregs
  obtain ⟨hwait, hbook⟩ := serve_wait ha hb
  refine (runs_iff (he s)).2 ⟨fun a => hbook.rg_slot, ?_, hbook.keeps rfl rfl hrg, hbook.sameUnits rfl⟩
  unfold Waits
  rw [finish_car, hwait]

end

/-- The registers of a Season at a site, written. -/
def Dev.seasonSet (d : Dev) (len win bud ctl q : Nat) : Dev :=
  (((d.setR (HRV_SEASON q) len).setR (HRV_HWIN q) win).setR (HRV_BUDGET q) bud).setR (HRV_CTL q) ctl

/-- They are these of the site. -/
def SeasonReg (q a : Nat) : Prop := a = HRV_SEASON q ∨ a = HRV_HWIN q ∨ a = HRV_BUDGET q ∨ a = HRV_CTL q

/-- A register of a Season is of one site. -/
theorem SeasonReg.site {q k a : Nat} (h : SeasonReg q a) (g : SeasonReg k a) : q = k := by
  unfold SeasonReg HRV_SEASON HRV_HWIN HRV_BUDGET HRV_CTL nBase slotBase at *
  omega

theorem SeasonReg.slot {q a : Nat} (h : SeasonReg q a) : 0x10000000 ≤ a := by
  unfold SeasonReg HRV_SEASON HRV_HWIN HRV_BUDGET HRV_CTL nBase slotBase at h
  omega

section
variable (d : Dev) {len win bud ctl : Nat}

theorem rg_seasonSet_ne {q a : Nat} (h : ¬ SeasonReg q a) : (d.seasonSet len win bud ctl q).rg a = d.rg a := by
  unfold SeasonReg at h
  push Not at h
  obtain ⟨hseason, hwin, hbudget, hctl⟩ := h
  unfold Dev.seasonSet
  rw [rg_setR_ne _ hctl, rg_setR_ne _ hbudget, rg_setR_ne _ hwin, rg_setR_ne _ hseason]

/-- What the registers of a Season at a site show. -/
def Dev.showsSeason (d : Dev) (len win bud ctl q : Nat) : Prop :=
  d.rg (HRV_SEASON q) = len ∧ d.rg (HRV_HWIN q) = win ∧ d.rg (HRV_BUDGET q) = bud ∧ d.rg (HRV_CTL q) = ctl

theorem showsSeason_congr {d e : Dev} {q : Nat} (h : ∀ a, SeasonReg q a → e.rg a = d.rg a) (hd : d.showsSeason len win bud ctl q) :
    e.showsSeason len win bud ctl q := by
  obtain ⟨hseason, hwin, hbudget, hctl⟩ := hd
  exact ⟨(h _ (.inl rfl)).trans hseason, (h _ (.inr (.inl rfl))).trans hwin, (h _ (.inr (.inr (.inl rfl)))).trans hbudget,
    (h _ (.inr (.inr (.inr rfl)))).trans hctl⟩

theorem rg_seasonSet (len win bud ctl q : Nat) :
    (d.seasonSet len win bud ctl q).rg (HRV_SEASON q) = len % 2 ^ 32 ∧ (d.seasonSet len win bud ctl q).rg (HRV_HWIN q) = win % 2 ^ 32 ∧
    (d.seasonSet len win bud ctl q).rg (HRV_BUDGET q) = bud % 2 ^ 32 ∧ (d.seasonSet len win bud ctl q).rg (HRV_CTL q) = ctl % 2 ^ 32 := by
  unfold Dev.seasonSet HRV_SEASON HRV_HWIN HRV_BUDGET HRV_CTL
  simp [rg_setR]

theorem seasonSet_shows (hlen : len < 2 ^ 32) (hwin : win < 2 ^ 32) (hbud : bud < 2 ^ 32) (hctl : ctl < 2 ^ 32) (q : Nat) :
    (d.seasonSet len win bud ctl q).showsSeason len win bud ctl q := by
  obtain ⟨rseason, rwin, rbudget, rctl⟩ := rg_seasonSet d len win bud ctl q
  exact ⟨rseason.trans (Nat.mod_eq_of_lt hlen), rwin.trans (Nat.mod_eq_of_lt hwin), rbudget.trans (Nat.mod_eq_of_lt hbud),
    rctl.trans (Nat.mod_eq_of_lt hctl)⟩

theorem forEach_seasonSet_shows (hlen : len < 2 ^ 32) (hwin : win < 2 ^ 32) (hbud : bud < 2 ^ 32) (hctl : ctl < 2 ^ 32) (l : List Nat) :
    ∀ q, q ∈ l → (d.forEach l (fun d q => d.seasonSet len win bud ctl q)).showsSeason len win bud ctl q :=
  fun q => forEach_each (P := fun e q => e.showsSeason len win bud ctl q) (fun e => seasonSet_shows e hlen hwin hbud hctl)
    (fun e x y hne => showsSeason_congr fun a ha => rg_seasonSet_ne e fun hx => hne (hx.site ha)) l d q

end

/-- The flags of SEASON_CONFIG as HRV_CTL shows them. -/
def seasonControl (pl : List Byte) : Nat := bitsOf (byteAt pl 8) 0 1 + 4 * bitsOf (byteAt pl 8) 1 1 + 8 * bitsOf (byteAt pl 8) 2 1

theorem seasonControl_lt (pl : List Byte) : seasonControl pl < 2 ^ 32 := by
  unfold seasonControl bitsOf
  omega

theorem seasonConfig_eq {d : Dev} {h : Hdr} {pl : List Byte} (hstill : d.still h.part = true)
    (hset : 0 < leAt pl 0 2 ∧ 0 < leAt pl 2 2 ∧ 0 < leAt pl 4 4 ∧ leAt pl 4 4 < 2 ^ 24)
    (hwear : leAt pl 0 2 ≠ d.seasonLen h.part → d.ckptTooFast h.part (d.fld (TAB_BPERIOD h.part) 0 29) (leAt pl 0 2) = false) :
    d.seasonConfig h pl = (d.forEach (d.sitesOf h.part)
      (fun d q => d.seasonSet (leAt pl 0 2) (leAt pl 2 2) (leAt pl 4 4) (seasonControl pl) q), .st .ok) := by
  obtain ⟨hlen, hwin, hbud, hmax⟩ := hset
  have hgood : ¬ (leAt pl 0 2 = 0 || leAt pl 2 2 = 0 || leAt pl 4 4 = 0 || 2 ^ 24 ≤ leAt pl 4 4 || (leAt pl 0 2 ≠ d.seasonLen h.part &&
      d.ckptTooFast h.part (d.fld (TAB_BPERIOD h.part) 0 29) (leAt pl 0 2))) = true := by
    simp only [Bool.or_eq_true, Bool.and_eq_true, decide_eq_true_eq]
    rintro ((((h0 | h0) | h0) | h0) | ⟨hne, hfast⟩)
    · omega
    · omega
    · omega
    · omega
    · rw [hwear hne] at hfast
      exact absurd hfast (by decide)
  unfold Dev.seasonConfig
  dsimp only
  rw [if_neg (by simp [hstill]), if_neg hgood]
  rfl

theorem seasonConfig_runs (s : State) {h : Hdr} {pl : List Byte} (ha : Accepted s.dev cSeasonConfig h pl)
    (hstill : s.dev.still h.part = true) (hset : 0 < leAt pl 0 2 ∧ 0 < leAt pl 2 2 ∧ 0 < leAt pl 4 4 ∧ leAt pl 4 4 < 2 ^ 24)
    (hwear : leAt pl 0 2 ≠ s.dev.seasonLen h.part →
      s.dev.ckptTooFast h.part (s.dev.fld (TAB_BPERIOD h.part) 0 29) (leAt pl 0 2) = false) :
    Runs (.seasonConfig h pl) s (fun e => (∀ q, q ∈ s.dev.sitesOf h.part →
      e.showsSeason (leAt pl 0 2) (leAt pl 2 2) (leAt pl 4 4) (seasonControl pl) q) ∧ Answered s.dev e 0x0703 h .ok [] ∧
      Keeps s.dev e (fun a => BookReg a ∨ ∃ q, q < 256 ∧ SeasonReg q a) ∧ SameUnits s.dev e) := by
  have hlen := leAt_lt pl 0 2
  have hwin := leAt_lt pl 2 2
  have hbud := leAt_lt pl 4 4
  refine runs_imp (serve_slotRegs (w := fun a => ∃ q, q < 256 ∧ SeasonReg q a) s (exec_seasonConfig h pl) ha
    (seasonConfig_eq hstill hset hwear) (forEach_regs (fun _ _ => ⟨_, rfl⟩) _ _) (fun a hout => ?_)
    (fun a ⟨_, _, hq⟩ => hq.slot)) fun e ⟨hslot, hrest⟩ => ⟨fun q hq => ?_, hrest⟩
  · exact forEach_keeps_mem (fun e => e.rg a) _ _ (fun e q hq => rg_seasonSet_ne e fun hx => hout ⟨q, sitesOf_lt hq, hx⟩) _
  · exact showsSeason_congr (fun a hx => hslot a hx.slot)
      (forEach_seasonSet_shows s.dev (by omega) (by omega) (by omega) (seasonControl_lt pl) _ q hq)

/-- A walk that sets one register of each site: every site shows it, and no other register is touched. -/
theorem forEach_site {R : Nat → Nat} (hR : ∀ q k, R q = R k → q = k) {v : Nat} (hv : v < 2 ^ 32) (d : Dev) (p : Nat) :
    (∀ q, q ∈ d.sitesOf p → (d.forEach (d.sitesOf p) (fun d q => d.setR (R q) v)).rg (R q) = v) ∧
    (∃ g, d.forEach (d.sitesOf p) (fun d q => d.setR (R q) v) = { d with regs := g }) ∧
    ∀ a, ¬ (∃ q, q < 256 ∧ a = R q) → (d.forEach (d.sitesOf p) (fun d q => d.setR (R q) v)).rg a = d.rg a :=
  ⟨forEach_setR_shows hR hv d _, forEach_regs (fun _ _ => ⟨_, rfl⟩) d _, fun a ha =>
    forEach_keeps_mem (fun e => e.rg a) _ _ (fun e q hq => rg_setR_ne e fun he => ha ⟨q, sitesOf_lt hq, he⟩) d⟩

/-- The low bytes of a number are its low digits. -/
theorem leNat_take (l : List Byte) : ∀ k, leNat (l.take k) = leNat l % 256 ^ k := by
  induction l with
  | nil => intro k; simp [leNat]
  | cons b r ih =>
    intro k
    cases k with
    | zero => simp [leNat, Nat.mod_one]
    | succ k =>
      have hb : b.toNat < 256 := b.isLt
      rw [List.take_succ_cons, leNat, leNat, ih, pow_succ' 256 k, Nat.mod_mul, Nat.add_mul_mod_self_left, Nat.mod_eq_of_lt hb,
        Nat.add_mul_div_left _ _ (by decide), Nat.div_eq_of_lt hb, Nat.zero_add]

theorem leAt_low (l : List Byte) (j : Nat) {k n : Nat} (h : k ≤ n) : leAt l j n % 256 ^ k = leAt l j k := by
  unfold leAt
  rw [← leNat_take, List.take_take, Nat.min_eq_left h]

/-- The armed value of MOD_SET: the beat's low half, the mark and the value (R325). -/
def modArmed (pl : List Byte) : Nat := leAt pl 2 2 * 65536 + 32768 + byteAt pl 0

theorem modSet_eq (d : Dev) (h : Hdr) (pl : List Byte) : d.modSet h pl =
    (d.forEach (d.sitesOf h.part) (fun d q => d.setR (HRV_MODNEXT q) (modArmed pl)), .wait (.mod (leAt pl 2 6))) := by
  have hlow : leAt pl 2 6 % 65536 = leAt pl 2 2 := leAt_low pl 2 (show 2 ≤ 6 by decide)
  unfold Dev.modSet modArmed
  dsimp only
  rw [hlow]

theorem modSet_runs (s : State) {h : Hdr} {pl : List Byte} (ha : Accepted s.dev cModSet h pl) :
    Runs (.modSet h pl) s (fun e => (∀ q, q ∈ s.dev.sitesOf h.part → e.rg (HRV_MODNEXT q) = modArmed pl) ∧
      Waits s.dev e cModSet h pl (.mod (leAt pl 2 6)) ∧ Keeps s.dev e (fun a => BookReg a ∨ ∃ q, q < 256 ∧ a = HRV_MODNEXT q) ∧
      SameUnits s.dev e) := by
  have hbeat := leAt_lt pl 2 2
  have hvalue := byteAt_lt pl 0
  obtain ⟨hshow, hregs, hrg⟩ := forEach_site (R := HRV_MODNEXT) (v := modArmed pl)
    (fun q k he => nBase_inj (by unfold HRV_MODNEXT at he; omega)) (by unfold modArmed; omega) s.dev h.part
  refine runs_imp (serve_slotRegs_waits s (exec_modSet h pl) ha (modSet_eq ..) hregs hrg) fun e ⟨hslot, hrest⟩ => ⟨fun q hq => ?_, hrest⟩
  exact (hslot _ (Nat.le_trans (nBase_slot q) (by unfold HRV_MODNEXT; omega))).trans (hshow q hq)

theorem seedSet_runs (s : State) {h : Hdr} {pl : List Byte} (ha : Accepted s.dev cSeedSet h pl) (hstill : s.dev.still h.part = true)
    (hseed : leAt pl 0 4 ≠ 0) :
    Runs (.seedSet h pl) s (fun e => (∀ q, q ∈ s.dev.sitesOf h.part → e.rg (HRV_SEED q) = leAt pl 0 4) ∧
      Answered s.dev e 0x0705 h .ok [] ∧ Keeps s.dev e (fun a => BookReg a ∨ ∃ q, q < 256 ∧ a = HRV_SEED q) ∧ SameUnits s.dev e) := by
  have hbody : s.dev.seedSet h pl =
      (s.dev.forEach (s.dev.sitesOf h.part) (fun d q => d.setR (HRV_SEED q) (leAt pl 0 4)), .st .ok) := by
    unfold Dev.seedSet
    rw [if_neg (by simp [hstill]), if_neg hseed]
  have hslots : ∀ q, 0x10000000 ≤ HRV_SEED q := fun q => Nat.le_trans (nBase_slot q) (by unfold HRV_SEED; omega)
  obtain ⟨hshow, hregs, hrg⟩ := forEach_site (R := HRV_SEED) (v := leAt pl 0 4)
    (fun q k he => nBase_inj (by unfold HRV_SEED at he; omega)) (leAt_lt pl 0 4) s.dev h.part
  exact runs_imp (serve_slotRegs s (exec_seedSet h pl) ha hbody hregs hrg (fun a ⟨q, _, he⟩ => he ▸ hslots q))
    fun e ⟨hslot, hrest⟩ => ⟨fun q hq => (hslot _ (hslots q)).trans (hshow q hq), hrest⟩

/-! ### REV_LOAD (R320, R357) -/

/-- The words written and NDIR set. -/
def Dev.revSet (d : Dev) (q a nd : Nat) (l : List Byte) : Dev := (d.csWrite q a l l.length).setR (HRV_REVCFG q) nd

theorem revSet_spec (d : Dev) (q a : Nat) {nd : Nat} (l : List Byte) (hnd : nd < 2 ^ 32) :
    (d.revSet q a nd l).mem = memWr d.mem a l ∧ (d.revSet q a nd l).slim = d.slim ∧ (d.revSet q a nd l).rg (HRV_REVCFG q) = nd ∧
      ∀ b, ¬ (b = HRV_REVCFG q ∨ StoreReg q b) → (d.revSet q a nd l).rg b = d.rg b := by
  obtain ⟨hmem, hslim, hrg⟩ := csWrite_writes q l.length a l d (Nat.le_refl _)
  refine ⟨hmem, hslim, (rg_setR_same ..).trans (Nat.mod_eq_of_lt hnd), fun b hb => ?_⟩
  exact (rg_setR_ne _ fun he => hb (.inl he)).trans (hrg b fun hs => hb (.inr hs))

theorem revLoad_eq {d : Dev} {h : Hdr} {pl : List Byte} {q : Nat} (hq : NamesCore d h.part (leAt pl 0 2) q)
    (hlen : pl.length = 16 + 4 * leAt pl 8 4) (hstill : d.still h.part = true) (hnd : leAt pl 2 2 ≤ d.areaLen (SYN_PMREV q) / 4)
    (hfit : leAt pl 4 4 + leAt pl 8 4 ≤ d.areaLen (SYN_PMREV q) / 4) :
    d.revLoad h pl =
      (d.revSet q (d.areaBase q (SYN_PMREV q) + 4 * leAt pl 4 4) (leAt pl 2 2) (pl.drop 16), .st .ok) := by
  have hin : ¬ (d.areaLen (SYN_PMREV q) / 4 < leAt pl 2 2 || d.areaLen (SYN_PMREV q) / 4 < leAt pl 4 4 + leAt pl 8 4) = true := by
    rw [Bool.or_eq_true, decide_eq_true_eq, decide_eq_true_eq]
    omega
  have hall : (pl.drop 16).take (4 * leAt pl 8 4) = pl.drop 16 := List.take_of_length_le (by rw [List.length_drop]; omega)
  unfold Dev.revLoad
  rw [onCore_named hq]
  dsimp only
  rw [if_neg (by simp [hstill]), if_neg hin, hall]
  rfl

theorem revLoad_runs (s : State) {h : Hdr} {pl : List Byte} {q : Nat} (ha : Accepted s.dev cRevLoad h pl)
    (hq : NamesCore s.dev h.part (leAt pl 0 2) q) (hstill : s.dev.still h.part = true)
    (hnd : leAt pl 2 2 ≤ s.dev.areaLen (SYN_PMREV q) / 4) (hfit : leAt pl 4 4 + leAt pl 8 4 ≤ s.dev.areaLen (SYN_PMREV q) / 4) :
    Runs (.revLoad h pl) s (fun e => e.rg (HRV_REVCFG q) = leAt pl 2 2 ∧ (∀ k, k < 4 * leAt pl 8 4 →
      e.mem.read (s.dev.areaBase q (SYN_PMREV q) + 4 * leAt pl 4 4 + k) = pl.getD (16 + k) 0#8) ∧ MemKeeps s.dev e (fun a =>
      s.dev.areaBase q (SYN_PMREV q) + 4 * leAt pl 4 4 ≤ a ∧ a < s.dev.areaBase q (SYN_PMREV q) + 4 * leAt pl 4 4 +
      4 * leAt pl 8 4) ∧ Answered s.dev e 0x0706 h .ok [] ∧ RegKeeps s.dev e (fun a => BookReg a ∨ a = HRV_REVCFG q ∨
      StoreReg q a) ∧ SameUnits s.dev e) := by
  have hlen : pl.length = 16 + 4 * leAt pl 8 4 := by
    have := accepted_length ha
    simp only [cRevLoad, hrvSpec, Bool.and_eq_true, beq_iff_eq] at this
    exact this.2
  have hdir := leAt_lt pl 2 2
  obtain ⟨hmem, hslim, hcfg, hrg⟩ := revSet_spec s.dev q (s.dev.areaBase q (SYN_PMREV q) + 4 * leAt pl 4 4) (nd := leAt pl 2 2)
    (pl.drop 16) (by omega)
  have hslot : 0x10000000 ≤ HRV_REVCFG q := Nat.le_trans (nBase_slot q) (by unfold HRV_REVCFG; omega)
  have hdrop : (pl.drop 16).length = 4 * leAt pl 8 4 := by
    rw [List.length_drop]
    omega
  refine serve_runs s (exec_revLoad h pl) ha (revLoad_eq hq hlen hstill hnd hfit) (by decide) ?_ (congrArg Dev.car hslim :)
    fun e hbook hans => ?_
  · refine rg_rrcfg_of_slot hrg (fun a hw => ?_) ha.2.1
    obtain rfl | hs := hw
    · exact hslot
    · exact (storeReg_slot hs).1
  refine ⟨(hbook.rg_slot hslot).trans hcfg, fun k hk => ?_, fun a hout => ?_, hans, hbook.regKeeps hrg, hbook.sameUnits (congrArg Dev.units hslim :)⟩
  · rw [finish_mem, desk_mem hbook.desk, hmem, memWr_read, if_pos (by omega), Nat.add_sub_cancel_left, List.getD_eq_getElem?_getD,
      List.getElem?_drop, ← List.getD_eq_getElem?_getD]
  · rw [finish_mem, desk_mem hbook.desk, hmem, memWr_read, if_neg (by omega)]

/-- Settles O23: each command's registers, rules, words and answer, with what it leaves. -/
theorem harvestCommands : Obligations.HarvestCommands :=
  ⟨fun s _ _ _ ha hq hstill hk hok => ruleLoad_one_runs s ha hq hstill hk hok,
    fun s _ _ ha hall hstill hk hok => ruleLoad_all_runs s ha hall hstill hk hok,
    fun s _ _ _ ha hq hk => ruleRead_runs s ha hq hk,
    fun s _ _ ha hstill hset hwear => seasonConfig_runs s ha hstill hset hwear,
    fun s _ _ ha => modSet_runs s ha,
    fun s _ _ ha hstill hseed => seedSet_runs s ha hstill hseed,
    fun s _ _ _ ha hq hstill hnd hfit => revLoad_runs s ha hq hstill hnd hfit,
    fun s _ _ _ ha hq => hrvStatus_runs s ha hq⟩

end Sys2Proof.Machine
end

section
/-! SUPPORT. An arrival at any Tocsin: beside the Tocsin's own registers, its records and what the books touch, it leaves the device as it
was, but where it starts an S-core (R490 to R503). -/

namespace Sys2Proof.Machine

open Sys2Proof

variable (d : Dev)

/-- The device without its registers, the books, and the records and wakes of the Tocsins. -/
def Dev.hushed : Dev := { d.desk with tocq := [], tocWake := [] }

/-- Beside registers `w`, the books and what the Tocsins hold, all is as it was. -/
structure Signals (w : Nat → Prop) (d e : Dev) : Prop where
  hushed : e.hushed = d.hushed
  rg     : ∀ a, ¬ w a → e.rg a = d.rg a

namespace Signals

variable {d} {w : Nat → Prop}

theorem refl (d : Dev) (w : Nat → Prop) : Signals w d d := ⟨rfl, fun _ _ => rfl⟩
theorem trans {a b c : Dev} (h : Signals w a b) (g : Signals w b c) : Signals w a c :=
  ⟨g.hushed.trans h.hushed, fun x hx => (g.rg x hx).trans (h.rg x hx)⟩
theorem setR {a : Nat} (h : w a) (v : Nat) : Signals w d (d.setR a v) := ⟨rfl, fun _ hb => rg_setR_ne d fun he => hb (he ▸ h)⟩
theorem setF {a : Nat} (h : w a) (lo n v : Nat) : Signals w d (d.setF a lo n v) := setR h _
theorem setFlag {a : Nat} (h : w a) (k : Nat) (x : Bool) : Signals w d (d.setFlag a k x) := setR h _
theorem bump {a : Nat} (h : w a) (k : Nat) : Signals w d (d.bump a k) := setR h _
theorem tocq (q : SMap (List TocRec)) : Signals w d { d with tocq := q } := ⟨rfl, fun _ _ => rfl⟩
theorem tocWake (x : SMap Nat) : Signals w d { d with tocWake := x } := ⟨rfl, fun _ _ => rfl⟩
theorem setFn (f : Nat) (x : Fn) : Signals w d (d.setFn f x) := ⟨rfl, fun _ _ => rfl⟩
theorem emit (x : Output) : Signals w d (d.emit x) := ⟨rfl, fun _ _ => rfl⟩
theorem books {e : Dev} (h : BookKeeps d e) (hw : ∀ a, BookReg a → w a) : Signals w d e :=
  ⟨congrArg (fun x : Dev => ({ x with tocq := [], tocWake := [] } : Dev)) h.desk, fun a ha => h.rg a fun hb => ha (hw a hb)⟩

theorem mem {e : Dev} (h : Signals w d e) : e.mem = d.mem := (congrArg Dev.mem h.hushed :)
theorem parts {e : Dev} (h : Signals w d e) : e.parts = d.parts := (congrArg Dev.parts h.hushed :)
theorem scores {e : Dev} (h : Signals w d e) : e.scores = d.scores := (congrArg Dev.scores h.hushed :)
theorem units {e : Dev} (h : Signals w d e) : e.units = d.units := (congrArg Dev.units h.hushed :)
theorem waiting {e : Dev} (h : Signals w d e) : e.car.waiting = d.car.waiting := (congrArg (fun x : Dev => x.car.waiting) h.hushed :)

end Signals

/-- Registers `w` hold those of the Tocsin `i`, of the device's and of the books; past the 289 Tocsins there are, all registers. -/
structure HoldsTocsin (w : Nat → Prop) (i : Nat) : Prop where
  past   : 289 ≤ i → ∀ a, w a
  book   : ∀ a, BookReg a → w a
  block  : ∀ o, o < 0x1000 → w (tocBase i + o)
  device : ∀ a, 0x10000 ≤ a → a < 0x20000 → w a

section
variable {w : Nat → Prop} {i : Nat}

theorem HoldsTocsin.src (h : HoldsTocsin w i) {s : Nat} (hs : s < 32) : w (TOC_SRC i s) := by
  unfold TOC_SRC
  rw [Nat.add_assoc]
  exact h.block _ (by omega)

theorem HoldsTocsin.partQueue (h : HoldsTocsin w i) {p : Nat} (hp : p < 16) :
    w (TOC_PRQSTAT 288 p) ∧ w (TOC_PRQCOUNT 288 p) ∧ w (TOC_PRQLOST 288 p) := by
  unfold TOC_PRQSTAT TOC_PRQCOUNT TOC_PRQLOST
  rw [tocBase_device]
  exact ⟨h.device _ (by omega) (by omega), h.device _ (by omega) (by omega), h.device _ (by omega) (by omega)⟩

theorem sendMsix_signals (f v : Nat) : Signals w d (d.sendMsix f v) := by
  unfold Dev.sendMsix
  dsimp only
  split
  · exact .setFn _ _
  · exact (Signals.setFn _ _).trans (.emit _)

/-! ### Records -/

/-- Registers `w` hold those of queue `k`: of a Tocsin, or of a partition. -/
def HoldsQueue (w : Nat → Prop) (k : Nat) : Prop :=
  (k < 289 → ∀ o, o < 0x1000 → w (tocBase k + o)) ∧
    (289 ≤ k → w (TOC_PRQSTAT 288 (k - 289)) ∧ w (TOC_PRQCOUNT 288 (k - 289)) ∧ w (TOC_PRQLOST 288 (k - 289)))

theorem HoldsTocsin.own (h : HoldsTocsin w i) : HoldsQueue w i :=
  ⟨fun _ => h.block, fun hp => ⟨h.past hp _, h.past hp _, h.past hp _⟩⟩

theorem HoldsTocsin.ofPart (h : HoldsTocsin w i) {p : Nat} (hp : p < 16) : HoldsQueue w (289 + p) :=
  ⟨fun hlow => absurd hlow (by omega), fun _ => by
    rw [Nat.add_sub_cancel_left]
    exact h.partQueue hp⟩

theorem setTocQueue_signals {k : Nat} (hk : HoldsQueue w k) (q : List TocRec) : Signals w d (d.setTocQueue k q) := by
  have h := Signals.tocq (d := d) (w := w) (SMap.set [] d.tocq k q)
  unfold Dev.setTocQueue
  dsimp only
  split
  · rename_i hlow
    have hset := (h.trans (.setF (hk.1 hlow 0x20 (by decide)) 0 9 q.length)).trans
      (.setFlag (hk.1 hlow 0x10 (by decide)) 0 (! q.isEmpty))
    split
    · exact hset.trans (.tocWake _)
    · exact hset
  · rename_i hhigh
    obtain ⟨-, hcount, -⟩ := hk.2 (Nat.not_lt.1 hhigh)
    exact h.trans (.setF hcount _ _ _)

theorem tocTrace_signals (hw : HoldsTocsin w i) {c : Prop} [Decidable c] {d e : Dev} (h : Signals w d e) (die ty : Nat) (part : Option Nat)
    (origin : Nat) (lcore neuron : Option Nat) (data : List Byte) :
    Signals w d (if c then e else e.traceRec die ty part origin lcore neuron data) := by
  split
  · exact h
  · exact h.trans (.books (traceRec_keeps e _ _ _ _ _ _ _).book hw.book)

/-- A record lost for want of room, as the queue counts it (R502). -/
theorem tocLost_signals {k : Nat} (hk : HoldsQueue w k) :
    Signals w d (if k < 289 then (d.setFlag (TOC_STAT k) 2 true).bump (TOC_RQLOST k) 1
      else (d.setFlag (TOC_PRQSTAT 288 (k - 289)) 6 true).bump (TOC_PRQLOST 288 (k - 289)) 1) := by
  split
  · rename_i hlow
    exact (Signals.setFlag (hk.1 hlow 4 (by decide)) _ _).trans (.bump (hk.1 hlow 0x24 (by decide)) _)
  · rename_i hhigh
    obtain ⟨hstat, -, hlost⟩ := hk.2 (Nat.not_lt.1 hhigh)
    exact (Signals.setFlag hstat _ _).trans (.bump hlost _)

theorem tocPush_signals (hw : HoldsTocsin w i) {k : Nat} (hk : HoldsQueue w k) (x : TocRec) : Signals w d (d.tocPush k x) := by
  have hlost := tocLost_signals d hk
  unfold Dev.tocPush
  dsimp only
  split
  · exact tocTrace_signals hw (setTocQueue_signals d hk _) _ _ _ _ _ _ _
  · split
    · split
      · exact hlost.trans (setTocQueue_signals _ hk _)
      · exact tocTrace_signals hw (hlost.trans (setTocQueue_signals _ hk _)) _ _ _ _ _ _ _
    · exact hlost

theorem tocPushPart_signals (hw : HoldsTocsin w i) {p : Nat} (hp : p < 16) (x : TocRec) : Signals w d (d.tocPushPart p x) :=
  (tocPush_signals d hw (hw.ofPart hp) _).trans (sendMsix_signals _ _ _)

theorem tocHold_signals (i s : Nat) : Signals w d (d.tocHold i s) := by
  unfold Dev.tocHold
  dsimp only
  split
  · exact .tocWake _
  · exact .refl d w

theorem tocVector_signals (i s : Nat) : Signals w d (d.tocVector i s) := by
  unfold Dev.tocVector
  dsimp only
  split
  · exact sendMsix_signals d _ _
  · exact .refl d w

theorem rqArrive_signals (hw : HoldsTocsin w i) : Signals w d (d.rqArrive i) := by
  have h := Signals.setF (d := d) (hw.src (show 0 < 32 by decide)) 16 8 (min 255 (d.fld (TOC_SRC i 0) 16 8 + 1))
  unfold Dev.rqArrive
  dsimp only
  split
  · exact (h.trans (tocHold_signals _ _ _)).trans (tocVector_signals _ _ _)
  · exact h

theorem regPart_lt {d : Dev} {r p : Nat} (h : d.regPart r = some p) : p < 16 := by
  unfold Dev.regPart at h
  split at h
  · cases h
    exact Nat.mod_lt _ (by decide)
  · exact absurd h (by simp)

theorem tocRecord_signals (hw : HoldsTocsin w i) {s : Nat} (hs : s < 19) (part d0 d1 : Nat) :
    Signals w d (d.tocRecord i s part d0 d1) := by
  unfold Dev.tocRecord
  dsimp only
  generalize TocRec.mk _ _ _ _ _ _ _ = x
  have hpush := tocPush_signals d hw hw.own x
  have h : Signals w d (if (d.tocQueue i).length < ((d.tocPush i x).tocQueue i).length then (d.tocPush i x).rqArrive i
      else d.tocPush i x) := by
    split
    · exact hpush.trans (rqArrive_signals _ hw)
    · exact hpush
  generalize (if (d.tocQueue i).length < ((d.tocPush i x).tocQueue i).length then _ else _ : Dev) = e at h
  split
  · rw [if_neg (by simp; omega)]
    exact h
  · split
    · split
      · exact h.trans (tocPushPart_signals _ hw (regPart_lt ‹_›) _)
      · exact h
    · exact h

/-! ### The arrival -/

theorem tocDeliver_signals (hrun : d.fld (SEQ_STAT (tocRegion i)) 0 2 = 0 → Signals w d (d.scoreRun (tocRegion i))) :
    Signals w d (d.tocDeliver i) := by
  unfold Dev.tocDeliver
  dsimp only
  split
  · split
    · exact sendMsix_signals d _ _
    · exact .refl d w
  · split
    · split
      · rename_i hstart
        exact hrun (by simpa using (Bool.and_eq_true_iff.1 hstart).2)
      · exact .refl d w
    · split
      · split
        · exact sendMsix_signals d _ _
        · exact .refl d w
      · exact .refl d w

theorem tocUpdate_signals (hw : HoldsTocsin w i)
    (hrun : ∀ e, Signals w d e → e.fld (SEQ_STAT (tocRegion i)) 0 2 = 0 → Signals w e (e.scoreRun (tocRegion i))) :
    Signals w d (d.tocUpdate i) := by
  have hstat : w (TOC_STAT i) := hw.block 4 (by decide)
  have h := ((Signals.setF (d := d) hstat 8 3 (d.tocCur i)).trans (.setFlag hstat 1 (d.tocHeld i != 0))).trans
    (.setFlag hstat 0 (! (d.tocReady i).isEmpty))
  unfold Dev.tocUpdate
  dsimp only
  split
  · exact h.trans (tocDeliver_signals _ (hrun _ h))
  · exact h

/-- An arrival of one of the sources below the partitions' own at a Tocsin: where it cannot start the S-core, or the S-core's registers
are among `w`. -/
theorem tocArrive_signals (hw : HoldsTocsin w i) {s : Nat} (hs : s < 19) (part d0 d1 : Nat) (always : Bool)
    (hrun : ∀ e, Signals w d e → e.fld (SEQ_STAT (tocRegion i)) 0 2 = 0 → Signals w e (e.scoreRun (tocRegion i))) :
    Signals w d (d.tocArrive i s part d0 d1 always) := by
  unfold Dev.tocArrive
  dsimp only
  have hpend : Signals w d (if d.flag (TOC_ENABLE i) s then ((d.setFlag (TOC_PEND i) s true).setF (TOC_SRC i s) 16 8
      (min 255 (d.fld (TOC_SRC i s) 16 8 + 1))).tocHold i s else d) := by
    split
    · exact ((Signals.setFlag (hw.block 0x10 (by decide)) _ _).trans (.setF (hw.src (by omega)) _ _ _)).trans (tocHold_signals _ _ _)
    · exact .refl d w
  generalize (if d.flag (TOC_ENABLE i) s then _ else d : Dev) = e at hpend
  have hrec : Signals w d (if (always || (d.flag (TOC_ENABLE i) s && d.flag (TOC_SRC i s) 2)) = true then e.tocRecord i s part d0 d1
      else e) := by
    split
    · exact hpend.trans (tocRecord_signals _ hw hs _ _ _)
    · exact hpend
  generalize (if (always || (d.flag (TOC_ENABLE i) s && d.flag (TOC_SRC i s) 2)) = true then _ else e : Dev) = f at hrec
  have hall : Signals w d (if d.flag (TOC_ENABLE i) s then f.tocVector i s else f) := by
    split
    · exact hrec.trans (tocVector_signals _ _ _)
    · exact hrec
  exact hall.trans (tocUpdate_signals _ hw fun x hx => hrun x (hall.trans hx))

end

end Sys2Proof.Machine
end

section
/-! SUPPORT. The answers to waiting commands leave memory, the partitions and the commands that go on waiting (R402, R515, R517). -/

namespace Sys2Proof.Machine

open Sys2Proof

variable (d : Dev)

/-- Memory, the partitions and the waiting commands are as they were. -/
structure Answers (d e : Dev) : Prop where
  mem     : e.mem = d.mem
  parts   : e.parts = d.parts
  waiting : e.car.waiting = d.car.waiting

namespace Answers

theorem refl : Answers d d := ⟨rfl, rfl, rfl⟩
theorem trans {a b c : Dev} (h : Answers a b) (g : Answers b c) : Answers a c :=
  ⟨g.mem.trans h.mem, g.parts.trans h.parts, g.waiting.trans h.waiting⟩
theorem setR (a v : Nat) : Answers d (d.setR a v) := ⟨rfl, rfl, rfl⟩
theorem setSeq (r s w : Nat) : Answers d (d.setSeq r s w) := ⟨rfl, rfl, rfl⟩
theorem setScore (r : Nat) (x : SCore) : Answers d (d.setScore r x) := ⟨rfl, rfl, rfl⟩
theorem setFn (f : Nat) (x : Fn) : Answers d (d.setFn f x) := ⟨rfl, rfl, rfl⟩
theorem emit (x : Output) : Answers d (d.emit x) := ⟨rfl, rfl, rfl⟩
theorem bump64 (a k : Nat) : Answers d (d.bump64 a k) := by
  obtain ⟨g, hg⟩ := bump64_regs_only d a k
  rw [hg]
  exact ⟨rfl, rfl, rfl⟩
theorem signals {w : Nat → Prop} {e : Dev} (h : Signals w d e) : Answers d e := ⟨h.mem, h.parts, h.waiting⟩
theorem books {e : Dev} (h : BookKeeps d e) : Answers d e := ⟨desk_mem h.desk, desk_parts h.desk, desk_car_waiting h.desk⟩
theorem forEach {α : Type} {f : Dev → α → Dev} (h : ∀ d x, Answers d (f d x)) : ∀ (l : List α) (d : Dev), Answers d (d.forEach l f)
  | [], d => .refl d
  | x :: r, d => (h d x).trans (forEach h r _)

end Answers

/-- Every register among them, an arrival keeps the rest. -/
theorem tocArrive_answers (i : Nat) {s : Nat} (hs : s < 19) (part d0 d1 : Nat) (always : Bool) :
    Answers d (d.tocArrive i s part d0 d1 always) := by
  have hall : HoldsTocsin (fun _ => True) i := ⟨fun _ _ => trivial, fun _ _ => trivial, fun _ _ => trivial, fun _ _ _ => trivial⟩
  refine .signals d (tocArrive_signals d hall hs part d0 d1 always fun e _ _ => ?_)
  unfold Dev.scoreRun
  split
  · exact .refl e _
  · exact ((Signals.setR trivial _).trans (.setF trivial _ _ _)).trans (.setF trivial _ _ _)

/-- An S-core goes on, or faults past its last descriptor (R402, R404). -/
theorem seqGoto_answers (r n : Nat) : Answers d (d.seqGoto r n) := by
  have hcount := Answers.bump64 d (SEQ_DESC_LO r) 1
  unfold Dev.seqGoto
  dsimp only
  split
  · unfold Dev.seqFault
    exact (((hcount.trans (.setR _ _ _)).trans (.setSeq _ _ _ _)).trans (.setScore _ _ _)).trans
      (tocArrive_answers _ _ (by decide) _ _ _ _)
  · exact ((hcount.trans (.setScore _ _ _)).trans (.setR _ _ _)).trans (.setSeq _ _ _ _)

theorem seqStatus_answers (r code : Nat) : Answers d (d.seqStatus r code) := by
  unfold Dev.seqStatus
  split
  · exact ((Answers.setR d _ _).trans (.setR _ _ _)).trans (seqGoto_answers _ _ _)
  · exact .refl d

theorem respond_answers (x : Resp) : Answers d (d.respond x) := by
  unfold Dev.respond
  dsimp only
  split
  · exact (Answers.setFn d _ _).trans (.setR _ _ _)
  · exact .refl d

theorem complete_answers (op : Nat) (names ro : Bool) (h : Hdr) (pl : List Byte) (st : Status) (det : Nat) (ans : List Byte) :
    Answers d (d.complete op names ro h pl st det ans) := by
  have hbook : ∀ sent, Answers d (d.book op names ro h pl st sent) := fun sent => .books d (book_keeps d op names ro h pl st sent).1
  unfold Dev.complete
  dsimp only
  split
  · exact seqStatus_answers d _ _
  · split
    · exact (hbook _).trans (.emit _ _)
    · exact (((hbook _).trans (.setFn _ _ _)).trans (.setR _ _ _)).trans (respond_answers _ _)

/-- The device where the commands that `sel` picks wait no more. -/
def Dev.unwaited (sel : Waiting → Bool) : Dev := { d with car := { d.car with waiting := d.car.waiting.filter (fun w => ! sel w) } }

theorem endWaiting_answers (sel : Waiting → Bool) (f : Waiting → Status × List Byte) : Answers (d.unwaited sel) (d.endWaiting sel f) :=
  .forEach (fun e _ => complete_answers e _ _ _ _ _ _ _ _) (d.car.waiting.filter sel) (d.unwaited sel)

/-- With no waiting command, none ends. -/
theorem endWaiting_none {d : Dev} (h : d.car.waiting = []) (sel : Waiting → Bool) (f : Waiting → Status × List Byte) :
    d.endWaiting sel f = d.unwaited sel := by
  unfold Dev.endWaiting
  rw [h]
  show ({ d with car := { d.car with waiting := _ } } : Dev) = _
  unfold Dev.unwaited
  rw [h]

end Sys2Proof.Machine
end

section
/-! SUPPORT. The checkpoint ring: settings, copies, commit and host copy (R344 to R349, R352, R357, R358). -/

namespace Sys2Proof.Machine

open Sys2Proof

theorem exec_ckptConfig (h : Hdr) (pl : List Byte) (s : State) :
    exec (.ckptConfig h pl) s = s.run (·.serve cCkptConfig Dev.ckptConfig h pl) := rfl
theorem exec_ckptNow (h : Hdr) (pl : List Byte) (s : State) :
    exec (.ckptNow h pl) s = s.run (·.serve cCkptNow Dev.ckptNow h pl) := rfl
theorem exec_ckptRestore (h : Hdr) (pl : List Byte) (s : State) :
    exec (.ckptRestore h pl) s = s.run (·.serve cCkptRestore Dev.ckptRestore h pl) := rfl
theorem exec_ckptStatus (h : Hdr) (pl : List Byte) (s : State) :
    exec (.ckptStatus h pl) s = s.run (·.serve cCkptStatus Dev.ckptStatus h pl) := rfl
theorem exec_ckptQuota (h : Hdr) (pl : List Byte) (s : State) :
    exec (.ckptQuota h pl) s = s.run (·.serve cCkptQuota Dev.ckptQuota h pl) := rfl
theorem exec_checkpointCopyStart (p : Nat) (s : State) : exec (.checkpointCopyStart p) s = s.run (·.ckptStart p) := rfl
theorem exec_checkpointCommit (p : Nat) (s : State) : exec (.checkpointCommit p) s = s.run (·.ckptCommit p) := rfl
theorem exec_hostExport (p : Nat) (s : State) : exec (.hostExport p) s = s.run (·.hostExport p) := rfl

/-! ### One partition's ring changed -/

/-- The checkpoint ring of partition `p` is `c`. -/
def Dev.setCkpt (d : Dev) (p : Nat) (c : Ckpt) : Dev := d.setPart p { d.part p with ckpt := c }

theorem ckpt_setCkpt (d : Dev) (p : Nat) (c : Ckpt) : ((d.setCkpt p c).part p).ckpt = c := by
  unfold Dev.setCkpt
  rw [part_setPart, if_pos rfl]

theorem part_setCkpt_ne (d : Dev) {p k : Nat} (c : Ckpt) (h : k ≠ p) : (d.setCkpt p c).part k = d.part k :=
  (part_setPart ..).trans (if_neg h)

theorem BookKeeps.part {d e : Dev} (h : BookKeeps d e) (p : Nat) : e.finish.part p = d.part p := by
  rw [finish_part]
  unfold Dev.part
  rw [desk_parts h.desk]

/-- What follows the state keeps the rest where registers and memory are as they were. -/
theorem finish_keeps_same {d e : Dev} (hregs : e.regs = d.regs) (hmem : e.mem = d.mem) (hecc : e.ecc = d.ecc) :
    Keeps d e.finish (fun _ => False) := by
  refine ⟨fun a _ hf => (rg_finish _ hf).trans ?_, fun a => by rw [finish_mem, hmem], by rw [finish_ecc, hecc]⟩
  unfold Dev.rg
  rw [hregs]

section
variable {c : Hdr → List Byte → Instr} {k : CmdSpec} {body : Dev → Hdr → List Byte → Dev × Ans} {h : Hdr} {pl : List Byte}

/-- A command that ends, its body having changed one ring. -/
theorem serve_ckpt {p : Nat} {x : Ckpt} (s : State) (he : ∀ s, exec (c h pl) s = s.run (·.serve k body h pl)) (ha : Accepted s.dev k h pl)
    (hb : body s.dev h pl = (s.dev.setCkpt p x, .st .ok)) :
    Runs (c h pl) s (fun e => (e.part p).ckpt = x ∧ (∀ k, k ≠ p → e.part k = s.dev.part k) ∧ Answered s.dev e k.opcode h .ok [] ∧
      Keeps s.dev e (fun a => BookReg a)) :=
  serve_runs s he ha hb (by decide) rfl rfl fun e hbook hans =>
    ⟨by rw [hbook.part, ckpt_setCkpt], fun j hj => (hbook.part j).trans (part_setCkpt_ne _ _ hj), hans, (hbook.finish_keeps).1⟩

/-- The same of one that waits for the copy's end. -/
theorem serve_ckpt_waits {p : Nat} {x : Ckpt} {w : WaitFor} (s : State) (he : ∀ s, exec (c h pl) s = s.run (·.serve k body h pl))
    (ha : Accepted s.dev k h pl) (hb : body s.dev h pl = (s.dev.setCkpt p x, .wait w)) :
    Runs (c h pl) s (fun e => (e.part p).ckpt = x ∧ Waits s.dev e k h pl w ∧ (∀ k, k ≠ p → e.part k = s.dev.part k) ∧
      Keeps s.dev e (fun a => BookReg a)) := by
  obtain ⟨hwait, hbook⟩ := serve_wait ha hb
  refine (runs_iff (he s)).2 ⟨by rw [hbook.part]; exact ckpt_setCkpt .., ?_, fun j hj => (hbook.part j).trans (part_setCkpt_ne _ _ hj),
    (hbook.finish_keeps).1⟩
  unfold Waits
  rw [finish_car, hwait]
  rfl

end

/-! ### Settings (R345, R348, R357, R358) -/

/-- The ring that CKPT_CONFIG sets up, of slots of `b` blocks. -/
def ckptConfigured (c : Ckpt) (pl : List Byte) (b : Nat) : Ckpt :=
  { c with flags := byteAt pl 0, every := leAt pl 2 2, nblocks := leAt pl 4 4, hostAddr := leAt pl 8 8, hostSize := leAt pl 16 8,
           blocks := b, nslot := leAt pl 4 4 / b, slots := if b = c.blocks && leAt pl 4 4 / b = c.nslot then c.slots else [] }

theorem ckptConfig_eq {d : Dev} {h : Hdr} {pl : List Byte} {b : Nat} (hon : d.harvestOn h.part = false)
    (hb : b = 1 + ceilDiv (d.imageLen h.part (bitAt (byteAt pl 0) 2)) 65536) (hev : leAt pl 2 2 ≠ 0)
    (hkeep : bitAt (byteAt pl 0) 0 = true → 2 ≤ leAt pl 4 4 / b ∧
      keepTicks ≤ leAt pl 4 4 / b * leAt pl 2 2 * d.seasonLen h.part * d.fld (TAB_BPERIOD h.part) 0 29)
    (hhost : bitAt (byteAt pl 0) 1 = true → 128 + d.imageLen h.part (bitAt (byteAt pl 0) 2) ≤ leAt pl 16 8 ∧ leAt pl 8 8 % 64 = 0)
    (hquota : leAt pl 4 4 ≤ (d.part h.part).ckpt.quota) :
    d.ckptConfig h pl = (d.setCkpt h.part (ckptConfigured (d.part h.part).ckpt pl b), .st .ok) := by
  have hgood : ¬ (leAt pl 2 2 = 0 || (bitAt (byteAt pl 0) 0 && leAt pl 4 4 / b < 2) ||
      (bitAt (byteAt pl 0) 0 && leAt pl 4 4 / b * leAt pl 2 2 * d.seasonLen h.part * d.fld (TAB_BPERIOD h.part) 0 29 < keepTicks) ||
      (bitAt (byteAt pl 0) 1 && (leAt pl 16 8 < 128 + d.imageLen h.part (bitAt (byteAt pl 0) 2) || leAt pl 8 8 % 64 ≠ 0))) = true := by
    simp only [Bool.or_eq_true, Bool.and_eq_true, decide_eq_true_eq]
    rintro (((h0 | ⟨hf, hslots⟩) | ⟨hf, hticks⟩) | ⟨hf, hsmall | halign⟩)
    · exact hev h0
    · exact Nat.not_lt.2 (hkeep hf).1 hslots
    · exact Nat.not_lt.2 (hkeep hf).2 hticks
    · exact Nat.not_lt.2 (hhost hf).1 hsmall
    · exact halign (hhost hf).2
  unfold Dev.ckptConfig
  dsimp only
  rw [← hb, if_neg (by simp [hon]), if_neg hgood, if_neg (Nat.not_lt.2 hquota)]
  rfl

theorem ckptConfig_runs (s : State) {h : Hdr} {pl : List Byte} {b : Nat} (ha : Accepted s.dev cCkptConfig h pl)
    (hcfg : s.dev.ckptConfig h pl = (s.dev.setCkpt h.part (ckptConfigured (s.dev.part h.part).ckpt pl b), .st .ok)) :
    Runs (.ckptConfig h pl) s (fun e => (e.part h.part).ckpt.flags = byteAt pl 0 ∧ (e.part h.part).ckpt.every = leAt pl 2 2 ∧
      (e.part h.part).ckpt.nblocks = leAt pl 4 4 ∧ (e.part h.part).ckpt.hostAddr = leAt pl 8 8 ∧
      (e.part h.part).ckpt.hostSize = leAt pl 16 8 ∧ (e.part h.part).ckpt.blocks = b ∧ (e.part h.part).ckpt.nslot = leAt pl 4 4 / b ∧
      (e.part h.part).ckpt.quota = (s.dev.part h.part).ckpt.quota ∧ (e.part h.part).ckpt.erases = (s.dev.part h.part).ckpt.erases ∧
      (∀ k, k ≠ h.part → e.part k = s.dev.part k) ∧ Answered s.dev e 0x0707 h .ok [] ∧ Keeps s.dev e (fun a => BookReg a)) :=
  runs_imp (serve_ckpt s (exec_ckptConfig h pl) ha hcfg) fun e ⟨hring, hrest⟩ => by
    rw [hring]
    exact ⟨rfl, rfl, rfl, rfl, rfl, rfl, rfl, rfl, rfl, hrest⟩

theorem ckptQuota_eq {d : Dev} (h : Hdr) {pl : List Byte} (hp : byteAt pl 0 < 16)
    (hoff : bitAt (d.part (byteAt pl 0)).ckpt.flags 0 = false)
    (hroom : (((upTo 16).filter (· ≠ byteAt pl 0)).map (fun k => (d.part k).ckpt.quota)).sum + leAt pl 4 4 ≤ 14336) :
    d.ckptQuota h pl = (d.setCkpt (byteAt pl 0) { (d.part (byteAt pl 0)).ckpt with quota := leAt pl 4 4 }, .st .ok) := by
  unfold Dev.ckptQuota
  dsimp only
  rw [if_neg (Nat.not_le.2 hp), if_neg (by simp [hoff]), if_neg (Nat.not_lt.2 hroom)]
  rfl

theorem ckptQuota_runs (s : State) {h : Hdr} {pl : List Byte} (ha : Accepted s.dev cCkptQuota h pl) (hp : byteAt pl 0 < 16)
    (hoff : bitAt (s.dev.part (byteAt pl 0)).ckpt.flags 0 = false)
    (hroom : (((upTo 16).filter (· ≠ byteAt pl 0)).map (fun k => (s.dev.part k).ckpt.quota)).sum + leAt pl 4 4 ≤ 14336) :
    Runs (.ckptQuota h pl) s (fun e => (e.part (byteAt pl 0)).ckpt.quota = leAt pl 4 4 ∧
      (∀ k, k ≠ byteAt pl 0 → e.part k = s.dev.part k) ∧ Answered s.dev e 0x070B h .ok [] ∧ Keeps s.dev e (fun a => BookReg a)) :=
  runs_imp (serve_ckpt s (exec_ckptQuota h pl) ha (ckptQuota_eq h hp hoff hroom)) fun e ⟨hring, hrest⟩ => by
    rw [hring]
    exact ⟨rfl, hrest⟩

/-- The answer of CKPT_STATUS of partition `p`. -/
def Dev.ckptAnswer (d : Dev) (p : Nat) : List Byte :=
  leBytes 1 (d.part p).ckpt.flags ++ zeros 1 ++ leBytes 2 (d.part p).ckpt.every ++ leBytes 4 (d.part p).ckpt.blocks ++
    leBytes 8 (((d.newestSlot p).map (fun x => leAt x.2 8 8)).getD 0) ++ leBytes 6 (((d.newestSlot p).map (fun x => leAt x.2 16 6)).getD 0) ++
    leBytes 2 (d.part p).ckpt.nslot ++ leBytes 4 (((d.part p).ckpt.erases.map Prod.snd).foldl max 0) ++
    leBytes 2 (min 65535 (d.part p).ckpt.abandoned) ++ leBytes 2 (min 65535 (d.part p).ckpt.skips)

theorem ckptStatus_eq (d : Dev) (h : Hdr) (pl : List Byte) : d.ckptStatus h pl = (d, .done .ok 0 (d.ckptAnswer h.part)) := by
  unfold Dev.ckptStatus Dev.ckptAnswer
  dsimp only
  cases d.newestSlot h.part <;> rfl

theorem ckptStatus_runs (s : State) {h : Hdr} {pl : List Byte} (ha : Accepted s.dev cCkptStatus h pl) :
    Runs (.ckptStatus h pl) s (fun e => Answered s.dev e 0x070A h .ok (s.dev.ckptAnswer h.part) ∧ Keeps s.dev e (fun a => BookReg a) ∧
      SameUnits s.dev e) := by
  have hlen : (s.dev.ckptAnswer h.part).length ≤ 4000 := by
    unfold Dev.ckptAnswer zeros
    simp only [List.length_append, List.length_replicate, length_leBytes]
    decide
  exact serve_reads s (exec_ckptStatus h pl) ha (ckptStatus_eq ..) (fits_short ha hlen)

/-! ### Copies (R344 to R346, R349, R352) -/

theorem length_payRec (kind fmt unit off : Nat) (data : List Byte) :
    (payRec kind fmt unit off data).length = 32 + 32 * ceilDiv data.length 32 := by
  unfold payRec zeros
  simp only [List.length_append, List.length_replicate, length_leBytes, length_padTo]

/-- An image is a header of 128 bytes and its payload. -/
theorem length_imageOf (d : Dev) (p seq : Nat) : (d.imageOf p seq).length = 128 + d.imageLen p (bitAt (d.part p).ckpt.flags 2) := by
  unfold Dev.imageOf Dev.imageLen zeros
  simp only [List.length_append, List.length_replicate, length_leBytes, length_padTo, List.length_flatten, List.map_map]
  have hrec : (List.length ∘ fun x : Nat × Nat × Nat × Nat × Nat × Nat =>
      payRec x.1 x.2.1 x.2.2.1 x.2.2.2.1 (d.rdB x.2.2.2.2.1 x.2.2.2.2.2)) = fun x => 32 + 32 * ceilDiv x.2.2.2.2.2 32 := by
    funext x
    rw [Function.comp_apply, length_payRec, length_rdB]
  rw [hrec]

/-- An image is of registers, memory and the ring's flags alone. -/
theorem imageOf_setCkpt (d : Dev) (p seq : Nat) {c : Ckpt} (h : c.flags = (d.part p).ckpt.flags) :
    (d.setCkpt p c).imageOf p seq = d.imageOf p seq := by
  have hparts : ∀ ax, (d.setCkpt p c).imageParts p ax = d.imageParts p ax := fun _ => rfl
  have hread : ∀ a n, (d.setCkpt p c).rdB a n = d.rdB a n := rdB_congr rfl
  have hsites : (d.setCkpt p c).sitesOf p = d.sitesOf p := rfl
  have hbeat : (d.setCkpt p c).beat p = d.beat p := rfl
  have hrg : ∀ a, (d.setCkpt p c).rg a = d.rg a := fun _ => rfl
  unfold Dev.imageOf
  simp only [ckpt_setCkpt, h, hparts, hread, hsites, hbeat, hrg]

/-- The slot after the newest valid one (R345). -/
def Dev.nextSlot (d : Dev) (p : Nat) : Nat :=
  match d.newestSlot p with
  | some s => (s.1 + 1) % max 1 (d.part p).ckpt.nslot
  | none => 0

/-- One more erase of each of the `n` blocks of slot `slot`. -/
def eraseSlot (slot b n : Nat) (m : SMap Nat) : SMap Nat :=
  (upTo n).foldl (fun m j => SMap.set 0 m (slot * b + j) (SMap.get 0 m (slot * b + j) + 1)) m

theorem eraseSlot_succ (slot b n : Nat) (m : SMap Nat) : eraseSlot slot b (n + 1) m =
    SMap.set 0 (eraseSlot slot b n m) (slot * b + n) (SMap.get 0 (eraseSlot slot b n m) (slot * b + n) + 1) := by
  unfold eraseSlot upTo
  rw [List.range_succ, List.foldl_append]
  rfl

theorem get_eraseSlot (slot b : Nat) (m : SMap Nat) (j : Nat) : ∀ n, SMap.get 0 (eraseSlot slot b n m) (slot * b + j) =
    SMap.get 0 m (slot * b + j) + natOf (j < n) := by
  intro n
  induction n with
  | zero => rfl
  | succ n ih =>
    rw [eraseSlot_succ, SMap.get_set]
    by_cases hj : j = n
    · subst hj
      rw [if_pos rfl, ih]
      simp [natOf]
    · rw [if_neg (by omega), ih]
      have : (j < n + 1) ↔ j < n := by omega
      simp [natOf, this]

/-- The ring once a copy has started, to the Keep and to the host as asked. -/
def Dev.ckptCopying (d : Dev) (p : Nat) (keep host : Bool) : Ckpt :=
  let c := (d.part p).ckpt
  { c with copy := some (d.nextSlot p, c.seq + 1), image := d.imageOf p (c.seq + 1), toKeep := keep, toHost := host,
           slots := if keep then SMap.set [] c.slots (d.nextSlot p) [] else c.slots,
           erases := if keep then eraseSlot (d.nextSlot p) c.blocks c.blocks c.erases else c.erases }

theorem ckptCopying_shows (d : Dev) (p : Nat) (keep host : Bool) :
    (d.ckptCopying p keep host).copy.map Prod.snd = some ((d.part p).ckpt.seq + 1) ∧ (d.ckptCopying p keep host).toHost = host ∧
    (d.ckptCopying p keep host).toKeep = keep ∧ (d.ckptCopying p keep host).image = d.imageOf p ((d.part p).ckpt.seq + 1) ∧
    (d.ckptCopying p keep host).saved = (d.part p).ckpt.saved := ⟨rfl, rfl, rfl, rfl, rfl⟩

theorem ckptBegin_eq (d : Dev) {p : Nat} {keep host : Bool} (hany : keep = true ∨ host = true)
    (hfit : keep = true → 1 + ceilDiv (d.imageLen p (bitAt (d.part p).ckpt.flags 2)) 65536 ≤ (d.part p).ckpt.blocks) :
    d.ckptBegin p keep host = d.setCkpt p (d.ckptCopying p keep host) := by
  have hlen : (d.imageOf p ((d.part p).ckpt.seq + 1)).length - 128 = d.imageLen p (bitAt (d.part p).ckpt.flags 2) := by
    rw [length_imageOf]
    omega
  have hkeep : (keep && decide (1 + ceilDiv (d.imageLen p (bitAt (d.part p).ckpt.flags 2)) 65536 ≤ (d.part p).ckpt.blocks)) = keep := by
    cases keep with
    | false => rfl
    | true => simp [hfit rfl]
  have hgo : ¬ (! keep && ! host) = true := by
    obtain rfl | rfl := hany <;> simp
  unfold Dev.ckptBegin
  dsimp only
  rw [hlen, hkeep, if_neg hgo]
  rfl

theorem bitAt_zero (n : Nat) : bitAt n 0 = true ↔ n % 2 = 1 := by
  unfold bitAt
  simp

theorem bitAt_one (n : Nat) : bitAt n 1 = true ↔ n / 2 % 2 = 1 := by
  unfold bitAt
  simp

/-- A copy asked for starts (R349). -/
theorem ckptAsk_eq {d : Dev} {p : Nat} {keep host : Bool} (hon : d.harvestOn p = false) (hcopy : (d.part p).ckpt.copy = none)
    (hkeep : bitAt (d.part p).ckpt.flags 0 = keep) (hhost : bitAt (d.part p).ckpt.flags 1 = host) (hany : keep = true ∨ host = true)
    (hpaced : keep = true → d.keepPaced p = true) (hmuted : d.muted p = false)
    (hfit : keep = true → 1 + ceilDiv (d.imageLen p (bitAt (d.part p).ckpt.flags 2)) 65536 ≤ (d.part p).ckpt.blocks) :
    d.ckptAsk p = (d.setCkpt p (d.ckptCopying p keep host), none) := by
  have hfree : ¬ (d.harvestOn p || (d.part p).ckpt.copy.isSome || (keep && ! d.keepPaced p)) = true := by
    rw [hon, hcopy]
    cases keep with
    | false => simp
    | true => simp [hpaced rfl]
  have hflags : (d.part p).ckpt.flags % 4 ≠ 0 := by
    obtain h | h := hany
    · have := (bitAt_zero _).1 (hkeep.trans h)
      omega
    · have := (bitAt_one _).1 (hhost.trans h)
      omega
  have hgo : ¬ ((d.part p).ckpt.flags % 4 = 0 || d.muted p) = true := by
    simp [hflags, hmuted]
  unfold Dev.ckptAsk
  dsimp only
  rw [hkeep, hhost, if_neg hfree, if_neg hgo, ckptBegin_eq d hany hfit, ckpt_setCkpt]
  rfl

theorem ckptNow_eq {d : Dev} {h : Hdr} (pl : List Byte) {x : Dev} (hask : d.ckptAsk h.part = (x, none)) :
    d.ckptNow h pl = (x, .wait .ckpt) := by
  unfold Dev.ckptNow
  rw [hask]

theorem ckptNow_keep_runs (s : State) {h : Hdr} {pl : List Byte} (ha : Accepted s.dev cCkptNow h pl)
    (hask : s.dev.ckptAsk h.part = (s.dev.setCkpt h.part (s.dev.ckptCopying h.part true (bitAt (s.dev.part h.part).ckpt.flags 1)), none))
    (hslot : s.dev.newestSlot h.part = none) :
    Runs (.ckptNow h pl) s (fun e => (e.part h.part).ckpt.copy = some (0, (s.dev.part h.part).ckpt.seq + 1) ∧
      (e.part h.part).ckpt.toKeep = true ∧ (e.part h.part).ckpt.toHost = bitAt (s.dev.part h.part).ckpt.flags 1 ∧
      (e.part h.part).ckpt.image = s.dev.imageOf h.part ((s.dev.part h.part).ckpt.seq + 1) ∧
      SMap.get [] (e.part h.part).ckpt.slots 0 = [] ∧ (∀ j, j < (s.dev.part h.part).ckpt.blocks →
      SMap.get 0 (e.part h.part).ckpt.erases j = SMap.get 0 (s.dev.part h.part).ckpt.erases j + 1) ∧
      Waits s.dev e cCkptNow h pl .ckpt ∧ (∀ k, k ≠ h.part → e.part k = s.dev.part k) ∧ Keeps s.dev e (fun a => BookReg a)) := by
  have hnext : s.dev.nextSlot h.part = 0 := by
    unfold Dev.nextSlot
    rw [hslot]
  refine runs_imp (serve_ckpt_waits s (exec_ckptNow h pl) ha (ckptNow_eq pl hask)) fun e ⟨hring, hrest⟩ => ?_
  unfold Dev.ckptCopying at hring
  rw [hring, hnext]
  refine ⟨rfl, rfl, rfl, rfl, SMap.get_set_same .., fun j hj => ?_, hrest⟩
  have hworn := get_eraseSlot 0 (s.dev.part h.part).ckpt.blocks (s.dev.part h.part).ckpt.erases j (s.dev.part h.part).ckpt.blocks
  rw [Nat.zero_mul, Nat.zero_add] at hworn
  exact hworn.trans (by simp [hj, natOf])

theorem ckptNow_host_runs (s : State) {h : Hdr} {pl : List Byte} (ha : Accepted s.dev cCkptNow h pl)
    (hask : s.dev.ckptAsk h.part = (s.dev.setCkpt h.part (s.dev.ckptCopying h.part false true), none)) :
    Runs (.ckptNow h pl) s (fun e => (e.part h.part).ckpt.copy.map Prod.snd = some ((s.dev.part h.part).ckpt.seq + 1) ∧
      (e.part h.part).ckpt.toKeep = false ∧ (e.part h.part).ckpt.toHost = true ∧
      (e.part h.part).ckpt.slots = (s.dev.part h.part).ckpt.slots ∧
      (e.part h.part).ckpt.image = s.dev.imageOf h.part ((s.dev.part h.part).ckpt.seq + 1) ∧ Waits s.dev e cCkptNow h pl .ckpt ∧
      Keeps s.dev e (fun a => BookReg a)) :=
  runs_imp (serve_ckpt_waits s (exec_ckptNow h pl) ha (ckptNow_eq pl hask)) fun e ⟨hring, hwait, _, hkeeps⟩ => by
    rw [hring]
    exact ⟨rfl, rfl, rfl, rfl, rfl, hwait, hkeeps⟩

/-- Season `n`, which is to be saved, has ended in every core of a running partition, and no copy is under way (R344, R349). -/
structure SeasonSaved (d : Dev) (p n : Nat) : Prop where
  runs    : d.running p = true
  clear   : d.muted p = false
  first   : 0 < n
  due     : n % max 1 (d.part p).ckpt.every = 0
  unsaved : (d.part p).ckpt.saved ≠ some n
  ended   : ∀ q, q ∈ d.sitesOf p → d.flag (HRV_STAT q) 2 = true ∧ d.flag (HRV_STAT q) 0 = false ∧ d.rg (HRV_SEASONNO q) = n ∧
    (d.core q).hOver = false
  quiet   : d.tendOn p = false
  idle    : (d.part p).ckpt.copy = none

/-- The ring with the saving of Season `n` decided, `skip` where the copy to the Keep is skipped. -/
def ckptSaved (c : Ckpt) (n : Nat) (skip : Bool) : Ckpt := { c with saved := some n, skips := c.skips + natOf skip }

theorem ckptStart_eq {d : Dev} {p n q0 : Nat} {qs : List Nat} (hsites : d.sitesOf p = q0 :: qs) (hn : n = d.rg (HRV_SEASONNO q0))
    (hflags : (d.part p).ckpt.flags % 4 ≠ 0) (h : SeasonSaved d p n) :
    d.ckptStart p = (d.setCkpt p (ckptSaved (d.part p).ckpt n (bitAt (d.part p).ckpt.flags 0 && ! (bitAt (d.part p).ckpt.flags 0 &&
      d.keepPaced p)))).ckptBegin p (bitAt (d.part p).ckpt.flags 0 && d.keepPaced p) (bitAt (d.part p).ckpt.flags 1) := by
  obtain ⟨hruns, hclear, hfirst, hdue, hunsaved, hended, hquiet, hidle⟩ := h
  have hall : (d.sitesOf p).all (fun q => (d.flag (HRV_STAT q) 2 || d.flag (HRV_CTL q) 0) && d.rg (HRV_SEASONNO q) = n &&
      ! d.flag (HRV_STAT q) 0 && ! (d.core q).hOver) = true := List.all_eq_true.2 fun q hq => by
    obtain ⟨hdone, hidle, hseason, hover⟩ := hended q hq
    simp [hdone, hidle, hseason, hover]
  have hsaved : ((d.part p).ckpt.saved == some n) = false := beq_eq_false_iff_ne.2 hunsaved
  have hgo : ¬ ((d.part p).ckpt.flags % 4 = 0 || ! d.running p || n = 0 || n % max 1 (d.part p).ckpt.every ≠ 0 ||
      (d.part p).ckpt.saved == some n || ! true || d.tendOn p || (d.part p).ckpt.copy.isSome || d.muted p) = true := by
    simp [hflags, hruns, hclear, hdue, hsaved, hquiet, hidle]
    omega
  rw [hsites] at hall
  unfold Dev.ckptStart
  dsimp only
  rw [hsites]
  dsimp only
  rw [← hn, hall, if_neg hgo]
  rfl

theorem ckptStart_skip_runs (s : State) {p n q0 : Nat} {qs : List Nat} (hsites : s.dev.sitesOf p = q0 :: qs)
    (hn : n = s.dev.rg (HRV_SEASONNO q0)) (hflags : (s.dev.part p).ckpt.flags % 4 = 1) (h : SeasonSaved s.dev p n)
    (hpaced : s.dev.keepPaced p = false) :
    Runs (.checkpointCopyStart p) s (fun e => (e.part p).ckpt.saved = some n ∧ (e.part p).ckpt.skips = (s.dev.part p).ckpt.skips + 1 ∧
      (e.part p).ckpt.copy = none ∧ Keeps s.dev e (fun _ => False)) := by
  have hkeep : bitAt (s.dev.part p).ckpt.flags 0 = true := (bitAt_zero _).2 (by omega)
  have hhost : bitAt (s.dev.part p).ckpt.flags 1 = false := Bool.eq_false_iff.2 fun h1 => by
    have := (bitAt_one _).1 h1
    omega
  have hstart : s.dev.ckptStart p = s.dev.setCkpt p (ckptSaved (s.dev.part p).ckpt n true) := by
    rw [ckptStart_eq hsites hn (by omega) h, hkeep, hhost, hpaced]
    rfl
  rw [runs_iff (exec_checkpointCopyStart p s), hstart, finish_part, ckpt_setCkpt]
  exact ⟨rfl, rfl, h.idle, finish_keeps_same rfl rfl rfl⟩

theorem ckptStart_host_runs (s : State) {p n q0 : Nat} {qs : List Nat} (hsites : s.dev.sitesOf p = q0 :: qs)
    (hn : n = s.dev.rg (HRV_SEASONNO q0)) (hflags : (s.dev.part p).ckpt.flags % 4 = 2) (h : SeasonSaved s.dev p n) :
    Runs (.checkpointCopyStart p) s (fun e => (e.part p).ckpt.saved = some n ∧
      (e.part p).ckpt.copy.map Prod.snd = some ((s.dev.part p).ckpt.seq + 1) ∧ (e.part p).ckpt.toHost = true ∧
      (e.part p).ckpt.toKeep = false ∧ (e.part p).ckpt.image = s.dev.imageOf p ((s.dev.part p).ckpt.seq + 1) ∧
      (∀ k, k ≠ p → e.part k = s.dev.part k) ∧ Keeps s.dev e (fun _ => False)) := by
  have hkeep : bitAt (s.dev.part p).ckpt.flags 0 = false := Bool.eq_false_iff.2 fun h0 => by
    have := (bitAt_zero _).1 h0
    omega
  have hhost : bitAt (s.dev.part p).ckpt.flags 1 = true := (bitAt_one _).2 (by omega)
  have hstart := ckptStart_eq hsites hn (by omega) h
  rw [hkeep, hhost, Bool.false_and, Bool.false_and, ckptBegin_eq _ (.inr rfl) (fun hf => absurd hf (by decide))] at hstart
  rw [runs_iff (exec_checkpointCopyStart p s), hstart, finish_part, ckpt_setCkpt]
  obtain ⟨hcopy, hto, hnot, himage, hsaved⟩ := ckptCopying_shows (s.dev.setCkpt p (ckptSaved (s.dev.part p).ckpt n false)) p false true
  rw [ckpt_setCkpt] at hcopy himage hsaved
  refine ⟨hsaved, hcopy, hto, hnot, himage.trans (imageOf_setCkpt _ _ _ rfl), fun k hk => ?_, finish_keeps_same rfl rfl rfl⟩
  rw [finish_part, part_setCkpt_ne _ _ hk, part_setCkpt_ne _ _ hk]

/-! ### Commit and host copy (R345, R349, R352) -/

/-- The ring once the header of slot `slot` is committed. -/
def Dev.ckptCommitted (d : Dev) (p slot seq : Nat) : Ckpt :=
  let c := (d.part p).ckpt
  { c with slots := SMap.set [] c.slots slot c.image, commit := some d.rtc, seq := seq, toKeep := false,
           copy := if c.toHost then c.copy else none, image := if c.toHost then c.image else [] }

/-- The commands of partition `p` that wait for a copy's end. -/
def waitsCkpt (p : Nat) (w : Waiting) : Bool := w.what == .ckpt && w.hdr.part % 16 == p

theorem ckptCommit_eq {d : Dev} {p slot seq : Nat} (hcopy : (d.part p).ckpt.copy = some (slot, seq))
    (hkeep : (d.part p).ckpt.toKeep = true) : d.ckptCommit p = (d.setCkpt p (d.ckptCommitted p slot seq)).ckptEnd p seq := by
  unfold Dev.ckptCommit
  dsimp only
  split
  · rename_i hnone
    exact absurd (hnone.symm.trans hcopy) (by simp)
  · rename_i slot' seq' hsome
    obtain ⟨rfl, rfl⟩ := Prod.mk.inj (Option.some.inj (hsome.symm.trans hcopy))
    rw [if_neg (by simp [hkeep])]
    rfl

theorem ckptCommit_runs (s : State) {p slot seq : Nat} (hcopy : (s.dev.part p).ckpt.copy = some (slot, seq))
    (hkeep : (s.dev.part p).ckpt.toKeep = true) :
    Runs (.checkpointCommit p) s (fun e => SMap.get [] (e.part p).ckpt.slots slot = (s.dev.part p).ckpt.image ∧
      (∀ k, k ≠ slot → SMap.get [] (e.part p).ckpt.slots k = SMap.get [] (s.dev.part p).ckpt.slots k) ∧ (e.part p).ckpt.seq = seq ∧
      (e.part p).ckpt.commit = some s.dev.rtc ∧ (e.part p).ckpt.toKeep = false ∧
      ((s.dev.part p).ckpt.toHost = false → (e.part p).ckpt.copy = none) ∧
      e.car.waiting = s.dev.car.waiting.filter (fun w => !(waitsCkpt p w)) ∧ SameMem s.dev e) := by
  obtain ⟨hmem, hparts, hwaiting⟩ := endWaiting_answers (s.dev.setCkpt p (s.dev.ckptCommitted p slot seq)) (waitsCkpt p)
    (fun _ => (.ok, leBytes 8 seq))
  have hring : (((s.dev.ckptCommit p).finish).part p).ckpt = s.dev.ckptCommitted p slot seq := by
    rw [finish_part, ckptCommit_eq hcopy hkeep]
    exact (congrArg (fun x => (SMap.get default x p).ckpt) hparts).trans (ckpt_setCkpt ..)
  rw [runs_iff (exec_checkpointCommit p s), hring]
  refine ⟨SMap.get_set_same .., fun k hk => SMap.get_set_ne _ _ _ hk, rfl, rfl, rfl, fun hhost => ?_, ?_, fun a => ?_⟩
  · show (if (s.dev.part p).ckpt.toHost then (s.dev.part p).ckpt.copy else none) = none
    rw [hhost]
    rfl
  · rw [finish_car, ckptCommit_eq hcopy hkeep]
    exact hwaiting
  · rw [finish_mem, ckptCommit_eq hcopy hkeep]
    exact congrArg (fun m : Memory => m.read a) hmem

/-- The ring once the host copy has ended. -/
def ckptExported (c : Ckpt) (seq : Nat) : Ckpt := { c with copy := none, image := [], toHost := false, seq := seq }

/-- The two writes of a host copy have left, payload before header. -/
def Dev.exportSent (d : Dev) (p : Nat) : Dev :=
  (d.emit (.hostWrite (d.requester p) ((d.part p).ckpt.hostAddr + 128) ((d.part p).ckpt.image.drop 128))).emit
    (.hostWrite (d.requester p) (d.part p).ckpt.hostAddr ((d.part p).ckpt.image.take 128))

theorem hostExport_eq {d : Dev} {p slot seq : Nat} (hcopy : (d.part p).ckpt.copy = some (slot, seq))
    (hhost : (d.part p).ckpt.toHost = true) (hkeep : (d.part p).ckpt.toKeep = false) (hchan : d.flag (PCI_DMACFG (2 * p + 1)) 31 = true)
    (hpower : p = 0 → d.d3hot = false) (hwait : d.car.waiting = []) :
    d.hostExport p = ((d.exportSent p).setCkpt p (ckptExported (d.part p).ckpt seq)).unwaited (waitsCkpt p) := by
  have hgo : ¬ (! (d.part p).ckpt.toHost || (d.part p).ckpt.toKeep || ! d.flag (PCI_DMACFG (2 * p + 1)) 31 || (p = 0 && d.d3hot)) = true := by
    rw [hhost, hkeep, hchan]
    simpa using hpower
  unfold Dev.hostExport
  dsimp only
  split
  · rename_i hnone
    exact absurd (hnone.symm.trans hcopy) (by simp)
  · rename_i slot' seq' hsome
    obtain ⟨rfl, rfl⟩ := Prod.mk.inj (Option.some.inj (hsome.symm.trans hcopy))
    rw [if_neg hgo]
    exact endWaiting_none (show ((d.exportSent p).setCkpt p _).car.waiting = [] from hwait) _ _

theorem exported_keeps (d : Dev) (p : Nat) (c : Ckpt) (sel : Waiting → Bool) :
    Keeps d (((d.exportSent p).setCkpt p c).unwaited sel).finish (fun _ => False) := finish_keeps_same rfl rfl rfl

theorem hostExport_runs (s : State) {p slot seq : Nat} (hcopy : (s.dev.part p).ckpt.copy = some (slot, seq))
    (hhost : (s.dev.part p).ckpt.toHost = true) (hkeep : (s.dev.part p).ckpt.toKeep = false)
    (hchan : s.dev.flag (PCI_DMACFG (2 * p + 1)) 31 = true) (hpower : p = 0 → s.dev.d3hot = false) (hwait : s.dev.car.waiting = []) :
    Runs (.hostExport p) s (fun e => e.out = s.dev.out ++ [.hostWrite (s.dev.requester p) ((s.dev.part p).ckpt.hostAddr + 128)
      ((s.dev.part p).ckpt.image.drop 128), .hostWrite (s.dev.requester p) (s.dev.part p).ckpt.hostAddr
      ((s.dev.part p).ckpt.image.take 128)] ∧ (e.part p).ckpt.copy = none ∧ (e.part p).ckpt.seq = seq ∧
      (e.part p).ckpt.toHost = false ∧ (∀ k, k ≠ p → e.part k = s.dev.part k) ∧ Keeps s.dev e (fun _ => False)) := by
  have hring : (((s.dev.hostExport p).finish).part p).ckpt = ckptExported (s.dev.part p).ckpt seq := by
    rw [finish_part, hostExport_eq hcopy hhost hkeep hchan hpower hwait]
    exact ckpt_setCkpt (s.dev.exportSent p) p _
  rw [runs_iff (exec_hostExport p s), hring, hostExport_eq hcopy hhost hkeep hchan hpower hwait]
  refine ⟨?_, rfl, rfl, rfl, fun k hk => ?_, exported_keeps ..⟩
  · rw [finish_out]
    exact List.append_assoc ..
  · rw [finish_part]
    exact part_setCkpt_ne (s.dev.exportSent p) _ hk

end Sys2Proof.Machine
end

section
/-! SUPPORT. CKPT_RESTORE of one reverse-index record (R351): the record written, the Seasons cleared, the partition IDLE; and the family's
statement. -/

namespace Sys2Proof.Machine

open Sys2Proof

/-! ### The newest valid slot -/

/-- A valid slot is a slot of the partition's. -/
theorem newestSlot_named {d : Dev} {p : Nat} {x : Nat × List Byte} (h : d.newestSlot p = some x) :
    (d.part p).ckpt.slots.any (fun s => slotNamed p s.2) = true := by
  have hnone : ∀ l : List (Nat × List Byte), l.any (fun s => slotNamed p s.2) = false → l.foldl (fun a c =>
      if slotNamed p c.2 && slotGood c.2 then
        match a with
        | none => some c
        | some b => if leAt b.2 8 8 < leAt c.2 8 8 then some c else a
      else a) none = none := by
    intro l
    induction l with
    | nil => exact fun _ => rfl
    | cons c r ih =>
      intro hl
      rw [List.any_cons, Bool.or_eq_false_iff] at hl
      rw [List.foldl_cons, hl.1, Bool.false_and, if_neg (by decide)]
      exact ih hl.2
  by_contra hno
  have hlast : d.newestSlot p = none := hnone _ (Bool.eq_false_iff.2 hno)
  rw [h] at hlast
  exact absurd hlast (by simp)

/-! ### The sites stay -/

theorem physOf_congr {d e : Dev} {n : Nat} (h : e.rg (FAB_REMAP (n / 16) n) = d.rg (FAB_REMAP (n / 16) n)) : e.physOf n = d.physOf n := by
  unfold Dev.physOf
  dsimp only
  rw [flag_congr 31 h, fld_congr 0 4 h]

/-- The sites of a partition rest on the regions' owners and the remap tables. -/
theorem sitesOf_congr {d e : Dev} (howner : ∀ r, r < 16 → e.rg (CAL_REGPART r) = d.rg (CAL_REGPART r))
    (hremap : ∀ n, n < 256 → e.rg (FAB_REMAP (n / 16) n) = d.rg (FAB_REMAP (n / 16) n)) (p : Nat) : e.sitesOf p = d.sitesOf p := by
  have hregions : e.regionsOf p = d.regionsOf p := List.filter_congr fun r hr => by
    unfold Dev.owns
    rw [regPart_congr (howner r (mem_upTo hr))]
  have hcores : ∀ r, r < 16 → e.coresOf r = d.coresOf r := fun r hr => List.filterMap_congr fun s hs => by
    have hslot := mem_upTo hs
    rw [physOf_congr (hremap (16 * r + s) (by omega))]
  unfold Dev.sitesOf
  rw [hregions, List.map_congr_left fun r hr => congrArg (List.map Prod.snd) (hcores r (mem_regionsOf.1 hr).1)]

/-- A write of a core store leaves the sites. -/
theorem StoreWrites.sitesOf {q a : Nat} {l : List Byte} {d e : Dev} (h : StoreWrites q a l d e) (p : Nat) : e.sitesOf p = d.sitesOf p := by
  refine sitesOf_congr (fun r hr => h.rg_global (by unfold CAL_REGPART; omega)) (fun n hn => h.rg _ fun hs => ?_) p
  have := storeReg_slot hs
  unfold FAB_REMAP slotBase at this
  omega

/-! ### The Tabor's votes (R577) -/

theorem setVote_regs (d : Dev) (c x v : Nat) : ∃ g, d.setVote c x v = { d with regs := g } := by
  unfold Dev.setVote
  dsimp only
  split
  · exact ⟨_, rfl⟩
  · exact ⟨_, rfl⟩

theorem taborPart_regs (d : Dev) (p : Nat) : ∃ g, d.taborPart p = { d with regs := g } :=
  forEach_regs (fun d r => forEach_regs (fun d k => setVote_regs d _ _ _) d _) d _

theorem rg_taborPart (d : Dev) (p : Nat) {a : Nat} (h : ¬ VoteReg a) : (d.taborPart p).rg a = d.rg a := by
  refine forEach_keeps_mem (fun e => e.rg a) _ _ (fun e r hr => ?_) d
  have hregion := (mem_regionsOf.1 hr).1
  refine forEach_keeps_mem (fun e => e.rg a) _ _ (fun e k hk => ?_) e
  have hdomain := mem_upTo hk
  exact (setVote_keeps e (by decide) (by unfold domOf; omega) _).rg a h

/-! ### After the record -/

/-- The Seasons of the partition's cores counted from 0 again. -/
def Dev.seasonsCleared (d : Dev) (p : Nat) : Dev :=
  d.forEach (d.sitesOf p) (fun d q => (d.setR (HRV_SCOUNT q) 0).setR (HRV_SEASONNO q) 0)

/-- A Choke of the partition ends, with the cause it set. -/
def Dev.chokeCleared (d : Dev) (p : Nat) : Dev :=
  if d.choked p then
    ((d.setFlag (FLT_PMUTE p) 9 false).setFlag (FLT_PMUTE p) 7 false).setFlag (FLT_PMUTE p) 8
      (((d.setFlag (FLT_PMUTE p) 9 false).setFlag (FLT_PMUTE p) 7 false).muted p)
  else d

/-- The partition IDLE, with the Tabor's votes for it. -/
def Dev.partIdled (d : Dev) (p : Nat) : Dev := (d.setF (TAB_BSTAT p) 16 3 0).taborPart p

section
variable (d : Dev) (p : Nat)

theorem seasonsCleared_regs : ∃ g, d.seasonsCleared p = { d with regs := g } := forEach_regs (fun _ _ => ⟨_, rfl⟩) d _

theorem seasonsCleared_shows {q : Nat} (hq : q ∈ d.sitesOf p) :
    (d.seasonsCleared p).rg (HRV_SCOUNT q) = 0 ∧ (d.seasonsCleared p).rg (HRV_SEASONNO q) = 0 := by
  refine forEach_each (P := fun e q => e.rg (HRV_SCOUNT q) = 0 ∧ e.rg (HRV_SEASONNO q) = 0) (fun e x => ⟨?_, rg_setR_same ..⟩)
    (fun e x y hne h => ?_) _ d q hq
  · exact (rg_setR_ne _ (by unfold HRV_SCOUNT HRV_SEASONNO; omega)).trans (rg_setR_same ..)
  · have hbase : nBase y ≠ nBase x := fun he => hne (nBase_inj he).symm
    have hother : HRV_SCOUNT y ≠ HRV_SCOUNT x ∧ HRV_SCOUNT y ≠ HRV_SEASONNO x ∧ HRV_SEASONNO y ≠ HRV_SCOUNT x ∧
        HRV_SEASONNO y ≠ HRV_SEASONNO x := by
      unfold HRV_SCOUNT HRV_SEASONNO nBase slotBase at *
      omega
    obtain ⟨hcc, hcn, hnc, hnn⟩ := hother
    exact ⟨(rg_setR_ne _ hcn).trans ((rg_setR_ne _ hcc).trans h.1), (rg_setR_ne _ hnn).trans ((rg_setR_ne _ hnc).trans h.2)⟩

theorem rg_seasonsCleared {a : Nat} (h : a < 0x10000000) : (d.seasonsCleared p).rg a = d.rg a := by
  refine forEach_keeps (fun e => e.rg a) _ (fun e q => ?_) _ d
  have hslot := nBase_slot q
  exact (rg_setR_ne _ (by unfold HRV_SEASONNO; omega)).trans (rg_setR_ne _ (by unfold HRV_SCOUNT; omega))

theorem chokeCleared_regs : ∃ g, d.chokeCleared p = { d with regs := g } := by
  unfold Dev.chokeCleared
  split
  · exact ⟨_, rfl⟩
  · exact ⟨_, rfl⟩

theorem rg_chokeCleared {a : Nat} (h : a ≠ FLT_PMUTE p) : (d.chokeCleared p).rg a = d.rg a := by
  unfold Dev.chokeCleared
  split
  · rw [rg_setFlag_ne _ h, rg_setFlag_ne _ h, rg_setFlag_ne _ h]
  · rfl

theorem partIdled_regs : ∃ g, d.partIdled p = { d with regs := g } := taborPart_regs _ p

theorem rg_partIdled {a : Nat} (hv : ¬ VoteReg a) (h : a ≠ TAB_BSTAT p) : (d.partIdled p).rg a = d.rg a :=
  (rg_taborPart _ p hv).trans (rg_setF_ne _ h)

theorem bstate_partIdled (hp : p < 16) : (d.partIdled p).bstate p = 0 := by
  have hvote : ¬ VoteReg (TAB_BSTAT p) := by
    unfold VoteReg TAB_BSTAT
    omega
  exact (fld_congr 16 3 (rg_taborPart _ p hvote)).trans (fld_setF_same d (by decide))

/-- All of it. -/
def Dev.restoreEnds : Dev := ((d.seasonsCleared p).chokeCleared p).partIdled p

theorem restoreEnds_regs : ∃ g, d.restoreEnds p = { d with regs := g } := by
  obtain ⟨g, hg⟩ := seasonsCleared_regs d p
  obtain ⟨g', hg'⟩ := chokeCleared_regs (d.seasonsCleared p) p
  obtain ⟨g'', hg''⟩ := partIdled_regs ((d.seasonsCleared p).chokeCleared p) p
  exact ⟨g'', by unfold Dev.restoreEnds; rw [hg'', hg', hg]⟩

/-- Registers of the slots, and Carillon's for the rings, read as the clearing of the Seasons left them. -/
theorem rg_restoreEnds {p a : Nat} (hp : p < 16) (h : 0x100000 ≤ a) : (d.restoreEnds p).rg a = (d.seasonsCleared p).rg a :=
  (rg_partIdled _ p (by unfold VoteReg; omega) (by unfold TAB_BSTAT; omega)).trans (rg_chokeCleared _ p (by unfold FLT_PMUTE; omega))

end

/-! ### CKPT_RESTORE -/

/-- The restore of a slot that holds one reverse-index record. -/
theorem ckptRestore_eq {d : Dev} {h : Hdr} (pl : List Byte) {x : Nat × List Byte} {f u off q : Nat} {data : List Byte}
    (hstill : d.still h.part = true ∨ d.bstate h.part = 4) (hslot : d.newestSlot h.part = some x)
    (hrecs : payRecs (leAt x.2 28 4) (x.2.drop 128) = [(2, f, u, off, data)])
    (hin : d.recordInside h.part (2, f, u, off, data) = true) (hq : d.physOf u = some q) :
    d.ckptRestore h pl = ((d.csWrite q (csBase q + off) data data.length).restoreEnds h.part, .done .ok 0 (leBytes 8 (leAt x.2 8 8))) := by
  have hready : ¬ (! (d.still h.part || d.bstate h.part = 4)) = true := by
    obtain hs | hs := hstill <;> simp [hs]
  have hall : ¬ (! [(2, f, u, off, data)].all (d.recordInside h.part)) = true := by simp [hin]
  have hrec : d.forEach [(2, f, u, off, data)] Dev.restoreRecord = d.csWrite q (csBase q + off) data data.length := by
    show d.restoreRecord (2, f, u, off, data) = _
    unfold Dev.restoreRecord
    dsimp only
    rw [if_neg (by decide), hq]
  unfold Dev.ckptRestore
  dsimp only
  rw [if_neg hready, if_neg (by simp [newestSlot_named hslot]), hslot]
  dsimp only
  rw [hrecs, if_neg hall, hrec]
  rfl

theorem ckptRestore_runs (s : State) {h : Hdr} {pl : List Byte} {x : Nat × List Byte} {off q : Nat} {data : List Byte}
    (ha : Accepted s.dev cCkptRestore h pl) (hr : s.dev.ckptRestore h pl =
      ((s.dev.csWrite q (csBase q + off) data data.length).restoreEnds h.part, .done .ok 0 (leBytes 8 (leAt x.2 8 8)))) :
    Runs (.ckptRestore h pl) s (fun e => (∀ k, k < data.length → e.mem.read (csBase q + off + k) = data.getD k 0#8) ∧
      MemKeeps s.dev e (fun a => csBase q + off ≤ a ∧ a < csBase q + off + data.length) ∧ (∀ k, k ∈ s.dev.sitesOf h.part →
      e.rg (HRV_SCOUNT k) = 0 ∧ e.rg (HRV_SEASONNO k) = 0) ∧ e.bstate h.part = 0 ∧
      Answered s.dev e 0x0709 h .ok (leBytes 8 (leAt x.2 8 8))) := by
  have hpart := accepted_part ha
  have hwrite := csWrite_writes q data.length (csBase q + off) data s.dev (Nat.le_refl _)
  obtain ⟨g, hg⟩ := restoreEnds_regs (s.dev.csWrite q (csBase q + off) data data.length) h.part
  have hrg : ∀ a, 0x100000 ≤ a → ((s.dev.csWrite q (csBase q + off) data data.length).restoreEnds h.part).rg a =
      ((s.dev.csWrite q (csBase q + off) data data.length).seasonsCleared h.part).rg a := fun a hlow =>
    rg_restoreEnds _ hpart hlow
  have hmem : ((s.dev.csWrite q (csBase q + off) data data.length).restoreEnds h.part).mem = memWr s.dev.mem (csBase q + off) data := by
    rw [hg]
    exact hwrite.mem
  refine serve_runs s (exec_ckptRestore h pl) ha hr (by rw [length_leBytes]; decide) ?_ ?_ fun e hbook hans => ?_
  · have hring : 0x100000 ≤ CAR_RRCFG h.func ∧ CAR_RRCFG h.func < 0x10000000 := by
      have := ha.2.1
      unfold CAR_RRCFG
      omega
    exact (hrg _ hring.1).trans ((rg_seasonsCleared _ _ hring.2).trans (hwrite.rg_global hring.2))
  · rw [hg]
    exact (congrArg Dev.car hwrite.slim :)
  refine ⟨fun k hk => ?_, fun a hout => ?_, fun k hk => ?_, ?_, hans⟩
  · rw [finish_mem, desk_mem hbook.desk, hmem, memWr_read, if_pos (by omega), Nat.add_sub_cancel_left]
  · rw [finish_mem, desk_mem hbook.desk, hmem, memWr_read, if_neg (by omega)]
  · have hslot := nBase_slot k
    obtain ⟨hcount, hnumber⟩ := seasonsCleared_shows (s.dev.csWrite q (csBase q + off) data data.length) h.part
      (q := k) (by rw [hwrite.sitesOf]; exact hk)
    exact ⟨(hbook.rg_slot (by unfold HRV_SCOUNT; omega)).trans ((hrg _ (by unfold HRV_SCOUNT; omega)).trans hcount),
      (hbook.rg_slot (by unfold HRV_SEASONNO; omega)).trans ((hrg _ (by unfold HRV_SEASONNO; omega)).trans hnumber)⟩
  · have hbook' : ¬ BookReg (TAB_BSTAT h.part) := fun hb => by
      have := LinkReg.place (.inl hb)
      unfold TAB_BSTAT at this
      omega
    exact (bstate_finish e hpart).trans ((fld_congr 16 3 (hbook.rg _ hbook')).trans (bstate_partIdled _ _ hpart))

/-- Settles O25: the settings and answers of the ring, its copies, their commit, host copy and restore. -/
theorem checkpoints : Obligations.Checkpoints := by
  refine ⟨fun s h pl b ha hon hb hev hkeep hhost hquota => ckptConfig_runs s ha (ckptConfig_eq hon hb hev hkeep hhost hquota),
    fun s h pl ha hon hcopy hkeep hpaced hmuted hfit hslot => ckptNow_keep_runs s ha
      (ckptAsk_eq hon hcopy hkeep rfl (.inl rfl) (fun _ => hpaced) hmuted fun _ => hfit) hslot,
    fun s h pl ha hon hcopy hkeep hhost hmuted => ckptNow_host_runs s ha
      (ckptAsk_eq hon hcopy hkeep hhost (.inr rfl) (fun hf => absurd hf (by decide)) hmuted fun hf => absurd hf (by decide)),
    fun s h pl x f u off q data ha hstill hslot hrecs hin hq => ckptRestore_runs s ha (ckptRestore_eq pl hstill hslot hrecs hin hq),
    fun s h pl ha => ckptStatus_runs s ha,
    fun s h pl ha hp hoff hroom => ckptQuota_runs s ha hp hoff hroom,
    fun s p n q0 qs hsites hn ⟨hflags, hruns, hclear⟩ ⟨hfirst, hdue, hunsaved⟩ hended ⟨hquiet, hidle⟩ hpaced =>
      ckptStart_skip_runs s hsites hn hflags ⟨hruns, hclear, hfirst, hdue, hunsaved, hended, hquiet, hidle⟩ hpaced,
    fun s p n q0 qs hsites hn ⟨hflags, hruns, hclear⟩ ⟨hfirst, hdue, hunsaved⟩ hended ⟨hquiet, hidle⟩ =>
      ckptStart_host_runs s hsites hn hflags ⟨hruns, hclear, hfirst, hdue, hunsaved, hended, hquiet, hidle⟩,
    fun s p slot seq hcopy hkeep => ckptCommit_runs s hcopy hkeep,
    fun s p slot seq hcopy ⟨hhost, hkeep⟩ hchan hpower hwait => hostExport_runs s hcopy hhost hkeep hchan hpower hwait⟩

end Sys2Proof.Machine
end

section
/-! SUPPORT. A descriptor the S-core has come to: its trace record, and what going on or waiting leaves of what the descriptor did
(R400, R403, R425, R625). -/

namespace Sys2Proof.Machine

open Sys2Proof

variable {d : Dev} {r op : Nat} {x : List Byte}

/-- A legal descriptor of its opcode is carried out, after its trace record. -/
theorem desc_at (h : AtDesc d r op x) (f : Dev → List Byte → Dev) : d.desc r op f = f (d.descSeen r x) x := by
  obtain ⟨-, hgoes, rfl, hopc, hclean⟩ := h
  unfold Dev.desc
  dsimp only
  rw [if_neg (by simp [hgoes, hopc]), if_pos hclean]

theorem descSeen_trace (d : Dev) (r : Nat) (x : List Byte) : TraceKeeps d (d.descSeen r x) := traceRec_keeps d _ _ _ _ _ _ _

/-- An S-core that comes to a descriptor runs. -/
theorem atDesc_running (h : AtDesc d r op x) : d.seqState r = 1 := by
  obtain ⟨-, hgoes, -⟩ := h
  unfold Dev.scoreGoes at hgoes
  simp only [Bool.and_eq_true, beq_iff_eq] at hgoes
  exact hgoes.1.1.1.1

/-! ### Places -/

theorem bookReg_low {a : Nat} (h : BookReg a) : a < 0x10000000 := by
  have := LinkReg.place (.inl h)
  omega

/-- The books are none of the registers that tell the owner of a region, the level of a domain, or the faults. -/
theorem bookReg_not_owner {a : Nat} (h : BookReg a) :
    ¬ (0xB0000 ≤ a ∧ a < 0xD0000) ∧ ¬ (0xE0000 ≤ a ∧ a < 0xF0000) ∧ 0x40000 ≤ a := by
  have := LinkReg.place (.inl h)
  omega

theorem stepReg_slot {a : Nat} (h : StepReg r a) : 0x10000000 ≤ a := by
  unfold StepReg SEQ_DESC_LO SEQ_PC SEQ_STAT slotBase at h
  omega

theorem general_slot (k : Nat) : 0x10000000 ≤ SEQ_Gi_LO r k := by
  unfold SEQ_Gi_LO slotBase
  omega

/-! ### Going on -/

/-- Where the S-core stands once it has gone on. -/
theorem seqNext_wentTo (d : Dev) {r : Nat} (hpc : d.seqPc r + 1 < 4096) : WentTo d (d.seqNext r) r (d.seqPc r + 1) := by
  obtain ⟨g, hg⟩ := bump64_regs_only d (SEQ_DESC_LO r) 1
  have hcount := rg64_bump64_same d (SEQ_DESC_LO r) 1
  have hne : SEQ_PC r ≠ SEQ_STAT r ∧ SEQ_DESC_LO r ≠ SEQ_STAT r ∧ SEQ_DESC_LO r + 4 ≠ SEQ_STAT r ∧ SEQ_DESC_LO r ≠ SEQ_PC r ∧
      SEQ_DESC_LO r + 4 ≠ SEQ_PC r := by
    unfold SEQ_PC SEQ_STAT SEQ_DESC_LO
    omega
  obtain ⟨hpcne, hlo, hhi, hlo', hhi'⟩ := hne
  have hhalt : ((d.bump64 (SEQ_DESC_LO r) 1).score r).halt = (d.score r).halt := by rw [hg]; rfl
  refine ⟨(seqNext_steps d (by omega)).pc, ?_, ?_⟩
  · unfold Dev.seqNext Dev.seqGoto Dev.setSeq Dev.seqState
    dsimp only
    rw [if_neg (by omega), hhalt, fld_setF_ne _ (.inr (by decide)), fld_setF_same _ (by decide)]
    split <;> rfl
  · unfold Dev.seqNext Dev.seqGoto Dev.setSeq
    dsimp only
    rw [if_neg (by omega), ← hcount]
    refine rg64_congr ?_ ?_
    · rw [rg_setF_ne _ hlo, rg_setF_ne _ hlo, rg_setF_ne _ hlo']
      rfl
    · rw [rg_setF_ne _ hhi, rg_setF_ne _ hhi, rg_setF_ne _ hhi']
      rfl

/-- The device once a descriptor has done its work, and what it worked on: only registers `w`, none of which tells where the S-core
stands. -/
structure Worked (w : Nat → Prop) (r : Nat) (d e : Dev) : Prop where
  rg    : ∀ a, ¬ w a → e.rg a = d.rg a
  off   : ∀ a, StepReg r a → ¬ w a
  score : e.score r = d.score r

section
variable {w : Nat → Prop} {e : Dev}

theorem Worked.seqPc (h : Worked w r d e) : e.seqPc r = d.seqPc r :=
  fld_congr _ _ (h.rg _ (h.off _ (.inr (.inr (.inl rfl)))))

theorem rg_finish_step {a : Nat} (h : StepReg r a) : e.finish.rg a = e.rg a := rg_finish_slot e (stepReg_slot h)

/-- It goes on to the next descriptor. -/
theorem Worked.wentTo (h : Worked w r d e) (hpc : d.seqPc r + 1 < 4096) : WentTo d (e.seqNext r).finish r (d.seqPc r + 1) := by
  obtain ⟨hto, hstate, hcount⟩ := seqNext_wentTo e (r := r) (by rw [h.seqPc]; exact hpc)
  rw [h.score] at hstate
  rw [rg64_congr (h.rg _ (h.off _ (.inl rfl))) (h.rg _ (h.off _ (.inr (.inl rfl))))] at hcount
  refine ⟨?_, ?_, ?_⟩
  · rw [← h.seqPc, ← hto]
    exact fld_congr _ _ (rg_finish_step (.inr (.inr (.inl rfl))))
  · rw [← hstate]
    exact fld_congr _ _ (rg_finish_step (.inr (.inr (.inr rfl))))
  · rw [← hcount]
    exact rg64_congr (rg_finish_step (.inl rfl)) (rg_finish_step (.inr (.inl rfl)))

/-- Registers of the slots other than those of the step read as the work left them. -/
theorem rg_seqNext_finish (hpc : e.seqPc r + 1 < 4096) {a : Nat} (ha : 0x10000000 ≤ a) (hs : ¬ StepReg r a) :
    (e.seqNext r).finish.rg a = e.rg a :=
  (rg_finish_slot _ ha).trans ((seqNext_steps e (by omega)).rg a hs)

theorem greg_seqNext_finish (hpc : e.seqPc r + 1 < 4096) (k : Nat) : (e.seqNext r).finish.greg r k = e.greg r k := by
  obtain ⟨hlo, hhi⟩ := general_not_step (r := r) (i := k)
  have hslot := general_slot (r := r) k
  exact rg64_congr (rg_seqNext_finish hpc hslot hlo) (rg_seqNext_finish hpc (by omega) hhi)

theorem greg_worked (h : Worked w r d e) {k : Nat} (hlo : ¬ w (SEQ_Gi_LO r k)) (hhi : ¬ w (SEQ_Gi_LO r k + 4)) :
    e.greg r k = d.greg r k := rg64_congr (h.rg _ hlo) (h.rg _ hhi)

/-- Beside the step's registers, what a descriptor did is all that has changed. -/
theorem Worked.regKeeps (h : Worked w r d e) (hpc : d.seqPc r + 1 < 4096) :
    RegKeeps d (e.seqNext r).finish (fun a => ScoreReg r a ∨ w a) := fun a ha hf => by
  have hstep := (seqNext_steps e (r := r) (by rw [h.seqPc]; omega)).rg a fun hs => ha (.inl hs.scoreReg)
  exact (rg_finish _ hf).trans (hstep.trans (h.rg a fun hw => ha (.inr hw)))

theorem Worked.keeps (h : Worked w r d e) (hpc : d.seqPc r + 1 < 4096) (hmem : e.mem = d.mem) (hecc : e.ecc = d.ecc) :
    Keeps d (e.seqNext r).finish (fun a => ScoreReg r a ∨ w a) := by
  have hsame := (seqNext_steps e (r := r) (by rw [h.seqPc]; omega)).unscored
  refine ⟨h.regKeeps hpc, fun a => ?_, ?_⟩
  · rw [finish_mem, show (e.seqNext r).mem = e.mem from (congrArg Dev.mem hsame :), hmem]
  · rw [finish_ecc, show (e.seqNext r).ecc = e.ecc from (congrArg Dev.ecc hsame :), hecc]

end

/-- Registers that a claim names as the S-core's own anyway need no mention. -/
theorem keeps_mono {d e : Dev} {v w : Nat → Prop} (h : Keeps d e v) (hvw : ∀ a, v a → w a) : Keeps d e w := by
  obtain ⟨hrg, hmem, hecc⟩ := h
  exact ⟨fun a ha hf => hrg a (fun hv => ha (hvw a hv)) hf, hmem, hecc⟩

/-- The trace record of a descriptor is no work on the S-core. -/
theorem descSeen_worked (d : Dev) (r j : Nat) (x : List Byte) : Worked BookReg r d (d.descSeen j x) := by
  refine ⟨(descSeen_trace d j x).book.rg, fun a hs hb => ?_, ?_⟩
  · exact Nat.lt_irrefl _ (Nat.lt_of_lt_of_le (bookReg_low hb) (stepReg_slot hs))
  · unfold Dev.score
    rw [desk_scores (descSeen_trace d j x).desk]

theorem descSeen_rg_slot (d : Dev) (j : Nat) (x : List Byte) {a : Nat} (h : 0x10000000 ≤ a) : (d.descSeen j x).rg a = d.rg a :=
  (descSeen_trace d j x).book.rg a fun hb => Nat.lt_irrefl _ (Nat.lt_of_lt_of_le (bookReg_low hb) h)

theorem descSeen_greg (d : Dev) (j r k : Nat) (x : List Byte) : (d.descSeen j x).greg r k = d.greg r k := by
  have hslot := general_slot (r := r) k
  exact rg64_congr (descSeen_rg_slot d j x hslot) (descSeen_rg_slot d j x (by omega))

theorem descSeen_seqDesc (d : Dev) (r j : Nat) (x : List Byte) : (d.descSeen j x).seqDesc r = d.seqDesc r := by
  unfold Dev.seqDesc Dev.progAt
  rw [(descSeen_worked d r j x).seqPc, (descSeen_worked d r j x).score]

/-! ### Waiting -/

/-- An S-core that waits stands where it stood; no other register is touched. -/
theorem seqWait_waitsAt {d e : Dev} {r w : Nat} (hpc : e.seqPc r = d.seqPc r) (hw : w < 16) : WaitsAt d (e.seqWait r w).finish r w := by
  have hpcne : SEQ_PC r ≠ SEQ_STAT r := by
    unfold SEQ_PC SEQ_STAT
    omega
  have hfin : ∀ a, StepReg r a → (e.seqWait r w).finish.rg a = (e.seqWait r w).rg a := fun a h => rg_finish_slot _ (stepReg_slot h)
  unfold Dev.seqWait Dev.setSeq at *
  refine ⟨?_, ?_, ?_⟩
  · rw [← hpc]
    exact fld_congr _ _ ((hfin _ (.inr (.inr (.inl rfl)))).trans ((rg_setF_ne _ hpcne).trans (rg_setF_ne _ hpcne)))
  · refine (fld_congr 0 2 (hfin _ (.inr (.inr (.inr rfl))))).trans ?_
    rw [fld_setF_ne _ (.inr (by decide)), fld_setF_same _ (by decide)]
    rfl
  · refine (fld_congr 8 4 (hfin _ (.inr (.inr (.inr rfl))))).trans ?_
    rw [fld_setF_same _ (by decide)]
    exact Nat.mod_eq_of_lt hw

theorem rg_seqWait_ne (d : Dev) {r a : Nat} (w : Nat) (h : a ≠ SEQ_STAT r) : (d.seqWait r w).rg a = d.rg a :=
  (rg_setF_ne _ h).trans (rg_setF_ne _ h)

end Sys2Proof.Machine
end

section
/-! SUPPORT. HSTEP, OWN and SIGNAL (R336, R402, R421, R422). -/

namespace Sys2Proof.Machine

open Sys2Proof

theorem exec_hstep (r : Nat) (s : State) : exec (.hstep r) s = s.run (·.opHstep r) := rfl
theorem exec_hstepResume (r : Nat) (s : State) : exec (.hstepResume r) s = s.run (·.hstepResume r) := rfl
theorem exec_own (r : Nat) (s : State) : exec (.own r) s = s.run (·.opOwn r) := rfl
theorem exec_signal (r : Nat) (s : State) : exec (.signal r) s = s.run (·.opSignal r) := rfl

variable {d e : Dev} {r : Nat}

/-! ### Work on registers -/

theorem Worked.refl (d : Dev) (r : Nat) : Worked (fun _ => False) r d d := ⟨fun _ _ => rfl, fun _ _ h => h, rfl⟩

theorem Worked.trans {f : Dev} {v w : Nat → Prop} (h : Worked v r d e) (g : Worked w r e f) : Worked (fun a => v a ∨ w a) r d f :=
  ⟨fun a ha => (g.rg a fun hw => ha (.inr hw)).trans (h.rg a fun hv => ha (.inl hv)),
    fun a hs ha => ha.elim (h.off a hs) (g.off a hs), g.score.trans h.score⟩

/-- A register that is none of the step's. -/
theorem Worked.setR {a : Nat} (ha : ¬ StepReg r a) (v : Nat) : Worked (fun b => b = a) r d (d.setR a v) :=
  ⟨fun _ hb => rg_setR_ne d hb, fun _ hs he => ha (he ▸ hs), rfl⟩

theorem Worked.setG (d : Dev) (r k v : Nat) : Worked (fun a => a = SEQ_Gi_LO r k ∨ a = SEQ_Gi_LO r k + 4) r d (d.setG r k v) := by
  obtain ⟨hlo, hhi⟩ := general_not_step (r := r) (i := k)
  refine ⟨fun a ha => rg_set64_ne d _ ⟨fun h => ha (.inl h), fun h => ha (.inr h)⟩, fun a hs ha => ?_, rfl⟩
  obtain rfl | rfl := ha
  · exact hlo hs
  · exact hhi hs

theorem greg_setG (d : Dev) (r k j v : Nat) : (d.setG r k v).greg r j = if j = k then v % 2 ^ 64 else d.greg r j := by
  by_cases hj : j = k
  · subst hj
    rw [if_pos rfl]
    exact rg64_set64_same d (Nat.mod_lt _ (by decide))
  · rw [if_neg hj]
    have hne : SEQ_Gi_LO r j ≠ SEQ_Gi_LO r k ∧ SEQ_Gi_LO r j ≠ SEQ_Gi_LO r k + 4 ∧ SEQ_Gi_LO r j + 4 ≠ SEQ_Gi_LO r k ∧
        SEQ_Gi_LO r j + 4 ≠ SEQ_Gi_LO r k + 4 := by
      unfold SEQ_Gi_LO
      omega
    obtain ⟨hll, hlh, hhl, hhh⟩ := hne
    exact rg64_congr (rg_set64_ne d _ ⟨hll, hlh⟩) (rg_set64_ne d _ ⟨hhl, hhh⟩)

theorem dGd_lt (x : List Byte) : dGd x < 16 := by
  have := byteAt_lt x 2
  unfold dGd
  omega

/-- The books, and what a descriptor names, are not the general registers. -/
theorem general_not_book {k : Nat} : ¬ BookReg (SEQ_Gi_LO r k) ∧ ¬ BookReg (SEQ_Gi_LO r k + 4) := by
  have hslot := general_slot (r := r) k
  exact ⟨fun h => by have := bookReg_low h; omega, fun h => by have := bookReg_low h; omega⟩

/-! ### HSTEP (R336) -/

/-- The cores of a region rest on its remap table. -/
theorem coresOf_congr (hrg : ∀ a, 0x10000000 ≤ a → e.rg a = d.rg a) : e.coresOf r = d.coresOf r :=
  List.filterMap_congr fun s _ => by
    rw [physOf_congr (hrg _ (by unfold FAB_REMAP slotBase; omega))]

/-- Whether the Season has ended rests on the registers of the cores and what they hold. -/
theorem seasonEnded_congr (hrg : ∀ a, 0x10000000 ≤ a → e.rg a = d.rg a) (hcores : e.cores = d.cores) :
    e.seasonEnded r = d.seasonEnded r := by
  have hflag : ∀ c k, e.flag (HRV_STAT c) k = d.flag (HRV_STAT c) k := fun c k =>
    flag_congr k (hrg _ (Nat.le_trans (nBase_slot c) (by unfold HRV_STAT; omega)))
  have hctl : ∀ c, e.flag (HRV_CTL c) 0 = d.flag (HRV_CTL c) 0 := fun c =>
    flag_congr 0 (hrg _ (Nat.le_trans (nBase_slot c) (by unfold HRV_CTL; omega)))
  have hseason : ∀ c, e.rg (HRV_SEASONNO c) = d.rg (HRV_SEASONNO c) := fun c =>
    hrg _ (Nat.le_trans (nBase_slot c) (by unfold HRV_SEASONNO; omega))
  have hcore : ∀ c, e.core c = d.core c := fun c => by
    unfold Dev.core
    rw [hcores]
  unfold Dev.seasonEnded
  simp only [coresOf_congr hrg, hflag, hctl, hseason, hcore]

/-- HSTEP ends: the work before the S-core goes on. -/
theorem hstepEnd_eq {c : Nat × Nat} {rest : List (Nat × Nat)} (h : d.coresOf r = c :: rest) :
    d.hstepEnd r = (d.setG r (dGd (d.seqDesc r)) (d.rg (HRV_SEASONNO c.2))).seqNext r := by
  unfold Dev.hstepEnd
  rw [h]

/-- HSTEP's work: GD written, beside what the record of the descriptor touched. -/
theorem hstepEnd_runs {w : Nat → Prop} (hwork : Worked w r d e) (hw : ∀ a, w a → BookReg a)
    (hpc : d.seqPc r + 1 < 4096) (hmem : e.mem = d.mem) (hecc : e.ecc = d.ecc) {k v : Nat} (hk : k < 16) :
    WentTo d ((e.setG r k v).seqNext r).finish r (d.seqPc r + 1) ∧ ((e.setG r k v).seqNext r).finish.greg r k = v % 2 ^ 64 ∧
      (∀ j, j < 16 → j ≠ k → ((e.setG r k v).seqNext r).finish.greg r j = d.greg r j) ∧
      Keeps d ((e.setG r k v).seqNext r).finish (fun a => ScoreReg r a) := by
  have hall := hwork.trans (Worked.setG e r k v)
  have hpc' : (e.setG r k v).seqPc r + 1 < 4096 := by
    rw [hall.seqPc]
    exact hpc
  refine ⟨hall.wentTo hpc, ?_, fun j _ hj => ?_, keeps_mono (hall.keeps hpc hmem hecc) fun a ha => ?_⟩
  · rw [greg_seqNext_finish hpc', greg_setG, if_pos rfl]
  · obtain ⟨hlo, hhi⟩ := general_not_book (r := r) (k := j)
    rw [greg_seqNext_finish hpc', greg_setG, if_neg hj]
    exact greg_worked hwork (fun h => hlo (hw _ h)) (fun h => hhi (hw _ h))
  · obtain hs | hb | hg := ha
    · exact hs
    · exact .inl (hw _ hb)
    · exact general_scoreReg hk hg

theorem hstep_end_runs (s : State) {x : List Byte} {c : Nat × Nat} {rest : List (Nat × Nat)} (h : AtDesc s.dev r 20 x)
    (hpc : s.dev.seqPc r + 1 < 4096) (hended : s.dev.seasonEnded r = true) (hcores : s.dev.coresOf r = c :: rest) :
    Runs (.hstep r) s (fun e => WentTo s.dev e r (s.dev.seqPc r + 1) ∧ e.greg r (dGd x) = s.dev.rg (HRV_SEASONNO c.2) % 2 ^ 64 ∧
      (∀ k, k < 16 → k ≠ dGd x → e.greg r k = s.dev.greg r k) ∧ Keeps s.dev e (fun a => ScoreReg r a)) := by
  have hseen := descSeen_trace s.dev r x
  have hslots : ∀ a, 0x10000000 ≤ a → (s.dev.descSeen r x).rg a = s.dev.rg a := fun a => descSeen_rg_slot s.dev r x
  have hstep : s.dev.opHstep r = ((s.dev.descSeen r x).setG r (dGd x) (s.dev.rg (HRV_SEASONNO c.2))).seqNext r := by
    refine (desc_at h _).trans ?_
    rw [seasonEnded_congr hslots (desk_cores hseen.desk), if_pos hended, hstepEnd_eq ((coresOf_congr hslots).trans hcores),
      descSeen_seqDesc, h.2.2.1, hslots _ (Nat.le_trans (nBase_slot c.2) (by unfold HRV_SEASONNO; omega))]
  rw [runs_iff (exec_hstep r s), hstep]
  exact hstepEnd_runs (descSeen_worked s.dev r r x) (fun _ => id) hpc (desk_mem hseen.desk) (desk_ecc hseen.desk) (dGd_lt x)

theorem hstep_wait_runs (s : State) {x : List Byte} (h : AtDesc s.dev r 20 x) (hended : s.dev.seasonEnded r = false) :
    Runs (.hstep r) s (fun e => WaitsAt s.dev e r 4 ∧ (∀ k, k < 16 → e.greg r k = s.dev.greg r k) ∧
      Keeps s.dev e (fun a => ScoreReg r a)) := by
  have hseen := descSeen_trace s.dev r x
  have hstep : s.dev.opHstep r = (s.dev.descSeen r x).seqWait r 4 := by
    refine (desc_at h _).trans ?_
    rw [seasonEnded_congr (fun a => descSeen_rg_slot s.dev r x) (desk_cores hseen.desk), hended]
    rfl
  rw [runs_iff (exec_hstep r s), hstep]
  refine ⟨seqWait_waitsAt (descSeen_worked s.dev r r x).seqPc (by decide), fun k _ => ?_, fun a ha hf => ?_, fun a => ?_, ?_⟩
  · have hslot := general_slot (r := r) k
    have hne : SEQ_Gi_LO r k ≠ SEQ_STAT r ∧ SEQ_Gi_LO r k + 4 ≠ SEQ_STAT r := by
      unfold SEQ_Gi_LO SEQ_STAT
      omega
    refine (rg64_congr ?_ ?_).trans (descSeen_greg s.dev r r k x)
    · exact (rg_finish_slot _ hslot).trans (rg_seqWait_ne _ _ hne.1)
    · exact (rg_finish_slot _ (by omega)).trans (rg_seqWait_ne _ _ hne.2)
  · refine (rg_finish _ hf).trans ((rg_seqWait_ne _ _ fun he => ha ?_).trans (hseen.book.rg a fun hb => ha (.inl hb)))
    exact StepReg.scoreReg (.inr (.inr (.inr he)))
  · rw [finish_mem]
    exact congrArg (fun m : Memory => m.read a) (desk_mem hseen.desk)
  · rw [finish_ecc]
    exact desk_ecc hseen.desk

theorem hstepResume_runs (s : State) {c : Nat × Nat} {rest : List (Nat × Nat)} (hwaits : s.dev.waitsAt r 20 4 = true)
    (hended : s.dev.seasonEnded r = true) (hpc : s.dev.seqPc r + 1 < 4096) (hcores : s.dev.coresOf r = c :: rest) :
    Runs (.hstepResume r) s (fun e => WentTo s.dev e r (s.dev.seqPc r + 1) ∧
      e.greg r (dGd (s.dev.seqDesc r)) = s.dev.rg (HRV_SEASONNO c.2) % 2 ^ 64 ∧ Keeps s.dev e (fun a => ScoreReg r a)) := by
  have hstep : s.dev.hstepResume r = (s.dev.setG r (dGd (s.dev.seqDesc r)) (s.dev.rg (HRV_SEASONNO c.2))).seqNext r := by
    unfold Dev.hstepResume
    rw [hwaits, hended, Bool.and_self, if_pos rfl, hstepEnd_eq hcores]
  rw [runs_iff (exec_hstepResume r s), hstep]
  obtain ⟨hwent, hgd, -, hkeeps⟩ := hstepEnd_runs (Worked.refl s.dev r) (fun _ h => h.elim) hpc rfl rfl
    (v := s.dev.rg (HRV_SEASONNO c.2)) (dGd_lt (s.dev.seqDesc r))
  exact ⟨hwent, hgd, hkeeps⟩

/-! ### OWN (R421, R422) -/

/-- A register of the Commons' block is none of the step's, none of the general ones. -/
theorem commonsReg_plain {o : Nat} (ho : o < 0x10000) : ¬ StepReg r (slotBase r 0x21 + o) ∧ 0x10000000 ≤ slotBase r 0x21 + o ∧
    ∀ k, k < 16 → SEQ_Gi_LO r k ≠ slotBase r 0x21 + o ∧ SEQ_Gi_LO r k + 4 ≠ slotBase r 0x21 + o := by
  refine ⟨fun hs => ?_, by unfold slotBase; omega, fun k _ => by unfold SEQ_Gi_LO slotBase; omega⟩
  unfold StepReg SEQ_DESC_LO SEQ_PC SEQ_STAT slotBase at hs
  omega

/-- A descriptor that writes one register of its Commons' block and goes on. -/
theorem commonsWrite_runs {x : List Byte} {o : Nat} (ho : o < 0x10000) (hpc : d.seqPc r + 1 < 4096)
    (hwork : Worked (fun a => a = slotBase r 0x21 + o) r (d.descSeen r x) e) (hmem : e.mem = (d.descSeen r x).mem)
    (hecc : e.ecc = (d.descSeen r x).ecc) :
    WentTo d (e.seqNext r).finish r (d.seqPc r + 1) ∧
      (∀ a, 0x10000000 ≤ a → ¬ ScoreReg r a → (e.seqNext r).finish.rg a = e.rg a) ∧
      (∀ k, k < 16 → (e.seqNext r).finish.greg r k = d.greg r k) ∧
      Keeps d (e.seqNext r).finish (fun a => ScoreReg r a ∨ a = slotBase r 0x21 + o) := by
  obtain ⟨hstep, hslot, hgen⟩ := commonsReg_plain (r := r) ho
  have hseen := descSeen_trace d r x
  have hall := (descSeen_worked d r r x).trans hwork
  have hpc' : e.seqPc r + 1 < 4096 := by
    rw [hall.seqPc]
    exact hpc
  refine ⟨hall.wentTo hpc, fun a ha hs => rg_seqNext_finish hpc' ha fun h => hs h.scoreReg, fun k hk => ?_,
    keeps_mono (hall.keeps hpc (hmem.trans (desk_mem hseen.desk)) (hecc.trans (desk_ecc hseen.desk))) fun a ha => ?_⟩
  · obtain ⟨hlo, hhi⟩ := hgen k hk
    obtain ⟨hbook, hbook'⟩ := general_not_book (r := r) (k := k)
    rw [greg_seqNext_finish hpc']
    exact greg_worked hall (fun h => h.elim hbook hlo) (fun h => h.elim hbook' hhi)
  · obtain hs | hb | hr := ha
    · exact .inl hs
    · exact .inl (.inl hb)
    · exact .inr hr

/-- A register of the Commons' block is none of the S-core's. -/
theorem commonsReg_not_score {o : Nat} (ho : o < 0x10000) : ¬ ScoreReg r (slotBase r 0x21 + o) := by
  rintro (hb | hs | hlo | hhi)
  · have := bookReg_low hb
    unfold slotBase at this
    omega
  · unfold slotBase at hs
    omega
  · unfold OBS_SBUSY_LO slotBase at hlo
    omega
  · unfold OBS_SBUSY_HI slotBase at hhi
    omega

theorem opOwn_eq {x : List Byte} {b : Nat} (h : AtDesc d r 23 x) (hb : b = dCh x % 16) (hport : bitAt (dImm x) 8 = false) :
    d.opOwn r = ((d.descSeen r x).ownWrite r b ownScore false (dImm x % 16)).seqNext r := by
  refine (desc_at h _).trans ?_
  rw [← hb, hport]
  rfl

theorem bankOwner_seen (d : Dev) (r b : Nat) (x : List Byte) (port : Bool) : (d.descSeen r x).bankOwner r b port = d.bankOwner r b port :=
  fld_congr _ _ (descSeen_rg_slot d r x (by unfold CMN_OWN slotBase; omega))

/-- The owner field and PEND after a handover (R422). -/
theorem handover_shows (d : Dev) (r b : Nat) {code : Nat} (hcode : code < 16) :
    (d.handover r b false code).bankOwner r b false = code ∧ (d.handover r b false code).flag (CMN_OWN r b) 31 = true := by
  refine ⟨?_, flag_setFlag_same _ (by decide)⟩
  show ((d.setF (CMN_OWN r b) 0 4 code).setFlag (CMN_OWN r b) 31 true).fld (CMN_OWN r b) 0 4 = code
  rw [fld_setFlag_ne _ (.inr (by decide)), fld_setF_same _ (by decide)]
  exact Nat.mod_eq_of_lt hcode

theorem commonsReg_worked {d e : Dev} {o : Nat} (ho : o < 0x10000) (hrg : ∀ a, a ≠ slotBase r 0x21 + o → e.rg a = d.rg a)
    (hscore : e.scores = d.scores) : Worked (fun a => a = slotBase r 0x21 + o) r d e :=
  ⟨hrg, fun _ hs he => (commonsReg_plain ho).1 (he ▸ hs), by unfold Dev.score; rw [hscore]⟩

theorem own_take_runs (s : State) {x : List Byte} {b : Nat} (h : AtDesc s.dev r 23 x) (hpc : s.dev.seqPc r + 1 < 4096)
    (hb : b = dCh x % 16) (hport : bitAt (dImm x) 8 = false) (hcode : dImm x % 16 ≤ 2)
    (hown : s.dev.bankOwner r b false = ownScore ∨ s.dev.bankOwner r b false = 0) :
    Runs (.own r) s (fun e => WentTo s.dev e r (s.dev.seqPc r + 1) ∧ e.bankOwner r b false = dImm x % 16 ∧
      e.flag (CMN_OWN r b) 31 = true ∧ (∀ k, k < 16 → e.greg r k = s.dev.greg r k) ∧
      Keeps s.dev e (fun a => ScoreReg r a ∨ a = CMN_OWN r b)) := by
  have hbank : 4 * b < 0x10000 := by
    have := Nat.mod_lt (dCh x) (show 0 < 16 by decide)
    omega
  have hlegal : ownCode false (dImm x % 16) = true := by
    have hcases : dImm x % 16 = 0 ∨ dImm x % 16 = 1 ∨ dImm x % 16 = 2 := by omega
    obtain hc | hc | hc := hcases <;> rw [hc] <;> rfl
  have hgo : ((s.dev.bankOwner r b false = ownScore || s.dev.bankOwner r b false = 0) && ownCode false (dImm x % 16)) = true := by
    rw [hlegal, Bool.and_true, Bool.or_eq_true, decide_eq_true_eq, decide_eq_true_eq]
    exact hown
  have hwrite : (s.dev.descSeen r x).ownWrite r b ownScore false (dImm x % 16) = (s.dev.descSeen r x).handover r b false (dImm x % 16) := by
    unfold Dev.ownWrite
    dsimp only
    rw [bankOwner_seen, if_pos hgo]
  obtain ⟨hwent, hrg, hgen, hkeeps⟩ := commonsWrite_runs (e := (s.dev.descSeen r x).handover r b false (dImm x % 16)) hbank hpc
    (commonsReg_worked hbank (fun a ha => (rg_setFlag_ne _ ha).trans (rg_setF_ne _ ha)) rfl) rfl rfl
  have hreg := hrg _ (commonsReg_plain (r := r) hbank).2.1 (commonsReg_not_score hbank)
  obtain ⟨howner, hpend⟩ := handover_shows (s.dev.descSeen r x) r b (Nat.mod_lt (dImm x) (show 0 < 16 by decide))
  rw [runs_iff (exec_own r s), opOwn_eq h hb hport, hwrite]
  exact ⟨hwent, (fld_congr 0 4 hreg).trans howner, (flag_congr 31 hreg).trans hpend, hgen, hkeeps⟩

theorem own_refused_runs (s : State) {x : List Byte} {b : Nat} (h : AtDesc s.dev r 23 x) (hpc : s.dev.seqPc r + 1 < 4096)
    (hb : b = dCh x % 16) (hport : bitAt (dImm x) 8 = false)
    (hown : s.dev.bankOwner r b false ≠ ownScore ∧ s.dev.bankOwner r b false ≠ 0) :
    Runs (.own r) s (fun e => WentTo s.dev e r (s.dev.seqPc r + 1) ∧ e.bankOwner r b false = s.dev.bankOwner r b false ∧
      e.flag (CMN_STAT r) 1 = true ∧ (∀ k, k < 16 → e.greg r k = s.dev.greg r k) ∧
      Keeps s.dev e (fun a => ScoreReg r a ∨ a = CMN_STAT r)) := by
  have hbank : 4 * b < 0x10000 := by
    have := Nat.mod_lt (dCh x) (show 0 < 16 by decide)
    omega
  have hgo : ¬ ((s.dev.bankOwner r b false = ownScore || s.dev.bankOwner r b false = 0) && ownCode false (dImm x % 16)) = true := by
    rw [Bool.and_eq_true, Bool.or_eq_true, decide_eq_true_eq, decide_eq_true_eq]
    exact fun hg => hg.1.elim hown.1 hown.2
  have hwrite : (s.dev.descSeen r x).ownWrite r b ownScore false (dImm x % 16) = (s.dev.descSeen r x).setFlag (CMN_STAT r) 1 true := by
    unfold Dev.ownWrite
    dsimp only
    rw [bankOwner_seen, if_neg hgo]
  obtain ⟨hwent, hrg, hgen, hkeeps⟩ := commonsWrite_runs (e := (s.dev.descSeen r x).setFlag (CMN_STAT r) 1 true)
    (o := 0xc0) (by decide) hpc
    (commonsReg_worked (by decide) (fun a ha => rg_setFlag_ne _ ha) rfl) rfl rfl
  have hstat := hrg (CMN_STAT r) (commonsReg_plain (r := r) (o := 0xc0) (by decide)).2.1 (commonsReg_not_score (by decide))
  have hbase := hrg (CMN_OWN r b) (commonsReg_plain (r := r) hbank).2.1 (commonsReg_not_score hbank)
  have hne : CMN_OWN r b ≠ CMN_STAT r := by
    have := Nat.mod_lt (dCh x) (show 0 < 16 by decide)
    unfold CMN_OWN CMN_STAT
    omega
  rw [runs_iff (exec_own r s), opOwn_eq h hb hport, hwrite]
  refine ⟨hwent, ?_, (flag_congr 1 hstat).trans (flag_setFlag_same _ (by decide)), hgen, hkeeps⟩
  exact (fld_congr 0 4 (hbase.trans (rg_setFlag_ne _ hne))).trans (bankOwner_seen s.dev r b x false)

/-! ### SIGNAL (R402) -/

/-- The registers of an arrival at the S-core's Tocsin. -/
def TocsinReg (r a : Nat) : Prop :=
  BookReg a ∨ (0x10000 ≤ a ∧ a < 0x20000) ∨ (slotBase r 0x11 + 0x4000 ≤ a ∧ a < slotBase r 0x11 + 0x5000)

theorem tocsinReg_holds (hr : r < 16) : HoldsTocsin (TocsinReg r) (272 + r) := by
  refine ⟨fun h => absurd h (by omega), fun _ => .inl, fun o ho => .inr (.inr ?_), fun _ hlo hhi => .inr (.inl ⟨hlo, hhi⟩)⟩
  unfold tocBase
  rw [if_neg (by omega), if_neg (by omega), if_pos (by omega), Nat.add_sub_cancel_left]
  omega

/-- None of them is among the S-core's registers below its Tocsin. -/
theorem tocsinReg_not_score {a : Nat} (h : slotBase r 0x11 ≤ a ∧ a < slotBase r 0x11 + 0x4000) : ¬ TocsinReg r a := by
  rintro (hb | hd | hs)
  · have := bookReg_low hb
    unfold slotBase at h
    omega
  · unfold slotBase at h
    omega
  · omega

theorem tocsinReg_noted {a : Nat} (h : TocsinReg r a) : NoteReg a ∨ ScoreReg r a := by
  obtain hb | hd | hs := h
  · exact .inr (.inl hb)
  · exact .inl (.inr (.inl hd))
  · refine .inr (.inr (.inl ?_))
    unfold slotBase at *
    omega

/-- An arrival at the Tocsin of an S-core that runs does not start it. -/
theorem signal_arrives (hr : r < 16) (hrun : d.seqState r = 1) (part d0 d1 : Nat) :
    Signals (TocsinReg r) d (d.tocArrive (272 + r) 3 part d0 d1 true) := by
  refine tocArrive_signals d (tocsinReg_holds hr) (by decide) part d0 d1 true fun e he hhalted => ?_
  have hregion : tocRegion (272 + r) = r := by
    unfold tocRegion
    rw [if_neg (by omega)]
    omega
  rw [hregion] at hhalted
  have hstate : e.fld (SEQ_STAT r) 0 2 = 1 := (fld_congr 0 2 (he.rg _ (tocsinReg_not_score (by unfold SEQ_STAT; omega)))).trans hrun
  omega

theorem signal_runs (s : State) {x : List Byte} (h : AtDesc s.dev r 26 x) (hpc : s.dev.seqPc r + 1 < 4096) :
    Runs (.signal r) s (fun e => WentTo s.dev e r (s.dev.seqPc r + 1) ∧ (∀ k, k < 16 → e.greg r k = s.dev.greg r k) ∧
      RegKeeps s.dev e (fun a => NoteReg a ∨ ScoreReg r a) ∧ SameMem s.dev e) := by
  have hr : r < 16 := h.1
  have hseen := descSeen_trace s.dev r x
  have hrun : (s.dev.descSeen r x).seqState r = 1 :=
    (fld_congr 0 2 (descSeen_rg_slot s.dev r x (by unfold SEQ_STAT slotBase; omega))).trans (atDesc_running h)
  have harrive := signal_arrives hr hrun (((s.dev.descSeen r x).regPart r).getD 0) (dImm x) ((s.dev.descSeen r x).greg r (dGd x))
  have hwork : Worked (TocsinReg r) r (s.dev.descSeen r x) ((s.dev.descSeen r x).tocArrive (272 + r) 3
      (((s.dev.descSeen r x).regPart r).getD 0) (dImm x) ((s.dev.descSeen r x).greg r (dGd x)) true) := by
    refine ⟨harrive.rg, fun a hs => tocsinReg_not_score ?_, by unfold Dev.score; rw [harrive.scores]⟩
    unfold StepReg SEQ_DESC_LO SEQ_PC SEQ_STAT at hs
    omega
  have hall := (descSeen_worked s.dev r r x).trans hwork
  rw [runs_iff (exec_signal r s), show s.dev.opSignal r = _ from desc_at h _]
  refine ⟨hall.wentTo hpc, fun k hk => ?_, fun a ha hf => (hall.regKeeps hpc) a (fun hin => ha ?_) hf, fun a => ?_⟩
  · obtain ⟨hbook, hbook'⟩ := general_not_book (r := r) (k := k)
    rw [greg_seqNext_finish (by rw [hall.seqPc]; exact hpc)]
    refine greg_worked hall (fun hin => hin.elim hbook (tocsinReg_not_score ?_)) (fun hin => hin.elim hbook' (tocsinReg_not_score ?_))
    · unfold SEQ_Gi_LO
      omega
    · unfold SEQ_Gi_LO
      omega
  · obtain hs | hb | ht := hin
    · exact .inr hs
    · exact .inr (.inl hb)
    · exact tocsinReg_noted ht
  · have hsame := (seqNext_steps ((s.dev.descSeen r x).tocArrive (272 + r) 3 (((s.dev.descSeen r x).regPart r).getD 0) (dImm x)
      ((s.dev.descSeen r x).greg r (dGd x)) true) (r := r) (by rw [hall.seqPc]; omega)).unscored
    rw [finish_mem]
    exact congrArg (fun m : Memory => m.read a) ((congrArg Dev.mem hsame :).trans (harrive.mem.trans (desk_mem hseen.desk)))

end Sys2Proof.Machine
end

section
/-! SUPPORT. CKPT and MODSET (R326, R349, R352, R402). -/

namespace Sys2Proof.Machine

open Sys2Proof

theorem exec_ckpt (r : Nat) (s : State) : exec (.ckpt r) s = s.run (·.opCkpt r) := rfl
theorem exec_modset (r : Nat) (s : State) : exec (.modset r) s = s.run (·.opModset r) := rfl

variable {d e : Dev} {r : Nat}

/-! ### What the trace record of a descriptor leaves (R336, R349) -/

/-- The books are none of the registers that the sites rest on. -/
theorem BookKeeps.sitesOf (h : BookKeeps d e) (p : Nat) : e.sitesOf p = d.sitesOf p := by
  refine sitesOf_congr (fun r hr => h.rg _ fun hb => (bookReg_not_owner hb).2.1 ?_) (fun n _ => h.rg _ fun hb => ?_) p
  · unfold CAL_REGPART
    omega
  · have := bookReg_low hb
    unfold FAB_REMAP slotBase at this
    omega

theorem BookKeeps.slot (h : BookKeeps d e) {a : Nat} (ha : 0x10000000 ≤ a) : e.rg a = d.rg a :=
  h.rg a fun hb => Nat.lt_irrefl _ (Nat.lt_of_lt_of_le (bookReg_low hb) ha)

theorem BookKeeps.regPart (h : BookKeeps d e) (hr : r < 16) : e.regPart r = d.regPart r :=
  regPart_congr (h.rg _ fun hb => (bookReg_not_owner hb).2.1 (by unfold CAL_REGPART; omega))

theorem BookKeeps.seqDesc (h : BookKeeps d e) (r : Nat) : e.seqDesc r = d.seqDesc r := by
  have hpc : e.seqPc r = d.seqPc r := fld_congr _ _ (h.slot (by unfold SEQ_PC slotBase; omega))
  unfold Dev.seqDesc Dev.progAt Dev.score
  rw [hpc, desk_scores h.desk]

/-- Whether a harvest or a TEND is under way rests on none of the books. -/
theorem BookKeeps.harvestOn (h : BookKeeps d e) (p : Nat) : e.harvestOn p = d.harvestOn p := by
  have hregions : e.regionsOf p = d.regionsOf p := List.filter_congr fun r hr => by
    unfold Dev.owns
    rw [h.regPart (mem_upTo hr)]
  have hstate : ∀ r, e.seqState r = d.seqState r := fun r => fld_congr _ _ (h.slot (by unfold SEQ_STAT slotBase; omega))
  have hflag : ∀ q, e.flag (HRV_STAT q) 0 = d.flag (HRV_STAT q) 0 := fun q =>
    flag_congr 0 (h.slot (Nat.le_trans (nBase_slot q) (by unfold HRV_STAT; omega)))
  unfold Dev.harvestOn Dev.tendOn
  simp only [h.sitesOf p, hregions, hstate, hflag, h.seqDesc]

/-! ### CKPT (R349, R352) -/

/-- The header of the CKPT_NOW of an S-core. -/
def ckptHdr (r p : Nat) : Hdr := { func := 0x100 + r, units := 1, part := p, tag := 0, seq := 0, flags := 0, rsvd := 0, port := 0 }

/-- The command of an S-core waits for the copy's end. -/
def Dev.ckptWaits (d : Dev) (r p : Nat) : Dev :=
  { d with car := { d.car with waiting := d.car.waiting ++ [{ opcode := 0x0708, names := true, ro := false, hdr := ckptHdr r p, pl := [],
                                                              what := .ckpt }] } }

theorem opCkpt_eq {x : List Byte} {p : Nat} {c : Ckpt} (h : AtDesc d r 21 x) (hpart : (d.descSeen r x).regPart r = some p)
    (hask : (d.descSeen r x).ckptAsk p = ((d.descSeen r x).setCkpt p c, none)) :
    d.opCkpt r = (((d.descSeen r x).setCkpt p c).ckptWaits r p).seqWait r 7 := by
  refine (desc_at h _).trans ?_
  rw [hpart]
  dsimp only
  rw [hask]
  rfl

theorem ckpt_runs (s : State) {x : List Byte} {p : Nat} (h : AtDesc s.dev r 21 x) (hpart : s.dev.regPart r = some p)
    (hon : s.dev.harvestOn p = false) (hmuted : s.dev.muted p = false) (hcopy : (s.dev.part p).ckpt.copy = none)
    (hflags : (s.dev.part p).ckpt.flags % 4 = 2) :
    Runs (.ckpt r) s (fun e => WaitsAt s.dev e r 7 ∧ (e.part p).ckpt.copy.map Prod.snd = some ((s.dev.part p).ckpt.seq + 1) ∧
      (e.part p).ckpt.toHost = true ∧ e.car.waiting.length = s.dev.car.waiting.length + 1 ∧
      (∀ k, k < 16 → e.greg r k = s.dev.greg r k) ∧ Keeps s.dev e (fun a => ScoreReg r a)) := by
  have hr : r < 16 := h.1
  have hp := regPart_lt hpart
  have hseen := descSeen_trace s.dev r x
  have hbook := hseen.book
  have hsame : (s.dev.descSeen r x).part p = s.dev.part p := by
    unfold Dev.part
    rw [desk_parts hseen.desk]
  have hkeep : bitAt (s.dev.part p).ckpt.flags 0 = false := Bool.eq_false_iff.2 fun h0 => by
    have := (bitAt_zero _).1 h0
    omega
  have hhost : bitAt (s.dev.part p).ckpt.flags 1 = true := (bitAt_one _).2 (by omega)
  have hclear : (s.dev.descSeen r x).muted p = false := by
    have hrg : (s.dev.descSeen r x).rg (FLT_PMUTE p) = s.dev.rg (FLT_PMUTE p) :=
      hbook.rg _ fun hb => (bookReg_not_owner hb).1 (by unfold FLT_PMUTE; omega)
    unfold Dev.muted at *
    rw [fld_congr 0 8 hrg]
    exact hmuted
  have hask := ckptAsk_eq (d := s.dev.descSeen r x) (p := p) (keep := false) (host := true) ((hbook.harvestOn p).trans hon)
    (by rw [hsame]; exact hcopy) (by rw [hsame]; exact hkeep) (by rw [hsame]; exact hhost) (.inr rfl)
    (fun hf => absurd hf (by decide)) hclear (fun hf => absurd hf (by decide))
  obtain ⟨hnumber, hto, -⟩ := ckptCopying_shows (s.dev.descSeen r x) p false true
  have hring := ckpt_setCkpt (s.dev.descSeen r x) p ((s.dev.descSeen r x).ckptCopying p false true)
  rw [runs_iff (exec_ckpt r s), opCkpt_eq h ((hbook.regPart hr).trans hpart) hask]
  generalize (s.dev.descSeen r x).ckptCopying p false true = c at *
  have hregs : ∀ a, a ≠ SEQ_STAT r →
      ((((s.dev.descSeen r x).setCkpt p c).ckptWaits r p).seqWait r 7).rg a = (s.dev.descSeen r x).rg a :=
    fun a ha => rg_seqWait_ne (((s.dev.descSeen r x).setCkpt p c).ckptWaits r p) 7 ha
  have hpart' : ((((s.dev.descSeen r x).setCkpt p c).ckptWaits r p).seqWait r 7).finish.part p =
      ((s.dev.descSeen r x).setCkpt p c).part p :=
    finish_part ..
  rw [hpart', hring]
  refine ⟨seqWait_waitsAt (e := ((s.dev.descSeen r x).setCkpt p c).ckptWaits r p) (descSeen_worked s.dev r r x).seqPc (by decide),
    ?_, hto, ?_, fun k _ => ?_, fun a ha hf => ?_, fun a => ?_, ?_⟩
  · rw [hnumber, hsame]
  · rw [finish_car]
    show (((s.dev.descSeen r x).car.waiting ++ [_] : List Waiting)).length = _
    rw [List.length_append, hseen.car]
    rfl
  · have hslot := general_slot (r := r) k
    have hne : SEQ_Gi_LO r k ≠ SEQ_STAT r ∧ SEQ_Gi_LO r k + 4 ≠ SEQ_STAT r := by
      unfold SEQ_Gi_LO SEQ_STAT
      omega
    refine (rg64_congr ?_ ?_).trans (descSeen_greg s.dev r r k x)
    · exact (rg_finish_slot _ hslot).trans (hregs _ hne.1)
    · exact (rg_finish_slot _ (by omega)).trans (hregs _ hne.2)
  · refine (rg_finish _ hf).trans ((hregs a fun he => ha ?_).trans (hbook.rg a fun hb => ha (.inl hb)))
    exact StepReg.scoreReg (.inr (.inr (.inr he)))
  · rw [finish_mem]
    exact congrArg (fun m : Memory => m.read a)
      (show ((((s.dev.descSeen r x).setCkpt p c).ckptWaits r p).seqWait r 7).mem = s.dev.mem from (desk_mem hseen.desk :))
  · rw [finish_ecc]
    exact (show ((((s.dev.descSeen r x).setCkpt p c).ckptWaits r p).seqWait r 7).ecc = s.dev.ecc from (desk_ecc hseen.desk :))

/-! ### A write of a core's register by the S-core (R42, R52, R53) -/

/-- Whether the S-core may write a register of a slot rests on the owners, the levels of the domains, the part record and the bridge. -/
theorem writeOk_congr {a : Nat} (hr : r < 16) (ha : 0x10000000 ≤ a) (hcar : e.car = d.car)
    (hrg : ∀ b, b < 0x10000000 → ¬ BookReg b → e.rg b = d.rg b) (h : WriteOk d (.score r) a) : WriteOk e (.score r) a := by
  obtain ⟨hlisted, hreach, hdead, hcut, hcarillon⟩ := h
  have hlow : a < 0x20000000 := by
    unfold regListed at hlisted
    rw [if_neg (by omega)] at hlisted
    simp only [Bool.and_eq_true, decide_eq_true_eq] at hlisted
    exact hlisted.1
  have hin : ¬ (decide (a < 0x10000000) || decide (0x20000000 ≤ a)) = true := by
    rw [Bool.or_eq_true, decide_eq_true_eq, decide_eq_true_eq]
    omega
  have howner : ∀ j, j < 16 → e.regPart j = d.regPart j := fun j hj =>
    regPart_congr (hrg _ (by unfold CAL_REGPART; omega) fun hb => (bookReg_not_owner hb).2.1 (by unfold CAL_REGPART; omega))
  have hlevel : ∀ x, x < 120 → e.domLevel x = d.domLevel x := fun x hx =>
    fld_congr _ _ (hrg _ (by unfold PWR_DSTAT; omega) fun hb => (bookReg_not_owner hb).1 (by unfold PWR_DSTAT; omega))
  have hbridge : e.flag FLT_STAT 4 = d.flag FLT_STAT 4 :=
    flag_congr 4 (hrg _ (by decide) fun hb => (bookReg_not_owner hb).1 (by decide))
  have hrights : e.rights (.score r) = d.rights (.score r) := by
    unfold Dev.rights
    dsimp only
    rw [howner r hr]
  have hsees : ∀ p, e.sees p a = d.sees p a := fun p => by
    unfold Dev.sees Dev.owns
    rw [if_pos ha, if_pos ha, howner _ (by omega)]
  refine ⟨hlisted, ?_, ?_, ?_, hcarillon⟩
  · rw [← hreach]
    unfold Dev.reachesW Dev.reaches
    rw [hrights]
    cases d.rights (.score r) <;> simp only [hsees]
  · rw [← hdead]
    unfold Dev.regDead Dev.siteGood domOf
    dsimp only
    rw [if_neg hin, if_neg hin]
    split
    · rw [hcar, hlevel _ (by omega)]
    · split
      · rw [hcar, hlevel _ (by omega)]
      · split
        · rw [hcar, hlevel _ (by omega)]
        · rfl
  · rw [← hcut]
    unfold Dev.cutOff
    rw [hbridge]

/-! ### MODSET (R326, R354) -/

/-- What a write leaves in a register that has no bits cleared by writing 1: its RW bits as written, the others as they were. -/
theorem testBit_regNew {a : Nat} {x : RegRow} (hx : regRow a = some x) (hw : x.w1c = 0) (v k : Nat) :
    (d.regNew a v).testBit k = if x.rw.testBit k then v.testBit k else (d.rg a).testBit k := by
  unfold Dev.regNew
  rw [hx]
  dsimp only
  rw [hw, Nat.and_zero, Nat.xor_zero, Nat.testBit_xor, Nat.testBit_xor, Nat.testBit_and, Nat.testBit_and]
  cases x.rw.testBit k <;> cases (d.rg a).testBit k <;> simp

/-- Of HRV_MODNEXT the value, the mark and the beat are RW (R354). -/
theorem regRow_modnext : ∀ q, q < 256 → (regRow (HRV_MODNEXT q)).map (fun x => (x.rw, x.w1c)) = some (0xFFFF80FF, 0) := by
  decide +kernel

/-- A field of RW bits reads as it was written. -/
theorem bitsOf_regNew {a : Nat} {x : RegRow} (hx : regRow a = some x) (hw : x.w1c = 0) (v lo n : Nat)
    (hrw : ∀ k, k < n → x.rw.testBit (lo + k) = true) : bitsOf (d.regNew a v) lo n = bitsOf v lo n := by
  refine Nat.eq_of_testBit_eq fun k => ?_
  unfold bitsOf
  rw [Nat.testBit_mod_two_pow, Nat.testBit_mod_two_pow, Nat.testBit_div_two_pow, Nat.testBit_div_two_pow]
  by_cases hk : k < n
  · rw [Nat.add_comm, testBit_regNew hx hw, if_pos (hrw k hk)]
  · simp [hk]

/-- The value MODSET writes: the beat, the mark and the value. -/
def modWord (g v : Nat) : Nat := g % 65536 * 65536 + 32768 + v % 256

theorem modWord_lt (g v : Nat) : modWord g v < 2 ^ 32 := by
  unfold modWord
  omega

/-- HRV_MODNEXT of a site shows an armed value (R354). -/
def ModShows (d : Dev) (q g v : Nat) : Prop :=
  d.fld (HRV_MODNEXT q) 0 8 = v % 256 ∧ d.flag (HRV_MODNEXT q) 15 = true ∧ d.fld (HRV_MODNEXT q) 16 16 = g % 65536

theorem modShows_congr {q g v : Nat} (h : e.rg (HRV_MODNEXT q) = d.rg (HRV_MODNEXT q)) (hd : ModShows d q g v) : ModShows e q g v := by
  obtain ⟨hv, hmark, hg⟩ := hd
  exact ⟨(fld_congr 0 8 h).trans hv, (flag_congr 15 h).trans hmark, (fld_congr 16 16 h).trans hg⟩

theorem modShows_regSet {q : Nat} (hq : q < 256) (g v : Nat) : ModShows (d.regSet (HRV_MODNEXT q) (modWord g v)) q g v := by
  have hmap := regRow_modnext q hq
  obtain ⟨x, hx⟩ : ∃ x, regRow (HRV_MODNEXT q) = some x := by
    cases hrow : regRow (HRV_MODNEXT q) with
    | none => simp [hrow] at hmap
    | some x => exact ⟨x, rfl⟩
  rw [hx] at hmap
  obtain ⟨hrw, hw⟩ := Prod.mk.inj (Option.some.inj hmap)
  have hbits : ∀ lo n, lo + n ≤ 32 → (∀ k, k < n → x.rw.testBit (lo + k) = true) →
      (d.regSet (HRV_MODNEXT q) (modWord g v)).fld (HRV_MODNEXT q) lo n = bitsOf (modWord g v) lo n := fun lo n hle hk => by
    have := bitsOf_regNew (d := d) hx hw (modWord g v) lo n hk
    unfold Dev.fld Dev.regSet
    rw [rg_setR_same, ← this]
    exact bitsOf_mod _ _ _ _ hle
  refine ⟨?_, ?_, ?_⟩
  · rw [hbits 0 8 (by decide) (by rw [hrw]; decide)]
    unfold bitsOf modWord
    omega
  · rw [flag_eq, hbits 15 1 (by decide) (by rw [hrw]; decide), beq_iff_eq]
    unfold bitsOf modWord
    omega
  · rw [hbits 16 16 (by decide) (by rw [hrw]; decide)]
    unfold bitsOf modWord
    omega

/-- A write of HRV_MODNEXT by the S-core sets its RW bits. -/
theorem modWrite_eq {v : Nat} (hv : v % 2 ^ 32 = v) {q : Nat} (hq : q < 256) (hwrite : WriteOk d (.score r) (HRV_MODNEXT q)) :
    d.regWrite (.score r) (HRV_MODNEXT q) v = d.regSet (HRV_MODNEXT q) v := by
  have hplace : HRV_MODNEXT q = slotBase (q / 16) (q % 16) + 0x301c := by
    unfold HRV_MODNEXT nBase
    omega
  rw [regWrite_ok d v hwrite, hv, hplace]
  refine regPut_ncore d (.score r) v (by omega) (by omega) (by decide) (.inl (by decide)) (by decide) ?_
  unfold HRV_CTL HRV_SEASON HRV_HWIN HRV_SEED nBase slotBase
  omega

theorem modNext_slot (q : Nat) : 0x10000000 ≤ HRV_MODNEXT q := Nat.le_trans (nBase_slot q) (by unfold HRV_MODNEXT; omega)

/-- The cores of the region take their registers as the S-core's writes would have them. -/
theorem modWalk_eq (hr : r < 16) {v : Nat} (hv : v % 2 ^ 32 = v) (l : List (Nat × Nat)) :
    ∀ d : Dev, (∀ c, c ∈ l → c.2 < 256 ∧ WriteOk d (.score r) (HRV_MODNEXT c.2)) →
    d.forEach l (fun d c => d.regWrite (.score r) (HRV_MODNEXT c.2) v) = d.forEach l (fun d c => d.regSet (HRV_MODNEXT c.2) v) := by
  induction l with
  | nil =>
    intro d _
    unfold Dev.forEach
    rw [List.foldl_nil, List.foldl_nil]
  | cons c l ih =>
    intro d hok
    obtain ⟨hq, hwrite⟩ := hok c (List.mem_cons_self ..)
    have hrest := ih (d.regSet (HRV_MODNEXT c.2) v) fun k hk => by
      obtain ⟨hkq, hkw⟩ := hok k (List.mem_cons_of_mem _ hk)
      have hslot := modNext_slot c.2
      exact ⟨hkq, writeOk_congr (d := d) (e := d.regSet (HRV_MODNEXT c.2) v) hr (modNext_slot k.2) rfl
        (fun b hb _ => rg_setR_ne d (by omega)) hkw⟩
    unfold Dev.forEach at hrest ⊢
    rw [List.foldl_cons, List.foldl_cons, modWrite_eq hv hq hwrite, hrest]

/-- MODSET's write at one core. -/
def Dev.modArm (g v : Nat) (d : Dev) (c : Nat × Nat) : Dev := d.regSet (HRV_MODNEXT c.2) (modWord g v)

theorem modArm_shows (g v : Nat) (d : Dev) {x y : Nat × Nat} (he : y.2 = x.2) (hy : y.2 < 256) : ModShows (d.modArm g v x) y.2 g v := by
  unfold Dev.modArm
  rw [he]
  exact modShows_regSet (he ▸ hy) g v

theorem rg_modArm_ne (g v : Nat) (d : Dev) {x : Nat × Nat} {a : Nat} (h : a ≠ HRV_MODNEXT x.2) : (d.modArm g v x).rg a = d.rg a :=
  rg_setR_ne d h

/-- Every core of the list shows the armed value. -/
theorem modWalk_shows (g v : Nat) (l : List (Nat × Nat)) (d : Dev) (c : Nat × Nat) (hc : c ∈ l) :
    c.2 < 256 → ModShows (d.forEach l (Dev.modArm g v)) c.2 g v := by
  refine forEach_each (P := fun e c => c.2 < 256 → ModShows e c.2 g v) (fun d x => modArm_shows g v d rfl) (fun d x y _ h hy => ?_)
    l d c hc
  by_cases he : y.2 = x.2
  · exact modArm_shows g v d he hy
  · refine modShows_congr (rg_modArm_ne g v d fun hreg => he (nBase_inj ?_)) (h hy)
    unfold HRV_MODNEXT at hreg
    omega

theorem opModset_eq {x : List Byte} (h : AtDesc d r 22 x)
    (hok : ∀ c, c ∈ d.coresOf r → c.2 < 256 ∧ WriteOk d (.score r) (HRV_MODNEXT c.2)) :
    d.opModset r = ((d.descSeen r x).forEach (d.coresOf r) (Dev.modArm (d.greg r (dGd x)) (d.greg r (dGs x)))).seqNext r := by
  have hseen := descSeen_trace d r x
  have hcores : (d.descSeen r x).coresOf r = d.coresOf r := coresOf_congr fun a => descSeen_rg_slot d r x
  refine (desc_at h _).trans ?_
  dsimp only
  rw [descSeen_greg, descSeen_greg, hcores]
  have hword := modWord_lt (d.greg r (dGd x)) (d.greg r (dGs x))
  have hwalk := modWalk_eq h.1 (Nat.mod_eq_of_lt hword) (d.coresOf r) (d.descSeen r x) fun c hc => ?_
  · exact congrArg (fun e : Dev => e.seqNext r) hwalk
  obtain ⟨hq, hw⟩ := hok c hc
  exact ⟨hq, writeOk_congr (d := d) (e := d.descSeen r x) h.1 (modNext_slot c.2) hseen.car
    (fun b _ hb => hseen.book.rg b hb) hw⟩

/-- The registers MODSET writes are the cores'. -/
theorem modReg_core {q a : Nat} (ha : a = HRV_MODNEXT q) : ¬ ScoreReg r a ∧ ¬ StepReg r a ∧
    ∀ k, k < 16 → a ≠ SEQ_Gi_LO r k ∧ a ≠ SEQ_Gi_LO r k + 4 := by
  have hslot : 0x10000000 ≤ a := ha ▸ modNext_slot q
  unfold HRV_MODNEXT nBase slotBase at ha
  refine ⟨?_, fun hs => ?_, fun k hk => by unfold SEQ_Gi_LO slotBase; omega⟩
  · rintro (hb | hs | hlo | hhi)
    · have := bookReg_low hb
      omega
    · unfold slotBase at hs
      omega
    · unfold OBS_SBUSY_LO at hlo
      omega
    · unfold OBS_SBUSY_HI at hhi
      omega
  · unfold StepReg SEQ_DESC_LO SEQ_PC SEQ_STAT slotBase at hs
    omega

theorem modset_runs (s : State) {x : List Byte} (h : AtDesc s.dev r 22 x) (hpc : s.dev.seqPc r + 1 < 4096)
    (hok : ∀ c, c ∈ s.dev.coresOf r → c.2 < 256 ∧ WriteOk s.dev (.score r) (HRV_MODNEXT c.2)) :
    Runs (.modset r) s (fun e => WentTo s.dev e r (s.dev.seqPc r + 1) ∧ (∀ c, c ∈ s.dev.coresOf r →
      e.fld (HRV_MODNEXT c.2) 0 8 = s.dev.greg r (dGs x) % 256 ∧ e.flag (HRV_MODNEXT c.2) 15 = true ∧
      e.fld (HRV_MODNEXT c.2) 16 16 = s.dev.greg r (dGd x) % 65536) ∧ (∀ k, k < 16 → e.greg r k = s.dev.greg r k) ∧
      Keeps s.dev e (fun a => ScoreReg r a ∨ ∃ q, q < 256 ∧ a = HRV_MODNEXT q)) := by
  rw [runs_iff (exec_modset r s), opModset_eq h hok]
  have hseen := descSeen_trace s.dev r x
  generalize s.dev.greg r (dGd x) = g, s.dev.greg r (dGs x) = v
  have hshows := modWalk_shows g v (s.dev.coresOf r) (s.dev.descSeen r x)
  have hregs := forEach_regs (f := Dev.modArm g v) (fun d c => ⟨_, rfl⟩) (s.dev.descSeen r x) (s.dev.coresOf r)
  have hrg : ∀ a, ¬ (∃ q, q < 256 ∧ a = HRV_MODNEXT q) →
      ((s.dev.descSeen r x).forEach (s.dev.coresOf r) (Dev.modArm g v)).rg a = (s.dev.descSeen r x).rg a := fun a ha =>
    forEach_keeps_mem (fun e => e.rg a) _ _ (fun d c hc => rg_modArm_ne _ _ d fun he => ha ⟨c.2, (hok c hc).1, he⟩) _
  generalize (s.dev.descSeen r x).forEach (s.dev.coresOf r) _ = e at *
  obtain ⟨regs, hregs⟩ := hregs
  have hwork : Worked (fun a => ∃ q, q < 256 ∧ a = HRV_MODNEXT q) r (s.dev.descSeen r x) e :=
    ⟨hrg, fun a hs ⟨_, _, ha⟩ => (modReg_core ha).2.1 hs, by rw [hregs]; rfl⟩
  have hall := (descSeen_worked s.dev r r x).trans hwork
  have hpc' : e.seqPc r + 1 < 4096 := by
    rw [hall.seqPc]
    exact hpc
  refine ⟨hall.wentTo hpc, fun c hc => ?_, fun k hk => ?_, keeps_mono (hall.keeps hpc ?_ ?_) fun a ha => ?_⟩
  · have hq := (hok c hc).1
    obtain ⟨-, hstep, -⟩ := modReg_core (r := r) (q := _) rfl
    exact modShows_congr (rg_seqNext_finish hpc' (modNext_slot c.2) hstep) (hshows c hc hq)
  · obtain ⟨hbook, hbook'⟩ := general_not_book (r := r) (k := k)
    rw [greg_seqNext_finish hpc']
    exact greg_worked hall (fun hin => hin.elim hbook fun ⟨_, _, ha⟩ => ((modReg_core (r := r) (q := _) rfl).2.2 k hk).1 ha.symm)
      (fun hin => hin.elim hbook' fun ⟨_, _, ha⟩ => ((modReg_core (r := r) (q := _) rfl).2.2 k hk).2 ha.symm)
  · rw [hregs]
    exact desk_mem hseen.desk
  · rw [hregs]
    exact desk_ecc hseen.desk
  · exact ha.elim .inl fun hin => hin.elim (fun hb => .inl (.inl hb)) .inr

end Sys2Proof.Machine
end

section
/-! SUPPORT. What the work of a TEND leaves as it was: the S-cores, and a store without an error (R338 to R343). -/

namespace Sys2Proof.Machine

open Sys2Proof

/-- The registers of the S-cores' blocks, the owners of the regions and of the Commons' banks, and the faults' summary. -/
def TendFixed (a : Nat) : Prop :=
  (0x10000000 ≤ a ∧ (a / 0x10000 % 0x100 = 0x11 ∨ (a / 0x10000 % 0x100 = 0x21 ∧ a % 0x10000 < 0x40))) ∨ a = FLT_STAT ∨
    (0xE0000 ≤ a ∧ a < 0xF0000)

/-- No word of the memory has an error. -/
def NoErr (d : Dev) : Prop := ∀ w, SMap.get 0 d.ecc w = 0

/-- The S-cores and what they rest on are as they were, and no word of the memory has come to have an error. -/
structure Tended (d e : Dev) : Prop where
  rg     : ∀ a, TendFixed a → e.rg a = d.rg a
  scores : e.scores = d.scores
  clean  : NoErr e

variable {d e : Dev} {q : Nat}

/-! ### Places -/

theorem storeReg_not_fixed {a : Nat} (h : StoreReg q a) : ¬ TendFixed a := by
  unfold StoreReg SYN_ECCCORR SYN_ECCUNC SYN_STAT nBase slotBase at h
  unfold TendFixed FLT_STAT
  omega

theorem commonsReg_not_fixed {r o : Nat} (hlo : 0x40 ≤ o) (ho : o < 0x10000) : ¬ TendFixed (slotBase r 0x21 + o) := by
  unfold TendFixed FLT_STAT slotBase
  omega

theorem logReg_not_fixed {a : Nat} (h : LogReg a) : ¬ TendFixed a := fun hs => by
  unfold TendFixed FLT_STAT at hs
  obtain hb | hlow | hlow := h
  · have := bookReg_low hb
    have := bookReg_not_owner hb
    omega
  · omega
  · omega

theorem NoErr.of_nil (h : d.ecc = []) : NoErr d := fun w => by rw [h]; rfl

theorem NoErr.setZero {d e : Dev} (h : NoErr d) {k : Nat} (he : e.ecc = SMap.set 0 d.ecc k 0) : NoErr e := fun w => by
  rw [he, SMap.get_set]
  split
  · rfl
  · exact h w

/-! ### Writes -/

theorem Tended.refl (h : NoErr d) : Tended d d := ⟨fun _ _ => rfl, rfl, h⟩
theorem Tended.trans {f : Dev} (h : Tended d e) (g : Tended e f) : Tended d f :=
  ⟨fun a ha => (g.rg a ha).trans (h.rg a ha), g.scores.trans h.scores, g.clean⟩

theorem csWriteWord_noErr (a : Nat) (l : List Byte) (h : NoErr d) : NoErr (d.csWriteWord q a l) := by
  unfold Dev.csWriteWord
  dsimp only
  split
  · exact h.setZero rfl
  · rw [h, if_neg (by decide), if_neg (by decide)]
    exact h

theorem csWrite_noErr : ∀ (fuel a : Nat) (l : List Byte) (d : Dev), NoErr d → NoErr (d.csWrite q a l fuel)
  | 0, _, _, _, h => h
  | fuel + 1, a, l, d, h => by
    unfold Dev.csWrite
    split
    · exact h
    · exact csWrite_noErr fuel _ _ _ (csWriteWord_noErr a _ h)

theorem cmnWr_noErr (a : Nat) (l : List Byte) (h : NoErr d) : NoErr (d.cmnWr a l) := by
  unfold Dev.cmnWr
  refine forEach_inv NoErr _ (fun e k he => ?_) _ _ h
  dsimp only
  split
  · exact he.setZero rfl
  · exact he

theorem slim_scores (h : e.slim = d.slim) : e.scores = d.scores := (congrArg Dev.scores h :)

theorem tended_tdWrite (a : Nat) (l : List Byte) (h : NoErr d) : Tended d (d.tdWrite q a l) := by
  have hw := csWrite_writes q l.length a l d (Nat.le_refl _)
  exact ⟨fun b hb => hw.rg b fun hs => storeReg_not_fixed hs hb, slim_scores hw.slim, csWrite_noErr _ _ _ _ h⟩

theorem tended_wordsWrite (a : Nat) (l : List Byte) (h : NoErr d) : Tended d (d.wordsWrite a l) := by
  obtain ⟨-, hslim, hregs⟩ := cmnWr_writes d a l
  refine ⟨fun b _ => ?_, slim_scores hslim, cmnWr_noErr a l h⟩
  unfold Dev.rg
  rw [show (d.wordsWrite a l).regs = d.regs from hregs]

/-! ### Reads: where no word has an error, they change nothing -/

theorem revWord_same (w : Nat) (h : NoErr d) : ∃ o, d.revWord q w = (d, o) := by
  unfold Dev.revWord
  split
  · exact ⟨_, rfl⟩
  · dsimp only
    rw [h]
    exact ⟨_, rfl⟩

theorem revDir_same (i : Nat) (h : NoErr d) : ∃ o, d.revDir q i = (d, o) := by
  unfold Dev.revDir
  split
  · exact ⟨_, rfl⟩
  · exact revWord_same i h

theorem revFind_same (ra l n : Nat) (h : NoErr d) : ∀ w, ∃ o, Dev.revFind q ra l n w d = (d, o) := by
  induction n with
  | zero => exact fun _ => ⟨_, rfl⟩
  | succ n ih =>
    intro w
    obtain ⟨o, ho⟩ := revWord_same (q := q) w h
    unfold Dev.revFind
    rw [ho]
    cases o with
    | none => exact ih (w + 1)
    | some x =>
      dsimp only
      split
      · exact ⟨_, rfl⟩
      · exact ih (w + 1)

theorem revLimit_same (i : Nat) (h : NoErr d) : (d.revLimit q i).1 = d := by
  obtain ⟨o, ho⟩ := revDir_same (q := q) (i + 1) h
  unfold Dev.revLimit
  rw [ho]
  cases o <;> rfl

theorem revRoom_same (i : Nat) (h : NoErr d) : ∃ o, d.revRoom q i = (d, o) := by
  obtain ⟨o, ho⟩ := revDir_same (q := q) i h
  unfold Dev.revRoom
  rw [ho]
  cases o with
  | none => exact ⟨_, rfl⟩
  | some x => exact ⟨_, Prod.ext (revLimit_same i h) rfl⟩

theorem scrubs_same (h : NoErr d) (l : List Nat) : d.forEach l (fun d w => d.scrubAt q w) = d :=
  forEach_inv (· = d) _ (fun _ _ he => he ▸ scrubAt_clean d q (h _)) l d rfl

theorem sppRow_same (ra : Nat) (dead : Bool) (h : NoErr d) : ∃ o, d.sppRow q ra dead = (d, o) := by
  unfold Dev.sppRow
  split
  · exact ⟨_, rfl⟩
  · split
    · exact ⟨_, rfl⟩
    · dsimp only
      rw [scrubs_same h, scrubs_same h]
      split
      · exact ⟨_, rfl⟩
      · split <;> exact ⟨_, rfl⟩

/-! ### The reverse index -/

theorem tended_revPut (w v : Nat) (h : NoErr d) : Tended d (d.revPut q w v) := tended_tdWrite _ _ h

theorem tended_revPuts (w v w' v' : Nat) (h : NoErr d) : Tended d ((d.revPut q w v).revPut q w' v') :=
  (tended_revPut w v h).trans (tended_revPut w' v' (tended_revPut w v h).clean)

theorem tended_revAppend (i x ra l : Nat) (h : NoErr d) : Tended d (d.revAppend q i x ra l) := tended_revPuts _ _ _ _ h

theorem tended_revRemove (i ra l : Nat) (h : NoErr d) : Tended d (d.revRemove q i ra l) := by
  obtain ⟨dir, hdir⟩ := revDir_same (q := q) i h
  unfold Dev.revRemove
  rw [hdir]
  cases dir with
  | none => exact .refl h
  | some x =>
    obtain ⟨place, hplace⟩ := revFind_same (q := q) ra l (bitsOf x 0 14) h (bitsOf x 14 18)
    dsimp only
    rw [hplace]
    cases place with
    | none => exact .refl h
    | some w =>
      obtain ⟨last, hlast⟩ := revWord_same (q := q) (bitsOf x 14 18 + bitsOf x 0 14 - 1) h
      dsimp only
      rw [hlast]
      cases last with
      | none => exact .refl h
      | some y => exact tended_revPuts _ _ _ _ h

/-! ### Pruning, retirement, growth and revival -/

theorem tended_sppValid (x : PRow) (v : Bool) (h : NoErr d) : Tended d (d.sppValid q x v) := tended_tdWrite _ _ h

theorem tended_axon {t : Tending} (p : Nat) (b word : List Byte) (h : NoErr t.d) : Tended t.d (t.axon p q b word).d := by
  unfold Tending.axon
  dsimp only
  split
  · exact .refl h
  · split
    · exact tended_wordsWrite _ _ h
    · exact .refl h

/-- VALID of a row is written, and its axon entry. -/
theorem tended_turn {t : Tending} (p : Nat) (b word : List Byte) (x : PRow) (v : Bool) (h : NoErr t.d) :
    Tended t.d (({ t with d := t.d.sppValid q x v } : Tending).axon p q b word).d :=
  (tended_sppValid x v h).trans (tended_axon (t := { t with d := t.d.sppValid q x v }) p b word (tended_sppValid x v h).clean)

theorem tended_pruneEntry {t : Tending} (x : PRow) (l : Nat) (h : NoErr t.d) : Tended t.d (t.pruneEntry q x l).d := by
  have hone := tended_tdWrite (q := q) (x.body + 6 * l) (synBytes 6 (slice x.b (6 * l) 6) 0 (x.ent l).delay 0 (x.ent l).age) h
  have htwo := tended_revRemove (q := q) (x.ent l).target x.ra l hone.clean
  exact (hone.trans htwo).trans (tended_tdWrite _ _ htwo.clean)

theorem tended_pruneEntries (x : PRow) : ∀ (ls : List Nat) (t : Tending), NoErr t.d →
    Tended t.d (ls.foldl (fun t l => t.pruneEntry q x l) t).d
  | [], _, h => .refl h
  | l :: ls, _, h => (tended_pruneEntry x l h).trans (tended_pruneEntries x ls _ (tended_pruneEntry x l h).clean)

theorem tended_pruneRow {t : Tending} (p : Nat) (b : List Byte) (x : PRow) (h : NoErr t.d) : Tended t.d (t.pruneRow p q b x).d := by
  unfold Tending.pruneRow
  dsimp only
  generalize (upTo (hdrCount x.h)).filter _ = ls
  have hent := tended_pruneEntries (q := q) x ls t h
  split
  · exact hent.trans (tended_turn p b _ x false hent.clean)
  · exact hent

theorem tended_pruneFrom (p : Nat) (b : List Byte) (fuel : Nat) : ∀ (ra : Nat) (t : Tending), NoErr t.d →
    Tended t.d (Tending.pruneFrom p q b fuel ra t).d := by
  induction fuel with
  | zero => exact fun _ _ h => .refl h
  | succ fuel ih =>
    intro ra t h
    unfold Tending.pruneFrom
    split
    · exact .refl h
    · obtain ⟨row, hrow⟩ := sppRow_same (q := q) ra false h
      rw [hrow]
      cases row with
      | none => exact ih (ra + 1) t h
      | some x =>
        have hx := tended_pruneRow (q := q) p b x h
        exact hx.trans (ih (ra + x.units) (t.pruneRow p q b x) hx.clean)

theorem tended_candidate {t : Tending} (p : Nat) (b : List Byte) (e : Nat) (h : NoErr t.d) : Tended t.d (t.candidate p q b e).d := by
  unfold Tending.candidate
  dsimp only
  split
  · exact .refl h
  · obtain ⟨row, hrow⟩ := sppRow_same (q := q) (e % 2 ^ 17) (tdRevive b) h
    rw [hrow]
    cases row with
    | none => exact .refl h
    | some x =>
      dsimp only
      split
      · exact .refl h
      · split
        · exact .refl h
        · rename_i l _ _
          obtain ⟨dir, hdir⟩ := revRoom_same (q := q) (leAt x.h 0 2 % 32768 + bitsOf e 17 14) h
          rw [hdir]
          cases dir with
          | none => exact .refl h
          | some y =>
            dsimp only
            have hone := tended_tdWrite (q := q) (x.body + 6 * l) (leBytes 6 (bitsOf e 17 14 + 0 * 2 ^ 14 + byteAt b 15 % 16 * 2 ^ 22)) h
            have htwo := hone.trans (tended_revAppend (q := q) (leAt x.h 0 2 % 32768 + bitsOf e 17 14) y (e % 2 ^ 17) l hone.clean)
            have hthree := htwo.trans (tended_tdWrite (q := q) (x.body + 6 * l)
              (leBytes 6 (bitsOf e 17 14 + byteAt b 14 * 2 ^ 14 + byteAt b 15 % 16 * 2 ^ 22)) htwo.clean)
            split
            · exact hthree.trans (tended_turn (t := { t with d := _, grown := t.grown + 1 }) p b _ x true hthree.clean)
            · exact hthree

end Sys2Proof.Machine
end

section
/-! SUPPORT. The accesses of a TEND to its pool and its block (R338, R341, R422, R423), and the rows it works on. -/

namespace Sys2Proof.Machine

open Sys2Proof

variable {d e : Dev} {r : Nat}

/-! ### Reads of the pool -/

theorem Tended.setR (h : NoErr d) {a : Nat} (ha : ¬ TendFixed a) (v : Nat) : Tended d (d.setR a v) :=
  ⟨fun _ hb => rg_setR_ne d fun he => ha (he ▸ hb), rfl, h⟩

theorem tended_addrErr (h : NoErr d) : Tended d d.addrErr := by
  have hlog := addrErr_keeps d
  have hreg : ¬ TendFixed FLT_ADDRERR := by
    unfold TendFixed FLT_ADDRERR FLT_STAT
    omega
  refine (Tended.setR h hreg _).trans
    ⟨fun a ha => hlog.rg a fun hl => logReg_not_fixed hl ha, (congrArg Dev.scores hlog.quiet :), fun w => ?_⟩
  have hecc : d.addrErr.ecc = d.ecc := (congrArg Dev.ecc hlog.quiet :)
  rw [hecc]
  exact h w

theorem tended_bridgeDrop (h : NoErr d) {die : Nat} (hdie : die < 2) (n : Nat) : Tended d (d.bridgeDrop die n) :=
  .setR h (by unfold TendFixed FAB_PDISC FLT_STAT; omega) _

theorem tended_nonOwner (h : NoErr d) {b : Nat} (hb : b < 16) (k : Nat) : Tended d (d.nonOwner k b false) := by
  have hcount : ¬ TendFixed (CMN_NORD k b) := by
    unfold CMN_NORD
    rw [Nat.add_assoc]
    exact commonsReg_not_fixed (by omega) (by omega)
  have hstat : ¬ TendFixed (CMN_STAT k) := commonsReg_not_fixed (o := 0xc0) (by decide) (by decide)
  have hone : Tended d (d.bump (CMN_NORD k b) 1) := .setR h hcount _
  have htwo : Tended d ((d.bump (CMN_NORD k b) 1).setFlag (CMN_STAT k) 0 true) := hone.trans (.setR hone.clean hstat _)
  exact htwo.trans (.setR htwo.clean hstat _)

theorem CmnReads.tended {k : Nat} (h : CmnReads k d e) (hclean : NoErr d) : Tended d e := by
  have hreg : ¬ TendFixed (CMN_ECCCORR k) := commonsReg_not_fixed (o := 0xc8) (by decide) (by decide)
  exact ⟨fun a ha => h.rg a fun he => hreg (he ▸ ha), slim_scores h.slim,
    fun w => Nat.le_zero.1 (Nat.le_trans (h.ecc w) (Nat.le_of_eq (hclean w)))⟩

theorem NoErr.cleanAt (h : NoErr d) (a n : Nat) : d.cleanAt a n = true :=
  (cleanAt_iff d).2 fun k _ => by
    rw [h]
    decide

/-- What stands at an address from the Commons' plain window on. -/
theorem target_plain {a : Nat} (hlo : 0x14000000000 ≤ a) (hhi : a < 0x14100000000) :
    (∃ k o, o < 0x400000 ∧ target a = .commons 0 k o) ∨ target a = .reserved := by
  have hw : a / 0x100000000 = 0x140 := by omega
  have ht : target a = if a % 0x100000000 < 0x4000000 then
      .commons 0 (a % 0x100000000 / 0x400000) (a % 0x100000000 % 0x400000) else .reserved := by
    unfold target
    simp only [hw]
  rw [ht]
  split
  · exact .inl ⟨_, _, Nat.mod_lt _ (by decide), rfl⟩
  · exact .inr rfl

theorem tended_readUnit (hr : r < 16) (h : NoErr d) {a : Nat} (hlo : 0x14000000000 ≤ a) (hhi : a < 0x14100000000) (n : Nat) :
    Tended d (d.readUnit (.score r) (dieOf r) a n).1 := by
  have hdie : dieOf r < 2 := by
    unfold dieOf
    omega
  unfold Dev.readUnit
  obtain ⟨k, o, ho, ht⟩ | ht := target_plain hlo hhi <;> rw [ht] <;> dsimp only
  · split
    · exact .refl h
    · split
      · exact tended_addrErr h
      · split
        · exact tended_bridgeDrop h hdie 1
        · split
          · exact (cmnRd_clean_bytes d (h.cleanAt _ n)).1.tended h
          · exact tended_nonOwner h (by omega) k
  · split
    · exact .refl h
    · split
      · exact tended_addrErr h
      · split
        · exact tended_bridgeDrop h hdie 1
        · exact .refl h

theorem tended_busReadN (hr : r < 16) (fuel : Nat) : ∀ (d : Dev) (a n : Nat), NoErr d → 0x14000000000 ≤ a →
    a + n ≤ 0x14100000000 → Tended d (Dev.busReadN (.score r) (dieOf r) fuel a n d).1 := by
  induction fuel with
  | zero => exact fun d _ _ h _ _ => .refl h
  | succ fuel ih =>
    intro d a n h hlo hhi
    unfold Dev.busReadN
    split
    · exact .refl h
    · dsimp only
      have hk : min n (d.unitSize - a % d.unitSize) ≤ n := Nat.min_le_left ..
      generalize min n (d.unitSize - a % d.unitSize) = k at *
      have hone := tended_readUnit hr h hlo (by omega) k
      exact hone.trans (ih _ (a + k) (n - k) hone.clean (by omega) (by omega))

/-! ### The rows -/

theorem tended_taken {t u : Tending} {q : Nat} (h : Tended t.d u.d) (p : Nat) (b : List Byte) (e : Nat) :
    Tended t.d (u.candidate p q b e).d := h.trans (tended_candidate p b e h.clean)

theorem tended_grow (hr : r < 16) (p q : Nat) (b : List Byte) (fuel : Nat) : ∀ t : Tending, NoErr t.d →
    Tended t.d (Tending.grow r p q b fuel t).d := by
  induction fuel with
  | zero => exact fun _ h => .refl h
  | succ fuel ih =>
    intro t h
    unfold Tending.grow
    dsimp only
    split
    · exact .refl h
    · have hread : Tended t.d (t.d.busRead (.score r) (dieOf r)
          (cmnBase r + (leAt b 16 4 + 4 * (t.cursor % leAt b 20 2)) % 0x400000) 4).1 :=
        tended_busReadN hr _ _ _ _ h (by unfold cmnBase; omega) (by unfold cmnBase; omega)
      have hrest : ∀ u : Tending, Tended t.d u.d → Tended t.d (Tending.grow r p q b fuel u).d := fun u hu => hu.trans (ih u hu.clean)
      exact hrest _ (tended_taken hread p b _)

/-- What TEND does to the rows of a site leaves the S-cores as they were (R338 to R343). -/
theorem tended_tendRows (hr : r < 16) (p q : Nat) (b : List Byte) (h : NoErr d) : Tended d (d.tendRows r p q b).d := by
  have hprune : ∀ t : Tending, t.d = d → Tended d (if tdPrune b then
      Tending.pruneFrom p q b (tdLast b + 1 - tdFirst b) (tdFirst b) t else t).d := fun t ht => by
    subst ht
    split
    · exact tended_pruneFrom p b _ _ _ h
    · exact .refl h
  unfold Dev.tendRows
  dsimp only
  have hfirst := hprune { d := d, pruned := 0, grown := 0, failed := 0, cursor := leAt b 22 2 } rfl
  generalize (if tdPrune b then _ else _ : Tending) = t at *
  split
  · exact hfirst.trans (tended_grow hr p q b _ t hfirst.clean)
  · exact hfirst

/-- Asked neither to prune nor to grow, it does nothing. -/
theorem tendRows_none (p q : Nat) {b : List Byte} (hprune : tdPrune b = false) (hgrow : tdGrow b = false) :
    d.tendRows r p q b = { d := d, pruned := 0, grown := 0, failed := 0, cursor := leAt b 22 2 } := by
  unfold Dev.tendRows
  dsimp only
  rw [hprune, hgrow]
  rfl

end Sys2Proof.Machine
end

section
/-! SUPPORT. An S-core's accesses to a Commons bank of its own region (R420 to R422), and the results of a TEND (R338). -/

namespace Sys2Proof.Machine

open Sys2Proof

variable {d e : Dev} {p r ad n : Nat}

theorem target_ownCommons {o : Nat} (hr : r < 16) (ho : o < 0x400000) : target (cmnBase r + o) = .commons 0 r o := by
  have hw : (cmnBase r + o) / 0x100000000 = 0x140 := by
    unfold cmnBase
    omega
  have ht : (cmnBase r + o) % 0x100000000 = 0x400000 * r + o := by
    unfold cmnBase
    omega
  have hregion : (0x400000 * r + o) / 0x400000 = r := by omega
  have hoff : (0x400000 * r + o) % 0x400000 = o := by omega
  unfold target
  simp only [hw]
  rw [ht, if_pos (by omega), hregion, hoff]

/-- `n` bytes at `ad` lie in one bank of the Commons of region `r`, of partition `p`, which the S-core owns. -/
structure OwnBank (d : Dev) (p r ad n : Nat) : Prop where
  region : r < 16
  part   : d.regPart r = some p
  base   : cmnBase r ≤ ad
  limit  : ad + n ≤ cmnBase r + 0x400000
  unit   : ad % 0x40000 + n ≤ 0x40000
  bank   : d.ownsBank r ((ad - cmnBase r) / 0x40000) ownScore = true
  done   : d.flag (CMN_OWN r ((ad - cmnBase r) / 0x40000)) 31 = false
  bridge : d.flag FLT_STAT 4 = false

/-- A part of the bytes. -/
theorem OwnBank.sub (h : OwnBank d p r ad n) {o k : Nat} (hk : o + k ≤ n) (hpos : 1 ≤ k) : OwnBank d p r (ad + o) k := by
  obtain ⟨hr, hp, hb, hl, hu, hbank, hdone, hbridge⟩ := h
  have hsame : (ad + o - cmnBase r) / 0x40000 = (ad - cmnBase r) / 0x40000 := by
    unfold cmnBase at *
    omega
  exact ⟨hr, hp, by omega, by omega, by omega, hsame ▸ hbank, hsame ▸ hdone, hbridge⟩

theorem tendFixed_bank {b : Nat} (hb : b < 16) : TendFixed (CMN_OWN r b) := .inl (by unfold CMN_OWN slotBase; omega)

theorem OwnBank.bank_lt (h : OwnBank d p r ad n) (hn : 1 ≤ n) : (ad - cmnBase r) / 0x40000 < 16 := by
  have := h.base
  have := h.limit
  omega

/-- The S-core owns it after anything that leaves what TEND leaves. -/
theorem OwnBank.tended (h : OwnBank d p r ad n) (hn : 1 ≤ n) (ht : Tended d e) : OwnBank e p r ad n := by
  have hown := ht.rg _ (tendFixed_bank (r := r) (h.bank_lt hn))
  obtain ⟨hr, hp, hb, hl, hu, hbank, hdone, hbridge⟩ := h
  refine ⟨hr, (regPart_congr (ht.rg _ (.inr (.inr ?_)))).trans hp, hb, hl, hu, ?_, (flag_congr 31 hown).trans hdone,
    (flag_congr 4 (ht.rg _ (.inr (.inl rfl)))).trans hbridge⟩
  · unfold CAL_REGPART
    omega
  · unfold Dev.ownsBank Dev.bankOwner at *
    simp only [fld_congr _ _ hown]
    exact hbank

/-! ### One access -/

theorem busReadN_zero (ag : Agent) (die : Nat) : ∀ (fuel a : Nat) (d : Dev), Dev.busReadN ag die fuel a 0 d = (d, [], true)
  | 0, _, _ => rfl
  | _ + 1, _, _ => rfl

theorem busWriteN_nil (ag : Agent) (die : Nat) (s : Sender) : ∀ (fuel a : Nat) (d : Dev), Dev.busWriteN ag die s fuel a [] d = (d, true)
  | 0, _, _ => rfl
  | _ + 1, _, _ => rfl

/-- A write of clean words is one of their bytes. -/
theorem NoErr.cmnPut (h : NoErr d) (r a : Nat) (l : List Byte) : d.cmnPut r a l = d.wordsWrite a l := by
  have hword : ∀ w, (d.cmnFix r w).1 = d := fun w => by
    unfold Dev.cmnFix
    simp only [h (8 * (w / 8))]
  have hfix : d.forEach (partWords a l.length) (fun d w => (d.cmnFix r w).1) = d :=
    forEach_inv (· = d) _ (fun e w he => he ▸ hword w) _ d rfl
  unfold Dev.cmnPut
  rw [hfix]
  rfl

section
variable (h : OwnBank d p r ad n) (hn : 1 ≤ n)
include h hn

theorem OwnBank.target : target ad = .commons 0 r (ad - cmnBase r) := by
  have hb := h.base
  have hl := h.limit
  have ht := target_ownCommons h.region (o := ad - cmnBase r) (by omega)
  rwa [Nat.add_sub_cancel' hb] at ht

omit hn in
theorem OwnBank.may (a k : Nat) : d.may (.score r) (.commons 0 r (ad - cmnBase r)) a k = true := by
  have hrights : d.rights (.score r) = .part p := by
    unfold Dev.rights
    dsimp only
    rw [h.part]
  unfold Dev.may
  rw [hrights]
  show d.owns p r = true
  unfold Dev.owns
  rw [h.part]
  exact beq_self_eq_true _

omit hn in
theorem OwnBank.owned : d.ownsBank r ((ad - cmnBase r) / 0x40000) (bankAgent (.score r) r) = true := by
  unfold bankAgent
  dsimp only
  rw [if_pos rfl]
  exact h.bank

omit hn in
theorem OwnBank.no_cut (die : Nat) (t : Target) (a : Nat) : d.bridgeCut die t a = false := by
  unfold Dev.bridgeCut
  rw [h.bridge]
  rfl

omit hn in
theorem OwnBank.unitSize : d.unitSize = 0x40000 := by
  unfold Dev.unitSize
  rw [h.bridge]
  rfl

/-- No handover holds the access. -/
theorem OwnBank.not_held : d.pendAt (.score r) ad n = false := by
  have hb := h.base
  have hu := h.unit
  have hone : (ad - cmnBase r + n - 1) / 0x40000 = (ad - cmnBase r) / 0x40000 := by
    unfold cmnBase at *
    omega
  unfold Dev.pendAt
  rw [h.target hn]
  dsimp only
  rw [Bool.and_eq_false_iff]
  refine .inl (List.any_eq_false.2 fun b _ hx => ?_)
  rw [hone, Bool.and_eq_true, Bool.and_eq_true, Bool.and_eq_true, decide_eq_true_eq, decide_eq_true_eq] at hx
  obtain ⟨⟨⟨hlo, hhi⟩, hpend⟩, -⟩ := hx
  rw [show b = (ad - cmnBase r) / 0x40000 by omega, h.done] at hpend
  exact Bool.noConfusion hpend

/-- One read. -/
theorem OwnBank.busRead (hclean : NoErr d) : ∃ e, d.busRead (.score r) (dieOf r) ad n = (e, d.rdB ad n, true) ∧ CmnReads r d e := by
  obtain ⟨hreads, hbytes⟩ := cmnRd_clean_bytes d (hclean.cleanAt ad n) (r := r)
  have hunit : d.readUnit (.score r) (dieOf r) ad n = ((d.cmnRd r ad n).1, d.rdB ad n, true) := by
    unfold Dev.readUnit
    rw [h.target hn]
    dsimp only
    rw [h.may, h.no_cut, h.owned, Nat.add_sub_cancel' h.base, hbytes]
    rfl
  have hu := h.unit
  refine ⟨_, ?_, hreads⟩
  unfold Dev.busRead
  rw [Dev.busReadN, if_neg (by omega)]
  dsimp only
  rw [h.unitSize, Nat.min_eq_left (by omega), hunit, Nat.sub_self]
  dsimp only
  rw [busReadN_zero, List.append_nil]
  rfl

/-- One write. -/
theorem OwnBank.busWrite (hclean : NoErr d) {l : List Byte} (hl : l.length = n) :
    Tended d (d.busWrite (.score r) (dieOf r) ad l .nobody).1 ∧
      (d.busWrite (.score r) (dieOf r) ad l .nobody).1.mem = memWr d.mem ad l := by
  obtain ⟨g, hnote, -⟩ := notePortA_keeps d r (ad - cmnBase r) n
  have hunit : d.writeUnit (.score r) (dieOf r) ad l .nobody = (({ d with regions := g } : Dev).wordsWrite ad l, true) := by
    unfold Dev.writeUnit
    rw [h.target hn]
    dsimp only
    rw [h.may, h.no_cut, h.owned, Nat.add_sub_cancel' h.base, hl, hnote]
    exact congrArg (·, true) (NoErr.cmnPut (d := { d with regions := g }) hclean r ad l)
  have halias : isAlias ad = false := by
    unfold isAlias
    rw [h.target hn]
    rfl
  have hne : l.isEmpty = false := by
    rw [List.isEmpty_eq_false_iff]
    exact List.ne_nil_of_length_pos (by omega)
  have hu := h.unit
  have hbus : (d.busWrite (.score r) (dieOf r) ad l .nobody).1 = ({ d with regions := g } : Dev).wordsWrite ad l := by
    unfold Dev.busWrite
    rw [Dev.busWriteN, hne, halias]
    dsimp only
    rw [if_neg Bool.false_ne_true, if_neg Bool.false_ne_true, h.unitSize, Nat.min_eq_left (by omega), List.take_length,
      List.drop_length, hunit, busWriteN_nil]
  rw [hbus]
  have hwrites := tended_wordsWrite (d := { d with regions := g }) ad l hclean
  exact ⟨⟨hwrites.rg, hwrites.scores, hwrites.clean⟩, (cmnWr_writes { d with regions := g } ad l).1⟩

end

/-! ### The results (R338) -/

/-- TEND's results: CURSOR, then the three counts; nothing else is written. -/
theorem results_writes {t : Tending} {a : Nat} (h : OwnBank t.d p r a 64) (hclean : NoErr t.d) :
    Tended t.d (t.results r a) ∧ (t.results r a).mem = memWr (memWr t.d.mem (a + 22) (leBytes 2 t.cursor)) (a + 40)
      (leBytes 4 t.pruned ++ leBytes 4 t.grown ++ leBytes 4 t.failed) := by
  obtain ⟨hone, hmem⟩ := (h.sub (o := 22) (k := 2) (by decide) (by decide)).busWrite (by decide) hclean (length_leBytes 2 t.cursor)
  obtain ⟨htwo, hmem'⟩ := ((h.sub (o := 40) (k := 12) (by decide) (by decide)).tended (by decide) hone).busWrite (by decide) hone.clean
    (l := leBytes 4 t.pruned ++ leBytes 4 t.grown ++ leBytes 4 t.failed) (by simp [length_leBytes])
  exact ⟨hone.trans htwo, hmem'.trans (congrArg (fun m => memWr m _ _) hmem)⟩

end Sys2Proof.Machine
end

section
/-! SUPPORT. TEND in the window of its Season (R336, R338, R339). -/

namespace Sys2Proof.Machine

open Sys2Proof

theorem exec_tend (r : Nat) (s : State) : exec (.tend r) s = s.run (·.opTend r) := rfl

variable {d e f : Dev} {r : Nat}

/-! ### An operation ends that writes GD -/

/-- The S-core stands where it stood, with the program it had; what it waits for may be another. -/
structure Stands (r : Nat) (d e : Dev) : Prop where
  rg   : ∀ a, StepReg r a → a ≠ SEQ_STAT r → e.rg a = d.rg a
  prog : (e.score r).prog = (d.score r).prog
  halt : (e.score r).halt = (d.score r).halt

theorem Stands.trans (h : Stands r d e) (g : Stands r e f) : Stands r d f :=
  ⟨fun a ha hs => (g.rg a ha hs).trans (h.rg a ha hs), g.prog.trans h.prog, g.halt.trans h.halt⟩

theorem Worked.stands {w : Nat → Prop} (h : Worked w r d e) : Stands r d e := by
  refine ⟨fun a ha _ => h.rg a (h.off a ha), ?_, ?_⟩ <;> rw [h.score]

theorem seqBlock_fixed {a : Nat} (hlo : slotBase r 0x11 ≤ a) (hhi : a < slotBase r 0x12) : TendFixed a := by
  unfold slotBase at hlo hhi
  exact .inl (by omega)

theorem Tended.stands (h : Tended d e) (r : Nat) : Stands r d e := by
  have hscore : e.score r = d.score r := by
    unfold Dev.score
    rw [h.scores]
  refine ⟨fun a ha _ => h.rg a (seqBlock_fixed (r := r) ?_ ?_), by rw [hscore], by rw [hscore]⟩ <;>
    unfold StepReg SEQ_DESC_LO SEQ_PC SEQ_STAT slotBase at * <;> omega

theorem Tended.greg (h : Tended d e) {k : Nat} (hk : k < 16) : e.greg r k = d.greg r k := by
  have hplace : slotBase r 0x11 ≤ SEQ_Gi_LO r k ∧ SEQ_Gi_LO r k + 4 < slotBase r 0x12 := by
    unfold SEQ_Gi_LO slotBase
    omega
  obtain ⟨hlo, hhi⟩ := hplace
  exact rg64_congr (h.rg _ (seqBlock_fixed hlo (by omega))) (h.rg _ (seqBlock_fixed (by omega) hhi))

theorem step_not_stat : SEQ_PC r ≠ SEQ_STAT r ∧ SEQ_DESC_LO r ≠ SEQ_STAT r ∧ SEQ_DESC_LO r + 4 ≠ SEQ_STAT r := by
  unfold SEQ_PC SEQ_DESC_LO SEQ_STAT
  omega

theorem Stands.seqPc (h : Stands r d e) : e.seqPc r = d.seqPc r :=
  fld_congr _ _ (h.rg _ (.inr (.inr (.inl rfl))) step_not_stat.1)

theorem Stands.seqDesc (h : Stands r d e) : e.seqDesc r = d.seqDesc r := by
  unfold Dev.seqDesc Dev.progAt
  rw [h.seqPc, h.prog]

theorem Stands.wentTo (h : Stands r d e) (hpc : d.seqPc r + 1 < 4096) : WentTo d (e.seqNext r).finish r (d.seqPc r + 1) := by
  obtain ⟨hto, hstate, hcount⟩ := seqNext_wentTo e (r := r) (by rw [h.seqPc]; exact hpc)
  obtain ⟨-, hlo, hhi⟩ := step_not_stat (r := r)
  rw [h.halt] at hstate
  rw [rg64_congr (h.rg _ (.inl rfl) hlo) (h.rg _ (.inr (.inl rfl)) hhi)] at hcount
  refine ⟨?_, ?_, ?_⟩
  · rw [← h.seqPc, ← hto]
    exact fld_congr _ _ (rg_finish_step (.inr (.inr (.inl rfl))))
  · rw [← hstate]
    exact fld_congr _ _ (rg_finish_step (.inr (.inr (.inr rfl))))
  · rw [← hcount]
    exact rg64_congr (rg_finish_step (.inl rfl)) (rg_finish_step (.inr (.inl rfl)))

theorem score_opDrop (e : Dev) (r id : Nat) :
    (e.opDrop r id).score r = { e.score r with ops := (e.score r).ops.filter (fun o => o.id != id) } := by
  unfold Dev.opDrop
  dsimp only
  rw [score_setScore, if_pos rfl]

theorem opDrop_stands (e : Dev) (r id : Nat) : Stands r e (e.opDrop r id) := by
  refine ⟨fun _ _ _ => rfl, ?_, ?_⟩ <;> rw [score_opDrop]

/-- The operation ends with `v` in GD. -/
theorem opGd_runs (h : Stands r d e) (hgreg : ∀ k, k < 16 → e.greg r k = d.greg r k) (hpc : d.seqPc r + 1 < 4096) (id v : Nat) :
    WentTo d (e.opGd r id v).finish r (d.seqPc r + 1) ∧ (e.opGd r id v).finish.greg r (dGd (d.seqDesc r)) = v % 2 ^ 64 ∧
      (∀ k, k < 16 → k ≠ dGd (d.seqDesc r) → (e.opGd r id v).finish.greg r k = d.greg r k) ∧
      (e.opGd r id v).finish.mem = e.mem := by
  have hdrop := h.trans (opDrop_stands e r id)
  have hgd : e.opGd r id v = ((e.opDrop r id).setG r (dGd (d.seqDesc r)) v).seqNext r := by
    unfold Dev.opGd
    dsimp only
    rw [hdrop.seqDesc]
  rw [hgd]
  generalize dGd (d.seqDesc r) = g
  have hset := hdrop.trans (Worked.setG (e.opDrop r id) r g v).stands
  have hpc' : ((e.opDrop r id).setG r g v).seqPc r + 1 < 4096 := by
    rw [hset.seqPc]
    exact hpc
  refine ⟨hset.wentTo hpc, ?_, fun k hk hne => ?_, ?_⟩
  · rw [greg_seqNext_finish hpc', greg_setG, if_pos rfl]
  · rw [greg_seqNext_finish hpc', greg_setG, if_neg hne]
    exact hgreg k hk
  · rw [finish_mem]
    exact (congrArg Dev.mem (seqNext_steps ((e.opDrop r id).setG r g v) (r := r) (by omega)).unscored :)

/-! ### TEND has read its block -/

/-- The registers that the descriptor's record, the read of the block and the wait touch. -/
def TendSeen (r a : Nat) : Prop := a = OBS_TSTAT ∨ a = OBS_TFIFO ∨ a = OBS_TDROP ∨ a = CMN_ECCCORR r ∨ a = SEQ_STAT r

/-- The device of a TEND whose block has been read: it waits, with one operation more. -/
structure TendReady (r : Nat) (d e : Dev) : Prop where
  rg      : ∀ a, ¬ TendSeen r a → e.rg a = d.rg a
  mem     : e.mem = d.mem
  clean   : NoErr e
  prog    : (e.score r).prog = (d.score r).prog
  halt    : (e.score r).halt = (d.score r).halt
  parts   : e.parts = d.parts
  regions : e.regions = d.regions

theorem TendReady.stands (h : TendReady r d e) : Stands r d e := by
  refine ⟨fun a ha hs => h.rg a fun hseen => ?_, h.prog, h.halt⟩
  unfold TendSeen OBS_TSTAT OBS_TFIFO OBS_TDROP CMN_ECCCORR SEQ_STAT at hseen
  unfold StepReg SEQ_DESC_LO SEQ_PC SEQ_STAT at ha
  unfold SEQ_STAT at hs
  unfold slotBase at *
  omega

/-- A register of the slots that is none of the two. -/
theorem TendReady.slot (h : TendReady r d e) {a : Nat} (hlo : 0x10000000 ≤ a) (hecc : a ≠ CMN_ECCCORR r) (hstat : a ≠ SEQ_STAT r) :
    e.rg a = d.rg a := h.rg a fun hseen => by
  unfold TendSeen OBS_TSTAT OBS_TFIFO OBS_TDROP at hseen
  omega

theorem TendReady.greg (h : TendReady r d e) (k : Nat) (hk : k < 16) : e.greg r k = d.greg r k := by
  have hne : SEQ_Gi_LO r k ≠ CMN_ECCCORR r ∧ SEQ_Gi_LO r k ≠ SEQ_STAT r ∧ SEQ_Gi_LO r k + 4 ≠ CMN_ECCCORR r ∧
      SEQ_Gi_LO r k + 4 ≠ SEQ_STAT r := by
    unfold SEQ_Gi_LO CMN_ECCCORR SEQ_STAT slotBase
    omega
  obtain ⟨hlo, hlo', hhi, hhi'⟩ := hne
  have hslot := general_slot (r := r) k
  exact rg64_congr (h.slot hslot hlo hlo') (h.slot (by omega) hhi hhi')

theorem TendReady.regPart (h : TendReady r d e) {j : Nat} (hj : j < 16) : e.regPart j = d.regPart j :=
  regPart_congr (h.rg _ (by unfold TendSeen OBS_TSTAT OBS_TFIFO OBS_TDROP CMN_ECCCORR SEQ_STAT CAL_REGPART slotBase; omega))

theorem TendReady.physOf (h : TendReady r d e) {n : Nat} (hn : n < 256) : e.physOf n = d.physOf n := by
  refine physOf_congr (h.slot ?_ ?_ ?_)
  · unfold FAB_REMAP slotBase
    omega
  · unfold FAB_REMAP CMN_ECCCORR slotBase
    omega
  · unfold FAB_REMAP SEQ_STAT slotBase
    omega

/-- A register of a core. -/
theorem TendReady.core (h : TendReady r d e) {q o : Nat} (ho : o < 0x10000) : e.rg (nBase q + o) = d.rg (nBase q + o) := by
  have hslot := nBase_slot q
  refine h.slot (by omega) ?_ ?_
  · unfold nBase CMN_ECCCORR slotBase
    omega
  · unfold nBase SEQ_STAT slotBase
    omega

/-- Whether TEND may run is what it was (R334, R335, R339). -/
theorem TendReady.tendState (h : TendReady r d e) (p q s : Nat) (hp : p < 16) : e.tendState p q s = d.tendState p q s := by
  have hmuted : e.muted p = d.muted p := by
    have hrg : e.rg (FLT_PMUTE p) = d.rg (FLT_PMUTE p) :=
      h.rg _ (by unfold TendSeen OBS_TSTAT OBS_TFIFO OBS_TDROP CMN_ECCCORR SEQ_STAT FLT_PMUTE slotBase; omega)
    unfold Dev.muted
    rw [fld_congr 0 8 hrg]
  have hmute : e.muteBeat q p = d.muteBeat q p := by
    unfold Dev.muteBeat Dev.part Dev.region
    rw [hmuted, h.parts, h.regions]
  have hreg : ∀ o, o < 0x100 → e.rg (nBase q + 0x3000 + o) = d.rg (nBase q + 0x3000 + o) := fun o ho => by
    rw [Nat.add_assoc]
    exact h.core (by omega)
  unfold Dev.tendState
  rw [hmute, flag_congr 2 (show e.rg (HRV_STAT q) = d.rg (HRV_STAT q) from hreg 0x4 (by decide)),
    fld_congr 0 16 (show e.rg (HRV_HWIN q) = d.rg (HRV_HWIN q) from hreg 0xc (by decide)),
    fld_congr 0 16 (show e.rg (HRV_SEASON q) = d.rg (HRV_SEASON q) from hreg 0x8 (by decide)),
    fld_congr 0 16 (show e.rg (HRV_SCOUNT q) = d.rg (HRV_SCOUNT q) from hreg 0x14 (by decide)),
    show e.rg (HRV_SEASONNO q) = d.rg (HRV_SEASONNO q) from hreg 0x18 (by decide)]

theorem TraceKeeps.tended (h : TraceKeeps d e) (hclean : NoErr d) : Tended d e := by
  refine ⟨fun a ha => h.rg a ?_ ?_ ?_, desk_scores h.desk, fun w => ?_⟩
  · rintro rfl
    unfold TendFixed OBS_TSTAT FLT_STAT at ha
    omega
  · rintro rfl
    unfold TendFixed OBS_TFIFO FLT_STAT at ha
    omega
  · rintro rfl
    unfold TendFixed OBS_TDROP FLT_STAT at ha
    omega
  · rw [desk_ecc h.desk]
    exact hclean w

/-- The block read, one operation entered and the wait begun. -/
theorem tendReady_of {sc : SCore} (hseen : TraceKeeps d e) (hread : CmnReads r e f) (hclean : NoErr d)
    (hprog : sc.prog = (d.score r).prog) (hhalt : sc.halt = (d.score r).halt) : TendReady r d ((f.setScore r sc).seqWait r 7) := by
  have hscore : ((f.setScore r sc).seqWait r 7).score r = sc := by
    show (f.setScore r sc).score r = sc
    rw [score_setScore, if_pos rfl]
  have hgone := (hseen.tended hclean).clean
  refine ⟨fun a ha => ?_, hread.mem.trans (desk_mem hseen.desk), (hread.tended hgone).clean, by rw [hscore, hprog], by rw [hscore, hhalt],
    (show f.parts = e.parts from (congrArg Dev.parts hread.slim :)).trans (desk_parts hseen.desk),
    (show f.regions = e.regions from (congrArg Dev.regions hread.slim :)).trans (congrArg Dev.regions hseen.desk :)⟩
  unfold TendSeen at ha
  rw [not_or, not_or, not_or, not_or] at ha
  obtain ⟨hstat, hfifo, hdrop, hecc, hwait⟩ := ha
  exact (rg_seqWait_ne _ 7 hwait).trans ((hread.rg a hecc).trans (hseen.rg a hstat hfifo hdrop))

/-- The S-core with the operation of a TEND begun: its descriptor `x`, the address `g` of its block `b`, and the Season `s`. -/
def SCore.tendBegun (sc : SCore) (x : List Byte) (g s : Nat) (b : List Byte) : SCore :=
  { sc with
      ops := sc.ops ++ [{ id := sc.next, desc := x, gd := 0, gs := g, posted := false, log := [leBytes 4 s, b], pieces := [],
                          refused := false, held := false }]
      next := sc.next + 1
      cur := some sc.next }

/-- A block of this device that no handover holds is read, and TEND goes on with it. -/
theorem tendStart_reads {x : List Byte} {a q : Nat} {b : List Byte} {ok : Bool} (hg : d.greg r (dGs x) = 2 ^ 48 * d.devId + a)
    (ha : a < 2 ^ 48) (hheld : d.pendAt (.score r) a 64 = false) (hread : d.busRead (.score r) (dieOf r) a 64 = (e, b, ok))
    (hsite : d.physOf (tdCore b) = some q) : d.tendStart r x =
      ((e.setScore r ((d.score r).tendBegun x (2 ^ 48 * d.devId + a) (d.rg (HRV_SEASONNO q)) b)).seqWait r 7).tendGo r
        (d.score r).next a (d.rg (HRV_SEASONNO q)) b := by
  have hid := devId_lt d
  have hlocal : (2 ^ 48 * d.devId + a) % 2 ^ 48 = a := by omega
  have hhere : ¬ (decide (2 ^ 57 ≤ 2 ^ 48 * d.devId + a) || decide (bitsOf (2 ^ 48 * d.devId + a) 48 9 ≠ d.devId)) = true := by
    rw [Bool.or_eq_true, decide_eq_true_eq, decide_eq_true_eq]
    unfold bitsOf
    omega
  unfold Dev.tendStart
  dsimp only
  rw [hg, if_neg hhere, hlocal, hheld, if_neg Bool.false_ne_true, hread]
  dsimp only
  rw [hsite]
  rfl

/-- TEND reads its block and goes on with it. -/
theorem opTend_reads {x : List Byte} {p q a : Nat} (h : AtDesc d r 19 x) (hown : OwnBank d p r a 64) (hclean : NoErr d)
    (hg : d.greg r (dGs x) = 2 ^ 48 * d.devId + a) (hphys : d.physOf (tdCore (d.rdB a 64)) = some q) :
    ∃ e id, TendReady r d e ∧ d.opTend r = e.tendGo r id a (d.rg (HRV_SEASONNO q)) (d.rdB a 64) := by
  have hseen := descSeen_trace d r x
  have htended := hseen.tended hclean
  have hown' := hown.tended (by decide) htended
  obtain ⟨f, hread, hreads⟩ := hown'.busRead (by decide) htended.clean
  have hlow : a < 2 ^ 48 := by
    have hlimit := hown.limit
    have hr := h.1
    unfold cmnBase at hlimit
    omega
  have hwaits : d.waitsAt r 19 7 = false := by
    unfold Dev.waitsAt
    rw [atDesc_running h]
    rfl
  have hdev : (d.descSeen r x).devId = d.devId := fld_congr 0 9 (hseen.rg _ (by decide) (by decide) (by decide))
  have hscore : (d.descSeen r x).score r = d.score r := (descSeen_worked d r r x).score
  have hseason : (d.descSeen r x).rg (HRV_SEASONNO q) = d.rg (HRV_SEASONNO q) :=
    descSeen_rg_slot d r x (Nat.le_trans (nBase_slot q) (by unfold HRV_SEASONNO; omega))
  have hsite : (d.descSeen r x).physOf (tdCore (d.rdB a 64)) = some q :=
    (physOf_congr (descSeen_rg_slot d r x (by unfold FAB_REMAP slotBase; omega))).trans hphys
  rw [rdB_congr (desk_mem hseen.desk)] at hread
  have hstart := tendStart_reads (by rw [descSeen_greg, hg, hdev]) hlow (hown'.not_held (by decide)) hread hsite (x := x)
  rw [hscore, hseason] at hstart
  have hgo : d.opTend r = (d.descSeen r x).tendStart r x := by
    unfold Dev.opTend
    rw [hwaits, if_neg Bool.false_ne_true, desc_at h]
  exact ⟨_, _, tendReady_of (sc := (d.score r).tendBegun x _ _ _) hseen hreads hclean rfl rfl, hgo.trans hstart⟩

/-! ### TEND goes -/

/-- TEND in the window of the Season in which it began, at a core of its partition, works and answers 0. -/
theorem tendGo_goes (h : TendReady r d e) (hr : r < 16) {p q id a : Nat} {b : List Byte} (hp : d.regPart r = some p)
    (hnames : NamesCore d p (tdCore b) q) (hdone : d.flag (HRV_STAT q) 2 = true) (hmute : d.muteBeat q p = false)
    (hwindow : d.fld (HRV_SCOUNT q) 0 16 < min (d.fld (HRV_HWIN q) 0 16) (d.fld (HRV_SEASON q) 0 16)) :
    e.tendGo r id a (d.rg (HRV_SEASONNO q)) b = ((e.tendRows r p q b).results r a).opGd r id 0 := by
  obtain ⟨hcore, howns, hphys⟩ := hnames
  have hstate : e.tendState p q (d.rg (HRV_SEASONNO q)) = .goes := by
    rw [h.tendState p q _ (regPart_lt hp)]
    unfold Dev.tendState
    rw [if_neg (by rw [Bool.or_eq_true, decide_eq_true_eq, decide_eq_true_eq]; omega), hdone, hmute]
    rfl
  have howns' : e.owns p (tdCore b / 16) = true := by
    unfold Dev.owns at *
    rw [h.regPart (by omega)]
    exact howns
  unfold Dev.tendGo
  rw [h.regPart hr, hp]
  dsimp only
  rw [howns', h.physOf hcore, hphys, if_neg (by simp [hcore])]
  dsimp only
  rw [hstate]

/-- What the claims ask of a TEND that may run: its block in a bank of its own, its core, and the window of the Season. -/
structure TendMay (d : Dev) (r : Nat) (x : List Byte) (a p q : Nat) : Prop where
  desc   : AtDesc d r 19 x
  clean  : NoErr d
  own    : OwnBank d p r a 64
  addr   : d.greg r (dGs x) = 2 ^ 48 * d.devId + a
  names  : NamesCore d p (tdCore (d.rdB a 64)) q
  done   : d.flag (HRV_STAT q) 2 = true
  mute   : d.muteBeat q p = false
  window : d.fld (HRV_SCOUNT q) 0 16 < min (d.fld (HRV_HWIN q) 0 16) (d.fld (HRV_SEASON q) 0 16)

/-- TEND works on the rows, writes its results, and answers. -/
theorem TendMay.goes {x : List Byte} {a p q : Nat} (h : TendMay d r x a p q) : ∃ e id, TendReady r d e ∧
    d.opTend r = ((e.tendRows r p q (d.rdB a 64)).results r a).opGd r id 0 ∧ OwnBank e p r a 64 := by
  obtain ⟨e, id, hready, hgo⟩ := opTend_reads h.desc h.own h.clean h.addr h.names.2.2
  refine ⟨e, id, hready, hgo.trans (tendGo_goes hready h.own.region h.own.part h.names h.done h.mute h.window), ?_⟩
  have hbank := hready.slot (a := CMN_OWN r ((a - cmnBase r) / 0x40000)) (by unfold CMN_OWN slotBase; omega) (by
    have := h.own.bank_lt (by decide)
    unfold CMN_OWN CMN_ECCCORR
    omega) (by
    have := h.own.bank_lt (by decide)
    unfold CMN_OWN SEQ_STAT slotBase
    omega)
  obtain ⟨hr, hp, hb, hl, hu, hown, hdone, hbridge⟩ := h.own
  refine ⟨hr, (hready.regPart hr).trans hp, hb, hl, hu, ?_, (flag_congr 31 hbank).trans hdone,
    (flag_congr 4 (hready.rg _ ?_)).trans hbridge⟩
  · unfold Dev.ownsBank Dev.bankOwner at *
    simp only [fld_congr _ _ hbank]
    exact hown
  · unfold TendSeen OBS_TSTAT OBS_TFIFO OBS_TDROP CMN_ECCCORR SEQ_STAT FLT_STAT slotBase
    omega

theorem tend_runs (s : State) {x : List Byte} {a p q : Nat} (h : TendMay s.dev r x a p q) (hpc : s.dev.seqPc r + 1 < 4096) :
    Runs (.tend r) s (fun e => WentTo s.dev e r (s.dev.seqPc r + 1) ∧ e.greg r (dGd x) = 0 ∧
      (∀ k, k < 16 → k ≠ dGd x → e.greg r k = s.dev.greg r k)) := by
  obtain ⟨e, id, hready, hgo, hown⟩ := h.goes
  have hrows := tended_tendRows h.own.region p q (s.dev.rdB a 64) hready.clean
  obtain ⟨hresults, -⟩ := results_writes (hown.tended (by decide) hrows) hrows.clean
  have hall := hrows.trans hresults
  have hgreg : ∀ k, k < 16 → ((e.tendRows r p q (s.dev.rdB a 64)).results r a).greg r k = s.dev.greg r k := fun k hk =>
    (hall.greg hk).trans (hready.greg k hk)
  obtain ⟨hwent, hgd, hothers, -⟩ := opGd_runs (hready.stands.trans (hall.stands r)) hgreg hpc id 0
  rw [h.desc.2.2.1] at hgd hothers
  rw [runs_iff (exec_tend r s), hgo]
  exact ⟨hwent, hgd, hothers⟩

/-! ### The memory a TEND leaves that works on nothing -/

/-- Bytes that read the same. -/
theorem rdB_reads {a n : Nat} (h : ∀ b, a ≤ b → b < a + n → e.mem.read b = d.mem.read b) : e.rdB a n = d.rdB a n := by
  rw [rdB_eq_map, rdB_eq_map]
  exact List.map_congr_left fun i hi => h (a + i) (by omega) (by have := List.mem_range.1 hi; omega)

theorem leAt_rdB (d : Dev) {a m j n : Nat} (h : j + n ≤ m) : leAt (d.rdB a m) j n = d.rdN (a + j) n := by
  obtain ⟨k, rfl⟩ := Nat.exists_eq_add_of_le h
  have hlen : (d.rdB a j).length = j := length_rdB d j a
  rw [Nat.add_assoc, rdB_add, leAt_append_right (Nat.le_of_eq hlen), hlen, Nat.sub_self, rdB_add,
    leAt_append_left (by rw [length_rdB]; omega)]
  unfold leAt Dev.rdN
  rw [List.drop_zero, List.take_of_length_le (Nat.le_of_eq (length_rdB d n _))]

/-- Bytes written over themselves change nothing. -/
theorem memWr_rdB_read (d : Dev) (a n b : Nat) : (memWr d.mem a (d.rdB a n)).read b = d.mem.read b := by
  rw [memWr_read, length_rdB]
  split
  · rw [rdB_eq_map, List.getD_eq_getElem _ _ (by rw [List.length_map, List.length_range]; omega), List.getElem_map, List.getElem_range,
      Nat.add_sub_cancel' (by omega)]
  · rfl

/-- CURSOR as it was, and counts of zero. -/
theorem results_read {m : Memory} {a b : Nat} (hm : m = memWr (memWr d.mem (a + 22) (leBytes 2 (leAt (d.rdB a 64) 22 2))) (a + 40)
    (leBytes 4 0 ++ leBytes 4 0 ++ leBytes 4 0)) : m.read b = if a + 40 ≤ b ∧ b < a + 52 then 0#8 else d.mem.read b := by
  have hcursor : leBytes 2 (leAt (d.rdB a 64) 22 2) = d.rdB (a + 22) 2 := by
    have hself := leBytes_leNat (d.rdB (a + 22) 2)
    rw [length_rdB] at hself
    rw [leAt_rdB d (by decide)]
    exact hself
  have hzero : leBytes 4 0 ++ leBytes 4 0 ++ leBytes 4 0 = List.replicate 12 0#8 := by decide
  rw [hm, hcursor, hzero, memWr_read, memWr_rdB_read, List.length_replicate]
  split
  · rw [List.getD_eq_getElem _ _ (by rw [List.length_replicate]; omega), List.getElem_replicate]
  · rfl

theorem rdN_zero {n : Nat} : ∀ {a : Nat}, (∀ b, a ≤ b → b < a + n → d.mem.read b = 0#8) → d.rdN a n = 0 := by
  unfold Dev.rdN
  induction n with
  | zero => exact fun _ => rfl
  | succ n ih =>
    intro a h
    show (d.mem.read a).toNat + 256 * leNat (d.rdB (a + 1) n) = 0
    rw [h a (Nat.le_refl a) (by omega), ih fun b hlo hhi => h b (by omega) (by omega)]
    rfl

theorem tend_none_runs (s : State) {x : List Byte} {a p q : Nat} (h : TendMay s.dev r x a p q) (hpc : s.dev.seqPc r + 1 < 4096)
    (hprune : tdPrune (s.dev.rdB a 64) = false) (hgrow : tdGrow (s.dev.rdB a 64) = false) :
    Runs (.tend r) s (fun e => WentTo s.dev e r (s.dev.seqPc r + 1) ∧ e.greg r (dGd x) = 0 ∧ e.rdN (a + 40) 4 = 0 ∧
      e.rdN (a + 44) 4 = 0 ∧ e.rdN (a + 48) 4 = 0 ∧ e.rdN (a + 22) 2 = leAt (s.dev.rdB a 64) 22 2 ∧
      MemKeeps s.dev e (fun b => (a + 40 ≤ b ∧ b < a + 52))) := by
  obtain ⟨e, id, hready, hgo, hown⟩ := h.goes
  rw [tendRows_none p q hprune hgrow] at hgo
  obtain ⟨hresults, hmem⟩ := results_writes
    (t := { d := e, pruned := 0, grown := 0, failed := 0, cursor := leAt (s.dev.rdB a 64) 22 2 }) hown hready.clean
  generalize ({ d := e, pruned := 0, grown := 0, failed := 0, cursor := leAt (s.dev.rdB a 64) 22 2 } : Tending).results r a = f at *
  obtain ⟨hwent, hgd, -, hkept⟩ := opGd_runs (hready.stands.trans (hresults.stands r))
    (fun k hk => (hresults.greg hk).trans (hready.greg k hk)) hpc id 0
  rw [h.desc.2.2.1] at hgd
  have hreads : ∀ b, (f.opGd r id 0).finish.mem.read b = if a + 40 ≤ b ∧ b < a + 52 then 0#8 else s.dev.mem.read b := fun b =>
    results_read (hkept.trans (hready.mem ▸ hmem))
  have hzero : ∀ o, 40 ≤ o → o + 4 ≤ 52 → (f.opGd r id 0).finish.rdN (a + o) 4 = 0 := fun o hlo hhi => rdN_zero fun b hb hb' => by
    rw [hreads, if_pos (by omega)]
  rw [runs_iff (exec_tend r s), hgo]
  refine ⟨hwent, hgd, hzero 40 (by decide) (by decide), hzero 44 (by decide) (by decide), hzero 48 (by decide) (by decide),
    ?_, fun b hb => ?_⟩
  · rw [leAt_rdB s.dev (by decide)]
    exact congrArg leNat (rdB_reads fun b _ _ => by rw [hreads, if_neg (by omega)])
  · rw [hreads, if_neg hb]

end Sys2Proof.Machine
end

section
/-! The obligation about the Season's descriptors (R326, R336 to R339, R349, R402, R421, R422). -/

namespace Sys2Proof.Machine

open Sys2Proof

/-- The claims' hypotheses about a TEND. -/
theorem tendMay_of {d : Dev} {r : Nat} {x : List Byte} {g p q : Nat} {b : List Byte} (h : AtDesc d r 19 x) (hecc : d.ecc = [])
    (hblock : OwnCommons d r (d.greg r (dGs x)) g 64 ∧ b = d.rdB g 64)
    (hcore : d.regPart r = some p ∧ NamesCore d p (tdCore b) q ∧ q < 256)
    (hwindow : d.flag (HRV_STAT q) 2 = true ∧ d.muteBeat q p = false ∧
      d.fld (HRV_SCOUNT q) 0 16 < min (d.fld (HRV_HWIN q) 0 16) (d.fld (HRV_SEASON q) 0 16)) : TendMay d r x g p q := by
  obtain ⟨⟨haddr, hbase, hlimit, hunit, hbank, hpend, -, hbridge⟩, rfl⟩ := hblock
  obtain ⟨hpart, hnames, -⟩ := hcore
  obtain ⟨hdone, hmute, hopen⟩ := hwindow
  exact ⟨h, .of_nil hecc, ⟨h.1, hpart, hbase, hlimit, hunit, hbank, hpend, hbridge⟩, haddr, hnames, hdone, hmute, hopen⟩

/-- Settles O33: each descriptor's form is worked out from its record on, the registers of the S-core apart from what the form does;
for TEND, that all its work on rows and results leaves the S-cores and the owners of the banks as they were. -/
theorem seasonDescriptors : Obligations.SeasonDescriptors := by
  unfold Obligations.SeasonDescriptors
  refine ⟨?_, ?_, ?_, ?_, ?_, ?_, ?_, ?_, ?_, ?_⟩
  · intro s r x g p q b h hpc _ hecc hblock hcore hwindow
    exact tend_runs s (tendMay_of h hecc hblock hcore hwindow) hpc
  · intro s r x g p q b h hpc _ hecc hblock hcore hwindow ⟨hprune, hgrow⟩
    have hmay := tendMay_of h hecc hblock hcore hwindow
    obtain ⟨-, rfl⟩ := hblock
    exact tend_none_runs s hmay hpc hprune hgrow
  · exact fun s r x c rest h hpc hended hcores => hstep_end_runs s h hpc hended hcores
  · exact fun s r x h hended => hstep_wait_runs s h hended
  · exact fun s r c rest _ ⟨hwaits, hended, hpc⟩ hcores => hstepResume_runs s hwaits hended hpc hcores
  · exact fun s r x p h hpart ⟨hon, hmuted⟩ ⟨hcopy, hflags⟩ => ckpt_runs s h hpart hon hmuted hcopy hflags
  · exact fun s r x h hpc hok => modset_runs s h hpc hok
  · exact fun s r x b h hpc ⟨hb, hport, hcode⟩ hown => own_take_runs s h hpc hb hport hcode hown
  · exact fun s r x b h hpc ⟨hb, hport⟩ hown => own_refused_runs s h hpc hb hport hown
  · exact fun s r x h hpc => signal_runs s h hpc

end Sys2Proof.Machine
end
